-- ==== Sys2Proof/Word.lean ====
section
/-! DEFINITION. Words: the bit-vector types of the device and the plainest operations on them
(spec 00 R12, R13: bit 0 is the least significant bit, multi-byte fields are little endian). -/

namespace Sys2Proof

set_option Elab.async false

/-- A byte, the smallest addressable unit of every memory. -/
abbrev Byte := BitVec 8
/-- A 32-bit lane or register word. -/
abbrev Word := BitVec 32
/-- A 64-bit scalar register. -/
abbrev Word64 := BitVec 64
/-- One bit per vector lane (a predicate register, spec 02 R68). -/
abbrev Lanes := BitVec 128
/-- A vector register: 128 lanes of 32 bits (spec 02 R68). -/
abbrev VReg := Vector Word 128

end Sys2Proof
end

