-- ==== Sys2Proof/Syntax.lean ====
section
/-! DEFINITION. The commands of the device: `Instr` has one constructor per row of spec/opcode_table.json, with
the operands that its sender chooses. The slots of a tile's bundle are commands of their own (spec 02 R55 to R64,
Tables 2.2 to 2.8); events of timers, links, sensors and engines are commands that carry what only the outside or
the physics decides (a device time, a count of cycles, received data, a measurement). -/

namespace Sys2Proof.Machine

set_option Elab.async false

/-- A physical tile, cluster-major: instance 32n + 4k + j for Sn.Ck.Yj (spec 14 Table 14.2). -/
abbrev TileId := Fin 128

/-- Where a slot of a bundle stands: its tile, the reserved header bits [7:5] of its bundle, and whether it is the
last enabled slot of the bundle, with which the bundle issues (spec 02 R54, R55). -/
structure Issue where
  tile : TileId
  hdr : BitVec 3
  last : Bool
  deriving DecidableEq, Repr

/-- Fields of the vector slot (spec 02 Table 2.4); the opcode is the command. `rsv` is bit [63]. -/
structure VecF where
  guard : BitVec 4
  vd : BitVec 6
  va : BitVec 6
  vb : BitVec 6
  vc : BitVec 6
  rnd : BitVec 2
  pd : BitVec 3
  vbs : Bool
  ss : BitVec 5
  imm : BitVec 16
  rsv : Bool
  deriving DecidableEq, Repr

/-- Fields of the array slot (spec 02 Table 2.5); the OP, and the PASS of an ACFG, are the command. -/
structure ArrF where
  guard : BitVec 4
  sel : BitVec 2
  fmtX : BitVec 4
  fmtW : BitVec 4
  feed : BitVec 3
  drainSt : BitVec 3
  kgrp : BitVec 12
  pass : BitVec 4
  acc : BitVec 2
  rsv : BitVec 6
  deriving DecidableEq, Repr

/-- Fields of the access slot (spec 02 Table 2.6). -/
structure AccF where
  guard : BitVec 4
  vr : BitVec 6
  base : BitVec 5
  line : BitVec 19
  rot : BitVec 6
  rsv : BitVec 4
  deriving DecidableEq, Repr

/-- Fields of the message slot (spec 02 Table 2.7). -/
structure MsgF where
  guard : BitVec 4
  door : BitVec 4
  vr : BitVec 6
  nm1 : BitVec 3
  dest : BitVec 7
  sx : BitVec 5
  pd : BitVec 3
  rsv : BitVec 4
  deriving DecidableEq, Repr

/-- Fields of the control slot (spec 02 Table 2.8); OP and SUB are the command. -/
structure CtlF where
  guard : BitVec 4
  sd : BitVec 5
  sa : BitVec 5
  sb : BitVec 5
  imm : BitVec 21
  deriving DecidableEq, Repr

/-- Operations of the vector slot (spec 02 Table 2.25). -/
inductive VecOp where
  | add | sub | mul | fma | min | max | abs
  | exp | log | rcp | rsqrt | cvt
  | eq | ne | lt | le | gt | ge | unord | ieq | ine | ilt | ile | iltu | ileu
  | iadd | isub | and | or | xor | shl | shr | sra
  | perm | rot | rsum | rmax | rmin | mov | bcast | sel | iota
  deriving DecidableEq, Repr

/-- Operations of the array slot (spec 02 Table 2.5; the four ACFG sub-operations of 05 Table 5.5 apart). -/
inductive ArrOp where
  | mode | wload | mm | drain | gstat | bindFeed | bindDrain | drainCfg | resetWalk
  deriving DecidableEq, Repr

/-- Operations of the access slot (spec 02 Table 2.6). -/
inductive AccOp where
  | ld | st | dgo | dwait | fence
  deriving DecidableEq, Repr

/-- Operations of the message slot (spec 02 Table 2.7). -/
inductive MsgOp where
  | send | sendr | recv | recvt | dpoll
  deriving DecidableEq, Repr

/-- Operations of the control slot (spec 02 Table 2.26, 06 Table 6.2). -/
inductive CtlOp where
  | add | sub | and | or | xor | shl | shr | sra | addi | smul | li | br | loop | wait | time
  | psetEq | psetNe | psetLt | psetLe | psetGt | psetGe | psetLtu | psetGeu | halt | issue | mstat | gstatq
  deriving DecidableEq, Repr

/-- One enabled slot of a bundle. `wait` of an access slot is the number of cycles its LD or ST waited at bank
arbiters, at most 40 (spec 03 R112, 02 Table 2.14). `bad` is an enabled slot that holds a reserved opcode (spec 02 R57). -/
inductive SlotOp where
  | vec (op : VecOp) (f : VecF)
  | arr (op : ArrOp) (f : ArrF)
  | acc (op : AccOp) (f : AccF) (wait : Fin 41)
  | msg (op : MsgOp) (f : MsgF)
  | ctl (op : CtlOp) (f : CtlF)
  | bad (slot : Fin 5)
  deriving DecidableEq, Repr

/-- Who makes a register access: the host or a control processor (spec 14 R539, R540). -/
inductive Actor where
  | host
  | cp (n : Fin 4)
  deriving DecidableEq, Repr

/-- A message of another tile, as a door holds it (spec 02 R81, Table 2.12). `regs` is its payload. -/
structure DoorMsg where
  srcTile : Nat
  remote : Bool
  srcMember : Nat
  seq : BitVec 16
  tag : BitVec 16
  regs : List VReg
  deriving DecidableEq, Repr

/-- What arrives at a door: the oldest local message in flight from logical tile `src`, or one from another
device. -/
inductive ArrivalSrc where
  | local (src : Fin 112)
  | remote (m : DoorMsg)
  deriving DecidableEq, Repr

/-- Credits that arrive at a sender: the oldest ones on their way from a door of logical tile `tile`, or ones from a
door of a tile of another device. -/
inductive CreditSrc where
  | local (tile : Fin 112) (door : Fin 16)
  | remote (member tile door n : Nat)
  deriving DecidableEq, Repr

/-- Where a marver problem stood when its deadline was detected (spec 06 R278 to R280): ended, the last line of its output
written at device time `wrote`; in progress in a phase, with the iterations, the column and the measures taken so far, its
last completed iterate written at `wrote`; not started. -/
inductive MvAt where
  | ended (wrote : Nat)
  | inProgress (phase iter column measures wrote : Nat)
  | notStarted
  deriving DecidableEq, Repr

/-- What moving rows of a descriptor cost (spec 02 R99, 03 R113): cycles that its ACCESS requests waited at bank arbiters,
cycles that its MESSAGE requests waited at those of another tile's pantry, and cycles that rows or columns of its feeder
stream waited for it. -/
structure MoveCost where
  wait : Nat
  msgWait : Nat
  late : Nat
  deriving DecidableEq, Repr

/-- The program cycle at which a unit acts, and the cycles that its requests waited at bank arbiters (spec 03 R113). -/
structure Waited where
  cyc : Nat
  wait : Nat
  deriving DecidableEq, Repr

/-- The program cycle at which rows move, and what moving them cost. -/
structure MoveAt where
  cyc : Nat
  cost : MoveCost
  deriving DecidableEq, Repr

/-- The device time of a domain's step boundary, and whether the agreed copy is valid on every other member of the group (spec 09
R389). -/
structure BoundaryAt where
  time : Nat
  others : Bool
  deriving DecidableEq, Repr

/-- What a drain stream met while an MM drained (spec 02 R99, 05 R223): the cycles for which it could not accept output, and
the cycles its lines wait at bank arbiters on their way from staging to the pantry. -/
structure DrainCost where
  stream : Fin 8
  press : Nat
  wait : Nat
  deriving DecidableEq, Repr

/-- What a cloning device receives (spec 09 R394): commit records by source position; the leaf digests of the reference;
one leaf; the same of the frozen base region. -/
inductive CloneUnit where
  | records (rs : List (Nat × List Byte))
  | tree (src : Nat) (leaves : List Nat)
  | leaf (src idx : Nat) (data : List Byte)
  | nodes (src level first : Nat) (digests : List Nat)
  | baseTree (src : Nat) (leaves : List Nat)
  | baseLeaf (src idx : Nat) (data : List Byte)
  deriving DecidableEq, Repr

/-- What a clone or repair asks of a source (spec 09 R388, R394); `done` ends it. -/
inductive CloneAsk where
  | record
  | digests (level first count : Nat)
  | leaves (first count : Nat)
  | base (first count : Nat)
  | baseDigests (level first count : Nat)
  | done
  deriving DecidableEq, Repr

/-- A frame that a Kamduelm port receives (spec 10 R415): all of its bytes, whether an FEC codeword under it was
uncorrectable, and the device time of its last byte. -/
structure RxFrame where
  port : Fin 8
  bytes : List Byte
  fecBad : Bool
  time : Nat
  deriving DecidableEq, Repr

/-- A CONTROL report whose layout the spec does not state (spec 08 R365, spec 09 Table 9.8): in domain `d`, that member `m` was missing
at a TIMEOUT, or that plan position `pos` met a second FAULT. -/
inductive Told where
  | timeout (d m : Nat)
  | fault (d pos : Nat)
  deriving DecidableEq, Repr

/-- What a DOOR frame for this device carries (spec 10 R422): a message for a door of logical tile `tile`, or credits
that a door of a remote tile returns to logical tile `tile`. -/
inductive DoorItem where
  | message (tile : Fin 112) (door : BitVec 4) (m : DoorMsg)
  | credits (tile : Fin 112) (member rtile rdoor n : Nat)
  deriving DecidableEq, Repr

/-- An error that a DRAM access meets: the line, whether two devices of the burst failed, the x4 device of a single
failure (spec 10 R433). -/
structure DramHit where
  line : Nat
  double : Bool
  dev : Nat
  deriving DecidableEq, Repr

/-- A mailbox request (spec 11 R457): VERSION, SEQ, TAG and payload of its header, what host memory holds at the
addresses that the payload names, and the device time of its REQ_TAIL write. -/
structure MbxArgs where
  version : BitVec 16
  seq : BitVec 32
  tag : BitVec 64
  payload : List Byte
  dma : List Byte
  dma2 : List Byte
  time : Nat
  deriving DecidableEq, Repr

/-- One cluster's ageing monitors and sensor (spec 12 R508, Table 12.10). -/
structure AgeReading where
  cluster : Fin 32
  cpr0 : Nat
  cpr1 : Nat
  ro0 : Nat
  ro1 : Nat
  temp : Nat
  deriving DecidableEq, Repr

/-- What a start finds (spec 13 R517, Table 13.1): the clusters that fail BIST, each channel's DIMM (its serial number,
0 for none; whether it is a TKD2-M72), whether its stored values pass (spec 10 R436), whether full training passes, the rows that a repair replaces, the
host ports that train within the 2 s of R410, whether CP1 and the MAILBOX pass BIST, and the
ageing readings. -/
structure StartFinds where
  badClusters : List (Fin 32)
  serials : List Nat
  foreign : List (Fin 24)
  storedBad : List (Fin 24)
  trainBad : List (Fin 24)
  ppr : List (Fin 24 × Nat)
  hostUp : List (Fin 2)
  cp1Ok : Bool
  mbxOk : Bool
  cp23Ok : Bool
  ages : List AgeReading
  time : Nat
  deriving DecidableEq, Repr

/-- Who holds a read pin of a domain (spec 07 R591). -/
inductive PinHolder where
  | exportEngine
  | cloneSource (member : Nat)
  | agreedCopy
  deriving DecidableEq, Repr

/-- The limits that firmware may set (spec 12 R501). -/
inductive Limit where
  | pcap
  | tThrottle
  | targetN (stack : Fin 4)
  deriving DecidableEq, Repr

end Sys2Proof.Machine

namespace Sys2Proof

open Machine

/-- The commands: one constructor per row of spec/opcode_table.json, family by family. -/
inductive Instr where
  -- Commands of the vector slot (spec 02 R55, R69 to R71, 04 R170 to R183, R586).
  | vAdd (c : Issue) (f : VecF)
  | vSub (c : Issue) (f : VecF)
  | vMul (c : Issue) (f : VecF)
  | vFma (c : Issue) (f : VecF)
  | vMin (c : Issue) (f : VecF)
  | vMax (c : Issue) (f : VecF)
  | vAbs (c : Issue) (f : VecF)
  | exp (c : Issue) (f : VecF)
  | log (c : Issue) (f : VecF)
  | rcp (c : Issue) (f : VecF)
  | rsqrt (c : Issue) (f : VecF)
  | cvt (c : Issue) (f : VecF)
  | vEq (c : Issue) (f : VecF)
  | vNe (c : Issue) (f : VecF)
  | vLt (c : Issue) (f : VecF)
  | vLe (c : Issue) (f : VecF)
  | vGt (c : Issue) (f : VecF)
  | vGe (c : Issue) (f : VecF)
  | unord (c : Issue) (f : VecF)
  | ieq (c : Issue) (f : VecF)
  | ine (c : Issue) (f : VecF)
  | ilt (c : Issue) (f : VecF)
  | ile (c : Issue) (f : VecF)
  | iltu (c : Issue) (f : VecF)
  | ileu (c : Issue) (f : VecF)
  | iadd (c : Issue) (f : VecF)
  | isub (c : Issue) (f : VecF)
  | vAnd (c : Issue) (f : VecF)
  | vOr (c : Issue) (f : VecF)
  | vXor (c : Issue) (f : VecF)
  | vShl (c : Issue) (f : VecF)
  | vShr (c : Issue) (f : VecF)
  | vSra (c : Issue) (f : VecF)
  | perm (c : Issue) (f : VecF)
  | rot (c : Issue) (f : VecF)
  | rsum (c : Issue) (f : VecF)
  | rmax (c : Issue) (f : VecF)
  | rmin (c : Issue) (f : VecF)
  | mov (c : Issue) (f : VecF)
  | bcast (c : Issue) (f : VecF)
  | sel (c : Issue) (f : VecF)
  | iota (c : Issue) (f : VecF)
  -- Commands of the control slot, and the end of a WAIT and of a program apart (spec 02 R64 to R67, R587, 06 R250, R251).
  | saluAdd (c : Issue) (f : CtlF)
  | saluSub (c : Issue) (f : CtlF)
  | saluAnd (c : Issue) (f : CtlF)
  | saluOr (c : Issue) (f : CtlF)
  | saluXor (c : Issue) (f : CtlF)
  | saluShl (c : Issue) (f : CtlF)
  | saluShr (c : Issue) (f : CtlF)
  | saluSra (c : Issue) (f : CtlF)
  | addi (c : Issue) (f : CtlF)
  | smul (c : Issue) (f : CtlF)
  | li (c : Issue) (f : CtlF)
  | br (c : Issue) (f : CtlF)
  | loop (c : Issue) (f : CtlF)
  | wait (c : Issue) (f : CtlF)
  | time (c : Issue) (f : CtlF)
  | psetEq (c : Issue) (f : CtlF)
  | psetNe (c : Issue) (f : CtlF)
  | psetLt (c : Issue) (f : CtlF)
  | psetLe (c : Issue) (f : CtlF)
  | psetGt (c : Issue) (f : CtlF)
  | psetGe (c : Issue) (f : CtlF)
  | psetLtu (c : Issue) (f : CtlF)
  | psetGeu (c : Issue) (f : CtlF)
  | halt (c : Issue) (f : CtlF)
  | issue (c : Issue) (f : CtlF)
  | mstat (c : Issue) (f : CtlF)
  | gstatq (c : Issue) (f : CtlF)
  -- Commands of the message slot (spec 02 R75 to R83).
  | send (c : Issue) (f : MsgF)
  | sendr (c : Issue) (f : MsgF)
  | recv (c : Issue) (f : MsgF)
  | recvt (c : Issue) (f : MsgF)
  | dpoll (c : Issue) (f : MsgF)
  -- Commands of the access slot (spec 02 R62, 03 R128 to R131).
  | ld (c : Issue) (f : AccF) (wait : Fin 41)
  | st (c : Issue) (f : AccF) (wait : Fin 41)
  | dgo (c : Issue) (f : AccF)
  | dwait (c : Issue) (f : AccF)
  | fence (c : Issue) (f : AccF)
  -- Commands of the array slot (spec 05 R194 to R231, 06 R242).
  | mode (c : Issue) (f : ArrF)
  | wload (c : Issue) (f : ArrF)
  | mm (c : Issue) (f : ArrF)
  | drain (c : Issue) (f : ArrF)
  | gstat (c : Issue) (f : ArrF)
  | bindFeed (c : Issue) (f : ArrF)
  | bindDrain (c : Issue) (f : ArrF)
  | drainCfg (c : Issue) (f : ArrF)
  | resetWalk (c : Issue) (f : ArrF)
  -- Ends of stalls and of programs (spec 02 R67, R71, R93, R95; 05 R224, R231).
  | waitExpiry (tile : TileId)
  | programHalted (tile : TileId) (cyc : Nat)
  | modeComplete (tile : TileId)
  | drainComplete (tile : TileId) (cyc : Nat)
  | stallLimit (tile : TileId)
  | fenceComplete (tile : TileId)
  | transcendentalUnitFree (tile : TileId)
  -- What arrives at doors and senders (spec 02 R77, R79, R83).
  | messageArrival (tile : TileId) (door : BitVec 4) (src : ArrivalSrc) (time : Nat) (cyc : Nat)
  | creditReturn (tile : TileId) (src : CreditSrc) (cyc : Nat)
  | recvtExpiry (tile : TileId) (time : Nat) (cyc : Nat)
  -- Array commands leaving their queues and drains becoming visible (spec 05 R194, R222).
  | arrayCommandStart (tile : TileId) (b : Bool) (cyc : Waited)
  | mmDrained (tile : TileId) (b : Bool) (wait : Vector Nat 8) (press : Vector Nat 8) (cyc : Nat)
  -- Access-engine descriptors (spec 03 R127 to R130).
  | dramToPantry (tile : TileId) (h : Fin 16) (rows : Nat) (cyc : MoveAt)
  | pantryToDram (tile : TileId) (h : Fin 16) (rows : Nat) (cyc : MoveAt)
  | pantryToPantry (tile : TileId) (h : Fin 16) (rows : Nat) (cyc : MoveAt)
  | pantryToTile (tile : TileId) (h : Fin 16) (rows : Nat) (cyc : MoveAt)
  | fill (tile : TileId) (h : Fin 16) (rows : Nat) (cyc : MoveAt)
  | descriptorComplete (tile : TileId) (h : Fin 16) (cyc : Nat) (waited : Nat)
  -- The gather engine (spec 06 R244, R247).
  | gstatAttach (tile : TileId) (waited : Nat) (cyc : Nat)
  | gstatComplete (tile : TileId) (cyc : Waited)
  -- The marver (spec 06 R255, R269 to R280).
  | root (tile : TileId) (cyc : Nat)
  | nsinv (tile : TileId) (cyc : Nat)
  | chol (tile : TileId) (cyc : Nat)
  | trsvL (tile : TileId) (cyc : Nat)
  | trsvLt (tile : TileId) (cyc : Nat)
  | cholsolve (tile : TileId) (cyc : Nat)
  | marverDescriptorDone (tile : TileId) (cyc : Waited)
  | deadlineExpiry (tile : TileId) (time : Nat) (cyc : Waited) (ats : List MvAt)
  | marverRelease (tile : TileId)
  -- Commands of a pantry (spec 03 R115, R116, R139 to R149).
  | pantryMasterAccess (tile : TileId) (master : Fin 4) (addr : Nat) (n : Fin 65) (data : Option (List Byte)) (wait : Nat)
  | regionDescriptorWrite (actor : Actor) (tile : TileId) (m : Fin 7) (d : Fin 8) (word : Bool) (v : Word)
  | bankReq (actor : Actor) (tile : TileId) (m : Fin 3) (v : Word)
  | bankTransitionEnd (tile : TileId) (bank : Fin 40)
  | sweepRegionStart (tile : TileId) (fails : List (Fin 64))
  | ctrClear (actor : Actor) (tile : TileId)
  -- Register accesses and the bits of the common header (spec 00 R15; 02 R588, R589; 14 R538 to R553).
  | start (actor : Actor) (tile : TileId) (entry : Fin 8192)
  | abort (actor : Actor) (tile : TileId)
  | freeze (actor : Actor) (ty : Nat) (inst : Nat) (on : Bool)
  | softReset (actor : Actor) (ty : Nat) (inst : Nat)
  | enable (actor : Actor) (ty : Nat) (inst : Nat) (on : Bool)
  | intStatusClear (actor : Actor) (ty : Nat) (inst : Nat) (pg : Nat) (mask : Word)
  | intForce (actor : Actor) (ty : Nat) (inst : Nat) (pg : Nat) (mask : Word)
  | perfEvent (actor : Actor) (ty : Nat) (inst : Nat) (ev : Byte)
  | perfClear (actor : Actor) (ty : Nat) (inst : Nat)
  | latchingRead (actor : Actor) (addr : BitVec 26) (wide : Bool)
  | bar0InvalidAccess (actor : Actor) (addr : BitVec 26) (n : Fin 65) (write : Bool)
  | registerWrite (actor : Actor) (addr : BitVec 26) (wide : Bool) (v : Word64)
  -- Commit unit, read pins and step boundaries (spec 07 R320 to R325, R591; 01 R37, R40).
  | commit (d : BitVec 19) (skipped : Bool) (roots : Bool) (step : Word64) (epoch : BitVec 16) (acc : BitVec 16) (crc : Word) (growth : BitVec 24) (nonfinite : Word)
  | scan (d : BitVec 19)
  | commitExecute (t : Nat)
  | scanExecute (t : Nat)
  | queryDomain (actor : Actor) (d : BitVec 19)
  | readPinRequest (d : BitVec 19) (h : PinHolder)
  | readPinRelease (d : BitVec 19) (h : PinHolder)
  | stepBoundary (d : BitVec 19) (t : BoundaryAt)
  -- The crucible (spec 08).
  | opPush (addr : BitVec 41) (t : Nat)
  | opAbort (t : Nat)
  | gradOp (t : Nat)
  | statOp (t : Nat)
  | rootOp (t : Nat)
  | dataChunk (ch : Fin 16) (data : List Byte) (t : Nat)
  | premaxChunk (ch : Fin 16) (data : List Byte) (t : Nat)
  | statChunk (ch : Fin 16) (data : List Byte) (t : Nat)
  | rootChunk (ch : Fin 16) (data : List Byte) (t : Nat)
  | endChunk (ch : Fin 16) (data : List Byte) (t : Nat)
  | closeChunk (ch : Fin 16) (data : List Byte) (t : Nat)
  | grantChunk (ch : Fin 16) (data : List Byte) (t : Nat)
  | hopTimeout (ch : Fin 16) (t : Nat)
  | opDone (t : Nat) (fit : List Nat)
  -- Replica groups and clones (spec 09 R376 to R394).
  | stepReport (data : List Byte) (fit : List Nat) (t : Nat)
  | groupTable (data : List Byte) (t : Nat)
  | failRecord (data : List Byte) (t : Nat)
  | tableRerequest (d : BitVec 19) (position : Fin 4096) (t : Nat)
  | heartbeatSend (d : BitVec 19) (t : Nat)
  | heartbeat (d : BitVec 19) (position : Fin 4096) (t : Nat)
  | heartbeatExpiry (d : BitVec 19) (position : Fin 4096) (t : Nat) (fit : List Nat)
  | memberStop (d : BitVec 19) (position : Fin 4096) (t : Nat) (fit : List Nat)
  | linkFailureReport (d : BitVec 19) (position : Fin 4096) (peer : Fin 4096) (t : Nat) (fit : List Nat)
  | cloneFetchRequest (d : BitVec 19) (member : Fin 4096) (ask : CloneAsk) (t : Nat)
  | cloneLeafArrival (d : BitVec 19) (unit : CloneUnit) (t : Nat)
  | cloneDone (d : BitVec 19) (position : Fin 4096) (member : Fin 4096) (t : Nat)
  | spareWaitExpiry (d : BitVec 19) (t : Nat)
  | agreedCopyDone (d : BitVec 19) (t : Nat)
  -- The export engine (spec 09 R399 to R404).
  | exportGo (actor : Actor) (t : Nat)
  | exportAbort (actor : Actor) (t : Nat)
  | exportDone (t : Nat)
  | peerDone (t : Nat)
  | pinExpired (t : Nat)
  -- Host ports and the export window (spec 10 R406 to R411; 14 R542).
  | hostLinkUp (p : Fin 2) (gt64 : Bool) (x8 : Bool) (flit256 : Bool) (t : Nat)
  | hostLinkDown (p : Fin 2) (t : Nat)
  | haTrainingTimeout (t : Nat)
  | failoverReq (p : Fin 2) (t : Nat)
  | failoverDelayExpiry (t : Nat)
  | windowRead (p : Fin 2) (offset : Nat) (lines : Nat)
  | windowWrite (p : Fin 2)
  | h2dSnoop (p : Fin 2)
  -- Kamduelm ports and frames, the time base, membership (spec 10 R415 to R431).
  | linkLock (p : Fin 8) (t : Nat)
  | portTrainingTimeout (p : Fin 8) (t : Nat)
  | attestTimeout (p : Fin 8) (t : Nat)
  | portBackoffExpiry (p : Fin 8) (t : Nat)
  | ident (f : RxFrame)
  | attestFrame (f : RxFrame)
  | ack (f : RxFrame)
  | replayTimeout (p : Fin 8) (t : Nat)
  | fecUncorrectable (p : Fin 8) (t : Nat)
  | timebaseFrame (f : RxFrame) (stamp : Nat)
  | timebaseExchange (par : Option (Fin 8 × Nat × Nat)) (t1 : Nat) (t2 : Nat) (t3 : Nat) (t4 : Nat) (t : Nat)
  | timeUnsync (t : Nat)
  | controlFrame (f : RxFrame) (told : Option Told) (fit : List Nat)
  | doorFrame (f : RxFrame) (x : DoorItem) (cyc : Nat)
  | reductionFrame (f : RxFrame)
  | bulkFrame (f : RxFrame)
  | membership (member : Fin 4096) (state : Fin 8) (boot : Nat) (serial : Nat) (runtime : Nat) (t : Nat) (fit : List Nat)
  -- Device DRAM (spec 10 R433 to R439; 12 R506).
  | dramRead (addr : Nat) (n : Nat) (hits : List DramHit)
  | dramWrite (addr : Nat) (data : List Byte) (hits : List DramHit)
  | patrolScrub (ch : Fin 24) (hits : List DramHit) (t : Nat)
  | dimmTemperatureRead (ch : Fin 24) (temp : Nat) (t : Nat)
  -- Mailbox requests and the rings (spec 11 R455 to R463).
  | getVersion (a : MbxArgs)
  | getDeviceInfo (a : MbxArgs)
  | bind (a : MbxArgs)
  | unbind (a : MbxArgs)
  | imageLoad (a : MbxArgs)
  | runtimeHandover (a : MbxArgs)
  | flashWrite (a : MbxArgs)
  | svnRaise (a : MbxArgs)
  | attest (a : MbxArgs)
  | memberSet (a : MbxArgs)
  | spareSet (a : MbxArgs)
  | groupSet (a : MbxArgs)
  | queueCreate (a : MbxArgs)
  | queueDestroy (a : MbxArgs)
  | queueRingSet (a : MbxArgs)
  | queueStop (a : MbxArgs)
  | queueResume (a : MbxArgs)
  | queueQuery (a : MbxArgs)
  | contextCreate (a : MbxArgs)
  | contextDestroy (a : MbxArgs)
  | placementWrite (a : MbxArgs)
  | domainSet (a : MbxArgs)
  | upbSubmit (a : MbxArgs)
  | retainSet (a : MbxArgs)
  | baseLoad (a : MbxArgs)
  | exportReq (a : MbxArgs)
  | cellarRestore (a : MbxArgs)
  | channelRetire (a : MbxArgs)
  | logRead (a : MbxArgs)
  | lifecycleSet (a : MbxArgs)
  | unlistedOpcodeRequest (bytes : List Byte) (dma : List Byte) (t : Nat)
  | rspHeadWrite (v : Word) (t : Nat)
  | evtHeadWrite (v : Word) (t : Nat)
  | queueDoorbell (q : BitVec 15) (v : Word) (entries : List (List Byte)) (t : Nat)
  -- Units, live update, watchdogs and host loss (spec 11 R464 to R484; 11 R450).
  | unitStart (t : Nat)
  | runComplete (q : BitVec 15) (t : Nat)
  | queueFault (q : BitVec 15) (t : Nat)
  | handoverBegin (t : Nat)
  | wdtKick (n : Fin 4) (t : Nat)
  | watchdogExpiry (n : Fin 4) (copyOk : Bool) (t : Nat)
  | cpRestartComplete (n : Fin 4) (t : Nat)
  | escalationWindowExpiry (t : Nat)
  | hostLossTimeout (t : Nat)
  | holdRunLimit (t : Nat)
  | hostLoadWaitExpiry (t : Nat)
  -- Breaker, power domains, clocks and ageing (spec 12).
  | vinSample (mv : Nat) (t : Nat)
  | railFault (dimm : Bool) (n : Nat) (t : Nat)
  | breakerPowerTick (p10us : Nat) (p10ms : Nat) (t : Nat)
  | breakerThermalTick (temps : List Nat) (t : Nat)
  | breakerLimitWrite (actor : Actor) (l : Limit) (v : Word)
  | cp2Live (actor : Actor) (t : Nat)
  | cp2LiveExpiry (t : Nat)
  | freqApply (actor : Actor) (n : Fin 4) (t : Nat)
  | freqChangeDone (n : Fin 4) (t : Nat)
  | domainRequest (actor : Actor) (dom : Fin 50) (v : BitVec 2) (t : Nat)
  | domainTransitionEnd (dom : Fin 50) (t : Nat)
  | pwrDomainTimeout (dom : Fin 50) (t : Nat)
  | clusterIdleTimeout (c : Fin 32) (t : Nat)
  | bankRetentionTimeout (c : Fin 32) (t : Nat)
  | ageingSample (rs : List AgeReading) (t : Nat)
  | vSet (actor : Actor) (n : Fin 4) (k : Fin 8) (v : BitVec 16)
  | driftRecordDaily (t : Nat)
  -- Pins, starts and the module (spec 13, 15).
  | senseNMake (t : Nat)
  | inputSwitchClose (t : Nat)
  | senseNOpen (t : Nat)
  | perstNAssert (t : Nat)
  | perstNHoldExpiry (t : Nat)
  | perstNRelease (t : Nat)
  | deviceStart (finds : StartFinds)
  | cfgLock (actor : Actor)
  | alertPendingClear (actor : Actor) (mask : Word)
  | smbusByteWrite (reg : Byte) (v : Byte)
  | wakeNPulseEnd (t : Nat)
  | cageRegulatorFault (p : Fin 8) (t : Nat)
  deriving DecidableEq, Repr

end Sys2Proof
end

