-- ==== Sys2Proof/Decode.lean ====
section
/-! DEFINITION. Words that spell commands. No row of the opcode table gives bits: commands reach the block as accesses and
events, not as words. The 256-bit bundles of the instruction store are read in Machine/Bundle.lean. -/

namespace Sys2Proof

set_option Elab.async false

/-- The command that a word of `nbits` bits spells: none for every word. -/
def decodeTableWord (_nbits _w : Nat) : Option Instr := none

end Sys2Proof
end

