-- ==== Sys2Proof/Config.lean ====
section
/-! DEFINITION. What an implementation fixes, and the free values: constants with no body, one for each kind of
value the spec leaves open. Nothing can be proved of their values. -/

namespace Sys2Proof

set_option Elab.async false

/-- The byte that a read of an undefined location returns: the n-th undefined read of the run, at byte `a`
(spec 03 R132, 02 R588, 06 R247, R254, R276). -/
opaque Config.freeByte (n a : Nat) : BitVec 8

/-- A value that the spec does not state: the n-th of the run. -/
opaque Config.freeNat (n : Nat) : Nat

/-- V_BASE of cluster `8n + k`, in mV: fused at test, not stated (spec 12 Table 12.5). -/
opaque Config.vBase (cluster : Nat) : Nat

/-- Does a signature verify (scheme 0: Ed25519, 1: ML-DSA-65) under a public key (spec 11 R444, R454)? The schemes stand
outside the spec. -/
opaque Config.sigOk (scheme : Nat) (key msg sig : List (BitVec 8)) : Bool

/-- Byte `i` of a signature of this device over a message (spec 11 R453). -/
opaque Config.sign (scheme : Nat) (msg : List (BitVec 8)) (i : Nat) : BitVec 8

/-- Byte `i` of the device's public key of a scheme (spec 11 R452). -/
opaque Config.deviceKey (scheme i : Nat) : BitVec 8

/-- Byte `i` of the public key of a scheme in vendor key set `set` (spec 11 R446). -/
opaque Config.vendorKey (set scheme i : Nat) : BitVec 8

end Sys2Proof
end

