-- ==== Sys2Proof/Machine/FabricState.lean ====
section
/-! DEFINITION. Typed state of the fabric (spec 10): host ports, Kamduelm ports, membership, routes, timebase, DRAM
patrol; and of supply, breaker and pins (spec 12, 13, 15). -/

namespace Sys2Proof.Machine

set_option Elab.async false

/-- A host port beside its page: is its link trained, since when is it down, did its partner refuse 256-byte flits. -/
structure HostLink where
  trained : Bool
  downSince : Option Nat
  deriving DecidableEq, Repr

/-- A frame in a replay buffer or waiting for credits (spec 10 R416, R419): class, lane, FSEQ, payload lines and all of
its bytes. -/
structure Frame where
  tc : Nat
  vl : Nat
  fseq : Nat
  lines : Nat
  data : List Byte
  deriving DecidableEq, Repr

/-- A Kamduelm port beside its page (spec 10 R416 to R426): the time its state was entered (that of IDENT in ATTESTING),
the backoff in seconds, the next FSEQ to send and to accept, the replay buffer, the frames that wait for credits, the
credits held by class and lane, the FSEQ that the last replay started with and how often in a row, the time of the last
acknowledgement, whether a NAK is outstanding, the times of recent uncorrectable codewords, the two IDENTs, and the
bytes that REDUCTION and BULK sent while both had a frame ready (spec 10 R417). -/
structure Port where
  since : Nat
  backoff : Nat
  txSeq : Nat
  rxSeq : Nat
  replay : List Frame
  waiting : List Frame
  credits : List Nat
  lastReplay : Option Nat
  replays : Nat
  ackAt : Nat
  nakSent : Bool
  badAt : List Nat
  identSent : List Byte
  identGot : List Byte
  redBytes : Nat
  bulkBytes : Nat
  deriving DecidableEq, Repr

/-- Membership states (spec 10 Table 10.8), as MEMBER_STATE codes 0 to 3. -/
inductive MemberState where
  | unknown | attested | member | spare
  deriving DecidableEq, Repr

/-- What CP3 keeps for another device (spec 10 R427): its state, and the BOOT_COUNT, serial number and RUNTIME_ID last
attested or announced; `fit` the domains whose positions it could take as a spare, as the latest exchange showed (spec 09 R392: its
grid map, its DRAM, the routes). -/
structure Peer where
  member : Nat
  state : MemberState
  boot : Nat
  serial : Nat
  runtime : Nat
  fit : List Nat
  deriving DecidableEq, Repr

/-- A route: the port toward a member and the lane of the next hop (spec 10 R420, R421). -/
structure Route where
  member : Nat
  port : Nat
  vl : Nat
  deriving DecidableEq, Repr

/-- The timebase beside its page (spec 10 R429 to R431): has it synchronised since the start, since when is it without a
parent, and the timestamps of received TIMEBASE frames by port. -/
structure TimeState where
  synced : Bool
  parentLostAt : Option Nat
  stamps : List (Nat × Nat)
  deriving DecidableEq, Repr

/-- Per channel: recent corrections by ×4 device (device, time), the next line of patrol scrub, a DIMM temperature limit,
a PMIC fault (spec 10 R438, R440, spec 12 R490, R506); and what outlives a reset: was the channel in service at the
previous start, with which serial number, is it to be repaired at the next start, and the rows repaired since
manufacture (spec 10 R435, R440). -/
structure DimmState where
  corrections : List (Nat × Nat)
  patrolAt : Nat
  hot : Bool
  pmic : Bool
  served : Bool
  serial : Nat
  repair : Bool
  ppr : Nat
  deriving DecidableEq, Repr

/-- A transition of a power domain in progress (spec 12 R493): domain, target, start. -/
structure DomTrans where
  dom : Nat
  target : Nat
  since : Nat
  deriving DecidableEq, Repr

/-- A duration filter (spec 12 R489, R503, R504; 13 R534): since when its condition has held in every sample. -/
abbrev Since := Option Nat

/-- Supply, breaker and pins beside their pages. VIN is in mV; `vaux` says that H_AON has power, `vbus` that the DIMMs
have; `perstAt` is the time of the last edge of PERST_N. Throttle requests are those of spec 12 R502; `plan` the planned N
of each stack and `change` a frequency change in progress with the N it leads to. `gatedAt` holds the clusters that are
GATED since a time, `gateBanks` the banks that went to RETENTION with one (tile and bank), `idleAt` the time of the last unit on each cluster. `haFrom` is the release of PERST_N while HA may
still train, `fresh` says that no start has run since VAUX was applied, `stepDue` marks a step-down that CP1 has not applied,
`ticks` counts 10 µs ticks toward THROTTLE_MS, `hdm` the base and size of the export window, `startDue` the reason of a start that is to run. -/
structure Power where
  vinMv : Nat
  senseLow : Bool
  vinOkAt : Since
  switchClosed : Bool
  vaux : Bool
  vbus : Bool
  pwrGood : Bool
  perstLow : Bool
  perstAt : Nat
  dramHeld : Bool
  tripped : Bool
  startDue : Option Nat
  wakeLow : Option Nat
  wakeFree : Option Nat
  cages : Vector Bool 8
  lowAt : Since
  uvAt : Since
  ovAt : Since
  okAt : Since
  inputLow : Bool
  kP : Nat
  kPAt : Nat
  kPTop : Since
  kT : Vector Nat 4
  kTUp : Vector Nat 4
  kTDown : Vector Nat 4
  kS : Vector Nat 4
  kA : Vector Nat 4
  hotAt : List (Nat × Nat)
  tMax : Nat
  liveAt : Nat
  plan : Vector Nat 4
  change : Vector (Option Nat) 4
  trans : List DomTrans
  gatedAt : List (Nat × Nat)
  gateBanks : List (Nat × Nat)
  idleAt : List (Nat × Nat)
  failedClusters : List Nat
  driftAt : Nat
  haFrom : Option Nat
  hdm : Option (Nat × Nat)
  fresh : Bool
  stepDue : Vector Bool 4
  ticks : Nat
  deriving DecidableEq, Repr

end Sys2Proof.Machine
end

