-- ==== Sys2Proof/Machine/HearthState.lean ====
section
/-! DEFINITION. Typed state of the hearth: commit domains and the commit unit (spec 07), the crucible (spec 08),
replica groups, clones and the export engine (spec 09), queues, the mailbox, images and processors (spec 11). -/

namespace Sys2Proof.Machine

set_option Elab.async false

/-! Commit domains. -/

/-- A request in the commit unit's queue (spec 07 Table 7.10). -/
structure CommitReq where
  domain : Nat
  kind : Nat
  skipped : Bool
  roots : Bool
  legacy : Bool
  step : Nat
  epoch : Nat
  acc : Nat
  crc : Nat
  growth : Nat
  nonfinite : Nat
  deriving DecidableEq, Repr

/-- Where a step of a domain stands (spec 01 Table 1.1): its queue program runs; the program has halted and the
gradient is accumulated; its GRAD operation is posted; it closed OK and the update is to run (again); the step is
ready to commit; the commit is pushed; the record is written and the step boundary is next. -/
inductive StepPhase where
  | program | halted | reducing | updating | ready | committing | committed
  deriving DecidableEq, Repr

/-- The step that a domain runs. `ovf` is the overflow flag of the step (spec 07 R303), `skipped` a step to be
committed as skipped (spec 01 R27), `reruns` its re-runs after FAULT (spec 08 R365), `updFaults` the faults of its
update programs (spec 07 R326), `gradClosed` whether its GRAD closed, whatever its outcome, with the descriptor and items of
one that closed OK in `gradWords` and `gradItems`; `statOpen` a STAT operation that is posted and not closed, `statClosed` one that
closed, and `dueRoots` the inbound cells of the roots that it makes due in the next step (spec 07 R298). -/
structure StepRun where
  step : Nat
  phase : StepPhase
  startedAt : Nat
  readyUs : Nat
  ovf : Bool
  skipped : Bool
  reruns : Nat
  updFaults : Nat
  nonfinite : Nat
  gradClosed : Bool
  gradWords : List Nat
  gradItems : List (List Nat)
  statOpen : Bool
  statClosed : Bool
  dueRoots : List Nat
  deriving DecidableEq, Repr

/-- A root that arrived: its inbound cell and the RESULT of its status (spec 07 R301). -/
structure ArrivedRoot where
  inbound : Nat
  result : Nat
  deriving DecidableEq, Repr

/-- Values that R368 of spec 08 formed at a step. -/
structure NoiseSample where
  step : Nat
  g2 : Word
  sg : Word
  deriving DecidableEq, Repr

/-! Replica groups (spec 09). -/

/-- Group parameters (spec 09 Table 9.2). -/
structure GroupParams where
  compareInterval : Nat
  hbPeriod : Nat
  hbExpiry : Nat
  stragglerFactor : Nat
  stragglerSteps : Nat
  hopFloor : Nat
  spareWait : Nat
  minMembers : Nat
  agreedCopy : Nat
  pinLimit : Nat
  spares : List Nat
  deriving DecidableEq, Repr

/-- The plan of a group: RING or TORUS, its size, the size of its dimension-0 ring, the membership index at each
plan position (none where the position is vacant). -/
structure GroupPlan where
  torus : Bool
  x : Nat
  members : List (Option Nat)
  deriving DecidableEq, Repr

/-- An action record (spec 09 Table 9.6). -/
structure GroupAction where
  action : Nat
  cause : Nat
  position : Nat
  member : Nat
  arg : Nat
  deriving DecidableEq, Repr

/-- What a group is to this device (spec 11 EVT_GROUP). -/
inductive GroupState where
  | member | ejected | joined | stopped
  deriving DecidableEq, Repr

/-- Progress of a clone or repair of this device (spec 09 R388, R394): the source positions in use, lowest first, the record chosen, the
digests known of the reference tree (level, index, digest), the runs of children asked for (level, first), the leaves still wanted, how
many differing leaves each source supplied, and the same of the frozen base region. -/
structure CloneJob where
  repair : Bool
  sources : List Nat
  record : List Byte
  known : List (Nat × Nat × Nat)
  asked : List (Nat × Nat)
  wanted : List Nat
  bad : List (Nat × Nat)
  baseDone : Bool
  baseWanted : List Nat
  baseDigests : List Nat
  treeDone : Bool
  deriving DecidableEq, Repr

/-- Another stage of the pipeline that a group is a stage of (spec 09 R402), as its forwarded tables show it: the member at each
position, the latest step whose table is on the device, and the latest step agreed in that stage. -/
structure Stage where
  members : List Nat
  tableStep : Option Nat
  agreed : Option Nat
  deriving DecidableEq, Repr

/-- The replica group of a domain, as this device holds it. `reports` are the step reports of the step being
gathered; `beats` the arrival time of each peer's last heartbeat; `lateRuns` the consecutive late steps of each
position; `table` the last table held, of step `tableStep`; `actions` the actions due, with the step whose boundary
they take effect at; `extra` the actions that the next table carries; `vacant` the ejected positions while the group
is held since `heldSince`; `firstStep` the first step that the domain runs in this group. -/
structure Group where
  plan : GroupPlan
  nextPlan : Option (GroupPlan × Nat × GroupParams)
  position : Nat
  params : GroupParams
  epoch : Nat
  reports : List (Nat × List Byte)
  beats : List (Nat × Nat)
  lateBeats : Nat
  lateRuns : List (Nat × Nat)
  table : List Byte
  tableStep : Option Nat
  agreedStep : Option Nat
  median : Nat
  actions : List (Nat × GroupAction)
  extra : List GroupAction
  vacant : List Nat
  heldSince : Option Nat
  compareNext : Bool
  stopDue : Bool
  state : GroupState
  clone : Option CloneJob
  failed : List Nat
  firstStep : Nat
  deriving DecidableEq, Repr

/-- The agreed copy of a domain (spec 09 R391): its 64-byte header, the commit record of its step, its digest area, and the bytes of the
slot area and of the root cells in force, by address. -/
structure AgreedCopy where
  header : List Byte
  record : List Byte
  leaves : List Nat
  parts : List (Nat × List Byte)
  deriving DecidableEq, Repr

/-- A commit domain of the device (spec 07 R285). `entry` is its context entry (spec 11 Table 11.16), `committed` the
COMMITTED bit, `record` the latest commit record where `lastStep` names one;
`leaves0` and `leaves1` the leaf digests that the digest area of each slot area holds (spec 09 R386); `upb` the update parameter block in
force and `upbs` the pending ones; `cullets` the cullet areas of its last GRAD operation, and `zeroCul` whether those of its next one are to
be zeroed first, since no operation has named them yet; `stages` the other stages of its pipeline; `gathered` says that statistics were gathered since the
last reduction, and `freshSides` names the sides, as logical tile and gather entry, whose next GSTAT runs with ACC = 0b00 (spec 07
R298); `rootsDue` are the inbound cells of the roots due in the step that runs, `roots` those that arrived; the held changes of Table 1.2 of spec 01 stand in the last fields: a new
accumulation count, and whether the domain is parked by HOLD or a handover or stopped. -/
structure Domain where
  id : Nat
  entry : List Byte
  retained : Bool
  committed : Bool
  lastStep : Option Nat
  record : List Byte
  leaves0 : List Nat
  leaves1 : List Nat
  pins : List PinHolder
  pinWait : List PinHolder
  steer : Bool
  legacy : Bool
  mbTokens : Nat
  accMin : Nat
  accMax : Nat
  window : Nat
  accCount : Nat
  nextAcc : Option Nat
  upb : List Byte
  upbs : List (List Byte)
  run : Option StepRun
  gathered : Bool
  freshSides : List (Nat × Nat)
  rootsDue : List Nat
  roots : List ArrivedRoot
  noise : List NoiseSample
  cullets : List (Nat × Nat)
  zeroCul : Bool
  group : Option Group
  stages : List Stage
  agreed : Option AgreedCopy
  copying : Bool
  parked : Bool
  stopped : Bool
  deriving DecidableEq, Repr

/-! The crucible (spec 08). -/

/-- What a chunk carries: blocks `[first, first + n)` of the list of the pass in progress; elements of a STAT or ROOT
item; END; or CLOSE in the chain or in the broadcast. -/
inductive CruPart where
  | data (phase first n : Nat)
  | premax (phase first n : Nat)
  | stat (item off n : Nat)
  | root (item off n : Nat)
  | fin
  | close (bcast : Bool)
  deriving DecidableEq, Repr

/-- A chunk to be sent, or one that is awaited: its turn comes once so many chunks have been taken on each channel that `needs`
names (channel, count), which is what keeps the order of a chain that crosses from one ring to another (spec 08 R338). -/
structure CruStep where
  part : CruPart
  needs : List (Nat × Nat)
  deriving DecidableEq, Repr

/-- An open channel: the chunks it awaits and has to send, the received chunks that still fill a buffer, the chunks taken, the device time of its last progress and
the PLAN_CRC of its operation. Its credits, sequence numbers and running digests stand in its registers. -/
structure CruChan where
  ch : Nat
  rx : List CruStep
  tx : List CruStep
  buf : List (List Byte)
  rxDone : Nat
  progress : Nat
  planCrc : Nat
  deriving DecidableEq, Repr

/-- The value of one entry of a pass list: its elements (one byte value for PREMAX) and the OVF it has met. -/
structure CruVal where
  entry : Nat
  xs : List Int
  ovf : Bool
  deriving DecidableEq, Repr

/-- A stage of a pass (spec 08 R337): a reduce-scatter (kind 0), the completion of the own shard (1), or an all-gather
(2), on a channel over a range of the list. -/
structure CruStage where
  kind : Nat
  ch : Nat
  first : Nat
  len : Nat
  deriving DecidableEq, Repr

/-- One channel of the operation under RING, one pair under TORUS: its blocks in channel order, the pass in progress
(attempt; PREMAX or not), its list, its stages still to come, the values of its entries and the last scale of each
block; `ovfSeen` once the main pass brought OVF. -/
structure CruLane where
  chans : List Nat
  blocks : List Nat
  attempt : Nat
  premax : Bool
  list : List Nat
  stages : List CruStage
  running : Option CruStage
  vals : List CruVal
  ovfSeen : Bool
  pending : List Nat
  scales : List (Nat × Nat)
  maxima : List (Nat × Nat)
  finished : Bool
  deriving DecidableEq, Repr

/-- A running operation: its descriptor and items, channels and lanes, local faults, counters, held statistics of a
chain and the progress of the close. -/
structure CruOp where
  addr : Nat
  words : List Nat
  items : List (List Nat)
  chans : List CruChan
  lanes : List CruLane
  fault : Bool
  unreported : Bool
  mismatch : Bool
  repaired : Nat
  wide : Nat
  premaxed : Nat
  held : List (Nat × Nat × List Word)
  closing : Bool
  closeVal : Option (Bool × Bool × Nat × Word)
  redNorm : Word
  locNorm : Word
  deriving DecidableEq, Repr

/-- What CP1 finds of an operation that wrote its result record (spec 08 R365). -/
structure CruDone where
  words : List Nat
  items : List (List Nat)
  outcome : Nat
  localFault : Bool
  faultPos : Nat
  prevMember : Nat
  redNorm : Word
  groupSum : Word
  deriving DecidableEq, Repr

/-- The operation that a channel was open for when it ended TIMEOUT (spec 08 R343). -/
structure CruLate where
  ch : Nat
  epoch : Nat
  domain : Nat
  step : Nat
  opk : Nat
  deriving DecidableEq, Repr

/-! The export engine (spec 09). -/

/-- The container being made: its bytes so far are in the buffer; the pin was granted at `pinAt`. -/
structure ExportJob where
  pinAt : Option Nat
  step : Nat
  deriving DecidableEq, Repr

/-! Queues and the mailbox (spec 11). -/

/-- A submission entry taken by CP1 (spec 11 Table 11.13), with the steps still to run. -/
structure SubEntry where
  kind : Nat
  id : Nat
  domain : Nat
  left : Nat
  arg : Nat
  deriving DecidableEq, Repr

/-- The unit that runs on a queue: its entry, its tiles, and whether its update programs run. -/
structure RunUnit where
  entry : SubEntry
  tiles : List Nat
  startedAt : Nat
  update : Bool
  stopping : Bool
  deriving DecidableEq, Repr

/-- The rings of a queue (spec 11 QUEUE_RING_SET). -/
structure QRings where
  subLog : Nat
  cplLog : Nat
  subBase : Nat
  cplBase : Nat
  deriving DecidableEq, Repr

/-- A queue (spec 11 R462 to R466). `waiting` are the submission entries in the host's ring that CP1 has not taken;
`entries` those it has, in the order it serves them; `due` the completions that wait for new rings. -/
structure Queue where
  id : Nat
  desc : List Byte
  rings : Option QRings
  subTail : Nat
  subHead : Nat
  cplHead : Nat
  cplTail : Nat
  cplCount : Nat
  stopped : Bool
  stalled : Bool
  waiting : List (List Byte)
  entries : List SubEntry
  due : List (List Byte)
  lastId : Nat
  lastStart : Nat
  unit : Option RunUnit
  image : Option Nat
  deriving DecidableEq, Repr

/-- A mailbox request that waits in the ring: header and payload, and what the host memory that it names holds. -/
structure MbxRequest where
  bytes : List Byte
  dma : List Byte
  dma2 : List Byte
  deriving DecidableEq, Repr

/-- The mailbox (spec 11 R455 to R459). -/
structure Mailbox where
  reqTail : Nat
  reqHead : Nat
  rspHead : Nat
  rspTail : Nat
  evtHead : Nat
  evtTail : Nat
  waiting : List MbxRequest
  responses : List (Nat × List Byte)
  kept : List (Nat × Nat × List Byte)
  events : List (Nat × List Byte)
  buffered : List (List Byte)
  evtCount : Nat
  deriving DecidableEq, Repr

/-- A runtime slot of protected hearth SRAM (spec 11 R443): its image, and the lock of a verified one. -/
structure RtSlot where
  image : List Byte
  locked : Bool
  deriving DecidableEq, Repr

/-- What firmware holds beside its register pages: the two runtime slots and the executing stage 1 (empty: none), the
CP1 journal's last entry, the pending handover (domain, step), the handover in progress, the escalation's start, the
last watchdog kick and the restart history of each processor, the processors that are restarting, the frozen base regions (region, base, length,
BASE_DIGEST) with the leaf digests of each, the integrity and event logs, when HOLD began, when the wait for a runtime image began, whether a driver has bound since the start, and whether the host declared the
device a spare, when the present start's reset was released, whether CP2 and CP3 passed its BIST, and the queue whose unit last
ran on each physical tile, until a fault there is reported against it (spec 02 R102), and for how long
restarts of CP1 have paused the host-loss timer (spec 11 R479). -/
structure Firmware where
  slots : Vector RtSlot 2
  stage1 : List Byte
  inForce : Nat
  journalSeq : Nat
  journalTarget : Nat
  journalCount : Nat
  handover : Option (Nat × Nat)
  handoverAt : Option Nat
  escalatedAt : Option Nat
  kicks : Vector Nat 4
  restarts : Vector (List Nat) 4
  bases : List (Nat × Nat × Nat × Nat)
  baseTrees : List (Nat × List Nat)
  retainedBases : List Nat
  integrityLog : List (List Byte)
  eventLog : List (List Byte)
  startOrder : Nat
  holdAt : Option Nat
  loadWaitFrom : Option Nat
  everBound : Bool
  spare : Bool
  startedAt : Nat
  cp23Ok : Bool
  ran : List (Nat × Nat)
  hostPaused : Nat
  deriving DecidableEq, Repr

/-- One SPI NOR part (spec 11 Table 11.4). `training` holds, by channel, the serial number of the DIMM whose training values
are stored; 0 for none. -/
structure FlashPart where
  stage1 : List Byte
  runtime : List Byte
  config : List Byte
  training : List Nat
  drift : List (List Byte)
  security : List Byte
  deriving DecidableEq, Repr

/-- Fuses (spec 11 R446, 13 R520, 14 Table 14.9, 12 Table 12.8): they never return to 0. -/
structure Fuses where
  serial : Nat
  stepping : Nat
  revoked : Nat
  minSvn : Nat
  owned : Bool
  decom : Bool
  toggles : Nat
  deriving DecidableEq, Repr

/-! What leaves the device. -/

/-- Something the device sent: bytes written to host memory, an MSI-X vector, a control message or a bulk unit to a
member, a crucible chunk with its channel, the port it leaves by and the member it goes to, a link frame of a port, the answer to a snoop, a back-invalidate snoop. -/
inductive Sent where
  | hostMem (addr : Nat) (data : List Byte)
  | msix (vec : Nat)
  | control (member op : Nat) (data : List Byte)
  | bulk (member op : Nat) (data : List Byte)
  | chunk (ch port member : Nat) (data : List Byte)
  | frame (port : Nat) (data : List Byte)
  | rspIHitI (port : Nat)
  | biSnp (addr n : Nat)
  deriving DecidableEq, Repr

end Sys2Proof.Machine
end

