-- ==== Sys2Proof/Machine/RegMap.lean ====
section
/-! DEFINITION. The register map of BAR0: every field of every register table of the spec, with its place,
its access code and its reset value (spec 00 R15 to R17; spec 14 R543 to R546 and Tables 14.2, 14.4;
each table of block-specific fields is named above its rows). -/

namespace Sys2Proof.Machine

set_option Elab.async false

/-- Register access codes (spec 00 R15, Table 0.4). -/
inductive Access where
  | ro | rw | w1c | w1s | wo | rwl
  deriving DecidableEq, Repr

/-- One field of the register map. Field `i` of an array of `cnt` like fields lies at word offset
`off + step * (i / per)` and at bit `lsb + bitStep * (i % per)` of it. A field wider than its word goes on in
the next word (the spec's `_LO` and `_HI` words). `latch` marks a low word whose read latches the high word
(spec 14 R541). `live` marks a field that is a view of typed state and holds nothing of its own. -/
structure Fld where
  ty : Nat
  pg : Nat
  off : Nat
  lsb : Nat := 0
  width : Nat
  acc : Access
  reset : Nat := 0
  cnt : Nat := 1
  step : Nat := 0
  per : Nat := 1
  bitStep : Nat := 0
  latch : Bool := false
  live : Bool := false
  deriving DecidableEq, Repr

/-- BAR0 offset of instance `i` of a block type (spec 14 R543, Table 14.2). -/
def blockBase (ty i : Nat) : Nat :=
  match ty with
  | 1 => 0x8000 * i
  | 2 => 0x400000 + 0x4000 * i
  | 3 => 0x600000 + 0x1000 * i
  | 4 => 0x610000 + 0x1000 * i
  | 5 => 0x620000 + 0x1000 * i
  | 7 => 0x660000 + 0x1000 * i
  | 10 => 0x640000 + 0x1000 * i
  | 11 => 0x650000 + 0x1000 * i
  | _ => 0x700000 + 0x2000 * ty

/-- Instances of a block type (spec 14 Table 14.2); 0 for a type the table does not list. -/
def blockInstances (ty : Nat) : Nat :=
  match ty with
  | 1 => 128 | 2 => 128 | 3 => 9 | 4 => 8 | 5 => 24 | 7 => 4 | 10 => 2 | 11 => 4
  | 6 => 1 | 8 => 1 | 9 => 1 | 12 => 1 | 13 => 1 | 14 => 1 | 15 => 1 | 16 => 1 | 17 => 1 | 18 => 1 | 19 => 1
  | _ => 0

/-- Pages of each instance of a block type (spec 14 Table 14.2). -/
def blockPages (ty : Nat) : Nat :=
  match ty with
  | 1 => 6 | 2 => 3 | 13 => 2 | _ => if blockInstances ty = 0 then 0 else 1

/-- The blocks of the always-on domain H_AON (spec 14 Table 14.2). -/
def isAonBlock (ty : Nat) : Bool :=
  ty == 6 || ty == 11 || ty == 12 || ty == 13 || ty == 15 || ty == 19

/-- The control processor that a block's page interrupt reaches (spec 14 Table 14.2). -/
def blockIrqCp (ty : Nat) : Nat :=
  match ty with
  | 4 => 3 | 12 => 3
  | 5 => 2 | 6 => 2 | 11 => 2 | 19 => 2
  | 7 => 0 | 13 => 0 | 15 => 0
  | _ => 1

/-- The bit address of field `f`, entry `i`, of block instance `inst`: the one home of its value. -/
def Fld.key (f : Fld) (inst i : Nat) : Nat :=
  8 * (blockBase f.ty inst + 0x1000 * f.pg + f.off + f.step * (i / f.per)) + f.lsb + f.bitStep * (i % f.per)

/-! Table 14.4: the common header. -/
def Hdr.ENABLE (ty : Nat) : Fld :=
  { ty := ty, pg := 0, off := 0x8, width := 1, acc := .rw, reset := if isAonBlock ty then 1 else 0 }
def Hdr.SOFT_RESET (ty : Nat) : Fld := { ty := ty, pg := 0, off := 0x8, lsb := 1, width := 1, acc := .w1s }
def Hdr.FREEZE (ty : Nat) : Fld := { ty := ty, pg := 0, off := 0x8, lsb := 2, width := 1, acc := .rw }
def Hdr.READY (ty : Nat) : Fld := { ty := ty, pg := 0, off := 0xC, width := 1, acc := .ro, live := true }
def Hdr.BUSY (ty : Nat) : Fld := { ty := ty, pg := 0, off := 0xC, lsb := 1, width := 1, acc := .ro, live := true }
def Hdr.FROZEN (ty : Nat) : Fld := { ty := ty, pg := 0, off := 0xC, lsb := 2, width := 1, acc := .ro, live := true }
def Hdr.ERROR (ty : Nat) : Fld := { ty := ty, pg := 0, off := 0xC, lsb := 3, width := 1, acc := .ro, live := true }
def Hdr.INT_STATUS (ty pg : Nat) : Fld := { ty := ty, pg := pg, off := 0x10, width := 32, acc := .w1c }
def Hdr.INT_ENABLE (ty pg : Nat) : Fld := { ty := ty, pg := pg, off := 0x14, width := 32, acc := .rw }
def Hdr.INT_FORCE (ty pg : Nat) : Fld := { ty := ty, pg := pg, off := 0x18, width := 32, acc := .w1s }
def Hdr.ERR_CODE (ty pg : Nat) : Fld := { ty := ty, pg := pg, off := 0x1C, width := 16, acc := .ro }
def Hdr.ERR_INFO0 (ty pg : Nat) : Fld := { ty := ty, pg := pg, off := 0x20, width := 32, acc := .ro }
def Hdr.ERR_INFO1 (ty pg : Nat) : Fld := { ty := ty, pg := pg, off := 0x24, width := 32, acc := .ro }
def Hdr.PERF_EVENT (ty : Nat) : Fld := { ty := ty, pg := 0, off := 0x28, width := 8, acc := .rw }
def Hdr.PERF_CLEAR (ty : Nat) : Fld := { ty := ty, pg := 0, off := 0x28, lsb := 8, width := 1, acc := .w1s }
def Hdr.PERF_COUNT (ty : Nat) : Fld := { ty := ty, pg := 0, off := 0x2C, width := 32, acc := .ro }

/-- The header fields of page `pg` of block type `ty` that hold something (spec 14 R546). -/
def hdrFields (ty pg : Nat) : List Fld :=
  if pg = 0 then
    [Hdr.ENABLE ty, Hdr.SOFT_RESET ty, Hdr.FREEZE ty, Hdr.READY ty, Hdr.BUSY ty, Hdr.FROZEN ty, Hdr.ERROR ty,
     Hdr.INT_STATUS ty 0, Hdr.INT_ENABLE ty 0, Hdr.INT_FORCE ty 0, Hdr.ERR_CODE ty 0, Hdr.ERR_INFO0 ty 0,
     Hdr.ERR_INFO1 ty 0, Hdr.PERF_EVENT ty, Hdr.PERF_CLEAR ty, Hdr.PERF_COUNT ty]
  else if ty = 1 ∧ pg = 5 then
    [Hdr.INT_STATUS ty 5, Hdr.INT_ENABLE ty 5, Hdr.INT_FORCE ty 5, Hdr.ERR_CODE ty 5, Hdr.ERR_INFO0 ty 5,
     Hdr.ERR_INFO1 ty 5]
  else []

/-! Table 2.17. -/
def Reg.TILE_LOGICAL_X : Fld := { ty := 1, pg := 0, off := 0x100, width := 5, acc := .ro }
def Reg.TILE_LOGICAL_Y : Fld := { ty := 1, pg := 0, off := 0x100, width := 2, acc := .ro, lsb := 5, live := true }
def Reg.TILE_STACK : Fld := { ty := 1, pg := 0, off := 0x100, width := 2, acc := .ro, lsb := 8, live := true }
def Reg.TILE_CLUSTER : Fld := { ty := 1, pg := 0, off := 0x100, width := 3, acc := .ro, lsb := 10, live := true }
def Reg.TILE_ROW : Fld := { ty := 1, pg := 0, off := 0x100, width := 2, acc := .ro, lsb := 13, live := true }
def Reg.TILE_MAP_STATE : Fld := { ty := 1, pg := 0, off := 0x100, width := 2, acc := .ro, lsb := 16 }

/-! Table 2.18. -/
def Reg.TILE_ENTRY : Fld := { ty := 1, pg := 0, off := 0x104, width := 13, acc := .rw }
def Reg.TILE_START : Fld := { ty := 1, pg := 0, off := 0x104, width := 1, acc := .w1s, lsb := 16 }
def Reg.TILE_ABORT : Fld := { ty := 1, pg := 0, off := 0x104, width := 1, acc := .w1s, lsb := 17 }

/-! Table 2.19. -/
def Reg.TILE_PC : Fld := { ty := 1, pg := 0, off := 0x108, width := 13, acc := .ro, live := true }
def Reg.TILE_PROG_STATE : Fld := { ty := 1, pg := 0, off := 0x108, width := 3, acc := .ro, lsb := 13, live := true }
def Reg.TILE_STALL_CAUSE : Fld := { ty := 1, pg := 0, off := 0x108, width := 3, acc := .ro, lsb := 16, live := true }
def Reg.TILE_LOOP_DEPTH : Fld := { ty := 1, pg := 0, off := 0x108, width := 3, acc := .ro, lsb := 19, live := true }

/-! Table 2.20. -/
def Reg.TILE_PROG_LEN : Fld := { ty := 1, pg := 0, off := 0x10c, width := 14, acc := .rw }
def Reg.TILE_STALL_LIMIT : Fld := { ty := 1, pg := 0, off := 0x110, width := 32, acc := .rw }
def Reg.TILE_ECC_CORRECTED : Fld := { ty := 1, pg := 0, off := 0x114, width := 32, acc := .ro }
def Reg.TILE_TIME : Fld := { ty := 1, pg := 0, off := 0x118, width := 64, acc := .ro, latch := true, live := true }

/-! Table 2.21. -/
def Reg.TILE_DOOR_MODE : Fld := { ty := 1, pg := 1, off := 0x100, width := 2, acc := .rw, cnt := 16, step := 8 }
def Reg.TILE_DOOR_SENDER_TILE : Fld := { ty := 1, pg := 1, off := 0x100, width := 7, acc := .rw, lsb := 2, cnt := 16, step := 8 }
def Reg.TILE_DOOR_SENDER_MEMBER : Fld := { ty := 1, pg := 1, off := 0x100, width := 12, acc := .rw, lsb := 9, cnt := 16, step := 8 }

/-! Table 2.22. -/
def Reg.TILE_DOOR_MESSAGES : Fld := { ty := 1, pg := 1, off := 0x104, width := 4, acc := .ro, cnt := 16, step := 8, live := true }
def Reg.TILE_DOOR_OCCUPANCY : Fld := { ty := 1, pg := 1, off := 0x104, width := 4, acc := .ro, lsb := 4, cnt := 16, step := 8, live := true }
def Reg.TILE_DOOR_EXPECTED_SEQ : Fld := { ty := 1, pg := 1, off := 0x104, width := 16, acc := .ro, lsb := 8, cnt := 16, step := 8 }

/-! Table 2.23. -/
def Reg.TILE_CS_DEST_TILE : Fld := { ty := 1, pg := 1, off := 0x200, width := 7, acc := .rw, cnt := 32, step := 4 }
def Reg.TILE_CS_DOOR : Fld := { ty := 1, pg := 1, off := 0x200, width := 4, acc := .rw, lsb := 7, cnt := 32, step := 4 }
def Reg.TILE_CS_REMOTE : Fld := { ty := 1, pg := 1, off := 0x200, width := 1, acc := .rw, lsb := 11, cnt := 32, step := 4 }
def Reg.TILE_CS_DEST_MEMBER : Fld := { ty := 1, pg := 1, off := 0x200, width := 12, acc := .rw, lsb := 12, cnt := 32, step := 4 }
def Reg.TILE_CS_CREDITS : Fld := { ty := 1, pg := 1, off := 0x200, width := 4, acc := .rw, lsb := 24, cnt := 32, step := 4 }
def Reg.TILE_CS_VALID : Fld := { ty := 1, pg := 1, off := 0x200, width := 1, acc := .rw, lsb := 31, cnt := 32, step := 4 }

/-! Table 2.24. -/
def Reg.TILE_DOOR_LATE_DISCARD : Fld := { ty := 1, pg := 1, off := 0x180, width := 32, acc := .ro }
def Reg.TILE_DOOR_DROPPED : Fld := { ty := 1, pg := 1, off := 0x184, width := 32, acc := .ro }
def Reg.TILE_CREDIT_DROPPED : Fld := { ty := 1, pg := 1, off := 0x188, width := 32, acc := .ro }
def Reg.TILE_LATE_FILL_EVENTS : Fld := { ty := 1, pg := 2, off := 0x100, width := 32, acc := .ro, cnt := 8, step := 16 }
def Reg.TILE_LATE_FILL_CYCLES : Fld := { ty := 1, pg := 2, off := 0x104, width := 32, acc := .ro, cnt := 8, step := 16 }
def Reg.TILE_LATE_FILL_MAX : Fld := { ty := 1, pg := 2, off := 0x108, width := 32, acc := .ro, cnt := 8, step := 16 }
def Reg.TILE_DRAIN_BACKPRESSURE_CYCLES : Fld := { ty := 1, pg := 2, off := 0x10c, width := 32, acc := .ro, cnt := 8, step := 16 }
def Reg.TILE_STALL_CYCLES : Fld := { ty := 1, pg := 2, off := 0x180, width := 32, acc := .ro, cnt := 8, step := 4 }
def Reg.TILE_ISSUED_BUNDLES : Fld := { ty := 1, pg := 2, off := 0x1a0, width := 64, acc := .ro, latch := true }

/-! Table 3.11. -/
def Reg.PANTRY_BANK_REQ : Fld := { ty := 2, pg := 0, off := 0x100, width := 2, acc := .rw, reset := 2, cnt := 40, step := 4, per := 16, bitStep := 2 }
def Reg.PANTRY_BANK_CUR : Fld := { ty := 2, pg := 0, off := 0x110, width := 2, acc := .ro, reset := 2, cnt := 40, step := 4, per := 16, bitStep := 2 }
def Reg.PANTRY_ECC_CORRECTED : Fld := { ty := 2, pg := 0, off := 0x120, width := 32, acc := .ro }
def Reg.PANTRY_ECC_UNCORRECTABLE : Fld := { ty := 2, pg := 0, off := 0x124, width := 32, acc := .ro }
def Reg.PANTRY_ERR_LOST : Fld := { ty := 2, pg := 0, off := 0x128, width := 32, acc := .ro }
def Reg.PANTRY_SWEEP_EN : Fld := { ty := 2, pg := 0, off := 0x130, width := 1, acc := .rw, reset := 1 }
def Reg.PANTRY_SWEEP_INTERVAL : Fld := { ty := 2, pg := 0, off := 0x134, width := 24, acc := .rw, reset := 1024 }
def Reg.PANTRY_REGION : Fld := { ty := 2, pg := 0, off := 0x138, width := 13, acc := .ro }
def Reg.PANTRY_PHASE : Fld := { ty := 2, pg := 0, off := 0x138, width := 2, acc := .ro, lsb := 13 }
def Reg.PANTRY_HALTED : Fld := { ty := 2, pg := 0, off := 0x138, width := 1, acc := .ro, lsb := 15 }
def Reg.PANTRY_SWEEP_PASSES : Fld := { ty := 2, pg := 0, off := 0x13c, width := 32, acc := .ro }
def Reg.PANTRY_REPAIRED_LINES : Fld := { ty := 2, pg := 0, off := 0x140, width := 32, acc := .ro }
def Reg.PANTRY_SPARE_LINES_FREE : Fld := { ty := 2, pg := 0, off := 0x144, width := 10, acc := .ro, reset := 640 }

/-! Table 3.12. -/
def Reg.PANTRY_RD_BASE : Fld := { ty := 2, pg := 1, off := 0x100, width := 13, acc := .rw, cnt := 56, step := 8 }
def Reg.PANTRY_RD_R : Fld := { ty := 2, pg := 1, off := 0x100, width := 1, acc := .rw, lsb := 13, cnt := 56, step := 8 }
def Reg.PANTRY_RD_W : Fld := { ty := 2, pg := 1, off := 0x100, width := 1, acc := .rw, lsb := 14, cnt := 56, step := 8 }
def Reg.PANTRY_RD_EN : Fld := { ty := 2, pg := 1, off := 0x100, width := 1, acc := .rw, lsb := 15, cnt := 56, step := 8 }
def Reg.PANTRY_RD_LAST : Fld := { ty := 2, pg := 1, off := 0x104, width := 13, acc := .rw, cnt := 56, step := 8 }

/-! Table 3.13. -/
def Reg.PANTRY_RUNAHEAD : Fld := { ty := 2, pg := 2, off := 0x100, width := 24, acc := .rw, reset := 131072 }
def Reg.PANTRY_CTR_CLEAR : Fld := { ty := 2, pg := 2, off := 0x104, width := 1, acc := .w1s }
def Reg.PANTRY_DESC_BUSY : Fld := { ty := 2, pg := 2, off := 0x108, width := 16, acc := .ro, live := true }
def Reg.PANTRY_DESC_COMPLETED : Fld := { ty := 2, pg := 2, off := 0x10c, width := 32, acc := .ro }
def Reg.PANTRY_CONFLICT_CYCLES : Fld := { ty := 2, pg := 2, off := 0x110, width := 32, acc := .ro, cnt := 7, step := 4 }

/-! Table 4.9. -/
def Reg.TILE_SR_SEED : Fld := { ty := 1, pg := 3, off := 0x100, width := 64, acc := .rw }
def Reg.TILE_SR_STEP : Fld := { ty := 1, pg := 3, off := 0x108, width := 64, acc := .rw }
def Reg.TILE_LEGACY : Fld := { ty := 1, pg := 3, off := 0x110, width := 1, acc := .rw }
def Reg.TILE_NAN_PRODUCED : Fld := { ty := 1, pg := 3, off := 0x114, width := 1, acc := .ro }
def Reg.TILE_INF_PRODUCED : Fld := { ty := 1, pg := 3, off := 0x114, width := 1, acc := .ro, lsb := 1 }
def Reg.TILE_INVALID_CONVERT : Fld := { ty := 1, pg := 3, off := 0x114, width := 1, acc := .ro, lsb := 2 }
def Reg.TILE_INT_SAT : Fld := { ty := 1, pg := 3, off := 0x114, width := 1, acc := .ro, lsb := 3 }

/-! Table 5.12. -/
def Reg.TILE_ARRAY_MODE : Fld := { ty := 1, pg := 4, off := 0x100, width := 1, acc := .ro }
def Reg.TILE_A_QUEUE : Fld := { ty := 1, pg := 4, off := 0x100, width := 3, acc := .ro, lsb := 1, live := true }
def Reg.TILE_B_QUEUE : Fld := { ty := 1, pg := 4, off := 0x100, width := 3, acc := .ro, lsb := 4, live := true }
def Reg.TILE_A_SLOT : Fld := { ty := 1, pg := 4, off := 0x100, width := 1, acc := .ro, lsb := 7 }
def Reg.TILE_B_SLOT : Fld := { ty := 1, pg := 4, off := 0x100, width := 1, acc := .ro, lsb := 8 }
def Reg.TILE_READOUT_BUSY : Fld := { ty := 1, pg := 4, off := 0x100, width := 1, acc := .ro, lsb := 9, live := true }
def Reg.TILE_DRAIN_CFG_A : Fld := { ty := 1, pg := 4, off := 0x104, width := 6, acc := .ro, reset := 16 }
def Reg.TILE_DRAIN_CFG_B : Fld := { ty := 1, pg := 4, off := 0x104, width := 6, acc := .ro, lsb := 8, reset := 16 }
def Reg.TILE_FEED_BIND : Fld := { ty := 1, pg := 4, off := 0x108, width := 4, acc := .ro, reset := 15, cnt := 8, step := 4, per := 8, bitStep := 4 }
def Reg.TILE_DRAIN_BIND : Fld := { ty := 1, pg := 4, off := 0x10c, width := 4, acc := .ro, reset := 15, cnt := 8, step := 4, per := 8, bitStep := 4 }
def Reg.TILE_MM_COMPLETED : Fld := { ty := 1, pg := 4, off := 0x110, width := 32, acc := .ro }
def Reg.TILE_ZERO_GATED : Fld := { ty := 1, pg := 4, off := 0x114, width := 64, acc := .ro, latch := true, live := true }
def Reg.TILE_WALK_POS : Fld := { ty := 1, pg := 4, off := 0x120, width := 32, acc := .ro, cnt := 15, step := 4 }

/-! Table 5.13. -/
def Reg.TILE_WALK_BASE : Fld := { ty := 1, pg := 4, off := 0x200, width := 19, acc := .rw, lsb := 6, cnt := 15, step := 32 }
def Reg.TILE_WALK_STRIDE0 : Fld := { ty := 1, pg := 4, off := 0x204, width := 26, acc := .rw, lsb := 6, cnt := 15, step := 32 }
def Reg.TILE_WALK_STRIDE1 : Fld := { ty := 1, pg := 4, off := 0x208, width := 26, acc := .rw, lsb := 6, cnt := 15, step := 32 }
def Reg.TILE_WALK_STRIDE2 : Fld := { ty := 1, pg := 4, off := 0x20c, width := 26, acc := .rw, lsb := 6, cnt := 15, step := 32 }
def Reg.TILE_WALK_C0_M1 : Fld := { ty := 1, pg := 4, off := 0x210, width := 16, acc := .rw, cnt := 15, step := 32 }
def Reg.TILE_WALK_C1_M1 : Fld := { ty := 1, pg := 4, off := 0x210, width := 16, acc := .rw, lsb := 16, cnt := 15, step := 32 }
def Reg.TILE_WALK_C2_M1 : Fld := { ty := 1, pg := 4, off := 0x214, width := 16, acc := .rw, cnt := 15, step := 32 }
def Reg.TILE_WALK_SCALE_BASE : Fld := { ty := 1, pg := 4, off := 0x218, width := 19, acc := .rw, lsb := 6, cnt := 15, step := 32 }

/-! Table 6.11. -/
def Reg.TILE_MV_QUEUE : Fld := { ty := 1, pg := 5, off := 0x100, width := 3, acc := .ro, live := true }
def Reg.TILE_MV_BUSY : Fld := { ty := 1, pg := 5, off := 0x100, width := 1, acc := .ro, lsb := 3, live := true }
def Reg.TILE_MV_KIND : Fld := { ty := 1, pg := 5, off := 0x100, width := 4, acc := .ro, lsb := 4, live := true }
def Reg.TILE_GATHER_QUEUE : Fld := { ty := 1, pg := 5, off := 0x100, width := 3, acc := .ro, lsb := 8, live := true }
def Reg.TILE_GATHER_BUSY : Fld := { ty := 1, pg := 5, off := 0x100, width := 1, acc := .ro, lsb := 11, live := true }
def Reg.TILE_MV_DONE : Fld := { ty := 1, pg := 5, off := 0x104, width := 32, acc := .ro }
def Reg.TILE_MV_PROBLEMS : Fld := { ty := 1, pg := 5, off := 0x108, width := 32, acc := .ro }
def Reg.TILE_MV_NONSUCCESS : Fld := { ty := 1, pg := 5, off := 0x10c, width := 32, acc := .ro }
def Reg.TILE_MV_DEADLINE_MISS : Fld := { ty := 1, pg := 5, off := 0x110, width := 32, acc := .ro }
def Reg.TILE_MV_PIVOTS : Fld := { ty := 1, pg := 5, off := 0x114, width := 32, acc := .ro }
def Reg.TILE_MV_DESC_ADDR : Fld := { ty := 1, pg := 5, off := 0x118, width := 25, acc := .ro }
def Reg.TILE_GATHER_DONE : Fld := { ty := 1, pg := 5, off := 0x11c, width := 32, acc := .ro }
def Reg.TILE_GATHER_WAIT_CYCLES : Fld := { ty := 1, pg := 5, off := 0x120, width := 32, acc := .ro }
def Reg.TILE_GATHER_ORPHANED : Fld := { ty := 1, pg := 5, off := 0x124, width := 32, acc := .ro }

/-! Table 6.12. -/
def Reg.TILE_GE_SIDE_M1 : Fld := { ty := 1, pg := 5, off := 0x200, width := 4, acc := .rw, cnt := 16, step := 16 }
def Reg.TILE_GE_STRIDE_LOG2 : Fld := { ty := 1, pg := 5, off := 0x200, width := 3, acc := .rw, lsb := 4, cnt := 16, step := 16 }
def Reg.TILE_GE_OFFSET : Fld := { ty := 1, pg := 5, off := 0x200, width := 7, acc := .rw, lsb := 8, cnt := 16, step := 16 }
def Reg.TILE_GE_SRC_WALK : Fld := { ty := 1, pg := 5, off := 0x200, width := 4, acc := .rw, lsb := 16, reset := 15, cnt := 16, step := 16 }
def Reg.TILE_GE_ROWS_M1 : Fld := { ty := 1, pg := 5, off := 0x204, width := 16, acc := .rw, cnt := 16, step := 16 }
def Reg.TILE_GE_DST_LINE : Fld := { ty := 1, pg := 5, off := 0x208, width := 19, acc := .rw, lsb := 6, cnt := 16, step := 16 }

/-! Table 7.10. -/
def Reg.COMMIT_REQ_DOMAIN : Fld := { ty := 16, pg := 0, off := 0x100, width := 19, acc := .rw }
def Reg.COMMIT_REQ_KIND : Fld := { ty := 16, pg := 0, off := 0x100, width := 4, acc := .rw, lsb := 20 }
def Reg.COMMIT_REQ_SKIPPED : Fld := { ty := 16, pg := 0, off := 0x100, width := 1, acc := .rw, lsb := 24 }
def Reg.COMMIT_REQ_ROOTS : Fld := { ty := 16, pg := 0, off := 0x100, width := 1, acc := .rw, lsb := 25 }
def Reg.COMMIT_REQ_LEGACY : Fld := { ty := 16, pg := 0, off := 0x100, width := 1, acc := .rw, lsb := 26 }
def Reg.COMMIT_REQ_STEP : Fld := { ty := 16, pg := 0, off := 0x104, width := 64, acc := .rw }
def Reg.COMMIT_REQ_EPOCH : Fld := { ty := 16, pg := 0, off := 0x10c, width := 16, acc := .rw }
def Reg.COMMIT_REQ_ACC_COUNT : Fld := { ty := 16, pg := 0, off := 0x10c, width := 16, acc := .rw, lsb := 16 }
def Reg.COMMIT_REQ_UPB_CRC : Fld := { ty := 16, pg := 0, off := 0x110, width := 32, acc := .rw }
def Reg.COMMIT_REQ_GROWTH : Fld := { ty := 16, pg := 0, off := 0x114, width := 24, acc := .rw }
def Reg.COMMIT_REQ_NONFINITE : Fld := { ty := 16, pg := 0, off := 0x118, width := 32, acc := .rw }
def Reg.COMMIT_REQ_PUSH : Fld := { ty := 16, pg := 0, off := 0x11c, width := 1, acc := .w1s }
def Reg.COMMIT_QUEUE_DEPTH : Fld := { ty := 16, pg := 0, off := 0x120, width := 7, acc := .ro, live := true }
def Reg.COMMIT_BUSY : Fld := { ty := 16, pg := 0, off := 0x120, width := 1, acc := .ro, lsb := 7, live := true }
def Reg.COMMIT_PIN_WAITING : Fld := { ty := 16, pg := 0, off := 0x120, width := 1, acc := .ro, lsb := 8, live := true }
def Reg.COMMIT_LAST_DOMAIN : Fld := { ty := 16, pg := 0, off := 0x124, width := 19, acc := .ro }
def Reg.COMMIT_LAST_STEP : Fld := { ty := 16, pg := 0, off := 0x128, width := 64, acc := .ro, latch := true }
def Reg.COMMIT_COMMITS : Fld := { ty := 16, pg := 0, off := 0x130, width := 32, acc := .ro }
def Reg.COMMIT_SKIPS : Fld := { ty := 16, pg := 0, off := 0x134, width := 32, acc := .ro }
def Reg.COMMIT_DUPS : Fld := { ty := 16, pg := 0, off := 0x138, width := 32, acc := .ro }
def Reg.COMMIT_QUERY_DOMAIN : Fld := { ty := 16, pg := 0, off := 0x140, width := 19, acc := .rw }
def Reg.COMMIT_Q_SLOT : Fld := { ty := 16, pg := 0, off := 0x144, width := 1, acc := .ro, live := true }
def Reg.COMMIT_Q_VALID : Fld := { ty := 16, pg := 0, off := 0x144, width := 1, acc := .ro, lsb := 1, live := true }
def Reg.COMMIT_Q_PINS : Fld := { ty := 16, pg := 0, off := 0x144, width := 8, acc := .ro, lsb := 8, live := true }
def Reg.COMMIT_Q_STEP : Fld := { ty := 16, pg := 0, off := 0x148, width := 64, acc := .ro, latch := true, live := true }
def Reg.COMMIT_WHOLE_JOURNAL_BASE : Fld := { ty := 16, pg := 0, off := 0x150, width := 41, acc := .rwl }

/-! Table 8.11. -/
def Reg.CRU_OP_ADDR : Fld := { ty := 3, pg := 0, off := 0x100, width := 41, acc := .rw }
def Reg.CRU_OP_PUSH : Fld := { ty := 3, pg := 0, off := 0x108, width := 1, acc := .w1s }
def Reg.CRU_OP_ABORT : Fld := { ty := 3, pg := 0, off := 0x108, width := 1, acc := .w1s, lsb := 1 }
def Reg.CRU_QUEUE_DEPTH : Fld := { ty := 3, pg := 0, off := 0x10c, width := 5, acc := .ro, live := true }
def Reg.CRU_BUSY : Fld := { ty := 3, pg := 0, off := 0x10c, width := 1, acc := .ro, lsb := 5, live := true }
def Reg.CRU_RUN_OPK : Fld := { ty := 3, pg := 0, off := 0x10c, width := 4, acc := .ro, lsb := 6, live := true }
def Reg.CRU_HOP_TIMEOUT : Fld := { ty := 3, pg := 0, off := 0x110, width := 32, acc := .rw, reset := 50000000 }
def Reg.CRU_RUN_DOMAIN : Fld := { ty := 3, pg := 0, off := 0x114, width := 19, acc := .ro, live := true }
def Reg.CRU_RUN_STEP : Fld := { ty := 3, pg := 0, off := 0x118, width := 64, acc := .ro, latch := true, live := true }
def Reg.CRU_OPS_DONE : Fld := { ty := 3, pg := 0, off := 0x120, width := 32, acc := .ro }
def Reg.CRU_OPS_FAULT : Fld := { ty := 3, pg := 0, off := 0x124, width := 32, acc := .ro }
def Reg.CRU_OPS_OVF : Fld := { ty := 3, pg := 0, off := 0x128, width := 32, acc := .ro }
def Reg.CRU_OPS_TIMEOUT : Fld := { ty := 3, pg := 0, off := 0x12c, width := 32, acc := .ro }
def Reg.CRU_BLOCKS_REPAIRED : Fld := { ty := 3, pg := 0, off := 0x130, width := 32, acc := .ro }
def Reg.CRU_BLOCKS_WIDE : Fld := { ty := 3, pg := 0, off := 0x134, width := 32, acc := .ro }
def Reg.CRU_BLOCKS_PREMAX : Fld := { ty := 3, pg := 0, off := 0x138, width := 32, acc := .ro }
def Reg.CRU_NOISE_INVALID : Fld := { ty := 3, pg := 0, off := 0x13c, width := 32, acc := .ro }

/-! Table 8.12. -/
def Reg.CH_EN : Fld := { ty := 3, pg := 0, off := 0x100, width := 1, acc := .rw, cnt := 2, step := 128 }
def Reg.CH_TX_PORT : Fld := { ty := 3, pg := 0, off := 0x100, width := 3, acc := .rw, lsb := 1, cnt := 2, step := 128 }
def Reg.CH_RX_PORT : Fld := { ty := 3, pg := 0, off := 0x100, width := 3, acc := .rw, lsb := 4, cnt := 2, step := 128 }
def Reg.CH_POSITION : Fld := { ty := 3, pg := 0, off := 0x100, width := 12, acc := .rw, lsb := 8, cnt := 2, step := 128 }
def Reg.CH_RING_M1 : Fld := { ty := 3, pg := 0, off := 0x100, width := 12, acc := .rw, lsb := 20, cnt := 2, step := 128 }
def Reg.CH_NEXT_MEMBER : Fld := { ty := 3, pg := 0, off := 0x104, width := 12, acc := .rw, cnt := 2, step := 128 }
def Reg.CH_PREV_MEMBER : Fld := { ty := 3, pg := 0, off := 0x104, width := 12, acc := .rw, lsb := 12, cnt := 2, step := 128 }
def Reg.CH_EPOCH : Fld := { ty := 3, pg := 0, off := 0x108, width := 16, acc := .rw, cnt := 2, step := 128 }
def Reg.CH_OPEN : Fld := { ty := 3, pg := 0, off := 0x10c, width := 1, acc := .ro, cnt := 2, step := 128 }
def Reg.CH_CREDITS : Fld := { ty := 3, pg := 0, off := 0x10c, width := 4, acc := .ro, lsb := 1, cnt := 2, step := 128 }
def Reg.CH_SENT_DIGEST : Fld := { ty := 3, pg := 0, off := 0x110, width := 64, acc := .ro, cnt := 2, step := 128, latch := true }
def Reg.CH_RECV_DIGEST : Fld := { ty := 3, pg := 0, off := 0x118, width := 64, acc := .ro, cnt := 2, step := 128, latch := true }
def Reg.CH_SEQ_TX : Fld := { ty := 3, pg := 0, off := 0x120, width := 32, acc := .ro, cnt := 2, step := 128 }
def Reg.CH_SEQ_RX : Fld := { ty := 3, pg := 0, off := 0x124, width := 32, acc := .ro, cnt := 2, step := 128 }
def Reg.CH_CHUNKS_TX : Fld := { ty := 3, pg := 0, off := 0x128, width := 32, acc := .ro, cnt := 2, step := 128 }
def Reg.CH_CHUNKS_RX : Fld := { ty := 3, pg := 0, off := 0x12c, width := 32, acc := .ro, cnt := 2, step := 128 }
def Reg.CH_EPOCH_DROPS : Fld := { ty := 3, pg := 0, off := 0x130, width := 32, acc := .ro, cnt := 2, step := 128 }
def Reg.CH_STALE_DROPS : Fld := { ty := 3, pg := 0, off := 0x134, width := 32, acc := .ro, cnt := 2, step := 128 }
def Reg.CH_LATE_DISCARDS : Fld := { ty := 3, pg := 0, off := 0x138, width := 32, acc := .ro, cnt := 2, step := 128 }

/-! Table 9.15. -/
def Reg.EXPORT_REQ_DOMAIN : Fld := { ty := 14, pg := 0, off := 0x100, width := 19, acc := .rw }
def Reg.EXPORT_REQ_KIND : Fld := { ty := 14, pg := 0, off := 0x100, width := 1, acc := .rw, lsb := 19 }
def Reg.EXPORT_TARGET : Fld := { ty := 14, pg := 0, off := 0x100, width := 1, acc := .rw, lsb := 20 }
def Reg.EXPORT_PEER_MEMBER : Fld := { ty := 14, pg := 0, off := 0x104, width := 12, acc := .rw }
def Reg.EXPORT_BUF_BASE : Fld := { ty := 14, pg := 0, off := 0x108, width := 41, acc := .rw }
def Reg.EXPORT_BUF_LIMIT : Fld := { ty := 14, pg := 0, off := 0x110, width := 32, acc := .rw }
def Reg.EXPORT_LIST_BASE : Fld := { ty := 14, pg := 0, off := 0x114, width := 41, acc := .rw }
def Reg.EXPORT_LIST_COUNT : Fld := { ty := 14, pg := 0, off := 0x11c, width := 19, acc := .rw }
def Reg.EXPORT_GO : Fld := { ty := 14, pg := 0, off := 0x120, width := 1, acc := .w1s }
def Reg.EXPORT_ABORT : Fld := { ty := 14, pg := 0, off := 0x120, width := 1, acc := .w1s, lsb := 1 }
def Reg.EXPORT_STATE : Fld := { ty := 14, pg := 0, off := 0x124, width := 3, acc := .ro }
def Reg.EXPORT_PIN_HELD : Fld := { ty := 14, pg := 0, off := 0x124, width := 1, acc := .ro, lsb := 3 }
def Reg.EXPORT_BYTES_DONE : Fld := { ty := 14, pg := 0, off := 0x128, width := 64, acc := .ro, latch := true }
def Reg.EXPORT_PIN_LIMIT : Fld := { ty := 14, pg := 0, off := 0x130, width := 32, acc := .rw, reset := 2000 }
def Reg.EXPORT_EXPORTS : Fld := { ty := 14, pg := 0, off := 0x134, width := 32, acc := .ro }
def Reg.EXPORT_PIN_EXPIRIES : Fld := { ty := 14, pg := 0, off := 0x138, width := 32, acc := .ro }

/-! Table 10.11. -/
def Reg.KML_STATE : Fld := { ty := 4, pg := 0, off := 0x100, width := 3, acc := .ro }
def Reg.KML_PEER_MEMBER : Fld := { ty := 4, pg := 0, off := 0x104, width := 12, acc := .ro }
def Reg.KML_PEER_PORT : Fld := { ty := 4, pg := 0, off := 0x104, width := 3, acc := .ro, lsb := 12 }
def Reg.KML_PEER_SERIAL : Fld := { ty := 4, pg := 0, off := 0x108, width := 64, acc := .ro, latch := true }
def Reg.KML_PEER_BOOT_COUNT : Fld := { ty := 4, pg := 0, off := 0x110, width := 32, acc := .ro }
def Reg.KML_MAP_MEMBER : Fld := { ty := 4, pg := 0, off := 0x114, width := 12, acc := .rwl }
def Reg.KML_MAP_PORT : Fld := { ty := 4, pg := 0, off := 0x114, width := 3, acc := .rwl, lsb := 12 }
def Reg.KML_MAP_VALID : Fld := { ty := 4, pg := 0, off := 0x114, width := 1, acc := .rwl, lsb := 15 }
def Reg.KML_FEC_CORRECTED : Fld := { ty := 4, pg := 0, off := 0x118, width := 32, acc := .ro }
def Reg.KML_FEC_UNCORRECTABLE : Fld := { ty := 4, pg := 0, off := 0x11c, width := 32, acc := .ro }
def Reg.KML_FRAMES_REPLAYED : Fld := { ty := 4, pg := 0, off := 0x120, width := 32, acc := .ro }
def Reg.KML_FORMAT_DROPS : Fld := { ty := 4, pg := 0, off := 0x124, width := 32, acc := .ro }
def Reg.KML_ROUTE_DROPS : Fld := { ty := 4, pg := 0, off := 0x128, width := 32, acc := .ro }
def Reg.KML_UP_COUNT : Fld := { ty := 4, pg := 0, off := 0x12c, width := 32, acc := .ro }

/-! Table 10.12. -/
def Reg.DDR_STATE : Fld := { ty := 5, pg := 0, off := 0x100, width := 2, acc := .ro }
def Reg.DDR_CAUSE : Fld := { ty := 5, pg := 0, off := 0x100, width := 4, acc := .ro, lsb := 2 }
def Reg.DDR_STORED_USED : Fld := { ty := 5, pg := 0, off := 0x100, width := 1, acc := .ro, lsb := 6 }
def Reg.DDR_DIMM_SERIAL : Fld := { ty := 5, pg := 0, off := 0x104, width := 32, acc := .ro }
def Reg.DDR_CE_COUNT : Fld := { ty := 5, pg := 0, off := 0x108, width := 32, acc := .ro }
def Reg.DDR_UE_COUNT : Fld := { ty := 5, pg := 0, off := 0x10c, width := 32, acc := .ro }
def Reg.DDR_SCRUB_PERIOD : Fld := { ty := 5, pg := 0, off := 0x110, width := 16, acc := .rw, reset := 24 }
def Reg.DDR_SCRUB_PASSES : Fld := { ty := 5, pg := 0, off := 0x114, width := 32, acc := .ro }
def Reg.DDR_LAST_UE_ADDR : Fld := { ty := 5, pg := 0, off := 0x118, width := 41, acc := .ro, latch := true }
def Reg.DDR_PPR_ROWS : Fld := { ty := 5, pg := 0, off := 0x120, width := 16, acc := .ro }

/-! Table 10.13. -/
def Reg.HP_ROLE : Fld := { ty := 10, pg := 0, off := 0x100, width := 2, acc := .ro }
def Reg.HP_RATE : Fld := { ty := 10, pg := 0, off := 0x100, width := 2, acc := .ro, lsb := 2 }
def Reg.HP_WIDTH : Fld := { ty := 10, pg := 0, off := 0x100, width := 2, acc := .ro, lsb := 4 }
def Reg.HP_FAILOVER_DELAY : Fld := { ty := 10, pg := 0, off := 0x104, width := 16, acc := .rw, reset := 100 }
def Reg.HP_FAILOVERS : Fld := { ty := 10, pg := 0, off := 0x108, width := 32, acc := .ro }
def Reg.HP_WINDOW_WRITE_DROPS : Fld := { ty := 10, pg := 0, off := 0x10c, width := 32, acc := .ro }
def Reg.HP_LINK_DOWNS : Fld := { ty := 10, pg := 0, off := 0x110, width := 32, acc := .ro }

/-! Table 11.19. -/
def Reg.CP_STATE : Fld := { ty := 7, pg := 0, off := 0x100, width := 3, acc := .ro }
def Reg.CP_SLOT : Fld := { ty := 7, pg := 0, off := 0x100, width := 1, acc := .ro, lsb := 3 }
def Reg.CP_WDT_PERIOD : Fld := { ty := 7, pg := 0, off := 0x104, width := 16, acc := .rw }
def Reg.CP_WDT_KICK : Fld := { ty := 7, pg := 0, off := 0x108, width := 1, acc := .w1s }
def Reg.CP_RESTARTS : Fld := { ty := 7, pg := 0, off := 0x10c, width := 32, acc := .ro }
def Reg.CP_LAST_RESTART : Fld := { ty := 7, pg := 0, off := 0x110, width := 64, acc := .ro, latch := true }

/-! Table 11.20. -/
def Reg.MBX_VER_MIN : Fld := { ty := 8, pg := 0, off := 0x100, width := 16, acc := .ro, reset := 256 }
def Reg.MBX_VER_MAX : Fld := { ty := 8, pg := 0, off := 0x100, width := 16, acc := .ro, lsb := 16, reset := 256 }
def Reg.MBX_FW_STATE : Fld := { ty := 8, pg := 0, off := 0x104, width := 3, acc := .ro }
def Reg.MBX_BOUND : Fld := { ty := 8, pg := 0, off := 0x104, width := 1, acc := .ro, lsb := 3 }
def Reg.MBX_S1_FB : Fld := { ty := 8, pg := 0, off := 0x104, width := 1, acc := .ro, lsb := 4 }
def Reg.MBX_RUNTIME_FLASH : Fld := { ty := 8, pg := 0, off := 0x104, width := 1, acc := .ro, lsb := 5 }
def Reg.MBX_RUNTIME_FB : Fld := { ty := 8, pg := 0, off := 0x104, width := 1, acc := .ro, lsb := 6 }
def Reg.MBX_RUNTIME_ID : Fld := { ty := 8, pg := 0, off := 0x108, width := 32, acc := .ro }
def Reg.MBX_STAGE1_ID : Fld := { ty := 8, pg := 0, off := 0x10c, width := 32, acc := .ro }
def Reg.MBX_EXPECTED_SEQ : Fld := { ty := 8, pg := 0, off := 0x110, width := 32, acc := .ro }
def Reg.MBX_REQUESTS : Fld := { ty := 8, pg := 0, off := 0x114, width := 32, acc := .ro }
def Reg.MBX_NACKS : Fld := { ty := 8, pg := 0, off := 0x118, width := 32, acc := .ro }
def Reg.MBX_EVT_LOST : Fld := { ty := 8, pg := 0, off := 0x11c, width := 32, acc := .ro }

/-! Table 11.21. -/
def Reg.QMGR_HOST_LOSS_TIMEOUT : Fld := { ty := 9, pg := 0, off := 0x100, width := 12, acc := .ro, reset := 30 }
def Reg.QMGR_HOST_LAST_SEEN : Fld := { ty := 9, pg := 0, off := 0x104, width := 64, acc := .ro, latch := true }
def Reg.QMGR_QUEUES : Fld := { ty := 9, pg := 0, off := 0x10c, width := 16, acc := .ro }
def Reg.QMGR_QUEUES_STALLED : Fld := { ty := 9, pg := 0, off := 0x10c, width := 16, acc := .ro, lsb := 16 }
def Reg.QMGR_UNITS_STARTED : Fld := { ty := 9, pg := 0, off := 0x110, width := 32, acc := .ro }
def Reg.QMGR_CPL_STALLS : Fld := { ty := 9, pg := 0, off := 0x114, width := 32, acc := .ro }
def Reg.QMGR_HOLD_ENTRIES : Fld := { ty := 9, pg := 0, off := 0x118, width := 32, acc := .ro }

/-! Table 11.22. -/
def Reg.CTX_BASE : Fld := { ty := 17, pg := 0, off := 0x100, width := 41, acc := .rwl }
def Reg.CTX_IN_USE : Fld := { ty := 17, pg := 0, off := 0x108, width := 20, acc := .ro }

/-! Table 12.8. -/
def Reg.BRK_PCAP : Fld := { ty := 6, pg := 0, off := 0x100, width := 12, acc := .rwl, reset := 2400 }
def Reg.BRK_T_THROTTLE_CFG : Fld := { ty := 6, pg := 0, off := 0x104, width := 8, acc := .rwl, reset := 105 }
def Reg.BRK_CP2_LIVE : Fld := { ty := 6, pg := 0, off := 0x108, width := 1, acc := .w1s }
def Reg.BRK_TARGET_N : Fld := { ty := 6, pg := 0, off := 0x110, width := 6, acc := .rw, reset := 56, cnt := 4, step := 4 }
def Reg.BRK_CUR_N : Fld := { ty := 6, pg := 0, off := 0x110, width := 6, acc := .ro, lsb := 8, reset := 56, cnt := 4, step := 4 }
def Reg.BRK_THROTTLE : Fld := { ty := 6, pg := 0, off := 0x110, width := 4, acc := .ro, lsb := 16, cnt := 4, step := 4 }
def Reg.BRK_FREQ_APPLY : Fld := { ty := 6, pg := 0, off := 0x110, width := 1, acc := .w1s, lsb := 20, cnt := 4, step := 4 }
def Reg.BRK_SAFE_FLOOR : Fld := { ty := 6, pg := 0, off := 0x120, width := 1, acc := .ro }
def Reg.BRK_HEARTH_HOT : Fld := { ty := 6, pg := 0, off := 0x120, width := 1, acc := .ro, lsb := 1 }
def Reg.BRK_P_IN : Fld := { ty := 6, pg := 0, off := 0x124, width := 12, acc := .ro }
def Reg.BRK_TRIP_CAUSE : Fld := { ty := 6, pg := 0, off := 0x128, width := 3, acc := .w1c }
def Reg.BRK_TRIP_INFO : Fld := { ty := 6, pg := 0, off := 0x128, width := 16, acc := .ro, lsb := 16 }
def Reg.BRK_THROTTLE_MS : Fld := { ty := 6, pg := 0, off := 0x12c, width := 32, acc := .ro }
def Reg.BRK_FUSE_F_MAX_N : Fld := { ty := 6, pg := 0, off := 0x140, width := 6, acc := .ro, reset := 56 }
def Reg.BRK_FUSE_FLOOR_N : Fld := { ty := 6, pg := 0, off := 0x140, width := 6, acc := .ro, lsb := 6, reset := 40 }
def Reg.BRK_FUSE_V_CEIL : Fld := { ty := 6, pg := 0, off := 0x140, width := 10, acc := .ro, lsb := 12, reset := 850 }
def Reg.BRK_FUSE_P_CONT : Fld := { ty := 6, pg := 0, off := 0x144, width := 12, acc := .ro, reset := 2400 }
def Reg.BRK_FUSE_P_PEAK : Fld := { ty := 6, pg := 0, off := 0x144, width := 12, acc := .ro, lsb := 12, reset := 2800 }
def Reg.BRK_FUSE_T_THROTTLE : Fld := { ty := 6, pg := 0, off := 0x148, width := 8, acc := .ro, reset := 105 }
def Reg.BRK_FUSE_T_TRIP : Fld := { ty := 6, pg := 0, off := 0x148, width := 8, acc := .ro, lsb := 8, reset := 115 }

/-! Table 12.9. -/
def Reg.PSEQ_REQ : Fld := { ty := 19, pg := 0, off := 0x100, width := 2, acc := .rw, cnt := 50, step := 4 }
def Reg.PSEQ_CUR : Fld := { ty := 19, pg := 0, off := 0x100, width := 2, acc := .ro, lsb := 2, cnt := 50, step := 4 }
def Reg.PSEQ_FAULT : Fld := { ty := 19, pg := 0, off := 0x100, width := 1, acc := .ro, lsb := 4, cnt := 50, step := 4 }

/-! Table 12.10. -/
def Reg.AGE_V_SET : Fld := { ty := 11, pg := 0, off := 0x100, width := 10, acc := .rw, cnt := 8, step := 16 }
def Reg.AGE_CPR0_SLACK : Fld := { ty := 11, pg := 0, off := 0x104, width := 8, acc := .ro, cnt := 8, step := 16 }
def Reg.AGE_CPR1_SLACK : Fld := { ty := 11, pg := 0, off := 0x104, width := 8, acc := .ro, lsb := 8, cnt := 8, step := 16 }
def Reg.AGE_TEMP : Fld := { ty := 11, pg := 0, off := 0x104, width := 8, acc := .ro, lsb := 16, cnt := 8, step := 16 }
def Reg.AGE_RO0_COUNT : Fld := { ty := 11, pg := 0, off := 0x108, width := 32, acc := .ro, cnt := 8, step := 16 }
def Reg.AGE_RO1_COUNT : Fld := { ty := 11, pg := 0, off := 0x10c, width := 32, acc := .ro, cnt := 8, step := 16 }
def Reg.AGE_RG_TEMP : Fld := { ty := 11, pg := 0, off := 0x180, width := 8, acc := .ro, cnt := 2, per := 2, bitStep := 8 }

/-! Table 13.11. -/
def Reg.CONFIG_CFG_LOCK : Fld := { ty := 15, pg := 0, off := 0x100, width := 1, acc := .w1s }
def Reg.CONFIG_CFG_DEFAULTED : Fld := { ty := 15, pg := 0, off := 0x104, width := 1, acc := .ro }
def Reg.CONFIG_DEFAULT_CAUSE : Fld := { ty := 15, pg := 0, off := 0x104, width := 3, acc := .ro, lsb := 1 }
def Reg.CONFIG_EXPORT_OFF : Fld := { ty := 15, pg := 0, off := 0x104, width := 1, acc := .ro, lsb := 4 }
def Reg.CONFIG_START_KIND : Fld := { ty := 15, pg := 0, off := 0x108, width := 2, acc := .ro }
def Reg.CONFIG_START_REASON : Fld := { ty := 15, pg := 0, off := 0x108, width := 3, acc := .ro, lsb := 2 }
def Reg.CONFIG_MSS_MISSING : Fld := { ty := 15, pg := 0, off := 0x108, width := 3, acc := .ro, lsb := 5 }
def Reg.CONFIG_LC_STATE : Fld := { ty := 15, pg := 0, off := 0x108, width := 2, acc := .ro, lsb := 8, live := true }
def Reg.CONFIG_TOGGLES_USED : Fld := { ty := 15, pg := 0, off := 0x108, width := 6, acc := .ro, lsb := 10, live := true }
def Reg.CONFIG_BOOT_COUNT : Fld := { ty := 15, pg := 0, off := 0x10c, width := 32, acc := .ro }
def Reg.CONFIG_START_MS : Fld := { ty := 15, pg := 0, off := 0x110, width := 32, acc := .ro }
def Reg.CONFIG_RETAINED_RANGES : Fld := { ty := 15, pg := 0, off := 0x114, width := 12, acc := .ro }

/-! Table 14.7. -/
def Reg.SEC_FATAL : Fld := { ty := 13, pg := 1, off := 0x100, width := 1, acc := .w1c }
def Reg.SEC_BREAKER : Fld := { ty := 13, pg := 1, off := 0x100, width := 1, acc := .w1c, lsb := 1 }
def Reg.SEC_HOLD : Fld := { ty := 13, pg := 1, off := 0x100, width := 1, acc := .w1c, lsb := 2 }
def Reg.SEC_ALERT_CAUSE : Fld := { ty := 13, pg := 1, off := 0x104, width := 2, acc := .ro, live := true }
def Reg.SEC_ALERT_ASSERTED : Fld := { ty := 13, pg := 1, off := 0x104, width := 1, acc := .ro, lsb := 2, live := true }
def Reg.SEC_IRQ_PENDING_CP : Fld := { ty := 13, pg := 1, off := 0x110, width := 20, acc := .ro, cnt := 4, step := 4, live := true }
def Reg.SEC_TILE_IRQ_PENDING : Fld := { ty := 13, pg := 1, off := 0x120, width := 32, acc := .ro, cnt := 4, step := 4, live := true }
def Reg.SEC_PANTRY_IRQ_PENDING : Fld := { ty := 13, pg := 1, off := 0x130, width := 32, acc := .ro, cnt := 4, step := 4, live := true }

/-! Table 14.9. -/
def Reg.SEC_SERIAL : Fld := { ty := 13, pg := 0, off := 0x100, width := 64, acc := .ro, latch := true, live := true }
def Reg.SEC_STEPPING : Fld := { ty := 13, pg := 0, off := 0x108, width := 2, acc := .ro, reset := 2, live := true }
def Reg.SEC_LC_STATE : Fld := { ty := 13, pg := 0, off := 0x108, width := 2, acc := .ro, lsb := 2, live := true }
def Reg.SEC_KEY_REVOKED : Fld := { ty := 13, pg := 0, off := 0x108, width := 4, acc := .ro, lsb := 4, live := true }
def Reg.SEC_MIN_SVN : Fld := { ty := 13, pg := 0, off := 0x10c, width := 32, acc := .ro, live := true }
def Reg.SEC_OWNER_TAG : Fld := { ty := 13, pg := 0, off := 0x110, width := 64, acc := .ro, latch := true, live := true }
def Reg.SEC_DEV_KEY_TAG : Fld := { ty := 13, pg := 0, off := 0x118, width := 64, acc := .ro, latch := true, live := true }
def Reg.SEC_MEMBER : Fld := { ty := 13, pg := 0, off := 0x120, width := 12, acc := .rw }
def Reg.SEC_MEMBER_STATE : Fld := { ty := 13, pg := 0, off := 0x120, width := 2, acc := .rw, lsb := 12 }
def Reg.SEC_MEMBER_ASSIGNED : Fld := { ty := 13, pg := 0, off := 0x120, width := 1, acc := .rw, lsb := 14 }
def Reg.SEC_ACCESS_ERRORS : Fld := { ty := 13, pg := 0, off := 0x124, width := 32, acc := .ro }

/-! Table 14.10. -/
def Reg.TB_TIME : Fld := { ty := 12, pg := 0, off := 0x100, width := 64, acc := .ro, latch := true, live := true }
def Reg.TB_SYNC_STATE : Fld := { ty := 12, pg := 0, off := 0x108, width := 2, acc := .ro, reset := 2 }
def Reg.TB_PARENT_PORT : Fld := { ty := 12, pg := 0, off := 0x108, width := 3, acc := .ro, lsb := 2 }
def Reg.TB_PARENT_VALID : Fld := { ty := 12, pg := 0, off := 0x108, width := 1, acc := .ro, lsb := 5 }
def Reg.TB_HOPS : Fld := { ty := 12, pg := 0, off := 0x108, width := 7, acc := .ro, lsb := 6 }
def Reg.TB_GM_MEMBER : Fld := { ty := 12, pg := 0, off := 0x108, width := 12, acc := .ro, lsb := 13 }
def Reg.TB_OFFSET : Fld := { ty := 12, pg := 0, off := 0x10c, width := 32, acc := .ro }
def Reg.TB_RATE_ADJ : Fld := { ty := 12, pg := 0, off := 0x110, width := 32, acc := .ro }
def Reg.TB_LAST_SYNC : Fld := { ty := 12, pg := 0, off := 0x114, width := 64, acc := .ro, latch := true }
def Reg.TB_STEPS : Fld := { ty := 12, pg := 0, off := 0x11c, width := 32, acc := .ro }
def Reg.TB_PARENT_CHANGES : Fld := { ty := 12, pg := 0, off := 0x120, width := 32, acc := .ro }
def Reg.TB_GM_CHANGES : Fld := { ty := 12, pg := 0, off := 0x124, width := 32, acc := .ro }

def regs_tile0 : List Fld :=
  [Reg.TILE_LOGICAL_X, Reg.TILE_LOGICAL_Y, Reg.TILE_STACK, Reg.TILE_CLUSTER, Reg.TILE_ROW, Reg.TILE_MAP_STATE,
   Reg.TILE_ENTRY, Reg.TILE_START, Reg.TILE_ABORT, Reg.TILE_PC, Reg.TILE_PROG_STATE, Reg.TILE_STALL_CAUSE,
   Reg.TILE_LOOP_DEPTH, Reg.TILE_PROG_LEN, Reg.TILE_STALL_LIMIT, Reg.TILE_ECC_CORRECTED, Reg.TILE_TIME]
def regs_tile1 : List Fld :=
  [Reg.TILE_DOOR_MODE, Reg.TILE_DOOR_SENDER_TILE, Reg.TILE_DOOR_SENDER_MEMBER, Reg.TILE_DOOR_MESSAGES,
   Reg.TILE_DOOR_OCCUPANCY, Reg.TILE_DOOR_EXPECTED_SEQ, Reg.TILE_CS_DEST_TILE, Reg.TILE_CS_DOOR, Reg.TILE_CS_REMOTE,
   Reg.TILE_CS_DEST_MEMBER, Reg.TILE_CS_CREDITS, Reg.TILE_CS_VALID, Reg.TILE_DOOR_LATE_DISCARD,
   Reg.TILE_DOOR_DROPPED, Reg.TILE_CREDIT_DROPPED]
def regs_tile2 : List Fld :=
  [Reg.TILE_LATE_FILL_EVENTS, Reg.TILE_LATE_FILL_CYCLES, Reg.TILE_LATE_FILL_MAX, Reg.TILE_DRAIN_BACKPRESSURE_CYCLES,
   Reg.TILE_STALL_CYCLES, Reg.TILE_ISSUED_BUNDLES]
def regs_tile3 : List Fld :=
  [Reg.TILE_SR_SEED, Reg.TILE_SR_STEP, Reg.TILE_LEGACY, Reg.TILE_NAN_PRODUCED, Reg.TILE_INF_PRODUCED,
   Reg.TILE_INVALID_CONVERT, Reg.TILE_INT_SAT]
def regs_tile4 : List Fld :=
  [Reg.TILE_ARRAY_MODE, Reg.TILE_A_QUEUE, Reg.TILE_B_QUEUE, Reg.TILE_A_SLOT, Reg.TILE_B_SLOT, Reg.TILE_READOUT_BUSY,
   Reg.TILE_DRAIN_CFG_A, Reg.TILE_DRAIN_CFG_B, Reg.TILE_FEED_BIND, Reg.TILE_DRAIN_BIND, Reg.TILE_MM_COMPLETED,
   Reg.TILE_ZERO_GATED, Reg.TILE_WALK_POS, Reg.TILE_WALK_BASE, Reg.TILE_WALK_STRIDE0, Reg.TILE_WALK_STRIDE1,
   Reg.TILE_WALK_STRIDE2, Reg.TILE_WALK_C0_M1, Reg.TILE_WALK_C1_M1, Reg.TILE_WALK_C2_M1, Reg.TILE_WALK_SCALE_BASE]
def regs_tile5 : List Fld :=
  [Reg.TILE_MV_QUEUE, Reg.TILE_MV_BUSY, Reg.TILE_MV_KIND, Reg.TILE_GATHER_QUEUE, Reg.TILE_GATHER_BUSY,
   Reg.TILE_MV_DONE, Reg.TILE_MV_PROBLEMS, Reg.TILE_MV_NONSUCCESS, Reg.TILE_MV_DEADLINE_MISS, Reg.TILE_MV_PIVOTS,
   Reg.TILE_MV_DESC_ADDR, Reg.TILE_GATHER_DONE, Reg.TILE_GATHER_WAIT_CYCLES, Reg.TILE_GATHER_ORPHANED,
   Reg.TILE_GE_SIDE_M1, Reg.TILE_GE_STRIDE_LOG2, Reg.TILE_GE_OFFSET, Reg.TILE_GE_SRC_WALK, Reg.TILE_GE_ROWS_M1,
   Reg.TILE_GE_DST_LINE]
def regs_pantry0 : List Fld :=
  [Reg.PANTRY_BANK_REQ, Reg.PANTRY_BANK_CUR, Reg.PANTRY_ECC_CORRECTED, Reg.PANTRY_ECC_UNCORRECTABLE,
   Reg.PANTRY_ERR_LOST, Reg.PANTRY_SWEEP_EN, Reg.PANTRY_SWEEP_INTERVAL, Reg.PANTRY_REGION, Reg.PANTRY_PHASE,
   Reg.PANTRY_HALTED, Reg.PANTRY_SWEEP_PASSES, Reg.PANTRY_REPAIRED_LINES, Reg.PANTRY_SPARE_LINES_FREE]
def regs_pantry1 : List Fld :=
  [Reg.PANTRY_RD_BASE, Reg.PANTRY_RD_R, Reg.PANTRY_RD_W, Reg.PANTRY_RD_EN, Reg.PANTRY_RD_LAST]
def regs_pantry2 : List Fld :=
  [Reg.PANTRY_RUNAHEAD, Reg.PANTRY_CTR_CLEAR, Reg.PANTRY_DESC_BUSY, Reg.PANTRY_DESC_COMPLETED,
   Reg.PANTRY_CONFLICT_CYCLES]
def regs_cruCtl : List Fld :=
  [Reg.CRU_OP_ADDR, Reg.CRU_OP_PUSH, Reg.CRU_OP_ABORT, Reg.CRU_QUEUE_DEPTH, Reg.CRU_BUSY, Reg.CRU_RUN_OPK,
   Reg.CRU_HOP_TIMEOUT, Reg.CRU_RUN_DOMAIN, Reg.CRU_RUN_STEP, Reg.CRU_OPS_DONE, Reg.CRU_OPS_FAULT, Reg.CRU_OPS_OVF,
   Reg.CRU_OPS_TIMEOUT, Reg.CRU_BLOCKS_REPAIRED, Reg.CRU_BLOCKS_WIDE, Reg.CRU_BLOCKS_PREMAX, Reg.CRU_NOISE_INVALID]
def regs_cruSlice : List Fld :=
  [Reg.CH_EN, Reg.CH_TX_PORT, Reg.CH_RX_PORT, Reg.CH_POSITION, Reg.CH_RING_M1, Reg.CH_NEXT_MEMBER,
   Reg.CH_PREV_MEMBER, Reg.CH_EPOCH, Reg.CH_OPEN, Reg.CH_CREDITS, Reg.CH_SENT_DIGEST, Reg.CH_RECV_DIGEST,
   Reg.CH_SEQ_TX, Reg.CH_SEQ_RX, Reg.CH_CHUNKS_TX, Reg.CH_CHUNKS_RX, Reg.CH_EPOCH_DROPS, Reg.CH_STALE_DROPS,
   Reg.CH_LATE_DISCARDS]
def regs_kml0 : List Fld :=
  [Reg.KML_STATE, Reg.KML_PEER_MEMBER, Reg.KML_PEER_PORT, Reg.KML_PEER_SERIAL, Reg.KML_PEER_BOOT_COUNT,
   Reg.KML_MAP_MEMBER, Reg.KML_MAP_PORT, Reg.KML_MAP_VALID, Reg.KML_FEC_CORRECTED, Reg.KML_FEC_UNCORRECTABLE,
   Reg.KML_FRAMES_REPLAYED, Reg.KML_FORMAT_DROPS, Reg.KML_ROUTE_DROPS, Reg.KML_UP_COUNT]
def regs_ddr0 : List Fld :=
  [Reg.DDR_STATE, Reg.DDR_CAUSE, Reg.DDR_STORED_USED, Reg.DDR_DIMM_SERIAL, Reg.DDR_CE_COUNT, Reg.DDR_UE_COUNT,
   Reg.DDR_SCRUB_PERIOD, Reg.DDR_SCRUB_PASSES, Reg.DDR_LAST_UE_ADDR, Reg.DDR_PPR_ROWS]
def regs_brk0 : List Fld :=
  [Reg.BRK_PCAP, Reg.BRK_T_THROTTLE_CFG, Reg.BRK_CP2_LIVE, Reg.BRK_TARGET_N, Reg.BRK_CUR_N, Reg.BRK_THROTTLE,
   Reg.BRK_FREQ_APPLY, Reg.BRK_SAFE_FLOOR, Reg.BRK_HEARTH_HOT, Reg.BRK_P_IN, Reg.BRK_TRIP_CAUSE, Reg.BRK_TRIP_INFO,
   Reg.BRK_THROTTLE_MS, Reg.BRK_FUSE_F_MAX_N, Reg.BRK_FUSE_FLOOR_N, Reg.BRK_FUSE_V_CEIL, Reg.BRK_FUSE_P_CONT,
   Reg.BRK_FUSE_P_PEAK, Reg.BRK_FUSE_T_THROTTLE, Reg.BRK_FUSE_T_TRIP]
def regs_cp0 : List Fld :=
  [Reg.CP_STATE, Reg.CP_SLOT, Reg.CP_WDT_PERIOD, Reg.CP_WDT_KICK, Reg.CP_RESTARTS, Reg.CP_LAST_RESTART]
def regs_mbx0 : List Fld :=
  [Reg.MBX_VER_MIN, Reg.MBX_VER_MAX, Reg.MBX_FW_STATE, Reg.MBX_BOUND, Reg.MBX_S1_FB, Reg.MBX_RUNTIME_FLASH,
   Reg.MBX_RUNTIME_FB, Reg.MBX_RUNTIME_ID, Reg.MBX_STAGE1_ID, Reg.MBX_EXPECTED_SEQ, Reg.MBX_REQUESTS, Reg.MBX_NACKS,
   Reg.MBX_EVT_LOST]
def regs_qmgr0 : List Fld :=
  [Reg.QMGR_HOST_LOSS_TIMEOUT, Reg.QMGR_HOST_LAST_SEEN, Reg.QMGR_QUEUES, Reg.QMGR_QUEUES_STALLED,
   Reg.QMGR_UNITS_STARTED, Reg.QMGR_CPL_STALLS, Reg.QMGR_HOLD_ENTRIES]
def regs_hp0 : List Fld :=
  [Reg.HP_ROLE, Reg.HP_RATE, Reg.HP_WIDTH, Reg.HP_FAILOVER_DELAY, Reg.HP_FAILOVERS, Reg.HP_WINDOW_WRITE_DROPS,
   Reg.HP_LINK_DOWNS]
def regs_age0 : List Fld :=
  [Reg.AGE_V_SET, Reg.AGE_CPR0_SLACK, Reg.AGE_CPR1_SLACK, Reg.AGE_TEMP, Reg.AGE_RO0_COUNT, Reg.AGE_RO1_COUNT, Reg.AGE_RG_TEMP]
def regs_tb0 : List Fld :=
  [Reg.TB_TIME, Reg.TB_SYNC_STATE, Reg.TB_PARENT_PORT, Reg.TB_PARENT_VALID, Reg.TB_HOPS, Reg.TB_GM_MEMBER,
   Reg.TB_OFFSET, Reg.TB_RATE_ADJ, Reg.TB_LAST_SYNC, Reg.TB_STEPS, Reg.TB_PARENT_CHANGES, Reg.TB_GM_CHANGES]
def regs_sec0 : List Fld :=
  [Reg.SEC_SERIAL, Reg.SEC_STEPPING, Reg.SEC_LC_STATE, Reg.SEC_KEY_REVOKED, Reg.SEC_MIN_SVN, Reg.SEC_OWNER_TAG,
   Reg.SEC_DEV_KEY_TAG, Reg.SEC_MEMBER, Reg.SEC_MEMBER_STATE, Reg.SEC_MEMBER_ASSIGNED, Reg.SEC_ACCESS_ERRORS]
def regs_sec1 : List Fld :=
  [Reg.SEC_FATAL, Reg.SEC_BREAKER, Reg.SEC_HOLD, Reg.SEC_ALERT_CAUSE, Reg.SEC_ALERT_ASSERTED, Reg.SEC_IRQ_PENDING_CP,
   Reg.SEC_TILE_IRQ_PENDING, Reg.SEC_PANTRY_IRQ_PENDING]
def regs_export0 : List Fld :=
  [Reg.EXPORT_REQ_DOMAIN, Reg.EXPORT_REQ_KIND, Reg.EXPORT_TARGET, Reg.EXPORT_PEER_MEMBER, Reg.EXPORT_BUF_BASE,
   Reg.EXPORT_BUF_LIMIT, Reg.EXPORT_LIST_BASE, Reg.EXPORT_LIST_COUNT, Reg.EXPORT_GO, Reg.EXPORT_ABORT,
   Reg.EXPORT_STATE, Reg.EXPORT_PIN_HELD, Reg.EXPORT_BYTES_DONE, Reg.EXPORT_PIN_LIMIT, Reg.EXPORT_EXPORTS,
   Reg.EXPORT_PIN_EXPIRIES]
def regs_config0 : List Fld :=
  [Reg.CONFIG_CFG_LOCK, Reg.CONFIG_CFG_DEFAULTED, Reg.CONFIG_DEFAULT_CAUSE, Reg.CONFIG_EXPORT_OFF,
   Reg.CONFIG_START_KIND, Reg.CONFIG_START_REASON, Reg.CONFIG_MSS_MISSING, Reg.CONFIG_LC_STATE,
   Reg.CONFIG_TOGGLES_USED, Reg.CONFIG_BOOT_COUNT, Reg.CONFIG_START_MS, Reg.CONFIG_RETAINED_RANGES]
def regs_commit0 : List Fld :=
  [Reg.COMMIT_REQ_DOMAIN, Reg.COMMIT_REQ_KIND, Reg.COMMIT_REQ_SKIPPED, Reg.COMMIT_REQ_ROOTS, Reg.COMMIT_REQ_LEGACY,
   Reg.COMMIT_REQ_STEP, Reg.COMMIT_REQ_EPOCH, Reg.COMMIT_REQ_ACC_COUNT, Reg.COMMIT_REQ_UPB_CRC,
   Reg.COMMIT_REQ_GROWTH, Reg.COMMIT_REQ_NONFINITE, Reg.COMMIT_REQ_PUSH, Reg.COMMIT_QUEUE_DEPTH, Reg.COMMIT_BUSY,
   Reg.COMMIT_PIN_WAITING, Reg.COMMIT_LAST_DOMAIN, Reg.COMMIT_LAST_STEP, Reg.COMMIT_COMMITS, Reg.COMMIT_SKIPS,
   Reg.COMMIT_DUPS, Reg.COMMIT_QUERY_DOMAIN, Reg.COMMIT_Q_SLOT, Reg.COMMIT_Q_VALID, Reg.COMMIT_Q_PINS,
   Reg.COMMIT_Q_STEP, Reg.COMMIT_WHOLE_JOURNAL_BASE]
def regs_ctx0 : List Fld :=
  [Reg.CTX_BASE, Reg.CTX_IN_USE]
def regs_pseq0 : List Fld :=
  [Reg.PSEQ_REQ, Reg.PSEQ_CUR, Reg.PSEQ_FAULT]

/-- The PLACEMENT_TBL page has the fields of the CONTEXT_TBL page (spec 11 Table 11.22). -/
def Reg.PLC_BASE : Fld := { Reg.CTX_BASE with ty := 18 }
def Reg.PLC_IN_USE : Fld := { Reg.CTX_IN_USE with ty := 18 }

/-- The block-specific fields of a page (spec 14 Table 14.3). CRUCIBLE instance 8 is the control block. -/
def pageFields (ty inst pg : Nat) : List Fld :=
  match ty, pg with
  | 1, 0 => regs_tile0 | 1, 1 => regs_tile1 | 1, 2 => regs_tile2 | 1, 3 => regs_tile3
  | 1, 4 => regs_tile4 | 1, 5 => regs_tile5
  | 2, 0 => regs_pantry0 | 2, 1 => regs_pantry1 | 2, 2 => regs_pantry2
  | 3, 0 => if inst = 8 then regs_cruCtl else regs_cruSlice
  | 4, 0 => regs_kml0 | 5, 0 => regs_ddr0 | 6, 0 => regs_brk0 | 7, 0 => regs_cp0 | 8, 0 => regs_mbx0
  | 9, 0 => regs_qmgr0 | 10, 0 => regs_hp0 | 11, 0 => regs_age0 | 12, 0 => regs_tb0
  | 13, 0 => regs_sec0 | 13, 1 => regs_sec1 | 14, 0 => regs_export0 | 15, 0 => regs_config0
  | 16, 0 => regs_commit0 | 17, 0 => regs_ctx0 | 18, 0 => [Reg.PLC_BASE, Reg.PLC_IN_USE] | 19, 0 => regs_pseq0
  | _, _ => []

/-- Every field of a page, the header's first. -/
def allFields (ty inst pg : Nat) : List Fld := hdrFields ty pg ++ pageFields ty inst pg

/-- A place on a page: block type, instance, page and word offset. -/
structure RegPlace where
  ty : Nat
  inst : Nat
  pg : Nat
  off : Nat
  deriving DecidableEq, Repr

/-- The page that a BAR0 offset falls in, from the base, stride, instances and pages of one row of Table 14.2. -/
def placeIn (ty base stride : Nat) (a : Nat) : Option RegPlace :=
  let n := blockInstances ty
  if a < base then none
  else
    let i := (a - base) / stride
    let o := (a - base) % stride
    if i < n ∧ o / 0x1000 < blockPages ty then some ⟨ty, i, o / 0x1000, o % 0x1000⟩ else none

/-- Where a BAR0 offset falls (spec 14 R543); `none` in a page frame that Table 14.2 does not list. -/
def regPlace (a : Nat) : Option RegPlace :=
  if a < 0x400000 then placeIn 1 0 0x8000 a
  else if a < 0x600000 then placeIn 2 0x400000 0x4000 a
  else if a < 0x610000 then placeIn 3 0x600000 0x1000 a
  else if a < 0x620000 then placeIn 4 0x610000 0x1000 a
  else if a < 0x640000 then placeIn 5 0x620000 0x1000 a
  else if a < 0x650000 then placeIn 10 0x640000 0x1000 a
  else if a < 0x660000 then placeIn 11 0x650000 0x1000 a
  else if a < 0x700000 then placeIn 7 0x660000 0x1000 a
  else
    let ty := (a - 0x700000) / 0x2000
    if blockInstances ty = 1 then placeIn ty (0x700000 + 0x2000 * ty) 0x2000 a else none

end Sys2Proof.Machine
end

