-- ==== Sys2Proof/Machine/TileState.lean ====
section
/-! DEFINITION. The state of one tile: register files, program, message doors, twin arrays, gather engine, marver
sequencer, access engine, and the pantry beneath it (spec 02, 03, 05, 06). The tile's register pages stand in the
register file of the device, not here. -/

namespace Sys2Proof.Machine

set_option Elab.async false

/-- PROG_STATUS.STATE (spec 02 Table 2.19). -/
inductive ProgState where
  | idle | running | stalled | frozen | halted | faulted
  deriving DecidableEq, Repr

/-- One active loop level (spec 02 R66): first and last bundle of the body and the passes still to run. -/
structure LoopLevel where
  start : Nat
  last : Nat
  left : Nat
  deriving DecidableEq, Repr

/-- Where a result lands: the bits of `mask` in a vector register or predicate, or a whole scalar register. -/
inductive Dest where
  | v (r : BitVec 6) (mask val : VReg)
  | s (r : BitVec 5) (val : Word64)
  | p (r : BitVec 3) (mask val : Lanes)
  deriving DecidableEq, Repr

/-- A result in flight (spec 02 R69, Table 2.9): it lands when `left` more bundles have issued. `num` are the
NUM_STATUS bits its elements set (spec 04 R585). -/
structure Pend where
  left : Nat
  dst : Dest
  num : BitVec 4
  deriving DecidableEq, Repr

/-- A store issued and not yet visible (spec 02 R93): visible to reads from program cycle `visible` on. -/
structure PendStore where
  addr : Nat
  data : List Byte
  visible : Nat
  deriving DecidableEq, Repr

/-- What an issue stall waits for (spec 02 R93, Table 2.14): `cause` is the code of the table; `ops` is the bundle
that waits to issue, or nothing where the bundle that began the stall has issued (WAIT, DRAIN, MODE); `need` is the
number of cycles of a WAIT or a MODE; `run` counts the cycles of this continuous stall up to now; `also` is the
number of cycles of a WAIT in the bundle of a DRAIN or a MODE. -/
structure Stall where
  cause : Nat
  ops : List SlotOp
  need : Nat
  run : Nat
  also : Nat
  deriving DecidableEq, Repr

/-- A message held by a door with the device time of its arrival (spec 02 R81). -/
structure HeldMsg where
  msg : DoorMsg
  time : Nat
  deriving DecidableEq, Repr

/-- The sequence number of the next message to one destination door (spec 02 R81). -/
structure TxSeq where
  remote : Bool
  member : Nat
  tile : Nat
  door : Nat
  seq : BitVec 16
  deriving DecidableEq, Repr

/-! Twin arrays. -/

/-- A decoded operand (spec 04 R158, R163): a finite value `(-1)^neg * m * 2^e` with the width of the significand
its format decodes to (8, 11 or 24 bits), or a class without significand. -/
inductive Opnd where
  | nan
  | inf (neg : Bool)
  | fin (neg : Bool) (m : Nat) (e : Int) (width : Nat)
  deriving DecidableEq, Repr

/-- A stationary slot (spec 05 Table 5.1): the format recorded by its WLOAD and its rows of decoded operands; rows
not listed are +0. -/
structure StatSlot where
  fmt : Option Nat
  rows : List (List Opnd)
  deriving DecidableEq, Repr

/-- One array (spec 05 Table 5.1): its slots, and its accumulators, of which a complex output uses pairs. -/
structure ArrayState where
  slots : Vector StatSlot 2
  acc : Vector (Vector Word 256) 128
  deriving DecidableEq, Repr

/-- A command in the array queues (spec 05 R193). `sel` bit 0 is array A, bit 1 array B. `slotA`, `slotB`, `cfgA`
and `cfgB` are the stationary slots and drain configurations the command uses, fixed by the command sequence
(spec 05 R198, R199, R209). -/
structure ArrCmd where
  id : Nat
  op : ArrOp
  f : ArrF
  slotA : Nat
  slotB : Nat
  cfgA : BitVec 6
  cfgB : BitVec 6
  deriving DecidableEq, Repr

/-- An entry of the array queues: an array command, or the place a marver descriptor holds (spec 06 R251). -/
inductive ArrEntry where
  | cmd (c : ArrCmd)
  | marver (id : Nat)
  deriving DecidableEq, Repr

/-- Lines to be written to a pantry, in order. -/
structure LineWrite where
  addr : Nat
  data : List Byte
  deriving DecidableEq, Repr

/-- The results of one array on their way through a drain set of `width` streams from `first` on (spec 05 R209): the rows to
be written, each cut into `width` equal parts. -/
structure DrainPart where
  first : Nat
  width : Nat
  rows : List LineWrite
  deriving DecidableEq, Repr

/-- An MM whose intake has begun and whose results have not drained (spec 05 R222): what it will write, and the NUM_STATUS
bits its output elements set. -/
structure DrainJob where
  id : Nat
  sel : BitVec 2
  parts : List DrainPart
  num : BitVec 4
  deriving DecidableEq, Repr

/-- Lines that drain staging of a stream holds (spec 05 Table 5.1, R222): a read of them is served from here; the pantry takes
them by device time `until_`. `old` is what they held before. -/
structure Staged where
  stream : Nat
  addr : Nat
  old : List Byte
  until_ : Nat
  deriving DecidableEq, Repr

/-- The twin arrays of a tile (spec 05). `lastA` and `lastB` are the slots that the latest WLOAD of the command
sequence fills, `fmtA` and `fmtB` the formats its slots record (spec 05 R197 to R199). `zeroGated` counts gated
products one by one (spec 05 R233). `staging` is drain staging, in the order its lines entered. -/
structure Arrays where
  a : ArrayState
  b : ArrayState
  queue : List ArrEntry
  jobs : List DrainJob
  staging : List Staged
  lastA : Option Nat
  lastB : Option Nat
  fmtA : Vector (Option Nat) 2
  fmtB : Vector (Option Nat) 2
  zeroGated : Nat
  deriving DecidableEq, Repr

/-! Gather engine (spec 06 R239 to R249). -/

/-- A GSTAT in the gather queue: its gather entry as read at issue, the MM it attaches to, that MM's sampled
operand rows once its intake has begun, the stored blocks that a TAP loaded at the head of the queue (spec 06 R245), and its
new block lines once they are computed. -/
structure GStat where
  id : Nat
  direct : Bool
  fmtX : Nat
  feed : Nat
  cont : Bool
  sideM1 : Nat
  strideLog2 : Nat
  offset : Nat
  srcWalk : Nat
  rowsM1 : Nat
  dst : Nat
  mm : Option Nat
  rows : Option (List (List Opnd))
  loaded : Option (List (List Word))
  attached : Bool
  lines : List LineWrite
  num : BitVec 4
  deriving DecidableEq, Repr

/-! Marver sequencer (spec 06 R250 to R284). -/

/-- The outcome of one problem of a marver descriptor (spec 06 Tables 6.5, 6.6). -/
structure MvOutcome where
  result : Nat
  stale : Bool
  invalid : Bool
  pivZero : Bool
  pivNeg : Bool
  pivTiny : Bool
  overflow : Bool
  outSlot : Bool
  phase : Nat
  iter : Nat
  column : Nat
  pivots : Nat
  measure : Word
  deriving DecidableEq, Repr

/-- A problem of the running descriptor: its inputs (matrix and right-hand side) as read at the start, its outcome,
the lines of its output, and the ranges it leaves undefined. -/
structure MvProblem where
  src : List (List Word)
  rhs : List (List Word)
  out : MvOutcome
  lines : List LineWrite
  undef : List (Nat × Nat)
  deriving DecidableEq, Repr

/-- A descriptor in the marver's queue: its address, the sixteen words read at its start, its problems, and the lines of the
pantry that anyone has written since its ISSUE (spec 06 R254). -/
structure MvDesc where
  id : Nat
  addr : Nat
  words : List Word64
  problems : List MvProblem
  running : Bool
  touched : List Nat
  deriving DecidableEq, Repr

/-! Access engine (spec 03 R127 to R138). -/

/-- A descriptor bound to a handle (spec 03 Table 3.6): the address and the eight words of the part of the chain
in progress, the program cycle of its DGO, the rows already moved, the descriptors of the chain already finished, and the
place of its DGO among those of the tile. -/
structure AccDesc where
  addr : Nat
  words : List Word64
  dgoCycle : Nat
  rowsDone : Nat
  finished : Nat
  seqNo : Nat
  deriving DecidableEq, Repr

/-- Who leaves bytes of a pantry undefined until it is done (spec 03 R132, 06 R247, R254): the descriptors of a handle of a
tile; the two handles in flight that write the same line; a GSTAT, a marver descriptor; or `lost` for bytes that stay
undefined until they are written (05 R223, 06 R248, R255, R276). -/
inductive HazardBy where
  | desc (tile : TileId) (h : Fin 16)
  | clash (a : TileId × Fin 16) (b : TileId × Fin 16)
  | gstat (id : Nat)
  | marver (id : Nat)
  | lost
  deriving DecidableEq, Repr

/-- `count` bytes from byte `first` on hold an undefined value. -/
structure Hazard where
  first : Nat
  count : Nat
  by_ : HazardBy
  deriving DecidableEq, Repr

/-- The transition of a bank in progress, from the state it had, and the request waiting behind it (spec 03 R139, R140). -/
structure BankTrans where
  bank : Nat
  from_ : Nat
  target : Nat
  pending : Option Nat
  deriving DecidableEq, Repr

/-- The pantry beneath a tile (spec 03): its bytes, the 8-byte words (by address) that hold a single-bit or a
double-bit error, undefined lines, bank transitions, free spare lines per bank, and the next sweep region. -/
structure Pantry where
  mem : List Host.Cell
  single : List Nat
  double : List Nat
  hazards : List Hazard
  trans : List BankTrans
  spares : Vector Nat 40
  sweepNext : Nat
  halted : Option Nat
  deriving DecidableEq, Repr

/-- A DRAM window of the queue whose unit runs on the tile (spec 11 Table 11.12): `limit` is exclusive. -/
structure DramWindow where
  base : Nat
  limit : Nat
  read : Bool
  write : Bool
  deriving DecidableEq, Repr

/-- One tile. `bundle` and `hdr` are the bundle being put together; `istore` holds the loaded bundles, bundle by
bundle; `istoreSingle` and `istoreDouble` are the bundles whose stored word has a single-bit or a double-bit error;
`badV`, `badS`, `badP` are the registers with a parity error; `branch` is a taken branch with the delay bundles
still to issue, `brShadow` counts the delay bundles of any BR; `transFree` is the program cycle from which the
transcendental unit is free; `skipped` are the
sequence numbers that a RECVT of each door gave up (spec 02 R83); `releasing` holds while a stopped marver has not released the arrays, and
`startWaits` while a START waits for that release (spec 06 R255); `timedOut` while a stalled RECVT has expired and its
bundle has not issued yet (spec 02 R83); `anchorAt` is the device time of program cycle `anchorCycle`, from which the tile's
copy of device time counts on (spec 02 R86); `comp0` is the program cycle in which comparator 0 last acted (spec 02 R87); `gathered` says that a GSTAT
completed since the tile took over its domain's sides, and `statFresh` names the gather entries whose next GSTAT runs with
ACC = 0b00 (spec 07 R298). -/
structure Tile where
  v : Vector VReg 64
  sreg : Vector Word64 32
  p : Vector Lanes 8
  badV : List Nat
  badS : List Nat
  badP : List Nat
  istore : List (Nat × BitVec 256)
  istoreSingle : List Nat
  istoreDouble : List Nat
  pc : Nat
  pstate : ProgState
  thawTo : ProgState
  stall : Option Stall
  loops : List LoopLevel
  branch : Option (Nat × Nat)
  brShadow : Nat
  halting : Bool
  bundle : List SlotOp
  hdr : BitVec 3
  inflight : List Pend
  stores : List PendStore
  cycle : Nat
  transFree : Nat
  doors : Vector (List HeldMsg) 16
  skipped : Vector (List (BitVec 16)) 16
  txSeq : List TxSeq
  arrays : Arrays
  gather : List GStat
  gathered : Bool
  statFresh : List Nat
  marver : List MvDesc
  releasing : Bool
  startWaits : Bool
  timedOut : Bool
  anchorAt : Nat
  anchorCycle : Nat
  comp0 : Option Nat
  descs : Vector (Option AccDesc) 16
  windows : List DramWindow
  nextId : Nat
  pantry : Pantry
  deriving DecidableEq, Repr

/-- A stationary slot that records no format (spec 05 R191). -/
def StatSlot.empty : StatSlot := { fmt := none, rows := [] }

/-- An array with no format recorded and every accumulator at +0 (spec 05 R191). -/
def ArrayState.reset : ArrayState :=
  { slots := Vector.replicate 2 StatSlot.empty, acc := Vector.replicate 128 (Vector.replicate 256 0#32) }

/-- The arrays at reset (spec 05 R191). -/
def Arrays.reset : Arrays :=
  { a := ArrayState.reset, b := ArrayState.reset, queue := [], jobs := [], staging := [], lastA := none, lastB := none,
    fmtA := Vector.replicate 2 none, fmtB := Vector.replicate 2 none, zeroGated := 0 }

/-- A pantry at reset: zero-filled, every bank ON (spec 03 R140). -/
def Pantry.reset : Pantry :=
  { mem := [], single := [], double := [], hazards := [], trans := [], spares := Vector.replicate 40 16,
    sweepNext := 0, halted := none }

/-- A tile at reset. DESIGN CHOICE: the spec gives the register files and the instruction store no reset value; they
hold zero (P0 reads all ones, spec 02 R58). -/
def Tile.reset : Tile :=
  { v := Vector.replicate 64 (Vector.replicate 128 0#32), sreg := Vector.replicate 32 0#64,
    p := (Vector.replicate 8 0#128).set 0 (BitVec.allOnes 128), badV := [], badS := [], badP := [], istore := [],
    istoreSingle := [], istoreDouble := [], pc := 0, pstate := .idle, thawTo := .running, stall := none, loops := [],
    branch := none, brShadow := 0, halting := false, bundle := [], hdr := 0#3, inflight := [], stores := [],
    cycle := 0, transFree := 0, doors := Vector.replicate 16 [], skipped := Vector.replicate 16 [], txSeq := [], arrays := Arrays.reset, gather := [], gathered := false, statFresh := [],
    marver := [], releasing := false, startWaits := false, timedOut := false, anchorAt := 0,
    anchorCycle := 0, comp0 := none, descs := Vector.replicate 16 none, windows := [], nextId := 0,
    pantry := Pantry.reset }

end Sys2Proof.Machine
end

