-- ==== Sys2Proof/Machine/State.lean ====
section
/-! DEFINITION. The state of the device, its faults and refusals, and its state after reset. -/

namespace Sys2Proof.Machine

set_option Elab.async false

/-- Stops of a command that has no effect that the spec gives. -/
inductive Fault where
  /-- DRAM_READ or DRAM_WRITE of bytes that no channel in service holds (spec 10 R434): an address that does not exist.
  Safe: the model stops. -/
  | noSuchDram
  deriving DecidableEq, Repr

/-- Commands that the model does not take. -/
inductive Refusal where
  /-- A command with no meaning yet, by its mnemonic. Only the dispatch raises it. Safe. -/
  | notModelled (mnemonic : String)
  /-- Operands that no sender can form, such as more bytes than the unit of transfer holds. Raised by the meanings of the
  commands whose operands carry byte strings or lists. Safe. -/
  | illFormed (what : String)
  deriving DecidableEq, Repr

/-- A message on its way (spec 02 R80): from logical tile `src` of this device to door `door` of logical tile `dst`,
of this device or, where `remote`, of device `member`. -/
structure NetMsg where
  remote : Bool
  member : Nat
  src : Nat
  dst : Nat
  door : Nat
  msg : DoorMsg
  deriving DecidableEq, Repr

/-- Credits on their way back to the sender of a message (spec 02 R77): `n` credits for door `door` of logical tile
`tile` of this device, to logical tile `dst` of this device or, where `remote`, of device `member`. -/
structure NetCredit where
  remote : Bool
  member : Nat
  dst : Nat
  tile : Nat
  door : Nat
  n : Nat
  deriving DecidableEq, Repr

/-- What the last access of a bus master returned: the bytes read, or an error code. -/
structure Reply where
  data : List Byte
  err : Nat
  deriving DecidableEq, Repr

/-- The state of the device. `pending` is the queue of commands that wait; `now` is device time in ns; `free` counts the free
values used; `regs` holds the register fields that differ from their reset values, by bit address (`Fld.key`); `tiles` the
128 physical tiles; `net` and `credits` what is on its way between tiles; `reply` the answer of the last access; `dram`,
`dramCe`, `dramUe` device DRAM and its lines with a correctable or uncorrectable error; `digests` the digest areas of slot areas 0 and 1 of
each domain while DRAM keeps them over a start (spec 09 R386); `commitQ` the commit unit's queue and
`commitWait` its wait for pins; `cruQ` the operations that wait in the crucible's queue, `cru` those that run, the oldest first, `cruDone` results that CP1
has not acted on, and `cruLate` channels timed out; `exportJob` the export in progress; `sent` what left the device; `loaded` the
program image of each tile; `latches` the high-word latch of each requester (0 to 3 CPs, 4 host; register; word). -/
structure State where
  pending : List Instr
  now : Nat
  free : Nat
  regs : List (Nat × Nat)
  tiles : Vector Tile 128
  net : List NetMsg
  credits : List NetCredit
  reply : Reply
  dram : List Host.Cell
  dramCe : List Nat
  dramUe : List Nat
  digests : List (Nat × List Nat × List Nat)
  domains : List Domain
  commitQ : List CommitReq
  commitWait : Bool
  cruQ : List Nat
  cru : List CruOp
  cruDone : List CruDone
  cruLate : List CruLate
  exportJob : Option ExportJob
  queues : List Queue
  mbx : Mailbox
  fw : Firmware
  flash : Vector FlashPart 2
  fuses : Fuses
  sent : List Sent
  loaded : List (Nat × Nat)
  peers : List Peer
  routes : List Route
  hostLinks : Vector HostLink 2
  ports : Vector Port 8
  inbox : List (Nat × List Byte)
  timeSt : TimeState
  dimms : Vector DimmState 24
  torusFabric : Bool
  power : Power
  latches : List (Nat × Nat × Nat)
  deriving DecidableEq, Repr

/-- The mailbox after reset: empty rings. -/
def Mailbox.reset : Mailbox :=
  { reqTail := 0, reqHead := 0, rspHead := 0, rspTail := 0, evtHead := 0, evtTail := 0, waiting := [], responses := [],
    kept := [], events := [], buffered := [], evtCount := 0 }

/-- Firmware's own state after reset: protected SRAM is wiped (spec 11 R443). -/
def Firmware.reset : Firmware :=
  { slots := Vector.replicate 2 { image := [], locked := false }, stage1 := [], inForce := 0, journalSeq := 0,
    journalTarget := 0, journalCount := 0, handover := none, handoverAt := none, escalatedAt := none,
    kicks := Vector.replicate 4 0, restarts := Vector.replicate 4 [], bases := [], baseTrees := [], retainedBases := [],
    integrityLog := [], eventLog := [], startOrder := 0, holdAt := none, loadWaitFrom := none, everBound := false, spare := false,
    startedAt := 0, cp23Ok := true, ran := [], hostPaused := 0 }

/-- An erased flash part. -/
def FlashPart.erased : FlashPart :=
  { stage1 := [], runtime := [], config := [], training := List.replicate 24 0, drift := [], security := [] }

/-- Fuses as shipped: none of the life cycle is burnt. DESIGN CHOICE: serial number and MIN_SVN 0 (log entry 31). -/
def Fuses.shipped : Fuses :=
  { serial := 0, stepping := 2, revoked := 0, minSvn := 0, owned := false, decom := false, toggles := 0 }

/-- A Kamduelm port after reset. -/
def Port.reset : Port :=
  { since := 0, backoff := 0, txSeq := 0, rxSeq := 0, replay := [], waiting := [], credits := List.replicate 9 0,
    lastReplay := none, replays := 0, ackAt := 0, nakSent := false, badAt := [], identSent := [], identGot := [],
    redBytes := 0, bulkBytes := 0 }

/-- Supply and pins with the module powered at 44 V and held in reset by PERST_N. DESIGN CHOICE (log entry 40). -/
def Power.reset : Power :=
  { vinMv := 44000, senseLow := true, vinOkAt := some 0, switchClosed := true, vaux := true, vbus := true, pwrGood := true,
    perstLow := true, perstAt := 0, dramHeld := false, tripped := false, startDue := none, wakeLow := none,
    wakeFree := none, cages := Vector.replicate 8 true, lowAt := none, uvAt := none, ovAt := none, okAt := none,
    inputLow := false, kP := 0, kPAt := 0, kPTop := none, kT := Vector.replicate 4 0, kTUp := Vector.replicate 4 0,
    kTDown := Vector.replicate 4 0, kS := Vector.replicate 4 0, kA := Vector.replicate 4 0, hotAt := [], tMax := 0,
    liveAt := 0, plan := Vector.replicate 4 56, change := Vector.replicate 4 none, trans := [], gatedAt := [], gateBanks := [],
    idleAt := [], failedClusters := [], driftAt := 0, haFrom := none, hdm := none, fresh := true,
    stepDue := Vector.replicate 4 false, ticks := 0 }

def DimmState.reset : DimmState := 
  { corrections := [], patrolAt := 0, hot := false, pmic := false, served := false, serial := 0, repair := false, ppr := 0 }

def State.reset : State :=
  { pending := [], now := 0, free := 0, regs := [], tiles := Vector.replicate 128 Tile.reset, net := [], credits := [],
    reply := { data := [], err := 0 }, dram := [], dramCe := [], dramUe := [], digests := [],
    domains := [], commitQ := [], commitWait := false, cruQ := [], cru := [], cruDone := [],
    cruLate := [], exportJob := none,
    queues := [], mbx := Mailbox.reset, fw := Firmware.reset, flash := Vector.replicate 2 FlashPart.erased,
    fuses := Fuses.shipped, sent := [], loaded := [], peers := [], routes := [],
    hostLinks := Vector.replicate 2 { trained := false, downSince := none }, ports := Vector.replicate 8 Port.reset,
    inbox := [], timeSt := { synced := false, parentLostAt := none, stamps := [] },
    dimms := Vector.replicate 24 DimmState.reset, torusFabric := false, power := Power.reset, latches := [] }

/-- The outcome of a command. -/
abbrev Res := Host.Outcome State Fault Refusal

end Sys2Proof.Machine
end

