-- ==== Sys2Proof/Machine/Ops.lean ====
section
/-! DEFINITION. The named operations over the state: bytes and memories in canonical form, the register file, error
recording and interrupts, tiles by physical and logical name. -/

namespace Sys2Proof.Machine

set_option Elab.async false

/-! Bytes, little endian (spec 00 R13). -/

/-- The number that a list of bytes spells, least significant byte first. -/
def leNat : List Byte → Nat
  | [] => 0
  | b :: bs => b.toNat + 256 * leNat bs

/-- The `n` bytes of a number, least significant byte first. -/
def toLe : Nat → Nat → List Byte
  | 0, _ => []
  | n + 1, v => BitVec.ofNat 8 v :: toLe n (v / 256)

/-- Bits [hi:lo] of a number. -/
def bits (v hi lo : Nat) : Nat := (v / 2 ^ lo) % 2 ^ (hi + 1 - lo)

/-- Bit `i` of a number. -/
def bit (v i : Nat) : Bool := (v / 2 ^ i) % 2 == 1

def b2n (b : Bool) : Nat := if b then 1 else 0

/-! Memories: lists of (address, byte) with addresses strictly rising and no byte equal to 0, which is what an
unlisted address reads as. -/

/-- A memory in its one canonical form. -/
abbrev Memory := List Host.Cell

/-- The canonical form, from addresses at or above `lo`. -/
def Memory.wfFrom : Nat → Memory → Bool
  | _, [] => true
  | lo, (a, b) :: m => decide (lo ≤ a) && b != 0#8 && Memory.wfFrom (a + 1) m

def Memory.wf (m : Memory) : Bool := Memory.wfFrom 0 m

/-- The byte at an address. -/
def Memory.read : Memory → Nat → Byte
  | [], _ => 0#8
  | (x, b) :: m, a => if x = a then b else Memory.read m a

/-- List a byte that is not 0. -/
def Memory.insert : Memory → Nat → Byte → Memory
  | [], a, b => [(a, b)]
  | (x, y) :: m, a, b =>
    if x < a then (x, y) :: Memory.insert m a b
    else if x = a then (a, b) :: m
    else (a, b) :: (x, y) :: m

/-- Store one byte. -/
def Memory.write (m : Memory) (a : Nat) (b : Byte) : Memory :=
  if b = 0#8 then m.filter (fun c => c.1 != a) else Memory.insert m a b

/-- The bytes from an address on. -/
def Memory.readN (m : Memory) (a : Nat) : Nat → List Byte
  | 0 => []
  | n + 1 => m.read a :: Memory.readN m (a + 1) n

/-- Store bytes from an address on. -/
def Memory.writeL (m : Memory) (a : Nat) : List Byte → Memory
  | [] => m
  | b :: bs => Memory.writeL (m.write a b) (a + 1) bs

/-- Lose the bytes of `[lo, hi)`: they read 0. -/
def Memory.clear (m : Memory) (lo hi : Nat) : Memory :=
  m.filter (fun c => !(decide (lo ≤ c.1) && decide (c.1 < hi)))

/-! Sorted association lists of numbers, for the register file. -/

/-- The value at a key, where one is listed. -/
def regFind : List (Nat × Nat) → Nat → Option Nat
  | [], _ => none
  | (x, v) :: m, k => if x = k then some v else regFind m k

/-- List a value at a key. -/
def regInsert : List (Nat × Nat) → Nat → Nat → List (Nat × Nat)
  | [], k, v => [(k, v)]
  | (x, y) :: m, k, v =>
    if x < k then (x, y) :: regInsert m k v
    else if x = k then (k, v) :: m
    else (k, v) :: (x, y) :: m

/-- List or, with `none`, unlist the value at a key. -/
def regPut (m : List (Nat × Nat)) (k : Nat) : Option Nat → List (Nat × Nat)
  | none => m.filter (fun c => c.1 != k)
  | some v => regInsert m k v

/-! The register file. -/

/-- The reset value of a field, where it depends on the instance or entry: region descriptor 0 of master CP
(spec 03 R119), the watchdog periods (spec 11 Table 11.1), the island voltages of new silicon (spec 12 Tables 12.5,
12.10), H_AON, which is always ON (spec 12 Table 12.2). -/
def Fld.resetAt (f : Fld) (inst i : Nat) : Nat :=
  if f.ty = 2 ∧ f.pg = 1 ∧ i = 48 ∧ f.off ≥ 0x100 then
    (if f = Reg.PANTRY_RD_LAST then 5119 else if f = Reg.PANTRY_RD_BASE then 0 else 1)
  else if f = Reg.CP_WDT_PERIOD then (if inst = 0 then 500 else 100)
  else if f = Reg.AGE_V_SET then min 850 (Config.vBase (8 * inst + i) % 1024)
  else if (f = Reg.PSEQ_CUR ∨ f = Reg.PSEQ_REQ) ∧ i = 44 then 2
  else f.reset

/-- A stored field of the register file; its reset value where nothing else is listed. -/
def State.getF (s : State) (f : Fld) (inst i : Nat) : Nat :=
  (regFind s.regs (f.key inst i)).getD (f.resetAt inst i)

/-- Store a field, cut to its width. -/
def State.setF (s : State) (f : Fld) (inst i v : Nat) : State :=
  let x := v % 2 ^ f.width
  { s with regs := regPut s.regs (f.key inst i) (if x = f.resetAt inst i then none else some x) }

/-- Add to a saturating counter. -/
def State.countF (s : State) (f : Fld) (inst i n : Nat) : State :=
  s.setF f inst i (min (s.getF f inst i + n) (2 ^ f.width - 1))

/-- Add to a counter that wraps. -/
def State.wrapF (s : State) (f : Fld) (inst i n : Nat) : State := s.setF f inst i (s.getF f inst i + n)

/-- One stored bit as a Bool. -/
def State.flag (s : State) (f : Fld) (inst i : Nat) : Bool := s.getF f inst i != 0

/-- Set every entry of a field array to one value. -/
def State.setAll (s : State) (f : Fld) (inst v : Nat) : Nat → State
  | 0 => s
  | n + 1 => (s.setAll f inst v n).setF f inst n v

/-- Return every entry of a field to its reset value. -/
def State.resetFld (s : State) (f : Fld) (inst : Nat) : Nat → State
  | 0 => s
  | n + 1 => (s.resetFld f inst n).setF f inst n (f.resetAt inst n)

/-- Return a list of fields of an instance to their reset values. -/
def State.resetFlds (s : State) (fs : List Fld) (inst : Nat) : State :=
  fs.foldl (fun s f => s.resetFld f inst f.cnt) s

/-! Interrupts and errors (spec 14 R547 to R549). -/

/-- Set bit `b` of a page's INT_STATUS. -/
def State.raise (s : State) (ty pg inst b : Nat) : State :=
  s.setF (Hdr.INT_STATUS ty pg) inst 0 (s.getF (Hdr.INT_STATUS ty pg) inst 0 ||| 2 ^ b)

/-- Record an error on a page: the first error stays until ERROR is cleared (spec 14 R548). -/
def State.recordErr (s : State) (ty pg inst code i0 i1 : Nat) : State :=
  if bit (s.getF (Hdr.INT_STATUS ty pg) inst 0) 0 then s
  else
    ((((s.setF (Hdr.ERR_CODE ty pg) inst 0 code).setF (Hdr.ERR_INFO0 ty pg) inst 0 i0).setF
      (Hdr.ERR_INFO1 ty pg) inst 0 i1).raise ty pg inst 0)

/-! Time. -/

/-- Device time is at least `t` (spec 10 R430: it never goes back). -/
def State.atTime (s : State) (t : Nat) : State := { s with now := max s.now t }

/-! Tiles. -/

def State.tile (s : State) (i : TileId) : Tile := s.tiles[i]
def State.setTile (s : State) (i : TileId) (t : Tile) : State := { s with tiles := s.tiles.set i t }
def State.modTile (s : State) (i : TileId) (f : Tile → Tile) : State := s.setTile i (f (s.tile i))

/-- Does the tile serve a logical coordinate (TILE_MAP.STATE ACTIVE)? -/
def State.tileActive (s : State) (i : Nat) : Bool := s.getF Reg.TILE_MAP_STATE i 0 == 0

/-- The linear index L = 4X + Y of a tile that serves one (spec 02, after R52). -/
def State.logical (s : State) (i : Nat) : Nat := 4 * s.getF Reg.TILE_LOGICAL_X i 0 + i % 4

/-- The physical tile that serves logical tile `l` at this start (spec 00 R8 to R11), if any. -/
def State.physical (s : State) (l : Nat) : Option TileId :=
  (List.finRange 128).find? (fun i => s.tileActive i && s.getF (Hdr.ENABLE 1) i 0 == 1 && s.logical i == l)

/-- The physical tile that serves logical tile `l` in the grid map, whatever its power and its ENABLE: a logical tile without
one is ABSENT (spec 02 R49, R85). -/
def State.mapped (s : State) (l : Nat) : Option TileId :=
  (List.finRange 128).find? (fun i => s.tileActive i && s.logical i == l)

/-- Is a program of the tile running, stalled or frozen (spec 02 R105)? -/
def Tile.active (t : Tile) : Bool := t.pstate == .running || t.pstate == .stalled || t.pstate == .frozen

/-! The tiles' copies of device time (spec 02 R86). An island's clock runs at N × 25 MHz, so that a program cycle takes
40 ÷ N ns (spec 12 R498). DESIGN CHOICE: no throttling shortens or delays a cycle (log entry 5). -/

/-- Device time of program cycle `c` of a tile whose island runs at `n` × 25 MHz. -/
def Tile.timeAt (t : Tile) (n c : Nat) : Nat := t.anchorAt + (c - t.anchorCycle) * 40 / n

/-- N of the island clock above a tile (spec 12 R498). -/
def State.clockN (s : State) (i : TileId) : Nat := max 1 (s.getF Reg.BRK_CUR_N 0 (i.val / 32))

/-- Device time of program cycle `c` of a tile. -/
def State.tileTime (s : State) (i : TileId) (c : Nat) : Nat := (s.tile i).timeAt (s.clockN i) c

/-- The program cycle that an active tile has reached at the present device time. -/
def State.tileCycle (s : State) (i : TileId) : Nat :=
  (s.tile i).anchorCycle + (s.now - (s.tile i).anchorAt) * s.clockN i / 40

/-- An active tile reaches program cycle `c`: device time is at least that of the cycle. -/
def State.clockTo (s : State) (i : TileId) (c : Nat) : State := if (s.tile i).active then s.atTime (s.tileTime i c) else s

/-- The tile's program cycle `t.cycle` is now. -/
def Tile.anchor (t : Tile) (now : Nat) : Tile := { t with anchorAt := now, anchorCycle := t.cycle }

/-- The state a free value of which has been used. -/
def State.useFree (s : State) : State := { s with free := s.free + 1 }

end Sys2Proof.Machine
end

