-- ==== Sys2Proof/Machine/Checks.lean ====
section
/-! DEFINITION. Check codes and digests: CRC-32C, CRC-64 (spec 08 R361), SHA-384. The spec names CRC-32C and SHA-384
without their parameters: PRESUMED, the standard ones (log entry 30). -/

namespace Sys2Proof.Machine

set_option Elab.async false

/-- One byte through a reflected 32-bit CRC. -/
def crc32Byte (c : BitVec 32) (b : Byte) : BitVec 32 :=
  (List.range 8).foldl (fun x _ => if x[0] then (x >>> 1) ^^^ 0x82F63B78#32 else x >>> 1) (c ^^^ b.setWidth 32)

/-- The CRC continued over bytes. The match names each value before the next byte is taken, so that an evaluation stays
shallow (`crc32More_eq`). -/
def crc32More (c : BitVec 32) : List Byte → BitVec 32
  | [] => c
  | b :: bs => match (crc32Byte c b).toNat with
    | 0 => crc32More 0#32 bs
    | n + 1 => crc32More (BitVec.ofNat 32 (n + 1)) bs

theorem crc32More_eq (d : List Byte) : ∀ c, crc32More c d = d.foldl crc32Byte c := by
  induction d with
  | nil => intro c; rfl
  | cons b bs ih =>
    intro c
    simp only [crc32More, List.foldl_cons]
    split
    · next h => rw [ih, BitVec.eq_of_toNat_eq (y := 0#32) (x := crc32Byte c b) (by simpa using h)]
    · next n h => rw [ih, show n + 1 = n.succ from rfl, ← h, BitVec.ofNat_toNat, BitVec.setWidth_eq]

/-- CRC-32C: reflected, initial value and final XOR of all ones. -/
def crc32c (d : List Byte) : Nat := (~~~(crc32More 0xFFFFFFFF#32 d)).toNat

/-- One byte through the CRC-64 of spec 08 R361: most significant bit first, no reflection. -/
def crc64Byte (c : BitVec 64) (b : Byte) : BitVec 64 :=
  (List.range 8).foldl (fun x _ => if x[63] then (x <<< 1) ^^^ 0x42F0E1EBA9EA3693#64 else x <<< 1)
    (c ^^^ (b.setWidth 64 <<< 56))

/-- The CRC-64 continued over bytes, as `crc32More`. -/
def crc64More (c : BitVec 64) : List Byte → BitVec 64
  | [] => c
  | b :: bs => match (crc64Byte c b).toNat with
    | 0 => crc64More 0#64 bs
    | n + 1 => crc64More (BitVec.ofNat 64 (n + 1)) bs

theorem crc64More_eq (d : List Byte) : ∀ c, crc64More c d = d.foldl crc64Byte c := by
  induction d with
  | nil => intro c; rfl
  | cons b bs ih =>
    intro c
    simp only [crc64More, List.foldl_cons]
    split
    · next h => rw [ih, BitVec.eq_of_toNat_eq (y := 0#64) (x := crc64Byte c b) (by simpa using h)]
    · next n h => rw [ih, show n + 1 = n.succ from rfl, ← h, BitVec.ofNat_toNat, BitVec.setWidth_eq]

/-- The CRC-64 with the parameters of spec 08 R361. -/
def crc64 (d : List Byte) : Nat := (crc64More 0#64 d).toNat

/-! SHA-384. -/

def sha512K : List (BitVec 64) :=
  [0x428a2f98d728ae22#64, 0x7137449123ef65cd#64, 0xb5c0fbcfec4d3b2f#64, 0xe9b5dba58189dbbc#64, 0x3956c25bf348b538#64,
   0x59f111f1b605d019#64, 0x923f82a4af194f9b#64, 0xab1c5ed5da6d8118#64, 0xd807aa98a3030242#64, 0x12835b0145706fbe#64,
   0x243185be4ee4b28c#64, 0x550c7dc3d5ffb4e2#64, 0x72be5d74f27b896f#64, 0x80deb1fe3b1696b1#64, 0x9bdc06a725c71235#64,
   0xc19bf174cf692694#64, 0xe49b69c19ef14ad2#64, 0xefbe4786384f25e3#64, 0x0fc19dc68b8cd5b5#64, 0x240ca1cc77ac9c65#64,
   0x2de92c6f592b0275#64, 0x4a7484aa6ea6e483#64, 0x5cb0a9dcbd41fbd4#64, 0x76f988da831153b5#64, 0x983e5152ee66dfab#64,
   0xa831c66d2db43210#64, 0xb00327c898fb213f#64, 0xbf597fc7beef0ee4#64, 0xc6e00bf33da88fc2#64, 0xd5a79147930aa725#64,
   0x06ca6351e003826f#64, 0x142929670a0e6e70#64, 0x27b70a8546d22ffc#64, 0x2e1b21385c26c926#64, 0x4d2c6dfc5ac42aed#64,
   0x53380d139d95b3df#64, 0x650a73548baf63de#64, 0x766a0abb3c77b2a8#64, 0x81c2c92e47edaee6#64, 0x92722c851482353b#64] ++
  [0xa2bfe8a14cf10364#64, 0xa81a664bbc423001#64, 0xc24b8b70d0f89791#64, 0xc76c51a30654be30#64, 0xd192e819d6ef5218#64,
   0xd69906245565a910#64, 0xf40e35855771202a#64, 0x106aa07032bbd1b8#64, 0x19a4c116b8d2d0c8#64, 0x1e376c085141ab53#64,
   0x2748774cdf8eeb99#64, 0x34b0bcb5e19b48a8#64, 0x391c0cb3c5c95a63#64, 0x4ed8aa4ae3418acb#64, 0x5b9cca4f7763e373#64,
   0x682e6ff3d6b2b8a3#64, 0x748f82ee5defb2fc#64, 0x78a5636f43172f60#64, 0x84c87814a1f0ab72#64, 0x8cc702081a6439ec#64,
   0x90befffa23631e28#64, 0xa4506cebde82bde9#64, 0xbef9a3f7b2c67915#64, 0xc67178f2e372532b#64, 0xca273eceea26619c#64,
   0xd186b8c721c0c207#64, 0xeada7dd6cde0eb1e#64, 0xf57d4f7fee6ed178#64, 0x06f067aa72176fba#64, 0x0a637dc5a2c898a6#64,
   0x113f9804bef90dae#64, 0x1b710b35131c471b#64, 0x28db77f523047d84#64, 0x32caab7b40c72493#64, 0x3c9ebe0a15c9bebc#64,
   0x431d67c49c100d4c#64, 0x4cc5d4becb3e42b6#64, 0x597f299cfc657e2a#64, 0x5fcb6fab3ad6faec#64, 0x6c44198c4a475817#64]

/-- A 64-bit word from 8 bytes, most significant first. -/
def beWord (d : List Byte) : BitVec 64 := d.foldl (fun w b => (w <<< 8) ||| b.setWidth 64) 0#64

/-- The message schedule: 80 words from a 128-byte block. -/
def sha512Schedule (d : List Byte) : List (BitVec 64) :=
  let w0 := (List.range 16).map (fun k => beWord ((d.drop (8 * k)).take 8))
  ((List.range 64).foldl (fun (w : Array (BitVec 64)) k =>
    let t := k + 16
    let a := w.getD (t - 15) 0#64
    let b := w.getD (t - 2) 0#64
    let s0 := a.rotateRight 1 ^^^ a.rotateRight 8 ^^^ (a >>> 7)
    let s1 := b.rotateRight 19 ^^^ b.rotateRight 61 ^^^ (b >>> 6)
    w.push (w.getD (t - 16) 0#64 + s0 + w.getD (t - 7) 0#64 + s1)) w0.toArray).toList

/-- One round on the eight working words. -/
def sha512Round (h : List (BitVec 64)) (kw : BitVec 64 × BitVec 64) : List (BitVec 64) :=
  match h with
  | [a, b, c, d, e, f, g, x] =>
    let s1 := e.rotateRight 14 ^^^ e.rotateRight 18 ^^^ e.rotateRight 41
    let t1 := x + s1 + ((e &&& f) ^^^ (~~~e &&& g)) + kw.1 + kw.2
    let s0 := a.rotateRight 28 ^^^ a.rotateRight 34 ^^^ a.rotateRight 39
    [t1 + s0 + ((a &&& b) ^^^ (a &&& c) ^^^ (b &&& c)), a, b, c, d + t1, e, f, g]
  | _ => h

/-- Blocks of 128 bytes, `n` of them. -/
def sha512Blocks : Nat → List Byte → List (BitVec 64) → List (BitVec 64)
  | 0, _, h => h
  | n + 1, d, h =>
    sha512Blocks n (d.drop 128)
      (List.zipWith (· + ·) h ((sha512K.zip (sha512Schedule (d.take 128))).foldl sha512Round h))

/-- SHA-384 of a message: 48 bytes. -/
def sha384 (d : List Byte) : List Byte :=
  let n := d.length
  let pad := (256 - (n + 17) % 128) % 128
  let m := d ++ [0x80#8] ++ List.replicate pad 0#8 ++ (toLe 16 (8 * n)).reverse
  let h := sha512Blocks (m.length / 128) m
    [0xcbbb9d5dc1059ed8#64, 0x629a292a367cd507#64, 0x9159015a3070dd17#64, 0x152fecd8f70e5939#64,
     0x67332667ffc00b31#64, 0x8eb44a8768581511#64, 0xdb0c2e0d64f98fa7#64, 0x47b5481dbefa4fa4#64]
  (h.flatMap (fun w => (toLe 8 w.toNat).reverse)).take 48

/-- Words of eight bytes, least significant byte first (spec 00 R13). -/
def word64 (d : List Byte) (k : Nat) : Nat := leNat ((d.drop (8 * k)).take 8)

/-- A field of bytes `[a, a + n)` of a record. -/
def field (d : List Byte) (a n : Nat) : Nat := leNat ((d.drop a).take n)

end Sys2Proof.Machine
end

