-- ==== Sys2Proof/Machine/DramOps.lean ====
section
/-! DEFINITION. Device DRAM: channels in service, the address mapping, reads and writes by line with their check code
(spec 10 R432 to R440, Table 10.12). -/

namespace Sys2Proof.Machine

set_option Elab.async false

/-- Is a channel in service (IN_SERVICE or RETIRE_PENDING, spec 10 R440)? -/
def chanInService (s : State) (c : Nat) : Bool := decide (s.getF Reg.DDR_STATE c 0 ≥ 2)

/-- The channels in service, by rank (spec 10 R434). -/
def chansInService (s : State) : List Nat := (List.range 24).filter (chanInService s)

/-- Device DRAM size in bytes (spec 10 R434). -/
def dramSize (s : State) : Nat := (chansInService s).length * 72000000000

/-- The channel that holds a device address (spec 10 R434). -/
def chanOf (s : State) (a : Nat) : Nat :=
  let cs := chansInService s
  cs.getD ((a / 4096) % cs.length) 0

/-- Set a channel's STATE and CAUSE; a change of STATE sets EVENT (spec 14 Table 14.5). -/
def setChan (s : State) (c state cause : Nat) : State :=
  let changed := s.getF Reg.DDR_STATE c 0 != state
  let s := (s.setF Reg.DDR_STATE c 0 state).setF Reg.DDR_CAUSE c 0 cause
  if changed then s.raise 5 0 c 1 else s

/-- A channel that meets an error leaves service at the next start (spec 10 R440). -/
def retirePending (s : State) (c cause : Nat) : State :=
  if s.getF Reg.DDR_STATE c 0 = 2 then setChan s c 3 cause else s

/-- An uncorrectable read at address `a` (spec 10 R439, R440, R441). -/
def dramUncorrectable (s : State) (a : Nat) : State :=
  let c := chanOf s a
  retirePending ((s.countF Reg.DDR_UE_COUNT c 0 1).recordErr 5 0 c 0x0503 c (a % 2 ^ 32)) c 4

/-- Lines of `[a, a + n)`, as line addresses. -/
def dramLines (a n : Nat) : List Nat :=
  if n = 0 then [] else (List.range ((a + n - 1) / 64 + 1 - a / 64)).map (fun k => 64 * (a / 64 + k))

/-- Read bytes of DRAM. An uncorrectable line gives an error response (spec 10 R439); a line with a correctable error
is corrected, written back and counted (spec 10 R433). Bytes beyond the device's DRAM read free values. -/
def dramRead (s : State) (a n : Nat) : State × Option Nat × List Byte :=
  let ls := dramLines a n
  match ls.find? (s.dramUe.contains ·) with
  | some l => (dramUncorrectable s l, some 0x0503, [])
  | none =>
    let ce := ls.filter (s.dramCe.contains ·)
    let s := ce.foldl (fun s l => s.countF Reg.DDR_CE_COUNT (chanOf s l) 0 1)
      { s with dramCe := s.dramCe.filter (fun l => !ls.contains l) }
    if a + n ≤ dramSize s then (s, none, Memory.readN s.dram a n)
    else (s.useFree, none, (List.range n).map (fun k =>
      if a + k < dramSize s then Memory.read s.dram (a + k) else Config.freeByte s.free (a + k)))

/-- Write bytes of DRAM. A whole line gets new check bits; part of a line is a read-modify-write, which leaves an
uncorrectable line unchanged and returns an error (spec 10 R439). Bytes beyond the device's DRAM are dropped. -/
def dramWrite (s : State) (a : Nat) (d : List Byte) : State × Option Nat :=
  let n := d.length
  let ls := dramLines a n
  let whole := ls.filter (fun l => decide (a ≤ l) && decide (l + 64 ≤ a + n))
  match (ls.filter (fun l => !whole.contains l)).find? (s.dramUe.contains ·) with
  | some l =>
    let c := chanOf s l
    (s.recordErr 5 0 c 0x0506 c (l % 2 ^ 32), some 0x0506)
  | none =>
    ({ s with
        dram := Memory.writeL s.dram a (d.take (dramSize s - a))
        dramUe := s.dramUe.filter (fun l => !whole.contains l)
        dramCe := s.dramCe.filter (fun l => !ls.contains l) }, none)

end Sys2Proof.Machine
end

