-- ==== Sys2Proof/Machine/HearthOps.lean ====
section
/-! DEFINITION. The named operations over the hearth's state: domains, their entries, slot areas and placement
entries (spec 07 R285 to R297, spec 11 Tables 11.16, 11.17), digest trees (spec 09 R384, R385), what the device sends,
mailbox events and the integrity log. -/

namespace Sys2Proof.Machine

set_option Elab.async false

/-! Domains. -/

/-- ID of the whole-model domain (spec 07 R285). -/
abbrev wholeDomain : Nat := 0x40000

def State.domain? (s : State) (id : Nat) : Option Domain := s.domains.find? (fun d => d.id == id)

/-- The domain list with `d` put in its place by ID. -/
def putDomain : List Domain → Domain → List Domain
  | [], d => [d]
  | e :: ds, d => if e.id < d.id then e :: putDomain ds d else if e.id = d.id then d :: ds else d :: e :: ds

def State.setDomain (s : State) (d : Domain) : State := { s with domains := putDomain s.domains d }

def State.modDomain (s : State) (id : Nat) (f : Domain → Domain) : State :=
  match s.domain? id with
  | some d => s.setDomain (f d)
  | none => s

/-- A domain as CONTEXT_CREATE or DOMAIN_SET leaves it: no journal entry scanned, W = 200 (spec 08 R369). -/
def Domain.fresh (id : Nat) (entry : List Byte) : Domain :=
  { id := id, entry := entry, retained := false, committed := false, lastStep := none, record := [], leaves0 := [],
    leaves1 := [], pins := [],
    pinWait := [], steer := false, legacy := false, mbTokens := 0, accMin := 0, accMax := 0, window := 200,
    accCount := field entry 58 2, nextAcc := none, upb := [], upbs := [], run := none, gathered := false,
    freshSides := [], rootsDue := [], roots := [], noise := [], cullets := [], zeroCul := false, group := none, stages := [], agreed := none, copying := false,
    parked := false, stopped := false }

def State.queue? (s : State) (id : Nat) : Option Queue := s.queues.find? (fun q => q.id == id)

/-! The queue descriptor (spec 11 Table 11.12). -/

def Queue.prio (q : Queue) : Nat := bits (field q.desc 2 1) 2 0
def Queue.isRun (q : Queue) : Bool := bit (field q.desc 2 1) 3
def Queue.rotate (q : Queue) : Bool := bit (field q.desc 2 1) 4
def Queue.legacy (q : Queue) : Bool := bit (field q.desc 2 1) 5
def Queue.vector (q : Queue) : Nat := bits (field q.desc 3 1) 5 0
def Queue.mask (q : Queue) : Nat := field q.desc 8 16
def Queue.prog (q : Queue) : Nat := field q.desc 24 8

/-- Logical tiles of the mask. -/
def Queue.tiles (q : Queue) : List Nat := (List.range 112).filter (bit q.mask)

/-! The context entry (spec 11 Table 11.16). -/

def Domain.state (d : Domain) : Nat := bits (field d.entry 0 4) 19 18
def Domain.bound (d : Domain) : Bool := d.state == 1
def Domain.queue (d : Domain) : Nat := bits (field d.entry 4 2) 14 0
def Domain.baseRegion (d : Domain) : Nat := field d.entry 6 2
def Domain.slotBase (d : Domain) (slot : Bool) : Nat := if slot then field d.entry 16 8 else field d.entry 8 8
def Domain.slotUnits (d : Domain) : Nat := field d.entry 24 4
def Domain.lendUnits (d : Domain) : Nat := field d.entry 28 4
def Domain.placeFirst (d : Domain) : Nat := bits (field d.entry 40 4) 18 0
def Domain.placeCount (d : Domain) : Nat := field d.entry 44 4
def Domain.seed (d : Domain) : Nat := field d.entry 48 8
def Domain.rootInterval (d : Domain) : Nat := field d.entry 56 2

/-! Statistics gathered since the last reduction (spec 07 R298). A side is a gather entry of a logical tile: where a step runs, the
tiles hold what is known of them, and between steps the domain does. -/

/-- Logical tiles of the domain's queue. -/
def Domain.tiles (s : State) (d : Domain) : List Nat := ((s.queue? d.queue).map (·.tiles)).getD []

/-- Were statistics gathered since the last reduction? -/
def State.gathered (s : State) (d : Domain) : Bool :=
  d.gathered || (d.run.isSome && ((d.tiles s).filterMap (s.physical ·)).any (fun i => (s.tile i).gathered))

/-- The tiles of a unit take over what is known of the sides that they gather; a unit of a RUN gathers for no domain. -/
def giveSides (s : State) (tiles : List Nat) (fresh : List (Nat × Nat)) : State :=
  tiles.foldl (fun s l => match s.physical l with
    | some i => s.modTile i (fun t => { t with gathered := false, statFresh := (fresh.filter (·.1 == l)).map (·.2) })
    | none => s) s

/-- The domain takes back what its tiles know, when its step ends. -/
def takeSides (s : State) (id : Nat) : State :=
  s.modDomain id (fun d =>
    if d.run.isNone then d
    else { d with
      gathered := s.gathered d
      freshSides := (d.tiles s).flatMap (fun l => match s.physical l with
        | some i => (s.tile i).statFresh.map (fun g => (l, g))
        | none => []) })

/-- The statistics gathered so far are reduced or discarded: the next GSTAT of each side runs with ACC = 0b00 (spec 07 R298,
08 R359, 09 R383). -/
def dropGathered (s : State) (id : Nat) : State :=
  match s.domain? id with
  | none => s
  | some d =>
    let fresh := (d.tiles s).flatMap (fun l => (List.range 16).map (fun g => (l, g)))
    let s := if d.run.isSome then giveSides s (d.tiles s) fresh else s
    s.modDomain id (fun d => { d with gathered := false, freshSides := fresh })

/-- Bytes `[a, a + n)` of a record replaced by the number `v`. -/
def putField (r : List Byte) (a n v : Nat) : List Byte := r.take a ++ toLe n v ++ r.drop (a + n)

/-- The entry with bits of its first word replaced and its check code formed again. -/
def withIdState (e : List Byte) (w : Nat) : List Byte :=
  let e := putField e 0 4 w
  putField e 60 4 (crc32c (e.take 60))

/-- The domain's journal base, where it has one (spec 07 R317, R321). -/
def journalBase (s : State) (d : Domain) : Option Nat :=
  if d.id = wholeDomain then
    let b := s.getF Reg.COMMIT_WHOLE_JOURNAL_BASE 0 0
    if b = 0 ∨ b % 1024 ≠ 0 then none else some b
  else some (field d.entry 32 8)

/-! Placement entries (spec 11 Table 11.17). -/

structure Place where
  vec : Bool
  curv : Bool
  br : Nat
  bc : Nat
  tid : Nat
  rows : Nat
  cols : Nat
  offs : List Nat
  mapFirst : Nat
  cellBase : Nat
  deriving DecidableEq, Repr

def placeOf (e : List Byte) : Place :=
  let k := field e 0 4
  { vec := bit k 0, curv := bit k 1, br := 64 * (bits k 4 2 + 1), bc := 64 * (bits k 7 5 + 1), tid := field e 4 4,
    rows := field e 8 4, cols := field e 12 4,
    offs := (List.range 5).map (fun i => 65536 * field e (16 + 4 * i) 4), mapFirst := field e 36 4,
    cellBase := field e 40 8 }

/-- The bytes of placement entry `i` (spec 11 R472). -/
def placeBytes (s : State) (i : Nat) : List Byte := Memory.readN s.dram (s.getF Reg.PLC_BASE 0 0 + 64 * i) 64

/-- The domain's tensors, in placement-table order. -/
def Domain.places (s : State) (d : Domain) : List Place :=
  (List.range d.placeCount).map (fun k => placeOf (placeBytes s (d.placeFirst + k)))

def ceilDiv (a b : Nat) : Nat := (a + b - 1) / b

/-- Elements of a tensor, and its size when cut into blocks of 256 (spec 07 R294). -/
def Place.elems (p : Place) : Nat := p.rows * (if p.vec then 1 else p.cols)
def Place.padded (p : Place) : Nat := 256 * ceilDiv p.elems 256

/-- The bytes of sub-area `k` (W, WT, MOIL, MOM, SKETCH) of a tensor (spec 07 Table 7.2). -/
def Place.subSize (p : Place) (k : Nat) : Nat :=
  match k with
  | 0 => 2 * p.elems
  | 1 => if p.vec then 0 else 2 * p.elems
  | 2 => p.elems
  | 3 => p.padded + ceilDiv p.elems 256
  | _ => if p.vec then p.padded + ceilDiv p.rows 256 else 4 * (p.rows + p.cols)

/-- Offset of sub-area `k` from the slot start. -/
def Place.sub (p : Place) (k : Nat) : Nat := p.offs.getD k 0

/-- Curvature blocks of a tensor, by row and column (spec 07 R295). -/
def Place.blockRows (p : Place) : Nat := ceilDiv p.rows p.br
def Place.blockCols (p : Place) : Nat := ceilDiv p.cols p.bc
def Place.blocks (p : Place) : Nat := if p.curv && !p.vec then p.blockRows * p.blockCols else 0

/-- Bytes of one cell of a side: T × 8 KiB (spec 07 R296). -/
def cellBytes (side : Nat) : Nat := let k := side / 64; k * (k + 1) / 2 * 8192

/-- Address of a cell of side X (`g` false) or G of curvature block `b` of a tensor. DEDUCED: the blocks' cells follow
one another in root-map order, a block's X cells 0 to 2 before its G cells 0 to 2 (log entry 32). -/
def Place.cell (p : Place) (b : Nat) (g : Bool) (c : Nat) : Nat :=
  p.cellBase + b * (3 * cellBytes p.br + 3 * cellBytes p.bc) + (if g then 3 * cellBytes p.br + c * cellBytes p.bc else c * cellBytes p.br)

/-! The root map (spec 07 Table 7.3, spec 11 R473). -/

def rootMapAt (d : Domain) (slot : Bool) : Nat := d.slotBase slot + 65536 * d.lendUnits

/-- Entry `i` of the root map of a slot area. -/
def rootMapEntry (s : State) (d : Domain) (slot : Bool) (i : Nat) : Nat := (Memory.read s.dram (rootMapAt d slot + i)).toNat

/-- Root-map entries of the domain. -/
def rootMapLen (s : State) (d : Domain) : Nat := (d.places s).foldl (fun m p => max m (p.mapFirst + p.blocks)) 0

def mapCell (e : Nat) (g : Bool) : Nat := if g then bits e 4 3 else bits e 1 0
def mapValid (e : Nat) (g : Bool) : Bool := if g then bit e 5 else bit e 2

/-- The inbound cell of a side: the lower-numbered of the two cells other than ROOT_CELL (spec 07 R297). -/
def inboundCell (e : Nat) (g : Bool) : Nat := if mapCell e g = 0 then 1 else 0

/-! Digest trees (spec 09 R384, R385). -/

/-- The byte ranges (address, length) of the root cells in force. -/
def rootRanges (s : State) (d : Domain) (slot : Bool) : List (Nat × Nat) :=
  (d.places s).flatMap (fun p => (List.range p.blocks).flatMap (fun b =>
    let e := rootMapEntry s d slot (p.mapFirst + b)
    (if mapValid e false then [(p.cell b false (mapCell e false), cellBytes p.br)] else []) ++
    (if mapValid e true then [(p.cell b true (mapCell e true), cellBytes p.bc)] else [])))

/-! Normalised bytes (spec 04 R185): what the digest path writes or compares holds +0 for −0 in every floating-point format. -/

/-- The floating-point areas of a domain's leaf sequence: address, length and bytes of an element. W, WT and the roots are BF16, the
sketch of a DENSE2D tensor FP32 (spec 07 Tables 7.1, 7.2). -/
def fpRanges (s : State) (d : Domain) (slot : Bool) : List (Nat × Nat × Nat) :=
  let b := d.slotBase slot
  (d.places s).flatMap (fun p => [(b + p.sub 0, p.subSize 0, 2), (b + p.sub 1, p.subSize 1, 2)] ++
    (if p.vec then [] else [(b + p.sub 4, p.subSize 4, 4)])) ++
  (rootRanges s d slot).map (fun r => (r.1, r.2, 2))

/-- Elements of `w` bytes with +0 for −0. -/
def plusZeros (w : Nat) : Nat → List Byte → List Byte
  | 0, _ => []
  | n + 1, d => if d.isEmpty then [] else
      let e := d.take w
      (if leNat e = 2 ^ (8 * w - 1) then List.replicate e.length 0#8 else e) ++ plusZeros w n (d.drop w)

/-- Memory with +0 for −0 in areas of floating-point elements. -/
def normFp (m : Memory) (rs : List (Nat × Nat × Nat)) : Memory :=
  rs.foldl (fun m r => Memory.writeL m r.1 (plusZeros r.2.2 r.2.1 (Memory.readN m r.1 r.2.1))) m

/-- The bytes of a list of ranges, one after another. -/
def readRanges (m : Memory) (rs : List (Nat × Nat)) : List Byte := rs.flatMap (fun r => Memory.readN m r.1 r.2)

/-- The three sections of a domain's leaf sequence. -/
def leafSections (s : State) (d : Domain) (slot : Bool) : List (List (Nat × Nat)) :=
  let b := d.slotBase slot
  [[(b, 65536 * d.lendUnits)], [(b + 65536 * d.lendUnits, 65536 * (d.slotUnits - d.lendUnits))], rootRanges s d slot]

/-- The 64 KiB leaves of a byte string, the last one filled with zero bytes. -/
def cutLeaves : Nat → List Byte → List (List Byte)
  | 0, _ => []
  | n + 1, d => if d.isEmpty then [] else
      let l := d.take 65536
      (l ++ List.replicate (65536 - l.length) 0#8) :: cutLeaves n (d.drop 65536)

/-- The leaves of a section. -/
def sectionLeaves (m : Memory) (rs : List (Nat × Nat)) : List (List Byte) :=
  let d := readRanges m rs
  cutLeaves (d.length / 65536 + 1) d

/-- The leaf digests of a list of sections; one leaf of zeros where all are empty. -/
def leafDigests (m : Memory) (secs : List (List (Nat × Nat))) : List Nat :=
  let ls := (secs.flatMap (sectionLeaves m)).map crc64
  if ls.isEmpty then [crc64 (List.replicate 65536 0#8)] else ls

/-- The leaf digests of a domain's slot area, over the normalised bytes (spec 09 R384, 04 R185). -/
def domainLeaves (s : State) (d : Domain) (slot : Bool) : List Nat :=
  leafDigests (normFp s.dram (fpRanges s d slot)) (leafSections s d slot)

/-- One level of the tree from the level below: nodes of 64 digests. -/
def digestLevel : Nat → List Nat → List Nat
  | 0, _ => []
  | n + 1, l => if l.isEmpty then [] else crc64 ((l.take 64).flatMap (toLe 8)) :: digestLevel n (l.drop 64)

/-- The root of the tree over leaf digests: levels until one has one node, at least one above level 0. -/
def digestRoot : Nat → List Nat → Nat
  | 0, l => l.headD 0
  | n + 1, l =>
    let up := digestLevel l.length l
    if up.length ≤ 1 then up.headD 0 else digestRoot n up

def rootDigest (leaves : List Nat) : Nat := digestRoot 8 leaves

def Domain.leaves (d : Domain) (slot : Bool) : List Nat := if slot then d.leaves1 else d.leaves0
def Domain.setLeaves (d : Domain) (slot : Bool) (l : List Nat) : Domain :=
  if slot then { d with leaves1 := l } else { d with leaves0 := l }

/-! What the device sends. -/

def State.send (s : State) (x : Sent) : State := { s with sent := s.sent ++ [x] }
def State.sendHost (s : State) (a : Nat) (d : List Byte) : State := if d.isEmpty then s else s.send (.hostMem a d)

/-- Zero bytes. -/
def zeros (n : Nat) : List Byte := List.replicate n 0#8

/-- WAKE_N is driven low for 100 ms when an event enters the ring while no driver is bound and PERST_N is high; it has been
released for at least 1 s before (spec 15 R574). -/
def wake (s : State) : State :=
  if s.getF Reg.MBX_BOUND 0 0 = 1 ∨ s.power.perstLow ∨ s.power.wakeLow.isSome then s
  else if s.power.wakeFree.any (fun t => decide (s.now < t + 1000000000)) then s
  else { s with power := { s.power with wakeLow := some s.now } }

/-- Put one event into the event ring (spec 11 R456). -/
def placeEvent (s : State) (e : List Byte) : State :=
  let m := s.mbx
  let s := wake s
  { s with mbx := { m with
      events := (m.events.filter (fun (x : Nat × List Byte) => x.1 != m.evtTail % 256)) ++ [(m.evtTail % 256, e)]
      evtTail := (m.evtTail + 1) % 2 ^ 32 } }.send (.msix 1)

def evtFree (m : Mailbox) : Bool := decide ((m.evtTail + 2 ^ 32 - m.evtHead) % 2 ^ 32 < 256)

/-- Move buffered events into the ring while it has room. -/
def drainEvents : Nat → State → State
  | 0, s => s
  | n + 1, s =>
    match s.mbx.buffered with
    | e :: es => if evtFree s.mbx then drainEvents n (placeEvent { s with mbx := { s.mbx with buffered := es } } e) else s
    | [] => s

/-- Raise an event to the host: the header of spec 11 Table 11.8 and a payload. While the ring is full, up to 4,096
events wait; beyond that the oldest is lost (spec 11 R456). -/
def raiseEvent (s : State) (op : Nat) (payload : List Byte) : State :=
  let m := s.mbx
  let ver := s.getF Reg.MBX_VER_MAX 0 0
  let h := toLe 2 ver ++ toLe 2 op ++ toLe 4 m.evtCount ++ toLe 8 (payload.length + 0x20000) ++ toLe 8 0 ++ toLe 4 0
  let e := h ++ toLe 4 (crc32c (h ++ payload)) ++ payload
  let s := { s with mbx := { m with evtCount := (m.evtCount + 1) % 2 ^ 32 } }
  let s := { s with fw := { s.fw with eventLog := s.fw.eventLog ++ [e] } }
  if m.buffered.isEmpty && evtFree m then placeEvent s e
  else if m.buffered.length < 4096 then { s with mbx := { s.mbx with buffered := m.buffered ++ [e] } }
  else { (s.countF Reg.MBX_EVT_LOST 0 0 1) with mbx := { s.mbx with buffered := m.buffered.drop 1 ++ [e] } }

/-- EVT_FAULT (spec 11 Table 11.11). DEDUCED: the fields stand in the order the table lists them, from byte 0, in
words of 32 bits (log entry 33). -/
def evtFault (s : State) (code ty inst i0 i1 queue domain : Nat) : State :=
  raiseEvent s 0x8001 ([code, ty, inst, i0, i1, queue, domain].flatMap (toLe 4))

/-- A firmware error: recorded in the MAILBOX page and raised as EVT_FAULT (spec 11 R487). -/
def fwError (s : State) (code i0 : Nat) : State := evtFault (s.recordErr 8 0 0 code i0 0) code 8 0 i0 0 0xFFFF 0x7FFFF

/-- EVT_GROUP (spec 11 Table 11.11). -/
def GroupState.code : GroupState → Nat
  | .member => 0 | .ejected => 1 | .joined => 2 | .stopped => 3

def evtGroup (s : State) (d : Nat) (g : GroupState) (epoch : Nat) : State :=
  raiseEvent s 0x8003 ([d, g.code, epoch].flatMap (toLe 4))

/-- A cause of ALERT_N is latched (spec 13 R531). -/
def alert (s : State) (f : Fld) : State := s.setF f 0 0 1

/-- EVT_FW_STATE (spec 11 Table 11.11). -/
def evtFwState (s : State) (cause : Nat) : State :=
  raiseEvent s 0x8004 ([s.getF Reg.MBX_FW_STATE 0 0, cause, s.getF Reg.MBX_RUNTIME_ID 0 0].flatMap (toLe 4))

/-- An integrity event (spec 09 R390, Table 9.9): into the 4,096-entry log and to the host. DEDUCED: a full log loses
its oldest entry (log entry 34). -/
def integrity (s : State) (event cause domain step position member peer leaf sec : Nat) : State :=
  let r := toLe 8 (event % 256 + 256 * (cause % 16) + 2 ^ 32 * domain) ++ toLe 8 step ++
    toLe 8 (position % 4096 + 4096 * (member % 4096) + 2 ^ 24 * (peer % 4096)) ++ toLe 8 (leaf % 2 ^ 32 + 2 ^ 32 * sec)
  let log := s.fw.integrityLog
  let log := if log.length < 4096 then log else log.drop 1
  raiseEvent { s with fw := { s.fw with integrityLog := log ++ [r] } } 0x8002 r

/-- A control message to a member (spec 10 R427, R420). -/
def State.control (s : State) (member op : Nat) (d : List Byte) : State := s.send (.control member op d)

/-! The processors. -/

/-- Is control processor `n` running (spec 11 Table 11.19)? -/
def cpUp (s : State) (n : Nat) : Bool := s.getF Reg.CP_STATE n 0 == 2

/-- CP1 writes a journal entry before a command to a block (spec 11 R479). -/
def journal (s : State) (target count : Nat) : State :=
  { s with fw := { s.fw with journalSeq := s.fw.journalSeq + 1, journalTarget := target, journalCount := count } }

end Sys2Proof.Machine
end

