-- ==== Sys2Proof/Machine/CommitOps.lean ====
section
/-! DEFINITION. The commit unit: commit records (spec 07 Table 7.6, R318), loss-scale transitions (Table 7.4), the
request queue and its service (R320 to R325, Table 7.7), read pins (R37, R591), the shadow root map (R301). -/

namespace Sys2Proof.Machine

set_option Elab.async false

/-! Commit records. -/

def recSlot (r : List Byte) : Bool := bit (field r 0 4) 24
def recSkipped (r : List Byte) : Bool := bit (field r 0 4) 25
def recDomain (r : List Byte) : Nat := bits (field r 4 4) 18 0
def recStep (r : List Byte) : Nat := field r 8 8
def recEpoch (r : List Byte) : Nat := field r 16 2
def recLsExp (r : List Byte) : Nat := field r 18 1
def recGood (r : List Byte) : Nat := field r 20 4
def recTotal (r : List Byte) : Nat := field r 24 4
def recAcc (r : List Byte) : Nat := field r 28 2
def recDigest (r : List Byte) : Nat := field r 32 8
def recUpbCrc (r : List Byte) : Nat := field r 48 4

/-- Every reserved field of a commit record is 0 (spec 07 Table 7.6). -/
def recReservedZero (r : List Byte) : Bool :=
  bits (field r 0 4) 31 28 == 0 && bits (field r 4 4) 31 19 == 0 && field r 19 1 == 0 && field r 30 2 == 0 && field r 56 4 == 0

/-- Is entry `k` of domain `id`'s journal a valid record (spec 07 R318)? -/
def recValid (id k : Nat) (r : List Byte) : Bool :=
  r.length == 64 && field r 0 2 == 0x7C2D && field r 2 1 == 1 && recReservedZero r && field r 60 4 == crc32c (r.take 60) &&
    recDomain r == id && recStep r % 16 == k

/-- The loss-scale state of a domain: LS_EXP, GOOD_STEPS, SKIPPED_TOTAL of its latest commit; 15, 0, 0 with none
(spec 07 R304, R306). -/
def Domain.lossScale (d : Domain) : Nat × Nat × Nat :=
  if d.lastStep.isSome then (recLsExp d.record, recGood d.record, recTotal d.record) else (15, 0, 0)

/-- The loss-scale transition of a commit (spec 07 Table 7.4), and whether LOSS_SCALE_FLOOR is raised. -/
def lossScaleNext (ls : Nat × Nat × Nat) (skipped : Bool) (growth : Nat) : (Nat × Nat × Nat) × Bool :=
  let (e, g, t) := ls
  if skipped then
    let t := min (t + 1) 0xFFFFFFFF
    if e > 0 then ((e - 1, 0, t), false) else ((0, 0, t), true)
  else if g + 1 = growth ∧ e < 24 then ((e + 1, 0, t), false)
  else ((e, min (g + 1) 0xFFFFFFFF, t), false)

/-- The commit record of a request (spec 07 Table 7.6). -/
def formRecord (q : CommitReq) (slot : Bool) (ls : Nat × Nat × Nat) (digest time : Nat) : List Byte :=
  let r := toLe 2 0x7C2D ++ toLe 1 1 ++ toLe 1 (b2n slot + 2 * b2n q.skipped + 4 * b2n q.roots + 8 * b2n q.legacy) ++
    toLe 4 q.domain ++ toLe 8 q.step ++ toLe 2 q.epoch ++ toLe 1 ls.1 ++ toLe 1 0 ++ toLe 4 ls.2.1 ++ toLe 4 ls.2.2 ++
    toLe 2 q.acc ++ toLe 2 0 ++ toLe 8 digest ++ toLe 8 time ++ toLe 4 q.crc ++ toLe 4 q.nonfinite ++ toLe 4 0
  r ++ toLe 4 (crc32c r)

/-! The queue. -/

/-- An error of the COMMIT page (spec 07 Table 7.11). -/
def commitError (s : State) (code i0 i1 : Nat) : State := s.recordErr 16 0 0 code i0 i1

/-- Word 0x100 of a request. -/
def CommitReq.word (q : CommitReq) : Nat :=
  q.domain + 2 ^ 20 * q.kind + 2 ^ 24 * b2n q.skipped + 2 ^ 25 * b2n q.roots + 2 ^ 26 * b2n q.legacy

/-- The request that the request registers hold (spec 07 Table 7.10). -/
def requestOf (s : State) : CommitReq :=
  { domain := s.getF Reg.COMMIT_REQ_DOMAIN 0 0, kind := s.getF Reg.COMMIT_REQ_KIND 0 0,
    skipped := s.flag Reg.COMMIT_REQ_SKIPPED 0 0, roots := s.flag Reg.COMMIT_REQ_ROOTS 0 0,
    legacy := s.flag Reg.COMMIT_REQ_LEGACY 0 0, step := s.getF Reg.COMMIT_REQ_STEP 0 0,
    epoch := s.getF Reg.COMMIT_REQ_EPOCH 0 0, acc := s.getF Reg.COMMIT_REQ_ACC_COUNT 0 0,
    crc := s.getF Reg.COMMIT_REQ_UPB_CRC 0 0, growth := s.getF Reg.COMMIT_REQ_GROWTH 0 0,
    nonfinite := s.getF Reg.COMMIT_REQ_NONFINITE 0 0 }

/-- Write a request into the request registers. -/
def setRequest (s : State) (q : CommitReq) : State :=
  [(Reg.COMMIT_REQ_DOMAIN, q.domain), (Reg.COMMIT_REQ_KIND, q.kind), (Reg.COMMIT_REQ_SKIPPED, b2n q.skipped),
   (Reg.COMMIT_REQ_ROOTS, b2n q.roots), (Reg.COMMIT_REQ_LEGACY, b2n q.legacy), (Reg.COMMIT_REQ_STEP, q.step),
   (Reg.COMMIT_REQ_EPOCH, q.epoch), (Reg.COMMIT_REQ_ACC_COUNT, q.acc), (Reg.COMMIT_REQ_UPB_CRC, q.crc),
   (Reg.COMMIT_REQ_GROWTH, q.growth), (Reg.COMMIT_REQ_NONFINITE, q.nonfinite)].foldl
    (fun s (x : Fld × Nat) => s.setF x.1 0 0 x.2) s

/-- REQ_PUSH: the request registers go into the 64-entry queue (spec 07 R320, Table 7.11). A disabled block accepts
nothing (spec 14 R550). -/
def pushRequest (s : State) : State :=
  if s.getF (Hdr.ENABLE 16) 0 0 = 0 then s
  else
    let q := requestOf s
    if s.commitQ.length ≥ 64 then commitError s 0x0904 q.domain 0 else { s with commitQ := s.commitQ ++ [q] }

/-- The accepted count of the commit unit, for CP1's journal (spec 11 R479). -/
def commitAccepted (s : State) : Nat :=
  s.getF Reg.COMMIT_COMMITS 0 0 + s.getF Reg.COMMIT_SKIPS 0 0 + s.getF Reg.COMMIT_DUPS 0 0 + s.commitQ.length

/-- SCAN: a request of kind 1 for the domain (spec 07 R324, Table 7.10). -/
def pushScan (s : State) (id : Nat) : State :=
  if cpUp s 1 then
    pushRequest (setRequest (journal s 16 (commitAccepted s))
      { domain := id, kind := 1, skipped := false, roots := false, legacy := false, step := 0, epoch := 0, acc := 0, crc := 0,
        growth := 0, nonfinite := 0 })
  else s

/-! Read pins. -/

/-- Is a commit of the domain between the start of step 2 and the end of step 6 of Table 7.7 (spec 07 R591)? -/
def committing (s : State) (id : Nat) : Bool :=
  s.commitWait && (match s.commitQ with
    | q :: _ => q.kind == 0 && q.domain == id
    | [] => false)

/-- PIN_HELD of the EXPORT page shows whether the export engine holds its pin (spec 09 Table 9.14). -/
def markPin (s : State) (h : PinHolder) (v : Nat) : State :=
  match h with
  | .exportEngine => s.setF Reg.EXPORT_PIN_HELD 0 0 v
  | _ => s

/-- What a pin's holder does when its pin is granted: the export's PIN_LIMIT counts from here (spec 07 R591). -/
def pinGranted (s : State) (h : PinHolder) : State :=
  match h with
  | .exportEngine => { markPin s h 1 with exportJob := s.exportJob.map (fun j => { j with pinAt := some s.now }) }
  | _ => s

/-- Request a read pin: granted, or held while a commit of the domain is under way (spec 07 R591). -/
def requestPin (s : State) (id : Nat) (h : PinHolder) : State :=
  match s.domain? id with
  | none => s
  | some d =>
    if committing s id then s.setDomain { d with pinWait := d.pinWait ++ [h] }
    else pinGranted (s.setDomain { d with pins := d.pins ++ [h] }) h

/-- Remove the first element equal to `h`. -/
def eraseOne [DecidableEq α] (h : α) : List α → List α
  | [] => []
  | x :: xs => if x = h then xs else x :: eraseOne h xs

/-- Release a read pin, or withdraw a request that waits (spec 01 R37). -/
def releasePin (s : State) (id : Nat) (h : PinHolder) : State :=
  (markPin s h 0).modDomain id (fun d =>
    if d.pins.contains h then { d with pins := eraseOne h d.pins } else { d with pinWait := eraseOne h d.pinWait })

/-- Grant the pins that waited for a commit (spec 07 R591). -/
def grantWaiting (s : State) (id : Nat) : State :=
  match s.domain? id with
  | none => s
  | some d => d.pinWait.foldl pinGranted (s.setDomain { d with pins := d.pins ++ d.pinWait, pinWait := [] })

/-! Service of a request. -/

/-- The request at the head is done: the queue moves on and COMMIT_DONE is set (spec 07 Table 7.7 step 6). -/
def requestDone (s : State) (q : CommitReq) (step : Nat) : State :=
  let s := { s with commitQ := s.commitQ.drop 1, commitWait := false }
  ((s.setF Reg.COMMIT_LAST_DOMAIN 0 0 q.domain).setF Reg.COMMIT_LAST_STEP 0 0 step).raise 16 0 0 1

/-- The request at the head fails: it has no effect but its error (spec 07 R321). -/
def requestFails (s : State) (code i0 i1 : Nat) : State :=
  commitError { s with commitQ := s.commitQ.drop 1, commitWait := false } code i0 i1

/-- Checks 1 and 2 of spec 07 R321: an error code with its information words, or the domain and its journal. -/
def requestChecks (s : State) (q : CommitReq) : Except (Nat × Nat × Nat) (Domain × Nat) :=
  if q.kind > 1 then .error (0x0901, q.word, 0x100)
  else if q.kind = 0 ∧ q.growth = 0 then .error (0x0901, q.word, 0x114)
  else match s.domain? q.domain with
    | none => .error (0x0902, q.domain, 0)
    | some d =>
      if !d.bound then .error (0x0902, q.domain, 0)
      else match journalBase s d with
        | none => .error (0x0902, q.domain, 1)
        | some j => .ok (d, j)

/-- Is the request a repeat of the domain's latest commit, with the same replicated fields (spec 07 R321)? -/
def repeats (d : Domain) (q : CommitReq) : Bool :=
  let r := d.record
  d.lastStep == some q.step && recSkipped r == q.skipped && bit (field r 0 4) 26 == q.roots &&
    bit (field r 0 4) 27 == q.legacy && recEpoch r == q.epoch && recAcc r == q.acc && recUpbCrc r == q.crc &&
    field r 52 4 == q.nonfinite

/-- Steps 3 to 6 of Table 7.7: digest, record, commit point, flip (spec 07 R319, R322, R323). -/
def commitRecord (s : State) (q : CommitReq) (d : Domain) (j : Nat) : State :=
  let (ls, floor) := lossScaleNext d.lossScale q.skipped q.growth
  let slot := if q.skipped then d.committed else !d.committed
  let leaves := domainLeaves s d slot
  let digest :=
    if q.skipped then (if d.lastStep.isSome then recDigest d.record else 0) else rootDigest leaves
  let r := formRecord q slot ls digest s.now
  let a := j + 64 * (q.step % 16)
  let s := if floor then s.raise 16 0 0 2 else s
  if a + 64 > dramSize s then (requestFails s 0x0905 q.domain 0).modDomain q.domain (fun d => { d with stopped := true })
  else
    let x := dramWrite s a r
    let s := x.1
    match x.2 with
    | some e => (requestFails s 0x0905 q.domain e).modDomain q.domain (fun d => { d with stopped := true })
    | none =>
      let d := { d with committed := slot, lastStep := some q.step, record := r }
      let d := if q.skipped then d else d.setLeaves slot leaves
      let d := { d with run := d.run.map (fun x => if x.step = q.step then { x with phase := .committed } else x) }
      let s := s.setDomain d
      let s := if q.skipped then s.countF Reg.COMMIT_SKIPS 0 0 1 else s.countF Reg.COMMIT_COMMITS 0 0 1
      grantWaiting (requestDone s q q.step) q.domain

/-- The COMMIT request at the head of the queue is executed at device time `t` (spec 07 R321, R322, Table 7.7). While
a pin that was granted before holds the committed slot area, it waits at step 2 and PIN_WAIT is raised once. -/
def commitExecute (s : State) (t : Nat) : State :=
  if s.getF (Hdr.FREEZE 16) 0 0 = 1 then s
  else match s.commitQ with
    | [] => s
    | q :: _ =>
      if q.kind = 1 then s
      else
        let s := s.atTime t
        match requestChecks s q with
        | .error (c, i0, i1) => requestFails s c i0 i1
        | .ok (d, j) =>
          if repeats d q then requestDone (s.countF Reg.COMMIT_DUPS 0 0 1) q q.step
          else
            let next := match d.lastStep with
              | some n => (n + 1) % 2 ^ 64
              | none => 0
            if q.step ≠ next then requestFails s 0x0903 (q.step % 2 ^ 32) (d.lastStep.getD 0 % 2 ^ 32)
            else if !d.pins.isEmpty then
              if s.commitWait then s else { s with commitWait := true }.raise 16 0 0 3
            else commitRecord s q d j

/-- The journal's entries, read by a SCAN; an entry that reads as uncorrectable counts as invalid (spec 10
Table 10.10). -/
def readJournal (s : State) (j : Nat) : State × List (List Byte) :=
  (List.range 16).foldl (fun (x : State × List (List Byte)) k =>
    let r := dramRead x.1 (j + 64 * k) 64
    (r.1, x.2 ++ [r.2.2])) (s, [])

/-- The valid record with the largest STEP among a journal's entries (spec 07 R318). -/
def latestOf (id : Nat) (es : List (List Byte)) : Option (List Byte) :=
  ((es.zipIdx.filter (fun x => recValid id x.2 x.1)).map (·.1)).foldl
    (fun b r => match b with
      | none => some r
      | some o => if recStep o < recStep r then some r else b) none

/-- What a SCAN makes of a domain (spec 07 R324); the digest areas stand (spec 09 R386). -/
def scanDomain (s : State) (d : Domain) (j : Nat) : State × Bool :=
  let (s, es) := readJournal s j
  match latestOf d.id es with
  | some r =>
    let slot := recSlot r
    (s.setDomain { d with committed := slot, lastStep := some (recStep r), record := r }, true)
  | none => (s.setDomain { d with committed := false, lastStep := none, record := [] }, false)

/-- A SCAN issued by firmware as part of another action (spec 07 R324; spec 09 R381, R389, R394; spec 13): it runs at once and
completes as a request of the commit unit does. DESIGN CHOICE: one command, one effect (log entry 35). -/
def scanNow (s : State) (id : Nat) : State :=
  match s.domain? id with
  | none => s
  | some d => match journalBase s d with
    | none => commitError s 0x0902 id 1
    | some j =>
      let (s, found) := scanDomain s d j
      if found then
        ((s.setF Reg.COMMIT_LAST_DOMAIN 0 0 id).setF Reg.COMMIT_LAST_STEP 0 0 (((s.domain? id).bind (·.lastStep)).getD 0)).raise 16 0 0 1
      else commitError s 0x0906 id 16

/-- The SCAN request at the head of the queue is executed (spec 07 R324). -/
def scanExecute (s : State) (t : Nat) : State :=
  if s.getF (Hdr.FREEZE 16) 0 0 = 1 then s
  else match s.commitQ with
    | [] => s
    | q :: _ =>
      if q.kind ≠ 1 then s
      else
        let s := s.atTime t
        match requestChecks s q with
        | .error (c, i0, i1) => requestFails s c i0 i1
        | .ok (d, j) =>
          let (s, found) := scanDomain s d j
          if found then requestDone s q (((s.domain? q.domain).bind (·.lastStep)).getD 0)
          else requestFails s 0x0906 q.domain 16

/-! What CP1 does before a commit. -/

/-- The shadow root map (spec 07 R301): for each side with an arrived root of RESULT SUCCESS, the inbound cell becomes
ROOT_CELL and VALID is set; every other entry is the committed one. Answers whether the map changed. -/
def shadowMapEntry (d : Domain) (p : Place) (b e : Nat) : Nat :=
  let side (g : Bool) : Nat × Bool :=
    let c := inboundCell e g
    let won := d.roots.any (fun r => r.inbound == p.cell b g c && r.result == 0)
    if won then (c, true) else (mapCell e g, mapValid e g)
  let x := side false
  let g := side true
  x.1 + 4 * b2n x.2 + 8 * g.1 + 32 * b2n g.2

/-- CP1 writes the kept part of the shadow (spec 07 R290, R301): the root map, and zeros in every other byte but the agreed-scale
history, which the crucible wrote. Answers whether the map changed. -/
def writeShadowMap (s : State) (d : Domain) (r : StepRun) : State × Bool :=
  let old := fun i => rootMapEntry s d d.committed i
  let news := (d.places s).flatMap (fun p => (List.range p.blocks).map (fun b =>
    (p.mapFirst + b, shadowMapEntry d p b (old (p.mapFirst + b)))))
  let n := rootMapLen s d
  let base := rootMapAt d (!d.committed)
  let hist := bits (r.gradWords.getD 6 0) 40 0
  let stop := hist + bits (r.gradWords.getD 7 0) 31 0
  let m := (List.range (65536 * (d.slotUnits - d.lendUnits))).foldl (fun m i =>
    if i < n then Memory.write m (base + i) (BitVec.ofNat 8 (old i))
    else if hist ≤ base + i ∧ base + i < stop then m
    else Memory.write m (base + i) 0#8) s.dram
  let m := news.foldl (fun m x => Memory.write m (base + x.1) (BitVec.ofNat 8 x.2)) m
  ({ s with dram := m }, news.any (fun x => x.2 != old x.1))

/-- Did every root due in this step arrive (spec 01 R31, spec 08 R332)? -/
def rootsArrived (d : Domain) : Bool := d.rootsDue.all (fun a => d.roots.any (·.inbound == a))

/-- Is step `n` a root step of the domain (spec 01 R28)? -/
def isRootStep (d : Domain) (n : Nat) : Bool := decide (0 < d.rootInterval) && n % d.rootInterval == 0

/-- Does the step still owe a reduction of statistics (spec 01 R29, spec 07 R298): a root step in which no roots are due, with
statistics gathered since the last reduction? -/
def statOwed (s : State) (d : Domain) (r : StepRun) : Bool :=
  isRootStep d r.step && d.rootsDue.isEmpty && s.gathered d && !r.statClosed

/-- The numerics mode of a domain (spec 07 Table 7.6 LEGACY, spec 11 Table 11.16). -/
def Domain.legacyMode (d : Domain) : Bool := if d.id = wholeDomain then d.legacy else bit (field d.entry 0 4) 21

/-- The fields of a commit request that CP1 takes from the domain: the numerics mode, the epoch and the accumulation count of the
step, and GROWTH_INTERVAL and the CRC of the UPB in force (spec 07 R304, R308, Table 7.6). Where no UPB or no group is there to give a
value, the request carries the one named (log entry 116). -/
def commitFields (d : Domain) (q : CommitReq) : CommitReq :=
  { q with
    legacy := d.legacyMode
    epoch := (d.group.map (·.epoch)).getD q.epoch
    acc := d.accCount
    growth := if d.upb.isEmpty then q.growth else field d.upb 28 4
    crc := if d.upb.isEmpty then q.crc else crc32c d.upb }

/-- CP1 pushes the commit of a step of a domain (spec 07 R320): only of the step that runs, once it is skipped or its update
programs have halted, every root due has arrived (spec 01 R31), and, on a root step, its STAT has closed (spec 08 R332). CP1 writes
the kept part of the shadow first, unless the step is skipped. The commit of the last committed step may be pushed again
(spec 07 R325). -/
def pushCommit (s : State) (q : CommitReq) : State :=
  if !cpUp s 1 then s
  else
    let go (s : State) (q : CommitReq) : State := pushRequest (setRequest (journal s 16 (commitAccepted s)) q)
    match s.domain? q.domain with
    | none => s
    | some d =>
      if d.lastStep = some q.step then go s { q with legacy := d.legacyMode }
      else
        match d.run with
        | none => s
        | some r =>
          if r.step ≠ q.step ∨ q.skipped != r.skipped ∨ r.phase ≠ .ready ∧ r.phase ≠ .committing ∨ r.statOpen ∨ statOwed s d r ∨
            !rootsArrived d then s
          else
            let q := commitFields d q
            let (s, changed) := if q.skipped then (s, false) else writeShadowMap s d r
            let s := s.modDomain q.domain (fun d => { d with run := d.run.map (fun r => { r with phase := .committing }) })
            go s { q with roots := changed, nonfinite := r.nonfinite }

end Sys2Proof.Machine
end

