-- ==== Sys2Proof/Machine/Numerics.lean ====
section
/-! DEFINITION. Number formats, decoding, rounding and the exact arithmetic of the vector engine
(spec 04 R150 to R185, Tables 4.1 to 4.7). Every finite value is an exact dyadic number
`(-1)^neg * m * 2^e`; arithmetic is exact and is rounded once. -/

namespace Sys2Proof.Machine

set_option Elab.async false

/-! Exact values. -/

/-- A value of a floating-point format: NaN, an infinity, or an exact dyadic number; `m = 0` is a signed zero. -/
inductive Val where
  | nan
  | inf (neg : Bool)
  | fin (neg : Bool) (m : Nat) (e : Int)
  deriving DecidableEq, Repr

/-- Number of bits of a natural number: 0 for 0. -/
def bitLen (n : Nat) : Nat := if n = 0 then 0 else Nat.log2 n + 1

/-- Integer square root, rounded down, one result bit a turn. -/
def isqrtGo : Nat → Nat → Nat → Nat
  | 0, _, r => r
  | k + 1, n, r => isqrtGo k n (if (r + 2 ^ k) * (r + 2 ^ k) ≤ n then r + 2 ^ k else r)
def isqrt (n : Nat) : Nat := isqrtGo (bitLen n / 2 + 1) n 0

/-- `m * 2^e` as an integer over the common exponent `b ≤ e`, with its sign. -/
def alignInt (neg : Bool) (m : Nat) (e b : Int) : Int :=
  let v : Int := m * 2 ^ (e - b).toNat
  if neg then -v else v

/-- Is the value zero? -/
def Val.isZero : Val → Bool
  | .fin _ m _ => m == 0
  | _ => false
/-- The sign of a value; a NaN carries none. -/
def Val.isNeg : Val → Bool
  | .nan => false
  | .inf n => n
  | .fin n _ _ => n
/-- The negated value. -/
def Val.neg : Val → Val
  | .nan => .nan
  | .inf n => .inf (!n)
  | .fin n m e => .fin (!n) m e

/-- Exact sum (IEEE 754; an exact zero takes its sign under spec 04 R170). -/
def Val.add : Val → Val → Val
  | .nan, _ => .nan
  | _, .nan => .nan
  | .inf a, .inf b => if a = b then .inf a else .nan
  | .inf a, _ => .inf a
  | _, .inf b => .inf b
  | .fin na ma ea, .fin nb mb eb =>
    let b := min ea eb
    let s := alignInt na ma ea b + alignInt nb mb eb b
    if s = 0 then .fin (na && nb && ma == 0 && mb == 0) 0 0
    else .fin (decide (s < 0)) s.natAbs b

/-- Exact product (IEEE 754). -/
def Val.mul : Val → Val → Val
  | .nan, _ => .nan
  | _, .nan => .nan
  | .inf a, .inf b => .inf (a != b)
  | .inf a, .fin nb mb _ => if mb = 0 then .nan else .inf (a != nb)
  | .fin na ma _, .inf b => if ma = 0 then .nan else .inf (na != b)
  | .fin na ma ea, .fin nb mb eb => .fin (na != nb) (ma * mb) (if ma * mb = 0 then 0 else ea + eb)

/-- Comparison of two values that are not NaN: −1, 0 or 1. −0 and +0 compare equal. -/
def Val.cmp : Val → Val → Int
  | .inf a, .inf b => if a = b then 0 else if a then -1 else 1
  | .inf a, _ => if a then -1 else 1
  | _, .inf b => if b then 1 else -1
  | .fin na ma ea, .fin nb mb eb =>
    let b := min ea eb
    let x := alignInt na ma ea b
    let y := alignInt nb mb eb b
    if x < y then -1 else if y < x then 1 else 0
  | _, _ => 0

def Val.isNaN : Val → Bool
  | .nan => true
  | _ => false
def Val.isInf : Val → Bool
  | .inf _ => true
  | _ => false

/-! Formats. -/

/-- A floating-point format (spec 04 Table 4.2): exponent width, fraction width, bias, whether the top exponent
holds infinities and NaNs, and whether it is FP8_E4M3, whose only NaN codes have all bits of E and f set. -/
structure FpFmt where
  w : Nat
  f : Nat
  bias : Nat
  ieee : Bool
  e4m3 : Bool := false
  deriving DecidableEq, Repr

def fmtFP32 : FpFmt := ⟨8, 23, 127, true, false⟩
def fmtBF16 : FpFmt := ⟨8, 7, 127, true, false⟩
def fmtFP16 : FpFmt := ⟨5, 10, 15, true, false⟩
def fmtE4M3 : FpFmt := ⟨4, 3, 7, false, true⟩
def fmtE5M2 : FpFmt := ⟨5, 2, 15, true, false⟩
def fmtE2M1 : FpFmt := ⟨2, 1, 1, false, false⟩

/-- The value of a code (spec 04 R154, Table 4.2). -/
def FpFmt.decode (t : FpFmt) (c : Nat) : Val :=
  let f := c % 2 ^ t.f
  let e := (c / 2 ^ t.f) % 2 ^ t.w
  let neg := (c / 2 ^ (t.f + t.w)) % 2 == 1
  if t.ieee && e == 2 ^ t.w - 1 then (if f = 0 then .inf neg else .nan)
  else if t.e4m3 && e == 15 && f == 7 then .nan
  else if e = 0 then .fin neg f (if f = 0 then 0 else 1 - (t.bias : Int) - (t.f : Int))
  else .fin neg (2 ^ t.f + f) ((e : Int) - (t.bias : Int) - (t.f : Int))

/-- Exponent field and fraction of the largest finite code. -/
def FpFmt.maxCode (t : FpFmt) : Nat :=
  if t.e4m3 then 0x7E
  else if t.ieee then (2 ^ t.w - 1) * 2 ^ t.f - 1
  else 2 ^ (t.w + t.f) - 1

/-- The code of infinity, without its sign (formats that have one). -/
def FpFmt.infCode (t : FpFmt) : Nat := (2 ^ t.w - 1) * 2 ^ t.f

/-- The canonical NaN (spec 04 R157); 0 for FP4_E2M1, which has none (Table 4.7). -/
def FpFmt.nanCode (t : FpFmt) : Nat :=
  if t.e4m3 then 0x7F
  else if t.ieee then (2 ^ t.w - 1) * 2 ^ t.f + 2 ^ (t.f - 1)
  else 0

/-- The sign bit of a code. -/
def FpFmt.signBit (t : FpFmt) (neg : Bool) : Nat := if neg then 2 ^ (t.w + t.f) else 0

/-! Rounding. -/

/-- The rounding modes of the RND field (spec 02 Table 2.4, 04 R176, R177); `sr r` carries the element's random
word. -/
inductive Rnd where
  | rne
  | rtz
  | sr (r : Word)
  deriving DecidableEq, Repr

/-- Does the magnitude `m * 2^e` (a little more when `sticky`), truncated by `d` bits to `t`, round up? -/
def roundsUp (r : Rnd) (t rem d : Nat) (sticky : Bool) : Bool :=
  match r with
  | .rtz => false
  | .rne => decide (2 * rem > 2 ^ d) || (decide (2 * rem = 2 ^ d) && (sticky || t % 2 == 1))
  | .sr w => decide (w.toNat < rem * 2 ^ 32 / 2 ^ d)

/-- Round the magnitude `m * 2^e` to a multiple of `2^q`: the multiple (spec 04 R176, R177). -/
def roundTo (r : Rnd) (m : Nat) (e q : Int) (sticky : Bool) : Nat :=
  if q ≤ e then m * 2 ^ (e - q).toNat
  else
    let d := (q - e).toNat
    let t := m / 2 ^ d
    if roundsUp r t (m % 2 ^ d) d sticky then t + 1 else t

/-- The exponent of the last place of format `t` for a magnitude `m * 2^e` (the subnormal grid at the bottom). -/
def FpFmt.lastPlace (t : FpFmt) (m : Nat) (e : Int) : Int :=
  max ((bitLen m : Int) + e - (t.f : Int) - 1) (1 - (t.bias : Int) - (t.f : Int))

/-- The code, without its sign, of the rounded magnitude `k * 2^q`, not limited to the format's range. -/
def FpFmt.packMag (t : FpFmt) (k : Nat) (q : Int) : Nat :=
  if k < 2 ^ t.f then k
  else
    let k' := if k = 2 ^ (t.f + 1) then 2 ^ t.f else k
    let q' := if k = 2 ^ (t.f + 1) then q + 1 else q
    (q' + t.f + t.bias).toNat * 2 ^ t.f + (k' - 2 ^ t.f)

/-- Round a value once to a format: the code (spec 04 R170, R175 to R179, Tables 4.5 and 4.7). -/
def FpFmt.round (t : FpFmt) (r : Rnd) (v : Val) (sticky : Bool := false) : Nat :=
  match v with
  | .nan => t.nanCode
  | .inf n => t.signBit n + (if t.ieee then t.infCode else t.maxCode)
  | .fin n m e =>
    if m = 0 then t.signBit n
    else
      let q := t.lastPlace m e
      let c := t.packMag (roundTo r m e q sticky) q
      if c ≤ t.maxCode then t.signBit n + c
      else if t.ieee && r != .rtz then t.signBit n + t.infCode
      else t.signBit n + t.maxCode

/-- Round a value once to FP32. -/
def toFp32 (r : Rnd) (v : Val) : Word := BitVec.ofNat 32 (fmtFP32.round r v)
/-- The value of an FP32 lane. -/
def fp32 (x : Word) : Val := fmtFP32.decode x.toNat

def fpNaN : Word := 0x7FC00000#32
def isNaN32 (x : Word) : Bool := (fp32 x).isNaN
def isInf32 (x : Word) : Bool := (fp32 x).isInf

/-- Addition, multiplication and fused multiply-add in FP32, each rounded once (spec 04 R170). -/
def fpAdd (r : Rnd) (a b : Word) : Word := toFp32 r ((fp32 a).add (fp32 b))
def fpSub (r : Rnd) (a b : Word) : Word := toFp32 r ((fp32 a).add (fp32 b).neg)
def fpMul (r : Rnd) (a b : Word) : Word := toFp32 r ((fp32 a).mul (fp32 b))
def fpFma (r : Rnd) (a b c : Word) : Word := toFp32 r (((fp32 a).mul (fp32 b)).add (fp32 c))

/-- Is `a` the smaller under R183, with −0 below +0? Neither is NaN. -/
def fpLess (a b : Word) : Bool :=
  let x := fp32 a
  let y := fp32 b
  x.cmp y < 0 || (x.isZero && y.isZero && x.isNeg && !y.isNeg)

/-- Minimum and maximum (spec 04 R183). -/
def fpMin (a b : Word) : Word :=
  if isNaN32 a || isNaN32 b then fpNaN else if fpLess b a then b else a
def fpMax (a b : Word) : Word :=
  if isNaN32 a || isNaN32 b then fpNaN else if fpLess a b then b else a

/-- Absolute value (spec 02 Table 2.25). -/
def fpAbs (a : Word) : Word := if isNaN32 a then fpNaN else a &&& 0x7FFFFFFF#32

/-! Division, square root and transcendentals: the quotient or root to more bits than any rounding needs, and
whether something is left over. -/

/-- The value of `a / b` for finite non-zero magnitudes, to 80 bits beyond the divisor's, with its sticky bit. -/
def quotBits (m : Nat) (e : Int) (n : Nat) (g : Int) : Nat × Int × Bool :=
  let k := bitLen n + 80
  (m * 2 ^ k / n, e - g - k, decide (m * 2 ^ k % n ≠ 0))

/-- FP32 division, correctly rounded (IEEE 754). -/
def fpDivV (t : FpFmt) (r : Rnd) (a b : Val) : Nat :=
  match a, b with
  | .nan, _ => t.nanCode
  | _, .nan => t.nanCode
  | .inf _, .inf _ => t.nanCode
  | .inf x, y => t.round r (.inf (x != y.isNeg))
  | x, .inf y => t.round r (.fin (x.isNeg != y) 0 0)
  | .fin na ma ea, .fin nb mb eb =>
    if mb = 0 then (if ma = 0 then t.nanCode else t.round r (.inf (na != nb)))
    else if ma = 0 then t.round r (.fin (na != nb) 0 0)
    else
      let q := quotBits ma ea mb eb
      t.round r (.fin (na != nb) q.1 q.2.1) q.2.2
def fpDiv (r : Rnd) (a b : Word) : Word := BitVec.ofNat 32 (fpDivV fmtFP32 r (fp32 a) (fp32 b))

/-- FP32 square root, correctly rounded (IEEE 754; −0 gives −0). -/
def fpSqrt (r : Rnd) (a : Word) : Word :=
  match fp32 a with
  | .nan => fpNaN
  | .inf n => if n then fpNaN else a
  | .fin n m e =>
    if m = 0 then a
    else if n then fpNaN
    else
      let k : Nat := 64 + (if (e % 2) = 0 then 0 else 1)
      let s := isqrt (m * 2 ^ k)
      BitVec.ofNat 32 (fmtFP32.round r (.fin false s ((e - k) / 2)) (decide (s * s ≠ m * 2 ^ k)))

/-- Reciprocal (spec 04 R171). -/
def fpRcp (r : Rnd) (a : Word) : Word := fpDiv r 0x3F800000#32 a

/-- Reciprocal square root (spec 04 R171). -/
def fpRsqrt (r : Rnd) (a : Word) : Word :=
  match fp32 a with
  | .nan => fpNaN
  | .inf n => if n then fpNaN else 0#32
  | .fin n m e =>
    if m = 0 then BitVec.ofNat 32 (fmtFP32.round r (.inf n))
    else if n then fpNaN
    else
      let odd := e % 2 != 0
      let m' := if odd then 2 * m else m
      let e' := if odd then e - 1 else e
      let k := bitLen m' + 64
      let s := isqrt (2 ^ (2 * k) / m')
      BitVec.ofNat 32 (fmtFP32.round r (.fin false s (-(e' / 2) - k)) (decide (s * s * m' ≠ 2 ^ (2 * k))))

/-- ln 2 in units of 2^-320, rounded down. -/
def ln2Fix : Int :=
  1480553391661173448385607439722553250922680800745876974795605978609098082859138712941075737848984

/-- Sum of the exponential series of `x` (in units of 2^-320) from term `n` on. -/
def expSeries : Nat → Nat → Int → Int → Int → Int
  | 0, _, _, _, acc => acc
  | k + 1, n, x, term, acc => expSeries k (n + 1) x (term * x / 2 ^ 320 / (n + 1 : Nat)) (acc + term)

/-- e to the power `a` (spec 04 R171). The series is summed to 320 bits, far beyond the bits that decide the
rounding of any FP32 argument. DEDUCED: see the assumption log. -/
def fpExp (r : Rnd) (a : Word) : Word :=
  match fp32 a with
  | .nan => fpNaN
  | .inf n => if n then 0#32 else a
  | .fin n m e =>
    if m = 0 then 0x3F800000#32
    else if bitLen m + e > 8 then toFp32 r (if n then .fin false 1 (-400) else .fin false 1 400)
    else
      let x := alignInt n m e (-320)
      let k := x / ln2Fix
      let s := expSeries 90 0 (x - k * ln2Fix) (2 ^ 320) 0
      BitVec.ofNat 32 (fmtFP32.round r (.fin false s.natAbs (k - 320)) true)

/-- Sum of `z^(2j+1) / (2j+1)` in units of 2^-320; `p` is the next power of `z`. -/
def atanhSeries : Nat → Nat → Int → Int → Int → Int
  | 0, _, _, _, acc => acc
  | k + 1, j, z2, p, acc => atanhSeries k (j + 2) z2 (p * z2 / 2 ^ 320) (acc + p / (j : Nat))

/-- Natural logarithm (spec 04 R171), summed to 320 bits. DEDUCED: see the assumption log. -/
def fpLog (r : Rnd) (a : Word) : Word :=
  match fp32 a with
  | .nan => fpNaN
  | .inf n => if n then fpNaN else a
  | .fin n m e =>
    if m = 0 then 0xFF800000#32
    else if n then fpNaN
    else if a = 0x3F800000#32 then 0#32
    else
      let l := bitLen m - 1
      let num : Int := ((m : Int) - 2 ^ l) * 2 ^ 320
      let z := num / ((m : Int) + 2 ^ l)
      let s := 2 * atanhSeries 110 1 (z * z / 2 ^ 320) z 0 + (e + l) * ln2Fix
      BitVec.ofNat 32 (fmtFP32.round r (.fin (decide (s < 0)) s.natAbs (-320)) true)

/-! Stochastic rounding words. -/

/-- One round of Philox-4x32 and the round keys after it (spec 04 R178). -/
def philoxGo : Nat → Word × Word × Word × Word → Word → Word → Word × Word × Word × Word
  | 0, c, _, _ => c
  | n + 1, (c0, c1, c2, c3), k0, k1 =>
    let p0 := 0xD2511F53 * c0.toNat
    let p1 := 0xCD9E8D57 * c2.toNat
    let h0 : Word := BitVec.ofNat 32 (p0 / 2 ^ 32)
    let h1 : Word := BitVec.ofNat 32 (p1 / 2 ^ 32)
    philoxGo n (h1 ^^^ c1 ^^^ k0, BitVec.ofNat 32 p1, h0 ^^^ c3 ^^^ k1, BitVec.ofNat 32 p0)
      (k0 + 0x9E3779B9#32) (k1 + 0xBB67AE85#32)

/-- `sr_word` (spec 04 R178). -/
def srWord (seed step : Word64) (tid : Word) (idx : Word64) : Word :=
  let q := idx >>> 2
  let c := philoxGo 10 (q.extractLsb' 0 32, q.extractLsb' 32 32, tid, step.extractLsb' 0 32)
    (seed.extractLsb' 0 32) (seed.extractLsb' 32 32 ^^^ step.extractLsb' 32 32)
  match idx.toNat % 4 with
  | 0 => c.1
  | 1 => c.2.1
  | 2 => c.2.2.1
  | _ => c.2.2.2

/-! Format codes and conversion. -/

/-- Bits per element of a format code (spec 04 Table 4.1); 0 for a reserved code. -/
def fmtBits (c : Nat) : Nat :=
  match c with
  | 0 | 1 => 16
  | 2 | 12 | 13 => 32
  | 3 | 4 | 5 | 6 | 11 => 8
  | 7 | 8 | 9 | 10 => 4
  | _ => 0

def fmtReserved (c : Nat) : Bool := decide (c ≥ 14)
def fmtIsInt (c : Nat) : Bool := c == 5 || c == 6 || c == 7 || c == 8
/-- Formats accepted in legacy mode (spec 04 Tables 4.1 and 4.8). -/
def fmtLegacy (c : Nat) : Bool := c == 0 || c == 1 || c == 2 || c == 5 || c == 6 || c == 13
/-- Formats the arrays accept as operands (spec 04 Table 4.1). -/
def fmtArray (c : Nat) : Bool := decide (c ≤ 12)
/-- Formats the gather engine accepts (spec 04 Table 4.1). -/
def fmtGather (c : Nat) : Bool := c == 0 || c == 3 || c == 4
/-- Formats of vector conversion, FP32 apart (spec 04 Table 4.1). -/
def fmtVector (c : Nat) : Bool := (decide (c ≤ 11) && c != 2) || c == 13

/-- The floating-point format of a code, where it is one (MX element formats as their element format). -/
def fpFmtOf (c : Nat) : Option FpFmt :=
  match c with
  | 0 => some fmtBF16
  | 1 => some fmtFP16
  | 2 => some fmtFP32
  | 3 | 11 => some fmtE4M3
  | 4 => some fmtE5M2
  | 9 | 10 => some fmtE2M1
  | _ => none

/-- Two's complement or unsigned value of an integer format's code (spec 04 R155). -/
def intVal (c : Nat) (x : Nat) : Int :=
  match c with
  | 5 => (BitVec.ofNat 8 x).toInt
  | 6 => x % 256
  | 7 => (BitVec.ofNat 4 x).toInt
  | 8 => x % 16
  | 13 => (BitVec.ofNat 32 x).toInt
  | _ => 0

/-- Smallest and largest value of an integer format. -/
def intLimits (c : Nat) : Int × Int :=
  match c with
  | 5 => (-128, 127)
  | 6 => (0, 255)
  | 7 => (-8, 7)
  | 8 => (0, 15)
  | _ => (-2147483648, 2147483647)

/-- The value of a stored element (spec 04 R154, R155). -/
def elemVal (c : Nat) (x : Nat) : Val :=
  match fpFmtOf c with
  | some t => t.decode x
  | none => let v := intVal c x; .fin (decide (v < 0)) v.natAbs 0

/-- Widening conversion of one element to FP32 (spec 04 R174). -/
def cvtWiden (r : Rnd) (c : Nat) (x : Nat) : Word := toFp32 r (elemVal c x)

/-- Narrowing conversion of an FP32 lane: the code and whether INVALID_CONVERT is set (spec 04 R175, Table 4.7). -/
def cvtNarrow (r : Rnd) (c : Nat) (x : Word) : Nat × Bool :=
  let v := fp32 x
  match fpFmtOf c with
  | some t => (t.round r v, v.isNaN || (v.isInf && !t.ieee))
  | none =>
    let lim := intLimits c
    let code (n : Int) : Nat := (n % (2 ^ fmtBits c : Nat)).toNat
    match v with
    | .nan => (0, true)
    | .inf n => (code (if n then lim.1 else lim.2), true)
    | .fin n m e =>
      let k : Int := roundTo r m e 0 false
      let s := if n then -k else k
      if s < lim.1 then (code lim.1, true)
      else if lim.2 < s then (code lim.2, true)
      else (code s, false)

end Sys2Proof.Machine
end

