-- ==== Sys2Proof/Machine/Flags.lean ====
section
/-! DEFINITION. The NUM_STATUS bits that a result sets (spec 04 R165, R585, Tables 4.5 and 4.7):
bit 0 NAN_PRODUCED, bit 1 INF_PRODUCED, bit 2 INVALID_CONVERT, bit 3 INT_SAT. -/

namespace Sys2Proof.Machine

set_option Elab.async false

def numNan : BitVec 4 := 1#4
def numInf : BitVec 4 := 2#4
def numInvalid : BitVec 4 := 4#4
def numIntSat : BitVec 4 := 8#4

/-- The bits of an FP32 result element (spec 04 R585). -/
def numOf32 (x : Word) : BitVec 4 :=
  if isNaN32 x then numNan else if isInf32 x then numInf else 0#4

/-- The bits of a code of format `c` written as a conversion result (spec 04 R585): formats without NaN or infinity
set neither. -/
def numOfCode (c x : Nat) : BitVec 4 :=
  match fpFmtOf c with
  | some t => match t.decode x with
    | .nan => numNan
    | .inf _ => numInf
    | _ => 0#4
  | none => 0#4

end Sys2Proof.Machine
end

