-- ==== Sys2Proof/Machine/DotProduct.lean ====
section
/-! DEFINITION. The bit-defined dot product: operand decoding, pass plans, group sums, the floating-point and the
integer path (spec 04 R158 to R166, Tables 4.3, 4.4; 05 R211 to R218, Table 5.7; 06 R264). -/

namespace Sys2Proof.Machine

set_option Elab.async false

/-- FP4_E2M1 expanded to FP8_E4M3 (spec 04 R161, Table 4.4). -/
def expandFp4 (c : Nat) : Nat :=
  128 * (c / 8 % 2) +
    (match c % 8 with
     | 0 => 0x00 | 1 => 0x30 | 2 => 0x38 | 3 => 0x3C | 4 => 0x40 | 5 => 0x44 | 6 => 0x48 | _ => 0x4C)

/-- Significand width by which a plan splits a format's operands: 24 for FP32, 11 for FP16, else 8 (spec 05 R216). -/
def sigWidth (c : Nat) : Nat := if c = 2 then 24 else if c = 1 then 11 else 8

/-- An operand of value zero. -/
def Opnd.zero : Opnd := .fin false 0 0 8

def Opnd.isZero : Opnd → Bool
  | .fin _ m _ _ => m == 0
  | _ => false

/-- A value as an operand. -/
def opndOf (width : Nat) : Val → Opnd
  | .nan => .nan
  | .inf n => .inf n
  | .fin n m e => .fin n m e width

/-- Decode a stored element of format `c`, with the scale byte of its MX block (spec 04 R158 to R163). -/
def decodeOpnd (c code : Nat) (scale : Nat) : Opnd :=
  let v := if c = 9 ∨ c = 10 then fmtE4M3.decode (expandFp4 code) else if c = 12 then fmtBF16.decode code else elemVal c code
  let o := opndOf (sigWidth c) v
  if c = 10 ∨ c = 11 then
    (if scale = 255 then .nan else
      match o with
      | .fin n m e w => .fin n m (e + (scale : Int) - 127) w
      | o => o)
  else o

/-- A product of two operands, or a sum of partial products (spec 05 R211). -/
inductive Prod where
  | nan
  | inf (neg : Bool)
  | fin (neg : Bool) (mag : Nat) (e : Int)
  deriving DecidableEq, Repr

/-- The negated product. -/
def Prod.neg : Prod → Prod
  | .nan => .nan
  | .inf n => .inf (!n)
  | .fin n m e => .fin (!n) m e

/-- Extend a significand to 24 bits for the FP32-class plan (spec 05 R216). -/
def extend24 (m w : Nat) : Nat := m * 2 ^ (24 - w)

/-- The FP32-class product of two 24-bit significands: c1c2, c2c1 and c2c2 are dropped (spec 05 R217, Table 5.7). -/
def fp32Class (a b : Nat) : Nat :=
  let a1 := a / 256 % 256
  let a2 := a % 256
  let b1 := b / 256 % 256
  let b2 := b % 256
  a * b - ((a1 * b2 + a2 * b1) * 256 + a2 * b2)

/-- The product of two operands under a pass plan (spec 05 R211, R216 to R218). -/
def mulOpnd (plan : Nat) : Opnd → Opnd → Prod
  | .nan, _ => .nan
  | _, .nan => .nan
  | .inf a, .inf b => .inf (a != b)
  | .inf a, .fin nb mb _ _ => if mb = 0 then .nan else .inf (a != nb)
  | .fin na ma _ _, .inf b => if ma = 0 then .nan else .inf (na != b)
  | .fin na ma ea wa, .fin nb mb eb wb =>
    if plan = 2 then
      .fin (na != nb) (fp32Class (extend24 ma wa) (extend24 mb wb)) (ea + eb - ((24 - wa : Nat) : Int) - ((24 - wb : Nat) : Int))
    else .fin (na != nb) (ma * mb) (ea + eb)

def Prod.isNan : Prod → Bool
  | .nan => true
  | _ => false

/-- ⌊log2 |p|⌋ of a non-zero finite product. -/
def Prod.ex : Prod → Option Int
  | .fin _ m e => if m = 0 then none else some ((bitLen m : Int) - 1 + e)
  | _ => none

/-- The largest exponent of a group; `none` if every product is zero. -/
def groupEmax (ps : List Prod) : Option Int :=
  ps.foldl (fun acc p => match acc, p.ex with
    | none, x => x
    | some a, none => some a
    | some a, some b => some (max a b)) none

/-- A product cut toward zero to the window that ends at 2^lo (spec 05 R212). -/
def Prod.cut (lo : Int) : Prod → Int
  | .fin n m e =>
    let t : Nat := if lo ≤ e then m * 2 ^ (e - lo).toNat else m / 2 ^ (lo - e).toNat
    if n then -(t : Int) else t
  | _ => 0

/-- The group sum of R212, as FP32. -/
def groupSum (w : Nat) (ps : List Prod) : Word :=
  let pos := ps.contains (.inf false)
  let neg := ps.contains (.inf true)
  if ps.any (·.isNan) || (pos && neg) then fpNaN
  else if pos then 0x7F800000#32
  else if neg then 0xFF800000#32
  else
    match groupEmax ps with
    | none => 0#32
    | some emax =>
      let lo := emax - (w : Int) + 1
      let s := ps.foldl (fun s p => s + p.cut lo) (0 : Int)
      if s = 0 then 0#32 else toFp32 .rne (.fin (decide (s < 0)) s.natAbs lo)

/-- A value with ±Inf turned into the largest finite value, and whether that happened (spec 06 R264). -/
def satFp (x : Word) : Word × Bool :=
  if isInf32 x then ((x &&& 0x80000000#32) ||| 0x7F7FFFFF#32, true) else (x, false)

/-- Group length and window of a numerics mode (spec 04 Table 4.8). -/
def groupLen (legacy : Bool) : Nat := if legacy then 16 else 32
def window (legacy : Bool) : Nat := if legacy then 32 else 40

/-- One accumulation of R212: an addition whose exact result is zero gives +0, also of two negative zeros, which an accumulator
that the integer path wrote may bring (spec 05 R195, R214). -/
def accAdd (acc gs : Word) : Word :=
  let r := fpAdd .rne acc gs
  if r = 0x80000000#32 then 0#32 else r

/-- The dot product of R212: groups of products in order, each group sum and each accumulation rounded once. With
`sat` every group sum and accumulator value saturates; the flag says whether any did (spec 06 R264). -/
def dotGo (legacy sat : Bool) : Nat → Word × Bool → List Prod → Word × Bool
  | 0, acc, _ => acc
  | k + 1, acc, ps =>
    if ps.isEmpty then acc
    else
      let gs := groupSum (window legacy) (ps.take (groupLen legacy))
      if sat then
        let g := satFp gs
        let a := satFp (accAdd acc.1 g.1)
        dotGo legacy sat k (a.1, acc.2 || g.2 || a.2) (ps.drop (groupLen legacy))
      else dotGo legacy sat k (accAdd acc.1 gs, acc.2) (ps.drop (groupLen legacy))

def dot (legacy : Bool) (acc : Word) (ps : List Prod) : Word := (dotGo legacy false ps.length (acc, false) ps).1
def dotSat (legacy : Bool) (acc : Word) (ps : List Prod) : Word × Bool := dotGo legacy true ps.length (acc, false) ps

/-- An exact integer product (spec 04 R165). -/
def Prod.int : Prod → Int
  | .fin n m e => let v : Int := m * 2 ^ e.toNat; if n then -v else v
  | _ => 0

/-- Clamp to i32. -/
def sat32 (x : Int) : Int × Bool :=
  if x < -2147483648 then (-2147483648, true) else if 2147483647 < x then (2147483647, true) else (x, false)

/-- The integer path (spec 04 R165, 05 R215): exact group sums, a saturating i32 accumulator, and whether it
saturated. -/
def intDotGo (legacy : Bool) : Nat → Int × Bool → List Prod → Int × Bool
  | 0, acc, _ => acc
  | k + 1, acc, ps =>
    if ps.isEmpty then acc
    else
      let g := (ps.take (groupLen legacy)).foldl (fun s p => s + p.int) (0 : Int)
      let a := sat32 (acc.1 + g)
      intDotGo legacy k (a.1, acc.2 || a.2) (ps.drop (groupLen legacy))

/-- One output element: its new accumulator bits and the NUM_STATUS bits of a saturation. -/
def dotElem (legacy intPath : Bool) (acc : Word) (ps : List Prod) : Word × BitVec 4 :=
  if intPath then
    let r := intDotGo legacy ps.length (acc.toInt, false) ps
    (BitVec.ofInt 32 r.1, if r.2 then numIntSat else 0#4)
  else (dot legacy acc ps, 0#4)

end Sys2Proof.Machine
end

