-- ==== Sys2Proof/Machine/PantryOps.lean ====
section
/-! DEFINITION. Access to a tile's pantry: geometry, region and bank checks, ECC, undefined lines, reads and writes
(spec 03 R107 to R126, Tables 3.1 to 3.5). -/

namespace Sys2Proof.Machine

set_option Elab.async false

/-- Masters of the pantry (spec 03 Table 3.3). -/
abbrev mAccess : Nat := 0
abbrev mSeq : Nat := 1
abbrev mMessage : Nat := 2
abbrev mCrucible : Nat := 3
abbrev mExport : Nat := 4
abbrev mHostDma : Nat := 5
abbrev mCp : Nat := 6

/-- The size of a pantry in bytes (spec 03 R107). -/
abbrev pantryBytes : Nat := 0x1400000

/-- The bank of a line (spec 03 R107). -/
def bankOf (line : Nat) : Nat := 8 * (line / 65536) + line % 8
/-- The row of a line within its bank (spec 03 R107). -/
def rowOf (line : Nat) : Nat := line % 65536 / 8

/-- The lines that the bytes `[a, a + n)` touch. -/
def linesOf (a n : Nat) : List Nat :=
  if n = 0 then [] else (List.range ((a + n - 1) / 64 + 1 - a / 64)).map (· + a / 64)

/-- Does region descriptor `d` of the master open granule `g` (spec 03 R114, R115)? -/
def regionOpens (s : State) (i : TileId) (master : Nat) (write : Bool) (g d : Nat) : Bool :=
  let k := 8 * master + d
  let base := s.getF Reg.PANTRY_RD_BASE i k
  let last := s.getF Reg.PANTRY_RD_LAST i k
  s.flag Reg.PANTRY_RD_EN i k && decide (base ≤ g) && decide (g ≤ last) && decide (last < 5120) &&
    s.flag (if write then Reg.PANTRY_RD_W else Reg.PANTRY_RD_R) i k

/-- Is a line permitted to a master (spec 03 R114)? -/
def permitted (s : State) (i : TileId) (master : Nat) (write : Bool) (line : Nat) : Bool :=
  (List.range 8).any (regionOpens s i master write (line / 64))

/-- Is a bank ON (spec 03 Table 3.7)? -/
def bankOn (s : State) (i : TileId) (b : Nat) : Bool := s.getF Reg.PANTRY_BANK_CUR i b == 2

/-- An error of Table 3.5. -/
structure PErr where
  code : Nat
  i0 : Nat
  i1 : Nat
  deriving DecidableEq, Repr

/-- An access of the pantry: the master, the descriptor handle it acts for (15: none), whether it writes, and its
bytes. Masters of R110 work in units of 8 bytes, the others in whole lines. -/
structure PAccess where
  master : Nat
  handle : Nat := 15
  write : Bool
  addr : Nat
  len : Nat
  deriving DecidableEq, Repr

/-- Rows 1 to 4 of Table 3.4: the first check that fails (spec 03 R116). DESIGN CHOICE: an access of a master of R110 that lies
across two lines, though it be no longer than one, is served as one access, each line checked on its own (log entry 110). -/
def pantryCheck (s : State) (i : TileId) (x : PAccess) : Option PErr :=
  let unit := if x.master < 3 then 64 else 8
  let info := x.master + 512 * x.handle
  if x.addr % unit ≠ 0 ∨ x.len % unit ≠ 0 then some ⟨0x0201, x.addr, info⟩
  else if x.addr + x.len > pantryBytes then some ⟨0x0202, x.addr, info⟩
  else
    match (linesOf x.addr x.len).find? (fun l => !permitted s i x.master x.write l) with
    | some l => some ⟨0x0203, 64 * l, info + (if x.write then 8192 else 0)⟩
    | none =>
      match (linesOf x.addr x.len).find? (fun l => !bankOn s i (bankOf l)) with
      | some l => some ⟨0x0204, max x.addr (64 * l), info + 8 * bankOf l⟩
      | none => none

/-- Record a pantry error (spec 03 R123). -/
def recordPErr (s : State) (i : TileId) (e : PErr) : State :=
  if bit (s.getF (Hdr.INT_STATUS 2 0) i 0) 0 then s.countF Reg.PANTRY_ERR_LOST i 0 1
  else s.recordErr 2 0 i e.code e.i0 e.i1

/-- Does a hazard leave a byte undefined (spec 03 R132, 02 R588, 06 R247, R254)? -/
def Hazard.covers (h : Hazard) (a : Nat) : Bool := decide (h.first ≤ a) && decide (a < h.first + h.count)

/-- Does a hazard reach into `[a, a + n)`? -/
def Hazard.meets (h : Hazard) (a n : Nat) : Bool := decide (h.first < a + n) && decide (a < h.first + h.count)

/-- Are two units the same reader of what they leave undefined? The gather engine and the marver each run their work in its
order, and read as defined what their own work is still to write (spec 06 R247, R251). DEDUCED for the marver (log entry
97). -/
def HazardBy.sameUnit : HazardBy → HazardBy → Bool
  | .gstat _, .gstat _ => true
  | .marver _, .marver _ => true
  | a, b => a == b

/-- The hazards that another reader than `own` meets in `[a, a + n)`. -/
def Pantry.hazardsFor (p : Pantry) (own : Option HazardBy) (a n : Nat) : List Hazard :=
  p.hazards.filter (fun h => h.meets a n && !(match own with
    | some o => h.by_.sameUnit o
    | none => false))

/-- Cut the bytes `[lo, hi)`, which have been written, out of a range of lost bytes. -/
def Hazard.cut (lo hi : Nat) (h : Hazard) : List Hazard :=
  if h.by_ != .lost then [h]
  else
    let a := h.first
    let b := h.first + h.count
    (if a < min b lo then [{ h with first := a, count := min b lo - a }] else []) ++
      (if max a hi < b then [{ h with first := max a hi, count := b - max a hi }] else [])

/-- The bytes at `[a, a + n)`, whatever ECC and permission say; undefined bytes read free bytes. -/
def pantryBytesAt (s : State) (i : TileId) (own : Option HazardBy) (a n : Nat) : List Byte :=
  let p := (s.tile i).pantry
  let hs := p.hazardsFor own a n
  if hs.isEmpty then Memory.readN p.mem a n
  else (List.range n).map (fun k =>
    if hs.any (·.covers (a + k)) then Config.freeByte s.free (a + k) else Memory.read p.mem (a + k))

/-- Words of `[a, a + n)` in a list of word addresses. -/
def wordsIn (ws : List Nat) (a n : Nat) : List Nat := ws.filter (fun w => decide (a < w + 8) && decide (w < a + n))

/-- A read that passed rows 1 to 4: row 6, the ECC (spec 03 R109, R124), and the data. -/
def pantryRead (s : State) (i : TileId) (own : Option HazardBy) (x : PAccess) : State × Option Nat × List Byte :=
  let p := (s.tile i).pantry
  match wordsIn p.double x.addr x.len with
  | w :: _ =>
    (recordPErr (s.countF Reg.PANTRY_ECC_UNCORRECTABLE i 0 1) i
      ⟨0x0205, w, x.master + 512 * x.handle + 8 * bankOf (w / 64)⟩, some 0x0205, [])
  | [] =>
    let n := (wordsIn p.single x.addr x.len).length
    let d := pantryBytesAt s i own x.addr x.len
    let s := if n = 0 then s else s.countF Reg.PANTRY_ECC_CORRECTED i 0 n
    (if (p.hazardsFor own x.addr x.len).isEmpty then s else s.useFree, none, d)

/-- A checked read of the pantry: the new state, the error code if it was refused, and the bytes. -/
def pantryLoad (s : State) (i : TileId) (own : Option HazardBy) (x : PAccess) : State × Option Nat × List Byte :=
  match pantryCheck s i x with
  | some e => (recordPErr s i e, some e.code, [])
  | none => pantryRead s i own x

/-- The pantry with bytes written: whole words get good check bits, and the bytes are defined again. -/
def Pantry.put (p : Pantry) (a : Nat) (d : List Byte) : Pantry :=
  let n := d.length
  let inside := fun (w : Nat) => decide (a ≤ w) && decide (w + 8 ≤ a + n)
  { p with
    mem := Memory.writeL p.mem a d
    single := p.single.filter (fun w => !inside w)
    double := p.double.filter (fun w => !inside w)
    hazards := p.hazards.flatMap (Hazard.cut a (a + n)) }

/-- Does drain staging hold a line at device time `now` (spec 05 R222)? -/
def Staged.holds (g : Staged) (now line : Nat) : Bool :=
  decide (now < g.until_) && decide (g.addr / 64 ≤ line) && decide (line < (g.addr + g.old.length + 63) / 64)

/-- Lines of `[a, a + n)` that drain staging holds for a stream other than `own` (spec 05 R223). -/
def Tile.stagedLines (t : Tile) (now : Nat) (own : Option Nat) (a n : Nat) : List Nat :=
  (linesOf a n).filter (fun l => t.arrays.staging.any (fun g => some g.stream != own && g.holds now l))

/-- A queued marver descriptor after a write to some lines (spec 06 R254). -/
def MvDesc.touch (ls : List Nat) (d : MvDesc) : MvDesc := { d with touched := d.touched ++ ls }

/-- A tile whose pantry bytes are written at device time `now`, by drain stream `own` or by anyone else: lines that drain
staging still holds for another writer are lost (spec 05 R223), and marver descriptors since their ISSUE know of the write
(06 R254). DESIGN CHOICE: R223 names writes of other masters; for a store, a descriptor or another drain stream, which act as
the same master, the spec states no order with staging, and the line is lost too (log entry 98). -/
def Tile.putBytes (t : Tile) (now : Nat) (own : Option Nat) (a : Nat) (d : List Byte) : Tile :=
  let p := t.pantry.put a d
  { t with
    pantry := { p with
      hazards := p.hazards ++
        (t.stagedLines now own a d.length).map (fun l => { first := 64 * l, count := 64, by_ := .lost }) }
    marver := t.marver.map (MvDesc.touch (linesOf a d.length)) }

/-- Write bytes to a pantry that the checks have let pass. -/
def State.putPantry (s : State) (i : TileId) (a : Nat) (d : List Byte) : State :=
  s.modTile i (·.putBytes s.now none a d)

/-- A checked write to the pantry. -/
def pantryStore (s : State) (i : TileId) (master handle addr : Nat) (d : List Byte) : State × Option Nat :=
  match pantryCheck s i { master := master, handle := handle, write := true, addr := addr, len := d.length } with
  | some e => (recordPErr s i e, some e.code)
  | none => (s.putPantry i addr d, none)

/-- Mark bytes as undefined. -/
def State.addHazard (s : State) (i : TileId) (h : Hazard) : State :=
  if h.count = 0 then s
  else s.modTile i (fun t => { t with pantry := { t.pantry with hazards := t.pantry.hazards ++ [h] } })

/-- The bytes that one unit kept undefined are done: they hold what they hold. -/
def State.dropHazards (s : State) (i : TileId) (b : HazardBy) : State :=
  s.modTile i (fun t => { t with pantry := { t.pantry with hazards := t.pantry.hazards.filter (·.by_ != b) } })

/-- Change the undefined bytes of every pantry. -/
def State.mapHazards (s : State) (f : List Hazard → List Hazard) : State :=
  { s with
    tiles := s.tiles.map (fun t => { t with pantry := { t.pantry with hazards := f t.pantry.hazards } }) }

/-- Does any pantry hold such a hazard? -/
def State.anyHazard (s : State) (f : Hazard → Bool) : Bool := s.tiles.toList.any (fun t => t.pantry.hazards.any f)

/-- Is a handle of a tile busy (spec 03 R128)? -/
def State.handleBusy (s : State) (x : TileId × Fin 16) : Bool := ((s.tile x.1).descs[x.2]).isSome

/-- Bytes in common of two ranges. -/
def Hazard.meet (h k : Hazard) : Nat := min (h.first + h.count) (k.first + k.count) - max h.first k.first

/-- Bytes that a new range shares with those of another handle's descriptors in flight: they are undefined also after both
complete (spec 03 R132). DESIGN CHOICE: the rule speaks of two descriptors in flight; the descriptors of one chain move one
after the other under one handle, and of two that write the same line the later stands (log entry 99). -/
def clashes (s : State) (hs : List Hazard) (n : Hazard) : List Hazard :=
  hs.filterMap (fun h =>
    match h.by_, n.by_ with
    | .desc a ha, .desc b hb =>
      if (a, ha) != (b, hb) && s.handleBusy (a, ha) && h.meet n != 0 then
        some { first := max h.first n.first, count := h.meet n, by_ := .clash (a, ha) (b, hb) }
      else none
    | _, _ => none)

/-- Mark the bytes that a descriptor will write. -/
def State.addDescHazards (s : State) (j : TileId) (hs : List Hazard) : State :=
  s.modTile j (fun t => { t with
    pantry := { t.pantry with
      hazards := t.pantry.hazards ++ hs ++ hs.flatMap (clashes s t.pantry.hazards) } })

/-- Is neither handle of a clash in flight any more? -/
def State.clashOver (s : State) (h : Hazard) : Bool :=
  match h.by_ with
  | .clash a b => !s.handleBusy a && !s.handleBusy b
  | _ => false

/-- Descriptors have completed or stopped: bytes that two of them wrote stay undefined until they are written. -/
def State.settleClashes (s : State) : State :=
  if s.anyHazard s.clashOver then s.mapHazards (·.map (fun h => if s.clashOver h then { h with by_ := .lost } else h))
  else s

/-- Stores whose visibility latency has ended by program cycle `c` reach the pantry, oldest first (spec 02 R93).
They were checked when they issued. -/
def State.landStores (s : State) (i : TileId) (c : Nat) : State :=
  let due := (s.tile i).stores.filter (fun p => decide (p.visible ≤ c))
  let s := s.modTile i (fun t => { t with stores := t.stores.filter (fun p => !decide (p.visible ≤ c)) })
  due.foldl (fun s p => s.putPantry i p.addr p.data) s

/-- Every issued store reaches the pantry. -/
def State.landAllStores (s : State) (i : TileId) : State :=
  let due := (s.tile i).stores
  due.foldl (fun s p => s.putPantry i p.addr p.data) (s.modTile i (fun t => { t with stores := [] }))

/-- Byte-lane rotate of a load: byte i of each 64-byte block comes from byte (i + r) mod 64 (spec 03 R125). -/
def rotLoad (r : Nat) (d : List Byte) : List Byte :=
  (List.range d.length).map (fun k => d.getD (k / 64 * 64 + (k % 64 + r) % 64) 0#8)

/-- Byte-lane rotate of a store: byte (i + r) mod 64 of each line comes from byte i (spec 03 R125). -/
def rotStore (r : Nat) (d : List Byte) : List Byte :=
  (List.range d.length).map (fun k => d.getD (k / 64 * 64 + (k % 64 + 64 - r % 64) % 64) 0#8)

/-- The 512 bytes of a vector register. -/
def vregBytes (v : VReg) : List Byte := v.toList.flatMap (fun w => toLe 4 w.toNat)

/-- A vector register from 512 bytes. -/
def bytesVreg (d : List Byte) : VReg :=
  Vector.ofFn (fun k : Fin 128 => BitVec.ofNat 32 (leNat ((d.drop (4 * k.val)).take 4)))

end Sys2Proof.Machine
end

