-- ==== Sys2Proof/Machine/DescOps.lean ====
section
/-! DEFINITION. Access-engine descriptors as data: their fields (spec 03 Table 3.6), and what a stop leaves of a write that
was under way (spec 02 R588). -/

namespace Sys2Proof.Machine

set_option Elab.async false

/-! Descriptors (spec 03 Table 3.6). -/

def AccDesc.word (d : AccDesc) (k : Nat) : Nat := (d.words.getD k 0#64).toNat
def AccDesc.kind (d : AccDesc) : Nat := bits (d.word 0) 3 0
def AccDesc.feed (d : AccDesc) : Nat := bits (d.word 0) 7 4
def AccDesc.rot (d : AccDesc) : Nat := bits (d.word 0) 13 8
def AccDesc.chain (d : AccDesc) : Bool := bit (d.word 0) 14
def AccDesc.needTime (d : AccDesc) : Nat := bits (d.word 0) 63 16
def AccDesc.src (d : AccDesc) : Nat := bits (d.word 1) 40 0
def AccDesc.dst (d : AccDesc) : Nat := bits (d.word 2) 40 0
def AccDesc.rowLines (d : AccDesc) : Nat := bits (d.word 3) 15 0 + 1
def AccDesc.rows (d : AccDesc) : Nat := bits (d.word 3) 31 16 + 1
def AccDesc.srcStride (d : AccDesc) : Int := (d.words.getD 4 0#64).toInt
def AccDesc.dstStride (d : AccDesc) : Int := (d.words.getD 5 0#64).toInt
def AccDesc.pattern (d : AccDesc) : List Byte := toLe 8 (d.word 6)
def AccDesc.destTile (d : AccDesc) : Nat := bits (d.word 7) 6 0
def AccDesc.next (d : AccDesc) : Nat := bits (d.word 7) 56 32
def AccDesc.rowBytes (d : AccDesc) : Nat := 64 * d.rowLines

/-- Start of source and destination row `r`, as a number of 64 bits; one outside its space fails its check. -/
def AccDesc.srcRow (d : AccDesc) (r : Nat) : Nat := ((d.src + r * d.srcStride) % 2 ^ 64).toNat
def AccDesc.dstRow (d : AccDesc) (r : Nat) : Nat := ((d.dst + r * d.dstStride) % 2 ^ 64).toNat

/-- Apply the descriptor's rotate to every line of a row (spec 03 R126). A FILL rotates its pattern in the same way. DESIGN CHOICE
(log entry 100). -/
def AccDesc.rotRow (d : AccDesc) (x : List Byte) : List Byte := rotLoad d.rot x

/-! What a stop leaves. -/

/-- One write of bytes that a stop met: it has been done, or the bytes keep what they held; which of the two is undefined
for each line (spec 02 R588). `k` numbers the lines of the stop. -/
def halfWritten (n k a : Nat) (old new : List Byte) : List Byte :=
  (List.range new.length).map (fun j =>
    if bit (Config.freeNat n) (k + ((a + j) / 64 - a / 64)) then new.getD j 0#8 else old.getD j 0#8)

/-- A write to a pantry that a stop met; the first component counts the lines of the stop. -/
def stopWrite (j : TileId) (x : Nat × State) (a : Nat) (new : List Byte) : Nat × State :=
  let old := Memory.readN (x.2.tile j).pantry.mem a new.length
  (x.1 + new.length / 64 + 1, x.2.putPantry j a (halfWritten x.2.free x.1 a old new))

/-- The bytes that row `r` of a descriptor moves, as they stand; none where the source cannot be read (spec 03 R133). -/
def AccDesc.rowData (d : AccDesc) (s : State) (i : TileId) (r : Nat) : Option (List Byte) :=
  let a := d.srcRow r
  let n := d.rowBytes
  if d.kind = 1 then
    if (dramLines a n).any (s.dramUe.contains ·) then none else some (d.rotRow (dramRead s a n).2.2)
  else if d.kind = 5 then some (d.rotRow ((List.replicate (n / 8) d.pattern).flatten))
  else if (wordsIn (s.tile i).pantry.double a n).isEmpty then some (d.rotRow (pantryBytesAt s i none a n))
  else none

/-- Row `r` of a descriptor that a stop discards (spec 02 R588). -/
def stopRow (i : TileId) (d : AccDesc) (x : Nat × State) (r : Nat) : Nat × State :=
  match d.rowData x.2 i r with
  | none => x
  | some new =>
    let b := d.dstRow r
    if d.kind = 2 then
      let old := Memory.readN x.2.dram b new.length
      (x.1 + new.length / 64 + 1, (dramWrite x.2 b (halfWritten x.2.free x.1 b old new)).1)
    else if d.kind = 4 then
      match x.2.mapped d.destTile with
      | some j => stopWrite j x b new
      | none => x
    else stopWrite i x b new

/-- The descriptors in flight of a tile are discarded: each line that was still to be written holds its earlier value or the
value moved (spec 02 R588). Undefined source bytes are free bytes. -/
def State.stopDescs (s : State) (i : TileId) : State :=
  let ds := (s.tile i).descs.toList.filterMap id
  if ds.isEmpty then s
  else
    let x := ds.foldl (fun x d => ((List.range (d.rows - d.rowsDone)).map (· + d.rowsDone)).foldl (stopRow i d) x) (0, s)
    x.2.useFree

/-- Is a fetch of the tile late at program cycle `c`, with lines still to be moved (spec 02 R99)? -/
def AccDesc.lateAt (d : AccDesc) (c : Nat) : Bool :=
  decide (d.feed ≤ 7) && d.needTime != 0 && decide (d.needTime < c) && decide (d.rowsDone < d.rows)

/-- Late fetches that a stop meets are late fills too (spec 02 R99). -/
def State.countStopped (s : State) (i : TileId) : State :=
  (((s.tile i).descs.toList.filterMap id).filter (·.lateAt (s.tile i).cycle)).foldl
    (fun s d => s.countF Reg.TILE_LATE_FILL_EVENTS i d.feed 1) s

/-- The drains of a tile stop: each line of a result that had not drained, and each line that drain staging still holds,
holds its earlier value or the result (spec 02 R588). -/
def State.stopDrains (s : State) (i : TileId) : State :=
  let a := (s.tile i).arrays
  let late := a.staging.filter (fun g => decide (s.now < g.until_))
  if late.isEmpty && a.jobs.isEmpty then s
  else
    let s := s.modTile i (fun t => { t with arrays := { t.arrays with staging := [] } })
    let x := late.reverse.foldl (fun (x : Nat × State) g => stopWrite i x g.addr g.old) (0, s)
    let ws := (a.jobs.flatMap (fun j => j.parts.flatMap (·.rows))).filter (fun w =>
      (pantryCheck s i { master := mAccess, write := true, addr := w.addr, len := w.data.length }).isNone)
    let x := ws.foldl (fun x w => stopWrite i x w.addr w.data) x
    x.2.useFree

end Sys2Proof.Machine
end

