-- ==== Sys2Proof/Machine/TileOps.lean ====
section
/-! DEFINITION. Operations on one tile: results landing in its register files, stopping a program and recording its
fault (spec 02 R68 to R70, R102, R103, R588; 05 R191; 06 R248, R255). -/

namespace Sys2Proof.Machine

set_option Elab.async false

/-! Landing of results. -/

/-- Write the bits of `mask` into each lane. -/
def maskLanes (old mask val : VReg) : VReg :=
  Vector.ofFn (fun k : Fin 128 => (old[k] &&& ~~~mask[k]) ||| (val[k] &&& mask[k]))

/-- A result lands (spec 02 R69, R70). P0 reads as all ones and writes to it are ignored (spec 02 R58). Writing a
register clears its parity error. -/
def Tile.land (t : Tile) : Dest → Tile
  | .v r mask val =>
    { t with v := t.v.set r.toFin (maskLanes t.v[r.toFin] mask val), badV := t.badV.filter (· != r.toNat) }
  | .s r val => { t with sreg := t.sreg.set r.toFin val, badS := t.badS.filter (· != r.toNat) }
  | .p r mask val =>
    if r = 0#3 then t
    else { t with
      p := t.p.set r.toFin ((t.p[r.toFin] &&& ~~~mask) ||| (val &&& mask)), badP := t.badP.filter (· != r.toNat) }

/-- One bundle has issued: every result in flight comes one bundle nearer, and those that are due land, the earlier
issued first and within a bundle vector, access, message, control (spec 02 R70). -/
def Tile.advance (t : Tile) : Tile :=
  let fl := t.inflight.map (fun p => { p with left := p.left - 1 })
  let t := { t with inflight := fl.filter (fun p => p.left != 0) }
  (fl.filter (fun p => p.left == 0)).foldl (fun t p => t.land p.dst) t

/-- Every result in flight lands, in issue order (HALT, spec 02 R67). DESIGN CHOICE: the spec does not say what becomes of
results still in flight at a HALT; they land when the tile halts (log entry 101). -/
def Tile.landAll (t : Tile) : Tile :=
  t.inflight.foldl (fun t p => t.land p.dst) { t with inflight := [] }

/-- The NUM_STATUS bits set by results that land with the next bundle. -/
def Tile.dueNum (t : Tile) : BitVec 4 :=
  (t.inflight.filter (fun p => p.left ≤ 1)).foldl (fun n p => n ||| p.num) 0#4

/-- Set sticky bits of NUM_STATUS (spec 04 R168, R190): NAN_PRODUCED, INF_PRODUCED, INVALID_CONVERT, INT_SAT. -/
def State.setNum (s : State) (i : TileId) (n : BitVec 4) : State :=
  let s := if n[0] then s.setF Reg.TILE_NAN_PRODUCED i 0 1 else s
  let s := if n[1] then s.setF Reg.TILE_INF_PRODUCED i 0 1 else s
  let s := if n[2] then s.setF Reg.TILE_INVALID_CONVERT i 0 1 else s
  if n[3] then s.setF Reg.TILE_INT_SAT i 0 1 else s

/-! Stopping. -/

/-- Does a hazard stay after a stop of tile `i`, and how (spec 02 R588, 06 R248, R255)? The lines of a GSTAT or of a marver
descriptor in progress stay undefined until they are written; those of a GSTAT or descriptor that had not begun are as they
were; those of the tile's descriptors hold what they hold. -/
def Tile.hazardAfterStop (t : Tile) (h : Hazard) : Option Hazard :=
  match h.by_ with
  | .gstat id =>
    if t.gather.any (fun g => g.id = id && (g.attached || (g.direct && some g.id == t.gather.head?.map (·.id)))) then
      some { h with by_ := .lost }
    else none
  | .marver id => if t.marver.any (fun d => d.id = id && d.running) then some { h with by_ := .lost } else none
  | _ => some h

/-- The decoupled engines of a tile at a stop (spec 02 R588; 06 R248, R255): the arrays, the gather engine, the marver and the
access engine drop their work. A marver that was running releases the arrays later. -/
def Tile.dropEngines (t : Tile) : Tile :=
  { t with
    arrays := { t.arrays with queue := [], jobs := [] }
    gather := []
    marver := []
    releasing := t.releasing || t.marver.any (·.running)
    descs := Vector.replicate 16 none
    pantry := { t.pantry with hazards := t.pantry.hazards.filterMap t.hazardAfterStop } }

/-- Bytes that a handle of tile `i` kept undefined. -/
def Hazard.ofTile (i : TileId) (h : Hazard) : Bool :=
  match h.by_ with
  | .desc j _ => j == i
  | _ => false

/-- The descriptors of tile `i` have ended: no handle of it keeps a byte of any pantry undefined. -/
def State.dropDescHazards (s : State) (i : TileId) : State :=
  if s.anyHazard (·.ofTile i) then s.mapHazards (·.filter (fun h => !h.ofTile i)) else s

/-- A program stops (spec 02 R588): results in flight are discarded, issued stores stay issued, the engines drop
their work. -/
def State.stopTile (s : State) (i : TileId) : State :=
  let s := (((s.landAllStores i).countStopped i).stopDescs i).stopDrains i
  let s := (s.dropDescHazards i).modTile i (fun t =>
    { t.dropEngines with
      inflight := [], bundle := [], hdr := 0#3, stall := none, branch := none, brShadow := 0, loops := [],
      halting := false, timedOut := false, comp0 := none })
  s.settleClashes

/-- A tile fault (spec 02 R102): the code, the bundle index and the detail are recorded, the program stops and the
tile reports FAULTED. A tile that runs no program records PC and takes no START until SOFT_RESET. A tile that has
already faulted changes nothing. -/
def State.tileFault (s : State) (i : TileId) (code info1 : Nat) : State :=
  let t := s.tile i
  if t.pstate = .faulted then s
  else
    let s := s.recordErr 1 0 i code t.pc info1
    let s := if t.active then s.stopTile i else s
    s.modTile i (fun t => { t with pstate := .faulted })

/-- EXTERNAL_STOP with the code of another block (spec 02 R103). Only a running program stops. -/
def State.externalStop (s : State) (i : TileId) (code : Nat) : State :=
  if (s.tile i).active then s.tileFault i 0x010D (code % 65536) else s

/-- The arrays as a START or a MODE leaves them: no format recorded, every accumulator +0 (spec 05 R191, R231). -/
def Arrays.clear (a : Arrays) : Arrays :=
  { a with
    a := ArrayState.reset, b := ArrayState.reset, lastA := none, lastB := none,
    fmtA := Vector.replicate 2 none, fmtB := Vector.replicate 2 none }

/-! Lane tests and register reads. -/

/-- The guard test of a lane (spec 02 R58). -/
def guardLane (t : Tile) (g : BitVec 4) (lane : Fin 128) : Bool :=
  (t.p[(g.extractLsb' 0 3).toFin])[lane] != g[3]

/-- The guard test of a slot other than the vector slot: lane 0 (spec 02 R59). -/
def guardSlot (t : Tile) (g : BitVec 4) : Bool := guardLane t g 0

def Tile.vr (t : Tile) (r : BitVec 6) : VReg := t.v[r.toFin]
def Tile.sr (t : Tile) (r : BitVec 5) : Word64 := t.sreg[r.toFin]

end Sys2Proof.Machine
end

