-- ==== Sys2Proof/Machine/Operands.lean ====
section
/-! DEFINITION. Operand forms of the bundle slots: which encodings are reserved, which formats a unit refuses, which
registers a slot reads, its sources and its stream sets (spec 02 R57 to R64, R586, R587; 04 R150 to R152, R172, R180;
05 R195 to R209; 06 R242, R250). -/

namespace Sys2Proof.Machine

set_option Elab.async false

/-! The vector slot. -/

/-- Does the operation read RND (spec 02 Table 2.25)? -/
def VecOp.readsRnd : VecOp → Bool
  | .add | .sub | .mul | .fma | .exp | .log | .rcp | .rsqrt | .cvt | .rsum => true
  | _ => false

/-- Transcendental operations, which hold their unit for 4 cycles (spec 02 R71). -/
def VecOp.isTrans : VecOp → Bool
  | .exp | .log | .rcp | .rsqrt => true
  | _ => false

/-- Comparisons, which write P[PD] (spec 02 Table 2.3, class 0b011). -/
def VecOp.isCmp : VecOp → Bool
  | .eq | .ne | .lt | .le | .gt | .ge | .unord | .ieq | .ine | .ilt | .ile | .iltu | .ileu => true
  | _ => false

def VecOp.readsA : VecOp → Bool
  | .bcast | .iota => false
  | _ => true

def VecOp.readsB : VecOp → Bool
  | .add | .sub | .mul | .fma | .min | .max | .iadd | .isub | .and | .or | .xor => true
  | op => op.isCmp

def VecOp.readsC : VecOp → Bool
  | .fma | .sel => true
  | _ => false

/-- Result latency in issued bundles (spec 02 Table 2.9). -/
def VecOp.latency : VecOp → Nat
  | .add | .sub | .mul | .fma => 4
  | .exp | .log => 16
  | .rcp | .rsqrt => 14
  | .cvt | .perm | .rot => 3
  | .rsum | .rmax | .rmin => 8
  | _ => 2

/-- Fields of IMM16 of CVT (spec 04 Table 4.6). -/
def cvtSrc (f : VecF) : Nat := (f.imm.extractLsb' 0 4).toNat
def cvtDst (f : VecF) : Nat := (f.imm.extractLsb' 4 4).toNat
def cvtPart (f : VecF) : Nat := (f.imm.extractLsb' 8 3).toNat
/-- The stored format of a CVT: the one of the two codes that is not FP32. -/
def cvtFmt (f : VecF) : Nat := if cvtSrc f = 2 then cvtDst f else cvtSrc f

/-- Is the IMM16 of CVT an illegal encoding (spec 04 R151, R172)? -/
def cvtIllegal (f : VecF) : Bool :=
  f.imm.extractLsb' 11 5 != 0#5 || (cvtSrc f == 2) == (cvtDst f == 2) || !fmtVector (cvtFmt f) ||
    decide (cvtPart f ≥ 32 / fmtBits (cvtFmt f))

/-- Does a vector slot hold a reserved encoding or a non-zero reserved field (spec 02 R57, R586; 04 R171, R180;
Table 4.8)? -/
def vecIllegal (legacy : Bool) (op : VecOp) (f : VecF) : Bool :=
  f.rsv || f.rnd == 3#2 || (!op.isCmp && f.pd != 0#3) ||
    (op.readsRnd && f.rnd == 2#2 && (legacy || op.isTrans || op == .rsum || f.ss[0] || f.vbs)) ||
    (match op with
     | .cvt => cvtIllegal f
     | .shl | .shr | .sra => f.imm.extractLsb' 5 11 != 0#11
     | .perm => f.imm.extractLsb' 14 2 != 0#2
     | .rot => f.imm.extractLsb' 7 9 != 0#9
     | _ => false)

/-- Does a CVT name a format that legacy mode excludes (spec 04 R151, Table 4.8)? -/
def vecUnsupported (legacy : Bool) (op : VecOp) (f : VecF) : Bool := op == .cvt && legacy && !fmtLegacy (cvtFmt f)

/-! The array slot. -/

/-- Streams in an operand's set (spec 05 Table 5.4). -/
def setSize (c : Nat) : Nat :=
  match c with
  | 0 | 1 | 11 => 2
  | 2 | 12 => 4
  | _ => 1

/-- Is a set that begins at stream `st` reserved (spec 05 R201)? -/
def setIllegal (st b : Nat) : Bool := st % b != 0 || decide (st + b > 8)

/-- The other half of the streams: the set that begins at `st xor 4` (spec 05 Table 5.3). -/
def otherSet (st : Nat) : Nat := if st < 4 then st + 4 else st - 4

/-- Streams of a drain set: 1, 2 or 4 from WIDTH (spec 05 Table 5.5). -/
def drainWidth (cfg : BitVec 6) : Nat := 2 ^ (cfg.extractLsb' 4 2).toNat

/-- The pass plan of a pair of operand formats (spec 04 R152, 05 Table 5.7); `none` for a pair the array does not
accept. -/
def passPlan (x w : Nat) : Option Nat :=
  if !fmtArray x || !fmtArray w then none
  else if x = 12 ∧ w = 12 then some 3
  else if x = 12 ∨ w = 12 then none
  else if x = 2 ∨ w = 2 then some 2
  else if x = 1 ∨ w = 1 then some 1
  else some 0

/-- Reserved encodings of an array slot that do not depend on the state of the arrays (spec 02 R57, Table 2.5;
05 R196, R198, R200, R201, R208; 06 R242). -/
def arrIllegal (op : ArrOp) (f : ArrF) : Bool :=
  let noOperands := f.fmtX == 0#4 && f.fmtW == 0#4 && f.feed == 0#3 && f.drainSt == 0#3 && f.kgrp == 0#12 && f.acc == 0#2
  let acfg (feedFree drainFree : Bool) : Bool :=
    f.fmtX == 0#4 && f.fmtW == 0#4 && f.acc == 0#2 && (feedFree || f.feed == 0#3) && (drainFree || f.drainSt == 0#3)
  f.rsv != 0#6 || decide (f.acc.toNat > 1) || (op != .gstat && f.sel == 0#2) ||
    !(match op with
      | .mode => f.sel == 3#2 && decide (f.pass.toNat ≤ 1) && noOperands
      | .drain => f.pass == 0#4 && noOperands
      | .wload => f.fmtX == 0#4 && f.drainSt == 0#3 && f.pass == 0#4 && f.acc == 0#2 && decide (f.kgrp.toNat ≤ 3) &&
          !fmtReserved f.fmtW.toNat && !setIllegal f.feed.toNat (setSize f.fmtW.toNat)
      | .mm => !fmtReserved f.fmtX.toNat && !fmtReserved f.fmtW.toNat && decide (f.pass.toNat ≤ 3) &&
          !setIllegal f.feed.toNat (setSize f.fmtX.toNat)
      | .gstat => f.sel == 0#2 && f.fmtW == 0#4 && f.drainSt == 0#3 && f.kgrp.extractLsb' 4 8 == 0#8 &&
          (if f.pass = 0#4 then f.fmtX == 0#4 else f.pass == 1#4 && f.feed == 0#3 && fmtGather f.fmtX.toNat)
      | .bindFeed => acfg true false && f.sel == 3#2 && f.kgrp.extractLsb' 4 8 == 0#8
      | .bindDrain => acfg false true && f.sel == 3#2 && f.kgrp.extractLsb' 4 8 == 0#8
      | .drainCfg => acfg false false && f.kgrp.extractLsb' 6 6 == 0#6 && !f.kgrp[3] && f.kgrp.extractLsb' 0 2 != 3#2 &&
          f.kgrp.extractLsb' 4 2 != 3#2 && !(f.kgrp.extractLsb' 0 2 == 0#2 && f.kgrp.extractLsb' 4 2 == 0#2)
      | .resetWalk => acfg false false && f.sel == 3#2 && f.kgrp.extractLsb' 4 8 == 0#8)

/-- The dataflow of an MM (spec 05 Table 5.2). -/
inductive Flow where
  | stationary | outer | paired
  deriving DecidableEq, Repr

def mmFlow (backward : Bool) (sel : BitVec 2) : Flow :=
  if backward && sel == 2#2 then .outer else if backward && sel == 3#2 then .paired else .stationary

/-- Reserved encodings of an MM that depend on the mode and the drain configurations in force (spec 05 R196, R201,
R209). -/
def mmIllegal (backward : Bool) (cfgA cfgB : BitVec 6) (f : ArrF) : Bool :=
  let fl := mmFlow backward f.sel
  let da := f.drainSt.toNat
  let db := if f.sel = 3#2 then otherSet da else da
  (fl != .outer && decide (f.kgrp.toNat > 3)) ||
    (fl != .stationary && setIllegal (otherSet f.feed.toNat) (setSize f.fmtW.toNat)) ||
    (f.sel[0] && setIllegal da (drainWidth cfgA)) || (f.sel[1] && setIllegal db (drainWidth cfgB))

/-! The other slots. -/

def accIllegal (op : AccOp) (f : AccF) : Bool :=
  f.rsv != 0#4 || ((op == .dgo || op == .dwait) && f.vr.extractLsb' 4 2 != 0#2)

/-- Reserved encodings of a message slot (spec 02 R63, Table 2.7). -/
def msgIllegal (op : MsgOp) (f : MsgF) : Bool :=
  f.rsv != 0#4 || (op != .dpoll && f.pd != 0#3) || (op != .send && f.dest != 0#7) ||
    (op == .send && decide (f.dest.toNat ≥ 112)) ||
    (op != .dpoll && decide (f.vr.toNat + f.nm1.toNat > 63))

def CtlOp.isPset : CtlOp → Bool
  | .psetEq | .psetNe | .psetLt | .psetLe | .psetGt | .psetGe | .psetLtu | .psetGeu => true
  | _ => false

/-- Reserved encodings of a control slot (spec 02 R587, Table 2.8; 06 R250, Table 6.2). -/
def ctlIllegal (op : CtlOp) (f : CtlF) : Bool :=
  ((op == .br || op == .loop) && f.imm.extractLsb' 13 8 != 0#8) || (op.isPset && f.sd.extractLsb' 3 2 != 0#2) ||
    ((op == .issue || op == .mstat || op == .gstatq) && (f.sb != 0#5 || f.imm != 0#21)) ||
    (op == .issue && f.sd != 0#5)

/-- The bundle index in IMM21 of BR and LOOP (spec 02 Table 2.8). -/
def ctlIndex (f : CtlF) : Nat := (f.imm.extractLsb' 0 13).toNat

/-! A slot as such. -/

/-- The slot number in SLOT_EN order (spec 02 Table 2.2). -/
def SlotOp.slot : SlotOp → Nat
  | .vec _ _ => 0
  | .arr _ _ => 1
  | .acc _ _ _ => 2
  | .msg _ _ => 3
  | .ctl _ _ => 4
  | .bad n => n

/-- Is the slot a reserved encoding, whatever the state of the tile's engines (spec 02 R57)? -/
def SlotOp.illegal (legacy : Bool) : SlotOp → Bool
  | .vec op f => vecIllegal legacy op f
  | .arr op f => arrIllegal op f
  | .acc op f _ => accIllegal op f
  | .msg op f => msgIllegal op f
  | .ctl op f => ctlIllegal op f
  | .bad _ => true

/-- The guard field of a slot (spec 02 R58). -/
def SlotOp.guard : SlotOp → BitVec 4
  | .vec _ f => f.guard
  | .arr _ f => f.guard
  | .acc _ f _ => f.guard
  | .msg _ f => f.guard
  | .ctl _ f => f.guard
  | .bad _ => 0#4

/-- Does the slot act, as its guard has it (spec 02 R59)? A vector slot tests lane by lane. -/
def SlotOp.acts (t : Tile) (o : SlotOp) : Bool :=
  match o with
  | .vec _ _ => true
  | o => guardSlot t o.guard

/-! Registers read, for parity (spec 02 R68). -/

def vecReads (op : VecOp) (f : VecF) : List Nat × List Nat :=
  let sr := op.readsRnd && f.rnd == 2#2
  ((if op.readsA then [f.va.toNat] else []) ++ (if op.readsB && !f.vbs then [f.vb.toNat] else []) ++
      (if op.readsC then [f.vc.toNat] else []) ++ (if op == .cvt && cvtSrc f == 2 then [f.vd.toNat] else []),
    (if op == .bcast || (op.readsB && f.vbs) || sr then [f.ss.toNat] else []) ++ (if sr then [f.ss.toNat + 1] else []))

def CtlOp.readsA : CtlOp → Bool
  | .li | .br | .time | .halt | .mstat | .gstatq => false
  | _ => true
def CtlOp.readsB : CtlOp → Bool
  | .add | .sub | .and | .or | .xor | .shl | .shr | .sra | .smul => true
  | op => op.isPset

/-- The vector and scalar registers that a slot reads when it acts. -/
def SlotOp.reads : SlotOp → List Nat × List Nat
  | .vec op f => vecReads op f
  | .arr _ _ => ([], [])
  | .acc op f _ => (if op == .st then [f.vr.toNat] else [],
      if op == .ld || op == .st || op == .dgo then [f.base.toNat] else [])
  | .msg op f =>
    (if op == .send || op == .sendr then (List.range (f.nm1.toNat + 1)).map (· + f.vr.toNat) else [],
      if op == .send || op == .sendr || op == .recvt then [f.sx.toNat] else [])
  | .ctl op f => ([], (if op.readsA then [f.sa.toNat] else []) ++ (if op.readsB then [f.sb.toNat] else []))
  | .bad _ => ([], [])

/-- The first register with a parity error that a bundle reads, as ERR_INFO1 of REGFILE_UNCORRECTABLE has it:
register number and file (spec 02 R68, Table 2.15). -/
def parityHit (t : Tile) (ops : List SlotOp) : Option Nat :=
  let guards := (ops.map (fun o => (o.guard.extractLsb' 0 3).toNat)).filter (· != 0)
  let acting := ops.filter (·.acts t)
  match guards.find? (t.badP.contains ·) with
  | some r => some (r + 2 * 256)
  | none =>
    match (acting.flatMap (·.reads.1)).find? (t.badV.contains ·) with
    | some r => some r
    | none =>
      match (acting.flatMap (·.reads.2)).find? (t.badS.contains ·) with
      | some r => some (r + 256)
      | none => none

end Sys2Proof.Machine
end

