-- ==== Sys2Proof/Machine/ArrayOps.lean ====
section
/-! DEFINITION. The twin arrays: walks and streams, stationary slots, the two dataflows, drains (spec 05 R191 to R238;
04 R153, R156, R160). -/

namespace Sys2Proof.Machine

set_option Elab.async false

/-! Walks (spec 05 R202, R203, Table 5.13). -/

/-- Rows of a walk before its position wraps: C0 × C1 × C2. -/
def walkTotal (s : State) (i : TileId) (w : Nat) : Nat :=
  (s.getF Reg.TILE_WALK_C0_M1 i w + 1) * (s.getF Reg.TILE_WALK_C1_M1 i w + 1) * (s.getF Reg.TILE_WALK_C2_M1 i w + 1)

/-- A signed 26-bit stride in lines. -/
def strideVal (x : Nat) : Int := (BitVec.ofNat 26 x).toInt

/-- The byte address of row `p` of walk `w`; one outside the pantry, below 0 included, fails its range check (spec 05 R202,
R238). No walk reaches 2^64. -/
def walkAddr (s : State) (i : TileId) (w p : Nat) : Nat :=
  let c0 := s.getF Reg.TILE_WALK_C0_M1 i w + 1
  let c1 := s.getF Reg.TILE_WALK_C1_M1 i w + 1
  let c2 := s.getF Reg.TILE_WALK_C2_M1 i w + 1
  let a : Int := s.getF Reg.TILE_WALK_BASE i w +
    (p % c0 : Nat) * strideVal (s.getF Reg.TILE_WALK_STRIDE0 i w) +
    (p / c0 % c1 : Nat) * strideVal (s.getF Reg.TILE_WALK_STRIDE1 i w) +
    (p / (c0 * c1) % c2 : Nat) * strideVal (s.getF Reg.TILE_WALK_STRIDE2 i w)
  ((64 * a) % 2 ^ 64).toNat

/-- Advance a walk by `n` rows (spec 05 R202). -/
def State.walkStep (s : State) (i : TileId) (w n : Nat) : State :=
  s.setF Reg.TILE_WALK_POS i w ((s.getF Reg.TILE_WALK_POS i w + n) % walkTotal s i w)

/-! Elements of a row. -/

/-- Bytes of a row of 128 elements (spec 05 Table 5.4). -/
def rowBytes (c : Nat) : Nat := 16 * fmtBits c

/-- The element codes of a row (spec 04 R153): 128 of them, or 256 BF16 codes of a CBF16 row. -/
def rowCodes (c : Nat) (d : List Byte) : List Nat :=
  match fmtBits c with
  | 4 => d.flatMap (fun b => [b.toNat % 16, b.toNat / 16])
  | 8 => d.map (·.toNat)
  | 16 => (List.range (d.length / 2)).map (fun k => leNat ((d.drop (2 * k)).take 2))
  | _ =>
    if c = 12 then (List.range (d.length / 2)).map (fun k => leNat ((d.drop (2 * k)).take 2))
    else (List.range (d.length / 4)).map (fun k => leNat ((d.drop (4 * k)).take 4))

/-- Decode a row with the scale bytes of its four MX blocks. -/
def decodeRow (c : Nat) (scales : List Nat) (d : List Byte) : List Opnd :=
  (rowCodes c d).mapIdx (fun j x => decodeOpnd c x (scales.getD (j / 32) 127))

/-- A row of +0 (spec 05 R204). -/
def zeroRow (c : Nat) : List Opnd := List.replicate (if c = 12 then 256 else 128) Opnd.zero

/-- Rows read so far, or the error that stopped the reading. -/
structure Rows where
  s : State
  err : Option Nat
  rows : List (List Opnd)

/-- Read row `p` of walk `w` in format `c` as master `master` (spec 05 R201, R205, R206; 03 R116). -/
def readRow (i : TileId) (c w master : Nat) (own : Option HazardBy) (r : Rows) (p : Nat) : Rows :=
  match r.err with
  | some _ => r
  | none =>
    let q := p % walkTotal r.s i w
    let x := pantryLoad r.s i own { master := master, write := false, addr := walkAddr r.s i w q, len := rowBytes c }
    match x.2.1 with
    | some e => { r with s := x.1, err := some e }
    | none =>
      if c = 10 ∨ c = 11 then
        let sa := 64 * (r.s.getF Reg.TILE_WALK_SCALE_BASE i w + q / 16)
        let y := pantryLoad x.1 i own { master := master, write := false, addr := sa, len := 64 }
        match y.2.1 with
        | some e => { r with s := y.1, err := some e }
        | none =>
          let sc := (List.range 4).map (fun k => (y.2.2.getD (4 * (q % 16) + k) 0#8).toNat)
          { r with s := y.1, rows := r.rows ++ [decodeRow c sc x.2.2] }
      else { r with s := x.1, rows := r.rows ++ [decodeRow c [] x.2.2] }

/-- Take `n` rows of an operand from the stream set that begins at `feed` (spec 05 R201 to R207); the walk moves on by the
rows read. -/
def takeRows (s : State) (i : TileId) (feed c n : Nat) : Rows :=
  let w := s.getF Reg.TILE_FEED_BIND i feed
  if w = 15 then { s := s, err := none, rows := List.replicate n (zeroRow c) }
  else
    let pos := s.getF Reg.TILE_WALK_POS i w
    let r := (List.range n).foldl (fun r k => readRow i c w mAccess none r (pos + k)) { s := s, err := none, rows := [] }
    { r with s := r.s.walkStep i w r.rows.length }

/-! Products of the two dataflows. -/

/-- The products of an output column in stationary dataflow: one streamed row against one stationary column
(spec 05, Storage and dataflows). `xs` and `ws` are the first K elements. -/
def stationaryProds (plan : Nat) (xs ws : List Opnd) : List Prod := List.zipWith (mulOpnd plan) xs ws

/-- The products of the real part (`im = false`) or the imaginary part of a complex output (spec 05 R218), from
interleaved real and imaginary operands. -/
def complexProds (im : Bool) : List Opnd → List Opnd → List Prod
  | xr :: xi :: xs, wr :: wi :: ws =>
    (if im then [mulOpnd 0 xr wi, mulOpnd 0 xi wr] else [mulOpnd 0 xr wr, (mulOpnd 0 xi wi).neg]) ++ complexProds im xs ws
  | _, _ => []

/-- Column `n` of a list of rows; for a complex operand the pair of columns, interleaved. -/
def column (complex : Bool) (rows : List (List Opnd)) (n : Nat) : List Opnd :=
  if complex then rows.flatMap (fun r => [r.getD (2 * n) .zero, r.getD (2 * n + 1) .zero])
  else rows.map (fun r => r.getD n .zero)

/-- One row of accumulators after an MM: `left` is the reduction of one operand (a streamed row, or a column of U),
`cols` the reductions of the other, one per output column. -/
def accRow (legacy intPath complex : Bool) (plan : Nat) (acc : List Word) (left : List Opnd) (cols : List (List Opnd)) :
    List (Word × BitVec 4) :=
  if complex then
    (List.range 256).map (fun n =>
      dotElem legacy false (acc.getD n 0#32) (complexProds (n % 2 == 1) left (cols.getD (n / 2) [])))
  else
    (List.range 128).map (fun n =>
      dotElem legacy intPath (acc.getD n 0#32) (stationaryProds plan left (cols.getD n [])))

/-- The accumulators of one array after an MM, with the NUM_STATUS bits of integer saturation. `lefts` and `cols`
are the reductions of rows and columns. -/
def accumulate (legacy intPath complex : Bool) (plan : Nat) (cont : Bool) (acc : Vector (Vector Word 256) 128)
    (lefts cols : List (List Opnd)) : Vector (Vector Word 256) 128 × BitVec 4 :=
  let rows := (List.range 128).map (fun k =>
    accRow legacy intPath complex plan (if cont then (acc.toList.getD k (Vector.replicate 256 0#32)).toList else [])
      (lefts.getD k []) cols)
  (Vector.ofFn (fun k : Fin 128 => Vector.ofFn (fun n : Fin 256 => ((rows.getD k.val []).getD n.val (0#32, 0#4)).1)),
    rows.foldl (fun b r => r.foldl (fun b x => b ||| x.2) b) 0#4)

/-- The stationary operand as K rows, rows not loaded reading +0 (spec 05 R198). -/
def slotRows (sl : StatSlot) (c k : Nat) : List (List Opnd) := (List.range k).map (fun j => sl.rows.getD j (zeroRow c))

/-- Of a list of reductions, those whose element `k` is not a finite zero; of a complex reduction, the real and imaginary parts
of element `k` that are not. -/
def nonZero (complex : Bool) (xs : List (List Opnd)) (k : Nat) : Nat :=
  let one (j : Nat) : Nat := xs.foldl (fun n r => if (r.getD j .zero).isZero then n else n + 1) 0
  if complex then one (2 * k) + one (2 * k + 1) else one k

/-- Gated products of an MM (spec 05 R233): those with a finite zero operand or beyond K, of `total` cell products; `lefts` and
`cols` are the reductions. A complex element has four products (spec 05 R218, Table 5.7). -/
def gatedCount (complex : Bool) (total : Nat) (lefts cols : List (List Opnd)) : Nat :=
  let depth := (lefts.headD []).length / (if complex then 2 else 1)
  total - (List.range depth).foldl (fun n k => n + nonZero complex lefts k * nonZero complex cols k) 0

/-! Drains (spec 05 R209, R210, R222). -/

/-- One result element in the drain format: its bytes and NUM_STATUS bits. -/
def drainElem (fmt : Nat) (intPath : Bool) (x : Word) : List Byte × BitVec 4 :=
  if intPath then (toLe 4 x.toNat, 0#4)
  else
    match fmt with
    | 1 => let c := fmtBF16.round .rne (fp32 x); (toLe 2 c, numOfCode 0 c)
    | 2 => let c := fmtFP16.round .rne (fp32 x); (toLe 2 c, numOfCode 1 c)
    | _ => (toLe 4 x.toNat, numOf32 x)

/-- The rows that a drain writes: output rows, or with XPOSE output columns; a complex element is a pair. -/
def drainRows (complex xpose : Bool) (acc : Vector (Vector Word 256) 128) : List (List Word) :=
  let get (r n : Nat) : Word := ((acc.toList.getD r (Vector.replicate 256 0#32)).toList).getD n 0#32
  (List.range 128).map (fun p =>
    if complex then
      (List.range 128).flatMap (fun q => if xpose then [get q (2 * p), get q (2 * p + 1)] else [get p (2 * q), get p (2 * q + 1)])
    else (List.range 128).map (fun q => if xpose then get q p else get p q))

/-- Bytes of a drain row: 128 elements, or 128 complex pairs (spec 05 R210, R218). -/
def drainRowBytes (cfg : BitVec 6) (intPath complex : Bool) : Nat :=
  let e := if !intPath && ((cfg.extractLsb' 0 2) == 1#2 || (cfg.extractLsb' 0 2) == 2#2) then 2 else 4
  (if complex then 256 else 128) * e

/-- The results of one array on their way to the pantry: the rows of its drain job and the bits of its elements.
Walk 15 discards the results (spec 05 R204, R585). -/
def drainArray (s : State) (i : TileId) (cfg : BitVec 6) (st : Nat) (intPath complex : Bool)
    (acc : Vector (Vector Word 256) 128) : State × List DrainPart × BitVec 4 :=
  let fmt := (cfg.extractLsb' 0 2).toNat
  let rows := (drainRows complex cfg[2] acc).map (·.map (drainElem fmt intPath))
  let num := rows.foldl (fun b r => r.foldl (fun b x => b ||| x.2) b) 0#4
  let w := s.getF Reg.TILE_DRAIN_BIND i st
  if w = 15 then (s, [], num)
  else
    let pos := s.getF Reg.TILE_WALK_POS i w
    (s.walkStep i w 128,
      [{ first := st, width := drainWidth cfg,
         rows := rows.mapIdx (fun p r =>
          { addr := walkAddr s i w ((pos + p) % walkTotal s i w), data := r.flatMap (·.1) }) }], num)

/-! Drain staging and its reservations (spec 05 Table 5.1, R222 to R225). -/

/-- Bytes of drain staging of one stream (spec 05 Table 5.1). -/
abbrev stagingBytes : Nat := 32768

/-- A slice of a result: a drain stream and the bytes that it carries. -/
abbrev DrainSlice := Nat × Nat

/-- The slices that a result of 128 rows of `row` bytes has on a drain set (spec 05 R225). -/
def slicesOf (first width row : Nat) : List DrainSlice := (List.range width).map (fun k => (first + k, 128 * row / width))

/-- The slices of an undrained part. -/
def DrainPart.slices (p : DrainPart) : List DrainSlice :=
  (List.range p.width).map (fun k => (p.first + k, p.rows.foldl (fun n r => n + r.data.length / p.width) 0))

def DrainJob.slices (j : DrainJob) : List DrainSlice := j.parts.flatMap (·.slices)

/-- Bytes of a stream's staging in use at device time `now`: lines not yet written, and the slices reserved for `jobs`. -/
def Arrays.stagingUsed (a : Arrays) (now : Nat) (jobs : List DrainJob) (stream : Nat) : Nat :=
  (a.staging.filter (fun g => g.stream == stream && decide (now < g.until_))).foldl (fun n g => n + g.old.length) 0 +
    ((jobs.flatMap (·.slices)).filter (fun x => x.1 == stream)).foldl (fun n x => n + x.2) 0

/-- Is the reservation of a slice granted behind the jobs before it (spec 05 R225)? A slice larger than the staging of a
stream, which only a complex result has, waits until that staging is empty. DESIGN CHOICE (log entry 98). -/
def Arrays.granted (a : Arrays) (now : Nat) (before : List DrainJob) (x : DrainSlice) : Bool :=
  let used := a.stagingUsed now before x.1
  used == 0 || decide (used + x.2 ≤ stagingBytes)

/-- Does staging hold nothing of a result that is not reserved: are all slices of a job granted? -/
def Arrays.jobGranted (a : Arrays) (now : Nat) (j : DrainJob) : Bool :=
  j.slices.all (a.granted now (a.jobs.takeWhile (fun k => k.id != j.id)))

/-- Lines of a stream enter staging (spec 05 R222): each is written to the pantry in the order they entered, one line a cycle
of `n` × 25 MHz, `wait` cycles of arbitration included. `t0` is when the stream's staging is next free to write. -/
def stageRows (now n stream wait : Nat) (t0 : Nat) (p : Pantry) (ws : List LineWrite) : List Staged :=
  (ws.foldl (fun (x : Nat × List Staged) w =>
    let k := x.1 + (w.data.length + 63) / 64
    (k, x.2 ++ [{ stream := stream, addr := w.addr, old := Memory.readN p.mem w.addr w.data.length,
                  until_ := max now t0 + ((k + wait) * 40 + n - 1) / n }])) (0, [])).2

/-- The part of stream `first + k` in each row of a result (spec 05 R209). -/
def DrainPart.streamRows (p : DrainPart) (k : Nat) : List LineWrite :=
  p.rows.map (fun r =>
    let n := r.data.length / p.width
    { addr := r.addr + k * n, data := (r.data.drop (k * n)).take n })

/-! Commands as they start. -/

def Arrays.get (a : Arrays) (b : Bool) : ArrayState := if b then a.b else a.a
def Arrays.set (a : Arrays) (b : Bool) (x : ArrayState) : Arrays := if b then { a with b := x } else { a with a := x }

def State.modArrays (s : State) (i : TileId) (f : Arrays → Arrays) : State :=
  s.modTile i (fun t => { t with arrays := f t.arrays })

/-- Fill a stationary slot (spec 05 R198, Table 5.12 A_SLOT and B_SLOT). -/
def loadSlot (s : State) (i : TileId) (b : Bool) (slot feed c rows : Nat) : State × Option Nat :=
  let r := takeRows s i feed c rows
  match r.err with
  | some e => (r.s, some e)
  | none =>
    ((r.s.setF (if b then Reg.TILE_B_SLOT else Reg.TILE_A_SLOT) i 0 slot).modArrays i (fun a => a.set b { a.get b with
      slots := (a.get b).slots.set (slot % 2) { fmt := some c, rows := r.rows } (Nat.mod_lt _ (by decide)) }), none)

/-- WLOAD (spec 05 R198). -/
def startWload (s : State) (i : TileId) (c : ArrCmd) : State × Option Nat :=
  let f := c.f.fmtW.toNat
  let n := 32 * (c.f.kgrp.toNat + 1)
  let feed := c.f.feed.toNat
  let x := if c.f.sel[0] then loadSlot s i false c.slotA feed f n else (s, none)
  match x.2 with
  | some e => (x.1, some e)
  | none =>
    if c.f.sel[1] then loadSlot x.1 i true c.slotB (if c.f.sel[0] then otherSet feed else feed) f n else x

/-- Give the rows of an operand to a GSTAT attached to this MM (spec 06 R244). -/
def tapRows (s : State) (i : TileId) (mm feed : Nat) (rows : List (List Opnd)) : State :=
  s.modTile i (fun t => { t with
    gather := t.gather.map (fun g => if g.mm = some mm ∧ g.feed = feed then { g with rows := some rows } else g) })

/-- One array's part of an MM: new accumulators, drain, and bits. `total` is the number of products of each output element
whether gated or not. -/
def runArray (s : State) (i : TileId) (b : Bool) (plan : Nat) (intPath complex cont : Bool) (lefts cols : List (List Opnd))
    (total : Nat) (cfg : BitVec 6) (st : Nat) : State × List DrainPart × BitVec 4 :=
  let legacy := s.flag Reg.TILE_LEGACY i 0
  let a := ((s.tile i).arrays.get b)
  let r := accumulate legacy intPath complex plan cont a.acc lefts cols
  let s := s.modArrays i (fun x =>
    { x.set b { x.get b with acc := r.1 } with
      zeroGated := x.zeroGated + gatedCount complex (128 * 128 * total) lefts cols })
  let d := drainArray s i cfg st intPath complex r.1
  (d.1, d.2.1, d.2.2 ||| r.2)

/-- MM: intake of its rows, the products, and the drain job (spec 05 R195, R196, R204, R210, R226; Table 5.3). A
paired MM takes the format of array A's stationary operand from its slot: FMT_W is the format of U. -/
def startMm (s : State) (i : TileId) (c : ArrCmd) : State × Option Nat :=
  let f := c.f
  let backward := s.flag Reg.TILE_ARRAY_MODE i 0
  let plan := f.pass.toNat
  let x := f.fmtX.toNat
  let w := f.fmtW.toNat
  let complex := x == 12
  let intPath := fmtIsInt x && fmtIsInt w
  let feed := f.feed.toNat
  let cont := f.acc == 1#2
  let k := 32 * (f.kgrp.toNat + 1)
  let per := if complex then 2 else 1
  let mul := if complex then 4 else 1
  let flow := mmFlow backward f.sel
  let nrows := if flow == .outer then k else 128
  let rx := takeRows s i feed x nrows
  match rx.err with
  | some e => (rx.s, some e)
  | none =>
    let ru := if flow == .stationary then { rx with rows := [] } else takeRows rx.s i (otherSet feed) w nrows
    match ru.err with
    | some e => (ru.s, some e)
    | none =>
      let s := tapRows (tapRows ru.s i c.id feed rx.rows) i c.id (otherSet feed) ru.rows
      let lefts := rx.rows.map (·.take (per * k))
      let stat (s : State) (b : Bool) (slot st : Nat) (cfg : BitVec 6) (cont : Bool) :=
        let sl := ((s.tile i).arrays.get b).slots.toList.getD slot StatSlot.empty
        let c := if flow == .paired then sl.fmt.getD w else w
        let rows := slotRows sl c k
        runArray s i b plan (fmtIsInt x && fmtIsInt c) complex cont lefts ((List.range 128).map (column complex rows)) (128 * mul) cfg st
      let outer (s : State) (st : Nat) :=
        runArray s i true plan intPath complex cont ((List.range 128).map (column complex ru.rows))
          ((List.range 128).map (column complex rx.rows)) (nrows * mul) c.cfgB st
      let st := f.drainSt.toNat
      let ra := if f.sel[0] then stat s false c.slotA st c.cfgA (cont && flow == .stationary) else (s, [], 0#4)
      let stB := if f.sel[0] then otherSet st else st
      let rb := if f.sel[1] then
          (if flow == .stationary then stat ra.1 true c.slotB stB c.cfgB cont else outer ra.1 stB)
        else (ra.1, [], 0#4)
      (rb.1.modArrays i (fun a => { a with
        jobs := a.jobs ++ [{ id := c.id, sel := f.sel, parts := ra.2.1 ++ rb.2.1, num := ra.2.2 ||| rb.2.2 }] }), none)

/-- An array command begins (spec 05 R194, R208, R209). DRAIN and MODE have no intake of their own. -/
def startCmd (s : State) (i : TileId) (c : ArrCmd) : State × Option Nat :=
  match c.op with
  | .wload => startWload s i c
  | .mm => startMm s i c
  | .bindFeed => (s.setF Reg.TILE_FEED_BIND i c.f.feed.toNat (c.f.kgrp.toNat % 16), none)
  | .bindDrain => (s.setF Reg.TILE_DRAIN_BIND i c.f.drainSt.toNat (c.f.kgrp.toNat % 16), none)
  | .resetWalk =>
    let w := c.f.kgrp.toNat % 16
    (if w = 15 then s else s.setF Reg.TILE_WALK_POS i w 0, none)
  | .drainCfg | .drain | .mode | .gstat => (s, none)

def ArrEntry.sel : ArrEntry → BitVec 2
  | .cmd c => c.f.sel
  | .marver _ => 3#2

def ArrEntry.id : ArrEntry → Nat
  | .cmd c => c.id
  | .marver id => id

/-- Entries in the queue of array A (`false`) or B (`true`): a command of both stands in both (spec 05 R193). -/
def Arrays.depth (a : Arrays) (b : Bool) : Nat :=
  (a.queue.filter (fun e => if b then e.sel[1] else e.sel[0])).length

/-- Do two selections share an array? -/
def selMeets (x y : BitVec 2) : Bool := x &&& y != 0#2

/-- The command at the front of an array's queue, if it is also at the front of every other queue it stands in
(spec 05 R193). -/
def Arrays.front (a : Arrays) (b : Bool) : Option ArrEntry :=
  match a.queue.find? (fun e => if b then e.sel[1] else e.sel[0]) with
  | none => none
  | some e =>
    match a.queue.find? (fun e' => selMeets e'.sel e.sel) with
    | some e' => if e'.id = e.id then some e else none
    | none => none

/-- Feeder streams that a command names (spec 05 R195, R198, R201). -/
def ArrCmd.feeds (backward : Bool) (c : ArrCmd) : List Nat :=
  let set (first : Nat) (fmt : Nat) : List Nat := (List.range (setSize fmt)).map (first + ·)
  match c.op with
  | .wload =>
    set c.f.feed.toNat c.f.fmtW.toNat ++ (if c.f.sel = 3#2 then set (otherSet c.f.feed.toNat) c.f.fmtW.toNat else [])
  | .mm =>
    set c.f.feed.toNat c.f.fmtX.toNat ++
      (if mmFlow backward c.f.sel = .stationary then [] else set (otherSet c.f.feed.toNat) c.f.fmtW.toNat)
  | .bindFeed => [c.f.feed.toNat]
  | _ => []

/-- Drain streams that a command names (spec 05 R195, R209). -/
def ArrCmd.drains (c : ArrCmd) : List Nat :=
  let set (first : Nat) (cfg : BitVec 6) : List Nat := (List.range (drainWidth cfg)).map (first + ·)
  let st := c.f.drainSt.toNat
  match c.op with
  | .mm =>
    (if c.f.sel[0] then set st c.cfgA else []) ++ (if c.f.sel[1] then set (if c.f.sel[0] then otherSet st else st) c.cfgB else [])
  | .bindDrain => [st]
  | _ => []

/-- Do two lists share a stream? -/
def shares (xs ys : List Nat) : Bool := xs.any (ys.contains ·)

/-- Commands that name the same stream use it in issue order, from either queue (spec 05 R207): does a command issued before
`c` that still waits name a stream of `c`? -/
def Arrays.streamTaken (a : Arrays) (backward : Bool) (c : ArrCmd) : Bool :=
  a.queue.any (fun e => match e with
    | .cmd k => decide (k.id < c.id) && (shares (k.feeds backward) (c.feeds backward) || shares k.drains c.drains)
    | .marver _ => false)

/-- The slices that an MM reserves, array A's and array B's; none where its drain set is bound to walk 15 (spec 05 R225). -/
def mmSlices (s : State) (i : TileId) (c : ArrCmd) : List DrainSlice × List DrainSlice :=
  let complex := c.f.fmtX.toNat == 12
  let intA := fmtIsInt c.f.fmtX.toNat && fmtIsInt (match mmFlow (s.flag Reg.TILE_ARRAY_MODE i 0) c.f.sel with
    | .paired => (((s.tile i).arrays.a.slots.toList.getD c.slotA StatSlot.empty).fmt.getD c.f.fmtW.toNat)
    | _ => c.f.fmtW.toNat)
  let intB := fmtIsInt c.f.fmtX.toNat && fmtIsInt c.f.fmtW.toNat
  let part (st : Nat) (cfg : BitVec 6) (int : Bool) : List DrainSlice :=
    if s.getF Reg.TILE_DRAIN_BIND i st = 15 then []
    else slicesOf st (drainWidth cfg) (drainRowBytes cfg int complex)
  let st := c.f.drainSt.toNat
  (if c.f.sel[0] then part st c.cfgA intA else [],
    if c.f.sel[1] then part (if c.f.sel[0] then otherSet st else st) c.cfgB intB else [])

/-- May an MM begin its intake (spec 05 R194, R225)? An outer product waits for all of its reservations. A stationary MM begins
as soon as some of its columns may: the columns of a stream that waits are stalled alone, and its results drain when every
reservation has been granted. -/
def mmReserved (s : State) (i : TileId) (c : ArrCmd) : Bool :=
  let a := (s.tile i).arrays
  let ok := a.granted s.now a.jobs
  let x := mmSlices s i c
  let some_ (xs : List DrainSlice) : Bool := xs.isEmpty || xs.any ok
  match mmFlow (s.flag Reg.TILE_ARRAY_MODE i 0) c.f.sel with
  | .stationary => some_ x.1 && some_ x.2
  | .outer => x.2.all ok
  | .paired => some_ x.1 && x.2.all ok

/-- Has every earlier command of the arrays in `sel` drained, when the entry `id` is next (spec 05 R224, 06 R251)? -/
def Arrays.drainedBefore (a : Arrays) (id : Nat) (sel : BitVec 2) : Bool :=
  (a.queue.takeWhile (fun e => e.id != id)).all (fun e => !selMeets e.sel sel) && a.jobs.all (fun j => !selMeets j.sel sel)

/-- Are both arrays empty (spec 05 R230)? -/
def Arrays.empty (a : Arrays) : Bool := a.queue.isEmpty && a.jobs.isEmpty

/-- Write a list of lines, up to the first that fails its check (spec 06 R247; 03 R121). -/
def writeLines (i : TileId) (master : Nat) : State × Option Nat → List LineWrite → State × Option Nat
  | x, [] => x
  | (s, some e), _ => (s, some e)
  | (s, none), w :: ws => writeLines i master (pantryStore s i master 15 w.addr w.data) ws

/-- Lines of one drain stream enter staging as ACCESS, up to the first that fails its check (spec 05 R206, R222; 03 R121);
from then on every read finds them. `wait` are the cycles that they wait at bank arbiters. -/
def stageStream (s : State) (i : TileId) (stream wait : Nat) (ws : List LineWrite) : State × Option Nat :=
  let t := s.tile i
  let t0 := (t.arrays.staging.filter (fun g => g.stream == stream)).foldl (fun n g => max n g.until_) 0
  match ws.findSome? (fun w => pantryCheck s i { master := mAccess, write := true, addr := w.addr, len := w.data.length }) with
  | some e => (recordPErr s i e, some e.code)
  | none =>
    let gs := stageRows s.now (s.clockN i) stream wait t0 t.pantry ws
    let s := s.modTile i (fun t => ws.foldl (fun t w => t.putBytes s.now (some stream) w.addr w.data) t)
    (s.modArrays i (fun a => { a with staging := a.staging.filter (fun g => decide (s.now < g.until_)) ++ gs }), none)

/-- The results of a job enter staging, stream by stream. -/
def stageJob (i : TileId) (wait : Nat → Nat) (s : State) (j : DrainJob) : State × Option Nat :=
  (j.parts.flatMap (fun p => (List.range p.width).map (fun k => (p.first + k, p.streamRows k)))).foldl
    (fun (x : State × Option Nat) y => match x.2 with
      | some _ => x
      | none => stageStream x.1 i y.1 (wait y.1) y.2) (s, none)

end Sys2Proof.Machine
end

