-- ==== Sys2Proof/Machine/MarverOps.lean ====
section
/-! DEFINITION. The marver sequencer: its descriptors and their checks, its saturating arithmetic, its algorithms, and
the outcome and status of each problem (spec 06 R250 to R284, R590). -/

namespace Sys2Proof.Machine

set_option Elab.async false

/-! The descriptor (spec 06 Table 6.3). -/

def MvDesc.word (d : MvDesc) (k : Nat) : Nat := (d.words.getD k 0#64).toNat
def MvDesc.kind (d : MvDesc) : Nat := bits (d.word 0) 3 0
def MvDesc.rootP (d : MvDesc) : Nat := if bits (d.word 0) 5 4 = 2 then 4 else 2
def MvDesc.dfp (d : MvDesc) : Bool := bit (d.word 0) 6
def MvDesc.bf16 (d : MvDesc) : Bool := bit (d.word 0) 7
def MvDesc.tri (d : MvDesc) : Bool := bit (d.word 0) 8
def MvDesc.n (d : MvDesc) : Nat := bits (d.word 0) 25 16 + 1
def MvDesc.batch (d : MvDesc) : Nat := bits (d.word 0) 47 32 + 1
def MvDesc.iterMax (d : MvDesc) : Nat := let x := bits (d.word 0) 55 48; if x = 0 then 40 else x
def MvDesc.tolExp (d : MvDesc) : Nat := let x := bits (d.word 0) 60 56; if x = 0 then 14 else x
def MvDesc.tauExp (d : MvDesc) : Nat := let x := bits (d.word 1) 6 0; if x = 0 then 20 else x
def MvDesc.m (d : MvDesc) : Nat := bits (d.word 1) 14 8 + 1
def MvDesc.lambda (d : MvDesc) : Word := BitVec.ofNat 32 (d.word 2)
def MvDesc.deadline (d : MvDesc) : Nat := d.word 3
def MvDesc.src (d : MvDesc) : Nat := bits (d.word 4) 24 0
def MvDesc.dst (d : MvDesc) : Nat := bits (d.word 5) 24 0
def MvDesc.dstAlt (d : MvDesc) : Nat := bits (d.word 6) 24 0
def MvDesc.rhs (d : MvDesc) : Nat := bits (d.word 7) 24 0
def MvDesc.work (d : MvDesc) : Nat := bits (d.word 8) 24 0
def MvDesc.status (d : MvDesc) : Nat := bits (d.word 9) 24 0
def MvDesc.srcStride (d : MvDesc) : Nat := bits (d.word 10) 31 0
def MvDesc.dstStride (d : MvDesc) : Nat := bits (d.word 10) 63 32
def MvDesc.rhsStride (d : MvDesc) : Nat := bits (d.word 11) 31 0
def MvDesc.rowBytes (d : MvDesc) : Nat := bits (d.word 12) 15 0
def MvDesc.rhsRowBytes (d : MvDesc) : Nat := bits (d.word 12) 31 16

/-- ROOT and NSINV. -/
def MvDesc.iterative (d : MvDesc) : Bool := d.kind == 1 || d.kind == 2
/-- TRSV_L, TRSV_LT and CHOLSOLVE, which have a right-hand side. -/
def MvDesc.solves (d : MvDesc) : Bool := decide (d.kind ≥ 4)
/-- The padded side w = 32 ⌈n ÷ 32⌉ (spec 06 R590). -/
def MvDesc.w (d : MvDesc) : Nat := 32 * ((d.n + 31) / 32)

/-- Size of one WORK space (spec 06 R259). -/
def MvDesc.workSpace (d : MvDesc) : Nat :=
  match d.kind with
  | 1 => 24 * d.w * d.w
  | 2 => 16 * d.w * d.w
  | 6 => 4 * d.w * d.w
  | _ => 0

/-- Size of WORK (spec 06 R259). -/
def MvDesc.workSize (d : MvDesc) : Nat := if d.w ≤ 128 ∧ d.batch ≥ 2 then 2 * d.workSpace else d.workSpace

/-- Footprints of input, output and right-hand side (spec 06 R257). -/
def MvDesc.srcFoot (d : MvDesc) : Nat :=
  if d.tri then let k := d.n / 64; k * (k + 1) / 2 * 16384 else d.n * d.rowBytes
def MvDesc.dstFoot (d : MvDesc) : Nat :=
  if d.solves then d.n * d.rhsRowBytes
  else if d.tri then let k := d.n / 64; k * (k + 1) / 2 * (if d.bf16 then 8192 else 16384)
  else d.n * d.rowBytes
def MvDesc.rhsFoot (d : MvDesc) : Nat := d.n * d.rhsRowBytes

/-- An area of the descriptor: its code (spec 06, before R284), base and length. -/
structure Area where
  code : Nat
  base : Nat
  len : Nat
  deriving DecidableEq, Repr

/-- The spans of a descriptor (spec 06 R258). -/
def MvDesc.areas (d : MvDesc) : List Area :=
  let b := d.batch - 1
  [{ code := 0, base := d.src, len := b * d.srcStride + d.srcFoot },
   { code := 1, base := d.dst, len := b * d.dstStride + d.dstFoot }] ++
  (if d.iterative then [{ code := 2, base := d.dstAlt, len := b * d.dstStride + d.dstFoot }] else []) ++
  (if d.solves then [{ code := 3, base := d.rhs, len := b * d.rhsStride + d.rhsFoot }] else []) ++
  (if d.workSize = 0 then [] else [{ code := 4, base := d.work, len := d.workSize }]) ++
  [{ code := 5, base := d.status, len := 64 * ((d.batch + 3) / 4) }, { code := 6, base := d.addr, len := 128 }]

/-- The first word with a reserved value or a value outside its range (spec 06 Tables 6.3, 6.4 row 1). -/
def MvDesc.reservedWord (d : MvDesc) : Option Nat :=
  let w := d.word
  let k := d.kind
  let p := bits (w 0) 5 4
  let it := d.iterative
  if k = 0 ∨ k > 6 ∨ (k = 1 ∧ p ≠ 1 ∧ p ≠ 2) ∨ (k ≠ 1 ∧ p ≠ 0) ∨ (it ∧ d.dfp) ∨ (!it ∧ (d.bf16 ∨ d.tri)) ∨
      bits (w 0) 15 9 ≠ 0 ∨ bits (w 0) 31 26 ≠ 0 ∨ (!it ∧ bits (w 0) 60 48 ≠ 0) ∨ bits (w 0) 63 61 ≠ 0 then some 0
  else if bits (w 1) 6 0 = 127 ∨ bit (w 1) 7 ∨ (!d.solves ∧ bits (w 1) 14 8 ≠ 0) ∨ bits (w 1) 63 15 ≠ 0 then some 1
  else if bits (w 2) 63 32 ≠ 0 then some 2
  else
    match [4, 5, 6, 7, 8, 9].find? (fun j => bits (w j) 63 25 != 0) with
    | some j => some j
    | none =>
      if !it ∧ w 6 ≠ 0 then some 6
      else if !d.solves ∧ w 7 ≠ 0 then some 7
      else if d.workSpace = 0 ∧ w 8 ≠ 0 then some 8
      else if bits (w 11) 63 32 ≠ 0 then some 11
      else if bits (w 12) 63 32 ≠ 0 then some 12
      else [13, 14, 15].find? (fun j => w j != 0)

/-- The first area whose pitch, stride or alignment fails (spec 06 Table 6.4 row 4). -/
def MvDesc.layoutFail (d : MvDesc) : Option Nat :=
  let pitch (x need : Nat) : Bool := x % 64 == 0 && decide (need ≤ x)
  let many := decide (d.batch ≥ 2)
  let stride (x foot : Nat) : Bool := x % 64 == 0 && (!many || decide (foot ≤ x))
  if d.src % 64 ≠ 0 ∨ !stride d.srcStride d.srcFoot ∨ !(if d.tri then d.rowBytes == 0 else pitch d.rowBytes (4 * d.n)) then some 0
  else if d.dst % 64 ≠ 0 ∨ !stride d.dstStride d.dstFoot then some 1
  else if d.dstAlt % 64 ≠ 0 then some 2
  else if d.rhs % 64 ≠ 0 ∨
      !(if d.solves then pitch d.rhsRowBytes (4 * d.m) && stride d.rhsStride d.rhsFoot
        else d.rhsRowBytes == 0 && d.rhsStride == 0) then some 3
  else if d.work % 64 ≠ 0 then some 4
  else if d.status % 64 ≠ 0 then some 5
  else none

/-- The first pair of spans that share a byte (spec 06 Table 6.4 row 5). -/
def firstOverlap : List Area → Option (Nat × Nat)
  | [] => none
  | a :: as =>
    match as.find? (fun b => decide (a.base < b.base + b.len) && decide (b.base < a.base + a.len)) with
    | some b => some (a.code, b.code)
    | none => firstOverlap as

/-- Rows 1 to 5 of Table 6.4: error code and ERR_INFO1 (spec 06 R260, Table 6.13). -/
def MvDesc.check (d : MvDesc) : Option (Nat × Nat) :=
  match d.reservedWord with
  | some w => some (0x0801, w)
  | none =>
    if d.n > (if d.iterative then 512 else 1024) ∨ (d.tri ∧ d.n % 64 ≠ 0) then some (0x0802, 0)
    else
      let zero := d.lambda == 0#32 || d.lambda == 0x80000000#32
      let v := fp32 d.lambda
      let ok := if d.kind = 4 ∨ d.kind = 5 then zero else !v.isNaN && !v.isInf && (!v.isNeg || zero)
      if !ok then some (0x0803, 2)
      else
        match d.layoutFail with
        | some a => some (0x0804, a)
        | none =>
          match firstOverlap d.areas with
          | some (a, b) => some (0x0805, a + 16 * b)
          | none => none

/-- Row 6: every line of every span as master SEQ (spec 06 R260): the pantry error and the area. -/
def MvDesc.pantryFail (s : State) (i : TileId) (d : MvDesc) : Option (PErr × Nat) :=
  let one (a : Area) (write : Bool) : Option PErr :=
    pantryCheck s i { master := mSeq, write := write, addr := a.base, len := (a.len + 63) / 64 * 64 }
  d.areas.findSome? (fun a =>
    let rd := if a.code = 0 ∨ a.code = 3 ∨ a.code = 4 ∨ a.code = 6 then one a false else none
    let wr := if a.code = 1 ∨ a.code = 2 ∨ a.code = 4 ∨ a.code = 5 then one a true else none
    match rd, wr with
    | some e, _ => some (e, a.code)
    | none, some e => some (e, a.code)
    | none, none => none)

/-! Saturating arithmetic (spec 06 R261 to R264). Each value carries whether anything saturated on the way. -/

/-- A matrix, as its rows. -/
abbrev Mat := Array (Array Word)

def Mat.at (a : Mat) (i j : Nat) : Word := (a.getD i #[]).getD j 0#32
def Mat.put (a : Mat) (i j : Nat) (x : Word) : Mat := a.modify i (fun r => r.setIfInBounds j x)
def Mat.build (r c : Nat) (f : Nat → Nat → Word) : Mat :=
  ((List.range r).map (fun i => ((List.range c).map (f i)).toArray)).toArray

/-- An exact value rounded once to FP32 and saturated: ew (spec 06 R262, R264). -/
def ewVal (v : Val) : Word × Bool := satFp (toFp32 .rne v)

/-- A matrix of (value, saturated) pairs as a matrix and one flag. -/
def Mat.buildSat (r c : Nat) (f : Nat → Nat → Word × Bool) : Mat × Bool :=
  let rows := (List.range r).map (fun i => (List.range c).map (f i))
  ((rows.map (fun x => (x.map (·.1)).toArray)).toArray, rows.any (fun x => x.any (·.2)))

/-- An FP32 operand of a marver product. -/
def mvOpnd (x : Word) : Opnd := opndOf 24 (fp32 x)
/-- A product of two FP32 values under the plan FP32C_6 (spec 06 R261). -/
def mvProd (a b : Word) : Prod := mulOpnd 2 (mvOpnd a) (mvOpnd b)

/-- mm(A, B) of two w × w matrices (spec 06 R261). -/
def mvMul (legacy : Bool) (w : Nat) (a b : Mat) : Mat × Bool :=
  let ra := (List.range w).map (fun i => (List.range w).map (fun k => mvOpnd (a.at i k)))
  let cb := (List.range w).map (fun j => (List.range w).map (fun k => mvOpnd (b.at k j)))
  let rows := ra.map (fun x => cb.map (fun y => dotSat legacy 0#32 (List.zipWith (mulOpnd 2) x y)))
  ((rows.map (fun r => (r.map (·.1)).toArray)).toArray, rows.any (fun r => r.any (·.2)))

/-- fro2(A): the sum of squares over i, j < n in row-major order (spec 06 R269, R590). -/
def mvFro2 (legacy : Bool) (n : Nat) (a : Mat) : Word × Bool :=
  dotSat legacy 0#32 ((List.range n).flatMap (fun i => (List.range n).map (fun j => mvProd (a.at i j) (a.at i j))))

def mvDiv (a b : Word) : Word × Bool := satFp (fpDiv .rne a b)
def mvSqrt (a : Word) : Word × Bool := satFp (fpSqrt .rne a)

/-- 2^e as FP32. -/
def pow2 (e : Int) : Word := toFp32 .rne (.fin false 1 e)

/-- |ew(a − δ)| (spec 06 R269, R270). -/
def mvDev (a : Word) (diag : Bool) : Word × Bool :=
  let x := ewVal ((fp32 a).add (.fin true (if diag then 1 else 0) 0))
  (x.1 &&& 0x7FFFFFFF#32, x.2)

/-- The measure e: the largest deviation from the identity over i, j < n. -/
def mvMeasure (n : Nat) (a : Mat) : Word × Bool :=
  (List.range n).foldl (fun m i => (List.range n).foldl (fun m j =>
    let d := mvDev (a.at i j) (i == j)
    (fpMax m.1 d.1, m.2 || d.2)) m) (0#32, false)

/-- e ≤ 2^-TOL_EXP. -/
def mvMet (d : MvDesc) (e : Word) : Bool := !fpLess (pow2 (-(d.tolExp : Int))) e

/-! Damping (spec 06 R266, R267). -/

/-- The padded matrix A' and whether its damping saturated. -/
def mvDamp (d : MvDesc) (src : List (List Word)) : Mat × Bool :=
  let a : Mat := (src.map (·.toArray)).toArray
  let lam := if d.lambda = 0x80000000#32 then 0#32 else d.lambda
  Mat.buildSat d.w d.w (fun i j =>
    if i < d.n ∧ j < d.n then
      (if i = j ∧ d.kind ≠ 4 ∧ d.kind ≠ 5 then ewVal ((fp32 (a.at i j)).add (fp32 lam)) else (a.at i j, false))
    else (0#32, false))

/-- t_τ = ew(τ × d_max) (spec 06 R267). -/
def mvTau (d : MvDesc) (a : Mat) : Word :=
  let dmax := (List.range d.n).foldl (fun m i => fpMax m (a.at i i &&& 0x7FFFFFFF#32)) 0#32
  (ewVal ((fp32 dmax).mul (.fin false 1 (-(d.tauExp : Int))))).1

/-! ROOT and NSINV. -/

/-- Bytes of an output element; a BF16 element saturates (spec 06 R264). -/
def outElem (d : MvDesc) (x : Word) : List Byte × Bool :=
  if d.bf16 then
    let c := fmtBF16.round .rne (fp32 x)
    if c % 2 ^ 15 = 0x7F80 then (toLe 2 (c - 1), true) else (toLe 2 c, false)
  else (toLe 4 x.toNat, false)

/-- Does an element that write_out writes saturate (spec 06 R264, R269)? In BLOCKTRI only i ≤ j is written. -/
def outSat (d : MvDesc) (x : Mat) : Bool :=
  (List.range d.n).any (fun i => (List.range d.n).any (fun j => (!d.tri || decide (i ≤ j)) && (outElem d (x.at i j)).2))

/-- An iteration in progress: iterate, residual matrix, iterations completed, last measure, saturation. -/
structure Iter where
  x : Mat
  m : Mat
  k : Nat
  e : Option Word
  ovf : Bool
  met : Bool

/-- ROOT before its first iteration (spec 06 R269): X, M and iterate 0. -/
def rootStart (legacy : Bool) (d : MvDesc) (a : Mat) : Iter :=
  let f2 := mvFro2 legacy d.n a
  let f := mvSqrt f2.1
  let num : Word := if d.rootP = 4 then 0x40200000#32 else 0x3FC00000#32
  let z := mvDiv num f.1
  let x1 := mvSqrt z.1
  let x0 := if d.rootP = 4 then mvSqrt x1.1 else x1
  let m := Mat.buildSat d.w d.w (fun i j => ewVal ((fp32 z.1).mul (fp32 (a.at i j))))
  let x := Mat.build d.w d.w (fun i j => if i = j ∧ i < d.n then x0.1 else 0#32)
  { x := x, m := m.1, k := 0, e := none, ovf := f2.2 || f.2 || z.2 || x1.2 || x0.2 || m.2 || outSat d x, met := false }

/-- One iteration of ROOT; its iterate is written out. -/
def rootStep (legacy : Bool) (d : MvDesc) (t : Iter) : Iter :=
  let p := d.rootP
  let lg : Int := if p = 4 then 2 else 1
  let tt := Mat.buildSat d.w d.w (fun i j =>
    let diag : Val := .fin false (if i = j ∧ i < d.n then p + 1 else 0) 0
    match diag.add (fp32 (t.m.at i j)).neg with
    | .fin n m e => ewVal (.fin n m (e - lg))
    | v => ewVal v)
  let xn := mvMul legacy d.w t.x tt.1
  let t2 := mvMul legacy d.w tt.1 tt.1
  let t4 := if p = 4 then mvMul legacy d.w t2.1 t2.1 else t2
  let mn := mvMul legacy d.w t4.1 t.m
  let e := mvMeasure d.n mn.1
  { x := xn.1, m := mn.1, k := t.k + 1, e := some e.1,
    ovf := t.ovf || tt.2 || xn.2 || t2.2 || t4.2 || mn.2 || e.2 || outSat d xn.1, met := mvMet d e.1 }

/-- Iterations of ROOT until the tolerance is met or `fuel` iterations have run. -/
def rootLoop (legacy : Bool) (d : MvDesc) : Nat → Iter → Iter
  | 0, t => t
  | fuel + 1, t => if t.met then t else rootLoop legacy d fuel (rootStep legacy d t)

/-- NSINV before its first iteration (spec 06 R270). -/
def nsStart (legacy : Bool) (d : MvDesc) (a : Mat) : Iter :=
  let f2 := mvFro2 legacy d.n a
  let f := mvSqrt f2.1
  let x0 := mvDiv 0x3F800000#32 f.1
  let x := Mat.build d.w d.w (fun i j => if i = j ∧ i < d.n then x0.1 else 0#32)
  { x := x, m := a, k := 0, e := none, ovf := f2.2 || f.2 || x0.2 || outSat d x, met := false }

/-- NSINV measures an iterate: R and e. The residual is kept in `m`. -/
def nsMeasure (legacy : Bool) (d : MvDesc) (a : Mat) (t : Iter) : Iter :=
  let r := mvMul legacy d.w a t.x
  let e := mvMeasure d.n r.1
  { t with m := r.1, e := some e.1, ovf := t.ovf || r.2 || e.2, met := mvMet d e.1 }

/-- NSINV forms the next iterate from the residual and writes it out. -/
def nsNext (legacy : Bool) (d : MvDesc) (t : Iter) : Iter :=
  let y := Mat.buildSat d.w d.w (fun i j =>
    ewVal ((Val.fin false (if i = j ∧ i < d.n then 2 else 0) 0).add (fp32 (t.m.at i j)).neg))
  let x := mvMul legacy d.w t.x y.1
  { t with x := x.1, k := t.k + 1, ovf := t.ovf || y.2 || x.2 || outSat d x.1 }

/-- NSINV until the tolerance is met or `fuel` further iterates have been formed. -/
def nsLoop (legacy : Bool) (d : MvDesc) (a : Mat) : Nat → Iter → Iter
  | 0, t => nsMeasure legacy d a t
  | fuel + 1, t =>
    let t := nsMeasure legacy d a t
    if t.met then t else nsLoop legacy d a fuel (nsNext legacy d t)

/-- NSINV stopped after `k` iterates and `ms` measures. -/
def nsUpTo (legacy : Bool) (d : MvDesc) (a : Mat) (ms : Nat) : Nat → Iter → Iter
  | 0, t => if t.k < ms then nsMeasure legacy d a t else t
  | k + 1, t => nsUpTo legacy d a ms k (nsNext legacy d (nsMeasure legacy d a t))

/-! CHOL and the solves. -/

/-- A factorisation or solve in progress: matrix, saturation, pivot flags and count, smallest pivot used. -/
structure Fact where
  l : Mat
  ovf : Bool
  pz : Bool
  pn : Bool
  pt : Bool
  pivots : Nat
  least : Option Word

/-- Classify and use a pivot (spec 06 R268). -/
def pivot (tau : Word) (f : Fact) (x : Word) : Fact × Word :=
  let v := fp32 x
  let use (f : Fact) (p : Word) : Fact :=
    { f with least := match f.least with
      | none => some p
      | some q => some (fpMin p q) }
  let rep (f : Fact) : Fact × Word := (use { f with pivots := f.pivots + 1 } tau, tau)
  if v.isZero then rep { f with pz := true }
  else if v.isNeg then rep { f with pn := true }
  else if fpLess x tau then rep { f with pt := true }
  else (use f x, x)

/-- A reciprocal or reciprocal root in FP32 (`lo` is +0) or DFP32 (spec 06 R263). -/
structure Recip where
  hi : Word
  lo : Word
  ovf : Bool

/-- lo = rne(x − hi) for x = 1/d. -/
def rcpLo (d hi : Word) : Word :=
  let rest := (Val.fin false 1 0).add ((fp32 hi).mul (fp32 d)).neg
  BitVec.ofNat 32 (fpDivV fmtFP32 .rne rest (fp32 d))

/-- lo = rne(x − hi) for x = 1/√d, d positive: the root to 200 bits, less hi. -/
def rsqrtLo (d hi : Word) : Word :=
  match fp32 d, fp32 hi with
  | .fin _ m e, .fin _ hm he =>
    let odd := e % 2 != 0
    let m' := if odd then 2 * m else m
    let e' := if odd then e - 1 else e
    let k := bitLen m' + 200
    let s := isqrt (2 ^ (2 * k) / m')
    let exact := decide (s * s * m' = 2 ^ (2 * k))
    let q : Int := -(e' / 2) - k
    let h : Int := hm * 2 ^ (he - q).toNat
    let diff : Int := s - h
    if diff ≥ 0 then BitVec.ofNat 32 (fmtFP32.round .rne (.fin false diff.toNat q) (!exact))
    else BitVec.ofNat 32 (fmtFP32.round .rne (.fin true (if exact then (-diff).toNat else (-diff).toNat - 1) q) (!exact))
  | _, _ => 0#32

def mvRcp (dfp : Bool) (d : Word) : Recip :=
  let hi := satFp (fpRcp .rne d)
  let lo := if dfp then satFp (rcpLo d hi.1) else (0#32, false)
  { hi := hi.1, lo := lo.1, ovf := hi.2 || lo.2 }

def mvRsqrt (dfp : Bool) (d : Word) : Recip :=
  let hi := satFp (fpRsqrt .rne d)
  let lo := if dfp then satFp (rsqrtLo d hi.1) else (0#32, false)
  { hi := hi.1, lo := lo.1, ovf := hi.2 || lo.2 }

/-- scale(a, r) (spec 06 R271). -/
def mvScale (dfp : Bool) (a : Word) (r : Recip) : Word × Bool :=
  if dfp then
    let t := ewVal ((fp32 a).mul (fp32 r.lo))
    let x := ewVal (((fp32 a).mul (fp32 r.hi)).add (fp32 t.1))
    (x.1, t.2 || x.2)
  else ewVal ((fp32 a).mul (fp32 r.hi))

/-- rne(a − b × c), saturated. -/
def mvFms (a b c : Word) : Word × Bool := ewVal ((fp32 a).add ((fp32 b).mul (fp32 c)).neg)

def Fact.set (f : Fact) (i j : Nat) (x : Word × Bool) : Fact := { f with l := f.l.put i j x.1, ovf := f.ovf || x.2 }

/-- Numbers from `a` up to, not including, `b`. -/
def upTo (a b : Nat) : List Nat := (List.range (b - a)).map (· + a)

/-- Column j of CHOL (spec 06 R271). -/
def cholColumn (d : MvDesc) (tau : Word) (q : Nat) (f : Fact) (j : Nat) : Fact :=
  let pv := pivot tau f (f.l.at j j)
  let f := pv.1.set j j (mvSqrt pv.2)
  let r := mvRsqrt d.dfp pv.2
  let f := { f with ovf := f.ovf || r.ovf }
  let f := (upTo (j + 1) d.n).foldl (fun f i => f.set i j (mvScale d.dfp (f.l.at i j) r)) f
  (upTo (j + 1) (min (32 * q + 32) d.n)).foldl (fun f c =>
    (upTo c d.n).foldl (fun f i => f.set i c (mvFms (f.l.at i c) (f.l.at i j) (f.l.at c j))) f) f

/-- The trailing update after panel q. -/
def cholTrailing (legacy : Bool) (d : MvDesc) (q : Nat) (f : Fact) : Fact :=
  (upTo (32 * q + 32) d.n).foldl (fun f c =>
    (upTo c d.n).foldl (fun f i =>
      f.set i c (dotSat legacy (f.l.at i c)
        ((upTo (32 * q) (32 * q + 32)).map (fun m => (mvProd (f.l.at i m) (f.l.at c m)).neg)))) f) f

/-- CHOL up to, not including, column `stop` (spec 06 R271). -/
def cholUpTo (legacy : Bool) (d : MvDesc) (tau : Word) (a : Mat) (stop : Nat) : Fact :=
  let f0 : Fact := { l := a, ovf := false, pz := false, pn := false, pt := false, pivots := 0, least := none }
  (List.range (d.w / 32)).foldl (fun f q =>
    let f := (upTo (32 * q) (min (min (32 * q + 32) d.n) stop)).foldl (cholColumn d tau q) f
    if 32 * q + 32 ≤ stop then cholTrailing legacy d q f else f) f0

/-- L with +0 above the diagonal. -/
def lowerOf (n : Nat) (l : Mat) : Mat := Mat.build n n (fun i j => if i < j then 0#32 else l.at i j)

/-- Row i of TRSV_L (spec 06 R272). `pv` says whether the pivot is checked (not in CHOLSOLVE, spec 06 R273). -/
def solveLRow (legacy : Bool) (d : MvDesc) (pv : Bool) (tau : Word) (l b : Mat) (f : Fact) (i : Nat) : Fact :=
  let p := if pv then pivot tau f (l.at i i) else (f, l.at i i)
  let r := mvRcp d.dfp p.2
  let f := { p.1 with ovf := p.1.ovf || r.ovf }
  let b0 := 32 * (i / 32)
  (List.range d.m).foldl (fun f j =>
    let y0 := if b0 = 0 then (b.at i j, false)
      else dotSat legacy (b.at i j) ((List.range b0).map (fun k => (mvProd (l.at i k) (f.l.at k j)).neg))
    let y := (upTo b0 i).foldl (fun y k => let z := mvFms y.1 (l.at i k) (f.l.at k j); (z.1, y.2 || z.2)) y0
    let z := mvScale d.dfp y.1 r
    f.set i j (z.1, y.2 || z.2)) f

/-- Row i of TRSV_LT (spec 06 R272). -/
def solveLTRow (legacy : Bool) (d : MvDesc) (pv : Bool) (tau : Word) (l b : Mat) (f : Fact) (i : Nat) : Fact :=
  let p := if pv then pivot tau f (l.at i i) else (f, l.at i i)
  let r := mvRcp d.dfp p.2
  let f := { p.1 with ovf := p.1.ovf || r.ovf }
  let e0 := 32 * (i / 32) + 32
  (List.range d.m).foldl (fun f j =>
    let y0 := if e0 ≥ d.w then (b.at i j, false)
      else dotSat legacy (b.at i j) ((upTo e0 d.w).map (fun k => (mvProd (l.at k i) (f.l.at k j)).neg))
    let y := (upTo (i + 1) (min e0 d.n)).foldl (fun y k => let z := mvFms y.1 (l.at k i) (f.l.at k j); (z.1, y.2 || z.2)) y0
    let z := mvScale d.dfp y.1 r
    f.set i j (z.1, y.2 || z.2)) f

/-- A solve from a fresh record, over `rows` in order. -/
def solveWith (step : Fact → Nat → Fact) (d : MvDesc) (f : Fact) (rows : List Nat) : Fact :=
  rows.foldl step { f with l := Mat.build d.w d.m (fun _ _ => 0#32) }

/-! Problems. -/

/-- Base of problem `p`'s input, output slot and right-hand side. -/
def MvDesc.srcAt (d : MvDesc) (p : Nat) : Nat := d.src + p * d.srcStride
def MvDesc.outAt (d : MvDesc) (p : Nat) (alt : Bool) : Nat := (if alt then d.dstAlt else d.dst) + p * d.dstStride
def MvDesc.rhsAt (d : MvDesc) (p : Nat) : Nat := d.rhs + p * d.rhsStride

/-- The lines of a matrix written into an output slot in the descriptor's layout (spec 06 R257, R269). -/
def outLines (d : MvDesc) (base cols pitch : Nat) (a : Mat) : List LineWrite :=
  let row (i c0 c1 : Nat) : List Byte := (upTo c0 c1).flatMap (fun j => (outElem d (a.at i j)).1)
  let sz := if d.bf16 then 2 else 4
  if d.tri then
    let k := d.n / 64
    (List.range d.n).flatMap (fun i => (upTo (i / 64) k).map (fun b =>
        let c0 := max i (64 * b)
        { addr := base + 4096 * sz * (i / 64 * k - i / 64 * (i / 64 - 1) / 2 + (b - i / 64)) + sz * (64 * (i % 64) + c0 - 64 * b),
          data := row i c0 (64 * b + 64) }))
  else (List.range d.n).map (fun i => { addr := base + i * pitch, data := row i 0 cols })

/-- The outcome without flags of a problem that has RESULT `r` and ends in PHASE `ph`. -/
def MvOutcome.base (r ph : Nat) : MvOutcome :=
  { result := r, stale := false, invalid := false, pivZero := false, pivNeg := false, pivTiny := false, overflow := false,
    outSlot := false, phase := ph, iter := 0, column := 0, pivots := 0, measure := 0#32 }

/-- The bytes of a range, in whole lines. -/
def lineRange (a n : Nat) : Nat × Nat := (64 * (a / 64), 64 * ((a + n + 63) / 64 - a / 64))

/-- The outcome of an iterative problem that runs to its end, or that its deadline stops after some iterates and measures
(spec 06 R269, R270, R274 to R276). -/
def iterProblem (legacy : Bool) (d : MvDesc) (p : Nat) (a : Mat) (at_ : MvAt) : MvOutcome × List LineWrite × List (Nat × Nat) :=
  let stop := match at_ with
    | .inProgress _ k _ ms _ => some (k, ms)
    | _ => none
  let t : Iter :=
    if d.kind = 1 then
      match stop with
      | some (k, ms) =>
        let t := rootLoop legacy d k (rootStart legacy d a)
        if ms > k then { t with e := (rootStep legacy d t).e } else t
      | none => rootLoop legacy d d.iterMax (rootStart legacy d a)
    else
      match stop with
      | some (k, ms) => nsUpTo legacy d a ms k (nsStart legacy d a)
      | none => nsLoop legacy d a d.iterMax (nsStart legacy d a)
  let slot := t.k % 2 == 1
  let early := match at_ with
    | .inProgress ph _ _ _ _ => decide (ph < 2)
    | _ => false
  let pos := match at_ with
    | .inProgress ph k c _ _ => (ph, k, c)
    | _ => (7, t.k, 0)
  ({ MvOutcome.base (if t.ovf then 3 else if t.met then 0 else 2) pos.1 with
      stale := !early && !t.met, invalid := early, overflow := t.ovf, outSlot := !early && slot, iter := pos.2.1,
      column := pos.2.2, measure := t.e.getD 0x7F7FFFFF#32 },
    if early then [] else outLines d (d.outAt p slot) d.n d.rowBytes t.x,
    (if early then [lineRange (d.outAt p false) d.dstFoot] else []) ++ [lineRange (d.outAt p (early || !slot)) d.dstFoot])

/-- The outcome of CHOL, TRSV_L, TRSV_LT or CHOLSOLVE (spec 06 R271 to R276). ITER of a problem that ran to its end is its
last panel, or the last block of its last solve: TRSV_LT ends with block 0. DEDUCED from Table 6.5 (log entry 102). -/
def factProblem (legacy : Bool) (d : MvDesc) (p : Nat) (a b : Mat) (tau : Word) (fresh : Nat) (at_ : MvAt) :
    MvOutcome × List LineWrite × List (Nat × Nat) :=
  let f0 : Fact := { l := #[], ovf := false, pz := false, pn := false, pt := false, pivots := 0, least := none }
  let rowsL := List.range d.n
  let rowsLT := (List.range d.n).reverse
  let stop := match at_ with
    | .inProgress ph _ c _ _ => some (ph, c)
    | _ => none
  let chol (n : Nat) : Fact := cholUpTo legacy d tau a n
  let low (f : Fact) : Mat := lowerOf d.n f.l
  let full : Fact :=
    match d.kind with
    | 3 => let f := chol d.n; { f with l := low f }
    | 4 => solveWith (solveLRow legacy d true tau a b) d f0 rowsL
    | 5 => solveWith (solveLTRow legacy d true tau a b) d f0 rowsLT
    | _ =>
      let f := chol d.n
      let l := low f
      let y := solveWith (solveLRow legacy d false tau l b) d f rowsL
      solveWith (solveLTRow legacy d false tau l y.l) d y rowsLT
  let part : Fact :=
    match stop with
    | none => full
    | some (ph, c) =>
      if ph ≤ 1 then f0
      else if ph ≤ 4 then chol (if ph = 3 then c else d.n)
      else if d.kind = 4 then solveWith (solveLRow legacy d true tau a b) d f0 (rowsL.takeWhile (· < c))
      else if d.kind = 5 then solveWith (solveLTRow legacy d true tau a b) d f0 (rowsLT.takeWhile (· > c))
      else chol d.n
  let miss := stop.isSome
  let cols := if d.kind = 3 then d.n else d.m
  let pitch := if d.kind = 3 then d.rowBytes else d.rhsRowBytes
  let pos := match at_ with
    | .inProgress ph k c _ _ => (ph, k, c)
    | _ => (7, if d.kind = 3 ∨ d.kind = 4 then d.w / 32 - 1 else 0, 0)
  let measure := match part.least with
    | some x => x
    | none => BitVec.ofNat 32 (Config.freeNat fresh)
  ({ MvOutcome.base (if part.ovf then 3 else 0) pos.1 with
      invalid := miss, pivZero := part.pz, pivNeg := part.pn, pivTiny := part.pt, overflow := part.ovf, iter := pos.2.1,
      column := pos.2.2, pivots := part.pivots, measure := measure },
    if miss then [] else outLines d (d.outAt p false) cols pitch full.l,
    if miss then [lineRange (d.outAt p false) d.dstFoot] else [])

/-- A problem that ends with DEADLINE_MISS (spec 06 R275, R276): RESULT is DEADLINE_MISS; CHOL and the solves give no output. -/
def MvProblem.missed (d : MvDesc) (p : Nat) (q : MvProblem) : MvProblem :=
  if d.iterative then { q with out := { q.out with result := 1 } }
  else { q with out := { q.out with result := 1, invalid := true }, lines := [], undef := [lineRange (d.outAt p false) d.dstFoot] }

/-- The outcome of problem `p` (spec 06 R265, R267, R275): non-finite input and singular matrices first. A problem that its
deadline stops while it is in progress ends with DEADLINE_MISS (R280); one whose input is not finite or that is singular has
then not completed iterate 0. -/
def mvProblem (legacy : Bool) (d : MvDesc) (p : Nat) (src rhs : List (List Word)) (fresh : Nat) (at_ : MvAt) : MvProblem :=
  let bad := src.any (·.any (fun x => isNaN32 x || isInf32 x)) || rhs.any (·.any (fun x => isNaN32 x || isInf32 x))
  let mk (r : MvOutcome × List LineWrite × List (Nat × Nat)) : MvProblem :=
    { src := src, rhs := rhs, out := r.1, lines := r.2.1, undef := r.2.2 }
  let outs := [lineRange (d.outAt p false) d.dstFoot] ++
    (if d.iterative then [lineRange (d.outAt p true) d.dstFoot] else [])
  let untried : Word := if d.iterative then 0x7F7FFFFF#32 else BitVec.ofNat 32 (Config.freeNat fresh)
  let halted : Option (Nat × Nat × Nat) := match at_ with
    | .inProgress ph k c _ _ => some (ph, k, c)
    | _ => none
  if at_ = .notStarted then mk ({ MvOutcome.base 1 0 with invalid := true, measure := untried }, [], [])
  else
    let a := mvDamp d src
    let tau := mvTau d a.1
    match bad || (fp32 tau).isZero, halted with
    | true, some (ph, k, c) =>
      mk ({ MvOutcome.base 1 ph with invalid := true, iter := k, column := c, overflow := !bad && a.2, measure := untried }, [], outs)
    | true, none =>
      if bad then mk ({ MvOutcome.base 5 1 with invalid := true }, [], outs)
      else
        mk ({ MvOutcome.base 4 1 with overflow := a.2 },
          [{ addr := d.outAt p false, data := List.replicate d.dstFoot 0#8 }], outs.tail)
    | false, _ =>
      let b : Mat := (rhs.map (·.toArray)).toArray
      let r := if d.iterative then iterProblem legacy d p a.1 at_ else factProblem legacy d p a.1 b tau fresh at_
      let o := { r.1 with overflow := r.1.overflow || a.2, result := if a.2 then 3 else r.1.result }
      if halted.isSome then (mk (o, r.2.1, r.2.2)).missed d p else mk (o, r.2.1, r.2.2)

/-- A problem whose descriptor or input someone wrote after the ISSUE (spec 06 R254): its results are undefined. Its status is
free, and its output lines are undefined. -/
def MvProblem.spoilt (d : MvDesc) (p fresh : Nat) (q : MvProblem) : MvProblem :=
  let x := Config.freeNat fresh
  { q with
    out :=
      { result := x % 6, stale := bit x 9, invalid := bit x 10, pivZero := bit x 11, pivNeg := bit x 12, pivTiny := bit x 13,
        overflow := bit x 14, outSlot := bit x 15, phase := bits x 18 16, iter := bits x 47 32, column := bits x 63 48,
        pivots := bits x 95 64, measure := BitVec.ofNat 32 (bits x 127 96) }
    lines := []
    undef := [lineRange (d.outAt p false) d.dstFoot] ++ (if d.iterative then [lineRange (d.outAt p true) d.dstFoot] else []) }

/-- The 16 bytes of a status word (spec 06 Table 6.5). -/
def statusBytes (o : MvOutcome) : List Byte :=
  toLe 4 (o.result + 2 ^ 8 + 2 ^ 9 * b2n o.stale + 2 ^ 10 * b2n o.invalid + 2 ^ 11 * b2n o.pivZero + 2 ^ 12 * b2n o.pivNeg +
    2 ^ 13 * b2n o.pivTiny + 2 ^ 14 * b2n o.overflow + 2 ^ 15 * b2n o.outSlot + 2 ^ 16 * o.phase) ++
  toLe 2 o.iter ++ toLe 2 o.column ++ toLe 4 (min o.pivots (2 ^ 32 - 1)) ++ toLe 4 o.measure.toNat

/-! Reading inputs. -/

/-- Words of one row of a DENSE matrix. -/
def wordsOf (d : List Byte) (n : Nat) : List Word := (List.range n).map (fun k => BitVec.ofNat 32 (leNat ((d.drop (4 * k)).take 4)))

/-- Read the rows of a DENSE matrix as master SEQ. -/
def readDense (s : State) (i : TileId) (base n cols pitch : Nat) : State × Option Nat × List (List Word) :=
  (List.range n).foldl (fun r k =>
    match r.2.1 with
    | some _ => r
    | none =>
      let x := pantryLoad r.1 i (some (.marver 0)) { master := mSeq, write := false, addr := base + k * pitch, len := (4 * cols + 63) / 64 * 64 }
      match x.2.1 with
      | some e => (x.1, some e, r.2.2)
      | none => (x.1, none, r.2.2 ++ [wordsOf x.2.2 cols])) (s, none, [])

/-- Read a BLOCKTRI statistic as the symmetric matrix whose upper triangle it stores (spec 06 R239, R257). -/
def readTri (s : State) (i : TileId) (base n : Nat) : State × Option Nat × List (List Word) :=
  let k := n / 64
  let x := pantryLoad s i (some (.marver 0)) { master := mSeq, write := false, addr := base, len := k * (k + 1) / 2 * 16384 }
  match x.2.1 with
  | some e => (x.1, some e, [])
  | none =>
    let ws := (wordsOf x.2.2 (k * (k + 1) / 2 * 4096)).toArray
    let at_ (r c : Nat) : Word :=
      let a := r / 64
      ws.getD (4096 * (a * k - a * (a - 1) / 2 + (c / 64 - a)) + 64 * (r % 64) + c % 64) 0#32
    (x.1, none, (List.range n).map (fun r => (List.range n).map (fun c => if r ≤ c then at_ r c else at_ c r)))

/-- Read the inputs of every problem and compute its outcome. -/
def readProblems (s : State) (i : TileId) (d : MvDesc) : State × Option Nat × List MvProblem :=
  let legacy := s.flag Reg.TILE_LEGACY i 0
  (List.range d.batch).foldl (fun r p =>
    match r.2.1 with
    | some _ => r
    | none =>
      let a := if d.tri then readTri r.1 i (d.srcAt p) d.n else readDense r.1 i (d.srcAt p) d.n d.n d.rowBytes
      match a.2.1 with
      | some e => (a.1, some e, r.2.2)
      | none =>
        let b := if d.solves then readDense a.1 i (d.rhsAt p) d.n d.m d.rhsRowBytes else (a.1, none, [])
        match b.2.1 with
        | some e => (b.1, some e, r.2.2)
        | none => (b.1.useFree, none, r.2.2 ++ [mvProblem legacy d p a.2.2 b.2.2 b.1.free (.ended 0)])) (s, none, [])

/-- A marver error: recorded on page 5, and the program stops (spec 06 R260). -/
def marverError (s : State) (i : TileId) (addr code info1 : Nat) : State :=
  (s.recordErr 1 5 i code addr info1).externalStop i code

/-- The lines of the output, workspace and status areas of a descriptor (spec 06 R254). -/
def MvDesc.hazards (d : MvDesc) : List Hazard :=
  (d.areas.filter (fun a => a.code == 1 || a.code == 2 || a.code == 4 || a.code == 5)).map (fun a =>
    let r := lineRange a.base a.len
    { first := r.1, count := r.2, by_ := .marver d.id })

/-- Output, workspace and status lines are undefined for others until MV_DONE counts the descriptor (spec 06 R254). -/
def markMarver (s : State) (i : TileId) (d : MvDesc) : State := d.hazards.foldl (fun s h => s.addHazard i h) s

/-- The sixteen words of a descriptor. -/
def mvWords (d : List Byte) : List Word64 := (List.range 16).map (fun j => BitVec.ofNat 64 (leNat ((d.drop (8 * j)).take 8)))

/-- Lines of the descriptor and of its inputs that problem `p` reads. -/
def MvDesc.inputLines (d : MvDesc) (p : Nat) : List Nat :=
  linesOf (d.srcAt p) d.srcFoot ++ (if d.solves then linesOf (d.rhsAt p) d.rhsFoot else [])

/-- Have results of problem `p` become undefined by a write since the ISSUE (spec 06 R254)? -/
def MvDesc.spoils (d : MvDesc) (p : Nat) : Bool :=
  !d.touched.isEmpty && (linesOf d.addr 128 ++ d.inputLines p).any (d.touched.contains ·)

/-- Queue a descriptor at its ISSUE (spec 06 R251, R254): it takes a place in the marver's queue and in both array queues; from
here on its output, workspace and status lines are undefined for readers, by the descriptor as it stands now; and no slot of
the command sequence records a format (R253). -/
def issueMarver (s : State) (i : TileId) (addr : Nat) : State :=
  let t := s.tile i
  let d : MvDesc := { id := t.nextId, addr := addr, words := mvWords (Memory.readN t.pantry.mem addr 128), problems := [],
                      running := false, touched := [] }
  let s := s.modTile i (fun t => { t with
    nextId := t.nextId + 1
    marver := t.marver ++ [{ d with words := [] }]
    arrays := { t.arrays with
      queue := t.arrays.queue ++ [.marver t.nextId]
      lastA := none
      lastB := none
      fmtA := Vector.replicate 2 none
      fmtB := Vector.replicate 2 none } })
  if d.check.isNone then markMarver s i d else s

/-- The bytes of a descriptor as the marver reads them: lines written since the ISSUE are undefined (spec 06 R254). -/
def MvDesc.seen (d : MvDesc) (free : Nat) (x : List Byte) : List Byte :=
  if d.touched.isEmpty then x
  else x.mapIdx (fun k b => if d.touched.contains ((d.addr + k) / 64) then Config.freeByte free (d.addr + k) else b)

/-! The end of a descriptor. -/

/-- Interrupt bits and counters of a problem's end (spec 06 R268, R275, Tables 6.10, 6.11). -/
def countProblem (s : State) (i : TileId) (o : MvOutcome) : State :=
  let s := s.countF Reg.TILE_MV_PROBLEMS i 0 1
  let s := if o.result = 0 then s else (s.countF Reg.TILE_MV_NONSUCCESS i 0 1).raise 1 5 i 2
  let s := if o.result = 1 then (s.countF Reg.TILE_MV_DEADLINE_MISS i 0 1).raise 1 5 i 1 else s
  if o.pivots = 0 then s else (s.countF Reg.TILE_MV_PIVOTS i 0 o.pivots).raise 1 5 i 3

/-- The marver releases the arrays (spec 06 R253): its entries leave the queues, no format is recorded, every
accumulator is +0. -/
def Arrays.release (a : Arrays) (id : Nat) : Arrays :=
  { a with
    queue := a.queue.filter (fun e => e.id != id), a := ArrayState.reset, b := ArrayState.reset }

/-- The first write of a descriptor's end that fails its check as master SEQ (spec 03 R116, R140). -/
def finishFail (s : State) (i : TileId) (ws : List LineWrite) : Option PErr :=
  ws.findSome? (fun w =>
    let r := lineRange w.addr w.data.length
    if r.2 = 0 then none else pantryCheck s i { master := mSeq, write := true, addr := r.1, len := r.2 })

/-- The problems of a descriptor as its end reports them: those spoilt by a write since the ISSUE are undefined. -/
def spoilProblems (s : State) (d : MvDesc) (ps : List MvProblem) : State × List MvProblem :=
  (ps.zipIdx).foldl (fun (x : State × List MvProblem) q =>
    if d.spoils q.2 then (x.1.useFree, x.2 ++ [q.1.spoilt d q.2 x.1.free]) else (x.1, x.2 ++ [q.1])) (s, [])

/-- A descriptor ends: outputs, workspace, status lines, counters, release, MV_DONE (spec 06 R253, R274, R276). A write whose
check fails stops the program instead (spec 03 R121). -/
def marverFinish (s : State) (i : TileId) (d : MvDesc) (ps : List MvProblem) : State :=
  let x := spoilProblems s d ps
  let s := x.1
  let ps := x.2
  let st := ps.flatMap (fun p => statusBytes p.out)
  let status : LineWrite := { addr := d.status, data := st ++ List.replicate ((64 - st.length % 64) % 64) 0#8 }
  let ws := ps.flatMap (·.lines) ++ [status]
  match finishFail s i ws with
  | some e => marverError (recordPErr s i e) i d.addr e.code (if e.i0 / 64 ∈ linesOf status.addr status.data.length then 5 else 1)
  | none =>
    let s := s.dropHazards i (.marver d.id)
    let s := (ps.flatMap (·.undef)).foldl (fun s r => s.addHazard i { first := r.1, count := r.2, by_ := .lost }) s
    let wk := lineRange d.work d.workSize
    let s := if d.workSize = 0 then s else s.addHazard i { first := wk.1, count := wk.2, by_ := .lost }
    let s := ws.foldl (fun s w => s.putPantry i w.addr w.data) s
    let s := ps.foldl (fun s p => countProblem s i p.out) s
    ((s.resetFlds [Reg.TILE_A_SLOT, Reg.TILE_B_SLOT] i).modTile i (fun t => { t with
      marver := t.marver.tail, arrays := t.arrays.release d.id })).wrapF Reg.TILE_MV_DONE i 0 1

/-! The start of a descriptor. -/

/-- Read the inputs of a descriptor and compute its problems; an uncorrectable read stops the program, with the descriptor
running (spec 06 R255, R260). -/
def marverRead (s : State) (i : TileId) (d : MvDesc) : State :=
  let s := ((s.dropHazards i (.marver d.id)).modTile i (fun t => { t with marver := d :: t.marver.tail }))
  let r := readProblems (markMarver s i d) i d
  match r.2.1 with
  | some e => marverError r.1 i d.addr e 0
  | none => r.1.modTile i (fun t => { t with marver := { d with problems := r.2.2 } :: t.marver.tail })

/-- Every problem of a descriptor whose deadline has passed when it starts (spec 06 R277, R280). -/
def neverStarted (s : State) (d : MvDesc) : State × List MvProblem :=
  (List.range d.batch).foldl (fun (x : State × List MvProblem) p =>
    (x.1.useFree, x.2 ++ [mvProblem false d p [] [] x.1.free .notStarted])) (s, [])

/-- Start the descriptor at the head of the marver's queue if it is of kind `k`, at a device time that `s` shows (spec 06 R251,
R260, R277): the checks, the inputs, the outcomes. A reserved KIND is found by whichever command finds the descriptor. -/
def marverStart (s : State) (i : TileId) (k : Nat) : State :=
  let t := s.tile i
  match t.marver with
  | [] => s
  | d :: _ =>
    if d.running || t.releasing || !t.arrays.drainedBefore d.id 3#2 then s
    else
      let x := pantryLoad s i (some (.marver 0)) { master := mSeq, write := false, addr := d.addr, len := 128 }
      match x.2.1 with
      | some e => (x.1.recordErr 1 5 i e d.addr 6).externalStop i e
      | none =>
        let d := { d with words := mvWords (d.seen x.1.free x.2.2), running := true }
        if d.kind ≠ k ∧ 1 ≤ d.kind ∧ d.kind ≤ 6 then s
        else
          let s := (if d.touched.isEmpty then x.1 else x.1.useFree).setF Reg.TILE_MV_DESC_ADDR i 0 d.addr
          match d.check with
          | some (code, info) => marverError s i d.addr code info
          | none =>
            match d.pantryFail s i with
            | some (e, a) => marverError (recordPErr s i e) i d.addr e.code a
            | none =>
              if d.deadline ≠ 0 ∧ d.deadline < s.now then
                let r := neverStarted s d
                marverFinish (r.1.modTile i (fun t => { t with marver := d :: t.marver.tail })) i d r.2
              else marverRead s i d

/-! Deadlines. -/

/-- What the deadline unit knows of the problems, by the order in which the halves run them (spec 06 R282): after the first
that has not ended, which may be in progress, none of its half has started. -/
def settleAts (two : Bool) (n : Nat) (ats : List MvAt) : List MvAt :=
  ((List.range n).foldl (fun (x : (Bool × Bool) × List MvAt) p =>
    let odd := two && p % 2 == 1
    let open_ := if odd then x.1.2 else x.1.1
    let a := if open_ then ats.getD p .notStarted else .notStarted
    let go := match a with
      | .ended _ => open_
      | _ => false
    (if odd then (x.1.1, go) else (go, x.1.2), x.2 ++ [a])) ((true, true), [])).2

/-- The outcome of problem `p` at a deadline stop (spec 06 R278 to R280): one whose last output line was written by the
deadline keeps its outcome, also where that is found only now: a ROOT or NSINV problem in progress whose last completed
iterate is its final one. -/
def deadlineProblem (legacy : Bool) (d : MvDesc) (p fresh : Nat) (q : MvProblem) (a : MvAt) : MvProblem :=
  match a with
  | .ended w => if w ≤ d.deadline ∨ 4 ≤ q.out.result then q else q.missed d p
  | .notStarted => mvProblem legacy d p q.src q.rhs fresh .notStarted
  | .inProgress ph k c ms w =>
    let k := if d.iterative then min k q.out.iter else k
    let final := d.iterative && decide (2 ≤ ph) && k == q.out.iter && decide (q.out.result < 4)
    let r := mvProblem legacy d p q.src q.rhs fresh (.inProgress ph k c ms w)
    if final && decide (w ≤ d.deadline) then q
    else if final then { r with out := { r.out with stale := q.out.stale } }
    else r

end Sys2Proof.Machine
end

