-- ==== Sys2Proof/Machine/UpdateOps.lean ====
section
/-! DEFINITION. What the accumulation and update programs of the runtime image produce (spec 07 R302, R303, R307,
R309 to R315): gradient accumulation, the update of a tensor, momentum and second-moment quantisation, settle. -/

namespace Sys2Proof.Machine

set_option Elab.async false

/-! Accumulation. -/

/-- The FP16 accumulator of an element after one more micro-batch (spec 07 R302). -/
def gradAccumulate (acc : Option Nat) (dw : Word) : Nat :=
  match acc with
  | none => fmtFP16.round .rne (fp32 dw)
  | some a => fmtFP16.round .rne (fp32 (toFp32 .rne ((fmtFP16.decode a).add (fp32 dw))))

/-- Is an FP16 accumulator ±Inf or NaN? -/
def accNonFinite (acc : Nat) : Bool := (fmtFP16.decode acc).isNaN || (fmtFP16.decode acc).isInf

/-- Does an element set the overflow flag: its dW or the accumulator written for it is not finite (spec 07 R303)? -/
def overflows (dw : Word) (acc : Nat) : Bool := isNaN32 dw || isInf32 dw || accNonFinite acc

/-- Did an element of the accumulators set the overflow flag of the step (spec 01 R25, spec 07 R303)? An accumulator that once became
±Inf or NaN, by its dW or by the sum, stays so to the end of the step: nothing added to it makes it finite. -/
def accOverflow (m : Memory) (areas : List (Nat × Nat)) : Bool :=
  areas.any (fun a => (List.range a.2).any (fun k => accNonFinite (leNat (Memory.readN m (a.1 + 2 * k) 2))))

/-! Update parameters. -/

/-- A UPB in its parts (spec 07 Table 7.5). -/
structure Upb where
  lr : Word
  beta1 : Word
  beta2 : Word
  eps : Word
  wd : Word
  growth : Nat
  graft : Bool
  deriving DecidableEq, Repr

def wordAt (r : List Byte) (a : Nat) : Word := BitVec.ofNat 32 (field r a 4)

def upbOf (r : List Byte) : Upb :=
  { lr := wordAt r 8, beta1 := wordAt r 12, beta2 := wordAt r 16, eps := wordAt r 20, wd := wordAt r 24,
    growth := field r 28 4, graft := bit (field r 32 1) 0 }

/-- Finite and at least 0: −0 is. -/
def nonNegative (x : Word) : Bool := !isNaN32 x && !isInf32 x && (!(fp32 x).isNeg || (fp32 x).isZero)

/-- The fields of a UPB lie in their ranges (spec 07 Table 7.5). -/
def upbValid (r : List Byte) : Bool :=
  let u := upbOf r
  let unit (x : Word) : Bool := nonNegative x && fpLess x 0x3F800000#32
  r.length == 64 && nonNegative u.lr && unit u.beta1 && unit u.beta2 && nonNegative u.eps && !(fp32 u.eps).isZero &&
    nonNegative u.wd && decide (1 ≤ u.growth) && decide (u.growth ≤ 16777215) && field r 32 1 / 2 == 0 && field r 33 31 == 0

/-- The gradient multiplier of a step (spec 07 R309). -/
def gradMultiplier (lsExp accCount members : Nat) : Word :=
  BitVec.ofNat 32 (fpDivV fmtFP32 .rne (.fin false 1 (-(lsExp : Int))) (.fin false (accCount * members) 0))

/-! Element functions. -/

/-- A −0 counts as +0 (spec 07 R310). -/
def posZero (x : Word) : Word := if x = 0x80000000#32 then 0#32 else x

/-- BF16 by round-to-nearest-even, a zero written as +0. -/
def bf16Rne (x : Word) : Nat := let c := fmtBF16.round .rne (fp32 x); if c = 0x8000 then 0 else c

/-- Nearest BF16, ties toward +Inf, zero as +0 (spec 07 R313). -/
def bf16HalfUp (t : Word) : Nat :=
  let n := t.toNat
  let m := n % 2 ^ 31
  let up := if n / 2 ^ 31 = 1 then decide (m % 65536 > 0x8000) else decide (m % 65536 ≥ 0x8000)
  let k := m / 65536 + b2n up
  if isNaN32 t then 0x7FC0 else if k = 0 then 0 else k + 0x8000 * (n / 2 ^ 31)

/-- Exponent of ulp(w) of a BF16 code (spec 07 R313). -/
def ulpExp (w : Nat) : Int := (max (w / 128 % 256) 1 : Nat) - 134

/-- ⌊v × 2^k⌋ of a finite value. -/
def floorScaled (v : Val) (k : Int) : Int :=
  match v with
  | .fin n m e =>
    let x : Int := if n then -(m : Int) else m
    if 0 ≤ e + k then x * 2 ^ (e + k).toNat else Int.fdiv x (2 ^ (-(e + k)).toNat)
  | _ => 0

/-- settle (spec 07 R313): the new weight and the new moil. -/
def settle (t : Word) : Nat × Int :=
  let w := bf16HalfUp t
  if w % 0x8000 = 0x7F80 then (if w ≥ 0x8000 then 0xFF7F else 0x7F7F, 0)
  else
    let rho := (fp32 t).add (fmtBF16.decode w).neg
    (w, floorScaled rho (8 - ulpExp w))

/-- w + moil × ulp(w) × 2⁻⁸, exact (spec 07 R310). -/
def wEff (w : Nat) (moil : Int) : Word :=
  toFp32 .rne ((fmtBF16.decode w).add (.fin (decide (moil < 0)) moil.natAbs (ulpExp w - 8)))

/-- Round a value times 2^k to an integer, ties to even. -/
def rneInt (v : Val) (k : Int) : Int :=
  match v with
  | .fin n m e => let r : Int := roundTo .rne m (e + k) 0 false; if n then -r else r
  | .inf n => if n then -(2 ^ 64) else 2 ^ 64
  | .nan => 0

/-- ⌊log₂ |v|⌋; 1000 for infinity. -/
def exOf (v : Val) : Int :=
  match v with
  | .fin _ m e => (bitLen m : Int) - 1 + e
  | _ => 1000

/-- The scale byte of a block of magnitudes (spec 07 R312); `add` is 121 for momentum, 120 for a second moment. -/
def scaleByte (add : Int) (xs : List Word) : Nat :=
  let a := xs.foldl (fun a x => if fpLess a (fpAbs x) then fpAbs x else a) 0#32
  if (fp32 a).isZero then 0 else (min (max (exOf (fp32 a) + add) 1) 254).toNat

def clampInt (lo hi x : Int) : Int := max lo (min hi x)

/-- Quantise blocks of 256 values: the element codes, then the scale bytes (spec 07 R312). -/
def quantBlocks (signed : Bool) : Nat → List Word → List Byte × List Byte
  | 0, _ => ([], [])
  | n + 1, xs =>
    if xs.isEmpty then ([], [])
    else
      let b := xs.take 256
      let x := scaleByte (if signed then 121 else 120) b
      let q (v : Word) : Byte :=
        if x = 0 then 0#8
        else BitVec.ofInt 8 (if signed then clampInt (-127) 127 (rneInt (fp32 v) (127 - x)) else min (rneInt (fp32 v) (127 - x)) 255)
      let r := quantBlocks signed n (xs.drop 256)
      (b.map q ++ List.replicate (256 - b.length) 0#8 ++ r.1, BitVec.ofNat 8 x :: r.2)

/-- Read back element `e` of a quantised sub-area of `n` padded elements (spec 07 R312). -/
def dequant (signed : Bool) (d : Array Byte) (n e : Nat) : Word :=
  let q := d.getD e 0#8
  let v : Int := if signed then q.toInt else q.toNat
  toFp32 .rne (.fin (decide (v < 0)) v.natAbs (((d.getD (n + e / 256) 0#8).toNat : Int) - 127))

/-! The update of a tensor. -/

/-- The full symmetric matrix whose upper triangle a root cell holds (spec 07 R310, 06 R257): element (i, j). -/
def rootElem (cell : Array Byte) (side i j : Nat) : Opnd :=
  let (i, j) := if i ≤ j then (i, j) else (j, i)
  let k := side / 64
  let a := i / 64
  let b := j / 64
  let off := (a * k - a * (a - 1) / 2 + (b - a)) * 8192 + 2 * (64 * (i % 64) + j % 64)
  opndOf 8 (fmtBF16.decode ((cell.getD off 0#8).toNat + 256 * (cell.getD (off + 1) 0#8).toNat))

/-- sqsum and fsum of a list (spec 07, before R309). -/
def sqsum (legacy : Bool) (xs : List Word) : Word := dot legacy 0#32 (xs.map (fun x => mvProd x x))
def fsum (legacy : Bool) (xs : List Word) : Word := dot legacy 0#32 (xs.map (fun x => mvProd x 0x3F800000#32))

/-- div of an FP32 value by a whole number. -/
def divNat (x : Word) (n : Nat) : Word := BitVec.ofNat 32 (fpDivV fmtFP32 .rne (fp32 x) (.fin false n 0))

/-- The preconditioned and grafted step U over one curvature block (spec 07 R310): P = RX · g · RG. `g` and `d` are
the block's own values, `rows` × `cols` within b_r × b_c. -/
def blockStep (legacy graft : Bool) (br bc rows cols : Nat) (rx rg : Array Byte) (g d : Nat → Nat → Word) : Nat → Nat → Word :=
  let gb := fun i j => if i < rows ∧ j < cols then opndOf 8 (fmtBF16.decode (bf16Rne (g i j))) else Opnd.zero
  let t : Array (Array Word) := ((List.range br).map (fun i => ((List.range bc).map (fun j =>
    posZero (dot legacy 0#32 ((List.range br).map (fun k => mulOpnd 0 (rootElem rx br i k) (gb k j)))))).toArray)).toArray
  let p : Array (Array Word) := ((List.range rows).map (fun i => ((List.range cols).map (fun j =>
    posZero (dot legacy 0#32 ((List.range bc).map (fun k =>
      mulOpnd 0 (opndOf 8 (fmtBF16.decode (bf16Rne (Mat.at t i k)))) (rootElem rg bc k j)))))).toArray)).toArray
  if !graft then fun i j => Mat.at p i j
  else
    let flat (f : Nat → Nat → Word) : List Word := (List.range rows).flatMap (fun i => (List.range cols).map (f i))
    let nP := fpSqrt .rne (sqsum legacy (flat (Mat.at p)))
    if fpLess 0#32 nP then
      let k := fpDiv .rne (fpSqrt .rne (sqsum legacy (flat d))) nP
      fun i j => posZero (fpMul .rne (Mat.at p i j) k)
    else d

/-- One element's new weight, moil and momentum, and whether it was kept for a NaN (spec 07 R310, R313 to R315). -/
def elemStep (legacy : Bool) (u : Upb) (w : Nat) (moil : Int) (mOld stepU : Word) : Nat × Int × Word × Bool :=
  let m := posZero (fpFma .rne u.beta1 mOld (fpMul .rne (fpSub .rne 0x3F800000#32 u.beta1) stepU))
  let we := if legacy then toFp32 .rne (fmtBF16.decode w) else wEff w moil
  let t := fpSub .rne we (fpMul .rne u.lr (fpAdd .rne m (fpMul .rne u.wd we)))
  if isNaN32 t ∨ isNaN32 m then (w, if legacy then 0 else moil, mOld, true)
  else if legacy then (bf16Rne t, 0, m, false)
  else let x := settle t; (x.1, x.2, m, false)

/-- The committed bytes that an update reads, and the roots in force of each curvature block (empty: none). -/
structure UpdateIn where
  w : Array Byte
  moil : Array Byte
  mom : Array Byte
  sketch : Array Byte
  roots : Nat → Option (Array Byte × Array Byte)

/-- The shadow bytes of the five sub-areas of a tensor, and the elements kept for a NaN. -/
structure UpdateOut where
  subs : List (List Byte)
  kept : Nat

def f32At (a : Array Byte) (k : Nat) : Word :=
  BitVec.ofNat 32 (leNat ((List.range 4).map (fun i => a.getD (4 * k + i) 0#8)))

/-- Everything after U and the new sketch are known. -/
def finishTensor (legacy : Bool) (u : Upb) (p : Place) (x : UpdateIn) (stepU : Nat → Word) (sketch : List Byte) : UpdateOut :=
  let es := (List.range p.elems).map (fun e =>
    elemStep legacy u ((x.w.getD (2 * e) 0#8).toNat + 256 * (x.w.getD (2 * e + 1) 0#8).toNat) (x.moil.getD e 0#8).toInt
      (dequant true x.mom p.padded e) (stepU e))
  let ws := (es.map (·.1)).toArray
  let q := quantBlocks true (p.padded / 256) (es.map (·.2.2.1))
  let wt := if p.vec then [] else
    (List.range p.cols).flatMap (fun j => (List.range p.rows).flatMap (fun i => toLe 2 (ws.getD (i * p.cols + j) 0)))
  { subs := [es.flatMap (fun e => toLe 2 e.1), wt, es.map (fun e => BitVec.ofInt 8 e.2.1), q.1 ++ q.2, sketch],
    kept := (es.filter (·.2.2.2)).length }

/-- The update of a VEC1D tensor (spec 07 R311). -/
def updateVec (legacy : Bool) (u : Upb) (p : Place) (x : UpdateIn) (g : Nat → Word) : UpdateOut :=
  let omb2 := fpSub .rne 0x3F800000#32 u.beta2
  let vs := (List.range p.rows).map (fun e =>
    fpFma .rne u.beta2 (dequant false x.sketch p.padded e) (fpMul .rne omb2 (fpMul .rne (g e) (g e))))
  let va := vs.toArray
  let q := quantBlocks false (p.padded / 256) vs
  let stepU := fun e => posZero (fpDiv .rne (g e) (fpAdd .rne (fpSqrt .rne (va.getD e 0#32)) u.eps))
  finishTensor legacy u p x stepU (q.1 ++ q.2)

/-- The update of a DENSE2D tensor (spec 07 R310). -/
def updateDense (legacy : Bool) (u : Upb) (p : Place) (x : UpdateIn) (g : Nat → Word) : UpdateOut :=
  let omb2 := fpSub .rne 0x3F800000#32 u.beta2
  let at_ := fun i j => g (i * p.cols + j)
  let mix (old : Word) (xs : List Word) (n : Nat) : Word :=
    fpFma .rne u.beta2 old (fpMul .rne omb2 (divNat (sqsum legacy xs) n))
  let rs := (List.range p.rows).map (fun i => mix (f32At x.sketch i) ((List.range p.cols).map (at_ i)) p.cols)
  let cs := (List.range p.cols).map (fun j => mix (f32At x.sketch (p.rows + j)) ((List.range p.rows).map (at_ · j)) p.rows)
  let ra := rs.toArray
  let ca := cs.toArray
  let rbar := divNat (fsum legacy rs) p.rows
  let dAt := fun i j =>
    let vh := if fpLess 0#32 rbar then fpDiv .rne (fpMul .rne (ra.getD i 0#32) (ca.getD j 0#32)) rbar else 0#32
    fpDiv .rne (at_ i j) (fpAdd .rne (fpSqrt .rne vh) u.eps)
  let step (b : Nat) : Nat → Nat → Word :=
    let i0 := b / p.blockCols * p.br
    let j0 := b % p.blockCols * p.bc
    let d := fun i j => posZero (dAt (i0 + i) (j0 + j))
    match x.roots b with
    | some (rx, rg) =>
      blockStep legacy u.graft p.br p.bc (min p.br (p.rows - i0)) (min p.bc (p.cols - j0)) rx rg
        (fun i j => at_ (i0 + i) (j0 + j)) d
    | none => d
  let steps := ((List.range p.blocks).map step).toArray
  let stepU := fun e =>
    let i := e / p.cols
    let j := e % p.cols
    if p.blocks = 0 then posZero (dAt i j)
    else (steps.getD (i / p.br * p.blockCols + j / p.bc) (fun _ _ => 0#32)) (i % p.br) (j % p.bc)
  finishTensor legacy u p x stepU (rs.flatMap (fun w => toLe 4 w.toNat) ++ cs.flatMap (fun w => toLe 4 w.toNat))

/-! The update of a domain. -/

/-- The committed state that the update of a tensor reads. -/
def updateInput (s : State) (d : Domain) (p : Place) : UpdateIn :=
  let base := d.slotBase d.committed
  let rd (k : Nat) : Array Byte := (Memory.readN s.dram (base + p.sub k) (p.subSize k)).toArray
  { w := rd 0, moil := rd 2, mom := rd 3, sketch := rd 4,
    roots := fun b =>
      let e := rootMapEntry s d d.committed (p.mapFirst + b)
      if mapValid e false && mapValid e true then
        some ((Memory.readN s.dram (p.cell b false (mapCell e false)) (cellBytes p.br)).toArray,
              (Memory.readN s.dram (p.cell b true (mapCell e true)) (cellBytes p.bc)).toArray)
      else none }

/-- Tensors of a domain with the number of the first element of each, in placement-table order. -/
def withFirsts : Nat → List Place → List (Place × Nat)
  | _, [] => []
  | n, p :: ps => (p, n) :: withFirsts (n + p.elems) ps

/-- The update of a domain into its shadow (spec 07 R309 to R316), given its reduced gradient as FP32, all tensors'
elements one after another; the NONFINITE count of the step. The shadow's lendable part is written whole, padding
as 0x00 (R289, R294). -/
def updateDomain (s : State) (d : Domain) (members : Nat) (gr : Array Word) : State × Nat :=
  let c := gradMultiplier d.lossScale.1 d.accCount members
  let upb := if d.upb.isEmpty then (List.range 64).map (fun k => Config.freeByte s.free k) else d.upb
  let s := if d.upb.isEmpty then s.useFree else s
  let u := upbOf upb
  let legacy := d.legacyMode
  let base := d.slotBase (!d.committed)
  let m := Memory.clear s.dram base (base + 65536 * d.lendUnits)
  let outs := (withFirsts 0 (d.places s)).map (fun x =>
    let g := fun e => fpMul .rne (gr.getD (x.2 + e) 0#32) c
    (x.1, if x.1.vec then updateVec legacy u x.1 (updateInput s d x.1) g else updateDense legacy u x.1 (updateInput s d x.1) g))
  let m := outs.foldl (fun m (x : Place × UpdateOut) =>
    ((x.2.subs.zipIdx).foldl (fun m (y : List Byte × Nat) => Memory.writeL m (base + x.1.sub y.2) y.1) m)) m
  ({ s with dram := m }, outs.foldl (fun n x => n + x.2.kept) 0)

end Sys2Proof.Machine
end

