-- ==== Sys2Proof/Machine/CruciblePlan.lean ====
section
/-! DEFINITION. Crucible operations as posted (spec 08 Tables 8.2, 8.3, R333 to R336): descriptor fields, ring
positions, the checks at the head of the queue (R335), the domain's windows, PLAN_CRC (R592), and the chunk header
(Tables 8.4, 8.5). -/

namespace Sys2Proof.Machine

set_option Elab.async false

/-! Descriptor fields. -/

def dw (ws : List Nat) (k : Nat) : Nat := ws.getD k 0
def dOpk (ws : List Nat) : Nat := bits (dw ws 0) 3 0
def dTorus (ws : List Nat) : Bool := bit (dw ws 0) 4
def dWide (ws : List Nat) : Bool := bit (dw ws 0) 5
def dOvf (ws : List Nat) : Bool := bit (dw ws 0) 6
def dNoise (ws : List Nat) : Bool := bit (dw ws 0) 7
def dLsExp (ws : List Nat) : Nat := bits (dw ws 0) 15 8
def dEpoch (ws : List Nat) : Nat := bits (dw ws 0) 31 16
def dMask (ws : List Nat) : Nat := bits (dw ws 0) 47 32
def dStep (ws : List Nat) : Nat := dw ws 1
def dDomain (ws : List Nat) : Nat := bits (dw ws 2) 18 0
def dM (ws : List Nat) : Nat := bits (dw ws 2) 43 32 + 1
def dPos (ws : List Nat) : Nat := bits (dw ws 2) 55 44
def dX (ws : List Nat) : Nat := bits (dw ws 3) 11 0 + 1
def dAcc (ws : List Nat) : Nat := bits (dw ws 3) 31 16
def dNItems (ws : List Nat) : Nat := bits (dw ws 3) 63 32
def dItems (ws : List Nat) : Nat := bits (dw ws 4) 40 0
def dHistIn (ws : List Nat) : Nat := bits (dw ws 5) 40 0
def dHistOut (ws : List Nat) : Nat := bits (dw ws 6) 40 0
def dNBlocks (ws : List Nat) : Nat := bits (dw ws 7) 31 0
def dBrec (ws : List Nat) : Nat := bits (dw ws 8) 40 0
def dNorm (ws : List Nat) : Nat := bits (dw ws 9) 40 0
def dStatus (ws : List Nat) : Nat := bits (dw ws 10) 40 0
def dResult (ws : List Nat) : Nat := bits (dw ws 11) 40 0

/-- Channels of CHAN_MASK, ascending. -/
def dChans (ws : List Nat) : List Nat := (List.range 16).filter (bit (dMask ws))

/-! Item fields (spec 08 Table 8.3). -/

def iA (it : List Nat) : Nat := bits (dw it 0) 40 0
def iB (it : List Nat) : Nat := bits (dw it 1) 40 0
def iLen (it : List Nat) : Nat := bits (dw it 2) 31 0
def iChan (it : List Nat) : Nat := bits (dw it 2) 35 32
def iOwner (it : List Nat) : Nat := bits (dw it 2) 47 36
def iIndex (it : List Nat) : Nat := bits (dw it 3) 31 0
def iBlocks (it : List Nat) : Nat := ceilDiv (iLen it) 256

/-! Plans (spec 08 R336). -/

/-- Members of the ring of a channel. -/
def ringSize (ws : List Nat) (c : Nat) : Nat :=
  if dTorus ws then (if c % 2 = 0 then dX ws else dM ws / dX ws) else dM ws

/-- Ring position, on channel `c`, of the member at plan position `p`. -/
def ringPos (ws : List Nat) (c p : Nat) : Nat :=
  let n := ringSize ws c
  let q := if dTorus ws then (if c % 2 = 0 then p % dX ws else p / dX ws) else p
  if c < 8 then q else (n - q) % n

/-! Channel registers. -/

def chF (s : State) (f : Fld) (c : Nat) : Nat := s.getF f (c / 2) (c % 2)
def setChF (s : State) (f : Fld) (c v : Nat) : State := s.setF f (c / 2) (c % 2) v
def countCh (s : State) (f : Fld) (c : Nat) : State := s.countF f (c / 2) (c % 2) 1

/-! Checks at the head of the queue (spec 08 R335). -/

/-- The DRAM windows of a domain: those of its queue, its committed slot area to read, its shadow to read and write
(spec 07 R288, spec 11 R462). -/
def queueWindows (q : Queue) : List DramWindow :=
  (List.range 4).map (fun k =>
    let hi := field q.desc (40 + 16 * k) 8
    { base := bits (field q.desc (32 + 16 * k) 8) 40 0, limit := bits hi 40 0,
      read := bit hi 61 && bit hi 63, write := bit hi 62 && bit hi 63 })

def slotWindows (d : Domain) : List DramWindow :=
  [{ base := d.slotBase d.committed, limit := d.slotBase d.committed + 65536 * d.slotUnits, read := true, write := false },
   { base := d.slotBase (!d.committed), limit := d.slotBase (!d.committed) + 65536 * d.slotUnits, read := true, write := true }]

def domainWindows (s : State) (id : Nat) : List DramWindow :=
  match s.domain? id with
  | none => []
  | some d => slotWindows d ++ (match s.queue? d.queue with
    | some q => queueWindows q
    | none => [])

/-- Does `[a, a + n)` lie in one window that allows the access? -/
def inWindows (wsn : List DramWindow) (write : Bool) (a n : Nat) : Bool :=
  n == 0 || wsn.any (fun w => (if write then w.write else w.read) && decide (w.base ≤ a) && decide (a + n ≤ w.limit))

/-- A descriptor address: bits [5:0] and [63:41] zero (spec 08 R333). -/
def addrOk (x : Nat) : Bool := x % 64 == 0 && decide (x < 2 ^ 41)

/-- The word of a descriptor that holds a reserved value, if any (spec 08 Table 8.2, R18). -/
def descReserved (ws : List Nat) : Option Nat :=
  let w := dw ws
  let grad := dOpk ws = 1
  if dOpk ws = 0 ∨ dOpk ws > 3 ∨ bits (w 0) 63 48 ≠ 0 ∨ (¬grad ∧ bits (w 0) 15 5 ≠ 0) then some 0
  else if bits (w 2) 31 19 ≠ 0 ∨ bits (w 2) 63 56 ≠ 0 ∨ dPos ws ≥ dM ws then some 2
  else if bits (w 3) 15 12 ≠ 0 ∨ dNItems ws = 0 ∨ (¬grad ∧ dAcc ws ≠ 0) ∨ (!dTorus ws && dX ws != dM ws) then some 3
  else match [4, 5, 6, 8, 9, 10, 11].find? (fun k => !addrOk (w k)) with
    | some k => some k
    | none =>
      if bits (w 7) 63 32 ≠ 0 then some 7
      else if !(dNoise ws) ∧ w 9 ≠ 0 then some 9
      else if dOpk ws ≠ 3 ∧ w 10 ≠ 0 then some 10
      else [12, 13, 14, 15].find? (fun k => w k != 0)

/-- The word of an item that holds a reserved value, if any (spec 08 Table 8.3). -/
def itemReserved (ws : List Nat) (it : List Nat) : Option Nat :=
  let opk := dOpk ws
  if dw it 0 ≥ 2 ^ 41 then some 0
  else if dw it 1 ≥ 2 ^ 41 ∨ (opk = 3 ∧ dw it 1 ≠ 0) then some 1
  else if bits (dw it 2) 63 48 ≠ 0 ∨ (opk = 1 ∧ iOwner it ≠ 0) ∨ (opk ≠ 1 ∧ iOwner it ≥ dM ws) then some 2
  else if bits (dw it 3) 63 32 ≠ 0 ∨ (opk = 2 ∧ dw it 3 ≠ 0) then some 3
  else none

/-- A DRAM range that an operation uses: address and length, and whether it reads it, and writes it. -/
structure OpRange where
  addr : Nat
  len : Nat
  rd : Bool
  wr : Bool

/-- One past the greatest index that the items of a GRAD name; NBLOCKS where no item reaches further. -/
def topBlock (ws : List Nat) (items : List (List Nat)) : Nat :=
  items.foldl (fun n it => max n (iIndex it + iBlocks it)) (dNBlocks ws)

/-- The DRAM ranges of a descriptor, without its items. HIST_OUT, BREC and RESULT are only written; the norms are written block
by block and then summed. -/
def descRanges (ws : List Nat) (items : List (List Nat)) : List OpRange :=
  let n := topBlock ws items
  [⟨dItems ws, 32 * dNItems ws, true, false⟩, ⟨dResult ws, 64, false, true⟩] ++
  (if dOpk ws = 1 then
    [⟨dHistIn ws, n, true, false⟩, ⟨dHistOut ws, n, false, true⟩, ⟨dBrec ws, 2 * n, false, true⟩] ++
    (if dNoise ws then [⟨dNorm ws, 8 * n, true, true⟩] else [])
   else [])

/-- The DRAM ranges of an item: of STAT only the owner writes its cells; of ROOT the owner reads what it sends, and normalises
its cell. -/
def itemRanges (ws : List Nat) (it : List Nat) : List OpRange :=
  let own := iOwner it == dPos ws
  match dOpk ws with
  | 1 => [⟨iA it, 2 * iLen it, true, true⟩, ⟨iB it, 2 * iLen it, true, true⟩]
  | 2 => [⟨iA it, iLen it, true, own⟩, ⟨iB it, iLen it, true, own⟩]
  | _ => [⟨iA it, iLen it, own, true⟩, ⟨dStatus ws + 16 * iIndex it, 16, own, true⟩]

/-- A refusal (error code and information words), if any (spec 08 R335, Table 8.13). -/
def opRefusal (s : State) (addr : Nat) (ws : List Nat) (items : List (List Nat)) : Option (Nat × Nat × Nat) :=
  let a := addr % 2 ^ 32
  let wsn := domainWindows s (dDomain ws)
  let range (idx : Nat) (r : OpRange) : Option (Nat × Nat × Nat) :=
    if (!r.rd || inWindows wsn false r.addr r.len) && (!r.wr || inWindows wsn true r.addr r.len) then none
    else some (0x0302, r.addr % 2 ^ 32, r.addr / 2 ^ 32 + 65536 * idx)
  let chans := dChans ws
  let numbered := items.zipIdx
  let chan (it : List Nat) : Bool := bit (dMask ws) (iChan it) && (!dTorus ws || iChan it % 2 == 0)
  let blocksBad : Option Nat :=
    if dOpk ws ≠ 1 then none
    else match numbered.find? (fun x => (items.take x.2).any (fun y => decide (iIndex y < iIndex x.1 + iBlocks x.1) && decide (iIndex x.1 < iIndex y + iBlocks y))) with
      | some x => some x.2
      | none =>
        let covered := items.foldl (fun n y => n + (min (iIndex y + iBlocks y) (dNBlocks ws) - min (iIndex y) (dNBlocks ws))) 0
        if covered = dNBlocks ws then none else some 0
  match descReserved ws with
  | some k => some (0x0301, a, k)
  | none =>
  match items.findSome? (itemReserved ws) with
  | some k => some (0x0301, a, k)
  | none =>
  match chans.find? (fun c => chF s Reg.CH_EN c == 0 || chF s Reg.CH_EPOCH c != dEpoch ws) with
  | some c => some (0x0303, a, c + 65536 * chF s Reg.CH_EPOCH c)
  | none =>
  if dTorus ws && (bits (dMask ws) 15 0 != (List.range 8).foldl (fun m r => m + (if bit (dMask ws) (2 * r) then 3 * 4 ^ r else 0)) 0 ||
      dM ws % dX ws != 0) then some (0x0304, a, 0)
  else
  match chans.find? (fun c => chF s Reg.CH_POSITION c != ringPos ws c (dPos ws)) with
  | some c => some (0x0308, a, c)
  | none =>
  match chans.find? (fun c => chF s Reg.CH_RING_M1 c + 1 != ringSize ws c) with
  | some c => some (0x0308, a, c + 16)
  | none =>
  match numbered.find? (fun x => !chan x.1) with
  | some x => some (0x0304, a, x.2)
  | none =>
  match blocksBad with
  | some k => some (0x0304, a, k)
  | none =>
  match (descRanges ws items).findSome? (range 0xFFFF) with
  | some e => some e
  | none => numbered.findSome? (fun x => (itemRanges ws x.1).findSome? (range (x.2 % 65536)))

/-- The PLAN_CRC of a channel (spec 08 R592). -/
def planCrc (ws : List Nat) (items : List (List Nat)) (c : Nat) : Nat :=
  let w0 := dw ws 0 - (if dOvf ws then 64 else 0)
  let w2 := dw ws 2 - 2 ^ 44 * dPos ws
  let own := if dTorus ws then c - c % 2 else c
  crc32c ([w0, dw ws 1, w2, dw ws 3, dw ws 7].flatMap (toLe 8) ++
    (items.filter (fun it => iChan it == own)).flatMap (fun it => toLe 8 (dw it 2) ++ toLe 8 (dw it 3)))

/-! Chunk headers (spec 08 Table 8.4). -/

structure ChunkHead where
  kind : Nat
  epoch : Nat
  chan : Nat
  phase : Nat
  attempt : Nat
  wide : Bool
  ovf : Bool
  fault : Bool
  opk : Nat
  seq : Nat
  domain : Nat
  src : Nat
  dst : Nat
  lines : Nat
  step : Nat
  w4 : Nat
  w5 : Nat
  deriving DecidableEq, Repr

/-- The 64 bytes of a chunk header. -/
def ChunkHead.bytes (h : ChunkHead) : List Byte :=
  let b := toLe 8 (0xC9 + 2 ^ 8 * h.kind + 2 ^ 12 + 2 ^ 16 * h.epoch + 2 ^ 32 * h.chan + 2 ^ 36 * h.phase + 2 ^ 40 * h.attempt +
      2 ^ 43 * b2n h.wide + 2 ^ 48 * b2n h.ovf + 2 ^ 49 * b2n h.fault) ++
    toLe 8 (h.opk + 2 ^ 32 * h.seq) ++ toLe 8 (h.domain + 2 ^ 19 * h.src + 2 ^ 32 * h.dst + 2 ^ 48 * h.lines) ++
    toLe 8 h.step ++ toLe 8 h.w4 ++ toLe 8 h.w5 ++ toLe 8 0 ++ toLe 4 0
  b ++ toLe 4 (crc32c b)

/-- A received header. -/
def headOf (d : List Byte) : ChunkHead :=
  let w0 := word64 d 0
  let w1 := word64 d 1
  let w2 := word64 d 2
  { kind := bits w0 11 8, epoch := bits w0 31 16, chan := bits w0 35 32, phase := bits w0 38 36, attempt := bits w0 42 40,
    wide := bit w0 43, ovf := bit w0 48, fault := bit w0 49, opk := bits w1 3 0, seq := bits w1 63 32,
    domain := bits w2 18 0, src := bits w2 30 19, dst := bits w2 43 32, lines := bits w2 56 48, step := word64 d 3,
    w4 := word64 d 4, w5 := word64 d 5 }

/-- Row 1 of Table 8.6. -/
def headGood (d : List Byte) : Bool :=
  d.length ≥ 64 && field d 60 4 == crc32c (d.take 60) && field d 0 1 == 0xC9 && bits (word64 d 0) 15 12 == 1

/-- Row 4 of Table 8.6: no reserved value (spec 08 Tables 8.4, 8.5, R344). -/
def chunkReserved (d : List Byte) : Bool :=
  let h := headOf d
  let w0 := word64 d 0
  let w1 := word64 d 1
  let w2 := word64 d 2
  let nblk := bits h.w5 37 32 + 1
  bit w0 39 || bits w0 47 44 != 0 || bits w0 63 50 != 0 || bits w1 31 4 != 0 || bit w2 31 || bits w2 47 44 != 0 ||
    bits w2 63 57 != 0 || field d 56 4 != 0 || decide (h.phase > 4) || decide (h.attempt > 5) || decide (h.lines > 257) ||
    d.length != 64 + 64 * h.lines || word64 d 6 != 0 ||
    (match h.kind with
      | 1 => bits h.w5 63 38 != 0 || (h.wide && decide (nblk > 32)) || h.lines != 1 + nblk * (if h.wide then 8 else 4) ||
          (List.range 64).any (fun i =>
            let e := field d (64 + i) 1
            if i < nblk then e == 0 || decide (e > 150) else e != 0)
      | 2 => h.w4 != 0 || bits h.w5 63 46 != 0 || h.lines != ceilDiv (bits h.w5 45 32 + 1) 64
      | 3 => bits h.w4 63 32 != 0 || bits h.w5 63 44 != 0 || h.lines != ceilDiv (4 * (bits h.w5 43 32 + 1)) 64
      | 4 => bits h.w4 63 32 != 0 || bits h.w5 63 45 != 0 || h.lines != 1 + ceilDiv (2 * (bits h.w5 44 32 + 1)) 64 ||
          (List.range 48).any (fun i => field d (80 + i) 1 != 0)
      | 5 => bits h.w5 63 32 != 0 || h.lines != 0
      | 6 => bits h.w4 63 14 != 0 || bits h.w5 63 32 != 0 || h.lines != 0
      | 7 => bits h.w4 63 4 != 0 || h.w4 == 0 || decide (h.w4 > 8) || bits h.w5 63 32 != 0 || h.lines != 0
      | _ => true)

end Sys2Proof.Machine
end

