-- ==== Sys2Proof/Machine/CrucibleOps.lean ====
section
/-! DEFINITION. The running crucible operation (spec 08 R337 to R367): block scales and elements, passes and stages,
sending against credits, receipt of chunks (Table 8.6), statistics and roots, END, the close and the outcome. -/

namespace Sys2Proof.Machine

set_option Elab.async false

/-! Elements (spec 08 R344, R345). `p` is 7 or 15. -/

def satCode (p : Nat) : Int := -(2 ^ p)

def quantElem (v : Val) (e p : Nat) : Int :=
  match v with
  | .fin _ _ _ => let q := rneInt v (127 - e); if q > 2 ^ p - 1 ∨ q < -(2 ^ p - 1) then satCode p else q
  | _ => satCode p

def satAdd (p : Nat) (a b : Int) : Int :=
  if a = satCode p ∨ b = satCode p then satCode p
  else if a + b > 2 ^ p - 1 ∨ a + b < -(2 ^ p - 1) then satCode p
  else a + b

/-- ⌈log₂ n⌉. -/
def ceilLog2 (n : Nat) : Nat := if n ≤ 1 then 0 else bitLen (n - 1)

/-- Scale of a block from history, or from the largest exponent of its members (spec 08 R348). -/
def histScale (h p : Nat) : Nat := max 1 (min 150 (h + 2 - p))
def premaxScale (hm m p : Nat) : Nat := if hm = 0 then 1 else max 1 (min 150 (hm + ceilLog2 m + 2 - p))

/-! DRAM under the crucible. -/

/-- Change the operation in focus: the one at the head of the list. -/
def State.modOp (s : State) (f : CruOp → CruOp) : State := { s with cru := s.cru.modifyHead f }

/-- Bring running operation `k` into focus, act on it, and put it back at its place in the order of starts unless it ended
(spec 08 R331: operations on different channels run side by side). -/
def withOp (s : State) (k : Nat) (f : State → State) : State :=
  match s.cru[k]? with
  | none => s
  | some o =>
    let r := f { s with cru := o :: s.cru.eraseIdx k }
    match r.cru with
    | [] => r
    | o :: os => if os.length + 1 = s.cru.length then { r with cru := os.insertIdx k o } else r

/-- Record a fault of the operation on the control block (spec 08 R342, Table 8.13). -/
def ctlFault (s : State) (code i0 i1 : Nat) : State :=
  (s.recordErr 3 0 8 code i0 i1).modOp (fun o => { o with fault := true })

/-- Record a channel fault of the operation on its slice. -/
def chanFault (s : State) (c code i0 i1 : Nat) : State :=
  (s.recordErr 3 0 (c / 2) code i0 i1).modOp (fun o => { o with fault := true })

/-- Read DRAM; an uncorrectable line is a local fault, and its bytes are free values (spec 08, end). -/
def cruRead (s : State) (a n : Nat) : State × List Byte :=
  let x := dramRead s a n
  match x.2.1 with
  | none => (x.1, x.2.2)
  | some e =>
    ((ctlFault x.1 0x0307 (a % 2 ^ 32) e).useFree, (List.range n).map (fun k => Config.freeByte x.1.free (a + k)))

def cruWrite (s : State) (a : Nat) (d : List Byte) : State :=
  let x := dramWrite s a d
  match x.2 with
  | none => x.1
  | some e => ctlFault x.1 0x0307 (a % 2 ^ 32) e

/-- Leave a range undefined: its bytes become free values. -/
def cruUndefine (s : State) (a n : Nat) : State :=
  (dramWrite s a ((List.range n).map (fun k => Config.freeByte s.free (a + k)))).1.useFree

/-! Blocks of a GRAD operation. -/

/-- The item that holds block `b`, its index, and the block's number within it. -/
def blockItem (items : List (List Nat)) (b : Nat) : Option (List Nat × Nat × Nat) :=
  (items.zipIdx.find? (fun x => decide (iIndex x.1 ≤ b) && decide (b < iIndex x.1 + iBlocks x.1))).map
    (fun x => (x.1, x.2, b - iIndex x.1))

/-- The 256 local values of a block (spec 08 R345); 0 at and beyond NELEM. -/
def blockValues (s : State) (items : List (List Nat)) (b : Nat) : State × List Val :=
  match blockItem items b with
  | none => (s, [])
  | some (it, _, k) =>
    let n := min 256 (iLen it - 256 * k)
    let (s, a) := cruRead s (iA it + 512 * k) (2 * n)
    let (s, c) := cruRead s (iB it + 512 * k) (2 * n)
    (s, (List.range 256).map (fun i =>
      if i < n then fp32 (toFp32 .rne ((fmtFP16.decode (field a (2 * i) 2)).add (fmtBF16.decode (field c (2 * i) 2))))
      else .fin false 0 0))

/-- A non-finite value of an operation with OVF_LOCAL = 0 is reported (spec 08 R356). -/
def reportNonFinite (s : State) (o : CruOp) (b : Nat) (vs : List Val) : State :=
  if dOvf o.words then s
  else match vs.findIdx? (fun v => v.isNaN || v.isInf) with
    | none => s
    | some i => match blockItem o.items b with
      | none => s
      | some (_, idx, k) => (ctlFault s 0x0306 idx (256 * k + i)).modOp (fun o => { o with unreported := true })

/-- The biased FP32 exponent of the largest finite |v| (spec 08 R348). -/
def maxExponent (vs : List Val) : Nat :=
  vs.foldl (fun m v => match v with
    | .fin _ _ _ => max m (bits (toFp32 .rne v).toNat 30 23)
    | _ => m) 0

/-- Element width of an attempt. -/
def passP (ws : List Nat) (attempt : Nat) : Nat := if dWide ws ∨ attempt = 5 then 15 else 7

def CruLane.scale (l : CruLane) (b : Nat) : Nat := ((l.scales.find? (fun x => x.1 == b)).map (·.2)).getD 1
def CruLane.val (l : CruLane) (k : Nat) : CruVal := (l.vals.find? (fun v => v.entry == k)).getD { entry := k, xs := [], ovf := false }
def CruLane.setVal (l : CruLane) (v : CruVal) : CruLane := { l with vals := l.vals.filter (fun x => x.entry != v.entry) ++ [v] }

/-- Change lane `i` of the running operation. -/
def State.modLane (s : State) (i : Nat) (f : CruLane → CruLane) : State :=
  s.modOp (fun o => { o with lanes := o.lanes.modify i f })

def State.modChan (s : State) (c : Nat) (f : CruChan → CruChan) : State :=
  s.modOp (fun o => { o with chans := o.chans.map (fun x => if x.ch = c then f x else x) })

def CruOp.chan (o : CruOp) (c : Nat) : Option CruChan := o.chans.find? (fun x => x.ch == c)

/-- Have the chunks been taken that a step waits for? -/
def CruOp.ripe (o : CruOp) (x : CruStep) : Bool :=
  x.needs.all (fun n => decide (n.2 ≤ ((o.chan n.1).map (·.rxDone)).getD 0))

/-- Does this device's own OVF stand (spec 08 R355, R356)? -/
def CruOp.ownOvf (o : CruOp) : Bool := dOvf o.words || o.unreported

/-! Shards and stages (spec 08 R337). -/

/-- Shard `k` of `n` of a range: its first entry and length. -/
def shard (first len n k : Nat) : Nat × Nat := (first + k * len / n, (k + 1) * len / n - k * len / n)

/-- Blocks that one chunk of a pass carries at most. -/
def chunkBlocks (premax : Bool) (p : Nat) : Nat := if premax then 16384 else if p = 7 then 64 else 32

/-- A range cut into chunks: first entry and length of each. -/
def cutChunks (size : Nat) : Nat → Nat → Nat → List (Nat × Nat)
  | 0, _, _ => []
  | fuel + 1, first, len =>
    if len = 0 then [] else (first, min len size) :: cutChunks size fuel (first + size) (len - size)

def shardChunks (size first len n k : Nat) : List (Nat × Nat) :=
  let x := shard first len n k
  cutChunks size x.2 x.1 x.2

/-- Stages of a pass over a list of `len` entries. -/
def passStages (ws : List Nat) (chans : List Nat) (len : Nat) : List CruStage :=
  match chans with
  | [c] => [⟨0, c, 0, len⟩, ⟨1, c, 0, len⟩, ⟨2, c, 0, len⟩]
  | [c0, c1] =>
    let n0 := ringSize ws c0
    let p0 := ringPos ws c0 (dPos ws)
    let sh := shard 0 len n0 ((p0 + 1) % n0)
    [⟨0, c0, 0, len⟩, ⟨0, c1, sh.1, sh.2⟩, ⟨1, c1, sh.1, sh.2⟩, ⟨2, c1, sh.1, sh.2⟩, ⟨2, c0, 0, len⟩]
  | _ => []

/-- Chunks sent and received in a stage on a ring, in order. -/
def stageChunks (ws : List Nat) (st : CruStage) (size : Nat) : List (Nat × Nat) × List (Nat × Nat) :=
  let n := ringSize ws st.ch
  let p := ringPos ws st.ch (dPos ws)
  let sh := fun k => shardChunks size st.first st.len n (k % n)
  let ts := List.range (n - 1)
  if st.kind = 0 then (ts.flatMap (fun t => sh (p + n - t)), ts.flatMap (fun t => sh (p + 2 * n - t - 1)))
  else (ts.flatMap (fun t => sh (p + 1 + n - t)), ts.flatMap (fun t => sh (p + n - t)))

/-! Sending. -/

/-- The value of an element of a statistic or of a chunk in a chain: what is held for it, else the own cells. -/
def statAddr (it : List Nat) (e : Nat) : Nat := if 4 * e < iLen it then iA it + 4 * e else iB it + (4 * e - iLen it)

def ownStat (s : State) (it : List Nat) (off n : Nat) : State × List Word :=
  (List.range n).foldl (fun (x : State × List Word) k =>
    let (s, d) := cruRead x.1 (statAddr it (off + k)) 4
    (s, x.2 ++ [posZero (wordAt d 0)])) (s, [])

def heldStat (s : State) (o : CruOp) (item off n : Nat) : State × List Word :=
  match o.held.find? (fun h => h.1 == item && h.2.1 == off) with
  | some h => (s, h.2.2)
  | none => ownStat s (o.items.getD item []) off n

/-- BF16 root bytes with +0 for −0 (spec 08 R358). -/
def rootBytes : List Byte → List Byte
  | a :: b :: d => (if a = 0#8 ∧ b = 0x80#8 then [0#8, 0#8] else [a, b]) ++ rootBytes d
  | d => d

/-- Pad a payload to whole lines. -/
def padLine (d : List Byte) : List Byte := d ++ zeros ((64 - d.length % 64) % 64)

/-- An element of a DATA block on the wire. -/
def wireElem (p : Nat) (x : Int) : List Byte := toLe (if p = 7 then 1 else 2) ((x % (2 ^ (p + 1) : Nat)).toNat)

/-- The own values for the close (spec 08 R363): OVF, FAULT, FAULT_POS, LOCAL_SUM. -/
def CruOp.ownClose (o : CruOp) : Bool × Bool × Nat × Word :=
  (o.ownOvf || o.lanes.any (·.ovfSeen), o.fault, if o.fault then dPos o.words else 0, o.locNorm)

def combineClose (a b : Bool × Bool × Nat × Word) : Bool × Bool × Nat × Word :=
  (a.1 || b.1, a.2.1 || b.2.1,
   if a.2.1 && b.2.1 then min a.2.2.1 b.2.2.1 else if a.2.1 then a.2.2.1 else if b.2.1 then b.2.2.1 else 0,
   fpAdd .rne a.2.2.2 b.2.2.2)

/-- Kind, words 4 and 5, PHASE, ATTEMPT, WIDE, OVF and payload of a chunk about to be sent on channel `c`. -/
def partContent (s : State) (o : CruOp) (c : Nat) (part : CruPart) :
    State × Nat × Nat × Nat × Nat × Nat × Bool × Bool × List Byte :=
  let lane := (o.lanes.find? (fun l => l.chans.contains c)).getD
    { chans := [], blocks := [], attempt := 0, premax := false, list := [], stages := [], running := none, vals := [],
      ovfSeen := false, pending := [], scales := [], maxima := [], finished := true }
  let own := o.ownOvf
  match part with
  | .data ph first n =>
    let p := passP o.words lane.attempt
    let vs := (List.range n).map (fun k => lane.val (first + k))
    let mask := (vs.zipIdx).foldl (fun m x => if x.1.xs.contains (satCode p) then m + 2 ^ x.2 else m) 0
    let scales := (List.range 64).map (fun k =>
      if k < n then BitVec.ofNat 8 (lane.scale (lane.list.getD (first + k) 0)) else 0#8)
    (s, 1, mask, first + 2 ^ 32 * (n - 1), ph, lane.attempt, p == 15, own || vs.any (·.ovf),
      scales ++ vs.flatMap (fun v => v.xs.flatMap (wireElem p)))
  | .premax ph first n =>
    let vs := (List.range n).map (fun k => lane.val (first + k))
    (s, 2, 0, first + 2 ^ 32 * (n - 1), ph, lane.attempt, false, own || vs.any (·.ovf),
      padLine (vs.map (fun v => BitVec.ofInt 8 (v.xs.headD 0))))
  | .stat item off n =>
    let (s, xs) := heldStat s o item off n
    (s, 3, item, off + 2 ^ 32 * (n - 1), 2, 0, false, own, padLine (xs.flatMap (fun x => toLe 4 x.toNat)))
  | .root item off n =>
    let it := o.items.getD item []
    let (s, st) := cruRead s (dStatus o.words + 16 * iIndex it) 16
    let (s, d) := cruRead s (iA it + 2 * off) (2 * n)
    (s, 4, item, off + 2 ^ 32 * (n - 1), 3, 0, false, own, st ++ zeros 48 ++ padLine (rootBytes d))
  | .fin => (s, 5, chF s Reg.CH_SENT_DIGEST c, chF s Reg.CH_SEQ_TX c, 4, 0, false, own, [])
  | .close b =>
    let v := o.closeVal.getD o.ownClose
    (s, 6, b2n v.1 + 2 * b2n v.2.1 + 4 * v.2.2.1, v.2.2.2.toNat, if b then 3 else 2, 0, false, own, [])

/-- Send one chunk on channel `c`, to NEXT_MEMBER over TX_PORT (spec 08 R329, R339 to R341, R361). -/
def sendPart (s : State) (o : CruOp) (c : Nat) (part : CruPart) : State :=
  let (s, kind, w4, w5, ph, att, wide, ovf, payload) := partContent s o c part
  let n := ringSize o.words c
  let p := ringPos o.words c (dPos o.words)
  let h : ChunkHead :=
    { kind := kind, epoch := dEpoch o.words, chan := c, phase := ph, attempt := att, wide := wide, ovf := ovf,
      fault := o.fault, opk := dOpk o.words, seq := chF s Reg.CH_SEQ_TX c, domain := dDomain o.words, src := p,
      dst := (p + 1) % n, lines := payload.length / 64, step := dStep o.words, w4 := w4, w5 := w5 }
  let d := h.bytes ++ payload
  let s := if kind = 5 then s else setChF s Reg.CH_SENT_DIGEST c (crc64More (BitVec.ofNat 64 (chF s Reg.CH_SENT_DIGEST c)) d).toNat
  let s := setChF s Reg.CH_SEQ_TX c (chF s Reg.CH_SEQ_TX c + 1)
  let s := setChF s Reg.CH_CREDITS c (chF s Reg.CH_CREDITS c - 1)
  (countCh s Reg.CH_CHUNKS_TX c).send (.chunk c (chF s Reg.CH_TX_PORT c) (chF s Reg.CH_NEXT_MEMBER c) d)

/-- Send a GRANT of `n` credits upstream, to PREV_MEMBER (spec 08 R340), over the port that faces it. -/
def sendGrant (s : State) (o : CruOp) (c n : Nat) : State :=
  let r := ringSize o.words c
  let p := ringPos o.words c (dPos o.words)
  let crc := (o.chan c).elim 0 (·.planCrc)
  let h : ChunkHead :=
    { kind := 7, epoch := dEpoch o.words, chan := c, phase := 0, attempt := 0, wide := false, ovf := false,
      fault := o.fault, opk := dOpk o.words, seq := 0, domain := dDomain o.words, src := p, dst := (p + r - 1) % r,
      lines := 0, step := dStep o.words, w4 := n, w5 := crc }
  (countCh s Reg.CH_CHUNKS_TX c).send (.chunk c (chF s Reg.CH_RX_PORT c) (chF s Reg.CH_PREV_MEMBER c) h.bytes)

/-- Send what channel `c` can send: the head of its list, while its condition holds and a credit is left. -/
def pumpChan : Nat → State → Nat → State
  | 0, s, _ => s
  | fuel + 1, s, c =>
    match s.cru.head? with
    | none => s
    | some o =>
      match o.chan c with
      | none => s
      | some x =>
        match x.tx with
        | [] => s
        | t :: ts =>
          if !o.ripe t ∨ chF s Reg.CH_CREDITS c = 0 then s
          else pumpChan fuel ((sendPart s o c t.part).modChan c (fun x => { x with tx := ts })) c

/-! The passes of a lane (spec 08 R350, Table 8.7). -/

/-- Enter the values of a pass: each entry's own quants, or its own exponent byte in a PREMAX pass. -/
def loadPass (s : State) (i : Nat) : State :=
  match s.cru.head? with
  | none => s
  | some o => match o.lanes[i]? with
    | none => s
    | some l =>
      let p := passP o.words l.attempt
      let r := l.list.zipIdx.foldl (fun (x : State × List CruVal) be =>
        let (s, vs) := blockValues x.1 o.items be.1
        let s := if l.premax then s else reportNonFinite s o be.1 vs
        let xs : List Int := if l.premax then [(maxExponent vs : Int)] else vs.map (fun v => quantElem v (l.scale be.1) p)
        (s, x.2 ++ [{ entry := be.2, xs := xs, ovf := false }])) (s, [])
      r.1.modLane i (fun l => { l with vals := r.2 })

/-- Begin a pass over `list`. -/
def beginPass (s : State) (i attempt : Nat) (premax : Bool) (list : List Nat) : State :=
  match s.cru.head? with
  | none => s
  | some o =>
    let s := s.modLane i (fun l =>
      { l with attempt := attempt, premax := premax, list := list, pending := [], running := none,
               stages := passStages o.words l.chans list.length })
    loadPass s i

/-- A complete block (spec 08 R352, R353, R366): the reduced elements, the block record, the history, the cullet and
the norms. -/
def completeBlock (s : State) (o : CruOp) (l : CruLane) (b : Nat) (xs : List Int) : State :=
  match blockItem o.items b with
  | none => s
  | some (it, _, k) =>
    let p := passP o.words l.attempt
    let e := l.scale b
    let n := min 256 (iLen it - 256 * k)
    let (s, vs) := blockValues s o.items b
    let qs := vs.map (fun v => quantElem v e p)
    let top := xs.foldl (fun m x => max m x.natAbs) 0
    let cul := (List.range n).flatMap (fun i =>
      let q := qs.getD i 0
      toLe 2 (let r := fmtBF16.round .rne ((vs.getD i (.fin false 0 0)).add (.fin (decide (0 < q)) q.natAbs ((e : Int) - 127)))
              if r = 0x8000 then 0 else r))
    let s := cruWrite s (iA it + 512 * k) ((xs.take n).flatMap (fun x => toLe 2 ((x % 65536).toNat)))
    let s := cruWrite s (iB it + 512 * k) cul
    let s := cruWrite s (dBrec o.words + 2 * b) (toLe 2 (e + 256 * b2n (p == 15) + 512 * l.attempt))
    let s := cruWrite s (dHistOut o.words + b) [BitVec.ofNat 8 (if top = 0 then 0 else min (bitLen top - 1 + e) 254)]
    let sq (ys : List Int) : Nat :=
      (toFp32 .rne (.fin false (ys.foldl (fun t y => t + y.natAbs * y.natAbs) 0) (2 * ((e : Int) - 127)))).toNat
    let s := if dNoise o.words then cruWrite s (dNorm o.words + 8 * b) (toLe 4 (sq xs) ++ toLe 4 (sq qs)) else s
    s.modOp (fun o => { o with repaired := o.repaired + b2n (decide (l.attempt ≥ 1)), wide := o.wide + b2n (l.attempt == 5) })

/-- What a member does with an entry it stores at the all-gather of a DATA pass (spec 08 R351). -/
def storeEntry (s : State) (i : Nat) (v : CruVal) : State :=
  match s.cru.head? with
  | none => s
  | some o => match o.lanes[i]? with
    | none => s
    | some l =>
      let s := s.modLane i (fun l => l.setVal v)
      if l.premax then s
      else if v.ovf || o.ownOvf then s.modLane i (fun l => { l with ovfSeen := true })
      else
        let b := l.list.getD v.entry 0
        if v.xs.contains (satCode (passP o.words l.attempt)) then s.modLane i (fun l => { l with pending := l.pending ++ [b] })
        else completeBlock s o l b v.xs

/-- FP32 sums in ascending block index (spec 08 R367): RED_SQNORM and LOCAL_SQNORM. -/
def formNorms (s : State) : State :=
  match s.cru.head? with
  | none => s
  | some o =>
    if !dNoise o.words ∨ o.ownClose.1 then s
    else
      let r := (List.range (dNBlocks o.words)).foldl (fun (x : State × Word × Word) b =>
        let (s, d) := cruRead x.1 (dNorm o.words + 8 * b) 8
        (s, fpAdd .rne x.2.1 (wordAt d 0), fpAdd .rne x.2.2 (wordAt d 4))) (s, 0#32, 0#32)
      r.1.modOp (fun o => { o with redNorm := r.2.1, locNorm := r.2.2 })

/-! Chains and broadcasts (spec 08 R338). An event is a channel, whether the chunk is received, and its part. -/

abbrev CruEvent := Nat × Bool × CruPart

/-- The part of a chain on one ring: relative position 1 is first, 0 last. -/
def ringChain (c n rel : Nat) (part : CruPart) : List CruEvent :=
  if n ≤ 1 then [] else if rel = 0 then [(c, true, part)] else if rel = 1 then [(c, false, part)] else [(c, true, part), (c, false, part)]

/-- The part of a broadcast on one ring: relative position 0 is first, n − 1 last. -/
def ringBcast (c n rel : Nat) (part : CruPart) : List CruEvent :=
  if n ≤ 1 then [] else if rel = 0 then [(c, false, part)] else if rel + 1 = n then [(c, true, part)] else [(c, true, part), (c, false, part)]

def relPos (ws : List Nat) (c o : Nat) : Nat :=
  let n := ringSize ws c
  (ringPos ws c (dPos ws) + n - ringPos ws c o) % n

def chainEvents (ws : List Nat) (chans : List Nat) (o : Nat) (part : CruPart) : List CruEvent :=
  match chans with
  | [c] => ringChain c (ringSize ws c) (relPos ws c o) part
  | [c0, c1] =>
    ringChain c0 (ringSize ws c0) (relPos ws c0 o) part ++
    (if relPos ws c0 o = 0 then ringChain c1 (ringSize ws c1) (relPos ws c1 o) part else [])
  | _ => []

def bcastEvents (ws : List Nat) (chans : List Nat) (o : Nat) (part : CruPart) : List CruEvent :=
  match chans with
  | [c] => ringBcast c (ringSize ws c) (relPos ws c o) part
  | [c0, c1] =>
    (if relPos ws c0 o = 0 then ringBcast c1 (ringSize ws c1) (relPos ws c1 o) part else []) ++
    ringBcast c0 (ringSize ws c0) (relPos ws c0 o) part
  | _ => []

/-- Enter events into the channels' lists: each waits for every chunk that the events before it receive (spec 08 R338). -/
def addEvents : List CruEvent → List (Nat × Nat) → State → State
  | [], _, s => s
  | (c, true, part) :: es, needs, s =>
    match (s.cru.head?.bind (fun o => o.chan c)) with
    | none => addEvents es needs s
    | some x => addEvents es (needs ++ [(c, x.rxDone + x.rx.length + 1)])
        (s.modChan c (fun x => { x with rx := x.rx ++ [{ part := part, needs := needs }] }))
  | (c, false, part) :: es, needs, s =>
    addEvents es needs (s.modChan c (fun x => { x with tx := x.tx ++ [{ part := part, needs := needs }] }))

/-! Progress of the lanes. -/

/-- Have the channels of lane `i` nothing left to receive or to send? -/
def laneIdle (s : State) (i : Nat) : Bool :=
  match s.cru.head? with
  | none => false
  | some o => match o.lanes[i]? with
    | none => false
    | some l => l.chans.all (fun c => ((o.chan c).map (fun x => x.rx.isEmpty && x.tx.isEmpty)).getD true)

/-- The next stage of a pass, or the next pass, of lane `i`; `fuel` bounds the stages with nothing to receive. -/
def advanceLane : Nat → State → Nat → State
  | 0, s, _ => s
  | fuel + 1, s, i =>
    match s.cru.head? with
    | none => s
    | some o => match o.lanes[i]? with
      | none => s
      | some l =>
        if l.finished then s
        else match l.stages with
          | st :: rest =>
            let s := s.modLane i (fun l => { l with stages := rest, running := some st })
            if st.kind = 1 then
              let n := ringSize o.words st.ch
              let sh := shard st.first st.len n ((ringPos o.words st.ch (dPos o.words) + 1) % n)
              advanceLane fuel ((List.range sh.2).foldl (fun s k => storeEntry s i (l.val (sh.1 + k))) s) i
            else
              let x := stageChunks o.words st (chunkBlocks l.premax (passP o.words l.attempt))
              let mk := fun (r : Nat × Nat) =>
                if l.premax then CruPart.premax (st.kind / 2) r.1 r.2 else CruPart.data (st.kind / 2) r.1 r.2
              let base := ((o.chan st.ch).map (fun c => c.rxDone + c.rx.length)).getD 0
              let lead := (shardChunks (chunkBlocks l.premax (passP o.words l.attempt)) st.first st.len (ringSize o.words st.ch)
                ((ringPos o.words st.ch (dPos o.words) + st.kind / 2) % ringSize o.words st.ch)).length
              let s := s.modChan st.ch (fun c =>
                { c with rx := c.rx ++ x.2.map (fun r => { part := mk r, needs := [] })
                         tx := c.tx ++ x.1.zipIdx.map (fun r =>
                           { part := mk r.1, needs := if r.2 < lead then [] else [(st.ch, base + (r.2 - lead) + 1)] }) })
              let s := pumpChan (x.1.length + 64) s st.ch
              if laneIdle s i then advanceLane fuel s i else s
          | [] =>
            if l.premax then
              let ms := (List.range l.list.length).map (fun k => (l.list.getD k 0, ((l.val k).xs.headD 0).toNat))
              let target := if l.attempt = 4 then 5 else 0
              let p := passP o.words target
              let sc := ms.map (fun x => (x.1, premaxScale x.2 (dM o.words) p))
              let s := s.modLane i (fun l => { l with scales := sc ++ l.scales.filter (fun y => !l.list.contains y.1) })
              let s := beginPass s i target false (if target = 5 then l.list else l.blocks)
              advanceLane fuel s i
            else
              let pend := l.list.filter (l.pending.contains ·)
              if l.ovfSeen || pend.isEmpty || l.attempt == 5 then
                let s := s.modLane i (fun l => { l with finished := true, running := none })
                addEvents (l.chans.flatMap (fun c => if ringSize o.words c ≤ 1 then [] else [(c, false, .fin)])) [] s
                  |> addEvents (l.chans.flatMap (fun c => if ringSize o.words c ≤ 1 then [] else [(c, true, .fin)])) []
                  |> (fun s => l.chans.foldl (fun s c => pumpChan 64 s c) s)
              else if l.attempt < 3 then
                let s := s.modLane i (fun l => { l with scales := l.scales.map (fun y =>
                  if pend.contains y.1 then (y.1, min (y.2 + 2) 150) else y) })
                advanceLane fuel (beginPass s i (l.attempt + 1) false pend) i
              else advanceLane fuel (beginPass s i 4 true pend) i

/-! Taking received chunks (spec 08 R341). -/

/-- Take the contents of an accepted chunk: it must be the one awaited; any other content is ignored. -/
def takePart (s : State) (o : CruOp) (x : CruChan) (d : List Byte) : State :=
  let h := headOf d
  let c := x.ch
  let pop (s : State) : State := s.modChan c (fun x => { x with rx := x.rx.drop 1, rxDone := x.rxDone + 1 })
  let li := (o.lanes.findIdx? (fun l => l.chans.contains c)).getD 0
  match (x.rx.head?.map (·.part) : Option CruPart), h.kind with
  | some (.data ph first n), 1 =>
    match o.lanes[li]? with
    | none => s
    | some l =>
      let p := passP o.words l.attempt
      if h.phase ≠ ph ∨ h.attempt ≠ l.attempt ∨ h.wide ≠ (p == 15) ∨ bits h.w5 31 0 ≠ first ∨ bits h.w5 37 32 + 1 ≠ n then s
      else
        let bad := (List.range n).find? (fun k => field d (64 + k) 1 != l.scale (l.list.getD (first + k) 0))
        let s := match bad with
          | some k => chanFault s c 0x0315 (first + k)
              (field d (64 + k) 1 + 256 * l.scale (l.list.getD (first + k) 0) + 65536 * h.attempt)
          | none => s
        let w := if p = 7 then 1 else 2
        let elem (k i : Nat) : Int :=
          let v := field d (128 + 256 * w * k + w * i) w
          if v ≥ 2 ^ (8 * w - 1) then (v : Int) - 2 ^ (8 * w) else v
        let s := (List.range n).foldl (fun s k =>
          let xs := (List.range 256).map (elem k)
          let own := l.val (first + k)
          if ph = 0 then
            s.modLane li (fun l => l.setVal { entry := first + k, xs := List.zipWith (satAdd p) xs own.xs, ovf := h.ovf || own.ovf })
          else storeEntry s li { entry := first + k, xs := xs, ovf := h.ovf }) s
        pop s
  | some (.premax ph first n), 2 =>
    if h.phase ≠ ph ∨ bits h.w5 31 0 ≠ first ∨ bits h.w5 45 32 + 1 ≠ n then s
    else
      pop ((List.range n).foldl (fun s k =>
        let v : Int := field d (64 + k) 1
        s.modLane li (fun l =>
          let own := l.val (first + k)
          l.setVal { entry := first + k, xs := [if ph = 0 then max v (own.xs.headD 0) else v], ovf := h.ovf || own.ovf })) s)
  | some (.stat item off n), 3 =>
    if bits h.w4 31 0 ≠ item ∨ bits h.w5 31 0 ≠ off ∨ bits h.w5 43 32 + 1 ≠ n then s
    else
      let it := o.items.getD item []
      let (s, own) := heldStat s o item off n
      let sum := (List.range n).map (fun k => posZero (fpAdd .rne (wordAt d (64 + 4 * k)) (own.getD k 0#32)))
      let s := pop s
      let more : Bool := match s.cru.head? with
        | some o => o.chans.any (fun y => (y.rx ++ y.tx).any (fun t => t.part == .stat item off n))
        | none => false
      if more ∨ iOwner it ≠ dPos o.words then s.modOp (fun o => { o with held := o.held.filter (fun (y : Nat × Nat × List Word) => !(y.1 == item && y.2.1 == off)) ++ [(item, off, sum)] })
      else sum.zipIdx.foldl (fun s (y : Word × Nat) => cruWrite s (statAddr it (off + y.2)) (toLe 4 y.1.toNat)) s
  | some (.root item off n), 4 =>
    if bits h.w4 31 0 ≠ item ∨ bits h.w5 31 0 ≠ off ∨ bits h.w5 44 32 + 1 ≠ n then s
    else
      let it := o.items.getD item []
      let s := cruWrite s (iA it + 2 * off) ((d.drop 128).take (2 * n))
      pop (cruWrite s (dStatus o.words + 16 * iIndex it) ((d.drop 64).take 16))
  | some .fin, 5 =>
    let got := chF s Reg.CH_RECV_DIGEST c
    pop (if h.w4 ≠ got ∨ bits h.w5 31 0 ≠ h.seq then chanFault s c 0x0316 c (got % 2 ^ 32) else s)
  | some (.close b), 6 =>
    if h.phase ≠ (if b then 3 else 2) then s
    else
      let v : Bool × Bool × Nat × Word := (bit h.w4 0, bit h.w4 1, bits h.w4 13 2, BitVec.ofNat 32 h.w5)
      let v := if b then v else combineClose v (o.closeVal.getD o.ownClose)
      pop (s.modOp (fun o => { o with closeVal := some v }))
  | _, _ => s

/-- Take what channel `c` holds and awaits, in SEQ order; each chunk taken frees its buffer, and returns a credit. A
chunk of a stage that this device has not reached waits in its buffer (spec 08 R330, R340, R341). -/
def drainBuf : Nat → State → Nat → State
  | 0, s, _ => s
  | fuel + 1, s, c =>
    match s.cru.head?.bind (fun o => (o.chan c).map (fun x => (o, x))) with
    | none => s
    | some (o, x) =>
      match x.buf, x.rx with
      | d :: ds, r :: _ =>
        if !o.ripe r then s else
        let s := takePart (s.modChan c (fun x => { x with buf := ds })) o x d
        let s := if (headOf d).kind = 5 then s
          else setChF s Reg.CH_RECV_DIGEST c (crc64More (BitVec.ofNat 64 (chF s Reg.CH_RECV_DIGEST c)) d).toNat
        drainBuf fuel (match s.cru.head? with
          | some o => sendGrant s o c 1
          | none => s) c
      | _, _ => s

/-! The close (spec 08 R363, R364). -/

/-- Has every channel exchanged END, and every lane finished its passes? -/
def CruOp.quiet (o : CruOp) : Bool :=
  o.lanes.all (·.finished) && o.chans.all (fun c => c.rx.isEmpty && c.tx.isEmpty)

/-- The result record (spec 08 Table 8.8). -/
def resultRecord (o : CruOp) (outcome faultPos : Nat) (sum : Word) (time : Nat) : List Byte :=
  toLe 8 (outcome + 16 * b2n o.fault + 65536 * faultPos) ++ toLe 4 o.repaired ++ toLe 4 o.wide ++ toLe 8 o.premaxed ++
    toLe 4 o.redNorm.toNat ++ toLe 4 o.locNorm.toNat ++ toLe 8 sum.toNat ++ toLe 8 time ++ zeros 16

/-- What the end of an operation means for its step: a GRAD that is over lets the STAT follow; one that closed OK leaves its
descriptor for the update (spec 08 R330, R365). A STAT that closed OK makes its roots due in the next step, and after one that closed
at all each side begins anew (spec 07 R298, 08 R359). A ROOT that closed delivers its roots (spec 08 R332, R360). -/
def rootEffects (s : State) (o : CruOp) (outcome : Nat) : State :=
  let id := dDomain o.words
  let closed := outcome == 0 || outcome == 2
  let mine (f : StepRun → StepRun) (s : State) : State := s.modDomain id (fun d =>
    { d with run := d.run.map (fun r => if r.step = dStep o.words then f r else r) })
  match dOpk o.words with
  | 1 => mine (fun r => { r with
      gradClosed := true
      gradWords := if outcome = 0 then o.words else r.gradWords
      gradItems := if outcome = 0 then o.items else r.gradItems }) s
  | 2 =>
    let s := mine (fun r => { r with
      statOpen := false, statClosed := closed, dueRoots := if outcome = 0 then o.items.map iA else [] }) s
    if closed then dropGathered s id else s
  | 3 =>
    let s := if outcome = 2 then
        o.items.foldl (fun s it => cruWrite s (dStatus o.words + 16 * iIndex it) (toLe 4 (0x06 + 2 ^ 8 + 2 ^ 10) ++ zeros 12)) s
      else s
    if closed then
      let rs := o.items.map (fun it => (⟨iA it, (Memory.read s.dram (dStatus o.words + 16 * iIndex it)).toNat⟩ : ArrivedRoot))
      s.modDomain id (fun d => { d with roots := d.roots ++ rs })
    else s
  | _ => s

/-- Areas that an operation leaves undefined: the accumulators, cullets and reduced area of an aborted or timed-out
GRAD (spec 08 R364), and, after a disagreement between the members' descriptors, HIST_OUT and the statistics too, on every
member (R592). A disagreement that this device met itself is certain; one that only other members met it cannot tell from any other
FAULT or TIMEOUT, so whether there was one is a free value (log entry 113). -/
def undefineOp (s : State) (o : CruOp) (outcome : Nat) : State :=
  let grad := dOpk o.words = 1
  let failed := outcome == 2 || outcome == 3
  let elsewhere := failed && !o.mismatch && decide (dM o.words > 1)
  let broken := failed && (o.mismatch || (elsewhere && Config.freeNat s.free % 2 == 1))
  let s := if elsewhere then s.useFree else s
  let s := if grad ∧ (outcome = 3 ∨ outcome = 5 ∨ broken) then
      cruUndefine (o.items.foldl (fun s it => cruUndefine (cruUndefine s (iA it) (2 * iLen it)) (iB it) (2 * iLen it)) s)
        (dBrec o.words) (2 * dNBlocks o.words)
    else s
  if broken then
    if grad then cruUndefine s (dHistOut o.words) (dNBlocks o.words)
    else if dOpk o.words = 2 then o.items.foldl (fun s it => cruUndefine (cruUndefine s (iA it) (iLen it)) (iB it) (iLen it)) s
    else s
  else s

/-- The operation in focus ends with an outcome: result record, interrupts, counters, its channels freed. OP_DONE and OPS_DONE
tell of records written (spec 08 Tables 8.10, 8.11): an operation refused for its RESULT address has none. -/
def endOp (s : State) (outcome faultPos : Nat) (sum : Word) (prev : Nat) : State :=
  match s.cru.head? with
  | none => s
  | some o =>
    let s := undefineOp s o outcome
    let s := rootEffects s o outcome
    let fp := if outcome = 2 then faultPos else 0
    let s := if outcome = 4 ∧ (!addrOk (dw o.words 11) ∨ !inWindows (domainWindows s (dDomain o.words)) true (dResult o.words) 64) then s
      else (((dramWrite s (dResult o.words) (resultRecord o outcome fp sum s.now)).1).countF Reg.CRU_OPS_DONE 8 0 1).raise 3 0 8 1
    let s := match outcome with
      | 1 => (s.countF Reg.CRU_OPS_OVF 8 0 1).raise 3 0 8 3
      | 2 => (s.countF Reg.CRU_OPS_FAULT 8 0 1).raise 3 0 8 2
      | 3 => (s.countF Reg.CRU_OPS_TIMEOUT 8 0 1).raise 3 0 8 4
      | _ => s
    let s := ((s.countF Reg.CRU_BLOCKS_REPAIRED 8 0 o.repaired).countF Reg.CRU_BLOCKS_WIDE 8 0 o.wide).countF Reg.CRU_BLOCKS_PREMAX 8 0 o.premaxed
    let s := o.chans.foldl (fun s c => (setChF s Reg.CH_OPEN c.ch 0).raise 3 0 (c.ch / 2) 1) s
    let late := if outcome = 3 then
        o.chans.map (fun c => (⟨c.ch, dEpoch o.words, dDomain o.words, dStep o.words, dOpk o.words⟩ : CruLate)) else []
    { s with
        cru := s.cru.drop 1
        cruLate := s.cruLate.filter (fun (x : CruLate) => !o.chans.any (fun c => c.ch == x.ch)) ++ late
        cruDone := s.cruDone ++ [{ words := o.words, items := o.items, outcome := outcome, localFault := o.fault,
                                   faultPos := fp, prevMember := prev, redNorm := o.redNorm, groupSum := sum }] }

/-- The group's result stands: the first outcome that applies (spec 08 R364). -/
def closeWith (s : State) (v : Bool × Bool × Nat × Word) : State :=
  endOp s (if v.2.1 then 2 else if v.1 then 1 else 0) v.2.2.1 v.2.2.2 0

/-- One round of progress: sends, buffered chunks, stages and passes of every lane. -/
def progressOp (s : State) : State :=
  match s.cru.head? with
  | none => s
  | some o =>
    let s := o.chans.foldl (fun s c => pumpChan 4096 s c.ch) s
    let s := o.chans.foldl (fun s c => drainBuf 16 s c.ch) s
    let s := o.chans.foldl (fun s c => pumpChan 4096 s c.ch) s
    (List.range o.lanes.length).foldl (fun s i => if laneIdle s i then advanceLane 64 s i else s) s

/-- The close begins, or ends the operation (spec 08 R363). -/
def closeOp (s : State) : State :=
  match s.cru.head? with
  | none => s
  | some o =>
    if !o.quiet then s
    else if !o.closing then
      let s := (formNorms s).modOp (fun o => { o with closing := true })
      if dM o.words = 1 then
        match s.cru.head? with
        | some o => closeWith s o.ownClose
        | none => s
      else
        let lane := ((o.lanes.head?).map (·.chans)).getD []
        let s := addEvents (chainEvents o.words lane 0 (.close false) ++ bcastEvents o.words lane 0 (.close true)) [] s
        lane.foldl (fun s c => pumpChan 64 s c) s
    else match o.closeVal with
      | some v => closeWith s v
      | none => s

/-- Go on after progress, at most `fuel` rounds: a round with chunks in the buffers may be followed by another. -/
def settleGo : Nat → State → State
  | 0, s => s
  | fuel + 1, s =>
    let n := s.cru.length
    let s := closeOp (progressOp s)
    match s.cru.head? with
    | none => s
    | some o => if s.cru.length < n then s else if o.chans.any (fun c => !c.buf.isEmpty && c.rx.head?.any o.ripe) then settleGo fuel s else s

def settleOp (s : State) : State := settleGo 64 s

/-! Receipt (spec 08 R342, Table 8.6). -/

/-- Rows 5, 6 and the taking of a chunk other than GRANT. -/
def acceptChunk (s : State) (o : CruOp) (x : CruChan) (d : List Byte) : State :=
  let h := headOf d
  let c := x.ch
  let n := ringSize o.words c
  let p := ringPos o.words c (dPos o.words)
  if h.src ≠ (p + n - 1) % n ∨ h.dst ≠ p then
    (chanFault s c 0x0313 c (h.src + 4096 * h.dst)).modOp (fun o => { o with mismatch := true })
  else if h.seq ≠ chF s Reg.CH_SEQ_RX c ∨ x.buf.length ≥ 8 then chanFault s c 0x0314 c h.seq
  else
    let s := setChF s Reg.CH_SEQ_RX c (h.seq + 1)
    let s := countCh s Reg.CH_CHUNKS_RX c
    settleOp (s.modChan c (fun x => { x with progress := s.now, buf := x.buf ++ [d] }))

/-- A GRANT (spec 08 R340, rows 5 and 8 of Table 8.6): it comes from the downstream member. -/
def acceptGrant (s : State) (o : CruOp) (x : CruChan) (d : List Byte) : State :=
  let h := headOf d
  let c := x.ch
  let n := ringSize o.words c
  let p := ringPos o.words c (dPos o.words)
  if h.src ≠ (p + 1) % n ∨ h.dst ≠ p then
    (chanFault s c 0x0313 c (h.src + 4096 * h.dst)).modOp (fun o => { o with mismatch := true })
  else
    let s := countCh (s.modChan c (fun x => { x with progress := s.now })) Reg.CH_CHUNKS_RX c
    let s := setChF s Reg.CH_CREDITS c (min 8 (chF s Reg.CH_CREDITS c + h.w4))
    let s := if h.w5 ≠ x.planCrc then
        (chanFault s c 0x0318 c h.w5).modOp (fun o => { o with mismatch := true })
      else s
    settleOp s

/-- The running operation that holds channel `c`. -/
def opOn (s : State) (c : Nat) : Option Nat := s.cru.findIdx? (fun o => (o.chan c).isSome)

/-- The device time at which the hop timer of a channel expires (spec 08 R343). -/
def hopExpiry (s : State) (x : CruChan) : Nat := x.progress + s.getF Reg.CRU_HOP_TIMEOUT 8 0

/-- The operation in focus ends TIMEOUT on the channel whose timer expired (spec 08 R343). -/
def timeoutOp (s : State) (c : Nat) : State :=
  let s := chanFault s c 0x0317 c (chF s Reg.CH_SEQ_RX c)
  endOp s 3 0 0#32 (chF s Reg.CH_PREV_MEMBER c)

/-- The channel of an operation on which progress stopped first, where its timer expired before time `t`. -/
def expiredChan (s : State) (o : CruOp) (t : Nat) : Option CruChan :=
  (o.chans.filter (fun x => decide (hopExpiry s x < t))).foldl (fun (b : Option CruChan) x => match b with
    | none => some x
    | some y => if hopExpiry s x < hopExpiry s y then some x else b) none

/-- Rows 2 to 8 of Table 8.6 for a chunk on a channel of the operation in focus. -/
def chunkOnOpen (s : State) (c : Nat) (d : List Byte) : State :=
  let h := headOf d
  match s.cru.head?.bind (fun o => (o.chan c).map (fun x => (o, x))) with
  | none => s
  | some (o, x) =>
    if h.epoch ≠ dEpoch o.words then countCh s Reg.CH_EPOCH_DROPS c
    else if h.domain ≠ dDomain o.words ∨ h.step ≠ dStep o.words ∨ h.opk ≠ dOpk o.words then countCh s Reg.CH_STALE_DROPS c
    else if chunkReserved d then chanFault s c 0x0312 c (field d 0 4)
    else if h.kind = 7 then acceptGrant s o x d
    else acceptChunk s o x d

/-- A chunk on a channel that no operation holds: one that an ended operation awaited is discarded (spec 08 R343), any other fails
row 2 of Table 8.6, a GRANT too. DEDUCED: R340's GRANT that comes before the operation it belongs to is open is dropped like any
chunk (log entry 76). -/
def chunkOnClosed (s : State) (c : Nat) (d : List Byte) : State :=
  let h := headOf d
  if s.cruLate.any (fun l => l.ch == c && l.epoch == h.epoch && l.domain == h.domain && l.step == h.step && l.opk == h.opk) then
    countCh s Reg.CH_LATE_DISCARDS c
  else countCh s Reg.CH_EPOCH_DROPS c

/-- A chunk arrives on channel `c` (spec 08 R342, Table 8.6), its last byte at device time `t`. A timer of its operation that
expired before `t` ends the operation first: the chunk is late (R343). A slice with ENABLE = 0 takes none but for work in progress
(spec 14 R550). -/
def chunkArrives (s : State) (c : Nat) (d : List Byte) (t : Nat) : State :=
  if s.getF (Hdr.ENABLE 3) (c / 2) 0 = 0 ∧ chF s Reg.CH_OPEN c = 0 then s.atTime t
  else
    let late := (opOn s c).bind (fun k => (s.cru[k]?).bind (fun o => (expiredChan s o t).map (fun x => (k, x.ch))))
    let s := match late with
      | some (k, e) => withOp s k (fun s => timeoutOp (s.atTime t) e)
      | none => s.atTime t
    match opOn s c with
    | none => if headGood d then chunkOnClosed s c d else s.recordErr 3 0 (c / 2) 0x0311 c (field d 60 4)
    | some k => withOp s k (fun s => if headGood d then chunkOnOpen s c d else chanFault s c 0x0311 c (field d 60 4))

/-- A chunk of one kind: the command of another kind does not apply (spec 08 Table 8.5). -/
def chunkOfKind (s : State) (k c : Nat) (d : List Byte) (t : Nat) : State :=
  if headGood d ∧ (headOf d).kind ≠ k then s else chunkArrives s c d t

/-! The start of an operation (spec 08 R331, R335, R340). -/

/-- The accepted count of the crucible, for CP1's journal (spec 11 R479). -/
def cruAccepted (s : State) : Nat := s.getF Reg.CRU_OPS_DONE 8 0 + s.cruQ.length + s.cru.length

/-- Operations queued or running (spec 08 Table 8.11). -/
def cruDepth (s : State) : Nat := s.cruQ.length + s.cru.length

/-- OP_PUSH: the descriptor address is queued; the queue of 16 counts what runs, too (spec 08 R331, Table 8.11). -/
def pushOp (s : State) : State :=
  if s.getF (Hdr.ENABLE 3) 8 0 = 0 then s
  else if cruDepth s ≥ 16 then s.recordErr 3 0 8 0x0305 (s.getF Reg.CRU_OP_ADDR 8 0 % 2 ^ 32) 0
  else { s with cruQ := s.cruQ ++ [s.getF Reg.CRU_OP_ADDR 8 0] }

/-- The words of a descriptor or an item list in DRAM. -/
def wordsAt (d : List Byte) (n : Nat) : List Nat := (List.range n).map (word64 d)

/-- The lanes of an operation, with no pass begun. -/
def opLanes (ws : List Nat) (items : List (List Nat)) : List CruLane :=
  let heads := (dChans ws).filter (fun c => !dTorus ws || c % 2 == 0)
  heads.map (fun c =>
    { chans := if dTorus ws then [c, c + 1] else [c]
      blocks := if dOpk ws = 1 then
          (items.filter (fun it => iChan it == c)).flatMap (fun it => (List.range (iBlocks it)).map (· + iIndex it)) else []
      attempt := 0, premax := false, list := [], stages := [], running := none, vals := [], ovfSeen := false, pending := [],
      scales := [], maxima := [], finished := dOpk ws != 1 })

/-- The chunks of a STAT or ROOT item. -/
def itemParts (ws : List Nat) (items : List (List Nat)) (k : Nat) : List CruPart :=
  let it := items.getD k []
  if dOpk ws = 2 then (cutChunks 4096 (iLen it) 0 (iLen it / 2)).map (fun r => .stat k r.1 r.2)
  else (cutChunks 8192 (iLen it) 0 (iLen it / 2)).map (fun r => .root k r.1 r.2)

/-- The scales of attempt 0 of the blocks of a lane, from history; those with none (spec 08 R347, R348). -/
def laneHistory (s : State) (ws : List Nat) (l : CruLane) : State × List (Nat × Nat) × List Nat :=
  l.blocks.foldl (fun (x : State × List (Nat × Nat) × List Nat) b =>
    let (s, d) := cruRead x.1 (dHistIn ws + b) 1
    let h := field d 0 1
    if h = 0 then (s, x.2.1 ++ [(b, 1)], x.2.2 ++ [b])
    else (s, x.2.1 ++ [(b, histScale h (passP ws 0))], x.2.2)) (s, [], [])

/-- Begin the passes of GRAD lane `i`. -/
def startLane (s : State) (i : Nat) : State :=
  match s.cru.head? with
  | none => s
  | some o => match o.lanes[i]? with
    | none => s
    | some l =>
      let (s, sc, fresh) := laneHistory s o.words l
      let s := s.modLane i (fun l => { l with scales := sc })
      let s := s.modOp (fun o => { o with premaxed := o.premaxed + fresh.length })
      if fresh.isEmpty then beginPass s i 0 false l.blocks else beginPass s i 0 true fresh

/-- The own roots that a member broadcasts are normalised in place, and a lone owner's statistics too
(spec 08 R357, R358). -/
def normaliseOwn (s : State) (ws : List Nat) (it : List Nat) : State :=
  if iOwner it ≠ dPos ws then s
  else if dOpk ws = 3 then
    let (s, d) := cruRead s (iA it) (iLen it)
    cruWrite s (iA it) (rootBytes d)
  else if dM ws = 1 then
    (List.range (iLen it / 2)).foldl (fun s e =>
      let (s, d) := cruRead s (statAddr it e) 4
      cruWrite s (statAddr it e) (toLe 4 (posZero (wordAt d 0)).toNat)) s
  else s

/-- An operation of which nothing has run. -/
def newOp (addr : Nat) (ws : List Nat) (items : List (List Nat)) : CruOp :=
  { addr := addr, words := ws, items := items, chans := [], lanes := opLanes ws items, fault := false, unreported := false,
    mismatch := false, repaired := 0, wide := 0, premaxed := 0, held := [], closing := false, closeVal := none,
    redNorm := 0#32, locNorm := 0#32 }

/-- Open the channels of the operation in focus and begin it (spec 08 R340). -/
def openOp (s : State) (op : CruOp) : State :=
  let ws := op.words
  let items := op.items
  let chans := dChans ws
  let s := { s with cruLate := s.cruLate.filter (fun (l : CruLate) => !chans.contains l.ch) }
  let s := chans.foldl (fun s c =>
    (fun s => if ringSize ws c > 1 then sendGrant s op c 8 else s) (setChF (setChF (setChF (setChF (setChF ((setChF s Reg.CH_OPEN c 1).raise 3 0 (c / 2) 1) Reg.CH_CREDITS c 0) Reg.CH_SEQ_TX c 0) Reg.CH_SEQ_RX c 0)
      Reg.CH_SENT_DIGEST c 0) Reg.CH_RECV_DIGEST c 0)) s
  let s :=
    if dOpk ws = 1 then
      let named := items.map (fun it => (iB it, iLen it))
      let zero := (s.domain? (dDomain ws)).any (·.zeroCul)
      let s := if zero then { s with dram := named.foldl (fun m c => Memory.clear m c.1 (c.1 + 2 * c.2)) s.dram } else s
      let s := s.modDomain (dDomain ws) (fun d => { d with cullets := named, zeroCul := false })
      (List.range op.lanes.length).foldl (fun s i => advanceLane 64 (startLane s i) i) s
    else
      let s := items.foldl (fun s it => normaliseOwn s ws it) s
      let laneOf (it : List Nat) : List Nat := if dTorus ws then [iChan it, iChan it + 1] else [iChan it]
      let s := (List.range items.length).foldl (fun s k =>
        let it := items.getD k []
        (itemParts ws items k).foldl (fun s part =>
          addEvents (if dOpk ws = 2 then chainEvents ws (laneOf it) (iOwner it) part else bcastEvents ws (laneOf it) (iOwner it) part)
            [] s) s) s
      let live := chans.filter (fun c => decide (ringSize ws c > 1))
      addEvents (live.map (fun c => (c, true, .fin))) [] (addEvents (live.map (fun c => (c, false, .fin))) [] s)
  settleOp s

/-- An operation begins beside those that run, as the newest of them. -/
def beginOp (s : State) (addr : Nat) (ws : List Nat) (items : List (List Nat)) : State :=
  let op : CruOp := { newOp addr ws items with
    chans := (dChans ws).map (fun c => { ch := c, rx := [], tx := [], buf := [], rxDone := 0, progress := s.now, planCrc := planCrc ws items c }) }
  withOp { s with cru := s.cru ++ [op] } s.cru.length (openOp · op)

/-- The operation at the head of the queue is checked, and refused, or starts once its channels are free (spec 08 R331,
R335). `k` is the kind that the command names; a reserved kind goes with GRAD. -/
def startOp (s : State) (k t : Nat) : State :=
  if s.getF (Hdr.FREEZE 3) 8 0 = 1 then s
  else match s.cruQ with
    | [] => s
    | addr :: rest =>
      let x := dramRead (s.atTime t) addr 128
      match x.2.1 with
      | some e => { x.1.recordErr 3 0 8 0x0307 (addr % 2 ^ 32) e with cruQ := rest }
      | none =>
        let ws := wordsAt x.2.2 16
        let opk := dOpk ws
        if (if opk = 2 ∨ opk = 3 then opk else 1) ≠ k then s
        else
          let r := dramRead x.1 (dItems ws) (32 * dNItems ws)
          let bad := (descReserved ws).isSome
          let v := if bad then x.1 else r.1
          let items := if bad then [] else (List.range (dNItems ws)).map (fun i => wordsAt (r.2.2.drop (32 * i)) 4)
          match opRefusal v addr ws items with
          | some (c, i0, i1) =>
            endOp { v.recordErr 3 0 8 c i0 i1 with cruQ := rest, cru := newOp addr ws [] :: v.cru } 4 0 0#32 0
          | none =>
            if (dChans ws).any (fun c => (opOn v c).isSome) then s
            else beginOp { v with cruQ := rest } addr ws items

/-- OP_ABORT: the running operation ends ABORTED (spec 08 R364). DESIGN CHOICE: the oldest, where several run (log entry 114). -/
def abortOp (s : State) : State := endOp s 5 0 0#32 0

/-- Every operation of a domain of steps from `a` upward ends, aborted, and those that wait in the queue leave it (spec 09 R381). -/
def dropOps : Nat → State → Nat → Nat → State
  | 0, s, _, _ => s
  | fuel + 1, s, id, a =>
    match s.cru.findIdx? (fun o => dDomain o.words == id && decide (a ≤ dStep o.words)) with
    | some k => dropOps fuel (withOp s k abortOp) id a
    | none => { s with cruQ := s.cruQ.filter (fun x =>
        let ws := wordsAt (Memory.readN s.dram x 128) 16
        !(dDomain ws == id && decide (a ≤ dStep ws))) }

/-- The hop timer of channel `c` expires (spec 08 R343): the handler re-checks the last progress. -/
def hopTimeout (s : State) (c t : Nat) : State :=
  match opOn s c with
  | none => s
  | some k => withOp s k (fun s =>
      match s.cru.head?.bind (fun o => o.chan c) with
      | none => s
      | some x => if t < hopExpiry s x then s else timeoutOp (s.atTime t) c)

end Sys2Proof.Machine
end

