-- ==== Sys2Proof/Machine/AccessOps.lean ====
section
/-! DEFINITION. The access slot and the access engine: loads, stores, descriptors, their checks and the rows they
move (spec 02 R62, R93; 03 R125 to R138, Table 3.6). -/

namespace Sys2Proof.Machine

set_option Elab.async false

/-! Checks of descriptors (spec 03 Table 3.6). -/

/-- The first word that holds a reserved value (spec 03 Table 3.6, R129). -/
def AccDesc.reservedWord (d : AccDesc) : Option Nat :=
  let w := d.word
  let k := d.kind
  if k = 0 ∨ k > 5 ∨ (d.feed > 7 ∧ d.feed ≠ 15) ∨ bit (w 0) 15 then some 0
  else if bits (w 1) 63 41 ≠ 0 ∨ bits (w 1) 5 0 ≠ 0 ∨ (k ≠ 1 ∧ bits (w 1) 40 25 ≠ 0) ∨ (k = 5 ∧ w 1 ≠ 0) then some 1
  else if bits (w 2) 63 41 ≠ 0 ∨ bits (w 2) 5 0 ≠ 0 ∨ (k ≠ 2 ∧ bits (w 2) 40 25 ≠ 0) then some 2
  else if bits (w 3) 63 32 ≠ 0 then some 3
  else if bits (w 4) 5 0 ≠ 0 then some 4
  else if bits (w 5) 5 0 ≠ 0 then some 5
  else if k ≠ 5 ∧ w 6 ≠ 0 then some 6
  else if bits (w 7) 31 7 ≠ 0 ∨ bits (w 7) 63 57 ≠ 0 ∨ bits (w 7) 37 32 ≠ 0 ∨ (k ≠ 4 ∧ d.destTile ≠ 0) ∨
      (k = 4 ∧ d.destTile ≥ 112) ∨ (!d.chain ∧ d.next ≠ 0) then some 7
  else none

/-- Is a DRAM range inside one enabled window that grants the access (spec 11 R462, 07 R288)? DESIGN CHOICE: one window holds
the whole row; a row that lies across two windows, though every byte of it be in one of them, is outside (log entry 103). -/
def inWindow (t : Tile) (write : Bool) (a n : Nat) : Bool :=
  t.windows.any (fun w => decide (w.base ≤ a) && decide (a + n ≤ w.limit) && (if write then w.write else w.read))

/-- What a refused descriptor does: an error of the pantry of tile `at_`, or a fault of the tile itself. -/
inductive DescFail where
  | pantry (on : TileId) (e : PErr)
  | fault (code info1 : Nat)
  deriving DecidableEq, Repr

/-- The first row of a list for which a check fails. -/
def firstFail (f : Nat → Option PErr) : Nat → Nat → Option PErr
  | 0, _ => none
  | n + 1, r => match f r with
    | some e => some e
    | none => firstFail f n (r + 1)

/-- The full check of a descriptor before it moves any line (spec 03 R129): reserved values, an absent destination
tile, DRAM ranges, pantry ranges. -/
def checkDesc (s : State) (i : TileId) (h : Nat) (d : AccDesc) : Option DescFail :=
  let t := s.tile i
  let k := d.kind
  let n := d.rowBytes
  let dram (write : Bool) (a : Nat) : Option PErr :=
    if inWindow t write a n then none
    else some ⟨0x0208, a % 2 ^ 32, 512 * h + 2 ^ 19 * bits a 40 32⟩
  let here (write : Bool) (a : Nat) : Option PErr :=
    pantryCheck s i { master := mAccess, handle := h, write := write, addr := a, len := n }
  match d.reservedWord with
  | some w => some (.pantry i ⟨0x0206, d.addr, 512 * h + 2 ^ 13 * w⟩)
  | none =>
    let dest := s.mapped d.destTile
    if k = 4 ∧ dest.isNone then some (.fault 0x0108 (d.destTile + 128))
    else
      let dramErr := if k = 1 then firstFail (fun r => dram false (d.srcRow r)) d.rows 0
        else if k = 2 then firstFail (fun r => dram true (d.dstRow r)) d.rows 0 else none
      match dramErr with
      | some e => some (.pantry i e)
      | none =>
        let srcErr := if k = 2 ∨ k = 3 ∨ k = 4 then firstFail (fun r => here false (d.srcRow r)) d.rows 0 else none
        match srcErr with
        | some e => some (.pantry i e)
        | none =>
          if k = 4 then
            match dest with
            | some j =>
              (firstFail (fun r => pantryCheck s j
                { master := mMessage, handle := h, write := true, addr := d.dstRow r, len := n }) d.rows 0).map (.pantry j ·)
            | none => none
          else if k = 2 then none
          else (firstFail (fun r => here true (d.dstRow r)) d.rows 0).map (.pantry i ·)

/-- A refused descriptor: the pantry records the error and the program stops with EXTERNAL_STOP, or the tile faults
(spec 03 R121, R123, R129). -/
def descFail (s : State) (i : TileId) : DescFail → State
  | .pantry j e => (recordPErr s j e).externalStop i e.code
  | .fault c info => s.tileFault i c info

/-- Words of a line. -/
def lineWords (d : List Byte) (n : Nat) : List Word64 :=
  (List.range n).map (fun k => BitVec.ofNat 64 (leNat ((d.drop (8 * k)).take 8)))

/-- The ranges that a descriptor writes. -/
def descHazards (b : HazardBy) (d : AccDesc) : List Hazard :=
  (List.range d.rows).map (fun r => { first := d.dstRow r, count := d.rowBytes, by_ := b })

/-- Lines written by a descriptor are undefined for every reader until DWAIT has ended (spec 03 R132). -/
def markDesc (s : State) (i : TileId) (h : Fin 16) (d : AccDesc) : State :=
  if d.kind = 2 then s
  else if d.kind = 4 then
    match s.mapped d.destTile with
    | some j => s.addDescHazards j (descHazards (.desc i h) d)
    | none => s
  else s.addDescHazards i (descHazards (.desc i h) d)

/-- Read a descriptor and bind it to its handle (spec 03 R128, R134); `seq` is the place of its DGO among those of the tile. -/
def readDesc (s : State) (i : TileId) (h : Fin 16) (addr dgo fin seq : Nat) : State :=
  let x := pantryLoad s i none { master := mAccess, handle := h.val, write := false, addr := addr, len := 64 }
  match x.2.1 with
  | some e => x.1.externalStop i e
  | none =>
    let d : AccDesc := { addr := addr, words := lineWords x.2.2 8, dgoCycle := dgo, rowsDone := 0, finished := fin,
                         seqNo := seq }
    match checkDesc x.1 i h.val d with
    | some e => descFail x.1 i e
    | none => (markDesc x.1 i h d).modTile i (fun t => { t with descs := t.descs.set h.val (some d) })

/-- Bind the descriptor at an address to a free handle (DGO, spec 03 R128). -/
def bindDesc (s : State) (i : TileId) (h : Fin 16) (addr : Nat) : State :=
  let t := s.tile i
  readDesc (s.modTile i (fun t => { t with nextId := t.nextId + 1 })) i h addr t.cycle 0 t.nextId

/-! The access slot. -/

/-- The pantry address of LD, ST and DGO (spec 02 R62). DESIGN CHOICE: the sum does not wrap at 64 bits; one beyond the pantry
fails its range check (log entry 104). -/
def accAddr (t : Tile) (f : AccF) : Nat := (t.sr f.base).toNat + 64 * f.line.toNat

/-- The handle of DGO and DWAIT. -/
def accHandle (f : AccF) : Fin 16 := (f.vr.extractLsb' 0 4).toFin

/-- The stall of an access slot at issue (spec 02 Table 2.14; 03 R130, R131). -/
def accHitch (t : Tile) (op : AccOp) (f : AccF) : Option Nat :=
  match op with
  | .dwait => if (t.descs[accHandle f]).isSome then some 2 else none
  | .fence => if t.stores.isEmpty then none else some 3
  | _ => none

/-- DWAIT has ended: the lines of the handle's descriptors are defined (spec 03 R132). -/
def endHazards (s : State) (i : TileId) (h : Fin 16) : State :=
  if s.anyHazard (·.by_ == .desc i h) then s.mapHazards (·.filter (fun z => z.by_ != .desc i h)) else s

/-- The effect of an access slot and the results it puts in flight. A failed check or an uncorrectable read stops
the program with EXTERNAL_STOP (spec 03 R116, R121). DESIGN CHOICE: DGO on a busy handle raises DESC_HANDLE_BUSY before the
address of its descriptor is checked (spec 03 R128; log entry 105). -/
def accIssue (s : State) (i : TileId) (op : AccOp) (f : AccF) : State × List Pend :=
  let t := s.tile i
  match op with
  | .ld =>
    let x := pantryLoad s i none { master := mAccess, write := false, addr := accAddr t f, len := 512 }
    match x.2.1 with
    | some e => (x.1.externalStop i e, [])
    | none =>
      (x.1, [{ left := 9, num := 0#4,
               dst := .v f.vr (Vector.replicate 128 (BitVec.allOnes 32)) (bytesVreg (rotLoad f.rot.toNat x.2.2)) }])
  | .st =>
    match pantryCheck s i { master := mAccess, write := true, addr := accAddr t f, len := 512 } with
    | some e => ((recordPErr s i e).externalStop i e.code, [])
    | none =>
      (s.modTile i (fun t => { t with
        stores := t.stores ++
          [{ addr := accAddr t f, data := rotStore f.rot.toNat (vregBytes (t.vr f.vr)), visible := t.cycle + 6 }] }), [])
  | .dgo =>
    let h := accHandle f
    if (t.descs[h]).isSome then
      ((recordPErr s i ⟨0x0207, accAddr t f % 2 ^ 32, 512 * h.val⟩).externalStop i 0x0207, [])
    else (bindDesc s i h (accAddr t f), [])
  | .dwait => (endHazards s i (accHandle f), [])
  | .fence => (s, [])

/-! Moving rows. -/

/-- Is a descriptor eligible at program cycle `c` (spec 03 R135)? -/
def eligible (s : State) (i : TileId) (d : AccDesc) (c : Nat) : Bool :=
  decide (d.dgoCycle ≤ c) && (d.needTime == 0 || decide (d.needTime ≤ c + s.getF Reg.PANTRY_RUNAHEAD i 0))

/-- Move one row of a descriptor (spec 03 R127, R129, R133). `none` is no error. -/
def moveRow (s : State) (i : TileId) (h : Fin 16) (d : AccDesc) : State × Option Nat :=
  let n := d.rowBytes
  let a := d.srcRow d.rowsDone
  let b := d.dstRow d.rowsDone
  let load (s : State) : State × Option Nat × List Byte :=
    if d.kind = 1 then dramRead s a n
    else if d.kind = 5 then (s, none, (List.replicate (n / 8) d.pattern).flatten)
    else pantryLoad s i none { master := mAccess, handle := h.val, write := false, addr := a, len := n }
  let x := load s
  match x.2.1 with
  | some e => (x.1, some e)
  | none =>
    let data := d.rotRow x.2.2
    if d.kind = 2 then dramWrite x.1 b data
    else if d.kind = 4 then
      match x.1.mapped d.destTile with
      | some j => pantryStore x.1 j mMessage h.val b data
      | none => (x.1, none)
    else pantryStore x.1 i mAccess h.val b data

/-- A fetch that was late: its events and its greatest lateness (spec 02 R99). -/
def countLate (s : State) (i : TileId) (d : AccDesc) (c waited : Nat) : State :=
  if d.feed ≤ 7 ∧ d.needTime ≠ 0 ∧ d.needTime < c then
    let s := s.countF Reg.TILE_LATE_FILL_EVENTS i d.feed 1
    let s := s.countF Reg.TILE_LATE_FILL_CYCLES i d.feed waited
    if s.getF Reg.TILE_LATE_FILL_MAX i d.feed < c - d.needTime then
      s.setF Reg.TILE_LATE_FILL_MAX i d.feed (min (c - d.needTime) (2 ^ 32 - 1))
    else s
  else s

/-- Set or free a handle. -/
def State.setDesc (s : State) (i : TileId) (h : Fin 16) (d : Option AccDesc) : State :=
  s.modTile i (fun t => { t with descs := t.descs.set h.val d })

/-- Move the next `n` rows of the descriptor bound to a handle; when its last line has been requested, its lateness is counted
and the next descriptor of its chain is read and checked (spec 02 R99, 03 R134), for the next command to move. An error stops
the program (spec 03 R121); after an uncorrectable DRAM read the lines of that descriptor that are not yet written stay
unwritten (R133). -/
def moveRows (i : TileId) (h : Fin 16) (c late : Nat) : Nat → State → State
  | 0, s => s
  | n + 1, s =>
    match (s.tile i).descs[h] with
    | none => s
    | some d =>
      if d.kind = 4 ∧ (s.mapped d.destTile).isNone then s.tileFault i 0x0108 (d.destTile + 128)
      else if d.rowsDone < d.rows then
        let x := moveRow s i h d
        match x.2 with
        | some e => (if d.kind = 1 then x.1.setDesc i h none else x.1).externalStop i e
        | none =>
          let s := x.1.setDesc i h (some { d with rowsDone := d.rowsDone + 1 })
          if d.rowsDone + 1 = d.rows then
            if d.chain then readDesc (countLate s i d c late) i h d.next d.dgoCycle (d.finished + 1) d.seqNo else s
          else moveRows i h c late n s
      else s

/-- Does handle `x` come before handle `y` in the order in which the engine requests lines (spec 03 R136): the earlier
NEED_TIME first, 0 after all others, ties in DGO order? -/
def AccDesc.before (x y : AccDesc) : Bool :=
  let key (d : AccDesc) : Nat := if d.needTime = 0 then 2 ^ 48 else d.needTime
  decide (key x < key y) || (key x == key y && decide (x.seqNo < y.seqNo))

/-- Has every eligible descriptor of the tile that comes before `d` had its last line requested (spec 03 R136)? -/
def firstServed (s : State) (i : TileId) (d : AccDesc) (c : Nat) : Bool :=
  (s.tile i).descs.toList.all (fun o => match o with
    | none => true
    | some e => !(decide (e.rowsDone < e.rows) && eligible s i e c && e.before d))

/-- Are all lines of a descriptor and of its chain written (spec 03 R130)? -/
def AccDesc.done (d : AccDesc) : Bool := d.rowsDone == d.rows && !d.chain

end Sys2Proof.Machine
end

