-- ==== Sys2Proof/Machine/GatherOps.lean ====
section
/-! DEFINITION. The gather engine: GSTAT at issue, its sampled rows, and the blocks it updates
(spec 06 R239 to R248, Tables 6.1, 6.12). -/

namespace Sys2Proof.Machine

set_option Elab.async false

/-- The gather entry that a GSTAT names (spec 06 Table 6.1). -/
def gstatEntry (f : ArrF) : Nat := f.kgrp.toNat % 16

/-- Does the entry make the GSTAT illegal (spec 06 R243)? -/
def gstatIllegal (s : State) (i : TileId) (f : ArrF) : Bool :=
  let g := gstatEntry f
  let lg := s.getF Reg.TILE_GE_STRIDE_LOG2 i g
  decide (s.getF Reg.TILE_GE_OFFSET i g ≥ 2 ^ lg) ||
    (if f.pass = 0#4 then s.getF Reg.TILE_GE_SIDE_M1 i g != 1 || decide (lg < 2)
     else s.getF Reg.TILE_GE_SRC_WALK i g == 15)

/-- Blocks of a statistic of k block rows (spec 06 R239). -/
def blockCount (k : Nat) : Nat := k * (k + 1) / 2
/-- The index of block (a, b) (spec 06 R239). -/
def blockIndex (k a b : Nat) : Nat := a * k - a * (a - 1) / 2 + (b - a)

/-- Rows p with p mod s = OFFSET (spec 06 R241). -/
def GStat.samples (g : GStat) (p : Nat) : Bool := p % 2 ^ g.strideLog2 == g.offset

/-- One element of a statistic (spec 06 R240). -/
def statElem (legacy : Bool) (acc : Word) (us : List (List Opnd)) (a b : Nat) : Word :=
  dot legacy acc (us.map (fun u => mulOpnd 0 (u.getD a .zero) (u.getD b .zero)))

/-- Read a 16 KiB block as master SEQ: its 4,096 words. -/
def readBlock (s : State) (i : TileId) (own : HazardBy) (addr : Nat) : State × Option Nat × List Word :=
  let x := pantryLoad s i (some own) { master := mSeq, write := false, addr := addr, len := 16384 }
  (x.1, x.2.1, (List.range 4096).map (fun k => BitVec.ofNat 32 (leNat ((x.2.2.drop (4 * k)).take 4))))

/-- The GSTAT at the head of the gather queue: a TAP that continues its stored values loads its three blocks (spec 06 R245). An
error stops the program (spec 03 R121). -/
def gatherHead (s : State) (i : TileId) : State :=
  match (s.tile i).gather with
  | [] => s
  | g :: _ =>
    if g.direct || !g.cont || g.loaded.isSome then s
    else
      let r := (List.range (blockCount (g.sideM1 + 1))).foldl (fun (x : State × Option Nat × List (List Word)) n =>
        match x.2.1 with
        | some _ => x
        | none =>
          let y := readBlock x.1 i (.gstat g.id) (g.dst + 16384 * n)
          (y.1, y.2.1, x.2.2 ++ [y.2.2])) (s, none, [])
      match r.2.1 with
      | some e => r.1.externalStop i e
      | none => r.1.modTile i (fun t => { t with gather := { g with loaded := some r.2.2 } :: t.gather.tail })

/-- Enter a GSTAT in the gather queue with its entry as read now (spec 06 R243, R247). The first GSTAT of a side after a
reduction, or after its statistics were discarded, runs with ACC = 0b00 (spec 07 R298, 08 R359, 09 R383; log entry 115). -/
def issueGstat (s : State) (i : TileId) (f : ArrF) : State :=
  let g := gstatEntry f
  let id := (s.tile i).nextId
  let k := s.getF Reg.TILE_GE_SIDE_M1 i g + 1
  let e : GStat :=
    { id := id, direct := f.pass == 1#4, fmtX := f.fmtX.toNat, feed := f.feed.toNat, cont := f.acc == 1#2 && !(s.tile i).statFresh.contains g,
      sideM1 := k - 1, strideLog2 := s.getF Reg.TILE_GE_STRIDE_LOG2 i g, offset := s.getF Reg.TILE_GE_OFFSET i g,
      srcWalk := s.getF Reg.TILE_GE_SRC_WALK i g, rowsM1 := s.getF Reg.TILE_GE_ROWS_M1 i g,
      dst := 64 * s.getF Reg.TILE_GE_DST_LINE i g, mm := none, rows := none, loaded := none, attached := false, lines := [],
      num := 0#4 }
  (s.modTile i (fun t => { t with gather := t.gather ++ [e], nextId := t.nextId + 1, statFresh := t.statFresh.filter (· != g) })).addHazard i
    { first := e.dst, count := 16384 * blockCount k, by_ := .gstat id }

/-- New contents of block (a, b): only the elements with row at or before column are updated; the others of a
diagonal block are +0 (spec 06 R239, R240). -/
def statBlock (legacy : Bool) (old : List Word) (us : List (List Opnd)) (a b : Nat) : List Word :=
  (List.range 4096).map (fun n =>
    let r := 64 * a + n / 64
    let c := 64 * b + n % 64
    if r ≤ c then statElem legacy (old.getD n 0#32) us r c else 0#32)

/-- What a GSTAT has computed so far. -/
structure GWork where
  s : State
  err : Option Nat
  lines : List LineWrite
  num : BitVec 4

/-- The starting values of block (a, b): those a TAP has loaded, or for DIRECT the stored ones as master SEQ. -/
def blockStart (s : State) (i : TileId) (g : GStat) (a b : Nat) : State × Option Nat × List Word :=
  let n := blockIndex (g.sideM1 + 1) a b
  if !g.cont then (s, none, [])
  else match g.loaded with
    | some blks => (s, none, blks.getD n [])
    | none => readBlock s i (.gstat g.id) (g.dst + 16384 * n)

/-- Update one block (spec 06 R240, R245, R246). -/
def gstatBlock (i : TileId) (g : GStat) (us : List (List Opnd)) (w : GWork) (ab : Nat × Nat) : GWork :=
  match w.err with
  | some _ => w
  | none =>
    let addr := g.dst + 16384 * blockIndex (g.sideM1 + 1) ab.1 ab.2
    let x := blockStart w.s i g ab.1 ab.2
    match x.2.1 with
    | some e => { w with s := x.1, err := some e }
    | none =>
      let blk := statBlock (w.s.flag Reg.TILE_LEGACY i 0) x.2.2 us ab.1 ab.2
      { w with
        s := x.1
        lines := w.lines ++ [{ addr := addr, data := blk.flatMap (fun v => toLe 4 v.toNat) }]
        num := blk.foldl (fun n v => n ||| numOf32 v) w.num }

/-- The blocks (a, b) with a ≤ b, in ascending block index. -/
def blockPairs (k : Nat) : List (Nat × Nat) :=
  (List.range k).flatMap (fun a => (List.range (k - a)).map (fun d => (a, a + d)))

/-- All blocks of a GSTAT from its sampled rows. -/
def gstatBlocks (s : State) (i : TileId) (g : GStat) (us : List (List Opnd)) : GWork :=
  (blockPairs (g.sideM1 + 1)).foldl (gstatBlock i g us) { s := s, err := none, lines := [], num := 0#4 }

/-- The sampled rows of a DIRECT GSTAT, through its walk's pattern without moving the walk (spec 06 R246). -/
def directRows (s : State) (i : TileId) (g : GStat) : Rows :=
  let n := 64 * (g.sideM1 + 1)
  let len := n * fmtBits g.fmtX / 8
  ((List.range (g.rowsM1 + 1)).filter g.samples).foldl (fun r p =>
    match r.err with
    | some _ => r
    | none =>
      let a := walkAddr r.s i g.srcWalk (p % walkTotal r.s i g.srcWalk)
      let x := pantryLoad r.s i none { master := mSeq, write := false, addr := a, len := len }
      match x.2.1 with
      | some e => { r with s := x.1, err := some e }
      | none => { r with s := x.1, rows := r.rows ++ [decodeRow g.fmtX [] x.2.2] })
    { s := s, err := none, rows := [] }

/-- A TAP GSTAT samples the rows of its MM (spec 06 R244). -/
def tapSamples (g : GStat) (rows : List (List Opnd)) : List (List Opnd) :=
  (rows.mapIdx (fun p r => (p, r))).filterMap (fun x => if g.samples x.1 then some x.2 else none)

/-- The blocks of a DIRECT GSTAT. -/
def directBlocks (s : State) (i : TileId) (g : GStat) : GWork :=
  let r := directRows s i g
  match r.err with
  | some e => { s := r.s, err := some e, lines := [], num := 0#4 }
  | none => gstatBlocks r.s i g r.rows

/-- HALT discards the TAP GSTATs that have not attached to an MM and leaves their statistics unchanged
(spec 06 R248). -/
def orphanTaps (s : State) (i : TileId) : State :=
  let orphan (g : GStat) : Bool := !g.direct && g.mm.isNone
  let os := (s.tile i).gather.filter orphan
  let s := s.modTile i (fun t => { t with gather := t.gather.filter (fun g => !orphan g) })
  let s := os.foldl (fun s g => (s.dropHazards i (.gstat g.id)).countF Reg.TILE_GATHER_ORPHANED i 0 1) s
  if os.isEmpty then s else gatherHead s i

end Sys2Proof.Machine
end

