-- ==== Sys2Proof/Machine/MessageOps.lean ====
section
/-! DEFINITION. Doors, messages and credits (spec 02 R63, R73 to R85, R589, Tables 2.7, 2.10 to 2.12). -/

namespace Sys2Proof.Machine

set_option Elab.async false

/-- The device's membership index (spec 14 Table 14.9). -/
def State.member (s : State) : Nat := s.getF Reg.SEC_MEMBER 0 0

/-- The destination of a send. -/
structure SendDest where
  remote : Bool
  member : Nat
  tile : Nat
  door : Nat
  deriving DecidableEq, Repr

/-- The credit slot that matches a destination (spec 02 R74). -/
def creditSlot (s : State) (i : TileId) (d : SendDest) : Option Nat :=
  (List.range 32).find? (fun k =>
    s.flag Reg.TILE_CS_VALID i k && s.getF Reg.TILE_CS_DEST_TILE i k == d.tile && s.getF Reg.TILE_CS_DOOR i k == d.door &&
      s.flag Reg.TILE_CS_REMOTE i k == d.remote && (!d.remote || s.getF Reg.TILE_CS_DEST_MEMBER i k == d.member))

/-- The destination of SEND from its fields, of SENDR from S[SX] (spec 02 Table 2.11). -/
def sendDest (t : Tile) (op : MsgOp) (f : MsgF) : SendDest :=
  let x := (t.sr f.sx).toNat
  if op = .sendr then { remote := true, member := bits x 27 16, tile := bits x 34 28, door := f.door.toNat }
  else { remote := false, member := 0, tile := f.dest.toNat, door := f.door.toNat }

/-- A reserved value in S[SX] of SENDR (spec 02 R63). -/
def sendrReserved (t : Tile) (f : MsgF) : Bool :=
  let x := (t.sr f.sx).toNat
  decide (x / 2 ^ 35 ≠ 0) || decide (bits x 34 28 ≥ 112)

/-- The next sequence number toward a destination (spec 02 R81). -/
def nextSeq (t : Tile) (d : SendDest) : BitVec 16 :=
  match t.txSeq.find? (fun q => q.remote == d.remote && q.member == d.member && q.tile == d.tile && q.door == d.door) with
  | some q => q.seq
  | none => 0#16

/-- The tile with the sequence number toward a destination advanced. -/
def Tile.bumpSeq (t : Tile) (d : SendDest) : Tile :=
  { t with
    txSeq := { remote := d.remote, member := d.member, tile := d.tile, door := d.door, seq := nextSeq t d + 1#16 } ::
      t.txSeq.filter (fun q => !(q.remote == d.remote && q.member == d.member && q.tile == d.tile && q.door == d.door)) }

/-- Occupancy of a door in credits (spec 02 Table 2.22). -/
def occupancy (ms : List HeldMsg) : Nat := ms.foldl (fun n m => n + m.msg.regs.length) 0

/-- The message a receive takes: the oldest of a LOCAL_SHARED door, else the one with the expected sequence number
(spec 02 R81, R82). -/
def doorTake (s : State) (i : TileId) (d : BitVec 4) : Option HeldMsg :=
  let ms := (s.tile i).doors[d.toFin]
  if s.getF Reg.TILE_DOOR_MODE i d.toNat = 2 then ms.head?
  else ms.find? (fun m => m.msg.seq.toNat == s.getF Reg.TILE_DOOR_EXPECTED_SEQ i d.toNat)

/-- Is a door of mode LOCAL_P2P or REMOTE_P2P (spec 02 Table 2.10)? -/
def doorP2P (s : State) (i : TileId) (d : BitVec 4) : Bool :=
  let m := s.getF Reg.TILE_DOOR_MODE i d.toNat
  m == 1 || m == 3

/-- The header summary word (spec 02 Table 2.12). -/
def headerWord (m : DoorMsg) : Word64 :=
  BitVec.ofNat 64 (m.srcTile + 2 ^ 7 * b2n m.remote + 2 ^ 8 * m.seq.toNat + 2 ^ 24 * m.tag.toNat +
    2 ^ 40 * (m.regs.length - 1) + 2 ^ 43 * (if m.remote then m.srcMember else 0))

/-- Send a message's credits back to its sender (spec 02 R77). -/
def State.returnCredits (s : State) (i : TileId) (d : Nat) (m : DoorMsg) : State :=
  { s with
    credits := s.credits ++
      [{ remote := m.remote, member := m.srcMember, dst := m.srcTile, tile := s.logical i, door := d, n := m.regs.length }] }

/-- Remove the first message equal to `m` from a door. -/
def Tile.dropMsg (t : Tile) (d : BitVec 4) (m : HeldMsg) : Tile :=
  { t with doors := t.doors.set d.toFin (t.doors[d.toFin].erase m) }

/-- What hinders a message slot from issuing: the cause of a stall (spec 02 Table 2.14), or a fault with its
ERR_INFO1. -/
inductive Hitch where
  | stall (cause : Nat)
  | fault (code info1 : Nat)
  deriving DecidableEq, Repr

/-- The stall or fault of a message slot at issue (spec 02 R63, R74, R75, R82 to R85). -/
def msgHitch (s : State) (i : TileId) (op : MsgOp) (f : MsgF) : Option Hitch :=
  let t := s.tile i
  let door := f.door.toNat
  match op with
  | .dpoll => none
  | .send | .sendr =>
    if op == .sendr && sendrReserved t f then some (.fault 0x0101 (8 + 64))
    else
      let d := sendDest t op f
      if op == .send && (s.mapped d.tile).isNone then some (.fault 0x0108 d.tile)
      else
        match creditSlot s i d with
        | none => some (.fault 0x0105 (d.tile + 128 * door))
        | some k => if s.getF Reg.TILE_CS_CREDITS i k < f.nm1.toNat + 1 then some (.stall 1) else none
  | .recv =>
    if s.getF Reg.TILE_DOOR_MODE i door = 0 then some (.fault 0x0106 door)
    else
      match doorTake s i f.door with
      | none => some (.stall 0)
      | some m =>
        if m.msg.regs.length ≠ f.nm1.toNat + 1 then
          some (.fault 0x0107 (door + 16 * (m.msg.regs.length - 1) + 128 * f.nm1.toNat))
        else none
  | .recvt =>
    if f.sx[0] || !doorP2P s i f.door then some (.fault 0x0106 door)
    else
      match doorTake s i f.door with
      | none => if t.timedOut then none else some (.stall 0)
      | some m =>
        if (t.sr f.sx).toNat < m.time then (if t.timedOut then none else some (.stall 0))
        else if m.msg.regs.length ≠ f.nm1.toNat + 1 then
          some (.fault 0x0107 (door + 16 * (m.msg.regs.length - 1) + 128 * f.nm1.toNat))
        else none

/-- A send takes its credits and hands the message, with the registers as they are, to the network (spec 02 R75,
R81). -/
def doSend (s : State) (i : TileId) (op : MsgOp) (f : MsgF) : State :=
  let t := s.tile i
  let d := sendDest t op f
  let n := f.nm1.toNat + 1
  let k := (creditSlot s i d).getD 0
  let m : DoorMsg :=
    { srcTile := s.logical i, remote := d.remote, srcMember := if d.remote then s.member else 0, seq := nextSeq t d,
      tag := (t.sr f.sx).extractLsb' 0 16,
      regs := (List.range n).map (fun j => t.vr (f.vr + BitVec.ofNat 6 j)) }
  let s := (s.setF Reg.TILE_CS_CREDITS i k (s.getF Reg.TILE_CS_CREDITS i k - n)).modTile i (·.bumpSeq d)
  { s with
    net := s.net ++
      [{ remote := d.remote, member := d.member, src := s.logical i, dst := d.tile, door := d.door, msg := m }] }

/-- Register `j` of a received payload lands 4 + j bundles after the issue (spec 02 Table 2.9). -/
def payloadPends (vr : BitVec 6) (j : Nat) : List VReg → List Pend
  | [] => []
  | v :: vs =>
    { left := 4 + j, num := 0#4,
      dst := .v (vr + BitVec.ofNat 6 j) (Vector.replicate 128 (BitVec.allOnes 32)) v } :: payloadPends vr (j + 1) vs

/-- A receive takes its message: the door advances, the credits go back, and payload and header summary are in
flight (spec 02 R77, R81 to R83, Table 2.11). -/
def doRecv (s : State) (i : TileId) (op : MsgOp) (f : MsgF) (m : HeldMsg) : State × List Pend :=
  let d := f.door.toNat
  let s := (s.modTile i (·.dropMsg f.door m)).returnCredits i d m.msg
  let s := if doorP2P s i f.door then s.wrapF Reg.TILE_DOOR_EXPECTED_SEQ i d 1 else s
  (s, payloadPends f.vr 0 m.msg.regs ++
    [{ left := 4, num := 0#4, dst := .s (if op = .recvt then f.sx + 1#5 else f.sx) (headerWord m.msg) }])

/-- RECVT completes with TIMEOUT (spec 02 R83): the expected sequence number advances by one; a message with the
skipped number that is already held came too late and is discarded like one that comes later. -/
def doTimeout (s : State) (i : TileId) (f : MsgF) : State × List Pend :=
  let d := f.door.toNat
  let skip : BitVec 16 := BitVec.ofNat 16 (s.getF Reg.TILE_DOOR_EXPECTED_SEQ i d)
  let s := s.wrapF Reg.TILE_DOOR_EXPECTED_SEQ i d 1
  let s := match (s.tile i).doors[f.door.toFin].find? (fun m => m.msg.seq == skip) with
    | some m => ((s.modTile i (·.dropMsg f.door m)).returnCredits i d m.msg).countF Reg.TILE_DOOR_LATE_DISCARD i 0 1
    | none => s.modTile i (fun t => { t with
        skipped := t.skipped.set f.door.toFin (skip :: t.skipped[f.door.toFin]) })
  (s, [{ left := 4, num := 0#4, dst := .s (f.sx + 1#5) (BitVec.ofNat 64 (2 ^ 63)) }])

/-- The effect of a message slot that nothing hinders, and the results it puts in flight. -/
def msgIssue (s : State) (i : TileId) (op : MsgOp) (f : MsgF) : State × List Pend :=
  match op with
  | .send | .sendr => (doSend s i op f, [])
  | .dpoll =>
    let holds := !((s.tile i).doors[f.door.toFin]).isEmpty
    (s, [{ left := 1, num := 0#4, dst := .p f.pd (BitVec.allOnes 128) (if holds then BitVec.allOnes 128 else 0#128) }])
  | .recv =>
    match doorTake s i f.door with
    | some m => doRecv s i op f m
    | none => (s, [])
  | .recvt =>
    match doorTake s i f.door with
    | some m => if (((s.tile i).sr f.sx).toNat < m.time) then doTimeout s i f else doRecv s i op f m
    | none => doTimeout s i f

/-! Arrivals. -/

/-- A message reaches a door at device time `time` (spec 02 R79, R81, R83, R85, R589): held and stamped, dropped,
discarded as too late, or a fault of the receiver. -/
def arriveMsg (s : State) (i : TileId) (d : BitVec 4) (m : DoorMsg) (time : Nat) : State :=
  let mode := s.getF Reg.TILE_DOOR_MODE i d.toNat
  let sender := s.getF Reg.TILE_DOOR_SENDER_TILE i d.toNat
  let ms := (s.tile i).doors[d.toFin]
  let overrun := s.tileFault i 0x0104 (d.toNat + 16 * m.srcTile)
  if m.remote && !(mode == 3 && m.srcTile == sender && m.srcMember == s.getF Reg.TILE_DOOR_SENDER_MEMBER i d.toNat) then
    s.countF Reg.TILE_DOOR_DROPPED i 0 1
  else if !m.remote && mode == 0 then s.tileFault i 0x0106 d.toNat
  else if !m.remote && (mode == 3 || (mode == 1 && m.srcTile != sender)) then overrun
  else if doorP2P s i d && (s.tile i).skipped[d.toFin].contains m.seq then
    ((s.modTile i (fun t => { t with skipped := t.skipped.set d.toFin (t.skipped[d.toFin].erase m.seq) })).returnCredits
      i d.toNat m).countF Reg.TILE_DOOR_LATE_DISCARD i 0 1
  else if ms.length ≥ 8 ∨ occupancy ms + m.regs.length > 8 then overrun
  else s.modTile i (fun t => { t with doors := t.doors.set d.toFin (ms ++ [{ msg := m, time := time }]) })

/-- Credits reach a sender (spec 02 R77, R78). -/
def arriveCredit (s : State) (i : TileId) (d : SendDest) (n : Nat) : State :=
  match creditSlot s i d with
  | none => s.countF Reg.TILE_CREDIT_DROPPED i 0 1
  | some k =>
    let c := s.getF Reg.TILE_CS_CREDITS i k + n
    if c > 8 then s.tileFault i 0x010E k else s.setF Reg.TILE_CS_CREDITS i k c

end Sys2Proof.Machine
end

