-- ==== Sys2Proof/Machine/VectorOps.lean ====
section
/-! DEFINITION. The vector engine: what each operation of the vector slot computes, lane by lane, and the result it
puts in flight (spec 02 R59, R60, R586, Table 2.25; 04 R170 to R185, R585). -/

namespace Sys2Proof.Machine

set_option Elab.async false

/-- SR_SEED and SR_STEP of a tile (spec 04 Table 4.9). -/
structure SrState where
  seed : Word64
  step : Word64
  deriving DecidableEq, Repr

def State.srState (s : State) (i : TileId) : SrState :=
  { seed := BitVec.ofNat 64 (s.getF Reg.TILE_SR_SEED i 0), step := BitVec.ofNat 64 (s.getF Reg.TILE_SR_STEP i 0) }

/-- The rounding of lane `l` (spec 02 Table 2.4, 04 R180). -/
def laneRnd (t : Tile) (sr : SrState) (f : VecF) (l : Nat) : Rnd :=
  match f.rnd.toNat with
  | 0 => .rne
  | 1 => .rtz
  | _ => .sr (srWord sr.seed sr.step ((t.sr (f.ss + 1#5)).extractLsb' 0 32) (t.sr f.ss + BitVec.ofNat 64 l))

/-- Source b of a lane: VB, or bits [31:0] of S[SS] in every lane (spec 02 R586). -/
def srcB (t : Tile) (f : VecF) (l : Fin 128) : Word :=
  if f.vbs then (t.sr f.ss).extractLsb' 0 32 else (t.vr f.vb)[l]

/-- Sum of neighbouring pairs: one level of the RSUM tree (spec 02 R586). -/
def pairSum (r : Rnd) : List Word → List Word
  | a :: b :: xs => fpAdd r a b :: pairSum r xs
  | xs => xs

/-- The seven levels of the RSUM tree. -/
def treeSum (r : Rnd) : Nat → List Word → List Word
  | 0, xs => xs
  | n + 1, xs => treeSum r n (pairSum r xs)

/-- The shift count of SHL, SHR and SRA. -/
def shiftCount (f : VecF) : Nat := (f.imm.extractLsb' 0 5).toNat

/-- The source lane of PERM (spec 02 Table 2.25). -/
def permLane (f : VecF) (l : Fin 128) : Fin 128 :=
  ((BitVec.ofNat 7 l.val &&& f.imm.extractLsb' 0 7) ^^^ f.imm.extractLsb' 7 7).toFin

/-- The source lane of ROT (spec 02 Table 2.25). -/
def rotLane (f : VecF) (l : Fin 128) : Fin 128 := (BitVec.ofNat 7 l.val + f.imm.extractLsb' 0 7).toFin

/-- Element `l` of part `p` of a register, in elements of `k` bits (spec 04 R173). -/
def packedElem (v : VReg) (k p : Nat) (l : Fin 128) : Nat :=
  let pos := 128 * k * p + k * l.val
  ((v.toList.getD (pos / 32) 0#32).toNat / 2 ^ (pos % 32)) % 2 ^ k

/-- The result of an operation in one lane. A comparison gives 1 or 0; the reductions give the whole-register value
`red`; a narrowing CVT is packed apart. -/
def vecLane (t : Tile) (sr : SrState) (op : VecOp) (f : VecF) (red : Word) (l : Fin 128) : Word :=
  let a := (t.vr f.va)[l]
  let b := srcB t f l
  let c := (t.vr f.vc)[l]
  let r := laneRnd t sr f l.val
  let tf (x : Bool) : Word := if x then 1#32 else 0#32
  let ord := !isNaN32 a && !isNaN32 b
  let cmp := (fp32 a).cmp (fp32 b)
  match op with
  | .add => fpAdd r a b
  | .sub => fpSub r a b
  | .mul => fpMul r a b
  | .fma => fpFma r a b c
  | .min => fpMin a b
  | .max => fpMax a b
  | .abs => fpAbs a
  | .exp => fpExp r a
  | .log => fpLog r a
  | .rcp => fpRcp r a
  | .rsqrt => fpRsqrt r a
  | .cvt => cvtWiden r (cvtSrc f) (packedElem (t.vr f.va) (fmtBits (cvtSrc f)) (cvtPart f) l)
  | .eq => tf (ord && cmp == 0)
  | .ne => tf (!(ord && cmp == 0))
  | .lt => tf (ord && cmp < 0)
  | .le => tf (ord && cmp ≤ 0)
  | .gt => tf (ord && cmp > 0)
  | .ge => tf (ord && cmp ≥ 0)
  | .unord => tf (!ord)
  | .ieq => tf (a == b)
  | .ine => tf (a != b)
  | .ilt => tf (a.slt b)
  | .ile => tf (a.sle b)
  | .iltu => tf (a.ult b)
  | .ileu => tf (a.ule b)
  | .iadd => a + b
  | .isub => a - b
  | .and => a &&& b
  | .or => a ||| b
  | .xor => a ^^^ b
  | .shl => a <<< shiftCount f
  | .shr => a >>> shiftCount f
  | .sra => a.sshiftRight (shiftCount f)
  | .perm => (t.vr f.va)[permLane f l]
  | .rot => (t.vr f.va)[rotLane f l]
  | .rsum | .rmax | .rmin => red
  | .mov => a
  | .bcast => (t.sr f.ss).extractLsb' 0 32
  | .sel => if guardLane t f.guard l then a else c
  | .iota => BitVec.ofNat 32 l.val

/-- The whole-register value of a reduction (spec 02 R586; the tree of RSUM never rounds stochastically). -/
def vecRed (t : Tile) (op : VecOp) (f : VecF) : Word :=
  let xs := (t.vr f.va).toList
  match op with
  | .rsum => (treeSum (if f.rnd = 1#2 then .rtz else .rne) 7 xs).headD 0#32
  | .rmax => xs.tail.foldl fpMax (xs.headD 0#32)
  | .rmin => xs.tail.foldl fpMin (xs.headD 0#32)
  | _ => 0#32

/-- Is the CVT a narrowing one, from FP32? -/
def cvtNarrows (op : VecOp) (f : VecF) : Bool := op == .cvt && cvtSrc f == 2

/-- The elements of a narrowing CVT: code and INVALID_CONVERT for each lane (spec 04 R173, R175). -/
def narrowElems (t : Tile) (sr : SrState) (f : VecF) : Vector (Nat × Bool) 128 :=
  Vector.ofFn (fun l : Fin 128 => cvtNarrow (laneRnd t sr f l.val) (cvtDst f) (t.vr f.va)[l])

/-- Pack one value per element into the lanes of part `p` (spec 04 R173): `g l` is the bits of element `l`. -/
def packLanes (k p : Nat) (g : Nat → Nat) : VReg :=
  Vector.ofFn (fun j : Fin 128 =>
    if 4 * k * p ≤ j.val ∧ j.val < 4 * k * (p + 1) then
      BitVec.ofNat 32 ((List.range (32 / k)).foldl
        (fun n m => n + g ((j.val - 4 * k * p) * (32 / k) + m) * 2 ^ (k * m)) 0)
    else 0#32)

/-- The lane bits of a test. -/
def lanesOf (g : Fin 128 → Bool) : Lanes :=
  (BitVec.ofBoolListLE ((List.finRange 128).map g)).setWidth 128

/-- The result a vector slot puts in flight (spec 02 R59, R70): only the lanes whose guard test is true are written,
SEL writes every lane, a comparison writes P[PD]. -/
def vecPend (t : Tile) (sr : SrState) (op : VecOp) (f : VecF) : Pend :=
  let on (l : Fin 128) : Bool := guardLane t f.guard l
  let red := vecRed t op f
  if op.isCmp then
    { left := op.latency, num := 0#4,
      dst := .p f.pd (lanesOf on) (lanesOf (fun l => vecLane t sr op f red l == 1#32)) }
  else if cvtNarrows op f then
    let es := narrowElems t sr f
    let k := fmtBits (cvtDst f)
    let num := (List.finRange 128).foldl (fun n l =>
      if on l then n ||| numOfCode (cvtDst f) es[l].1 ||| (if es[l].2 then numInvalid else 0#4) else n) 0#4
    let guards := (List.finRange 128).map on
    let codes := es.toList
    { left := op.latency, num := num,
      dst := .v f.vd (packLanes k (cvtPart f) (fun l => if guards.getD l false then 2 ^ k - 1 else 0))
        (packLanes k (cvtPart f) (fun l => (codes.getD l (0, false)).1)) }
  else
    let val : VReg := Vector.ofFn (fun l => vecLane t sr op f red l)
    let counted := match op with
      | .add | .sub | .mul | .fma | .min | .max | .abs | .exp | .log | .rcp | .rsqrt | .rsum => true
      | .cvt => cvtSrc f != 13
      | _ => false
    let num := if counted then
        (List.finRange 128).foldl (fun n l => if on l then n ||| numOf32 val[l] else n) 0#4
      else 0#4
    { left := op.latency, num := num,
      dst := .v f.vd (Vector.ofFn (fun l => if on l || op == .sel then BitVec.allOnes 32 else 0#32)) val }

end Sys2Proof.Machine
end

