-- ==== Sys2Proof/Machine/Issue.lean ====
section
/-! DEFINITION. Bundle issue: how the enabled slots of a bundle act together, what stalls issue, what stops the
program, the program's flow, and how a stall ends (spec 02 R53 to R60, R65 to R72, R93 to R100; 05 R192, R197, R230;
06 R243, R244, R251, R252). -/

namespace Sys2Proof.Machine

set_option Elab.async false

/-! The array slot at issue. -/

/-- The OP code of an array operation (spec 02 Table 2.5). -/
def ArrOp.code : ArrOp → Nat
  | .mode => 1
  | .wload => 2
  | .mm => 3
  | .drain => 4
  | .gstat => 5
  | .bindFeed | .bindDrain | .drainCfg | .resetWalk => 6

/-- The drain configurations in force for the next command (spec 05 Table 5.12). -/
def cfgOf (s : State) (i : TileId) (b : Bool) : BitVec 6 :=
  BitVec.ofNat 6 (s.getF (if b then Reg.TILE_DRAIN_CFG_B else Reg.TILE_DRAIN_CFG_A) i 0)

/-- The format that the slot in use by an array records, as the command sequence has it (spec 05 R197, R199). -/
def slotFmt (a : Arrays) (b : Bool) : Option Nat :=
  match (if b then a.lastB else a.lastA) with
  | none => none
  | some k => (if b then a.fmtB else a.fmtA).toList.getD k none

/-- Does an array take operands of a format in this mode (spec 04 R151, Table 4.1)? -/
def arrAccepts (legacy : Bool) (c : Nat) : Bool := fmtArray c && (!legacy || fmtLegacy c)

/-- Is one array's product refused under R197: an unaccepted pair, another plan than PASS, or an integer result with
a floating-point drain format? -/
def pairRefused (legacy : Bool) (pass x w : Nat) (cfg : BitVec 6) : Bool :=
  !arrAccepts legacy x || !arrAccepts legacy w || passPlan x w != some pass ||
    (fmtIsInt x && fmtIsInt w && cfg.extractLsb' 0 2 != 0#2)

/-- Is an MM refused with FORMAT_UNSUPPORTED (spec 05 R197)? -/
def mmRefused (s : State) (i : TileId) (f : ArrF) : Bool :=
  let a := (s.tile i).arrays
  let legacy := s.flag Reg.TILE_LEGACY i 0
  let x := f.fmtX.toNat
  let w := f.fmtW.toNat
  let pass := f.pass.toNat
  let stat (b : Bool) : Bool := slotFmt a b != some w || pairRefused legacy pass x w (cfgOf s i b)
  match mmFlow (s.flag Reg.TILE_ARRAY_MODE i 0) f.sel with
  | .stationary => (f.sel[0] && stat false) || (f.sel[1] && stat true)
  | .outer => pairRefused legacy pass x w (cfgOf s i true)
  | .paired =>
    pairRefused legacy pass x w (cfgOf s i true) ||
      (match slotFmt a false with
       | none => true
       | some c => pairRefused legacy pass x c (cfgOf s i false))

/-- The operand format that an MM gives to a stream set, if it reads one that begins at `feed` (spec 06 R244). -/
def mmFeedFmt (backward : Bool) (f : ArrF) (feed : Nat) : Option Nat :=
  if f.feed.toNat = feed then some f.fmtX.toNat
  else if mmFlow backward f.sel ≠ .stationary ∧ otherSet f.feed.toNat = feed then some f.fmtW.toNat
  else none

/-- A TAP GSTAT that waits for its MM. -/
def GStat.waits (g : GStat) : Bool := !g.direct && g.mm.isNone

/-- The fault of an array slot at issue: code and ERR_INFO1 (spec 05 R192, R197, R230; 06 R244; 04 R151). -/
def arrFault (s : State) (i : TileId) (op : ArrOp) (f : ArrF) : Option (Nat × Nat) :=
  let t := s.tile i
  let back := s.flag Reg.TILE_ARRAY_MODE i 0
  let legacy := s.flag Reg.TILE_LEGACY i 0
  let mode := op.code + 16 * f.sel.toNat + 64 * b2n back
  let fmt := f.fmtX.toNat + 16 * f.fmtW.toNat
  match op with
  | .mode => if t.arrays.empty then none else some (0x010A, mode + 128)
  | .wload =>
    if back && f.sel != 1#2 then some (0x010A, mode)
    else if arrAccepts legacy f.fmtW.toNat then none
    else some (0x010B, fmt)
  | .mm =>
    if mmRefused s i f then some (0x010B, fmt)
    else if t.gather.any (fun g => g.waits && (match mmFeedFmt back f g.feed with
        | some c => !fmtGather c
        | none => false)) then some (0x010B, fmt)
    else none
  | .gstat => if legacy && f.pass == 1#4 && !fmtLegacy f.fmtX.toNat then some (0x010B, fmt) else none
  | _ => none

/-- Does the operation take an entry of the array queues? MODE finds them empty and leaves them so; a GSTAT takes an
entry of the gather queue. -/
def ArrOp.queues : ArrOp → Bool
  | .mode | .gstat => false
  | _ => true

/-- Enter a command in the queues of its arrays. -/
def pushCmd (s : State) (i : TileId) (op : ArrOp) (f : ArrF) (slotA slotB : Nat) : State :=
  let id := (s.tile i).nextId
  let c : ArrCmd := { id := id, op := op, f := f, slotA := slotA, slotB := slotB,
                      cfgA := cfgOf s i false, cfgB := cfgOf s i true }
  s.modTile i (fun t => { t with
    nextId := id + 1
    arrays := { t.arrays with queue := t.arrays.queue ++ [.cmd c] } })

/-- The slot that the next WLOAD fills (spec 05 R198). -/
def nextSlot : Option Nat → Nat
  | some 0 => 1
  | _ => 0

/-- The effect of an array slot at issue (spec 02 R61; 05 R194, R198, R199, R209, R231; 06 R243, R244). -/
def arrIssue (s : State) (i : TileId) (op : ArrOp) (f : ArrF) : State :=
  let a := (s.tile i).arrays
  match op with
  | .mode =>
    ((s.resetFlds [Reg.TILE_A_SLOT, Reg.TILE_B_SLOT] i).setF Reg.TILE_ARRAY_MODE i 0 f.pass.toNat).modArrays i Arrays.clear
  | .gstat => issueGstat s i f
  | .wload =>
    let na := nextSlot a.lastA
    let nb := nextSlot a.lastB
    (pushCmd s i op f na nb).modArrays i (fun a => { a with
      lastA := if f.sel[0] then some na else a.lastA
      lastB := if f.sel[1] then some nb else a.lastB
      fmtA := if f.sel[0] then a.fmtA.setIfInBounds na (some f.fmtW.toNat) else a.fmtA
      fmtB := if f.sel[1] then a.fmtB.setIfInBounds nb (some f.fmtW.toNat) else a.fmtB })
  | .mm =>
    let id := (s.tile i).nextId
    let back := s.flag Reg.TILE_ARRAY_MODE i 0
    (pushCmd s i op f (a.lastA.getD 0) (a.lastB.getD 0)).modTile i (fun t => { t with
      gather := t.gather.map (fun g =>
        match g.waits, mmFeedFmt back f g.feed with
        | true, some c => { g with mm := some id, fmtX := c }
        | _, _ => g) })
  | .drainCfg =>
    let v := (f.kgrp.extractLsb' 0 6).toNat
    let s := if f.sel[0] then s.setF Reg.TILE_DRAIN_CFG_A i 0 v else s
    let s := if f.sel[1] then s.setF Reg.TILE_DRAIN_CFG_B i 0 v else s
    pushCmd s i op f 0 0
  | .drain | .bindFeed | .bindDrain | .resetWalk => pushCmd s i op f 0 0

/-! The control slot at issue. -/

/-- The relation of a PSET (spec 02 Table 2.26). -/
def psetHolds (op : CtlOp) (a b : Word64) : Bool :=
  match op with
  | .psetEq => a == b
  | .psetNe => a != b
  | .psetLt => a.slt b
  | .psetLe => a.sle b
  | .psetGt => b.slt a
  | .psetGe => b.sle a
  | .psetLtu => a.ult b
  | _ => b.ule a

/-- The scalar result of a control operation and its latency (spec 02 Tables 2.9, 2.26; 06 Table 6.2). -/
def ctlValue (s : State) (i : TileId) (op : CtlOp) (f : CtlF) : Option (Nat × Word64) :=
  let t := s.tile i
  let a := t.sr f.sa
  let b := t.sr f.sb
  let imm := f.imm.signExtend 64
  let n := (b.extractLsb' 0 6).toNat
  match op with
  | .add => some (1, a + b)
  | .sub => some (1, a - b)
  | .and => some (1, a &&& b)
  | .or => some (1, a ||| b)
  | .xor => some (1, a ^^^ b)
  | .shl => some (1, a <<< n)
  | .shr => some (1, a >>> n)
  | .sra => some (1, a.sshiftRight n)
  | .addi => some (1, a + imm)
  | .smul => some (3, a * b)
  | .li => some (1, imm)
  | .time => some (2, BitVec.ofNat 64 (s.tileTime i t.cycle))
  | .mstat => some (2, BitVec.ofNat 64 (s.getF Reg.TILE_MV_DONE i 0))
  | .gstatq => some (2, BitVec.ofNat 64 (s.getF Reg.TILE_GATHER_DONE i 0))
  | _ => none

/-- What a control slot puts in flight. -/
def ctlPends (s : State) (i : TileId) (op : CtlOp) (f : CtlF) : List Pend :=
  let t := s.tile i
  if op.isPset then
    [{ left := 1, num := 0#4,
       dst := .p (f.sd.extractLsb' 0 3) (BitVec.allOnes 128)
         (if psetHolds op (t.sr f.sa) (t.sr f.sb) then BitVec.allOnes 128 else 0#128) }]
  else
    match ctlValue s i op f with
    | some (n, v) => [{ left := n, num := 0#4, dst := .s f.sd v }]
    | none => []

/-! Stalls and faults of a bundle. -/

/-- Entries that a bundle puts into the queue of an array. -/
def queueNeed (ops : List SlotOp) (b : Bool) : Nat :=
  (ops.filter (fun o => match o with
    | .arr op f => op.queues && (if b then f.sel[1] else f.sel[0])
    | .ctl .issue _ => true
    | _ => false)).length

/-- Is a queue that the slot enters full (spec 02 R61, Table 2.14; 06 R247, R251)? -/
def queueFull (t : Tile) (ops : List SlotOp) (o : SlotOp) : Bool :=
  let full (b : Bool) : Bool := decide (t.arrays.depth b + queueNeed ops b > 4)
  match o with
  | .arr .gstat _ => decide (t.gather.length ≥ 4)
  | .arr op f => op.queues && ((f.sel[0] && full false) || (f.sel[1] && full true))
  | .ctl .issue _ => decide (t.marver.length ≥ 4) || full false || full true
  | _ => false

/-- What hinders one acting slot: a stall, or the fault it would stop the program with. DESIGN CHOICE: a BR to a bundle at or
beyond PROG_LEN stops the program when the BR issues, not after its delay bundles (spec 02 R65; log entry 106). -/
def slotHitch (s : State) (i : TileId) (ops : List SlotOp) (o : SlotOp) : Option Hitch :=
  let t := s.tile i
  let len := s.getF Reg.TILE_PROG_LEN i 0
  match o with
  | .vec op f =>
    if op.isTrans && decide (t.cycle < t.transFree) then some (.stall 5)
    else if vecUnsupported (s.flag Reg.TILE_LEGACY i 0) op f then some (.fault 0x010B (cvtSrc f + 16 * cvtDst f))
    else none
  | .arr op f =>
    if queueFull t ops o then some (.stall 4)
    else match arrFault s i op f with
      | some (c, x) => some (.fault c x)
      | none => none
  | .acc op f _ => (accHitch t op f).map .stall
  | .msg op f => msgHitch s i op f
  | .ctl op f =>
    if queueFull t ops o then some (.stall 4)
    else if op == .issue && s.flag Reg.TILE_ARRAY_MODE i 0 then some (.fault 0x010A (15 + 64))
    else if (op == .br || op == .loop) && decide (ctlIndex f ≥ len) then some (.fault 0x0109 (ctlIndex f))
    else none
  | .bad _ => none

/-- Reserved encodings that depend on the mode, the drain configurations and the gather entries in force (spec 05 R196, R201,
R209; 06 R243): of any enabled slot, whether or not it acts (spec 02 R57). -/
def slotReserved (s : State) (i : TileId) : SlotOp → Bool
  | .arr .mm f => mmIllegal (s.flag Reg.TILE_ARRAY_MODE i 0) (cfgOf s i false) (cfgOf s i true) f
  | .arr .gstat f => gstatIllegal s i f
  | _ => false

/-- Is a LOOP illegal where it acts: it ends at or before itself, or would open a fifth level (spec 02 R66)? -/
def loopIllegal (s : State) (i : TileId) : SlotOp → Bool
  | .ctl .loop f =>
    let t := s.tile i
    decide (ctlIndex f ≤ t.pc) || (t.sr f.sa != 0#64 && decide (t.loops.length ≥ 4))
  | _ => false

/-- Does a slot that acts make its bundle illegal for a reason of the tile's state? -/
def slotIllegal (s : State) (i : TileId) (o : SlotOp) : Bool := slotReserved s i o || loopIllegal s i o

/-- The slot mask of ILLEGAL_BUNDLE (spec 02 Table 2.15). -/
def slotMask (ops : List SlotOp) (p : SlotOp → Bool) : Nat :=
  (ops.filter p).foldl (fun n o => n ||| 2 ^ o.slot) 0

/-- The order in which the slots of a bundle are asked for what hinders them. -/
def askOrder : SlotOp → Nat
  | .vec _ _ => 0
  | .acc _ _ _ => 1
  | .arr _ _ => 2
  | .ctl _ _ => 3
  | _ => 4

/-- What hinders a bundle: any stall before any fault, each in the order of the slots asked. -/
def bundleHitch (s : State) (i : TileId) (ops : List SlotOp) : Option Hitch :=
  let hs := ((List.range 5).flatMap (fun k => ops.filter (fun o => askOrder o == k))).filterMap (slotHitch s i ops)
  match hs.find? (fun h => match h with | .stall _ => true | _ => false) with
  | some h => some h
  | none => hs.head?

/-! Flow. -/

/-- The end of a loop body: the innermost level counts one pass, jumps back, or ends; then the next level is the
innermost (spec 02 R66). The levels that stay, and the bundle jumped to. -/
def loopEnd (pc : Nat) : List LoopLevel → List LoopLevel × Option Nat
  | [] => ([], none)
  | l :: ls =>
    if l.last = pc then
      if l.left > 1 then ({ l with left := l.left - 1 } :: ls, some l.start) else loopEnd pc ls
    else (l :: ls, none)

/-- The LOOP that acts in a bundle. -/
def loopOf (ops : List SlotOp) : Option CtlF :=
  ops.findSome? (fun o => match o with
    | .ctl .loop f => some f
    | _ => none)

/-- The acting BR of a bundle: its target. -/
def branchOf (ops : List SlotOp) : Option Nat :=
  ops.findSome? (fun o => match o with
    | .ctl .br f => some (ctlIndex f)
    | _ => none)

def hasBr (ops : List SlotOp) : Bool := ops.any (fun o => match o with
  | .ctl .br _ => true
  | _ => false)

/-- The next bundle index after the bundle at `t.pc` (spec 02 R65, R66). `all` are the enabled slots, `ops` those
that act; `a` is S[SA] as the bundle read it. A LOOP with S[SA] = 0 opens no level: in the last bundle of the innermost level it
leaves that level to count its pass. DEDUCED: a LOOP that opens a level there begins the new body first (log entry 107). -/
def Tile.flow (t : Tile) (all ops : List SlotOp) (a : Nat) : Tile :=
  let taken : Option Nat := match t.branch with
    | some (x, 1) => some x
    | _ => none
  let branch := match branchOf ops with
    | some x => some (x, 2)
    | none => match t.branch with
      | some (x, n) => if n ≤ 1 then none else some (x, n - 1)
      | none => none
  let shadow := if hasBr all then 2 else t.brShadow - 1
  let t := { t with branch := branch, brShadow := shadow }
  let opens : Option LoopLevel :=
    (loopOf ops).bind (fun f => if a = 0 then none else some { start := t.pc + 1, last := ctlIndex f, left := a })
  let next := match loopOf ops with
    | some f => if a = 0 then ctlIndex f + 1 else t.pc + 1
    | none => t.pc + 1
  match taken, opens with
  | some x, some l => { t with loops := l :: t.loops, pc := x }
  | some x, none => { t with pc := x }
  | none, some l => { t with loops := l :: t.loops, pc := next }
  | none, none =>
    let r := loopEnd t.pc t.loops
    { t with loops := r.1, pc := r.2.getD next }

/-! Issue. -/

/-- Cycles that an access slot waited at bank arbiters. -/
def waitOf (ops : List SlotOp) : Nat :=
  (ops.filterMap (fun o => match o with
    | .acc .ld _ w => some w.val
    | .acc .st _ w => some w.val
    | _ => none)).headD 0

/-- The effects of the acting slots, and what they put in flight, in the order of R70. -/
def slotEffects (s : State) (i : TileId) (ops : List SlotOp) : State × List Pend :=
  let t := s.tile i
  let sr := s.srState i
  let ctl := ops.flatMap (fun o => match o with
    | .ctl op f => ctlPends s i op f
    | _ => [])
  let vec := ops.filterMap (fun o => match o with
    | .vec op f => some (vecPend t sr op f)
    | _ => none)
  let trans := ops.any (fun o => match o with
    | .vec op _ => op.isTrans
    | _ => false)
  let s := if trans then s.modTile i (fun t => { t with transFree := t.cycle + 4 }) else s
  let s := ops.foldl (fun s o => match o with
    | .arr op f => arrIssue s i op f
    | _ => s) s
  let acc := ops.foldl (fun (x : State × List Pend) o => match o with
    | .acc op f _ => let y := accIssue x.1 i op f; (y.1, x.2 ++ y.2)
    | _ => x) (s, [])
  let msg := ops.foldl (fun (x : State × List Pend) o => match o with
    | .msg op f => let y := msgIssue x.1 i op f; (y.1, x.2 ++ y.2)
    | _ => x) (acc.1, [])
  let s := ops.foldl (fun s o => match o with
    | .ctl .issue f => issueMarver s i (t.sr f.sa).toNat
    | _ => s) msg.1
  (s, vec ++ acc.2 ++ msg.2 ++ ctl)

/-- The stall that begins after the bundle: WAIT, DRAIN or MODE (spec 02 Table 2.14; 05 R224, R231). -/
def afterStall (t : Tile) (ops : List SlotOp) : Option Stall :=
  let wait := (ops.findSome? (fun o => match o with
    | .ctl .wait f => some (t.sr f.sa).toNat
    | _ => none)).getD 0
  let arr := ops.findSome? (fun o => match o with
    | .arr .mode _ => some 300
    | .arr .drain _ => some 0
    | _ => none)
  match arr with
  | some n => some { cause := 6, ops := [], need := n, run := 0, also := wait }
  | none => if wait = 0 then none else some { cause := 7, ops := [], need := wait, run := 0, also := 0 }

/-- Cycles of issue stall pass (spec 02 R93, R95, R100): they count for their cause and in the program cycle; a stall
longer than STALL_LIMIT stops the program. -/
def stallCycles (s : State) (i : TileId) (n : Nat) : State :=
  match (s.tile i).stall with
  | none => s
  | some st =>
    let lim := s.getF Reg.TILE_STALL_LIMIT i 0
    let past := lim != 0 && decide (st.run + n > lim)
    let n := if past then lim + 1 - st.run else n
    let s := (s.countF Reg.TILE_STALL_CYCLES i st.cause n).modTile i (fun t =>
      { t with cycle := t.cycle + n, stall := some { st with run := st.run + n } })
    let s := (s.clockTo i (s.tile i).cycle).landStores i (s.tile i).cycle
    if past then s.tileFault i 0x010C st.cause else s

/-- Is the slot a HALT (spec 02 R67)? -/
def SlotOp.isHalt : SlotOp → Bool
  | .ctl .halt _ => true
  | _ => false

/-- Is the slot a GSTAT? One that finds the gather queue empty is at its head at once (spec 06 R245). -/
def SlotOp.isGstat : SlotOp → Bool
  | .arr .gstat _ => true
  | _ => false

/-- The bundle has issued: one cycle, one more issued bundle, results that are due, the flow (spec 02 R54, R65, R69,
R100). -/
def finishBundle (s : State) (i : TileId) (all ops : List SlotOp) (ps : List Pend) : State :=
  let t0 := s.tile i
  let a := match loopOf ops with
    | some f => (t0.sr f.sa).toNat
    | none => 0
  let st := afterStall t0 ops
  let halt := ops.any SlotOp.isHalt
  let s := (s.countF Reg.TILE_ISSUED_BUNDLES i 0 1).modTile i (fun t => { t with
    cycle := t.cycle + 1
    inflight := t.inflight ++ ps })
  let s := s.clockTo i (s.tile i).cycle
  let s := s.setNum i (s.tile i).dueNum
  let s := s.modTile i (fun t =>
    let t := t.advance.flow all ops a
    { t with
      halting := t.halting || halt
      timedOut := false
      stall := st
      pstate := if st.isSome then .stalled else .running })
  if halt then orphanTaps s i
  else
    let len := s.getF Reg.TILE_PROG_LEN i 0
    if (s.tile i).pc ≥ len then s.tileFault i 0x0109 len else s

/-- Issue the enabled slots of the bundle at PC, after the checks of the bundle as such; `run` is the number of cycles
the bundle has already waited to issue. -/
def issueOps (s : State) (i : TileId) (all : List SlotOp) (run : Nat) : State :=
  let s := s.landStores i (s.tile i).cycle
  let t := s.tile i
  let ops := all.filter (·.acts t)
  match parityHit t all with
  | some x => s.tileFault i 0x0103 x
  | none =>
    let mask := slotMask ops (loopIllegal s i)
    if mask ≠ 0 then s.tileFault i 0x0101 mask
    else
      match bundleHitch s i ops with
      | some (.stall c) => s.modTile i (fun t => { t with
          pstate := .stalled
          stall := some { cause := c, ops := all, need := 0, run := run, also := 0 } })
      | some (.fault c x) => s.tileFault i c x
      | none =>
        let s := s.modTile i (fun t => { t with
          pstate := .running
          stall := some { cause := 3, ops := all, need := 0, run := run, also := 0 } })
        let s := if waitOf ops = 0 then s else stallCycles s i (waitOf ops)
        let s := if waitOf ops = 0 then s else s.countF Reg.PANTRY_CONFLICT_CYCLES i 0 (waitOf ops)
        if (s.tile i).pstate = .faulted then s
        else
          let t := s.tile i
          let trial := ops.foldl (fun s o => match o with
            | .acc op f _ => (accIssue s i op f).1
            | _ => s) s
          if (trial.tile i).pstate = .faulted then trial
          else
            let x := slotEffects (s.setTile i t) i ops
            let s := finishBundle x.1 i all ops x.2
            if ops.any SlotOp.isGstat && (s.tile i).active then gatherHead s i else s

/-- The bits of ERR_INFO1 for an acting SENDR with a reserved value in S[SX] (spec 02 R63, Table 2.15). -/
def sendrMask (t : Tile) (ops : List SlotOp) : Nat :=
  if (ops.filter (·.acts t)).any (fun o => match o with
      | .msg .sendr f => sendrReserved t f
      | _ => false) then 8 + 64 else 0

/-- Fetch the bundle at PC with its enabled slots and issue it (spec 02 R53, R57, R65). A reserved encoding of any enabled slot
stops the program. -/
def issueBundle (s : State) (i : TileId) (hdr : BitVec 3) (ops : List SlotOp) : State :=
  let t := s.tile i
  let len := s.getF Reg.TILE_PROG_LEN i 0
  if t.pc ≥ len then s.tileFault i 0x0109 len
  else if t.istoreDouble.contains t.pc then s.tileFault i 0x0102 t.pc
  else
    let s := if t.istoreSingle.contains t.pc then s.countF Reg.TILE_ECC_CORRECTED i 0 1 else s
    let legacy := s.flag Reg.TILE_LEGACY i 0
    let mask := slotMask ops (fun o => o.illegal legacy || slotReserved s i o) |||
      (if hasBr ops && t.brShadow != 0 then 16 else 0) ||| (if hdr = 0#3 then 0 else 32)
    if mask ≠ 0 then s.tileFault i 0x0101 (mask ||| slotMask (ops.filter (·.acts t)) (loopIllegal s i) ||| sendrMask t ops)
    else issueOps s i ops 0

/-- A slot of the bundle being put together arrives; with the last slot the bundle issues. A tile that does not run
a program, or has issued HALT, issues nothing. -/
def issueSlot (s : State) (c : Issue) (o : SlotOp) : State :=
  let t := s.tile c.tile
  if t.pstate ≠ .running ∨ t.halting then s
  else
    let ops := t.bundle.filter (fun x => x.slot != o.slot) ++ [o]
    let hdr := t.hdr ||| c.hdr
    if c.last then
      issueBundle (s.setTile c.tile { t with bundle := [], hdr := 0#3 }) c.tile hdr ops
    else s.setTile c.tile { t with bundle := ops, hdr := hdr }

/-! The end of stalls. -/

/-- A stalled tile reaches program cycle `c`. DESIGN CHOICE: the program cycle count does not run while the tile is FROZEN (spec
02 R104; log entry 108). -/
def stallTo (s : State) (i : TileId) (c : Nat) : State :=
  if (s.tile i).pstate = .stalled then stallCycles s i (c - (s.tile i).cycle) else s

/-- Try again to issue the bundle that waits under a cause. -/
def retryStall (s : State) (i : TileId) (cause : Nat) : State :=
  let t := s.tile i
  match t.stall with
  | some st => if t.pstate = .stalled ∧ st.cause = cause ∧ st.ops ≠ [] then issueOps s i st.ops st.run else s
  | none => s

/-- An issue stall that began after its bundle ends (WAIT, MODE, DRAIN); a WAIT in the bundle of a DRAIN or MODE may
hold issue longer. DESIGN CHOICE: a stall of the next bundle is a new stall, and STALL_LIMIT counts it from its own start (spec 02
R95; log entry 109). -/
def endStall (s : State) (i : TileId) : State :=
  let t := s.tile i
  match t.stall with
  | some st =>
    if t.pstate ≠ .stalled ∨ st.ops ≠ [] then s
    else if st.run < st.also then
      s.modTile i (fun t => { t with stall := some { st with cause := 7, need := st.also, also := 0 } })
    else s.modTile i (fun t => { t with stall := none, pstate := .running })
  | none => s

/-- A tile event at program cycle `c`: a stalled tile is at that cycle, device time is at least that of the cycle, and its stores
have landed so far. -/
def tileAt (s : State) (i : TileId) (c : Nat) : State := ((stallTo s i c).clockTo i c).landStores i c

/-- At cycle `c`, try again to issue the bundle that waits under a cause. -/
def retryAfter (s : State) (i : TileId) (cause c : Nat) : State :=
  match (s.tile i).stall with
  | some st =>
    if (s.tile i).pstate = .stalled ∧ st.cause = cause ∧ st.ops ≠ [] then retryStall (tileAt s i c) i cause else s
  | none => s

/-- The last program cycle that a stall of the tile reaches by itself (spec 02 Table 2.14, R95): the end of a WAIT or a MODE, the
last store that a FENCE waits for, the transcendental unit, STALL_LIMIT. -/
def stallBound (s : State) (i : TileId) (c : Nat) : Nat :=
  let t := s.tile i
  let lim := s.getF Reg.TILE_STALL_LIMIT i 0
  match t.stall with
  | none => t.cycle
  | some st =>
    let c := if lim = 0 then c else min c (t.cycle + (lim - st.run))
    if st.ops = [] ∧ st.need ≠ 0 then min c (t.cycle + (st.need - st.run))
    else if st.cause = 3 ∧ st.ops ≠ [] then min c (t.stores.foldl (fun n p => max n p.visible) t.cycle)
    else if st.cause = 5 then min c t.transFree
    else c

/-- The cycles of a stall up to the present device time count (spec 02 R100), before something outside the program stops or
freezes it. -/
def settleStall (s : State) (i : TileId) : State :=
  if (s.tile i).pstate = .stalled then stallTo s i (stallBound s i (s.tileCycle i)) else s

end Sys2Proof.Machine
end

