-- ==== Sys2Proof/Machine/TileEvents.lean ====
section
/-! DEFINITION. What starts and stops a tile's program, and the events of its engines: ends of stalls, arrivals, array,
access, gather and marver events (spec 02 R65 to R106, R588, R589; 03 R127 to R138; 05 R191 to R238; 06 R239 to R284). -/

namespace Sys2Proof.Machine

set_option Elab.async false

/-! Start and stop. -/

/-- Counters that clear at START and at SOFT_RESET: page 1 (spec 02 R106), NUM_STATUS (04 R189), MM_COMPLETED and
ZERO_GATED (05 R237), the counters of page 5 (06 R284). -/
def startCounters : List Fld :=
  [Reg.TILE_DOOR_LATE_DISCARD, Reg.TILE_DOOR_DROPPED, Reg.TILE_CREDIT_DROPPED, Reg.TILE_NAN_PRODUCED,
   Reg.TILE_INF_PRODUCED, Reg.TILE_INVALID_CONVERT, Reg.TILE_INT_SAT, Reg.TILE_MM_COMPLETED, Reg.TILE_MV_DONE,
   Reg.TILE_MV_PROBLEMS, Reg.TILE_MV_NONSUCCESS, Reg.TILE_MV_DEADLINE_MISS, Reg.TILE_MV_PIVOTS, Reg.TILE_GATHER_DONE,
   Reg.TILE_GATHER_WAIT_CYCLES, Reg.TILE_GATHER_ORPHANED]

/-- Clear them. -/
def clearCounters (s : State) (i : TileId) : State :=
  (s.resetFlds startCounters i).modArrays i (fun a => { a with zeroGated := 0 })

/-- What START alone clears: page 2 (spec 02 R101), the pantry's page 2 counters (03 R149), expected sequence numbers
(02 R589), bindings, walk positions, drain configurations and the array mode (05 R191, R203, R204, R209). -/
def startFields : List Fld :=
  [Reg.TILE_LATE_FILL_EVENTS, Reg.TILE_LATE_FILL_CYCLES, Reg.TILE_LATE_FILL_MAX, Reg.TILE_DRAIN_BACKPRESSURE_CYCLES,
   Reg.TILE_STALL_CYCLES, Reg.TILE_ISSUED_BUNDLES, Reg.PANTRY_DESC_COMPLETED, Reg.PANTRY_CONFLICT_CYCLES,
   Reg.TILE_DOOR_EXPECTED_SEQ, Reg.TILE_FEED_BIND, Reg.TILE_DRAIN_BIND, Reg.TILE_WALK_POS, Reg.TILE_DRAIN_CFG_A,
   Reg.TILE_DRAIN_CFG_B, Reg.TILE_ARRAY_MODE,
   Reg.TILE_A_SLOT, Reg.TILE_B_SLOT]

/-- The program begins at ENTRY; with FREEZE set it begins frozen (spec 02 R104). Program cycle 0 is now (R86). -/
def beginProgram (s : State) (i : TileId) : State :=
  let s := (clearCounters s i).resetFlds startFields i
  let entry := s.getF Reg.TILE_ENTRY i 0
  let frozen := s.flag (Hdr.FREEZE 1) i 0
  s.modTile i (fun t => { t with
    pc := entry
    pstate := if frozen then .frozen else .running
    thawTo := .running
    stall := none
    loops := []
    branch := none
    brShadow := 0
    halting := false
    bundle := []
    hdr := 0#3
    inflight := []
    cycle := 0
    transFree := 0
    skipped := Vector.replicate 16 []
    txSeq := []
    startWaits := false
    timedOut := false
    anchorAt := s.now
    anchorCycle := 0
    comp0 := none
    arrays := t.arrays.clear })

/-- PROG_STATUS.STATE as a register shows it (spec 02 Table 2.19). -/
def ProgState.code : ProgState → Nat
  | .idle => 0 | .running => 1 | .stalled => 2 | .frozen => 3 | .halted => 4 | .faulted => 5

/-- START (spec 02 Table 2.18, R50, R104, R589; 14 R550): ignored unless the tile serves a logical tile, is enabled, IDLE or
HALTED, and has a program; a START while a stopped marver still holds the arrays takes effect at their release (spec 06 R255). -/
def doStart (s : State) (i : TileId) : State :=
  let t := s.tile i
  if !s.tileActive i ∨ s.getF (Hdr.ENABLE 1) i 0 = 0 ∨ s.getF Reg.TILE_PROG_LEN i 0 = 0 ∨ (t.pstate ≠ .idle ∧ t.pstate ≠ .halted) then s
  else if t.releasing then s.modTile i (fun t => { t with startWaits := true })
  else beginProgram s i

/-- A tile reaches HALTED: the EVENT interrupt (spec 14 Table 14.5). -/
def setHalted (s : State) (i : TileId) : State :=
  (s.modTile i (fun t => { t with pstate := .halted })).raise 1 0 i 1

/-- ABORT (spec 02 Table 2.18, R588): ignored unless a program is active. -/
def doAbort (s : State) (i : TileId) : State :=
  if (s.tile i).active then setHalted ((settleStall s i).stopTile i) i else s

/-- SOFT_RESET of a tile (spec 02 R104, R106; 04 R189; 05 R237; 06 R284), in every program state. -/
def doSoftReset (s : State) (i : TileId) : State :=
  let s := if (s.tile i).active then (settleStall s i).stopTile i else s
  let held := (s.tile i).doors.toList.foldl (fun n ms => n + ms.length) 0
  let s := (clearCounters s i).countF Reg.TILE_DOOR_DROPPED i 0 held
  let s := s.resetFlds [Hdr.INT_STATUS 1 0, Hdr.ERR_CODE 1 0, Hdr.ERR_INFO0 1 0, Hdr.ERR_INFO1 1 0,
    Hdr.INT_STATUS 1 5, Hdr.ERR_CODE 1 5, Hdr.ERR_INFO0 1 5, Hdr.ERR_INFO1 1 5] i
  let entry := s.getF Reg.TILE_ENTRY i 0
  s.modTile i (fun t => { t with
    v := Tile.reset.v
    sreg := Tile.reset.sreg
    p := Tile.reset.p
    badV := []
    badS := []
    badP := []
    doors := Vector.replicate 16 []
    startWaits := false
    pstate := .idle
    pc := entry })

/-- FREEZE of a tile (spec 02 R104): issue stops at the next bundle boundary and goes on where it stopped. -/
def doFreeze (s : State) (i : TileId) (on : Bool) : State :=
  let s := s.setF (Hdr.FREEZE 1) i 0 (b2n on)
  if on then
    let s := settleStall s i
    if (s.tile i).pstate = .running ∨ (s.tile i).pstate = .stalled then
      s.modTile i (fun t => { t with thawTo := t.pstate, pstate := .frozen })
    else s
  else if (s.tile i).pstate = .frozen then
    let s := s.modTile i (fun t => { t.anchor s.now with pstate := t.thawTo })
    match (s.tile i).stall with
    | some st => retryStall s i st.cause
    | none => s
  else s

/-! Ends of stalls. -/

/-- The cycles of a WAIT or a MODE run out (spec 02 Table 2.14, 05 R231). -/
def countedStallEnd (s : State) (i : TileId) (cause : Nat) : State :=
  match (s.tile i).stall with
  | some st =>
    if (s.tile i).pstate = .stalled ∧ st.ops = [] ∧ st.cause = cause ∧ 0 < st.need then
      endStall (stallCycles s i (st.need - st.run)) i
    else s
  | none => s

/-- A waiting DRAIN ends: every earlier command of its arrays has drained (spec 05 R224). -/
def drainEnd (s : State) (i : TileId) (c : Nat) : State :=
  let t := s.tile i
  match t.stall with
  | some st =>
    if t.pstate = .stalled ∧ st.ops = [] ∧ st.cause = 6 ∧ st.need = 0 then
      match t.arrays.queue.find? (fun e => match e with
        | .cmd c => c.op == .drain
        | .marver _ => false) with
      | some e =>
        if t.arrays.drainedBefore e.id e.sel then
          let s := (tileAt s i c).modArrays i (fun a => { a with queue := a.queue.filter (fun x => x.id != e.id) })
          endStall s i
        else s
      | none => endStall s i
    else s
  | none => s

/-- A continuous stall exceeds STALL_LIMIT (spec 02 R95). -/
def stallLimit (s : State) (i : TileId) : State :=
  let lim := s.getF Reg.TILE_STALL_LIMIT i 0
  match (s.tile i).stall with
  | some st => if lim = 0 ∨ (s.tile i).pstate ≠ .stalled then s else stallCycles s i (lim + 1 - st.run)
  | none => s

/-- The last ST before a stalled FENCE becomes visible (spec 02 Table 2.14). -/
def fenceEnd (s : State) (i : TileId) : State :=
  let t := s.tile i
  match t.stall with
  | some st =>
    if st.cause = 3 ∧ t.pstate = .stalled then
      retryStall (tileAt s i (t.stores.foldl (fun n p => max n p.visible) t.cycle)) i 3
    else s
  | none => s

/-- The transcendental unit is free again (spec 02 R71). -/
def transEnd (s : State) (i : TileId) : State :=
  let t := s.tile i
  match t.stall with
  | some st => if st.cause = 5 ∧ t.pstate = .stalled then retryStall (tileAt s i t.transFree) i 5 else s
  | none => s

/-- Every decoupled engine has drained after HALT (spec 02 R67): results in flight land and the tile is HALTED. -/
def programHalted (s : State) (i : TileId) (c : Nat) : State :=
  let t := s.tile i
  if t.halting ∧ t.pstate = .running ∧ t.arrays.empty ∧ t.gather = [] ∧ t.marver = [] ∧ t.descs.toList.all (·.isNone) then
    let s := (tileAt s i c).landAllStores i
    let num := (s.tile i).inflight.foldl (fun n p => n ||| p.num) 0#4
    setHalted ((s.setNum i num).modTile i (fun t => { t.landAll with halting := false, loops := [], branch := none })) i
  else s

/-! Doors. -/

/-- A message arrives at door `d` of a tile at device time `time` (spec 02 R79 to R85). -/
def messageArrival (s : State) (i : TileId) (d : BitVec 4) (src : ArrivalSrc) (time c : Nat) : State :=
  match src with
  | .local l =>
    match s.net.find? (fun m => !m.remote && m.src == l.val && m.dst == s.logical i && m.door == d.toNat) with
    | some m =>
      if s.tileActive i then
        let s := (tileAt { s with net := s.net.erase m } i c).atTime time
        retryStall (arriveMsg s i d m.msg time) i 0
      else s
    | none => s
  | .remote m =>
    if s.tileActive i then retryStall (arriveMsg ((tileAt s i c).atTime time) i d { m with remote := true } time) i 0 else s

/-- A credit return arrives at a sender (spec 02 R77, R78, R90). -/
def creditReturn (s : State) (i : TileId) (src : CreditSrc) (c : Nat) : State :=
  let arrive (s : State) (d : SendDest) (n : Nat) : State := retryStall (arriveCredit (tileAt s i c) i d n) i 1
  match src with
  | .local l d =>
    match s.credits.find? (fun r => !r.remote && r.dst == s.logical i && r.tile == l.val && r.door == d.val) with
    | some r =>
      if s.tileActive i then
        arrive { s with credits := s.credits.erase r } { remote := false, member := 0, tile := r.tile, door := r.door } r.n
      else s
    | none => s
  | .remote m l d n => if s.tileActive i then arrive s { remote := true, member := m, tile := l, door := d } n else s

/-- Has comparator 0 a passed deadline to act on (spec 06 R277)? -/
def comparator0Due (t : Tile) (time : Nat) : Bool :=
  match t.marver with
  | d :: _ => d.running && d.deadline != 0 && decide (d.deadline < time)
  | [] => false

/-- Comparator 1 detects the expiry of a stalled RECVT (spec 02 R83): the door re-checks for an expected message that
came in time; only if there is none does the RECVT complete with TIMEOUT. Comparator 0 is acted on before it, and in the
cycle in which comparator 0 acted it acts one cycle later (R87). -/
def recvtExpiry (s : State) (i : TileId) (time c : Nat) : State :=
  let t := s.tile i
  match t.stall with
  | some st =>
    let waits := (st.ops.filter (·.acts t)).any (fun o => match o with
      | .msg .recvt f => decide ((t.sr f.sx).toNat < time)
      | _ => false)
    if t.pstate = .stalled ∧ st.cause = 0 ∧ waits ∧ !comparator0Due t time then
      let c := if t.comp0 = some c then c + 1 else c
      let s := ((tileAt s i c).atTime time).modTile i (fun t => { t with timedOut := true })
      retryStall s i 0
    else s
  | none => s

/-! Arrays. -/

/-- Remove an entry from the array queues. -/
def popEntry (s : State) (i : TileId) (id : Nat) : State :=
  s.modArrays i (fun a => { a with queue := a.queue.filter (fun e => e.id != id) })

/-- Cycles that a master waited at bank arbiters count (spec 03 R113, R147: a hold of the sweep is such a wait). -/
def countWaits (s : State) (i : TileId) (master n : Nat) : State :=
  if n = 0 then s else s.countF Reg.PANTRY_CONFLICT_CYCLES i master n

/-- May a command of the array queues begin (spec 05 R194, R207, R225; 06 R255)? -/
def arrayReady (s : State) (i : TileId) (k : ArrCmd) : Bool :=
  let t := s.tile i
  k.op != .drain && !t.releasing && !t.arrays.streamTaken (s.flag Reg.TILE_ARRAY_MODE i 0) k &&
    (k.op != .mm || mmReserved s i k)

/-- The command at the front of an array's queue begins at cycle `c` and leaves the queue (spec 05 R194). `wait` are the cycles
that its feeder streams wait at bank arbiters. A command whose streams an earlier one still has to use, or whose drain
reservation waits, does not begin. -/
def arrayStart (s : State) (i : TileId) (b : Bool) (c wait : Nat) : State :=
  match (s.tile i).arrays.front b with
  | some (.cmd k) =>
    let s' := tileAt s i c
    if !arrayReady s' i k then s
    else
      let r := startCmd (popEntry (countWaits s' i mAccess wait) i k.id) i k
      match r.2 with
      | some e => r.1.externalStop i e
      | none => retryStall r.1 i 4
  | _ => s

/-- May the results of a job drain: its slices are reserved, and no older job still has to use one of its drain streams (spec 05
R207, R225)? -/
def drainReady (a : Arrays) (now : Nat) (j : DrainJob) : Bool :=
  a.jobGranted now j &&
    (a.jobs.takeWhile (fun k => k.id != j.id)).all (fun k => !shares (k.slices.map (·.1)) (j.slices.map (·.1)))

/-- What the eight drain streams met, in the order of their numbers. -/
def drainCosts (wait press : Vector Nat 8) : List DrainCost := (List.finRange 8).map (fun k => ⟨k, press[k], wait[k]⟩)

/-- The results of the oldest MM of an array enter drain staging (spec 05 R222, R224). `costs` are what its drain streams met
(spec 02 R99). A failed check stops the program with the job undrained. -/
def mmDrained (s : State) (i : TileId) (b : Bool) (costs : List DrainCost) (c : Nat) : State :=
  match (s.tile i).arrays.jobs.find? (fun j => if b then j.sel[1] else j.sel[0]) with
  | none => s
  | some j =>
    let s' := tileAt s i c
    if !drainReady (s'.tile i).arrays s'.now j then s
    else
      let wait (st : Nat) : Nat := (costs.filter (fun x => x.stream.val == st)).foldl (fun n x => n + x.wait) 0
      let s := costs.foldl (fun s x =>
        countWaits (s.countF Reg.TILE_DRAIN_BACKPRESSURE_CYCLES i x.stream.val x.press) i mAccess x.wait) s'
      let r := stageJob i wait s j
      match r.2 with
      | some e => r.1.externalStop i e
      | none =>
        let s := r.1.modArrays i (fun a => { a with jobs := a.jobs.filter (fun x => x.id != j.id) })
        retryStall ((s.setNum i j.num).countF Reg.TILE_MM_COMPLETED i 0 1) i 4

/-! Access engine. -/

/-- The command of a descriptor kind: `n` rows of the eligible descriptor of kind `k` on a handle, at program cycle
`c`, if it is the first in the engine's order (spec 03 R135, R136). It acts on nothing else. -/
def moveDesc (s : State) (i : TileId) (h : Fin 16) (k n c : Nat) (x : MoveCost) : State :=
  match (s.tile i).descs[h] with
  | some d =>
    if d.kind = k ∧ d.rowsDone < d.rows ∧ eligible s i d c ∧ firstServed s i d c then
      let s := countWaits (tileAt s i c) i mAccess x.wait
      let s := match s.mapped d.destTile with
        | some j => if k = 4 then countWaits s j mMessage x.msgWait else s
        | none => s
      moveRows i h c x.late n s
    else s
  | none => s

/-- Every line of a descriptor chain is written (spec 03 R130): its lateness is counted, its handle is free, and a DWAIT on it
ends in the next cycle. -/
def descComplete (s : State) (i : TileId) (h : Fin 16) (c waited : Nat) : State :=
  match (s.tile i).descs[h] with
  | some d =>
    if d.done then
      let s := countLate (tileAt s i c) i d c waited
      let s := ((s.countF Reg.PANTRY_DESC_COMPLETED i 0 (d.finished + 1)).setDesc i h none).settleClashes
      retryAfter s i 2 (c + 1)
    else s
  | none => s

/-! Gather engine. -/

/-- The blocks that a GSTAT will write, or the error that stops the program. -/
def gstatResult (i : TileId) (g : GStat) (w : GWork) : State :=
  match w.err with
  | some e => w.s.externalStop i e
  | none => w.s.modTile i (fun t => { t with
      gather := { g with attached := true, lines := w.lines, num := w.num } :: t.gather.tail })

/-- A TAP GSTAT at the head of the gather queue attaches to its MM, whose rows it samples (spec 06 R244, R245).
`waited` cycles are counted in GATHER_WAIT_CYCLES. -/
def gstatAttach (s : State) (i : TileId) (waited c : Nat) : State :=
  match (s.tile i).gather with
  | [] => s
  | g :: _ =>
    match g.direct, g.attached, g.rows with
    | false, false, some rows =>
      let s := (tileAt s i c).countF Reg.TILE_GATHER_WAIT_CYCLES i 0 waited
      gstatResult i g (gstatBlocks s i g (tapSamples g rows))
    | _, _, _ => s

/-- The GSTAT at the head of the gather queue writes its last block line (spec 06 R246, R247); the next one is at the head. `wait`
are the cycles that its SEQ requests waited. -/
def gstatComplete (s : State) (i : TileId) (c wait : Nat) : State :=
  match (s.tile i).gather with
  | [] => s
  | g :: _ =>
    if !g.direct && !g.attached then s
    else
      let s := countWaits (tileAt s i c) i mSeq wait
      let w := if g.direct then directBlocks s i g else { s := s, err := none, lines := g.lines, num := g.num }
      match w.err with
      | some e => w.s.externalStop i e
      | none =>
        let s := w.s.dropHazards i (.gstat g.id)
        let r := writeLines i mSeq (s, none) w.lines
        match r.2 with
        | some e => r.1.externalStop i e
        | none =>
          let s := ((r.1.setNum i w.num).modTile i (fun t => { t with gather := t.gather.tail, gathered := true })).wrapF Reg.TILE_GATHER_DONE i 0 1
          retryStall (gatherHead s i) i 4

/-! Marver sequencer. -/

/-- The descriptor at the head of the marver's queue starts at cycle `c` (spec 06 R251). -/
def marverBegin (s : State) (i : TileId) (k c : Nat) : State := marverStart (tileAt s i c) i k

/-- The descriptor that runs ends (spec 06 R274), by its deadline: one that has passed ends it by DEADLINE_EXPIRY (R277). `wait`
are the cycles that its SEQ requests waited. -/
def marverDone (s : State) (i : TileId) (c wait : Nat) : State :=
  match (s.tile i).marver with
  | d :: _ =>
    let s' := tileAt s i c
    if d.running ∧ (d.deadline = 0 ∨ s'.now ≤ d.deadline) then
      retryStall (marverFinish (countWaits s' i mSeq wait) i d d.problems) i 4
    else s
  | [] => s

/-- Comparator 0 detects a passed deadline (spec 06 R277 to R280): the problems on time keep their outcome, the others
end where they stood. -/
def deadlineExpiry (s : State) (i : TileId) (time c : Nat) (ats : List MvAt) (wait : Nat) : State :=
  match (s.tile i).marver with
  | d :: _ =>
    if comparator0Due (s.tile i) time then
      let s := (countWaits ((tileAt s i c).atTime time) i mSeq wait).modTile i (fun t => { t with comp0 := some c })
      let legacy := s.flag Reg.TILE_LEGACY i 0
      let ats := settleAts (decide (d.w ≤ 128 ∧ 2 ≤ d.batch)) d.batch ats
      let r := (d.problems.zip ats).zipIdx.foldl (fun (x : State × List MvProblem) q =>
        (x.1.useFree, x.2 ++ [deadlineProblem legacy d q.2 x.1.free q.1.1 q.1.2])) (s, [])
      retryStall (marverFinish r.1 i d r.2) i 4
    else s
  | [] => s

/-- A stopped marver releases the arrays (spec 06 R253, R255). -/
def marverRelease (s : State) (i : TileId) : State :=
  let t := s.tile i
  if t.releasing then
    let s := (s.resetFlds [Reg.TILE_A_SLOT, Reg.TILE_B_SLOT] i).modTile i (fun t =>
      { t with releasing := false, startWaits := false, arrays := t.arrays.clear })
    if t.startWaits then doStart s i else s
  else s

end Sys2Proof.Machine
end

