-- ==== Sys2Proof/Machine/PantryEvents.lean ====
section
/-! DEFINITION. Accesses of the pantry's other masters, region descriptors, bank states and the sweep (spec 03 R110,
R114 to R124, R139 to R149). -/

namespace Sys2Proof.Machine

set_option Elab.async false

/-- Does the actor reach the device as a control processor? The host writes none of these pages (spec 03 R117, R148;
14 R539). -/
def Actor.isCp : Actor → Bool
  | .host => false
  | .cp _ => true

/-! Other masters. -/

/-- An access by the crucible, the export engine, host DMA or a control processor (spec 03 R110, R122): `n` bytes read,
or bytes written. `wait` cycles at bank arbiters are counted (spec 03 R113). -/
def masterAccess (s : State) (i : TileId) (m addr n : Nat) (w : Option (List Byte)) (wait : Nat) : State :=
  let s := countWaits s i m wait
  match w with
  | some d =>
    let r := pantryStore s i m 15 addr d
    { r.1 with reply := { data := [], err := r.2.getD 0 } }
  | none =>
    let r := pantryLoad s i none { master := m, handle := 15, write := false, addr := addr, len := n }
    { r.1 with reply := { data := r.2.2, err := r.2.1.getD 0 } }

/-- Write a word of a region descriptor (spec 03 R115, R117, R118, Table 3.12). -/
def regionWrite (s : State) (a : Actor) (i : TileId) (m : Fin 7) (d : Fin 8) (word : Bool) (v : Word) : State :=
  let k := 8 * m.val + d.val
  let x := v.toNat
  if !a.isCp || (decide (m.val < 3) && (s.tile i).active) then s
  else
    let s := if word then s.setF Reg.PANTRY_RD_LAST i k (x % 8192)
      else (((s.setF Reg.PANTRY_RD_BASE i k (x % 8192)).setF Reg.PANTRY_RD_R i k (bits x 13 13)).setF
        Reg.PANTRY_RD_W i k (bits x 14 14)).setF Reg.PANTRY_RD_EN i k (bits x 15 15)
    let last := s.getF Reg.PANTRY_RD_LAST i k
    if s.flag Reg.PANTRY_RD_EN i k && (decide (last < s.getF Reg.PANTRY_RD_BASE i k) || decide (last ≥ 5120)) then
      recordPErr s i ⟨0x0209, 0x100 + 64 * m.val + 8 * d.val + 4 * b2n word, m.val + 8 * d.val⟩
    else s

/-- CTR_CLEAR (spec 03 R149). -/
def counterClear (s : State) (i : TileId) : State :=
  s.resetFlds [Reg.PANTRY_DESC_COMPLETED, Reg.PANTRY_CONFLICT_CYCLES] i

/-! Banks (spec 03 R139, R140). -/

def State.modPantry (s : State) (i : TileId) (f : Pantry → Pantry) : State :=
  s.modTile i (fun t => { t with pantry := f t.pantry })

/-- Lines of a bank are no longer lost: every word of the bank reads 0 with good check bits. -/
def dropBankLines (b : Nat) (h : Hazard) : List Hazard :=
  if h.by_ != .lost || (linesOf h.first h.count).all (fun l => bankOf l != b) then [h]
  else (linesOf h.first h.count).foldl (fun hs l =>
    if bankOf l = b then hs.flatMap (Hazard.cut (64 * l) (64 * l + 64)) else hs) [h]

/-- The contents of a bank are lost; when it is ON again it reads 0. -/
def Pantry.wipeBank (p : Pantry) (b : Nat) : Pantry :=
  { p with
    mem := p.mem.filter (fun c => bankOf (c.1 / 64) != b)
    single := p.single.filter (fun w => bankOf (w / 64) != b)
    double := p.double.filter (fun w => bankOf (w / 64) != b)
    hazards := p.hazards.flatMap (dropBankLines b) }

/-- Request a bank state. -/
def bankRequest (s : State) (i : TileId) (b code : Nat) : State :=
  if code = 3 then s
  else
    let s := s.setF Reg.PANTRY_BANK_REQ i b code
    let p := (s.tile i).pantry
    if p.trans.any (·.bank == b) then
      s.modPantry i (fun p => { p with
        trans := p.trans.map (fun t => if t.bank = b then { t with pending := some code } else t) })
    else if s.getF Reg.PANTRY_BANK_CUR i b = code then s
    else (s.setF Reg.PANTRY_BANK_CUR i b 3).modPantry i (fun p => { p with
      trans := p.trans ++ [{ bank := b, from_ := s.getF Reg.PANTRY_BANK_CUR i b, target := code, pending := none }] })

/-- Forget that a bank went to RETENTION with its GATED cluster: a control processor has asked for another state. -/
def ungateBank (s : State) (i : TileId) (b : Nat) : State :=
  { s with power := { s.power with gateBanks := s.power.gateBanks.filter (· != (i.val, b)) } }

/-- A write of BANK_REQ word `m` by a control processor (spec 03 R139, R148). -/
def bankReqWrite (s : State) (a : Actor) (i : TileId) (m : Fin 3) (v : Word) : State :=
  if !a.isCp then s
  else ((List.range 16).filter (fun k => decide (16 * m.val + k < 40))).foldl
    (fun s k =>
      let c := bits v.toNat (2 * k + 1) (2 * k)
      bankRequest (if c = 3 then s else ungateBank s i (16 * m.val + k)) i (16 * m.val + k) c) s

/-- A bank transition ends (spec 03 R140, Table 3.8): the state, the contents (lost on the way to
OFF, zero-filled on the way from it), BANK_DONE, then a pending request. -/
def bankEnd (s : State) (i : TileId) (b : Nat) : State :=
  match (s.tile i).pantry.trans.find? (·.bank == b) with
  | none => s
  | some t =>
    let s := s.modPantry i (fun p =>
      let p := { p with trans := p.trans.filter (·.bank != b) }
      if t.target = 0 ∨ t.from_ = 0 then p.wipeBank b else p)
    let s := (s.setF Reg.PANTRY_BANK_CUR i b t.target).raise 2 0 i 3
    match t.pending with
    | some code => bankRequest s i b code
    | none => s

/-! Sweep (spec 03 R141 to R147). -/

/-- Are the eight banks of the region's group all ON (spec 03 R146)? -/
def regionOn (s : State) (i : TileId) (r : Nat) : Bool :=
  (List.range 8).all (fun k => bankOn s i (8 * (r / 1024) + k))

/-- One failing line: a spare of its bank, or a halt of the sweep (spec 03 R144, R145). -/
def sweepFail (i : TileId) (r : Nat) (s : State) (k : Fin 64) : State :=
  let p := (s.tile i).pantry
  let line := 64 * r + k.val
  let b := bankOf line
  let free := p.spares.toList.getD b 0
  if p.halted.isSome then s
  else if free = 0 then
    let s := (s.modPantry i (fun p => { p with halted := some r })).setF Reg.PANTRY_HALTED i 0 1
    (recordPErr s i ⟨0x020A, 4096 * r, 8 * b + 512 * rowOf line⟩).raise 2 0 i 2
  else
    let s := s.modPantry i (fun p => { p with spares := p.spares.setIfInBounds b (free - 1) })
    let s := s.setF Reg.PANTRY_SPARE_LINES_FREE i 0 (s.getF Reg.PANTRY_SPARE_LINES_FREE i 0 - 1)
    (s.wrapF Reg.PANTRY_REPAIRED_LINES i 0 1).raise 2 0 i 1

/-- The first region from `r` on, in ascending order with wrap, whose banks are ON; `n` regions are tried. -/
def nextRegion (s : State) (i : TileId) : Nat → Nat → Option Nat
  | 0, _ => none
  | n + 1, r => if regionOn s i (r % 5120) then some r else nextRegion s i n (r + 1)

/-- The sweep reads a word with a double-bit error: it is raised and copied unchanged (spec 03 R109, R143; 95). The sweep is no
master of Table 3.3, so that the master in ERR_INFO1 is a free value. -/
def sweepDouble (i : TileId) (s : State) (w : Nat) : State :=
  recordPErr (s.useFree.countF Reg.PANTRY_ECC_UNCORRECTABLE i 0 1) i
    ⟨0x0205, w, Config.freeNat s.free % 8 + 512 * 15 + 8 * bankOf (w / 64)⟩

/-- The sweep takes the next region: it is saved with its single-bit errors corrected, marched, repaired and restored
(spec 03 R143 to R146). `fails` are the lines of the region that fail the march. -/
def sweepRegion (s : State) (i : TileId) (fails : List (Fin 64)) : State :=
  let p := (s.tile i).pantry
  if !s.flag Reg.PANTRY_SWEEP_EN i 0 || p.halted.isSome then s
  else
    match nextRegion s i 5120 p.sweepNext with
    | none => s
    | some q =>
      let r := q % 5120
      let here := wordsIn p.single (4096 * r) 4096
      let s := if here.isEmpty then s else s.countF Reg.PANTRY_ECC_CORRECTED i 0 here.length
      let s := (wordsIn p.double (4096 * r) 4096).foldl (sweepDouble i) s
      let s := s.modPantry i (fun p => { p with
        single := p.single.filter (fun w => !here.contains w)
        sweepNext := (r + 1) % 5120 })
      let s := s.setF Reg.PANTRY_REGION i 0 r
      let s := fails.foldl (sweepFail i r) s
      if q + 1 ≥ 5120 then s.wrapF Reg.PANTRY_SWEEP_PASSES i 0 1 else s

end Sys2Proof.Machine
end

