-- ==== Sys2Proof/Machine/PowerDomains.lean ====
section
/-! DEFINITION. Power domains and their transitions (spec 12 R491 to R496), stack frequencies (spec 12 R497 to R499) and
throttle levels (spec 12 R500, R502, R507). -/

namespace Sys2Proof.Machine

set_option Elab.async false

/-! Domains by number (spec 12 Table 12.2). -/

abbrev domCount : Nat := 50
abbrev domAon : Nat := 44
abbrev domCp : Nat := 45
abbrev domCru : Nat := 48

def isCluster (d : Nat) : Bool := decide (d < 32)
def isRegion (d : Nat) : Bool := decide (32 ≤ d) && decide (d < 40)

/-- CUR of a domain: 0 OFF, 1 GATED, 2 ON, 3 TRANSITION. -/
def domCur (s : State) (d : Nat) : Nat := s.getF Reg.PSEQ_CUR 0 d

/-- A CUR field changes: the EVENT interrupt (spec 14 Table 14.5). -/
def setDomCur (s : State) (d v : Nat) : State :=
  if domCur s d = v then s else (s.setF Reg.PSEQ_CUR 0 d v).raise 19 0 0 1

/-- The region of a cluster (spec 00 R5). -/
def regionOf (c : Nat) : Nat := 32 + 2 * (c / 8) + c % 8 / 4

/-- What a domain needs ON (spec 12 Table 12.3). -/
def domNeeds (d : Nat) : List Nat :=
  if d < 32 then [regionOf d]
  else if d < 40 then [domCru]
  else if d < 44 then [32 + 2 * (d - 40), 33 + 2 * (d - 40)]
  else if d = domCp then [domAon]
  else if d = domAon then []
  else [domCp]

/-- Domains that need a domain ON. -/
def domUsers (d : Nat) : List Nat := (List.range domCount).filter (fun e => (domNeeds e).contains d)

/-- The tiles of a cluster. -/
def clusterTiles (c : Nat) : List TileId := (List.finRange 128).filter (fun i => i.val / 4 == c)

def clusterBusy (s : State) (c : Nat) : Bool := (clusterTiles c).any (fun i => (s.tile i).active)

/-- What keeps a region ON beside its clusters (spec 12 R492): a channel in service, its port, its crucible channels. -/
def regionUsed (s : State) (r : Nat) : Bool :=
  (List.range 3).any (fun k => chanInService s (3 * r + k)) || s.getF (Hdr.ENABLE 4) r 0 == 1 ||
    (List.range 2).any (fun k => s.getF Reg.CH_EN r k == 1)

/-- The figure of Table 12.4 in ns, where it gives one. -/
def transFigure (s : State) (d target : Nat) : Option Nat :=
  if isCluster d then some (if target = 1 then 1000 else if target = 0 then 10000 else if (s.power.gatedAt.any (fun g => g.1 == d)) then 2000 else 200000)
  else if isRegion d then some (if target = 2 then 500000 else 20000)
  else if target = 2 ∧ d ≠ domCp then some 1000000
  else none

/-- Does a tile of the cluster serve a logical column at this start? A spare, unserviceable or withdrawn cluster runs nothing
(spec 02 R48, R50). -/
def clusterServes (s : State) (c : Nat) : Bool := (clusterTiles c).any (fun i => s.tileActive i)

/-- May the domain go from its present state to `v` (spec 12 R491 to R493)? A cluster that serves no column stays OFF (spec 12
R495, spec 02 R50). -/
def domAllowed (s : State) (d v : Nat) : Bool :=
  let cur := domCur s d
  if d = domAon ∨ v = 3 ∨ (v = 1 && !isCluster d) ∨ (isCluster d && v != 0 && !clusterServes s d) then false
  else if v = 0 then (domUsers d).all (fun e => domCur s e == 0) && !(isRegion d && regionUsed s (d - 32))
  else (domNeeds d).all (fun e => domCur s e == 2) && (if v = 1 then cur == 2 && !clusterBusy s d else true)

/-- Start a transition. -/
def startTrans (s : State) (d v : Nat) : State :=
  let s := setDomCur s d 3
  { s with power := { s.power with trans := s.power.trans ++ [{ dom := d, target := v, since := s.now }] } }

/-- May the processor write the pages of spec 12 (R513)? CP0 does during a start. -/
def powerWriter (s : State) (a : Actor) : Bool :=
  match a with
  | .host => false
  | .cp n => n.val == 2 || (n.val == 0 && (s.power.startDue.isSome || s.getF Reg.MBX_FW_STATE 0 0 ≤ 1))

/-- A REQ write by a processor (spec 12 R491, R495, R513). CP1 writes only ON, for clusters and regions. DESIGN CHOICE:
a request during a transition is applied when that transition ends (log entry 51). -/
def domainRequest (s : State) (a : Actor) (d v t : Nat) : State :=
  let may : Bool := powerWriter s a || (a == .cp 1 && v == 2 && decide (d < 40))
  if !may ∨ d ≥ domCount ∨ s.getF (Hdr.ENABLE 19) 0 0 = 0 then s
  else
    let s := s.atTime t
    if domCur s d = 3 then (if v < 3 ∧ (v ≠ 1 ∨ isCluster d) ∧ d ≠ domAon then s.setF Reg.PSEQ_REQ 0 d v else s)
    else if !domAllowed s d v then s
    else
      let s := s.setF Reg.PSEQ_REQ 0 d v
      if domCur s d = v then s else startTrans s d v

/-- Does nothing of R492 of spec 12 keep the region ON? -/
def regionIdle (s : State) (r : Nat) : Bool :=
  !regionUsed s r && (List.range 32).all (fun c => regionOf c != 32 + r || domCur s c == 0)

/-- CP2 switches off each region that nothing keeps ON, and before it the KPHY that needs it (spec 12 R491, R492). -/
def settleRegions (s : State) : State :=
  if !cpUp s 2 then s
  else (List.range 8).foldl (fun s r =>
    if !regionIdle s r ∨ domCur s (32 + r) ≠ 2 then s
    else
      let k := 40 + r / 2
      let s := if domCur s k = 2 && regionIdle s (2 * (r / 2)) && regionIdle s (2 * (r / 2) + 1) then domainRequest s (.cp 2) k 0 s.now else s
      domainRequest s (.cp 2) (32 + r) 0 s.now) s

/-! What a domain loses when it is off. -/

/-- Drop the register values of the pages of a block type's instance, except some fields. -/
def dropPage (s : State) (ty inst : Nat) (keep : List Fld) : State :=
  { s with regs := s.regs.filter (fun r => match regPlace (r.1 / 8) with
      | some p => !(p.ty == ty && p.inst == inst) || keep.any (fun f => f.key inst 0 == r.1)
      | none => true) }

/-- A cluster loses its state: its tiles are at reset, but for the copy of TILE_MAP in H_AON (spec 12 R493, R494, spec 14
R554). The pantries lie in the region. -/
def clusterLost (s : State) (c : Nat) : State :=
  let s := (clusterTiles c).foldl (fun (s : State) (i : TileId) =>
    let s := s.modTile i (fun t => { Tile.reset with pantry := t.pantry })
    dropPage s 1 i [Reg.TILE_LOGICAL_X, Reg.TILE_MAP_STATE]) s
  { s with loaded := s.loaded.filter (fun x => x.1 / 4 != c)
           power := { s.power with gatedAt := s.power.gatedAt.filter (·.1 != c) } }

/-- A region loses its state: its pantries, crucible slice, port and channel pages (spec 12 Table 12.4). -/
def regionLost (s : State) (r : Nat) : State :=
  let s := (List.finRange 128).foldl (fun s i =>
    if regionOf (i.val / 4) = 32 + r then dropPage (s.modTile i (fun t => { t with pantry := Tile.reset.pantry })) 2 i [] else s) s
  let s := dropPage (dropPage s 3 r []) 4 r []
  (List.range 3).foldl (fun s k => dropPage s 5 (3 * r + k) []) s

/-- The state of a domain that has reached `v`. -/
def domArrived (s : State) (d v : Nat) : State :=
  let s := if v ≠ 0 then s else if isCluster d then clusterLost s d else if isRegion d then regionLost s (d - 32) else s
  let s := if isCluster d then
      { s with power := { s.power with
        gatedAt := s.power.gatedAt.filter (·.1 != d) ++ (if v = 1 then [(d, s.now)] else []) } }
    else s
  setDomCur s d v

/-! Clusters and banks of a unit (spec 12 R495, R496). -/

/-- The tile that serves a logical tile by the grid map, enabled or not. -/
def mappedTile (s : State) (l : Nat) : Option TileId :=
  (List.finRange 128).find? (fun i => s.tileActive i && s.logical i == l)

/-- The clusters of a list of logical tiles. -/
def clustersOf (s : State) (ls : List Nat) : List Nat := ((ls.filterMap (mappedTile s)).map (fun i => i.val / 4)).eraseDups

/-- CP1 asks for the clusters that are not ON, and for their regions; answers whether all are ON. -/
def powerUnit (s : State) (ls : List Nat) : State × Bool :=
  let cs := clustersOf s ls
  let s := cs.foldl (fun s c =>
    if domCur s c = 2 then s
    else
      let s := if domCur s (regionOf c) = 2 then s else domainRequest s (.cp 1) (regionOf c) 2 s.now
      if domCur s (regionOf c) = 2 then domainRequest s (.cp 1) c 2 s.now else s) s
  (s, cs.all (fun c => domCur s c == 2))

/-- CP1 returns to ON those of a tile's banks that went to RETENTION with their GATED cluster (spec 12 R496); answers
whether none of them is in RETENTION or on its way. -/
def wakeBanks (s : State) (i : TileId) (banks : List Nat) : State × Bool :=
  let banks := banks.filter (fun b => s.power.gateBanks.contains (i.val, b))
  let s := banks.foldl (fun s b => if s.getF Reg.PANTRY_BANK_CUR i b = 1 then bankRequest s i b 2 else s) s
  (s, banks.all (fun b => s.getF Reg.PANTRY_BANK_CUR i b != 3))

/-! Frequency and throttle. -/

def curN (s : State) (n : Fin 4) : Nat := s.getF Reg.BRK_CUR_N 0 n

/-- The N that FREQ_APPLY would put in force: the target, at most 40 in SAFE_FLOOR (spec 12 R507). -/
def wantedN (s : State) (n : Fin 4) : Nat :=
  let v := s.getF Reg.BRK_TARGET_N 0 n
  if s.flag Reg.BRK_SAFE_FLOOR 0 0 then min 40 v else v

/-- The throttle level in force (spec 12 R502). -/
def settleThrottle (s : State) : State :=
  (List.finRange 4).foldl (fun (s : State) (n : Fin 4) =>
    s.setF Reg.BRK_THROTTLE 0 n (max (max s.power.kP s.power.kT[n]) (max s.power.kS[n] s.power.kA[n]))) s

/-- The safe-floor request of each stack (spec 12 R489, R507). -/
def settleFloor (s : State) : State :=
  let on := s.flag Reg.BRK_SAFE_FLOOR 0 0 || s.power.inputLow
  let k (n : Fin 4) : Nat := if on then 16 - 16 * 1000 / (25 * max 1 (curN s n)) else 0
  settleThrottle { s with power := { s.power with kS := Vector.ofFn k } }

/-- The breaker enters SAFE_FLOOR (spec 12 R507, Table 12.11). -/
def enterSafeFloor (s : State) (cause : Nat) : State :=
  if s.flag Reg.BRK_SAFE_FLOOR 0 0 then s
  else settleFloor (((s.setF Reg.BRK_SAFE_FLOOR 0 0 1).raise 6 0 0 1).recordErr 6 0 0 0x0709 cause 0)

def stackBusy (s : State) (n : Fin 4) : Bool :=
  (List.finRange 128).any (fun i => i.val / 32 == n.val && (s.tile i).active)

/-- The stack of a logical tile. -/
def stackOf (l : Nat) : Fin 4 := ⟨l / 4 / 7 % 4, Nat.mod_lt _ (by decide)⟩

/-- Is a step under way of a domain whose queue uses tiles of the stack? -/
def stackInStep (s : State) (n : Fin 4) : Bool :=
  s.domains.any (fun d => d.run.isSome && (s.queue? d.queue).any (fun q => q.tiles.any (fun l => stackOf l == n)))

/-- FREQ_APPLY for a stack, which only CP1 sets (spec 12 R499, R513): ignored while a tile of the stack runs. CP1 sets it only
at a boundary of every step that uses the stack (spec 01 R39). -/
def freqApply (s : State) (a : Actor) (n : Fin 4) (t : Nat) : State :=
  if a ≠ .cp 1 then s
  else
    let s := s.atTime t
    if !cpUp s 1 ∨ stackBusy s n ∨ stackInStep s n ∨ s.power.change[n].isSome ∨ wantedN s n = curN s n then s
    else { s with power := { s.power with change := s.power.change.set n (some (wantedN s n)) } }

/-- Order 6 of a step boundary (spec 01 Table 1.2): every stack whose frequency is to change and that runs no tile. -/
def applyFrequencies (s : State) : State := (List.finRange 4).foldl (fun s n => freqApply s (.cp 1) n s.now) s

end Sys2Proof.Machine
end

