-- ==== Sys2Proof/Machine/RegFile.lean ====
section
/-! DEFINITION. Words of a register page as the file holds them: which fields lie in a word, reading and storing a word
with no behaviour of its own (spec 00 R15 to R17; spec 14 R541). -/

namespace Sys2Proof.Machine

set_option Elab.async false

/-- An entry of a field as it lies in a word: bits `[lsb, lsb + width)` of the word are bits `[from, from + width)` of
entry `idx`. -/
structure FldPart where
  f : Fld
  idx : Nat
  lsb : Nat
  from_ : Nat
  width : Nat
  deriving DecidableEq, Repr

/-- The parts of a field in the word at offset `off`. -/
def Fld.parts (f : Fld) (off : Nat) : List FldPart :=
  (List.range f.cnt).filterMap (fun i =>
    let o := f.off + f.step * (i / f.per)
    let b := f.lsb + f.bitStep * (i % f.per)
    if off < o ∨ off ≥ o + 8 ∨ (off - o) % 4 ≠ 0 then none
    else
      let k := (off - o) / 4
      let lo := if k = 0 then b else 0
      let done := if k = 0 then 0 else 32 - b
      let w := if k = 0 then min f.width (32 - b) else f.width - done
      if w = 0 then none else some { f := f, idx := i, lsb := lo, from_ := done, width := w })

/-- The parts of every block-specific field of a page in one word. -/
def pageParts (ty inst pg off : Nat) : List FldPart := (allFields ty inst pg).flatMap (fun f => f.parts off)

/-- The word as the register file holds it. -/
def readStored (s : State) (ty inst pg off : Nat) : Nat :=
  (pageParts ty inst pg off).foldl (fun v p =>
    v + 2 ^ p.lsb * ((s.getF p.f inst p.idx / 2 ^ p.from_) % 2 ^ p.width)) 0

/-- Put the bits of a word that belong to one part. -/
def storePart (s : State) (inst v : Nat) (p : FldPart) : State :=
  let old := s.getF p.f inst p.idx
  let new := bits v (p.lsb + p.width - 1) p.lsb
  s.setF p.f inst p.idx (old - (old / 2 ^ p.from_ % 2 ^ p.width) * 2 ^ p.from_ + new * 2 ^ p.from_)

/-- Store the plain read-write fields of a word. -/
def storeWord (s : State) (ty inst pg off v : Nat) : State :=
  ((pageParts ty inst pg off).filter (fun p => p.f.acc == .rw && !p.f.live)).foldl (fun s p => storePart s inst v p) s

end Sys2Proof.Machine
end

