-- ==== Sys2Proof/Machine/QueueOps.lean ====
section
/-! DEFINITION. Queues (spec 11 R462 to R469): descriptors, completions, the choice of the next unit, program images,
the start of a unit, the abort of a unit's tiles. -/

namespace Sys2Proof.Machine

set_option Elab.async false

/-- The queue list with `q` in its place by ID. -/
def putQueue : List Queue → Queue → List Queue
  | [], q => [q]
  | e :: es, q => if e.id < q.id then e :: putQueue es q else if e.id = q.id then q :: es else q :: e :: es

/-- The clusters of a unit are idle from now on (spec 12 R495). -/
def markIdle (s : State) (u : RunUnit) : State :=
  let cs := clustersOf s u.tiles
  { s with power := { s.power with idleAt := s.power.idleAt.filter (fun x => !cs.contains x.1) ++ cs.map (fun c => (c, s.now)) } }

/-- Put a queue in its place; a unit that it no longer runs leaves its clusters idle. -/
def State.setQueue (s : State) (q : Queue) : State :=
  let s := match (s.queue? q.id).bind (·.unit), q.unit with
    | some u, none => markIdle s u
    | _, _ => s
  { s with queues := putQueue s.queues q }
def State.modQueue (s : State) (id : Nat) (f : Queue → Queue) : State :=
  match s.queue? id with
  | some q => s.setQueue (f q)
  | none => s

/-! Firmware states (spec 11 Table 11.20). -/

def fwState (s : State) : Nat := s.getF Reg.MBX_FW_STATE 0 0

/-- FW_STATE changes: the EVENT interrupt, EVT_FW_STATE, and ALERT_N for the states of spec 13 R531. -/
def setFwState (s : State) (v cause : Nat) : State :=
  let changed := fwState s != v
  let s := s.setF Reg.MBX_FW_STATE 0 0 v
  let s := if changed then s.raise 8 0 0 1 else s
  let s := if v = 0 ∨ v = 2 ∨ v = 5 then alert s Reg.SEC_FATAL else if v = 4 then alert s Reg.SEC_HOLD else s
  evtFwState s cause

/-- A processor's STATE changes: the EVENT interrupt (spec 14 Table 14.5). -/
def setCpState (s : State) (n v : Nat) : State :=
  let changed := s.getF Reg.CP_STATE n 0 != v
  let s := s.setF Reg.CP_STATE n 0 v
  if changed then s.raise 7 0 n 1 else s

/-! Completions (spec 11 R463, R464, Table 11.14). -/

/-- Free entries of the completion ring. -/
def Queue.cplFree (q : Queue) : Nat :=
  match q.rings with
  | none => 0
  | some r => 2 ^ r.cplLog - (q.cplTail + 65536 - q.cplHead) % 65536

/-- Write completions into the ring, in order: PHASE is 1 on the first pass and flips on every wrap. -/
def writeCpl (s : State) (q : Queue) (c : List Byte) : State :=
  match q.rings with
  | none => s.setQueue { q with due := q.due ++ [c] }
  | some r =>
    let n := 2 ^ r.cplLog
    let phase := if q.cplCount / n % 2 = 0 then 1 else 0
    let c := putField c 5 1 (field c 5 1 - field c 5 1 % 2 + phase)
    let s := s.setQueue { q with cplTail := (q.cplTail + 1) % 65536, cplCount := q.cplCount + 1 }
    (s.sendHost (r.cplBase + 32 * (q.cplCount % n)) c).send (.msix q.vector)

/-- A completion of a queue (spec 11 Table 11.14). -/
def complete (s : State) (qid subId status : Nat) (last : Bool) (err step : Nat) : State :=
  match s.queue? qid with
  | none => s
  | some q =>
    let c := toLe 4 subId ++ toLe 1 status ++ toLe 1 (2 * b2n last) ++ toLe 2 err ++ toLe 8 step ++ toLe 8 s.now ++ zeros 8
    writeCpl (s.setQueue { q with lastId := subId }) { q with lastId := subId } c

/-- Completions that waited for new rings are written to them, in order (spec 11 R485). -/
def flushDue : List (List Byte) → State → Nat → State
  | [], s, _ => s
  | c :: cs, s, qid =>
    match s.queue? qid with
    | none => s
    | some q => flushDue cs (writeCpl s q c) qid

/-- Set or clear STALLED, which the QUEUE_MGR page counts (spec 11 R464, Table 11.21). -/
def setStalled (s : State) (q : Queue) (v : Bool) : State :=
  let s := s.setQueue { q with stalled := v }
  let n := (s.queues.filter (·.stalled)).length
  let s := s.setF Reg.QMGR_QUEUES_STALLED 0 0 n
  if v && !q.stalled then s.countF Reg.QMGR_CPL_STALLS 0 0 1 else s

/-! Units. -/

/-- The physical tiles of a unit. -/
def unitTiles (s : State) (ls : List Nat) : List TileId := ls.filterMap (s.physical ·)

/-- Is no program of the unit's tiles active (spec 11 R464)? -/
def unitHalted (s : State) (u : RunUnit) : Bool := (unitTiles s u.tiles).all (fun i => !(s.tile i).active)

/-- Abort the programs of a unit's tiles (spec 11 R468). -/
def abortUnit (s : State) (u : RunUnit) : State := (unitTiles s u.tiles).foldl doAbort s

/-- The unit of a queue is over; its entry loses a step, and leaves the list with its last one. In a rotation an entry
with steps left goes behind the others (spec 11 R466). -/
def endUnit (s : State) (qid : Nat) (spent : Bool) : State :=
  s.modQueue qid (fun q =>
    match q.unit with
    | none => q
    | some _ =>
      let es := match q.entries with
        | [] => []
        | e :: es => if spent then (if e.left ≤ 1 then es else if q.rotate then es ++ [{ e with left := e.left - 1 }] else { e with left := e.left - 1 } :: es) else e :: es
      { q with unit := none, entries := es })

/-- The queue becomes STOPPED with its unit ended. -/
def stopQueue (s : State) (qid : Nat) : State := s.modQueue qid (fun q => { q with stopped := true })

/-! Submission entries (spec 11 Table 11.13). -/

def subEntryOf (e : List Byte) : SubEntry :=
  { kind := field e 0 1, id := field e 4 4, domain := bits (field e 8 4) 18 0,
    left := if field e 0 1 = 1 then field e 12 4 else 1, arg := field e 16 8 }

/-- A well-formed entry for the queue: no reserved value, its kind, a domain bound to it (spec 11 Table 11.13). -/
def subEntryOk (s : State) (q : Queue) (e : List Byte) : Bool :=
  let k := field e 0 1
  e.length == 64 && field e 1 3 == 0 && bits (field e 8 4) 31 19 == 0 && field e 24 40 == 0 &&
    (if q.isRun then k == 2 && field e 8 4 == 0 && field e 12 4 == 0
     else k == 1 && decide (field e 12 4 ≥ 1) && (match s.domain? (field e 8 4) with
       | some d => d.bound && d.queue == q.id
       | none => false))

/-- The error code of an entry that is refused: the spec gives such an entry no code of its own, so it is one of those that the
owner of the entry defines (spec 00 R18, R19; spec 11 codes 0x0601 to 0x0612), a free value (log entry 112). -/
def refusedCode (n : Nat) : Nat := 0x0601 + Config.freeNat n % 18

/-- CP1 takes submission entries: one, or with ROTATE up to 64 STEP entries; a malformed entry is answered REFUSED. -/
def takeEntries : Nat → State → Nat → State
  | 0, s, _ => s
  | fuel + 1, s, qid =>
    match s.queue? qid with
    | none => s
    | some q =>
      if q.rings.isNone ∨ q.entries.length ≥ (if q.rotate && !q.isRun then 64 else 1) then s
      else match q.waiting with
        | [] => s
        | e :: es =>
          let q' := { q with waiting := es, subHead := (q.subHead + 1) % 65536 }
          if subEntryOk s q e then takeEntries fuel (s.setQueue { q' with entries := q.entries ++ [subEntryOf e] }) qid
          else if q.cplFree = 0 then setStalled s q true
          else
            let s := s.setQueue q'
            takeEntries fuel ((complete s qid (field e 4 4) 2 true (refusedCode s.free) 0).useFree) qid

/-- Does a frequency change hold the queue back: one is in progress on a stack of its tiles, or due while units still run
there (spec 12 R499)? -/
def freqHeld (s : State) (q : Queue) : Bool :=
  q.tiles.any (fun l =>
    let n := stackOf l
    s.power.change[n].isSome || (wantedN s n != curN s n && s.queues.any (fun o => match o.unit with
      | some u => u.tiles.any (fun l => stackOf l == n)
      | none => false)))

/-- Is a queue ready (spec 11 R465)? -/
def queueReady (s : State) (q : Queue) : Bool :=
  q.unit.isNone && !freqHeld s q && !q.stopped && !q.stalled && q.rings.isSome && !q.entries.isEmpty &&
    s.queues.all (fun o => match o.unit with
      | some u => u.tiles.all (fun l => !bit q.mask l)
      | none => true) &&
    (match q.entries with
      | e :: _ => q.isRun || (match s.domain? e.domain with
        | some d => d.bound && !d.parked && !d.stopped && d.run.isNone && (match d.group with
          | some g => g.vacant.isEmpty && g.state == .member && g.clone.isNone
          | none => true)
        | none => false)
      | [] => false)

/-- The queue that CP1 starts next: highest priority, then the oldest last start, then the lowest ID (spec 11 R465). -/
def pickQueue (s : State) : Option Queue :=
  (s.queues.filter (queueReady s)).foldl (fun (b : Option Queue) q => match b with
    | none => some q
    | some o =>
      if o.prio < q.prio ∨ (o.prio = q.prio ∧ q.lastStart < o.lastStart) then some q else b) none

/-! Program images (spec 11 R469, Table 11.15). -/

/-- The section of each tile that an image names: logical tile and bytes. -/
def imageSections (img : List Byte) : List (List Byte) :=
  (List.range (field img 12 4)).map (fun k =>
    (img.drop (field img (64 + 8 * k) 4)).take (field img (68 + 8 * k) 4))

def secTile (x : List Byte) : Nat := bits (field x 0 1) 6 0
def secLen (x : List Byte) : Nat := field x 4 2

/-- The bytes of the image at an address. -/
def readImage (s : State) (a : Nat) : List Byte :=
  let h := Memory.readN s.dram a 64
  Memory.readN s.dram a (min (field h 16 8) (dramSize s - a))

/-- The credit slots in use of an image's tiles: the destination (tile, door, REMOTE and, where that is set, DEST_MEMBER) and
the credits granted for it. -/
def imageSlots (secs : List (List Byte)) : List (Nat × Nat) :=
  secs.flatMap (fun x => (List.range 32).filterMap (fun k =>
    let w := field x (0xC0 + 4 * k) 4
    if bit w 31 then some (if bit w 11 then w % 2 ^ 24 else w % 2 ^ 11, bits w 27 24) else none))

/-- The credits granted for each door, summed over all senders of the image, do not exceed 8 (spec 02 R76). -/
def creditsOk (secs : List (List Byte)) : Bool :=
  let xs := imageSlots secs
  xs.all (fun x => decide (xs.foldl (fun n y => if y.1 = x.1 then n + y.2 else n) 0 ≤ 8))

/-- No reserved byte of the image's header or of a section holds a value (spec 11 R469, Table 11.15; spec 00 R18). -/
def imageReservedZero (img : List Byte) (secs : List (List Byte)) : Bool :=
  field img 5 3 == 0 && field img 24 36 == 0 &&
    secs.all (fun x => decide (x.length ≥ 0x800) && field x 0 1 < 128 && field x 1 3 == 0 && field x 13 3 == 0 && field x 24 40 == 0 &&
      (List.range 16).all (fun d => field x (0x44 + 8 * d) 4 == 0) && field x 0x4E0 800 == 0)

/-- May CP1 load the image on the queue (spec 11 R469)? -/
def imageOk (s : State) (q : Queue) (img : List Byte) : Bool :=
  let secs := imageSections img
  img.length ≥ 64 && field img 0 4 == 0x5D1E40C3 && field img 4 1 == 1 && field img 60 4 == crc32c (img.take 60 ++ img.drop 64) &&
    imageReservedZero img secs &&
    secs.all (fun x => bit q.mask (secTile x) && (match s.physical (secTile x) with
      | some i => (List.range 40).all (fun b => !bit (field x 8 5) b || s.getF Reg.PANTRY_BANK_CUR i b == 2)
      | none => false)) &&
    creditsOk secs

/-- Copy `n` words of a section to consecutive words of a page. -/
def copyWords (s : State) (ty inst pg off : Nat) (x : List Byte) (at_ n : Nat) : State :=
  (List.range n).foldl (fun s k => storeWord s ty inst pg (off + 4 * k) (field x (at_ + 4 * k) 4)) s

/-- Load a tile's section: program, registers (spec 11 Table 11.15). A tile on which a program is active keeps the registers that
no write changes then (spec 02 R105, 03 R149, 05 R237, 06 R284). -/
def loadSection (s : State) (x : List Byte) : State :=
  match s.physical (secTile x) with
  | none => s
  | some i =>
    let n := secLen x
    let bundles := (List.range n).map (fun k => (k, (BitVec.ofNat 256 (field x (0x800 + 32 * k) 32) : BitVec 256)))
    let s := s.modTile i (fun t => { t with istore := bundles, istoreSingle := [], istoreDouble := [] })
    let s := s.setF Reg.TILE_STALL_LIMIT i 0 (field x 20 4)
    if (s.tile i).active then s
    else
      let s := (s.setF Reg.TILE_PROG_LEN i 0 n).setF Reg.TILE_ENTRY i 0 (field x 6 2)
      let s := s.setF Reg.PANTRY_RUNAHEAD i 0 (field x 16 4)
      let s := (List.range 16).foldl (fun s d => storeWord s 1 i 1 (0x100 + 8 * d) (field x (0x40 + 8 * d) 4)) s
      let s := copyWords s 1 i 1 0x200 x 0xC0 32
      let s := copyWords s 1 i 4 0x200 x 0x140 120
      copyWords s 1 i 5 0x200 x 0x320 64

/-- Open the pantry windows that the image gives for masters ACCESS, SEQ and MESSAGE (spec 11 R467). -/
def openWindows (s : State) (x : List Byte) : State :=
  match s.physical (secTile x) with
  | none => s
  | some i =>
    (List.finRange 3).foldl (fun s m => (List.finRange 8).foldl (fun s d =>
      let a := 0x420 + 64 * m.val + 8 * d.val
      regionWrite (regionWrite s (.cp 1) i (m.castLE (by decide)) d true (BitVec.ofNat 32 (field x (a + 4) 4))) (.cp 1) i
        (m.castLE (by decide)) d false (BitVec.ofNat 32 (field x a 4))) s) s

/-! Starting a unit (spec 11 R467). -/

/-- The UPB that comes into force at the start of a step (spec 07 R307). -/
def applyUpbs (d : Domain) (step : Nat) : Domain :=
  let due := d.upbs.filter (fun u => decide (field u 0 8 ≤ step))
  let best := due.foldl (fun b u => if b.isEmpty ∨ field b 0 8 ≤ field u 0 8 then u else b) []
  if best.isEmpty then d else { d with upb := best, upbs := d.upbs.filter (fun u => decide (step < field u 0 8)) }

/-- The next step of a domain. -/
def Domain.nextStep (d : Domain) : Nat := match d.lastStep with
  | some n => (n + 1) % 2 ^ 64
  | none => 0

/-- The root map of a domain's first step: every entry 0x00 (spec 07 R297). -/
def clearRootMap (s : State) (d : Domain) : State :=
  if d.lastStep.isSome then s
  else { s with dram := (List.range (rootMapLen s d)).foldl (fun m i => Memory.write m (rootMapAt d d.committed + i) 0#8) s.dram }

/-- The domain begins its next step, or runs it again from its beginning (spec 08 R365). -/
def beginStep (s : State) (id reruns : Nat) : State :=
  let s := match s.domain? id with
    | some d => clearRootMap s d
    | none => s
  s.modDomain id (fun d =>
    let n := d.nextStep
    { applyUpbs d n with
        roots := []
        run := some { step := n, phase := .program, startedAt := s.now, readyUs := 0, ovf := false, skipped := false,
                      reruns := reruns, updFaults := 0, nonfinite := 0, gradClosed := false, gradWords := [], gradItems := [],
                      statOpen := false, statClosed := false, dueRoots := [] } })

/-- What CP1 does on each tile of a unit before it starts it: SOFT_RESET where a door holds a message, or a fault
stands; the numerics registers, which an active program keeps (spec 04 R189); line 0; the DRAM windows (spec 11 R467, spec 04
R181, R187, spec 07 R288). -/
def prepareTile (s : State) (q : Queue) (seed step : Nat) (legacy : Bool) (line0 : List Byte) (wsn : List DramWindow) (i : TileId) : State :=
  let t := s.tile i
  let s := if t.doors.toList.any (fun ms => !ms.isEmpty) || t.pstate == .faulted then doSoftReset s i else s
  let s := if (s.tile i).active then s
    else ((s.setF Reg.TILE_SR_SEED i 0 seed).setF Reg.TILE_SR_STEP i 0 step).setF Reg.TILE_LEGACY i 0 (b2n legacy)
  let s := s.modTile i (fun t => { t with windows := queueWindows q ++ wsn })
  (pantryStore s i 6 15 0 line0).1

/-- Start the unit of the entry at the front of a queue. -/
def startUnit (s : State) (q : Queue) (e : SubEntry) (reruns : Nat) : State :=
  let img := readImage s q.prog
  if !imageOk s q img then
    let s := fwError s 0x060D q.id
    let s := complete (s.modQueue q.id (fun q => { q with entries := q.entries.drop 1 })) q.id e.id 2 true 0x060D 0
    s
  else
    let secs := imageSections img
    let ls := q.tiles
    let tiles := unitTiles s ls
    let key := q.prog
    let load := tiles.any (fun i => !s.loaded.contains (i.val, key))
    let s := if load then secs.foldl loadSection s else s
    let s := if load then { s with loaded := s.loaded.filter (fun x => !tiles.any (fun i => i.val == x.1)) ++ tiles.map (fun i => (i.val, key)) } else s
    let s := if q.isRun then s else beginStep s e.domain reruns
    let d? := s.domain? e.domain
    let step := if q.isRun then 0 else ((d?.bind (·.run)).map (·.step)).getD 0
    let seed := if q.isRun then 0 else (d?.map (·.seed)).getD 0
    let arg := if e.arg = 0 then zeros 48 else Memory.readN s.dram e.arg 48
    let line0 := toLe 8 step ++ toLe 4 e.domain ++ toLe 4 0 ++ arg
    let wsn := if q.isRun then [] else (d?.map slotWindows).getD []
    let s := tiles.foldl (prepareTile · q seed step q.legacy line0 wsn) s
    let s := giveSides s ls (if q.isRun then [] else (d?.map (·.freshSides)).getD [])
    let s := secs.foldl openWindows s
    let s := { s with fw := { s.fw with
      startOrder := s.fw.startOrder + 1
      ran := s.fw.ran.filter (fun (x : Nat × Nat) => !tiles.any (fun (i : TileId) => i.val == x.1)) ++
        tiles.map (fun (i : TileId) => (i.val, q.id)) } }
    let s := s.modQueue q.id (fun q =>
      { q with lastStart := s.fw.startOrder, image := some key
               unit := some { entry := e, tiles := ls, startedAt := s.now, update := false, stopping := false } })
    let s := s.countF Reg.QMGR_UNITS_STARTED 0 0 1
    tiles.foldl (fun s i => doStart (journal s 1 (s.tile i).pstate.code) i) s

/-- May CP1 start units now: it runs, the firmware is RUNNING, no handover is due and no escalation (spec 11 R475,
R482, R484)? -/
def schedulerOn (s : State) : Bool :=
  cpUp s 1 && fwState s == 3 && s.fw.escalatedAt.isNone && s.power.startDue.isNone &&
    (match s.fw.handover with
      | none => true
      | some (d, h) => d != 0x7FFFF && (match s.domain? d with
        | some x => decide (x.nextStep < h)
        | none => true))

/-- What CP1 does before it prepares a unit (spec 12 R495, R496): its clusters ON and enabled, the banks of its image back
from RETENTION. Answers whether the unit may start now; if not, a later UNIT_START goes on. -/
def readyUnit (s : State) (q : Queue) : State × Bool :=
  let r := powerUnit s q.tiles
  if !r.2 then r
  else
    let ts := q.tiles.filterMap (mappedTile r.1)
    let s := ts.foldl (fun (s : State) (i : TileId) => s.setF (Hdr.ENABLE 1) i 0 1) r.1
    (imageSections (readImage s q.prog)).foldl (fun (x : State × Bool) sec =>
      match mappedTile x.1 (secTile sec) with
      | none => x
      | some i =>
        let y := wakeBanks x.1 i ((List.range 40).filter (bit (field sec 8 5)))
        (y.1, x.2 && y.2)) (s, true)

/-- CP1 picks the highest-priority ready queue, prepares its tiles and starts the unit (spec 11 R464 to R467). A queue
with no free completion entry becomes STALLED instead. -/
def unitStart (s : State) (t : Nat) : State :=
  let s := s.atTime t
  if !schedulerOn s then s
  else
    let s := s.queues.foldl (fun s q => if q.unit.isNone && !q.stopped && !q.stalled then takeEntries 65 s q.id else s) s
    match pickQueue s with
    | none => s
    | some q =>
      if q.cplFree = 0 then setStalled s q true
      else match q.entries with
        | [] => s
        | e :: _ =>
          let x := readyUnit s q
          if x.2 then startUnit x.1 q e 0 else x.1

end Sys2Proof.Machine
end

