-- ==== Sys2Proof/Machine/IntegrityOps.lean ====
section
/-! DEFINITION. Replica groups (spec 09 R371 to R395, R401): step reports, group tables, FAIL records, heartbeats,
ejections, joins, repairs, rollbacks, clones, the agreed copy. -/

namespace Sys2Proof.Machine

set_option Elab.async false

/-! Control messages of this model: what the first argument of `control` names. -/

abbrev msgReport : Nat := 1
abbrev msgTable : Nat := 2
abbrev msgTableAsk : Nat := 4
abbrev msgHeartbeat : Nat := 5
abbrev msgMemberStop : Nat := 6
abbrev msgMembership : Nat := 7
abbrev msgCloneAsk : Nat := 8
abbrev msgCloneDone : Nat := 9
abbrev msgTimeout : Nat := 10
abbrev msgLink : Nat := 11
abbrev msgFault : Nat := 12

/-! Members and the coordinator. -/

def Group.size (g : Group) : Nat := g.plan.members.length
def Group.memberAt (g : Group) (p : Nat) : Option Nat := (g.plan.members[p]?).join

/-- Positions that are held and whose peers have not failed; the own position is live. -/
def Group.live (g : Group) : List Nat :=
  (List.range g.size).filter (fun p => (g.memberAt p).isSome && (p == g.position || !g.failed.contains p))

/-- The coordinator: the lowest live position (spec 09 R373). -/
def Group.coord (g : Group) : Nat := g.live.headD g.position
def Group.isCoord (g : Group) : Bool := g.coord == g.position

def ownMember (s : State) : Nat := s.getF Reg.SEC_MEMBER 0 0

def State.group? (s : State) (id : Nat) : Option Group := (s.domain? id).bind (·.group)
def State.modGroup (s : State) (id : Nat) (f : Group → Group) : State := s.modDomain id (fun d => { d with group := d.group.map f })

/-- Send a control message to a position. -/
def sendPos (s : State) (g : Group) (p op : Nat) (d : List Byte) : State :=
  match g.memberAt p with
  | some m => s.control m op d
  | none => s

/-- Send to every live position but the own. -/
def sendAll (s : State) (g : Group) (op : Nat) (d : List Byte) : State :=
  (g.live.filter (· != g.position)).foldl (fun s p => sendPos s g p op d) s

/-! Channel registers (spec 10 Table 10.9, spec 08 R336). -/

/-- TX_PORT and RX_PORT of a channel on the two topologies. -/
def chanPorts (torus : Bool) (c : Nat) : Nat × Nat :=
  if !torus then (if c < 8 then (c / 2, 4 + c / 2) else (4 + (c - 8) / 2, (c - 8) / 2))
  else
    let r := c / 2 % 2
    if c < 8 then (if c % 2 = 0 then (r, 2 + r) else (4 + r, 6 + r))
    else (if c % 2 = 0 then (2 + r, r) else (6 + r, 4 + r))

/-- The plan as descriptor words, for ring positions. -/
def planWords (g : Group) : List Nat :=
  [16 * b2n g.plan.torus, 0, 2 ^ 32 * (g.size - 1) + 2 ^ 44 * g.position, g.plan.x - 1]

/-- The plan position at a ring position of a channel's ring that holds this device. -/
def planAt (g : Group) (c q : Nat) : Nat :=
  let ws := planWords g
  let n := ringSize ws c
  let k := if c < 8 then q else (n - q) % n
  if g.plan.torus then (if c % 2 = 0 then g.position / g.plan.x * g.plan.x + k else k * g.plan.x + g.position % g.plan.x) else k

/-- CP3 sets the channel registers to match the plan and epoch (spec 08 R336, spec 10 R428). Channels that are OPEN
keep theirs (spec 08 R370). -/
def configureChannels (s : State) (g : Group) : State :=
  let ws := planWords g
  let torus := g.plan.torus || s.torusFabric
  (List.range 16).foldl (fun s c =>
    if chF s Reg.CH_OPEN c = 1 then s
    else
      let n := ringSize ws c
      let p := ringPos ws c g.position
      let ports := chanPorts torus c
      let en := g.plan.torus || !s.torusFabric || c % 2 == 0
      let s := setChF (setChF s Reg.CH_EN c (b2n en)) Reg.CH_TX_PORT c ports.1
      let s := setChF (setChF s Reg.CH_RX_PORT c ports.2) Reg.CH_POSITION c p
      let s := setChF (setChF s Reg.CH_RING_M1 c (n - 1)) Reg.CH_EPOCH c g.epoch
      let s := setChF s Reg.CH_NEXT_MEMBER c ((g.memberAt (planAt g c ((p + 1) % n))).getD 0)
      setChF s Reg.CH_PREV_MEMBER c ((g.memberAt (planAt g c ((p + n - 1) % n))).getD 0)) s

/-- The layout epoch advances for a membership change (spec 09 R383): statistics gathered are discarded, and no roots
are due from a step reduced under the old epoch. -/
def advanceEpoch (s : State) (id : Nat) : State :=
  let s := (dropGathered s id).modDomain id (fun d => { d with
    rootsDue := [], run := d.run.map (fun r => { r with dueRoots := [] }), group := d.group.map (fun g => { g with epoch := (g.epoch + 1) % 65536 }) })
  match s.group? id with
  | some g => if cpUp s 3 then configureChannels s g else s
  | none => s

/-! Step reports (spec 09 R375, Table 9.3). -/

/-- KEY: bytes 0–39 and 48–55 of a commit record. -/
def keyOf (r : List Byte) : List Byte := r.take 40 ++ (r.drop 48).take 8

/-- Root digest of the frozen base region that the domain reads; 0 if none. -/
def baseDigest (s : State) (d : Domain) : Nat :=
  ((s.fw.bases.find? (fun b => b.1 == d.baseRegion)).map (fun b => b.2.2.2)).getD 0

/-- Is step `n` a compare step of the group? -/
def compares (g : Group) (n : Nat) : Bool := n % g.params.compareInterval == 0 || g.compareNext

/-- The report of the step last committed. -/
def stepReport (s : State) (d : Domain) (g : Group) : List Byte :=
  let n := d.lastStep.getD 0
  let cmp := compares g n
  let b := toLe 8 (0x9E51 + 2 ^ 16 + 2 ^ 20 * g.position + 2 ^ 32 * d.id) ++ toLe 8 n ++
    toLe 8 (g.epoch + 2 ^ 16 * b2n cmp + 2 ^ 32 * ((d.run.map (·.readyUs)).getD 0)) ++
    toLe 8 (s.getF Reg.MBX_RUNTIME_ID 0 0) ++ (if cmp then keyOf d.record else zeros 48) ++ toLe 8 (baseDigest s d) ++
    zeros 32 ++ toLe 4 0
  b ++ toLe 4 (crc32c b)

/-- A well-formed report: MAGIC, TYPE, CHECK and reserved fields. -/
def reportOk (b : List Byte) : Bool :=
  b.length == 128 && field b 0 2 == 0x9E51 && bits (field b 2 2) 3 0 == 1 && bits (field b 4 4) 31 19 == 0 &&
    bits (field b 16 4) 31 17 == 0 && field b 28 4 == 0 && field b 88 36 == 0 && field b 124 4 == crc32c (b.take 124)

def repPos (b : List Byte) : Nat := bits (field b 2 2) 15 4
def repDomain (b : List Byte) : Nat := bits (field b 4 4) 18 0
def repStep (b : List Byte) : Nat := field b 8 8
def repCompare (b : List Byte) : Bool := bit (field b 16 4) 16
def repReady (b : List Byte) : Nat := field b 20 4
def repRuntime (b : List Byte) : Nat := field b 24 4

/-! Group tables (spec 09 Tables 9.4 to 9.6). -/

structure TableHead where
  typ : Nat
  coordPos : Nat
  domain : Nat
  step : Nat
  epoch : Nat
  m : Nat
  compare : Bool
  split : Bool
  verdict : Nat
  median : Nat
  agreed : Nat
  deriving DecidableEq, Repr

structure TableEntry where
  key : Nat
  ready : Nat
  member : Nat
  late : Bool
  run : Nat
  odd : Bool
  deriving DecidableEq, Repr

def TableEntry.bytes (e : TableEntry) : List Byte :=
  toLe 8 e.key ++ toLe 8 (e.ready + 2 ^ 32 * e.member + 2 ^ 44 * b2n e.late + 2 ^ 45 * e.run + 2 ^ 53 * b2n e.odd)

def GroupAction.bytes (a : GroupAction) : List Byte :=
  toLe 8 (a.action + 16 * a.cause + 256 * a.position + 2 ^ 20 * a.member) ++ toLe 8 a.arg

def tableBytes (h : TableHead) (es : List TableEntry) (as_ : List GroupAction) : List Byte :=
  let hd := toLe 8 (0x9E51 + 2 ^ 16 * h.typ + 2 ^ 20 * h.coordPos + 2 ^ 32 * h.domain) ++ toLe 8 h.step ++
    toLe 8 (h.epoch + 2 ^ 16 * (h.m - 1) + 2 ^ 28 * b2n h.compare + 2 ^ 29 * b2n h.split + 2 ^ 30 * h.verdict + 2 ^ 32 * as_.length) ++
    toLe 8 h.median ++ toLe 8 h.agreed ++ zeros 16 ++ toLe 4 0
  let body := es.flatMap TableEntry.bytes ++ as_.flatMap GroupAction.bytes
  hd ++ toLe 4 (crc32c (hd ++ body)) ++ body

def headT (b : List Byte) : TableHead :=
  let w2 := field b 16 8
  { typ := bits (field b 2 2) 3 0, coordPos := bits (field b 2 2) 15 4, domain := bits (field b 4 4) 18 0, step := field b 8 8,
    epoch := bits w2 15 0, m := bits w2 27 16 + 1, compare := bit w2 28, split := bit w2 29, verdict := bits w2 31 30,
    median := field b 24 4, agreed := field b 32 8 }

def entriesT (b : List Byte) : List TableEntry :=
  (List.range (headT b).m).map (fun p =>
    let w := field b (72 + 16 * p) 8
    { key := field b (64 + 16 * p) 8, ready := bits w 31 0, member := bits w 43 32, late := bit w 44, run := bits w 52 45, odd := bit w 53 })

def actionsT (b : List Byte) : List GroupAction :=
  let at_ := 64 + 16 * (headT b).m
  (List.range (bits (field b 16 8) 47 32)).map (fun k =>
    let w := field b (at_ + 16 * k) 8
    { action := bits w 3 0, cause := bits w 7 4, position := bits w 19 8, member := bits w 31 20, arg := field b (at_ + 16 * k + 8) 8 })

/-- A table or FAIL record with a good CHECK and no reserved value (spec 09 R377). -/
def tableOk (b : List Byte) : Bool :=
  let h := headT b
  let n := bits (field b 16 8) 47 32
  let at_ := 64 + 16 * h.m
  b.length == at_ + 16 * n && field b 0 2 == 0x9E51 && (h.typ == 2 || h.typ == 3) && bits (field b 4 4) 31 19 == 0 &&
    field b 22 2 == 0 && field b 28 4 == 0 && field b 40 20 == 0 && field b 60 4 == crc32c (b.take 60 ++ b.drop 64) &&
    (h.verdict ≤ 2) && (List.range h.m).all (fun p => bits (field b (72 + 16 * p) 8) 63 54 == 0) &&
    (actionsT b).all (fun a => 1 ≤ a.action && a.action ≤ 5 && a.cause ≤ 8) &&
    (List.range n).all (fun k => field b (at_ + 16 * k + 4) 4 == 0)

/-! What an event of a group leaves in the log. -/

def groupLog (s : State) (id event cause step position member peer : Nat) : State :=
  integrity s event cause id step position member peer 0 0

/-- A group stops (spec 09 R380, R389, R393): state GROUP_STOPPED, reported to the host; the STEP entry at the front of
the domain's queue completes GROUP_STOPPED (spec 11 Table 11.14). -/
def stopGroup (s : State) (id : Nat) : State :=
  match s.domain? id with
  | none => s
  | some d => match d.group with
    | none => s
    | some g =>
      let s := s.modGroup id (fun g => { g with state := .stopped, stopDue := false })
      let s := groupLog s id 0x0B 0 (d.lastStep.getD 0) g.position (ownMember s) 0
      let s := evtGroup s id .stopped g.epoch
      match s.queue? d.queue with
      | some q => match q.entries with
        | e :: es =>
          if e.domain = id ∧ !q.isRun then complete (s.setQueue { q with entries := es, unit := none }) q.id e.id 5 true 0 (d.lastStep.getD 0) else s
        | [] => s
      | none => s

/-! Spares (spec 09 R392). -/

/-- What the fabric's exchange shows of the devices fit for a position of a domain (spec 09 R392): their grid maps (R52), their DRAM
(R291, R403) and the routes to its neighbours. Only other devices know it, so a command that meets the question names them. -/
def noteFit (s : State) (id : Nat) (fit : List Nat) : State :=
  { s with peers := s.peers.map (fun p => { p with fit := p.fit.filter (· != id) ++ (if fit.contains p.member then [id] else []) }) }

/-- The eligible spare with the lowest index that is not taken yet: listed, announced as SPARE, of the majority's RUNTIME_ID, and
fit. -/
def pickSpare (s : State) (id : Nat) (g : Group) (runtime : Nat) (taken : List Nat) : Option Nat :=
  (g.params.spares.filter (fun m => !taken.contains m && !g.plan.members.contains (some m) &&
    s.peers.any (fun p => p.member == m && p.state == .spare && p.runtime == runtime && p.fit.contains id))).foldl
      (fun b m => match b with
        | none => some m
        | some x => some (min x m)) none

/-- Ejections, each followed by the JOIN of the spare that is to take the position, where one is eligible. -/
def withSpares (s : State) (id : Nat) (g : Group) (runtime ref_ : Nat) (as_ : List GroupAction) : List GroupAction :=
  (as_.foldl (fun (x : List GroupAction × List Nat) a => match pickSpare s id g runtime x.2 with
    | some m => (x.1 ++ [a, { action := 2, cause := a.cause, position := a.position, member := m, arg := ref_ }], x.2 ++ [m])
    | none => (x.1 ++ [a], x.2)) ([], [])).1

/-! FAIL records (spec 09 R376, R380, R381). -/

/-- Zero every cullet element of a domain. Where no operation has named the cullets yet, as on a spare, the next GRAD zeroes those it
names (log entry 117). -/
def zeroCullets (s : State) (d : Domain) : State :=
  ({ s with dram := d.cullets.foldl (fun (m : Memory) (c : Nat × Nat) => Memory.clear m c.1 (c.1 + 2 * c.2)) s.dram }).modDomain d.id (fun d =>
    { d with zeroCul := d.cullets.isEmpty })

/-- Steps 3 and 4 of R381. -/
def dropStepState (s : State) (id : Nat) : State :=
  match s.domain? id with
  | none => s
  | some d => (dropGathered (zeroCullets s d) id).modDomain id (fun d => { d with rootsDue := [] })

/-- Abort what the domain runs of steps from `a` upward: tile programs, operations of the crucible, running or queued, and commits
not made (spec 09 R381, step 1). -/
def abortStep (s : State) (id a : Nat) : State :=
  match (s.domain? id).bind (·.run) with
  | none => dropOps (s.cru.length + 1) s id a
  | some r =>
    if r.step < a then s
    else
      let s := takeSides s id
      let s := match s.domain? id with
        | none => s
        | some d => match s.queue? d.queue with
          | none => s
          | some q => match q.unit with
            | some u => if u.entry.domain = id ∧ !q.isRun then (abortUnit s u).setQueue { q with unit := none } else s
            | none => s
      let s := dropOps (s.cru.length + 1) s id a
      let s := { s with commitQ := s.commitQ.filter (fun (q : CommitReq) => !(q.domain == id && q.kind == 0 && decide (a ≤ q.step))), commitWait := if committing s id then false else s.commitWait }
      s.modDomain id (fun d => { d with run := none })

/-- The actions of a table or FAIL record wait for the boundary before step `due`. A JOIN that is in force already, or noted, is not
noted again. The members that a FAIL record ejects have failed; one that a table ejects stays a member, with the heartbeats it has,
until that boundary (spec 09 R373, R377). -/
def noteActions (s : State) (id due : Nat) (fail : Bool) (as_ : List GroupAction) : State :=
  s.modGroup id (fun g => { g with
    actions := g.actions ++ (as_.filter (fun a => !(a.action == 2 && a.cause == 0 &&
      (g.memberAt a.position == some a.member || g.actions.any (·.2 == a))))).map (fun a => (due, a))
    failed := if fail then g.failed ++ (as_.filter (·.action == 1)).map (·.position) else g.failed })

/-- Ask a source for something of a clone (spec 09 R394): 0 its record, 1 digests, 2 leaves, 3 leaves of the base region, 4 digests of
the base region, 5 the end. DEDUCED: the layout is the model's (log entry 41). -/
def askSource (s : State) (id : Nat) (g : Group) (src kind level first n : Nat) : State :=
  sendPos s g src msgCloneAsk (toLe 4 id ++ toLe 1 kind ++ toLe 1 level ++ toLe 4 first ++ toLe 4 n)

/-- A clone or repair begins: the record is asked of up to three sources, the lowest first (spec 09 R394, step 1). -/
def startClone (s : State) (id : Nat) (repair : Bool) (srcs : List Nat) : State :=
  let s := s.modGroup id (fun g => { g with
    clone := some { repair := repair, sources := srcs, record := [], known := [], asked := [], wanted := [], bad := [],
                    baseDone := false, baseWanted := [], baseDigests := [], treeDone := false } })
  match s.group? id with
  | some g => (srcs.take 3).foldl (fun s p => askSource s id g p 0 0 0 0) s
  | none => s

/-- Does the device's grid map hold every column that the domain's programs use (spec 02 R52)? -/
def columnsFit (s : State) (d : Domain) : Bool := (d.tiles s).all (fun l => (s.mapped l).isSome)

/-- A JOIN with the cause of an ejection names the spare that is to take the position: that device clones (spec 09 R392, R394), unless
its grid map lacks a column of the group's programs (spec 02 R52). -/
def beginClone (s : State) (id : Nat) (a : GroupAction) : State :=
  match s.domain? id with
  | none => s
  | some d => match d.group with
    | none => s
    | some g =>
      if a.action ≠ 2 ∨ a.cause = 0 ∨ a.member ≠ ownMember s ∨ !columnsFit s d then s
      else startClone (s.modGroup id (fun g => { g with position := a.position })) id false (g.live.filter (· != a.position))

/-- The parameters of a group that the host has not configured here: the defaults of Table 9.2 (log entry 118). -/
def defaultParams (m : Nat) : GroupParams :=
  { compareInterval := 100, hbPeriod := 10, hbExpiry := 200, stragglerFactor := 48, stragglerSteps := 2, hopFloor := 50,
    spareWait := 10000, minMembers := m, agreedCopy := 0, pinLimit := 2000, spares := [] }

/-- A spare that serves no position learns of the group from the table or record that names it (spec 09 R376, R392): the plan as the
entries of a table show it, of a FAIL record only its size (log entry 118). -/
def adoptGroup (s : State) (b : List Byte) : State :=
  let h := headT b
  let named := (actionsT b).any (fun a => a.action == 2 && a.member == ownMember s)
  s.modDomain h.domain (fun d =>
    let ms := if h.typ = 2 then (entriesT b).map (fun e => some e.member) else List.replicate h.m none
    match d.group with
    | some g => if h.typ = 2 && g.plan.members.all (·.isNone) && g.state == .joined then
        { d with group := some { g with plan := { g.plan with members := ms, x := h.m } } } else d
    | none =>
      if !named then d
      else
        let g : Group :=
          { plan := { torus := false, x := h.m, members := ms }, nextPlan := none, position := 0, params := defaultParams h.m
            epoch := h.epoch, reports := [], beats := [], lateBeats := 0, lateRuns := [], table := [], tableStep := none
            agreedStep := none, median := 0, actions := [], extra := [], vacant := [], heldSince := none, compareNext := false
            stopDue := false, state := .joined, clone := none, failed := [], firstStep := 0 }
        { d with group := some g })

/-- Receipt of a FAIL record (spec 09 R381): the abandoned step is A; its actions are due at the boundary that ends
step A − 1. -/
def failReceived (s : State) (b : List Byte) : State :=
  let h := headT b
  let id := h.domain
  match s.domain? id with
  | none => s
  | some d =>
    let s := abortStep s id h.step
    let s := match journalBase s d with
      | some j =>
        if d.lastStep = some h.step then
          scanNow { s with dram := Memory.clear s.dram (j + 64 * (h.step % 16)) (j + 64 * (h.step % 16) + 64) } id
        else s
      | none => s
    let s := dropStepState s id
    let s := noteActions s id h.step true (actionsT b)
    (actionsT b).foldl (fun s a => beginClone s id a) s

/-- The step after one whose table is held; with none held, the group's first step. -/
def Group.after (g : Group) (t : Option Nat) : Nat := match t with
  | some n => n + 1
  | none => g.firstStep

/-- The abandoned step: one more than the highest step whose table the coordinator holds complete (spec 09 R381), in a pipeline one more
than the least such step of any stage (R402). -/
def abandoned (d : Domain) (g : Group) : Nat := (d.stages.map (fun x => g.after x.tableStep)).foldl min (g.after g.tableStep)

def emptyEntry : TableEntry := { key := 0, ready := 0, member := 0, late := false, run := 0, odd := false }

/-- A FAIL record of a group, formed by its coordinator. -/
def failRecord (id : Nat) (g : Group) (a : Nat) (acts : List GroupAction) : List Byte :=
  tableBytes
    { typ := 3, coordPos := g.position, domain := id, step := a, epoch := g.epoch, m := g.size, compare := false,
      split := false, verdict := 0, median := 0, agreed := g.agreedStep.getD 0xFFFFFFFFFFFFFFFF }
    (List.replicate g.size emptyEntry) acts

/-- Send a table or record to the coordinators of the other stages (spec 09 R402): a stage's lowest position. -/
def sendStages (s : State) (d : Domain) (b : List Byte) : State :=
  d.stages.foldl (fun s x => match x.members.head? with
    | some m => s.control m msgTable b
    | none => s) s

/-- The coordinator sends a FAIL record to its members, the spares named and the other stages, and acts on it itself. -/
def issueFail (s : State) (id : Nat) (acts : List GroupAction) : State :=
  match s.domain? id with
  | none => s
  | some d => match d.group with
    | none => s
    | some g =>
      let b := failRecord id g (abandoned d g) acts
      let s := sendAll s g msgTable b
      let s := (acts.filter (fun a => a.action == 2 && !g.plan.members.contains (some a.member))).foldl (fun s x => s.control x.member msgTable b) s
      failReceived (sendStages s d b) b

/-- The coordinator fails members with a cause (spec 09 R380). -/
def failMembers (s : State) (id : Nat) (ps : List Nat) (cause : Nat) : State :=
  match s.group? id with
  | none => s
  | some g =>
    let ps := ps.filter (fun p => (g.memberAt p).isSome && !(g.actions.any (fun a => a.2.action == 1 && a.2.position == p)))
    if !g.isCoord ∨ ps.isEmpty then s
    else
      let ref_ := (g.live.filter (fun p => !ps.contains p)).headD g.position
      issueFail s id (withSpares s id g (s.getF Reg.MBX_RUNTIME_ID 0 0) ref_
        (ps.map (fun p => { action := 1, cause := cause, position := p, member := (g.memberAt p).getD 0, arg := 0 })))

/-- A FAIL record of another stage reaches this stage's coordinator (spec 09 R402): its own members abandon the same step, and the
other stages hear of a lower one. -/
def stageFail (s : State) (id : Nat) (b : List Byte) : State :=
  match s.domain? id with
  | none => s
  | some d => match d.group with
    | none => s
    | some g =>
      let a := min (headT b).step (abandoned d g)
      let r := failRecord id g a []
      let s := if a < (headT b).step then sendStages s d r else s
      failReceived (sendAll s g msgTable r) r

/-! Receipt of a table (spec 09 R377, R387, R391). -/

/-- The class that more than half of the entries hold, if any. -/
def majorityKey (es : List TableEntry) : Option Nat :=
  (es.map (·.key)).find? (fun k => decide (2 * (es.filter (fun e => e.key == k)).length > es.length))

/-- Start the agreed copy of the step just agreed (spec 09 R391): the copy's header is invalid from now on. -/
def startAgreed (s : State) (id : Nat) : State :=
  requestPin (s.modDomain id (fun d => { d with agreed := none, copying := true })) id .agreedCopy

/-- A group table is on the device (spec 09 R377, R387, R391): its actions take effect at the boundary that ends step s + 1. A JOIN
that answers CLONE_DONE applies in the boundary at which the group is held (R393). A table that is held already, or older, brings only
such a JOIN. -/
def tableReceived (s : State) (b : List Byte) : State :=
  let h := headT b
  let id := h.domain
  match s.domain? id with
  | none => s
  | some d => match d.group with
    | none => s
    | some g =>
      let joins := (actionsT b).filter (fun a => a.action == 2 && a.cause == 0)
      let others := (actionsT b).filter (fun a => !(a.action == 2 && a.cause == 0))
      let late := g.tableStep.any (fun n => decide (h.step ≤ n))
      let s := noteActions s id (if g.vacant.isEmpty then h.step + 2 else 0) false joins
      if late then s
      else
        let es := entriesT b
        let own := (es.getD g.position emptyEntry).key
        let s := s.modGroup id (fun g => { g with
          table := b, tableStep := some h.step, median := h.median, reports := [], compareNext := false,
          lateRuns := es.zipIdx.map (fun e => (e.2, e.1.run))
          agreedStep := if h.agreed = 0xFFFFFFFFFFFFFFFF then none else some h.agreed
          stopDue := g.stopDue || h.split
          extra := if g.isCoord then [] else g.extra })
        let held := es.zipIdx.filter (fun e => (g.memberAt e.2).isSome)
        let major := ((held.find? (fun e => some e.1.key == majorityKey (held.map (·.1)))).map (·.2)).getD 0
        let s := noteActions s id (h.step + 2) false (others.map (fun a => if a.action = 3 then { a with arg := major } else a))
        let s := others.foldl (fun s a => beginClone s id a) s
        let s := if h.compare && own != (es.headD { emptyEntry with key := own }).key then
            integrity s 0x02 7 id h.step g.position (ownMember s) ((g.memberAt 0).getD 0) 0 4 else s
        if h.compare && h.verdict == 0 && g.params.agreedCopy == 1 then startAgreed s id else s

/-! Pipeline stages (spec 09 R402). -/

/-- Is a table or FAIL record that of another stage? A table names another device at this device's own position, and this device
nowhere; a record of its own group never comes to the coordinator that forms it. DESIGN CHOICE (log entry 92). -/
def ofOtherStage (s : State) (d : Domain) (b : List Byte) : Bool :=
  match d.group with
  | none => false
  | some g =>
    g.state == .member && decide (2 ≤ g.size) &&
      (if (headT b).typ = 2 then !(entriesT b).any (fun e => e.member == ownMember s) && !(actionsT b).any (fun a => a.member == ownMember s)
       else g.isCoord && !d.stages.isEmpty)

/-- The table of another stage: kept, relayed by the coordinator to its members; a ROLLBACK takes this stage too. -/
def stageTable (s : State) (b : List Byte) : State :=
  let h := headT b
  let ms := (entriesT b).map (·.member)
  match s.domain? h.domain with
  | none => s
  | some d =>
    let same (x : Stage) : Bool := (List.zipWith (· == ·) x.members ms).any id
    let old := d.stages.find? same
    let s := s.setDomain { d with stages := d.stages.filter (fun x => !same x) ++
      [{ members := ms, tableStep := some (max h.step ((old.bind (·.tableStep)).getD 0))
         agreed := if h.agreed = 0xFFFFFFFFFFFFFFFF then none else some h.agreed }] }
    let s := match d.group with
      | some g => if g.isCoord then sendAll s g msgTable b else s
      | none => s
    noteActions s h.domain (h.step + 2) false ((actionsT b).filter (·.action == 4))

/-- The highest step agreed in every stage: the latest step agreed, of the stage where that is least (spec 09 R402). -/
def agreedEverywhere (d : Domain) (own : Option Nat) : Option Nat :=
  d.stages.foldl (fun a x => match a, x.agreed with
    | some m, some n => some (min m n)
    | _, _ => none) own

/-- The member of another stage at this device's position: its neighbour in the pipeline chain (spec 09 R402). -/
def Stage.chain (x : Stage) (g : Group) : Option Nat := x.members[g.position]?

/-- A group table or FAIL record arrives (spec 09 R377): one that is bad is discarded and asked for again. -/
def tableArrives (s : State) (fail : Bool) (b : List Byte) (t : Nat) : State :=
  let s := s.atTime t
  if !cpUp s 3 then s
  else
    let id := bits (field b 4 4) 18 0
    if !tableOk b ∨ ((headT b).typ == 3) != fail then
      match s.group? id with
      | some g => sendPos s g g.coord msgTableAsk (toLe 4 id)
      | none => s
    else if (s.domain? id).any (fun d => ofOtherStage s d b) then
      if fail then stageFail s id b else stageTable s b
    else
      let s := adoptGroup s b
      if fail then failReceived s b else tableReceived s b

/-! Forming a table (spec 09 R376, R379, R387). -/

/-- The element at index ⌊(M − 1) ÷ 2⌋ of the sorted values. -/
def lowerMedian (xs : List Nat) : Nat := (xs.mergeSort (· ≤ ·)).getD ((xs.length - 1) / 2) 0

/-- The coordinator's table of step `n`, once it holds every report. -/
def formTable (s : State) (id : Nat) : State :=
  match (s.domain? id).bind (fun d => d.group.map (fun g => (d, g))) with
  | none => s
  | some (d, g) =>
    let held := (List.range g.size).filter (fun p => (g.memberAt p).isSome)
    if !g.isCoord ∨ g.reports.isEmpty ∨ held.any (fun p => !g.reports.any (·.1 == p)) then s
    else
      let rep (p : Nat) : List Byte := ((g.reports.find? (·.1 == p)).map (·.2)).getD (zeros 128)
      let n := repStep (rep g.position)
      let cmp := held.any (fun p => repCompare (rep p))
      let med := lowerMedian (held.map (fun p => repReady (rep p)))
      let f := g.params.stragglerFactor
      let late (p : Nat) : Bool := f != 0 && decide (16 * repReady (rep p) > f * med)
      let run (p : Nat) : Nat := if late p then min 255 (((g.lateRuns.find? (·.1 == p)).map (·.2)).getD 0 + 1) else 0
      let ids := held.map (fun p => repRuntime (rep p))
      let major := ids.find? (fun r => decide (2 * (ids.filter (· == r)).length > held.length))
      let odd (p : Nat) : Bool := match major with
        | some r => repRuntime (rep p) != r
        | none => false
      let key (p : Nat) : Nat := if cmp then crc64 ((rep p).drop 32 |>.take 56) else 0
      let es := (List.range g.size).map (fun p =>
        if held.contains p then
          ({ key := key p, ready := repReady (rep p), member := (g.memberAt p).getD 0, late := late p, run := run p, odd := odd p } : TableEntry)
        else emptyEntry)
      let hes := held.map (fun p => es.getD p emptyEntry)
      let maj := majorityKey hes
      let same := hes.all (fun e => e.key == (hes.headD e).key)
      let verdict := if !cmp then 0 else if same then 0 else if maj.isSome then 1 else 2
      let agreed := if cmp && same then some n else g.agreedStep
      let split := major.isNone
      let eject (c p : Nat) : GroupAction := { action := 1, cause := c, position := p, member := (g.memberAt p).getD 0, arg := 0 }
      let out := held.filter (fun p => verdict == 1 && some (key p) != maj)
      let ref_ := (held.filter (fun p => !out.contains p)).headD g.position
      let slow := held.filter (fun p => decide (run p ≥ g.params.stragglerSteps) && late p)
      let acts := if split then [] else
        withSpares s id g (major.getD 0) ref_ (slow.map (eject 5) ++ ((held.filter odd).filter (fun p => !slow.contains p)).map (eject 6)) ++
        out.flatMap (fun p => [eject 7 p, { eject 7 p with action := 3 }]) ++
        (if verdict == 2 then
          [{ action := 4, cause := 7, position := 0, member := 0, arg := (agreedEverywhere d agreed).getD 0xFFFFFFFFFFFFFFFF }] else [])
      let acts := acts ++ g.extra
      let b := tableBytes
        { typ := 2, coordPos := g.position, domain := id, step := n, epoch := g.epoch, m := g.size, compare := cmp, split := split,
          verdict := verdict, median := med, agreed := agreed.getD 0xFFFFFFFFFFFFFFFF } es acts
      let s := sendAll s g msgTable b
      let s := (acts.filter (fun a => a.action == 2 && !g.plan.members.contains (some a.member))).foldl (fun s x => s.control x.member msgTable b) s
      tableReceived (sendStages s d b) b

/-- A step report reaches the coordinator (spec 09 R375, R376); a malformed one is refused (spec 00 R18). -/
def reportArrives (s : State) (b : List Byte) (fit : List Nat) (t : Nat) : State :=
  let s := s.atTime t
  if !cpUp s 3 ∨ !reportOk b then s
  else
    let id := repDomain b
    formTable ((noteFit s id fit).modGroup id (fun g =>
      { g with reports := g.reports.filter (fun r => r.1 != repPos b && repStep r.2 == repStep b) ++ [(repPos b, b)] })) id

/-- After its commit of a step, a member sends its report to the coordinator (spec 09 R375). -/
def sendReport (s : State) (id : Nat) : State :=
  match s.domain? id with
  | none => s
  | some d => match d.group with
    | none => s
    | some g =>
      if g.size < 2 ∨ g.state ≠ .member then s
      else
        let b := stepReport s d g
        if g.isCoord then
          (if !cpUp s 3 then s
           else formTable (s.modGroup id (fun g =>
             { g with reports := g.reports.filter (fun r => r.1 != repPos b && repStep r.2 == repStep b) ++ [(repPos b, b)] })) id)
        else sendPos s g g.coord msgReport b

/-- A request for a table again (spec 09 R377): the last one held is sent again. -/
def tableAsked (s : State) (id position t : Nat) : State :=
  let s := s.atTime t
  match s.group? id with
  | some g => if !cpUp s 3 ∨ g.table.isEmpty then s else sendPos s g position msgTable g.table
  | none => s

/-! Heartbeats (spec 09 R378). -/

def heartbeatSend (s : State) (id t : Nat) : State :=
  let s := s.atTime t
  match s.group? id with
  | some g =>
    if !cpUp s 3 ∨ g.size < 2 ∨ g.state ≠ .member then s
    else if g.isCoord then sendAll s g msgHeartbeat (toLe 4 id) else sendPos s g g.coord msgHeartbeat (toLe 4 id)
  | none => s

/-- A heartbeat arrives at device time `t`; one after the expiry, or from a peer already failed, is discarded and counted. -/
def heartbeat (s : State) (id position t : Nat) : State :=
  (s.atTime t).modGroup id (fun g =>
    if g.failed.contains position ∨ g.beats.any (fun (b : Nat × Nat) => b.1 == position && decide (b.2 + 1000000 * g.params.hbExpiry < t)) then
      { g with lateBeats := g.lateBeats + 1 }
    else { g with beats := g.beats.filter (fun (b : Nat × Nat) => b.1 != position) ++ [(position, t)] })

/-- A peer's heartbeat expiry passes; the handler re-checks for a heartbeat in time. The coordinator fails the peer; a
member that finds the coordinator silent takes the next one. -/
def heartbeatExpiry (s : State) (id position t : Nat) (fit : List Nat) : State :=
  match s.group? id with
  | none => s
  | some g =>
    match g.beats.find? (·.1 == position) with
    | none => s
    | some (_, at_) =>
      if !cpUp s 3 ∨ t < at_ + 1000000 * g.params.hbExpiry ∨ g.failed.contains position ∨ position = g.position then s
      else
        let s := (s.atTime t).modGroup id (fun g => { g with failed := g.failed ++ [position] })
        failMembers (noteFit s id fit) id [position] 1

/-- The coordinator receives a member's report that its domain stops (spec 09 Table 9.8). -/
def memberStop (s : State) (id position t : Nat) (fit : List Nat) : State :=
  if !cpUp s 3 then s else failMembers (noteFit (s.atTime t) id fit) id [position] 8

/-- A ring port to a peer went down: the higher-positioned end of the link is ejected (spec 09 Table 9.8). -/
def linkFailure (s : State) (id p q t : Nat) (fit : List Nat) : State :=
  if !cpUp s 3 then s else failMembers (noteFit (s.atTime t) id fit) id [max p q] 2

/-- This device's domain stops: it tells the coordinator, or fails itself as coordinator (spec 09 R380). -/
def reportStop (s : State) (id : Nat) : State :=
  match s.group? id with
  | none => s
  | some g =>
    if g.size < 2 then s
    else if g.isCoord then failMembers s id [g.position] 8 else sendPos s g g.coord msgMemberStop (toLe 4 id)

/-! Clones (spec 09 R388, R394). -/

/-- Address of byte `off` of a section. -/
def sectionAddr : List (Nat × Nat) → Nat → Option Nat
  | [], _ => none
  | (a, n) :: rs, off => if off < n then some (a + off) else sectionAddr rs (off - n)

/-- The ranges and the first byte of leaf `k` of the leaf sequence. -/
def leafPlace : List (List (Nat × Nat)) → Nat → Option (Nat × List (Nat × Nat) × Nat)
  | [], _ => none
  | sec :: secs, k =>
    let n := ceilDiv (sec.foldl (fun n r => n + r.2) 0) 65536
    if k < n then some (0, sec, 65536 * k) else (leafPlace secs (k - n)).map (fun x => (x.1 + 1, x.2))

/-- Write a leaf to its place. -/
def writeLeaf (m : Memory) (secs : List (List (Nat × Nat))) (k : Nat) (d : List Byte) : Memory :=
  match leafPlace secs k with
  | none => m
  | some (_, rs, off) => d.zipIdx.foldl (fun m x => match sectionAddr rs (off + x.2) with
      | some a => Memory.write m a x.1
      | none => m) m

/-- A leaf as it stands. -/
def readLeaf (m : Memory) (secs : List (List (Nat × Nat))) (k : Nat) : List Byte :=
  match leafPlace secs k with
  | none => []
  | some (_, rs, off) => (List.range 65536).map (fun i => match sectionAddr rs (off + i) with
      | some a => Memory.read m a
      | none => 0#8)

/-- The slot area that a record names. -/
def cloneSecs (s : State) (d : Domain) (r : List Byte) : List (List (Nat × Nat)) := leafSections s d (recSlot r)

/-- The section of the frozen base region that the domain reads. -/
def baseSecs (s : State) (d : Domain) : List (List (Nat × Nat)) :=
  match s.fw.bases.find? (fun b => b.1 == d.baseRegion) with
  | some b => [[(b.2.1, b.2.2.1)]]
  | none => [[]]

/-- The floating-point areas of the slot area that a record names. -/
def cloneFp (s : State) (d : Domain) (r : List Byte) : List (Nat × Nat × Nat) := fpRanges s d (recSlot r)

/-- Section, and index within it, of leaf `k`; its address ranges are left out. -/
def leafName (secs : List (List (Nat × Nat))) (k : Nat) : Nat × Nat := match leafPlace secs k with
  | some (sec, _, off) => (sec, off / 65536)
  | none => (0, k)

/-- Change the clone job of a group. -/
def State.modClone (s : State) (id : Nat) (f : CloneJob → CloneJob) : State :=
  s.modGroup id (fun g => { g with clone := g.clone.map f })

/-- The coordinator sends the JOIN of a device whose clone is complete (spec 09 R394, step 8): at once where the group is held, as a
table of the last step with the JOIN added, else in the next table. The next step is a compare step. -/
def joinAnswer (s : State) (id position member : Nat) : State :=
  match s.group? id with
  | none => s
  | some g =>
    if !cpUp s 3 ∨ !g.isCoord then s
    else
      let a : GroupAction := { action := 2, cause := 0, position := position, member := member, arg := g.live.headD 0 }
      let s := s.modGroup id (fun g => { g with compareNext := true })
      if g.vacant.isEmpty then s.modGroup id (fun g => { g with extra := g.extra ++ [a] })
      else match g.tableStep with
        | none => issueFail s id [a]
        | some n =>
          let b := tableBytes
            { typ := 2, coordPos := g.position, domain := id, step := n, epoch := g.epoch, m := g.size, compare := false,
              split := false, verdict := 0, median := g.median, agreed := g.agreedStep.getD 0xFFFFFFFFFFFFFFFF }
            ((List.range g.size).map (fun p => { (entriesT g.table).getD p emptyEntry with key := 0, member := (g.memberAt p).getD 0 })) [a]
          tableReceived ((sendAll s g msgTable b).control member msgTable b) b

/-- The clone is complete: the record is written, a SCAN issued, a spare's cullets zeroed, CLONE_DONE sent (spec 09 R394, steps 6 to
8). A repair whose root digest still differs from the reference's begins again (R388). -/
def finishClone (s : State) (id : Nat) : State :=
  match s.domain? id with
  | none => s
  | some d => match d.group with
    | none => s
    | some g => match g.clone with
      | none => s
      | some c =>
        if !c.treeDone ∨ !c.asked.isEmpty ∨ !c.wanted.isEmpty ∨ !c.baseDone ∨ !c.baseWanted.isEmpty then s
        else
          let slot := recSlot c.record
          let leaves := domainLeaves s d slot
          if c.repair ∧ rootDigest leaves ≠ recDigest c.record then startClone s id true c.sources
          else
            let n := recStep c.record
            let s := s.modDomain id (fun d => d.setLeaves slot leaves)
            let s := match journalBase s d with
              | some j => scanNow { s with dram := Memory.writeL s.dram (j + 64 * (n % 16)) c.record } id
              | none => s
            let s := if c.repair then groupLog s id 0x04 7 n g.position (ownMember s) ((g.memberAt (c.sources.headD 0)).getD 0) else zeroCullets s d
            let s := s.modGroup id (fun g => { g with clone := none })
            let s := c.sources.foldl (fun s p => askSource s id g p 5 0 0 0) s
            if g.isCoord then joinAnswer s id g.position (ownMember s)
            else sendPos s g g.coord msgCloneDone (toLe 4 id ++ toLe 4 g.position)

/-- A supplied leaf that differs from the tree (spec 09 R394, step 4): logged, and fetched from the next source; a source that
supplied two is used no more. -/
def badLeaf (s : State) (id : Nat) (g : Group) (c : CloneJob) (src k leaf sec kind : Nat) : State :=
  let n := ((c.bad.find? (·.1 == src)).map (·.2)).getD 0 + 1
  let s := integrity s 0x08 0 id (recStep c.record) g.position (ownMember s) ((g.memberAt src).getD 0) leaf sec
  let s := if n = 2 then integrity s 0x09 0 id (recStep c.record) g.position (ownMember s) ((g.memberAt src).getD 0) 0 0 else s
  let rest := c.sources.filter (· != src)
  let next := (rest.find? (fun p => decide (src < p))).getD (rest.headD src)
  let s := s.modClone id (fun c =>
    { c with bad := c.bad.filter (fun (b : Nat × Nat) => b.1 != src) ++ [(src, n)]
             sources := if n ≥ 2 then rest else c.sources })
  askSource s id g next kind 0 k 1

/-- Log differing leaves: at most 256, then one LEAVES_TRUNCATED (spec 09 R390). -/
def logLeafDiffs (s : State) (id : Nat) (g : Group) (c : CloneJob) (secs : List (List (Nat × Nat))) (ks : List Nat) : State :=
  let step := recStep c.record
  let peer := (g.memberAt (c.sources.headD 0)).getD 0
  let s := (ks.take 256).foldl (fun s k =>
    integrity s 0x01 7 id step g.position (ownMember s) peer (leafName secs k).2 (leafName secs k).1) s
  if ks.length > 256 then integrity s 0x03 7 id step g.position (ownMember s) peer (ks.length - 256) 0 else s

/-- The clone fails: the spare is not joined (spec 09 R394). -/
def failClone (s : State) (id : Nat) : State := s.modGroup id (fun g => { g with clone := none })

/-- Levels of a tree over `n` leaves above level 0: at least one (spec 09 R385). -/
def treeDepth : Nat → Nat → Nat
  | 0, _ => 1
  | fuel + 1, n => if n ≤ 64 then 1 else treeDepth fuel (ceilDiv n 64) + 1

/-- A level of the digest tree. -/
def treeLevel : Nat → List Nat → List Nat
  | 0, l => l
  | n + 1, l => treeLevel n (digestLevel l.length l)

/-- Commit records arrive by source position, from up to three sources: the majority's is the reference. A spare then asks for the whole
tree, a device under REPAIR for the children of the root, where the roots differ; both for the digests of the base region that the
domain reads (spec 09 R388, R394). -/
def cloneRecords (s : State) (id : Nat) (d : Domain) (g : Group) (c : CloneJob) (rs : List (Nat × List Byte)) : State :=
  let rs := (rs.filter (fun r => (c.sources.take 3).contains r.1)).take 3
  let keys := rs.map (fun r => keyOf r.2)
  match rs.find? (fun r => decide (2 * (keys.filter (· == keyOf r.2)).length > rs.length)) with
  | none => failClone s id
  | some r =>
    if recDigest r.2 = 0 then failClone s id
    else
      let src := c.sources.headD 0
      let own := domainLeaves s d (recSlot r.2)
      let top := treeDepth 8 own.length
      let same := rootDigest own == recDigest r.2
      let base := s.fw.bases.any (fun b => b.1 == d.baseRegion)
      let s := s.modClone id (fun c => { c with
        record := r.2
        known := [(top, 0, recDigest r.2)]
        asked := if c.repair && !same then [(top - 1, 0)] else []
        treeDone := c.repair
        baseDone := !base })
      let s := if base then askSource s id g src 4 0 0 0xFFFFFFFF else s
      if !c.repair then askSource s id g src 1 0 0 0xFFFFFFFF
      else if !same then askSource s id g src 1 (top - 1) 0 64
      else finishClone s id

/-- Ask for leaves in runs of 1,024: run k of source k mod S (spec 09 R394, step 3). -/
def askRuns (s : State) (id : Nat) (g : Group) (c : CloneJob) (kind n : Nat) : State :=
  (List.range (ceilDiv n 1024)).foldl (fun s k =>
    askSource s id g (c.sources.getD (k % c.sources.length) 0) kind 0 (1024 * k) (min 1024 (n - 1024 * k))) s

/-- The leaf digests of the reference arrive: they must build to the record's ROOT_DIGEST; then the leaves are pulled. -/
def cloneTree (s : State) (id : Nat) (g : Group) (c : CloneJob) (src : Nat) (ls : List Nat) : State :=
  if c.record.isEmpty ∨ c.repair ∨ c.treeDone ∨ !c.sources.contains src then s
  else if rootDigest ls ≠ recDigest c.record then failClone s id
  else
    let s := s.modClone id (fun c => { c with
      known := ls.zipIdx.map (fun x => (0, x.2, x.1)), treeDone := true, wanted := List.range ls.length })
    finishClone (askRuns s id g c 2 ls.length) id

/-- The children of a differing node arrive at a device under REPAIR (spec 09 R388, step 1): it goes on with those that differ, down
to the leaves, and asks for these. Digests that do not build to their parent's are asked for again. -/
def cloneNodes (s : State) (id : Nat) (d : Domain) (g : Group) (c : CloneJob) (src level first : Nat) (ds : List Nat) : State :=
  if !c.repair ∨ !c.asked.contains (level, first) ∨ !c.sources.contains src then s
  else if !c.known.any (fun x => x.1 == level + 1 && x.2.1 == first / 64 && x.2.2 == crc64 (ds.flatMap (toLe 8))) then
    askSource s id g src 1 level first 64
  else
    let own := treeLevel level (domainLeaves s d (recSlot c.record))
    let diff := ((List.range ds.length).filter (fun i => ds.getD i 0 != own.getD (first + i) 0)).map (· + first)
    let s := s.modClone id (fun c => { c with
      known := c.known ++ diff.map (fun k => (level, k, ds.getD (k - first) 0))
      asked := c.asked.filter (· != (level, first)) ++ (if level = 0 then [] else diff.map (fun k => (level - 1, 64 * k)))
      wanted := if level = 0 then c.wanted ++ diff else c.wanted })
    let s := diff.foldl (fun s k => if level = 0 then askSource s id g src 2 0 k 1 else askSource s id g src 1 (level - 1) (64 * k) 64) s
    match (s.group? id).bind (·.clone) with
    | some c => if c.asked.isEmpty then finishClone (logLeafDiffs s id g c (cloneSecs s d c.record) c.wanted) id else s
    | none => s

/-- The digest that the reference tree gives for a leaf. -/
def CloneJob.digest (c : CloneJob) (k : Nat) : Nat := ((c.known.find? (fun x => x.1 == 0 && x.2.1 == k)).map (·.2.2)).getD 0

/-- One leaf arrives from a source in use: it goes through the digest path, which writes it with +0 for −0, and is compared with the
tree (spec 09 R394, step 4; spec 04 R185). -/
def cloneLeaf (s : State) (id : Nat) (d : Domain) (g : Group) (c : CloneJob) (src k : Nat) (dat : List Byte) : State :=
  if !c.wanted.contains k ∨ dat.length > 65536 ∨ !c.sources.contains src then s
  else
    let secs := cloneSecs s d c.record
    let leaf := readLeaf (normFp (writeLeaf s.dram secs k dat) (cloneFp s d c.record)) secs k
    let s := { s with dram := writeLeaf s.dram secs k leaf }
    if crc64 leaf ≠ c.digest k then badLeaf s id g c src k (leafName secs k).2 (leafName secs k).1 2
    else finishClone (s.modClone id (fun c => { c with wanted := c.wanted.filter (· != k) })) id

/-- The digest tree of a frozen base region, formed anew over its bytes. -/
def setBaseTree (s : State) (region : Nat) (leaves : List Nat) : State :=
  { s with fw := { s.fw with
      bases := s.fw.bases.map (fun b => if b.1 = region then (b.1, b.2.1, b.2.2.1, rootDigest leaves) else b)
      baseTrees := s.fw.baseTrees.filter (fun (b : Nat × List Nat) => b.1 != region) ++ [(region, leaves)] } }

/-- One leaf of the frozen base region arrives. -/
def cloneBaseLeaf (s : State) (id : Nat) (d : Domain) (g : Group) (c : CloneJob) (src k : Nat) (dat : List Byte) : State :=
  if !c.baseWanted.contains k ∨ dat.length > 65536 ∨ !c.sources.contains src then s
  else
    let s := { s with dram := writeLeaf s.dram (baseSecs s d) k dat }
    if crc64 (readLeaf s.dram (baseSecs s d) k) ≠ c.baseDigests.getD k 0 then badLeaf s id g c src k k 3 3
    else
      let s := s.modClone id (fun c => { c with baseWanted := c.baseWanted.filter (· != k) })
      finishClone (setBaseTree s d.baseRegion (leafDigests s.dram (baseSecs s d))) id

/-- The leaf digests of the frozen base region arrive; its leaves are pulled where the BASE_DIGEST differs (spec 09 R382, R394,
step 5). -/
def cloneBaseTree (s : State) (id : Nat) (d : Domain) (g : Group) (c : CloneJob) (src : Nat) (ls : List Nat) : State :=
  if c.baseDone ∨ !c.sources.contains src then s
  else
    let own := leafDigests s.dram (baseSecs s d)
    let diff := if rootDigest ls = baseDigest s d then [] else (List.range ls.length).filter (fun k => ls.getD k 0 != own.getD k 0)
    let s := s.modClone id (fun c => { c with baseDone := true, baseDigests := ls, baseWanted := diff })
    let s := diff.foldl (fun s k => askSource s id g (c.sources.getD (k / 1024 % c.sources.length) 0) 3 0 k 1) s
    finishClone s id

/-- Something arrives at a cloning device (spec 09 R394). -/
def cloneArrives (s : State) (id : Nat) (x : CloneUnit) (t : Nat) : State :=
  let s := s.atTime t
  match s.domain? id with
  | none => s
  | some d => match d.group with
    | none => s
    | some g => match g.clone with
      | none => s
      | some c => match x with
        | .records rs => cloneRecords s id d g c rs
        | .tree src ls => cloneTree s id g c src ls
        | .nodes src level first ds => cloneNodes s id d g c src level first ds
        | .leaf src k dat => cloneLeaf s id d g c src k dat
        | .baseTree src ls => cloneBaseTree s id d g c src ls
        | .baseLeaf src k dat => cloneBaseLeaf s id d g c src k dat

/-- A source serves a clone or repair under a read pin (spec 09 R394): one request. A leaf with an uncorrectable line is
not sent (spec 10 Table 10.10). -/
def cloneAsked (s : State) (id member : Nat) (a : CloneAsk) (t : Nat) : State :=
  let s := s.atTime t
  match s.domain? id with
  | none => s
  | some d =>
    let h := PinHolder.cloneSource member
    if a = .done then releasePin s id h
    else if !d.pins.contains h then (if d.pinWait.contains h then s else requestPin s id h)
    else
      let secs := leafSections s d d.committed
      match a with
      | .record => if d.lastStep.isSome then s.send (.bulk member 0 d.record) else s
      | .digests l f n => s.send (.bulk member 1 ((((treeLevel l (d.leaves d.committed)).drop f).take n).flatMap (toLe 8)))
      | .leaves f n => (List.range n).foldl (fun s k =>
          match leafPlace secs (f + k) with
          | none => s
          | some (_, rs, off) =>
            let lines := (List.range 1024).filterMap (fun i => sectionAddr rs (off + 64 * i))
            match lines.find? (fun x => s.dramUe.contains (x - x % 64)) with
            | some x => dramUncorrectable s (x - x % 64)
            | none => s.send (.bulk member 2 (readLeaf (normFp s.dram (fpRanges s d d.committed)) secs (f + k)))) s
      | .base f n => (List.range n).foldl (fun s k => s.send (.bulk member 3 (readLeaf s.dram (baseSecs s d) (f + k)))) s
      | .baseDigests l f n =>
        let ls := ((s.fw.baseTrees.find? (fun b => b.1 == d.baseRegion)).map (·.2)).getD []
        s.send (.bulk member 4 (((treeLevel l ls).drop f |>.take n).flatMap (toLe 8)))
      | .done => s

/-- The coordinator receives CLONE_DONE (spec 09 R394, step 8). -/
def cloneDone (s : State) (id position member t : Nat) : State := joinAnswer (s.atTime t) id position member

/-! The agreed copy (spec 09 R391). -/

/-- The header of an agreed copy: STEP, ROOT_DIGEST and a CRC-32C. DESIGN CHOICE: at bytes 0, 8 and 60 (log entry 119). -/
def agreedHeader (r : List Byte) : List Byte :=
  let b := toLe 8 (recStep r) ++ toLe 8 (recDigest r) ++ zeros 44
  b ++ toLe 4 (crc32c b)

/-- A copy may be used for step `n`: its header is good and names the step and the digest of its record (spec 09 R391). -/
def AgreedCopy.valid (c : AgreedCopy) (n : Nat) : Bool :=
  c.header.length == 64 && field c.header 60 4 == crc32c (c.header.take 60) && field c.header 0 8 == n &&
    recStep c.record == n && field c.header 8 8 == recDigest c.record

def agreedCopyDone (s : State) (id t : Nat) : State :=
  let s := s.atTime t
  match s.domain? id with
  | none => s
  | some d =>
    if !d.copying ∨ !d.pins.contains .agreedCopy then s
    else
      let parts := (leafSections s d d.committed).flatMap (fun sec => sec.map (fun r => (r.1, Memory.readN s.dram r.1 r.2)))
      releasePin (s.modDomain id (fun d => { d with
        copying := false
        agreed := some { header := agreedHeader d.record, record := d.record, leaves := d.leaves d.committed, parts := parts } })) id .agreedCopy

/-- A ROLLBACK to step `n` (spec 09 R389). The copy must be valid on every member: `others` says that it is on the others, as the
fabric's exchange shows. -/
def rollback (s : State) (id n : Nat) (others : Bool) : State :=
  match s.domain? id with
  | none => s
  | some d => match d.agreed, journalBase s d with
    | some c, some j =>
      if !others ∨ !c.valid n then stopGroup s id
      else
        let m := c.parts.foldl (fun m p => Memory.writeL m p.1 p.2) s.dram
        let m := (List.range 16).foldl (fun m k =>
          let r := Memory.readN m (j + 64 * k) 64
          if k ≠ n % 16 ∧ recStep r > n then Memory.clear m (j + 64 * k) (j + 64 * k + 64) else m) m
        let s := { s with dram := Memory.writeL m (j + 64 * (n % 16)) c.record }
        let s := s.modDomain id (fun d => d.setLeaves (recSlot c.record) c.leaves)
        let s := dropStepState (scanNow s id) id
        let s := s.modGroup id (fun g => { g with tableStep := some n, reports := [] })
        groupLog s id 0x05 7 n ((d.group.map (·.position)).getD 0) (ownMember s) 0
    | _, _ => stopGroup s id

/-! Actions at a boundary (spec 01 Table 1.2, orders 2 and 3). -/

def ejectAt (s : State) (id : Nat) (a : GroupAction) (repair : Bool) : State :=
  match s.domain? id with
  | none => s
  | some d => match d.group with
    | none => s
    | some g =>
      let own := a.position = g.position
      let s := groupLog s id 0x06 a.cause (d.lastStep.getD 0) a.position a.member 0
      let s := s.modGroup id (fun g => { g with
        plan := { g.plan with members := g.plan.members.set a.position none }
        vacant := g.vacant ++ [a.position], heldSince := some s.now
        state := if own && !repair then .ejected else g.state })
      let s := advanceEpoch s id
      if own && !repair then evtGroup s id .ejected g.epoch else s

def joinAt (s : State) (id : Nat) (a : GroupAction) : State :=
  match s.group? id with
  | none => s
  | some g =>
    let s := s.modGroup id (fun g => { g with
      plan := { g.plan with members := if a.position < g.plan.members.length then g.plan.members.set a.position (some a.member)
                                        else g.plan.members ++ [some a.member] }
      vacant := g.vacant.filter (· != a.position), failed := g.failed.filter (· != a.position)
      beats := g.beats.filter (fun (b : Nat × Nat) => b.1 != a.position) ++ [(a.position, s.now)]
      lateRuns := g.lateRuns.filter (fun (b : Nat × Nat) => b.1 != a.position)
      firstStep := if a.member = ownMember s then ((s.domain? id).map (·.nextStep)).getD 0 else g.firstStep
      state := if a.member = ownMember s then .member else g.state, compareNext := true })
    let s := s.modGroup id (fun g => { g with heldSince := if g.vacant.isEmpty then none else g.heldSince })
    let s := groupLog s id 0x07 a.cause (((s.domain? id).bind (·.lastStep)).getD 0) a.position a.member ((g.memberAt a.arg).getD 0)
    let s := advanceEpoch s id
    if a.member = ownMember s then evtGroup s id .joined ((g.epoch + 1) % 65536) else s

/-- SHRINK (spec 09 R393): the vacancy is closed up. -/
def shrinkAt (s : State) (id : Nat) (a : GroupAction) : State :=
  let s := s.modGroup id (fun g => { g with
    plan := { g.plan with members := g.plan.members.eraseIdx a.position }
    position := if a.position < g.position then g.position - 1 else g.position
    vacant := (g.vacant.filter (· != a.position)).map (fun p => if a.position < p then p - 1 else p)
    failed := (g.failed.filter (· != a.position)).map (fun p => if a.position < p then p - 1 else p)
    beats := (g.beats.filter (fun (b : Nat × Nat) => b.1 != a.position)).map (fun b => if a.position < b.1 then (b.1 - 1, b.2) else b)
    lateRuns := (g.lateRuns.filter (fun (b : Nat × Nat) => b.1 != a.position)).map (fun b => if a.position < b.1 then (b.1 - 1, b.2) else b) })
  let s := s.modGroup id (fun g => { g with heldSince := if g.vacant.isEmpty then none else g.heldSince })
  advanceEpoch (groupLog s id 0x0A 0 (((s.domain? id).bind (·.lastStep)).getD 0) a.position a.member 0) id

/-- A REPAIR of this device begins (spec 09 R388): its reference is the lowest position of the majority class of the table that named
it, which `tableReceived` noted with the action. -/
def repairAt (s : State) (id : Nat) (a : GroupAction) : State :=
  match s.group? id with
  | none => s
  | some g => if a.position ≠ g.position then s else startClone s id true [a.arg]

/-- Orders 2 and 3 of Table 1.2: what tables and FAIL records made due at the boundary before step `next` (spec 09 R377). -/
def boundaryActions (s : State) (id next : Nat) (others : Bool) : State :=
  match s.group? id with
  | none => s
  | some g =>
    let due := (g.actions.filter (fun a => decide (a.1 ≤ next))).map (·.2)
    let s := s.modGroup id (fun g => { g with actions := g.actions.filter (fun a => decide (next < a.1)) })
    let s := if g.stopDue then stopGroup s id else s
    let repaired := (due.filter (·.action == 3)).map (·.position)
    let s := (due.filter (·.action == 1)).foldl (fun s a => ejectAt s id a (repaired.contains a.position)) s
    let s := (due.filter (·.action == 5)).foldl (fun s a => shrinkAt s id a) s
    let s := (due.filter (·.action == 4)).foldl (fun s a => rollback s id a.arg others) s
    let s := (due.filter (·.action == 3)).foldl (fun s a => repairAt s id a) s
    (due.filter (fun a => a.action == 2 && (match s.group? id with
      | some g => g.clone.isNone || a.member != ownMember s
      | none => false) && (a.cause == 0))).foldl (fun s a => joinAt s id a) s

/-- SPARE_WAIT expires for a held group; after a re-check the coordinator shrinks it, or, where it would fall below MIN_MEMBERS, it
stops (spec 09 R393): each member times the hold itself and stops by itself (log entry 120). -/
def spareWaitExpiry (s : State) (id t : Nat) : State :=
  match s.group? id with
  | none => s
  | some g => match g.heldSince, g.vacant with
    | some h, p :: _ =>
      if !cpUp s 3 ∨ t < h + 1000000 * g.params.spareWait then s
      else
        let s := s.atTime t
        if g.size - 1 < g.params.minMembers then stopGroup s id
        else if g.isCoord then issueFail s id [{ action := 5, cause := 0, position := p, member := 0, arg := 0 }]
        else s
    | _, _ => s

end Sys2Proof.Machine
end

