-- ==== Sys2Proof/Machine/StepOps.lean ====
section
/-! DEFINITION. What CP1 does with the phases of a step (spec 01 R20 to R40, Tables 1.1, 1.2): posts of the crucible and
their outcomes (spec 08 R331, R332, R365 to R369), commits, step boundaries, faults of units (spec 11 R468), and the
retained-region table (spec 09 R397). -/

namespace Sys2Proof.Machine

set_option Elab.async false

/-! The retained-region table (spec 09 R397). -/

/-- A range widened to multiples of 64 KiB. -/
def alignRange (r : Nat × Nat) : Nat × Nat :=
  let lo := 65536 * (r.1 / 65536)
  (lo, 65536 * ceilDiv (r.1 + r.2 - lo) 65536)

/-- The ranges of a domain's cellar: the committed slot area, the root cells in force, the journal. -/
def cellarRanges (s : State) (d : Domain) : List (Nat × Nat) :=
  ([(d.slotBase d.committed, 65536 * d.slotUnits)] ++ rootRanges s d d.committed ++
    (match journalBase s d with
      | some j => [(j, 1024)]
      | none => [])).map alignRange

/-- The system area: the table itself, the context table, the placement table, the journal of the whole-model domain
(spec 13 R519). -/
def systemArea : List (Nat × Nat) := [(0, 0x100000), (0x100000, 0x1000000), (0x1100000, 0x2000000), (0x3100000, 0x10000)]

/-- Firmware rewrites the table: the system area, every retained domain's cellar and every retained base region; nothing
where none of these is retained (spec 13 R519). -/
def writeRetained (s : State) : State :=
  let rs := (s.domains.filter (·.retained)).flatMap (cellarRanges s) ++
    (s.fw.bases.filter (fun b => s.fw.retainedBases.contains b.1)).map (fun b => alignRange (b.2.1, b.2.2.1))
  let rs := if rs.isEmpty then [] else (systemArea ++ rs).take 4095
  let body := rs.flatMap (fun r => toLe 8 r.1 ++ toLe 8 r.2)
  let h := toLe 2 0x7E7A ++ toLe 2 rs.length ++ toLe 4 (crc32c body) ++ zeros 8
  { s with dram := Memory.writeL (Memory.clear s.dram 0 65536) 0 (h ++ body) }

/-- Does the table list anything (spec 13)? Its ranges, where its check is good. -/
def retainedRanges (m : Memory) : List (Nat × Nat) :=
  let h := Memory.readN m 0 16
  let n := field h 2 2
  let body := Memory.readN m 16 (16 * n)
  if field h 0 2 = 0x7E7A ∧ n ≤ 4095 ∧ field h 4 4 = crc32c body then
    (List.range n).map (fun k => (field body (16 * k) 8, field body (16 * k + 8) 8))
  else []

/-- Keep exactly the listed ranges of DRAM, and the table. -/
def keepRetained (m : Memory) : Memory :=
  let rs := retainedRanges m
  if rs.isEmpty then []
  else m.filter (fun c => decide (c.1 < 65536) || rs.any (fun r => decide (r.1 ≤ c.1) && decide (c.1 < r.1 + r.2)))

/-! A domain that stops. -/

/-- The domain stops (spec 07 R326, spec 11 R468): its unit's tiles are aborted, its step is left uncommitted, the
completion is FAULTED, its queue STOPPED, and its group is told. With `dead`, the context's STATE becomes STOPPED. -/
def stopDomain (s : State) (id : Nat) (dead : Bool) : State :=
  match s.domain? id with
  | none => s
  | some d =>
    let s := (takeSides s id).modDomain id (fun d => { d with
      run := none, stopped := dead
      entry := if dead then withIdState d.entry (field d.entry 0 4 - field d.entry 0 4 / 2 ^ 18 % 4 * 2 ^ 18 + 2 * 2 ^ 18) else d.entry })
    let s := match s.queue? d.queue with
      | none => s
      | some q => match q.unit with
        | none => s
        | some u =>
          if u.entry.domain ≠ id ∨ q.isRun then s
          else
            let s := (abortUnit s u).setQueue { q with unit := none, stopped := true }
            complete s q.id u.entry.id 1 false 0x060E 0
    reportStop s id

/-! Commits. -/

/-- A COMMIT at the head of the queue, and the report of a member whose step it committed; a record that cannot be
written stops the domain (spec 07 R326). -/
def commitCommand (s : State) (t : Nat) : State :=
  let s' := commitExecute s t
  match s.commitQ with
  | q :: _ =>
    let stoppedNow := (s'.domain? q.domain).any (·.stopped) && !(s.domain? q.domain).any (·.stopped)
    if stoppedNow then stopDomain s' q.domain true
    else if (s'.domain? q.domain).map (·.lastStep) ≠ (s.domain? q.domain).map (·.lastStep) then sendReport s' q.domain else s'
  | [] => s'

/-! Posting operations. -/

/-- Is every micro-batch of the step accumulated: has the domain's queue program halted (spec 01 R26, spec 11 R467)? -/
def stepHalted (s : State) (d : Domain) : Bool :=
  match s.queue? d.queue with
  | none => true
  | some q => match q.unit with
    | none => true
    | some u => (unitTiles s u.tiles).all (fun i => (s.tile i).pstate == .halted)

/-- Is the group table of the step before on the device (spec 09 R377), and that of every other stage of the pipeline (R402)? The first
step that the domain runs in its group has no table before it. -/
def tableHeld (d : Domain) (step : Nat) : Bool :=
  match d.group with
  | none => true
  | some g => g.size < 2 || decide (step ≤ g.firstStep) ||
      (g.tableStep :: d.stages.map (·.tableStep)).all (fun t => t.any (fun n => decide (step ≤ n + 1)))

/-- HOP_TIMEOUT before the GRAD of the next step (spec 09 R379). -/
def setHopTimeout (s : State) (g : Group) : State :=
  if g.tableStep.isNone then s
  else s.setF Reg.CRU_HOP_TIMEOUT 8 0
    (min 0xFFFFFFFF (max (1000000 * g.params.hopFloor) ((g.params.stragglerFactor + 16) * g.median * 1000 / 16)))

/-- The descriptor's words. -/
def descWords (s : State) (addr : Nat) : List Nat := wordsAt (Memory.readN s.dram addr 128) 16

/-- CP1 writes OP_ADDR and OP_PUSH. -/
def postOp (s : State) (addr : Nat) : State := pushOp ((journal s 3 (cruAccepted s)).setF Reg.CRU_OP_ADDR 8 0 addr)

/-- The items of a descriptor. -/
def descItems (s : State) (ws : List Nat) : List (List Nat) :=
  (List.range (dNItems ws)).map (fun i => wordsAt (Memory.readN s.dram (dItems ws + 32 * i) 32) 4)

/-- The curvature-bearing tensors of a domain in placement-table order: tensor c is owned by plan position c mod M (spec 09 R401). -/
def curvTensors (s : State) (d : Domain) : List Place := (d.places s).filter (fun p => decide (0 < p.blocks))

/-- The number of the tensor that a curvature cell belongs to. -/
def cellTensor (s : State) (d : Domain) (a : Nat) : Option Nat :=
  (curvTensors s d).findIdx? (fun p => (List.range p.blocks).any (fun b =>
    [false, true].any (fun g => [0, 1, 2].any (fun c => p.cell b g c == a))))

/-- Does each item of a STAT or ROOT operation name the owner of its tensor (spec 09 R401)? -/
def ownersOk (s : State) (d : Domain) (ws : List Nat) (items : List (List Nat)) : Bool :=
  items.all (fun it => match cellTensor s d (iA it) with
    | some c => iOwner it == c % dM ws
    | none => true)

/-- The marver of this device has written the status word of every item that it owns: DONE is set (spec 08 R358, spec 06 R274). -/
def ownRootsDone (s : State) (ws : List Nat) (items : List (List Nat)) : Bool :=
  items.all (fun it => iOwner it != dPos ws ||
    bit (leNat (Memory.readN s.dram (dStatus ws + 16 * iIndex it) 4)) 8)

/-- Would OP_PUSH take an operation now (spec 08 R331, Table 8.11)? -/
def opTaken (s : State) : Bool := s.getF (Hdr.ENABLE 3) 8 0 == 1 && decide (cruDepth s < 16)

/-- CP1 hands the step's overflow flag to the crucible in OVF_LOCAL of the descriptor (spec 01 R25, spec 08 R356). -/
def setOvfLocal (s : State) (addr : Nat) : State :=
  { s with dram := Memory.write s.dram addr (Memory.read s.dram addr ||| 0x40#8) }

/-- CP1 posts the GRAD of the step that a domain runs: after the queue program halted (spec 01 R26), with the group table of the step
before on the device (spec 09 R377), with the step's overflow flag (R25). -/
def postGrad (s : State) (d : Domain) (r : StepRun) (ws : List Nat) (addr : Nat) : State :=
  if (r.phase ≠ .program ∧ r.phase ≠ .halted) ∨ !stepHalted s d ∨ !tableHeld d r.step then s
  else if !opTaken s then postOp s addr
  else
    let ovf := dOvf ws || accOverflow s.dram ((descItems s ws).map (fun it => (iA it, iLen it)))
    let s := if ovf then setOvfLocal s addr else s
    let s := match d.group with
      | some g => if g.size < 2 then s else setHopTimeout s g
      | none => s
    postOp (s.modDomain d.id (fun d => { d with
      run := d.run.map (fun r => { r with
        phase := .reducing, ovf := ovf, gradClosed := false, readyUs := min 0xFFFFFFFF ((s.now - r.startedAt) / 1000) }) })) addr

/-- The STAT of a root step: once its GRAD has closed, whatever its outcome (spec 01 R29, spec 08 R330), while a reduction is owed. -/
def postStat (s : State) (d : Domain) (r : StepRun) (ws : List Nat) (addr : Nat) : State :=
  if !r.gradClosed ∨ r.statOpen ∨ !statOwed s d r ∨ !ownersOk s d ws (descItems s ws) then s
  else if !opTaken s then postOp s addr
  else postOp (s.modDomain d.id (fun d => { d with run := d.run.map (fun r => { r with statOpen := true }) })) addr

/-- A ROOT while roots are due, once the own roots are written (spec 01 R30, spec 08 R358). STEP is that of the step that runs or of
the one that reduced the statistics. -/
def postRoot (s : State) (d : Domain) (r : StepRun) (ws : List Nat) (addr : Nat) : State :=
  if (dStep ws ≠ r.step ∧ dStep ws + 1 ≠ r.step) ∨ d.rootsDue.isEmpty ∨ !ownersOk s d ws (descItems s ws) ∨ !ownRootsDone s ws (descItems s ws) then s
  else postOp s addr

/-- OP_PUSH (spec 08 R331): CP1 posts an operation of the step that a domain runs when its turn has come, and holds it till then. A
descriptor that names no domain of the device goes to the crucible, which refuses it. -/
def opPush (s : State) (addr t : Nat) : State :=
  let s := s.atTime t
  if !cpUp s 1 then s
  else
    let ws := descWords s addr
    match s.domain? (dDomain ws) with
    | none => postOp s addr
    | some d => match d.run with
      | none => s
      | some r =>
        match dOpk ws with
        | 1 => if r.step = dStep ws then postGrad s d r ws addr else s
        | 2 => if r.step = dStep ws then postStat s d r ws addr else s
        | 3 => postRoot s d r ws addr
        | _ => postOp s addr

/-! Outcomes. -/

/-- The reduced gradient of a GRAD operation as FP32 (spec 08 R352): element i stands for i × 2^(E − 127). DEDUCED: the
items stand in placement-table order (log entry 38). -/
def reducedGradient (s : State) (ws : List Nat) (items : List (List Nat)) : Array Word :=
  (items.flatMap (fun it =>
    let acc := (Memory.readN s.dram (iA it) (2 * iLen it)).toArray
    let rec_ := (Memory.readN s.dram (dBrec ws + 2 * iIndex it) (2 * iBlocks it)).toArray
    (List.range (iLen it)).map (fun e =>
      let x := (acc.getD (2 * e) 0#8).toNat + 256 * (acc.getD (2 * e + 1) 0#8).toNat
      let neg := decide (x ≥ 32768)
      let m := if neg then 65536 - x else x
      toFp32 .rne (.fin (neg && m != 0) m (((rec_.getD (2 * (e / 256)) 0#8).toNat : Int) - 127))))).toArray

/-- Byte ranges that the update of a domain reads: the lendable part, the root map and the root cells in force, the block records and
the reduced gradient. -/
def updateRanges (s : State) (d : Domain) (ws : List Nat) (items : List (List Nat)) : List (Nat × Nat) :=
  (d.slotBase d.committed, 65536 * d.lendUnits) :: (rootMapAt d d.committed, rootMapLen s d) :: (dBrec ws, 2 * dNBlocks ws) ::
    rootRanges s d d.committed ++ items.map (fun it => (iA it, 2 * iLen it))

/-- An update program of a domain faulted: it is reported (spec 11 R468), and the fault counted (spec 07 R326). -/
def updateFault (s : State) (d : Domain) : State :=
  (evtFault (s.recordErr 8 0 0 0x060E d.queue 0) 0x060E 8 0 d.queue 0 d.queue d.id).modDomain d.id (fun d =>
    { d with run := d.run.map (fun r => { r with updFaults := r.updFaults + 1 }) })

/-- The update programs of a step run (spec 07 R309 to R316); a line that they cannot read faults them, they are run
once more, and a second fault of the step's update stops the domain (spec 07 R326). -/
def runUpdate (s : State) (id : Nat) (ws : List Nat) (items : List (List Nat)) : State :=
  match s.domain? id with
  | none => s
  | some d =>
    let bad := s.dramUe.find? (fun l => (updateRanges s d ws items).any (fun r => decide (r.1 < l + 64) && decide (l < r.1 + r.2)))
    match bad with
    | some l =>
      let s := updateFault (dramUncorrectable s l) d
      if ((d.run.map (·.updFaults)).getD 0) = 0 then stopDomain (updateFault (dramUncorrectable s l) d) id true
      else stopDomain s id true
    | none =>
      let (s, nf) := updateDomain s d (dM ws) (reducedGradient s ws items)
      s.modDomain id (fun d => { d with run := d.run.map (fun r => { r with phase := .ready, nonfinite := nf }) })

/-- The values that R368 of spec 08 forms at a step. -/
def noiseSample (step acc mb m lsExp : Nat) (localSum red : Word) : NoiseSample :=
  let n (k : Nat) : Word := toFp32 .rne (.fin false k 0)
  let b := n (acc * mb)
  let bb := fpMul .rne (n m) b
  let cs := fpDiv .rne (toFp32 .rne (.fin false 1 (-(2 * lsExp : Int)))) (n (acc * acc))
  let gs := fpDiv .rne (fpMul .rne localSum cs) (n m)
  let gb := fpDiv .rne (fpMul .rne red cs) (n (m * m))
  let one := 0x3F800000#32
  { step := step
    g2 := fpDiv .rne (fpSub .rne (fpMul .rne bb gb) (fpMul .rne b gs)) (fpSub .rne bb b)
    sg := fpDiv .rne (fpSub .rne gs gb) (fpSub .rne (fpDiv .rne one b) (fpDiv .rne one bb)) }

/-- Run the step of a domain again from its beginning (spec 08 R365). -/
def rerunStep (s : State) (d : Domain) (reruns : Nat) : State :=
  let s := (takeSides s d.id).modDomain d.id (fun d => { d with run := none })
  match s.queue? d.queue with
  | none => s
  | some q => match q.unit with
    | none => s
    | some u => startUnit s { q with unit := none } u.entry reruns

/-- A missing upstream member is reported, or ejected by the coordinator (spec 08 R365, spec 09 Table 9.8). -/
def reportTimeout (s : State) (id member : Nat) : State :=
  match s.group? id with
  | none => s
  | some g =>
    if g.size < 2 then s
    else
      let ps := (List.range g.size).filter (fun p => g.memberAt p == some member)
      if g.isCoord then failMembers s id ps 3 else sendPos s g g.coord msgTimeout (toLe 4 id ++ toLe 4 member)

/-- A second FAULT of the same step is reported with FAULT_POS, to the coordinator (spec 08 R365, spec 09 Table 9.8); a domain without
a group reports it to the host and stops. -/
def secondFault (s : State) (id pos : Nat) : State :=
  let alone (s : State) : State :=
    let q := ((s.domain? id).map (·.queue)).getD 0
    stopDomain (evtFault (s.recordErr 8 0 0 0x060E q pos) 0x060E 8 0 q pos q id) id true
  match s.group? id with
  | none => alone s
  | some g =>
    if g.size < 2 then alone s
    else if g.isCoord then failMembers s id [pos] 4 else sendPos s g g.coord msgFault (toLe 4 id ++ toLe 4 pos)

/-- CP1 acts on the outcome of the oldest operation that closed (spec 08 R365). -/
def opDone (s : State) (t : Nat) (fit : List Nat) : State :=
  let s := s.atTime t
  if !cpUp s 1 then s
  else match s.cruDone with
    | [] => s
    | c :: cs =>
      let id := dDomain c.words
      let s := noteFit { s with cruDone := cs } id fit
      if c.outcome = 3 then reportTimeout s id c.prevMember
      else if dOpk c.words ≠ 1 then s
      else match s.domain? id with
        | none => s
        | some d => match d.run with
          | none => s
          | some r =>
            if r.step ≠ dStep c.words ∨ r.phase ≠ .reducing then s
            else match c.outcome with
              | 0 =>
                let s := if dNoise c.words ∧ dM c.words > 1 then
                    s.modDomain id (fun d => { d with noise := d.noise.filter (fun x => decide (x.step < r.step)) ++
                      [noiseSample r.step (dAcc c.words) d.mbTokens (dM c.words) (dLsExp c.words) c.groupSum c.redNorm] })
                  else s
                runUpdate (s.modDomain id (fun d => { d with run := d.run.map (fun r => { r with phase := .updating }) })) id c.words c.items
              | 1 => s.modDomain id (fun d => { d with run := d.run.map (fun r => { r with phase := .ready, skipped := true }) })
              | 2 => if r.reruns = 0 then rerunStep s d 1 else secondFault s id c.faultPos
              | _ => s.modDomain id (fun d => { d with run := d.run.map (fun r => { r with phase := .halted }) })

/-! Batch steering (spec 08 R369). -/

/-- The least whole number at or above a finite value of FP32, which is not negative. -/
def ceilWord (x : Word) (top : Nat) : Nat :=
  match fp32 x with
  | .fin true _ _ => 0
  | .fin false m e => if e ≥ 0 then m * 2 ^ e.toNat else ceilDiv m (2 ^ (-e).toNat)
  | _ => top

/-- The new accumulation count after step `n`; none: the count stays. The Bool says that no valid noise was found.
DEDUCED: means and quotients are formed in FP32, in the order written (log entry 37). -/
def steer (d : Domain) (n m : Nat) : Option Nat × Bool :=
  let xs := d.noise.filter (fun x => decide (n < x.step + d.window) && decide (x.step ≤ n))
  let mean (f : NoiseSample → Word) : Word :=
    fpDiv .rne (xs.foldl (fun a x => fpAdd .rne a (f x)) 0#32) (toFp32 .rne (.fin false xs.length 0))
  let g := mean (·.g2)
  let sg := mean (·.sg)
  if xs.isEmpty ∨ !fpLess 0#32 g ∨ !fpLess 0#32 sg then (none, true)
  else
    let q := fpDiv .rne (fpDiv .rne sg g) (toFp32 .rne (.fin false (m * d.mbTokens) 0))
    let k := min d.accMax (max d.accMin (ceilWord q d.accMax))
    (if k ≥ ceilDiv (5 * d.accCount) 4 ∨ k ≤ 3 * d.accCount / 4 then some k else none, false)

/-- Steering after the commit of step `n` (spec 08 R369), and EVT_STEERING (spec 11 Table 11.11). -/
def steerDomain (s : State) (id n : Nat) : State :=
  match s.domain? id with
  | none => s
  | some d =>
    if !d.steer ∨ d.window = 0 ∨ (n + 1) % d.window ≠ 0 then s
    else
      let m := (d.group.map (·.size)).getD 1
      match steer d n m with
      | (_, true) => s.countF Reg.CRU_NOISE_INVALID 8 0 1
      | (none, false) => s
      | (some k, false) =>
        raiseEvent (s.modDomain id (fun d => { d with nextAcc := some k })) 0x8005 (toLe 4 id ++ toLe 8 n ++ toLe 2 k)

/-! The step boundary (spec 01 R38 to R40, Table 1.2). -/

/-- CP3 sets its own WDT_PERIOD so low that its restart stays within HB_EXPIRY of every group that it serves, where that leaves at
least 10 ms (spec 11 R481). -/
def fitWatchdog (s : State) : State :=
  let v := s.getF Reg.CP_WDT_PERIOD 3 0
  let old := if 10 ≤ v ∧ v ≤ 10000 then v else 100
  s.setF Reg.CP_WDT_PERIOD 3 0 (s.domains.foldl (fun (n : Nat) (d : Domain) => match d.group with
    | some g =>
      let m := g.params.hbExpiry - g.params.hbPeriod - 20
      if g.size ≥ 2 ∧ m ≥ 10 then min n m else n
    | none => n) old)

/-- A new plan or new parameters of a group take effect (spec 09 R374, R383). A plan that first makes the domain one of several
members starts the group's steps. -/
def applyPlan (s : State) (id : Nat) : State :=
  match (s.group? id).bind (·.nextPlan) with
  | none => s
  | some (plan, pos, params) =>
    let changed := (s.group? id).map (fun g => !g.plan.members.isEmpty && decide (g.plan ≠ plan ∨ g.position ≠ pos)) |>.getD false
    let next := ((s.domain? id).map (·.nextStep)).getD 0
    let s := s.modGroup id (fun g => { g with
      plan := plan, position := pos, params := params, nextPlan := none
      firstStep := if g.size < 2 then next else g.firstStep
      state := .member, vacant := [], failed := [], heldSince := none
      beats := ((List.range plan.members.length).filter (· != pos)).map (fun p => (p, s.now)) })
    let s := if cpUp s 3 then fitWatchdog s else s
    if changed then advanceEpoch s id
    else match s.group? id with
      | some g => if cpUp s 3 then configureChannels s g else s
      | none => s

/-- Step `r` of the domain ended: its completion is written, its roots are in force, and the roots of its own STAT are
due in the next step (spec 01 R30, R31; spec 11 R464). -/
def endStep (s : State) (d : Domain) (r : StepRun) : State :=
  let s := takeSides s d.id
  let s := match s.queue? d.queue with
    | none => s
    | some q => match q.unit with
      | none => s
      | some u =>
        if u.entry.domain ≠ d.id ∨ q.isRun then s
        else complete (endUnit s q.id true) q.id u.entry.id (if r.skipped then 4 else 0) (decide (u.entry.left ≤ 1)) 0 r.step
  s.modDomain d.id (fun d => { d with run := none, rootsDue := r.dueRoots, roots := [] })

/-- Does the domain's unit still run a program (spec 01 R38)? -/
def stepActive (s : State) (d : Domain) : Bool :=
  match (s.queue? d.queue).bind (·.unit) with
  | some u => !unitHalted s u
  | none => false

/-- Orders 1 to 4 of Table 1.2 of spec 01: the step ends, the steering of R369 decides, and what was held takes effect; then the
retained-region table follows the cellars. -/
def boundaryHeld (s : State) (d : Domain) (others : Bool) : State :=
  let s := match d.run with
    | none => s
    | some r => steerDomain (endStep s d r) d.id r.step
  let s := applyPlan (boundaryActions s d.id d.nextStep others) d.id
  let s := if d.retained then writeRetained s else s
  s.modDomain d.id (fun d => { d with accCount := d.nextAcc.getD d.accCount, nextAcc := none })

/-- Orders 6 to 8 of Table 1.2: frequencies, HOLD, the next step. -/
def boundaryStarts (s : State) (id t : Nat) : State :=
  let s := applyFrequencies s
  let parked := ((s.domain? id).map (·.parked)).getD true
  let s := if fwState s = 4 ∧ !parked then reportStop (s.modDomain id (fun d => { d with parked := true })) id else s
  unitStart s t

/-! Units of RUN queues, and faults of units (spec 11 R464, R468). -/

/-- Every tile of a RUN has halted: its completion is written. -/
def runComplete (s : State) (qid t : Nat) : State :=
  let s := s.atTime t
  if !cpUp s 1 then s
  else match s.queue? qid with
    | none => s
    | some q => match q.unit with
      | none => s
      | some u =>
        if !q.isRun ∨ !(unitTiles s u.tiles).all (fun i => (s.tile i).pstate == .halted) then s
        else complete (endUnit s qid true) qid u.entry.id (if u.stopping then 3 else 0) true 0 0

/-- A tile on which no unit runs faulted: it is reported against the queue whose unit last ran on it, once (spec 02 R102). -/
def idleFault (s : State) (qid : Nat) : State :=
  let mine (x : Nat × Nat) : Bool := x.2 == qid && (List.finRange 128).any (fun (i : TileId) => i.val == x.1 && (s.tile i).pstate == .faulted)
  if !s.fw.ran.any mine then s
  else
    let s := { s with fw := { s.fw with ran := s.fw.ran.filter (fun x => !mine x) } }
    evtFault (s.recordErr 8 0 0 0x060E qid 0) 0x060E 8 0 qid 0 qid 0x7FFFF

/-- A tile faulted while the update of a step ran or had run: the update is run once more, and a second fault stops the domain
(spec 07 R326). -/
def updateAgain (s : State) (d : Domain) (r : StepRun) (tiles : List TileId) : State :=
  let s := updateFault s d
  if r.updFaults ≠ 0 then stopDomain s d.id true
  else
    let s := tiles.foldl (fun s i => if (s.tile i).pstate == .faulted then doSoftReset s i else s) s
    runUpdate (s.modDomain d.id (fun d => { d with run := d.run.map (fun r => { r with phase := .updating }) })) d.id r.gradWords r.gradItems

/-- CP1 handles a faulted tile of a unit (spec 11 R468), or of a queue that runs none (spec 02 R102). -/
def queueFault (s : State) (qid t : Nat) : State :=
  let s := s.atTime t
  if !cpUp s 1 then s
  else match s.queue? qid with
    | none => s
    | some q => match q.unit with
      | none => idleFault s qid
      | some u =>
        let tiles := unitTiles s u.tiles
        if !tiles.any (fun i => (s.tile i).pstate == .faulted) then idleFault s qid
        else
          let s := abortUnit s u
          let run := if q.isRun then none else s.domain? u.entry.domain |>.bind (fun d => d.run.map (fun r => (d, r)))
          match run with
          | some (d, r) =>
            if !r.skipped ∧ (r.phase = .updating ∨ r.phase = .ready) then updateAgain s d r tiles
            else stopDomain (evtFault (s.recordErr 8 0 0 0x060E qid 0) 0x060E 8 0 qid 0 qid d.id) d.id false
          | none =>
            let s := evtFault (s.recordErr 8 0 0 0x060E qid 0) 0x060E 8 0 qid 0 qid (if q.isRun then 0x7FFFF else u.entry.domain)
            if q.isRun then complete (endUnit s qid true) qid u.entry.id 1 true 0x060E 0
            else complete (stopQueue (endUnit s qid false) qid) qid u.entry.id 1 false 0x060E 0

/-- OP_ABORT by CP1: the oldest running operation ends ABORTED (spec 08 R364). -/
def abortCrucible (s : State) (t : Nat) : State :=
  if cpUp s 1 && !s.cru.isEmpty then abortOp (s.atTime t) else s

end Sys2Proof.Machine
end

