-- ==== Sys2Proof/Machine/ExportOps.lean ====
section
/-! DEFINITION. The export engine and its containers (spec 09 R396 to R404, spec 07 R327), and the
restore of a cellar (spec 09 R389, spec 11 Table 11.11). -/

namespace Sys2Proof.Machine

set_option Elab.async false

/-! Containers. -/

/-- One directory entry and its data (spec 09 Table 9.12). -/
structure ContPart where
  tensor : Nat
  vec : Bool
  fmt : Nat
  sub : Nat
  rows : Nat
  cols : Nat
  data : List Byte
  deriving DecidableEq, Repr

/-- FP32 elements with +0 for −0. -/
def plusZero32 : List Byte → List Byte
  | a :: b :: c :: e :: d => (if a = 0#8 ∧ b = 0#8 ∧ c = 0#8 ∧ e = 0x80#8 then [0#8, 0#8, 0#8, 0#8] else [a, b, c, e]) ++ plusZero32 d
  | d => d

/-- Bytes as an export writes them: +0 for −0 in floating-point data (spec 04 R185). -/
def exportBytes (fmt : Nat) (d : List Byte) : List Byte := if fmt = 0 then rootBytes d else if fmt = 2 then plusZero32 d else d

/-- Format code of a sub-area (spec 07 Table 7.1). DEDUCED: INT8 for moil and momentum, FP32 for the sketch of DENSE2D
and UINT8 for that of VEC1D (log entry 39). -/
def subFormat (p : Place) (k : Nat) : Nat := if k < 2 then 0 else if k < 4 then 5 else if p.vec then 6 else 2

/-- The sub-areas of a tensor in a slot area, as parts. -/
def tensorParts (s : State) (d : Domain) (i : Nat) (ks : List Nat) : List ContPart :=
  let p := placeOf (placeBytes s i)
  ks.map (fun k =>
    { tensor := i, vec := p.vec, fmt := subFormat p k, sub := k, rows := p.rows, cols := p.cols,
      data := exportBytes (subFormat p k) (Memory.readN s.dram (d.slotBase d.committed + p.sub k) (p.subSize k)) })

/-- The root cells in force of a tensor, one part. -/
def rootParts (s : State) (d : Domain) (i : Nat) : List ContPart :=
  let p := placeOf (placeBytes s i)
  if p.blocks = 0 then []
  else
    let rs := (List.range p.blocks).flatMap (fun b =>
      let e := rootMapEntry s d d.committed (p.mapFirst + b)
      (if mapValid e false then [(p.cell b false (mapCell e false), cellBytes p.br)] else []) ++
      (if mapValid e true then [(p.cell b true (mapCell e true), cellBytes p.bc)] else []))
    [{ tensor := i, vec := p.vec, fmt := 0, sub := 5, rows := p.rows, cols := p.cols, data := exportBytes 0 (readRanges s.dram rs) }]

/-- The parts of a container (spec 09 R398). -/
def contParts (s : State) (d : Domain) (cellar : Bool) (list : List Nat) : List ContPart :=
  if !cellar then list.flatMap (fun i => tensorParts s d i [0])
  else
    let all := (List.range d.placeCount).map (· + d.placeFirst)
    let one (sub : Nat) (data : List Byte) : ContPart :=
      { tensor := d.placeFirst, vec := false, fmt := 0, sub := sub, rows := 0, cols := 0, data := data }
    all.flatMap (fun i => tensorParts s d i (if (placeOf (placeBytes s i)).vec then [0, 2, 3, 4] else [0, 1, 2, 3, 4]) ++ rootParts s d i) ++
      [one 6 (Memory.readN s.dram (rootMapAt d d.committed) (65536 * (d.slotUnits - d.lendUnits))), one 7 d.record]

def align4k (n : Nat) : Nat := 4096 * ceilDiv n 4096

/-- Offsets of the parts' data, and the end. -/
def contOffsets : Nat → List ContPart → List (ContPart × Nat)
  | _, [] => []
  | at_, p :: ps => (p, align4k at_) :: contOffsets (align4k at_ + p.data.length) ps

def ContPart.entry (p : ContPart) (off : Nat) : List Byte :=
  toLe 8 (p.tensor + 2 ^ 19 * b2n p.vec + 2 ^ 20 * p.fmt + 2 ^ 24 * p.sub) ++ toLe 4 p.rows ++ toLe 4 p.cols ++ toLe 8 off ++
    toLe 8 (crc64 p.data)

/-- A container whole (spec 09 Tables 9.11, 9.12). -/
def container (s : State) (d : Domain) (cellar : Bool) (list : List Nat) : List Byte :=
  let parts := contParts s d cellar list
  let start := 64 + 32 * parts.length
  let placed := contOffsets start parts
  let dir := placed.flatMap (fun x => x.1.entry x.2)
  let body := placed.foldl (fun (b : List Byte) x => b ++ zeros (x.2 - (64 + b.length)) ++ x.1.data) dir
  let r := d.record
  let h := toLe 8 (0x7C2D0E59 + 2 ^ 32 + 2 ^ 40 * b2n cellar) ++ toLe 8 (d.id + 2 ^ 32 * recEpoch r) ++ toLe 8 (recStep r) ++
    toLe 8 (recDigest r) ++ toLe 4 (recUpbCrc r) ++ toLe 4 parts.length ++ toLe 8 (64 + body.length) ++ toLe 8 (crc64 body) ++ toLe 4 0
  h ++ toLe 4 (crc32c h) ++ body

/-! The engine. -/

def exportState (s : State) : Nat := s.getF Reg.EXPORT_STATE 0 0

/-- The export ends as FAILED and its pin is released. -/
def exportFail (s : State) : State :=
  let s := (releasePin s (s.getF Reg.EXPORT_REQ_DOMAIN 0 0) .exportEngine).setF Reg.EXPORT_PIN_HELD 0 0 0
  { s.setF Reg.EXPORT_STATE 0 0 4 with exportJob := none }

/-- The tensors that the request lists. -/
def exportList (s : State) : List Nat :=
  (List.range (s.getF Reg.EXPORT_LIST_COUNT 0 0)).map (fun k => field (Memory.readN s.dram (s.getF Reg.EXPORT_LIST_BASE 0 0 + 4 * k) 4) 0 4)

/-- GO (spec 09 R399, Table 9.15): the engine asks for a read pin and copies under it. An export of a domain with no
committed state, or larger than its buffer, moves no byte. -/
def exportGo (s : State) (t : Nat) : State :=
  let s := s.atTime t
  if s.getF (Hdr.ENABLE 14) 0 0 = 0 ∨ exportState s = 1 ∨ exportState s = 2 then s
  else
    let id := s.getF Reg.EXPORT_REQ_DOMAIN 0 0
    let s := { (journal s 14 (exportState s)).setF Reg.EXPORT_BYTES_DONE 0 0 0 with exportJob := none }
    match s.domain? id with
    | none => s.setF Reg.EXPORT_STATE 0 0 4
    | some d =>
      if d.lastStep.isNone ∨ (container s d (s.flag Reg.EXPORT_REQ_KIND 0 0) (exportList s)).length > 65536 * s.getF Reg.EXPORT_BUF_LIMIT 0 0 then
        s.setF Reg.EXPORT_STATE 0 0 4
      else
        let s := { s.setF Reg.EXPORT_STATE 0 0 1 with exportJob := some { pinAt := none, step := recStep d.record } }
        let s := requestPin s id .exportEngine
        s.setF Reg.EXPORT_PIN_HELD 0 0 (b2n ((s.exportJob.bind (·.pinAt)).isSome))

/-- ABORT (spec 09 R404). -/
def exportAbort (s : State) (t : Nat) : State :=
  let s := s.atTime t
  if exportState s = 1 ∨ exportState s = 2 then exportFail s else s

/-- Byte ranges that an export reads. -/
def exportRanges (s : State) (d : Domain) : List (Nat × Nat) :=
  let list := (s.getF Reg.EXPORT_LIST_BASE 0 0, 4 * s.getF Reg.EXPORT_LIST_COUNT 0 0)
  if s.flag Reg.EXPORT_REQ_KIND 0 0 then (d.slotBase d.committed, 65536 * d.slotUnits) :: rootRanges s d d.committed
  else list :: (exportList s).map (fun i =>
    let p := placeOf (placeBytes s i)
    (d.slotBase d.committed + p.sub 0, p.subSize 0))

/-- The pin reaches PIN_LIMIT: after a re-check firmware aborts the export (spec 09 R400, spec 07 R591). -/
def pinExpired (s : State) (t : Nat) : State :=
  match s.exportJob.bind (·.pinAt) with
  | none => s
  | some p =>
    if exportState s ≠ 1 ∨ t < p + 1000000 * s.getF Reg.EXPORT_PIN_LIMIT 0 0 then s
    else
      let s := s.atTime t
      let id := s.getF Reg.EXPORT_REQ_DOMAIN 0 0
      let n := (s.exportJob.map (·.step)).getD 0
      let pos := ((s.group? id).map (·.position)).getD 0
      let s := (exportFail s).raise 14 0 0 2
      integrity (s.countF Reg.EXPORT_PIN_EXPIRIES 0 0 1) 0x0C 0 id n pos (s.getF Reg.SEC_MEMBER 0 0) 0 0 0

/-- The container is complete in the local buffer, header last; the pin is released (spec 09 R399, R400). A line that
cannot be read ends the export as FAILED, as does a pin that reached its limit. -/
def exportDone (s : State) (t : Nat) : State :=
  if exportState s ≠ 1 ∨ s.getF (Hdr.FREEZE 14) 0 0 = 1 ∨ (s.exportJob.bind (·.pinAt)).isNone then s
  else if (s.exportJob.bind (·.pinAt)).any (fun p => decide (p + 1000000 * s.getF Reg.EXPORT_PIN_LIMIT 0 0 < t)) then pinExpired s t
  else
    let s := s.atTime t
    let id := s.getF Reg.EXPORT_REQ_DOMAIN 0 0
    match s.domain? id with
    | none => exportFail s
    | some d =>
      match s.dramUe.find? (fun l => (exportRanges s d).any (fun r => decide (r.1 < l + 64) && decide (l < r.1 + r.2))) with
      | some l => exportFail ((dramUncorrectable s l).recordErr 14 0 0 0x0503 (l % 2 ^ 32) 0)
      | none =>
        let c := container s d (s.flag Reg.EXPORT_REQ_KIND 0 0) (exportList s)
        let base := s.getF Reg.EXPORT_BUF_BASE 0 0
        let s := match s.power.hdm with
          | some (w, n) =>
            if base < w + n ∧ w < base + c.length then s.send (.biSnp (max base w) (min (base + c.length) (w + n) - max base w)) else s
          | none => s
        let s := (dramWrite s base c).1
        let s := (s.setF Reg.EXPORT_BYTES_DONE 0 0 c.length).raise 14 0 0 1
        let s := ((releasePin s id .exportEngine).setF Reg.EXPORT_PIN_HELD 0 0 0).countF Reg.EXPORT_EXPORTS 0 0 1
        if s.flag Reg.EXPORT_TARGET 0 0 then
          (s.setF Reg.EXPORT_STATE 0 0 2).send (.bulk (s.getF Reg.EXPORT_PEER_MEMBER 0 0) 4 c)
        else { s.setF Reg.EXPORT_STATE 0 0 3 with exportJob := none }

/-- The PEER transfer completes (spec 09 R399). -/
def peerDone (s : State) (t : Nat) : State :=
  let s := s.atTime t
  if exportState s ≠ 2 then s else { (s.setF Reg.EXPORT_STATE 0 0 3).raise 14 0 0 3 with exportJob := none }

/-! Restore (spec 11 Table 11.11 CELLAR_RESTORE). -/

/-- A well-formed CELLAR container of a domain. -/
def cellarOk (id : Nat) (c : List Byte) : Bool :=
  c.length ≥ 64 && field c 0 4 == 0x7C2D0E59 && field c 4 1 == 1 && field c 5 1 == 1 && field c 6 2 == 0 &&
    bits (field c 8 4) 18 0 == id && field c 60 4 == crc32c (c.take 60) && field c 40 8 == c.length && field c 48 8 == crc64 (c.drop 64)

/-- The data of directory entry `k`: tensor, sub-area and bytes up to the next entry's or the end. -/
def cellarPart (c : List Byte) (k : Nat) : Nat × Nat × List Byte :=
  let n := field c 36 4
  let e := 64 + 32 * k
  let w := field c e 8
  let off := field c (e + 16) 8
  let stop := if k + 1 < n then field c (e + 48) 8 else c.length
  (bits w 18 0, bits w 27 24, (c.drop off).take (stop - off))

/-- Put a cellar into slot area `slot` of a domain, write its record into the journal, find it again by a SCAN, and form its digest
area, which a container does not carry (spec 09 R386). -/
def restoreCellar (s : State) (d : Domain) (c : List Byte) : State :=
  let parts := (List.range (field c 36 4)).map (cellarPart c)
  let record := (((parts.find? (fun p => p.2.1 == 7)).map (·.2.2)).getD []).take 64
  let slot := recSlot record
  let put (m : Memory) (p : Nat × Nat × List Byte) : Memory :=
    let pl := placeOf (placeBytes s p.1)
    if p.2.1 < 5 then Memory.writeL m (d.slotBase slot + pl.sub p.2.1) (p.2.2.take (pl.subSize p.2.1))
    else if p.2.1 = 6 then Memory.writeL m (rootMapAt d slot) (p.2.2.take (65536 * (d.slotUnits - d.lendUnits)))
    else m
  let s := { s with dram := parts.foldl put s.dram }
  let putRoots (m : Memory) (p : Nat × Nat × List Byte) : Memory :=
    if p.2.1 ≠ 5 then m
    else
      let pl := placeOf (placeBytes s p.1)
      let cells := (List.range pl.blocks).flatMap (fun b =>
        let e := rootMapEntry s d slot (pl.mapFirst + b)
        (if mapValid e false then [(pl.cell b false (mapCell e false), cellBytes pl.br)] else []) ++
        (if mapValid e true then [(pl.cell b true (mapCell e true), cellBytes pl.bc)] else []))
      (cells.foldl (fun (x : Memory × List Byte) r => (Memory.writeL x.1 r.1 (x.2.take r.2), x.2.drop r.2)) (m, p.2.2)).1
  let s := { s with dram := parts.foldl putRoots s.dram }
  match journalBase s d with
  | none => s
  | some j =>
    let m := Memory.clear s.dram j (j + 1024)
    let s := scanNow { s with dram := Memory.writeL m (j + 64 * (recStep record % 16)) record } d.id
    s.modDomain d.id (fun d => d.setLeaves slot (domainLeaves s d slot))

end Sys2Proof.Machine
end

