-- ==== Sys2Proof/Machine/LinkOps.lean ====
section
/-! DEFINITION. Host ports (spec 10 R405 to R412), the Kamduelm link layer (R413 to R426), membership (R427), the timebase
(R429 to R431), DRAM accesses and patrol scrub (R432 to R440). -/

namespace Sys2Proof.Machine

set_option Elab.async false

/-! Host ports. Port 0 is HA, port 1 HB. -/

def hpRole (s : State) (p : Fin 2) : Nat := s.getF Reg.HP_ROLE p 0

/-- A ROLE changes: the EVENT interrupt (spec 14 Table 14.5). -/
def setRole (s : State) (p : Fin 2) (v : Nat) : State :=
  let changed := hpRole s p != v
  let s := s.setF Reg.HP_ROLE p 0 v
  if changed then s.raise 10 0 p 1 else s

def State.hostLink (s : State) (p : Fin 2) : HostLink := s.hostLinks[p]
def State.setHostLink (s : State) (p : Fin 2) (l : HostLink) : State := { s with hostLinks := s.hostLinks.set p l }

def otherPort (p : Fin 2) : Fin 2 := if p = 0 then 1 else 0

/-- The first port to train becomes ACTIVE once HA's 2 s are over (spec 10 R410); the other one is STANDBY. -/
def settleRoles (s : State) (p : Fin 2) : State :=
  if hpRole s 0 = 2 ∨ hpRole s 1 = 2 then (if hpRole s p = 2 then s else setRole s p 1)
  else if p = 0 then setRole { s with power := { s.power with haFrom := none } } 0 2
  else if s.power.haFrom.isSome then setRole s p 1
  else setRole s p 2

/-- HA has not trained 2 s after the release of PERST_N: the first port to train becomes ACTIVE (spec 10 R410). -/
def haTimeout (s : State) (t : Nat) : State :=
  match s.power.haFrom with
  | none => s
  | some r =>
    if t < r + 2000000000 then s
    else
      let s := { (s.atTime t) with power := { s.power with haFrom := none } }
      if (s.hostLink 0).trained ∨ hpRole s 0 = 2 ∨ hpRole s 1 = 2 then s
      else if (s.hostLink 1).trained then setRole s 1 2 else s

/-- A failover to the STANDBY port `q` (spec 10 R411, R412, Table 10.2). -/
def failover (s : State) (q : Fin 2) : State :=
  let p := otherPort q
  if hpRole s q ≠ 1 ∨ hpRole s p ≠ 2 then s
  else
    let s := setRole s p (if (s.hostLink p).trained then 1 else 0)
    let s := s.setHostLink p { (s.hostLink p) with downSince := none }
    let s := (setRole s q 2).countF Reg.HP_FAILOVERS q 0 1
    s.recordErr 10 0 q 0x0422 q 0

/-- FAILOVER_REQ on the STANDBY port (spec 10 R409, R411). -/
def failoverReq (s : State) (p : Fin 2) (t : Nat) : State := failover (s.atTime t) p

/-- The ACTIVE link has been down for FAILOVER_DELAY: firmware re-checks for a link-up, then fails over. -/
def failoverDelay (s : State) (t : Nat) : State :=
  let p : Fin 2 := if hpRole s 0 = 2 then 0 else 1
  match (s.hostLink p).downSince with
  | none => s
  | some d =>
    let f := s.getF Reg.HP_FAILOVER_DELAY p 0
    let ms := if f < 10 ∨ f > 10000 then 100 else f
    if hpRole s p ≠ 2 ∨ t < d + 1000000 * ms then s else failover (s.atTime t) (otherPort p)

/-- A host link trains at device time `t` (spec 10 R405, R409, R410): `gt64` the rate, `x8` the width; `flit256` says
whether the partner negotiated 256-byte flits. A failover whose expiry has passed by then comes first (R411). -/
def hostLinkUp (s : State) (p : Fin 2) (gt64 x8 flit256 : Bool) (t : Nat) : State :=
  let s := failoverDelay (haTimeout (s.atTime t) t) (t - 1)
  if s.getF (Hdr.ENABLE 10) p 0 = 0 then s
  else if !flit256 then s.recordErr 10 0 p 0x0421 p 0
  else
    let s := s.setHostLink p { trained := true, downSince := none }
    let s := (s.setF Reg.HP_RATE p 0 (1 + b2n gt64)).setF Reg.HP_WIDTH p 0 (1 + b2n x8)
    let s := settleRoles s p
    if p = 0 ∧ hpRole s 0 = 2 ∧ (s.hostLink 1).trained ∧ hpRole s 1 ≠ 2 then setRole s 1 1 else s

/-- A host link goes down (spec 10 R409, R411). The ACTIVE port keeps its role until a failover. -/
def hostLinkDown (s : State) (p : Fin 2) (t : Nat) : State :=
  let s := s.atTime t
  if !(s.hostLink p).trained then s
  else
    let s := (s.setF Reg.HP_RATE p 0 0).setF Reg.HP_WIDTH p 0 0
    let s := s.countF Reg.HP_LINK_DOWNS p 0 1
    if hpRole s p = 2 then s.setHostLink p { trained := false, downSince := some t }
    else setRole (s.setHostLink p { trained := false, downSince := none }) p 0

/-! The export window. An error code of a reply: 1, Unsupported Request. -/

/-- A CXL.mem read of `n` lines at window offset `o` (spec 10 R407, R409, 14 R542, Table 10.10). -/
def windowRead (s : State) (p : Fin 2) (o n : Nat) : State :=
  match s.power.hdm with
  | none => { s with reply := { data := [], err := 1 } }
  | some (base, size) =>
    if hpRole s p ≠ 2 ∨ o % 64 ≠ 0 ∨ o + 64 * n > size then { s with reply := { data := [], err := 1 } }
    else
      let r := dramRead s (base + o) (64 * n)
      { r.1 with reply := { data := r.2.2, err := r.2.1.getD 0 } }

/-- A host write to the window completes, is discarded and counted (spec 10 R407). -/
def windowWrite (s : State) (p : Fin 2) : State :=
  if hpRole s p ≠ 2 ∨ s.power.hdm.isNone then { s with reply := { data := [], err := 1 } }
  else { (s.countF Reg.HP_WINDOW_WRITE_DROPS p 0 1) with reply := { data := [], err := 0 } }

/-- A host snoop is answered with RspIHitI (spec 10 R406); CXL.cache is disabled but on the ACTIVE port (R409). -/
def snoop (s : State) (p : Fin 2) : State := if hpRole s p ≠ 2 then s else s.send (.rspIHitI p)

/-! Kamduelm ports. -/

def State.port (s : State) (p : Fin 8) : Port := s.ports[p]
def State.setPort (s : State) (p : Fin 8) (x : Port) : State := { s with ports := s.ports.set p x }
def State.modPort (s : State) (p : Fin 8) (f : Port → Port) : State := s.setPort p (f (s.port p))
def portState (s : State) (p : Fin 8) : Nat := s.getF Reg.KML_STATE p 0

/-- A port's STATE changes: the EVENT interrupt (spec 14 Table 14.5). -/
def setPortState (s : State) (p : Fin 8) (v : Nat) : State :=
  let changed := portState s p != v
  let s := (s.setF Reg.KML_STATE p 0 v).modPort p (fun x => { x with since := if v = 3 then x.since else s.now })
  if changed then s.raise 4 0 p 1 else s

/-- Does the port carry frames to the peer (spec 10 Table 10.5)? -/
def portUp (s : State) (p : Fin 8) : Bool := portState s p == 4

/-- Index of a class and lane among the buffers of Table 10.4. -/
def credIdx (tc vl : Nat) : Nat :=
  match tc with
  | 0 => 0 | 1 => 1 + vl % 2 | 2 => 3 + vl % 2 | 3 => 5 | 4 => 6 + vl % 2 | _ => 8

/-- Receive buffers, in lines (spec 10 Table 10.4). -/
def fullCredits : List Nat := [16, 256, 256, 1024, 1024, 4096, 4096, 4096, 512]

/-! Frames (spec 10 Table 10.3). -/

structure FrameHead where
  tc : Nat
  vl : Nat
  dst : Nat
  src : Nat
  lines : Nat
  ttl : Nat
  fseq : Nat
  ack : Option Nat
  nak : Bool
  credTc : Nat
  credVl : Nat
  credLines : Nat
  ltype : Nat
  deriving DecidableEq, Repr

/-- A frame's bytes. -/
def frameBytes (h : FrameHead) (payload : List Byte) : List Byte :=
  let b := toLe 8 (h.tc + 8 * h.vl + 2 ^ 8 * h.dst + 2 ^ 20 * h.src + 2 ^ 32 * h.lines + 2 ^ 41 * h.ttl + 2 ^ 48 * h.fseq) ++
    toLe 8 (h.ack.getD 0 + 2 ^ 16 * b2n h.ack.isSome + 2 ^ 17 * b2n h.nak + 2 ^ 18 * h.credTc + 2 ^ 21 * h.credVl +
      2 ^ 22 * h.credLines + 2 ^ 56 * h.ltype) ++ (payload ++ zeros (64 * h.lines - payload.length)).take (64 * h.lines)
  b ++ toLe 4 (crc32c b) ++ zeros 4

def frameHead (b : List Byte) : FrameHead :=
  let w := word64 b 0
  let x := word64 b 1
  { tc := bits w 2 0, vl := bits w 3 3, dst := bits w 19 8, src := bits w 31 20, lines := bits w 40 32, ttl := bits w 47 41,
    fseq := bits w 63 48, ack := if bit x 16 then some (bits x 15 0) else none, nak := bit x 17, credTc := bits x 20 18,
    credVl := bits x 21 21, credLines := bits x 33 22, ltype := bits x 63 56 }

/-- A header with no reserved value and nothing outside its table (spec 10 R415). -/
def frameFormatOk (b : List Byte) : Bool :=
  let h := frameHead b
  decide (h.lines ≤ 258) && b.length == 24 + 64 * h.lines && h.tc != 5 && h.tc != 6 && bits (word64 b 0) 7 4 == 0 &&
    bits (word64 b 1) 55 34 == 0 && (h.vl == 0 || h.tc == 1 || h.tc == 2 || h.tc == 4) &&
    (if h.tc = 7 then decide (h.ltype ≤ 2) else h.ltype == 0) && field b (20 + 64 * h.lines) 4 == 0

def frameCrcOk (b : List Byte) : Bool := field b (b.length - 8) 4 == crc32c (b.take (b.length - 8))

def framePayload (b : List Byte) : List Byte := (b.drop 16).take (b.length - 24)

/-! Sending (spec 10 R416, R417, R419). -/

/-- A sequenced frame goes out: FSEQ, replay buffer, wire. -/
def emitFrame (s : State) (p : Fin 8) (f : Frame) : State :=
  let x := s.port p
  let w0 := word64 f.data 0 % 2 ^ 48 + 2 ^ 48 * x.txSeq
  let body := toLe 8 w0 ++ (f.data.drop 8).take (8 + 64 * f.lines)
  let d := body ++ toLe 4 (crc32c body) ++ zeros 4
  let f := { f with fseq := x.txSeq, data := d }
  (s.setPort p { x with
    txSeq := (x.txSeq + 1) % 65536, replay := x.replay ++ [f], ackAt := if x.replay.isEmpty then s.now else x.ackAt }).send
    (.frame p d)

/-- Does the port hold the credits of a frame? A LINK frame needs none before the grant of IDENT. -/
def hasCredits (x : Port) (f : Frame) : Bool := f.tc == 7 || decide (x.credits.getD (credIdx f.tc f.vl) 0 ≥ f.lines + 1)

/-- Among the frames that wait and hold credits, the next by priority (spec 10 R417). -/
def nextFrame (x : Port) : Option Frame :=
  let ready := x.waiting.filter (hasCredits x)
  let first (tc : Nat) : Option Frame := ready.find? (fun f => f.tc == tc)
  match first 0, first 7, first 1, first 2 with
  | some f, _, _, _ => some f
  | _, some f, _, _ => some f
  | _, _, some f, _ => some f
  | _, _, _, some f => some f
  | _, _, _, _ => match first 3, first 4 with
    | some r, some b => some (if x.redBytes ≤ 3 * x.bulkBytes then r else b)
    | some r, none => some r
    | none, b => b

/-- Remove the first frame equal to `f`. -/
def eraseFrame (f : Frame) : List Frame → List Frame
  | [] => []
  | g :: gs => if g = f then gs else g :: eraseFrame f gs

/-- Room for a frame in the replay buffer of 512 KiB (spec 10 R419). -/
def replayRoom (x : Port) (f : Frame) : Bool := decide (x.replay.foldl (fun n g => n + g.data.length) f.data.length ≤ 524288)

/-- Send what may be sent. -/
def pumpPort : Nat → State → Fin 8 → State
  | 0, s, _ => s
  | fuel + 1, s, p =>
    let x := s.port p
    match (nextFrame x).filter (replayRoom x) with
    | none => s
    | some f =>
      let n := f.data.length
      let both := x.waiting.any (fun g => g.tc == 3 && hasCredits x g) && x.waiting.any (fun g => g.tc == 4 && hasCredits x g)
      let i := credIdx f.tc f.vl
      let s := s.setPort p { x with
        waiting := eraseFrame f x.waiting
        credits := if f.tc = 7 then x.credits else x.credits.set i (x.credits.getD i 0 - (f.lines + 1))
        redBytes := if both then (if f.tc = 3 then x.redBytes + n else x.redBytes) else 0
        bulkBytes := if both then (if f.tc = 4 then x.bulkBytes + n else x.bulkBytes) else 0 }
      pumpPort fuel (emitFrame s p f) p

/-- Give a frame to a port. -/
def sendFrame (s : State) (p : Fin 8) (h : FrameHead) (payload : List Byte) : State :=
  let s := s.modPort p (fun x => { x with
    waiting := x.waiting ++ [{ tc := h.tc, vl := h.vl, fseq := 0, lines := h.lines, data := frameBytes h payload }] })
  pumpPort 1024 s p

/-- A LINK ACK frame: not sequenced, with the last FSEQ accepted in order and the credits of the frame taken. -/
def sendAck (s : State) (p : Fin 8) (dst : Nat) (nak : Bool) (tc vl n : Nat) : State :=
  s.send (.frame p (frameBytes
    { tc := 7, vl := 0, dst := dst, src := ownMember s, lines := 0, ttl := 64, fseq := 0,
      ack := some (((s.port p).rxSeq + 65535) % 65536), nak := nak, credTc := tc, credVl := vl, credLines := n, ltype := 0 } []))

/-- Replay every unacknowledged frame (spec 10 R419). -/
def replayPort (s : State) (p : Fin 8) : State :=
  let x := s.port p
  match x.replay with
  | [] => s
  | f :: _ =>
    let n := if x.lastReplay = some f.fseq then x.replays + 1 else 1
    let s := (s.setPort p { x with lastReplay := some f.fseq, replays := n, ackAt := s.now }).countF Reg.KML_FRAMES_REPLAYED p 0 x.replay.length
    x.replay.foldl (fun s g => s.send (.frame p g.data)) s

/-! Membership (spec 10 R427, Table 10.8). -/

/-- The own state. -/
def ownState (s : State) : Nat :=
  if !(List.finRange 8).any (portUp s) then 0
  else if s.domains.any (fun d => d.group.any (fun g => g.state == .member)) then 2
  else if s.fw.spare then 3 else 1

/-- What a MEMBERSHIP message says of this device. DEDUCED: its layout is the model's (log entry 41). -/
def membershipMsg (s : State) : List Byte :=
  toLe 2 (ownMember s) ++ toLe 1 (ownState s) ++ toLe 1 0 ++ toLe 4 (s.getF Reg.CONFIG_BOOT_COUNT 0 0) ++
    toLe 4 (s.getF Reg.MBX_RUNTIME_ID 0 0) ++ toLe 8 s.fuses.serial

/-- Send it to every reachable device. -/
def sendMembership (s : State) : State :=
  (s.peers.filter (·.state != .unknown)).foldl (fun s p => s.control p.member msgMembership (membershipMsg s)) s

/-- CP3 keeps the own state up to date and announces a change. -/
def updateMembership (s : State) : State :=
  let v := ownState s
  if v = s.getF Reg.SEC_MEMBER_STATE 0 0 then s
  else
    let s := s.setF Reg.SEC_MEMBER_STATE 0 0 v
    if cpUp s 3 then sendMembership s else s

/-- A state as a message announces it; other values are reserved. -/
def memberStateOf (n : Nat) : Option MemberState := match n with
  | 0 => some .unknown | 1 => some .attested | 2 => some .member | 3 => some .spare | _ => none

/-- What CP3 keeps for a device, in order of membership index. -/
def setPeer (s : State) (x : Peer) : State :=
  let lo := s.peers.filter (fun (y : Peer) => decide (y.member < x.member))
  let hi := s.peers.filter (fun (y : Peer) => decide (x.member < y.member))
  { s with peers := lo ++ [x] ++ hi }

/-- A device becomes UNKNOWN: the coordinator of each group it is in treats it as failed (spec 10 R427, 09 R380).
DEDUCED: with cause LINK (log entry 42). -/
def deviceLost (s : State) (member : Nat) : State :=
  (s.domains.map (·.id)).foldl (fun s id => match s.group? id with
    | some g => failMembers s id ((List.range g.size).filter (fun p => g.memberAt p == some member && p != g.position)) 2
    | none => s) s

/-- The same, with what the fabric shows of the spares. -/
def peerLost (s : State) (member : Nat) (fit : List Nat) : State :=
  deviceLost ((s.domains.map (·.id)).foldl (fun s id => noteFit s id fit) s) member

/-- A MEMBERSHIP message arrives (spec 10 R427): a BOOT_COUNT other than the one last known makes the device UNKNOWN. One with a
reserved state is refused (spec 00 R18). -/
def membership (s : State) (member state boot serial runtime t : Nat) (fit : List Nat) : State :=
  let s := s.atTime t
  match memberStateOf state with
  | none => s
  | some v =>
    if !cpUp s 3 ∨ member = ownMember s then s
    else
      match s.peers.find? (·.member == member) with
      | some p =>
        if p.boot ≠ boot then
          peerLost (setPeer s { member := member, state := .unknown, boot := boot, serial := serial, runtime := runtime, fit := [] }) member fit
        else setPeer s { member := member, state := v, boot := boot, serial := serial, runtime := runtime, fit := p.fit }
      | none => setPeer s { member := member, state := v, boot := boot, serial := serial, runtime := runtime, fit := [] }

/-- A ring port to a peer went down: reported to the coordinator of each group of both devices (spec 09 Table 9.8). -/
def reportLink (s : State) (member : Nat) : State :=
  (s.domains.map (·.id)).foldl (fun s id => match s.group? id with
    | some g => match (List.range g.size).find? (fun q => g.memberAt q == some member && q != g.position) with
      | some q =>
        if g.state ≠ .member ∨ !cpUp s 3 then s
        else if g.isCoord then failMembers s id [max g.position q] 2 else sendPos s g g.coord msgLink (toLe 4 id ++ toLe 4 g.position ++ toLe 4 q)
      | none => s
    | none => s) s

/-! Routes (spec 10 R420 to R422, R428). DESIGN CHOICE: CP3 knows the place of a device in the fabric from a plan that names it, and its
neighbours by their ports; it goes round a ring the shorter way, the ascending one of two alike (log entry 121). -/

/-- The direction ports of Table 10.9: of dimension 0 or 1, ascending or descending. -/
def dirPorts (torus : Bool) (dim : Nat) (up : Bool) : List Nat :=
  if !torus then (if dim = 0 then (if up then [0, 1, 2, 3] else [4, 5, 6, 7]) else [])
  else if dim = 0 then (if up then [0, 1] else [2, 3]) else if up then [4, 5] else [6, 7]

/-- The dimension that a port runs along. -/
def portDim (torus : Bool) (p : Nat) : Nat := if torus && decide (4 ≤ p) then 1 else 0

/-- Does a hop along a dimension of `n` devices cross its wrap link, between the highest index and 0? -/
def wrapHop (n a : Nat) (up : Bool) : Bool := if up then a + 1 == n else a == 0

/-- The hop from index `a` to `b` of a dimension: its port, and whether it crosses the wrap link. -/
def dimHop (s : State) (dim n a b : Nat) : Option (Nat × Bool) :=
  let fwd := (b + n - a) % n
  let first := decide (2 * fwd ≤ n)
  let pick (up : Bool) : Option (Nat × Bool) :=
    ((dirPorts s.torusFabric dim up).find? (fun p => (List.finRange 8).any (fun q => q.val == p && portUp s q))).map (fun p => (p, wrapHop n a up))
  (pick first).or (pick !first)

/-- The route to plan position `q`: first along x, then along y. -/
def planRoute (s : State) (g : Group) (q : Nat) : Option Route :=
  let x := if g.plan.torus then max 1 g.plan.x else max 1 g.size
  let own := g.position
  let hop := if own % x ≠ q % x then dimHop s 0 x (own % x) (q % x) else dimHop s 1 (g.size / x) (own / x) (q / x)
  match g.memberAt q, hop with
  | some m, some (p, w) => some ⟨m, p, b2n w⟩
  | _, _ => none

/-- CP3 forms routes anew, but for those it keeps: in dimension order to the members of its plans, and to the neighbours. -/
def reroute (s : State) (keep : Route → Bool) : State :=
  let planned := s.domains.flatMap (fun (d : Domain) => match d.group with
    | some g => if g.size < 2 || g.state != .member then []
      else ((List.range g.size).filter (· != g.position)).filterMap (planRoute s g)
    | none => [])
  let near := ((List.finRange 8).filter (portUp s)).map (fun (p : Fin 8) => (⟨s.getF Reg.KML_PEER_MEMBER p.val 0, p.val, 0⟩ : Route))
  { s with routes := (planned ++ near).foldl (fun (rs : List Route) r => if rs.any (·.member == r.member) then rs else rs ++ [r]) (s.routes.filter keep) }

/-- At the step boundary of every group CP3 may change any route (spec 10 R422). -/
def rerouteIdle (s : State) : State :=
  if cpUp s 3 && s.domains.all (fun (d : Domain) => d.group.isNone || d.run.isNone) then reroute s (fun _ => false) else s

/-- A port to `peer` that was UP no longer is: the routes over it change at once, the coordinators hear of the link, and devices that no
route reaches any more become UNKNOWN (spec 10 R422, R427). -/
def linkLost (s : State) (p : Fin 8) (peer : Nat) : State :=
  let had := s.routes
  let s := reroute s (fun r => r.port != p.val)
  let lost := (s.peers.filter (fun x => x.state != .unknown && had.any (·.member == x.member) && !s.routes.any (·.member == x.member))).map (·.member)
  let s := { s with peers := s.peers.map (fun x => if lost.contains x.member then { x with state := .unknown } else x) }
  updateMembership (lost.foldl deviceLost (reportLink s peer))

/-! Failures of a port (spec 10 R423, R419, R422). -/

/-- The port fails with an error: its frames are lost, its backoff begins, routes through it change at once. -/
def portFail (s : State) (p : Fin 8) (code : Nat) : State :=
  let x := s.port p
  let wasUp := portUp s p
  let peer := s.getF Reg.KML_PEER_MEMBER p 0
  let long := wasUp && decide (x.since + 60000000000 ≤ s.now)
  let b := if long ∨ x.backoff = 0 then 1 else min 64 (2 * x.backoff)
  let s := s.recordErr 4 0 p code p peer
  let s := s.setPort p { x with
    backoff := b, txSeq := 0, rxSeq := 0, replay := [], waiting := [], credits := List.replicate 9 0, lastReplay := none,
    replays := 0, nakSent := false, badAt := [], identSent := [], identGot := [] }
  let s := setPortState s p 5
  if wasUp then linkLost s p peer
  else s

/-- A port that firmware enables trains; ENABLE = 0 disables it (spec 10 Table 10.5, 14 R550). -/
def portEnable (s : State) (p : Fin 8) (on : Bool) : State :=
  if on then (if portState s p = 0 then setPortState s p 1 else s)
  else if portState s p = 0 then s
  else
    let wasUp := portUp s p
    let peer := s.getF Reg.KML_PEER_MEMBER p 0
    let s := setPortState (s.modPort p (fun _ => Port.reset)) p 0
    if wasUp then linkLost s p peer else s

/-- The life-cycle state (spec 13 R520; encoding of spec 10 Table 10.6). -/
def lcState (s : State) : Nat :=
  if s.fuses.decom then 3 else if !s.fuses.owned then 0 else if s.fuses.toggles % 2 = 1 then 2 else 1

/-- The security area of FA. DESIGN CHOICE: BOOT_COUNT at bytes 0–3, then the owner's Ed25519 key, ML-DSA-65 key and the two
certificate signatures (log entry 44). -/
def secArea (s : State) : List Byte := (s.flash[0]).security
def ownerKey (s : State) (scheme : Nat) : List Byte := if scheme = 0 then ((secArea s).drop 4).take 32 else ((secArea s).drop 36).take 1952
def ownerCert (s : State) (scheme : Nat) : List Byte := if scheme = 0 then ((secArea s).drop 1988).take 64 else ((secArea s).drop 2052).take 3309

/-- OWNER_TAG (spec 11 R452); 0 in MANUFACTURE (spec 14 Table 14.9) and where no owner key is stored. -/
def ownerTag (s : State) : Nat :=
  if lcState s = 0 ∨ (ownerKey s 0).isEmpty then 0 else field (sha384 (ownerKey s 0 ++ ownerKey s 1)) 0 8

/-- The own IDENT payload on a port (spec 10 Table 10.6). Its NONCE is random: free bytes. -/
def identBytes (s : State) (p : Fin 8) : List Byte :=
  toLe 8 s.fuses.serial ++ toLe 2 (ownMember s) ++ toLe 1 p ++ toLe 1 (lcState s) ++ toLe 4 (s.getF Reg.CONFIG_BOOT_COUNT 0 0) ++
    toLe 4 (s.getF Reg.MBX_RUNTIME_ID 0 0) ++ toLe 8 (ownerTag s) ++ (List.range 16).map (fun k => Config.freeByte s.free k) ++ zeros 20

/-- The member that a LINK frame on a port names as its destination: the link map's entry, or, with none, a value that
the spec does not state. -/
def linkPeer (s : State) (p : Fin 8) : Nat :=
  if s.flag Reg.KML_MAP_VALID p 0 then s.getF Reg.KML_MAP_MEMBER p 0 else Config.freeNat s.free % 4096

/-- PCS and FEC lock: the port enters IDENT and sends its IDENT frame (spec 10 R423, R424). A lock at or before 500 ms is
in time. -/
def linkLock (s : State) (p : Fin 8) (t : Nat) : State :=
  if portState s p ≠ 1 ∨ t > (s.port p).since + 500000000 ∨ !s.power.cages[p] then s
  else
    let s := setPortState (s.atTime t) p 2
    let b := identBytes s p
    let dst := linkPeer s p
    let s := (s.modPort p (fun x => { x with identSent := b })).useFree
    sendFrame s p { tc := 7, vl := 0, dst := dst, src := ownMember s, lines := 1, ttl := 64, fseq := 0, ack := none, nak := false,
                    credTc := 0, credVl := 0, credLines := 0, ltype := 1 } b

def trainingTimeout (s : State) (p : Fin 8) (t : Nat) : State :=
  if portState s p ≠ 1 ∨ t < (s.port p).since + 500000000 then s else portFail (s.atTime t) p 0x0401

def attestTimeout (s : State) (p : Fin 8) (t : Nat) : State :=
  if portState s p ≠ 3 ∨ t < (s.port p).since + 2000000000 then s else portFail (s.atTime t) p 0x0407

def backoffExpiry (s : State) (p : Fin 8) (t : Nat) : State :=
  if portState s p ≠ 5 ∨ t < (s.port p).since + 1000000000 * (s.port p).backoff then s else setPortState (s.atTime t) p 1

/-! Receiving (spec 10 R415 to R420). -/

/-- Acknowledged frames leave the replay buffer. -/
def ackFrames (s : State) (p : Fin 8) (a : Nat) : State :=
  s.modPort p (fun x =>
    let rest := x.replay.filter (fun f => decide ((a + 65536 - f.fseq) % 65536 ≥ 32768))
    if rest.length < x.replay.length then { x with replay := rest, ackAt := s.now, lastReplay := none, replays := 0 } else x)

/-- What a good frame's header says of the other direction: acknowledgement, credits, NAK. -/
def takeReturn (s : State) (p : Fin 8) (h : FrameHead) : State :=
  let s := match h.ack with
    | some a => ackFrames s p a
    | none => s
  let s := if h.credLines = 0 then s else s.modPort p (fun x =>
    let i := credIdx h.credTc h.credVl
    { x with credits := x.credits.set i (min (fullCredits.getD i 0) (x.credits.getD i 0 + h.credLines)) })
  let s := if h.nak then replayPort s p else s
  let s := if (s.port p).replays ≥ 8 then portFail s p 0x0408 else s
  if portState s p ≥ 2 ∧ portState s p ≤ 4 then pumpPort 1024 s p else s

/-- One NAK for the expected FSEQ. -/
def nakOnce (s : State) (p : Fin 8) (dst : Nat) : State :=
  if (s.port p).nakSent then s
  else sendAck (s.modPort p (fun x => { x with nakSent := true })) p dst true 0 0 0

/-- 4 µs without an acknowledgement: the port replays (spec 10 R419). -/
def replayTimeout (s : State) (p : Fin 8) (t : Nat) : State :=
  let x := s.port p
  if x.replay.isEmpty ∨ t < x.ackAt + 4000 ∨ portState s p < 2 ∨ portState s p > 4 then s
  else
    let s := replayPort (s.atTime t) p
    if (s.port p).replays ≥ 8 then portFail s p 0x0408 else s

/-- A frame reaches a port: the header of one that is accepted for this port's layer above. DESIGN CHOICE: the
acknowledgement and the returned credits go out at once (log entry 43). A replay that is due before the frame comes first (spec 13
R534). -/
def receive (s : State) (f : RxFrame) : State × Option FrameHead :=
  let p := f.port
  let s := (replayTimeout s p (f.time - 1)).atTime f.time
  let st := portState s p
  let h := frameHead f.bytes
  if s.getF (Hdr.ENABLE 4) p 0 = 0 ∨ st < 2 ∨ st > 4 then (s, none)
  else if !frameFormatOk f.bytes then (nakOnce (s.countF Reg.KML_FORMAT_DROPS p 0 1) p (linkPeer s p), none)
  else if !frameCrcOk f.bytes ∨ f.fecBad then (nakOnce s p h.src, none)
  else
    let s := takeReturn s p h
    if portState s p < 2 ∨ portState s p > 4 ∨ (h.tc = 7 ∧ h.ltype = 0) then (s, none)
    else
      let x := s.port p
      let ahead := (h.fseq + 65536 - x.rxSeq) % 65536
      if ahead = 0 then
        let s := s.setPort p { x with rxSeq := (x.rxSeq + 1) % 65536, nakSent := false }
        (sendAck s p h.src false h.tc h.vl (if h.tc = 7 then 0 else h.lines + 1), if st ≠ 4 ∧ h.tc ≠ 7 then none else some h)
      else if ahead ≥ 32768 then (sendAck s p h.src false 0 0 0, none)
      else (nakOnce s p h.src, none)

/-- A frame for another device: forwarded by the route with TTL lowered by one, or dropped and counted (spec 10 R420). It moves to VL 1
on a wrap link, and returns to VL 0 when it turns into y (R421). -/
def forward (s : State) (f : RxFrame) (h : FrameHead) : State :=
  match s.routes.find? (fun r => r.member == h.dst) with
  | none => s.countF Reg.KML_ROUTE_DROPS f.port 0 1
  | some r =>
    if h.ttl = 0 then s.countF Reg.KML_ROUTE_DROPS f.port 0 1
    else
      let q : Fin 8 := ⟨r.port % 8, Nat.mod_lt _ (by decide)⟩
      if !portUp s q then s.countF Reg.KML_ROUTE_DROPS f.port 0 1
      else sendFrame s q { h with vl := (if portDim s.torusFabric f.port = 0 ∧ portDim s.torusFabric r.port = 1 then r.vl % 2 else max h.vl (r.vl % 2)), ttl := h.ttl - 1, ack := none, nak := false, credTc := 0, credVl := 0, credLines := 0 }
        (framePayload f.bytes)

/-- Receive a frame of one class and give it to `go` if it is for this device. -/
def classFrame (s : State) (f : RxFrame) (tc : Nat) (go : State → FrameHead → List Byte → State) : State :=
  if (frameHead f.bytes).tc ≠ tc then s
  else
    let x := receive s f
    let s := x.1
    match x.2 with
    | none => s
    | some h =>
      if h.dst = ownMember s then go s h (framePayload f.bytes)
      else if tc = 1 ∨ tc = 2 ∨ tc = 4 then forward s f h
      else s.countF Reg.KML_ROUTE_DROPS f.port 0 1

/-- An ACK: of a LINK frame, or piggybacked on a frame of any class (spec 10 R418). -/
def ackCommand (s : State) (f : RxFrame) : State := (receive s f).1

/-- An uncorrectable codeword; more than 16 within 1 ms fail the port (spec 10 R419). -/
def fecUncorrectable (s : State) (p : Fin 8) (t : Nat) : State :=
  let s := (s.atTime t).countF Reg.KML_FEC_UNCORRECTABLE p 0 1
  let ts := ((s.port p).badAt.filter (fun u => decide (t < u + 1000000))) ++ [t]
  let s := s.modPort p (fun x => { x with badAt := ts })
  if ts.length > 16 ∧ portState s p ≥ 1 ∧ portState s p ≤ 4 then portFail s p 0x0409 else s

/-! Identity and attestation (spec 10 R424 to R426). -/

/-- The first failing check of Table 10.7. -/
def identCheck (s : State) (p : Fin 8) (b : List Byte) : Option Nat :=
  let m := field b 8 2
  if m ≥ 4096 ∨ field b 10 1 ≥ 8 ∨ field b 11 1 ≥ 4 ∨ field b 44 20 ≠ 0 then some 0x0402
  else if field b 11 1 ≠ 1 ∨ lcState s ≠ 1 ∨ field b 20 8 ≠ ownerTag s then some 0x0403
  else if m = ownMember s ∨ s.peers.any (fun x => x.member == m && x.state != .unknown && x.serial != field b 0 8) then some 0x0404
  else if s.flag Reg.KML_MAP_VALID p 0 ∧ (s.getF Reg.KML_MAP_MEMBER p 0 ≠ m ∨ s.getF Reg.KML_MAP_PORT p 0 ≠ field b 10 1) then some 0x0405
  else none

/-- Bytes of a public key of this device. -/
def deviceKeyBytes (scheme : Nat) : List Byte := (List.range (if scheme = 0 then 32 else 1952)).map (Config.deviceKey scheme)
def signBytes (scheme : Nat) (m : List Byte) : List Byte := (List.range (if scheme = 0 then 64 else 3309)).map (Config.sign scheme m)

def runtimeImage (s : State) : List Byte := (s.fw.slots[s.fw.inForce % 2]'(Nat.mod_lt _ (by decide))).image

/-- The attestation report over a nonce (spec 11 Table 11.5). -/
def report (s : State) (nonce : List Byte) : List Byte :=
  let img := if s.getF Reg.MBX_RUNTIME_ID 0 0 = 0 then [] else runtimeImage s
  toLe 2 0xA77E ++ toLe 1 1 ++ toLe 1 (lcState s) ++ toLe 2 (ownMember s) ++ toLe 2 0 ++ toLe 8 s.fuses.serial ++
    toLe 4 (s.getF Reg.CONFIG_BOOT_COUNT 0 0) ++ toLe 4 (s.getF Reg.MBX_RUNTIME_ID 0 0) ++ toLe 4 (s.getF Reg.MBX_STAGE1_ID 0 0) ++
    toLe 4 s.fuses.minSvn ++ (nonce ++ zeros 16).take 16 ++ toLe 8 (ownerTag s) ++ toLe 8 s.now ++
    (if img.isEmpty then zeros 48 else sha384 (img.take 256)) ++ zeros 16

/-- The ATTEST payload (spec 11 Table 11.6). -/
def attestPayload (s : State) (nonce : List Byte) : List Byte :=
  let r := report s nonce
  let pad (n : Nat) (d : List Byte) : List Byte := (d ++ zeros n).take n
  r ++ signBytes 0 r ++ signBytes 1 r ++ zeros 19 ++ deviceKeyBytes 0 ++ deviceKeyBytes 1 ++ pad 64 (ownerCert s 0) ++
    pad 3309 (ownerCert s 1) ++ zeros 19

/-- Does a received payload verify: all four signatures, and every covered field equal to the peer's IDENT over this
port's NONCE (spec 10 R426, spec 11 R454)? -/
def attestOk (s : State) (x : Port) (b : List Byte) : Bool :=
  let r := b.take 128
  let sub (a n : Nat) : List Byte := (b.drop a).take n
  let i := x.identGot
  let signed := sub 3520 1984 ++ sub 8 8
  b.length == 8896 && field r 0 2 == 0xA77E && field r 2 1 == 1 && field r 3 1 == field i 11 1 && field r 4 2 == field i 8 2 &&
    field r 8 8 == field i 0 8 && field r 16 4 == field i 12 4 && field r 20 4 == field i 16 4 && sub 32 16 == (x.identSent.drop 28).take 16 &&
    Config.sigOk 0 (sub 3520 32) r (sub 128 64) && Config.sigOk 1 (sub 3552 1952) r (sub 192 3309) &&
    Config.sigOk 0 (ownerKey s 0) signed (sub 5504 64) && Config.sigOk 1 (ownerKey s 1) signed (sub 5568 3309)

/-- Before the own MEMBER is known to the peer, and on each hop, a LINK frame for another member is dropped (R420). -/
def linkFrame (s : State) (f : RxFrame) (ltype : Nat) (go : State → List Byte → State) : State :=
  classFrame s f 7 (fun s h d => if h.ltype = ltype then go s d else s)

/-- An IDENT frame (spec 10 R425): in IDENT it is checked, and the port goes on to ATTESTING with its ATTEST frame; on a
port that is UP, a new BOOT_COUNT fails the port (Table 10.5). DEDUCED: that the peer accepted the own IDENT is not
waited for (log entry 45). -/
def identFrame (s : State) (f : RxFrame) : State :=
  linkFrame s f 1 (fun s b =>
    let p := f.port
    if portState s p = 4 then
      (if field b 12 4 ≠ s.getF Reg.KML_PEER_BOOT_COUNT p 0 then portFail s p 0x0402 else s)
    else if portState s p ≠ 2 then s
    else
      let s := ((s.setF Reg.KML_PEER_MEMBER p 0 (field b 8 2)).setF Reg.KML_PEER_PORT p 0 (field b 10 1)).setF Reg.KML_PEER_SERIAL p 0 (field b 0 8)
      let s := s.setF Reg.KML_PEER_BOOT_COUNT p 0 (field b 12 4)
      match identCheck s p b with
      | some c => portFail s p c
      | none =>
        let s := s.modPort p (fun x => { x with identGot := b, credits := fullCredits })
        let s := setPortState s p 3
        sendFrame s p { tc := 7, vl := 0, dst := field b 8 2, src := ownMember s, lines := 139, ttl := 64, fseq := 0, ack := none,
                        nak := false, credTc := 0, credVl := 0, credLines := 0, ltype := 2 } (attestPayload s ((b.drop 28).take 16)))

/-- An ATTEST frame (spec 10 R426): the port goes UP, or fails. One after the 2 s is too late (R423). -/
def attestFrame (s : State) (f : RxFrame) : State :=
  linkFrame s f 2 (fun s b =>
    let p := f.port
    if portState s p ≠ 3 then s
    else if (s.port p).since + 2000000000 < f.time then portFail s p 0x0407
    else if !attestOk s (s.port p) b then portFail s p 0x0406
    else
      let i := (s.port p).identGot
      let m := field i 8 2
      let s := (setPortState s p 4).countF Reg.KML_UP_COUNT p 0 1
      let fit := ((s.peers.find? (·.member == m)).map (·.fit)).getD []
      let s := setPeer s { member := m, state := .attested, boot := field i 12 4, serial := field i 0 8, runtime := field i 16 4, fit := fit }
      let s := updateMembership (reroute s (fun _ => true))
      if cpUp s 3 then sendMembership s else s)

/-! What the classes deliver. -/

/-- A CONTROL frame (spec 10 R420): a step report, group table or FAIL record is handed to the group; a report of a TIMEOUT
or of a second FAULT (`told`: their layout is not stated) to the coordinator; anything else waits in the inbox. -/
def controlFrame (s : State) (f : RxFrame) (told : Option Told) (fit : List Nat) : State :=
  classFrame s f 1 (fun s h d =>
    if field d 0 2 = 0x9E51 then
      let k := bits (field d 2 2) 3 0
      if k = 1 then reportArrives s (d.take 128) fit f.time
      else
        let n := 64 + 16 * (headT d).m + 16 * bits (field d 16 8) 47 32
        tableArrives s (k == 3) (d.take n) f.time
    else match told with
      | some (.timeout id m) => reportTimeout (noteFit s id fit) id m
      | some (.fault id pos) => failMembers (noteFit s id fit) id [pos] 4
      | none => { s with inbox := s.inbox ++ [(h.src, d)] })

/-- A DOOR frame (spec 10 R422). -/
def doorFrame (s : State) (f : RxFrame) (x : DoorItem) (cyc : Nat) : State :=
  classFrame s f 2 (fun s _ _ => match x with
    | .message l d m => match s.physical l.val with
      | some i => messageArrival s i d (.remote m) f.time cyc
      | none => s
    | .credits l m rt rd n => match s.physical l.val with
      | some i => creditReturn s i (.remote m rt rd n) cyc
      | none => s)

/-- Does a chunk come on the port, and from the member, that its channel's registers name (spec 08 R329, R336)? A GRANT comes from the
downstream member. DEDUCED: any other is dropped (log entry 122). -/
def chunkFrom (s : State) (p src : Nat) (d : List Byte) : Bool :=
  let h := headOf d
  if !headGood d then true
  else if h.kind = 7 then chF s Reg.CH_TX_PORT h.chan == p && chF s Reg.CH_NEXT_MEMBER h.chan == src
  else chF s Reg.CH_RX_PORT h.chan == p && chF s Reg.CH_PREV_MEMBER h.chan == src

/-- A REDUCTION frame carries one chunk from one hop (spec 10 R415, R420). -/
def reductionFrame (s : State) (f : RxFrame) : State :=
  classFrame s f 3 (fun s h d => if chunkFrom s f.port h.src d then chunkArrives s (headOf d).chan d f.time else s)

/-- A BULK frame carries a clone or export unit. -/
def bulkFrame (s : State) (f : RxFrame) : State :=
  classFrame s f 4 (fun s h d => { s with inbox := s.inbox ++ [(h.src, d)] })

/-! The timebase (spec 10 R429 to R431, spec 14 Table 14.10). -/

/-- A TIMEBASE frame is received: its hardware timestamp is kept for the exchange. -/
def timebaseFrame (s : State) (f : RxFrame) (stamp : Nat) : State :=
  classFrame s f 0 (fun s _ _ => { s with timeSt := { s.timeSt with
    stamps := s.timeSt.stamps.filter (fun (x : Nat × Nat) => x.1 != f.port.val) ++ [(f.port.val, stamp)] } })

/-- A signed number in `n` bits. -/
def toSigned (n : Nat) (x : Int) : Nat := (x % (2 ^ n : Nat)).toNat

/-- One step of the time base forward, before it is first synchronised (spec 10 R430). -/
def stepTime (s : State) (ns : Nat) : State := { (s.wrapF Reg.TB_STEPS 0 0 1) with now := s.now + ns }

/-- The reachable device with the lowest membership index, counting the device itself: the grandmaster (spec 10 R429). -/
def grandmaster (s : State) : Nat := (s.peers.filter (fun p => p.state != .unknown)).foldl (fun n p => min n p.member) (ownMember s)

/-- The exchange of every 1 ms: the parent and the grandmaster as they stand, and the four timestamps in units of
1/16 ns. The first synchronisation after a start may step device time forward; later ones correct the rate, by an amount
within ±200 ppm that the spec does not state. A parent counts on a port that is UP, for the grandmaster that this device knows. -/
def timebaseExchange (s : State) (par : Option (Fin 8 × Nat × Nat)) (t1 t2 t3 t4 t : Nat) : State :=
  let s := s.atTime t
  let own := ownMember s
  match par.filter (fun x => portUp s x.1 && x.2.2 == grandmaster s) with
  | none =>
    let had := s.flag Reg.TB_PARENT_VALID 0 0
    let gm := s.getF Reg.TB_GM_MEMBER 0 0
    let alone := grandmaster s == own
    let s := (s.setF Reg.TB_PARENT_VALID 0 0 0).setF Reg.TB_HOPS 0 0 0
    let s := if had then (s.countF Reg.TB_PARENT_CHANGES 0 0 1).raise 12 0 0 1 else s
    let s := if alone ∧ gm ≠ own then ((s.setF Reg.TB_GM_MEMBER 0 0 own).countF Reg.TB_GM_CHANGES 0 0 1).raise 12 0 0 2 else s
    let up := (List.finRange 8).any (portUp s)
    let s := if s.getF Reg.TB_SYNC_STATE 0 0 = 3 ∧ !(up && alone) then s else s.setF Reg.TB_SYNC_STATE 0 0 (if up && alone then 0 else 2)
    { s with timeSt := { s.timeSt with parentLostAt := if up && alone then none else some (s.timeSt.parentLostAt.getD t) } }
  | some (p, hops, gm) =>
    let changed := !s.flag Reg.TB_PARENT_VALID 0 0 || s.getF Reg.TB_PARENT_PORT 0 0 != p.val
    let s := if changed then (s.countF Reg.TB_PARENT_CHANGES 0 0 1).raise 12 0 0 1 else s
    let s := if s.getF Reg.TB_GM_MEMBER 0 0 ≠ gm then (s.countF Reg.TB_GM_CHANGES 0 0 1).raise 12 0 0 2 else s
    let s := (((s.setF Reg.TB_PARENT_VALID 0 0 1).setF Reg.TB_PARENT_PORT 0 0 p).setF Reg.TB_HOPS 0 0 (min 64 hops)).setF Reg.TB_GM_MEMBER 0 0 gm
    let off : Int := (((t2 : Int) - t1) - ((t4 : Int) - t3)) / 2
    let off := max (-(2 ^ 31 : Int)) (min (2 ^ 31 - 1) off)
    let s := (s.setF Reg.TB_OFFSET 0 0 (toSigned 32 off)).setF Reg.TB_SYNC_STATE 0 0 1
    let running := s.tiles.toList.any Tile.active
    let ns := (off / 16).toNat
    let s :=
      if !s.timeSt.synced ∧ !running then
        if off ≥ 16 then stepTime s ns else s
      else (s.setF Reg.TB_RATE_ADJ 0 0 (toSigned 32 ((Config.freeNat s.free % 400001 : Nat) - 200000))).useFree
    { (s.setF Reg.TB_LAST_SYNC 0 0 s.now) with timeSt := { s.timeSt with synced := true, parentLostAt := none } }

/-- A device with no parent for 1 s reports TIME_UNSYNC (spec 10 R431, 14 R562). -/
def timeUnsync (s : State) (t : Nat) : State :=
  match s.timeSt.parentLostAt with
  | none => s
  | some l =>
    if t < l + 1000000000 ∨ s.getF Reg.TB_SYNC_STATE 0 0 = 3 then s
    else
      let s := s.atTime t
      (s.recordErr 12 0 0 0x040A (min 0xFFFFFFFF ((t - s.getF Reg.TB_LAST_SYNC 0 0) / 1000000)) 0).setF Reg.TB_SYNC_STATE 0 0 3

/-! DRAM accesses (spec 10 R433, R438 to R440). -/

def State.modDimm (s : State) (c : Fin 24) (f : DimmState → DimmState) : State := { s with dimms := s.dimms.set c (f s.dimms[c]) }

/-- The channel of an address, as an index of the channel array. -/
def chanFin (s : State) (a : Nat) : Fin 24 := ⟨chanOf s a % 24, Nat.mod_lt _ (by decide)⟩

/-- Errors that an access meets: a line with one failed ×4 device is correctable, with two uncorrectable. More than 1,024
corrections on one device within 24 h retire the channel at the next start (spec 10 R433, R440). A channel whose PMIC
has faulted reads uncorrectable (spec 12 R490). -/
def meetHits (s : State) (hits : List DramHit) : State :=
  hits.foldl (fun s h =>
    let l := h.line - h.line % 64
    let c := chanFin s l
    if h.double then { s with dramUe := if s.dramUe.contains l then s.dramUe else s.dramUe ++ [l] }
    else
      let ts := (s.dimms[c].corrections.filter (fun (x : Nat × Nat) => decide (s.now < x.2 + 86400000000000))) ++ [(h.dev, s.now)]
      let s := s.modDimm c (fun d => { d with corrections := ts })
      let s := { s with dramCe := if s.dramCe.contains l then s.dramCe else s.dramCe ++ [l] }
      if (ts.filter (fun x => x.1 == h.dev)).length > 1024 then retirePending (s.recordErr 5 0 c 0x0505 c (l % 2 ^ 32)) c 5 else s) s

/-- The lines of a range on channels whose PMIC has faulted are uncorrectable. -/
def pmicLines (s : State) (a n : Nat) : State :=
  let bad := (dramLines a n).filter (fun l => s.dimms[chanFin s l].pmic && !s.dramUe.contains l)
  { s with dramUe := s.dramUe ++ bad }

/-- A read of DRAM by line: corrected data, or an error to its master. -/
def dramReadCommand (s : State) (a n : Nat) (hits : List DramHit) : State :=
  let s := pmicLines (meetHits s hits) a n
  let r := dramRead s a n
  { r.1 with reply := { data := r.2.2, err := r.2.1.getD 0 } }

/-- A whole-line or read-modify-write write. -/
def dramWriteCommand (s : State) (a : Nat) (d : List Byte) (hits : List DramHit) : State :=
  let r := dramWrite (meetHits s hits) a d
  { r.1 with reply := { data := [], err := r.2.getD 0 } }

/-- Lines of one channel. -/
abbrev chanLines : Nat := 1125000000

/-- The device address of line `k` of a channel in service (spec 10 R434). -/
def chanAddr (s : State) (c : Fin 24) (k : Nat) : Nat :=
  let cs := chansInService s
  let r := (cs.findIdx? (· == c.val)).getD 0
  let o := 64 * k
  ((o / 4096) * cs.length + r) * 4096 + o % 4096

/-- Patrol scrub reads the channel's next line (spec 10 R438). -/
def patrolScrub (s : State) (c : Fin 24) (hits : List DramHit) (t : Nat) : State :=
  let s := s.atTime t
  if !chanInService s c then s
  else
    let k := s.dimms[c].patrolAt
    let a := chanAddr s c k
    let s := pmicLines (meetHits s (hits.filter (fun h => h.line - h.line % 64 == a))) a 64
    let s :=
      if s.dramUe.contains a then
        let s := (s.countF Reg.DDR_UE_COUNT c 0 1).setF Reg.DDR_LAST_UE_ADDR c 0 a
        retirePending (s.recordErr 5 0 c 0x0504 c (a % 2 ^ 32)) c 4
      else if s.dramCe.contains a then
        ({ s with dramCe := s.dramCe.filter (· != a) }).countF Reg.DDR_CE_COUNT c 0 1
      else s
    if k + 1 ≥ chanLines then (s.countF Reg.DDR_SCRUB_PASSES c 0 1).modDimm c (fun d => { d with patrolAt := 0 })
    else s.modDimm c (fun d => { d with patrolAt := k + 1 })

end Sys2Proof.Machine
end

