-- ==== Sys2Proof/Machine/ImageOps.lean ====
section
/-! DEFINITION. Firmware images and their checks (spec 11 R444 to R448, Tables 11.2, 11.3), the two flash parts, and the
configuration block (spec 13 R524, R525). -/

namespace Sys2Proof.Machine

set_option Elab.async false

/-! Image header fields (spec 11 Table 11.2). -/

def imgKind (i : List Byte) : Nat := field i 5 1
def imgKeySet (i : List Byte) : Nat := bits (field i 7 1) 1 0
def imgId (i : List Byte) : Nat := field i 8 4
def imgSvn (i : List Byte) : Nat := field i 16 4
def imgBodyLen (i : List Byte) : Nat := field i 20 4
def imgVerMin (i : List Byte) : Nat := field i 24 2
def imgVerMax (i : List Byte) : Nat := field i 26 2
def imgFmtLo (i : List Byte) : Nat := field i 28 2
def imgFmtHi (i : List Byte) : Nat := field i 30 2
def imgBody (i : List Byte) : List Byte := (i.drop 4096).take (imgBodyLen i)

/-- Bytes of a slot for images of a kind (spec 11 R443, Table 11.4). -/
def slotSize (kind : Nat) : Nat := if kind = 1 then 0x400000 else 0x1000000

/-- Bytes of a vendor public key. -/
def vendorKeyBytes (set scheme : Nat) : List Byte :=
  (List.range (if scheme = 0 then 32 else 1952)).map (Config.vendorKey set scheme)

/-- No reserved value in the header, and the zero bytes of the signature block. A stage 1 has the mailbox version 0x0100, no
handover format, the section of CP0 alone, and no update programs (spec 11 Table 11.2). -/
def imageReservedOk (kind : Nat) (i : List Byte) : Bool :=
  field i 6 1 < 8 && field i 7 1 < 4 && field i 112 144 == 0 && field i 3629 467 == 0 &&
    (kind != 1 || (field i 24 4 == 0x01000100 && field i 28 4 == 0 && field i 88 24 == 0))

/-- The first failing check of Table 11.3: its error code and ERR_INFO0. `place` is the slot or flash part. -/
def imageCheck (s : State) (kind place : Nat) (i : List Byte) : Option (Nat × Nat) :=
  if field i 0 4 ≠ 0x6E3BA7D1 ∨ field i 4 1 ≠ 1 ∨ imgKind i ≠ kind ∨ !imageReservedOk kind i ∨ imgBodyLen i % 64 ≠ 0 ∨
      imgBodyLen i > slotSize kind - 4096 then some (0x0601, place)
  else if !bit (field i 6 1) s.fuses.stepping then some (0x0602, place)
  else if bit s.fuses.revoked (imgKeySet i) ∨ imgSvn i < s.fuses.minSvn then some (0x0603, imgSvn i)
  else if sha384 (imgBody i) ≠ (i.drop 32).take 48 then some (0x0604, place)
  else if !Config.sigOk 0 (vendorKeyBytes (imgKeySet i) 0) (i.take 256) ((i.drop 256).take 64) then some (0x0605, imgKeySet i)
  else if !Config.sigOk 1 (vendorKeyBytes (imgKeySet i) 1) (i.take 256) ((i.drop 320).take 3309) then some (0x0606, imgKeySet i)
  else none

/-- An image that fails is recorded (spec 11 R445, R487). -/
def imageFails (s : State) (e : Nat × Nat) : State := fwError s e.1 e.2

/-! Flash parts. -/

def flashPart (s : State) (fb : Bool) : FlashPart := s.flash[if fb then 1 else 0]'(by split <;> decide)
def setFlash (s : State) (fb : Bool) (p : FlashPart) : State :=
  { s with flash := if fb then s.flash.set 1 p else s.flash.set 0 p }

def FlashPart.image (p : FlashPart) (kind : Nat) : List Byte := if kind = 1 then p.stage1 else p.runtime
def FlashPart.withImage (p : FlashPart) (kind : Nat) (i : List Byte) : FlashPart :=
  if kind = 1 then { p with stage1 := i } else { p with runtime := i }

/-! Runtime slots. -/

def rtSlot (s : State) (k : Nat) : RtSlot := s.fw.slots[k % 2]'(Nat.mod_lt _ (by decide))
def setRtSlot (s : State) (k : Nat) (x : RtSlot) : State :=
  { s with fw := { s.fw with slots := s.fw.slots.set (k % 2) x (Nat.mod_lt _ (by decide)) } }

/-! The configuration block (spec 13 Table 13.6). -/

structure ConfigBlock where
  flashSource : Bool
  boardId : Nat
  boardRev : Nat
  pcap : Nat
  tThrottle : Nat
  exportGib : Nat
  exportBase : Nat
  dimmPop : Nat
  torus : Bool
  linkMap : List Nat
  deriving DecidableEq, Repr

/-- The defaults. -/
def ConfigBlock.default : ConfigBlock :=
  { flashSource := false, boardId := 0, boardRev := 0, pcap := 2400, tThrottle := 105, exportGib := 64,
    exportBase := 0x4000000000, dimmPop := 0xFFFFFF, torus := false, linkMap := List.replicate 8 0 }

def configOf (b : List Byte) : ConfigBlock :=
  { flashSource := field b 5 1 == 1, boardId := field b 8 4, boardRev := field b 12 1, pcap := field b 14 2,
    tThrottle := field b 16 1, exportGib := field b 18 2, exportBase := field b 20 8, dimmPop := field b 28 3,
    torus := field b 32 1 == 2, linkMap := (List.range 8).map (fun p => field b (64 + 4 * p) 4) }

/-- Why the block is not accepted (spec 13 R525, DEFAULT_CAUSE of Table 13.11): 0 for an accepted one. DESIGN CHOICE: the
causes are tried in the order of their codes (log entry 46). -/
def configCause (b : List Byte) : Nat :=
  let topo := field b 32 1
  let x := field b 33 1
  let y := field b 34 1
  if b.all (· == 0xFF#8) then 1
  else if field b 0 4 ≠ 0xC0F16B2D ∨ field b 4 1 ≠ 1 then 2
  else if b.length ≠ 4096 ∨ field b 4092 4 ≠ crc32c (b.take 4092) then 3
  else if field b 6 2 ≠ 0 ∨ field b 13 1 ≠ 0 ∨ field b 17 1 ≠ 0 ∨ field b 31 1 ≠ 0 ∨ field b 35 29 ≠ 0 ∨ field b 96 3996 ≠ 0 ∨
      (List.range 8).any (fun p => field b (66 + 4 * p) 2 != 0) then 4
  else if field b 5 1 > 1 ∨ field b 14 2 < 1200 ∨ field b 14 2 > 2400 ∨ field b 16 1 < 85 ∨ field b 16 1 > 105 ∨ field b 18 2 > 512 ∨
      field b 20 8 % 2 ^ 30 ≠ 0 ∨ field b 20 8 < 2 ^ 30 ∨ (topo ≠ 1 ∧ topo ≠ 2) ∨ (topo = 1 ∧ (x ≠ 0 ∨ y ≠ 0)) ∨
      (topo = 2 ∧ (x < 2 ∨ x > 63 ∨ y < 2 ∨ y > 63 ∨ (x + 1) * (y + 1) > 4096)) then 5
  else 0

/-- The block in force: the one in flash, or the defaults of every field. -/
def configInForce (s : State) : ConfigBlock :=
  let b := (flashPart s false).config
  if configCause b = 0 then configOf b else .default

end Sys2Proof.Machine
end

