-- ==== Sys2Proof/Machine/MailboxOps.lean ====
section
/-! DEFINITION. The mailbox (spec 11 R455 to R461): requests and their checks, responses, and what each opcode of
Table 11.11 does (spec 11 R446, R448, R462 to R475, R485, R486; spec 09 R374, R382, R397; spec 13 R522, R523). -/

namespace Sys2Proof.Machine

set_option Elab.async false

/-- What a request comes to: the state, the STATUS of its response, the response's payload. -/
structure Answer where
  s : State
  status : Nat
  data : List Byte

def okWith (s : State) (d : List Byte) : Answer := { s := s, status := 0, data := d }
def okay (s : State) : Answer := okWith s []
def nack (s : State) (status : Nat) : Answer := { s := s, status := status, data := [] }

/-- NACK_RANGE with the byte offset of the field or the index of a refused entry. -/
def nackRange (s : State) (at_ : Nat) : Answer := { s := s, status := 7, data := toLe 4 at_ }
def nackState (s : State) : Answer := nack s 6
def nackBusy (s : State) : Answer := nack s 8
def nackVerify (s : State) (code : Nat) : Answer := { s := s, status := 10, data := toLe 2 code }

/-! What a payload asks of the device. -/

/-- Does the device hold a plan position (spec 11 MEMBER_SET, SPARE_SET)? -/
def holdsPosition (s : State) : Bool := s.domains.any (fun d => d.group.any (fun g => g.state == .member))

/-- Are MEMBER_SET, SPARE_SET and GROUP_SET refused (spec 13 Table 13.3, R529)? -/
def fabricRefused (s : State) : Bool := lcState s == 2 || !cpUp s 3

/-- GET_VERSION. -/
def getVersion (s : State) : List Byte :=
  toLe 2 (s.getF Reg.MBX_VER_MIN 0 0) ++ toLe 2 (s.getF Reg.MBX_VER_MAX 0 0) ++ toLe 4 (fwState s) ++
    toLe 4 (s.getF Reg.MBX_STAGE1_ID 0 0) ++ toLe 4 (s.getF Reg.MBX_RUNTIME_ID 0 0)

/-- Column `x` of the grid map: bit 7 is ACTIVE, bits [2:0] the serving cluster of its stack (spec 11 GET_DEVICE_INFO). -/
def columnInfo (s : State) (x : Nat) : Nat :=
  match (List.range 8).find? (fun k => let i := 32 * (x / 7) + 4 * k; s.tileActive i && s.getF Reg.TILE_LOGICAL_X i 0 == x) with
  | some k => 128 + k
  | none => 0

/-- GET_DEVICE_INFO. DEDUCED: the fields stand in the order the table lists them (log entry 47). -/
def deviceInfo (s : State) : List Byte :=
  toLe 8 s.fuses.serial ++ toLe 1 s.fuses.stepping ++ toLe 1 (lcState s) ++
    toLe 1 (s.getF Reg.MBX_S1_FB 0 0 + 2 * s.getF Reg.MBX_RUNTIME_FLASH 0 0 + 4 * s.getF Reg.MBX_RUNTIME_FB 0 0) ++
    (List.range 28).flatMap (fun x => toLe 1 (columnInfo s x)) ++ (List.range 24).flatMap (fun c => toLe 1 (s.getF Reg.DDR_STATE c 0)) ++
    toLe 2 (s.getF Reg.SEC_MEMBER 0 0) ++ toLe 1 (s.getF Reg.SEC_MEMBER_STATE 0 0)

/-- Every ring address is invalid: no submission is read and no completion written (spec 11 R485). -/
def invalidateRings (s : State) : State := { s with queues := s.queues.map (fun q => { q with rings := none }) }

/-- BIND (spec 11 R485). DEDUCED: REBIND = 1 is accepted while bound and, bound or not, in HOLD (log entry 48). -/
def bind (s : State) (seq : Nat) (p : List Byte) : Answer :=
  let rebind := bit (field p 0 1) 0
  let bound := s.getF Reg.MBX_BOUND 0 0 = 1
  let n := field p 4 2
  if (!rebind ∧ bound) ∨ (rebind ∧ !bound ∧ fwState s ≠ 4) then nackState s
  else if n > 3600 then nackRange s 4
  else
    let s := (s.setF Reg.MBX_BOUND 0 0 1).setF Reg.QMGR_HOST_LOSS_TIMEOUT 0 0 (if n = 0 then 30 else n)
    let s := (s.setF Reg.QMGR_HOST_LAST_SEEN 0 0 s.now).setF Reg.MBX_EXPECTED_SEQ 0 0 (seq + 1)
    let s := { s with fw := { s.fw with everBound := true } }
    let s := if rebind then invalidateRings s else s
    if fwState s ≠ 4 then okay s
    else
      let s := { s with
        queues := s.queues.map (fun q => { q with stopped := true })
        domains := s.domains.map (fun d => { d with parked := false })
        fw := { s.fw with holdAt := none } }
      okay (setFwState s 3 0)

/-- UNBIND (spec 11 R486). -/
def unbind (s : State) : Answer := okay (invalidateRings (s.setF Reg.MBX_BOUND 0 0 0))

/-- The runtime image in slot `k` comes into force: its identity and mailbox versions, and CP1 to CP3 run it
(spec 11 R451, R476). -/
def putInForce (s : State) (k : Nat) : State :=
  let i := (rtSlot s k).image
  let s := { s with fw := { s.fw with inForce := k % 2 } }
  let s := ((s.setF Reg.MBX_RUNTIME_ID 0 0 (imgId i)).setF Reg.MBX_VER_MIN 0 0 (imgVerMin i)).setF Reg.MBX_VER_MAX 0 0 (imgVerMax i)
  ((s.setF Reg.CP_SLOT 1 0 k).setF Reg.CP_SLOT 2 0 k).setF Reg.CP_SLOT 3 0 k

/-- IMAGE_LOAD of a runtime image into the standby slot (spec 11 R474). -/
def loadStandby (s : State) (i : List Byte) : Answer :=
  let k := 1 - s.fw.inForce % 2
  match imageCheck s 2 k i with
  | some e => nackVerify (imageFails (setRtSlot s k { image := [], locked := false }) e) e.1
  | none => okay (setRtSlot s k { image := i, locked := true })

/-- RUNTIME_HANDOVER names a domain and a step (spec 11 R475). -/
def scheduleHandover (s : State) (p : List Byte) : Answer :=
  let id := field p 0 4
  let h := field p 8 8
  if !(rtSlot s (1 - s.fw.inForce % 2)).locked then nackState s
  else if id = 0x7FFFF then okay { s with fw := { s.fw with handover := some (id, h) } }
  else match s.domain? id with
    | none => nackRange s 0
    | some d => if h < d.nextStep then nackRange s 8 else okay { s with fw := { s.fw with handover := some (id, h) } }

/-- FLASH_WRITE (spec 11 R448, spec 13 R527). DESIGN CHOICE: a write that R448 does not allow to the booted part gets
NACK_STATE (log entry 49). -/
def flashWrite (s : State) (p d : List Byte) : Answer :=
  let part := field p 0 1
  let kind := field p 1 1
  let i := d.take (field p 16 4)
  if part > 1 then nackRange s 0
  else if kind = 3 then
    if lcState s ≠ 0 ∧ lcState s ≠ 2 then nackState s
    else if part ≠ 0 then nackRange s 0
    else if configCause i ≠ 0 then nackRange s 8
    else okay (setFlash s false { flashPart s false with config := i })
  else if kind ≠ 1 ∧ kind ≠ 2 then nackRange s 1
  else
    let fb := part == 1
    let booted := s.flag Reg.MBX_S1_FB 0 0
    match imageCheck s kind part i with
    | some e => nackVerify (imageFails s e) e.1
    | none =>
      if fb = booted ∧ (imageCheck s kind (1 - part) ((flashPart s (!fb)).image kind)).isSome then nackState s
      else okay (setFlash s fb ((flashPart s fb).withImage kind i))

/-- SVN_RAISE (spec 11 R446): fuses never return to 0. -/
def svnRaise (s : State) (p : List Byte) : Answer :=
  let n := field p 0 4
  if n > imgSvn s.fw.stage1 ∨ (s.getF Reg.MBX_RUNTIME_ID 0 0 ≠ 0 ∧ n > imgSvn (runtimeImage s)) then nackRange s 0
  else okay { s with fuses := { s.fuses with minSvn := max s.fuses.minSvn n } }

/-- ATTEST: the payload over the NONCE goes to the host's buffer. -/
def attestTo (s : State) (p : List Byte) : Answer := okay (s.sendHost (field p 16 8) (attestPayload s (p.take 16)))

/-- MEMBER_SET. -/
def memberSet (s : State) (p : List Byte) : Answer :=
  if holdsPosition s ∨ fabricRefused s then nackState s
  else if field p 0 2 ≥ 4096 then nackRange s 0
  else
    let s := (s.setF Reg.SEC_MEMBER 0 0 (field p 0 2)).setF Reg.SEC_MEMBER_ASSIGNED 0 0 1
    okay (sendMembership s)

/-- SPARE_SET. -/
def spareSet (s : State) (p : List Byte) : Answer :=
  if holdsPosition s ∨ fabricRefused s then nackState s
  else okay (updateMembership { s with fw := { s.fw with spare := bit (field p 0 1) 0 } })

/-- Mark a domain's entry as GROUPED. -/
def Domain.setGrouped (d : Domain) : Domain :=
  let w := field d.entry 0 4
  { d with entry := if bit w 22 then d.entry else withIdState d.entry (w + 2 ^ 22) }

/-- A context's entry goes to the context table (spec 11 R470). -/
def keepEntry (s : State) (d : Domain) : State :=
  if d.id = wholeDomain then s else (dramWrite s (s.getF Reg.CTX_BASE 0 0 + 64 * d.id) d.entry).1

/-- Change a domain and keep its table entry. -/
def changeDomain (s : State) (id : Nat) (f : Domain → Domain) : State :=
  match s.domain? id with
  | none => s
  | some d => keepEntry (s.setDomain (f d)) (f d)

/-- The layout epoch with which a domain's new group begins: that of its latest commit. -/
def firstEpoch (d : Domain) : Nat := if d.lastStep.isSome then recEpoch d.record else 0

/-- A group not yet in force: it takes its plan at the next boundary. -/
def Group.waiting (d : Domain) (pos : Nat) (params : GroupParams) : Group :=
  { plan := { torus := false, x := 1, members := [] }, nextPlan := none, position := pos, params := params, epoch := firstEpoch d,
    reports := [], beats := [], lateBeats := 0, lateRuns := [], table := [], tableStep := none, agreedStep := none, median := 0,
    actions := [], extra := [], vacant := [], heldSince := none, compareNext := false, stopDue := false, state := .joined,
    clone := none, failed := [], firstStep := d.nextStep }

/-- The first field of a GROUP_SET out of its range (spec 09 Table 9.2, spec 10 Table 10.9). -/
def groupRange (s : State) (p : List Byte) : Option Nat :=
  let torus := bit (field p 4 1) 0
  let m := field p 6 2 + 1
  let x := field p 8 2 + 1
  if (s.domain? (field p 0 4)).isNone then some 0
  else if field p 4 1 > 1 ∨ (torus ∧ !s.torusFabric) then some 4
  else if m > 4096 then some 6
  else if (torus ∧ (x < 3 ∨ x > 64 ∨ m % x ≠ 0 ∨ m / x < 3 ∨ m / x > 64)) then some 8
  else if field p 10 2 ≥ m then some 10
  else if field p 24 2 = 0 then some 24
  else if field p 26 1 = 0 ∨ field p 26 1 > 100 then some 26
  else if field p 28 2 < 4 * field p 26 1 ∨ field p 28 2 > 10000 then some 28
  else if field p 30 1 ≠ 0 ∧ field p 30 1 < 24 then some 30
  else if field p 31 1 = 0 then some 31
  else if field p 32 2 = 0 ∨ field p 32 2 > 4000 then some 32
  else if field p 36 4 > 600000 then some 36
  else if field p 40 2 = 0 ∨ field p 40 2 > m then some 40
  else if field p 42 1 > 1 then some 42
  else if field p 44 2 < 10 ∨ field p 44 2 > 60000 then some 44
  else if field p 56 1 > 64 then some 56
  else none

/-- Does the domain run in its group under the numerics that its queue gives its tiles (spec 04 R187)? LEGACY of DOMAIN_SET is the same
on every member, so that legacy and native queues of one group never meet. DEDUCED (log entry 123). -/
def legacyFits (s : State) (d : Domain) : Bool := d.group.isNone || (s.queue? d.queue).all (fun q => q.legacy == d.legacy)

/-- May a group take the domain: its grid map has the columns of its queue (spec 02 R52), and its numerics fit (spec 04 R187)? -/
def groupPlaced (s : State) (id : Nat) : Bool :=
  (s.domain? id).all (fun d => columnsFit s d && (s.queue? d.queue).all (fun q => q.legacy == d.legacy))

/-- GROUP_SET (spec 09 R374): it takes effect at the domain's step boundary; at once where no step runs. -/
def groupSet (s : State) (p dma dma2 : List Byte) : Answer :=
  if fabricRefused s ∨ !groupPlaced s (field p 0 4) then nackState s
  else match groupRange s p with
    | some o => nackRange s o
    | none =>
      let id := field p 0 4
      let m := field p 6 2 + 1
      let torus := bit (field p 4 1) 0
      let members := (List.range m).map (fun k => field dma (2 * k) 2)
      let spares := (List.range (field p 56 1)).map (fun k => field dma2 (2 * k) 2)
      match members.findIdx? (fun x => decide (x ≥ 4096)), spares.findIdx? (fun x => decide (x ≥ 4096)) with
      | some k, _ => nackRange s k
      | none, some k => nackRange s k
      | none, none =>
        let params : GroupParams :=
          { compareInterval := field p 24 2, hbPeriod := field p 26 1, hbExpiry := field p 28 2, stragglerFactor := field p 30 1,
            stragglerSteps := field p 31 1, hopFloor := field p 32 2, spareWait := field p 36 4, minMembers := field p 40 2,
            agreedCopy := field p 42 1, pinLimit := field p 44 2, spares := spares }
        let plan : GroupPlan := { torus := torus, x := if torus then field p 8 2 + 1 else m, members := members.map some }
        let pos := field p 10 2
        let s := changeDomain s id (fun d =>
          { d.setGrouped with group := some { (d.group.getD (Group.waiting d pos params)) with nextPlan := some (plan, pos, params) } })
        okay (if ((s.domain? id).bind (·.run)).isSome then s else updateMembership (applyPlan s id))

/-! Queues. -/

/-- The first field of a queue descriptor out of its range (spec 11 Table 11.12). -/
def queueRange (p : List Byte) : Option Nat :=
  let win (k : Nat) : Bool :=
    let b := field p (32 + 16 * k) 8
    let l := field p (40 + 16 * k) 8
    b / 2 ^ 41 == 0 && b % 65536 == 0 && bits l 60 41 == 0
  if field p 0 2 ≥ 32768 then some 0
  else if field p 2 1 ≥ 64 then some 2
  else if field p 3 1 < 2 ∨ field p 3 1 > 63 then some 3
  else if field p 4 4 ≠ 0 then some 4
  else if field p 8 16 ≥ 2 ^ 112 then some 8
  else if field p 24 8 % 64 ≠ 0 ∨ field p 24 8 ≥ 2 ^ 41 then some 24
  else match (List.range 4).find? (fun k => !win k) with
    | some k => some (32 + 16 * k)
    | none => if field p 96 32 ≠ 0 then some 96 else none

def countQueues (s : State) : State :=
  (s.setF Reg.QMGR_QUEUES 0 0 s.queues.length).setF Reg.QMGR_QUEUES_STALLED 0 0 (s.queues.filter (·.stalled)).length

/-- QUEUE_CREATE (spec 11 R462). -/
def queueCreate (s : State) (p : List Byte) : Answer :=
  match queueRange p with
  | some o => nackRange s o
  | none =>
    let id := field p 0 2
    if (s.queue? id).isSome then nackBusy s
    else okay (countQueues (s.setQueue
      { id := id, desc := (p ++ zeros 128).take 128, rings := none, subTail := 0, subHead := 0, cplHead := 0, cplTail := 0,
        cplCount := 0, stopped := false, stalled := false, waiting := [], entries := [], due := [], lastId := 0,
        lastStart := 0, unit := none, image := none }))

/-- QUEUE_DESTROY. -/
def queueDestroy (s : State) (p : List Byte) : Answer :=
  let id := field p 0 2
  match s.queue? id with
  | none => nackRange s 0
  | some q =>
    if q.unit.isSome ∨ s.domains.any (fun d => d.bound && d.queue == id && !q.isRun) then nackBusy s
    else okay (countQueues { s with queues := s.queues.filter (fun (x : Queue) => x.id != id) })

/-- QUEUE_RING_SET: indices restart at 0, and completions that waited are written to the new ring. -/
def queueRingSet (s : State) (p : List Byte) : Answer :=
  let id := field p 0 2
  match s.queue? id with
  | none => nackRange s 0
  | some q =>
    if field p 4 1 < 4 ∨ field p 4 1 > 15 then nackRange s 4
    else if field p 5 1 < 4 ∨ field p 5 1 > 15 then nackRange s 5
    else if field p 8 8 % 64 ≠ 0 then nackRange s 8
    else if field p 16 8 % 64 ≠ 0 then nackRange s 16
    else
      let r : QRings := { subLog := field p 4 1, cplLog := field p 5 1, subBase := field p 8 8, cplBase := field p 16 8 }
      let s := s.setQueue { q with
        rings := some r, subTail := 0, subHead := 0, cplHead := 0, cplTail := 0, cplCount := 0, waiting := [],
        stalled := false, due := [] }
      okay (countQueues (flushDue q.due s id))

/-- QUEUE_STOP and QUEUE_RESUME. -/
def queueSetStopped (s : State) (p : List Byte) (v : Bool) : Answer :=
  match s.queue? (field p 0 2) with
  | none => nackRange s 0
  | some q => okay (s.setQueue { q with stopped := v })

/-- QUEUE_QUERY. DEDUCED: the descriptor, then at 128 the state (0 RUNNABLE, 1 STALLED, 2 STOPPED), at 132 to 139 SUB_TAIL,
the submission index taken, CPL_HEAD and CPL_TAIL, at 140 the last SUBMIT_ID completed (log entry 47). -/
def queueQuery (s : State) (p : List Byte) : Answer :=
  match s.queue? (field p 0 2) with
  | none => nackRange s 0
  | some q => okWith s (q.desc ++ toLe 4 (if q.stopped then 2 else if q.stalled then 1 else 0) ++ toLe 2 q.subTail ++ toLe 2 q.subHead ++
      toLe 2 q.cplHead ++ toLe 2 q.cplTail ++ toLe 4 q.lastId)

/-! Contexts and placement. -/

/-- The DRAM of a domain's entry, by range (spec 11 Table 11.16): slot areas, journal, curvature cells. -/
def domainRanges (s : State) (d : Domain) : List (Nat × Nat) :=
  [(d.slotBase false, 65536 * d.slotUnits), (d.slotBase true, 65536 * d.slotUnits)] ++
    (if d.id = wholeDomain then [] else [(field d.entry 32 8, 1024)]) ++
    (d.places s).filterMap (fun p => if p.blocks = 0 then none else some (p.cellBase, p.blocks * (3 * cellBytes p.br + 3 * cellBytes p.bc)))

def rangesMeet (a b : List (Nat × Nat)) : Bool :=
  a.any (fun x => b.any (fun y => decide (x.1 < y.1 + y.2) && decide (y.1 < x.1 + x.2) && x.2 != 0 && y.2 != 0))

/-- The DRAM that a domain needs (spec 07 R291). DEDUCED: firmware knows of no buffers outside the slot areas but the
gradient accumulators and cullets of the domain's tensors, 4 bytes an element (log entry 50). -/
def domainNeed (s : State) (d : Domain) : Nat :=
  (domainRanges s d).foldl (fun n r => n + r.2) 0 + (d.places s).foldl (fun n p => n + 4 * p.elems) 0

/-- The first field of a context entry out of its range, CHECK apart (spec 11 Table 11.16, R471). -/
def entryRange (s : State) (whole : Bool) (e : List Byte) : Option Nat :=
  let w := field e 0 4
  let id := bits w 17 0
  if bits w 31 23 ≠ 0 ∨ bits w 19 18 = 3 ∨ (whole ∧ id ≠ 0) then some 0
  else if field e 4 2 ≥ 32768 ∨ !(match s.queue? (field e 4 2) with
      | some q => !q.isRun
      | none => false) then some 4
  else if field e 6 2 > 15 ∧ field e 6 2 ≠ 0xFFFF then some 6
  else if field e 8 8 % 65536 ≠ 0 ∨ field e 8 8 ≥ 2 ^ 41 then some 8
  else if field e 16 8 % 65536 ≠ 0 ∨ field e 16 8 ≥ 2 ^ 41 then some 16
  else if field e 28 4 > field e 24 4 then some 28
  else if !whole ∧ field e 32 8 % 1024 ≠ 0 then some 32
  else if field e 40 4 ≥ 2 ^ 19 then some 40
  else if field e 44 4 = 0 ∨ field e 40 4 + field e 44 4 > 2 ^ 19 then some 44
  else if field e 56 2 = 0 ∨ field e 56 2 > 1000 then some 56
  else if field e 58 2 = 0 then some 58
  else if field e 60 4 ≠ crc32c (e.take 60) then some 60
  else none

/-- The domain that an accepted entry makes: BOUND, GROUPED as it was. -/
def entryDomain (id : Nat) (e : List Byte) : Domain :=
  let w := field e 0 4
  let w := w - bits w 19 18 * 2 ^ 18 - (if bit w 22 then 2 ^ 22 else 0) + 2 ^ 18
  let d := Domain.fresh id (withIdState e w)
  { d with retained := bit w 20, legacy := bit w 21 }

/-- May the domains stand beside one another: the first failing check's status (spec 11 R471). -/
def domainFits (s : State) (d : Domain) : Option Nat :=
  let others := s.domains.filter (fun (x : Domain) => x.id != d.id)
  if others.any (fun x => rangesMeet (domainRanges s d) (domainRanges s x)) then some 7
  else if others.foldl (fun n x => n + domainNeed s x) (domainNeed s d) > dramSize s then some 9
  else none

def countContexts (s : State) : State :=
  s.setF Reg.CTX_IN_USE 0 0 (s.domains.filter (fun (d : Domain) => d.id != wholeDomain)).length

/-- Put a new domain in place after its checks. `at_` is the offset of its entry in the payload. -/
def bindDomain (s : State) (d : Domain) (at_ : Nat) : Answer :=
  match domainFits s d with
  | some 7 => nackRange s (at_ + 8)
  | some _ => nack (fwError s 0x0610 d.id) 9
  | none =>
    let s := countContexts (keepEntry (s.setDomain d) d)
    okay (if d.retained then writeRetained s else s)

/-- CONTEXT_CREATE (spec 11 R471). -/
def contextCreate (s : State) (p : List Byte) : Answer :=
  let e := (p ++ zeros 64).take 64
  match entryRange s false e with
  | some o => nackRange s o
  | none =>
    let id := bits (field e 0 4) 17 0
    if (s.domain? id).isSome then nackBusy s else bindDomain s (entryDomain id e) 0

/-- CONTEXT_DESTROY. -/
def contextDestroy (s : State) (p : List Byte) : Answer :=
  let id := field p 0 4
  match s.domain? id with
  | none => nackRange s 0
  | some d =>
    if id ≥ wholeDomain then nackRange s 0
    else if d.run.isSome then nackBusy s
    else
      let e := withIdState d.entry (field d.entry 0 4 - d.state * 2 ^ 18)
      let s := keepEntry s { d with entry := e }
      let s := countContexts { s with domains := s.domains.filter (fun (x : Domain) => x.id != id) }
      okay (updateMembership (if d.retained then writeRetained s else s))

/-- Byte ranges of a tensor's sub-areas from the slot start. -/
def Place.subRanges (p : Place) : List (Nat × Nat) :=
  (List.range 5).filterMap (fun k => if p.subSize k = 0 then none else some (p.sub k, p.subSize k))

/-- A placement entry with a good CHECK and no reserved value (spec 11 Table 11.17). -/
def placeOk (e : List Byte) : Bool :=
  field e 60 4 == crc32c (e.take 60) && field e 0 4 < 256 && field e 48 12 == 0 && field e 40 8 % 65536 == 0 && field e 40 8 < 2 ^ 41 &&
    (!bit (field e 0 4) 0 || field e 12 4 == 1) && decide (64 * (bits (field e 0 4) 4 2 + 1) ≤ 512)

/-- May entry `i` stand in a domain's table, beside the domain's other entries (spec 11 R472)? -/
def placeFits (entry : Nat → List Byte) (d : Domain) (i : Nat) : Bool :=
  let mine := (placeOf (entry i)).subRanges
  mine.all (fun r => decide (r.1 + r.2 ≤ 65536 * d.lendUnits)) &&
    (List.range mine.length).all (fun k => !rangesMeet (mine.drop k |>.take 1) (mine.drop (k + 1))) &&
    (List.range d.placeCount).all (fun k =>
      let j := d.placeFirst + k
      j == i || !placeOk (entry j) || !rangesMeet mine (placeOf (entry j)).subRanges)

/-- Do the domains' needs exceed the DRAM in service (spec 07 R291)? -/
def overBudget (s : State) : Bool := decide (s.domains.foldl (fun n d => n + domainNeed s d) 0 > dramSize s)

/-- PLACEMENT_WRITE: all of the entries, or none and the index of the first that R472 refuses (spec 11 R460, R472). -/
def placementWrite (s : State) (p dma : List Byte) : Answer :=
  let first := field p 0 4
  let n := field p 4 4
  if first ≥ 2 ^ 19 then nackRange s 0
  else if n = 0 ∨ first + n > 2 ^ 19 then nackRange s 4
  else
    let new (i : Nat) : List Byte := (dma.drop (64 * (i - first)) ++ zeros 64).take 64
    let fits (i : Nat) : Bool :=
      let entry (j : Nat) : List Byte := if first ≤ j ∧ j ≤ i then new j else placeBytes s j
      placeOk (new i) && s.domains.all (fun d => decide (i < d.placeFirst) || decide (d.placeFirst + d.placeCount ≤ i) || placeFits entry d i)
    match (List.range n).find? (fun k => !fits (first + k)) with
    | some k => nackRange (fwError s 0x060F (first + k)) (first + k)
    | none =>
      let fresh := ((List.range n).filter (fun k => !placeOk (placeBytes s (first + k)))).length
      let v := (dramWrite s (s.getF Reg.PLC_BASE 0 0 + 64 * first) ((dma ++ zeros (64 * n)).take (64 * n))).1
      if overBudget v && !overBudget s then nack (fwError s 0x0610 first) 9
      else okay (v.setF Reg.PLC_IN_USE 0 0 (v.getF Reg.PLC_IN_USE 0 0 + fresh))

/-- The digest areas that DRAM kept over a start belong to the domain again (spec 09 R386). -/
def withDigests (s : State) (d : Domain) : Domain := match s.digests.find? (·.1 == d.id) with
  | some x => { d with leaves0 := x.2.1, leaves1 := x.2.2 }
  | none => d

/-- The settings of DOMAIN_SET on a domain. DEDUCED: a root interval of 0 asks for the default, 10 (spec 01 R28; log entry 124). A new accumulation count waits for the step boundary (spec 01 Table 1.2). -/
def domainSettings (p : List Byte) (d : Domain) : Domain :=
  let f := field p 18 1
  let e := putField (putField (putField d.entry 48 8 (field p 8 8)) 56 2 (if field p 16 2 = 0 then 10 else field p 16 2)) 58 2 (field p 30 2)
  let w := field e 0 4
  let w := if bit w 21 then w - 2 ^ 21 else w
  let d := { d with
    entry := withIdState e (w + 2 ^ 21 * b2n (bit f 1)), steer := bit f 0, legacy := bit f 1, mbTokens := field p 20 4
    accMin := field p 24 2, accMax := field p 26 2, window := if field p 28 2 = 0 then 200 else field p 28 2 }
  if d.run.isSome then { d with nextAcc := some (field p 30 2) } else { d with accCount := field p 30 2 }

/-- DOMAIN_SET. The whole-model domain is made by the entry that it carries; a running step keeps that entry. DEDUCED:
after a warm start the SCAN of a retained whole-model domain comes with the entry, which firmware did not hold before
(spec 07 R324; log entry 54). -/
def domainSet (s : State) (p : List Byte) : Answer :=
  let id := field p 0 4
  let e := (p.drop 32 ++ zeros 64).take 64
  if field p 16 2 > 1000 then nackRange s 16
  else if field p 18 1 > 3 then nackRange s 18
  else if field p 26 2 < field p 24 2 then nackRange s 26
  else if field p 30 2 = 0 then nackRange s 30
  else if id = wholeDomain then
    match entryRange s true e with
    | some o => nackRange s (32 + o)
    | none => match s.domain? id with
      | none =>
        let again := s.getF Reg.CONFIG_START_KIND 0 0 = 1 ∧ bit (field e 0 4) 20
        let d := domainSettings p (entryDomain id e)
        let a := bindDomain s (if again then withDigests s d else d) 32
        if a.status = 0 ∧ again then { a with s := scanNow a.s id } else a
      | some d =>
        if d.run.isSome then nackBusy s
        else
          let d' := domainSettings p { d with entry := (entryDomain id e).entry, retained := bit (field e 0 4) 20 }
          if !legacyFits s d' then nackState s else bindDomain s d' 32
  else match s.domain? id with
    | none => nackRange s 0
    | some d =>
      if field p 32 64 ≠ 0 then nackRange s 32
      else if !legacyFits s (domainSettings p d) then nackState s
      else okay (changeDomain s id (domainSettings p))

/-- UPB_SUBMIT (spec 07 R307). -/
def upbSubmit (s : State) (p : List Byte) : Answer :=
  let u := (p.drop 8).take 64
  match s.domain? (field p 0 4) with
  | none => nackRange s 0
  | some d =>
    let past : Bool := match d.run with
      | some r => decide (field u 0 8 ≤ r.step)
      | none => match d.lastStep with
        | some n => decide (field u 0 8 ≤ n)
        | none => false
    if !upbValid u || past then nackRange s 8
    else if d.upbs.length ≥ 16 then nackBusy s
    else okay (s.setDomain { d with upbs := d.upbs ++ [u] })

/-- RETAIN_SET (spec 09 R397). -/
def retainSet (s : State) (p : List Byte) : Answer :=
  let id := field p 0 4
  let v := bit (field p 4 1) 0
  if id ≥ 0x80000 then
    let r := id - 0x80000
    if !(s.fw.bases.any (fun b => b.1 == r)) then nackRange s 0
    else
      let rest := s.fw.retainedBases.filter (· != r)
      okay (writeRetained { s with fw := { s.fw with retainedBases := if v then rest ++ [r] else rest } })
  else match s.domain? id with
    | none => nackRange s 0
    | some _ =>
      okay (writeRetained (changeDomain s id (fun d =>
        let w := field d.entry 0 4
        { d with retained := v, entry := withIdState d.entry ((if bit w 20 then w - 2 ^ 20 else w) + 2 ^ 20 * b2n v) })))

/-- BASE_LOAD: the region's digest tree is built (spec 09 R382). A line that cannot be read fails it. -/
def baseLoad (s : State) (p : List Byte) : Answer :=
  let r := field p 0 1
  let a := field p 8 8
  let n := field p 16 8
  if r > 15 then nackRange s 0
  else if a ≥ dramSize s then nackRange s 8
  else if n = 0 ∨ a + n > dramSize s then nackRange s 16
  else match s.dramUe.find? (fun l => decide (a < l + 64) && decide (l < a + n)) with
    | some l => { s := dramUncorrectable s l, status := 12, data := toLe 2 0x0503 }
    | none =>
      let leaves := leafDigests s.dram [[(a, n)]]
      okay { s with fw := { s.fw with
        bases := s.fw.bases.filter (fun (b : Nat × Nat × Nat × Nat) => b.1 != r) ++ [(r, a, n, rootDigest leaves)]
        baseTrees := s.fw.baseTrees.filter (fun (b : Nat × List Nat) => b.1 != r) ++ [(r, leaves)] } }

/-- EXPORT: the request fields of spec 09 Table 9.15. DEDUCED: words 0x100 to 0x11C one after another (log entry 47). -/
def exportRequest (s : State) (p : List Byte) : Answer :=
  let w (k : Nat) : Nat := field p (4 * k) 4
  if exportState s = 1 ∨ exportState s = 2 then nackBusy s
  else match s.domain? (bits (w 0) 18 0) with
    | none => nackRange s 0
    | some d =>
      if w 0 ≥ 2 ^ 21 then nackRange s 0
      else if w 1 ≥ 4096 then nackRange s 4
      else if w 2 % 65536 ≠ 0 then nackRange s 8
      else if w 3 ≥ 512 then nackRange s 12
      else if w 5 % 64 ≠ 0 then nackRange s 20
      else if w 6 ≥ 512 then nackRange s 24
      else if w 7 ≥ 2 ^ 19 + 1 ∨ (w 7 = 0 ∧ !bit (w 0) 19) then nackRange s 28
      else
        let s := (List.range 8).foldl (fun s k => storeWord s 14 0 0 (0x100 + 4 * k) (w k)) s
        let s := match d.group with
          | some g => s.setF Reg.EXPORT_PIN_LIMIT 0 0 g.params.pinLimit
          | none => s
        okay (exportGo s s.now)

/-- The group of a domain whose cellar the host has restored: what it held of later steps is void, and a stopped group goes on with the
next step as its first. DEDUCED (log entry 125). -/
def Group.resumed (g : Group) (next : Nat) : Group :=
  { g with
    reports := [], table := [], tableStep := none, agreedStep := none, actions := [], extra := [], stopDue := false, firstStep := next
    state := if g.state = .stopped then .member else g.state }

/-- CELLAR_RESTORE (spec 09 R389). The domain may go on from the restored step. -/
def cellarRestore (s : State) (p dma : List Byte) : Answer :=
  let id := field p 0 4
  match s.domain? id with
  | none => nackRange s 0
  | some d =>
    if d.run.isSome then nackBusy s
    else if !cellarOk id dma then nackRange s 8
    else
      let s := restoreCellar s d dma
      okay (changeDomain s id (fun d =>
        { d with
          stopped := false, entry := withIdState d.entry (field d.entry 0 4 - d.state * 2 ^ 18 + 2 ^ 18)
          group := d.group.map (·.resumed d.nextStep) }))

/-- CHANNEL_RETIRE (spec 10 R440). -/
def channelRetire (s : State) (p : List Byte) : Answer :=
  if field p 0 1 ≥ 24 then nackRange s 0 else okay (retirePending s (field p 0 1) 6)

/-- LOG_READ: entries of the integrity log (32 bytes) or of the event log to host memory. DEDUCED: an event stands in 256
bytes, as in the event ring (log entry 47). -/
def logRead (s : State) (p : List Byte) : Answer :=
  let which := field p 0 1
  let log := if which = 0 then s.fw.integrityLog else s.fw.eventLog.map (fun e => (e ++ zeros 256).take 256)
  if which > 1 then nackRange s 0
  else if field p 4 4 > log.length then nackRange s 4
  else if field p 4 4 + field p 8 4 > log.length then nackRange s 8
  else okay (s.sendHost (field p 16 8) ((log.drop (field p 4 4)).take (field p 8 4)).flatten)

/-! Life cycle (spec 13 R520 to R523). -/

/-- The statement of a life-cycle request (spec 13 R522). -/
def lcStatement (s : State) (from_ target : Nat) : List Byte :=
  toLe 2 0x1C5E ++ toLe 1 1 ++ toLe 1 from_ ++ toLe 1 target ++ zeros 3 ++ toLe 8 s.fuses.serial ++
    toLe 4 (s.getF Reg.CONFIG_BOOT_COUNT 0 0) ++ zeros 44

/-- Does the authorisation verify (spec 13 Table 13.5)? -/
def lcAuthorised (s : State) (from_ target : Nat) (a : List Byte) : Bool :=
  if from_ = 0 then
    let m := deviceKeyBytes 0 ++ deviceKeyBytes 1 ++ toLe 8 s.fuses.serial
    a.length == 5357 && Config.sigOk 0 (a.take 32) m ((a.drop 1984).take 64) &&
      Config.sigOk 1 ((a.drop 32).take 1952) m ((a.drop 2048).take 3309)
  else
    let m := a.take 64
    a.length == 3437 && m == lcStatement s from_ target && Config.sigOk 0 (ownerKey s 0) m ((a.drop 64).take 64) &&
      Config.sigOk 1 (ownerKey s 1) m ((a.drop 128).take 3309)

/-- Abort every running unit. -/
def abortAll (s : State) : State :=
  s.queues.foldl (fun s q => match q.unit with
    | some u => abortUnit s u
    | none => s) s

/-- The fuses and the flash of a life-cycle step (spec 13 R522, R523). -/
def lcBurn (s : State) (target : Nat) (a : List Byte) : State :=
  let fa := flashPart s false
  if target = 3 then
    setFlash { s with fuses := { s.fuses with decom := true } } false { fa with security := [], training := List.replicate 24 0 }
  else if lcState s = 0 then
    setFlash { s with fuses := { s.fuses with owned := true } } false { fa with security := (fa.security ++ zeros 4).take 4 ++ a }
  else { s with fuses := { s.fuses with toggles := s.fuses.toggles + 1 } }

/-- An accepted transition after its response (spec 13 R523): the groups are told, units aborted, the retained-region
table's header is zeroed, the fuse is burnt, and a cold start is due. -/
def lcProceed (s : State) (target : Nat) (a : List Byte) : State :=
  let s := if cpUp s 3 then (s.domains.map (·.id)).foldl reportStop s else s
  let s := abortAll s
  let s := { s with dram := Memory.clear s.dram 0 16 }
  let s := lcBurn s target a
  { s with power := { s.power with startDue := some 3 } }

/-- LIFECYCLE_SET (spec 13 R522, Tables 13.4, 13.5). -/
def lifecycleSet (s : State) (p dma : List Byte) : Answer :=
  let target := field p 0 1
  let from_ := field p 1 1
  let a := dma.take (field p 16 4)
  let listed := (from_ = 0 ∧ target = 1) ∨ (from_ = 1 ∧ (target = 2 ∨ target = 3)) ∨ (from_ = 2 ∧ (target = 1 ∨ target = 3))
  if from_ ≠ lcState s ∨ !listed then nackRange s 0
  else if field p 2 6 ≠ 0 then nackRange s 2
  else if !lcAuthorised s from_ target a then nackRange s 8
  else if from_ = 1 ∧ target = 2 ∧ s.fuses.toggles ≥ 32 then nack s 9
  else okay (lcProceed s target a)

/-! Serving requests (spec 11 R456 to R459). -/

/-- The opcodes of Table 11.11. -/
def opcodeListed (op : Nat) : Bool :=
  [0x01, 0x02, 0x03, 0x04, 0x10, 0x11, 0x12, 0x13, 0x14, 0x20, 0x21, 0x22, 0x30, 0x31, 0x32, 0x33, 0x34, 0x35].contains op ||
    [0x40, 0x41, 0x42, 0x43, 0x44, 0x45, 0x46, 0x50, 0x51, 0x60, 0x61, 0x62].contains op

/-- Does firmware state `st` accept an opcode (spec 11 Table 11.11)? -/
def opcodeAccepted (st op : Nat) : Bool :=
  if op = 0x01 ∨ op = 0x02 then true
  else if op = 0x61 then st != 0
  else if st = 5 then false
  else if op = 0x03 then st == 3 || st == 4
  else if op = 0x10 then st == 0 || st == 1 || st == 3 || st == 4
  else if op = 0x12 ∨ op = 0x13 ∨ op = 0x14 ∨ op = 0x60 ∨ op = 0x62 then st != 0
  else if op = 0x31 ∨ op = 0x32 ∨ op = 0x33 ∨ op = 0x35 ∨ op = 0x41 ∨ op = 0x45 ∨ op = 0x50 ∨ op = 0x51 then st == 3 || st == 4
  else st == 3

end Sys2Proof.Machine
end

