-- ==== Sys2Proof/Machine/PowerOps.lean ====
section
/-! DEFINITION. Supply, breaker, ageing and pins: samples and filters, trips, throttling, liveness of CP2, island voltages,
drift records, resets (spec 12 R488 to R513, spec 13 R514, R515, R531, spec 14 R555, R559, spec 15 R564 to R574). -/

namespace Sys2Proof.Machine

set_option Elab.async false

/-! Losing state. -/

/-- Register values that no reset changes (spec 14 R555): TRIP_CAUSE, TRIP_INFO, ALERT_PENDING. -/
def keptRegs (s : State) : List (Nat × Nat) :=
  let ks := [Reg.BRK_TRIP_CAUSE, Reg.BRK_TRIP_INFO, Reg.SEC_FATAL, Reg.SEC_BREAKER, Reg.SEC_HOLD].map (fun f => f.key 0 0)
  s.regs.filter (fun r => ks.contains r.1)

/-- Register values of the blocks of H_AON, and the copy of TILE_MAP there (spec 14 R554). -/
def aonRegs (s : State) : List (Nat × Nat) :=
  s.regs.filter (fun r => match regPlace (r.1 / 8) with
    | some p => isAonBlock p.ty || (p.ty == 1 && (r.1 == Reg.TILE_LOGICAL_X.key p.inst 0 || r.1 == Reg.TILE_MAP_STATE.key p.inst 0))
    | none => false)

/-- Power state that goes with the domains: transitions, frequency changes, the history of the clusters. -/
def Power.down (p : Power) : Power :=
  { p with change := Vector.replicate 4 none, trans := [], gatedAt := [], gateBanks := [], idleAt := [], hdm := none, haFrom := none, wakeLow := none,
           stepDue := Vector.replicate 4 false }

/-- What a channel's record keeps over a reset. -/
def DimmState.keep (d : DimmState) (pending : Bool) : DimmState :=
  { DimmState.reset with served := d.served, serial := d.serial, repair := d.repair || pending, ppr := d.ppr }

/-- Every domain except H_AON is off: its state is lost, DRAM apart. -/
def loseDomains (s : State) : State :=
  let base : State :=
    { State.reset with
      pending := s.pending, now := s.now, free := s.free, regs := aonRegs s, dram := s.dram, dramCe := s.dramCe
      dramUe := s.dramUe
      digests := if s.domains.isEmpty then s.digests else s.domains.map (fun d => (d.id, d.leaves0, d.leaves1)), flash := s.flash, fuses := s.fuses, sent := s.sent, reply := s.reply, timeSt := s.timeSt
      dimms := Vector.ofFn (fun c : Fin 24 => s.dimms[c].keep (s.getF Reg.DDR_STATE c 0 == 3)), power := s.power.down }
  (List.range domCount).foldl (fun s d => if d = domAon then s else setDomCur (s.setF Reg.PSEQ_REQ 0 d 0) d 0) base

/-- Every register returns to its reset value, but for those that R555 keeps. The breaker's filters and requests start
again. -/
def resetAon (s : State) : State :=
  { s with regs := keptRegs s
           timeSt := { synced := false, parentLostAt := none, stamps := [] }
           power := { s.power with
             kP := 0, kPTop := none, kT := Vector.replicate 4 0, kS := Vector.replicate 4 0, kA := Vector.replicate 4 0
             hotAt := [], lowAt := none, uvAt := none, ovAt := none, okAt := none, inputLow := false, tMax := 0, ticks := 0
             plan := Vector.replicate 4 56 } }

/-- DRAM loses its contents. -/
def loseDram (s : State) : State :=
  { s with dram := [], dramCe := [], dramUe := [], digests := [], power := { s.power with dramHeld := false } }

/-- VIN is lost, or SENSE_N opens: every domain and VBUS lose power (spec 15 R566). -/
def powerLoss (s : State) : State :=
  let s := loseDram (resetAon (loseDomains s))
  { s with regs := []
           power := { s.power with switchClosed := false, vaux := false, vbus := false, pwrGood := false, tripped := false
                                   startDue := none, fresh := true } }

/-- A reset by PERST_N or by POWER_SEQ (spec 13 R515): the DIMMs that have power go into self-refresh, every domain except
H_AON goes off, and registers return to their reset values. -/
def resetEntry (s : State) : State :=
  let s := resetAon (loseDomains s)
  { s with power := { s.power with dramHeld := s.power.vbus } }

/-- A trip (spec 12 R505). -/
def trip (s : State) (cause info code i0 : Nat) : State :=
  if s.power.tripped then s
  else
    let s := s.recordErr 6 0 0 code i0 0
    let s := alert ((s.setF Reg.BRK_TRIP_CAUSE 0 0 cause).setF Reg.BRK_TRIP_INFO 0 0 info) Reg.SEC_BREAKER
    let s := loseDram (loseDomains s)
    { s with power := { s.power with tripped := true, vbus := false, pwrGood := false, startDue := none } }

/-! Supply (spec 12 R489, R490). -/

/-- Since when a condition has held in every sample. -/
def held (since : Since) (now : Bool) (t : Nat) : Since := if now then some (since.getD t) else none

def heldFor (since : Since) (t n : Nat) : Bool := since.any (fun u => decide (u + n ≤ t))

/-- A sample of VIN, in mV. A sample of 0 is the removal of VIN. While the breaker is down only the hot-swap controller
samples (spec 15 R565). -/
def vinSample (s : State) (mv t : Nat) : State :=
  let s := s.atTime t
  let p : Power := { s.power with vinMv := mv, vinOkAt := held s.power.vinOkAt (decide (mv ≥ 40000)) t }
  let s : State := { s with power := p }
  if mv = 0 then powerLoss s
  else if !p.vaux ∨ p.tripped then s
  else
    let low := held p.lowAt (decide (mv < 40000)) t
    let uv := held p.uvAt (decide (mv < 38000)) t
    let ov := held p.ovAt (decide (mv > 52000)) t
    let ok := held p.okAt (decide (mv ≥ 40500)) t
    let s := { s with power := { p with lowAt := low, uvAt := uv, ovAt := ov, okAt := ok } }
    if heldFor uv t 100000 then trip s 1 0 0x0702 mv
    else if heldFor ov t 10000 then trip s 2 0 0x0703 mv
    else if heldFor low t 1000000 ∧ !p.inputLow then
      let s := (s.recordErr 6 0 0 0x0701 mv 0).recordErr 6 0 0 0x0709 2 0
      settleFloor { s with power := { s.power with inputLow := true } }
    else if p.inputLow && heldFor ok t 100000000 then settleFloor { s with power := { s.power with inputLow := false } }
    else s

/-- A regulator of Table 12.12 faults, or the PMIC of a channel's DIMM does. -/
def railFault (s : State) (dimm : Bool) (n : Nat) (t : Nat) : State :=
  if !s.power.vaux then s
  else
    let s := s.atTime t
    if dimm then
      if h : n < 24 then (s.recordErr 19 0 0 0x0705 n 0).modDimm ⟨n, h⟩ (fun d => { d with pmic := true }) else s
    else if n < 15 ∨ (32 ≤ n ∧ n < 64) then trip s 3 n 0x0704 n
    else s

/-! Power and thermal requests (spec 12 R503, R504). -/

/-- A tick of 10 µs with the means of input power over 10 µs and 10 ms, in W. -/
def powerTick (s : State) (p10us p10ms t : Nat) : State :=
  let s := s.atTime t
  if !s.power.vaux ∨ s.power.tripped then s
  else
    let s := s.setF Reg.BRK_P_IN 0 0 (min p10ms 4095)
    let p := s.power
    let pcap := s.getF Reg.BRK_PCAP 0 0
    let past := decide (p10ms > pcap)
    let peak := decide (p10us > s.getF Reg.BRK_FUSE_P_PEAK 0 0)
    let ms := decide (p.kPAt + 1000000 ≤ t)
    let k := p.kP + (if peak then 2 else 0) + (if past && ms then 1 else 0)
    let under := decide (100 * p10ms < 95 * pcap) && !peak
    let k := min 14 (if under && ms then k - 1 else k)
    let top := held p.kPTop (k == 14 && (past || peak)) t
    let s := { s with power := { p with kP := k, kPAt := if ms then t else p.kPAt, kPTop := top } }
    let s := settleThrottle s
    let any := (List.finRange 4).any (fun n => s.getF Reg.BRK_THROTTLE 0 n != 0)
    let n := s.power.ticks + (if any then 1 else 0)
    let s := { s with power := { s.power with ticks := n % 100 } }
    let s := if n ≥ 100 then s.countF Reg.BRK_THROTTLE_MS 0 0 1 else s
    if heldFor top t 10000000 then trip s 4 0 0x0707 (min p10ms 4095) else s

/-- Junction sensors of a stack (spec 12 Table 12.13). -/
def stackSensors (n : Nat) : List Nat := (List.range 8).map (fun k => 8 * n + k) ++ [32 + 2 * n, 33 + 2 * n]

/-- A tick of 10 µs with the 42 sensor readings in the order of Table 12.13, in °C. -/
def thermalTick (s : State) (temps : List Nat) (t : Nat) : State :=
  let s := s.atTime t
  if !s.power.vaux ∨ s.power.tripped then s
  else
    let at_ (k : Nat) : Nat := temps.getD k 0
    let cfg := s.getF Reg.BRK_T_THROTTLE_CFG 0 0
    let s := (List.range 32).foldl (fun s c => s.setF Reg.AGE_TEMP (c / 8) (c % 8) (min 255 (at_ c))) s
    let s := (List.range 8).foldl (fun s r => s.setF Reg.AGE_RG_TEMP (r / 2) (r % 2) (min 255 (at_ (32 + r)))) s
    let p := s.power
    let hot (n : Fin 4) : Bool := (stackSensors n).any (fun k => decide (at_ k > cfg))
    let cool (n : Fin 4) : Bool := (stackSensors n).all (fun k => decide (at_ k + 3 ≤ cfg))
    let up (n : Fin 4) : Bool := hot n && decide (p.kTUp[n] + 100000 ≤ t)
    let down (n : Fin 4) : Bool := cool n && decide (p.kTDown[n] + 10000000 ≤ t)
    let kT := Vector.ofFn (fun n : Fin 4 => if up n then min 14 (p.kT[n] + 1) else if down n then p.kT[n] - 1 else p.kT[n])
    let hotAt := (List.range 42).filterMap (fun k =>
      if at_ k ≥ s.getF Reg.BRK_FUSE_T_TRIP 0 0 then some (k, ((p.hotAt.find? (·.1 == k)).map (·.2)).getD t) else none)
    let s := { s with power := { p with
      kT := kT, hotAt := hotAt, tMax := (List.range 42).foldl (fun m k => max m (at_ k)) 0
      kTUp := Vector.ofFn (fun n : Fin 4 => if up n then t else p.kTUp[n])
      kTDown := Vector.ofFn (fun n : Fin 4 => if down n || !cool n then t else p.kTDown[n]) } }
    let hh := at_ 40 > cfg ∨ at_ 41 > cfg
    let s := if s.getF Reg.BRK_HEARTH_HOT 0 0 = b2n hh then s else (s.setF Reg.BRK_HEARTH_HOT 0 0 (b2n hh)).raise 6 0 0 1
    let s := settleThrottle s
    match hotAt.find? (fun x => decide (x.2 + 100000 ≤ t)) with
    | some x => trip s 5 x.1 0x0708 x.1
    | none => s

/-- A write of PCAP, T_THROTTLE_CFG or a target N, clamped to the fused limits (spec 12 R501). DESIGN CHOICE: a value below
what firmware may set is taken as the least it may (log entry 52). -/
def limitWrite (s : State) (a : Actor) (l : Limit) (v : Nat) : State :=
  if !powerWriter s a then s
  else match l with
    | .pcap => if s.flag Reg.CONFIG_CFG_LOCK 0 0 then s else s.setF Reg.BRK_PCAP 0 0 (max 1200 (min v (s.getF Reg.BRK_FUSE_P_CONT 0 0)))
    | .tThrottle =>
      if s.flag Reg.CONFIG_CFG_LOCK 0 0 then s
      else s.setF Reg.BRK_T_THROTTLE_CFG 0 0 (max 85 (min v (s.getF Reg.BRK_FUSE_T_THROTTLE 0 0)))
    | .targetN n =>
      s.setF Reg.BRK_TARGET_N 0 n (max (s.getF Reg.BRK_FUSE_FLOOR_N 0 0) (min v (s.getF Reg.BRK_FUSE_F_MAX_N 0 0)))

/-! CP2's liveness (spec 12 R507). -/

/-- CP2 re-plans after SAFE_FLOOR: the targets are the planned N (spec 12 R507, R510). -/
def replan (s : State) : State := (List.finRange 4).foldl (fun (s : State) (n : Fin 4) => s.setF Reg.BRK_TARGET_N 0 n s.power.plan[n]) s

def cp2LiveExpiry (s : State) (t : Nat) : State :=
  if !s.power.vaux ∨ s.power.tripped ∨ s.power.perstLow ∨ t < s.power.liveAt + 50000000 then s else enterSafeFloor (s.atTime t) 1

/-- CP2 sets CP2_LIVE; an expiry that has passed by then comes first (spec 13 R534). -/
def cp2Live (s : State) (a : Actor) (t : Nat) : State :=
  if a ≠ .cp 2 ∨ !s.power.vaux then s
  else
    let s := (cp2LiveExpiry s (t - 1)).atTime t
    let s := { s with power := { s.power with liveAt := t } }
    if !s.flag Reg.BRK_SAFE_FLOOR 0 0 ∨ !cpUp s 2 then s
    else replan (settleFloor ((s.setF Reg.BRK_SAFE_FLOOR 0 0 0).raise 6 0 0 1))

/-! Ageing (spec 12 R508 to R512). -/

/-- The slack of a cluster. -/
def slackOf (s : State) (c : Nat) : Nat := min (s.getF Reg.AGE_CPR0_SLACK (c / 8) (c % 8)) (s.getF Reg.AGE_CPR1_SLACK (c / 8) (c % 8))

/-- A drift record of a cluster (spec 12 Table 12.6). -/
def driftRecord (s : State) (kind c : Nat) : List Byte :=
  let r := toLe 2 0xA6E0 ++ toLe 1 kind ++ toLe 1 c ++ toLe 4 (s.getF Reg.CONFIG_BOOT_COUNT 0 0) ++ toLe 8 s.now ++
    toLe 2 (s.getF Reg.AGE_V_SET (c / 8) (c % 8)) ++ toLe 1 s.power.plan[c / 8 % 4] ++ toLe 1 (slackOf s c) ++
    toLe 4 (s.getF Reg.AGE_RO0_COUNT (c / 8) (c % 8)) ++ toLe 4 (s.getF Reg.AGE_RO1_COUNT (c / 8) (c % 8)) ++
    toLe 1 (s.getF Reg.AGE_TEMP (c / 8) (c % 8)) ++ zeros 31
  r ++ toLe 4 (crc32c r)

/-- Write records for clusters into the ring of 65,536. -/
def writeDrift (s : State) (kind : Nat) (cs : List Nat) : State :=
  let fa := flashPart s false
  let all := fa.drift ++ cs.map (driftRecord s kind)
  setFlash s false { fa with drift := all.drop (all.length - 65536) }

def driftValid (r : List Byte) : Bool := field r 0 2 == 0xA6E0 && field r 60 4 == crc32c (r.take 60)

/-- The newest valid record of a cluster. -/
def newestDrift (s : State) (c : Nat) : Option (List Byte) :=
  ((flashPart s false).drift.filter (fun r => driftValid r && field r 3 1 == c)).foldl (fun (b : Option (List Byte)) r => match b with
    | none => some r
    | some x => if field x 4 4 < field r 4 4 ∨ (field x 4 4 = field r 4 4 ∧ field x 8 8 ≤ field r 8 8) then some r else some x) none

/-- A stack steps down (spec 12 R510): its planned N falls by 1, not below the floor. -/
def stepDown (s : State) (n : Fin 4) : State :=
  if s.power.stepDue[n] then s
  else if s.power.plan[n] ≤ 40 then settleThrottle { s with power := { s.power with kA := s.power.kA.set n 2 } }
  else
    let v := s.power.plan[n] - 1
    let s := { s with power := { s.power with plan := s.power.plan.set n v, stepDue := s.power.stepDue.set n true } }
    if s.flag Reg.BRK_SAFE_FLOOR 0 0 then s else s.setF Reg.BRK_TARGET_N 0 n v

/-- A write of an island voltage by CP2, or by CP0 during a start: clamped to V_CEIL; a lower value, and any in SAFE_FLOOR,
is ignored (spec 12 R507, R509, R513). -/
def vSetWrite (s : State) (a : Actor) (n : Fin 4) (k : Fin 8) (v : Nat) : State :=
  let v := min v (s.getF Reg.BRK_FUSE_V_CEIL 0 0)
  if !powerWriter s a ∨ s.flag Reg.BRK_SAFE_FLOOR 0 0 ∨ v < s.getF Reg.AGE_V_SET n k then s else s.setF Reg.AGE_V_SET n k v

/-- The output of the island regulators of a stack, in mV: the largest V_SET and 25 mV (spec 12 R509). -/
def vcore (s : State) (n : Fin 4) : Nat := (List.range 8).foldl (fun v k => max v (s.getF Reg.AGE_V_SET n k)) 0 + 25

/-- Is a cluster in service: serviceable at this start and not OFF? -/
def clusterInService (s : State) (c : Nat) : Bool := s.tileActive (4 * c) && domCur s c != 0

/-- CP2's rules on one reading (spec 12 R509). -/
def actOnReading (s : State) (r : AgeReading) : State :=
  let c := r.cluster.val
  let n : Fin 4 := ⟨c / 8, by omega⟩
  let k : Fin 8 := ⟨c % 8, by omega⟩
  let s := ((s.setF Reg.AGE_CPR0_SLACK n k (min 255 r.cpr0)).setF Reg.AGE_CPR1_SLACK n k (min 255 r.cpr1)).setF Reg.AGE_TEMP n k (min 255 r.temp)
  let s := (s.setF Reg.AGE_RO0_COUNT n k r.ro0).setF Reg.AGE_RO1_COUNT n k r.ro1
  let slack := min r.cpr0 r.cpr1
  let v := s.getF Reg.AGE_V_SET n k
  if !clusterInService s c then s
  else
    let s := if slack < 15 then (if v < 850 then vSetWrite s (.cp 2) n k (v + 5) else stepDown s n) else s
    if slack < 8 then settleThrottle { s with power := { s.power with kA := s.power.kA.set n (max 2 s.power.kA[n]) } } else s

def ageingSample (s : State) (rs : List AgeReading) (t : Nat) : State :=
  let s := s.atTime t
  if !cpUp s 2 then s else rs.foldl actOnReading s

/-- A step-down is in force (spec 12 R510): eight records, and AGE_STEP_DOWN. -/
def stepDownDone (s : State) (n : Fin 4) : State :=
  let s := { s with power := { s.power with stepDue := s.power.stepDue.set n false, kA := s.power.kA.set n 0 } }
  let s := writeDrift (settleThrottle s) 2 ((List.range 8).map (fun k => 8 * n.val + k))
  let i0 := n.val + 256 * curN s n
  evtFault (s.recordErr 11 0 n 0x070A i0 0) 0x070A 11 n i0 0 0xFFFF 0x7FFFF

/-- The tiles of a stack go on from the cycle that they have reached, at another frequency. -/
def anchorStack (s : State) (n : Fin 4) : State :=
  (List.finRange 128).foldl (fun (s : State) (i : TileId) =>
    if i.val / 32 = n.val ∧ (s.tile i).active then
      s.modTile i (fun t => { t with anchorAt := s.now, anchorCycle := max t.cycle (s.tileCycle i) })
    else s) s

/-- A frequency change completes (spec 12 R499). -/
def freqChangeDone (s : State) (n : Fin 4) (t : Nat) : State :=
  match s.power.change[n] with
  | none => s
  | some v =>
    let s := (anchorStack (s.atTime t) n).setF Reg.BRK_CUR_N 0 n v
    let s := settleFloor { s with power := { s.power with change := s.power.change.set n none } }
    if s.power.stepDue[n] && v == s.power.plan[n] then stepDownDone s n else s

def driftDaily (s : State) (t : Nat) : State :=
  if !cpUp s 2 ∨ t < s.power.driftAt + 86400000000000 then s
  else
    let s := s.atTime t
    writeDrift { s with power := { s.power with driftAt := t } } 1 (List.range 32)

/-- A DIMM's temperature, read in-band (spec 12 R506). -/
def dimmTemperature (s : State) (c : Fin 24) (temp t : Nat) : State :=
  let s := s.atTime t
  if !chanInService s c then s
  else if temp > 95 then
    (if s.dimms[c].hot then s else (s.recordErr 19 0 0 0x070C c 0).modDimm c (fun d => { d with hot := true }))
  else if temp ≤ 90 then s.modDimm c (fun d => { d with hot := false })
  else s

/-! Transitions of power domains (spec 12 R493). -/

/-- The limit of a transition: ten times its figure. -/
def transLate (s : State) (x : DomTrans) (t : Nat) : Bool :=
  match transFigure s x.dom x.target with
  | some f => decide (t > x.since + 10 * f)
  | none => false

/-- A KPHY domain that comes ON switches its cages on, and its enabled ports train (spec 12 Table 12.4, spec 15 R571). -/
def phyOn (s : State) (n : Nat) : State :=
  [2 * n, 2 * n + 1].foldl (fun (s : State) (p : Nat) =>
    let p : Fin 8 := ⟨p % 8, Nat.mod_lt _ (by decide)⟩
    let s : State := { s with power := { s.power with cages := s.power.cages.set p true } }
    if s.getF (Hdr.ENABLE 4) p 0 = 1 ∧ portState s p = 0 then setPortState s p 1 else s) s

def phyOff (s : State) (n : Nat) : State :=
  [2 * n, 2 * n + 1].foldl (fun s p => portEnable s ⟨p % 8, Nat.mod_lt _ (by decide)⟩ false) s

/-- A transition ends. A request that came meanwhile is taken up. -/
def domainEnd (s : State) (d t : Nat) : State :=
  match s.power.trans.find? (·.dom == d) with
  | none => s
  | some x =>
    if transLate s x t then s
    else
      let s := s.atTime t
      let s := { s with power := { s.power with trans := s.power.trans.filter (fun (y : DomTrans) => y.dom != d) } }
      let s := domArrived s d x.target
      let s := if 40 ≤ d ∧ d < 44 then (if x.target = 2 then phyOn s (d - 40) else phyOff s (d - 40)) else s
      let want := s.getF Reg.PSEQ_REQ 0 d
      settleRegions (if want ≠ x.target ∧ domAllowed s d want then startTrans s d want else s)

/-- A transition that has not ended in time is abandoned: the domain is left OFF. -/
def domainTimeout (s : State) (d t : Nat) : State :=
  match s.power.trans.find? (·.dom == d) with
  | none => s
  | some x =>
    if !transLate s x t then s
    else
      let s := s.atTime t
      let s := { s with power := { s.power with trans := s.power.trans.filter (fun (y : DomTrans) => y.dom != d) } }
      let s := domArrived s d 0
      let s := (s.setF Reg.PSEQ_FAULT 0 d 1).recordErr 19 0 0 0x0706 d 0
      if isCluster d then { s with power := { s.power with failedClusters := s.power.failedClusters.filter (· != d) ++ [d] } } else s

/-- A cluster on which no unit has run for 1 ms is gated by CP2 (spec 12 R495). -/
def clusterIdle (s : State) (c t : Nat) : State :=
  let used := s.queues.any (fun q => match q.unit with
    | some u => (clustersOf s u.tiles).contains c
    | none => false)
  let since := ((s.power.idleAt.find? (·.1 == c)).map (·.2)).getD 0
  if c ≥ 32 ∨ !cpUp s 2 ∨ used ∨ domCur s c ≠ 2 ∨ t < since + 1000000 then s else domainRequest s (.cp 2) c 1 t

/-- Note a bank that its GATED cluster sends to RETENTION. -/
def gateBank (s : State) (i : TileId) (b : Nat) : State :=
  { s with power := { s.power with gateBanks := s.power.gateBanks.filter (· != (i.val, b)) ++ [(i.val, b)] } }

/-- The banks under a cluster that has stayed GATED for 100 ms go to RETENTION (spec 12 R496). -/
def bankRetention (s : State) (c t : Nat) : State :=
  match s.power.gatedAt.find? (·.1 == c) with
  | none => s
  | some g =>
    if !cpUp s 2 ∨ domCur s c ≠ 1 ∨ t < g.2 + 100000000 then s
    else (clusterTiles c).foldl (fun (s : State) (i : TileId) =>
      (List.range 40).foldl (fun s b => if s.getF Reg.PANTRY_BANK_CUR i b = 2 then gateBank (bankRequest s i b 1) i b else s) s) (s.atTime t)

/-! Pins (spec 13 R514, R515, spec 15). -/

def senseMake (s : State) (t : Nat) : State :=
  let s := s.atTime t
  { s with power := { s.power with senseLow := true } }

/-- SENSE_N opens. -/
def senseOpen (s : State) (t : Nat) : State :=
  let s := s.atTime t
  powerLoss { s with power := { s.power with senseLow := false } }

/-- The input switch closes (spec 15 R565, Table 15.2): VAUX, VBUS and PWR_GOOD follow. The cold start is due at once, or
at the release of PERST_N. -/
def switchClose (s : State) (t : Nat) : State :=
  if !s.power.senseLow ∨ s.power.switchClosed ∨ !heldFor s.power.vinOkAt t 10000000 then s
  else
    let s := s.atTime t
    { s with power := { s.power with
      switchClosed := true, vaux := true, vbus := true, pwrGood := true, fresh := true
      haFrom := if s.power.perstLow then none else some t, startDue := if s.power.perstLow then none else some 0 } }

def perstAssert (s : State) (t : Nat) : State :=
  if s.power.perstLow then s
  else
    let s := s.atTime t
    let s := if s.power.vaux then resetEntry s else s
    { s with power := { s.power with perstLow := true, perstAt := t, startDue := none } }

/-- PERST_N has stayed asserted for more than 10 s. -/
def perstHold (s : State) (t : Nat) : State :=
  if !s.power.perstLow ∨ t ≤ s.power.perstAt + 10000000000 then s
  else
    let s := loseDram (s.atTime t)
    { s with power := { s.power with vbus := false } }

/-- PERST_N is released: a start is due (spec 13 R514). -/
def perstRelease (s : State) (t : Nat) : State :=
  if !s.power.perstLow then s
  else
    let s := (perstHold s t).atTime t
    let reason := if s.power.tripped then 4 else if s.power.fresh then 0 else 1
    { s with power := { s.power with
      perstLow := false, perstAt := t, tripped := false, vbus := s.power.vaux, pwrGood := s.power.vaux
      haFrom := if s.power.vaux then some t else none, startDue := if s.power.vaux then some reason else none } }

/-- The host or the BMC clears causes of ALERT_N (spec 13 R531, spec 14 R558). -/
def alertClear (s : State) (a : Actor) (mask : Nat) : State :=
  if a ≠ .host then s
  else
    let s := if bit mask 0 then s.setF Reg.SEC_FATAL 0 0 0 else s
    let s := if bit mask 1 then s.setF Reg.SEC_BREAKER 0 0 0 else s
    if bit mask 2 then s.setF Reg.SEC_HOLD 0 0 0 else s

/-- Does the SMBus target answer the BMC: not from reset until the start ends (spec 13 R533, spec 14 R559)? -/
def smbusAnswers (s : State) : Bool :=
  s.power.vaux && !s.power.perstLow && (s.power.tripped || (s.power.startDue.isNone && decide (s.getF Reg.MBX_FW_STATE 0 0 ≥ 2)))

/-- A byte write by the BMC: ALERT_PENDING at 0x01; any other location ignores it (spec 14 R559). -/
def smbusWrite (s : State) (reg v : Nat) : State := if !smbusAnswers s ∨ reg ≠ 1 then s else alertClear s .host v

/-- The 100 ms of WAKE_N end (spec 15 R574). -/
def wakeEnd (s : State) (t : Nat) : State :=
  if !s.power.wakeLow.any (fun u => decide (u + 100000000 ≤ t)) then s
  else
    let s := s.atTime t
    { s with power := { s.power with wakeLow := none, wakeFree := some t } }

/-- A cage regulator faults (spec 15 R571): its supply opens, and its port fails training. DEDUCED: a port that has locked
fails at once; one in TRAINING at its limit (log entry 53). -/
def cageFault (s : State) (p : Fin 8) (t : Nat) : State :=
  let s := s.atTime t
  let s := { s with power := { s.power with cages := s.power.cages.set p false } }
  if portState s p = 2 ∨ portState s p = 3 ∨ portState s p = 4 then portFail s p 0x0401 else s

/-- CFG_LOCK, which only CP0 sets (spec 13 R535). -/
def cfgLock (s : State) (a : Actor) : State := if a = .cp 0 then s.setF Reg.CONFIG_CFG_LOCK 0 0 1 else s

end Sys2Proof.Machine
end

