-- ==== Sys2Proof/Machine/StartOps.lean ====
section
/-! DEFINITION. Starts (spec 13 R514 to R529, spec 11 R449 to R451, spec 02 R46 to R50, spec 10 R434 to R437, spec 12
R511): what DEVICE_START finds and decides, the runtime image, SERVICE_ONLY. -/

namespace Sys2Proof.Machine

set_option Elab.async false

/-! The grid map (spec 02 R48, spec 13 R528). -/

/-- The cluster that serves column `k` of a stack whose unserviceable clusters are `bad`, before R528. -/
def columnServer (bad : List Nat) (k : Nat) : Option Nat :=
  if !bad.contains k then some k
  else if !bad.contains 7 && (List.range 7).find? (bad.contains ·) == some k then some 7
  else none

/-- Is a stack in service: at least two of its columns are served? -/
def stackServed (bad : List Nat) : Bool := decide (((List.range 7).filter (fun k => (columnServer bad k).isSome)).length ≥ 2)

/-- TILE_MAP.STATE and the column served, of cluster `k` of stack `n`. -/
def clusterRole (bad : List Nat) (n k : Nat) : Nat × Nat :=
  if bad.contains k then (1, 0)
  else if !stackServed bad then (3, 0)
  else match (List.range 7).find? (fun c => columnServer bad c == some k) with
    | some c => (0, 7 * n + c)
    | none => (2, 0)

/-- Unserviceable clusters of a stack. -/
def stackBad (bad : List Nat) (n : Nat) : List Nat := (List.range 8).filter (fun k => bad.contains (8 * n + k))

def setGridMap (s : State) (bad : List Nat) : State :=
  (List.finRange 128).foldl (fun (s : State) (i : TileId) =>
    let n := i.val / 32
    let r := clusterRole (stackBad bad n) n (i.val / 4 % 8)
    (s.setF Reg.TILE_MAP_STATE i 0 r.1).setF Reg.TILE_LOGICAL_X i 0 r.2) s

/-! Powering (order 3 of Table 13.1). -/

/-- A domain is ON from the start. -/
def domOn (s : State) (d : Nat) : State := setDomCur (s.setF Reg.PSEQ_REQ 0 d 2) d 2

/-- ENABLE of every instance of a block type. -/
def enableAll (s : State) (ty : Nat) : State := (List.range (blockInstances ty)).foldl (fun s i => s.setF (Hdr.ENABLE ty) i 0 1) s

/-- The domains that a start powers, but for the clusters; their blocks are enabled (spec 14 R550), but for the Kamduelm
ports, which CP3 enables at order 10. -/
def powerHearth (s : State) : State :=
  let s := (List.range domCount).foldl (fun s d => if d < 32 then s else domOn s d) s
  let s := [2, 3, 5, 7, 8, 9, 10, 14, 16, 17, 18].foldl enableAll s
  { s with power := { s.power with cages := Vector.replicate 8 true } }

/-- The clusters that serve columns are ON; every other is OFF (spec 12 R495). -/
def powerClusters (s : State) : State :=
  (List.range 32).foldl (fun s c =>
    if s.tileActive (4 * c) then (clusterTiles c).foldl (fun (s : State) (i : TileId) => s.setF (Hdr.ENABLE 1) i 0 1) (domOn s c) else s) s

/-! DRAM (order 6). -/

/-- How a channel comes out of a start. -/
structure ChanStart where
  state : Nat
  cause : Nat
  stored : Bool
  full : Bool
  err : Option Nat
  deriving DecidableEq, Repr

/-- Training of a channel (spec 00 R3, spec 10 R436, R437, R440, spec 13 R526). A cold start trains in full; a warm one uses
the values stored for the DIMM's serial number, unless they are rejected. -/
def chanStart (s : State) (f : StartFinds) (warm : Bool) (c : Fin 24) : ChanStart :=
  let serial := f.serials.getD c 0
  let storedFor := ((flashPart s false).training.getD c 0) == serial
  let no (cause : Nat) (err : Option Nat) : ChanStart := { state := 0, cause := cause, stored := false, full := false, err := err }
  if !bit (configInForce s).dimmPop c ∨ serial = 0 then no 1 none
  else if f.foreign.contains c then no 2 (some 0x0502)
  else if warm && storedFor && !f.storedBad.contains c then { state := 2, cause := 0, stored := true, full := false, err := none }
  else if f.trainBad.contains c || (s.dimms[c].repair && f.storedBad.contains c) then
    { state := 0, cause := 3, stored := false, full := true, err := some 0x0501 }
  else { state := 2, cause := 0, stored := false, full := true, err := if warm && storedFor then some 0x0507 else none }

/-- Bring up every channel. Answers whether one trained in full. -/
def startChannels (s : State) (f : StartFinds) (warm : Bool) : State × Bool :=
  (List.finRange 24).foldl (fun (x : State × Bool) (c : Fin 24) =>
    let s := x.1
    let r := chanStart s f warm c
    let ppr := (f.ppr.filter (fun y => y.1 == c)).foldl (fun n y => n + y.2) 0
    let d := s.dimms[c]
    let d := if d.repair then { d with repair := false, ppr := d.ppr + ppr } else d
    let s := s.modDimm c (fun _ => d)
    let s := (s.setF Reg.DDR_PPR_ROWS c 0 (min 65535 d.ppr)).setF Reg.DDR_DIMM_SERIAL c 0 (f.serials.getD c 0)
    let s := setChan (s.setF Reg.DDR_STORED_USED c 0 (b2n r.stored)) c r.state r.cause
    let s := match r.err with
      | some e => s.recordErr 5 0 c e c 0
      | none => s
    let fa := flashPart s false
    let s := if r.full && r.state == 2 then setFlash s false { fa with training := fa.training.set c (f.serials.getD c 0) } else s
    (s, x.2 || r.full)) (s, false)

/-- Are the channels in service and the serial numbers those of the previous start (spec 10 R435)? -/
def sameChannels (s : State) (f : StartFinds) : Bool :=
  (List.finRange 24).all (fun c => s.dimms[c].served == chanInService s c && s.dimms[c].serial == f.serials.getD c 0)

/-- Does the retained-region table pass its check (spec 09 R397)? -/
def retainedOk (m : Memory) : Bool :=
  let h := Memory.readN m 0 16
  let n := field h 2 2
  field h 0 2 == 0x7E7A && decide (n ≤ 4095) && field h 4 4 == crc32c (Memory.readN m 16 (16 * n))

/-- The wipe (spec 13 R518): lines outside the kept ranges get zeros with valid check bits. -/
def wipeDram (s : State) (keep : Bool) : State :=
  if !keep then { s with dram := [], dramCe := [], dramUe := [], digests := [] }
  else
    let rs := retainedRanges s.dram
    let kept (l : Nat) : Bool := rs.any (fun r => decide (r.1 ≤ l) && decide (l < r.1 + r.2))
    { s with dram := keepRetained s.dram, dramCe := s.dramCe.filter kept, dramUe := s.dramUe.filter kept }.setF
      Reg.CONFIG_RETAINED_RANGES 0 0 rs.length

/-- Order 6 as a whole: the start's kind is 0 COLD, 1 WARM, 2 WARM_DRAM_COLD (spec 13 R516). -/
def startDram (s : State) (f : StartFinds) (warm : Bool) : State :=
  let r := startChannels s f warm
  let s := r.1
  let keep := warm && !r.2 && sameChannels s f
  let s := wipeDram (s.setF Reg.CONFIG_START_KIND 0 0 (if keep then 1 else if warm then 2 else 0)) keep
  { s with dimms := Vector.ofFn (fun c : Fin 24 =>
      { s.dimms[c] with served := chanInService s c, serial := f.serials.getD c 0 }) }

/-! Voltages and frequencies (order 5, spec 12 R511). -/

def startAgeing (s : State) (f : StartFinds) : State :=
  let newest := (List.range 32).map (newestDrift s)
  let s := (List.range 32).foldl (fun s c => match newest.getD c none with
    | some r => s.setF Reg.AGE_V_SET (c / 8) (c % 8) (min 850 (field r 16 2))
    | none => s) s
  let nOf (n : Fin 4) : Nat :=
    ((List.range 8).filterMap (fun k => (newest.getD (8 * n.val + k) none).map (fun r => field r 18 1))).foldl min 56
  let s := { s with power := { s.power with plan := Vector.ofFn nOf } }
  let s := (List.finRange 4).foldl (fun (s : State) (n : Fin 4) => (s.setF Reg.BRK_TARGET_N 0 n (nOf n)).setF Reg.BRK_CUR_N 0 n (nOf n)) s
  let s := if (flashPart s false).drift.any driftValid then s else s.recordErr 11 0 0 0x070B 0 0
  let s := f.ages.foldl actOnReading s
  let s := (List.finRange 4).foldl (fun (s : State) (n : Fin 4) =>
    if s.power.stepDue[n] then stepDownDone (s.setF Reg.BRK_CUR_N 0 n s.power.plan[n]) n else s) s
  writeDrift s 0 (List.range 32)

/-! Order 7 and 8. -/

/-- The first missing item of the minimum service set (spec 13 R529, Table 13.7); 0 when it holds. -/
def mssMissing (s : State) (f : StartFinds) (bad : List Nat) : Nat :=
  if !f.cp1Ok then 3
  else if hpRole s 0 ≠ 2 ∧ hpRole s 1 ≠ 2 then 4
  else if !f.mbxOk then 5
  else if !(List.range 4).any (fun n => stackServed (stackBad bad n)) then 6
  else if ((List.range 24).filter (fun c => chanInService s c && stackServed (stackBad bad (c / 6)))).length < 2 then 7
  else 0

/-- RWL registers from the configuration block and R519, the HDM decoder (spec 10 R407, spec 13 R526), then CFG_LOCK. -/
def startConfig (s : State) : State :=
  let b := configInForce s
  let s := (s.setF Reg.BRK_PCAP 0 0 b.pcap).setF Reg.BRK_T_THROTTLE_CFG 0 0 b.tThrottle
  let s := ((s.setF Reg.CTX_BASE 0 0 0x100000).setF Reg.PLC_BASE 0 0 0x1100000).setF Reg.COMMIT_WHOLE_JOURNAL_BASE 0 0 0x3100000
  let s := (List.range 8).foldl (fun s p =>
    let w := b.linkMap.getD p 0
    ((s.setF Reg.KML_MAP_MEMBER p 0 (bits w 11 0)).setF Reg.KML_MAP_PORT p 0 (bits w 14 12)).setF Reg.KML_MAP_VALID p 0 (b2n (bit w 15))) s
  let size := b.exportGib * 2 ^ 30
  let off := b.exportGib ≠ 0 ∧ b.exportBase + size > dramSize s
  let s := s.setF Reg.CONFIG_EXPORT_OFF 0 0 (b2n off)
  let s := { s with torusFabric := b.torus
                    power := { s.power with hdm := if b.exportGib = 0 ∨ off then none else some (b.exportBase, size) } }
  s.setF Reg.CONFIG_CFG_LOCK 0 0 1

/-! The end of a start. -/

/-- START_MS: from release of reset to RUNNING or SERVICE_ONLY. -/
def stampStart (s : State) : State := s.setF Reg.CONFIG_START_MS 0 0 ((s.now - s.fw.startedAt) / 1000000)

/-- SERVICE_ONLY: stage 1 serves the mailbox (spec 11 R450, spec 13 R529). -/
def serviceOnly (s : State) (code : Nat) : State :=
  let s := if code = 0 then s else fwError s code 0
  stampStart (setFwState { s with fw := { s.fw with loadWaitFrom := none } } 2 code)

/-- Indices of a table's 64-byte entries that hold anything but zeros. -/
def usedEntries (m : Memory) (base n : Nat) : List Nat :=
  ((m.filter (fun c => decide (base ≤ c.1) && decide (c.1 < base + 64 * n))).map (fun c => (c.1 - base) / 64)).eraseDups

/-- After a warm start: the retained contexts are bound again and scanned (spec 07 R324); every other entry is free. -/
def restoreDomains (s : State) : State :=
  let base := s.getF Reg.CTX_BASE 0 0
  let s := (usedEntries s.dram base 262144).foldl (fun (s : State) (i : Nat) =>
    let e := Memory.readN s.dram (base + 64 * i) 64
    let w := field e 0 4
    if field e 60 4 = crc32c (e.take 60) ∧ bits w 17 0 = i ∧ bits w 19 18 ≠ 0 ∧ bit w 20 then
      let d := withDigests s { entryDomain i e with entry := withIdState e (w - bits w 19 18 * 2 ^ 18 + 2 ^ 18) }
      scanNow (keepEntry (s.setDomain d) d) i
    else { s with dram := Memory.clear s.dram (base + 64 * i) (base + 64 * i + 64) }) s
  let pb := s.getF Reg.PLC_BASE 0 0
  let used := (usedEntries s.dram pb 524288).filter (fun i => placeOk (placeBytes s i))
  countContexts (s.setF Reg.PLC_IN_USE 0 0 used.length)

/-- The error code that a latched trip had (spec 12 Table 12.11). -/
def tripCode (cause : Nat) : Nat :=
  match cause with
  | 1 => 0x0702 | 2 => 0x0703 | 3 => 0x0704 | 4 => 0x0707 | _ => 0x0708

/-- The runtime image runs (spec 11 R451; orders 9 to 11 of spec 13 Table 13.1): it lies in slot 0, CP1 to CP3 start, the
ports are enabled, the retained domains are scanned, and the device is RUNNING. -/
def startRuntime (s : State) (i : List Byte) (flash fb : Bool) : State :=
  let s := setRtSlot { s with fw := { s.fw with loadWaitFrom := none } } 0 { image := i, locked := true }
  let s := putInForce s 0
  let s := (s.setF Reg.MBX_RUNTIME_FLASH 0 0 (b2n flash)).setF Reg.MBX_RUNTIME_FB 0 0 (b2n fb)
  let s := setCpState s 1 2
  let s := if s.fw.cp23Ok then setCpState (setCpState s 2 2) 3 2 else enterSafeFloor s 0
  let s := { s with fw := { s.fw with kicks := Vector.replicate 4 s.now }
                    power := { s.power with liveAt := s.now, driftAt := s.now, idleAt := (List.range 32).map (fun c => (c, s.now)) } }
  let s := if s.fw.cp23Ok then (List.finRange 8).foldl (fun (s : State) (p : Fin 8) => portEnable (s.setF (Hdr.ENABLE 4) p 0 1) p true) s else s
  let s := if s.getF Reg.CONFIG_START_KIND 0 0 = 1 then restoreDomains s else s
  let s := stampStart (setFwState (settleRegions s) 3 0)
  let s := if s.flag Reg.CONFIG_CFG_DEFAULTED 0 0 then evtFault s 0 15 0 (s.getF Reg.CONFIG_DEFAULT_CAUSE 0 0) 0 0xFFFF 0x7FFFF else s
  let c := s.getF Reg.BRK_TRIP_CAUSE 0 0
  if c = 0 then s else evtFault s (tripCode c) 6 0 (s.getF Reg.BRK_TRIP_INFO 0 0) 0 0xFFFF 0x7FFFF

/-- Stage 1 takes the FA runtime image, or else the FB image; with neither, SERVICE_ONLY (spec 11 R450). -/
def takeFlashRuntime (s : State) : State :=
  let a := (flashPart s false).runtime
  let b := (flashPart s true).runtime
  match imageCheck s 2 0 a with
  | none => startRuntime s a true false
  | some e =>
    let s := imageFails s e
    match imageCheck s 2 1 b with
    | none => startRuntime s b true true
    | some e => serviceOnly (imageFails s e) 0x0608

/-- Stage 1 is in force: its identity, the boot count and the cause of a defaulted configuration (spec 13 Table 13.1). -/
def stage1Begins (s : State) (f : StartFinds) (i : List Byte) : State :=
  let s := { s with fw := { s.fw with stage1 := i, cp23Ok := f.cp23Ok } }
  let s := setCpState ((s.setF Reg.MBX_STAGE1_ID 0 0 (imgId i))) 0 2
  let fa := flashPart s false
  let count := (field fa.security 0 4 + 1) % 2 ^ 32
  let s := setFlash s false { fa with security := toLe 4 count ++ fa.security.drop 4 }
  let s := s.setF Reg.CONFIG_BOOT_COUNT 0 0 count
  let s := setFwState s 1 0
  let cause := configCause (flashPart s false).config
  (s.setF Reg.CONFIG_CFG_DEFAULTED 0 0 (b2n (cause != 0))).setF Reg.CONFIG_DEFAULT_CAUSE 0 0 cause

/-- The host ports of a start (spec 10 R410). -/
def startHostPorts (s : State) (f : StartFinds) : State :=
  let s := f.hostUp.foldl (fun (s : State) (p : Fin 2) => if hpRole s p = 0 then hostLinkUp s p true true true s.now else s) s
  if hpRole s 0 ≠ 2 ∧ hpRole s 1 = 1 then setRole s 1 2 else s

/-- The clusters that a start finds unserviceable (spec 02 R46). -/
def startBad (s : State) (f : StartFinds) : List Nat := ((f.badClusters.map (·.val)) ++ s.power.failedClusters).eraseDups

/-- Grid, clusters, ageing and DRAM of a start (spec 13 Table 13.1). -/
def startBlocks (s : State) (f : StartFinds) (warm : Bool) : State :=
  let bad := startBad s f
  let s := powerClusters (setGridMap { s with power := { s.power with failedClusters := [] } } bad)
  startDram (startAgeing s f) f warm

/-- Stage 1 runs: orders 1 to 9 of Table 13.1. -/
def runStage1 (s : State) (f : StartFinds) (i : List Byte) (warm : Bool) : State :=
  let s0 := startHostPorts (stage1Begins s f i) f
  let s := startBlocks s0 f warm
  let missing := mssMissing s f (startBad s0 f)
  let s := startConfig (s.setF Reg.CONFIG_MSS_MISSING 0 0 missing)
  if lcState s = 3 ∨ missing ≠ 0 then serviceOnly s 0
  else if (configInForce s).flashSource then takeFlashRuntime s
  else { s with fw := { s.fw with loadWaitFrom := some s.now } }

/-- A start begins: what went before is reset, and the hearth has power (spec 13 R517). -/
def startBegins (s : State) (reason t : Nat) (going : Bool) : State :=
  let s := s.atTime t
  let s := if !going && (reason == 2 || reason == 3) then resetEntry s else s
  let from_ := s.power.haFrom.getD s.now
  let s := { s with power := { s.power with startDue := none, fresh := false, dramHeld := false, haFrom := some from_ } }
  let s := (powerHearth s).setF Reg.CONFIG_START_REASON 0 0 reason
  { s with fw := { s.fw with startedAt := if going then s.fw.startedAt else from_ } }

/-- No stage-1 image passes: CP0 stays in ROM_RECOVERY (spec 11 R447). -/
def romRecovery (s : State) (f : StartFinds) (e : Nat × Nat) (warm : Bool) : State :=
  let s := fwError (imageFails s e) 0x0607 0
  let s := setFwState (setCpState s 0 1) 0 0x0607
  let s := f.hostUp.foldl (fun (s : State) (p : Fin 2) => hostLinkUp s p true true true s.now) s
  let s := if hpRole s 0 ≠ 2 ∧ hpRole s 1 = 1 then setRole s 1 2 else s
  { s with power := { s.power with dramHeld := warm } }

/-- A start (spec 13 R514 to R517). In ROM_RECOVERY it goes on from a stage 1 that IMAGE_LOAD has brought. -/
def deviceStart (s : State) (f : StartFinds) : State :=
  match s.power.startDue with
  | none => s
  | some reason =>
    if !s.power.vaux ∨ s.power.perstLow ∨ s.power.tripped then s
    else
      let going : Bool := s.getF Reg.CP_STATE 0 0 == 1
      let reset := if !going && (reason == 2 || reason == 3) then resetEntry (s.atTime f.time) else s
      let warm : Bool := decide ((reason = 1 ∨ reason = 2) ∧ reset.power.dramHeld ∧ !reset.power.fresh ∧ retainedOk reset.dram)
      let s := startBegins s reason f.time going
      if going then runStage1 s f s.fw.stage1 warm
      else
        let a := (flashPart s false).stage1
        let b := (flashPart s true).stage1
        match imageCheck s 1 0 a with
        | none => runStage1 s f a warm
        | some e =>
          let s := imageFails s e
          match imageCheck s 1 1 b with
          | none => runStage1 (s.setF Reg.MBX_S1_FB 0 0 1) f b warm
          | some e => romRecovery s f e warm

end Sys2Proof.Machine
end

