-- ==== Sys2Proof/Machine/FirmwareOps.lean ====
section
/-! DEFINITION. Firmware at work: serving the mailbox (spec 11 R455 to R461), doorbells (R463), live update (R475 to
R477), watchdogs and escalation (R478 to R482), host loss (R483, R484), the wait for a runtime image (R450). -/

namespace Sys2Proof.Machine

set_option Elab.async false

/-! Requests. -/

/-- IMAGE_LOAD (spec 11 R449, R450, R474). An image in the wrong state for its KIND gets NACK_STATE. -/
def imageLoad (s : State) (p dma : List Byte) : Answer :=
  let kind := field p 0 1
  let i := dma.take (field p 16 4)
  let st := fwState s
  if kind ≠ 1 ∧ kind ≠ 2 then nackRange s 0
  else if st = 0 then
    if kind ≠ 1 then nackState s
    else match imageCheck s 1 0 i with
      | some e => nackVerify (imageFails s e) e.1
      | none => okay { s with
          fw := { s.fw with stage1 := i }
          power := { s.power with startDue := some (s.getF Reg.CONFIG_START_REASON 0 0) } }
  else if kind ≠ 2 then nackState s
  else if st = 1 then
    match s.fw.loadWaitFrom with
    | none => nackState s
    | some w =>
      if s.now > w + 300000000000 then nackState s
      else match imageCheck s 2 0 i with
        | some e => nackVerify (imageFails s e) e.1
        | none => okay (startRuntime s i false false)
  else loadStandby s i

/-- What an opcode of Table 11.11 does (spec 11 R461). -/
def serveOp (s : State) (op seq : Nat) (p dma dma2 : List Byte) : Answer :=
  match op with
  | 0x01 => okWith s (getVersion s)
  | 0x02 => okWith s (deviceInfo s)
  | 0x03 => bind s seq p
  | 0x04 => unbind s
  | 0x10 => imageLoad s p dma
  | 0x11 => scheduleHandover s p
  | 0x12 => flashWrite s p dma
  | 0x13 => svnRaise s p
  | 0x14 => attestTo s p
  | 0x20 => memberSet s p
  | 0x21 => spareSet s p
  | 0x22 => groupSet s p dma dma2
  | 0x30 => queueCreate s p
  | 0x31 => queueDestroy s p
  | 0x32 => queueRingSet s p
  | 0x33 => queueSetStopped s p true
  | 0x34 => queueSetStopped s p false
  | 0x35 => queueQuery s p
  | 0x40 => contextCreate s p
  | 0x41 => contextDestroy s p
  | 0x42 => placementWrite s p dma
  | 0x43 => domainSet s p
  | 0x44 => upbSubmit s p
  | 0x45 => retainSet s p
  | 0x46 => baseLoad s p
  | 0x50 => exportRequest s p
  | 0x51 => cellarRestore s p dma
  | 0x60 => channelRetire s p
  | 0x61 => logRead s p
  | 0x62 => lifecycleSet s p dma
  | _ => nack s 5

/-- A request's payload. -/
def reqPayload (b : List Byte) : List Byte := (b.drop 32).take (field b 8 2)

/-- Row 1 of Table 11.9: CHECK, LENGTH, RESPONSE, EVENT, STATUS and the reserved fields. -/
def formatOk (b : List Byte) : Bool :=
  decide (b.length ≥ 32) && decide (field b 8 2 ≤ 224) && field b 10 6 == 0 && field b 24 4 == 0 &&
    field b 28 4 == crc32c (b.take 28 ++ reqPayload b)

/-- Rows 4 to 7 of Table 11.9. -/
def executeRequest (s : State) (r : MbxRequest) : Answer :=
  let op := field r.bytes 2 2
  if !opcodeListed op then nack s 5
  else if !opcodeAccepted (fwState s) op ∨ (lcState s = 3 ∧ op ≠ 0x01 ∧ op ≠ 0x02 ∧ op ≠ 0x61) then nackState s
  else serveOp s op (field r.bytes 4 4) (reqPayload r.bytes) r.dma r.dma2

/-- The response to a request (spec 11 R457, R458): VERSION, OPCODE, SEQ and TAG of the request. -/
def responseOf (r : List Byte) (status : Nat) (data : List Byte) : List Byte :=
  let h := toLe 2 (field r 0 2) ++ toLe 2 (field r 2 2) ++ toLe 4 (field r 4 4) ++ toLe 2 data.length ++ toLe 2 1 ++ toLe 2 status ++
    toLe 2 0 ++ toLe 8 (field r 16 8) ++ toLe 4 0
  h ++ toLe 4 (crc32c (h ++ data)) ++ data

/-- Put a response into the ring, advance the indices, signal vector 0 (spec 11 R456). -/
def placeResponse (s : State) (x : List Byte) (status : Nat) : State :=
  let m := s.mbx
  let at_ := m.rspTail % 64
  let s := { s with mbx := { m with
      responses := m.responses.filter (fun (y : Nat × List Byte) => y.1 != at_) ++ [(at_, x)]
      rspTail := (m.rspTail + 1) % 2 ^ 32
      reqHead := (m.reqHead + 1) % 2 ^ 32 } }
  let s := s.countF Reg.MBX_REQUESTS 0 0 1
  let s := if 1 ≤ status ∧ status ≤ 10 then s.countF Reg.MBX_NACKS 0 0 1 else s
  s.send (.msix 0)

/-- Keep the response to a request that consumed its SEQ, of the last 64 (spec 11 R459). -/
def keepResponse (s : State) (seq check : Nat) (x : List Byte) : State :=
  let k := s.mbx.kept.filter (fun (y : Nat × Nat × List Byte) => y.1 != seq) ++ [(seq, check, x)]
  { s with mbx := { s.mbx with kept := k.drop (k.length - 64) } }

/-- Serve one request: the checks of Table 11.9 in order (spec 11 R458, R459). DEDUCED: GET_VERSION consumes no SEQ; BIND
consumes its own when it is accepted (log entry 55). -/
def serveRequest (s : State) (r : MbxRequest) : State :=
  let b := r.bytes
  let op := field b 2 2
  let seq := field b 4 4
  let check := field b 28 4
  let reply (a : Answer) (consumed : Bool) : State :=
    let x := responseOf b a.status a.data
    let s := if consumed then keepResponse a.s seq check x else a.s
    placeResponse s x a.status
  let lo := s.getF Reg.MBX_VER_MIN 0 0
  let hi := s.getF Reg.MBX_VER_MAX 0 0
  if !formatOk b then reply (nack s 2) false
  else if op ≠ 1 ∧ (field b 0 2 < lo ∨ field b 0 2 > hi) then
    reply { s := s, status := 1, data := toLe 2 lo ++ toLe 2 hi } false
  else if op = 1 then reply (executeRequest s r) false
  else if op = 3 then
    let a := executeRequest s r
    reply a (a.status == 0)
  else if seq = s.getF Reg.MBX_EXPECTED_SEQ 0 0 then reply (executeRequest (s.setF Reg.MBX_EXPECTED_SEQ 0 0 (seq + 1)) r) true
  else match s.mbx.kept.find? (fun y => y.1 == seq) with
    | none => reply (nack s 3) false
    | some (_, c, x) => if c = check then placeResponse s x (field x 12 2) else reply (nack s 4) false

/-- Is a processor serving the mailbox: CP0 in ROM_RECOVERY and under stage 1, CP1 under the runtime image? -/
def mailboxServed (s : State) : Bool :=
  s.power.vaux && s.power.startDue.isNone && s.getF (Hdr.ENABLE 8) 0 0 == 1 &&
    (if fwState s = 0 then s.getF Reg.CP_STATE 0 0 == 1 else if fwState s ≤ 2 then cpUp s 0 else cpUp s 1)

def rspFree (m : Mailbox) : Bool := decide ((m.rspTail + 2 ^ 32 - m.rspHead) % 2 ^ 32 < 64)

/-- Serve the waiting requests in index order, while the response ring has room (spec 11 R456). -/
def serveAll : Nat → State → State
  | 0, s => s
  | n + 1, s =>
    match s.mbx.waiting with
    | [] => s
    | r :: rs =>
      if !mailboxServed s ∨ !rspFree s.mbx then s
      else serveAll n (serveRequest { s with mbx := { s.mbx with waiting := rs } } r)

def serveMailbox (s : State) : State := serveAll 65 s

/-! Host writes to BAR2. -/

def hostActive (s : State) : Bool := hpRole s 0 == 2 || hpRole s 1 == 2

/-- Every bound domain's cellar is retained, and the table written (spec 11 R482, R484). -/
def retainBound (s : State) : State :=
  writeRetained (s.domains.foldl (fun (s : State) (d : Domain) =>
    if !d.bound then s
    else changeDomain s d.id (fun d =>
      let w := field d.entry 0 4
      { d with retained := true, entry := withIdState d.entry ((if bit w 20 then w - 2 ^ 20 else w) + 2 ^ 20) })) s)

/-- The host-loss expiry passes without a host write in time: the device enters HOLD. -/
def hostLossTimeout (s : State) (t : Nat) : State :=
  let e := s.getF Reg.QMGR_HOST_LAST_SEEN 0 0 + 1000000000 * s.getF Reg.QMGR_HOST_LOSS_TIMEOUT 0 0 + s.fw.hostPaused
  if !s.fw.everBound ∨ fwState s ≠ 3 ∨ !cpUp s 1 ∨ t < e then s
  else
    let s := (s.atTime t).countF Reg.QMGR_HOLD_ENTRIES 0 0 1
    let s := retainBound { s with fw := { s.fw with holdAt := some e } }
    let s := fwError s 0x060C (s.getF Reg.QMGR_HOST_LAST_SEEN 0 0 % 2 ^ 32)
    let s := setFwState s 4 0x060C
    s.domains.foldl (fun (s : State) (d : Domain) =>
      if d.run.isSome ∨ d.parked then s else reportStop (s.modDomain d.id (fun d => { d with parked := true })) d.id) s

/-- A host write to BAR2 at device time `t`: it renews the host-loss timer while a driver is bound; an expiry that has passed
by then comes first (spec 11 R483). -/
def hostWrite (s : State) (t : Nat) : State :=
  let s := hostLossTimeout (s.atTime t) (t - 1)
  if s.flag Reg.MBX_BOUND 0 0 then { s with fw := { s.fw with hostPaused := 0 } }.setF Reg.QMGR_HOST_LAST_SEEN 0 0 t else s

/-- The host puts a request into the ring and writes REQ_TAIL + 1 (spec 11 R456). -/
def mailboxRequest (s : State) (r : MbxRequest) (t : Nat) : State :=
  if !hostActive s then s
  else
    let s := hostWrite s t
    let m := s.mbx
    if (m.reqTail + 2 ^ 32 - m.reqHead) % 2 ^ 32 ≥ 64 then fwError s 0x0611 ((m.reqTail + 1) % 2 ^ 32)
    else serveMailbox { s with mbx := { m with waiting := m.waiting ++ [r], reqTail := (m.reqTail + 1) % 2 ^ 32 } }

/-- The bytes of a request (spec 11 Table 11.8). -/
def requestBytes (op : Nat) (a : MbxArgs) : List Byte :=
  let h := toLe 2 a.version.toNat ++ toLe 2 op ++ toLe 4 a.seq.toNat ++ toLe 8 a.payload.length ++ toLe 8 a.tag.toNat ++ toLe 4 0
  h ++ toLe 4 (crc32c (h ++ a.payload)) ++ a.payload

def request (s : State) (op : Nat) (a : MbxArgs) : State :=
  mailboxRequest s { bytes := requestBytes op a, dma := a.dma, dma2 := a.dma2 } a.time

/-- The host frees response entries. A value outside what is written and unread is ignored. -/
def rspHeadWrite (s : State) (v t : Nat) : State :=
  if !hostActive s then s
  else
    let s := hostWrite s t
    let m := s.mbx
    if (v + 2 ^ 32 - m.rspHead) % 2 ^ 32 > (m.rspTail + 2 ^ 32 - m.rspHead) % 2 ^ 32 then s
    else serveMailbox { s with mbx := { m with rspHead := v % 2 ^ 32 } }

/-- The host frees event entries, and buffered events enter the ring. -/
def evtHeadWrite (s : State) (v t : Nat) : State :=
  if !hostActive s then s
  else
    let s := hostWrite s t
    let m := s.mbx
    if (v + 2 ^ 32 - m.evtHead) % 2 ^ 32 > (m.evtTail + 2 ^ 32 - m.evtHead) % 2 ^ 32 then s
    else drainEvents 4096 { s with mbx := { m with evtHead := v % 2 ^ 32 } }

/-- A doorbell of queue `q` (spec 11 R463): `v` is the word written, `es` the submission entries that the host's ring
holds from the old tail up to the new one. A tail beyond the ring, or a head beyond what is written, is ignored. -/
def doorbell (s : State) (qid v : Nat) (es : List (List Byte)) (t : Nat) : State :=
  if !hostActive s then s
  else
    let s := hostWrite s t
    match s.queue? qid with
    | none => s
    | some q => match q.rings with
      | none => s
      | some r =>
        let tail := bits v 15 0
        let head := bits v 31 16
        let n := (tail + 65536 - q.subTail) % 65536
        let q := if q.waiting.length + n > 2 ^ r.subLog ∨ es.length ≠ n then q else { q with subTail := tail, waiting := q.waiting ++ es }
        let q := if (head + 65536 - q.cplHead) % 65536 > (q.cplTail + 65536 - q.cplHead) % 65536 then q else { q with cplHead := head }
        let s := s.setQueue q
        if q.stalled ∧ q.cplFree > 0 then setStalled s q false else s

/-- May the doorbell bring these entries: as many as the tail advances, 64 bytes each? -/
def doorbellFormed (s : State) (qid v : Nat) (es : List (List Byte)) : Bool :=
  match s.queue? qid with
  | none => true
  | some q => es.length == (bits v 15 0 + 65536 - q.subTail) % 65536

/-! Live update (spec 11 R475 to R477). -/

/-- Does no unit run? -/
def noUnit (s : State) : Bool := s.queues.all (fun q => q.unit.isNone) && s.domains.all (fun d => d.run.isNone)

/-- Has the named domain reached the boundary that ends step H − 1? -/
def handoverReached (s : State) (d h : Nat) : Bool :=
  d == 0x7FFFF || (match s.domain? d with
    | some x => decide (x.nextStep ≥ h)
    | none => true)

/-- All three runtime processors start a period anew. -/
def rekick (s : State) : State :=
  { s with fw := { s.fw with kicks := Vector.ofFn (fun (k : Fin 4) => if k = 0 then s.fw.kicks[k] else s.now) } }

/-- The handover: records are written, the standby slot comes into force, CP1 to CP3 start from it. A new processor
accepts a record only of a format within HANDOVER_FMT. DEDUCED: a record has the highest format that the old image
accepts (log entry 56). What the boundary held behind it follows: frequencies, and the next step (spec 01 Table 1.2, orders 5
to 8). -/
def handoverBegin (s : State) (t : Nat) : State :=
  let s := s.atTime t
  match s.fw.handover with
  | none => s
  | some (d, h) =>
    let k := 1 - s.fw.inForce % 2
    let old := (rtSlot s s.fw.inForce).image
    let new := (rtSlot s k).image
    if !noUnit s ∨ !handoverReached s d h ∨ !cpUp s 1 ∨ fwState s ≠ 3 then s
    else
      let s := { s with fw := { s.fw with handover := none } }
      let s := if imgFmtHi old < imgFmtLo new ∨ imgFmtHi old > imgFmtHi new then rekick (fwError s 0x0609 1)
        else
          let s := rekick (putInForce s k)
          serveMailbox (evtFwState { s with fw := { s.fw with handoverAt := some s.now } } 0)
      unitStart (applyFrequencies s) t

/-- A step boundary of a domain is reached at device time `t` (spec 01 R38): CP1 applies the held changes in the order of Table 1.2,
then starts the next step. With no step running, what has become due since applies. A handover that is due comes before the
frequencies; where other units still run, the rest waits for it. `others`: the agreed copy is valid on every other member. -/
def stepBoundary (s : State) (id : Nat) (others : Bool) (t : Nat) : State :=
  let s := s.atTime t
  if !cpUp s 1 then s
  else match s.domain? id with
    | none => s
    | some d =>
      let waits : Bool := match d.run with
        | none => false
        | some r => !decide (r.phase = .committed) || stepActive s d
      if waits then s
      else
        let s := rerouteIdle (boundaryHeld s d others)
        if fwState s = 3 ∧ s.fw.handover.any (fun x => handoverReached s x.1 x.2) then handoverBegin s t
        else boundaryStarts s id t

/-! Watchdogs (spec 11 R478 to R482). -/

/-- WDT_PERIOD of a processor in ns: values outside 10 to 10,000 ms act as the default (spec 11 Table 11.19). -/
def wdtPeriod (s : State) (n : Fin 4) : Nat :=
  let v := s.getF Reg.CP_WDT_PERIOD n 0
  1000000 * (if 10 ≤ v ∧ v ≤ 10000 then v else if n = 0 then 500 else 100)

/-- A processor restarts its watchdog period. -/
def wdtKick (s : State) (n : Fin 4) (t : Nat) : State :=
  let s := s.atTime t
  let st := s.getF Reg.CP_STATE n 0
  if (st ≠ 1 ∧ st ≠ 2) ∨ t > s.fw.kicks[n] + wdtPeriod s n then s
  else { s with fw := { s.fw with kicks := s.fw.kicks.set n (max t s.fw.kicks[n]) } }

/-- CP3 reports MEMBER_STOP for every group. -/
def reportStopAll (s : State) : State := if cpUp s 3 then (s.domains.map (·.id)).foldl reportStop s else s

/-- The device moves to ESCALATING (spec 11 R482). -/
def escalate (s : State) (n : Nat) : State :=
  if fwState s = 5 then s
  else
    let s := fwError s 0x060B n
    let s := reportStopAll s
    setFwState { s with fw := { s.fw with escalatedAt := some s.now } } 5 0x060B

/-- The watchdog of a runtime processor expired: it is reset and is to restart from its slot. `copyOk` says whether the
CRC-32C of its section still matches. -/
def restartCp (s : State) (n : Fin 4) (copyOk : Bool) : State :=
  let old := s.fw.restarts[n].filter (fun u => decide (s.now < u + 600000000000))
  let s := { s with fw := { s.fw with restarts := s.fw.restarts.set n (old ++ [s.now]) } }
  let s := (s.countF Reg.CP_RESTARTS n 0 1)
  let s := fwError (setCpState s n 3) 0x060A n
  let s := if n = 2 then enterSafeFloor s 0 else s
  if !copyOk then escalate (fwError s 0x0612 n) n
  else if old.length ≥ 2 then (if n = 2 then setCpState s 2 4 else escalate s n) else s

/-- A watchdog expires; a kick at or before the expiry is in time. Within 1 s of a handover the old slot comes back
(spec 11 R477). DESIGN CHOICE: CP0's STATE is STOPPED from its expiry on (log entry 57). -/
def watchdogExpiry (s : State) (n : Fin 4) (copyOk : Bool) (t : Nat) : State :=
  let st := s.getF Reg.CP_STATE n 0
  if (st ≠ 1 ∧ st ≠ 2) ∨ t < s.fw.kicks[n] + wdtPeriod s n ∨ !s.power.vaux ∨ fwState s = 5 then s
  else
    let s := s.atTime t
    if n = 0 then setCpState (escalate s 0) 0 4
    else if s.fw.handoverAt.any (fun h => decide (t ≤ h + 1000000000)) then
      let s := putInForce s (1 - s.fw.inForce % 2)
      let s := fwError { s with fw := { s.fw with handoverAt := none } } 0x0609 n
      rekick (evtFwState s 0x0609)
    else restartCp s n copyOk

/-- CP3 sends the tables of its own that are not sent and asks for those it lacks (spec 11 R481, spec 09 R377). -/
def resumeGroups (s : State) : State :=
  s.domains.foldl (fun (s : State) (d : Domain) => match d.group with
    | none => s
    | some g =>
      if g.size < 2 ∨ g.state ≠ .member then s
      else if g.isCoord then formTable s d.id
      else if g.tableStep = d.lastStep then s
      else sendPos s g g.coord msgTableAsk (toLe 4 d.id)) s

/-- A processor that its watchdog reset runs again within 20 ms (spec 11 R478 to R481). The journal of the model has no
command that was not accepted: a journal entry and its command are one effect. -/
def cpRestartComplete (s : State) (n : Fin 4) (t : Nat) : State :=
  if s.getF Reg.CP_STATE n 0 ≠ 3 then s
  else
    let s := setCpState (s.atTime t) n 2
    let s := s.setF Reg.CP_LAST_RESTART n 0 s.now
    let s := { s with fw := { s.fw with kicks := s.fw.kicks.set n s.now } }
    if n = 1 then serveMailbox { s with fw := { s.fw with hostPaused := s.fw.hostPaused + (s.now - s.fw.restarts[n].getLastD s.now) } }
    else if n = 2 then replan s else if n = 3 then resumeGroups s else s

/-- Abort what still runs: units and the steps of domains. -/
def abortRunning (s : State) : State :=
  let s := abortAll s
  let s := (s.domains.filter (fun (d : Domain) => d.run.isSome)).foldl (fun (s : State) (d : Domain) => abortStep s d.id 0) s
  s.queues.foldl (fun (s : State) (q : Queue) => s.setQueue { q with unit := none }) s

/-- The escalation's window ends, or nothing runs any more: cellars are retained and a warm start is due (spec 11 R482). -/
def escalationWindowExpiry (s : State) (t : Nat) : State :=
  match s.fw.escalatedAt with
  | none => s
  | some e =>
    if t < e + 10000000000 ∧ !noUnit s then s
    else
      let s := s.queues.foldl (fun (s : State) (q : Queue) => runComplete s q.id t) (s.atTime t)
      let s := retainBound (abortRunning s)
      { s with fw := { s.fw with escalatedAt := none }, power := { s.power with startDue := some 2 } }

/-! Host loss (spec 11 R483, R484). -/

/-- A RUN not halted 60 s after the expiry is aborted and completes STOPPED. -/
def holdRunLimit (s : State) (t : Nat) : State :=
  match s.fw.holdAt with
  | none => s
  | some h =>
    if fwState s ≠ 4 ∨ !cpUp s 1 ∨ t < h + 60000000000 then s
    else s.queues.foldl (fun (s : State) (q : Queue) => match q.unit with
      | some u => if q.isRun && !unitHalted s u then complete (endUnit (abortUnit s u) q.id true) q.id u.entry.id 3 true 0 0 else s
      | none => s) (s.atTime t)

/-- The wait for a runtime image ends: stage 1 takes one from flash (spec 11 R450). -/
def hostLoadWaitExpiry (s : State) (t : Nat) : State :=
  match s.fw.loadWaitFrom with
  | none => s
  | some w => if fwState s ≠ 1 ∨ t < w + 300000000000 then s else takeFlashRuntime (s.atTime t)

end Sys2Proof.Machine
end

