-- ==== Sys2Proof/Machine/RegAccess.lean ====
section
/-! DEFINITION. Register accesses (spec 14 R536 to R562, spec 00 R15 to R17): whose accesses a page takes, the common header,
what each word does when it is written, what it reads, the high-word latches. -/

namespace Sys2Proof.Machine

set_option Elab.async false

/-! Which accesses a page serves. -/

/-- The power domain of a page (spec 14 Table 14.2). -/
def pageDomain (ty inst : Nat) : Nat :=
  match ty with
  | 1 => inst / 4
  | 2 => regionOf (inst / 4)
  | 3 => if inst = 8 then domCru else 32 + inst
  | 4 => 32 + inst
  | 5 => 32 + inst / 3
  | 10 => 46 + inst
  | _ => if isAonBlock ty then domAon else domCp

/-- Is a page served: its domain is ON, or its cluster GATED (spec 14 R554)? -/
def pageOn (s : State) (ty inst : Nat) : Bool :=
  s.power.vaux && (domCur s (pageDomain ty inst) == 2 || (ty == 1 && domCur s (pageDomain ty inst) == 1))

/-- May the actor write a page's own registers and header (spec 14 R539; spec 03 R117; 07 R328; 10 R441; 11 R487; 12 R513;
13 R535; 14 R560)? -/
def pageWriter (s : State) (a : Actor) (ty inst : Nat) : Bool :=
  match a with
  | .host => false
  | .cp n =>
    if ty = 7 then n.val == inst || n.val == 0
    else if ty = 6 ∨ ty = 11 ∨ ty = 19 then powerWriter s a
    else if ty = 13 ∨ ty = 15 then n.val == 0
    else true

/-- A write of the actor reaches the page and may change it. -/
def pageTakes (s : State) (a : Actor) (ty inst : Nat) : Bool := pageOn s ty inst && pageWriter s a ty inst

/-- Fields that a running program's tile does not let change (spec 02 R105, 03 R149, 04 R189, 05 R237, 06 R284). -/
def tileGuarded (f : Fld) : Bool :=
  (f.ty == 1 && (f.pg == 1 || f.pg == 3 || f.pg == 4 || f.pg == 5 || f == Reg.TILE_ENTRY || f == Reg.TILE_PROG_LEN) && decide (f.off ≥ 0x100)) ||
    f == Reg.PANTRY_RUNAHEAD

/-- Fields of DOOR_CFG. -/
def doorCfg (f : Fld) : Bool := f.ty == 1 && f.pg == 1 && decide (0x100 ≤ f.off) && decide (f.off < 0x180)

/-- May the actor write this field of a plain register? A tile that serves no column holds no door configuration
(spec 02 R50). -/
def fieldTakes (s : State) (a : Actor) (inst idx : Nat) (f : Fld) : Bool :=
  if f = Reg.HP_FAILOVER_DELAY then true
  else if f = Reg.SEC_MEMBER then a == .cp 3
  else if !pageWriter s a f.ty inst then false
  else if f.acc = .rwl && s.flag Reg.CONFIG_CFG_LOCK 0 0 then false
  else if f.off < 0x100 then true
  else if f.ty = 1 ∨ f.ty = 2 then
    !(tileGuarded f && (if h : inst < 128 then (s.tile ⟨inst, h⟩).active else true)) && (!doorCfg f || s.tileActive inst)
  else if f.ty = 3 then
    if inst = 8 then a == .cp 1 else a == .cp 3 && !s.flag Reg.CH_OPEN inst idx
  else if f.ty = 14 then exportState s != 1 && exportState s != 2
  else if f.ty = 16 then a == .cp 1 || f == Reg.COMMIT_QUERY_DOMAIN || f == Reg.COMMIT_WHOLE_JOURNAL_BASE
  else true

/-! The common header (spec 14 R545 to R553). -/

/-- Physical tile of an instance number. -/
def tileOf (inst : Nat) : TileId := ⟨inst % 128, Nat.mod_lt _ (by decide)⟩

/-- BUSY of a block: it holds work that is queued or in progress (spec 14 R550). -/
def blockBusy (s : State) (ty inst : Nat) : Bool :=
  let t := s.tile (tileOf inst)
  match ty with
  | 1 => t.active || !t.arrays.empty || !t.gather.isEmpty || !t.marver.isEmpty || t.descs.toList.any (·.isSome)
  | 2 => !t.pantry.trans.isEmpty || t.descs.toList.any (·.isSome)
  | 3 => if inst = 8 then !s.cru.isEmpty || !s.cruQ.isEmpty else s.flag Reg.CH_OPEN inst 0 || s.flag Reg.CH_OPEN inst 1
  | 4 => match s.ports.toList[inst]? with
    | some p => !p.replay.isEmpty || !p.waiting.isEmpty
    | none => false
  | 6 => s.power.change.toList.any (·.isSome)
  | 8 => !s.mbx.waiting.isEmpty
  | 9 => s.queues.any (fun q => q.unit.isSome || !q.entries.isEmpty)
  | 14 => exportState s == 1 || exportState s == 2
  | 16 => !s.commitQ.isEmpty
  | 19 => !s.power.trans.isEmpty
  | _ => false

/-- READY: ENABLE is 1 and the block's own initialisation has ended: a bank's zero-fill, training (spec 14 R550). -/
def blockReady (s : State) (ty inst : Nat) : Bool :=
  s.getF (Hdr.ENABLE ty) inst 0 == 1 &&
    (match ty with
      | 2 => (s.tile (tileOf inst)).pantry.trans.all (fun x => x.target != 2)
      | 4 => let v := s.getF Reg.KML_STATE inst 0; v == 2 || v == 3 || v == 4
      | 5 => chanInService s inst
      | 10 => s.getF Reg.HP_ROLE inst 0 != 0
      | _ => true)

/-- FROZEN: stopped at a safe point under FREEZE (spec 14 R552, Table 14.6). -/
def blockFrozen (s : State) (ty inst : Nat) : Bool :=
  if ty = 1 then (s.tile (tileOf inst)).pstate == .frozen
  else s.getF (Hdr.FREEZE ty) inst 0 == 1 && (ty == 16 || ty == 14 || (ty == 3 && inst == 8))

/-- INT_STATUS bits that a page has (spec 14 Table 14.5; 03 Table 3.10; 06 Table 6.10; 07 Table 7.9; 08 Table 8.10; 09 Table
9.14). -/
def intBits (ty pg inst : Nat) : Nat :=
  match ty with
  | 1 => if pg = 5 then 4 else 2
  | 2 => 4
  | 3 => if inst = 8 then 5 else 2
  | 14 => 4
  | 16 => 4
  | 12 => 3
  | 4 | 5 | 6 | 7 | 8 | 10 | 19 => 2
  | _ => 1

/-- INT_STATUS bits written 1 clear; with ERROR the three error registers return to 0 (spec 14 R548). -/
def clearInt (s : State) (ty pg inst v : Nat) : State :=
  let old := s.getF (Hdr.INT_STATUS ty pg) inst 0
  let s := s.setF (Hdr.INT_STATUS ty pg) inst 0 (old - (old &&& v))
  if bit v 0 then s.resetFlds [Hdr.ERR_CODE ty pg, Hdr.ERR_INFO0 ty pg, Hdr.ERR_INFO1 ty pg] inst else s

/-- INT_FORCE: the bits are set; nothing is recorded (spec 14 R549). -/
def forceInt (s : State) (ty pg inst v : Nat) : State :=
  s.setF (Hdr.INT_STATUS ty pg) inst 0 (s.getF (Hdr.INT_STATUS ty pg) inst 0 ||| (v % 2 ^ intBits ty pg inst))

/-- Counts of cycles are not modelled: what an event of R553 that counts cycles has added is a free value. -/
def settlePerf (s : State) (ty inst : Nat) : State :=
  let e := s.getF (Hdr.PERF_EVENT ty) inst 0
  if e = 1 ∨ e = 2 ∨ (e = 4 ∧ (ty = 2 ∨ (ty = 3 ∧ inst ≠ 8))) then
    (s.countF (Hdr.PERF_COUNT ty) inst 0 (Config.freeNat s.free)).useFree
  else s

/-- An access that page 0 of a block serves (spec 14 R553, event 3). -/
def countAccess (s : State) (ty inst pg : Nat) : State :=
  if pg = 0 ∧ s.getF (Hdr.PERF_EVENT ty) inst 0 = 3 then s.countF (Hdr.PERF_COUNT ty) inst 0 1 else s

/-- A new event is counted from now on; the count stays. -/
def setPerf (s : State) (ty inst v : Nat) : State := (settlePerf s ty inst).setF (Hdr.PERF_EVENT ty) inst 0 v
def clearPerf (s : State) (ty inst : Nat) : State := (settlePerf s ty inst).setF (Hdr.PERF_COUNT ty) inst 0 0

/-- ENABLE (spec 14 R550): a disabled Kamduelm port is DISABLED (spec 10 Table 10.5). -/
def setEnable (s : State) (ty inst : Nat) (on : Bool) : State :=
  let s := s.setF (Hdr.ENABLE ty) inst 0 (b2n on)
  if h : ty = 4 ∧ inst < 8 then portEnable s ⟨inst, h.2⟩ on else if ty = 8 ∧ on then serveMailbox s else s

/-- FREEZE (spec 14 R552): a tile stops at its next bundle boundary; COMMIT, the crucible's control block and EXPORT stop at
their safe points; in other blocks the bit does nothing. -/
def setFreeze (s : State) (ty inst : Nat) (on : Bool) : State :=
  if ty = 1 then doFreeze s (tileOf inst) on else s.setF (Hdr.FREEZE ty) inst 0 (b2n on)

/-- The blocks that ignore SOFT_RESET (spec 14 R551). -/
def neverReset (ty : Nat) : Bool := isAonBlock ty || ty == 7

/-- SOFT_RESET of a block that is not BUSY; a tile follows R104 of spec 02. A block that holds no work holds no transient
state beside its interrupts, its errors and its performance count. -/
def softReset (s : State) (ty inst : Nat) : State :=
  if ty = 1 then doSoftReset s (tileOf inst)
  else if neverReset ty || blockBusy s ty inst then s
  else clearPerf (s.resetFlds [Hdr.INT_STATUS ty 0, Hdr.ERR_CODE ty 0, Hdr.ERR_INFO0 ty 0, Hdr.ERR_INFO1 ty 0] inst) ty inst

/-- A write of a word of the header of page 0 or of TILE page 5. DESIGN CHOICE: INT_ENABLE, which no chapter lays out but as the
partner of INT_STATUS, keeps only the bits that the page's INT_STATUS defines (spec 00 R15, R16; log entry 96). -/
def writeHeader (s : State) (ty inst pg off v : Nat) : State :=
  let own := pg = 0 ∨ (ty = 1 ∧ pg = 5)
  if !own then s
  else match off with
    | 0x08 =>
      if pg ≠ 0 then s
      else
        let s := if s.flag (Hdr.ENABLE ty) inst 0 == bit v 0 then s else setEnable s ty inst (bit v 0)
        let s := if s.flag (Hdr.FREEZE ty) inst 0 == bit v 2 then s else setFreeze s ty inst (bit v 2)
        if bit v 1 then softReset s ty inst else s
    | 0x10 => clearInt s ty pg inst v
    | 0x14 => s.setF (Hdr.INT_ENABLE ty pg) inst 0 (v % 2 ^ intBits ty pg inst)
    | 0x18 => forceInt s ty pg inst v
    | 0x28 =>
      if pg ≠ 0 then s
      else
        let s := setPerf s ty inst (v % 256)
        if bit v 8 then s.setF (Hdr.PERF_COUNT ty) inst 0 0 else s
    | _ => s

/-! Writing a word. -/

/-- Store the plain fields of a word under their access codes. DESIGN CHOICE: a CREDITS load value of 9 to 15, for which the
spec states no effect, is stored as written (spec 02 R74, Table 2.23; log entry 111). -/
def writePlain (s : State) (a : Actor) (ty inst pg off v : Nat) : State :=
  ((pageParts ty inst pg off).filter (fun p => (p.f.acc == .rw || p.f.acc == .rwl) && !p.f.live && fieldTakes s a inst p.idx p.f)).foldl
    (fun s p => storePart s inst v p) s

/-- PROG_CTRL (spec 02 Table 2.18): ENTRY, then START or ABORT, as the state of the program allows. -/
def writeProgCtrl (s : State) (a : Actor) (inst v : Nat) : State :=
  let i := tileOf inst
  if (s.tile i).active then (if bit v 17 then doAbort s i else s)
  else
    let s := writePlain s a 1 inst 0 0x104 v
    if bit v 16 then doStart s i else s

/-- A write of a word of the BREAKER page (spec 12 Table 12.8). -/
def writeBreaker (s : State) (a : Actor) (off v : Nat) : State :=
  match off with
  | 0x100 => limitWrite s a .pcap (v % 4096)
  | 0x104 => limitWrite s a .tThrottle (v % 256)
  | 0x108 => if bit v 0 then cp2Live s a s.now else s
  | 0x128 =>
    if powerWriter s a then
      let old := s.getF Reg.BRK_TRIP_CAUSE 0 0
      s.setF Reg.BRK_TRIP_CAUSE 0 0 (old - (old &&& v % 8))
    else s
  | _ =>
    if off < 0x110 ∨ off > 0x11C then s
    else
      let n : Fin 4 := ⟨(off - 0x110) / 4 % 4, Nat.mod_lt _ (by decide)⟩
      let s := limitWrite s a (.targetN n) (v % 64)
      if bit v 20 then freqApply s a n s.now else s

/-- A write of one word of a page of a domain that is ON (spec 00 R15, R16). -/
def writeWord (s : State) (a : Actor) (ty inst pg off v : Nat) : State :=
  let s := countAccess s ty inst pg
  if off < 0x100 then (if pageWriter s a ty inst then writeHeader s ty inst pg off v else s)
  else
    let cp := pageWriter s a ty inst
    match ty, pg with
    | 1, 0 => if off = 0x104 then (if cp then writeProgCtrl s a inst v else s) else writePlain s a ty inst pg off v
    | 2, 0 =>
      if 0x100 ≤ off ∧ off ≤ 0x108 then bankReqWrite s a (tileOf inst) ⟨(off - 0x100) / 4 % 3, Nat.mod_lt _ (by decide)⟩ (BitVec.ofNat 32 v)
      else writePlain s a ty inst pg off v
    | 2, 1 =>
      if off ≥ 0x2C0 then s
      else
        let k := (off - 0x100) / 8
        regionWrite s a (tileOf inst) ⟨k / 8 % 7, Nat.mod_lt _ (by decide)⟩ ⟨k % 8, Nat.mod_lt _ (by decide)⟩ (off % 8 == 4) (BitVec.ofNat 32 v)
    | 2, 2 => if off = 0x104 then (if cp && bit v 0 then counterClear s (tileOf inst) else s) else writePlain s a ty inst pg off v
    | 3, 0 =>
      if inst = 8 ∧ off = 0x108 then
        if a ≠ .cp 1 then s
        else
          let s := if bit v 0 then pushOp (journal s 3 (cruAccepted s)) else s
          if bit v 1 && !s.cru.isEmpty then abortOp s else s
      else writePlain s a ty inst pg off v
    | 6, 0 => writeBreaker s a off v
    | 7, 0 =>
      if off = 0x108 then (if cp && bit v 0 then wdtKick s ⟨inst % 4, Nat.mod_lt _ (by decide)⟩ s.now else s)
      else writePlain s a ty inst pg off v
    | 11, 0 =>
      if off < 0x180 ∧ off % 16 = 0 then vSetWrite s a ⟨inst % 4, Nat.mod_lt _ (by decide)⟩ ⟨(off - 0x100) / 16 % 8, Nat.mod_lt _ (by decide)⟩ (v % 1024)
      else s
    | 13, 1 => if off = 0x100 then alertClear s a v else s
    | 14, 0 =>
      if off = 0x120 then
        if !cp then s
        else
          let s := if bit v 0 then exportGo s s.now else s
          if bit v 1 then exportAbort s s.now else s
      else writePlain s a ty inst pg off v
    | 15, 0 => if off = 0x100 ∧ bit v 0 then cfgLock s a else s
    | 16, 0 =>
      if off = 0x11C then (if a = .cp 1 && bit v 0 then pushRequest (journal s 16 (commitAccepted s)) else s)
      else writePlain s a ty inst pg off v
    | 19, 0 => if off < 0x100 + 4 * domCount then domainRequest s a ((off - 0x100) / 4) (v % 4) s.now else s
    | _, _ => writePlain s a ty inst pg off v

/-! Reading a word. -/

/-- Does a page assert its interrupt line (spec 14 R556)? -/
def pageIrq (s : State) (ty inst : Nat) : Bool :=
  let line (pg : Nat) : Bool := (s.getF (Hdr.INT_STATUS ty pg) inst 0 &&& s.getF (Hdr.INT_ENABLE ty pg) inst 0) != 0
  line 0 || (ty == 1 && line 5)

/-- IRQ_PENDING of processor `n` (spec 14 R557). -/
def irqPending (s : State) (n : Nat) : Nat :=
  (List.range 20).foldl (fun v ty =>
    if blockIrqCp ty = n ∧ (List.range (blockInstances ty)).any (pageIrq s ty) then v + 2 ^ ty else v) 0

/-- ALERT_CAUSE: the highest pending cause (spec 13 R531). -/
def alertCause (s : State) : Nat :=
  if s.flag Reg.SEC_FATAL 0 0 then 1 else if s.flag Reg.SEC_BREAKER 0 0 then 2 else if s.flag Reg.SEC_HOLD 0 0 then 3 else 0

/-- ALERT_N is driven low (spec 14 R558). -/
def alertAsserted (s : State) : Bool := alertCause s != 0

/-- What an SMBus byte read by the BMC returns, where the target answers (spec 14 R559, Table 14.8). -/
def smbusRead (s : State) (reg : Nat) : Option Nat :=
  if !smbusAnswers s then none
  else if reg = 0 then some (alertCause s)
  else if reg = 1 then some (b2n (s.flag Reg.SEC_FATAL 0 0) + 2 * b2n (s.flag Reg.SEC_BREAKER 0 0) + 4 * b2n (s.flag Reg.SEC_HOLD 0 0))
  else if reg = 2 then some ((if domCur s domCp = 2 then fwState s else 0) + 8 * lcState s + 32 * s.getF Reg.BRK_TRIP_CAUSE 0 0)
  else if reg = 3 ∨ reg = 4 then some (s.getF Reg.BRK_P_IN 0 0 / 256 ^ (reg - 3) % 256)
  else if reg = 5 then some (min 255 s.power.tMax)
  else if 8 ≤ reg ∧ reg < 16 then some (s.fuses.serial / 256 ^ (reg - 8) % 256)
  else some 0

/-- Fields of a TILE or PANTRY page that show typed state. -/
def liveTile (s : State) (f : Fld) (inst idx : Nat) : Nat :=
  let t := s.tile (tileOf inst)
  let door := t.doors.toList.getD idx []
  let run := t.marver.find? (·.running)
  if f = Reg.TILE_LOGICAL_Y ∨ f = Reg.TILE_ROW then inst % 4
  else if f = Reg.TILE_STACK then inst / 32
  else if f = Reg.TILE_CLUSTER then inst / 4 % 8
  else if f = Reg.TILE_PC then t.pc % 8192
  else if f = Reg.TILE_PROG_STATE then t.pstate.code
  else if f = Reg.TILE_STALL_CAUSE then (if t.pstate = .stalled then (t.stall.map (·.cause)).getD 0 else 0)
  else if f = Reg.TILE_LOOP_DEPTH then t.loops.length
  else if f = Reg.TILE_TIME then s.now
  else if f = Reg.TILE_DOOR_MESSAGES then door.length
  else if f = Reg.TILE_DOOR_OCCUPANCY then door.foldl (fun n m => n + m.msg.regs.length) 0
  else if f = Reg.TILE_A_QUEUE then t.arrays.depth false
  else if f = Reg.TILE_B_QUEUE then t.arrays.depth true
  else if f = Reg.TILE_READOUT_BUSY then b2n (s.flag Reg.TILE_ARRAY_MODE inst 0 && t.arrays.jobs.any (fun j => j.sel[1]))
  else if f = Reg.TILE_ZERO_GATED then min (t.arrays.zeroGated / 1024) (2 ^ 64 - 1)
  else if f = Reg.TILE_MV_QUEUE then t.marver.length
  else if f = Reg.TILE_MV_BUSY then b2n run.isSome
  else if f = Reg.TILE_MV_KIND then (run.map (fun d => bits ((d.words.map (·.toNat)).getD 0 0) 3 0)).getD 0
  else if f = Reg.TILE_GATHER_QUEUE then t.gather.length
  else if f = Reg.TILE_GATHER_BUSY then b2n (!t.gather.isEmpty)
  else if f = Reg.PANTRY_DESC_BUSY then (List.range 16).foldl (fun n h => if ((t.descs.toList.getD h none).isSome : Bool) then n + 2 ^ h else n) 0
  else 0

/-- Fields of hearth pages that show typed state. -/
def liveHearth (s : State) (f : Fld) (idx : Nat) : Nat :=
  let q := s.domain? (s.getF Reg.COMMIT_QUERY_DOMAIN 0 0)
  if f = Reg.CRU_QUEUE_DEPTH then cruDepth s
  else if f = Reg.CRU_BUSY then b2n (!s.cru.isEmpty)
  else if f = Reg.CRU_RUN_OPK then (s.cru.head?.map (fun o => dOpk o.words)).getD 0
  else if f = Reg.CRU_RUN_DOMAIN then (s.cru.head?.map (fun o => dDomain o.words)).getD 0
  else if f = Reg.CRU_RUN_STEP then (s.cru.head?.map (fun o => dStep o.words)).getD 0
  else if f = Reg.COMMIT_QUEUE_DEPTH then s.commitQ.length
  else if f = Reg.COMMIT_BUSY then b2n (!s.commitQ.isEmpty)
  else if f = Reg.COMMIT_PIN_WAITING then b2n s.commitWait
  else if f = Reg.COMMIT_Q_SLOT then b2n ((q.map (·.committed)).getD false)
  else if f = Reg.COMMIT_Q_VALID then b2n ((q.map (fun d => d.lastStep.isSome)).getD false)
  else if f = Reg.COMMIT_Q_PINS then (q.map (fun d => d.pins.length)).getD 0
  else if f = Reg.COMMIT_Q_STEP then (q.bind (·.lastStep)).getD 0
  else if f = Reg.CONFIG_LC_STATE ∨ f = Reg.SEC_LC_STATE then lcState s
  else if f = Reg.CONFIG_TOGGLES_USED then s.fuses.toggles
  else if f = Reg.SEC_ALERT_CAUSE then alertCause s
  else if f = Reg.SEC_ALERT_ASSERTED then b2n (alertAsserted s)
  else if f = Reg.SEC_IRQ_PENDING_CP then irqPending s idx
  else if f = Reg.SEC_TILE_IRQ_PENDING then (List.range 32).foldl (fun n b => if pageIrq s 1 (32 * idx + b) then n + 2 ^ b else n) 0
  else if f = Reg.SEC_PANTRY_IRQ_PENDING then (List.range 32).foldl (fun n b => if pageIrq s 2 (32 * idx + b) then n + 2 ^ b else n) 0
  else if f = Reg.SEC_SERIAL then s.fuses.serial
  else if f = Reg.SEC_STEPPING then s.fuses.stepping
  else if f = Reg.SEC_KEY_REVOKED then s.fuses.revoked
  else if f = Reg.SEC_MIN_SVN then s.fuses.minSvn
  else if f = Reg.SEC_OWNER_TAG then ownerTag s
  else if f = Reg.SEC_DEV_KEY_TAG then (if lcState s = 3 then 0 else field (sha384 (deviceKeyBytes 0 ++ deviceKeyBytes 1)) 0 8)
  else if f = Reg.TB_TIME then s.now
  else 0

/-- What a field reads: the register file, or the typed state that it shows. INT_FORCE holds no state (spec 14 R549), nor do the
command bits of the header. -/
def fieldValue (s : State) (f : Fld) (inst idx : Nat) : Nat :=
  if f = Hdr.READY f.ty then b2n (blockReady s f.ty inst)
  else if f = Hdr.BUSY f.ty then b2n (blockBusy s f.ty inst)
  else if f = Hdr.FROZEN f.ty then b2n (blockFrozen s f.ty inst)
  else if f = Hdr.ERROR f.ty then b2n (bit (s.getF (Hdr.INT_STATUS f.ty 0) inst 0) 0)
  else if f = Hdr.INT_FORCE f.ty f.pg ∨ f = Hdr.SOFT_RESET f.ty ∨ f = Hdr.PERF_CLEAR f.ty then 0
  else if !f.live then s.getF f inst idx
  else if f.ty = 1 ∨ f.ty = 2 then liveTile s f inst idx
  else liveHearth s f idx

/-- One latch for each requester. -/
def latchOwner : Actor → Nat
  | .cp n => n.val
  | .host => 4

/-- The value of a word of a page that is served, and the latches after it (spec 14 R541): the low word of a latching field
captures its high word; a high word comes from the reader's latch if that holds it. -/
def readParts (s : State) (a : Actor) (ty inst pg off : Nat) : State × Nat :=
  (pageParts ty inst pg off).foldl (fun (x : State × Nat) p =>
    let key := p.f.key inst p.idx
    let v := fieldValue s p.f inst p.idx % 2 ^ p.f.width
    let o := latchOwner a
    if !p.f.latch then (x.1, x.2 + 2 ^ p.lsb * (v / 2 ^ p.from_ % 2 ^ p.width))
    else if p.from_ = 0 then
      ({ x.1 with latches := x.1.latches.filter (fun (l : Nat × Nat × Nat) => l.1 != o) ++ [(o, key, v / 2 ^ 32)] },
        x.2 + 2 ^ p.lsb * (v % 2 ^ p.width))
    else
      let hi := match x.1.latches.find? (fun l => l.1 == o && l.2.1 == key) with
        | some l => l.2.2
        | none => v / 2 ^ p.from_
      (x.1, x.2 + 2 ^ p.lsb * (hi % 2 ^ p.width))) (s, 0)

/-- A read of one word of a page (spec 14 R545, R554). -/
def readWord (s : State) (a : Actor) (ty inst pg off : Nat) : State × Nat :=
  if off = 0 then (s, pg + 256 * inst + 65536 * ty)
  else if off = 4 then (s, 0x100)
  else if pageOn s ty inst then
    let s := if off = 0x2C ∧ pg = 0 then settlePerf s ty inst else s
    let r := readParts s a ty inst pg off
    (countAccess r.1 ty inst pg, r.2)
  else if ty = 1 ∧ pg = 0 ∧ off = 0x100 then readParts s a ty inst pg off
  else (s, 0)

/-! BAR0. -/

/-- Does an access of the actor reach the device: through an ACTIVE host port, or from inside? -/
def reaches (s : State) (a : Actor) : Bool := s.power.vaux && (a != .host || hostActive s)

/-- A write of a 4-byte word at a BAR0 offset. -/
def barWrite4 (s : State) (a : Actor) (addr v : Nat) : State :=
  match regPlace addr with
  | none => s
  | some p => if pageOn s p.ty p.inst then writeWord s a p.ty p.inst p.pg p.off (v % 2 ^ 32) else s

/-- The MSI-X table and its pending-bit array, and the CXL component registers: they follow standards outside the spec
(spec 14 R537). -/
def standardRegion (addr : Nat) : Bool :=
  (decide (0x3FE0000 ≤ addr) && decide (addr < 0x3FE0400)) || (decide (0x3FE1000 ≤ addr) && decide (addr < 0x3FE1008)) ||
    (decide (0x3FF0000 ≤ addr) && decide (addr < 0x4000000))

/-- A read of a 4-byte word; offsets outside the pages read 0 (spec 14 R543), but in the regions of R537 free values (log
entry 95). -/
def barRead4 (s : State) (a : Actor) (addr : Nat) : State × Nat :=
  match regPlace addr with
  | none => if standardRegion addr then (s.useFree, Config.freeNat s.free % 2 ^ 32) else (s, 0)
  | some p => readWord s a p.ty p.inst p.pg p.off

/-- A BAR0 write of 4 or 8 aligned bytes: an 8-byte access acts as two (spec 14 R538, R540). -/
def registerWrite (s : State) (a : Actor) (addr : Nat) (wide : Bool) (v : Nat) : State :=
  if !reaches s a then s
  else
    let s := barWrite4 s a addr v
    if wide then barWrite4 s a (addr + 4) (v / 2 ^ 32) else s

/-- A BAR0 read of 4 or 8 aligned bytes: the answer stands in the reply. -/
def registerRead (s : State) (a : Actor) (addr : Nat) (wide : Bool) : State :=
  if !reaches s a then s
  else
    let r := barRead4 s a addr
    let q := if wide then barRead4 r.1 a (addr + 4) else (r.1, 0)
    { q.1 with reply := { data := toLe 4 r.2 ++ (if wide then toLe 4 q.2 else []), err := 0 } }

/-- An access of another size or alignment: no effect, counted (spec 14 R538). -/
def invalidAccess (s : State) (a : Actor) (n : Nat) (write : Bool) : State :=
  if !reaches s a then s
  else { s.countF Reg.SEC_ACCESS_ERRORS 0 0 1 with reply := { data := if write then [] else zeros n, err := 0 } }

/-- Is a size and alignment one that BAR0 accepts? -/
def validAccess (addr n : Nat) : Bool := (n == 4 && addr % 4 == 0) || (n == 8 && addr % 8 == 0)

/-! Single bits of a page as commands of their own. -/

/-- A write by the actor to a block's header, if the page takes it. -/
def headerCommand (s : State) (a : Actor) (ty inst pg : Nat) (f : State → State) : State :=
  if inst < blockInstances ty ∧ reaches s a ∧ pageTakes s a ty inst ∧ (pg = 0 ∨ (ty = 1 ∧ pg = 5)) then f (countAccess s ty inst pg) else s

/-- START and ABORT as PROG_CTRL takes them. -/
def startCommand (s : State) (a : Actor) (i : TileId) (entry : Nat) : State :=
  if reaches s a ∧ pageTakes s a 1 i then writeProgCtrl (journal (countAccess s 1 i 0) 1 (s.tile i).pstate.code) a i (entry % 8192 + 2 ^ 16) else s

def abortCommand (s : State) (a : Actor) (i : TileId) : State :=
  if reaches s a ∧ pageTakes s a 1 i then doAbort (countAccess s 1 i 0) i else s

/-- QUERY_DOMAIN: QUERY_RESULT shows the state of that domain (spec 07 R325). -/
def queryDomain (s : State) (a : Actor) (d : Nat) : State :=
  if reaches s a ∧ pageTakes s a 16 0 then (countAccess s 16 0 0).setF Reg.COMMIT_QUERY_DOMAIN 0 0 d else s

/-- GO and ABORT of the EXPORT page, if the page takes the actor's write (spec 09 Table 9.15, R399, R404). -/
def exportCommand (s : State) (a : Actor) (f : State → State) : State :=
  if reaches s a ∧ pageTakes s a 14 0 then f (countAccess s 14 0 0) else s

end Sys2Proof.Machine
end

