-- ==== Sys2Proof/Machine/Bundle.lean ====
section
/-! DEFINITION. The 256-bit bundle of the instruction store: its words read and written (spec 02 R55 to R64, R586, R587,
Tables 2.2 to 2.8, 2.25, 2.26; 05 Table 5.5; 06 Table 6.2), and the fetch of the bundle at a tile's PC (R53, R54). -/

namespace Sys2Proof.Machine

set_option Elab.async false

/-! Operation codes. -/

/-- OPCODE of the vector slot: class and operation (spec 02 Table 2.25). -/
def VecOp.code : VecOp → BitVec 8
  | .add => 0x00#8
  | .sub => 0x01#8
  | .mul => 0x02#8
  | .fma => 0x03#8
  | .min => 0x04#8
  | .max => 0x05#8
  | .abs => 0x06#8
  | .exp => 0x20#8
  | .log => 0x21#8
  | .rcp => 0x22#8
  | .rsqrt => 0x23#8
  | .cvt => 0x40#8
  | .eq => 0x60#8
  | .ne => 0x61#8
  | .lt => 0x62#8
  | .le => 0x63#8
  | .gt => 0x64#8
  | .ge => 0x65#8
  | .unord => 0x66#8
  | .ieq => 0x68#8
  | .ine => 0x69#8
  | .ilt => 0x6A#8
  | .ile => 0x6B#8
  | .iltu => 0x6C#8
  | .ileu => 0x6D#8
  | .iadd => 0x80#8
  | .isub => 0x81#8
  | .and => 0x82#8
  | .or => 0x83#8
  | .xor => 0x84#8
  | .shl => 0x85#8
  | .shr => 0x86#8
  | .sra => 0x87#8
  | .perm => 0xA0#8
  | .rot => 0xA1#8
  | .rsum => 0xA8#8
  | .rmax => 0xA9#8
  | .rmin => 0xAA#8
  | .mov => 0xC0#8
  | .bcast => 0xC1#8
  | .sel => 0xC2#8
  | .iota => 0xC3#8

/-- Every vector operation. -/
def vecOps : List VecOp :=
  [.add, .sub, .mul, .fma, .min, .max, .abs, .exp, .log, .rcp, .rsqrt, .cvt, .eq, .ne, .lt, .le, .gt, .ge, .unord, .ieq, .ine, .ilt, .ile, .iltu, .ileu, .iadd, .isub, .and, .or, .xor, .shl, .shr, .sra, .perm, .rot, .rsum, .rmax, .rmin, .mov, .bcast, .sel, .iota]

/-- The operation of an OPCODE; none where it is reserved. -/
def vecOpOf (c : BitVec 8) : Option VecOp := vecOps.find? (fun o => o.code == c)

/-- OP of the array slot, and PASS of an ACFG (spec 02 Table 2.5, 05 Table 5.5). -/
def arrOpOf (op pass : BitVec 4) : Option ArrOp :=
  match op.toNat with
  | 1 => some .mode
  | 2 => some .wload
  | 3 => some .mm
  | 4 => some .drain
  | 5 => some .gstat
  | 6 =>
    match pass.toNat with
    | 0 => some .bindFeed
    | 1 => some .bindDrain
    | 2 => some .drainCfg
    | 3 => some .resetWalk
    | _ => none
  | _ => none

/-- The PASS that names an ACFG; other operations have a PASS of their own. -/
def ArrOp.acfg : ArrOp → Option (BitVec 4)
  | .bindFeed => some 0
  | .bindDrain => some 1
  | .drainCfg => some 2
  | .resetWalk => some 3
  | _ => none

/-- OP of the access slot (spec 02 Table 2.6). -/
def AccOp.code : AccOp → BitVec 4
  | .ld => 1
  | .st => 2
  | .dgo => 3
  | .dwait => 4
  | .fence => 5

def accOpOf (op : BitVec 4) : Option AccOp := [AccOp.ld, .st, .dgo, .dwait, .fence].find? (fun o => o.code == op)

/-- OP of the message slot (spec 02 Table 2.7). -/
def MsgOp.code : MsgOp → BitVec 4
  | .send => 1
  | .sendr => 2
  | .recv => 3
  | .recvt => 4
  | .dpoll => 5

def msgOpOf (op : BitVec 4) : Option MsgOp := [MsgOp.send, .sendr, .recv, .recvt, .dpoll].find? (fun o => o.code == op)

/-- OP and SUB of the control slot, SUB in the high half (spec 02 Tables 2.8, 2.26; 06 Table 6.2). -/
def CtlOp.code : CtlOp → BitVec 8
  | .add => 0x01#8
  | .sub => 0x11#8
  | .and => 0x21#8
  | .or => 0x31#8
  | .xor => 0x41#8
  | .shl => 0x51#8
  | .shr => 0x61#8
  | .sra => 0x71#8
  | .addi => 0x81#8
  | .smul => 0x02#8
  | .li => 0x03#8
  | .br => 0x04#8
  | .loop => 0x05#8
  | .wait => 0x06#8
  | .time => 0x07#8
  | .issue => 0x08#8
  | .mstat => 0x18#8
  | .gstatq => 0x28#8
  | .psetEq => 0x09#8
  | .psetNe => 0x19#8
  | .psetLt => 0x29#8
  | .psetLe => 0x39#8
  | .psetGt => 0x49#8
  | .psetGe => 0x59#8
  | .psetLtu => 0x69#8
  | .psetGeu => 0x79#8
  | .halt => 0x0A#8

def ctlOps : List CtlOp :=
  [.add, .sub, .and, .or, .xor, .shl, .shr, .sra, .addi, .smul, .li, .br, .loop, .wait, .time, .issue, .mstat, .gstatq, .psetEq, .psetNe, .psetLt, .psetLe, .psetGt, .psetGe, .psetLtu, .psetGeu, .halt]

def ctlOpOf (c : BitVec 8) : Option CtlOp := ctlOps.find? (fun o => o.code == c)

/-! Slots. -/

/-- The vector slot (spec 02 Table 2.4). -/
def decodeVec (w : BitVec 64) : SlotOp :=
  match vecOpOf (w.extractLsb' 4 8) with
  | some op => .vec op {
      guard := w.extractLsb' 0 4, vd := w.extractLsb' 12 6, va := w.extractLsb' 18 6, vb := w.extractLsb' 24 6,
      vc := w.extractLsb' 30 6, rnd := w.extractLsb' 36 2, pd := w.extractLsb' 38 3, vbs := w.getLsbD 41,
      ss := w.extractLsb' 42 5, imm := w.extractLsb' 47 16, rsv := w.getLsbD 63 }
  | none => .bad 0

/-- The array slot (spec 02 Table 2.5). -/
def decodeArr (w : BitVec 48) : SlotOp :=
  match arrOpOf (w.extractLsb' 4 4) (w.extractLsb' 36 4) with
  | some op => .arr op {
      guard := w.extractLsb' 0 4, sel := w.extractLsb' 8 2, fmtX := w.extractLsb' 10 4, fmtW := w.extractLsb' 14 4,
      feed := w.extractLsb' 18 3, drainSt := w.extractLsb' 21 3, kgrp := w.extractLsb' 24 12, pass := w.extractLsb' 36 4,
      acc := w.extractLsb' 40 2, rsv := w.extractLsb' 42 6 }
  | none => .bad 1

/-- The access slot (spec 02 Table 2.6); `wait` is what its LD or ST will wait at bank arbiters. -/
def decodeAcc (w : BitVec 48) (wait : Fin 41) : SlotOp :=
  match accOpOf (w.extractLsb' 4 4) with
  | some op => .acc op {
      guard := w.extractLsb' 0 4, vr := w.extractLsb' 8 6, base := w.extractLsb' 14 5, line := w.extractLsb' 19 19,
      rot := w.extractLsb' 38 6, rsv := w.extractLsb' 44 4 } wait
  | none => .bad 2

/-- The message slot (spec 02 Table 2.7). -/
def decodeMsg (w : BitVec 40) : SlotOp :=
  match msgOpOf (w.extractLsb' 4 4) with
  | some op => .msg op {
      guard := w.extractLsb' 0 4, door := w.extractLsb' 8 4, vr := w.extractLsb' 12 6, nm1 := w.extractLsb' 18 3,
      dest := w.extractLsb' 21 7, sx := w.extractLsb' 28 5, pd := w.extractLsb' 33 3, rsv := w.extractLsb' 36 4 }
  | none => .bad 3

/-- The control slot (spec 02 Table 2.8). -/
def decodeCtl (w : BitVec 48) : SlotOp :=
  match ctlOpOf (w.extractLsb' 4 8) with
  | some op => .ctl op {
      guard := w.extractLsb' 0 4, sd := w.extractLsb' 12 5, sa := w.extractLsb' 17 5, sb := w.extractLsb' 22 5,
      imm := w.extractLsb' 27 21 }
  | none => .bad 4

/-- The reserved header bits and the enabled slots of a bundle (spec 02 R55, R56, Table 2.2). -/
def decodeBundle (w : BitVec 256) (wait : Fin 41) : BitVec 3 × List SlotOp :=
  (w.extractLsb' 5 3,
    (if w.getLsbD 0 then [decodeVec (w.extractLsb' 8 64)] else []) ++
    (if w.getLsbD 1 then [decodeArr (w.extractLsb' 72 48)] else []) ++
    (if w.getLsbD 2 then [decodeAcc (w.extractLsb' 120 48) wait] else []) ++
    (if w.getLsbD 3 then [decodeMsg (w.extractLsb' 168 40)] else []) ++
    (if w.getLsbD 4 then [decodeCtl (w.extractLsb' 208 48)] else []))

/-! The words of a bundle. -/

def encodeVec (op : VecOp) (f : VecF) : BitVec 64 :=
  BitVec.ofBool f.rsv ++ f.imm ++ f.ss ++ BitVec.ofBool f.vbs ++ f.pd ++ f.rnd ++ f.vc ++ f.vb ++ f.va ++ f.vd ++ op.code ++ f.guard

/-- OP of an array operation as four bits. -/
def encodeArr (op : ArrOp) (f : ArrF) : BitVec 48 :=
  f.rsv ++ f.acc ++ f.pass ++ f.kgrp ++ f.drainSt ++ f.feed ++ f.fmtW ++ f.fmtX ++ f.sel ++ BitVec.ofNat 4 op.code ++ f.guard

def encodeAcc (op : AccOp) (f : AccF) : BitVec 48 :=
  f.rsv ++ f.rot ++ f.line ++ f.base ++ f.vr ++ op.code ++ f.guard

def encodeMsg (op : MsgOp) (f : MsgF) : BitVec 40 :=
  f.rsv ++ f.pd ++ f.sx ++ f.dest ++ f.nm1 ++ f.vr ++ f.door ++ op.code ++ f.guard

def encodeCtl (op : CtlOp) (f : CtlF) : BitVec 48 :=
  f.imm ++ f.sb ++ f.sa ++ f.sd ++ op.code ++ f.guard

/-- A bundle whose five slots are given, with its header byte (spec 02 Table 2.2). -/
def encodeBundle (head : BitVec 8) (v : BitVec 64) (a c : BitVec 48) (m : BitVec 40) (k : BitVec 48) : BitVec 256 :=
  k ++ m ++ c ++ a ++ v ++ head

/-! Fetch. -/

/-- The tiles that may issue, and of them the one with the fewest program cycles, the lowest number first: tiles run side
by side, and the order between two of them is not fixed. DESIGN CHOICE (log entry 58). -/
def nextTile (s : State) : Option TileId :=
  ((List.finRange 128).filter (fun i =>
      let t := s.tile i
      decide (t.pstate = .running) && !t.halting && t.bundle.isEmpty)).foldl
    (fun (x : Option TileId) i => match x with
      | none => some i
      | some j => if (s.tile i).cycle < (s.tile j).cycle then some i else some j) none

/-- The stored bundle at a tile's PC; zero, a bundle of no enabled slot, where nothing is stored. -/
def Tile.fetch (t : Tile) : BitVec 256 := ((t.istore.find? (fun x => x.1 == t.pc)).map (·.2)).getD 0#256

/-- With no command waiting, a running tile fetches the bundle at its PC and issues it (spec 02 R53, R54); the cycles that
its LD or ST waits at arbiters are a free value. -/
def tick (s : State) : State :=
  match nextTile s with
  | none => s
  | some i =>
    let b := decodeBundle (s.tile i).fetch ⟨Config.freeNat s.free % 41, Nat.mod_lt _ (by decide)⟩
    issueBundle s.useFree i b.1 b.2

end Sys2Proof.Machine
end

