-- ==== Sys2Proof/Machine/AccessSlot.lean ====
section
/-! DEFINITION. Meanings. Commands of the access slot (spec 02 R62, 03 R128 to R131). -/

namespace Sys2Proof.Machine

set_option Elab.async false

/-- LD (spec 02 R62). -/
def execLd (c : Issue) (f : AccF) (wait : Fin 41) (s : State) : Res := .next (issueSlot s c (.acc .ld f wait))

/-- ST (spec 02 R62). -/
def execSt (c : Issue) (f : AccF) (wait : Fin 41) (s : State) : Res := .next (issueSlot s c (.acc .st f wait))

/-- DGO (spec 03 R128). -/
def execDgo (c : Issue) (f : AccF) (s : State) : Res := .next (issueSlot s c (.acc .dgo f 0))

/-- DWAIT (spec 03 R130). -/
def execDwait (c : Issue) (f : AccF) (s : State) : Res := .next (issueSlot s c (.acc .dwait f 0))

/-- FENCE (spec 03 R131). -/
def execFence (c : Issue) (f : AccF) (s : State) : Res := .next (issueSlot s c (.acc .fence f 0))

end Sys2Proof.Machine
end

