-- ==== Sys2Proof/Machine/ArrayEvents.lean ====
section
/-! DEFINITION. Meanings. Array commands leaving their queues and drains becoming visible (spec 05 R194, R222). -/

namespace Sys2Proof.Machine

set_option Elab.async false

/-- ARRAY_COMMAND_START (spec 05 R194). -/
def execArrayCommandStart (tile : TileId) (b : Bool) (cyc : Waited) (s : State) : Res :=
  .next (arrayStart s tile b cyc.cyc cyc.wait)

/-- MM_DRAINED (spec 05 R222). -/
def execMmDrained (tile : TileId) (b : Bool) (wait press : Vector Nat 8) (cyc : Nat) (s : State) : Res :=
  .next (mmDrained s tile b (drainCosts wait press) cyc)

end Sys2Proof.Machine
end

