-- ==== Sys2Proof/Machine/ArraySlot.lean ====
section
/-! DEFINITION. Meanings. Commands of the array slot (spec 05 R194 to R231, 06 R242). -/

namespace Sys2Proof.Machine

set_option Elab.async false

/-- MODE (spec 05 R231). -/
def execMode (c : Issue) (f : ArrF) (s : State) : Res := .next (issueSlot s c (.arr .mode f))

/-- WLOAD (spec 05 R198). -/
def execWload (c : Issue) (f : ArrF) (s : State) : Res := .next (issueSlot s c (.arr .wload f))

/-- MM (spec 05 R195). -/
def execMm (c : Issue) (f : ArrF) (s : State) : Res := .next (issueSlot s c (.arr .mm f))

/-- DRAIN (spec 05 R224). -/
def execDrain (c : Issue) (f : ArrF) (s : State) : Res := .next (issueSlot s c (.arr .drain f))

/-- GSTAT (spec 06 R242). -/
def execGstat (c : Issue) (f : ArrF) (s : State) : Res := .next (issueSlot s c (.arr .gstat f))

/-- BIND_FEED (spec 05 R208). -/
def execBindFeed (c : Issue) (f : ArrF) (s : State) : Res := .next (issueSlot s c (.arr .bindFeed f))

/-- BIND_DRAIN (spec 05 R208). -/
def execBindDrain (c : Issue) (f : ArrF) (s : State) : Res := .next (issueSlot s c (.arr .bindDrain f))

/-- DRAIN_CFG (spec 05 R209). -/
def execDrainCfg (c : Issue) (f : ArrF) (s : State) : Res := .next (issueSlot s c (.arr .drainCfg f))

/-- RESET_WALK (spec 05 R203). -/
def execResetWalk (c : Issue) (f : ArrF) (s : State) : Res := .next (issueSlot s c (.arr .resetWalk f))

end Sys2Proof.Machine
end

