-- ==== Sys2Proof/Machine/BoardEvents.lean ====
section
/-! DEFINITION. Meanings. Pins, starts and the module (spec 13, 15). -/

namespace Sys2Proof.Machine

set_option Elab.async false

/-- SENSE_N_MAKE (spec 15 R565). -/
def execSenseNMake (t : Nat) (s : State) : Res := .next (senseMake s t)

/-- INPUT_SWITCH_CLOSE (spec 15 R565). -/
def execInputSwitchClose (t : Nat) (s : State) : Res := .next (switchClose s t)

/-- SENSE_N_OPEN (spec 15 R566). -/
def execSenseNOpen (t : Nat) (s : State) : Res := .next (senseOpen s t)

/-- PERST_N_ASSERT (spec 13 R515). -/
def execPerstNAssert (t : Nat) (s : State) : Res := .next (perstAssert s t)

/-- PERST_N_HOLD_EXPIRY (spec 13 R515). -/
def execPerstNHoldExpiry (t : Nat) (s : State) : Res := .next (perstHold s t)

/-- PERST_N_RELEASE (spec 13 R514). -/
def execPerstNRelease (t : Nat) (s : State) : Res := .next (perstRelease s t)

/-- DEVICE_START (spec 13 R517). -/
def execDeviceStart (finds : StartFinds) (s : State) : Res := .next (deviceStart s finds)

/-- CFG_LOCK (spec 13 R535). -/
def execCfgLock (actor : Actor) (s : State) : Res := .next (cfgLock s actor)

/-- ALERT_PENDING_CLEAR (spec 13 R531). -/
def execAlertPendingClear (actor : Actor) (mask : Word) (s : State) : Res := .next (alertClear s actor mask.toNat)

/-- SMBUS_BYTE_WRITE (spec 14 R559). -/
def execSmbusByteWrite (reg : Byte) (v : Byte) (s : State) : Res := .next (smbusWrite s reg.toNat v.toNat)

/-- WAKE_N_PULSE_END (spec 15 R574). -/
def execWakeNPulseEnd (t : Nat) (s : State) : Res := .next (wakeEnd s t)

/-- CAGE_REGULATOR_FAULT (spec 15 R571). -/
def execCageRegulatorFault (p : Fin 8) (t : Nat) (s : State) : Res := .next (cageFault s p t)

end Sys2Proof.Machine
end

