-- ==== Sys2Proof/Machine/Commits.lean ====
section
/-! DEFINITION. Meanings. Commit unit, read pins and step boundaries (spec 07 R320 to R325, R591; 01 R37, R40). -/

namespace Sys2Proof.Machine

set_option Elab.async false

/-- COMMIT (spec 07 R320). -/
def execCommit (d : BitVec 19) (skipped : Bool) (roots : Bool) (step : Word64) (epoch : BitVec 16) (acc : BitVec 16) (crc : Word) (growth : BitVec 24) (nonfinite : Word) (s : State) : Res :=
  .next (pushCommit s {
    domain := d.toNat, kind := 0, skipped := skipped, roots := roots, legacy := false, step := step.toNat, epoch := epoch.toNat,
    acc := acc.toNat, crc := crc.toNat, growth := growth.toNat, nonfinite := nonfinite.toNat })

/-- SCAN (spec 07 R324). -/
def execScan (d : BitVec 19) (s : State) : Res := .next (pushScan s d.toNat)

/-- COMMIT_EXECUTE (spec 07 R322). -/
def execCommitExecute (t : Nat) (s : State) : Res := .next (commitCommand s t)

/-- SCAN_EXECUTE (spec 07 R324). -/
def execScanExecute (t : Nat) (s : State) : Res := .next (scanExecute s t)

/-- QUERY_DOMAIN (spec 07 R325). -/
def execQueryDomain (actor : Actor) (d : BitVec 19) (s : State) : Res := .next (queryDomain s actor d.toNat)

/-- READ_PIN_REQUEST (spec 07 R591). -/
def execReadPinRequest (d : BitVec 19) (h : PinHolder) (s : State) : Res := .next (requestPin s d.toNat h)

/-- READ_PIN_RELEASE (spec 01 R37). -/
def execReadPinRelease (d : BitVec 19) (h : PinHolder) (s : State) : Res := .next (releasePin s d.toNat h)

/-- STEP_BOUNDARY (spec 01 R40). -/
def execStepBoundary (d : BitVec 19) (t : BoundaryAt) (s : State) : Res :=
  .next (updateMembership (stepBoundary s d.toNat t.others t.time))

end Sys2Proof.Machine
end

