-- ==== Sys2Proof/Machine/Control.lean ====
section
/-! DEFINITION. Meanings. Commands of the control slot, and the end of a WAIT and of a program apart (spec 02 R64 to R67, R587, 06 R250, R251). -/

namespace Sys2Proof.Machine

set_option Elab.async false

/-- SALU_ADD (spec 02 R587). -/
def execSaluAdd (c : Issue) (f : CtlF) (s : State) : Res := .next (issueSlot s c (.ctl .add f))

/-- SALU_SUB (spec 02 R587). -/
def execSaluSub (c : Issue) (f : CtlF) (s : State) : Res := .next (issueSlot s c (.ctl .sub f))

/-- SALU_AND (spec 02 R587). -/
def execSaluAnd (c : Issue) (f : CtlF) (s : State) : Res := .next (issueSlot s c (.ctl .and f))

/-- SALU_OR (spec 02 R587). -/
def execSaluOr (c : Issue) (f : CtlF) (s : State) : Res := .next (issueSlot s c (.ctl .or f))

/-- SALU_XOR (spec 02 R587). -/
def execSaluXor (c : Issue) (f : CtlF) (s : State) : Res := .next (issueSlot s c (.ctl .xor f))

/-- SALU_SHL (spec 02 R587). -/
def execSaluShl (c : Issue) (f : CtlF) (s : State) : Res := .next (issueSlot s c (.ctl .shl f))

/-- SALU_SHR (spec 02 R587). -/
def execSaluShr (c : Issue) (f : CtlF) (s : State) : Res := .next (issueSlot s c (.ctl .shr f))

/-- SALU_SRA (spec 02 R587). -/
def execSaluSra (c : Issue) (f : CtlF) (s : State) : Res := .next (issueSlot s c (.ctl .sra f))

/-- ADDI (spec 02 R587). -/
def execAddi (c : Issue) (f : CtlF) (s : State) : Res := .next (issueSlot s c (.ctl .addi f))

/-- SMUL (spec 02 R587). -/
def execSmul (c : Issue) (f : CtlF) (s : State) : Res := .next (issueSlot s c (.ctl .smul f))

/-- LI (spec 02 R587). -/
def execLi (c : Issue) (f : CtlF) (s : State) : Res := .next (issueSlot s c (.ctl .li f))

/-- BR (spec 02 R65). -/
def execBr (c : Issue) (f : CtlF) (s : State) : Res := .next (issueSlot s c (.ctl .br f))

/-- LOOP (spec 02 R66). -/
def execLoop (c : Issue) (f : CtlF) (s : State) : Res := .next (issueSlot s c (.ctl .loop f))

/-- WAIT (spec 02 R587). -/
def execWait (c : Issue) (f : CtlF) (s : State) : Res := .next (issueSlot s c (.ctl .wait f))

/-- TIME (spec 02 R587). -/
def execTime (c : Issue) (f : CtlF) (s : State) : Res := .next (issueSlot s c (.ctl .time f))

/-- PSET_EQ (spec 02 R587). -/
def execPsetEq (c : Issue) (f : CtlF) (s : State) : Res := .next (issueSlot s c (.ctl .psetEq f))

/-- PSET_NE (spec 02 R587). -/
def execPsetNe (c : Issue) (f : CtlF) (s : State) : Res := .next (issueSlot s c (.ctl .psetNe f))

/-- PSET_LT (spec 02 R587). -/
def execPsetLt (c : Issue) (f : CtlF) (s : State) : Res := .next (issueSlot s c (.ctl .psetLt f))

/-- PSET_LE (spec 02 R587). -/
def execPsetLe (c : Issue) (f : CtlF) (s : State) : Res := .next (issueSlot s c (.ctl .psetLe f))

/-- PSET_GT (spec 02 R587). -/
def execPsetGt (c : Issue) (f : CtlF) (s : State) : Res := .next (issueSlot s c (.ctl .psetGt f))

/-- PSET_GE (spec 02 R587). -/
def execPsetGe (c : Issue) (f : CtlF) (s : State) : Res := .next (issueSlot s c (.ctl .psetGe f))

/-- PSET_LTU (spec 02 R587). -/
def execPsetLtu (c : Issue) (f : CtlF) (s : State) : Res := .next (issueSlot s c (.ctl .psetLtu f))

/-- PSET_GEU (spec 02 R587). -/
def execPsetGeu (c : Issue) (f : CtlF) (s : State) : Res := .next (issueSlot s c (.ctl .psetGeu f))

/-- HALT (spec 02 R67). -/
def execHalt (c : Issue) (f : CtlF) (s : State) : Res := .next (issueSlot s c (.ctl .halt f))

/-- ISSUE (spec 06 R251). -/
def execIssue (c : Issue) (f : CtlF) (s : State) : Res := .next (issueSlot s c (.ctl .issue f))

/-- MSTAT (spec 06 R250). -/
def execMstat (c : Issue) (f : CtlF) (s : State) : Res := .next (issueSlot s c (.ctl .mstat f))

/-- GSTATQ (spec 06 R250). -/
def execGstatq (c : Issue) (f : CtlF) (s : State) : Res := .next (issueSlot s c (.ctl .gstatq f))

end Sys2Proof.Machine
end

