-- ==== Sys2Proof/Machine/Descriptors.lean ====
section
/-! DEFINITION. Meanings. Access-engine descriptors (spec 03 R127 to R130). -/

namespace Sys2Proof.Machine

set_option Elab.async false

/-- DRAM_TO_PANTRY (spec 03 R129). -/
def execDramToPantry (tile : TileId) (h : Fin 16) (rows : Nat) (cyc : MoveAt) (s : State) : Res :=
  .next (moveDesc s tile h 1 rows cyc.cyc cyc.cost)

/-- PANTRY_TO_DRAM (spec 03 R129). -/
def execPantryToDram (tile : TileId) (h : Fin 16) (rows : Nat) (cyc : MoveAt) (s : State) : Res :=
  .next (moveDesc s tile h 2 rows cyc.cyc cyc.cost)

/-- PANTRY_TO_PANTRY (spec 03 R129). -/
def execPantryToPantry (tile : TileId) (h : Fin 16) (rows : Nat) (cyc : MoveAt) (s : State) : Res :=
  .next (moveDesc s tile h 3 rows cyc.cyc cyc.cost)

/-- PANTRY_TO_TILE (spec 03 R129). -/
def execPantryToTile (tile : TileId) (h : Fin 16) (rows : Nat) (cyc : MoveAt) (s : State) : Res :=
  .next (moveDesc s tile h 4 rows cyc.cyc cyc.cost)

/-- FILL (spec 03 R127). -/
def execFill (tile : TileId) (h : Fin 16) (rows : Nat) (cyc : MoveAt) (s : State) : Res :=
  .next (moveDesc s tile h 5 rows cyc.cyc cyc.cost)

/-- DESCRIPTOR_COMPLETE (spec 03 R130). -/
def execDescriptorComplete (tile : TileId) (h : Fin 16) (cyc : Nat) (waited : Nat) (s : State) : Res :=
  .next (descComplete s tile h cyc waited)

end Sys2Proof.Machine
end

