-- ==== Sys2Proof/Machine/DeviceDram.lean ====
section
/-! DEFINITION. Meanings. Device DRAM (spec 10 R433 to R439; 12 R506). -/

namespace Sys2Proof.Machine

set_option Elab.async false

/-- DRAM_READ (spec 10 R439). -/
def execDramRead (addr : Nat) (n : Nat) (hits : List DramHit) (s : State) : Res :=
  if dramSize s < addr + n then .fault .noSuchDram else .next (dramReadCommand s addr n hits)

/-- DRAM_WRITE (spec 10 R439). -/
def execDramWrite (addr : Nat) (data : List Byte) (hits : List DramHit) (s : State) : Res :=
  if dramSize s < addr + data.length then .fault .noSuchDram else .next (dramWriteCommand s addr data hits)

/-- PATROL_SCRUB (spec 10 R438). -/
def execPatrolScrub (ch : Fin 24) (hits : List DramHit) (t : Nat) (s : State) : Res := .next (patrolScrub s ch hits t)

/-- DIMM_TEMPERATURE_READ (spec 12 R506). -/
def execDimmTemperatureRead (ch : Fin 24) (temp : Nat) (t : Nat) (s : State) : Res := .next (dimmTemperature s ch temp t)

end Sys2Proof.Machine
end

