-- ==== Sys2Proof/Machine/Doors.lean ====
section
/-! DEFINITION. Meanings. What arrives at doors and senders (spec 02 R77, R79, R83). -/

namespace Sys2Proof.Machine

set_option Elab.async false

/-- MESSAGE_ARRIVAL (spec 02 R79). -/
def execMessageArrival (tile : TileId) (door : BitVec 4) (src : ArrivalSrc) (time : Nat) (cyc : Nat) (s : State) : Res :=
  .next (messageArrival s tile door src time cyc)

/-- CREDIT_RETURN (spec 02 R77). -/
def execCreditReturn (tile : TileId) (src : CreditSrc) (cyc : Nat) (s : State) : Res := .next (creditReturn s tile src cyc)

/-- RECVT_EXPIRY (spec 02 R83). -/
def execRecvtExpiry (tile : TileId) (time : Nat) (cyc : Nat) (s : State) : Res := .next (recvtExpiry s tile time cyc)

end Sys2Proof.Machine
end

