-- ==== Sys2Proof/Machine/Exports.lean ====
section
/-! DEFINITION. Meanings. The export engine (spec 09 R399 to R404). -/

namespace Sys2Proof.Machine

set_option Elab.async false

/-- EXPORT_GO (spec 09 R399). -/
def execExportGo (actor : Actor) (t : Nat) (s : State) : Res := .next (exportCommand s actor (fun s => exportGo s t))

/-- EXPORT_ABORT (spec 09 R404). -/
def execExportAbort (actor : Actor) (t : Nat) (s : State) : Res := .next (exportCommand s actor (fun s => exportAbort s t))

/-- EXPORT_DONE (spec 09 R399). -/
def execExportDone (t : Nat) (s : State) : Res := .next (exportDone s t)

/-- PEER_DONE (spec 09 R399). -/
def execPeerDone (t : Nat) (s : State) : Res := .next (peerDone s t)

/-- PIN_EXPIRED (spec 09 R400). -/
def execPinExpired (t : Nat) (s : State) : Res := .next (pinExpired s t)

end Sys2Proof.Machine
end

