-- ==== Sys2Proof/Machine/FirmwareEvents.lean ====
section
/-! DEFINITION. Meanings. Units, live update, watchdogs and host loss (spec 11 R464 to R484; 11 R450). -/

namespace Sys2Proof.Machine

set_option Elab.async false

/-- UNIT_START (spec 11 R467). -/
def execUnitStart (t : Nat) (s : State) : Res := .next (unitStart s t)

/-- RUN_COMPLETE (spec 11 R464). -/
def execRunComplete (q : BitVec 15) (t : Nat) (s : State) : Res := .next (runComplete s q.toNat t)

/-- QUEUE_FAULT (spec 11 R468). -/
def execQueueFault (q : BitVec 15) (t : Nat) (s : State) : Res := .next (queueFault s q.toNat t)

/-- HANDOVER_BEGIN (spec 11 R476). -/
def execHandoverBegin (t : Nat) (s : State) : Res := .next (handoverBegin s t)

/-- WDT_KICK (spec 11 R478). -/
def execWdtKick (n : Fin 4) (t : Nat) (s : State) : Res := .next (wdtKick s n t)

/-- WATCHDOG_EXPIRY (spec 11 R478). -/
def execWatchdogExpiry (n : Fin 4) (copyOk : Bool) (t : Nat) (s : State) : Res := .next (watchdogExpiry s n copyOk t)

/-- CP_RESTART_COMPLETE (spec 11 R478). -/
def execCpRestartComplete (n : Fin 4) (t : Nat) (s : State) : Res := .next (cpRestartComplete s n t)

/-- ESCALATION_WINDOW_EXPIRY (spec 11 R482). -/
def execEscalationWindowExpiry (t : Nat) (s : State) : Res := .next (escalationWindowExpiry s t)

/-- HOST_LOSS_TIMEOUT (spec 11 R484). -/
def execHostLossTimeout (t : Nat) (s : State) : Res := .next (hostLossTimeout s t)

/-- HOLD_RUN_LIMIT (spec 11 R484). -/
def execHoldRunLimit (t : Nat) (s : State) : Res := .next (holdRunLimit s t)

/-- HOST_LOAD_WAIT_EXPIRY (spec 11 R450). -/
def execHostLoadWaitExpiry (t : Nat) (s : State) : Res := .next (hostLoadWaitExpiry s t)

end Sys2Proof.Machine
end

