-- ==== Sys2Proof/Machine/Gather.lean ====
section
/-! DEFINITION. Meanings. The gather engine (spec 06 R244, R247). -/

namespace Sys2Proof.Machine

set_option Elab.async false

/-- GSTAT_ATTACH (spec 06 R244). -/
def execGstatAttach (tile : TileId) (waited : Nat) (cyc : Nat) (s : State) : Res := .next (gstatAttach s tile waited cyc)

/-- GSTAT_COMPLETE (spec 06 R247). -/
def execGstatComplete (tile : TileId) (cyc : Waited) (s : State) : Res := .next (gstatComplete s tile cyc.cyc cyc.wait)

end Sys2Proof.Machine
end

