-- ==== Sys2Proof/Machine/Groups.lean ====
section
/-! DEFINITION. Meanings. Replica groups and clones (spec 09 R376 to R394). -/

namespace Sys2Proof.Machine

set_option Elab.async false

/-- STEP_REPORT (spec 09 R376). -/
def execStepReport (data : List Byte) (fit : List Nat) (t : Nat) (s : State) : Res := .next (reportArrives s data fit t)

/-- GROUP_TABLE (spec 09 R377). -/
def execGroupTable (data : List Byte) (t : Nat) (s : State) : Res := .next (tableArrives s false data t)

/-- FAIL_RECORD (spec 09 R381). -/
def execFailRecord (data : List Byte) (t : Nat) (s : State) : Res := .next (tableArrives s true data t)

/-- TABLE_REREQUEST (spec 09 R377). -/
def execTableRerequest (d : BitVec 19) (position : Fin 4096) (t : Nat) (s : State) : Res :=
  .next (tableAsked s d.toNat position.val t)

/-- HEARTBEAT_SEND (spec 09 R378). -/
def execHeartbeatSend (d : BitVec 19) (t : Nat) (s : State) : Res := .next (heartbeatSend s d.toNat t)

/-- HEARTBEAT (spec 09 R378). -/
def execHeartbeat (d : BitVec 19) (position : Fin 4096) (t : Nat) (s : State) : Res :=
  .next (heartbeat s d.toNat position.val t)

/-- HEARTBEAT_EXPIRY (spec 09 R378). -/
def execHeartbeatExpiry (d : BitVec 19) (position : Fin 4096) (t : Nat) (fit : List Nat) (s : State) : Res :=
  .next (heartbeatExpiry s d.toNat position.val t fit)

/-- MEMBER_STOP (spec 09 R380). -/
def execMemberStop (d : BitVec 19) (position : Fin 4096) (t : Nat) (fit : List Nat) (s : State) : Res :=
  .next (memberStop s d.toNat position.val t fit)

/-- LINK_FAILURE_REPORT (spec 09 R380). -/
def execLinkFailureReport (d : BitVec 19) (position : Fin 4096) (peer : Fin 4096) (t : Nat) (fit : List Nat) (s : State) : Res :=
  .next (linkFailure s d.toNat position.val peer.val t fit)

/-- CLONE_FETCH_REQUEST (spec 09 R394). -/
def execCloneFetchRequest (d : BitVec 19) (member : Fin 4096) (ask : CloneAsk) (t : Nat) (s : State) : Res :=
  .next (cloneAsked s d.toNat member.val ask t)

/-- CLONE_LEAF_ARRIVAL (spec 09 R394). -/
def execCloneLeafArrival (d : BitVec 19) (unit : CloneUnit) (t : Nat) (s : State) : Res :=
  .next (cloneArrives s d.toNat unit t)

/-- CLONE_DONE (spec 09 R394). -/
def execCloneDone (d : BitVec 19) (position : Fin 4096) (member : Fin 4096) (t : Nat) (s : State) : Res :=
  .next (cloneDone s d.toNat position.val member.val t)

/-- SPARE_WAIT_EXPIRY (spec 09 R393). -/
def execSpareWaitExpiry (d : BitVec 19) (t : Nat) (s : State) : Res := .next (spareWaitExpiry s d.toNat t)

/-- AGREED_COPY_DONE (spec 09 R391). -/
def execAgreedCopyDone (d : BitVec 19) (t : Nat) (s : State) : Res := .next (agreedCopyDone s d.toNat t)

end Sys2Proof.Machine
end

