-- ==== Sys2Proof/Machine/HostPorts.lean ====
section
/-! DEFINITION. Meanings. Host ports and the export window (spec 10 R406 to R411; 14 R542). -/

namespace Sys2Proof.Machine

set_option Elab.async false

/-- HOST_LINK_UP (spec 10 R410). -/
def execHostLinkUp (p : Fin 2) (gt64 : Bool) (x8 : Bool) (flit256 : Bool) (t : Nat) (s : State) : Res :=
  .next (hostLinkUp s p gt64 x8 flit256 t)

/-- HOST_LINK_DOWN (spec 10 R411). -/
def execHostLinkDown (p : Fin 2) (t : Nat) (s : State) : Res := .next (hostLinkDown s p t)

/-- HA_TRAINING_TIMEOUT (spec 10 R410). -/
def execHaTrainingTimeout (t : Nat) (s : State) : Res := .next (haTimeout s t)

/-- FAILOVER_REQ (spec 10 R409). -/
def execFailoverReq (p : Fin 2) (t : Nat) (s : State) : Res := .next (failoverReq s p t)

/-- FAILOVER_DELAY_EXPIRY (spec 10 R411). -/
def execFailoverDelayExpiry (t : Nat) (s : State) : Res := .next (failoverDelay s t)

/-- WINDOW_READ (spec 14 R542). -/
def execWindowRead (p : Fin 2) (offset : Nat) (lines : Nat) (s : State) : Res := .next (windowRead s p offset lines)

/-- WINDOW_WRITE (spec 10 R407). -/
def execWindowWrite (p : Fin 2) (s : State) : Res := .next (windowWrite s p)

/-- H2D_SNOOP (spec 10 R406). -/
def execH2dSnoop (p : Fin 2) (s : State) : Res := .next (snoop s p)

end Sys2Proof.Machine
end

