-- ==== Sys2Proof/Machine/Kamduelm.lean ====
section
/-! DEFINITION. Meanings. Kamduelm ports and frames, the time base, membership (spec 10 R415 to R431). -/

namespace Sys2Proof.Machine

set_option Elab.async false

/-- LINK_LOCK (spec 10 R423). -/
def execLinkLock (p : Fin 8) (t : Nat) (s : State) : Res := .next (linkLock s p t)

/-- PORT_TRAINING_TIMEOUT (spec 10 R423). -/
def execPortTrainingTimeout (p : Fin 8) (t : Nat) (s : State) : Res := .next (trainingTimeout s p t)

/-- ATTEST_TIMEOUT (spec 10 R423). -/
def execAttestTimeout (p : Fin 8) (t : Nat) (s : State) : Res := .next (attestTimeout s p t)

/-- PORT_BACKOFF_EXPIRY (spec 10 R423). -/
def execPortBackoffExpiry (p : Fin 8) (t : Nat) (s : State) : Res := .next (backoffExpiry s p t)

/-- IDENT (spec 10 R425). -/
def execIdent (f : RxFrame) (s : State) : Res := .next (identFrame s f)

/-- ATTEST_FRAME (spec 10 R426). -/
def execAttestFrame (f : RxFrame) (s : State) : Res := .next (attestFrame s f)

/-- ACK (spec 10 R418). -/
def execAck (f : RxFrame) (s : State) : Res := .next (ackCommand s f)

/-- REPLAY_TIMEOUT (spec 10 R419). -/
def execReplayTimeout (p : Fin 8) (t : Nat) (s : State) : Res := .next (replayTimeout s p t)

/-- FEC_UNCORRECTABLE (spec 10 R419). -/
def execFecUncorrectable (p : Fin 8) (t : Nat) (s : State) : Res := .next (fecUncorrectable s p t)

/-- TIMEBASE_FRAME (spec 10 R429). -/
def execTimebaseFrame (f : RxFrame) (stamp : Nat) (s : State) : Res := .next (timebaseFrame s f stamp)

/-- TIMEBASE_EXCHANGE (spec 10 R429). -/
def execTimebaseExchange (par : Option (Fin 8 × Nat × Nat)) (t1 : Nat) (t2 : Nat) (t3 : Nat) (t4 : Nat) (t : Nat) (s : State) : Res :=
  .next (timebaseExchange s par t1 t2 t3 t4 t)

/-- TIME_UNSYNC (spec 10 R431). -/
def execTimeUnsync (t : Nat) (s : State) : Res := .next (timeUnsync s t)

/-- CONTROL_FRAME (spec 10 R420). -/
def execControlFrame (f : RxFrame) (told : Option Told) (fit : List Nat) (s : State) : Res :=
  .next (controlFrame s f told fit)

/-- DOOR_FRAME (spec 10 R422). -/
def execDoorFrame (f : RxFrame) (x : DoorItem) (cyc : Nat) (s : State) : Res := .next (doorFrame s f x cyc)

/-- REDUCTION_FRAME (spec 10 R420). -/
def execReductionFrame (f : RxFrame) (s : State) : Res := .next (reductionFrame s f)

/-- BULK_FRAME (spec 10 R420). -/
def execBulkFrame (f : RxFrame) (s : State) : Res := .next (bulkFrame s f)

/-- MEMBERSHIP (spec 10 R427). -/
def execMembership (member : Fin 4096) (state : Fin 8) (boot : Nat) (serial : Nat) (runtime : Nat) (t : Nat) (fit : List Nat) (s : State) : Res :=
  .next (membership s member.val state.val boot serial runtime t fit)

end Sys2Proof.Machine
end

