-- ==== Sys2Proof/Machine/MailboxRequests.lean ====
section
/-! DEFINITION. Meanings. Mailbox requests and the rings (spec 11 R455 to R463). -/

namespace Sys2Proof.Machine

set_option Elab.async false

/-- GET_VERSION (spec 11 R461). -/
def execGetVersion (a : MbxArgs) (s : State) : Res := .next (request s 0x01 a)

/-- GET_DEVICE_INFO (spec 11 R461). -/
def execGetDeviceInfo (a : MbxArgs) (s : State) : Res := .next (request s 0x02 a)

/-- BIND (spec 11 R485). -/
def execBind (a : MbxArgs) (s : State) : Res := .next (request s 0x03 a)

/-- UNBIND (spec 11 R486). -/
def execUnbind (a : MbxArgs) (s : State) : Res := .next (request s 0x04 a)

/-- IMAGE_LOAD (spec 11 R474). -/
def execImageLoad (a : MbxArgs) (s : State) : Res := .next (request s 0x10 a)

/-- RUNTIME_HANDOVER (spec 11 R475). -/
def execRuntimeHandover (a : MbxArgs) (s : State) : Res := .next (request s 0x11 a)

/-- FLASH_WRITE (spec 11 R448). -/
def execFlashWrite (a : MbxArgs) (s : State) : Res := .next (request s 0x12 a)

/-- SVN_RAISE (spec 11 R446). -/
def execSvnRaise (a : MbxArgs) (s : State) : Res := .next (request s 0x13 a)

/-- ATTEST (spec 11 R454). -/
def execAttest (a : MbxArgs) (s : State) : Res := .next (request s 0x14 a)

/-- MEMBER_SET (spec 11 R461). -/
def execMemberSet (a : MbxArgs) (s : State) : Res := .next (request s 0x20 a)

/-- SPARE_SET (spec 11 R461). -/
def execSpareSet (a : MbxArgs) (s : State) : Res := .next (request s 0x21 a)

/-- GROUP_SET (spec 09 R374). -/
def execGroupSet (a : MbxArgs) (s : State) : Res := .next (request s 0x22 a)

/-- QUEUE_CREATE (spec 11 R462). -/
def execQueueCreate (a : MbxArgs) (s : State) : Res := .next (request s 0x30 a)

/-- QUEUE_DESTROY (spec 11 R461). -/
def execQueueDestroy (a : MbxArgs) (s : State) : Res := .next (request s 0x31 a)

/-- QUEUE_RING_SET (spec 11 R461). -/
def execQueueRingSet (a : MbxArgs) (s : State) : Res := .next (request s 0x32 a)

/-- QUEUE_STOP (spec 11 R461). -/
def execQueueStop (a : MbxArgs) (s : State) : Res := .next (request s 0x33 a)

/-- QUEUE_RESUME (spec 11 R461). -/
def execQueueResume (a : MbxArgs) (s : State) : Res := .next (request s 0x34 a)

/-- QUEUE_QUERY (spec 11 R461). -/
def execQueueQuery (a : MbxArgs) (s : State) : Res := .next (request s 0x35 a)

/-- CONTEXT_CREATE (spec 11 R471). -/
def execContextCreate (a : MbxArgs) (s : State) : Res := .next (request s 0x40 a)

/-- CONTEXT_DESTROY (spec 11 R461). -/
def execContextDestroy (a : MbxArgs) (s : State) : Res := .next (request s 0x41 a)

/-- PLACEMENT_WRITE (spec 11 R472). -/
def execPlacementWrite (a : MbxArgs) (s : State) : Res := .next (request s 0x42 a)

/-- DOMAIN_SET (spec 11 R461). -/
def execDomainSet (a : MbxArgs) (s : State) : Res := .next (request s 0x43 a)

/-- UPB_SUBMIT (spec 07 R307). -/
def execUpbSubmit (a : MbxArgs) (s : State) : Res := .next (request s 0x44 a)

/-- RETAIN_SET (spec 09 R397). -/
def execRetainSet (a : MbxArgs) (s : State) : Res := .next (request s 0x45 a)

/-- BASE_LOAD (spec 09 R382). -/
def execBaseLoad (a : MbxArgs) (s : State) : Res := .next (request s 0x46 a)

/-- EXPORT (spec 09 R398). -/
def execExportReq (a : MbxArgs) (s : State) : Res := .next (request s 0x50 a)

/-- CELLAR_RESTORE (spec 09 R389). -/
def execCellarRestore (a : MbxArgs) (s : State) : Res := .next (request s 0x51 a)

/-- CHANNEL_RETIRE (spec 10 R440). -/
def execChannelRetire (a : MbxArgs) (s : State) : Res := .next (request s 0x60 a)

/-- LOG_READ (spec 11 R461). -/
def execLogRead (a : MbxArgs) (s : State) : Res := .next (request s 0x61 a)

/-- LIFECYCLE_SET (spec 13 R523). -/
def execLifecycleSet (a : MbxArgs) (s : State) : Res := .next (request s 0x62 a)

/-- UNLISTED_OPCODE_REQUEST (spec 11 R458). -/
def execUnlistedOpcodeRequest (bytes : List Byte) (dma : List Byte) (t : Nat) (s : State) : Res :=
  .next (mailboxRequest s { bytes := bytes, dma := dma, dma2 := [] } t)

/-- RSP_HEAD_WRITE (spec 11 R456). -/
def execRspHeadWrite (v : Word) (t : Nat) (s : State) : Res := .next (rspHeadWrite s v.toNat t)

/-- EVT_HEAD_WRITE (spec 11 R456). -/
def execEvtHeadWrite (v : Word) (t : Nat) (s : State) : Res := .next (evtHeadWrite s v.toNat t)

/-- QUEUE_DOORBELL (spec 11 R463). -/
def execQueueDoorbell (q : BitVec 15) (v : Word) (entries : List (List Byte)) (t : Nat) (s : State) : Res :=
  if doorbellFormed s q.toNat v.toNat entries then .next (doorbell s q.toNat v.toNat entries t)
  else .refused (.illFormed "not the entries between the old tail and the new one")

end Sys2Proof.Machine
end

