-- ==== Sys2Proof/Machine/Marver.lean ====
section
/-! DEFINITION. Meanings. The marver (spec 06 R255, R269 to R280). -/

namespace Sys2Proof.Machine

set_option Elab.async false

/-- ROOT (spec 06 R269). -/
def execRoot (tile : TileId) (cyc : Nat) (s : State) : Res := .next (marverBegin s tile 1 cyc)

/-- NSINV (spec 06 R270). -/
def execNsinv (tile : TileId) (cyc : Nat) (s : State) : Res := .next (marverBegin s tile 2 cyc)

/-- CHOL (spec 06 R271). -/
def execChol (tile : TileId) (cyc : Nat) (s : State) : Res := .next (marverBegin s tile 3 cyc)

/-- TRSV_L (spec 06 R272). -/
def execTrsvL (tile : TileId) (cyc : Nat) (s : State) : Res := .next (marverBegin s tile 4 cyc)

/-- TRSV_LT (spec 06 R272). -/
def execTrsvLt (tile : TileId) (cyc : Nat) (s : State) : Res := .next (marverBegin s tile 5 cyc)

/-- CHOLSOLVE (spec 06 R273). -/
def execCholsolve (tile : TileId) (cyc : Nat) (s : State) : Res := .next (marverBegin s tile 6 cyc)

/-- MARVER_DESCRIPTOR_DONE (spec 06 R274). -/
def execMarverDescriptorDone (tile : TileId) (cyc : Waited) (s : State) : Res :=
  .next (marverDone s tile cyc.cyc cyc.wait)

/-- DEADLINE_EXPIRY (spec 06 R279). -/
def execDeadlineExpiry (tile : TileId) (time : Nat) (cyc : Waited) (ats : List MvAt) (s : State) :
    Res := .next (deadlineExpiry s tile time cyc.cyc ats cyc.wait)

/-- MARVER_RELEASE (spec 06 R255). -/
def execMarverRelease (tile : TileId) (s : State) : Res := .next (marverRelease s tile)

end Sys2Proof.Machine
end

