-- ==== Sys2Proof/Machine/Message.lean ====
section
/-! DEFINITION. Meanings. Commands of the message slot (spec 02 R75 to R83). -/

namespace Sys2Proof.Machine

set_option Elab.async false

/-- SEND (spec 02 R75). -/
def execSend (c : Issue) (f : MsgF) (s : State) : Res := .next (issueSlot s c (.msg .send f))

/-- SENDR (spec 02 R63). -/
def execSendr (c : Issue) (f : MsgF) (s : State) : Res := .next (issueSlot s c (.msg .sendr f))

/-- RECV (spec 02 R82). -/
def execRecv (c : Issue) (f : MsgF) (s : State) : Res := .next (issueSlot s c (.msg .recv f))

/-- RECVT (spec 02 R83). -/
def execRecvt (c : Issue) (f : MsgF) (s : State) : Res := .next (issueSlot s c (.msg .recvt f))

/-- DPOLL (spec 02 R63). -/
def execDpoll (c : Issue) (f : MsgF) (s : State) : Res := .next (issueSlot s c (.msg .dpoll f))

end Sys2Proof.Machine
end

