-- ==== Sys2Proof/Machine/PantryCommands.lean ====
section
/-! DEFINITION. Meanings. Commands of a pantry (spec 03 R115, R116, R139 to R149). -/

namespace Sys2Proof.Machine

set_option Elab.async false

/-- Firmware reports a sweep that has halted between two states as EVT_FAULT of the tile's pantry (spec 03 R145; 11 Table
11.11). -/
def reportSweep (s t : State) (i : TileId) : State :=
  match (s.tile i).pantry.halted, (t.tile i).pantry.halted with
  | none, some r => evtFault t 0x020A 2 i (4096 * r) 0 0xFFFF 0x7FFFF
  | _, _ => t

/-- PANTRY_MASTER_ACCESS (spec 03 R116). -/
def execPantryMasterAccess (tile : TileId) (master : Fin 4) (addr : Nat) (n : Fin 65) (data : Option (List Byte)) (wait : Nat) (s : State) : Res :=
  if (data.getD []).length > 64 then .refused (.illFormed "more than one line") else .next (masterAccess s tile (master.val + 3) addr n.val data wait)

/-- REGION_DESCRIPTOR_WRITE (spec 03 R115). -/
def execRegionDescriptorWrite (actor : Actor) (tile : TileId) (m : Fin 7) (d : Fin 8) (word : Bool) (v : Word) (s : State) : Res :=
  .next (regionWrite s actor tile m d word v)

/-- BANK_REQ (spec 03 R139). -/
def execBankReq (actor : Actor) (tile : TileId) (m : Fin 3) (v : Word) (s : State) : Res :=
  .next (bankReqWrite s actor tile m v)

/-- BANK_TRANSITION_END (spec 03 R140). -/
def execBankTransitionEnd (tile : TileId) (bank : Fin 40) (s : State) : Res := .next (bankEnd s tile bank.val)

/-- SWEEP_REGION_START (spec 03 R146). Firmware reports the cluster of a sweep that halts (R145). -/
def execSweepRegionStart (tile : TileId) (fails : List (Fin 64)) (s : State) : Res := .next (reportSweep s (sweepRegion s tile fails) tile)

/-- CTR_CLEAR (spec 03 R149). -/
def execCtrClear (actor : Actor) (tile : TileId) (s : State) : Res := .next (if actor.isCp then counterClear s tile else s)

end Sys2Proof.Machine
end

