-- ==== Sys2Proof/Machine/PowerEvents.lean ====
section
/-! DEFINITION. Meanings. Breaker, power domains, clocks and ageing (spec 12). -/

namespace Sys2Proof.Machine

set_option Elab.async false

/-- VIN_SAMPLE (spec 12 R489). -/
def execVinSample (mv : Nat) (t : Nat) (s : State) : Res := .next (vinSample s mv t)

/-- RAIL_FAULT (spec 12 R490). -/
def execRailFault (dimm : Bool) (n : Nat) (t : Nat) (s : State) : Res := .next (railFault s dimm n t)

/-- BREAKER_POWER_TICK (spec 12 R503). -/
def execBreakerPowerTick (p10us : Nat) (p10ms : Nat) (t : Nat) (s : State) : Res := .next (powerTick s p10us p10ms t)

/-- BREAKER_THERMAL_TICK (spec 12 R504). -/
def execBreakerThermalTick (temps : List Nat) (t : Nat) (s : State) : Res :=
  if temps.length = 42 then .next (thermalTick s temps t) else .refused (.illFormed "not one reading of each of the 42 sensors")

/-- BREAKER_LIMIT_WRITE (spec 12 R501). -/
def execBreakerLimitWrite (actor : Actor) (l : Limit) (v : Word) (s : State) : Res := .next (limitWrite s actor l v.toNat)

/-- CP2_LIVE (spec 12 R507). -/
def execCp2Live (actor : Actor) (t : Nat) (s : State) : Res := .next (cp2Live s actor t)

/-- CP2_LIVE_EXPIRY (spec 12 R507). -/
def execCp2LiveExpiry (t : Nat) (s : State) : Res := .next (cp2LiveExpiry s t)

/-- FREQ_APPLY (spec 12 R499). -/
def execFreqApply (actor : Actor) (n : Fin 4) (t : Nat) (s : State) : Res := .next (freqApply s actor n t)

/-- FREQ_CHANGE_DONE (spec 12 R499). -/
def execFreqChangeDone (n : Fin 4) (t : Nat) (s : State) : Res := .next (freqChangeDone s n t)

/-- DOMAIN_REQUEST (spec 12 R491). -/
def execDomainRequest (actor : Actor) (dom : Fin 50) (v : BitVec 2) (t : Nat) (s : State) : Res :=
  .next (domainRequest s actor dom.val v.toNat t)

/-- DOMAIN_TRANSITION_END (spec 12 R493). -/
def execDomainTransitionEnd (dom : Fin 50) (t : Nat) (s : State) : Res := .next (domainEnd s dom.val t)

/-- PWR_DOMAIN_TIMEOUT (spec 12 R493). -/
def execPwrDomainTimeout (dom : Fin 50) (t : Nat) (s : State) : Res := .next (domainTimeout s dom.val t)

/-- CLUSTER_IDLE_TIMEOUT (spec 12 R495). -/
def execClusterIdleTimeout (c : Fin 32) (t : Nat) (s : State) : Res := .next (clusterIdle s c.val t)

/-- BANK_RETENTION_TIMEOUT (spec 12 R496). -/
def execBankRetentionTimeout (c : Fin 32) (t : Nat) (s : State) : Res := .next (bankRetention s c.val t)

/-- AGEING_SAMPLE (spec 12 R509). -/
def execAgeingSample (rs : List AgeReading) (t : Nat) (s : State) : Res := .next (ageingSample s rs t)

/-- V_SET (spec 12 R509). -/
def execVSet (actor : Actor) (n : Fin 4) (k : Fin 8) (v : BitVec 16) (s : State) : Res :=
  .next (vSetWrite s actor n k v.toNat)

/-- DRIFT_RECORD_DAILY (spec 12 R512). -/
def execDriftRecordDaily (t : Nat) (s : State) : Res := .next (driftDaily s t)

end Sys2Proof.Machine
end

