-- ==== Sys2Proof/Machine/Reduction.lean ====
section
/-! DEFINITION. Meanings. The crucible (spec 08). -/

namespace Sys2Proof.Machine

set_option Elab.async false

/-- OP_PUSH (spec 08 R331). -/
def execOpPush (addr : BitVec 41) (t : Nat) (s : State) : Res := .next (opPush s addr.toNat t)

/-- OP_ABORT (spec 08 R364). -/
def execOpAbort (t : Nat) (s : State) : Res := .next (abortCrucible s t)

/-- GRAD_OP (spec 08 R350). -/
def execGradOp (t : Nat) (s : State) : Res := .next (startOp s 1 t)

/-- STAT_OP (spec 08 R357). -/
def execStatOp (t : Nat) (s : State) : Res := .next (startOp s 2 t)

/-- ROOT_OP (spec 08 R358). -/
def execRootOp (t : Nat) (s : State) : Res := .next (startOp s 3 t)

/-- DATA_CHUNK (spec 08 R342). -/
def execDataChunk (ch : Fin 16) (data : List Byte) (t : Nat) (s : State) : Res := .next (chunkOfKind s 1 ch.val data t)

/-- PREMAX_CHUNK (spec 08 R348). -/
def execPremaxChunk (ch : Fin 16) (data : List Byte) (t : Nat) (s : State) : Res := .next (chunkOfKind s 2 ch.val data t)

/-- STAT_CHUNK (spec 08 R357). -/
def execStatChunk (ch : Fin 16) (data : List Byte) (t : Nat) (s : State) : Res := .next (chunkOfKind s 3 ch.val data t)

/-- ROOT_CHUNK (spec 08 R358). -/
def execRootChunk (ch : Fin 16) (data : List Byte) (t : Nat) (s : State) : Res := .next (chunkOfKind s 4 ch.val data t)

/-- END_CHUNK (spec 08 R362). -/
def execEndChunk (ch : Fin 16) (data : List Byte) (t : Nat) (s : State) : Res := .next (chunkOfKind s 5 ch.val data t)

/-- CLOSE_CHUNK (spec 08 R363). -/
def execCloseChunk (ch : Fin 16) (data : List Byte) (t : Nat) (s : State) : Res := .next (chunkOfKind s 6 ch.val data t)

/-- GRANT_CHUNK (spec 08 R340). -/
def execGrantChunk (ch : Fin 16) (data : List Byte) (t : Nat) (s : State) : Res := .next (chunkOfKind s 7 ch.val data t)

/-- HOP_TIMEOUT (spec 08 R343). -/
def execHopTimeout (ch : Fin 16) (t : Nat) (s : State) : Res := .next (hopTimeout s ch.val t)

/-- OP_DONE (spec 08 R365). -/
def execOpDone (t : Nat) (fit : List Nat) (s : State) : Res := .next (opDone s t fit)

end Sys2Proof.Machine
end

