-- ==== Sys2Proof/Machine/Registers.lean ====
section
/-! DEFINITION. Meanings. Register accesses and the bits of the common header (spec 00 R15; 02 R588, R589; 14 R538 to R553). -/

namespace Sys2Proof.Machine

set_option Elab.async false

/-- START (spec 02 R589). -/
def execStart (actor : Actor) (tile : TileId) (entry : Fin 8192) (s : State) : Res :=
  .next (startCommand s actor tile entry.val)

/-- ABORT (spec 02 R588). -/
def execAbort (actor : Actor) (tile : TileId) (s : State) : Res := .next (abortCommand s actor tile)

/-- FREEZE (spec 14 R552). -/
def execFreeze (actor : Actor) (ty : Nat) (inst : Nat) (on : Bool) (s : State) : Res :=
  .next (headerCommand s actor ty inst 0 (fun s => setFreeze s ty inst on))

/-- SOFT_RESET (spec 14 R551). -/
def execSoftReset (actor : Actor) (ty : Nat) (inst : Nat) (s : State) : Res :=
  .next (headerCommand s actor ty inst 0 (fun s => softReset s ty inst))

/-- ENABLE (spec 14 R550). -/
def execEnable (actor : Actor) (ty : Nat) (inst : Nat) (on : Bool) (s : State) : Res :=
  .next (headerCommand s actor ty inst 0 (fun s => setEnable s ty inst on))

/-- INT_STATUS_CLEAR (spec 14 R548). -/
def execIntStatusClear (actor : Actor) (ty : Nat) (inst : Nat) (pg : Nat) (mask : Word) (s : State) : Res :=
  .next (headerCommand s actor ty inst pg (fun s => clearInt s ty pg inst mask.toNat))

/-- INT_FORCE (spec 14 R549). -/
def execIntForce (actor : Actor) (ty : Nat) (inst : Nat) (pg : Nat) (mask : Word) (s : State) : Res :=
  .next (headerCommand s actor ty inst pg (fun s => forceInt s ty pg inst mask.toNat))

/-- PERF_EVENT (spec 14 R553). -/
def execPerfEvent (actor : Actor) (ty : Nat) (inst : Nat) (ev : Byte) (s : State) : Res :=
  .next (headerCommand s actor ty inst 0 (fun s => setPerf s ty inst ev.toNat))

/-- PERF_CLEAR (spec 14 R553). -/
def execPerfClear (actor : Actor) (ty : Nat) (inst : Nat) (s : State) : Res :=
  .next (headerCommand s actor ty inst 0 (fun s => clearPerf s ty inst))

/-- LATCHING_READ (spec 14 R541). -/
def execLatchingRead (actor : Actor) (addr : BitVec 26) (wide : Bool) (s : State) : Res :=
  .next (if validAccess addr.toNat (if wide then 8 else 4) then registerRead s actor addr.toNat wide else invalidAccess s actor (if wide then 8 else 4) false)

/-- BAR0_INVALID_ACCESS (spec 14 R538). -/
def execBar0InvalidAccess (actor : Actor) (addr : BitVec 26) (n : Fin 65) (write : Bool) (s : State) : Res :=
  if validAccess addr.toNat n.val then .refused (.illFormed "an access of a size and alignment that BAR0 accepts") else .next (invalidAccess s actor n.val write)

/-- REGISTER_WRITE (spec 00 R15). -/
def execRegisterWrite (actor : Actor) (addr : BitVec 26) (wide : Bool) (v : Word64) (s : State) : Res :=
  .next (if validAccess addr.toNat (if wide then 8 else 4) then registerWrite s actor addr.toNat wide v.toNat else invalidAccess s actor (if wide then 8 else 4) true)

end Sys2Proof.Machine
end

