-- ==== Sys2Proof/Machine/TileStops.lean ====
section
/-! DEFINITION. Meanings. Ends of stalls and of programs (spec 02 R67, R71, R93, R95; 05 R224, R231). -/

namespace Sys2Proof.Machine

set_option Elab.async false

/-- WAIT_EXPIRY (spec 02 R93). -/
def execWaitExpiry (tile : TileId) (s : State) : Res := .next (countedStallEnd s tile 7)

/-- PROGRAM_HALTED (spec 02 R67). -/
def execProgramHalted (tile : TileId) (cyc : Nat) (s : State) : Res := .next (programHalted s tile cyc)

/-- MODE_COMPLETE (spec 05 R231). -/
def execModeComplete (tile : TileId) (s : State) : Res := .next (countedStallEnd s tile 6)

/-- DRAIN_COMPLETE (spec 05 R224). -/
def execDrainComplete (tile : TileId) (cyc : Nat) (s : State) : Res := .next (drainEnd s tile cyc)

/-- STALL_LIMIT (spec 02 R95). -/
def execStallLimit (tile : TileId) (s : State) : Res := .next (stallLimit s tile)

/-- FENCE_COMPLETE (spec 02 R93). -/
def execFenceComplete (tile : TileId) (s : State) : Res := .next (fenceEnd s tile)

/-- TRANSCENDENTAL_UNIT_FREE (spec 02 R71). -/
def execTranscendentalUnitFree (tile : TileId) (s : State) : Res := .next (transEnd s tile)

end Sys2Proof.Machine
end

