-- ==== Sys2Proof/Machine/Vector.lean ====
section
/-! DEFINITION. Meanings. Commands of the vector slot (spec 02 R55, R69 to R71, 04 R170 to R183, R586). -/

namespace Sys2Proof.Machine

set_option Elab.async false

/-- V_ADD (spec 02 R586). -/
def execVAdd (c : Issue) (f : VecF) (s : State) : Res := .next (issueSlot s c (.vec .add f))

/-- V_SUB (spec 02 R586). -/
def execVSub (c : Issue) (f : VecF) (s : State) : Res := .next (issueSlot s c (.vec .sub f))

/-- V_MUL (spec 02 R586). -/
def execVMul (c : Issue) (f : VecF) (s : State) : Res := .next (issueSlot s c (.vec .mul f))

/-- V_FMA (spec 04 R170). -/
def execVFma (c : Issue) (f : VecF) (s : State) : Res := .next (issueSlot s c (.vec .fma f))

/-- V_MIN (spec 04 R183). -/
def execVMin (c : Issue) (f : VecF) (s : State) : Res := .next (issueSlot s c (.vec .min f))

/-- V_MAX (spec 04 R183). -/
def execVMax (c : Issue) (f : VecF) (s : State) : Res := .next (issueSlot s c (.vec .max f))

/-- V_ABS (spec 02 R586). -/
def execVAbs (c : Issue) (f : VecF) (s : State) : Res := .next (issueSlot s c (.vec .abs f))

/-- EXP (spec 04 R171). -/
def execExp (c : Issue) (f : VecF) (s : State) : Res := .next (issueSlot s c (.vec .exp f))

/-- LOG (spec 04 R171). -/
def execLog (c : Issue) (f : VecF) (s : State) : Res := .next (issueSlot s c (.vec .log f))

/-- RCP (spec 04 R171). -/
def execRcp (c : Issue) (f : VecF) (s : State) : Res := .next (issueSlot s c (.vec .rcp f))

/-- RSQRT (spec 04 R171). -/
def execRsqrt (c : Issue) (f : VecF) (s : State) : Res := .next (issueSlot s c (.vec .rsqrt f))

/-- CVT (spec 04 R173). -/
def execCvt (c : Issue) (f : VecF) (s : State) : Res := .next (issueSlot s c (.vec .cvt f))

/-- V_EQ (spec 02 R586). -/
def execVEq (c : Issue) (f : VecF) (s : State) : Res := .next (issueSlot s c (.vec .eq f))

/-- V_NE (spec 02 R586). -/
def execVNe (c : Issue) (f : VecF) (s : State) : Res := .next (issueSlot s c (.vec .ne f))

/-- V_LT (spec 02 R586). -/
def execVLt (c : Issue) (f : VecF) (s : State) : Res := .next (issueSlot s c (.vec .lt f))

/-- V_LE (spec 02 R586). -/
def execVLe (c : Issue) (f : VecF) (s : State) : Res := .next (issueSlot s c (.vec .le f))

/-- V_GT (spec 02 R586). -/
def execVGt (c : Issue) (f : VecF) (s : State) : Res := .next (issueSlot s c (.vec .gt f))

/-- V_GE (spec 02 R586). -/
def execVGe (c : Issue) (f : VecF) (s : State) : Res := .next (issueSlot s c (.vec .ge f))

/-- UNORD (spec 02 R586). -/
def execUnord (c : Issue) (f : VecF) (s : State) : Res := .next (issueSlot s c (.vec .unord f))

/-- IEQ (spec 02 R586). -/
def execIeq (c : Issue) (f : VecF) (s : State) : Res := .next (issueSlot s c (.vec .ieq f))

/-- INE (spec 02 R586). -/
def execIne (c : Issue) (f : VecF) (s : State) : Res := .next (issueSlot s c (.vec .ine f))

/-- ILT (spec 02 R586). -/
def execIlt (c : Issue) (f : VecF) (s : State) : Res := .next (issueSlot s c (.vec .ilt f))

/-- ILE (spec 02 R586). -/
def execIle (c : Issue) (f : VecF) (s : State) : Res := .next (issueSlot s c (.vec .ile f))

/-- ILTU (spec 02 R586). -/
def execIltu (c : Issue) (f : VecF) (s : State) : Res := .next (issueSlot s c (.vec .iltu f))

/-- ILEU (spec 02 R586). -/
def execIleu (c : Issue) (f : VecF) (s : State) : Res := .next (issueSlot s c (.vec .ileu f))

/-- IADD (spec 02 R586). -/
def execIadd (c : Issue) (f : VecF) (s : State) : Res := .next (issueSlot s c (.vec .iadd f))

/-- ISUB (spec 02 R586). -/
def execIsub (c : Issue) (f : VecF) (s : State) : Res := .next (issueSlot s c (.vec .isub f))

/-- V_AND (spec 02 R586). -/
def execVAnd (c : Issue) (f : VecF) (s : State) : Res := .next (issueSlot s c (.vec .and f))

/-- V_OR (spec 02 R586). -/
def execVOr (c : Issue) (f : VecF) (s : State) : Res := .next (issueSlot s c (.vec .or f))

/-- V_XOR (spec 02 R586). -/
def execVXor (c : Issue) (f : VecF) (s : State) : Res := .next (issueSlot s c (.vec .xor f))

/-- V_SHL (spec 02 R586). -/
def execVShl (c : Issue) (f : VecF) (s : State) : Res := .next (issueSlot s c (.vec .shl f))

/-- V_SHR (spec 02 R586). -/
def execVShr (c : Issue) (f : VecF) (s : State) : Res := .next (issueSlot s c (.vec .shr f))

/-- V_SRA (spec 02 R586). -/
def execVSra (c : Issue) (f : VecF) (s : State) : Res := .next (issueSlot s c (.vec .sra f))

/-- PERM (spec 02 R586). -/
def execPerm (c : Issue) (f : VecF) (s : State) : Res := .next (issueSlot s c (.vec .perm f))

/-- ROT (spec 02 R586). -/
def execRot (c : Issue) (f : VecF) (s : State) : Res := .next (issueSlot s c (.vec .rot f))

/-- RSUM (spec 02 R586). -/
def execRsum (c : Issue) (f : VecF) (s : State) : Res := .next (issueSlot s c (.vec .rsum f))

/-- RMAX (spec 02 R586). -/
def execRmax (c : Issue) (f : VecF) (s : State) : Res := .next (issueSlot s c (.vec .rmax f))

/-- RMIN (spec 02 R586). -/
def execRmin (c : Issue) (f : VecF) (s : State) : Res := .next (issueSlot s c (.vec .rmin f))

/-- MOV (spec 02 R586). -/
def execMov (c : Issue) (f : VecF) (s : State) : Res := .next (issueSlot s c (.vec .mov f))

/-- BCAST (spec 02 R586). -/
def execBcast (c : Issue) (f : VecF) (s : State) : Res := .next (issueSlot s c (.vec .bcast f))

/-- SEL (spec 02 R586). -/
def execSel (c : Issue) (f : VecF) (s : State) : Res := .next (issueSlot s c (.vec .sel f))

/-- IOTA (spec 02 R586). -/
def execIota (c : Issue) (f : VecF) (s : State) : Res := .next (issueSlot s c (.vec .iota f))

end Sys2Proof.Machine
end

