-- ==== Sys2Proof/Machine/Dispatch.lean ====
section
/-! DEFINITION. One arm per command. -/

namespace Sys2Proof.Machine

open Sys2Proof

/-- The effect of a command on everything but the queue. -/
def exec (i : Instr) (s : State) : Host.Outcome State Fault Refusal :=
  match i with
  | .vAdd c f => Sys2Proof.Machine.execVAdd c f s
  | .vSub c f => Sys2Proof.Machine.execVSub c f s
  | .vMul c f => Sys2Proof.Machine.execVMul c f s
  | .vFma c f => Sys2Proof.Machine.execVFma c f s
  | .vMin c f => Sys2Proof.Machine.execVMin c f s
  | .vMax c f => Sys2Proof.Machine.execVMax c f s
  | .vAbs c f => Sys2Proof.Machine.execVAbs c f s
  | .exp c f => Sys2Proof.Machine.execExp c f s
  | .log c f => Sys2Proof.Machine.execLog c f s
  | .rcp c f => Sys2Proof.Machine.execRcp c f s
  | .rsqrt c f => Sys2Proof.Machine.execRsqrt c f s
  | .cvt c f => Sys2Proof.Machine.execCvt c f s
  | .vEq c f => Sys2Proof.Machine.execVEq c f s
  | .vNe c f => Sys2Proof.Machine.execVNe c f s
  | .vLt c f => Sys2Proof.Machine.execVLt c f s
  | .vLe c f => Sys2Proof.Machine.execVLe c f s
  | .vGt c f => Sys2Proof.Machine.execVGt c f s
  | .vGe c f => Sys2Proof.Machine.execVGe c f s
  | .unord c f => Sys2Proof.Machine.execUnord c f s
  | .ieq c f => Sys2Proof.Machine.execIeq c f s
  | .ine c f => Sys2Proof.Machine.execIne c f s
  | .ilt c f => Sys2Proof.Machine.execIlt c f s
  | .ile c f => Sys2Proof.Machine.execIle c f s
  | .iltu c f => Sys2Proof.Machine.execIltu c f s
  | .ileu c f => Sys2Proof.Machine.execIleu c f s
  | .iadd c f => Sys2Proof.Machine.execIadd c f s
  | .isub c f => Sys2Proof.Machine.execIsub c f s
  | .vAnd c f => Sys2Proof.Machine.execVAnd c f s
  | .vOr c f => Sys2Proof.Machine.execVOr c f s
  | .vXor c f => Sys2Proof.Machine.execVXor c f s
  | .vShl c f => Sys2Proof.Machine.execVShl c f s
  | .vShr c f => Sys2Proof.Machine.execVShr c f s
  | .vSra c f => Sys2Proof.Machine.execVSra c f s
  | .perm c f => Sys2Proof.Machine.execPerm c f s
  | .rot c f => Sys2Proof.Machine.execRot c f s
  | .rsum c f => Sys2Proof.Machine.execRsum c f s
  | .rmax c f => Sys2Proof.Machine.execRmax c f s
  | .rmin c f => Sys2Proof.Machine.execRmin c f s
  | .mov c f => Sys2Proof.Machine.execMov c f s
  | .bcast c f => Sys2Proof.Machine.execBcast c f s
  | .sel c f => Sys2Proof.Machine.execSel c f s
  | .iota c f => Sys2Proof.Machine.execIota c f s
  | .saluAdd c f => Sys2Proof.Machine.execSaluAdd c f s
  | .saluSub c f => Sys2Proof.Machine.execSaluSub c f s
  | .saluAnd c f => Sys2Proof.Machine.execSaluAnd c f s
  | .saluOr c f => Sys2Proof.Machine.execSaluOr c f s
  | .saluXor c f => Sys2Proof.Machine.execSaluXor c f s
  | .saluShl c f => Sys2Proof.Machine.execSaluShl c f s
  | .saluShr c f => Sys2Proof.Machine.execSaluShr c f s
  | .saluSra c f => Sys2Proof.Machine.execSaluSra c f s
  | .addi c f => Sys2Proof.Machine.execAddi c f s
  | .smul c f => Sys2Proof.Machine.execSmul c f s
  | .li c f => Sys2Proof.Machine.execLi c f s
  | .br c f => Sys2Proof.Machine.execBr c f s
  | .loop c f => Sys2Proof.Machine.execLoop c f s
  | .wait c f => Sys2Proof.Machine.execWait c f s
  | .time c f => Sys2Proof.Machine.execTime c f s
  | .psetEq c f => Sys2Proof.Machine.execPsetEq c f s
  | .psetNe c f => Sys2Proof.Machine.execPsetNe c f s
  | .psetLt c f => Sys2Proof.Machine.execPsetLt c f s
  | .psetLe c f => Sys2Proof.Machine.execPsetLe c f s
  | .psetGt c f => Sys2Proof.Machine.execPsetGt c f s
  | .psetGe c f => Sys2Proof.Machine.execPsetGe c f s
  | .psetLtu c f => Sys2Proof.Machine.execPsetLtu c f s
  | .psetGeu c f => Sys2Proof.Machine.execPsetGeu c f s
  | .halt c f => Sys2Proof.Machine.execHalt c f s
  | .issue c f => Sys2Proof.Machine.execIssue c f s
  | .mstat c f => Sys2Proof.Machine.execMstat c f s
  | .gstatq c f => Sys2Proof.Machine.execGstatq c f s
  | .send c f => Sys2Proof.Machine.execSend c f s
  | .sendr c f => Sys2Proof.Machine.execSendr c f s
  | .recv c f => Sys2Proof.Machine.execRecv c f s
  | .recvt c f => Sys2Proof.Machine.execRecvt c f s
  | .dpoll c f => Sys2Proof.Machine.execDpoll c f s
  | .ld c f wait => Sys2Proof.Machine.execLd c f wait s
  | .st c f wait => Sys2Proof.Machine.execSt c f wait s
  | .dgo c f => Sys2Proof.Machine.execDgo c f s
  | .dwait c f => Sys2Proof.Machine.execDwait c f s
  | .fence c f => Sys2Proof.Machine.execFence c f s
  | .mode c f => Sys2Proof.Machine.execMode c f s
  | .wload c f => Sys2Proof.Machine.execWload c f s
  | .mm c f => Sys2Proof.Machine.execMm c f s
  | .drain c f => Sys2Proof.Machine.execDrain c f s
  | .gstat c f => Sys2Proof.Machine.execGstat c f s
  | .bindFeed c f => Sys2Proof.Machine.execBindFeed c f s
  | .bindDrain c f => Sys2Proof.Machine.execBindDrain c f s
  | .drainCfg c f => Sys2Proof.Machine.execDrainCfg c f s
  | .resetWalk c f => Sys2Proof.Machine.execResetWalk c f s
  | .waitExpiry tile => Sys2Proof.Machine.execWaitExpiry tile s
  | .programHalted tile cyc => Sys2Proof.Machine.execProgramHalted tile cyc s
  | .modeComplete tile => Sys2Proof.Machine.execModeComplete tile s
  | .drainComplete tile cyc => Sys2Proof.Machine.execDrainComplete tile cyc s
  | .stallLimit tile => Sys2Proof.Machine.execStallLimit tile s
  | .fenceComplete tile => Sys2Proof.Machine.execFenceComplete tile s
  | .transcendentalUnitFree tile => Sys2Proof.Machine.execTranscendentalUnitFree tile s
  | .messageArrival tile door src time cyc => Sys2Proof.Machine.execMessageArrival tile door src time cyc s
  | .creditReturn tile src cyc => Sys2Proof.Machine.execCreditReturn tile src cyc s
  | .recvtExpiry tile time cyc => Sys2Proof.Machine.execRecvtExpiry tile time cyc s
  | .arrayCommandStart tile b cyc => Sys2Proof.Machine.execArrayCommandStart tile b cyc s
  | .mmDrained tile b wait press cyc => Sys2Proof.Machine.execMmDrained tile b wait press cyc s
  | .dramToPantry tile h rows cyc => Sys2Proof.Machine.execDramToPantry tile h rows cyc s
  | .pantryToDram tile h rows cyc => Sys2Proof.Machine.execPantryToDram tile h rows cyc s
  | .pantryToPantry tile h rows cyc => Sys2Proof.Machine.execPantryToPantry tile h rows cyc s
  | .pantryToTile tile h rows cyc => Sys2Proof.Machine.execPantryToTile tile h rows cyc s
  | .fill tile h rows cyc => Sys2Proof.Machine.execFill tile h rows cyc s
  | .descriptorComplete tile h cyc waited => Sys2Proof.Machine.execDescriptorComplete tile h cyc waited s
  | .gstatAttach tile waited cyc => Sys2Proof.Machine.execGstatAttach tile waited cyc s
  | .gstatComplete tile cyc => Sys2Proof.Machine.execGstatComplete tile cyc s
  | .root tile cyc => Sys2Proof.Machine.execRoot tile cyc s
  | .nsinv tile cyc => Sys2Proof.Machine.execNsinv tile cyc s
  | .chol tile cyc => Sys2Proof.Machine.execChol tile cyc s
  | .trsvL tile cyc => Sys2Proof.Machine.execTrsvL tile cyc s
  | .trsvLt tile cyc => Sys2Proof.Machine.execTrsvLt tile cyc s
  | .cholsolve tile cyc => Sys2Proof.Machine.execCholsolve tile cyc s
  | .marverDescriptorDone tile cyc => Sys2Proof.Machine.execMarverDescriptorDone tile cyc s
  | .deadlineExpiry tile time cyc ats => Sys2Proof.Machine.execDeadlineExpiry tile time cyc ats s
  | .marverRelease tile => Sys2Proof.Machine.execMarverRelease tile s
  | .pantryMasterAccess tile master addr n data wait => Sys2Proof.Machine.execPantryMasterAccess tile master addr n data wait s
  | .regionDescriptorWrite actor tile m d word v => Sys2Proof.Machine.execRegionDescriptorWrite actor tile m d word v s
  | .bankReq actor tile m v => Sys2Proof.Machine.execBankReq actor tile m v s
  | .bankTransitionEnd tile bank => Sys2Proof.Machine.execBankTransitionEnd tile bank s
  | .sweepRegionStart tile fails => Sys2Proof.Machine.execSweepRegionStart tile fails s
  | .ctrClear actor tile => Sys2Proof.Machine.execCtrClear actor tile s
  | .start actor tile entry => Sys2Proof.Machine.execStart actor tile entry s
  | .abort actor tile => Sys2Proof.Machine.execAbort actor tile s
  | .freeze actor ty inst on => Sys2Proof.Machine.execFreeze actor ty inst on s
  | .softReset actor ty inst => Sys2Proof.Machine.execSoftReset actor ty inst s
  | .enable actor ty inst on => Sys2Proof.Machine.execEnable actor ty inst on s
  | .intStatusClear actor ty inst pg mask => Sys2Proof.Machine.execIntStatusClear actor ty inst pg mask s
  | .intForce actor ty inst pg mask => Sys2Proof.Machine.execIntForce actor ty inst pg mask s
  | .perfEvent actor ty inst ev => Sys2Proof.Machine.execPerfEvent actor ty inst ev s
  | .perfClear actor ty inst => Sys2Proof.Machine.execPerfClear actor ty inst s
  | .latchingRead actor addr wide => Sys2Proof.Machine.execLatchingRead actor addr wide s
  | .bar0InvalidAccess actor addr n write => Sys2Proof.Machine.execBar0InvalidAccess actor addr n write s
  | .registerWrite actor addr wide v => Sys2Proof.Machine.execRegisterWrite actor addr wide v s
  | .commit d skipped roots step epoch acc crc growth nonfinite => Sys2Proof.Machine.execCommit d skipped roots step epoch acc crc growth nonfinite s
  | .scan d => Sys2Proof.Machine.execScan d s
  | .commitExecute t => Sys2Proof.Machine.execCommitExecute t s
  | .scanExecute t => Sys2Proof.Machine.execScanExecute t s
  | .queryDomain actor d => Sys2Proof.Machine.execQueryDomain actor d s
  | .readPinRequest d h => Sys2Proof.Machine.execReadPinRequest d h s
  | .readPinRelease d h => Sys2Proof.Machine.execReadPinRelease d h s
  | .stepBoundary d t => Sys2Proof.Machine.execStepBoundary d t s
  | .opPush addr t => Sys2Proof.Machine.execOpPush addr t s
  | .opAbort t => Sys2Proof.Machine.execOpAbort t s
  | .gradOp t => Sys2Proof.Machine.execGradOp t s
  | .statOp t => Sys2Proof.Machine.execStatOp t s
  | .rootOp t => Sys2Proof.Machine.execRootOp t s
  | .dataChunk ch data t => Sys2Proof.Machine.execDataChunk ch data t s
  | .premaxChunk ch data t => Sys2Proof.Machine.execPremaxChunk ch data t s
  | .statChunk ch data t => Sys2Proof.Machine.execStatChunk ch data t s
  | .rootChunk ch data t => Sys2Proof.Machine.execRootChunk ch data t s
  | .endChunk ch data t => Sys2Proof.Machine.execEndChunk ch data t s
  | .closeChunk ch data t => Sys2Proof.Machine.execCloseChunk ch data t s
  | .grantChunk ch data t => Sys2Proof.Machine.execGrantChunk ch data t s
  | .hopTimeout ch t => Sys2Proof.Machine.execHopTimeout ch t s
  | .opDone t fit => Sys2Proof.Machine.execOpDone t fit s
  | .stepReport data fit t => Sys2Proof.Machine.execStepReport data fit t s
  | .groupTable data t => Sys2Proof.Machine.execGroupTable data t s
  | .failRecord data t => Sys2Proof.Machine.execFailRecord data t s
  | .tableRerequest d position t => Sys2Proof.Machine.execTableRerequest d position t s
  | .heartbeatSend d t => Sys2Proof.Machine.execHeartbeatSend d t s
  | .heartbeat d position t => Sys2Proof.Machine.execHeartbeat d position t s
  | .heartbeatExpiry d position t fit => Sys2Proof.Machine.execHeartbeatExpiry d position t fit s
  | .memberStop d position t fit => Sys2Proof.Machine.execMemberStop d position t fit s
  | .linkFailureReport d position peer t fit => Sys2Proof.Machine.execLinkFailureReport d position peer t fit s
  | .cloneFetchRequest d member ask t => Sys2Proof.Machine.execCloneFetchRequest d member ask t s
  | .cloneLeafArrival d unit t => Sys2Proof.Machine.execCloneLeafArrival d unit t s
  | .cloneDone d position member t => Sys2Proof.Machine.execCloneDone d position member t s
  | .spareWaitExpiry d t => Sys2Proof.Machine.execSpareWaitExpiry d t s
  | .agreedCopyDone d t => Sys2Proof.Machine.execAgreedCopyDone d t s
  | .exportGo actor t => Sys2Proof.Machine.execExportGo actor t s
  | .exportAbort actor t => Sys2Proof.Machine.execExportAbort actor t s
  | .exportDone t => Sys2Proof.Machine.execExportDone t s
  | .peerDone t => Sys2Proof.Machine.execPeerDone t s
  | .pinExpired t => Sys2Proof.Machine.execPinExpired t s
  | .hostLinkUp p gt64 x8 flit256 t => Sys2Proof.Machine.execHostLinkUp p gt64 x8 flit256 t s
  | .hostLinkDown p t => Sys2Proof.Machine.execHostLinkDown p t s
  | .haTrainingTimeout t => Sys2Proof.Machine.execHaTrainingTimeout t s
  | .failoverReq p t => Sys2Proof.Machine.execFailoverReq p t s
  | .failoverDelayExpiry t => Sys2Proof.Machine.execFailoverDelayExpiry t s
  | .windowRead p offset lines => Sys2Proof.Machine.execWindowRead p offset lines s
  | .windowWrite p => Sys2Proof.Machine.execWindowWrite p s
  | .h2dSnoop p => Sys2Proof.Machine.execH2dSnoop p s
  | .linkLock p t => Sys2Proof.Machine.execLinkLock p t s
  | .portTrainingTimeout p t => Sys2Proof.Machine.execPortTrainingTimeout p t s
  | .attestTimeout p t => Sys2Proof.Machine.execAttestTimeout p t s
  | .portBackoffExpiry p t => Sys2Proof.Machine.execPortBackoffExpiry p t s
  | .ident f => Sys2Proof.Machine.execIdent f s
  | .attestFrame f => Sys2Proof.Machine.execAttestFrame f s
  | .ack f => Sys2Proof.Machine.execAck f s
  | .replayTimeout p t => Sys2Proof.Machine.execReplayTimeout p t s
  | .fecUncorrectable p t => Sys2Proof.Machine.execFecUncorrectable p t s
  | .timebaseFrame f stamp => Sys2Proof.Machine.execTimebaseFrame f stamp s
  | .timebaseExchange par t1 t2 t3 t4 t => Sys2Proof.Machine.execTimebaseExchange par t1 t2 t3 t4 t s
  | .timeUnsync t => Sys2Proof.Machine.execTimeUnsync t s
  | .controlFrame f told fit => Sys2Proof.Machine.execControlFrame f told fit s
  | .doorFrame f x cyc => Sys2Proof.Machine.execDoorFrame f x cyc s
  | .reductionFrame f => Sys2Proof.Machine.execReductionFrame f s
  | .bulkFrame f => Sys2Proof.Machine.execBulkFrame f s
  | .membership member state boot serial runtime t fit => Sys2Proof.Machine.execMembership member state boot serial runtime t fit s
  | .dramRead addr n hits => Sys2Proof.Machine.execDramRead addr n hits s
  | .dramWrite addr data hits => Sys2Proof.Machine.execDramWrite addr data hits s
  | .patrolScrub ch hits t => Sys2Proof.Machine.execPatrolScrub ch hits t s
  | .dimmTemperatureRead ch temp t => Sys2Proof.Machine.execDimmTemperatureRead ch temp t s
  | .getVersion a => Sys2Proof.Machine.execGetVersion a s
  | .getDeviceInfo a => Sys2Proof.Machine.execGetDeviceInfo a s
  | .bind a => Sys2Proof.Machine.execBind a s
  | .unbind a => Sys2Proof.Machine.execUnbind a s
  | .imageLoad a => Sys2Proof.Machine.execImageLoad a s
  | .runtimeHandover a => Sys2Proof.Machine.execRuntimeHandover a s
  | .flashWrite a => Sys2Proof.Machine.execFlashWrite a s
  | .svnRaise a => Sys2Proof.Machine.execSvnRaise a s
  | .attest a => Sys2Proof.Machine.execAttest a s
  | .memberSet a => Sys2Proof.Machine.execMemberSet a s
  | .spareSet a => Sys2Proof.Machine.execSpareSet a s
  | .groupSet a => Sys2Proof.Machine.execGroupSet a s
  | .queueCreate a => Sys2Proof.Machine.execQueueCreate a s
  | .queueDestroy a => Sys2Proof.Machine.execQueueDestroy a s
  | .queueRingSet a => Sys2Proof.Machine.execQueueRingSet a s
  | .queueStop a => Sys2Proof.Machine.execQueueStop a s
  | .queueResume a => Sys2Proof.Machine.execQueueResume a s
  | .queueQuery a => Sys2Proof.Machine.execQueueQuery a s
  | .contextCreate a => Sys2Proof.Machine.execContextCreate a s
  | .contextDestroy a => Sys2Proof.Machine.execContextDestroy a s
  | .placementWrite a => Sys2Proof.Machine.execPlacementWrite a s
  | .domainSet a => Sys2Proof.Machine.execDomainSet a s
  | .upbSubmit a => Sys2Proof.Machine.execUpbSubmit a s
  | .retainSet a => Sys2Proof.Machine.execRetainSet a s
  | .baseLoad a => Sys2Proof.Machine.execBaseLoad a s
  | .exportReq a => Sys2Proof.Machine.execExportReq a s
  | .cellarRestore a => Sys2Proof.Machine.execCellarRestore a s
  | .channelRetire a => Sys2Proof.Machine.execChannelRetire a s
  | .logRead a => Sys2Proof.Machine.execLogRead a s
  | .lifecycleSet a => Sys2Proof.Machine.execLifecycleSet a s
  | .unlistedOpcodeRequest bytes dma t => Sys2Proof.Machine.execUnlistedOpcodeRequest bytes dma t s
  | .rspHeadWrite v t => Sys2Proof.Machine.execRspHeadWrite v t s
  | .evtHeadWrite v t => Sys2Proof.Machine.execEvtHeadWrite v t s
  | .queueDoorbell q v entries t => Sys2Proof.Machine.execQueueDoorbell q v entries t s
  | .unitStart t => Sys2Proof.Machine.execUnitStart t s
  | .runComplete q t => Sys2Proof.Machine.execRunComplete q t s
  | .queueFault q t => Sys2Proof.Machine.execQueueFault q t s
  | .handoverBegin t => Sys2Proof.Machine.execHandoverBegin t s
  | .wdtKick n t => Sys2Proof.Machine.execWdtKick n t s
  | .watchdogExpiry n copyOk t => Sys2Proof.Machine.execWatchdogExpiry n copyOk t s
  | .cpRestartComplete n t => Sys2Proof.Machine.execCpRestartComplete n t s
  | .escalationWindowExpiry t => Sys2Proof.Machine.execEscalationWindowExpiry t s
  | .hostLossTimeout t => Sys2Proof.Machine.execHostLossTimeout t s
  | .holdRunLimit t => Sys2Proof.Machine.execHoldRunLimit t s
  | .hostLoadWaitExpiry t => Sys2Proof.Machine.execHostLoadWaitExpiry t s
  | .vinSample mv t => Sys2Proof.Machine.execVinSample mv t s
  | .railFault dimm n t => Sys2Proof.Machine.execRailFault dimm n t s
  | .breakerPowerTick p10us p10ms t => Sys2Proof.Machine.execBreakerPowerTick p10us p10ms t s
  | .breakerThermalTick temps t => Sys2Proof.Machine.execBreakerThermalTick temps t s
  | .breakerLimitWrite actor l v => Sys2Proof.Machine.execBreakerLimitWrite actor l v s
  | .cp2Live actor t => Sys2Proof.Machine.execCp2Live actor t s
  | .cp2LiveExpiry t => Sys2Proof.Machine.execCp2LiveExpiry t s
  | .freqApply actor n t => Sys2Proof.Machine.execFreqApply actor n t s
  | .freqChangeDone n t => Sys2Proof.Machine.execFreqChangeDone n t s
  | .domainRequest actor dom v t => Sys2Proof.Machine.execDomainRequest actor dom v t s
  | .domainTransitionEnd dom t => Sys2Proof.Machine.execDomainTransitionEnd dom t s
  | .pwrDomainTimeout dom t => Sys2Proof.Machine.execPwrDomainTimeout dom t s
  | .clusterIdleTimeout c t => Sys2Proof.Machine.execClusterIdleTimeout c t s
  | .bankRetentionTimeout c t => Sys2Proof.Machine.execBankRetentionTimeout c t s
  | .ageingSample rs t => Sys2Proof.Machine.execAgeingSample rs t s
  | .vSet actor n k v => Sys2Proof.Machine.execVSet actor n k v s
  | .driftRecordDaily t => Sys2Proof.Machine.execDriftRecordDaily t s
  | .senseNMake t => Sys2Proof.Machine.execSenseNMake t s
  | .inputSwitchClose t => Sys2Proof.Machine.execInputSwitchClose t s
  | .senseNOpen t => Sys2Proof.Machine.execSenseNOpen t s
  | .perstNAssert t => Sys2Proof.Machine.execPerstNAssert t s
  | .perstNHoldExpiry t => Sys2Proof.Machine.execPerstNHoldExpiry t s
  | .perstNRelease t => Sys2Proof.Machine.execPerstNRelease t s
  | .deviceStart finds => Sys2Proof.Machine.execDeviceStart finds s
  | .cfgLock actor => Sys2Proof.Machine.execCfgLock actor s
  | .alertPendingClear actor mask => Sys2Proof.Machine.execAlertPendingClear actor mask s
  | .smbusByteWrite reg v => Sys2Proof.Machine.execSmbusByteWrite reg v s
  | .wakeNPulseEnd t => Sys2Proof.Machine.execWakeNPulseEnd t s
  | .cageRegulatorFault p t => Sys2Proof.Machine.execCageRegulatorFault p t s

end Sys2Proof.Machine
end

