-- ==== Sys2Proof/Machine/Step.lean ====
section
/-! DEFINITION. One step: the command at the front of the queue, or, on an empty queue, a bundle of a running tile. -/

namespace Sys2Proof.Machine

/-- Run the command at the front of the queue; with none waiting, a running tile issues its next bundle, and a device with no
running tile idles. DESIGN CHOICE (log entries 1 and 58). -/
def step (s : State) : Host.Outcome State Fault Refusal :=
  match s.pending with
  | [] => .next (tick s)
  | c :: cs => exec c { s with pending := cs }

/-- The table gives no row a word: no word spells a command, and nothing is put in front. -/
def State.withFetchWord (s : State) (nbits w : Nat) : State :=
  match decodeTableWord nbits w with
  | some c => { s with pending := c :: s.pending }
  | none => s

end Sys2Proof.Machine
end

