-- ==== Sys2Proof/Safety.lean ====
section
/-! DEFINITION. What counts as a sound state of the device, what every step keeps of the state before it, and when a
bundle of one slot issues at once. -/

namespace Sys2Proof.Machine

set_option Elab.async false

/-- A sound tile: P0 reads as all ones (spec 02 R58), and its pantry is in the one canonical form. -/
def Tile.sound (t : Tile) : Prop := t.p[0] = BitVec.allOnes 128 ∧ Memory.wf t.pantry.mem = true

/-- A sound state: device DRAM in the one canonical form, and every tile sound. -/
def State.sound (s : State) : Prop := Memory.wf s.dram = true ∧ ∀ i : TileId, (s.tile i).sound

/-- Fuses are only ever burnt (spec 11 R446, 13 R522, R523): no revocation, version floor or life-cycle step is undone. -/
def Fuses.burntFrom (f g : Fuses) : Prop :=
  g.serial = f.serial ∧ g.stepping = f.stepping ∧ g.revoked = f.revoked ∧ f.minSvn ≤ g.minSvn ∧
    (f.owned = true → g.owned = true) ∧ (f.decom = true → g.decom = true) ∧ f.toggles ≤ g.toggles

/-- What every command keeps: device time does not go back (spec 10 R430), fuses stay burnt, a sound state stays sound; the
queue of commands is not its concern. -/
structure Kept (s t : State) : Prop where
  now : s.now ≤ t.now
  fuses : s.fuses.burntFrom t.fuses
  sound : s.sound → t.sound
  queue : t.pending = s.pending

/-! Bundles of one slot. -/

/-- The command of an operation of the vector slot. -/
def vecInstr (c : Issue) (f : VecF) : VecOp → Instr
  | .add => .vAdd c f
  | .sub => .vSub c f
  | .mul => .vMul c f
  | .fma => .vFma c f
  | .min => .vMin c f
  | .max => .vMax c f
  | .abs => .vAbs c f
  | .exp => .exp c f
  | .log => .log c f
  | .rcp => .rcp c f
  | .rsqrt => .rsqrt c f
  | .cvt => .cvt c f
  | .eq => .vEq c f
  | .ne => .vNe c f
  | .lt => .vLt c f
  | .le => .vLe c f
  | .gt => .vGt c f
  | .ge => .vGe c f
  | .unord => .unord c f
  | .ieq => .ieq c f
  | .ine => .ine c f
  | .ilt => .ilt c f
  | .ile => .ile c f
  | .iltu => .iltu c f
  | .ileu => .ileu c f
  | .iadd => .iadd c f
  | .isub => .isub c f
  | .and => .vAnd c f
  | .or => .vOr c f
  | .xor => .vXor c f
  | .shl => .vShl c f
  | .shr => .vShr c f
  | .sra => .vSra c f
  | .perm => .perm c f
  | .rot => .rot c f
  | .rsum => .rsum c f
  | .rmax => .rmax c f
  | .rmin => .rmin c f
  | .mov => .mov c f
  | .bcast => .bcast c f
  | .sel => .sel c f
  | .iota => .iota c f

/-- The command of an operation of the array slot. -/
def arrInstr (c : Issue) (f : ArrF) : ArrOp → Instr
  | .mode => .mode c f
  | .wload => .wload c f
  | .mm => .mm c f
  | .drain => .drain c f
  | .gstat => .gstat c f
  | .bindFeed => .bindFeed c f
  | .bindDrain => .bindDrain c f
  | .drainCfg => .drainCfg c f
  | .resetWalk => .resetWalk c f

/-- The command of an operation of the access slot. -/
def accInstr (c : Issue) (f : AccF) (w : Fin 41) : AccOp → Instr
  | .ld => .ld c f w
  | .st => .st c f w
  | .dgo => .dgo c f
  | .dwait => .dwait c f
  | .fence => .fence c f

/-- The command of an operation of the message slot. -/
def msgInstr (c : Issue) (f : MsgF) : MsgOp → Instr
  | .send => .send c f
  | .sendr => .sendr c f
  | .recv => .recv c f
  | .recvt => .recvt c f
  | .dpoll => .dpoll c f

/-- The command of an operation of the control slot. -/
def ctlInstr (c : Issue) (f : CtlF) : CtlOp → Instr
  | .add => .saluAdd c f
  | .sub => .saluSub c f
  | .and => .saluAnd c f
  | .or => .saluOr c f
  | .xor => .saluXor c f
  | .shl => .saluShl c f
  | .shr => .saluShr c f
  | .sra => .saluSra c f
  | .addi => .addi c f
  | .smul => .smul c f
  | .li => .li c f
  | .br => .br c f
  | .loop => .loop c f
  | .wait => .wait c f
  | .time => .time c f
  | .psetEq => .psetEq c f
  | .psetNe => .psetNe c f
  | .psetLt => .psetLt c f
  | .psetLe => .psetLe c f
  | .psetGt => .psetGt c f
  | .psetGe => .psetGe c f
  | .psetLtu => .psetLtu c f
  | .psetGeu => .psetGeu c f
  | .halt => .halt c f
  | .issue => .issue c f
  | .mstat => .mstat c f
  | .gstatq => .gstatq c f

/-- The command that carries a chunk of kind `k + 1` (spec 08 Table 8.5). -/
def chunkInstr (k : Fin 7) (ch : Fin 16) (data : List Byte) (t : Nat) : Instr :=
  match k with
  | 0 => .dataChunk ch data t
  | 1 => .premaxChunk ch data t
  | 2 => .statChunk ch data t
  | 3 => .rootChunk ch data t
  | 4 => .endChunk ch data t
  | 5 => .closeChunk ch data t
  | 6 => .grantChunk ch data t

/-- The bundle that holds only slot `o` is the one that the running tile of `c` issues now: nothing of another bundle is put
together or waits, the slot is legal, its guard holds, and nothing stalls or stops it; unless it halts the program, the
bundle after it is inside the program (spec 02 R54 to R60, R65, R93). -/
structure Alone (s : State) (c : Issue) (o : SlotOp) : Prop where
  running : (s.tile c.tile).pstate = .running
  going : (s.tile c.tile).halting = false
  first : (s.tile c.tile).bundle = []
  header : (s.tile c.tile).hdr = 0#3 ∧ c.hdr = 0#3
  last : c.last = true
  inside : (s.tile c.tile).pc < s.getF Reg.TILE_PROG_LEN c.tile 0 ∧
    (o.isHalt = true ∨ (s.tile c.tile).pc + 1 < s.getF Reg.TILE_PROG_LEN c.tile 0)
  word : (s.tile c.tile).istoreSingle.contains (s.tile c.tile).pc = false ∧
    (s.tile c.tile).istoreDouble.contains (s.tile c.tile).pc = false
  straight : (s.tile c.tile).loops = [] ∧ (s.tile c.tile).branch = none ∧ (s.tile c.tile).brShadow = 0
  stores : ∀ p ∈ (s.tile c.tile).stores, (s.tile c.tile).cycle < p.visible
  acts : o.acts (s.tile c.tile) = true
  legal : o.illegal (s.flag Reg.TILE_LEGACY c.tile 0) = false ∧ slotIllegal s c.tile o = false
  parity : parityHit (s.tile c.tile) [o] = none
  free : slotHitch s c.tile [o] o = none
  wait : waitOf [o] = 0

/-- A tile one issued bundle further: the results `ps` join those in flight, every result in flight comes one bundle nearer,
the due ones land in their order; the bundle index and the program cycle count on (spec 02 R65, R69, R70). -/
def Tile.issued (t : Tile) (ps : List Pend) : Tile :=
  let near := (t.inflight ++ ps).map (fun p => { p with left := p.left - 1 })
  let u := (near.filter (fun p => p.left == 0)).foldl (fun (u : Tile) (p : Pend) => u.land p.dst) t
  { u with
    inflight := near.filter (fun p => p.left != 0)
    pc := t.pc + 1
    cycle := t.cycle + 1
    timedOut := false
    stall := none
    pstate := .running }

/-- The sticky bits of NUM_STATUS, bit 0 first (spec 04 R168, R190). -/
def numField : Fin 4 → Fld
  | 0 => Reg.TILE_NAN_PRODUCED
  | 1 => Reg.TILE_INF_PRODUCED
  | 2 => Reg.TILE_INVALID_CONVERT
  | 3 => Reg.TILE_INT_SAT

/-- State `t` follows on `s` by the issue of one bundle of tile `i` that puts `ps` in flight and then changes the flow of its
tile by `after`: the tile is one bundle further, device time has reached its next program cycle, one more bundle is counted, results
that land set sticky NUM_STATUS bits, and nothing else changes. `s` holds what the bundle itself did. -/
structure Issued (s t : State) (i : TileId) (ps : List Pend) (after : Tile → Tile := id) : Prop where
  tile : t.tile i = after ((s.tile i).issued ps)
  others : ∀ j, j ≠ i → t.tile j = s.tile j
  clock : t.now = max s.now (s.tileTime i ((s.tile i).cycle + 1))
  counted : t.getF Reg.TILE_ISSUED_BUNDLES i 0 =
    min (s.getF Reg.TILE_ISSUED_BUNDLES i 0 + 1) (2 ^ Reg.TILE_ISSUED_BUNDLES.width - 1)
  num : ∀ k : Fin 4, t.getF (numField k) i 0 =
    if ({ s.tile i with inflight := (s.tile i).inflight ++ ps } : Tile).dueNum[k] then 1 else s.getF (numField k) i 0
  regs : ∀ (f : Fld) (inst n : Nat), f.key inst n ≠ Reg.TILE_ISSUED_BUNDLES.key i 0 →
    (∀ k : Fin 4, f.key inst n ≠ (numField k).key i 0) → t.getF f inst n = s.getF f inst n
  rest : t = { s with regs := t.regs, tiles := t.tiles, now := t.now }

/-- The result of a vector operation that writes V[VD] in the lanes whose guard test is true (spec 02 R59). -/
def vecWrite (t : Tile) (f : VecF) (latency : Nat) (num : BitVec 4) (val : Fin 128 → Word) : Pend :=
  { left := latency, num := num,
    dst := .v f.vd (Vector.ofFn (fun l => if guardLane t f.guard l then BitVec.allOnes 32 else 0#32)) (Vector.ofFn val) }

/-- The result of a comparison: P[PD] in the lanes whose guard test is true (spec 02 R59). -/
def vecTest (t : Tile) (f : VecF) (holds : Fin 128 → Bool) : Pend :=
  { left := 2, num := 0#4, dst := .p f.pd (lanesOf (fun l => guardLane t f.guard l)) (lanesOf holds) }

/-- NUM_STATUS bits of an FP32 result: those of the lanes written (spec 04 R585). -/
def vecNum (t : Tile) (f : VecF) (val : Fin 128 → Word) : BitVec 4 :=
  (List.finRange 128).foldl (fun n l => if guardLane t f.guard l then n ||| numOf32 (val l) else n) 0#4

/-- A scalar result, `latency` bundles away. -/
def scalarWrite (f : CtlF) (latency : Nat) (v : Word64) : Pend := { left := latency, num := 0#4, dst := .s f.sd v }

/-- The result of a PSET: all lanes of P[PD]. -/
def predWrite (f : CtlF) (holds : Bool) : Pend :=
  { left := 1, num := 0#4,
    dst := .p (f.sd.extractLsb' 0 3) (BitVec.allOnes 128) (if holds then BitVec.allOnes 128 else 0#128) }

/-- The lines of `[a, a + n)` of a pantry are defined and free of ECC errors. -/
def Tile.clean (t : Tile) (a n : Nat) : Prop :=
  wordsIn t.pantry.double a n = [] ∧ wordsIn t.pantry.single a n = [] ∧
    t.pantry.hazardsFor none a n = []

/-! Requests of the mailbox. -/

/-- The opcodes of Table 11.11 of spec 11 and the commands that bring them. -/
def mailboxOps : List (Nat × (MbxArgs → Instr)) :=
  [(0x01, .getVersion), (0x02, .getDeviceInfo), (0x03, .bind), (0x04, .unbind), (0x10, .imageLoad), (0x11, .runtimeHandover),
    (0x12, .flashWrite), (0x13, .svnRaise), (0x14, .attest), (0x20, .memberSet), (0x21, .spareSet), (0x22, .groupSet)] ++
  [(0x30, .queueCreate), (0x31, .queueDestroy), (0x32, .queueRingSet), (0x33, .queueStop), (0x34, .queueResume),
    (0x35, .queueQuery), (0x40, .contextCreate), (0x41, .contextDestroy), (0x42, .placementWrite), (0x43, .domainSet)] ++
  [(0x44, .upbSubmit), (0x45, .retainSet), (0x46, .baseLoad), (0x50, .exportReq), (0x51, .cellarRestore),
    (0x60, .channelRetire), (0x61, .logRead), (0x62, .lifecycleSet)]

/-- The request that a command with opcode `op` and arguments `a` puts into the ring. -/
def mbxRequest (op : Nat) (a : MbxArgs) : MbxRequest := { bytes := requestBytes op a, dma := a.dma, dma2 := a.dma2 }

/-- No host-loss expiry passed before device time `t` (spec 11 R479, R483): a host write at `t` finds the device as it stands. -/
def HostInTime (s : State) (t : Nat) : Prop :=
  s.fw.everBound = true → fwState s = 3 → cpUp s 1 = true →
    t - 1 < s.getF Reg.QMGR_HOST_LAST_SEEN 0 0 + 1000000000 * s.getF Reg.QMGR_HOST_LOSS_TIMEOUT 0 0 + s.fw.hostPaused

/-- The mailbox is served and empty, its response ring has room, and the host that writes is heard and in time: a request of `n` payload
bytes is taken as soon as it arrives at device time `t` (spec 11 R456, R457). -/
structure MbxTurn (s : State) (t n : Nat) : Prop where
  active : hostActive s = true
  inTime : HostInTime s t
  served : mailboxServed s = true
  none : s.mbx.waiting = []
  empty : s.mbx.reqTail = s.mbx.reqHead ∧ s.mbx.reqHead < 2 ^ 32
  room : rspFree s.mbx = true
  size : n ≤ 224

/-- The request passes the checks of spec 11 Table 11.9: VERSION in range, SEQ the expected one, the opcode accepted now. -/
structure MbxGood (s : State) (op : Nat) (a : MbxArgs) : Prop where
  turn : MbxTurn s a.time a.payload.length
  version : s.getF Reg.MBX_VER_MIN 0 0 ≤ a.version.toNat ∧ a.version.toNat ≤ s.getF Reg.MBX_VER_MAX 0 0
  seq : a.seq.toNat = s.getF Reg.MBX_EXPECTED_SEQ 0 0
  accepted : opcodeAccepted (fwState s) op = true ∧ lcState s ≠ 3

/-- The state in which a request that the host sends at device time `t` is taken up. -/
def mbxTaken (s : State) (t : Nat) : State :=
  let s := hostWrite s t
  { s with mbx := { s.mbx with reqTail := (s.mbx.reqTail + 1) % 2 ^ 32, waiting := [] } }

/-- The same, with the request's SEQ used up (spec 11 R459). -/
def mbxServing (s : State) (a : MbxArgs) : State :=
  (mbxTaken s a.time).setF Reg.MBX_EXPECTED_SEQ 0 0 (a.seq.toNat + 1)

/-- A request that used up its SEQ is answered: the response is kept and put into the ring, then what waits is served. -/
def mbxAnswered (op : Nat) (a : MbxArgs) (x : Answer) : State :=
  let b := requestBytes op a
  let y := responseOf b x.status x.data
  serveAll 64 (placeResponse (keepResponse x.s a.seq.toNat (field b 28 4) y) y x.status)

/-- A request that did not use up its SEQ is answered. -/
def mbxRefused (op : Nat) (a : MbxArgs) (x : Answer) : State :=
  serveAll 64 (placeResponse x.s (responseOf (requestBytes op a) x.status x.data) x.status)

end Sys2Proof.Machine
end

