-- ==== Sys2Proof/Certificates/Slice0/Obligations.lean ====
section
/-! DEFINITION. The statements about the device: what each command does, what it leaves as it was, and what every step keeps. -/

open Sys2Proof Sys2Proof.Machine

/-! Bundles of tiles. -/

/-- Spec 02 R54: the slots of a bundle are put together until its last slot arrives; a slot that is not the last one joins the
bundle of a running tile and does nothing else. -/
def Obligations.SlotJoinsItsBundle : Prop :=
  ∀ (s : State) (c : Issue),
    (s.tile c.tile).pstate = .running → (s.tile c.tile).halting = false → c.last = false →
    let joins (i : Instr) (o : SlotOp) : Prop := exec i s = .next (s.modTile c.tile (fun t =>
      { t with bundle := t.bundle.filter (fun x => x.slot != o.slot) ++ [o], hdr := t.hdr ||| c.hdr }))
    (∀ op f, joins (vecInstr c f op) (.vec op f)) ∧ (∀ op f, joins (arrInstr c f op) (.arr op f)) ∧
      (∀ f w, joins (.ld c f w) (.acc .ld f w)) ∧ (∀ f w, joins (.st c f w) (.acc .st f w)) ∧
      (∀ f, joins (.dgo c f) (.acc .dgo f 0)) ∧ (∀ f, joins (.dwait c f) (.acc .dwait f 0)) ∧
      (∀ f, joins (.fence c f) (.acc .fence f 0)) ∧
      (∀ op f, joins (msgInstr c f op) (.msg op f)) ∧ (∀ op f, joins (ctlInstr c f op) (.ctl op f))

/-- Spec 02 R69 to R71, R586, Table 2.25; 04 R170 to R180: each floating-point operation of the vector slot puts its lanes, with its
latency, in flight to V[VD]; a transcendental one holds its unit for 4 cycles; CVT from a stored format to FP32 and from FP32 to
one; the reductions RSUM, RMAX and RMIN, whose value every written lane receives. -/
def Obligations.VectorFloatResults : Prop :=
  (∀ (s : State) (c : Issue) (f : VecF),
     let t := s.tile c.tile
     let a : Fin 128 → Word := fun l => (t.vr f.va)[l]
     let b : Fin 128 → Word := fun l => srcB t f l
     let r : Fin 128 → Rnd := fun l => laneRnd t (s.srState c.tile) f l
     let runs (i : Instr) (op : VecOp) (latency : Nat) (val : Fin 128 → Word) : Prop :=
       Alone s c (.vec op f) → ∃ u, exec i s = .next u ∧ Issued s u c.tile [vecWrite t f latency (vecNum t f val) val]
     let runsTrans (i : Instr) (op : VecOp) (latency : Nat) (val : Fin 128 → Word) : Prop :=
       Alone s c (.vec op f) → ∃ u, exec i s = .next u ∧
         Issued (s.modTile c.tile (fun t => { t with transFree := t.cycle + 4 })) u c.tile
           [vecWrite t f latency (vecNum t f val) val]
     runs (.vAdd c f) .add 4 (fun l => toFp32 (r l) ((fp32 (a l)).add (fp32 (b l)))) ∧
       runs (.vSub c f) .sub 4 (fun l => toFp32 (r l) ((fp32 (a l)).add (fp32 (b l)).neg)) ∧
       runs (.vMul c f) .mul 4 (fun l => toFp32 (r l) ((fp32 (a l)).mul (fp32 (b l)))) ∧
       runs (.vFma c f) .fma 4
         (fun l => toFp32 (r l) (((fp32 (a l)).mul (fp32 (b l))).add (fp32 ((t.vr f.vc)[l])))) ∧
       runs (.vMin c f) .min 2 (fun l => fpMin (a l) (b l)) ∧
       runs (.vMax c f) .max 2 (fun l => fpMax (a l) (b l)) ∧
       runs (.vAbs c f) .abs 2 (fun l => if isNaN32 (a l) then fpNaN else a l &&& 0x7FFFFFFF#32) ∧
       runsTrans (.exp c f) .exp 16 (fun l => fpExp (r l) (a l)) ∧
       runsTrans (.log c f) .log 16 (fun l => fpLog (r l) (a l)) ∧
       runsTrans (.rcp c f) .rcp 14 (fun l => fpRcp (r l) (a l)) ∧
       runsTrans (.rsqrt c f) .rsqrt 14 (fun l => fpRsqrt (r l) (a l))) ∧
  (∀ (s : State) (c : Issue) (f : VecF),
     let t := s.tile c.tile
     let a : Fin 128 → Word := fun l => (t.vr f.va)[l]
     let r : Fin 128 → Rnd := fun l => laneRnd t (s.srState c.tile) f l
     let widened : Fin 128 → Word := fun l => cvtWiden (r l) (cvtSrc f) (packedElem (t.vr f.va) (fmtBits (cvtSrc f)) (cvtPart f) l)
     let reduced (v : Word) : List Pend := [vecWrite t f 8 (vecNum t f (fun _ => v)) (fun _ => v)]
     let picked (v : Word) : List Pend := [vecWrite t f 8 0#4 (fun _ => v)]
     (Alone s c (.vec .cvt f) → cvtSrc f ≠ 2 → ∃ u, exec (.cvt c f) s = .next u ∧
       Issued s u c.tile [vecWrite t f 3 (if cvtSrc f = 13 then 0#4 else vecNum t f widened) widened]) ∧
     (Alone s c (.vec .cvt f) → cvtSrc f = 2 → ∃ u p, exec (.cvt c f) s = .next u ∧ Issued s u c.tile [p] ∧ p.left = 3 ∧
       p.dst = .v f.vd
         (packLanes (fmtBits (cvtDst f)) (cvtPart f) (fun l => if h : l < 128 then
           (if guardLane t f.guard ⟨l, h⟩ then 2 ^ fmtBits (cvtDst f) - 1 else 0) else 0))
         (packLanes (fmtBits (cvtDst f)) (cvtPart f) (fun l => if h : l < 128 then
           (cvtNarrow (r ⟨l, h⟩) (cvtDst f) (a ⟨l, h⟩)).1 else 0))) ∧
     (Alone s c (.vec .rsum f) → ∃ u, exec (.rsum c f) s = .next u ∧
       Issued s u c.tile (reduced ((treeSum (if f.rnd = 1#2 then .rtz else .rne) 7 (t.vr f.va).toList).headD 0#32))) ∧
     (Alone s c (.vec .rmax f) → ∃ u, exec (.rmax c f) s = .next u ∧
       Issued s u c.tile (picked ((t.vr f.va).toList.tail.foldl fpMax ((t.vr f.va).toList.headD 0#32)))) ∧
     (Alone s c (.vec .rmin f) → ∃ u, exec (.rmin c f) s = .next u ∧
       Issued s u c.tile (picked ((t.vr f.va).toList.tail.foldl fpMin ((t.vr f.va).toList.headD 0#32)))))

/-- Spec 02 R59, Table 2.25: the integer, logical and shift operations of the vector slot, lane by lane, and those that move lanes. SEL
writes every lane. -/
def Obligations.VectorIntegerAndMoveResults : Prop :=
  (∀ (s : State) (c : Issue) (f : VecF),
     let t := s.tile c.tile
     let a : Fin 128 → Word := fun l => (t.vr f.va)[l]
     let b : Fin 128 → Word := fun l => if f.vbs then (t.sr f.ss).extractLsb' 0 32 else (t.vr f.vb)[l]
     let n : Nat := (f.imm.extractLsb' 0 5).toNat
     let runs (i : Instr) (op : VecOp) (val : Fin 128 → Word) : Prop :=
       Alone s c (.vec op f) → ∃ u, exec i s = .next u ∧ Issued s u c.tile [vecWrite t f 2 0#4 val]
     runs (.iadd c f) .iadd (fun l => a l + b l) ∧ runs (.isub c f) .isub (fun l => a l - b l) ∧
       runs (.vAnd c f) .and (fun l => a l &&& b l) ∧ runs (.vOr c f) .or (fun l => a l ||| b l) ∧
       runs (.vXor c f) .xor (fun l => a l ^^^ b l) ∧ runs (.vShl c f) .shl (fun l => a l <<< n) ∧
       runs (.vShr c f) .shr (fun l => a l >>> n) ∧ runs (.vSra c f) .sra (fun l => (a l).sshiftRight n)) ∧
  (∀ (s : State) (c : Issue) (f : VecF),
     let t := s.tile c.tile
     let a : Fin 128 → Word := fun l => (t.vr f.va)[l]
     let runs (i : Instr) (op : VecOp) (p : Pend) : Prop :=
       Alone s c (.vec op f) → ∃ u, exec i s = .next u ∧ Issued s u c.tile [p]
     let lane (n : BitVec 7) : Fin 128 := n.toFin
     runs (.perm c f) .perm (vecWrite t f 3 0#4 (fun l =>
         a (lane ((BitVec.ofNat 7 l &&& f.imm.extractLsb' 0 7) ^^^ f.imm.extractLsb' 7 7)))) ∧
       runs (.rot c f) .rot (vecWrite t f 3 0#4 (fun l => a (lane (BitVec.ofNat 7 l + f.imm.extractLsb' 0 7)))) ∧
       runs (.mov c f) .mov (vecWrite t f 2 0#4 a) ∧
       runs (.bcast c f) .bcast (vecWrite t f 2 0#4 (fun _ => (t.sr f.ss).extractLsb' 0 32)) ∧
       runs (.iota c f) .iota (vecWrite t f 2 0#4 (fun l => BitVec.ofNat 32 l)) ∧
       runs (.sel c f) .sel
         { left := 2, num := 0#4,
           dst := .v f.vd (Vector.ofFn (fun _ => BitVec.allOnes 32))
             (Vector.ofFn (fun l => if guardLane t f.guard l then a l else (t.vr f.vc)[l])) })

/-- Spec 02 R59, Table 2.25: the comparisons of the vector slot write P[PD]; a NaN operand makes every floating-point relation
but NE and UNORD false. -/
def Obligations.VectorComparisonResults : Prop :=
  ∀ (s : State) (c : Issue) (f : VecF),
    let t := s.tile c.tile
    let a : Fin 128 → Word := fun l => (t.vr f.va)[l]
    let b : Fin 128 → Word := fun l => if f.vbs then (t.sr f.ss).extractLsb' 0 32 else (t.vr f.vb)[l]
    let nan : Fin 128 → Prop := fun l => isNaN32 (a l) = true ∨ isNaN32 (b l) = true
    let cmp : Fin 128 → Int := fun l => (fp32 (a l)).cmp (fp32 (b l))
    let tests (i : Instr) (op : VecOp) (holds : Fin 128 → Prop) : Prop :=
      Alone s c (.vec op f) → ∃ u w, exec i s = .next u ∧ Issued s u c.tile [vecTest t f w] ∧ ∀ l, w l = true ↔ holds l
    tests (.vEq c f) .eq (fun l => ¬ nan l ∧ cmp l = 0) ∧ tests (.vNe c f) .ne (fun l => nan l ∨ cmp l ≠ 0) ∧
      tests (.vLt c f) .lt (fun l => ¬ nan l ∧ cmp l < 0) ∧ tests (.vLe c f) .le (fun l => ¬ nan l ∧ cmp l ≤ 0) ∧
      tests (.vGt c f) .gt (fun l => ¬ nan l ∧ cmp l > 0) ∧ tests (.vGe c f) .ge (fun l => ¬ nan l ∧ cmp l ≥ 0) ∧
      tests (.unord c f) .unord nan ∧
      tests (.ieq c f) .ieq (fun l => a l = b l) ∧ tests (.ine c f) .ine (fun l => a l ≠ b l) ∧
      tests (.ilt c f) .ilt (fun l => (a l).toInt < (b l).toInt) ∧ tests (.ile c f) .ile (fun l => (a l).toInt ≤ (b l).toInt) ∧
      tests (.iltu c f) .iltu (fun l => (a l).toNat < (b l).toNat) ∧ tests (.ileu c f) .ileu (fun l => (a l).toNat ≤ (b l).toNat)

/-- Spec 02 R64, R86, R587, Tables 2.9, 2.26; 06 R250: the scalar results of the control slot; TIME reads the tile's copy of device
time at its program cycle; each PSET sets every lane of P[PD] to its relation of S[SA] and S[SB]. -/
def Obligations.ControlResults : Prop :=
  (∀ (s : State) (c : Issue) (f : CtlF),
     let t := s.tile c.tile
     let a := t.sr f.sa
     let b := t.sr f.sb
     let n : Nat := (b.extractLsb' 0 6).toNat
     let runs (i : Instr) (op : CtlOp) (latency : Nat) (v : Word64) : Prop :=
       Alone s c (.ctl op f) → ∃ u, exec i s = .next u ∧ Issued s u c.tile [scalarWrite f latency v]
     runs (.saluAdd c f) .add 1 (a + b) ∧ runs (.saluSub c f) .sub 1 (a - b) ∧ runs (.saluAnd c f) .and 1 (a &&& b) ∧
       runs (.saluOr c f) .or 1 (a ||| b) ∧ runs (.saluXor c f) .xor 1 (a ^^^ b) ∧ runs (.saluShl c f) .shl 1 (a <<< n) ∧
       runs (.saluShr c f) .shr 1 (a >>> n) ∧ runs (.saluSra c f) .sra 1 (a.sshiftRight n) ∧
       runs (.addi c f) .addi 1 (a + f.imm.signExtend 64) ∧ runs (.smul c f) .smul 3 (a * b) ∧
       runs (.li c f) .li 1 (f.imm.signExtend 64) ∧ runs (.time c f) .time 2 (BitVec.ofNat 64 (s.tileTime c.tile t.cycle)) ∧
       runs (.mstat c f) .mstat 2 (BitVec.ofNat 64 (s.getF Reg.TILE_MV_DONE c.tile 0)) ∧
       runs (.gstatq c f) .gstatq 2 (BitVec.ofNat 64 (s.getF Reg.TILE_GATHER_DONE c.tile 0))) ∧
  (∀ (s : State) (c : Issue) (f : CtlF),
     let a := (s.tile c.tile).sr f.sa
     let b := (s.tile c.tile).sr f.sb
     let sets (i : Instr) (op : CtlOp) (holds : Prop) : Prop :=
       Alone s c (.ctl op f) → ∃ u w, exec i s = .next u ∧ Issued s u c.tile [predWrite f w] ∧ (w = true ↔ holds)
     sets (.psetEq c f) .psetEq (a = b) ∧ sets (.psetNe c f) .psetNe (a ≠ b) ∧
       sets (.psetLt c f) .psetLt (a.toInt < b.toInt) ∧ sets (.psetLe c f) .psetLe (a.toInt ≤ b.toInt) ∧
       sets (.psetGt c f) .psetGt (a.toInt > b.toInt) ∧ sets (.psetGe c f) .psetGe (a.toInt ≥ b.toInt) ∧
       sets (.psetLtu c f) .psetLtu (a.toNat < b.toNat) ∧ sets (.psetGeu c f) .psetGeu (a.toNat ≥ b.toNat))

/-- Spec 02 R65 to R67, R93, R587; 06 R251, R254: the flow of BR, LOOP, WAIT and HALT, and the
descriptor that ISSUE enters; the lines it will write are undefined from here on. -/
def Obligations.ControlFlowCommands : Prop :=
  ∀ (s : State) (c : Issue) (f : CtlF),
    let i := c.tile
    let n : Nat := ((s.tile i).sr f.sa).toNat
    let x : Nat := (f.imm.extractLsb' 0 13).toNat
    (Alone s c (.ctl .br f) → ∃ u, exec (.br c f) s = .next u ∧
      Issued s u i [] (fun t => { t with branch := some (x, 2), brShadow := 2 })) ∧
    (Alone s c (.ctl .loop f) → n ≠ 0 → ∃ u, exec (.loop c f) s = .next u ∧
      Issued s u i [] (fun t => { t with loops := [{ start := t.pc, last := x, left := n }] })) ∧
    (Alone s c (.ctl .loop f) → n = 0 → x + 1 < s.getF Reg.TILE_PROG_LEN i 0 → ∃ u, exec (.loop c f) s = .next u ∧
      Issued s u i [] (fun t => { t with pc := x + 1 })) ∧
    (Alone s c (.ctl .wait f) → n ≠ 0 → ∃ u, exec (.wait c f) s = .next u ∧
      Issued s u i [] (fun t =>
        { t with pstate := .stalled, stall := some { cause := 7, ops := [], need := n, run := 0, also := 0 } })) ∧
    (Alone s c (.ctl .wait f) → n = 0 → ∃ u, exec (.wait c f) s = .next u ∧ Issued s u i []) ∧
    (Alone s c (.ctl .halt f) → (∀ g ∈ (s.tile i).gather, g.direct = true ∨ g.mm.isSome = true) →
      ∃ u, exec (.halt c f) s = .next u ∧ Issued s u i [] (fun t => { t with halting := true })) ∧
    (Alone s c (.ctl .issue f) →
      let d : MvDesc := { id := (s.tile i).nextId, addr := n, words := mvWords (Memory.readN (s.tile i).pantry.mem n 128),
                          problems := [], running := false, touched := [] }
      let s1 := s.modTile i (fun t => { t with
        nextId := t.nextId + 1
        marver := t.marver ++ [{ d with words := [] }]
        arrays := { t.arrays with queue := t.arrays.queue ++ [.marver t.nextId], lastA := none, lastB := none,
                                  fmtA := Vector.replicate 2 none, fmtB := Vector.replicate 2 none } })
      ∃ u, exec (.issue c f) s = .next u ∧ Issued (if d.check = none then markMarver s1 i d else s1) u i [])

/-- Spec 02 R63, R73 to R83, Tables 2.9 to 2.12: SEND and SENDR take credits and hand the message to the network, RECV and RECVT take the
message that the door holds for them, and DPOLL tests a door. -/
def Obligations.MessageCommands : Prop :=
  ∀ (s : State) (c : Issue) (f : MsgF),
    let i := c.tile
    let t := s.tile i
    let n : Nat := f.nm1.toNat + 1
    let sends (ins : Instr) (op : MsgOp) (d : SendDest) : Prop :=
      let msg : DoorMsg := { srcTile := s.logical i, remote := d.remote, srcMember := if d.remote then s.member else 0,
                             seq := nextSeq t d, tag := (t.sr f.sx).extractLsb' 0 16,
                             regs := (List.range n).map (fun j => t.vr (f.vr + BitVec.ofNat 6 j)) }
      let out : NetMsg := { remote := d.remote, member := d.member, src := s.logical i, dst := d.tile, door := d.door, msg := msg }
      Alone s c (.msg op f) → ∃ k u, creditSlot s i d = some k ∧ n ≤ s.getF Reg.TILE_CS_CREDITS i k ∧ exec ins s = .next u ∧
        Issued { (s.setF Reg.TILE_CS_CREDITS i k (s.getF Reg.TILE_CS_CREDITS i k - n)).modTile i (·.bumpSeq d) with
                 net := s.net ++ [out] } u i []
    let takes (ins : Instr) (op : MsgOp) (m : HeldMsg) (hdr : BitVec 5) : Prop :=
      let back : NetCredit := { remote := m.msg.remote, member := m.msg.srcMember, dst := m.msg.srcTile, tile := s.logical i,
                                door := f.door.toNat, n := m.msg.regs.length }
      let s1 : State := { s.modTile i (·.dropMsg f.door m) with credits := s.credits ++ [back] }
      m.msg.regs.length = n → ∃ u, exec ins s = .next u ∧
        Issued (if doorP2P s i f.door then s1.wrapF Reg.TILE_DOOR_EXPECTED_SEQ i f.door.toNat 1 else s1) u i
          (payloadPends f.vr 0 m.msg.regs ++ [{ left := 4, num := 0#4, dst := .s hdr (headerWord m.msg) }])
    sends (.send c f) .send { remote := false, member := 0, tile := f.dest.toNat, door := f.door.toNat } ∧
    sends (.sendr c f) .sendr { remote := true, member := bits (t.sr f.sx).toNat 27 16, tile := bits (t.sr f.sx).toNat 34 28,
                                door := f.door.toNat } ∧
    (∀ m, Alone s c (.msg .recv f) → doorTake s i f.door = some m → takes (.recv c f) .recv m f.sx) ∧
    (∀ m, Alone s c (.msg .recvt f) → doorTake s i f.door = some m → m.time ≤ (t.sr f.sx).toNat →
      takes (.recvt c f) .recvt m (f.sx + 1#5)) ∧
    (Alone s c (.msg .dpoll f) → ∃ u, exec (.dpoll c f) s = .next u ∧
      Issued s u i [⟨1, .p f.pd (BitVec.allOnes 128) (if (t.doors[f.door.toFin]).isEmpty then 0#128 else BitVec.allOnes 128), 0#4⟩])

/-- Spec 02 R62, R93; 03 R116, R125, R128 to R132: LD puts 512 bytes in flight, ST puts them on their way, DGO binds the
descriptor it reads to its handle, DWAIT ends the undefinedness of the lines of a finished handle, FENCE passes. -/
def Obligations.AccessCommands : Prop :=
  ∀ (s : State) (c : Issue) (f : AccF),
    let i := c.tile
    let t := s.tile i
    let addr : Nat := (t.sr f.base).toNat + 64 * f.line.toNat
    let h := accHandle f
    let ok (write : Bool) (n : Nat) (hd : Nat) : Prop :=
      pantryCheck s i { master := mAccess, handle := hd, write := write, addr := addr, len := n } = none
    (Alone s c (.acc .ld f 0) → ok false 512 15 → t.clean addr 512 → ∃ u, exec (.ld c f 0) s = .next u ∧
      Issued s u i [⟨9, .v f.vr (Vector.replicate 128 (BitVec.allOnes 32))
        (bytesVreg (rotLoad f.rot.toNat (Memory.readN t.pantry.mem addr 512))), 0#4⟩]) ∧
    (Alone s c (.acc .st f 0) → ok true 512 15 → ∃ u, exec (.st c f 0) s = .next u ∧
      Issued (s.modTile i (fun t => { t with
        stores := t.stores ++ [
          { addr := addr, data := rotStore f.rot.toNat (vregBytes (t.vr f.vr)), visible := t.cycle + 6 }] })) u i []) ∧
    (∀ d : AccDesc, Alone s c (.acc .dgo f 0) → t.descs[h] = none → ok false 64 h → t.clean addr 64 →
      d = { addr := addr, words := lineWords (Memory.readN t.pantry.mem addr 64) 8, dgoCycle := t.cycle, rowsDone := 0,
            finished := 0, seqNo := t.nextId } →
      checkDesc s i h d = none →
      let s1 := s.modTile i (fun t => { t with nextId := t.nextId + 1 })
      ∃ u, exec (.dgo c f) s = .next u ∧
        Issued ((markDesc s1 i h d).modTile i (fun t => { t with descs := t.descs.set h (some d) })) u i []) ∧
    (Alone s c (.acc .dwait f 0) → ∃ u, exec (.dwait c f) s = .next u ∧ Issued (endHazards s i h) u i []) ∧
    (Alone s c (.acc .fence f 0) → ∃ u, exec (.fence c f) s = .next u ∧ Issued s u i [])

/-- Spec 05 R191 to R209, R231; 06 R242 to R244: what each array command does as it issues: MODE sets the array mode, clears
the arrays and stalls for 300 cycles; the others enter the queues of the arrays, or of the gather engine, and DRAIN waits. A GSTAT at the head of its
queue is taken up at once: only a TAP that continues stored values loads them. -/
def Obligations.ArrayCommands : Prop :=
  ∀ (s : State) (c : Issue) (f : ArrF),
    let i := c.tile
    let a := (s.tile i).arrays
    let stalls (n : Nat) : Tile → Tile := fun t =>
      { t with pstate := .stalled, stall := some { cause := 6, ops := [], need := n, run := 0, also := 0 } }
    let enter (s : State) (op : ArrOp) (slotA slotB : Nat) : State := s.modTile i (fun t => { t with
      nextId := t.nextId + 1
      arrays := { t.arrays with queue := t.arrays.queue ++ [.cmd {
                                  id := t.nextId, op := op, f := f, slotA := slotA, slotB := slotB, cfgA := cfgOf s i false, cfgB := cfgOf s i true }] } })
    let other : Option Nat → Nat := fun k => if k = some 0 then 1 else 0
    (Alone s c (.arr .mode f) → ∃ u, exec (.mode c f) s = .next u ∧
      Issued (((s.resetFlds [Reg.TILE_A_SLOT, Reg.TILE_B_SLOT] i).setF Reg.TILE_ARRAY_MODE i 0 f.pass.toNat).modArrays i Arrays.clear)
        u i [] (stalls 300)) ∧
    (Alone s c (.arr .wload f) → ∃ u, exec (.wload c f) s = .next u ∧
      Issued ((enter s .wload (other a.lastA) (other a.lastB)).modArrays i (fun a => { a with
        lastA := if f.sel[0] then some (other a.lastA) else a.lastA
        lastB := if f.sel[1] then some (other a.lastB) else a.lastB
        fmtA := if f.sel[0] then a.fmtA.setIfInBounds (other a.lastA) (some f.fmtW.toNat) else a.fmtA
        fmtB := if f.sel[1] then a.fmtB.setIfInBounds (other a.lastB) (some f.fmtW.toNat) else a.fmtB })) u i []) ∧
    (Alone s c (.arr .mm f) → ∃ u, exec (.mm c f) s = .next u ∧
      Issued ((enter s .mm (a.lastA.getD 0) (a.lastB.getD 0)).modTile i (fun t => { t with
        gather := t.gather.map (fun g =>
          if g.direct = false ∧ g.mm = none then
            match mmFeedFmt (s.flag Reg.TILE_ARRAY_MODE i 0) f g.feed with
            | some x => { g with mm := some (s.tile i).nextId, fmtX := x }
            | none => g
          else g) })) u i []) ∧
    (Alone s c (.arr .drain f) → ∃ u, exec (.drain c f) s = .next u ∧ Issued (enter s .drain 0 0) u i [] (stalls 0)) ∧
    (Alone s c (.arr .bindFeed f) → ∃ u, exec (.bindFeed c f) s = .next u ∧ Issued (enter s .bindFeed 0 0) u i []) ∧
    (Alone s c (.arr .bindDrain f) → ∃ u, exec (.bindDrain c f) s = .next u ∧ Issued (enter s .bindDrain 0 0) u i []) ∧
    (Alone s c (.arr .resetWalk f) → ∃ u, exec (.resetWalk c f) s = .next u ∧ Issued (enter s .resetWalk 0 0) u i []) ∧
    (∀ v : Nat, v = (f.kgrp.extractLsb' 0 6).toNat →
      let s1 := if f.sel[0] then s.setF Reg.TILE_DRAIN_CFG_A i 0 v else s
      let s2 := if f.sel[1] then s1.setF Reg.TILE_DRAIN_CFG_B i 0 v else s1
      Alone s c (.arr .drainCfg f) → ∃ u, exec (.drainCfg c f) s = .next u ∧ Issued (enter s2 .drainCfg 0 0) u i []) ∧
    (∀ g : Nat, g = f.kgrp.toNat % 16 →
      let k := s.getF Reg.TILE_GE_SIDE_M1 i g + 1
      let e : GStat :=
        { id := (s.tile i).nextId, direct := f.pass == 1#4, fmtX := f.fmtX.toNat, feed := f.feed.toNat, cont := f.acc == 1#2 && !(s.tile i).statFresh.contains g,
          sideM1 := k - 1, strideLog2 := s.getF Reg.TILE_GE_STRIDE_LOG2 i g, offset := s.getF Reg.TILE_GE_OFFSET i g,
          srcWalk := s.getF Reg.TILE_GE_SRC_WALK i g, rowsM1 := s.getF Reg.TILE_GE_ROWS_M1 i g,
          dst := 64 * s.getF Reg.TILE_GE_DST_LINE i g, mm := none, rows := none, loaded := none, attached := false,
          lines := [], num := 0#4 }
      let s1 := s.modTile i (fun t => { t with
        gather := t.gather ++ [e], nextId := t.nextId + 1, statFresh := t.statFresh.filter (· != g) })
      Alone s c (.arr .gstat f) → ∃ u, exec (.gstat c f) s = .next (gatherHead u i) ∧
        Issued (s1.addHazard i
          { first := 64 * s.getF Reg.TILE_GE_DST_LINE i g, count := 16384 * (k * (k + 1) / 2), by_ := .gstat (s.tile i).nextId }) u i [] ∧
        (e.cont = false ∨ e.direct = true → (s.tile i).gather = [] → gatherHead u i = u))

/-! Events of tiles. -/

/-- Spec 02 R67, R93, R95, Table 2.14; 05 R224, R231: the end of a WAIT, of a MODE and of a DRAIN, a stall that exceeds
STALL_LIMIT, and the halt of a program whose engines have drained. -/
def Obligations.StallsAndProgramsEnd : Prop :=
  ∀ (s : State) (i : TileId) (st : Stall) (c : Nat),
    let t := s.tile i
    let lim := s.getF Reg.TILE_STALL_LIMIT i 0
    let counted (u : State) (n : Nat) : Prop :=
      u.getF Reg.TILE_STALL_CYCLES i st.cause = min (s.getF Reg.TILE_STALL_CYCLES i st.cause + n) (2 ^ Reg.TILE_STALL_CYCLES.width - 1)
    let kept (u : State) : Prop :=
      (u.tile i).v = t.v ∧ (u.tile i).sreg = t.sreg ∧ (u.tile i).p = t.p ∧ (u.tile i).pc = t.pc ∧
        (∀ j, j ≠ i → u.tile j = s.tile j) ∧ u.dram = s.dram ∧ u.net = s.net
    let ends (ins : Instr) (cause : Nat) : Prop :=
      t.pstate = .stalled → t.stall = some st → st.ops = [] → st.cause = cause → st.also = 0 → st.run < st.need →
      (lim = 0 ∨ st.need ≤ lim) →
      ∃ u, exec ins s = .next u ∧ (u.tile i).pstate = .running ∧ (u.tile i).stall = none ∧
        (u.tile i).cycle = t.cycle + (st.need - st.run) ∧ counted u (st.need - st.run) ∧ kept u
    ends (.waitExpiry i) 7 ∧ ends (.modeComplete i) 6 ∧
    (∀ e, t.pstate = .stalled → t.stall = some st → st.ops = [] → st.cause = 6 → st.need = 0 → st.also = 0 →
      t.arrays.queue.find? (fun e => match e with
        | .cmd c => c.op == .drain
        | .marver _ => false) = some e →
      t.arrays.drainedBefore e.id e.sel = true → t.cycle ≤ c → lim = 0 →
      ∃ u, exec (.drainComplete i c) s = .next u ∧ (u.tile i).pstate = .running ∧ (u.tile i).stall = none ∧
        (u.tile i).arrays.queue = t.arrays.queue.filter (fun x => x.id != e.id) ∧ (u.tile i).cycle = c ∧
        counted u (c - t.cycle) ∧ kept u) ∧
    (t.pstate = .stalled → t.stall = some st → lim ≠ 0 → st.run ≤ lim → bit (s.getF (Hdr.INT_STATUS 1 0) i 0) 0 = false →
      ∃ u, exec (.stallLimit i) s = .next u ∧ (u.tile i).pstate = .faulted ∧ (u.tile i).stall = none ∧
        u.getF (Hdr.ERR_CODE 1 0) i 0 = 0x010C ∧ u.getF (Hdr.ERR_INFO0 1 0) i 0 = t.pc % 2 ^ 32 ∧
        u.getF (Hdr.ERR_INFO1 1 0) i 0 = st.cause % 2 ^ 32 ∧ counted u (lim + 1 - st.run)) ∧
    (t.halting = true → t.pstate = .running → t.arrays.empty = true → t.gather = [] → t.marver = [] →
      t.descs.toList.all (·.isNone) = true →
      ∃ u, exec (.programHalted i c) s = .next u ∧ (u.tile i).pstate = .halted ∧ (u.tile i).halting = false ∧
        (u.tile i).inflight = [] ∧ (u.tile i).stores = [] ∧ (u.tile i).v = t.landAll.v ∧ (u.tile i).sreg = t.landAll.sreg ∧
        (u.tile i).p = t.landAll.p ∧ bit (u.getF (Hdr.INT_STATUS 1 0) i 0) 1 = true)

/-- Spec 02 R62, R71, R83, R87, Table 2.14: bundles that waited issue when the last store before a FENCE is visible, when the
transcendental unit is free, and when a RECVT without its message expires: after comparator 0, where that one is to act. -/
def Obligations.WaitingBundlesIssue : Prop :=
  ∀ (s : State) (i : TileId) (st : Stall) (time : Nat),
    let t := s.tile i
    let waits (cause : Nat) (o : SlotOp) : Prop :=
      t.pstate = .stalled ∧ t.stall = some st ∧ st.cause = cause ∧ st.ops = [o] ∧ o.acts t = true ∧ parityHit t [o] = none ∧
        t.halting = false ∧ t.loops = [] ∧ t.branch = none ∧ t.brShadow = 0 ∧ s.getF Reg.TILE_STALL_LIMIT i 0 = 0 ∧
        t.pc + 1 < s.getF Reg.TILE_PROG_LEN i 0
    let on (u : State) (n : Nat) : Prop :=
      (u.tile i).pc = t.pc + 1 ∧ (u.tile i).pstate = .running ∧ (u.tile i).stall = none ∧ (u.tile i).cycle = n + 1 ∧
        u.getF Reg.TILE_ISSUED_BUNDLES i 0 =
          min (s.getF Reg.TILE_ISSUED_BUNDLES i 0 + 1) (2 ^ Reg.TILE_ISSUED_BUNDLES.width - 1)
    (∀ f w, waits 3 (.acc .fence f w) →
      ∃ u, exec (.fenceComplete i) s = .next u ∧ (u.tile i).stores = [] ∧
        on u (t.stores.foldl (fun n p => max n p.visible) t.cycle)) ∧
    (∀ op f, op.isTrans = true → waits 5 (.vec op f) → t.cycle ≤ t.transFree → t.stores = [] →
      ∃ u, exec (.transcendentalUnitFree i) s = .next u ∧ (u.tile i).transFree = t.transFree + 4 ∧ on u t.transFree) ∧
    (∀ f c c', waits 0 (.msg .recvt f) → f.sx[0] = false → doorP2P s i f.door = true → doorTake s i f.door = none →
      (t.sr f.sx).toNat < time → t.cycle ≤ c → t.stores = [] → comparator0Due t time = false →
      c' = (if t.comp0 = some c then c + 1 else c) →
      ∃ u, exec (.recvtExpiry i time c) s = .next u ∧ on u c' ∧ u.now = max (max s.now time) (s.tileTime i (c' + 1)) ∧
        u.getF Reg.TILE_DOOR_EXPECTED_SEQ i f.door.toNat =
          (s.getF Reg.TILE_DOOR_EXPECTED_SEQ i f.door.toNat + 1) % 2 ^ Reg.TILE_DOOR_EXPECTED_SEQ.width)

/-- Spec 02 R77, R79, R81: a message that its door admits is held with the device time of its arrival, and credits add to the
slot of their door. The tile runs, so that no stalled bundle issues with it. -/
def Obligations.DoorsHoldMessages : Prop :=
  ∀ (s : State) (i : TileId) (d : BitVec 4) (time c : Nat),
    let t := s.tile i
    let mode := s.getF Reg.TILE_DOOR_MODE i d.toNat
    let room (m : DoorMsg) : Prop := t.doors[d.toFin].length < 8 ∧ occupancy t.doors[d.toFin] + m.regs.length ≤ 8
    let held (u : State) (m : DoorMsg) : Prop :=
      (u.tile i).doors = t.doors.set d.toFin (t.doors[d.toFin] ++ [{ msg := m, time := time }]) ∧ (u.tile i).v = t.v ∧
        (u.tile i).sreg = t.sreg ∧ u.regs = s.regs ∧ u.now = max (max s.now (s.tileTime i c)) time ∧ ∀ j, j ≠ i → u.tile j = s.tile j
    (∀ (l : Fin 112) (m : NetMsg), t.pstate = .running → s.tileActive i = true →
      s.net.find? (fun m => !m.remote && m.src == l.val && m.dst == s.logical i && m.door == d.toNat) = some m →
      m.msg.remote = false → (mode = 2 ∨ mode = 1 ∧ m.msg.srcTile = s.getF Reg.TILE_DOOR_SENDER_TILE i d.toNat) →
      t.skipped[d.toFin] = [] → room m.msg →
      ∃ u, exec (.messageArrival i d (.local l) time c) s = .next u ∧ held u m.msg ∧ u.net = s.net.erase m) ∧
    (∀ m : DoorMsg, t.pstate = .running → s.tileActive i = true → m.remote = true → mode = 3 →
      m.srcTile = s.getF Reg.TILE_DOOR_SENDER_TILE i d.toNat → m.srcMember = s.getF Reg.TILE_DOOR_SENDER_MEMBER i d.toNat →
      t.skipped[d.toFin] = [] → room m →
      ∃ u, exec (.messageArrival i d (.remote m) time c) s = .next u ∧ held u m ∧ u.net = s.net) ∧
    (∀ (l : Fin 112) (e : Fin 16) (r : NetCredit) (k : Nat), t.pstate = .running → s.tileActive i = true →
      s.credits.find? (fun r => !r.remote && r.dst == s.logical i && r.tile == l.val && r.door == e.val) = some r →
      creditSlot s i { remote := false, member := 0, tile := r.tile, door := r.door } = some k →
      s.getF Reg.TILE_CS_CREDITS i k + r.n ≤ 8 →
      ∃ u, exec (.creditReturn i (.local l e) c) s = .next u ∧ u.credits = s.credits.erase r ∧
        u.getF Reg.TILE_CS_CREDITS i k = s.getF Reg.TILE_CS_CREDITS i k + r.n) ∧
    (∀ m l e n k : Nat, t.pstate = .running → s.tileActive i = true →
      creditSlot s i { remote := true, member := m, tile := l, door := e } = some k →
      s.getF Reg.TILE_CS_CREDITS i k + n ≤ 8 →
      ∃ u, exec (.creditReturn i (.remote m l e n) c) s = .next u ∧ u.credits = s.credits ∧
        u.getF Reg.TILE_CS_CREDITS i k = s.getF Reg.TILE_CS_CREDITS i k + n)

/-- Spec 05 R194, R207 to R209, R222 to R225: an array command leaves its queue as it starts (BIND and RESET_WALK act then, WLOAD
and MM take their rows); one that an earlier command's streams or its drain reservation hold back waits. A drained MM leaves the jobs,
its lines enter staging and it is counted. A line that staging holds becomes undefined for every reader when another master writes it before
the pantry has taken it. -/
def Obligations.ArrayCommandsStartAndDrain : Prop :=
  (∀ (s : State) (i : TileId) (b : Bool) (c wait : Nat),
    let t := s.tile i
    let s1 := (s.atTime (s.tileTime i c)).landStores i c
    let s2 := if wait = 0 then s1 else s1.countF Reg.PANTRY_CONFLICT_CYCLES i 0 wait
    let popped (id : Nat) : State := s2.modArrays i (fun a => { a with queue := a.queue.filter (fun e => e.id != id) })
    let ready (k : ArrCmd) : Prop := t.pstate = .running ∧ t.arrays.front b = some (.cmd k) ∧ arrayReady s1 i k = true
    (∀ k : ArrCmd, ready k → k.op = .bindFeed →
      exec (.arrayCommandStart i b ⟨c, wait⟩) s =
        .next ((popped k.id).setF Reg.TILE_FEED_BIND i k.f.feed.toNat (k.f.kgrp.toNat % 16))) ∧
    (∀ k : ArrCmd, ready k → k.op = .bindDrain →
      exec (.arrayCommandStart i b ⟨c, wait⟩) s =
        .next ((popped k.id).setF Reg.TILE_DRAIN_BIND i k.f.drainSt.toNat (k.f.kgrp.toNat % 16))) ∧
    (∀ k : ArrCmd, ready k → k.op = .resetWalk → k.f.kgrp.toNat % 16 ≠ 15 →
      exec (.arrayCommandStart i b ⟨c, wait⟩) s = .next ((popped k.id).setF Reg.TILE_WALK_POS i (k.f.kgrp.toNat % 16) 0)) ∧
    (∀ k : ArrCmd, ready k → k.op = .wload →
      k.f.sel = 1#2 → k.slotA < 2 → s.getF Reg.TILE_FEED_BIND i k.f.feed.toNat = 15 →
      exec (.arrayCommandStart i b ⟨c, wait⟩) s =
        .next (((popped k.id).setF Reg.TILE_A_SLOT i 0 k.slotA).modArrays i (fun a => { a with
          a := { a.a with slots := a.a.slots.setIfInBounds k.slotA ⟨some k.f.fmtW.toNat,
                            List.replicate (32 * (k.f.kgrp.toNat + 1)) (zeroRow k.f.fmtW.toNat)⟩ } }))) ∧
    (∀ (k : ArrCmd) (r : State), ready k → k.op = .mm →
      startMm (popped k.id) i k = (r, none) → exec (.arrayCommandStart i b ⟨c, wait⟩) s = .next (retryStall r i 4)) ∧
    (∀ k : ArrCmd, t.pstate = .running → t.arrays.front b = some (.cmd k) →
      (t.arrays.streamTaken (s.flag Reg.TILE_ARRAY_MODE i 0) k = true ∨ k.op = .mm ∧ mmReserved s1 i k = false) →
      exec (.arrayCommandStart i b ⟨c, wait⟩) s = .next s) ∧
    (∀ (j : DrainJob) (holds press : Vector Nat 8) (r : State), t.pstate = .running →
      t.arrays.jobs.find? (fun j => if b then j.sel[1] else j.sel[0]) = some j → drainReady (s1.tile i).arrays s1.now j = true →
      let costs := drainCosts holds press
      let met := costs.foldl (fun s x =>
        countWaits (s.countF Reg.TILE_DRAIN_BACKPRESSURE_CYCLES i x.stream.val x.press) i mAccess x.wait) s1
      stageJob i (fun st => (costs.filter (fun x => x.stream.val == st)).foldl (fun n x => n + x.wait) 0) met j = (r, none) →
      exec (.mmDrained i b holds press c) s = .next (retryStall
        (((r.modArrays i (fun a => { a with jobs := a.jobs.filter (fun x => x.id != j.id) })).setNum i j.num).countF
          Reg.TILE_MM_COMPLETED i 0 1) i 4))) ∧
  (∀ (s : State) (i : TileId) (m : Fin 4) (a : Nat) (len : Fin 65) (l : Nat) (g : Staged) (data : List Byte),
    g ∈ (s.tile i).arrays.staging → g.holds s.now l = true → l ∈ linesOf a data.length → data.length ≤ 64 →
    pantryCheck s i { master := m.val + 3, write := true, addr := a, len := data.length } = none →
    ∃ u, exec (.pantryMasterAccess i m a len (some data) 0) s = .next u ∧
      ∃ z ∈ (u.tile i).pantry.hazardsFor none (64 * l) 64, z.first = 64 * l ∧ z.count = 64 ∧ z.by_ = .lost)

/-- Spec 02 R99; 03 R113, R126 to R136: each kind of descriptor, first in the engine's order, moves a row: from device DRAM, to device
DRAM, within a pantry, to the pantry of another tile, or its pattern; a finished descriptor frees its handle and is counted. The engine moves
no row of a descriptor that is not eligible, or that another eligible one comes before. -/
def Obligations.DescriptorsMoveRows : Prop :=
  (∀ (s : State) (i : TileId) (h : Fin 16) (d : AccDesc) (c : Nat) (x : MoveCost),
    let s1 := (s.atTime (s.tileTime i c)).landStores i c
    let s2 := if x.wait = 0 then s1 else s1.countF Reg.PANTRY_CONFLICT_CYCLES i 0 x.wait
    let p := (s1.tile i).pantry
    let n := d.rowBytes
    let a := d.srcRow d.rowsDone
    let z := d.dstRow d.rowsDone
    let bound (k : Nat) : Prop := (s.tile i).pstate = .running ∧ (s.tile i).descs[h] = some d ∧ d.kind = k ∧
      eligible s i d c = true ∧ firstServed s i d c = true ∧ d.rowsDone < d.rows ∧ (d.rowsDone + 1 < d.rows ∨ d.chain = false)
    let next (u : State) : State := u.modTile i (fun t => { t with descs := t.descs.set h (some { d with rowsDone := d.rowsDone + 1 }) })
    let readable : Prop := pantryCheck s i { master := mAccess, handle := h, write := false, addr := a, len := n } = none ∧
      (s1.tile i).clean a n
    let writable (data : List Byte) : Prop :=
      pantryCheck s i { master := mAccess, handle := h, write := true, addr := z, len := data.length } = none
    (∀ data, data = d.rotRow (Memory.readN s.dram a n) → bound 1 → a + n ≤ dramSize s →
      (∀ l ∈ dramLines a n, s.dramUe.contains l = false ∧ s.dramCe.contains l = false) → writable data →
      ∃ u, exec (.dramToPantry i h 1 ⟨c, x⟩) s = .next u ∧ u.tiles = (next (s2.putPantry i z data)).tiles ∧ u.dram = s.dram) ∧
    (∀ data, data = d.rotRow (Memory.readN p.mem a n) → bound 2 → readable → s.dramUe = [] → z + data.length ≤ dramSize s →
      ∃ u, exec (.pantryToDram i h 1 ⟨c, x⟩) s = .next u ∧ u.dram = Memory.writeL s.dram z data ∧ u.tiles = (next s2).tiles) ∧
    (∀ data, data = d.rotRow (Memory.readN p.mem a n) → bound 3 → readable → writable data →
      exec (.pantryToPantry i h 1 ⟨c, x⟩) s = .next (next (s2.putPantry i z data))) ∧
    (∀ data j, data = d.rotRow (Memory.readN p.mem a n) → bound 4 → readable → s.mapped d.destTile = some j →
      pantryCheck s j { master := mMessage, handle := h, write := true, addr := z, len := data.length } = none →
      exec (.pantryToTile i h 1 ⟨c, x⟩) s = .next (next
        ((if x.msgWait = 0 then s2 else s2.countF Reg.PANTRY_CONFLICT_CYCLES j 2 x.msgWait).putPantry j z data))) ∧
    (∀ data, data = d.rotRow (List.replicate (n / 8) d.pattern).flatten → bound 5 → writable data →
      exec (.fill i h 1 ⟨c, x⟩) s = .next (next (s2.putPantry i z data))) ∧
    (∀ waited, (s.tile i).pstate = .running → (s.tile i).descs[h] = some d → d.done = true →
      exec (.descriptorComplete i h c waited) s = .next
        (((countLate s1 i d c waited).countF Reg.PANTRY_DESC_COMPLETED i 0 (d.finished + 1)).modTile i
          (fun t => { t with descs := t.descs.set h none })).settleClashes)) ∧
  (∀ (s : State) (i : TileId) (h : Fin 16) (d : AccDesc) (rows c : Nat) (x : MoveCost),
    (s.tile i).descs[h] = some d →
    (d.needTime ≠ 0 ∧ c + s.getF Reg.PANTRY_RUNAHEAD i 0 < d.needTime ∨
      (∃ (k : Fin 16) (e : AccDesc), (s.tile i).descs[k] = some e ∧ e.rowsDone < e.rows ∧ e.dgoCycle ≤ c ∧ e.needTime ≠ 0 ∧
        e.needTime ≤ c + s.getF Reg.PANTRY_RUNAHEAD i 0 ∧ e.needTime < 2 ^ 48 ∧
        (d.needTime = 0 ∨ e.needTime < d.needTime ∨ e.needTime = d.needTime ∧ e.seqNo < d.seqNo))) →
    exec (.dramToPantry i h rows ⟨c, x⟩) s = .next s ∧ exec (.pantryToDram i h rows ⟨c, x⟩) s = .next s ∧
      exec (.pantryToPantry i h rows ⟨c, x⟩) s = .next s ∧ exec (.pantryToTile i h rows ⟨c, x⟩) s = .next s ∧
      exec (.fill i h rows ⟨c, x⟩) s = .next s)

/-- Spec 06 R244 to R247: a GSTAT that taps an MM computes its blocks from the rows that it samples; at its end it writes their
lines, is counted and leaves the queue, and the next one is at the head. -/
def Obligations.GatherUpdatesComplete : Prop :=
  ∀ (s : State) (i : TileId) (g : GStat) (gs : List GStat) (c : Nat),
    let s1 := (s.atTime (s.tileTime i c)).landStores i c
    (s.tile i).pstate = .running → (s.tile i).gather = g :: gs →
    (∀ waited rows w, g.direct = false → g.attached = false → g.rows = some rows →
      gstatBlocks (s1.countF Reg.TILE_GATHER_WAIT_CYCLES i 0 waited) i g (tapSamples g rows) = w → w.err = none →
      exec (.gstatAttach i waited c) s = .next (w.s.modTile i (fun t => { t with
        gather := { g with attached := true, lines := w.lines, num := w.num } :: t.gather.tail }))) ∧
    (∀ wait r, g.direct = false → g.attached = true →
      let s2 := if wait = 0 then s1 else s1.countF Reg.PANTRY_CONFLICT_CYCLES i 1 wait
      writeLines i mSeq (s2.dropHazards i (.gstat g.id), none) g.lines = (r, none) →
      exec (.gstatComplete i ⟨c, wait⟩) s = .next (retryStall (gatherHead (((r.setNum i g.num).modTile i (fun t =>
        { t with gather := t.gather.tail, gathered := true })).wrapF Reg.TILE_GATHER_DONE i 0 1) i) i 4))

/-- Spec 06 R251 to R255, R260, R269 to R280: each kind of marver descriptor starts when the arrays are free and its checks
pass, with the outcomes of its problems; it ends as it is done, or at its deadline; a stopped marver releases the arrays. -/
def Obligations.MarverCommands : Prop :=
  ∀ (s : State) (i : TileId) (d : MvDesc) (ds : List MvDesc) (c : Nat),
    let t := s.tile i
    let s1 := (s.atTime (s.tileTime i c)).landStores i c
    let d1 : MvDesc := { d with words := mvWords (Memory.readN (s1.tile i).pantry.mem d.addr 128), running := true }
    let s2 := s1.setF Reg.TILE_MV_DESC_ADDR i 0 d.addr
    let head (s : State) (d : MvDesc) : State := s.modTile i (fun t => { t with marver := d :: t.marver.tail })
    let waits (s : State) (n : Nat) : State := if n = 0 then s else s.countF Reg.PANTRY_CONFLICT_CYCLES i 1 n
    let writable (s : State) (ps : List MvProblem) : Prop :=
      let st := ps.flatMap (fun p => statusBytes p.out)
      finishFail s i (ps.flatMap (·.lines) ++
        [{ addr := d.status, data := st ++ List.replicate ((64 - st.length % 64) % 64) 0#8 }]) = none
    let ended (u : State) : Prop := (u.tile i).marver = ds ∧ (u.tile i).arrays = t.arrays.release d.id ∧
      u.getF Reg.TILE_MV_DONE i 0 = (s.getF Reg.TILE_MV_DONE i 0 + 1) % 2 ^ Reg.TILE_MV_DONE.width
    let starts (ins : Instr) (k : Nat) : Prop :=
      ∀ r ps, t.pstate = .running → (s1.tile i).marver = d :: ds → d.running = false → d.touched = [] → t.releasing = false →
        t.arrays.drainedBefore d.id 3#2 = true →
        pantryCheck s1 i { master := mSeq, write := false, addr := d.addr, len := 128 } = none → (s1.tile i).clean d.addr 128 →
        d1.kind = k → d1.check = none → d1.pantryFail s2 i = none → (d1.deadline = 0 ∨ s1.now ≤ d1.deadline) →
        readProblems (markMarver (head (s2.dropHazards i (.marver d.id)) d1) i d1) i d1 = (r, none, ps) →
        exec ins s = .next (head r { d1 with problems := ps })
    (starts (.root i c) 1 ∧ starts (.nsinv i c) 2 ∧ starts (.chol i c) 3 ∧ starts (.trsvL i c) 4 ∧ starts (.trsvLt i c) 5 ∧
      starts (.cholsolve i c) 6) ∧
    (∀ wait, t.pstate = .running → (s1.tile i).marver = d :: ds → d.running = true → d.touched = [] →
      (d.deadline = 0 ∨ s1.now ≤ d.deadline) → writable (waits s1 wait) d.problems →
      ∃ u, exec (.marverDescriptorDone i ⟨c, wait⟩) s = .next u ∧ ended u) ∧
    (∀ time ats wait, t.pstate = .running → t.marver = d :: ds → d.running = true → d.touched = [] → t.stores = [] →
      d.deadline ≠ 0 → d.deadline < time →
      let s3 := waits (s1.atTime time) wait
      let r := (d.problems.zip (settleAts (decide (d.w ≤ 128 ∧ 2 ≤ d.batch)) d.batch ats)).zipIdx.foldl
        (fun (x : State × List MvProblem) q =>
          (x.1.useFree, x.2 ++ [deadlineProblem (s.flag Reg.TILE_LEGACY i 0) d q.2 x.1.free q.1.1 q.1.2])) (s3, [])
      writable r.1 r.2 →
      ∃ u, exec (.deadlineExpiry i time ⟨c, wait⟩ ats) s = .next u ∧ ended u ∧ (u.tile i).comp0 = some c ∧
        u.now = max (max s.now (s.tileTime i c)) time) ∧
    (t.releasing = true → t.startWaits = false → exec (.marverRelease i) s =
      .next ((s.resetFlds [Reg.TILE_A_SLOT, Reg.TILE_B_SLOT] i).modTile i (fun t =>
        { t with releasing := false, startWaits := false, arrays := t.arrays.clear })))

/-- Spec 03 R110, R115 to R118, R139 to R149: the accesses of the other masters of a pantry, region descriptors, bank requests and
transitions, the sweep and the clearing of counters. -/
def Obligations.PantryCommands : Prop :=
  ∀ (s : State) (i : TileId) (n : Fin 4),
    let cp : Actor := .cp n
    (∀ (m : Fin 4) (a len : Nat) (h : len < 65), pantryCheck s i { master := m.val + 3, write := false, addr := a, len := len } = none →
      (s.tile i).clean a len →
      exec (.pantryMasterAccess i m a ⟨len, h⟩ none 0) s =
        .next { s with reply := { data := Memory.readN (s.tile i).pantry.mem a len, err := 0 } }) ∧
    (∀ (m : Fin 4) (a : Nat) (len : Fin 65) (data : List Byte), data.length ≤ 64 →
      pantryCheck s i { master := m.val + 3, write := true, addr := a, len := data.length } = none →
      exec (.pantryMasterAccess i m a len (some data) 0) s =
        .next { s.putPantry i a data with reply := { data := [], err := 0 } }) ∧
    (∀ (m : Fin 7) (d : Fin 8) (v : Word), 3 ≤ m.val → s.flag Reg.PANTRY_RD_EN i (8 * m.val + d.val) = false →
      exec (.regionDescriptorWrite cp i m d true v) s =
        .next (s.setF Reg.PANTRY_RD_LAST i (8 * m.val + d.val) (v.toNat % 8192))) ∧
    (∀ b : Fin 40, (s.tile i).pantry.trans = [] → s.getF Reg.PANTRY_BANK_CUR i b = 2 →
      (∀ x ∈ s.power.gateBanks, x ≠ (i.val, b.val)) →
      ∃ u, exec (.bankReq cp i ⟨b.val / 16, by omega⟩ (BitVec.ofNat 32 (2 ^ 32 - 1 - 2 * 4 ^ (b.val % 16)))) s = .next u ∧
        u.getF Reg.PANTRY_BANK_CUR i b = 3 ∧ u.getF Reg.PANTRY_BANK_REQ i b = 1 ∧
        (u.tile i).pantry.trans = [{ bank := b.val, from_ := 2, target := 1, pending := none }]) ∧
    (∀ (b : Fin 40) (f g : Nat), (s.tile i).pantry.trans = [{ bank := b.val, from_ := f, target := g, pending := none }] → g < 3 →
      ∃ u, exec (.bankTransitionEnd i b) s = .next u ∧ u.getF Reg.PANTRY_BANK_CUR i b = g ∧ (u.tile i).pantry.trans = [] ∧
        (∀ a, bankOf (a / 64) = b.val → Memory.read (u.tile i).pantry.mem a =
          if f = 0 ∨ g = 0 then 0#8 else Memory.read (s.tile i).pantry.mem a) ∧
        (∀ a, bankOf (a / 64) ≠ b.val → Memory.read (u.tile i).pantry.mem a = Memory.read (s.tile i).pantry.mem a) ∧
        bit (u.getF (Hdr.INT_STATUS 2 0) i 0) 3 = true) ∧
    (s.flag Reg.PANTRY_SWEEP_EN i 0 = true → (s.tile i).pantry.halted = none → regionOn s i (s.tile i).pantry.sweepNext = true →
      (s.tile i).pantry.sweepNext < 5119 →
      ∃ u, exec (.sweepRegionStart i []) s = .next u ∧
        u.getF Reg.PANTRY_REGION i 0 = (s.tile i).pantry.sweepNext ∧
        (u.tile i).pantry.sweepNext = (s.tile i).pantry.sweepNext + 1 ∧ (u.tile i).pantry.mem = (s.tile i).pantry.mem ∧
        wordsIn (u.tile i).pantry.single (4096 * (s.tile i).pantry.sweepNext) 4096 = []) ∧
    (∃ u, exec (.ctrClear cp i) s = .next u ∧ u.getF Reg.PANTRY_DESC_COMPLETED i 0 = 0 ∧
      (∀ m : Fin 7, u.getF Reg.PANTRY_CONFLICT_CYCLES i m = 0) ∧ u.tiles = s.tiles)

/-! Register pages. -/

/-- Spec 14 R548 to R553: the header bits of a served page of a block. ENABLE, FREEZE, INT_STATUS, INT_FORCE, PERF_EVENT and
PERF_CLEAR change their own fields, and SOFT_RESET of an idle block its interrupts and errors; the page may count the access
in PERF_COUNT, and every other field and all typed state stay. -/
def Obligations.HeaderCommands : Prop :=
  ∀ (s : State) (a : Actor) (ty inst : Nat),
    inst < blockInstances ty → reaches s a = true → pageTakes s a ty inst = true →
    let only (u : State) (fs : List Fld) : Prop := u = { s with regs := u.regs, free := u.free } ∧
      ∀ (g : Fld) (i k : Nat), (∀ f ∈ fs, g.key i k ≠ f.key inst 0) → g.key i k ≠ (Hdr.PERF_COUNT ty).key inst 0 →
        u.getF g i k = s.getF g i k
    (∀ on, ty ≠ 4 → ty ≠ 8 → ∃ u, exec (.enable a ty inst on) s = .next u ∧
      u.getF (Hdr.ENABLE ty) inst 0 = b2n on ∧ only u [Hdr.ENABLE ty]) ∧
    (∀ on, ty ≠ 1 → ∃ u, exec (.freeze a ty inst on) s = .next u ∧
      u.getF (Hdr.FREEZE ty) inst 0 = b2n on ∧ only u [Hdr.FREEZE ty]) ∧
    (∀ (pg : Nat) (mask : Word), pg = 0 ∨ ty = 1 ∧ pg = 5 → ∃ u, exec (.intStatusClear a ty inst pg mask) s = .next u ∧
      (∀ b, bit (u.getF (Hdr.INT_STATUS ty pg) inst 0) b =
        (decide (b < 32) && bit (s.getF (Hdr.INT_STATUS ty pg) inst 0) b && !bit mask.toNat b)) ∧
      (bit mask.toNat 0 = true → u.getF (Hdr.ERR_CODE ty pg) inst 0 = 0 ∧ u.getF (Hdr.ERR_INFO0 ty pg) inst 0 = 0 ∧
        u.getF (Hdr.ERR_INFO1 ty pg) inst 0 = 0) ∧
      only u (Hdr.INT_STATUS ty pg ::
        if bit mask.toNat 0 then [Hdr.ERR_CODE ty pg, Hdr.ERR_INFO0 ty pg, Hdr.ERR_INFO1 ty pg] else [])) ∧
    (∀ (pg : Nat) (mask : Word), pg = 0 ∨ ty = 1 ∧ pg = 5 → ∃ u, exec (.intForce a ty inst pg mask) s = .next u ∧
      (∀ b, bit (u.getF (Hdr.INT_STATUS ty pg) inst 0) b = (decide (b < 32) &&
        (bit (s.getF (Hdr.INT_STATUS ty pg) inst 0) b || bit mask.toNat b && decide (b < intBits ty pg inst)))) ∧
      only u [Hdr.INT_STATUS ty pg]) ∧
    (∀ ev, ∃ u, exec (.perfEvent a ty inst ev) s = .next u ∧ u.getF (Hdr.PERF_EVENT ty) inst 0 = ev.toNat ∧
      (s.getF (Hdr.PERF_EVENT ty) inst 0 = 0 → u.getF (Hdr.PERF_COUNT ty) inst 0 = s.getF (Hdr.PERF_COUNT ty) inst 0) ∧
      only u [Hdr.PERF_EVENT ty]) ∧
    (∃ u, exec (.perfClear a ty inst) s = .next u ∧ u.getF (Hdr.PERF_COUNT ty) inst 0 = 0 ∧ only u []) ∧
    (ty ≠ 1 → (neverReset ty || blockBusy s ty inst) = false → ∃ u, exec (.softReset a ty inst) s = .next u ∧
      u.getF (Hdr.INT_STATUS ty 0) inst 0 = 0 ∧ u.getF (Hdr.ERR_CODE ty 0) inst 0 = 0 ∧ u.getF (Hdr.ERR_INFO0 ty 0) inst 0 = 0 ∧
      u.getF (Hdr.ERR_INFO1 ty 0) inst 0 = 0 ∧ u.getF (Hdr.PERF_COUNT ty) inst 0 = 0 ∧
      only u [Hdr.INT_STATUS ty 0, Hdr.ERR_CODE ty 0, Hdr.ERR_INFO0 ty 0, Hdr.ERR_INFO1 ty 0]) ∧
    (ty ≠ 1 → (neverReset ty || blockBusy s ty inst) = true → ∃ u, exec (.softReset a ty inst) s = .next u ∧ only u [])

/-- Spec 02 R50, R86, R104, R588, R589, Table 2.18: START begins the program of an idle or halted tile at ENTRY, frozen where FREEZE
is set, and keeps what its doors hold; a tile that serves no logical tile takes none; ABORT halts an active one; SOFT_RESET leaves the tile IDLE at ENTRY with its files clear; FREEZE stops a tile and
resumes it. No other tile changes. -/
def Obligations.TilePrograms : Prop :=
  ∀ (s : State) (a : Actor) (i : TileId),
    reaches s a = true → pageTakes s a 1 i = true →
    let t := s.tile i
    let others (u : State) : Prop := (∀ j, j ≠ i → u.tile j = s.tile j) ∧ u.dram = s.dram ∧ u.net = s.net
    (∀ entry : Fin 8192, s.getF (Hdr.ENABLE 1) i 0 ≠ 0 → s.getF Reg.TILE_PROG_LEN i 0 ≠ 0 → t.pstate = .idle ∨ t.pstate = .halted →
      t.releasing = false → s.tileActive i = true →
      ∃ u, exec (.start a i entry) s = .next u ∧
        (u.tile i).pstate = (if s.flag (Hdr.FREEZE 1) i 0 then .frozen else .running) ∧ (u.tile i).pc = entry.val ∧
        (u.tile i).anchorAt = s.now ∧ (u.tile i).anchorCycle = 0 ∧
        u.getF Reg.TILE_ENTRY i 0 = entry.val ∧ (u.tile i).cycle = 0 ∧ (u.tile i).inflight = [] ∧ (u.tile i).loops = [] ∧
        (u.tile i).doors = t.doors ∧ (u.tile i).v = t.v ∧ (u.tile i).sreg = t.sreg ∧ (u.tile i).p = t.p ∧
        (u.tile i).pantry = t.pantry ∧ u.getF Reg.TILE_ISSUED_BUNDLES i 0 = 0 ∧
        (∀ d : Fin 16, u.getF Reg.TILE_DOOR_EXPECTED_SEQ i d = 0) ∧ (∀ c : Fin 8, u.getF Reg.TILE_STALL_CYCLES i c = 0) ∧
        u.getF Reg.TILE_PROG_LEN i 0 = s.getF Reg.TILE_PROG_LEN i 0 ∧ others u) ∧
    (∀ entry : Fin 8192, s.tileActive i = false → ∃ u, exec (.start a i entry) s = .next u ∧ u.tiles = s.tiles) ∧
    (t.active = true → ∃ u, exec (.abort a i) s = .next u ∧ (u.tile i).pstate = .halted ∧ (u.tile i).pc = t.pc ∧
        (u.tile i).inflight = [] ∧ (u.tile i).v = t.v ∧ (u.tile i).sreg = t.sreg ∧ (u.tile i).p = t.p ∧
        (u.tile i).arrays.queue = [] ∧ (u.tile i).arrays.jobs = [] ∧ (u.tile i).gather = [] ∧ (u.tile i).marver = [] ∧
        (u.tile i).descs = Vector.replicate 16 none ∧ (u.tile i).doors = t.doors ∧
        bit (u.getF (Hdr.INT_STATUS 1 0) i 0) 1 = true ∧ u.net = s.net ∧
        (t.descs = Vector.replicate 16 none → u.dram = s.dram ∧ ∀ j, j ≠ i →
          u.tile j = { s.tile j with pantry := { (s.tile j).pantry with hazards := (u.tile j).pantry.hazards } })) ∧
    (t.active = false → ∃ u, exec (.softReset a 1 i) s = .next u ∧ (u.tile i).pstate = .idle ∧
      (u.tile i).pc = s.getF Reg.TILE_ENTRY i 0 ∧ (u.tile i).v = Tile.reset.v ∧ (u.tile i).sreg = Tile.reset.sreg ∧
      (u.tile i).p = Tile.reset.p ∧ (u.tile i).doors = Vector.replicate 16 [] ∧ (u.tile i).pantry = t.pantry ∧
      u.getF (Hdr.INT_STATUS 1 0) i 0 = 0 ∧ u.getF (Hdr.ERR_CODE 1 0) i 0 = 0 ∧ u.getF (Hdr.INT_STATUS 1 5) i 0 = 0 ∧
      u.getF Reg.TILE_DOOR_DROPPED i 0 = min (t.doors.toList.foldl (fun n ms => n + ms.length) 0) (2 ^ 32 - 1) ∧
      u.getF Reg.TILE_PROG_LEN i 0 = s.getF Reg.TILE_PROG_LEN i 0 ∧ others u) ∧
    (t.pstate = .running ∨ t.pstate = .stalled → ∃ u, exec (.freeze a 1 i true) s = .next u ∧
      u.tile i = { (settleStall s i).tile i with thawTo := t.pstate, pstate := .frozen } ∧ u.getF (Hdr.FREEZE 1) i 0 = 1 ∧ others u) ∧
    (t.pstate = .frozen → t.stall = none → ∃ u, exec (.freeze a 1 i false) s = .next u ∧
      u.tile i = { t with pstate := t.thawTo, anchorAt := s.now, anchorCycle := t.cycle } ∧ u.getF (Hdr.FREEZE 1) i 0 = 0 ∧ others u)

/-- Spec 14 R538, R541 to R545, spec 00 R15, R16: register accesses. Every page answers its ID word; outside the pages reads are 0, in the
regions of R537 free values (log entry 95), and writes do nothing; a write stores the fields that the page takes; the low word of TIME latches the high word for its reader. -/
def Obligations.RegisterAccesses : Prop :=
  ∀ (s : State) (a : Actor), reaches s a = true →
    (∀ (addr : BitVec 26) (p : RegPlace), addr.toNat % 4 = 0 → regPlace addr.toNat = some p → p.off = 0 →
      exec (.latchingRead a addr false) s =
        .next { s with reply := { data := toLe 4 (p.pg + 256 * p.inst + 65536 * p.ty), err := 0 } }) ∧
    (∀ addr : BitVec 26, addr.toNat % 4 = 0 → regPlace addr.toNat = none →
      (standardRegion addr.toNat = false →
        exec (.latchingRead a addr false) s = .next { s with reply := { data := [0#8, 0#8, 0#8, 0#8], err := 0 } }) ∧
      (standardRegion addr.toNat = true → exec (.latchingRead a addr false) s =
        .next { s.useFree with reply := { data := toLe 4 (Config.freeNat s.free % 2 ^ 32), err := 0 } }) ∧
      ∀ v, exec (.registerWrite a addr false v) s = .next s) ∧
    (∀ (i : TileId) (v : Word64), pageTakes s a 1 i = true → s.getF (Hdr.PERF_EVENT 1) i 0 = 0 →
      exec (.registerWrite a (BitVec.ofNat 26 (0x8000 * i.val + 0x110)) false v) s =
        .next (s.setF Reg.TILE_STALL_LIMIT i 0 (v.toNat % 2 ^ 32))) ∧
    (∀ (i : TileId) (addr : BitVec 26) (o : Nat) (v : Word64), o % 4 = 0 → 0x100 ≤ o → o < 0x1000 → addr.toNat = 0x8000 * i.val + o →
      pageOn s 1 i = true → pageWriter s a 1 i = false → s.getF (Hdr.PERF_EVENT 1) i 0 = 0 →
      exec (.registerWrite a addr false v) s = .next s) ∧
    (pageOn s 12 0 = true → s.getF (Hdr.PERF_EVENT 12) 0 0 = 0 → ∃ u, exec (.latchingRead a 0x718100#26 false) s = .next u ∧
      u.reply = { data := toLe 4 s.now, err := 0 } ∧ u = { s with reply := u.reply, latches := u.latches } ∧
      ∀ t : State, t.latches = u.latches → reaches t a = true → pageOn t 12 0 = true → t.getF (Hdr.PERF_EVENT 12) 0 0 = 0 →
        exec (.latchingRead a 0x718104#26 false) t = .next { t with reply := { data := toLe 4 (s.now / 2 ^ 32), err := 0 } })

/-! Commit unit and crucible. -/

/-- Spec 07 R304, R308, R320, R321, R324, R325, R591; 01 R31, R37; 08 R332: COMMIT and SCAN push a request; the commit of a step is pushed
only when the domain runs that step, it is ready, its STAT has closed and its roots have arrived, with the mode, the epoch, the
count and the update parameters of the domain; the commit of the last committed step is pushed again; a full queue refuses it; pins are granted, but not while a commit of the domain is under
way; QUERY_DOMAIN selects the domain that the status registers show. -/
def Obligations.CommitRequestsAndPins : Prop :=
  ∀ (s : State) (id : BitVec 19) (skipped roots : Bool) (step : Word64) (epoch acc : BitVec 16) (crc : Word) (growth : BitVec 24)
      (nonfinite : Word),
    let commit : Instr := .commit id skipped roots step epoch acc crc growth nonfinite
    let q : CommitReq := {
      domain := id.toNat, kind := 0, skipped := skipped, roots := roots, legacy := false, step := step.toNat, epoch := epoch.toNat,
      acc := acc.toNat, crc := crc.toNat, growth := growth.toNat, nonfinite := nonfinite.toNat }
    let up : Prop := cpUp s 1 = true ∧ s.getF (Hdr.ENABLE 16) 0 0 ≠ 0
    (∀ d, up → s.commitQ.length < 64 → s.domain? id.toNat = some d → d.lastStep = some step.toNat →
      ∃ u, exec commit s = .next u ∧ u.commitQ = s.commitQ ++ [{ q with legacy := d.legacyMode }] ∧ u.domains = s.domains ∧
        u.dram = s.dram) ∧
    (∀ d r, up → s.commitQ.length < 64 → s.domain? id.toNat = some d → d.run = some r → d.lastStep ≠ some step.toNat →
      r.step = step.toNat → r.skipped = skipped → r.phase = .ready → r.statOpen = false → statOwed s d r = false →
      rootsArrived d = true →
      let p := commitFields d q
      ∃ u, exec commit s = .next u ∧
        u.commitQ = s.commitQ ++ [{ p with
          epoch := p.epoch % 2 ^ 16, acc := p.acc % 2 ^ 16, crc := p.crc % 2 ^ 32, growth := p.growth % 2 ^ 24
          roots := !skipped && (writeShadowMap s d r).2, nonfinite := r.nonfinite % 2 ^ 32 }] ∧
        u.dram = (if skipped then s.dram else (writeShadowMap s d r).1.dram) ∧
        u.domain? id.toNat = some { d with run := some { r with phase := .committing } }) ∧
    (∀ d, s.domain? id.toNat = some d → d.lastStep ≠ some step.toNat →
      (∀ r, d.run = some r → r.step ≠ step.toNat ∨ r.skipped ≠ skipped ∨ r.phase ≠ .ready ∧ r.phase ≠ .committing ∨
        r.statOpen = true ∨ statOwed s d r = true ∨ rootsArrived d = false) →
      exec commit s = .next s) ∧
    (∀ d, up → s.commitQ.length = 64 → s.domain? id.toNat = some d → d.lastStep = some step.toNat →
      bit (s.getF (Hdr.INT_STATUS 16 0) 0 0) 0 = false →
      ∃ u, exec commit s = .next u ∧ u.commitQ = s.commitQ ∧ u.getF (Hdr.ERR_CODE 16 0) 0 0 = 0x0904 ∧
        u.getF (Hdr.ERR_INFO0 16 0) 0 0 = id.toNat) ∧
    (up → s.commitQ.length < 64 → ∃ u, exec (.scan id) s = .next u ∧ u.domains = s.domains ∧ u.commitQ = s.commitQ ++
      [{ domain := id.toNat, kind := 1, skipped := false, roots := false, legacy := false, step := 0, epoch := 0, acc := 0,
         crc := 0, growth := 0, nonfinite := 0 }]) ∧
    (∀ a, reaches s a = true → pageTakes s a 16 0 = true → ∃ u, exec (.queryDomain a id) s = .next u ∧
      u.getF Reg.COMMIT_QUERY_DOMAIN 0 0 = id.toNat ∧ u.domains = s.domains ∧
      ∀ d, s.domain? id.toNat = some d → fieldValue u Reg.COMMIT_Q_STEP 0 0 = d.lastStep.getD 0 ∧
        fieldValue u Reg.COMMIT_Q_PINS 0 0 = d.pins.length ∧ fieldValue u Reg.COMMIT_Q_VALID 0 0 = b2n d.lastStep.isSome) ∧
    (∀ d h, s.domain? id.toNat = some d → ∃ u, exec (.readPinRequest id h) s = .next u ∧ u.dram = s.dram ∧
      u.domain? id.toNat = some (if committing s id.toNat then { d with pinWait := d.pinWait ++ [h] } else { d with pins := d.pins ++ [h] })) ∧
    (∀ d h, s.domain? id.toNat = some d → ∃ u, exec (.readPinRelease id h) s = .next u ∧ u.dram = s.dram ∧
      u.domain? id.toNat = some (if d.pins.contains h then { d with pins := eraseOne h d.pins } else { d with pinWait := eraseOne h d.pinWait }))

/-- Spec 07 R304 to R306, R319 to R324, Tables 7.4, 7.6, 7.7: the request at the head of the commit queue. A COMMIT that fails a
check is dropped with its error; a repeat is counted; a pinned domain makes it wait; else the commit record is written into
the journal entry of its step, the step becomes the latest one, the loss scale moves and the slot areas swap unless the step
is skipped. A SCAN takes the latest valid record of the journal. -/
def Obligations.CommitsTakeEffect : Prop :=
  ∀ (s : State) (t : Nat) (q : CommitReq) (qs : List CommitReq), s.commitQ = q :: qs → s.getF (Hdr.FREEZE 16) 0 0 ≠ 1 →
    let clear : Prop := bit (s.getF (Hdr.INT_STATUS 16 0) 0 0) 0 = false
    let up (f : Fld) (u : State) : Prop := u.getF f 0 0 = min (s.getF f 0 0 + 1) (2 ^ f.width - 1)
    (∀ c i0 i1, q.kind = 0 → requestChecks s q = .error (c, i0, i1) → ∃ u, exec (.commitExecute t) s = .next u ∧ u.commitQ = qs ∧
      u.domains = s.domains ∧ u.dram = s.dram ∧ (clear → u.getF (Hdr.ERR_CODE 16 0) 0 0 = c % 65536)) ∧
    (∀ d j, q.kind = 0 → requestChecks s q = .ok (d, j) → repeats d q = true → ∃ u, exec (.commitExecute t) s = .next u ∧ u.commitQ = qs ∧
      u.domains = s.domains ∧ u.dram = s.dram ∧ up Reg.COMMIT_DUPS u ∧ bit (u.getF (Hdr.INT_STATUS 16 0) 0 0) 1 = true) ∧
    (∀ d j, q.kind = 0 → requestChecks s q = .ok (d, j) → repeats d q = false →
      q.step ≠ d.lastStep.elim 0 (fun n => (n + 1) % 2 ^ 64) →
      ∃ u, exec (.commitExecute t) s = .next u ∧ u.commitQ = qs ∧ u.domains = s.domains ∧ u.dram = s.dram ∧
        (clear → u.getF (Hdr.ERR_CODE 16 0) 0 0 = 0x0903 ∧ u.getF (Hdr.ERR_INFO0 16 0) 0 0 = q.step % 2 ^ 32)) ∧
    (∀ d j, q.kind = 0 → requestChecks s q = .ok (d, j) → repeats d q = false →
      q.step = d.lastStep.elim 0 (fun n => (n + 1) % 2 ^ 64) → d.pins ≠ [] →
      ∃ u, exec (.commitExecute t) s = .next u ∧ u.commitQ = s.commitQ ∧ u.commitWait = true ∧ u.domains = s.domains ∧
        u.dram = s.dram ∧ (s.commitWait = false → bit (u.getF (Hdr.INT_STATUS 16 0) 0 0) 3 = true)) ∧
    (∀ d j, q.kind = 0 → requestChecks s q = .ok (d, j) → repeats d q = false →
      q.step = d.lastStep.elim 0 (fun n => (n + 1) % 2 ^ 64) → d.pins = [] → d.group = none → s.dramUe = [] →
      j + 64 * (q.step % 16) + 64 ≤ dramSize s →
      let ls := lossScaleNext d.lossScale q.skipped q.growth
      let slot := if q.skipped then d.committed else !d.committed
      let digest := if q.skipped then (if d.lastStep.isSome then recDigest d.record else 0)
        else rootDigest (domainLeaves (s.atTime t) d slot)
      let r := formRecord q slot ls.1 digest (max s.now t)
      ∃ u d', exec (.commitExecute t) s = .next u ∧ u.commitQ = qs ∧ u.commitWait = false ∧
        u.dram = Memory.writeL s.dram (j + 64 * (q.step % 16)) r ∧ u.domain? q.domain = some d' ∧ d'.committed = slot ∧
        d'.lastStep = some q.step ∧ d'.record = r ∧ d'.pins = d.pinWait ∧ d'.pinWait = [] ∧
        (if q.skipped then up Reg.COMMIT_SKIPS u else up Reg.COMMIT_COMMITS u) ∧
        (ls.2 = true → bit (u.getF (Hdr.INT_STATUS 16 0) 0 0) 2 = true) ∧ bit (u.getF (Hdr.INT_STATUS 16 0) 0 0) 1 = true ∧
        ∀ id, id ≠ q.domain → u.domain? id = s.domain? id) ∧
    (∀ d j, q.kind = 1 → requestChecks s q = .ok (d, j) → s.dramUe = [] → s.dramCe = [] → j + 1024 ≤ dramSize s →
      let found := latestOf d.id ((List.range 16).map (fun k => Memory.readN s.dram (j + 64 * k) 64))
      ∃ u d', exec (.scanExecute t) s = .next u ∧ u.commitQ = qs ∧ u.dram = s.dram ∧ u.domain? q.domain = some d' ∧
        d'.committed = found.elim false recSlot ∧ d'.lastStep = found.map recStep ∧ d'.record = found.getD [] ∧ d'.pins = d.pins ∧
        (found = none → clear → u.getF (Hdr.ERR_CODE 16 0) 0 0 = 0x0906))

/-- Spec 01 R25, R26, R29 to R31, R38 to R40, Table 1.2; 08 R330, R331, R356; 09 R377: CP1 posts an operation of the step that a domain
runs when its turn has come, with the step's overflow flag in its descriptor, and holds it till then. At a step boundary the committed step ends, the
roots of its own STAT are due in the next step, and a held accumulation count takes effect; frequencies, HOLD and the next unit follow.
A step that is not committed, or whose programs still run, has no boundary. -/
def Obligations.StepBoundaries : Prop :=
  (∀ (s : State) (id : BitVec 19) (others : Bool) (t : Nat) (d : Domain) (r : StepRun),
    s.domain? id.toNat = some d → d.run = some r →
    (cpUp s 1 = true → r.phase = .committed → d.group = none → d.steer = false → d.retained = false →
      (∀ q, s.queue? d.queue = some q → q.unit = none) → fwState s ≠ 3 →
      ∃ v d', exec (.stepBoundary id ⟨t, others⟩) s = .next (updateMembership (boundaryStarts v id.toNat t)) ∧ v.now = max s.now t ∧
        v.tiles = s.tiles ∧ v.dram = s.dram ∧ v.domain? id.toNat = some d' ∧ d'.run = none ∧ d'.rootsDue = r.dueRoots ∧ d'.roots = [] ∧
        d'.accCount = d.nextAcc.getD d.accCount ∧ d'.nextAcc = none ∧ d'.lastStep = d.lastStep ∧ d'.committed = d.committed ∧
        d'.gathered = s.gathered d ∧ ∀ i, i ≠ id.toNat → v.domain? i = s.domain? i) ∧
    (r.phase ≠ .committed ∨ stepActive s d = true →
      exec (.stepBoundary id ⟨t, others⟩) s = .next (updateMembership (s.atTime t)))) ∧
  (∀ (s : State) (t : Nat) (a : BitVec 41),
    let ws := descWords s a.toNat
    let its := descItems s ws
    let queued (u : State) : Prop := u.cruQ = s.cruQ ++ [a.toNat] ∧ u.getF Reg.CRU_OP_ADDR 8 0 = a.toNat
    (cpUp s 1 = true → s.getF (Hdr.ENABLE 3) 8 0 ≠ 0 → s.cruQ.length + s.cru.length < 16 → s.domain? (dDomain ws) = none →
      ∃ u, exec (.opPush a t) s = .next u ∧ queued u ∧ u.domains = s.domains ∧ u.dram = s.dram) ∧
    (∀ d, s.domain? (dDomain ws) = some d → d.run = none → exec (.opPush a t) s = .next (s.atTime t)) ∧
    (∀ d r, s.domain? (dDomain ws) = some d → d.run = some r →
      (dOpk ws = 1 → r.step ≠ dStep ws ∨ r.phase ≠ .program ∧ r.phase ≠ .halted ∨ stepHalted s d = false ∨ tableHeld d r.step = false →
        exec (.opPush a t) s = .next (s.atTime t)) ∧
      (dOpk ws = 2 → r.step ≠ dStep ws ∨ r.gradClosed = false ∨ r.statOpen = true ∨ statOwed s d r = false →
        exec (.opPush a t) s = .next (s.atTime t)) ∧
      (dOpk ws = 3 → d.rootsDue = [] ∨ ownRootsDone s ws its = false → exec (.opPush a t) s = .next (s.atTime t))) ∧
    (∀ d r, cpUp s 1 = true → s.getF (Hdr.ENABLE 3) 8 0 = 1 → s.cruQ.length + s.cru.length < 16 → s.domain? (dDomain ws) = some d →
      d.run = some r →
      (dOpk ws = 1 → r.step = dStep ws → r.phase = .program ∨ r.phase = .halted → stepHalted s d = true → tableHeld d r.step = true →
        let ovf := dOvf ws || accOverflow s.dram (its.map (fun it => (iA it, iLen it)))
        ∃ u, exec (.opPush a t) s = .next u ∧ queued u ∧
          u.dram = (if ovf then Memory.write s.dram a.toNat (Memory.read s.dram a.toNat ||| 0x40#8) else s.dram) ∧
          (u.domain? d.id).bind (·.run) = some { r with
            phase := .reducing, ovf := ovf, gradClosed := false
            readyUs := min 0xFFFFFFFF ((max s.now t - r.startedAt) / 1000) }) ∧
      (dOpk ws = 2 → r.step = dStep ws → r.gradClosed = true → r.statOpen = false → statOwed s d r = true →
        ownersOk s d ws its = true →
        ∃ u, exec (.opPush a t) s = .next u ∧ queued u ∧ u.dram = s.dram ∧
          (u.domain? d.id).bind (·.run) = some { r with statOpen := true }) ∧
      (dOpk ws = 3 → dStep ws = r.step ∨ dStep ws + 1 = r.step → d.rootsDue ≠ [] → ownersOk s d ws its = true →
        ownRootsDone s ws its = true →
        ∃ u, exec (.opPush a t) s = .next u ∧ queued u ∧ u.dram = s.dram ∧ u.domains = s.domains)))

/-- Spec 08 R331, R335, R364, R365, R343: an operation starts at the head of the queue once its channels are free, beside those that
run, or is refused; it is aborted or times out, and leaves its outcome for CP1. -/
def Obligations.CrucibleOperations : Prop :=
  ∀ (s : State) (t : Nat),
    let words (a : Nat) := wordsAt (Memory.readN s.dram a 128) 16
    let itemsAt (ws : List Nat) := (List.range (dNItems ws)).map (fun i =>
      wordsAt ((Memory.readN s.dram (dItems ws) (32 * dNItems ws)).drop (32 * i)) 4)
    let ended (u : State) (cru : List CruOp) (q : List Nat) (o : Nat) : Prop := u.cru = cru ∧ u.cruQ = q ∧ u.now = max s.now t ∧
      ∃ x, u.cruDone = s.cruDone ++ [x] ∧ x.outcome = o
    let counted (u : State) : Prop :=
      u.getF Reg.CRU_OPS_DONE 8 0 = min (s.getF Reg.CRU_OPS_DONE 8 0 + 1) (2 ^ Reg.CRU_OPS_DONE.width - 1)
    let readable (a n : Nat) : Prop := a + n ≤ dramSize s
    (∀ o os, cpUp s 1 = true → s.cru = o :: os → ∃ u, exec (.opAbort t) s = .next u ∧ ended u os s.cruQ 5 ∧ counted u) ∧
    (∀ a rest, s.getF (Hdr.FREEZE 3) 8 0 ≠ 1 → s.cruQ = a :: rest → s.dramUe = [] → s.dramCe = [] → readable a 128 →
      (descReserved (words a) = none → readable (dItems (words a)) (32 * dNItems (words a))) →
      let its := if (descReserved (words a)).isSome then [] else itemsAt (words a)
      let start : Instr := if dOpk (words a) = 2 then .statOp t else if dOpk (words a) = 3 then .rootOp t else .gradOp t
      let free : Prop := ∀ c ∈ dChans (words a), opOn s c = none
      (opRefusal (s.atTime t) a (words a) its = none → free →
        exec start s = .next (beginOp { s.atTime t with cruQ := rest } a (words a) its)) ∧
      (opRefusal (s.atTime t) a (words a) its = none → ¬ free → exec start s = .next s) ∧
      (∀ c i0 i1, opRefusal (s.atTime t) a (words a) its = some (c, i0, i1) → bit (s.getF (Hdr.INT_STATUS 3 0) 8 0) 0 = false →
        ∃ u, exec start s = .next u ∧ ended u s.cru rest 4 ∧ u.getF (Hdr.ERR_CODE 3 0) 8 0 = c % 65536)) ∧
    (∀ (ch : Fin 16) k o x, opOn s ch.val = some k → s.cru[k]? = some o → o.chan ch.val = some x →
      if t < x.progress + s.getF Reg.CRU_HOP_TIMEOUT 8 0 then exec (.hopTimeout ch t) s = .next s
      else ∃ u, exec (.hopTimeout ch t) s = .next u ∧ ended u (s.cru.eraseIdx k) s.cruQ 3 ∧ counted u ∧
        (bit (s.getF (Hdr.INT_STATUS 3 0) (ch.val / 2) 0) 0 = false → u.getF (Hdr.ERR_CODE 3 0) (ch.val / 2) 0 = 0x0317)) ∧
    (∀ c cs d r fit, cpUp s 1 = true → s.cruDone = c :: cs → dOpk c.words = 1 → s.domain? (dDomain c.words) = some d → d.run = some r →
      r.step = dStep c.words → r.phase = .reducing →
      let with_ (x : StepRun) : State :=
        (noteFit { s with now := max s.now t, cruDone := cs } (dDomain c.words) fit).setDomain { d with run := some x }
      (c.outcome = 1 → exec (.opDone t fit) s = .next (with_ { r with phase := .ready, skipped := true })) ∧
      (c.outcome = 4 ∨ c.outcome = 5 → exec (.opDone t fit) s = .next (with_ { r with phase := .halted })) ∧
      (c.outcome = 0 → dNoise c.words = false → s.dramUe = [] → ∃ u k, exec (.opDone t fit) s = .next u ∧
        (u.domain? (dDomain c.words)).bind (·.run) = some { r with phase := .ready, nonfinite := k } ∧
        (u.dram, k) = (fun (x : State × Nat) => (x.1.dram, x.2)) (updateDomain (with_ { r with phase := .updating })
          { d with run := some { r with phase := .updating } } (dM c.words) (reducedGradient s c.words c.items))))

/-- Spec 08 R340 to R343, Table 8.6: a chunk of each kind. A header that fails its check is an error; a chunk on a channel that no
operation holds, or of another epoch, is dropped and counted; a chunk of an operation, with its source, its destination and its
sequence number, is taken, and a GRANT adds its credits, at most 8 in all; a chunk after the hop timer has expired comes too late,
and its operation ends TIMEOUT. -/
def Obligations.ChunksArrive : Prop :=
  ∀ (s : State) (k : Fin 7) (ch : Fin 16) (data : List Byte) (t : Nat),
    let h := headOf data
    let n (o : CruOp) := ringSize o.words ch.val
    let p (o : CruOp) := ringPos o.words ch.val (dPos o.words)
    let on : Prop := s.getF (Hdr.ENABLE 3) (ch.val / 2) 0 ≠ 0
    let quiet : Prop := bit (s.getF (Hdr.INT_STATUS 3 0) (ch.val / 2) 0) 0 = false
    let holds (j : Nat) (o : CruOp) : Prop := opOn s ch.val = some j ∧ s.cru[j]? = some o
    let mine (j : Nat) (o : CruOp) (x : CruChan) : Prop := on ∧ holds j o ∧ o.chan ch.val = some x ∧ expiredChan s o t = none ∧
      headGood data = true ∧ h.kind = k.val + 1
    let same (o : CruOp) : Prop := h.epoch = dEpoch o.words ∧ h.domain = dDomain o.words ∧ h.step = dStep o.words ∧ h.opk = dOpk o.words
    (on → headGood data = false → quiet → opOn s ch.val = none →
      ∃ u, exec (chunkInstr k ch data t) s = .next u ∧ u.getF (Hdr.ERR_CODE 3 0) (ch.val / 2) 0 = 0x0311 ∧ u.dram = s.dram ∧
        u.cru = s.cru) ∧
    (∀ j o, on → headGood data = false → quiet → holds j o → expiredChan s o t = none →
      ∃ u, exec (chunkInstr k ch data t) s = .next u ∧ u.getF (Hdr.ERR_CODE 3 0) (ch.val / 2) 0 = 0x0311 ∧ u.dram = s.dram ∧
        u.cru = s.cru.set j { o with fault := true }) ∧
    (on → headGood data = true → h.kind = k.val + 1 → opOn s ch.val = none → s.cruLate = [] →
      exec (chunkInstr k ch data t) s = .next (countCh (s.atTime t) Reg.CH_EPOCH_DROPS ch.val)) ∧
    (∀ j o x, mine j o x → h.epoch ≠ dEpoch o.words →
      exec (chunkInstr k ch data t) s = .next (countCh (s.atTime t) Reg.CH_EPOCH_DROPS ch.val)) ∧
    (∀ j o x, mine j o x → same o → chunkReserved data = false → k ≠ 6 →
      h.src = (p o + n o - 1) % n o → h.dst = p o → h.seq = chF s Reg.CH_SEQ_RX ch.val → x.buf.length < 8 →
      exec (chunkInstr k ch data t) s = .next (withOp (s.atTime t) j (fun s => settleOp
        ((countCh (setChF s Reg.CH_SEQ_RX ch.val (h.seq + 1)) Reg.CH_CHUNKS_RX ch.val).modChan ch.val
          (fun x => { x with progress := s.now, buf := x.buf ++ [data] }))))) ∧
    (∀ j o x, mine j o x → same o → chunkReserved data = false → k = 6 →
      h.src = (p o + 1) % n o → h.dst = p o → h.w5 = x.planCrc →
      exec (chunkInstr k ch data t) s = .next (withOp (s.atTime t) j (fun s => settleOp (setChF
        (countCh (s.modChan ch.val (fun x => { x with progress := s.now })) Reg.CH_CHUNKS_RX ch.val)
        Reg.CH_CREDITS ch.val (min 8 (chF s Reg.CH_CREDITS ch.val + h.w4)))))) ∧
    (∀ j o e, on → holds j o → expiredChan s o t = some e → headGood data = true → h.kind = k.val + 1 →
      (∀ m o', m ≠ j → s.cru[m]? = some o' → o'.chan ch.val = none) →
      ∃ u x, exec (chunkInstr k ch data t) s = .next u ∧ u.cru = s.cru.eraseIdx j ∧ u.cruDone = s.cruDone ++ [x] ∧ x.outcome = 3)
/-! Replica groups, clones and exports. -/

/-- Spec 09 R375 to R377, R381; 00 R18: step reports are gathered, malformed ones dropped; a good group table takes effect and a
bad one is asked for again; a FAIL record abandons the step; a table is sent again on request. -/
def Obligations.GroupReportsAndTables : Prop :=
  ∀ (s : State) (b : List Byte) (fit : List Nat) (t : Nat), cpUp s 3 = true →
    let noOwnJoin : Prop := ∀ a ∈ actionsT b, a.action = 2 → a.cause ≠ 0 ∧ a.member ≠ ownMember s
    let ownStage : Prop := ∀ d, s.domain? (headT b).domain = some d → ofOtherStage s d b = false
    (reportOk b = false → exec (.stepReport b fit t) s = .next (s.atTime t)) ∧
    (∀ g, reportOk b = true → s.group? (repDomain b) = some g →
      (g.isCoord = false ∨ ∃ p m, g.memberAt p = some m ∧ p ≠ repPos b ∧ ∀ r ∈ g.reports, r.1 ≠ p) →
      ∃ u, exec (.stepReport b fit t) s = .next u ∧ u.sent = s.sent ∧ u.dram = s.dram ∧ u.group? (repDomain b) =
        some { g with reports := g.reports.filter (fun r => r.1 != repPos b && repStep r.2 == repStep b) ++ [(repPos b, b)] }) ∧
    (∀ g, tableOk b = true → (headT b).typ = 2 → ownStage → s.group? (headT b).domain = some g → (headT b).compare = false → noOwnJoin →
      (∀ n, g.tableStep = some n → n < (headT b).step) → g.state ≠ .joined →
      let held := (entriesT b).zipIdx.filter (fun e => (g.memberAt e.2).isSome)
      let major := ((held.find? (fun e => some e.1.key == majorityKey (held.map (·.1)))).map (·.2)).getD 0
      ∃ u, exec (.groupTable b t) s = .next u ∧ u.dram = s.dram ∧ u.sent = s.sent ∧ u.group? (headT b).domain = some { g with
        table := b, tableStep := some (headT b).step, median := (headT b).median, reports := [], compareNext := false
        lateRuns := (entriesT b).zipIdx.map (fun e => (e.2, e.1.run))
        agreedStep := if (headT b).agreed = 0xFFFFFFFFFFFFFFFF then none else some (headT b).agreed
        stopDue := g.stopDue || (headT b).split, extra := if g.isCoord then [] else g.extra
        actions := g.actions ++ (actionsT b).map (fun a => ((headT b).step + 2, if a.action = 3 then { a with arg := major } else a)) }) ∧
    (∀ g m, tableOk b = false → s.group? (bits (field b 4 4) 18 0) = some g → g.memberAt g.coord = some m →
      exec (.groupTable b t) s = .next ((s.atTime t).send (.control m msgTableAsk (toLe 4 (bits (field b 4 4) 18 0)))) ∧
      exec (.failRecord b t) s = .next ((s.atTime t).send (.control m msgTableAsk (toLe 4 (bits (field b 4 4) 18 0))))) ∧
    (∀ d g r, tableOk b = true → (headT b).typ = 3 → ownStage → s.domain? (headT b).domain = some d → d.group = some g → noOwnJoin →
      d.run = some r → (headT b).step ≤ r.step → d.lastStep ≠ some (headT b).step → (∀ q, s.queue? d.queue = some q → q.unit = none) →
      (∀ o ∈ s.cru, dDomain o.words ≠ (headT b).domain) →
      let dropped (id n : Nat) : Bool := id == (headT b).domain && decide ((headT b).step ≤ n)
      ∃ u fs, exec (.failRecord b t) s = .next u ∧ u.cru = s.cru ∧
        u.commitQ = s.commitQ.filter (fun q => !(q.kind == 0 && dropped q.domain q.step)) ∧
        u.cruQ = s.cruQ.filter (fun x =>
          !dropped (dDomain (wordsAt (Memory.readN s.dram x 128) 16)) (dStep (wordsAt (Memory.readN s.dram x 128) 16))) ∧
        u.dram = d.cullets.foldl (fun m c => Memory.clear m c.1 (c.1 + 2 * c.2)) s.dram ∧
        u.domain? (headT b).domain = some { d with
          run := none, gathered := false, freshSides := fs, rootsDue := [], zeroCul := d.cullets.isEmpty, group := some { g with
          actions := g.actions ++ (actionsT b).map (fun a => ((headT b).step, a))
          failed := g.failed ++ ((actionsT b).filter (·.action == 1)).map (·.position) } }) ∧
    (∀ (id : BitVec 19) (p : Fin 4096) g m, s.group? id.toNat = some g → g.table ≠ [] → g.memberAt p.val = some m →
      exec (.tableRerequest id p t) s = .next ((s.atTime t).send (.control m msgTable g.table)))

/-- Spec 09 R378, R380, R393: heartbeats go out and are noted, a silent or failing member is failed by the coordinator, and a held
group without a spare stops when too few members would be left. -/
def Obligations.HeartbeatsAndFailures : Prop :=
  ∀ (s : State) (id : BitVec 19) (g : Group) (t : Nat) (p q : Fin 4096) (fit : List Nat),
    cpUp s 3 = true → s.group? id.toNat = some g →
    let beat : Nat × List Byte := (msgHeartbeat, toLe 4 id.toNat)
    (∀ m, 2 ≤ g.size → g.state = .member → g.isCoord = false → g.memberAt g.coord = some m →
      exec (.heartbeatSend id t) s = .next ((s.atTime t).send (.control m beat.1 beat.2))) ∧
    (2 ≤ g.size → g.state = .member → g.isCoord = true → ∃ u, exec (.heartbeatSend id t) s = .next u ∧
      u.sent = s.sent ++ (g.live.filter (· != g.position)).map (fun p => .control ((g.memberAt p).getD 0) beat.1 beat.2) ∧
      u.domains = s.domains) ∧
    (∃ u, exec (.heartbeat id p t) s = .next u ∧ u.sent = s.sent ∧ u.group? id.toNat = some (
      if g.failed.contains p.val ∨ g.beats.any (fun b => b.1 == p.val && decide (b.2 + 1000000 * g.params.hbExpiry < t)) then
        { g with lateBeats := g.lateBeats + 1 }
      else { g with beats := g.beats.filter (fun b => b.1 != p.val) ++ [(p.val, t)] })) ∧
    (∀ x at_, g.beats.find? (·.1 == p.val) = some (x, at_) →
      (t < at_ + 1000000 * g.params.hbExpiry → exec (.heartbeatExpiry id p t fit) s = .next s) ∧
      (at_ + 1000000 * g.params.hbExpiry ≤ t → g.failed.contains p.val = false → p.val ≠ g.position →
        let g' : Group := { g with failed := g.failed ++ [p.val] }
        let v := noteFit ((s.atTime t).modGroup id.toNat (fun _ => g')) id.toNat fit
        v.group? id.toNat = some g' ∧
          exec (.heartbeatExpiry id p t fit) s = .next (if g'.isCoord then failMembers v id.toNat [p.val] 1 else v))) ∧
    (let v := noteFit (s.atTime t) id.toNat fit;
      exec (.memberStop id p t fit) s = .next (if g.isCoord then failMembers v id.toNat [p.val] 8 else v) ∧
      exec (.linkFailureReport id p q t fit) s = .next (if g.isCoord then failMembers v id.toNat [max p.val q.val] 2 else v)) ∧
    (∀ h v vs, g.heldSince = some h → g.vacant = v :: vs →
      (t < h + 1000000 * g.params.spareWait → exec (.spareWaitExpiry id t) s = .next s) ∧
      (h + 1000000 * g.params.spareWait ≤ t →
        (g.size - 1 < g.params.minMembers →
          ∃ u, exec (.spareWaitExpiry id t) s = .next u ∧ (u.group? id.toNat).map (·.state) = some .stopped ∧ u.dram = s.dram) ∧
        (g.params.minMembers ≤ g.size - 1 → exec (.spareWaitExpiry id t) s = .next (if g.isCoord then
          issueFail (s.atTime t) id.toNat [{ action := 5, cause := 0, position := v, member := 0, arg := 0 }] else s.atTime t))))

/-- Spec 09 R388, R391, R394: a source serves a clone under a read pin; a leaf that arrives is written, and wanted no more once its
digest agrees; the coordinator has a cloned spare join; the agreed copy takes what its pin holds. -/
def Obligations.ClonesAndAgreedCopies : Prop :=
  ∀ (s : State) (id : BitVec 19) (t : Nat) (d : Domain), s.domain? id.toNat = some d →
    (∀ (m : Fin 4096) (ask : CloneAsk), ask ≠ .done → d.pins.contains (.cloneSource m.val) = false →
      d.pinWait.contains (.cloneSource m.val) = false → ∃ u, exec (.cloneFetchRequest id m ask t) s = .next u ∧ u.sent = s.sent ∧
        u.domain? id.toNat = some (if committing s id.toNat then { d with pinWait := d.pinWait ++ [.cloneSource m.val] }
          else { d with pins := d.pins ++ [.cloneSource m.val] })) ∧
    (∀ m : Fin 4096, d.pins.contains (.cloneSource m.val) = true →
      (d.lastStep.isSome = true → exec (.cloneFetchRequest id m .record t) s = .next ((s.atTime t).send (.bulk m.val 0 d.record))) ∧
      (∀ l f n, exec (.cloneFetchRequest id m (.digests l f n) t) s = .next ((s.atTime t).send
        (.bulk m.val 1 ((((treeLevel l (d.leaves d.committed)).drop f).take n).flatMap (toLe 8))))) ∧
      (∃ u, exec (.cloneFetchRequest id m .done t) s = .next u ∧
        u.domain? id.toNat = some { d with pins := eraseOne (.cloneSource m.val) d.pins })) ∧
    (∀ g c src k data, d.group = some g → g.clone = some c → c.wanted.contains k = true → data.length ≤ 65536 →
      c.sources.contains src = true →
      let secs := cloneSecs s d c.record
      let leaf := readLeaf (normFp (writeLeaf s.dram secs k data) (cloneFp s d c.record)) secs k
      ∃ u c', exec (.cloneLeafArrival id (.leaf src k data) t) s = .next u ∧
        u.dram = writeLeaf s.dram secs k leaf ∧ u.group? id.toNat = some { g with clone := some c' } ∧
        (crc64 leaf = c.digest k → (∃ j ∈ c.wanted, j ≠ k) → c' = { c with wanted := c.wanted.filter (· != k) }) ∧
        (crc64 leaf ≠ c.digest k → c'.wanted = c.wanted ∧ src ∈ c'.bad.map (·.1))) ∧
    (∀ g (p m : Fin 4096), cpUp s 3 = true → d.group = some g → g.isCoord = true → g.vacant = [] →
      ∃ u, exec (.cloneDone id p m t) s = .next u ∧ u.group? id.toNat = some { g with
        extra := g.extra ++ [{ action := 2, cause := 0, position := p.val, member := m.val, arg := g.live.headD 0 }]
        compareNext := true }) ∧
    (d.copying = true → d.pins.contains .agreedCopy = true → ∃ u, exec (.agreedCopyDone id t) s = .next u ∧ u.dram = s.dram ∧
      u.domain? id.toNat = some { d with
        copying := false, pins := eraseOne .agreedCopy d.pins
        agreed := some ⟨agreedHeader d.record, d.record, d.leaves d.committed, (leafSections s d d.committed).flatMap (fun sec =>
          sec.map (fun r => (r.1, Memory.readN s.dram r.1 r.2)))⟩ })

/-- Spec 09 R396 to R404, Table 9.15: GO takes a pin and starts an export that has something to export and fits its buffer; it ends
with the container in the buffer, or on its way to a peer; ABORT and the expiry of its pin end it FAILED. -/
def Obligations.ExportEngine : Prop :=
  ∀ (s : State) (a : Actor) (t : Nat) (d : Domain),
    let id := s.getF Reg.EXPORT_REQ_DOMAIN 0 0
    let c := container s d (s.flag Reg.EXPORT_REQ_KIND 0 0) (exportList s)
    let base := s.getF Reg.EXPORT_BUF_BASE 0 0
    let st (u : State) : Nat := u.getF Reg.EXPORT_STATE 0 0
    let free (u : State) : Prop := u.getF Reg.EXPORT_PIN_HELD 0 0 = 0 ∧
      (u.domain? id).map (·.pins) = some (eraseOne .exportEngine d.pins)
    s.domain? id = some d →
    (reaches s a = true → pageTakes s a 14 0 = true → s.getF (Hdr.ENABLE 14) 0 0 ≠ 0 → st s ≠ 1 → st s ≠ 2 →
      ∃ u, exec (.exportGo a t) s = .next u ∧ u.dram = s.dram ∧ u.getF Reg.EXPORT_BYTES_DONE 0 0 = 0 ∧
        (if d.lastStep = none ∨ 65536 * s.getF Reg.EXPORT_BUF_LIMIT 0 0 < c.length then st u = 4 ∧ u.domains = s.domains
         else st u = 1 ∧ if committing s id then
            u.getF Reg.EXPORT_PIN_HELD 0 0 = 0 ∧ (u.domain? id).map (·.pinWait) = some (d.pinWait ++ [.exportEngine])
          else u.getF Reg.EXPORT_PIN_HELD 0 0 = 1 ∧ (u.domain? id).map (·.pins) = some (d.pins ++ [.exportEngine]) ∧
            u.exportJob = some { pinAt := some (max s.now t), step := recStep d.record })) ∧
    (reaches s a = true → pageTakes s a 14 0 = true → (st s = 1 ∨ st s = 2) → d.pins.contains .exportEngine = true →
      ∃ u, exec (.exportAbort a t) s = .next u ∧ st u = 4 ∧ free u ∧ u.exportJob = none ∧ u.dram = s.dram) ∧
    (∀ p step, st s = 1 → s.getF (Hdr.FREEZE 14) 0 0 ≠ 1 → s.exportJob = some { pinAt := some p, step := step } → s.dramUe = [] →
      t ≤ p + 1000000 * s.getF Reg.EXPORT_PIN_LIMIT 0 0 →
      base + c.length ≤ dramSize s → d.pins.contains .exportEngine = true →
      ∃ u, exec (.exportDone t) s = .next u ∧ u.dram = Memory.writeL s.dram base c ∧ free u ∧
        u.getF Reg.EXPORT_BYTES_DONE 0 0 = c.length % 2 ^ 64 ∧ bit (u.getF (Hdr.INT_STATUS 14 0) 0 0) 1 = true ∧
        u.getF Reg.EXPORT_EXPORTS 0 0 = min (s.getF Reg.EXPORT_EXPORTS 0 0 + 1) (2 ^ Reg.EXPORT_EXPORTS.width - 1) ∧
        (if s.flag Reg.EXPORT_TARGET 0 0 then st u = 2 ∧ .bulk (s.getF Reg.EXPORT_PEER_MEMBER 0 0) 4 c ∈ u.sent
         else st u = 3 ∧ u.exportJob = none)) ∧
    (st s = 2 → ∃ u, exec (.peerDone t) s = .next u ∧ st u = 3 ∧ u.exportJob = none ∧
      bit (u.getF (Hdr.INT_STATUS 14 0) 0 0) 3 = true ∧ u.dram = s.dram ∧ u.domains = s.domains) ∧
    (∀ p step, st s = 1 → s.exportJob = some { pinAt := some p, step := step } →
      (t < p + 1000000 * s.getF Reg.EXPORT_PIN_LIMIT 0 0 → exec (.pinExpired t) s = .next s) ∧
      (p + 1000000 * s.getF Reg.EXPORT_PIN_LIMIT 0 0 ≤ t → d.pins.contains .exportEngine = true →
        ∃ u, exec (.pinExpired t) s = .next u ∧ st u = 4 ∧ free u ∧ u.exportJob = none ∧ u.dram = s.dram ∧
          bit (u.getF (Hdr.INT_STATUS 14 0) 0 0) 2 = true ∧ u.getF Reg.EXPORT_PIN_EXPIRIES 0 0 =
            min (s.getF Reg.EXPORT_PIN_EXPIRIES 0 0 + 1) (2 ^ Reg.EXPORT_PIN_EXPIRIES.width - 1)))

/-! Host ports, Kamduelm ports, membership, time base, device DRAM. -/

/-- Spec 10 R406 to R412, 14 R542: a host link that trains makes its port ACTIVE or STANDBY; a lost link, the end of HA's 2 s,
FAILOVER_REQ and FAILOVER_DELAY move the roles as Table 10.2 says; the window is read, its writes are dropped and counted, a snoop
is answered. -/
def Obligations.HostPortsAndWindow : Prop :=
  ∀ (s : State) (p : Fin 2) (t : Nat),
    let q := otherPort p
    let role (u : State) (r : Fin 2) : Nat := u.getF Reg.HP_ROLE r 0
    let counts (f : Fld) (u : State) (r : Fin 2) : Prop := u.getF f r 0 = min (s.getF f r 0 + 1) (2 ^ 32 - 1)
    let soon : Prop := ∀ r d, (s.hostLink r).downSince = some d → t ≤ d + 10000000
    (∀ gt64 x8, s.power.haFrom = none → s.getF (Hdr.ENABLE 10) p 0 ≠ 0 → role s p ≠ 2 → soon →
      ∃ u, exec (.hostLinkUp p gt64 x8 true t) s = .next u ∧ u.hostLink p = { trained := true, downSince := none } ∧
        u.getF Reg.HP_RATE p 0 = 1 + b2n gt64 ∧ u.getF Reg.HP_WIDTH p 0 = 1 + b2n x8 ∧ u.now = max s.now t ∧
        role u p = (if role s q = 2 then 1 else 2)) ∧
    (∀ gt64 x8, s.power.haFrom = none → s.getF (Hdr.ENABLE 10) p 0 ≠ 0 → bit (s.getF (Hdr.INT_STATUS 10 0) p 0) 0 = false → soon →
      ∃ u, exec (.hostLinkUp p gt64 x8 false t) s = .next u ∧ u.getF (Hdr.ERR_CODE 10 0) p 0 = 0x0421 ∧ u.hostLinks = s.hostLinks ∧
        role u p = role s p) ∧
    ((s.hostLink p).trained = true → ∃ u, exec (.hostLinkDown p t) s = .next u ∧ u.getF Reg.HP_RATE p 0 = 0 ∧
      u.getF Reg.HP_WIDTH p 0 = 0 ∧ counts Reg.HP_LINK_DOWNS u p ∧ role u p = (if role s p = 2 then 2 else 0) ∧
      u.hostLink p = { trained := false, downSince := if role s p = 2 then some t else none } ∧ role u q = role s q) ∧
    (∀ r, s.power.haFrom = some r →
      (t < r + 2000000000 → exec (.haTrainingTimeout t) s = .next s) ∧
      (r + 2000000000 ≤ t → role s 0 ≠ 2 → role s 1 ≠ 2 → (s.hostLink 0).trained = false →
        ∃ u, exec (.haTrainingTimeout t) s = .next u ∧ u.power.haFrom = none ∧
          role u 1 = (if (s.hostLink 1).trained then 2 else role s 1) ∧ role u 0 = role s 0)) ∧
    (role s p = 1 → role s q = 2 → ∃ u, exec (.failoverReq p t) s = .next u ∧ role u p = 2 ∧
      role u q = (if (s.hostLink q).trained then 1 else 0) ∧ counts Reg.HP_FAILOVERS u p ∧
      (bit (s.getF (Hdr.INT_STATUS 10 0) p 0) 0 = false → u.getF (Hdr.ERR_CODE 10 0) p 0 = 0x0422)) ∧
    (∀ d, role s 0 = 2 → (s.hostLink 0).downSince = some d →
      let ms := (fun f => if f < 10 ∨ 10000 < f then 100 else f) (s.getF Reg.HP_FAILOVER_DELAY 0 0)
      (t < d + 1000000 * ms → exec (.failoverDelayExpiry t) s = .next s) ∧
      (∀ gt64 x8, d + 1000000 * ms < t → role s 1 = 1 → s.power.haFrom = none → s.getF (Hdr.ENABLE 10) 0 0 ≠ 0 →
        ∃ u, exec (.hostLinkUp 0 gt64 x8 true t) s = .next u ∧ role u 1 = 2 ∧ role u 0 = 1) ∧
      (d + 1000000 * ms ≤ t → role s 1 = 1 → ∃ u, exec (.failoverDelayExpiry t) s = .next u ∧ role u 1 = 2 ∧
        role u 0 = (if (s.hostLink 0).trained then 1 else 0) ∧ counts Reg.HP_FAILOVERS u 1)) ∧
    (∀ base size o n, s.power.hdm = some (base, size) → s.dramUe = [] → s.dramCe = [] → base + size ≤ dramSize s →
      let r : Reply := if role s p = 2 ∧ o % 64 = 0 ∧ o + 64 * n ≤ size then ⟨Memory.readN s.dram (base + o) (64 * n), 0⟩ else ⟨[], 1⟩
      exec (.windowRead p o n) s = .next { s with reply := r }) ∧
    (role s p = 2 → s.power.hdm.isSome = true → ∃ u, exec (.windowWrite p) s = .next u ∧ counts Reg.HP_WINDOW_WRITE_DROPS u p ∧
      u.dram = s.dram ∧ u.reply = ⟨[], 0⟩) ∧
    exec (.h2dSnoop p) s = .next (if role s p = 2 then s.send (.rspIHitI p) else s)

/-- Spec 10 R419, R423 to R426, Table 10.5: a locked port identifies itself; a port that does not train or attest in time, or meets
too many uncorrectable codewords, fails and trains again after its backoff, which doubles up to 64 s; unacknowledged frames are
replayed. -/
def Obligations.PortsTrainAndFail : Prop :=
  ∀ (s : State) (p : Fin 8) (t : Nat),
    let x := s.port p
    let clear : Prop := bit (s.getF (Hdr.INT_STATUS 4 0) p 0) 0 = false
    let failed (u : State) (code : Nat) : Prop := portState u p = 5 ∧ (u.port p).since = max s.now t ∧ (u.port p).replay = [] ∧
      (u.port p).waiting = [] ∧ (u.port p).backoff = (if x.backoff = 0 then 1 else min 64 (2 * x.backoff)) ∧
      (clear → u.getF (Hdr.ERR_CODE 4 0) p 0 = code) ∧ ∀ r, r ≠ p → u.port r = s.port r
    (portState s p = 1 → t ≤ x.since + 500000000 → s.power.cages[p] = true → x.waiting = [] → x.replay = [] →
      ∃ u d, exec (.linkLock p t) s = .next u ∧ portState u p = 2 ∧ (u.port p).since = max s.now t ∧
        (u.port p).identSent = identBytes s p ∧ u.free = s.free + 1 ∧ u.sent = s.sent ++ [.frame p d] ∧
        (u.port p).txSeq = (x.txSeq + 1) % 65536) ∧
    (portState s p = 1 → (x.since + 500000000 < t ∨ s.power.cages[p] = false) → exec (.linkLock p t) s = .next s) ∧
    (portState s p = 1 → (t < x.since + 500000000 → exec (.portTrainingTimeout p t) s = .next s) ∧
      (x.since + 500000000 ≤ t → ∃ u, exec (.portTrainingTimeout p t) s = .next u ∧ failed u 0x0401)) ∧
    (portState s p = 3 → (t < x.since + 2000000000 → exec (.attestTimeout p t) s = .next s) ∧
      (x.since + 2000000000 ≤ t → ∃ u, exec (.attestTimeout p t) s = .next u ∧ failed u 0x0407)) ∧
    (portState s p = 5 → (t < x.since + 1000000000 * x.backoff → exec (.portBackoffExpiry p t) s = .next s) ∧
      (x.since + 1000000000 * x.backoff ≤ t → ∃ u, exec (.portBackoffExpiry p t) s = .next u ∧ portState u p = 1 ∧
        (u.port p).since = max s.now t ∧ ∀ r, r ≠ p → u.port r = s.port r)) ∧
    (∀ n, n = (x.badAt.filter (fun u => decide (t < u + 1000000))).length + 1 →
      (n ≤ 16 → ∃ u, exec (.fecUncorrectable p t) s = .next u ∧ portState u p = portState s p ∧
        u.getF Reg.KML_FEC_UNCORRECTABLE p 0 = min (s.getF Reg.KML_FEC_UNCORRECTABLE p 0 + 1) (2 ^ 32 - 1)) ∧
      (16 < n → 1 ≤ portState s p → portState s p ≤ 3 → ∃ u, exec (.fecUncorrectable p t) s = .next u ∧ failed u 0x0409)) ∧
    (∀ f fs, x.replay = f :: fs → x.ackAt + 4000 ≤ t → 2 ≤ portState s p → portState s p ≤ 4 →
      (if x.lastReplay = some f.fseq then x.replays + 1 else 1) < 8 → ∃ u, exec (.replayTimeout p t) s = .next u ∧ u.sent = s.sent ++ x.replay.map (fun g => .frame p g.data) ∧
        u.port p = { x with lastReplay := some f.fseq, replays := if x.lastReplay = some f.fseq then x.replays + 1 else 1, ackAt := max s.now t } ∧
        u.getF Reg.KML_FRAMES_REPLAYED p 0 = min (s.getF Reg.KML_FRAMES_REPLAYED p 0 + x.replay.length) (2 ^ 32 - 1)) ∧
    (∀ f fs, x.replay = f :: fs → t < x.ackAt + 4000 → exec (.replayTimeout p t) s = .next s)

/-- Spec 10 R415 to R419: a good frame in order is taken and acknowledged with its credits; one that was taken before is only
acknowledged again; one with a bad check or beyond the next is answered by one NAK; an ill-formed one is counted. Frames that
acknowledge, return credits or ask for a replay are left to the other statements. A replay that is due comes first. -/
def Obligations.FramesAreReceived : Prop :=
  ∀ (s : State) (f : RxFrame),
    let p := f.port
    let h := frameHead f.bytes
    let x := s.port p
    let s1 := s.atTime f.time
    let nak (v : State) (dst : Nat) : State :=
      if x.nakSent then v else sendAck (v.modPort p (fun x => { x with nakSent := true })) p dst true 0 0 0
    h.tc = 7 → s.getF (Hdr.ENABLE 4) p 0 ≠ 0 → 2 ≤ portState s p → portState s p ≤ 4 → (x.replay = [] ∨ f.time ≤ x.ackAt + 4000) →
    (frameFormatOk f.bytes = false → exec (.ack f) s = .next (nak (s1.countF Reg.KML_FORMAT_DROPS p 0 1) (linkPeer s p))) ∧
    (frameFormatOk f.bytes = true → (frameCrcOk f.bytes = false ∨ f.fecBad = true) → exec (.ack f) s = .next (nak s1 h.src)) ∧
    (frameFormatOk f.bytes = true → frameCrcOk f.bytes = true → f.fecBad = false → h.nak = false → x.waiting = [] → x.replays < 8 →
      h.credLines = 0 →
      (∀ a, h.ltype = 0 → h.ack = some a → ∃ u, exec (.ack f) s = .next u ∧ u.sent = s.sent ∧
        (u.port p).replay = x.replay.filter (fun g => decide ((a + 65536 - g.fseq) % 65536 ≥ 32768))) ∧
      (h.ltype ≠ 0 → h.ack = none →
        (h.fseq = x.rxSeq → x.rxSeq < 65536 → exec (.ack f) s = .next
          (sendAck (s1.setPort p { x with rxSeq := (x.rxSeq + 1) % 65536, nakSent := false }) p h.src false 7 h.vl 0)) ∧
        (32768 ≤ (h.fseq + 65536 - x.rxSeq) % 65536 → exec (.ack f) s = .next (sendAck s1 p h.src false 0 0 0)) ∧
        (0 < (h.fseq + 65536 - x.rxSeq) % 65536 → (h.fseq + 65536 - x.rxSeq) % 65536 < 32768 →
          exec (.ack f) s = .next (nak s1 h.src))))

/-- Spec 10 R415, R420 to R422, R425, R426, R429: what a frame that its port takes does, by class. `v` is the state once its port
has taken it. IDENT and ATTEST take the port on to ATTESTING and UP, or fail it; CONTROL, DOOR, REDUCTION and BULK frames reach
their engines, a chunk only from its channel's port and member (log entry 122); a frame for another device goes on by its route, on VL 1
once it has crossed a wrap link, and on VL 0 again when it turns into y. -/
def Obligations.FramesTakeEffect : Prop :=
  ∀ (s v : State) (f : RxFrame) (h : FrameHead), receive s f = (v, some h) →
    let p := f.port
    let d := framePayload f.bytes
    let own : Prop := h.dst = ownMember v
    let m := field d 8 2
    let w := (((v.setF Reg.KML_PEER_MEMBER p 0 m).setF Reg.KML_PEER_PORT p 0 (field d 10 1)).setF Reg.KML_PEER_SERIAL p 0
      (field d 0 8)).setF Reg.KML_PEER_BOOT_COUNT p 0 (field d 12 4)
    (h.tc = 7 → h.ltype = 1 → own → portState v p = 2 →
      (∀ c, identCheck w p d = some c → exec (.ident f) s = .next (portFail w p c)) ∧
      (identCheck w p d = none → ∃ u, exec (.ident f) s = .next u ∧ portState u p = 3 ∧ (u.port p).identGot = d ∧
        u.getF Reg.KML_PEER_MEMBER p 0 = m % 4096 ∧ u.getF Reg.KML_PEER_SERIAL p 0 = field d 0 8)) ∧
    (h.tc = 7 → h.ltype = 2 → own → portState v p = 3 →
      ((v.port p).since + 2000000000 < f.time → exec (.attestFrame f) s = .next (portFail v p 0x0407)) ∧
      (f.time ≤ (v.port p).since + 2000000000 → attestOk v (v.port p) d = false →
        exec (.attestFrame f) s = .next (portFail v p 0x0406)) ∧
      (f.time ≤ (v.port p).since + 2000000000 → attestOk v (v.port p) d = true → ∃ u, exec (.attestFrame f) s = .next u ∧ portState u p = 4 ∧
        u.getF Reg.KML_UP_COUNT p 0 = min (v.getF Reg.KML_UP_COUNT p 0 + 1) (2 ^ 32 - 1) ∧
        ∃ y ∈ u.peers, y.member = field (v.port p).identGot 8 2 ∧ y.state = .attested)) ∧
    (h.tc = 0 → own → ∀ stamp, exec (.timebaseFrame f stamp) s = .next { v with timeSt := { v.timeSt with
      stamps := v.timeSt.stamps.filter (fun x => x.1 != p.val) ++ [(p.val, stamp)] } }) ∧
    (∀ told fit, h.tc = 1 → own →
      (field d 0 2 = 0x9E51 → bits (field d 2 2) 3 0 = 1 →
        exec (.controlFrame f told fit) s = .next (reportArrives v (d.take 128) fit f.time)) ∧
      (field d 0 2 ≠ 0x9E51 → exec (.controlFrame f told fit) s = .next (match told with
        | some (.timeout id k) => reportTimeout (noteFit v id fit) id k
        | some (.fault id k) => failMembers (noteFit v id fit) id [k] 4
        | none => { v with inbox := v.inbox ++ [(h.src, d)] }))) ∧
    (∀ (l : Fin 112) dr msg i cyc, h.tc = 2 → own → v.physical l.val = some i →
      exec (.doorFrame f (.message l dr msg) cyc) s = .next (messageArrival v i dr (.remote msg) f.time cyc)) ∧
    (∀ (l : Fin 112) mb rt rd n i cyc, h.tc = 2 → own → v.physical l.val = some i →
      exec (.doorFrame f (.credits l mb rt rd n) cyc) s = .next (creditReturn v i (.remote mb rt rd n) cyc)) ∧
    (h.tc = 3 → own → exec (.reductionFrame f) s =
      .next (if chunkFrom v p h.src d then chunkArrives v (headOf d).chan d f.time else v)) ∧
    (h.tc = 4 → own → exec (.bulkFrame f) s = .next { v with inbox := v.inbox ++ [(h.src, d)] }) ∧
    (h.tc = 4 → ¬own →
      (v.routes.find? (fun r => r.member == h.dst) = none ∨ h.ttl = 0 →
        exec (.bulkFrame f) s = .next (v.countF Reg.KML_ROUTE_DROPS p 0 1)) ∧
      (∀ (q : Fin 8) r, v.routes.find? (fun r => r.member == h.dst) = some r → r.port = q.val → h.ttl ≠ 0 → portState v q = 4 →
        let sent : FrameHead := { h with
          vl := if portDim v.torusFabric p = 0 ∧ portDim v.torusFabric r.port = 1 then r.vl % 2 else max h.vl (r.vl % 2)
          ttl := h.ttl - 1, ack := none, nak := false, credTc := 0, credVl := 0, credLines := 0 }
        exec (.bulkFrame f) s = .next (sendFrame v q sent d)))

/-- Spec 10 R421, R427, R429 to R431, Table 10.8: membership messages are kept, and a new BOOT_COUNT makes a device UNKNOWN; a time base
exchange names the parent and may step device time forward once; a device without a parent for 1 s reports it. In a fabric of two dimensions a
route to a member of the plan leaves along x first, by ports 0 to 3, and along y, by ports 4 to 7, only where x agrees; it takes VL 1 where its
hop crosses a wrap link. The model takes the shorter way round (log entry 121). -/
def Obligations.MembershipAndTimeBase : Prop :=
  (∀ (s : State) (t : Nat),
    (∀ (m : Fin 4096) (st : Fin 8) boot serial runtime fit, cpUp s 3 = true → m.val ≠ ownMember s →
      let known := s.peers.find? (·.member == m.val)
      let y (st : MemberState) (fit : List Nat) : Peer := ⟨m.val, st, boot, serial, runtime, fit⟩
      (memberStateOf st.val = none → exec (.membership m st boot serial runtime t fit) s = .next (s.atTime t)) ∧
      (∀ ms, memberStateOf st.val = some ms → known.all (·.boot == boot) = true → ∃ u, exec (.membership m st boot serial runtime t fit) s = .next u ∧
        u.peers = s.peers.filter (fun x => decide (x.member < m.val)) ++ [y ms ((known.map (·.fit)).getD [])] ++
          s.peers.filter (fun x => decide (m.val < x.member)) ∧ u.domains = s.domains) ∧
      (∀ ms, memberStateOf st.val = some ms → known.all (·.boot == boot) = false → exec (.membership m st boot serial runtime t fit) s =
        .next (peerLost (setPeer (s.atTime t) (y .unknown [])) m.val fit))) ∧
    (∀ (p : Fin 8) (hops gm t1 t2 t3 t4 : Nat), gm < 4096 → portUp s p = true → gm = grandmaster s →
      let off : Int := max (-(2 ^ 31 : Int)) (min (2 ^ 31 - 1) ((((t2 : Int) - t1) - ((t4 : Int) - t3)) / 2))
      ∃ u, exec (.timebaseExchange (some (p, hops, gm)) t1 t2 t3 t4 t) s = .next u ∧ u.getF Reg.TB_PARENT_VALID 0 0 = 1 ∧
        u.getF Reg.TB_PARENT_PORT 0 0 = p.val ∧ u.getF Reg.TB_HOPS 0 0 = min 64 hops ∧ u.getF Reg.TB_GM_MEMBER 0 0 = gm ∧
        u.getF Reg.TB_SYNC_STATE 0 0 = 1 ∧ u.timeSt.synced = true ∧ u.timeSt.parentLostAt = none ∧ u.tiles = s.tiles ∧
        u.now = max s.now t + (if s.timeSt.synced = false ∧ s.tiles.toList.any Tile.active = false ∧ 16 ≤ off then (off / 16).toNat else 0)) ∧
    (∀ par t1 t2 t3 t4, (List.finRange 8).any (portUp s) = false → s.getF Reg.TB_SYNC_STATE 0 0 ≠ 3 →
      ∃ u, exec (.timebaseExchange par t1 t2 t3 t4 t) s = .next u ∧ u.getF Reg.TB_PARENT_VALID 0 0 = 0 ∧
        u.getF Reg.TB_SYNC_STATE 0 0 = 2 ∧ u.timeSt.parentLostAt = some (s.timeSt.parentLostAt.getD t) ∧ u.now = max s.now t) ∧
    (∀ l, s.timeSt.parentLostAt = some l → s.getF Reg.TB_SYNC_STATE 0 0 ≠ 3 →
      (t < l + 1000000000 → exec (.timeUnsync t) s = .next s) ∧
      (l + 1000000000 ≤ t → ∃ u, exec (.timeUnsync t) s = .next u ∧ u.getF Reg.TB_SYNC_STATE 0 0 = 3 ∧ u.now = max s.now t ∧
        (bit (s.getF (Hdr.INT_STATUS 12 0) 0 0) 0 = false → u.getF (Hdr.ERR_CODE 12 0) 0 0 = 0x040A)))) ∧
  (∀ (s : State) (g : Group) (q : Nat) (r : Route), s.torusFabric = true → g.plan.torus = true → 0 < g.plan.x → planRoute s g q = some r →
    let x := g.plan.x
    let own := g.position
    let wraps (n a : Nat) (up : Prop) : Prop := (up ∧ a + 1 = n) ∨ (¬up ∧ a = 0)
    g.memberAt q = some r.member ∧ (∃ p : Fin 8, r.port = p.val ∧ portState s p = 4) ∧
    (own % x ≠ q % x → r.port < 4 ∧ (r.vl = 1 ↔ wraps x (own % x) (r.port < 2)) ∧ r.vl ≤ 1) ∧
    (own % x = q % x → 4 ≤ r.port ∧ (r.vl = 1 ↔ wraps (g.size / x) (own / x) (r.port < 6)) ∧ r.vl ≤ 1))

/-- Spec 10 R433, R434, R438, R439; 12 R506: an access beyond the channels in service has no place; a read answers the bytes, or an
error for an uncorrectable line; a write stores exactly its bytes; patrol scrub goes through a channel line by line; a DIMM is hot
above 95 °C until it is at 90 °C or below. -/
def Obligations.DeviceDram : Prop :=
  ∀ (s : State) (a n : Nat) (data : List Byte) (ch : Fin 24) (t : Nat),
    let calm : Prop := ∀ c : Fin 24, s.dimms[c].pmic = false
    (∀ hits, dramSize s < a + n → exec (.dramRead a n hits) s = .fault .noSuchDram) ∧
    (∀ hits, dramSize s < a + data.length → exec (.dramWrite a data hits) s = .fault .noSuchDram) ∧
    (a + n ≤ dramSize s → calm → (∀ l ∈ dramLines a n, l ∉ s.dramUe) → ∃ u, exec (.dramRead a n []) s = .next u ∧
      u.reply = ⟨Memory.readN s.dram a n, 0⟩ ∧ u.dram = s.dram ∧ ∀ l ∈ dramLines a n, l ∉ u.dramCe) ∧
    (∀ l, a + n ≤ dramSize s → calm → l ∈ dramLines a n → l ∈ s.dramUe → ∃ u, exec (.dramRead a n []) s = .next u ∧
      u.reply = ⟨[], 0x0503⟩ ∧ u.dram = s.dram) ∧
    (a + data.length ≤ dramSize s → s.dramUe = [] → ∃ u, exec (.dramWrite a data []) s = .next u ∧ u.reply = ⟨[], 0⟩ ∧
      u.dram = Memory.writeL s.dram a data ∧ (∀ k, k < a ∨ a + data.length ≤ k → Memory.read u.dram k = Memory.read s.dram k) ∧
      ∀ k (h : k < data.length), Memory.read u.dram (a + k) = data[k]) ∧
    (calm → chanInService s ch = true → s.dramUe = [] → s.dimms[ch].patrolAt + 1 < chanLines →
      ∃ u, exec (.patrolScrub ch [] t) s = .next u ∧ u.dimms[ch].patrolAt = s.dimms[ch].patrolAt + 1 ∧ u.dram = s.dram ∧
        chanAddr s ch s.dimms[ch].patrolAt ∉ u.dramCe) ∧
    (∀ temp, chanInService s ch = true → ∃ u, exec (.dimmTemperatureRead ch temp t) s = .next u ∧ u.dram = s.dram ∧
      u.dimms[ch].hot = (if temp > 95 then true else if temp ≤ 90 then false else s.dimms[ch].hot) ∧
      (temp > 95 → s.dimms[ch].hot = false → bit (s.getF (Hdr.INT_STATUS 19 0) 0 0) 0 = false →
        u.getF (Hdr.ERR_CODE 19 0) 0 0 = 0x070C))

/-! The mailbox. -/

/-- Spec 11 R455 to R459: a host request enters the ring of 64; a full ring refuses it with code 0x0611; it waits while the mailbox is
not served or no response entry is free; VERSION, SEQ and the state are checked
in the order of Table 11.9; a repeated request gets the response kept for it.
An ignored request of a full ring is log entry 59. -/
def Obligations.MailboxChecks : Prop :=
  ∀ (s : State) (o : Nat × (MbxArgs → Instr)) (a : MbxArgs), o ∈ mailboxOps →
    let op := o.1
    let s1 := mbxTaken s a.time
    let r := mbxRequest op a
    let m := s.mbx
    let used := (m.reqTail + 2 ^ 32 - m.reqHead) % 2 ^ 32
    let lo := s.getF Reg.MBX_VER_MIN 0 0
    let hi := s.getF Reg.MBX_VER_MAX 0 0
    let due := s.getF Reg.MBX_EXPECTED_SEQ 0 0
    (hostActive s = false → exec (o.2 a) s = .next s) ∧
    (hostActive s = true → HostInTime s a.time → 64 ≤ used → exec (o.2 a) s = .next (fwError (hostWrite s a.time) 0x0611 ((m.reqTail + 1) % 2 ^ 32))) ∧
    (hostActive s = true → HostInTime s a.time → used < 64 → (mailboxServed s = false ∨ rspFree m = false) →
      exec (o.2 a) s = .next { hostWrite s a.time with
        mbx := { m with waiting := m.waiting ++ [r], reqTail := (m.reqTail + 1) % 2 ^ 32 } }) ∧
    (MbxTurn s a.time a.payload.length → op ≠ 1 → (a.version.toNat < lo ∨ hi < a.version.toNat) →
      exec (o.2 a) s = .next (mbxRefused op a { s := s1, status := 1, data := toLe 2 lo ++ toLe 2 hi })) ∧
    (MbxTurn s a.time a.payload.length → op ≠ 1 → lo ≤ a.version.toNat → a.version.toNat ≤ hi →
      (op ≠ 3 → a.seq.toNat ≠ due →
        (m.kept.find? (fun y => y.1 == a.seq.toNat) = none → exec (o.2 a) s = .next (mbxRefused op a (nack s1 3))) ∧
        (∀ n c y, m.kept.find? (fun y => y.1 == a.seq.toNat) = some (n, c, y) → exec (o.2 a) s = .next
          (if c = field r.bytes 28 4 then serveAll 64 (placeResponse s1 y (field y 12 2)) else mbxRefused op a (nack s1 4)))) ∧
      (opcodeAccepted (fwState s) op = false ∨ (lcState s = 3 ∧ op ≠ 0x02 ∧ op ≠ 0x61) →
        (op = 3 → exec (o.2 a) s = .next (mbxRefused op a (nackState s1))) ∧
        (op ≠ 3 → a.seq.toNat = due → exec (o.2 a) s = .next (mbxAnswered op a (nackState (mbxServing s a))))))

/-- Spec 11 R456 to R459, Table 11.8: a response carries the request's VERSION, OPCODE, SEQ and TAG, its length, STATUS and CHECK, and
the payload; it takes the next entry of the response ring, the request's entry is free, and vector 0 is signalled. The last 64
responses are kept. A request of an opcode that is not listed gets status 5, one with a bad CHECK or reserved field status 2. -/
def Obligations.MailboxResponses : Prop :=
  ∀ (op : Nat) (a : MbxArgs) (x : Answer), op < 65536 → a.payload.length ≤ 224 → x.data.length ≤ 224 → x.status < 65536 →
    let b := requestBytes op a
    let y := responseOf b x.status x.data
    let m := x.s.mbx
    let u := placeResponse (keepResponse x.s a.seq.toNat (field b 28 4) y) y x.status
    (field y 0 2 = a.version.toNat ∧ field y 2 2 = op ∧ field y 4 4 = a.seq.toNat ∧ field y 8 2 = x.data.length ∧ field y 10 2 = 1 ∧
      field y 12 2 = x.status ∧ field y 14 2 = 0 ∧ field y 16 8 = a.tag.toNat ∧ field y 28 4 = crc32c (y.take 28 ++ x.data) ∧ y.drop 32 = x.data) ∧
    u.mbx.rspTail = (m.rspTail + 1) % 2 ^ 32 ∧ u.mbx.reqHead = (m.reqHead + 1) % 2 ^ 32 ∧ u.mbx.waiting = m.waiting ∧
    (∀ z, (m.rspTail % 64, z) ∈ u.mbx.responses ↔ z = y) ∧
    (∀ k z, k ≠ m.rspTail % 64 → ((k, z) ∈ u.mbx.responses ↔ (k, z) ∈ m.responses)) ∧
    (a.seq.toNat, field b 28 4, y) ∈ u.mbx.kept ∧ u.mbx.kept.length ≤ 64 ∧ u.sent = x.s.sent ++ [.msix 0] ∧
    u.getF Reg.MBX_REQUESTS 0 0 = min (x.s.getF Reg.MBX_REQUESTS 0 0 + 1) (2 ^ 32 - 1) ∧
    u.getF Reg.MBX_NACKS 0 0 = (if 1 ≤ x.status ∧ x.status ≤ 10 then min (x.s.getF Reg.MBX_NACKS 0 0 + 1) (2 ^ 32 - 1) else x.s.getF Reg.MBX_NACKS 0 0) ∧
    u.dram = x.s.dram ∧ u.tiles = x.s.tiles ∧
    (∀ (s : State) (c dma : List Byte) (t : Nat), MbxTurn s t 0 →
      let s1 := mbxTaken s t
      let q := field c 4 4
      (formatOk c = false → exec (.unlistedOpcodeRequest c dma t) s = .next (serveAll 64 (placeResponse s1 (responseOf c 2 []) 2))) ∧
      (formatOk c = true → opcodeListed (field c 2 2) = false → s.getF Reg.MBX_VER_MIN 0 0 ≤ field c 0 2 →
        field c 0 2 ≤ s.getF Reg.MBX_VER_MAX 0 0 → q = s.getF Reg.MBX_EXPECTED_SEQ 0 0 →
        exec (.unlistedOpcodeRequest c dma t) s = .next (serveAll 64 (placeResponse
          (keepResponse (s1.setF Reg.MBX_EXPECTED_SEQ 0 0 (q + 1)) q (field c 28 4) (responseOf c 5 [])) (responseOf c 5 []) 5))))

/-- Spec 11 R455, R456, R463: the host's index writes. RSP_HEAD and EVT_HEAD free entries inside what is written and unread; a
doorbell brings the queue the new submission entries and frees completion entries; a full ring ends STALLED when room comes back.
Indices outside the ring's range are ignored (log entry 60). -/
def Obligations.MailboxIndices : Prop :=
  ∀ (s : State) (v : Word) (t : Nat), hostActive s = true → HostInTime s t →
    let s1 := hostWrite s t
    let m := s.mbx
    (m.waiting = [] → exec (.rspHeadWrite v t) s = .next
      (if (v.toNat + 2 ^ 32 - m.rspHead) % 2 ^ 32 ≤ (m.rspTail + 2 ^ 32 - m.rspHead) % 2 ^ 32
        then { s1 with mbx := { m with rspHead := v.toNat } } else s1)) ∧
    (m.buffered = [] → exec (.evtHeadWrite v t) s = .next
      (if (v.toNat + 2 ^ 32 - m.evtHead) % 2 ^ 32 ≤ (m.evtTail + 2 ^ 32 - m.evtHead) % 2 ^ 32
        then { s1 with mbx := { m with evtHead := v.toNat } } else s1)) ∧
    (∀ (q : BitVec 15) (es : List (List Byte)), s.queue? q.toNat = none → exec (.queueDoorbell q v es t) s = .next s1) ∧
    (∀ (q : BitVec 15) (x : Queue) (r : QRings) (es : List (List Byte)), s.queue? q.toNat = some x → x.rings = some r →
      (es.length ≠ (bits v.toNat 15 0 + 65536 - x.subTail) % 65536 →
        exec (.queueDoorbell q v es t) s = .refused (.illFormed "not the entries between the old tail and the new one")) ∧
      (es.length = (bits v.toNat 15 0 + 65536 - x.subTail) % 65536 → x.waiting.length + es.length ≤ 2 ^ r.subLog →
        bits v.toNat 31 16 = x.cplHead → x.stalled = false → exec (.queueDoorbell q v es t) s = .next
          (s1.setQueue { x with subTail := bits v.toNat 15 0, waiting := x.waiting ++ es })) ∧
      (es = [] → bits v.toNat 15 0 = x.subTail → x.stalled = false →
        (bits v.toNat 31 16 + 65536 - x.cplHead) % 65536 ≤ (x.cplTail + 65536 - x.cplHead) % 65536 →
        exec (.queueDoorbell q v es t) s = .next (s1.setQueue { x with cplHead := bits v.toNat 31 16 })) ∧
      (es = [] → bits v.toNat 15 0 = x.subTail → x.stalled = true → x.cplHead ≠ bits v.toNat 31 16 → x.cplHead < 65536 →
        (bits v.toNat 31 16 + 65536 - x.cplHead) % 65536 ≤ (x.cplTail + 65536 - x.cplHead) % 65536 →
        (x.cplTail + 65536 - x.cplHead) % 65536 ≤ 2 ^ r.cplLog →
        ∃ u y, exec (.queueDoorbell q v es t) s = .next u ∧ u.queue? q.toNat = some y ∧ y.stalled = false ∧
          y.cplHead = bits v.toNat 31 16 ∧ u.getF Reg.QMGR_QUEUES_STALLED 0 0 = (u.queues.filter (·.stalled)).length % 2 ^ Reg.QMGR_QUEUES_STALLED.width))
/-- Spec 11 R461, R474, R475, R485, R486, R446, R448: requests about versions, binding, images and fuses. Each is answered with
STATUS 0 and its effect, or with the status of the first condition that fails and no effect. The order of the fields of
GET_DEVICE_INFO is log entry 47, REBIND in HOLD entry 48, a write to the booted part entry 49. -/
def Obligations.MailboxDeviceRequests : Prop :=
  ∀ (s : State) (a : MbxArgs),
    let p := a.payload
    let v := mbxServing s a
    let s1 := mbxTaken s a.time
    let get (f : Fld) : Nat := s.getF f 0 0
    (MbxTurn s a.time p.length → exec (.getVersion a) s = .next (mbxRefused 0x01 a (okWith s1
      (toLe 2 (get Reg.MBX_VER_MIN) ++ toLe 2 (get Reg.MBX_VER_MAX) ++ toLe 4 (fwState s) ++ toLe 4 (get Reg.MBX_STAGE1_ID) ++
        toLe 4 (get Reg.MBX_RUNTIME_ID))))) ∧
    (MbxGood s 0x02 a → ∃ d, exec (.getDeviceInfo a) s = .next (mbxAnswered 0x02 a (okWith v d)) ∧ d.length = 66 ∧
      field d 0 8 = s.fuses.serial % 2 ^ 64 ∧ field d 9 1 = lcState s ∧ field d 63 2 = get Reg.SEC_MEMBER % 65536) ∧
    (MbxTurn s a.time p.length → get Reg.MBX_VER_MIN ≤ a.version.toNat → a.version.toNat ≤ get Reg.MBX_VER_MAX → (fwState s = 3 ∨ fwState s = 4) →
      lcState s ≠ 3 →
      let rebind := bit (field p 0 1) 0
      let off := ¬ (rebind = true ∧ get Reg.MBX_BOUND = 0 ∧ fwState s ≠ 4) ∧ ¬ (rebind = false ∧ get Reg.MBX_BOUND = 1) ∧ get Reg.MBX_BOUND ≤ 1
      (rebind = false → get Reg.MBX_BOUND = 1 → exec (.bind a) s = .next (mbxRefused 0x03 a (nackState s1))) ∧
      (rebind = true → get Reg.MBX_BOUND = 0 → fwState s = 3 → exec (.bind a) s = .next (mbxRefused 0x03 a (nackState s1))) ∧
      (off → 3600 < field p 4 2 → exec (.bind a) s = .next (mbxRefused 0x03 a (nackRange s1 4))) ∧
      (off → field p 4 2 ≤ 3600 → ∃ u, exec (.bind a) s = .next (mbxAnswered 0x03 a (okay u)) ∧ u.getF Reg.MBX_BOUND 0 0 = 1 ∧
        u.getF Reg.QMGR_HOST_LOSS_TIMEOUT 0 0 = (if field p 4 2 = 0 then 30 else field p 4 2) ∧ fwState u = 3 ∧ u.fw.everBound = true ∧
        u.getF Reg.MBX_EXPECTED_SEQ 0 0 = (a.seq.toNat + 1) % 2 ^ 32 ∧ u.getF Reg.QMGR_HOST_LAST_SEEN 0 0 = s1.now % 2 ^ 64 ∧
        (rebind = true → ∀ q ∈ u.queues, q.rings = none) ∧
        (fwState s = 4 → u.fw.holdAt = none ∧ (∀ q ∈ u.queues, q.stopped = true) ∧ ∀ d ∈ u.domains, d.parked = false))) ∧
    (MbxGood s 0x04 a → exec (.unbind a) s = .next (mbxAnswered 0x04 a (okay
      { v.setF Reg.MBX_BOUND 0 0 0 with queues := s.queues.map (fun q => { q with rings := none }) }))) ∧
    (MbxGood s 0x10 a →
      let kind := field p 0 1
      let i := a.dma.take (field p 16 4)
      let ans (x : Answer) : Prop := exec (.imageLoad a) s = .next (mbxAnswered 0x10 a x)
      (kind ≠ 1 → kind ≠ 2 → ans (nackRange v 0)) ∧ (kind = 2 → fwState s = 0 → ans (nackState v)) ∧
      (kind = 1 → fwState s ≠ 0 → ans (nackState v)) ∧
      (kind = 1 → fwState s = 0 → (∀ e, imageCheck v 1 0 i = some e → ans (nackVerify (imageFails v e) e.1)) ∧
        (imageCheck v 1 0 i = none → ans (okay { v with
          fw := { v.fw with stage1 := i }
          power := { v.power with startDue := some (get Reg.CONFIG_START_REASON) } }))) ∧
      (kind = 2 → fwState s = 1 → ∀ w, s.fw.loadWaitFrom = some w → s1.now ≤ w + 300000000000 → imageCheck v 2 0 i = none →
        ans (okay (startRuntime v i false false))) ∧
      (kind = 2 → 3 ≤ fwState s → ∀ k, k = 1 - s.fw.inForce % 2 →
        (∀ e, imageCheck v 2 k i = some e → ans (nackVerify (imageFails (setRtSlot v k { image := [], locked := false }) e) e.1)) ∧
        (imageCheck v 2 k i = none → ans (okay (setRtSlot v k { image := i, locked := true }))))) ∧
    (MbxGood s 0x11 a →
      let id := field p 0 4
      let h := field p 8 8
      let ans (x : Answer) : Prop := exec (.runtimeHandover a) s = .next (mbxAnswered 0x11 a x)
      let due : State := { v with fw := { v.fw with handover := some (id, h) } }
      ((rtSlot s (1 - s.fw.inForce % 2)).locked = false → ans (nackState v)) ∧
      ((rtSlot s (1 - s.fw.inForce % 2)).locked = true → (id = 0x7FFFF → ans (okay due)) ∧
        (id ≠ 0x7FFFF → (s.domain? id = none → ans (nackRange v 0)) ∧
          ∀ d, s.domain? id = some d → ans (if h < d.nextStep then nackRange v 8 else okay due)))) ∧
    (MbxGood s 0x12 a →
      let part := field p 0 1
      let kind := field p 1 1
      let i := a.dma.take (field p 16 4)
      let ans (x : Answer) : Prop := exec (.flashWrite a) s = .next (mbxAnswered 0x12 a x)
      (2 ≤ part → ans (nackRange v 0)) ∧
      (part = 0 → kind = 3 → lcState s ≠ 0 → lcState s ≠ 2 → ans (nackState v)) ∧
      (part = 0 → kind = 3 → (lcState s = 0 ∨ lcState s = 2) →
        ans (if configCause i = 0 then okay (setFlash v false { flashPart s false with config := i }) else nackRange v 8)) ∧
      (part < 2 → (kind = 1 ∨ kind = 2) → (∀ e, imageCheck v kind part i = some e → ans (nackVerify (imageFails v e) e.1)) ∧
        (imageCheck v kind part i = none → (decide (part = 1) ≠ s.flag Reg.MBX_S1_FB 0 0 ∨
            imageCheck v kind (1 - part) ((flashPart s (!(part == 1))).image kind) = none) →
          ans (okay (setFlash v (part == 1) ((flashPart s (part == 1)).withImage kind i)))))) ∧
    (MbxGood s 0x13 a →
      let top : Prop := field p 0 4 ≤ imgSvn s.fw.stage1 ∧ (get Reg.MBX_RUNTIME_ID = 0 ∨ field p 0 4 ≤ imgSvn (runtimeImage s))
      (¬ top → exec (.svnRaise a) s = .next (mbxAnswered 0x13 a (nackRange v 0))) ∧
      (top → exec (.svnRaise a) s = .next (mbxAnswered 0x13 a (okay
        { v with fuses := { s.fuses with minSvn := max s.fuses.minSvn (field p 0 4) } })))) ∧
    (MbxGood s 0x14 a → exec (.attest a) s = .next (mbxAnswered 0x14 a (okay
      (v.sendHost (field p 16 8) (attestPayload v (p.take 16))))))

/-- Spec 11 R461, 09 R374, 10 R440, 13 R522, R523, R529: requests about the device's place in a group, channels, logs and the life
cycle. A life-cycle step burns its fuse and asks for a cold start; an unlisted or unauthorised one changes nothing. -/
def Obligations.MailboxGroupAndLifeRequests : Prop :=
  ∀ (s : State) (a : MbxArgs),
    let p := a.payload
    let v := mbxServing s a
    let shut : Prop := holdsPosition s = true ∨ lcState s = 2 ∨ cpUp s 3 = false
    (MbxGood s 0x20 a →
      let ans (x : Answer) : Prop := exec (.memberSet a) s = .next (mbxAnswered 0x20 a x)
      (shut → ans (nackState v)) ∧ (¬ shut → 4096 ≤ field p 0 2 → ans (nackRange v 0)) ∧
      (¬ shut → field p 0 2 < 4096 → ∃ u, ans (okay u) ∧ u.getF Reg.SEC_MEMBER 0 0 = field p 0 2 ∧ u.getF Reg.SEC_MEMBER_ASSIGNED 0 0 = 1 ∧
        u.dram = s.dram ∧ u.queues = s.queues)) ∧
    (MbxGood s 0x21 a →
      (shut → exec (.spareSet a) s = .next (mbxAnswered 0x21 a (nackState v))) ∧
      (¬ shut → ∃ u, exec (.spareSet a) s = .next (mbxAnswered 0x21 a (okay u)) ∧ u.fw.spare = bit (field p 0 1) 0 ∧
        u.dram = s.dram ∧ u.queues = s.queues)) ∧
    (MbxGood s 0x22 a →
      let ans (x : Answer) : Prop := exec (.groupSet a) s = .next (mbxAnswered 0x22 a x)
      let m := field p 6 2 + 1
      (fabricRefused s = true ∨ groupPlaced s (field p 0 4) = false → ans (nackState v)) ∧
      (fabricRefused s = false → groupPlaced s (field p 0 4) = true → (∀ n, groupRange s p = some n → ans (nackRange v n)) ∧
        (groupRange s p = none →
          (∀ k, k < m → (∀ j, j < k → field a.dma (2 * j) 2 < 4096) → 4096 ≤ field a.dma (2 * k) 2 → ans (nackRange v k)) ∧
          ((∀ k, k < m → field a.dma (2 * k) 2 < 4096) → (∀ k, k < field p 56 1 → field a.dma2 (2 * k) 2 < 4096) →
            ∀ d, s.domain? (field p 0 4) = some d → d.run.isSome = true → d.id ≠ wholeDomain → ∃ u e g, ans (okay u) ∧
              u.domain? (field p 0 4) = some e ∧ e.group = some g ∧ bit (field e.entry 0 4) 22 = true ∧ e.run = d.run ∧
              ∃ plan par, g.nextPlan = some (plan, field p 10 2, par) ∧
                plan.members = (List.range m).map (fun k => some (field a.dma (2 * k) 2)) ∧ plan.torus = bit (field p 4 1) 0 ∧
                par.spares = (List.range (field p 56 1)).map (fun k => field a.dma2 (2 * k) 2) ∧ par.hbPeriod = field p 26 1)))) ∧
    (MbxGood s 0x60 a →
      (24 ≤ field p 0 1 → exec (.channelRetire a) s = .next (mbxAnswered 0x60 a (nackRange v 0))) ∧
      (field p 0 1 < 24 → exec (.channelRetire a) s = .next (mbxAnswered 0x60 a (okay (retirePending v (field p 0 1) 6))))) ∧
    (MbxGood s 0x61 a →
      let log := if field p 0 1 = 0 then s.fw.integrityLog else s.fw.eventLog.map (fun e => (e ++ zeros 256).take 256)
      let ans (x : Answer) : Prop := exec (.logRead a) s = .next (mbxAnswered 0x61 a x)
      (2 ≤ field p 0 1 → ans (nackRange v 0)) ∧
      (field p 0 1 < 2 → log.length < field p 4 4 → ans (nackRange v 4)) ∧
      (field p 0 1 < 2 → field p 4 4 ≤ log.length → log.length < field p 4 4 + field p 8 4 → ans (nackRange v 8)) ∧
      (field p 0 1 < 2 → field p 4 4 + field p 8 4 ≤ log.length →
        ans (okay (v.sendHost (field p 16 8) ((log.drop (field p 4 4)).take (field p 8 4)).flatten)))) ∧
    (MbxGood s 0x62 a →
      let target := field p 0 1
      let start := field p 1 1
      let d := a.dma.take (field p 16 4)
      let listed : Prop := (start = 0 ∧ target = 1) ∨ (start = 1 ∧ (target = 2 ∨ target = 3)) ∨ (start = 2 ∧ (target = 1 ∨ target = 3))
      let ans (x : Answer) : Prop := exec (.lifecycleSet a) s = .next (mbxAnswered 0x62 a x)
      (start ≠ lcState s ∨ ¬ listed → ans (nackRange v 0)) ∧
      (start = lcState s → listed → field p 2 6 = 0 → lcAuthorised v start target d = false → ans (nackRange v 8)) ∧
      (start = lcState s → listed → field p 2 6 = 0 → lcAuthorised v start target d = true → start = 1 → target = 2 → 32 ≤ s.fuses.toggles →
        ans (nack v 9)) ∧
      (start = lcState s → listed → field p 2 6 = 0 → lcAuthorised v start target d = true →
        (start = 1 → target = 2 → s.fuses.toggles < 32) → ∃ u, ans (okay u) ∧ u.power.startDue = some 3 ∧
          u.fuses = { s.fuses with
            decom := if target = 3 then true else s.fuses.decom
            owned := if target ≠ 3 ∧ start = 0 then true else s.fuses.owned
            toggles := if target ≠ 3 ∧ start ≠ 0 then s.fuses.toggles + 1 else s.fuses.toggles } ∧
          (target = 3 → (flashPart u false).security = [] ∧ (flashPart u false).training = List.replicate 24 0) ∧
          ∀ k, k < 16 → Memory.read u.dram k = 0#8))
/-- Spec 11 R461 to R464, R471, R472: requests on queues, and the refusals that name the offset of the first field out of range. -/
def Obligations.MailboxQueueRequests : Prop :=
  ∀ (s : State) (a : MbxArgs),
    let p := a.payload
    let v := mbxServing s a
    let id := field p 0 2
    (MbxGood s 0x30 a →
      let ans (x : Answer) : Prop := exec (.queueCreate a) s = .next (mbxAnswered 0x30 a x)
      (∀ n, queueRange p = some n → ans (nackRange v n)) ∧
      (queueRange p = none → (∀ q, s.queue? id = some q → ans (nackBusy v)) ∧
        (s.queue? id = none → ∃ u q, ans (okay u) ∧ u.queue? id = some q ∧ q.desc = (p ++ zeros 128).take 128 ∧ q.rings = none ∧
          q.stopped = false ∧ q.stalled = false ∧ q.entries = [] ∧ q.unit = none ∧ (∀ k, k ≠ id → u.queue? k = s.queue? k) ∧
          u.getF Reg.QMGR_QUEUES 0 0 = (s.queues.length + 1) % 65536 ∧ u.domains = s.domains ∧ u.dram = s.dram))) ∧
    (MbxGood s 0x31 a →
      let ans (x : Answer) : Prop := exec (.queueDestroy a) s = .next (mbxAnswered 0x31 a x)
      (s.queue? id = none → ans (nackRange v 0)) ∧
      (∀ q, s.queue? id = some q →
        let used : Prop := q.unit.isSome = true ∨ ∃ d ∈ s.domains, d.bound = true ∧ d.queue = id ∧ q.isRun = false
        (used → ans (nackBusy v)) ∧ (¬ used → ∃ u, ans (okay u) ∧ u.queues = s.queues.filter (fun x => x.id != id) ∧
          u.domains = s.domains ∧ u.dram = s.dram))) ∧
    (MbxGood s 0x32 a →
      let ans (x : Answer) : Prop := exec (.queueRingSet a) s = .next (mbxAnswered 0x32 a x)
      (s.queue? id = none → ans (nackRange v 0)) ∧
      (∀ q, s.queue? id = some q →
        (field p 4 1 < 4 ∨ 15 < field p 4 1 → ans (nackRange v 4)) ∧
        (4 ≤ field p 4 1 → field p 4 1 ≤ 15 → (field p 5 1 < 4 ∨ 15 < field p 5 1 → ans (nackRange v 5)) ∧
          (4 ≤ field p 5 1 → field p 5 1 ≤ 15 → (field p 8 8 % 64 ≠ 0 → ans (nackRange v 8)) ∧
            (field p 8 8 % 64 = 0 → field p 16 8 % 64 ≠ 0 → ans (nackRange v 16)) ∧
            (field p 8 8 % 64 = 0 → field p 16 8 % 64 = 0 → q.due = [] → ∃ u, ans (okay u) ∧
              u.queue? id = some { q with
                rings := some ⟨field p 4 1, field p 5 1, field p 8 8, field p 16 8⟩
                subTail := 0, subHead := 0, cplHead := 0, cplTail := 0, cplCount := 0, waiting := [], stalled := false } ∧
              (∀ k, k ≠ id → u.queue? k = s.queue? k) ∧ u.dram = s.dram))))) ∧
    (∀ (o : Nat × (MbxArgs → Instr) × Bool), o ∈ [(0x33, Instr.queueStop, true), (0x34, Instr.queueResume, false)] → MbxGood s o.1 a →
      (s.queue? id = none → exec (o.2.1 a) s = .next (mbxAnswered o.1 a (nackRange v 0))) ∧
      (∀ q, s.queue? id = some q → exec (o.2.1 a) s = .next (mbxAnswered o.1 a (okay (v.setQueue { q with stopped := o.2.2 }))))) ∧
    (MbxGood s 0x35 a →
      (s.queue? id = none → exec (.queueQuery a) s = .next (mbxAnswered 0x35 a (nackRange v 0))) ∧
      (∀ q, s.queue? id = some q → exec (.queueQuery a) s = .next (mbxAnswered 0x35 a (okWith v (q.desc ++
        toLe 4 (if q.stopped = true then 2 else if q.stalled = true then 1 else 0) ++ toLe 2 q.subTail ++ toLe 2 q.subHead ++
        toLe 2 q.cplHead ++ toLe 2 q.cplTail ++ toLe 4 q.lastId)))))

/-- Spec 11 R460, R461, R471, R472, 07 R307, 09 R397, R382, R389, R398: requests on contexts, placement entries, domains, update
blocks, retained regions, base regions, exports and cellars. A root interval of 0 asks for the default of 10 (log entry 124), and what a
restored cellar does to the group is log entry 125. -/
def Obligations.MailboxDomainRequests : Prop :=
  ∀ (s : State) (a : MbxArgs),
    let p := a.payload
    let v := mbxServing s a
    let id := field p 0 4
    (MbxGood s 0x40 a →
      let e := (p ++ zeros 64).take 64
      let k := bits (field e 0 4) 17 0
      let ans (x : Answer) : Prop := exec (.contextCreate a) s = .next (mbxAnswered 0x40 a x)
      (∀ n, entryRange s false e = some n → ans (nackRange v n)) ∧
      (entryRange s false e = none → (∀ d, s.domain? k = some d → ans (nackBusy v)) ∧
        (s.domain? k = none → (domainFits v (entryDomain k e) = some 7 → ans (nackRange v 8)) ∧
          (domainFits v (entryDomain k e) = some 9 → ans (nack (fwError v 0x0610 k) 9)) ∧
          (domainFits v (entryDomain k e) = none → k ≠ wholeDomain → ∃ u d, ans (okay u) ∧ u.domain? k = some d ∧ d.state = 1 ∧
            d.bound = true ∧ d.group = none ∧ d.lastStep = none ∧ (∀ j, j ≠ k → u.domain? j = s.domain? j) ∧ u.queues = s.queues)))) ∧
    (MbxGood s 0x41 a →
      let ans (x : Answer) : Prop := exec (.contextDestroy a) s = .next (mbxAnswered 0x41 a x)
      (s.domain? id = none → ans (nackRange v 0)) ∧
      (∀ d, s.domain? id = some d → (wholeDomain ≤ id → ans (nackRange v 0)) ∧
        (id < wholeDomain → (d.run.isSome = true → ans (nackBusy v)) ∧
          (d.run = none → ∃ u, ans (okay u) ∧ (∀ x ∈ u.domains, x.id ≠ id) ∧ (∀ j, j ≠ id → u.domain? j = s.domain? j) ∧ u.queues = s.queues)))) ∧
    (MbxGood s 0x42 a →
      let n := field p 4 4
      let ans (x : Answer) : Prop := exec (.placementWrite a) s = .next (mbxAnswered 0x42 a x)
      (2 ^ 19 ≤ id → ans (nackRange v 0)) ∧ (id < 2 ^ 19 → (n = 0 ∨ 2 ^ 19 < id + n) → ans (nackRange v 4)) ∧
      (id < 2 ^ 19 → n ≠ 0 → id + n ≤ 2 ^ 19 → placeOk ((a.dma ++ zeros 64).take 64) = false →
        ans (nackRange (fwError v 0x060F id) id)) ∧
      (id < 2 ^ 19 → n ≠ 0 → id + n ≤ 2 ^ 19 → s.domains = [] → a.dma.length = 64 * n →
        s.getF Reg.PLC_BASE 0 0 % 64 = 0 → s.getF Reg.PLC_BASE 0 0 + 64 * (id + n) ≤ dramSize s →
        (∀ k, k < n → placeOk ((a.dma.drop (64 * k)).take 64) = true) →
        ∃ u, ans (okay u) ∧ Memory.readN u.dram (s.getF Reg.PLC_BASE 0 0 + 64 * id) (64 * n) = a.dma ∧
          ∀ k, ¬ (s.getF Reg.PLC_BASE 0 0 + 64 * id ≤ k ∧ k < s.getF Reg.PLC_BASE 0 0 + 64 * (id + n)) → Memory.read u.dram k = Memory.read s.dram k)) ∧
    (MbxGood s 0x43 a →
      let ans (x : Answer) : Prop := exec (.domainSet a) s = .next (mbxAnswered 0x43 a x)
      let good : Prop := field p 16 2 ≤ 1000 ∧ field p 18 1 ≤ 3 ∧ field p 24 2 ≤ field p 26 2 ∧ field p 30 2 ≠ 0
      (1000 < field p 16 2 → ans (nackRange v 16)) ∧
      (field p 16 2 ≤ 1000 → 3 < field p 18 1 → ans (nackRange v 18)) ∧
      (good → id ≠ wholeDomain → s.domain? id = none → ans (nackRange v 0)) ∧
      (good → id ≠ wholeDomain → field p 32 64 ≠ 0 → ∀ d, s.domain? id = some d → ans (nackRange v 32)) ∧
      (good → id ≠ wholeDomain → field p 32 64 = 0 → ∀ d, s.domain? id = some d → legacyFits s (domainSettings p d) = false →
        ans (nackState v)) ∧
      (good → id ≠ wholeDomain → field p 32 64 = 0 → ∀ d, s.domain? id = some d → legacyFits s (domainSettings p d) = true →
        64 ≤ d.entry.length → ∃ u e, ans (okay u) ∧ u.domain? id = some e ∧
        e.steer = bit (field p 18 1) 0 ∧ e.legacy = bit (field p 18 1) 1 ∧ e.mbTokens = field p 20 4 ∧ e.accMin = field p 24 2 ∧
        e.accMax = field p 26 2 ∧ e.window = (if field p 28 2 = 0 then 200 else field p 28 2) ∧ field e.entry 48 8 = field p 8 8 ∧
        field e.entry 56 2 = (if field p 16 2 = 0 then 10 else field p 16 2) ∧
        (d.run.isSome = true → e.accCount = d.accCount ∧ e.nextAcc = some (field p 30 2)) ∧ (d.run = none → e.accCount = field p 30 2) ∧
        (∀ j, j ≠ id → u.domain? j = s.domain? j) ∧ u.queues = s.queues)) ∧
    (MbxGood s 0x44 a →
      let b := (p.drop 8).take 64
      let ans (x : Answer) : Prop := exec (.upbSubmit a) s = .next (mbxAnswered 0x44 a x)
      (s.domain? id = none → ans (nackRange v 0)) ∧
      (∀ d, s.domain? id = some d →
        let past : Prop := match d.run, d.lastStep with
          | some r, _ => field b 0 8 ≤ r.step
          | none, some n => field b 0 8 ≤ n
          | none, none => False
        (upbValid b = false ∨ past → ans (nackRange v 8)) ∧
        (upbValid b = true → ¬ past → ans (if 16 ≤ d.upbs.length then nackBusy v else okay (v.setDomain { d with upbs := d.upbs ++ [b] }))))) ∧
    (MbxGood s 0x45 a →
      let ans (x : Answer) : Prop := exec (.retainSet a) s = .next (mbxAnswered 0x45 a x)
      let on := bit (field p 4 1) 0
      (id < 0x80000 → s.domain? id = none → ans (nackRange v 0)) ∧
      (id < 0x80000 → ∀ d, s.domain? id = some d → ∃ u e, ans (okay u) ∧ u.domain? id = some e ∧ e.retained = on ∧
        bit (field e.entry 0 4) 20 = on) ∧
      (0x80000 ≤ id → (∀ b ∈ s.fw.bases, b.1 ≠ id - 0x80000) → ans (nackRange v 0)) ∧
      (0x80000 ≤ id → (∃ b ∈ s.fw.bases, b.1 = id - 0x80000) → ∃ u, ans (okay u) ∧
        ((id - 0x80000) ∈ u.fw.retainedBases ↔ on = true) ∧ ∀ r, r ≠ id - 0x80000 → (r ∈ u.fw.retainedBases ↔ r ∈ s.fw.retainedBases))) ∧
    (MbxGood s 0x46 a →
      let r := field p 0 1
      let b := field p 8 8
      let n := field p 16 8
      let ans (x : Answer) : Prop := exec (.baseLoad a) s = .next (mbxAnswered 0x46 a x)
      (15 < r → ans (nackRange v 0)) ∧ (r ≤ 15 → dramSize s ≤ b → ans (nackRange v 8)) ∧
      (r ≤ 15 → b < dramSize s → (n = 0 ∨ dramSize s < b + n) → ans (nackRange v 16)) ∧
      (r ≤ 15 → b < dramSize s → n ≠ 0 → b + n ≤ dramSize s → s.dramUe = [] → ∃ u, ans (okay u) ∧
        (r, b, n, rootDigest (leafDigests s.dram [[(b, n)]])) ∈ u.fw.bases ∧ (r, leafDigests s.dram [[(b, n)]]) ∈ u.fw.baseTrees ∧ (∀ y ∈ s.fw.bases, y.1 ≠ r → y ∈ u.fw.bases) ∧ u.dram = s.dram)) ∧
    (MbxGood s 0x50 a →
      let w (k : Nat) : Nat := field p (4 * k) 4
      let ans (x : Answer) : Prop := exec (.exportReq a) s = .next (mbxAnswered 0x50 a x)
      (exportState s = 1 ∨ exportState s = 2 → ans (nackBusy v)) ∧
      (exportState s ≠ 1 → exportState s ≠ 2 → s.domain? (bits (w 0) 18 0) = none → ans (nackRange v 0)) ∧
      (exportState s ≠ 1 → exportState s ≠ 2 → (s.domain? (bits (w 0) 18 0)).isSome = true → w 0 < 2 ^ 21 → w 1 < 4096 → w 2 % 65536 = 0 →
        w 3 < 512 → w 5 % 64 = 0 → w 6 < 512 → w 7 ≤ 2 ^ 19 → (w 7 ≠ 0 ∨ bit (w 0) 19 = true) → ∃ u, ans (okay (exportGo u u.now)) ∧
          u.now = v.now ∧ u.domains = s.domains ∧ u.dram = s.dram)) ∧
    (MbxGood s 0x51 a →
      let ans (x : Answer) : Prop := exec (.cellarRestore a) s = .next (mbxAnswered 0x51 a x)
      (s.domain? id = none → ans (nackRange v 0)) ∧
      (∀ d, s.domain? id = some d → (d.run.isSome = true → ans (nackBusy v)) ∧
        (d.run = none → cellarOk id a.dma = false → ans (nackRange v 8)) ∧
        (d.run = none → cellarOk id a.dma = true → ∃ u, ans (okay u) ∧ u.queues = s.queues ∧
          ∀ e, u.domain? id = some e → e.stopped = false ∧ e.state = 1 ∧
            ∀ g, e.group = some g → g.tableStep = none ∧ g.reports = [] ∧ g.state ≠ .stopped)))
/-! Units, live update, watchdogs, host loss. -/

/-- Spec 11 R464 to R469: CP1 starts the ready queue of highest priority, the oldest start first, then the lowest ID; without a free
completion entry it becomes STALLED; a bad program image answers REFUSED with code 0x060D; a good one is loaded, the domain's next
step begins, and the unit's programs start. -/
def Obligations.UnitsStart : Prop :=
  ∀ (s : State) (t : Nat), let v := s.atTime t
    (schedulerOn s = false → exec (.unitStart t) s = .next v) ∧
    (schedulerOn s = true → (∀ q ∈ s.queues, q.waiting = []) →
      (pickQueue v = none → exec (.unitStart t) s = .next v) ∧
      (∀ q, pickQueue v = some q →
        (q ∈ s.queues ∧ queueReady v q = true ∧ ∀ o ∈ s.queues, queueReady v o = true → o.prio ≤ q.prio ∧
          (o.prio = q.prio → q.lastStart ≤ o.lastStart ∧
            (o.lastStart = q.lastStart → (s.queues.Pairwise (fun x y => x.id < y.id)) → q.id ≤ o.id))) ∧
        (q.cplFree = 0 → exec (.unitStart t) s = .next (setStalled v q true)) ∧
        (∀ e es, q.entries = e :: es → q.cplFree ≠ 0 → ∀ w ok, readyUnit v q = (w, ok) →
          (ok = false → exec (.unitStart t) s = .next w) ∧
          (ok = true → imageOk w q (readImage w q.prog) = false → ∃ u, exec (.unitStart t) s = .next u ∧
            u.tiles = w.tiles ∧ u.getF Reg.QMGR_UNITS_STARTED 0 0 = w.getF Reg.QMGR_UNITS_STARTED 0 0 ∧
            (bit (w.getF (Hdr.INT_STATUS 8 0) 0 0) 0 = false → u.getF (Hdr.ERR_CODE 8 0) 0 0 = 0x060D)) ∧
          (ok = true → imageOk w q (readImage w q.prog) = true → w.queue? q.id = some q → ∃ u y, exec (.unitStart t) s = .next u ∧
            u.queue? q.id = some y ∧ y.unit = some { entry := e, tiles := q.tiles, startedAt := w.now, update := false, stopping := false } ∧
            y.lastStart = w.fw.startOrder + 1 ∧ y.image = some q.prog ∧ u.fw.startOrder = w.fw.startOrder + 1 ∧
            u.getF Reg.QMGR_UNITS_STARTED 0 0 = min (w.getF Reg.QMGR_UNITS_STARTED 0 0 + 1) (2 ^ 32 - 1) ∧
            (q.isRun = true → u.domains = w.domains) ∧
            (q.isRun = false → ∀ d, w.domain? e.domain = some d → ∃ x r, u.domain? e.domain = some x ∧ x.run = some r ∧ r.step = d.nextStep ∧
              r.phase = .program ∧ r.startedAt = w.now)))))

/-- Spec 11 R463, R464, R468, Table 11.14: when every tile of a RUN has halted, its completion of 32 bytes goes to the next entry of the
completion ring and the queue's vector is signalled. A faulted tile stops the unit's programs: a RUN completes FAULT with code 0x060E,
which is the model's reading of Table 11.14; the first fault during a domain's update lets the update run again, a second one stops the domain. A faulted tile of no unit is reported
against the queue that last ran on it. -/
def Obligations.UnitsEnd : Prop :=
  ∀ (s : State) (q : BitVec 15) (t : Nat) (x : Queue) (r : QRings) (n : RunUnit),
    s.getF Reg.CP_STATE 1 0 = 2 → s.queue? q.toNat = some x → x.rings = some r → x.unit = some n →
    let tiles := unitTiles s n.tiles
    let phase := if x.cplCount / 2 ^ r.cplLog % 2 = 0 then 1 else 0
    let idle : Prop := ∃ y ∈ s.fw.ran, y.2 = q.toNat ∧ ∃ i : TileId, i.val = y.1 ∧ (s.tile i).pstate = .faulted
    let done (u : State) (status err : Nat) : Prop :=
      (∃ l, u.sent = l ++ [.hostMem (r.cplBase + 32 * (x.cplCount % 2 ^ r.cplLog)) (toLe 4 n.entry.id ++ toLe 1 status ++ toLe 1 (2 + phase) ++
        toLe 2 err ++ toLe 8 0 ++ toLe 8 (max s.now t) ++ zeros 8), .msix x.vector]) ∧
      ∃ y, u.queue? q.toNat = some y ∧ y.unit = none ∧ y.cplTail = (x.cplTail + 1) % 65536 ∧ y.cplCount = x.cplCount + 1 ∧
        y.lastId = n.entry.id ∧ (∀ e es, x.entries = e :: es → e.left ≤ 1 → y.entries = es)
    (x.isRun = true → (∀ i ∈ tiles, (s.tile i).pstate = .halted) → ∃ u, exec (.runComplete q t) s = .next u ∧
      done u (if n.stopping = true then 3 else 0) 0 ∧ u.tiles = s.tiles ∧ u.dram = s.dram ∧ u.regs = s.regs) ∧
    ((x.isRun = false ∨ ∃ i ∈ tiles, (s.tile i).pstate ≠ .halted) → exec (.runComplete q t) s = .next (s.atTime t)) ∧
    ((∀ i ∈ tiles, (s.tile i).pstate ≠ .faulted) →
        (¬ idle → exec (.queueFault q t) s = .next (s.atTime t)) ∧
        (idle → ∃ u, exec (.queueFault q t) s = .next u ∧ u.tiles = s.tiles ∧ u.queues = s.queues ∧
          (∀ y ∈ u.fw.ran, y.2 = q.toNat → ∀ i : TileId, i.val = y.1 → (s.tile i).pstate ≠ .faulted) ∧
          (bit (s.getF (Hdr.INT_STATUS 8 0) 0 0) 0 = false → u.getF (Hdr.ERR_CODE 8 0) 0 0 = 0x060E))) ∧
    (x.isRun = true → (∃ i ∈ tiles, (s.tile i).pstate = .faulted) → ∃ u, exec (.queueFault q t) s = .next u ∧ done u 1 0x060E ∧
      (∀ i ∈ tiles, (u.tile i).active = false) ∧ (∀ i, i ∉ tiles → (u.tile i).pstate = (s.tile i).pstate) ∧
      (bit (s.getF (Hdr.INT_STATUS 8 0) 0 0) 0 = false → u.getF (Hdr.ERR_CODE 8 0) 0 0 = 0x060E)) ∧
    (x.isRun = false → (∃ i ∈ tiles, (s.tile i).pstate = .faulted) → ∀ d rn, s.domain? n.entry.domain = some d → d.run = some rn →
      rn.skipped = false → (rn.phase = .updating ∨ rn.phase = .ready) → s.dramUe = [] →
        (rn.updFaults = 0 → ∃ u e nf, exec (.queueFault q t) s = .next u ∧ u.domain? n.entry.domain = some e ∧
          e.run = some { rn with updFaults := 1, phase := .ready, nonfinite := nf }) ∧
        (rn.updFaults ≠ 0 → d.group = none → ∃ u e, exec (.queueFault q t) s = .next u ∧ u.domain? n.entry.domain = some e ∧ e.stopped = true))

/-- Spec 11 R475 to R482: a processor that kicks in time goes on; one whose watchdog expires is reset and runs again, the third
time in 600 s the device escalates, CP0 at once; within 1 s of a handover the old image comes back. A handover waits for its boundary
and exchanges the runtime images, before the frequencies and the next step. An escalation ends with a warm start. CP0's STATE after its expiry is log entry 57. -/
def Obligations.ProcessorsAndHandover : Prop :=
  ∀ (s : State) (n : Fin 4) (ok : Bool) (t : Nat),
    let st := s.getF Reg.CP_STATE n 0
    let due := s.fw.kicks[n] + wdtPeriod s n
    let recent := s.fw.restarts[n].filter (fun x => decide (max s.now t < x + 600000000000))
    let handed : Prop := ∃ h, s.fw.handoverAt = some h ∧ t ≤ h + 1000000000
    ((st = 1 ∨ st = 2) → t ≤ due → exec (.wdtKick n t) s = .next
      { s.atTime t with fw := { s.fw with kicks := s.fw.kicks.set n (max t s.fw.kicks[n]) } }) ∧
    ((st ≠ 1 ∧ st ≠ 2) ∨ due < t → exec (.wdtKick n t) s = .next (s.atTime t)) ∧
    ((st ≠ 1 ∧ st ≠ 2) ∨ t < due → exec (.watchdogExpiry n ok t) s = .next s) ∧
    ((st = 1 ∨ st = 2) → due ≤ t → s.power.vaux = true → fwState s ≠ 5 →
      (n = 0 → ∃ u, exec (.watchdogExpiry n ok t) s = .next u ∧ fwState u = 5 ∧ u.getF Reg.CP_STATE 0 0 = 4 ∧
        u.fw.escalatedAt = some (max s.now t) ∧ u.getF Reg.SEC_FATAL 0 0 = 1) ∧
      (n ≠ 0 → handed → ∃ u, exec (.watchdogExpiry n ok t) s = .next u ∧ u.fw.inForce = (1 - s.fw.inForce % 2) % 2 ∧ u.fw.handoverAt = none ∧
        (∀ k : Fin 3, u.getF Reg.CP_SLOT (k.val + 1) 0 = u.fw.inForce) ∧ u.getF Reg.CP_STATE n 0 = st) ∧
      (n ≠ 0 → ¬ handed → ok = true → recent.length < 2 → ∃ u, exec (.watchdogExpiry n ok t) s = .next u ∧ u.getF Reg.CP_STATE n 0 = 3 ∧
        u.getF Reg.CP_RESTARTS n 0 = min (s.getF Reg.CP_RESTARTS n 0 + 1) (2 ^ Reg.CP_RESTARTS.width - 1) ∧ fwState u = fwState s ∧
        u.fw.restarts[n] = recent ++ [max s.now t] ∧ (n = 2 → u.getF Reg.BRK_SAFE_FLOOR 0 0 ≠ 0)) ∧
      (n ≠ 0 → ¬ handed → ok = true → 2 ≤ recent.length → ∃ u, exec (.watchdogExpiry n ok t) s = .next u ∧
        (n = 2 → u.getF Reg.CP_STATE 2 0 = 4 ∧ fwState u = fwState s) ∧ (n ≠ 2 → fwState u = 5 ∧ u.fw.escalatedAt = some (max s.now t)))) ∧
    (st = 3 → n ≠ 3 → ∃ u, exec (.cpRestartComplete n t) s = .next u ∧ (n ≠ 1 → u.getF Reg.CP_STATE n 0 = 2) ∧
      (s.mbx.waiting = [] → u.getF Reg.CP_STATE n 0 = 2 ∧ u.fw.kicks[n] = max s.now t)) ∧
    (st = 3 → n = 3 → s.domains = [] → ∃ u, exec (.cpRestartComplete n t) s = .next u ∧ u.getF Reg.CP_STATE 3 0 = 2 ∧
      u.getF Reg.CP_LAST_RESTART 3 0 = max s.now t % 2 ^ Reg.CP_LAST_RESTART.width) ∧
    (∀ d h, s.fw.handover = some (d, h) → noUnit s = true → handoverReached s d h = true → s.getF Reg.CP_STATE 1 0 = 2 → fwState s = 3 →
      s.mbx.waiting = [] →
      let old := (rtSlot s s.fw.inForce).image
      let new := (rtSlot s (1 - s.fw.inForce % 2)).image
      ∃ u, exec (.handoverBegin t) s = .next (unitStart (applyFrequencies u) t) ∧ u.fw.handover = none ∧
        (imgFmtLo new ≤ imgFmtHi old → imgFmtHi old ≤ imgFmtHi new → u.fw.inForce = (1 - s.fw.inForce % 2) % 2 ∧
          u.getF Reg.MBX_RUNTIME_ID 0 0 = imgId new ∧ u.getF Reg.MBX_VER_MIN 0 0 = imgVerMin new ∧ u.getF Reg.MBX_VER_MAX 0 0 = imgVerMax new ∧
          u.fw.handoverAt = some (max s.now t)) ∧
        ((imgFmtHi old < imgFmtLo new ∨ imgFmtHi new < imgFmtHi old) → u.fw.inForce = s.fw.inForce ∧
          u.getF Reg.MBX_RUNTIME_ID 0 0 = s.getF Reg.MBX_RUNTIME_ID 0 0)) ∧
    (∀ d h, s.fw.handover = some (d, h) → (noUnit s = false ∨ handoverReached s d h = false) →
      exec (.handoverBegin t) s = .next (s.atTime t)) ∧
    (∀ e, s.fw.escalatedAt = some e → (t < e + 10000000000 → noUnit s = false → exec (.escalationWindowExpiry t) s = .next s) ∧
      ((e + 10000000000 ≤ t ∨ noUnit s = true) → ∃ u, exec (.escalationWindowExpiry t) s = .next u ∧ u.fw.escalatedAt = none ∧
        u.power.startDue = some 2))

/-- Spec 11 R450, R483, R484: once a driver has been bound, no host write within the timeout puts the device into HOLD: the bound
domains' cellars are retained and the domains that run no step are parked; a host write that comes later does not undo it; RUN units still running 60 s later complete STOPPED; stage 1
takes a runtime image from flash 300 s after it began to wait. -/
def Obligations.HostLossAndLoadWait : Prop :=
  ∀ (s : State) (t : Nat),
    let due := s.getF Reg.QMGR_HOST_LAST_SEEN 0 0 + 1000000000 * s.getF Reg.QMGR_HOST_LOSS_TIMEOUT 0 0 + s.fw.hostPaused
    let up : Prop := s.getF Reg.CP_STATE 1 0 = 2
    (s.fw.everBound = false ∨ fwState s ≠ 3 ∨ t < due → exec (.hostLossTimeout t) s = .next s) ∧
    (s.fw.everBound = true → fwState s = 3 → up → due ≤ t → ∃ u, exec (.hostLossTimeout t) s = .next u ∧ fwState u = 4 ∧
      u.getF Reg.QMGR_HOLD_ENTRIES 0 0 = min (s.getF Reg.QMGR_HOLD_ENTRIES 0 0 + 1) (2 ^ Reg.QMGR_HOLD_ENTRIES.width - 1) ∧
      u.fw.holdAt = some due ∧ u.getF Reg.SEC_HOLD 0 0 = 1 ∧
      (bit (s.getF (Hdr.INT_STATUS 8 0) 0 0) 0 = false → u.getF (Hdr.ERR_CODE 8 0) 0 0 = 0x060C)) ∧
    (∀ v : Word, s.fw.everBound = true → fwState s = 3 → up → due < t → hostActive s = true →
      ∃ u, exec (.rspHeadWrite v t) s = .next u ∧ u.fw.holdAt = some due) ∧
    (∀ h, s.fw.holdAt = some h → (fwState s ≠ 4 ∨ t < h + 60000000000 → exec (.holdRunLimit t) s = .next s) ∧
      (fwState s = 4 → up → h + 60000000000 ≤ t → ∃ u, exec (.holdRunLimit t) s = .next u ∧ u.now = max s.now t ∧ u.domains = s.domains ∧
        ∀ q x n, s.queues = [q] → q.unit = some n → q.isRun = true → x ∈ unitTiles s n.tiles → (s.tile x).active = true →
          (u.tile x).pstate = .halted ∧ ∃ y, u.queue? q.id = some y ∧ y.unit = none ∧ y.lastId = n.entry.id)) ∧
    (s.fw.holdAt = none → exec (.holdRunLimit t) s = .next s) ∧
    (∀ w, s.fw.loadWaitFrom = some w → (fwState s ≠ 1 ∨ t < w + 300000000000 → exec (.hostLoadWaitExpiry t) s = .next s) ∧
      (fwState s = 1 → w + 300000000000 ≤ t →
        let v := s.atTime t
        let a := (flashPart s false).runtime
        let b := (flashPart s true).runtime
        (imageCheck v 2 0 a = none → exec (.hostLoadWaitExpiry t) s = .next (startRuntime v a true false)) ∧
        (∀ e, imageCheck v 2 0 a = some e → imageCheck (imageFails v e) 2 1 b = none →
          exec (.hostLoadWaitExpiry t) s = .next (startRuntime (imageFails v e) b true true)) ∧
        (∀ e f, imageCheck v 2 0 a = some e → imageCheck (imageFails v e) 2 1 b = some f → ∃ u,
          exec (.hostLoadWaitExpiry t) s = .next u ∧ fwState u = 2 ∧ u.fw.loadWaitFrom = none)))
/-! Supply, breaker, clocks, power domains, ageing. -/

/-- Spec 12 R489, R490, R503 to R505, Tables 12.11 to 12.13: what the breaker does with samples of the input voltage, a regulator's
fault, and its ticks of power and temperature: it filters, throttles, and trips. A trip records its cause, sets the breaker's
cause of ALERT_N, loses DRAM and takes VBUS down. A sample of 0 mV is the removal of VIN (log entry 61). -/
def Obligations.BreakerSamples : Prop :=
  ∀ (s : State) (t : Nat),
    let p := s.power
    let alive : Prop := p.vaux = true ∧ p.tripped = false
    let tripped (u : State) (cause info : Nat) : Prop := u.power.tripped = true ∧ u.power.vbus = false ∧ u.power.startDue = none ∧
      u.dram = [] ∧ u.getF Reg.BRK_TRIP_CAUSE 0 0 = cause ∧ u.getF Reg.BRK_TRIP_INFO 0 0 = info ∧ u.getF Reg.SEC_BREAKER 0 0 = 1 ∧
      u.flash = s.flash ∧ u.fuses = s.fuses
    let levels (u : State) : Prop := ∀ n : Fin 4, u.getF Reg.BRK_THROTTLE 0 n =
      max (max u.power.kP u.power.kT[n]) (max u.power.kS[n] u.power.kA[n]) % 16
    (∃ u, exec (.vinSample 0 t) s = .next u ∧ u.power.vaux = false ∧ u.power.vbus = false ∧ u.power.switchClosed = false ∧
      u.power.startDue = none ∧ u.dram = [] ∧ u.regs = [] ∧ u.flash = s.flash ∧ u.fuses = s.fuses) ∧
    (∀ mv, mv ≠ 0 → alive →
      (∀ f, mv < 38000 → p.uvAt = some f → f + 100000 ≤ t → ∃ u, exec (.vinSample mv t) s = .next u ∧ tripped u 1 0) ∧
      (∀ f, 52000 < mv → p.ovAt = some f → f + 10000 ≤ t → ∃ u, exec (.vinSample mv t) s = .next u ∧ tripped u 2 0) ∧
      (∀ f, 38000 ≤ mv → mv < 40000 → p.lowAt = some f → f + 1000000 ≤ t → p.inputLow = false → ∃ u, exec (.vinSample mv t) s = .next u ∧
        u.power.inputLow = true ∧ u.power.tripped = false ∧ levels u ∧ (∀ n : Fin 4, u.power.kS[n] = 16 - 16000 / (25 * max 1 (curN s n))) ∧
        u.dram = s.dram ∧ (bit (s.getF (Hdr.INT_STATUS 6 0) 0 0) 0 = false → u.getF (Hdr.ERR_CODE 6 0) 0 0 = 0x0701)) ∧
      (∀ f, 40500 ≤ mv → mv ≤ 52000 → p.okAt = some f → f + 100000000 ≤ t → p.inputLow = true → ∃ u, exec (.vinSample mv t) s = .next u ∧
        u.power.inputLow = false ∧ levels u ∧ (s.getF Reg.BRK_SAFE_FLOOR 0 0 = 0 → ∀ n : Fin 4, u.power.kS[n] = 0)) ∧
      (40500 ≤ mv → mv ≤ 52000 → p.inputLow = false → exec (.vinSample mv t) s = .next { s.atTime t with power := { p with
        vinMv := mv, vinOkAt := some (p.vinOkAt.getD t), lowAt := none, uvAt := none, ovAt := none, okAt := some (p.okAt.getD t) } })) ∧
    (p.vaux = true → (∀ n : Fin 24, ∃ u, exec (.railFault true n t) s = .next u ∧ u.dimms[n].pmic = true ∧ u.dram = s.dram ∧
        (bit (s.getF (Hdr.INT_STATUS 19 0) 0 0) 0 = false → u.getF (Hdr.ERR_CODE 19 0) 0 0 = 0x0705 ∧ u.getF (Hdr.ERR_INFO0 19 0) 0 0 = n)) ∧
      (∀ n, p.tripped = false → n < 15 ∨ (32 ≤ n ∧ n < 64) → ∃ u, exec (.railFault false n t) s = .next u ∧ tripped u 3 n)) ∧
    (∀ a b, alive →
      let pcap := s.getF Reg.BRK_PCAP 0 0
      let past := pcap < b
      let peak := s.getF Reg.BRK_FUSE_P_PEAK 0 0 < a
      let ms := p.kPAt + 1000000 ≤ t
      ∀ k1 k, k1 = p.kP + (if peak then 2 else 0) + (if past ∧ ms then 1 else 0) →
        k = min 14 (if 100 * b < 95 * pcap ∧ ¬ peak ∧ ms then k1 - 1 else k1) →
        ((k ≠ 14 ∨ p.kPTop = none ∨ (¬ past ∧ ¬ peak)) → ∃ u, exec (.breakerPowerTick a b t) s = .next u ∧ u.power.kP = k ∧ levels u ∧
          u.getF Reg.BRK_P_IN 0 0 = min b 4095 ∧ u.power.tripped = false ∧ u.power.kPAt = (if ms then t else p.kPAt)) ∧
        (∀ f, k = 14 → p.kPTop = some f → f + 10000000 ≤ t → (past ∨ peak) → ∃ u, exec (.breakerPowerTick a b t) s = .next u ∧
          tripped u 4 0)) ∧
    (∀ temps : List Nat, temps.length ≠ 42 → exec (.breakerThermalTick temps t) s = .refused (.illFormed "not one reading of each of the 42 sensors")) ∧
    (∀ temps : List Nat, temps.length = 42 → alive →
      let cfg := s.getF Reg.BRK_T_THROTTLE_CFG 0 0
      let limit := s.getF Reg.BRK_FUSE_T_TRIP 0 0
      let deg (k : Nat) : Nat := temps.getD k 0
      let sensor (n : Fin 4) (k : Nat) : Prop := (8 * n.val ≤ k ∧ k < 8 * n.val + 8) ∨ k = 32 + 2 * n.val ∨ k = 33 + 2 * n.val
      ((∀ k, k < 42 → deg k < limit) → ∃ u, exec (.breakerThermalTick temps t) s = .next u ∧ levels u ∧ u.power.tripped = false ∧
        (∀ n : Fin 4, (∃ k, sensor n k ∧ cfg < deg k) → p.kTUp[n] + 100000 ≤ t → u.power.kT[n] = min 14 (p.kT[n] + 1)) ∧
        (∀ n : Fin 4, (∀ k, sensor n k → deg k + 3 ≤ cfg) → p.kTDown[n] + 10000000 ≤ t → u.power.kT[n] = p.kT[n] - 1) ∧
        (∀ n : Fin 4, (∀ k, sensor n k → deg k ≤ cfg) → (∃ k, sensor n k ∧ cfg < deg k + 3) → u.power.kT[n] = p.kT[n]) ∧
        (u.getF Reg.BRK_HEARTH_HOT 0 0 = if cfg < deg 40 ∨ cfg < deg 41 then 1 else 0) ∧
        ∀ c : Fin 32, u.getF Reg.AGE_TEMP (c.val / 8) (c.val % 8) = min 255 (deg c)) ∧
      (∀ k f, k < 42 → limit ≤ deg k → p.hotAt.find? (fun x => x.1 == k) = some (k, f) → f + 100000 ≤ t →
        ∃ u j, exec (.breakerThermalTick temps t) s = .next u ∧ j < 42 ∧ limit ≤ deg j ∧ tripped u 5 j))

/-- Spec 12 R497 to R502, R507, R509, R513: limits are clamped to the fused ones and written by CP2, and by CP0 during a start; CP2_LIVE
keeps the device out of SAFE_FLOOR, 50 ms without it bring it there, also where the next CP2_LIVE comes later; CP1 applies a target frequency to a stack that runs nothing, between steps;
island voltages only rise, and not in SAFE_FLOOR, and do not pass V_CEIL. A limit below its range is log entry 52. -/
def Obligations.LimitsClocksAndVoltages : Prop :=
  ∀ (s : State) (a : Actor) (t : Nat),
    let get (f : Fld) (i : Nat) : Nat := s.getF f 0 i
    let writer : Prop := a = .cp 2 ∨ (a = .cp 0 ∧ (s.power.startDue.isSome = true ∨ fwState s ≤ 1))
    (¬ writer → ∀ l v, exec (.breakerLimitWrite a l v) s = .next s) ∧
    (writer → ∀ v : Word,
      (get Reg.CONFIG_CFG_LOCK 0 ≠ 0 → exec (.breakerLimitWrite a .pcap v) s = .next s ∧ exec (.breakerLimitWrite a .tThrottle v) s = .next s) ∧
      (get Reg.CONFIG_CFG_LOCK 0 = 0 →
        exec (.breakerLimitWrite a .pcap v) s = .next (s.setF Reg.BRK_PCAP 0 0 (max 1200 (min v.toNat (get Reg.BRK_FUSE_P_CONT 0)))) ∧
        exec (.breakerLimitWrite a .tThrottle v) s = .next (s.setF Reg.BRK_T_THROTTLE_CFG 0 0 (max 85 (min v.toNat (get Reg.BRK_FUSE_T_THROTTLE 0))))) ∧
      (∀ n : Fin 4, exec (.breakerLimitWrite a (.targetN n) v) s = .next (s.setF Reg.BRK_TARGET_N 0 n
        (max (get Reg.BRK_FUSE_FLOOR_N 0) (min v.toNat (get Reg.BRK_FUSE_F_MAX_N 0)))))) ∧
    (a ≠ .cp 2 ∨ s.power.vaux = false → exec (.cp2Live a t) s = .next s) ∧
    (a = .cp 2 → s.power.vaux = true →
      (get Reg.BRK_SAFE_FLOOR 0 = 0 → t ≤ s.power.liveAt + 50000000 →
        exec (.cp2Live a t) s = .next { s.atTime t with power := { s.power with liveAt := t } }) ∧
      (get Reg.BRK_SAFE_FLOOR 0 = 0 → s.power.liveAt + 50000000 < t → s.power.tripped = false → s.power.perstLow = false →
        s.getF Reg.CP_STATE 2 0 = 2 → ∃ u, exec (.cp2Live a t) s = .next u ∧ u.getF Reg.BRK_SAFE_FLOOR 0 0 = 0 ∧ u.power.liveAt = t ∧
          bit (u.getF (Hdr.INT_STATUS 6 0) 0 0) 1 = true) ∧
      (get Reg.BRK_SAFE_FLOOR 0 ≠ 0 → s.getF Reg.CP_STATE 2 0 = 2 → ∃ u, exec (.cp2Live a t) s = .next u ∧ u.getF Reg.BRK_SAFE_FLOOR 0 0 = 0 ∧
        u.power.liveAt = t ∧ (∀ n : Fin 4, u.getF Reg.BRK_TARGET_N 0 n = s.power.plan[n] % 64) ∧
        (s.power.inputLow = false → ∀ n : Fin 4, u.power.kS[n] = 0))) ∧
    (t < s.power.liveAt + 50000000 → exec (.cp2LiveExpiry t) s = .next s) ∧
    (s.power.liveAt + 50000000 ≤ t → s.power.vaux = true → s.power.tripped = false → s.power.perstLow = false → get Reg.BRK_SAFE_FLOOR 0 = 0 →
      ∃ u, exec (.cp2LiveExpiry t) s = .next u ∧ u.getF Reg.BRK_SAFE_FLOOR 0 0 = 1 ∧ bit (u.getF (Hdr.INT_STATUS 6 0) 0 0) 1 = true ∧
        (∀ n : Fin 4, u.power.kS[n] = 16 - 16000 / (25 * max 1 (curN s n))) ∧
        (bit (s.getF (Hdr.INT_STATUS 6 0) 0 0) 0 = false → u.getF (Hdr.ERR_CODE 6 0) 0 0 = 0x0709 ∧ u.getF (Hdr.ERR_INFO0 6 0) 0 0 = 1)) ∧
    (∀ n : Fin 4,
      let want := if get Reg.BRK_SAFE_FLOOR 0 = 0 then get Reg.BRK_TARGET_N n else min 40 (get Reg.BRK_TARGET_N n)
      (a ≠ .cp 1 → exec (.freqApply a n t) s = .next s) ∧
      (a = .cp 1 → (s.getF Reg.CP_STATE 1 0 = 2 ∧ stackBusy s n = false ∧ stackInStep s n = false ∧ s.power.change[n] = none ∧ want ≠ curN s n →
          exec (.freqApply a n t) s = .next { s.atTime t with power := { s.power with change := s.power.change.set n (some want) } }) ∧
        (stackBusy s n = true ∨ stackInStep s n = true ∨ want = curN s n → exec (.freqApply a n t) s = .next (s.atTime t))) ∧
      (s.power.change[n] = none → exec (.freqChangeDone n t) s = .next s) ∧
      (∀ v, s.power.change[n] = some v → v < 64 → s.power.stepDue[n] = false → ∃ u, exec (.freqChangeDone n t) s = .next u ∧
        curN u n = v ∧ u.power.change[n] = none ∧ (∀ m, m ≠ n → curN u m = curN s m) ∧
        (∀ i : TileId, (i.val / 32 ≠ n.val → u.tile i = s.tile i) ∧
          ∃ at_ cyc, u.tile i = { s.tile i with anchorAt := at_, anchorCycle := cyc }) ∧ u.dram = s.dram) ∧
      (∀ k : Fin 8, ∀ v : BitVec 16,
        let x := min v.toNat (get Reg.BRK_FUSE_V_CEIL 0)
        (¬ writer ∨ get Reg.BRK_SAFE_FLOOR 0 ≠ 0 ∨ x < s.getF Reg.AGE_V_SET n k → exec (.vSet a n k v) s = .next s) ∧
        (writer → get Reg.BRK_SAFE_FLOOR 0 = 0 → s.getF Reg.AGE_V_SET n k ≤ x → exec (.vSet a n k v) s = .next (s.setF Reg.AGE_V_SET n k x))))

/-- Spec 02 R50; 12 R491 to R496, R513: CP2 and CP0 ask for a domain's state, CP1 only for ON of clusters and regions; a request that the
rules allow starts a transition; its end brings the new state, and a domain that goes OFF loses its registers and tiles; a transition that
does not end in ten times its figure leaves the domain OFF with its FAULT bit. CP2 gates an idle cluster after 1 ms and sends the banks
under one GATED for 100 ms to RETENTION. A request during a transition is log entry 51. CP2 switches off a region that no channel in service,
port, crucible channel or cluster keeps ON, and touches no other; without CP2 nothing changes. A cluster that serves no column is never
allowed to go ON or GATED. -/
def Obligations.PowerDomainTransitions : Prop :=
  (∀ (s : State) (a : Actor) (d : Fin 50) (w : BitVec 2) (t : Nat),
    let v := s.atTime t
    let may : Prop := a = .cp 2 ∨ (a = .cp 0 ∧ (s.power.startDue.isSome = true ∨ fwState s ≤ 1)) ∨ (a = .cp 1 ∧ w = 2#2 ∧ d.val < 40)
    let started (u : State) (x : DomTrans) : Prop := u.power.trans = s.power.trans ++ [x] ∧ domCur u x.dom = 3 ∧
      (∀ e, e ≠ x.dom → domCur u e = domCur s e) ∧ u.tiles = s.tiles ∧ u.dram = s.dram
    (¬ may ∨ s.getF (Hdr.ENABLE 19) 0 0 = 0 → exec (.domainRequest a d w t) s = .next s) ∧
    (may → s.getF (Hdr.ENABLE 19) 0 0 ≠ 0 →
      (domCur s d = 3 → exec (.domainRequest a d w t) s = .next
        (if w ≠ 3#2 ∧ (w ≠ 1#2 ∨ d.val < 32) ∧ d ≠ 44 then v.setF Reg.PSEQ_REQ 0 d w.toNat else v)) ∧
      (domCur s d ≠ 3 → domAllowed s d w.toNat = false → exec (.domainRequest a d w t) s = .next v) ∧
      (domCur s d ≠ 3 → domAllowed s d w.toNat = true → domCur s d = w.toNat → exec (.domainRequest a d w t) s = .next (v.setF Reg.PSEQ_REQ 0 d w.toNat)) ∧
      (domCur s d ≠ 3 → domAllowed s d w.toNat = true → domCur s d ≠ w.toNat → ∃ u, exec (.domainRequest a d w t) s = .next u ∧
        u.getF Reg.PSEQ_REQ 0 d = w.toNat ∧ started u { dom := d, target := w.toNat, since := max s.now t })) ∧
    (s.power.trans.find? (fun x => x.dom == d.val) = none → exec (.domainTransitionEnd d t) s = .next s ∧ exec (.pwrDomainTimeout d t) s = .next s) ∧
    (∀ x, s.power.trans.find? (fun x => x.dom == d.val) = some x → x.target < 3 →
      (transLate s x t = true → exec (.domainTransitionEnd d t) s = .next s) ∧
      (transLate s x t = false → exec (.pwrDomainTimeout d t) s = .next s) ∧
      (transLate s x t = false → s.getF Reg.PSEQ_REQ 0 d = x.target → (d.val < 40 ∨ 44 ≤ d.val) → ∃ u, exec (.domainTransitionEnd d t) s = .next (settleRegions u) ∧
        domCur u d = x.target ∧ u.power.trans = s.power.trans.filter (fun y => y.dom != d.val) ∧ u.dram = s.dram ∧
        (d.val < 32 → x.target = 0 → ∀ i : TileId, i.val / 4 = d.val → u.tile i = { Tile.reset with pantry := (s.tile i).pantry }) ∧
        (32 ≤ d.val → d.val < 40 → x.target = 0 → ∀ i : TileId, regionOf (i.val / 4) = d.val → (u.tile i).pantry = Tile.reset.pantry)) ∧
      (transLate s x t = true → ∃ u, exec (.pwrDomainTimeout d t) s = .next u ∧ domCur u d = 0 ∧ u.getF Reg.PSEQ_FAULT 0 d = 1 ∧
        u.power.trans = s.power.trans.filter (fun y => y.dom != d.val) ∧ (d.val < 32 → d.val ∈ u.power.failedClusters) ∧
        (bit (s.getF (Hdr.INT_STATUS 19 0) 0 0) 0 = false → u.getF (Hdr.ERR_CODE 19 0) 0 0 = 0x0706 ∧ u.getF (Hdr.ERR_INFO0 19 0) 0 0 = d))) ∧
    (∀ c : Fin 32,
      let idle := ((s.power.idleAt.find? (fun x => x.1 == c.val)).map (fun x => x.2)).getD 0
      (domCur s c ≠ 2 ∨ t < idle + 1000000 → exec (.clusterIdleTimeout c t) s = .next s) ∧
      (s.getF Reg.CP_STATE 2 0 = 2 → (∀ q ∈ s.queues, q.unit = none) → domCur s c = 2 → idle + 1000000 ≤ t → domCur s (regionOf c) = 2 →
        clusterServes s c = true → clusterBusy s c = false → s.getF (Hdr.ENABLE 19) 0 0 ≠ 0 → ∃ u, exec (.clusterIdleTimeout c t) s = .next u ∧
        started u { dom := c, target := 1, since := max s.now t }) ∧
      (∀ g, s.power.gatedAt.find? (fun x => x.1 == c.val) = some g → (domCur s c ≠ 1 ∨ t < g.2 + 100000000 → exec (.bankRetentionTimeout c t) s = .next s) ∧
        (s.getF Reg.CP_STATE 2 0 = 2 → domCur s c = 1 → g.2 + 100000000 ≤ t → ∃ u, exec (.bankRetentionTimeout c t) s = .next u ∧
          ∀ i : TileId, i.val / 4 = c.val → ∀ b : Fin 40, (s.tile i).pantry.trans = [] →
            (s.getF Reg.PANTRY_BANK_CUR i b = 2 → u.getF Reg.PANTRY_BANK_CUR i b = 3 ∧ (i.val, b.val) ∈ u.power.gateBanks ∧
              { bank := b.val, target := 1, pending := none, from_ := 2 } ∈ (u.tile i).pantry.trans) ∧
            (s.getF Reg.PANTRY_BANK_CUR i b ≠ 2 → u.getF Reg.PANTRY_BANK_CUR i b = s.getF Reg.PANTRY_BANK_CUR i b))))) ∧
  (∀ (s : State),
    (s.getF Reg.CP_STATE 2 0 ≠ 2 → settleRegions s = s) ∧
    (∀ r, r < 8 → regionIdle s r = false → domCur (settleRegions s) (32 + r) = domCur s (32 + r)) ∧
    (∀ r, r < 8 → s.getF Reg.CP_STATE 2 0 = 2 → s.getF (Hdr.ENABLE 19) 0 0 ≠ 0 → regionIdle s r = true → domCur s (32 + r) = 2 →
      domCur s (40 + r / 2) = 0 → domCur (settleRegions s) (32 + r) = 3 ∧
        ∃ x ∈ (settleRegions s).power.trans, x.dom = 32 + r ∧ x.target = 0) ∧
    (∀ d c, d < 32 → c ≠ 0 → clusterServes s d = false → domAllowed s d c = false) ∧
    (settleRegions s).tiles = s.tiles ∧ (settleRegions s).dram = s.dram)

/-- Spec 12 R508 to R510, R512: at a sample CP2 raises the island voltage of a cluster in service whose slack is short by 5 mV, up to 850 mV;
at 850 mV the stack steps down by one; below the urgent limit the stack is throttled. Every 24 h a drift record is written for each
cluster. -/
def Obligations.AgeingAndDrift : Prop :=
  ∀ (s : State) (t : Nat),
    (s.getF Reg.CP_STATE 2 0 ≠ 2 → (∀ rs, exec (.ageingSample rs t) s = .next (s.atTime t)) ∧ exec (.driftRecordDaily t) s = .next s) ∧
    (t < s.power.driftAt + 86400000000000 → exec (.driftRecordDaily t) s = .next s) ∧
    (s.getF Reg.CP_STATE 2 0 = 2 →
      (∀ r : AgeReading, ∀ n : Fin 4, ∀ k : Fin 8, r.cluster.val = 8 * n.val + k.val → ∃ u, exec (.ageingSample [r] t) s = .next u ∧
        u.getF Reg.AGE_CPR0_SLACK n k = min 255 r.cpr0 ∧ u.getF Reg.AGE_CPR1_SLACK n k = min 255 r.cpr1 ∧ u.getF Reg.AGE_TEMP n k = min 255 r.temp ∧
        (15 ≤ r.cpr0 → 15 ≤ r.cpr1 → u.getF Reg.AGE_V_SET n k = s.getF Reg.AGE_V_SET n k ∧ u.power = s.power) ∧
        (clusterInService s r.cluster = true → s.getF Reg.BRK_SAFE_FLOOR 0 0 = 0 → s.getF Reg.BRK_FUSE_V_CEIL 0 0 = 850 →
          (r.cpr0 < 15 ∨ r.cpr1 < 15) →
          (s.getF Reg.AGE_V_SET n k < 850 → u.getF Reg.AGE_V_SET n k = min 850 (s.getF Reg.AGE_V_SET n k + 5) ∧ u.power.plan = s.power.plan) ∧
          (850 ≤ s.getF Reg.AGE_V_SET n k → s.power.stepDue[n] = false →
            (40 < s.power.plan[n] → u.power.plan[n] = s.power.plan[n] - 1 ∧ u.power.stepDue[n] = true ∧
              u.getF Reg.BRK_TARGET_N 0 n = (s.power.plan[n] - 1) % 64) ∧
            (s.power.plan[n] ≤ 40 → u.power.plan[n] = s.power.plan[n] ∧ 2 ≤ u.power.kA[n])) ∧
          (r.cpr0 < 8 ∨ r.cpr1 < 8 → 2 ≤ u.power.kA[n]))) ∧
      (s.power.driftAt + 86400000000000 ≤ t → (flashPart s false).drift.length + 32 ≤ 65536 → ∃ u, exec (.driftRecordDaily t) s = .next u ∧ u.power.driftAt = t ∧
        (flashPart u false).drift = (flashPart s false).drift ++ (List.range 32).map (driftRecord (s.atTime t) 1) ∧
        u.regs = s.regs ∧ u.dram = s.dram))
/-! Pins, starts, the module; the queue of commands; what every step keeps. -/

/-- Spec 13 R514, R515, R531, R535, 14 R555, R558, R559, 15 R565, R566, R571, R574: what the module's pins do. SENSE_N and 10 ms of VIN close the input
switch; PERST_N resets the tiles, the queues and the domains and keeps what H_AON and DRAM hold, and after 10 s without VBUS loses DRAM; its release asks for a start with its reason; the
host clears causes of ALERT_N; CP0 locks the configuration. A port whose cage fails is log entry 53. -/
def Obligations.ModulePins : Prop :=
  ∀ (s : State) (t : Nat),
    let p := s.power
    let v := s.atTime t
    exec (.senseNMake t) s = .next { v with power := { p with senseLow := true } } ∧
    (∃ u, exec (.senseNOpen t) s = .next u ∧ u.power.senseLow = false ∧ u.power.vaux = false ∧ u.power.vbus = false ∧ u.power.switchClosed = false ∧
      u.power.startDue = none ∧ u.dram = [] ∧ u.regs = [] ∧ u.flash = s.flash ∧ u.fuses = s.fuses) ∧
    (p.senseLow = false ∨ p.switchClosed = true ∨ (∀ f, p.vinOkAt = some f → t < f + 10000000) → exec (.inputSwitchClose t) s = .next s) ∧
    (∀ f, p.senseLow = true → p.switchClosed = false → p.vinOkAt = some f → f + 10000000 ≤ t → exec (.inputSwitchClose t) s = .next { v with power := { p with
      switchClosed := true, vaux := true, vbus := true, pwrGood := true, fresh := true
      haFrom := if p.perstLow = true then none else some t, startDue := if p.perstLow = true then none else some 0 } }) ∧
    (p.perstLow = true → exec (.perstNAssert t) s = .next s) ∧
    (p.perstLow = false → p.vaux = true → ∃ u, exec (.perstNAssert t) s = .next u ∧ u.power.perstLow = true ∧ u.power.perstAt = t ∧ u.power.startDue = none ∧
      u.power.dramHeld = p.vbus ∧ u.dram = s.dram ∧ u.tiles = State.reset.tiles ∧ u.queues = [] ∧ u.domains = [] ∧ u.flash = s.flash ∧ u.fuses = s.fuses ∧
      (∀ f ∈ [Reg.BRK_TRIP_CAUSE, Reg.BRK_TRIP_INFO, Reg.SEC_FATAL, Reg.SEC_BREAKER, Reg.SEC_HOLD], u.getF f 0 0 = s.getF f 0 0) ∧
      u.getF Reg.MBX_FW_STATE 0 0 = 0 ∧ u.getF Reg.CONFIG_CFG_LOCK 0 0 = 0) ∧
    (p.perstLow = false ∨ t ≤ p.perstAt + 10000000000 → exec (.perstNHoldExpiry t) s = .next s) ∧
    (p.perstLow = true → p.perstAt + 10000000000 < t → exec (.perstNHoldExpiry t) s = .next { v with
      dram := [], dramCe := [], dramUe := [], digests := [], power := { p with dramHeld := false, vbus := false } }) ∧
    (p.perstLow = false → exec (.perstNRelease t) s = .next s) ∧
    (p.perstLow = true → p.vaux = true → ∃ u, exec (.perstNRelease t) s = .next u ∧ u.power.perstLow = false ∧ u.power.tripped = false ∧ u.power.vbus = true ∧
      u.power.haFrom = some t ∧ u.power.startDue = some (if p.tripped = true then 4 else if p.fresh = true then 0 else 1) ∧
      u.dram = (if p.perstAt + 10000000000 < t then [] else s.dram)) ∧
    (∀ a : Actor, (a = .cp 0 → exec (.cfgLock a) s = .next (s.setF Reg.CONFIG_CFG_LOCK 0 0 1)) ∧ (a ≠ .cp 0 → exec (.cfgLock a) s = .next s) ∧
      ∀ m : Word, (a ≠ .host → exec (.alertPendingClear a m) s = .next s) ∧
        (a = .host → ∃ u, exec (.alertPendingClear a m) s = .next u ∧ u = { s with regs := u.regs } ∧
          ∀ k : Fin 3, let f := [Reg.SEC_FATAL, Reg.SEC_BREAKER, Reg.SEC_HOLD][k.val]
            u.getF f 0 0 = if m[k.val] = true then 0 else s.getF f 0 0)) ∧
    (∀ r x : Byte, (smbusAnswers s = false ∨ r ≠ 1#8 → exec (.smbusByteWrite r x) s = .next s) ∧
      (smbusAnswers s = true → exec (.smbusByteWrite 1#8 x) s = exec (.alertPendingClear .host (x.setWidth 32)) s)) ∧
    (∀ f, p.wakeLow = some f → exec (.wakeNPulseEnd t) s = .next (if t < f + 100000000 then s else
      { v with power := { p with wakeLow := none, wakeFree := some t } })) ∧
    (∀ c : Fin 8, ∃ u, exec (.cageRegulatorFault c t) s = .next u ∧ u.power.cages = p.cages.set c false ∧
      (2 ≤ portState s c → portState s c ≤ 4 → portState u c = 5 ∧
        (bit (s.getF (Hdr.INT_STATUS 4 0) c 0) 0 = false → u.getF (Hdr.ERR_CODE 4 0) c 0 = 0x0401)) ∧
      (portState s c < 2 ∨ portState s c = 5 → portState u c = portState s c))

/-- Spec 13 R514 to R519, R525, R529, 11 R444 to R451, R476: a start that is due runs once the module has power and is out of reset: stage 1 comes from
FA, or else FB, with neither the device stays in ROM_RECOVERY (FW_STATE 0, code 0x0607); the kind of the start is COLD unless DRAM was
held and its table is good; the configuration is locked; a device without the minimum service set, or decommissioned, ends in
SERVICE_ONLY. The start is one command here, which is log entry 62. -/
def Obligations.StartsOfTheDevice : Prop :=
  ∀ (s : State) (f : StartFinds),
    let p := s.power
    (p.startDue = none ∨ p.vaux = false ∨ p.perstLow = true ∨ p.tripped = true → exec (.deviceStart f) s = .next s) ∧
    (∀ reason, p.startDue = some reason → p.vaux = true → p.perstLow = false → p.tripped = false → s.getF Reg.CP_STATE 0 0 ≠ 1 → ∃ u, exec (.deviceStart f) s = .next u ∧
      u.power.startDue = none ∧ u.power.fresh = false ∧ u.fuses = s.fuses ∧ max s.now f.time ≤ u.now ∧
      ((imageCheck (startBegins s reason f.time false) 1 0 (flashPart s false).stage1 ≠ none ∧
          imageCheck (startBegins s reason f.time false) 1 1 (flashPart s true).stage1 ≠ none) →
        fwState u = 0 ∧ u.getF Reg.CP_STATE 0 0 = 1) ∧
      (imageCheck (startBegins s reason f.time false) 1 0 (flashPart s false).stage1 = none →
        u.fw.stage1 = (flashPart s false).stage1 ∧ u.getF Reg.CP_STATE 0 0 = 2 ∧ u.getF Reg.CONFIG_CFG_LOCK 0 0 = 1 ∧
        u.getF Reg.MBX_STAGE1_ID 0 0 = imgId (flashPart s false).stage1 ∧
        u.getF Reg.CONFIG_BOOT_COUNT 0 0 = (field (flashPart s false).security 0 4 + 1) % 2 ^ 32 ∧
        (reason ≠ 1 → reason ≠ 2 → u.getF Reg.CONFIG_START_KIND 0 0 = 0) ∧
        (u.getF Reg.CONFIG_START_KIND 0 0 = 0 → u.fw.loadWaitFrom ≠ none → u.dram = []) ∧
        (s.fuses.decom = true → fwState u = 2) ∧
        (f.cp1Ok = false → fwState u = 2 ∧ u.getF Reg.CONFIG_MSS_MISSING 0 0 = 3)))

/-- The queue of commands is the model's own (log entry 1): a step takes the command at its front and answers what `exec` answers for
it in the state whose queue is the rest; on an empty queue a
running tile issues its next bundle, and with none running the device idles. -/
def Obligations.StepRunsFrontCommand : Prop :=
  (∀ (s : State) (c : Instr) (cs : List Instr), step { s with pending := c :: cs } = exec c { s with pending := cs }) ∧
  (∀ s : State, s.pending = [] → (∃ t, step s = .next t ∧ t.pending = []) ∧ ((∀ i, (s.tile i).pstate ≠ .running) → step s = .next s)) ∧
  (∀ (s t : State) (c : Instr), exec c s = .next t → t.pending = s.pending)

/-- Spec 02 R58, 10 R430, 11 R446, 13 R522: from every state, whatever the command, a step that answers a state keeps P0 of every tile all
ones and the memories in their canonical form, does not let device time go back, and undoes no fuse. -/
def Obligations.EveryStepKeepsTheMachineSound : Prop :=
  ∀ s t : State, step s = .next t → (s.sound → t.sound) ∧ s.now ≤ t.now ∧ s.fuses.burntFrom t.fuses
/-! Words of bundles; rules of single registers; reset. -/

/-- Spec 02 Tables 2.2 to 2.8, 2.25, 2.26, 05 Table 5.5, R57: the word of an operation with any fields reads back as that operation with
those fields, in each of the five slots; a word that reads as an operation is the word of it; an opcode that no table lists reads as
a reserved one; a bundle reads as its enabled slots in their order. -/
def Obligations.BundleWordsReadBack : Prop :=
  (∀ op f, decodeVec (encodeVec op f) = .vec op f) ∧
  (∀ op f, (∀ p, op.acfg = some p → f.pass = p) → decodeArr (encodeArr op f) = .arr op f) ∧
  (∀ op f w, decodeAcc (encodeAcc op f) w = .acc op f w) ∧
  (∀ op f, decodeMsg (encodeMsg op f) = .msg op f) ∧
  (∀ op f, decodeCtl (encodeCtl op f) = .ctl op f) ∧
  (∀ w op f, decodeVec w = .vec op f → encodeVec op f = w) ∧
  (∀ w op f, decodeArr w = .arr op f → encodeArr op f = w) ∧
  (∀ w n op f, decodeAcc w n = .acc op f n → encodeAcc op f = w) ∧
  (∀ w op f, decodeMsg w = .msg op f → encodeMsg op f = w) ∧
  (∀ w op f, decodeCtl w = .ctl op f → encodeCtl op f = w) ∧
  (∀ w, (∀ op : VecOp, op.code ≠ w.extractLsb' 4 8) → decodeVec w = .bad 0) ∧
  (∀ w, (∀ op : CtlOp, op.code ≠ w.extractLsb' 4 8) → decodeCtl w = .bad 4) ∧
  (∀ (h : BitVec 8) v a c m k n, decodeBundle (encodeBundle h v a c m k) n = (h.extractLsb' 5 3,
    (if h[0] then [decodeVec v] else []) ++ (if h[1] then [decodeArr a] else []) ++ (if h[2] then [decodeAcc c n] else []) ++
    (if h[3] then [decodeMsg m] else []) ++ (if h[4] then [decodeCtl k] else [])))

/-- Spec 02 R58. -/
def Obligations.GuardsAndP0 : Prop :=
  (∀ w op f, decodeVec w = .vec op f → f.guard = w.extractLsb' 0 4) ∧
  (∀ w op f, decodeArr w = .arr op f → f.guard = w.extractLsb' 0 4) ∧
  (∀ w n op f, decodeAcc w n = .acc op f n → f.guard = w.extractLsb' 0 4) ∧
  (∀ w op f, decodeMsg w = .msg op f → f.guard = w.extractLsb' 0 4) ∧
  (∀ w op f, decodeCtl w = .ctl op f → f.guard = w.extractLsb' 0 4) ∧
  (∀ (t : Tile) (g : BitVec 4) (n : Fin 8) (l : Fin 128), g.toNat % 8 = n.val → guardLane t g l = ((t.p[n])[l] ^^ g[3])) ∧
  (∀ (t : Tile) (mask val : Lanes), t.land (.p 0#3 mask val) = t) ∧
  (∀ t : Tile, t.sound → (∀ l : Fin 128, (t.p[0])[l] = true) ∧ (∀ l, guardLane t 0#4 l = true) ∧
    ∀ o : SlotOp, o.guard = 0#4 → o.acts t = true) ∧
  (∀ i : TileId, (State.reset.tile i).sound) ∧
  (∀ s t : State, step s = .next t → s.sound → ∀ i, (t.tile i).sound)

/-- Spec 14 R538: an aligned access of 8 bytes acts as two of 4 bytes; every access of another size or alignment has no effect, reads
zeros and counts in ACCESS_ERRORS. -/
def Obligations.AccessSizes : Prop :=
  ∀ (s : State) (a : Actor), reaches s a = true →
    (∀ (addr : BitVec 26) (v : Word64), addr.toNat % 8 = 0 → ∀ u, exec (.registerWrite a addr false v) s = .next u → reaches u a = true →
      exec (.registerWrite a addr true v) s = exec (.registerWrite a (addr + 4#26) false (v >>> 32)) u) ∧
    (∀ addr : BitVec 26, addr.toNat % 8 = 0 → ∀ u w, exec (.latchingRead a addr false) s = .next u →
      exec (.latchingRead a (addr + 4#26) false) u = .next w → ∃ x, exec (.latchingRead a addr true) s = .next x ∧
        x.reply = { data := u.reply.data ++ w.reply.data, err := 0 } ∧ u.reply.data.length = 4 ∧ w.reply.data.length = 4 ∧
        x = { w with reply := x.reply }) ∧
    (∀ (addr : BitVec 26) (n : Fin 65) (write : Bool),
      (((n.val = 4 ∧ addr.toNat % 4 = 0) ∨ (n.val = 8 ∧ addr.toNat % 8 = 0)) →
        exec (.bar0InvalidAccess a addr n write) s = .refused (.illFormed "an access of a size and alignment that BAR0 accepts")) ∧
      (¬ ((n.val = 4 ∧ addr.toNat % 4 = 0) ∨ (n.val = 8 ∧ addr.toNat % 8 = 0)) → ∃ u, exec (.bar0InvalidAccess a addr n write) s = .next u ∧
        u.reply = { data := if write then [] else List.replicate n.val 0#8, err := 0 } ∧
        u.getF Reg.SEC_ACCESS_ERRORS 0 0 = min (s.getF Reg.SEC_ACCESS_ERRORS 0 0 + 1) (2 ^ 32 - 1) ∧
        (∀ (g : Fld) (i k : Nat), g.key i k ≠ Reg.SEC_ACCESS_ERRORS.key 0 0 → u.getF g i k = s.getF g i k) ∧
        u = { s with regs := u.regs, reply := u.reply })) ∧
    (∀ (addr : BitVec 26) (wide : Bool) (v : Word64), addr.toNat % (if wide then 8 else 4) ≠ 0 →
      ∃ u w, exec (.registerWrite a addr wide v) s = .next u ∧ exec (.latchingRead a addr wide) s = .next w ∧
        u = { s with regs := u.regs, reply := ⟨[], 0⟩ } ∧ w = { u with reply := ⟨List.replicate (if wide then 8 else 4) 0#8, 0⟩ } ∧
        u.getF Reg.SEC_ACCESS_ERRORS 0 0 = min (s.getF Reg.SEC_ACCESS_ERRORS 0 0 + 1) (2 ^ 32 - 1) ∧
        ∀ (g : Fld) (i k : Nat), g.key i k ≠ Reg.SEC_ACCESS_ERRORS.key 0 0 → u.getF g i k = s.getF g i k)

/-- Spec 14 R549. -/
def Obligations.ForcedInterrupts : Prop :=
  ∀ (s : State) (a : Actor) (ty inst pg : Nat) (mask : Word), inst < blockInstances ty → reaches s a = true → pageTakes s a ty inst = true →
    (pg = 0 ∨ ty = 1 ∧ pg = 5) →
    ∃ u, exec (.intForce a ty inst pg mask) s = .next u ∧
      (∀ b : Fin 32, b.val < intBits ty pg inst → mask[b] = true →
        bit (u.getF (Hdr.INT_STATUS ty pg) inst 0) b = true ∧
        (bit (s.getF (Hdr.INT_ENABLE ty pg) inst 0) b = true → pageIrq u ty inst = true)) ∧
      (∀ b : Fin 32, mask[b] = false → bit (u.getF (Hdr.INT_STATUS ty pg) inst 0) b = bit (s.getF (Hdr.INT_STATUS ty pg) inst 0) b) ∧
      u.getF (Hdr.ERR_CODE ty pg) inst 0 = s.getF (Hdr.ERR_CODE ty pg) inst 0 ∧
      u.getF (Hdr.ERR_INFO0 ty pg) inst 0 = s.getF (Hdr.ERR_INFO0 ty pg) inst 0 ∧
      u.getF (Hdr.ERR_INFO1 ty pg) inst 0 = s.getF (Hdr.ERR_INFO1 ty pg) inst 0 ∧
      (∀ addr : BitVec 26, ∀ p, addr.toNat % 4 = 0 → regPlace addr.toNat = some p → p.ty = ty → p.inst = inst → p.pg = pg → p.off = 0x18 →
        ∃ w, exec (.latchingRead a addr false) u = .next w ∧ w.reply = { data := [0#8, 0#8, 0#8, 0#8], err := 0 })

/-- The state after reset is sound: P0 of every tile reads all ones (spec 02 R58), no memory lists a byte, no command waits. -/
def Obligations.ResetIsSound : Prop :=
  State.reset.sound ∧ State.reset.pending = [] ∧ ∀ (i : TileId) (l : Fin 128), ((State.reset.tile i).p[0])[l] = true

/-- Reset values that the tables of the spec state: spec 12 Tables 12.5, 12.8, 12.9, 11 Tables 11.1, 11.20, 11.21, 14 Table 14.4, 03 R119: the limits and the
stack frequencies, every domain OFF but H_AON, ENABLE of the always-on blocks, CFG_LOCK 0, ROM_RECOVERY's state, watchdogs, the host timeout, the
window of master CP; every tile IDLE with empty doors. -/
def Obligations.ResetValues : Prop :=
  let get (f : Fld) (i k : Nat) : Nat := State.reset.getF f i k
  get Reg.BRK_PCAP 0 0 = 2400 ∧ get Reg.BRK_T_THROTTLE_CFG 0 0 = 105 ∧ (∀ n : Fin 4, get Reg.BRK_TARGET_N 0 n = 56 ∧ get Reg.BRK_CUR_N 0 n = 56 ∧
    get Reg.BRK_THROTTLE 0 n = 0) ∧ get Reg.BRK_SAFE_FLOOR 0 0 = 0 ∧ get Reg.BRK_TRIP_CAUSE 0 0 = 0 ∧
  (∀ d : Fin 50, get Reg.PSEQ_CUR 0 d = if d = 44 then 2 else 0) ∧ get Reg.CONFIG_CFG_LOCK 0 0 = 0 ∧
  (∀ ty : Fin 20, get (Hdr.ENABLE ty) 0 0 = if ty ∈ [6, 11, 12, 13, 15, 19] then 1 else 0) ∧
  (∀ ty : Fin 20, get (Hdr.INT_STATUS ty 0) 0 0 = 0 ∧ get (Hdr.INT_ENABLE ty 0) 0 0 = 0 ∧ get (Hdr.ERR_CODE ty 0) 0 0 = 0) ∧
  get Reg.CP_WDT_PERIOD 0 0 = 500 ∧ (∀ n : Fin 3, get Reg.CP_WDT_PERIOD (n.val + 1) 0 = 100) ∧ get Reg.QMGR_HOST_LOSS_TIMEOUT 0 0 = 30 ∧
  get Reg.MBX_BOUND 0 0 = 0 ∧ get Reg.HP_ROLE 0 0 = 0 ∧ get Reg.SEC_ACCESS_ERRORS 0 0 = 0 ∧
  (∀ i : TileId, (State.reset.tile i).pstate = .idle ∧ (State.reset.tile i).inflight = [] ∧ (State.reset.tile i).doors = Vector.replicate 16 [] ∧
    get Reg.TILE_PROG_LEN i 0 = 0) ∧
  State.reset.dram = [] ∧ State.reset.domains = [] ∧ State.reset.queues = [] ∧ State.reset.mbx.waiting = [] ∧ State.reset.now = 0
end

