-- ==== Sys2Proof/Laws/Memory.lean ====
section
/-! SUPPORT. The memory operations: what a byte reads as after each, and that each keeps the canonical form. -/

namespace Sys2Proof.Machine

set_option Elab.async false
set_option linter.all false

/-! Reading after writing. -/

theorem Memory.read_filter (p : Nat → Bool) (m : Memory) (a : Nat) :
    Memory.read (m.filter (fun c => p c.1)) a = if p a then Memory.read m a else 0#8 := by
  induction m with
  | nil => simp [Memory.read]
  | cons c m ih =>
    obtain ⟨x, b⟩ := c
    by_cases hp : p x <;> by_cases hx : x = a <;> simp_all [Memory.read]

theorem Memory.read_insert (m : Memory) (a c : Nat) (b : Byte) :
    Memory.read (Memory.insert m a b) c = if a = c then b else Memory.read m c := by
  induction m with
  | nil => simp [Memory.insert, Memory.read]
  | cons x m ih =>
    obtain ⟨x, y⟩ := x
    simp only [Memory.insert]
    split
    · simp only [Memory.read, ih]
      by_cases h : x = c <;> by_cases h' : a = c <;> simp_all
    · split <;> by_cases h' : a = c <;> simp_all [Memory.read]

/-- A byte read after a store: the byte stored at its address, and every other byte as before. -/
theorem Memory.read_write (m : Memory) (a c : Nat) (b : Byte) :
    Memory.read (Memory.write m a b) c = if a = c then b else Memory.read m c := by
  unfold Memory.write
  split
  · rename_i hb
    rw [Memory.read_filter (fun x => x != a)]
    by_cases h : a = c
    · simp [h, hb]
    · simp [h, Ne.symm h]
  · exact Memory.read_insert m a c b

@[simp] theorem Memory.read_write_same (m : Memory) (a : Nat) (b : Byte) : Memory.read (Memory.write m a b) a = b := by
  simp [Memory.read_write]

theorem Memory.read_write_ne (m : Memory) {a c : Nat} (b : Byte) (h : a ≠ c) :
    Memory.read (Memory.write m a b) c = Memory.read m c := by
  simp [Memory.read_write, h]

/-- A byte read after a store of several bytes. -/
theorem Memory.read_writeL (bs : List Byte) (m : Memory) (a c : Nat) :
    Memory.read (Memory.writeL m a bs) c =
      if a ≤ c ∧ c < a + bs.length then bs.getD (c - a) 0#8 else Memory.read m c := by
  induction bs generalizing m a with
  | nil =>
    rw [if_neg (by simp only [List.length_nil]; omega)]
    rfl
  | cons b bs ih =>
    simp only [Memory.writeL, ih, Memory.read_write, List.length_cons]
    by_cases h1 : a = c
    · subst h1
      have : ¬(a + 1 ≤ a ∧ a < a + 1 + bs.length) := by omega
      simp [this]
    · by_cases h2 : a + 1 ≤ c ∧ c < a + 1 + bs.length
      · have h3 : a ≤ c ∧ c < a + (bs.length + 1) := by omega
        have h4 : c - a = (c - (a + 1)) + 1 := by omega
        simp [h2, h3, h4]
      · have h3 : ¬(a ≤ c ∧ c < a + (bs.length + 1)) := by omega
        rw [if_neg h2, if_neg h3, if_neg h1]

/-- Bytes outside a store are unchanged. -/
theorem Memory.read_writeL_outside (bs : List Byte) (m : Memory) {a c : Nat} (h : c < a ∨ a + bs.length ≤ c) :
    Memory.read (Memory.writeL m a bs) c = Memory.read m c := by
  rw [Memory.read_writeL, if_neg (by omega)]

@[simp] theorem Memory.readN_length (m : Memory) (a n : Nat) : (Memory.readN m a n).length = n := by
  induction n generalizing a with
  | zero => rfl
  | succ n ih => simp [Memory.readN, ih]

theorem Memory.readN_getD (m : Memory) (a n k : Nat) (h : k < n) : (Memory.readN m a n).getD k 0#8 = Memory.read m (a + k) := by
  induction n generalizing a k with
  | zero => omega
  | succ n ih =>
    cases k with
    | zero => simp [Memory.readN]
    | succ k =>
      have := ih (a + 1) k (by omega)
      simp only [Memory.readN, List.getD_cons_succ, this]
      congr 1; omega

/-- What a store wrote reads back. -/
theorem Memory.readN_writeL (bs : List Byte) (m : Memory) (a : Nat) :
    Memory.readN (Memory.writeL m a bs) a bs.length = bs := by
  apply List.ext_getElem
  · simp
  · intro k h1 h2
    have h := Memory.readN_getD (Memory.writeL m a bs) a bs.length k h2
    rw [Memory.read_writeL, if_pos (by omega)] at h
    rw [List.getD_eq_getElem?_getD, List.getD_eq_getElem?_getD, Nat.add_sub_cancel_left,
      List.getElem?_eq_getElem h1, List.getElem?_eq_getElem h2] at h
    exact h

/-- The bytes lost by a clear read 0, the others as before. -/
theorem Memory.read_clear (m : Memory) (lo hi c : Nat) :
    Memory.read (Memory.clear m lo hi) c = if lo ≤ c ∧ c < hi then 0#8 else Memory.read m c := by
  unfold Memory.clear
  rw [Memory.read_filter (fun x => !(decide (lo ≤ x) && decide (x < hi)))]
  by_cases h : lo ≤ c ∧ c < hi
  · simp [h]
  · rw [if_neg h, if_pos (by simp; omega)]

/-! The canonical form. -/

theorem Memory.wfFrom_mono {lo lo' : Nat} {m : Memory} (h : lo ≤ lo') (w : Memory.wfFrom lo' m = true) :
    Memory.wfFrom lo m = true := by
  cases m with
  | nil => rfl
  | cons c m =>
    obtain ⟨a, b⟩ := c
    simp only [Memory.wfFrom, Bool.and_eq_true, decide_eq_true_eq] at w ⊢
    exact ⟨⟨by omega, w.1.2⟩, w.2⟩

theorem Memory.wfFrom_filter (p : Host.Cell → Bool) {lo : Nat} {m : Memory} (w : Memory.wfFrom lo m = true) :
    Memory.wfFrom lo (m.filter p) = true := by
  induction m generalizing lo with
  | nil => rfl
  | cons c m ih =>
    obtain ⟨a, b⟩ := c
    simp only [Memory.wfFrom, Bool.and_eq_true, decide_eq_true_eq] at w
    rw [List.filter_cons]
    split
    · simp only [Memory.wfFrom, Bool.and_eq_true, decide_eq_true_eq]
      exact ⟨w.1, ih w.2⟩
    · exact Memory.wfFrom_mono (by omega) (ih w.2)

theorem Memory.wfFrom_insert {lo : Nat} {m : Memory} {a : Nat} {b : Byte} (hb : b ≠ 0#8) (ha : lo ≤ a)
    (w : Memory.wfFrom lo m = true) : Memory.wfFrom lo (Memory.insert m a b) = true := by
  induction m generalizing lo with
  | nil => simp [Memory.insert, Memory.wfFrom, ha, hb]
  | cons c m ih =>
    obtain ⟨x, y⟩ := c
    simp only [Memory.wfFrom, Bool.and_eq_true, decide_eq_true_eq] at w
    simp only [Memory.insert]
    split
    · simp only [Memory.wfFrom, Bool.and_eq_true, decide_eq_true_eq]
      exact ⟨w.1, ih (by omega) w.2⟩
    · split
      · simp only [Memory.wfFrom, Bool.and_eq_true, decide_eq_true_eq, bne_iff_ne]
        refine ⟨⟨ha, hb⟩, ?_⟩
        have := w.2
        simp_all
      · simp only [Memory.wfFrom, Bool.and_eq_true, decide_eq_true_eq, bne_iff_ne]
        exact ⟨⟨ha, hb⟩, ⟨⟨by omega, by simpa using w.1.2⟩, w.2⟩⟩

/-- A filter keeps the canonical form. -/
theorem Memory.wf_filter (p : Host.Cell → Bool) {m : Memory} (w : m.wf = true) : Memory.wf (m.filter p) = true :=
  Memory.wfFrom_filter p w

/-- A store of one byte keeps the canonical form. -/
theorem Memory.wf_write {m : Memory} (a : Nat) (b : Byte) (w : m.wf = true) : Memory.wf (m.write a b) = true := by
  unfold Memory.write
  split
  · exact Memory.wf_filter _ w
  · exact Memory.wfFrom_insert (by assumption) (Nat.zero_le a) w

/-- A store of several bytes keeps the canonical form. -/
theorem Memory.wf_writeL (bs : List Byte) {m : Memory} (a : Nat) (w : m.wf = true) : Memory.wf (m.writeL a bs) = true := by
  induction bs generalizing m a with
  | nil => exact w
  | cons b bs ih => exact ih (a + 1) (Memory.wf_write a b w)

/-- A loss of bytes keeps the canonical form. -/
theorem Memory.wf_clear {m : Memory} (lo hi : Nat) (w : m.wf = true) : Memory.wf (m.clear lo hi) = true :=
  Memory.wf_filter _ w

@[simp] theorem Memory.wf_nil : Memory.wf [] = true := rfl

end Sys2Proof.Machine
end

