-- ==== Sys2Proof/Laws/Kept.lean ====
section
/-! SUPPORT. What every operation keeps (Kept): the primitive updates, from which the operations' lemmas are assembled. -/

namespace Sys2Proof.Machine

set_option Elab.async false
set_option linter.all false

theorem Fuses.burntFrom_refl (f : Fuses) : f.burntFrom f := ⟨rfl, rfl, rfl, Nat.le_refl _, id, id, Nat.le_refl _⟩

theorem Fuses.burntFrom_trans {f g h : Fuses} (a : f.burntFrom g) (b : g.burntFrom h) : f.burntFrom h :=
  ⟨b.1.trans a.1, b.2.1.trans a.2.1, b.2.2.1.trans a.2.2.1, Nat.le_trans a.2.2.2.1 b.2.2.2.1,
    fun x => b.2.2.2.2.1 (a.2.2.2.2.1 x), fun x => b.2.2.2.2.2.1 (a.2.2.2.2.2.1 x),
    Nat.le_trans a.2.2.2.2.2.2 b.2.2.2.2.2.2⟩

variable {r s t : State}

theorem Kept.refl (s : State) : Kept s s := ⟨Nat.le_refl _, Fuses.burntFrom_refl _, id, rfl⟩

theorem Kept.trans {u : State} (a : Kept s t) (b : Kept t u) : Kept s u :=
  ⟨Nat.le_trans a.now b.now, Fuses.burntFrom_trans a.fuses b.fuses, fun x => b.sound (a.sound x),
    b.queue.trans a.queue⟩

/-- An update that leaves time, fuses, DRAM, tiles and the queue alone. -/
theorem Kept.upd {t' : State} (h : Kept r t) (h1 : t'.now = t.now) (h2 : t'.fuses = t.fuses) (h3 : t'.dram = t.dram)
    (h4 : t'.tiles = t.tiles) (h5 : t'.pending = t.pending) : Kept r t' := by
  refine ⟨h1 ▸ h.now, h2 ▸ h.fuses, fun x => ?_, h5.trans h.queue⟩
  have := h.sound x
  unfold State.sound State.tile at this ⊢
  rw [h3, h4]
  exact this

/-- Any update of the other fields. -/
theorem Kept.mk_upd (h : Kept r t) (a1 : Nat) (a2 : List (Nat × Nat)) (a3 : List NetMsg) (a4 : List NetCredit) (a5 : Reply) (a6 : List Nat) (a7 : List Nat) (a8 : List (Nat × List Nat × List Nat)) (a9 : List Domain) (a10 : List CommitReq) (a11 : Bool) (a12 : List Nat) (a13 : List CruOp) (a14 : List CruDone) (a15 : List CruLate) (a16 : Option ExportJob) (a17 : List Queue) (a18 : Mailbox) (a19 : Firmware) (a20 : Vector FlashPart 2) (a21 : List Sent) (a22 : List (Nat × Nat)) (a23 : List Peer) (a24 : List Route) (a25 : Vector HostLink 2) (a26 : Vector Port 8) (a27 : List (Nat × List Byte)) (a28 : TimeState) (a29 : Vector DimmState 24) (a30 : Bool) (a31 : Power) (a32 : List (Nat × Nat × Nat)) :
    Kept r { t with
      free := a1, regs := a2, net := a3, credits := a4, reply := a5, dramCe := a6, dramUe := a7, digests := a8, domains := a9, commitQ := a10, commitWait := a11, cruQ := a12, cru := a13, cruDone := a14, cruLate := a15, exportJob := a16, queues := a17, mbx := a18, fw := a19, flash := a20, sent := a21, loaded := a22, peers := a23, routes := a24, hostLinks := a25, ports := a26, inbox := a27, timeSt := a28, dimms := a29, torusFabric := a30, power := a31, latches := a32 } := Kept.upd h rfl rfl rfl rfl rfl

/-- Any update of the other fields with one of DRAM that keeps its canonical form. -/
theorem Kept.mk_dram {m : Memory} (h : Kept r t) (w : Memory.wf t.dram = true → Memory.wf m = true) (a1 : Nat) (a2 : List (Nat × Nat)) (a3 : List NetMsg) (a4 : List NetCredit) (a5 : Reply) (a6 : List Nat) (a7 : List Nat) (a8 : List (Nat × List Nat × List Nat)) (a9 : List Domain) (a10 : List CommitReq) (a11 : Bool) (a12 : List Nat) (a13 : List CruOp) (a14 : List CruDone) (a15 : List CruLate) (a16 : Option ExportJob) (a17 : List Queue) (a18 : Mailbox) (a19 : Firmware) (a20 : Vector FlashPart 2) (a21 : List Sent) (a22 : List (Nat × Nat)) (a23 : List Peer) (a24 : List Route) (a25 : Vector HostLink 2) (a26 : Vector Port 8) (a27 : List (Nat × List Byte)) (a28 : TimeState) (a29 : Vector DimmState 24) (a30 : Bool) (a31 : Power) (a32 : List (Nat × Nat × Nat)) :
    Kept r { t with
      dram := m, free := a1, regs := a2, net := a3, credits := a4, reply := a5, dramCe := a6, dramUe := a7, digests := a8, domains := a9, commitQ := a10, commitWait := a11, cruQ := a12, cru := a13, cruDone := a14, cruLate := a15, exportJob := a16, queues := a17, mbx := a18, fw := a19, flash := a20, sent := a21, loaded := a22, peers := a23, routes := a24, hostLinks := a25, ports := a26, inbox := a27, timeSt := a28, dimms := a29, torusFabric := a30, power := a31, latches := a32 } := ⟨h.now, h.fuses, fun x => ⟨w (h.sound x).1, (h.sound x).2⟩, h.queue⟩

/-- An update of DRAM alone. -/
theorem Kept.setDram {m : Memory} (h : Kept r t) (w : Memory.wf t.dram = true → Memory.wf m = true) :
    Kept r { t with dram := m } := ⟨h.now, h.fuses, fun x => ⟨w (h.sound x).1, (h.sound x).2⟩, h.queue⟩

/-- More fuses are burnt. -/
theorem Kept.burn {g : Fuses} (h : Kept r t) (b : t.fuses.burntFrom g) : Kept r { t with fuses := g } :=
  ⟨h.now, Fuses.burntFrom_trans h.fuses b, h.sound, h.queue⟩

/-- Device time goes on. -/
theorem Kept.setNow {n : Nat} (h : Kept r t) (b : t.now ≤ n) : Kept r { t with now := n } :=
  ⟨Nat.le_trans h.now b, h.fuses, h.sound, h.queue⟩

theorem Kept.ite {c : Prop} [Decidable c] {a b : State} (ha : Kept r a) (hb : Kept r b) : Kept r (if c then a else b) := by
  split <;> assumption

theorem Kept.foldl {α : Type} {f : State → α → State} (hf : ∀ s x, Kept r s → Kept r (f s x)) (l : List α) (h : Kept r s) :
    Kept r (l.foldl f s) := by
  induction l generalizing s with
  | nil => exact h
  | cons x l ih => exact ih (hf _ _ h)

theorem Kept.foldl_on {α β : Type} (p : β → State) {f : β → α → β} (hf : ∀ x a, Kept r (p x) → Kept r (p (f x a))) (l : List α)
    {x : β} (h : Kept r (p x)) : Kept r (p (l.foldl f x)) := by
  induction l generalizing x with
  | nil => exact h
  | cons a l ih => exact ih (hf _ _ h)

theorem Kept.foldl_fst {α β : Type} {f : State × β → α → State × β} (hf : ∀ x a, Kept r x.1 → Kept r (f x a).1) (l : List α)
    {x : State × β} (h : Kept r x.1) : Kept r (l.foldl f x).1 := by
  induction l generalizing x with
  | nil => exact h
  | cons a l ih => exact ih (hf _ _ h)

theorem Kept.setTile (h : Kept r s) {i : TileId} {x : Tile} (hx : (s.tile i).sound → x.sound) : Kept r (s.setTile i x) := by
  refine ⟨h.now, h.fuses, fun w => ?_, h.queue⟩
  have hs := h.sound w
  refine ⟨hs.1, fun j => ?_⟩
  simp only [State.tile, State.setTile, Fin.getElem_fin, Vector.getElem_set]
  split
  · exact hx (hs.2 i)
  · exact hs.2 j

theorem Kept.modTile (h : Kept r s) {i : TileId} {f : Tile → Tile} (hf : ∀ x, Tile.sound x → (f x).sound) :
    Kept r (s.modTile i f) := Kept.setTile h (hf _)

/-- An update of a tile that leaves its predicates and its pantry's bytes alone. -/
theorem Tile.sound_upd {t t' : Tile} (h : t.sound) (h1 : t'.p = t.p) (h2 : t'.pantry.mem = t.pantry.mem) : t'.sound := by
  unfold Tile.sound at h ⊢
  rw [h1, h2]; exact h

/-- An update of a tile that leaves its predicates alone and its pantry's bytes in canonical form. -/
theorem Tile.sound_mem {t t' : Tile} (h : t.sound) (h1 : t'.p = t.p) (h2 : Memory.wf t.pantry.mem = true → Memory.wf t'.pantry.mem = true) :
    t'.sound := by
  unfold Tile.sound at h ⊢
  rw [h1]; exact ⟨h.1, h2 h.2⟩

theorem Kept.mapTiles {f : Tile → Tile} (hf : ∀ x, Tile.sound x → (f x).sound) (h : Kept r s) :
    Kept r { s with tiles := s.tiles.map f } := by
  refine ⟨h.now, h.fuses, fun w => ?_, h.queue⟩
  have hs := h.sound w
  refine ⟨hs.1, fun j => ?_⟩
  simp only [State.tile, Fin.getElem_fin, Vector.getElem_map]
  exact hf _ (hs.2 j)

theorem State.setF_kept (h : Kept r s) (f : Fld) (inst i v : Nat) : Kept r (s.setF f inst i v) := Kept.upd h rfl rfl rfl rfl rfl

theorem State.atTime_kept (h : Kept r s) (n : Nat) : Kept r (s.atTime n) :=
  ⟨Nat.le_trans h.now (Nat.le_max_left _ _), h.fuses, h.sound, h.queue⟩

theorem State.useFree_kept (h : Kept r s) : Kept r s.useFree := Kept.upd h rfl rfl rfl rfl rfl

/-- A fold over a memory keeps its canonical form where each of its steps does. -/
theorem Memory.wf_foldl {α : Type} {f : Memory → α → Memory} (hf : ∀ m x, Memory.wf m = true → Memory.wf (f m x) = true)
    (l : List α) {m : Memory} (w : Memory.wf m = true) : Memory.wf (l.foldl f m) = true := by
  induction l generalizing m with
  | nil => exact w
  | cons a l ih => exact ih (hf _ _ w)

/-- The same of a fold that carries more than the memory. -/
theorem Memory.wf_foldl_fst {α β : Type} {f : Memory × β → α → Memory × β}
    (hf : ∀ m x, Memory.wf m.1 = true → Memory.wf (f m x).1 = true) (l : List α) {m : Memory × β} (w : Memory.wf m.1 = true) :
    Memory.wf (l.foldl f m).1 = true := by
  induction l generalizing m with
  | nil => exact w
  | cons a l ih => exact ih (hf _ _ w)

theorem writeLeaf_wf {m : Memory} (secs : List (List (Nat × Nat))) (k : Nat) (d : List Byte) (w : Memory.wf m = true) :
    Memory.wf (writeLeaf m secs k d) = true := by
  unfold writeLeaf
  split
  · exact w
  · refine Memory.wf_foldl (fun m x h => ?_) _ w
    split
    · exact Memory.wf_write _ _ h
    · exact h

theorem keepRetained_wf {m : Memory} (w : Memory.wf m = true) : Memory.wf (keepRetained m) = true := by
  unfold keepRetained
  dsimp only
  split
  · rfl
  · exact Memory.wf_filter _ w

/-! Operations on one tile. -/

theorem Tile.sound_land {t : Tile} (h : t.sound) (d : Dest) : (t.land d).sound := by
  cases d with
  | v r m x => exact Tile.sound_upd h rfl rfl
  | s r x => exact Tile.sound_upd h rfl rfl
  | p r m x =>
    simp only [Tile.land]
    split
    · exact h
    · rename_i hr
      refine ⟨?_, h.2⟩
      have : r.toFin.val ≠ 0 := fun e => hr (BitVec.eq_of_toFin_eq (Fin.ext e))
      exact (Vector.getElem_set_ne r.toFin.isLt (by decide) this).trans h.1

theorem Tile.sound_foldl_land {t : Tile} (h : t.sound) (ps : List Pend) :
    (ps.foldl (fun (t : Tile) (p : Pend) => t.land p.dst) t).sound := by
  induction ps generalizing t with
  | nil => exact h
  | cons p ps ih => exact ih (Tile.sound_land h p.dst)

theorem Tile.sound_landAll {t : Tile} (h : t.sound) : t.landAll.sound := by
  unfold Tile.landAll
  refine Tile.sound_foldl_land ?_ _
  exact Tile.sound_upd h rfl rfl

theorem Tile.sound_advance {t : Tile} (h : t.sound) : t.advance.sound := by
  unfold Tile.advance
  refine Tile.sound_foldl_land ?_ _
  exact Tile.sound_upd h rfl rfl

theorem Tile.sound_flow {t : Tile} (h : t.sound) (all ops : List SlotOp) (a : Nat) : (t.flow all ops a).sound := by
  unfold Tile.flow
  dsimp only
  repeat' split
  all_goals exact Tile.sound_upd h rfl rfl

theorem Tile.sound_dropEngines {t : Tile} (h : t.sound) : t.dropEngines.sound := Tile.sound_upd h rfl rfl

theorem Tile.sound_reset : Tile.sound Tile.reset := ⟨by decide, by decide⟩

end Sys2Proof.Machine
end

