-- ==== Sys2Proof/Laws/KeptTile.lean ====
section
/-! SUPPORT. What every operation keeps, for the operations of tiles: slots, stalls, engines and pantries. -/

namespace Sys2Proof.Machine

set_option Elab.async false
set_option linter.all false

/-! Operations of Machine/Ops.lean. -/

theorem State.countF_kept {r₀ : State} {s : State} (h : Kept r₀ s) (f : Fld) (inst : Nat) (i : Nat) (n : Nat) :
    Kept r₀ (State.countF s f inst i n) := by
  unfold State.countF
  repeat' (first | with_reducible assumption | with_reducible apply State.setF_kept)

theorem State.wrapF_kept {r₀ : State} {s : State} (h : Kept r₀ s) (f : Fld) (inst : Nat) (i : Nat) (n : Nat) :
    Kept r₀ (State.wrapF s f inst i n) := by
  unfold State.wrapF
  repeat' (first | with_reducible assumption | with_reducible apply State.setF_kept)

theorem State.setAll_kept {r s : State} (h : Kept r s) (f : Fld) (inst v : Nat) (n : Nat) :
    Kept r (s.setAll f inst v n) := by
  induction n with
  | zero => exact h
  | succ n ih => exact State.setF_kept ih f inst n v

theorem State.resetFld_kept {r s : State} (h : Kept r s) (f : Fld) (inst : Nat) (n : Nat) :
    Kept r (s.resetFld f inst n) := by
  induction n with
  | zero => exact h
  | succ n ih => exact State.setF_kept ih f inst n _

theorem State.resetFlds_kept {r₀ : State} {s : State} (h : Kept r₀ s) (fs : List Fld) (inst : Nat) :
    Kept r₀ (State.resetFlds s fs inst) := by
  unfold State.resetFlds
  repeat' (first | with_reducible assumption | with_reducible apply State.resetFld_kept | (with_reducible apply Kept.foldl; intro _ _ _))

theorem State.raise_kept {r₀ : State} {s : State} (h : Kept r₀ s) (ty : Nat) (pg : Nat) (inst : Nat) (b : Nat) :
    Kept r₀ (State.raise s ty pg inst b) := by
  unfold State.raise
  repeat' (first | with_reducible assumption | with_reducible apply State.setF_kept)

theorem State.recordErr_kept {r₀ : State} {s : State} (h : Kept r₀ s) (ty : Nat) (pg : Nat) (inst : Nat) (code : Nat) (i0 : Nat) (i1 : Nat) :
    Kept r₀ (State.recordErr s ty pg inst code i0 i1) := by
  unfold State.recordErr
  repeat' (first | with_reducible assumption | with_reducible apply State.setF_kept | with_reducible apply State.raise_kept | with_reducible apply Kept.ite)

theorem State.clockTo_kept {r₀ : State} {s : State} (h : Kept r₀ s) (i : TileId) (c : Nat) :
    Kept r₀ (State.clockTo s i c) := by
  unfold State.clockTo
  repeat' (first | with_reducible assumption | with_reducible apply State.atTime_kept | with_reducible apply Kept.ite)

/-! Operations of Machine/RegFile.lean. -/

theorem storePart_kept {r₀ : State} {s : State} (h : Kept r₀ s) (inst : Nat) (v : Nat) (p : FldPart) :
    Kept r₀ (storePart s inst v p) := by
  unfold storePart
  repeat' (first | with_reducible assumption | with_reducible apply State.setF_kept)

theorem storeWord_kept {r₀ : State} {s : State} (h : Kept r₀ s) (ty : Nat) (inst : Nat) (pg : Nat) (off : Nat) (v : Nat) :
    Kept r₀ (storeWord s ty inst pg off v) := by
  unfold storeWord
  repeat' (first | with_reducible assumption | with_reducible apply storePart_kept | (with_reducible apply Kept.foldl; intro _ _ _))

/-! Operations of Machine/PantryOps.lean. -/

theorem recordPErr_kept {r₀ : State} {s : State} (h : Kept r₀ s) (i : TileId) (e : PErr) :
    Kept r₀ (recordPErr s i e) := by
  unfold recordPErr
  repeat' (first | with_reducible assumption | with_reducible apply State.countF_kept | with_reducible apply State.recordErr_kept | with_reducible apply Kept.ite)

theorem pantryRead_kept {r₀ : State} {s : State} (h : Kept r₀ s) (i : TileId) (own : Option HazardBy) (x : PAccess) :
    Kept r₀ ((pantryRead s i own x).1) := by
  unfold pantryRead
  repeat' (first | with_reducible assumption | with_reducible apply State.useFree_kept | with_reducible apply State.countF_kept | with_reducible apply recordPErr_kept | with_reducible apply Kept.ite | dsimp only | split)

theorem pantryLoad_kept {r₀ : State} {s : State} (h : Kept r₀ s) (i : TileId) (own : Option HazardBy) (x : PAccess) :
    Kept r₀ ((pantryLoad s i own x).1) := by
  unfold pantryLoad
  repeat' (first | with_reducible assumption | with_reducible apply recordPErr_kept | with_reducible apply pantryRead_kept | split)

theorem State.putPantry_kept {r₀ : State} {s : State} (h : Kept r₀ s) (i : TileId) (a : Nat) (d : List Byte) :
    Kept r₀ (State.putPantry s i a d) := by
  unfold State.putPantry
  repeat' (first | with_reducible assumption | exact fun _ x => Tile.sound_mem x rfl (Memory.wf_writeL _ _) | with_reducible apply Kept.modTile)

theorem pantryStore_kept {r₀ : State} {s : State} (h : Kept r₀ s) (i : TileId) (master : Nat) (handle : Nat) (addr : Nat) (d : List Byte) :
    Kept r₀ ((pantryStore s i master handle addr d).1) := by
  unfold pantryStore
  repeat' (first | with_reducible assumption | with_reducible apply recordPErr_kept | with_reducible apply State.putPantry_kept | split)

theorem State.addHazard_kept {r₀ : State} {s : State} (h : Kept r₀ s) (i : TileId) (h : Hazard) :
    Kept r₀ (State.addHazard s i h) := by
  unfold State.addHazard
  repeat' (first | with_reducible assumption | exact fun _ x => Tile.sound_upd x rfl rfl | with_reducible apply Kept.ite | with_reducible apply Kept.modTile)

theorem State.dropHazards_kept {r₀ : State} {s : State} (h : Kept r₀ s) (i : TileId) (b : HazardBy) :
    Kept r₀ (State.dropHazards s i b) := by
  unfold State.dropHazards
  repeat' (first | with_reducible assumption | exact fun _ x => Tile.sound_upd x rfl rfl | with_reducible apply Kept.modTile)

theorem State.mapHazards_kept {r s : State} (h : Kept r s) (f : List Hazard → List Hazard) : Kept r (s.mapHazards f) :=
  Kept.mapTiles (fun _ x => Tile.sound_upd x rfl rfl) h

theorem State.addDescHazards_kept {r₀ : State} {s : State} (h : Kept r₀ s) (j : TileId) (hs : List Hazard) :
    Kept r₀ (State.addDescHazards s j hs) := by
  unfold State.addDescHazards
  repeat' (first | with_reducible assumption | exact fun _ x => Tile.sound_upd x rfl rfl | with_reducible apply Kept.modTile)

theorem State.settleClashes_kept {r₀ : State} {s : State} (h : Kept r₀ s)  :
    Kept r₀ (State.settleClashes s) := by
  unfold State.settleClashes
  repeat' (first | with_reducible assumption | with_reducible apply State.mapHazards_kept | with_reducible apply Kept.ite)

theorem State.landStores_kept {r₀ : State} {s : State} (h : Kept r₀ s) (i : TileId) (c : Nat) :
    Kept r₀ (State.landStores s i c) := by
  unfold State.landStores
  repeat' (first | with_reducible assumption | exact fun _ x => Tile.sound_upd x rfl rfl | with_reducible apply State.putPantry_kept | (with_reducible apply Kept.foldl; intro _ _ _) | with_reducible apply Kept.modTile)

theorem State.landAllStores_kept {r₀ : State} {s : State} (h : Kept r₀ s) (i : TileId) :
    Kept r₀ (State.landAllStores s i) := by
  unfold State.landAllStores
  repeat' (first | with_reducible assumption | exact fun _ x => Tile.sound_upd x rfl rfl | with_reducible apply State.putPantry_kept | (with_reducible apply Kept.foldl; intro _ _ _) | with_reducible apply Kept.modTile)

/-! Operations of Machine/DramOps.lean. -/

theorem setChan_kept {r₀ : State} {s : State} (h : Kept r₀ s) (c : Nat) (state : Nat) (cause : Nat) :
    Kept r₀ (setChan s c state cause) := by
  unfold setChan
  repeat' (first | with_reducible assumption | with_reducible apply State.setF_kept | with_reducible apply State.raise_kept | with_reducible apply Kept.ite)

theorem retirePending_kept {r₀ : State} {s : State} (h : Kept r₀ s) (c : Nat) (cause : Nat) :
    Kept r₀ (retirePending s c cause) := by
  unfold retirePending
  repeat' (first | with_reducible assumption | with_reducible apply setChan_kept | with_reducible apply Kept.ite)

theorem dramUncorrectable_kept {r₀ : State} {s : State} (h : Kept r₀ s) (a : Nat) :
    Kept r₀ (dramUncorrectable s a) := by
  unfold dramUncorrectable
  repeat' (first | with_reducible assumption | with_reducible apply State.countF_kept | with_reducible apply State.recordErr_kept | with_reducible apply retirePending_kept)

theorem dramRead_kept {r₀ : State} {s : State} (h : Kept r₀ s) (a : Nat) (n : Nat) :
    Kept r₀ ((dramRead s a n).1) := by
  unfold dramRead
  repeat' (first | with_reducible assumption | with_reducible apply State.useFree_kept | with_reducible apply State.countF_kept | with_reducible apply dramUncorrectable_kept | (with_reducible apply Kept.foldl; intro _ _ _) | dsimp only | split | intro _ | refine Kept.mk_dram ?_ ?_ _ _ _ _ _ _ _ _ _ _ _ _ _ _ _ _ _ _ _ _ _ _ _ _ _ _ _ _ _ _ _ _)

theorem dramWrite_kept {r₀ : State} {s : State} (h : Kept r₀ s) (a : Nat) (d : List Byte) :
    Kept r₀ ((dramWrite s a d).1) := by
  unfold dramWrite
  repeat' (first | with_reducible assumption | with_reducible apply State.recordErr_kept | with_reducible apply Memory.wf_writeL | dsimp only | split | refine Kept.mk_dram ?_ ?_ _ _ _ _ _ _ _ _ _ _ _ _ _ _ _ _ _ _ _ _ _ _ _ _ _ _ _ _ _ _ _ _)

/-! Operations of Machine/DescOps.lean. -/

theorem stopWrite_kept {r₀ : State} {x : Nat × State} (h : Kept r₀ x.2) (j : TileId) (a : Nat) (new : List Byte) :
    Kept r₀ (stopWrite j x a new).2 := State.putPantry_kept h j a _

theorem stopRow_kept {r₀ : State} {x : Nat × State} (h : Kept r₀ x.2) (i : TileId) (d : AccDesc) (k : Nat) :
    Kept r₀ (stopRow i d x k).2 := by
  unfold stopRow
  repeat' (first | with_reducible assumption | with_reducible apply stopWrite_kept | with_reducible apply dramWrite_kept | dsimp only | split)

theorem State.stopDescs_kept {r₀ s : State} (h : Kept r₀ s) (i : TileId) : Kept r₀ (s.stopDescs i) := by
  unfold State.stopDescs
  dsimp only
  split
  · exact h
  · refine State.useFree_kept (Kept.foldl_on Prod.snd (fun x d hx => ?_) _ h)
    exact Kept.foldl_on Prod.snd (fun x k hx => stopRow_kept hx i d k) _ hx

theorem State.countStopped_kept {r₀ : State} {s : State} (h : Kept r₀ s) (i : TileId) :
    Kept r₀ (State.countStopped s i) := by
  unfold State.countStopped
  repeat' (first | with_reducible assumption | with_reducible apply State.countF_kept | (with_reducible apply Kept.foldl; intro _ _ _))

theorem State.stopDrains_kept {r₀ s : State} (h : Kept r₀ s) (i : TileId) : Kept r₀ (s.stopDrains i) := by
  unfold State.stopDrains
  dsimp only
  split
  · exact h
  · refine State.useFree_kept (Kept.foldl_on Prod.snd (fun x w hx => stopWrite_kept hx i _ _) _ ?_)
    refine Kept.foldl_on Prod.snd (fun x g hx => stopWrite_kept hx i _ _) _ ?_
    dsimp only
    exact Kept.modTile h (fun _ x => Tile.sound_upd x rfl rfl)

/-! Operations of Machine/TileOps.lean. -/

theorem State.setNum_kept {r₀ : State} {s : State} (h : Kept r₀ s) (i : TileId) (n : BitVec 4) :
    Kept r₀ (State.setNum s i n) := by
  unfold State.setNum
  repeat' (first | with_reducible assumption | with_reducible apply State.setF_kept | with_reducible apply Kept.ite)

theorem State.dropDescHazards_kept {r₀ : State} {s : State} (h : Kept r₀ s) (i : TileId) :
    Kept r₀ (State.dropDescHazards s i) := by
  unfold State.dropDescHazards
  repeat' (first | with_reducible assumption | with_reducible apply State.mapHazards_kept | with_reducible apply Kept.ite)

theorem State.stopTile_kept {r₀ : State} {s : State} (h : Kept r₀ s) (i : TileId) :
    Kept r₀ (State.stopTile s i) := by
  unfold State.stopTile
  repeat' (first | with_reducible assumption | exact fun _ x => Tile.sound_upd x rfl rfl | with_reducible apply State.settleClashes_kept | with_reducible apply State.landAllStores_kept | with_reducible apply State.stopDescs_kept | with_reducible apply State.countStopped_kept | with_reducible apply State.stopDrains_kept | with_reducible apply State.dropDescHazards_kept | with_reducible apply Kept.modTile)

theorem State.tileFault_kept {r₀ : State} {s : State} (h : Kept r₀ s) (i : TileId) (code : Nat) (info1 : Nat) :
    Kept r₀ (State.tileFault s i code info1) := by
  unfold State.tileFault
  repeat' (first | with_reducible assumption | exact fun _ x => Tile.sound_upd x rfl rfl | with_reducible apply State.recordErr_kept | with_reducible apply State.stopTile_kept | with_reducible apply Kept.ite | with_reducible apply Kept.modTile)

theorem State.externalStop_kept {r₀ : State} {s : State} (h : Kept r₀ s) (i : TileId) (code : Nat) :
    Kept r₀ (State.externalStop s i code) := by
  unfold State.externalStop
  repeat' (first | with_reducible assumption | with_reducible apply State.tileFault_kept | with_reducible apply Kept.ite)

/-! Operations of Machine/MessageOps.lean. -/

theorem State.returnCredits_kept {r₀ : State} {s : State} (h : Kept r₀ s) (i : TileId) (d : Nat) (m : DoorMsg) :
    Kept r₀ (State.returnCredits s i d m) := by
  unfold State.returnCredits
  repeat' (first | (with_reducible apply Kept.mk_upd; first | with_reducible assumption | with_reducible apply Kept.ite | (with_reducible apply Kept.foldl; intro _ _ _) | (with_reducible apply Kept.foldl_fst; intro _ _ _) | (with_reducible apply Kept.foldl_on Rows.s; intro _ _ _) | (with_reducible apply Kept.foldl_on GWork.s; intro _ _ _) | dsimp only | split))

theorem doSend_kept {r₀ : State} {s : State} (h : Kept r₀ s) (i : TileId) (op : MsgOp) (f : MsgF) :
    Kept r₀ (doSend s i op f) := by
  unfold doSend
  repeat' (first | with_reducible assumption | exact fun _ x => Tile.sound_upd x rfl rfl | with_reducible apply State.setF_kept | dsimp only | split | (with_reducible apply Kept.mk_upd; first | with_reducible assumption | with_reducible apply State.setF_kept | with_reducible apply Kept.ite | (with_reducible apply Kept.foldl; intro _ _ _) | (with_reducible apply Kept.foldl_fst; intro _ _ _) | (with_reducible apply Kept.foldl_on Rows.s; intro _ _ _) | (with_reducible apply Kept.foldl_on GWork.s; intro _ _ _) | with_reducible apply Kept.modTile | with_reducible apply Kept.setTile | dsimp only | split))

theorem doRecv_kept {r₀ : State} {s : State} (h : Kept r₀ s) (i : TileId) (op : MsgOp) (f : MsgF) (m : HeldMsg) :
    Kept r₀ ((doRecv s i op f m).1) := by
  unfold doRecv
  repeat' (first | with_reducible assumption | exact fun _ x => Tile.sound_upd x rfl rfl | with_reducible apply State.wrapF_kept | with_reducible apply State.returnCredits_kept | with_reducible apply Kept.ite | with_reducible apply Kept.modTile)

theorem doTimeout_kept {r₀ : State} {s : State} (h : Kept r₀ s) (i : TileId) (f : MsgF) :
    Kept r₀ ((doTimeout s i f).1) := by
  unfold doTimeout
  repeat' (first | with_reducible assumption | exact fun _ x => Tile.sound_upd x rfl rfl | with_reducible apply State.countF_kept | with_reducible apply State.wrapF_kept | with_reducible apply State.returnCredits_kept | with_reducible apply Kept.modTile | dsimp only | split)

theorem msgIssue_kept {r₀ : State} {s : State} (h : Kept r₀ s) (i : TileId) (op : MsgOp) (f : MsgF) :
    Kept r₀ ((msgIssue s i op f).1) := by
  unfold msgIssue
  repeat' (first | with_reducible assumption | with_reducible apply doSend_kept | with_reducible apply doRecv_kept | with_reducible apply doTimeout_kept | dsimp only | split)

theorem arriveMsg_kept {r₀ : State} {s : State} (h : Kept r₀ s) (i : TileId) (d : BitVec 4) (m : DoorMsg) (time : Nat) :
    Kept r₀ (arriveMsg s i d m time) := by
  unfold arriveMsg
  repeat' (first | with_reducible assumption | exact fun _ x => Tile.sound_upd x rfl rfl | with_reducible apply State.countF_kept | with_reducible apply State.tileFault_kept | with_reducible apply State.returnCredits_kept | with_reducible apply Kept.ite | with_reducible apply Kept.modTile)

theorem arriveCredit_kept {r₀ : State} {s : State} (h : Kept r₀ s) (i : TileId) (d : SendDest) (n : Nat) :
    Kept r₀ (arriveCredit s i d n) := by
  unfold arriveCredit
  repeat' (first | with_reducible assumption | with_reducible apply State.setF_kept | with_reducible apply State.countF_kept | with_reducible apply State.tileFault_kept | with_reducible apply Kept.ite | dsimp only | split)

/-! Operations of Machine/ArrayOps.lean. -/

theorem State.walkStep_kept {r₀ : State} {s : State} (h : Kept r₀ s) (i : TileId) (w : Nat) (n : Nat) :
    Kept r₀ (State.walkStep s i w n) := by
  unfold State.walkStep
  repeat' (first | with_reducible assumption | with_reducible apply State.setF_kept)

theorem readRow_kept {r₀ : State} {r : Rows} (h : Kept r₀ r.s) (i : TileId) (c : Nat) (w : Nat) (master : Nat) (own : Option HazardBy) (p : Nat) :
    Kept r₀ ((readRow i c w master own r p).s) := by
  unfold readRow
  repeat' (first | with_reducible assumption | with_reducible apply pantryLoad_kept | dsimp only | split)

theorem takeRows_kept {r₀ : State} {s : State} (h : Kept r₀ s) (i : TileId) (feed : Nat) (c : Nat) (n : Nat) :
    Kept r₀ ((takeRows s i feed c n).s) := by
  unfold takeRows
  repeat' (first | with_reducible assumption | with_reducible apply State.walkStep_kept | with_reducible apply readRow_kept | (with_reducible apply Kept.foldl_on Rows.s; intro _ _ _) | dsimp only | split)

theorem drainArray_kept {r₀ : State} {s : State} (h : Kept r₀ s) (i : TileId) (cfg : BitVec 6) (st : Nat) (intPath : Bool) (complex : Bool) (acc : Vector (Vector Word 256) 128) :
    Kept r₀ ((drainArray s i cfg st intPath complex acc).1) := by
  unfold drainArray
  repeat' (first | with_reducible assumption | with_reducible apply State.walkStep_kept | dsimp only | split)

theorem State.modArrays_kept {r₀ : State} {s : State} (h : Kept r₀ s) (i : TileId) (f : Arrays → Arrays) :
    Kept r₀ (State.modArrays s i f) := by
  unfold State.modArrays
  repeat' (first | with_reducible assumption | exact fun _ x => Tile.sound_upd x rfl rfl | with_reducible apply Kept.modTile)

theorem loadSlot_kept {r₀ : State} {s : State} (h : Kept r₀ s) (i : TileId) (b : Bool) (slot : Nat) (feed : Nat) (c : Nat) (rows : Nat) :
    Kept r₀ ((loadSlot s i b slot feed c rows).1) := by
  unfold loadSlot
  repeat' (first | with_reducible assumption | with_reducible apply State.setF_kept | with_reducible apply takeRows_kept | with_reducible apply State.modArrays_kept | dsimp only | split)

theorem startWload_kept {r₀ : State} {s : State} (h : Kept r₀ s) (i : TileId) (c : ArrCmd) :
    Kept r₀ ((startWload s i c).1) := by
  unfold startWload
  repeat' (first | with_reducible assumption | with_reducible apply loadSlot_kept | dsimp only | split)

theorem tapRows_kept {r₀ : State} {s : State} (h : Kept r₀ s) (i : TileId) (mm : Nat) (feed : Nat) (rows : List (List Opnd)) :
    Kept r₀ (tapRows s i mm feed rows) := by
  unfold tapRows
  repeat' (first | with_reducible assumption | exact fun _ x => Tile.sound_upd x rfl rfl | with_reducible apply Kept.modTile)

theorem runArray_kept {r₀ : State} {s : State} (h : Kept r₀ s) (i : TileId) (b : Bool) (plan : Nat) (intPath : Bool) (complex : Bool) (cont : Bool) (lefts : List (List Opnd)) (cols : List (List Opnd)) (total : Nat) (cfg : BitVec 6) (st : Nat) :
    Kept r₀ ((runArray s i b plan intPath complex cont lefts cols total cfg st).1) := by
  unfold runArray
  repeat' (first | with_reducible assumption | with_reducible apply drainArray_kept | with_reducible apply State.modArrays_kept)

theorem startMm_kept {r₀ : State} {s : State} (h : Kept r₀ s) (i : TileId) (c : ArrCmd) :
    Kept r₀ ((startMm s i c).1) := by
  unfold startMm
  repeat' (first | with_reducible assumption | with_reducible apply takeRows_kept | with_reducible apply State.modArrays_kept | with_reducible apply tapRows_kept | with_reducible apply runArray_kept | dsimp only | split)

theorem startCmd_kept {r₀ : State} {s : State} (h : Kept r₀ s) (i : TileId) (c : ArrCmd) :
    Kept r₀ ((startCmd s i c).1) := by
  unfold startCmd
  repeat' (first | with_reducible assumption | with_reducible apply State.setF_kept | with_reducible apply startWload_kept | with_reducible apply startMm_kept | with_reducible apply Kept.ite | dsimp only | split)

theorem writeLines_kept {r₀ : State} (i : TileId) (master : Nat) (ls : List LineWrite) {x : State × Option Nat}
    (h : Kept r₀ x.1) : Kept r₀ (writeLines i master x ls).1 := by
  induction ls generalizing x with
  | nil => exact h
  | cons w ws ih =>
    obtain ⟨s, _ | e⟩ := x
    · exact ih (pantryStore_kept h i master 15 w.addr w.data)
    · exact h

theorem Tile.sound_putBytes {t : Tile} (h : t.sound) (now : Nat) (own : Option Nat) (a : Nat) (d : List Byte) :
    (t.putBytes now own a d).sound := Tile.sound_mem h rfl (Memory.wf_writeL _ _)

theorem Tile.sound_putAll (now : Nat) (own : Option Nat) (ws : List LineWrite) {t : Tile} (h : t.sound) :
    (ws.foldl (fun (t : Tile) (w : LineWrite) => t.putBytes now own w.addr w.data) t).sound := by
  induction ws generalizing t with
  | nil => exact h
  | cons w ws ih => exact ih (Tile.sound_putBytes h _ _ _ _)

theorem stageStream_kept {r₀ s : State} (h : Kept r₀ s) (i : TileId) (stream wait : Nat) (ws : List LineWrite) :
    Kept r₀ (stageStream s i stream wait ws).1 := by
  unfold stageStream
  dsimp only
  split
  · exact recordPErr_kept h i _
  · dsimp only
    exact State.modArrays_kept (Kept.modTile h (fun _ hx => Tile.sound_putAll _ _ ws hx)) i _

theorem stageJob_kept {r₀ : State} {s : State} (h : Kept r₀ s) (i : TileId) (wait : Nat → Nat) (j : DrainJob) :
    Kept r₀ ((stageJob i wait s j).1) := by
  unfold stageJob
  repeat' (first | with_reducible assumption | with_reducible apply stageStream_kept | (with_reducible apply Kept.foldl_fst; intro _ _ _) | split)

/-! Operations of Machine/AccessOps.lean. -/

theorem descFail_kept {r s : State} (h : Kept r s) (i : TileId) (x : DescFail) : Kept r (descFail s i x) := by
  cases x with
  | pantry j e => exact State.externalStop_kept (recordPErr_kept h j e) i e.code
  | fault c info => exact State.tileFault_kept h i c info

theorem markDesc_kept {r₀ : State} {s : State} (h : Kept r₀ s) (i : TileId) (h : Fin 16) (d : AccDesc) :
    Kept r₀ (markDesc s i h d) := by
  unfold markDesc
  repeat' (first | with_reducible assumption | with_reducible apply State.addDescHazards_kept | with_reducible apply Kept.ite | split)

theorem readDesc_kept {r₀ : State} {s : State} (h : Kept r₀ s) (i : TileId) (h : Fin 16) (addr : Nat) (dgo : Nat) (fin : Nat) (seq : Nat) :
    Kept r₀ (readDesc s i h addr dgo fin seq) := by
  unfold readDesc
  repeat' (first | with_reducible assumption | exact fun _ x => Tile.sound_upd x rfl rfl | with_reducible apply pantryLoad_kept | with_reducible apply State.externalStop_kept | with_reducible apply descFail_kept | with_reducible apply markDesc_kept | with_reducible apply Kept.modTile | dsimp only | split)

theorem bindDesc_kept {r₀ : State} {s : State} (h : Kept r₀ s) (i : TileId) (h : Fin 16) (addr : Nat) :
    Kept r₀ (bindDesc s i h addr) := by
  unfold bindDesc
  repeat' (first | with_reducible assumption | exact fun _ x => Tile.sound_upd x rfl rfl | with_reducible apply readDesc_kept | with_reducible apply Kept.modTile)

theorem endHazards_kept {r₀ : State} {s : State} (h : Kept r₀ s) (i : TileId) (h : Fin 16) :
    Kept r₀ (endHazards s i h) := by
  unfold endHazards
  repeat' (first | with_reducible assumption | with_reducible apply State.mapHazards_kept | with_reducible apply Kept.ite)

theorem accIssue_kept {r₀ : State} {s : State} (h : Kept r₀ s) (i : TileId) (op : AccOp) (f : AccF) :
    Kept r₀ ((accIssue s i op f).1) := by
  unfold accIssue
  repeat' (first | with_reducible assumption | exact fun _ x => Tile.sound_upd x rfl rfl | with_reducible apply recordPErr_kept | with_reducible apply pantryLoad_kept | with_reducible apply State.externalStop_kept | with_reducible apply bindDesc_kept | with_reducible apply endHazards_kept | with_reducible apply Kept.modTile | dsimp only | split)

theorem moveRow_kept {r₀ : State} {s : State} (h : Kept r₀ s) (i : TileId) (h : Fin 16) (d : AccDesc) :
    Kept r₀ ((moveRow s i h d).1) := by
  unfold moveRow
  repeat' (first | with_reducible assumption | with_reducible apply pantryLoad_kept | with_reducible apply pantryStore_kept | with_reducible apply dramRead_kept | with_reducible apply dramWrite_kept | dsimp only | split)

theorem countLate_kept {r₀ : State} {s : State} (h : Kept r₀ s) (i : TileId) (d : AccDesc) (c : Nat) (waited : Nat) :
    Kept r₀ (countLate s i d c waited) := by
  unfold countLate
  repeat' (first | with_reducible assumption | with_reducible apply State.setF_kept | with_reducible apply State.countF_kept | with_reducible apply Kept.ite)

theorem State.setDesc_kept {r₀ : State} {s : State} (h : Kept r₀ s) (i : TileId) (h : Fin 16) (d : Option AccDesc) :
    Kept r₀ (State.setDesc s i h d) := by
  unfold State.setDesc
  repeat' (first | with_reducible assumption | exact fun _ x => Tile.sound_upd x rfl rfl | with_reducible apply Kept.modTile)

theorem moveRows_kept {r₀ s : State} (h : Kept r₀ s) (i : TileId) (k : Fin 16) (c late n : Nat) : Kept r₀ (moveRows i k c late n s) := by
  induction n generalizing s with
  | zero => exact h
  | succ n ih =>
    unfold moveRows
    repeat' (first | with_reducible assumption | with_reducible apply ih | with_reducible apply State.externalStop_kept | with_reducible apply State.tileFault_kept | with_reducible apply State.setDesc_kept | with_reducible apply moveRow_kept | with_reducible apply readDesc_kept | with_reducible apply countLate_kept | with_reducible apply Kept.ite | dsimp only | split)

/-! Operations of Machine/GatherOps.lean. -/

theorem readBlock_kept {r₀ : State} {s : State} (h : Kept r₀ s) (i : TileId) (own : HazardBy) (addr : Nat) :
    Kept r₀ ((readBlock s i own addr).1) := by
  unfold readBlock
  repeat' (first | with_reducible assumption | with_reducible apply pantryLoad_kept)

theorem gatherHead_kept {r₀ : State} {s : State} (h : Kept r₀ s) (i : TileId) :
    Kept r₀ (gatherHead s i) := by
  unfold gatherHead
  repeat' (first | with_reducible assumption | exact fun _ x => Tile.sound_upd x rfl rfl | with_reducible apply State.externalStop_kept | with_reducible apply readBlock_kept | with_reducible apply Kept.ite | (with_reducible apply Kept.foldl_fst; intro _ _ _) | with_reducible apply Kept.modTile | dsimp only | split)

theorem issueGstat_kept {r₀ : State} {s : State} (h : Kept r₀ s) (i : TileId) (f : ArrF) :
    Kept r₀ (issueGstat s i f) := by
  unfold issueGstat
  repeat' (first | with_reducible assumption | exact fun _ x => Tile.sound_upd x rfl rfl | with_reducible apply State.addHazard_kept | with_reducible apply Kept.modTile)

theorem blockStart_kept {r₀ : State} {s : State} (h : Kept r₀ s) (i : TileId) (g : GStat) (a : Nat) (b : Nat) :
    Kept r₀ ((blockStart s i g a b).1) := by
  unfold blockStart
  repeat' (first | with_reducible assumption | with_reducible apply readBlock_kept | dsimp only | split)

theorem gstatBlock_kept {r₀ : State} {w : GWork} (h : Kept r₀ w.s) (i : TileId) (g : GStat) (us : List (List Opnd)) (ab : Nat × Nat) :
    Kept r₀ ((gstatBlock i g us w ab).s) := by
  unfold gstatBlock
  repeat' (first | with_reducible assumption | with_reducible apply blockStart_kept | dsimp only | split)

theorem gstatBlocks_kept {r₀ : State} {s : State} (h : Kept r₀ s) (i : TileId) (g : GStat) (us : List (List Opnd)) :
    Kept r₀ ((gstatBlocks s i g us).s) := by
  unfold gstatBlocks
  repeat' (first | with_reducible assumption | with_reducible apply gstatBlock_kept | (with_reducible apply Kept.foldl_on GWork.s; intro _ _ _))

theorem directRows_kept {r₀ : State} {s : State} (h : Kept r₀ s) (i : TileId) (g : GStat) :
    Kept r₀ ((directRows s i g).s) := by
  unfold directRows
  repeat' (first | with_reducible assumption | with_reducible apply pantryLoad_kept | (with_reducible apply Kept.foldl_on Rows.s; intro _ _ _) | dsimp only | split)

theorem directBlocks_kept {r₀ : State} {s : State} (h : Kept r₀ s) (i : TileId) (g : GStat) :
    Kept r₀ ((directBlocks s i g).s) := by
  unfold directBlocks
  repeat' (first | with_reducible assumption | with_reducible apply gstatBlocks_kept | with_reducible apply directRows_kept | dsimp only | split)

theorem orphanTaps_kept {r₀ : State} {s : State} (h : Kept r₀ s) (i : TileId) :
    Kept r₀ (orphanTaps s i) := by
  unfold orphanTaps
  repeat' (first | with_reducible assumption | exact fun _ x => Tile.sound_upd x rfl rfl | with_reducible apply State.countF_kept | with_reducible apply State.dropHazards_kept | with_reducible apply gatherHead_kept | with_reducible apply Kept.ite | (with_reducible apply Kept.foldl; intro _ _ _) | with_reducible apply Kept.modTile)

/-! Operations of Machine/MarverOps.lean. -/

theorem readDense_kept {r₀ : State} {s : State} (h : Kept r₀ s) (i : TileId) (base : Nat) (n : Nat) (cols : Nat) (pitch : Nat) :
    Kept r₀ ((readDense s i base n cols pitch).1) := by
  unfold readDense
  repeat' (first | with_reducible assumption | with_reducible apply pantryLoad_kept | (with_reducible apply Kept.foldl_fst; intro _ _ _) | dsimp only | split)

theorem readTri_kept {r₀ : State} {s : State} (h : Kept r₀ s) (i : TileId) (base : Nat) (n : Nat) :
    Kept r₀ ((readTri s i base n).1) := by
  unfold readTri
  repeat' (first | with_reducible assumption | with_reducible apply pantryLoad_kept | dsimp only | split)

theorem readProblems_kept {r₀ : State} {s : State} (h : Kept r₀ s) (i : TileId) (d : MvDesc) :
    Kept r₀ ((readProblems s i d).1) := by
  unfold readProblems
  repeat' (first | with_reducible assumption | with_reducible apply State.useFree_kept | with_reducible apply readDense_kept | with_reducible apply readTri_kept | (with_reducible apply Kept.foldl_fst; intro _ _ _) | dsimp only | split)

theorem marverError_kept {r₀ : State} {s : State} (h : Kept r₀ s) (i : TileId) (addr : Nat) (code : Nat) (info1 : Nat) :
    Kept r₀ (marverError s i addr code info1) := by
  unfold marverError
  repeat' (first | with_reducible assumption | with_reducible apply State.recordErr_kept | with_reducible apply State.externalStop_kept)

theorem markMarver_kept {r₀ : State} {s : State} (h : Kept r₀ s) (i : TileId) (d : MvDesc) :
    Kept r₀ (markMarver s i d) := by
  unfold markMarver
  repeat' (first | with_reducible assumption | with_reducible apply State.addHazard_kept | (with_reducible apply Kept.foldl; intro _ _ _))

theorem issueMarver_kept {r₀ : State} {s : State} (h : Kept r₀ s) (i : TileId) (addr : Nat) :
    Kept r₀ (issueMarver s i addr) := by
  unfold issueMarver
  repeat' (first | with_reducible assumption | exact fun _ x => Tile.sound_upd x rfl rfl | with_reducible apply markMarver_kept | with_reducible apply Kept.ite | with_reducible apply Kept.modTile)

theorem countProblem_kept {r₀ : State} {s : State} (h : Kept r₀ s) (i : TileId) (o : MvOutcome) :
    Kept r₀ (countProblem s i o) := by
  unfold countProblem
  repeat' (first | with_reducible assumption | with_reducible apply State.countF_kept | with_reducible apply State.raise_kept | with_reducible apply Kept.ite)

theorem spoilProblems_kept {r₀ : State} {s : State} (h : Kept r₀ s) (d : MvDesc) (ps : List MvProblem) :
    Kept r₀ ((spoilProblems s d ps).1) := by
  unfold spoilProblems
  repeat' (first | with_reducible assumption | with_reducible apply State.useFree_kept | (with_reducible apply Kept.foldl_fst; intro _ _ _) | split)

theorem marverFinish_kept {r₀ : State} {s : State} (h : Kept r₀ s) (i : TileId) (d : MvDesc) (ps : List MvProblem) :
    Kept r₀ (marverFinish s i d ps) := by
  unfold marverFinish
  repeat' (first | with_reducible assumption | exact fun _ x => Tile.sound_upd x rfl rfl | with_reducible apply State.wrapF_kept | with_reducible apply State.resetFlds_kept | with_reducible apply recordPErr_kept | with_reducible apply State.putPantry_kept | with_reducible apply State.addHazard_kept | with_reducible apply State.dropHazards_kept | with_reducible apply marverError_kept | with_reducible apply countProblem_kept | with_reducible apply spoilProblems_kept | with_reducible apply Kept.ite | (with_reducible apply Kept.foldl; intro _ _ _) | with_reducible apply Kept.modTile | dsimp only | split)

theorem marverRead_kept {r₀ : State} {s : State} (h : Kept r₀ s) (i : TileId) (d : MvDesc) :
    Kept r₀ (marverRead s i d) := by
  unfold marverRead
  repeat' (first | with_reducible assumption | exact fun _ x => Tile.sound_upd x rfl rfl | with_reducible apply State.dropHazards_kept | with_reducible apply readProblems_kept | with_reducible apply marverError_kept | with_reducible apply markMarver_kept | with_reducible apply Kept.modTile | dsimp only | split)

theorem neverStarted_kept {r₀ : State} {s : State} (h : Kept r₀ s) (d : MvDesc) :
    Kept r₀ ((neverStarted s d).1) := by
  unfold neverStarted
  repeat' (first | with_reducible assumption | with_reducible apply State.useFree_kept | (with_reducible apply Kept.foldl_fst; intro _ _ _))

theorem marverStart_kept {r₀ : State} {s : State} (h : Kept r₀ s) (i : TileId) (k : Nat) :
    Kept r₀ (marverStart s i k) := by
  unfold marverStart
  repeat' (first | with_reducible assumption | exact fun _ x => Tile.sound_upd x rfl rfl | with_reducible apply State.setF_kept | with_reducible apply State.useFree_kept | with_reducible apply State.recordErr_kept | with_reducible apply recordPErr_kept | with_reducible apply pantryLoad_kept | with_reducible apply State.externalStop_kept | with_reducible apply marverError_kept | with_reducible apply marverFinish_kept | with_reducible apply marverRead_kept | with_reducible apply neverStarted_kept | with_reducible apply Kept.ite | with_reducible apply Kept.modTile | dsimp only | split)

/-! Operations of Machine/Issue.lean. -/

theorem pushCmd_kept {r₀ : State} {s : State} (h : Kept r₀ s) (i : TileId) (op : ArrOp) (f : ArrF) (slotA : Nat) (slotB : Nat) :
    Kept r₀ (pushCmd s i op f slotA slotB) := by
  unfold pushCmd
  repeat' (first | with_reducible assumption | exact fun _ x => Tile.sound_upd x rfl rfl | with_reducible apply Kept.modTile)

theorem arrIssue_kept {r₀ : State} {s : State} (h : Kept r₀ s) (i : TileId) (op : ArrOp) (f : ArrF) :
    Kept r₀ (arrIssue s i op f) := by
  unfold arrIssue
  repeat' (first | with_reducible assumption | exact fun _ x => Tile.sound_upd x rfl rfl | with_reducible apply State.setF_kept | with_reducible apply State.resetFlds_kept | with_reducible apply State.modArrays_kept | with_reducible apply issueGstat_kept | with_reducible apply pushCmd_kept | with_reducible apply Kept.ite | with_reducible apply Kept.modTile | dsimp only | split)

theorem slotEffects_kept {r₀ : State} {s : State} (h : Kept r₀ s) (i : TileId) (ops : List SlotOp) :
    Kept r₀ ((slotEffects s i ops).1) := by
  unfold slotEffects
  repeat' (first | with_reducible assumption | exact fun _ x => Tile.sound_upd x rfl rfl | with_reducible apply msgIssue_kept | with_reducible apply accIssue_kept | with_reducible apply issueMarver_kept | with_reducible apply arrIssue_kept | with_reducible apply Kept.ite | (with_reducible apply Kept.foldl; intro _ _ _) | (with_reducible apply Kept.foldl_fst; intro _ _ _) | with_reducible apply Kept.modTile | dsimp only | split)

theorem stallCycles_kept {r₀ : State} {s : State} (h : Kept r₀ s) (i : TileId) (n : Nat) :
    Kept r₀ (stallCycles s i n) := by
  unfold stallCycles
  repeat' (first | with_reducible assumption | exact fun _ x => Tile.sound_upd x rfl rfl | with_reducible apply State.countF_kept | with_reducible apply State.clockTo_kept | with_reducible apply State.landStores_kept | with_reducible apply State.tileFault_kept | with_reducible apply Kept.ite | with_reducible apply Kept.modTile | dsimp only | split)

theorem finishBundle_kept {r₀ : State} {s : State} (h : Kept r₀ s) (i : TileId) (all : List SlotOp) (ops : List SlotOp) (ps : List Pend) :
    Kept r₀ (finishBundle s i all ops ps) := by
  unfold finishBundle
  repeat' (first | with_reducible assumption | exact fun _ x => Tile.sound_upd x rfl rfl | exact fun _ x => Tile.sound_upd (Tile.sound_flow (Tile.sound_advance x) _ _ _) rfl rfl | with_reducible apply State.countF_kept | with_reducible apply State.clockTo_kept | with_reducible apply State.setNum_kept | with_reducible apply State.tileFault_kept | with_reducible apply orphanTaps_kept | with_reducible apply Kept.ite | with_reducible apply Kept.modTile)

theorem issueOps_kept {r₀ : State} {s : State} (h : Kept r₀ s) (i : TileId) (all : List SlotOp) (run : Nat) :
    Kept r₀ (issueOps s i all run) := by
  unfold issueOps
  repeat' (first | with_reducible assumption | exact fun _ x => Tile.sound_upd x rfl rfl | exact fun x => Tile.sound_upd x rfl rfl | with_reducible apply State.countF_kept | with_reducible apply State.landStores_kept | with_reducible apply State.tileFault_kept | with_reducible apply accIssue_kept | with_reducible apply gatherHead_kept | with_reducible apply slotEffects_kept | with_reducible apply stallCycles_kept | with_reducible apply finishBundle_kept | with_reducible apply Kept.ite | (with_reducible apply Kept.foldl; intro _ _ _) | with_reducible apply Kept.modTile | with_reducible apply Kept.setTile | dsimp only | split)

theorem issueBundle_kept {r₀ : State} {s : State} (h : Kept r₀ s) (i : TileId) (hdr : BitVec 3) (ops : List SlotOp) :
    Kept r₀ (issueBundle s i hdr ops) := by
  unfold issueBundle
  repeat' (first | with_reducible assumption | with_reducible apply State.countF_kept | with_reducible apply State.tileFault_kept | with_reducible apply issueOps_kept | with_reducible apply Kept.ite)

theorem issueSlot_kept {r₀ : State} {s : State} (h : Kept r₀ s) (c : Issue) (o : SlotOp) :
    Kept r₀ (issueSlot s c o) := by
  unfold issueSlot
  repeat' (first | with_reducible assumption | exact fun x => Tile.sound_upd x rfl rfl | with_reducible apply issueBundle_kept | with_reducible apply Kept.ite | with_reducible apply Kept.setTile)

theorem stallTo_kept {r₀ : State} {s : State} (h : Kept r₀ s) (i : TileId) (c : Nat) :
    Kept r₀ (stallTo s i c) := by
  unfold stallTo
  repeat' (first | with_reducible assumption | with_reducible apply stallCycles_kept | with_reducible apply Kept.ite)

theorem retryStall_kept {r₀ : State} {s : State} (h : Kept r₀ s) (i : TileId) (cause : Nat) :
    Kept r₀ (retryStall s i cause) := by
  unfold retryStall
  repeat' (first | with_reducible assumption | with_reducible apply issueOps_kept | with_reducible apply Kept.ite | dsimp only | split)

theorem endStall_kept {r₀ : State} {s : State} (h : Kept r₀ s) (i : TileId) :
    Kept r₀ (endStall s i) := by
  unfold endStall
  repeat' (first | with_reducible assumption | exact fun _ x => Tile.sound_upd x rfl rfl | with_reducible apply Kept.ite | with_reducible apply Kept.modTile | dsimp only | split)

theorem tileAt_kept {r₀ : State} {s : State} (h : Kept r₀ s) (i : TileId) (c : Nat) :
    Kept r₀ (tileAt s i c) := by
  unfold tileAt
  repeat' (first | with_reducible assumption | with_reducible apply State.clockTo_kept | with_reducible apply State.landStores_kept | with_reducible apply stallTo_kept)

theorem retryAfter_kept {r₀ : State} {s : State} (h : Kept r₀ s) (i : TileId) (cause : Nat) (c : Nat) :
    Kept r₀ (retryAfter s i cause c) := by
  unfold retryAfter
  repeat' (first | with_reducible assumption | with_reducible apply retryStall_kept | with_reducible apply tileAt_kept | with_reducible apply Kept.ite | split)

theorem settleStall_kept {r₀ : State} {s : State} (h : Kept r₀ s) (i : TileId) :
    Kept r₀ (settleStall s i) := by
  unfold settleStall
  repeat' (first | with_reducible assumption | with_reducible apply stallTo_kept | with_reducible apply Kept.ite)

/-! Operations of Machine/TileEvents.lean. -/

theorem clearCounters_kept {r₀ : State} {s : State} (h : Kept r₀ s) (i : TileId) :
    Kept r₀ (clearCounters s i) := by
  unfold clearCounters
  repeat' (first | with_reducible assumption | with_reducible apply State.resetFlds_kept | with_reducible apply State.modArrays_kept)

theorem beginProgram_kept {r₀ : State} {s : State} (h : Kept r₀ s) (i : TileId) :
    Kept r₀ (beginProgram s i) := by
  unfold beginProgram
  repeat' (first | with_reducible assumption | exact fun _ x => Tile.sound_upd x rfl rfl | with_reducible apply State.resetFlds_kept | with_reducible apply clearCounters_kept | with_reducible apply Kept.modTile)

theorem doStart_kept {r₀ : State} {s : State} (h : Kept r₀ s) (i : TileId) :
    Kept r₀ (doStart s i) := by
  unfold doStart
  repeat' (first | with_reducible assumption | exact fun _ x => Tile.sound_upd x rfl rfl | with_reducible apply beginProgram_kept | with_reducible apply Kept.ite | with_reducible apply Kept.modTile)

theorem setHalted_kept {r₀ : State} {s : State} (h : Kept r₀ s) (i : TileId) :
    Kept r₀ (setHalted s i) := by
  unfold setHalted
  repeat' (first | with_reducible assumption | exact fun _ x => Tile.sound_upd x rfl rfl | with_reducible apply State.raise_kept | with_reducible apply Kept.modTile)

theorem doAbort_kept {r₀ : State} {s : State} (h : Kept r₀ s) (i : TileId) :
    Kept r₀ (doAbort s i) := by
  unfold doAbort
  repeat' (first | with_reducible assumption | with_reducible apply State.stopTile_kept | with_reducible apply settleStall_kept | with_reducible apply setHalted_kept | with_reducible apply Kept.ite)

theorem doSoftReset_kept {r₀ : State} {s : State} (h : Kept r₀ s) (i : TileId) :
    Kept r₀ (doSoftReset s i) := by
  unfold doSoftReset
  repeat' (first | with_reducible assumption | exact fun _ x => ⟨Tile.sound_reset.1, x.2⟩ | with_reducible apply State.countF_kept | with_reducible apply State.resetFlds_kept | with_reducible apply State.stopTile_kept | with_reducible apply settleStall_kept | with_reducible apply clearCounters_kept | with_reducible apply Kept.ite | with_reducible apply Kept.modTile)

theorem doFreeze_kept {r₀ : State} {s : State} (h : Kept r₀ s) (i : TileId) (on : Bool) :
    Kept r₀ (doFreeze s i on) := by
  unfold doFreeze
  repeat' (first | with_reducible assumption | exact fun _ x => Tile.sound_upd x rfl rfl | with_reducible apply State.setF_kept | with_reducible apply retryStall_kept | with_reducible apply settleStall_kept | with_reducible apply Kept.ite | with_reducible apply Kept.modTile | dsimp only | split)

theorem countedStallEnd_kept {r₀ : State} {s : State} (h : Kept r₀ s) (i : TileId) (cause : Nat) :
    Kept r₀ (countedStallEnd s i cause) := by
  unfold countedStallEnd
  repeat' (first | with_reducible assumption | with_reducible apply stallCycles_kept | with_reducible apply endStall_kept | with_reducible apply Kept.ite | split)

theorem drainEnd_kept {r₀ : State} {s : State} (h : Kept r₀ s) (i : TileId) (c : Nat) :
    Kept r₀ (drainEnd s i c) := by
  unfold drainEnd
  repeat' (first | with_reducible assumption | with_reducible apply State.modArrays_kept | with_reducible apply endStall_kept | with_reducible apply tileAt_kept | with_reducible apply Kept.ite | dsimp only | split)

theorem stallLimit_kept {r₀ : State} {s : State} (h : Kept r₀ s) (i : TileId) :
    Kept r₀ (stallLimit s i) := by
  unfold stallLimit
  repeat' (first | with_reducible assumption | with_reducible apply stallCycles_kept | with_reducible apply Kept.ite | dsimp only | split)

theorem fenceEnd_kept {r₀ : State} {s : State} (h : Kept r₀ s) (i : TileId) :
    Kept r₀ (fenceEnd s i) := by
  unfold fenceEnd
  repeat' (first | with_reducible assumption | with_reducible apply retryStall_kept | with_reducible apply tileAt_kept | with_reducible apply Kept.ite | dsimp only | split)

theorem transEnd_kept {r₀ : State} {s : State} (h : Kept r₀ s) (i : TileId) :
    Kept r₀ (transEnd s i) := by
  unfold transEnd
  repeat' (first | with_reducible assumption | with_reducible apply retryStall_kept | with_reducible apply tileAt_kept | with_reducible apply Kept.ite | dsimp only | split)

theorem programHalted_kept {r₀ : State} {s : State} (h : Kept r₀ s) (i : TileId) (c : Nat) :
    Kept r₀ (programHalted s i c) := by
  unfold programHalted
  repeat' (first | with_reducible assumption | exact fun _ x => Tile.sound_upd (Tile.sound_landAll x) rfl rfl | with_reducible apply State.landAllStores_kept | with_reducible apply State.setNum_kept | with_reducible apply tileAt_kept | with_reducible apply setHalted_kept | with_reducible apply Kept.ite | with_reducible apply Kept.modTile)

theorem messageArrival_kept {r₀ : State} {s : State} (h : Kept r₀ s) (i : TileId) (d : BitVec 4) (src : ArrivalSrc) (time : Nat) (c : Nat) :
    Kept r₀ (messageArrival s i d src time c) := by
  unfold messageArrival
  repeat' (first | with_reducible assumption | with_reducible apply State.atTime_kept | with_reducible apply arriveMsg_kept | with_reducible apply retryStall_kept | with_reducible apply tileAt_kept | with_reducible apply Kept.ite | dsimp only | split | (with_reducible apply Kept.mk_upd; first | with_reducible assumption | with_reducible apply State.atTime_kept | with_reducible apply arriveMsg_kept | with_reducible apply retryStall_kept | with_reducible apply tileAt_kept | with_reducible apply Kept.ite | (with_reducible apply Kept.foldl; intro _ _ _) | (with_reducible apply Kept.foldl_fst; intro _ _ _) | (with_reducible apply Kept.foldl_on Rows.s; intro _ _ _) | (with_reducible apply Kept.foldl_on GWork.s; intro _ _ _) | dsimp only | split))

theorem creditReturn_kept {r₀ : State} {s : State} (h : Kept r₀ s) (i : TileId) (src : CreditSrc) (c : Nat) :
    Kept r₀ (creditReturn s i src c) := by
  unfold creditReturn
  repeat' (first | with_reducible assumption | with_reducible apply arriveCredit_kept | with_reducible apply retryStall_kept | with_reducible apply tileAt_kept | with_reducible apply Kept.ite | dsimp only | split | (with_reducible apply Kept.mk_upd; first | with_reducible assumption | with_reducible apply arriveCredit_kept | with_reducible apply retryStall_kept | with_reducible apply tileAt_kept | with_reducible apply Kept.ite | (with_reducible apply Kept.foldl; intro _ _ _) | (with_reducible apply Kept.foldl_fst; intro _ _ _) | (with_reducible apply Kept.foldl_on Rows.s; intro _ _ _) | (with_reducible apply Kept.foldl_on GWork.s; intro _ _ _) | dsimp only | split))

theorem recvtExpiry_kept {r₀ : State} {s : State} (h : Kept r₀ s) (i : TileId) (time : Nat) (c : Nat) :
    Kept r₀ (recvtExpiry s i time c) := by
  unfold recvtExpiry
  repeat' (first | with_reducible assumption | exact fun _ x => Tile.sound_upd x rfl rfl | with_reducible apply State.atTime_kept | with_reducible apply retryStall_kept | with_reducible apply tileAt_kept | with_reducible apply Kept.ite | with_reducible apply Kept.modTile | dsimp only | split)

theorem popEntry_kept {r₀ : State} {s : State} (h : Kept r₀ s) (i : TileId) (id : Nat) :
    Kept r₀ (popEntry s i id) := by
  unfold popEntry
  repeat' (first | with_reducible assumption | with_reducible apply State.modArrays_kept)

theorem countWaits_kept {r₀ : State} {s : State} (h : Kept r₀ s) (i : TileId) (master : Nat) (n : Nat) :
    Kept r₀ (countWaits s i master n) := by
  unfold countWaits
  repeat' (first | with_reducible assumption | with_reducible apply State.countF_kept | with_reducible apply Kept.ite)

theorem arrayStart_kept {r₀ : State} {s : State} (h : Kept r₀ s) (i : TileId) (b : Bool) (c : Nat) (wait : Nat) :
    Kept r₀ (arrayStart s i b c wait) := by
  unfold arrayStart
  repeat' (first | with_reducible assumption | with_reducible apply State.externalStop_kept | with_reducible apply startCmd_kept | with_reducible apply retryStall_kept | with_reducible apply tileAt_kept | with_reducible apply popEntry_kept | with_reducible apply countWaits_kept | with_reducible apply Kept.ite | dsimp only | split)

theorem mmDrained_kept {r₀ : State} {s : State} (h : Kept r₀ s) (i : TileId) (b : Bool) (costs : List DrainCost) (c : Nat) :
    Kept r₀ (mmDrained s i b costs c) := by
  unfold mmDrained
  repeat' (first | with_reducible assumption | with_reducible apply State.countF_kept | with_reducible apply State.setNum_kept | with_reducible apply State.externalStop_kept | with_reducible apply State.modArrays_kept | with_reducible apply stageJob_kept | with_reducible apply retryStall_kept | with_reducible apply tileAt_kept | with_reducible apply countWaits_kept | with_reducible apply Kept.ite | (with_reducible apply Kept.foldl; intro _ _ _) | dsimp only | split)

theorem moveDesc_kept {r₀ : State} {s : State} (h : Kept r₀ s) (i : TileId) (h : Fin 16) (k : Nat) (n : Nat) (c : Nat) (x : MoveCost) :
    Kept r₀ (moveDesc s i h k n c x) := by
  unfold moveDesc
  repeat' (first | with_reducible assumption | with_reducible apply moveRows_kept | with_reducible apply tileAt_kept | with_reducible apply countWaits_kept | with_reducible apply Kept.ite | dsimp only | split)

theorem descComplete_kept {r₀ : State} {s : State} (h : Kept r₀ s) (i : TileId) (h : Fin 16) (c : Nat) (waited : Nat) :
    Kept r₀ (descComplete s i h c waited) := by
  unfold descComplete
  repeat' (first | with_reducible assumption | with_reducible apply State.countF_kept | with_reducible apply State.settleClashes_kept | with_reducible apply countLate_kept | with_reducible apply State.setDesc_kept | with_reducible apply tileAt_kept | with_reducible apply retryAfter_kept | with_reducible apply Kept.ite | dsimp only | split)

theorem gstatResult_kept {r₀ : State} {w : GWork} (h : Kept r₀ w.s) (i : TileId) (g : GStat) :
    Kept r₀ (gstatResult i g w) := by
  unfold gstatResult
  repeat' (first | with_reducible assumption | exact fun _ x => Tile.sound_upd x rfl rfl | with_reducible apply State.externalStop_kept | with_reducible apply Kept.modTile | split)

theorem gstatAttach_kept {r₀ : State} {s : State} (h : Kept r₀ s) (i : TileId) (waited : Nat) (c : Nat) :
    Kept r₀ (gstatAttach s i waited c) := by
  unfold gstatAttach
  repeat' (first | with_reducible assumption | with_reducible apply State.countF_kept | with_reducible apply gstatBlocks_kept | with_reducible apply tileAt_kept | with_reducible apply gstatResult_kept | dsimp only | split)

theorem gstatComplete_kept {r₀ : State} {s : State} (h : Kept r₀ s) (i : TileId) (c : Nat) (wait : Nat) :
    Kept r₀ (gstatComplete s i c wait) := by
  unfold gstatComplete
  repeat' (first | with_reducible assumption | exact fun _ x => Tile.sound_upd x rfl rfl | with_reducible apply State.wrapF_kept | with_reducible apply State.dropHazards_kept | with_reducible apply State.setNum_kept | with_reducible apply State.externalStop_kept | with_reducible apply writeLines_kept | with_reducible apply gatherHead_kept | with_reducible apply directBlocks_kept | with_reducible apply retryStall_kept | with_reducible apply tileAt_kept | with_reducible apply countWaits_kept | with_reducible apply Kept.ite | with_reducible apply Kept.modTile | dsimp only | split)

theorem marverBegin_kept {r₀ : State} {s : State} (h : Kept r₀ s) (i : TileId) (k : Nat) (c : Nat) :
    Kept r₀ (marverBegin s i k c) := by
  unfold marverBegin
  repeat' (first | with_reducible assumption | with_reducible apply marverStart_kept | with_reducible apply tileAt_kept)

theorem marverDone_kept {r₀ : State} {s : State} (h : Kept r₀ s) (i : TileId) (c : Nat) (wait : Nat) :
    Kept r₀ (marverDone s i c wait) := by
  unfold marverDone
  repeat' (first | with_reducible assumption | with_reducible apply marverFinish_kept | with_reducible apply retryStall_kept | with_reducible apply tileAt_kept | with_reducible apply countWaits_kept | with_reducible apply Kept.ite | dsimp only | split)

theorem deadlineExpiry_kept {r₀ : State} {s : State} (h : Kept r₀ s) (i : TileId) (time : Nat) (c : Nat) (ats : List MvAt) (wait : Nat) :
    Kept r₀ (deadlineExpiry s i time c ats wait) := by
  unfold deadlineExpiry
  repeat' (first | with_reducible assumption | exact fun _ x => Tile.sound_upd x rfl rfl | with_reducible apply State.atTime_kept | with_reducible apply State.useFree_kept | with_reducible apply marverFinish_kept | with_reducible apply retryStall_kept | with_reducible apply tileAt_kept | with_reducible apply countWaits_kept | with_reducible apply Kept.ite | (with_reducible apply Kept.foldl_fst; intro _ _ _) | with_reducible apply Kept.modTile | dsimp only | split)

theorem marverRelease_kept {r₀ : State} {s : State} (h : Kept r₀ s) (i : TileId) :
    Kept r₀ (marverRelease s i) := by
  unfold marverRelease
  repeat' (first | with_reducible assumption | exact fun _ x => Tile.sound_upd x rfl rfl | with_reducible apply State.resetFlds_kept | with_reducible apply doStart_kept | with_reducible apply Kept.ite | with_reducible apply Kept.modTile)

/-! Operations of Machine/PantryEvents.lean. -/

theorem masterAccess_kept {r₀ : State} {s : State} (h : Kept r₀ s) (i : TileId) (m : Nat) (addr : Nat) (n : Nat) (w : Option (List Byte)) (wait : Nat) :
    Kept r₀ (masterAccess s i m addr n w wait) := by
  unfold masterAccess
  repeat' (first | with_reducible assumption | with_reducible apply countWaits_kept | dsimp only | split | (with_reducible apply Kept.mk_upd; first | with_reducible assumption | with_reducible apply pantryLoad_kept | with_reducible apply pantryStore_kept | with_reducible apply countWaits_kept | with_reducible apply Kept.ite | (with_reducible apply Kept.foldl; intro _ _ _) | (with_reducible apply Kept.foldl_fst; intro _ _ _) | (with_reducible apply Kept.foldl_on Rows.s; intro _ _ _) | (with_reducible apply Kept.foldl_on GWork.s; intro _ _ _) | dsimp only | split))

theorem regionWrite_kept {r₀ : State} {s : State} (h : Kept r₀ s) (a : Actor) (i : TileId) (m : Fin 7) (d : Fin 8) (word : Bool) (v : Word) :
    Kept r₀ (regionWrite s a i m d word v) := by
  unfold regionWrite
  repeat' (first | with_reducible assumption | with_reducible apply State.setF_kept | with_reducible apply recordPErr_kept | with_reducible apply Kept.ite)

theorem counterClear_kept {r₀ : State} {s : State} (h : Kept r₀ s) (i : TileId) :
    Kept r₀ (counterClear s i) := by
  unfold counterClear
  repeat' (first | with_reducible assumption | with_reducible apply State.resetFlds_kept)

theorem State.modPantry_kept {r₀ s : State} (h : Kept r₀ s) (i : TileId) (f : Pantry → Pantry)
    (hf : ∀ p, Memory.wf p.mem = true → Memory.wf (f p).mem = true) : Kept r₀ (s.modPantry i f) :=
  Kept.modTile h (fun _ x => Tile.sound_mem x rfl (hf _))

theorem bankRequest_kept {r₀ : State} {s : State} (h : Kept r₀ s) (i : TileId) (b : Nat) (code : Nat) :
    Kept r₀ (bankRequest s i b code) := by
  unfold bankRequest
  repeat' (first | with_reducible assumption | exact fun _ w => w | with_reducible apply State.setF_kept | with_reducible apply State.modPantry_kept | with_reducible apply Kept.ite)

theorem ungateBank_kept {r₀ : State} {s : State} (h : Kept r₀ s) (i : TileId) (b : Nat) :
    Kept r₀ (ungateBank s i b) := by
  unfold ungateBank
  repeat' (first | dsimp only | (with_reducible apply Kept.mk_upd; first | with_reducible assumption | with_reducible apply Kept.ite | (with_reducible apply Kept.foldl; intro _ _ _) | (with_reducible apply Kept.foldl_fst; intro _ _ _) | (with_reducible apply Kept.foldl_on Rows.s; intro _ _ _) | (with_reducible apply Kept.foldl_on GWork.s; intro _ _ _) | dsimp only | split))

theorem bankReqWrite_kept {r₀ : State} {s : State} (h : Kept r₀ s) (a : Actor) (i : TileId) (m : Fin 3) (v : Word) :
    Kept r₀ (bankReqWrite s a i m v) := by
  unfold bankReqWrite
  repeat' (first | with_reducible assumption | with_reducible apply bankRequest_kept | with_reducible apply ungateBank_kept | with_reducible apply Kept.ite | (with_reducible apply Kept.foldl; intro _ _ _))

theorem bankEnd_kept {r₀ : State} {s : State} (h : Kept r₀ s) (i : TileId) (b : Nat) :
    Kept r₀ (bankEnd s i b) := by
  unfold bankEnd
  repeat' (first | with_reducible assumption | exact Memory.wf_filter _ ‹Memory.wf _ = true› | with_reducible apply State.setF_kept | with_reducible apply State.raise_kept | with_reducible apply State.modPantry_kept | with_reducible apply bankRequest_kept | intro _ _ | dsimp only | split)

theorem sweepFail_kept {r₀ : State} {s : State} (h : Kept r₀ s) (i : TileId) (r : Nat) (k : Fin 64) :
    Kept r₀ (sweepFail i r s k) := by
  unfold sweepFail
  repeat' (first | with_reducible assumption | exact fun _ w => w | with_reducible apply State.setF_kept | with_reducible apply State.wrapF_kept | with_reducible apply State.raise_kept | with_reducible apply recordPErr_kept | with_reducible apply State.modPantry_kept | with_reducible apply Kept.ite)

theorem sweepDouble_kept {r₀ : State} {s : State} (h : Kept r₀ s) (i : TileId) (w : Nat) :
    Kept r₀ (sweepDouble i s w) := by
  unfold sweepDouble
  repeat' (first | with_reducible assumption | with_reducible apply State.useFree_kept | with_reducible apply State.countF_kept | with_reducible apply recordPErr_kept)

theorem sweepRegion_kept {r₀ : State} {s : State} (h : Kept r₀ s) (i : TileId) (fails : List (Fin 64)) :
    Kept r₀ (sweepRegion s i fails) := by
  unfold sweepRegion
  repeat' (first | with_reducible assumption | exact fun _ w => w | with_reducible apply State.setF_kept | with_reducible apply State.countF_kept | with_reducible apply State.wrapF_kept | with_reducible apply State.modPantry_kept | with_reducible apply sweepFail_kept | with_reducible apply sweepDouble_kept | with_reducible apply Kept.ite | (with_reducible apply Kept.foldl; intro _ _ _) | dsimp only | split)

end Sys2Proof.Machine
end

