-- ==== Sys2Proof/Laws/KeptHearth.lean ====
section
/-! SUPPORT. What every operation keeps, for the operations of the hearth: commits, the crucible, queues, replica groups, steps and exports. -/

namespace Sys2Proof.Machine

set_option Elab.async false
set_option linter.all false

/-! Operations of Machine/HearthOps.lean. -/

theorem State.setDomain_kept {r₀ : State} {s : State} (h : Kept r₀ s) (d : Domain) :
    Kept r₀ (State.setDomain s d) := by
  unfold State.setDomain
  repeat' (first | (with_reducible apply Kept.mk_upd; first | with_reducible assumption | with_reducible apply Kept.ite | (with_reducible apply Kept.foldl; intro _ _ _) | (with_reducible apply Kept.foldl_fst; intro _ _ _) | (with_reducible apply Kept.foldl_on Rows.s; intro _ _ _) | (with_reducible apply Kept.foldl_on GWork.s; intro _ _ _) | dsimp only | split))

theorem State.modDomain_kept {r₀ : State} {s : State} (h : Kept r₀ s) (id : Nat) (f : Domain → Domain) :
    Kept r₀ (State.modDomain s id f) := by
  unfold State.modDomain
  repeat' (first | with_reducible assumption | with_reducible apply State.setDomain_kept | split)

theorem giveSides_kept {r₀ : State} {s : State} (h : Kept r₀ s) (tiles : List Nat) (fresh : List (Nat × Nat)) :
    Kept r₀ (giveSides s tiles fresh) := by
  unfold giveSides
  repeat' (first | with_reducible assumption | exact fun _ x => Tile.sound_upd x rfl rfl | (with_reducible apply Kept.foldl; intro _ _ _) | with_reducible apply Kept.modTile | split)

theorem takeSides_kept {r₀ : State} {s : State} (h : Kept r₀ s) (id : Nat) :
    Kept r₀ (takeSides s id) := by
  unfold takeSides
  repeat' (first | with_reducible assumption | with_reducible apply State.modDomain_kept)

theorem dropGathered_kept {r₀ : State} {s : State} (h : Kept r₀ s) (id : Nat) :
    Kept r₀ (dropGathered s id) := by
  unfold dropGathered
  repeat' (first | with_reducible assumption | with_reducible apply State.modDomain_kept | with_reducible apply giveSides_kept | with_reducible apply Kept.ite | dsimp only | split)

theorem State.send_kept {r₀ : State} {s : State} (h : Kept r₀ s) (x : Sent) :
    Kept r₀ (State.send s x) := by
  unfold State.send
  repeat' (first | (with_reducible apply Kept.mk_upd; first | with_reducible assumption | with_reducible apply Kept.ite | (with_reducible apply Kept.foldl; intro _ _ _) | (with_reducible apply Kept.foldl_fst; intro _ _ _) | (with_reducible apply Kept.foldl_on Rows.s; intro _ _ _) | (with_reducible apply Kept.foldl_on GWork.s; intro _ _ _) | dsimp only | split))

theorem State.sendHost_kept {r₀ : State} {s : State} (h : Kept r₀ s) (a : Nat) (d : List Byte) :
    Kept r₀ (State.sendHost s a d) := by
  unfold State.sendHost
  repeat' (first | with_reducible assumption | with_reducible apply State.send_kept | with_reducible apply Kept.ite)

theorem wake_kept {r₀ : State} {s : State} (h : Kept r₀ s)  :
    Kept r₀ (wake s) := by
  unfold wake
  repeat' (first | with_reducible assumption | with_reducible apply Kept.ite | dsimp only | (with_reducible apply Kept.mk_upd; first | with_reducible assumption | with_reducible apply Kept.ite | (with_reducible apply Kept.foldl; intro _ _ _) | (with_reducible apply Kept.foldl_fst; intro _ _ _) | (with_reducible apply Kept.foldl_on Rows.s; intro _ _ _) | (with_reducible apply Kept.foldl_on GWork.s; intro _ _ _) | dsimp only | split))

theorem placeEvent_kept {r₀ : State} {s : State} (h : Kept r₀ s) (e : List Byte) :
    Kept r₀ (placeEvent s e) := by
  unfold placeEvent
  repeat' (first | with_reducible assumption | with_reducible apply State.send_kept | (with_reducible apply Kept.mk_upd; first | with_reducible assumption | with_reducible apply State.send_kept | with_reducible apply wake_kept | with_reducible apply Kept.ite | (with_reducible apply Kept.foldl; intro _ _ _) | (with_reducible apply Kept.foldl_fst; intro _ _ _) | (with_reducible apply Kept.foldl_on Rows.s; intro _ _ _) | (with_reducible apply Kept.foldl_on GWork.s; intro _ _ _) | dsimp only | split))

theorem drainEvents_kept {r₀ s : State} (h : Kept r₀ s) (n : Nat) : Kept r₀ (drainEvents n s) := by
  induction n generalizing s with
  | zero => exact h
  | succ n ih =>
    unfold drainEvents
    repeat' (first | with_reducible assumption | with_reducible apply ih | with_reducible apply placeEvent_kept | with_reducible apply Kept.ite | dsimp only | split | (with_reducible apply Kept.mk_upd; first | with_reducible assumption | with_reducible apply ih | with_reducible apply placeEvent_kept | with_reducible apply Kept.ite | (with_reducible apply Kept.foldl; intro _ _ _) | (with_reducible apply Kept.foldl_fst; intro _ _ _) | intro _ _ | dsimp only | split))

theorem raiseEvent_kept {r₀ : State} {s : State} (h : Kept r₀ s) (op : Nat) (payload : List Byte) :
    Kept r₀ (raiseEvent s op payload) := by
  unfold raiseEvent
  repeat' (first | with_reducible apply placeEvent_kept | with_reducible apply Kept.ite | dsimp only | (with_reducible apply Kept.mk_upd; first | with_reducible assumption | with_reducible apply State.countF_kept | with_reducible apply placeEvent_kept | with_reducible apply Kept.ite | (with_reducible apply Kept.foldl; intro _ _ _) | (with_reducible apply Kept.foldl_fst; intro _ _ _) | (with_reducible apply Kept.foldl_on Rows.s; intro _ _ _) | (with_reducible apply Kept.foldl_on GWork.s; intro _ _ _) | dsimp only | split))

theorem evtFault_kept {r₀ : State} {s : State} (h : Kept r₀ s) (code : Nat) (ty : Nat) (inst : Nat) (i0 : Nat) (i1 : Nat) (queue : Nat) (domain : Nat) :
    Kept r₀ (evtFault s code ty inst i0 i1 queue domain) := by
  unfold evtFault
  repeat' (first | with_reducible assumption | with_reducible apply raiseEvent_kept)

theorem fwError_kept {r₀ : State} {s : State} (h : Kept r₀ s) (code : Nat) (i0 : Nat) :
    Kept r₀ (fwError s code i0) := by
  unfold fwError
  repeat' (first | with_reducible assumption | with_reducible apply State.recordErr_kept | with_reducible apply evtFault_kept)

theorem evtGroup_kept {r₀ : State} {s : State} (h : Kept r₀ s) (d : Nat) (g : GroupState) (epoch : Nat) :
    Kept r₀ (evtGroup s d g epoch) := by
  unfold evtGroup
  repeat' (first | with_reducible assumption | with_reducible apply raiseEvent_kept)

theorem alert_kept {r₀ : State} {s : State} (h : Kept r₀ s) (f : Fld) :
    Kept r₀ (alert s f) := by
  unfold alert
  repeat' (first | with_reducible assumption | with_reducible apply State.setF_kept)

theorem evtFwState_kept {r₀ : State} {s : State} (h : Kept r₀ s) (cause : Nat) :
    Kept r₀ (evtFwState s cause) := by
  unfold evtFwState
  repeat' (first | with_reducible assumption | with_reducible apply raiseEvent_kept)

theorem integrity_kept {r₀ : State} {s : State} (h : Kept r₀ s) (event : Nat) (cause : Nat) (domain : Nat) (step : Nat) (position : Nat) (member : Nat) (peer : Nat) (leaf : Nat) (sec : Nat) :
    Kept r₀ (integrity s event cause domain step position member peer leaf sec) := by
  unfold integrity
  repeat' (first | with_reducible apply raiseEvent_kept | dsimp only | split | (with_reducible apply Kept.mk_upd; first | with_reducible assumption | with_reducible apply raiseEvent_kept | with_reducible apply Kept.ite | (with_reducible apply Kept.foldl; intro _ _ _) | (with_reducible apply Kept.foldl_fst; intro _ _ _) | (with_reducible apply Kept.foldl_on Rows.s; intro _ _ _) | (with_reducible apply Kept.foldl_on GWork.s; intro _ _ _) | dsimp only | split))

theorem State.control_kept {r₀ : State} {s : State} (h : Kept r₀ s) (member : Nat) (op : Nat) (d : List Byte) :
    Kept r₀ (State.control s member op d) := by
  unfold State.control
  repeat' (first | with_reducible assumption | with_reducible apply State.send_kept)

theorem journal_kept {r₀ : State} {s : State} (h : Kept r₀ s) (target : Nat) (count : Nat) :
    Kept r₀ (journal s target count) := by
  unfold journal
  repeat' (first | dsimp only | (with_reducible apply Kept.mk_upd; first | with_reducible assumption | with_reducible apply Kept.ite | (with_reducible apply Kept.foldl; intro _ _ _) | (with_reducible apply Kept.foldl_fst; intro _ _ _) | (with_reducible apply Kept.foldl_on Rows.s; intro _ _ _) | (with_reducible apply Kept.foldl_on GWork.s; intro _ _ _) | dsimp only | split))

/-! Operations of Machine/PowerDomains.lean. -/

theorem setDomCur_kept {r₀ : State} {s : State} (h : Kept r₀ s) (d : Nat) (v : Nat) :
    Kept r₀ (setDomCur s d v) := by
  unfold setDomCur
  repeat' (first | with_reducible assumption | with_reducible apply State.setF_kept | with_reducible apply State.raise_kept | with_reducible apply Kept.ite)

theorem startTrans_kept {r₀ : State} {s : State} (h : Kept r₀ s) (d : Nat) (v : Nat) :
    Kept r₀ (startTrans s d v) := by
  unfold startTrans
  repeat' (first | with_reducible assumption | dsimp only | (with_reducible apply Kept.mk_upd; first | with_reducible assumption | with_reducible apply setDomCur_kept | with_reducible apply Kept.ite | (with_reducible apply Kept.foldl; intro _ _ _) | (with_reducible apply Kept.foldl_fst; intro _ _ _) | (with_reducible apply Kept.foldl_on Rows.s; intro _ _ _) | (with_reducible apply Kept.foldl_on GWork.s; intro _ _ _) | dsimp only | split))

theorem domainRequest_kept {r₀ : State} {s : State} (h : Kept r₀ s) (a : Actor) (d : Nat) (v : Nat) (t : Nat) :
    Kept r₀ (domainRequest s a d v t) := by
  unfold domainRequest
  repeat' (first | with_reducible assumption | with_reducible apply State.setF_kept | with_reducible apply State.atTime_kept | with_reducible apply startTrans_kept | with_reducible apply Kept.ite)

theorem settleRegions_kept {r₀ : State} {s : State} (h : Kept r₀ s)  :
    Kept r₀ (settleRegions s) := by
  unfold settleRegions
  repeat' (first | with_reducible assumption | with_reducible apply domainRequest_kept | with_reducible apply Kept.ite | (with_reducible apply Kept.foldl; intro _ _ _))

theorem dropPage_kept {r₀ : State} {s : State} (h : Kept r₀ s) (ty : Nat) (inst : Nat) (keep : List Fld) :
    Kept r₀ (dropPage s ty inst keep) := by
  unfold dropPage
  repeat' (first | (with_reducible apply Kept.mk_upd; first | with_reducible assumption | with_reducible apply Kept.ite | (with_reducible apply Kept.foldl; intro _ _ _) | (with_reducible apply Kept.foldl_fst; intro _ _ _) | (with_reducible apply Kept.foldl_on Rows.s; intro _ _ _) | (with_reducible apply Kept.foldl_on GWork.s; intro _ _ _) | dsimp only | split))

theorem clusterLost_kept {r₀ : State} {s : State} (h : Kept r₀ s) (c : Nat) :
    Kept r₀ (clusterLost s c) := by
  unfold clusterLost
  repeat' (first | with_reducible assumption | exact fun _ x => ⟨Tile.sound_reset.1, x.2⟩ | with_reducible apply dropPage_kept | with_reducible apply Kept.modTile | dsimp only | (with_reducible apply Kept.mk_upd; first | with_reducible assumption | with_reducible apply dropPage_kept | with_reducible apply Kept.ite | (with_reducible apply Kept.foldl; intro _ _ _) | (with_reducible apply Kept.foldl_fst; intro _ _ _) | (with_reducible apply Kept.foldl_on Rows.s; intro _ _ _) | (with_reducible apply Kept.foldl_on GWork.s; intro _ _ _) | with_reducible apply Kept.modTile | with_reducible apply Kept.setTile | dsimp only | split))

theorem regionLost_kept {r₀ : State} {s : State} (h : Kept r₀ s) (r : Nat) :
    Kept r₀ (regionLost s r) := by
  unfold regionLost
  repeat' (first | with_reducible assumption | exact fun _ x => ⟨x.1, Tile.sound_reset.2⟩ | with_reducible apply dropPage_kept | with_reducible apply Kept.ite | (with_reducible apply Kept.foldl; intro _ _ _) | with_reducible apply Kept.modTile)

theorem domArrived_kept {r₀ : State} {s : State} (h : Kept r₀ s) (d : Nat) (v : Nat) :
    Kept r₀ (domArrived s d v) := by
  unfold domArrived
  repeat' (first | with_reducible assumption | with_reducible apply setDomCur_kept | with_reducible apply clusterLost_kept | with_reducible apply regionLost_kept | with_reducible apply Kept.ite | dsimp only | split | (with_reducible apply Kept.mk_upd; first | with_reducible assumption | with_reducible apply setDomCur_kept | with_reducible apply clusterLost_kept | with_reducible apply regionLost_kept | with_reducible apply Kept.ite | (with_reducible apply Kept.foldl; intro _ _ _) | (with_reducible apply Kept.foldl_fst; intro _ _ _) | (with_reducible apply Kept.foldl_on Rows.s; intro _ _ _) | (with_reducible apply Kept.foldl_on GWork.s; intro _ _ _) | dsimp only | split))

theorem powerUnit_kept {r₀ : State} {s : State} (h : Kept r₀ s) (ls : List Nat) :
    Kept r₀ ((powerUnit s ls).1) := by
  unfold powerUnit
  repeat' (first | with_reducible assumption | with_reducible apply domainRequest_kept | with_reducible apply Kept.ite | (with_reducible apply Kept.foldl; intro _ _ _))

theorem wakeBanks_kept {r₀ : State} {s : State} (h : Kept r₀ s) (i : TileId) (banks : List Nat) :
    Kept r₀ ((wakeBanks s i banks).1) := by
  unfold wakeBanks
  repeat' (first | with_reducible assumption | with_reducible apply bankRequest_kept | with_reducible apply Kept.ite | (with_reducible apply Kept.foldl; intro _ _ _))

theorem settleThrottle_kept {r₀ : State} {s : State} (h : Kept r₀ s)  :
    Kept r₀ (settleThrottle s) := by
  unfold settleThrottle
  repeat' (first | with_reducible assumption | with_reducible apply State.setF_kept | (with_reducible apply Kept.foldl; intro _ _ _))

theorem settleFloor_kept {r₀ : State} {s : State} (h : Kept r₀ s)  :
    Kept r₀ (settleFloor s) := by
  unfold settleFloor
  repeat' (first | with_reducible apply settleThrottle_kept | dsimp only | split | (with_reducible apply Kept.mk_upd; first | with_reducible assumption | with_reducible apply settleThrottle_kept | with_reducible apply Kept.ite | (with_reducible apply Kept.foldl; intro _ _ _) | (with_reducible apply Kept.foldl_fst; intro _ _ _) | (with_reducible apply Kept.foldl_on Rows.s; intro _ _ _) | (with_reducible apply Kept.foldl_on GWork.s; intro _ _ _) | dsimp only | split))

theorem enterSafeFloor_kept {r₀ : State} {s : State} (h : Kept r₀ s) (cause : Nat) :
    Kept r₀ (enterSafeFloor s cause) := by
  unfold enterSafeFloor
  repeat' (first | with_reducible assumption | with_reducible apply State.setF_kept | with_reducible apply State.raise_kept | with_reducible apply State.recordErr_kept | with_reducible apply settleFloor_kept | with_reducible apply Kept.ite)

theorem freqApply_kept {r₀ : State} {s : State} (h : Kept r₀ s) (a : Actor) (n : Fin 4) (t : Nat) :
    Kept r₀ (freqApply s a n t) := by
  unfold freqApply
  repeat' (first | with_reducible assumption | with_reducible apply State.atTime_kept | with_reducible apply Kept.ite | dsimp only | (with_reducible apply Kept.mk_upd; first | with_reducible assumption | with_reducible apply State.atTime_kept | with_reducible apply Kept.ite | (with_reducible apply Kept.foldl; intro _ _ _) | (with_reducible apply Kept.foldl_fst; intro _ _ _) | (with_reducible apply Kept.foldl_on Rows.s; intro _ _ _) | (with_reducible apply Kept.foldl_on GWork.s; intro _ _ _) | dsimp only | split))

theorem applyFrequencies_kept {r₀ : State} {s : State} (h : Kept r₀ s)  :
    Kept r₀ (applyFrequencies s) := by
  unfold applyFrequencies
  repeat' (first | with_reducible assumption | with_reducible apply freqApply_kept | (with_reducible apply Kept.foldl; intro _ _ _))

/-! Operations of Machine/CommitOps.lean. -/

theorem commitError_kept {r₀ : State} {s : State} (h : Kept r₀ s) (code : Nat) (i0 : Nat) (i1 : Nat) :
    Kept r₀ (commitError s code i0 i1) := by
  unfold commitError
  repeat' (first | with_reducible assumption | with_reducible apply State.recordErr_kept)

theorem setRequest_kept {r₀ : State} {s : State} (h : Kept r₀ s) (q : CommitReq) :
    Kept r₀ (setRequest s q) := by
  unfold setRequest
  repeat' (first | with_reducible assumption | with_reducible apply State.setF_kept | (with_reducible apply Kept.foldl; intro _ _ _))

theorem pushRequest_kept {r₀ : State} {s : State} (h : Kept r₀ s)  :
    Kept r₀ (pushRequest s) := by
  unfold pushRequest
  repeat' (first | with_reducible assumption | with_reducible apply commitError_kept | with_reducible apply Kept.ite | (with_reducible apply Kept.mk_upd; first | with_reducible assumption | with_reducible apply commitError_kept | with_reducible apply Kept.ite | (with_reducible apply Kept.foldl; intro _ _ _) | (with_reducible apply Kept.foldl_fst; intro _ _ _) | (with_reducible apply Kept.foldl_on Rows.s; intro _ _ _) | (with_reducible apply Kept.foldl_on GWork.s; intro _ _ _) | dsimp only | split))

theorem pushScan_kept {r₀ : State} {s : State} (h : Kept r₀ s) (id : Nat) :
    Kept r₀ (pushScan s id) := by
  unfold pushScan
  repeat' (first | with_reducible assumption | with_reducible apply journal_kept | with_reducible apply setRequest_kept | with_reducible apply pushRequest_kept | with_reducible apply Kept.ite)

theorem markPin_kept {r₀ : State} {s : State} (h : Kept r₀ s) (h : PinHolder) (v : Nat) :
    Kept r₀ (markPin s h v) := by
  unfold markPin
  repeat' (first | with_reducible assumption | with_reducible apply State.setF_kept | split)

theorem pinGranted_kept {r₀ : State} {s : State} (h : Kept r₀ s) (h : PinHolder) :
    Kept r₀ (pinGranted s h) := by
  unfold pinGranted
  repeat' (first | with_reducible assumption | dsimp only | split | (with_reducible apply Kept.mk_upd; first | with_reducible assumption | with_reducible apply markPin_kept | with_reducible apply Kept.ite | (with_reducible apply Kept.foldl; intro _ _ _) | (with_reducible apply Kept.foldl_fst; intro _ _ _) | (with_reducible apply Kept.foldl_on Rows.s; intro _ _ _) | (with_reducible apply Kept.foldl_on GWork.s; intro _ _ _) | dsimp only | split))

theorem requestPin_kept {r₀ : State} {s : State} (h : Kept r₀ s) (id : Nat) (h : PinHolder) :
    Kept r₀ (requestPin s id h) := by
  unfold requestPin
  repeat' (first | with_reducible assumption | with_reducible apply State.setDomain_kept | with_reducible apply pinGranted_kept | with_reducible apply Kept.ite | split)

theorem releasePin_kept {r₀ : State} {s : State} (h : Kept r₀ s) (id : Nat) (h : PinHolder) :
    Kept r₀ (releasePin s id h) := by
  unfold releasePin
  repeat' (first | with_reducible assumption | with_reducible apply State.modDomain_kept | with_reducible apply markPin_kept)

theorem grantWaiting_kept {r₀ : State} {s : State} (h : Kept r₀ s) (id : Nat) :
    Kept r₀ (grantWaiting s id) := by
  unfold grantWaiting
  repeat' (first | with_reducible assumption | with_reducible apply State.setDomain_kept | with_reducible apply pinGranted_kept | (with_reducible apply Kept.foldl; intro _ _ _) | split)

theorem requestDone_kept {r₀ : State} {s : State} (h : Kept r₀ s) (q : CommitReq) (step : Nat) :
    Kept r₀ (requestDone s q step) := by
  unfold requestDone
  repeat' (first | with_reducible apply State.setF_kept | with_reducible apply State.raise_kept | (with_reducible apply Kept.mk_upd; first | with_reducible assumption | with_reducible apply State.setF_kept | with_reducible apply State.raise_kept | with_reducible apply Kept.ite | (with_reducible apply Kept.foldl; intro _ _ _) | (with_reducible apply Kept.foldl_fst; intro _ _ _) | (with_reducible apply Kept.foldl_on Rows.s; intro _ _ _) | (with_reducible apply Kept.foldl_on GWork.s; intro _ _ _) | dsimp only | split))

theorem requestFails_kept {r₀ : State} {s : State} (h : Kept r₀ s) (code : Nat) (i0 : Nat) (i1 : Nat) :
    Kept r₀ (requestFails s code i0 i1) := by
  unfold requestFails
  repeat' (first | with_reducible apply commitError_kept | (with_reducible apply Kept.mk_upd; first | with_reducible assumption | with_reducible apply commitError_kept | with_reducible apply Kept.ite | (with_reducible apply Kept.foldl; intro _ _ _) | (with_reducible apply Kept.foldl_fst; intro _ _ _) | (with_reducible apply Kept.foldl_on Rows.s; intro _ _ _) | (with_reducible apply Kept.foldl_on GWork.s; intro _ _ _) | dsimp only | split))

theorem commitRecord_kept {r₀ : State} {s : State} (h : Kept r₀ s) (q : CommitReq) (d : Domain) (j : Nat) :
    Kept r₀ (commitRecord s q d j) := by
  unfold commitRecord
  repeat' (first | with_reducible assumption | with_reducible apply State.countF_kept | with_reducible apply State.raise_kept | with_reducible apply dramWrite_kept | with_reducible apply State.setDomain_kept | with_reducible apply State.modDomain_kept | with_reducible apply grantWaiting_kept | with_reducible apply requestDone_kept | with_reducible apply requestFails_kept | with_reducible apply Kept.ite | dsimp only | split)

theorem commitExecute_kept {r₀ : State} {s : State} (h : Kept r₀ s) (t : Nat) :
    Kept r₀ (commitExecute s t) := by
  unfold commitExecute
  repeat' (first | with_reducible assumption | with_reducible apply State.atTime_kept | with_reducible apply State.countF_kept | with_reducible apply State.raise_kept | with_reducible apply requestDone_kept | with_reducible apply requestFails_kept | with_reducible apply commitRecord_kept | with_reducible apply Kept.ite | dsimp only | split | (with_reducible apply Kept.mk_upd; first | with_reducible assumption | with_reducible apply State.atTime_kept | with_reducible apply State.countF_kept | with_reducible apply State.raise_kept | with_reducible apply requestDone_kept | with_reducible apply requestFails_kept | with_reducible apply commitRecord_kept | with_reducible apply Kept.ite | (with_reducible apply Kept.foldl; intro _ _ _) | (with_reducible apply Kept.foldl_fst; intro _ _ _) | (with_reducible apply Kept.foldl_on Rows.s; intro _ _ _) | (with_reducible apply Kept.foldl_on GWork.s; intro _ _ _) | dsimp only | split))

theorem readJournal_kept {r₀ : State} {s : State} (h : Kept r₀ s) (j : Nat) :
    Kept r₀ ((readJournal s j).1) := by
  unfold readJournal
  repeat' (first | with_reducible assumption | with_reducible apply dramRead_kept | (with_reducible apply Kept.foldl_fst; intro _ _ _))

theorem scanDomain_kept {r₀ : State} {s : State} (h : Kept r₀ s) (d : Domain) (j : Nat) :
    Kept r₀ ((scanDomain s d j).1) := by
  unfold scanDomain
  repeat' (first | with_reducible assumption | with_reducible apply State.setDomain_kept | with_reducible apply readJournal_kept | dsimp only | split)

theorem scanNow_kept {r₀ : State} {s : State} (h : Kept r₀ s) (id : Nat) :
    Kept r₀ (scanNow s id) := by
  unfold scanNow
  repeat' (first | with_reducible assumption | with_reducible apply State.setF_kept | with_reducible apply State.raise_kept | with_reducible apply commitError_kept | with_reducible apply scanDomain_kept | with_reducible apply Kept.ite | dsimp only | split)

theorem scanExecute_kept {r₀ : State} {s : State} (h : Kept r₀ s) (t : Nat) :
    Kept r₀ (scanExecute s t) := by
  unfold scanExecute
  repeat' (first | with_reducible assumption | with_reducible apply State.atTime_kept | with_reducible apply requestDone_kept | with_reducible apply requestFails_kept | with_reducible apply scanDomain_kept | with_reducible apply Kept.ite | dsimp only | split)

theorem writeShadowMap_kept {r₀ : State} {s : State} (h : Kept r₀ s) (d : Domain) (r : StepRun) :
    Kept r₀ ((writeShadowMap s d r).1) := by
  unfold writeShadowMap
  repeat' (first | with_reducible assumption | with_reducible apply Memory.wf_write | (with_reducible apply Memory.wf_foldl; intro _ _ _) | dsimp only | split | intro _ | refine Kept.mk_dram ?_ ?_ _ _ _ _ _ _ _ _ _ _ _ _ _ _ _ _ _ _ _ _ _ _ _ _ _ _ _ _ _ _ _ _)

theorem pushCommit_kept {r₀ : State} {s : State} (h : Kept r₀ s) (q : CommitReq) :
    Kept r₀ (pushCommit s q) := by
  unfold pushCommit
  repeat' (first | with_reducible assumption | with_reducible apply State.modDomain_kept | with_reducible apply journal_kept | with_reducible apply setRequest_kept | with_reducible apply pushRequest_kept | with_reducible apply writeShadowMap_kept | with_reducible apply Kept.ite | dsimp only | split)

/-! Operations of Machine/UpdateOps.lean. -/

theorem updateDomain_kept {r₀ : State} {s : State} (h : Kept r₀ s) (d : Domain) (members : Nat) (gr : Array Word) :
    Kept r₀ ((updateDomain s d members gr).1) := by
  unfold updateDomain
  repeat' (first | with_reducible assumption | with_reducible apply State.useFree_kept | with_reducible apply Memory.wf_writeL | with_reducible apply Memory.wf_clear | (with_reducible apply Memory.wf_foldl; intro _ _ _) | dsimp only | split | intro _ | refine Kept.mk_dram ?_ ?_ _ _ _ _ _ _ _ _ _ _ _ _ _ _ _ _ _ _ _ _ _ _ _ _ _ _ _ _ _ _ _ _)

/-! Operations of Machine/CruciblePlan.lean. -/

theorem setChF_kept {r₀ : State} {s : State} (h : Kept r₀ s) (f : Fld) (c : Nat) (v : Nat) :
    Kept r₀ (setChF s f c v) := by
  unfold setChF
  repeat' (first | with_reducible assumption | with_reducible apply State.setF_kept)

theorem countCh_kept {r₀ : State} {s : State} (h : Kept r₀ s) (f : Fld) (c : Nat) :
    Kept r₀ (countCh s f c) := by
  unfold countCh
  repeat' (first | with_reducible assumption | with_reducible apply State.countF_kept)

/-! Operations of Machine/CrucibleOps.lean. -/

theorem State.modOp_kept {r₀ : State} {s : State} (h : Kept r₀ s) (f : CruOp → CruOp) :
    Kept r₀ (State.modOp s f) := by
  unfold State.modOp
  repeat' (first | (with_reducible apply Kept.mk_upd; first | with_reducible assumption | with_reducible apply Kept.ite | (with_reducible apply Kept.foldl; intro _ _ _) | (with_reducible apply Kept.foldl_fst; intro _ _ _) | (with_reducible apply Kept.foldl_on Rows.s; intro _ _ _) | (with_reducible apply Kept.foldl_on GWork.s; intro _ _ _) | dsimp only | split))

theorem withOp_kept {r₀ s : State} (h : Kept r₀ s) (k : Nat) (f : State → State) (h_f : ∀ x, Kept r₀ x → Kept r₀ (f x)) :
    Kept r₀ (withOp s k f) := by
  have hr : ∀ o, Kept r₀ (f { s with cru := o :: s.cru.eraseIdx k }) := fun o => h_f _ (Kept.upd h rfl rfl rfl rfl rfl)
  unfold withOp
  split
  · exact h
  · dsimp only
    split
    · exact hr _
    · split
      · exact Kept.upd (hr _) rfl rfl rfl rfl rfl
      · exact hr _

theorem ctlFault_kept {r₀ : State} {s : State} (h : Kept r₀ s) (code : Nat) (i0 : Nat) (i1 : Nat) :
    Kept r₀ (ctlFault s code i0 i1) := by
  unfold ctlFault
  repeat' (first | with_reducible assumption | with_reducible apply State.recordErr_kept | with_reducible apply State.modOp_kept)

theorem chanFault_kept {r₀ : State} {s : State} (h : Kept r₀ s) (c : Nat) (code : Nat) (i0 : Nat) (i1 : Nat) :
    Kept r₀ (chanFault s c code i0 i1) := by
  unfold chanFault
  repeat' (first | with_reducible assumption | with_reducible apply State.recordErr_kept | with_reducible apply State.modOp_kept)

theorem cruRead_kept {r₀ : State} {s : State} (h : Kept r₀ s) (a : Nat) (n : Nat) :
    Kept r₀ ((cruRead s a n).1) := by
  unfold cruRead
  repeat' (first | with_reducible assumption | with_reducible apply State.useFree_kept | with_reducible apply dramRead_kept | with_reducible apply ctlFault_kept | dsimp only | split)

theorem cruWrite_kept {r₀ : State} {s : State} (h : Kept r₀ s) (a : Nat) (d : List Byte) :
    Kept r₀ (cruWrite s a d) := by
  unfold cruWrite
  repeat' (first | with_reducible assumption | with_reducible apply dramWrite_kept | with_reducible apply ctlFault_kept | dsimp only | split)

theorem cruUndefine_kept {r₀ : State} {s : State} (h : Kept r₀ s) (a : Nat) (n : Nat) :
    Kept r₀ (cruUndefine s a n) := by
  unfold cruUndefine
  repeat' (first | with_reducible assumption | with_reducible apply State.useFree_kept | with_reducible apply dramWrite_kept)

theorem blockValues_kept {r₀ : State} {s : State} (h : Kept r₀ s) (items : List (List Nat)) (b : Nat) :
    Kept r₀ ((blockValues s items b).1) := by
  unfold blockValues
  repeat' (first | with_reducible assumption | with_reducible apply cruRead_kept | dsimp only | split)

theorem reportNonFinite_kept {r₀ : State} {s : State} (h : Kept r₀ s) (o : CruOp) (b : Nat) (vs : List Val) :
    Kept r₀ (reportNonFinite s o b vs) := by
  unfold reportNonFinite
  repeat' (first | with_reducible assumption | with_reducible apply State.modOp_kept | with_reducible apply ctlFault_kept | with_reducible apply Kept.ite | split)

theorem State.modLane_kept {r₀ : State} {s : State} (h : Kept r₀ s) (i : Nat) (f : CruLane → CruLane) :
    Kept r₀ (State.modLane s i f) := by
  unfold State.modLane
  repeat' (first | with_reducible assumption | with_reducible apply State.modOp_kept)

theorem State.modChan_kept {r₀ : State} {s : State} (h : Kept r₀ s) (c : Nat) (f : CruChan → CruChan) :
    Kept r₀ (State.modChan s c f) := by
  unfold State.modChan
  repeat' (first | with_reducible assumption | with_reducible apply State.modOp_kept)

theorem ownStat_kept {r₀ : State} {s : State} (h : Kept r₀ s) (it : List Nat) (off : Nat) (n : Nat) :
    Kept r₀ ((ownStat s it off n).1) := by
  unfold ownStat
  repeat' (first | with_reducible assumption | with_reducible apply cruRead_kept | (with_reducible apply Kept.foldl_fst; intro _ _ _))

theorem heldStat_kept {r₀ : State} {s : State} (h : Kept r₀ s) (o : CruOp) (item : Nat) (off : Nat) (n : Nat) :
    Kept r₀ ((heldStat s o item off n).1) := by
  unfold heldStat
  repeat' (first | with_reducible assumption | with_reducible apply ownStat_kept | split)

theorem partContent_kept {r₀ : State} {s : State} (h : Kept r₀ s) (o : CruOp) (c : Nat) (part : CruPart) :
    Kept r₀ ((partContent s o c part).1) := by
  unfold partContent
  repeat' (first | with_reducible assumption | with_reducible apply cruRead_kept | with_reducible apply heldStat_kept | dsimp only | split)

theorem sendPart_kept {r₀ : State} {s : State} (h : Kept r₀ s) (o : CruOp) (c : Nat) (part : CruPart) :
    Kept r₀ (sendPart s o c part) := by
  unfold sendPart
  repeat' (first | with_reducible assumption | with_reducible apply State.send_kept | with_reducible apply setChF_kept | with_reducible apply countCh_kept | with_reducible apply partContent_kept | with_reducible apply Kept.ite)

theorem sendGrant_kept {r₀ : State} {s : State} (h : Kept r₀ s) (o : CruOp) (c : Nat) (n : Nat) :
    Kept r₀ (sendGrant s o c n) := by
  unfold sendGrant
  repeat' (first | with_reducible assumption | with_reducible apply State.send_kept | with_reducible apply countCh_kept)

theorem pumpChan_kept {r₀ s : State} (h : Kept r₀ s) (n c : Nat) : Kept r₀ (pumpChan n s c) := by
  induction n generalizing s with
  | zero => exact h
  | succ n ih =>
    unfold pumpChan
    repeat' (first | with_reducible assumption | with_reducible apply ih | with_reducible apply sendPart_kept | with_reducible apply State.modChan_kept | with_reducible apply Kept.ite | split)

theorem loadPass_kept {r₀ : State} {s : State} (h : Kept r₀ s) (i : Nat) :
    Kept r₀ (loadPass s i) := by
  unfold loadPass
  repeat' (first | with_reducible assumption | with_reducible apply blockValues_kept | with_reducible apply reportNonFinite_kept | with_reducible apply State.modLane_kept | with_reducible apply Kept.ite | (with_reducible apply Kept.foldl_fst; intro _ _ _) | dsimp only | split)

theorem beginPass_kept {r₀ : State} {s : State} (h : Kept r₀ s) (i : Nat) (attempt : Nat) (premax : Bool) (list : List Nat) :
    Kept r₀ (beginPass s i attempt premax list) := by
  unfold beginPass
  repeat' (first | with_reducible assumption | with_reducible apply State.modLane_kept | with_reducible apply loadPass_kept | dsimp only | split)

theorem completeBlock_kept {r₀ : State} {s : State} (h : Kept r₀ s) (o : CruOp) (l : CruLane) (b : Nat) (xs : List Int) :
    Kept r₀ (completeBlock s o l b xs) := by
  unfold completeBlock
  repeat' (first | with_reducible assumption | with_reducible apply State.modOp_kept | with_reducible apply cruWrite_kept | with_reducible apply blockValues_kept | with_reducible apply Kept.ite | dsimp only | split)

theorem storeEntry_kept {r₀ : State} {s : State} (h : Kept r₀ s) (i : Nat) (v : CruVal) :
    Kept r₀ (storeEntry s i v) := by
  unfold storeEntry
  repeat' (first | with_reducible assumption | with_reducible apply State.modLane_kept | with_reducible apply completeBlock_kept | with_reducible apply Kept.ite | dsimp only | split)

theorem formNorms_kept {r₀ : State} {s : State} (h : Kept r₀ s)  :
    Kept r₀ (formNorms s) := by
  unfold formNorms
  repeat' (first | with_reducible assumption | with_reducible apply State.modOp_kept | with_reducible apply cruRead_kept | with_reducible apply Kept.ite | (with_reducible apply Kept.foldl_fst; intro _ _ _) | dsimp only | split)

theorem addEvents_kept {r₀ s : State} (h : Kept r₀ s) (es : List CruEvent) (x : List (Nat × Nat)) : Kept r₀ (addEvents es x s) := by
  induction es generalizing s x with
  | nil => exact h
  | cons e es ih =>
    obtain ⟨c, b, part⟩ := e
    cases b <;> unfold addEvents
    · exact ih (State.modChan_kept h _ _) _
    · split
      · exact ih h _
      · exact ih (State.modChan_kept h _ _) _

theorem advanceLane_kept {r₀ s : State} (h : Kept r₀ s) (n i : Nat) : Kept r₀ (advanceLane n s i) := by
  induction n generalizing s with
  | zero => exact h
  | succ n ih =>
    unfold advanceLane
    repeat' (first | with_reducible assumption | with_reducible apply ih | with_reducible apply State.modLane_kept | with_reducible apply State.modChan_kept | with_reducible apply pumpChan_kept | with_reducible apply storeEntry_kept | with_reducible apply beginPass_kept | with_reducible apply addEvents_kept | with_reducible apply Kept.ite | (with_reducible apply Kept.foldl; intro _ _ _) | dsimp only | split)

theorem takePart_kept {r₀ : State} {s : State} (h : Kept r₀ s) (o : CruOp) (x : CruChan) (d : List Byte) :
    Kept r₀ (takePart s o x d) := by
  unfold takePart
  repeat' (first | with_reducible assumption | with_reducible apply State.modOp_kept | with_reducible apply chanFault_kept | with_reducible apply cruWrite_kept | with_reducible apply State.modLane_kept | with_reducible apply State.modChan_kept | with_reducible apply heldStat_kept | with_reducible apply storeEntry_kept | with_reducible apply Kept.ite | (with_reducible apply Kept.foldl; intro _ _ _) | dsimp only | split)

theorem drainBuf_kept {r₀ s : State} (h : Kept r₀ s) (n c : Nat) : Kept r₀ (drainBuf n s c) := by
  induction n generalizing s with
  | zero => exact h
  | succ n ih =>
    unfold drainBuf
    repeat' (first | with_reducible assumption | with_reducible apply ih | with_reducible apply takePart_kept | with_reducible apply setChF_kept | with_reducible apply sendGrant_kept | with_reducible apply State.modChan_kept | with_reducible apply Kept.ite | dsimp only | split)

theorem rootEffects_kept {r₀ : State} {s : State} (h : Kept r₀ s) (o : CruOp) (outcome : Nat) :
    Kept r₀ (rootEffects s o outcome) := by
  unfold rootEffects
  repeat' (first | with_reducible assumption | with_reducible apply State.modDomain_kept | with_reducible apply dropGathered_kept | with_reducible apply cruWrite_kept | with_reducible apply Kept.ite | (with_reducible apply Kept.foldl; intro _ _ _) | dsimp only | split)

theorem undefineOp_kept {r₀ : State} {s : State} (h : Kept r₀ s) (o : CruOp) (outcome : Nat) :
    Kept r₀ (undefineOp s o outcome) := by
  unfold undefineOp
  repeat' (first | with_reducible assumption | with_reducible apply State.useFree_kept | with_reducible apply cruUndefine_kept | with_reducible apply Kept.ite | (with_reducible apply Kept.foldl; intro _ _ _))

theorem endOp_kept {r₀ : State} {s : State} (h : Kept r₀ s) (outcome : Nat) (faultPos : Nat) (sum : Word) (prev : Nat) :
    Kept r₀ (endOp s outcome faultPos sum prev) := by
  unfold endOp
  repeat' (first | with_reducible assumption | with_reducible apply State.countF_kept | with_reducible apply State.raise_kept | with_reducible apply dramWrite_kept | with_reducible apply setChF_kept | with_reducible apply rootEffects_kept | with_reducible apply undefineOp_kept | dsimp only | split | (with_reducible apply Kept.mk_upd; first | with_reducible assumption | with_reducible apply State.countF_kept | with_reducible apply State.raise_kept | with_reducible apply dramWrite_kept | with_reducible apply setChF_kept | with_reducible apply rootEffects_kept | with_reducible apply undefineOp_kept | with_reducible apply Kept.ite | (with_reducible apply Kept.foldl; intro _ _ _) | (with_reducible apply Kept.foldl_fst; intro _ _ _) | (with_reducible apply Kept.foldl_on Rows.s; intro _ _ _) | (with_reducible apply Kept.foldl_on GWork.s; intro _ _ _) | dsimp only | split))

theorem closeWith_kept {r₀ : State} {s : State} (h : Kept r₀ s) (v : Bool × Bool × Nat × Word) :
    Kept r₀ (closeWith s v) := by
  unfold closeWith
  repeat' (first | with_reducible assumption | with_reducible apply endOp_kept)

theorem progressOp_kept {r₀ : State} {s : State} (h : Kept r₀ s)  :
    Kept r₀ (progressOp s) := by
  unfold progressOp
  repeat' (first | with_reducible assumption | with_reducible apply pumpChan_kept | with_reducible apply advanceLane_kept | with_reducible apply drainBuf_kept | with_reducible apply Kept.ite | (with_reducible apply Kept.foldl; intro _ _ _) | dsimp only | split)

theorem closeOp_kept {r₀ : State} {s : State} (h : Kept r₀ s)  :
    Kept r₀ (closeOp s) := by
  unfold closeOp
  repeat' (first | with_reducible assumption | with_reducible apply State.modOp_kept | with_reducible apply pumpChan_kept | with_reducible apply formNorms_kept | with_reducible apply addEvents_kept | with_reducible apply closeWith_kept | with_reducible apply Kept.ite | (with_reducible apply Kept.foldl; intro _ _ _) | dsimp only | split)

theorem settleGo_kept {r₀ s : State} (h : Kept r₀ s) (n : Nat) : Kept r₀ (settleGo n s) := by
  induction n generalizing s with
  | zero => exact h
  | succ n ih =>
    unfold settleGo
    repeat' (first | with_reducible assumption | with_reducible apply ih | with_reducible apply closeOp_kept | with_reducible apply progressOp_kept | with_reducible apply Kept.ite | dsimp only | split)

theorem settleOp_kept {r₀ : State} {s : State} (h : Kept r₀ s)  :
    Kept r₀ (settleOp s) := by
  unfold settleOp
  repeat' (first | with_reducible assumption | with_reducible apply settleGo_kept)

theorem acceptChunk_kept {r₀ : State} {s : State} (h : Kept r₀ s) (o : CruOp) (x : CruChan) (d : List Byte) :
    Kept r₀ (acceptChunk s o x d) := by
  unfold acceptChunk
  repeat' (first | with_reducible assumption | with_reducible apply setChF_kept | with_reducible apply countCh_kept | with_reducible apply State.modOp_kept | with_reducible apply chanFault_kept | with_reducible apply State.modChan_kept | with_reducible apply settleOp_kept | with_reducible apply Kept.ite)

theorem acceptGrant_kept {r₀ : State} {s : State} (h : Kept r₀ s) (o : CruOp) (x : CruChan) (d : List Byte) :
    Kept r₀ (acceptGrant s o x d) := by
  unfold acceptGrant
  repeat' (first | with_reducible assumption | with_reducible apply setChF_kept | with_reducible apply countCh_kept | with_reducible apply State.modOp_kept | with_reducible apply chanFault_kept | with_reducible apply State.modChan_kept | with_reducible apply settleOp_kept | with_reducible apply Kept.ite)

theorem timeoutOp_kept {r₀ : State} {s : State} (h : Kept r₀ s) (c : Nat) :
    Kept r₀ (timeoutOp s c) := by
  unfold timeoutOp
  repeat' (first | with_reducible assumption | with_reducible apply chanFault_kept | with_reducible apply endOp_kept)

theorem chunkOnOpen_kept {r₀ : State} {s : State} (h : Kept r₀ s) (c : Nat) (d : List Byte) :
    Kept r₀ (chunkOnOpen s c d) := by
  unfold chunkOnOpen
  repeat' (first | with_reducible assumption | with_reducible apply countCh_kept | with_reducible apply chanFault_kept | with_reducible apply acceptChunk_kept | with_reducible apply acceptGrant_kept | with_reducible apply Kept.ite | dsimp only | split)

theorem chunkOnClosed_kept {r₀ : State} {s : State} (h : Kept r₀ s) (c : Nat) (d : List Byte) :
    Kept r₀ (chunkOnClosed s c d) := by
  unfold chunkOnClosed
  repeat' (first | with_reducible assumption | with_reducible apply countCh_kept | with_reducible apply Kept.ite)

theorem chunkArrives_kept {r₀ : State} {s : State} (h : Kept r₀ s) (c : Nat) (d : List Byte) (t : Nat) :
    Kept r₀ (chunkArrives s c d t) := by
  unfold chunkArrives
  repeat' (first | with_reducible assumption | with_reducible apply State.atTime_kept | with_reducible apply State.recordErr_kept | with_reducible apply withOp_kept | with_reducible apply chanFault_kept | with_reducible apply timeoutOp_kept | with_reducible apply chunkOnOpen_kept | with_reducible apply chunkOnClosed_kept | with_reducible apply Kept.ite | intro _ _ | dsimp only | split)

theorem chunkOfKind_kept {r₀ : State} {s : State} (h : Kept r₀ s) (k : Nat) (c : Nat) (d : List Byte) (t : Nat) :
    Kept r₀ (chunkOfKind s k c d t) := by
  unfold chunkOfKind
  repeat' (first | with_reducible assumption | with_reducible apply chunkArrives_kept | with_reducible apply Kept.ite)

theorem pushOp_kept {r₀ : State} {s : State} (h : Kept r₀ s)  :
    Kept r₀ (pushOp s) := by
  unfold pushOp
  repeat' (first | with_reducible assumption | with_reducible apply State.recordErr_kept | with_reducible apply Kept.ite | (with_reducible apply Kept.mk_upd; first | with_reducible assumption | with_reducible apply State.recordErr_kept | with_reducible apply Kept.ite | (with_reducible apply Kept.foldl; intro _ _ _) | (with_reducible apply Kept.foldl_fst; intro _ _ _) | (with_reducible apply Kept.foldl_on Rows.s; intro _ _ _) | (with_reducible apply Kept.foldl_on GWork.s; intro _ _ _) | dsimp only | split))

theorem laneHistory_kept {r₀ : State} {s : State} (h : Kept r₀ s) (ws : List Nat) (l : CruLane) :
    Kept r₀ ((laneHistory s ws l).1) := by
  unfold laneHistory
  repeat' (first | with_reducible assumption | with_reducible apply cruRead_kept | (with_reducible apply Kept.foldl_fst; intro _ _ _) | dsimp only | split)

theorem startLane_kept {r₀ : State} {s : State} (h : Kept r₀ s) (i : Nat) :
    Kept r₀ (startLane s i) := by
  unfold startLane
  repeat' (first | with_reducible assumption | with_reducible apply State.modOp_kept | with_reducible apply State.modLane_kept | with_reducible apply beginPass_kept | with_reducible apply laneHistory_kept | with_reducible apply Kept.ite | dsimp only | split)

theorem normaliseOwn_kept {r₀ : State} {s : State} (h : Kept r₀ s) (ws : List Nat) (it : List Nat) :
    Kept r₀ (normaliseOwn s ws it) := by
  unfold normaliseOwn
  repeat' (first | with_reducible assumption | with_reducible apply cruRead_kept | with_reducible apply cruWrite_kept | with_reducible apply Kept.ite | (with_reducible apply Kept.foldl; intro _ _ _))

theorem openOp_kept {r₀ : State} {s : State} (h : Kept r₀ s) (op : CruOp) :
    Kept r₀ (openOp s op) := by
  unfold openOp
  repeat' (first | with_reducible assumption | with_reducible apply State.raise_kept | with_reducible apply State.modDomain_kept | with_reducible apply setChF_kept | with_reducible apply sendGrant_kept | with_reducible apply addEvents_kept | with_reducible apply advanceLane_kept | with_reducible apply settleOp_kept | with_reducible apply startLane_kept | with_reducible apply normaliseOwn_kept | with_reducible apply Kept.ite | (with_reducible apply Kept.foldl; intro _ _ _) | with_reducible apply Memory.wf_clear | (with_reducible apply Memory.wf_foldl; intro _ _ _) | dsimp only | intro _ | refine Kept.mk_dram ?_ ?_ _ _ _ _ _ _ _ _ _ _ _ _ _ _ _ _ _ _ _ _ _ _ _ _ _ _ _ _ _ _ _ _)

theorem beginOp_kept {r₀ : State} {s : State} (h : Kept r₀ s) (addr : Nat) (ws : List Nat) (items : List (List Nat)) :
    Kept r₀ (beginOp s addr ws items) := by
  unfold beginOp
  repeat' (first | with_reducible assumption | with_reducible apply withOp_kept | with_reducible apply openOp_kept | intro _ _ | dsimp only | (with_reducible apply Kept.mk_upd; first | with_reducible assumption | with_reducible apply withOp_kept | with_reducible apply openOp_kept | with_reducible apply Kept.ite | (with_reducible apply Kept.foldl; intro _ _ _) | (with_reducible apply Kept.foldl_fst; intro _ _ _) | (with_reducible apply Kept.foldl_on Rows.s; intro _ _ _) | (with_reducible apply Kept.foldl_on GWork.s; intro _ _ _) | dsimp only | split))

theorem startOp_kept {r₀ : State} {s : State} (h : Kept r₀ s) (k : Nat) (t : Nat) :
    Kept r₀ (startOp s k t) := by
  unfold startOp
  repeat' (first | with_reducible assumption | with_reducible apply State.atTime_kept | with_reducible apply dramRead_kept | with_reducible apply endOp_kept | with_reducible apply beginOp_kept | with_reducible apply Kept.ite | dsimp only | split | (with_reducible apply Kept.mk_upd; first | with_reducible assumption | with_reducible apply State.atTime_kept | with_reducible apply State.recordErr_kept | with_reducible apply dramRead_kept | with_reducible apply endOp_kept | with_reducible apply beginOp_kept | with_reducible apply Kept.ite | (with_reducible apply Kept.foldl; intro _ _ _) | (with_reducible apply Kept.foldl_fst; intro _ _ _) | (with_reducible apply Kept.foldl_on Rows.s; intro _ _ _) | (with_reducible apply Kept.foldl_on GWork.s; intro _ _ _) | dsimp only | split))

theorem abortOp_kept {r₀ : State} {s : State} (h : Kept r₀ s)  :
    Kept r₀ (abortOp s) := by
  unfold abortOp
  repeat' (first | with_reducible assumption | with_reducible apply endOp_kept)

theorem dropOps_kept {r₀ s : State} (h : Kept r₀ s) (n id a : Nat) : Kept r₀ (dropOps n s id a) := by
  induction n generalizing s with
  | zero => exact h
  | succ n ih =>
    unfold dropOps
    repeat' (first | with_reducible assumption | with_reducible apply ih | with_reducible apply withOp_kept | with_reducible apply abortOp_kept | dsimp only | split | (with_reducible apply Kept.mk_upd; first | with_reducible assumption | with_reducible apply ih | with_reducible apply withOp_kept | with_reducible apply abortOp_kept | with_reducible apply Kept.ite | (with_reducible apply Kept.foldl; intro _ _ _) | (with_reducible apply Kept.foldl_fst; intro _ _ _) | intro _ _ | dsimp only | split))

theorem hopTimeout_kept {r₀ : State} {s : State} (h : Kept r₀ s) (c : Nat) (t : Nat) :
    Kept r₀ (hopTimeout s c t) := by
  unfold hopTimeout
  repeat' (first | with_reducible assumption | with_reducible apply State.atTime_kept | with_reducible apply withOp_kept | with_reducible apply timeoutOp_kept | with_reducible apply Kept.ite | intro _ _ | split)

/-! Operations of Machine/QueueOps.lean. -/

theorem markIdle_kept {r₀ : State} {s : State} (h : Kept r₀ s) (u : RunUnit) :
    Kept r₀ (markIdle s u) := by
  unfold markIdle
  repeat' (first | dsimp only | (with_reducible apply Kept.mk_upd; first | with_reducible assumption | with_reducible apply Kept.ite | (with_reducible apply Kept.foldl; intro _ _ _) | (with_reducible apply Kept.foldl_fst; intro _ _ _) | (with_reducible apply Kept.foldl_on Rows.s; intro _ _ _) | (with_reducible apply Kept.foldl_on GWork.s; intro _ _ _) | with_reducible apply Kept.modTile | with_reducible apply Kept.setTile | dsimp only | split))

theorem State.setQueue_kept {r₀ : State} {s : State} (h : Kept r₀ s) (q : Queue) :
    Kept r₀ (State.setQueue s q) := by
  unfold State.setQueue
  repeat' (first | with_reducible assumption | dsimp only | split | (with_reducible apply Kept.mk_upd; first | with_reducible assumption | with_reducible apply markIdle_kept | with_reducible apply Kept.ite | (with_reducible apply Kept.foldl; intro _ _ _) | (with_reducible apply Kept.foldl_fst; intro _ _ _) | (with_reducible apply Kept.foldl_on Rows.s; intro _ _ _) | (with_reducible apply Kept.foldl_on GWork.s; intro _ _ _) | dsimp only | split))

theorem State.modQueue_kept {r₀ : State} {s : State} (h : Kept r₀ s) (id : Nat) (f : Queue → Queue) :
    Kept r₀ (State.modQueue s id f) := by
  unfold State.modQueue
  repeat' (first | with_reducible assumption | with_reducible apply State.setQueue_kept | split)

theorem setFwState_kept {r₀ : State} {s : State} (h : Kept r₀ s) (v : Nat) (cause : Nat) :
    Kept r₀ (setFwState s v cause) := by
  unfold setFwState
  repeat' (first | with_reducible assumption | with_reducible apply State.setF_kept | with_reducible apply State.raise_kept | with_reducible apply alert_kept | with_reducible apply evtFwState_kept | with_reducible apply Kept.ite)

theorem setCpState_kept {r₀ : State} {s : State} (h : Kept r₀ s) (n : Nat) (v : Nat) :
    Kept r₀ (setCpState s n v) := by
  unfold setCpState
  repeat' (first | with_reducible assumption | with_reducible apply State.setF_kept | with_reducible apply State.raise_kept | with_reducible apply Kept.ite)

theorem writeCpl_kept {r₀ : State} {s : State} (h : Kept r₀ s) (q : Queue) (c : List Byte) :
    Kept r₀ (writeCpl s q c) := by
  unfold writeCpl
  repeat' (first | with_reducible assumption | with_reducible apply State.send_kept | with_reducible apply State.sendHost_kept | with_reducible apply State.setQueue_kept | dsimp only | split)

theorem complete_kept {r₀ : State} {s : State} (h : Kept r₀ s) (qid : Nat) (subId : Nat) (status : Nat) (last : Bool) (err : Nat) (step : Nat) :
    Kept r₀ (complete s qid subId status last err step) := by
  unfold complete
  repeat' (first | with_reducible assumption | with_reducible apply State.setQueue_kept | with_reducible apply writeCpl_kept | dsimp only | split)

theorem flushDue_kept {r₀ s : State} (h : Kept r₀ s) (cs : List (List Byte)) (q : Nat) : Kept r₀ (flushDue cs s q) := by
  induction cs generalizing s with
  | nil => exact h
  | cons c cs ih =>
    unfold flushDue
    split
    · exact h
    · exact ih (writeCpl_kept h _ _)

theorem setStalled_kept {r₀ : State} {s : State} (h : Kept r₀ s) (q : Queue) (v : Bool) :
    Kept r₀ (setStalled s q v) := by
  unfold setStalled
  repeat' (first | with_reducible assumption | with_reducible apply State.setF_kept | with_reducible apply State.countF_kept | with_reducible apply State.setQueue_kept | with_reducible apply Kept.ite)

theorem abortUnit_kept {r₀ : State} {s : State} (h : Kept r₀ s) (u : RunUnit) :
    Kept r₀ (abortUnit s u) := by
  unfold abortUnit
  repeat' (first | with_reducible assumption | with_reducible apply doAbort_kept | (with_reducible apply Kept.foldl; intro _ _ _))

theorem endUnit_kept {r₀ : State} {s : State} (h : Kept r₀ s) (qid : Nat) (spent : Bool) :
    Kept r₀ (endUnit s qid spent) := by
  unfold endUnit
  repeat' (first | with_reducible assumption | with_reducible apply State.modQueue_kept)

theorem stopQueue_kept {r₀ : State} {s : State} (h : Kept r₀ s) (qid : Nat) :
    Kept r₀ (stopQueue s qid) := by
  unfold stopQueue
  repeat' (first | with_reducible assumption | with_reducible apply State.modQueue_kept)

theorem takeEntries_kept {r₀ s : State} (h : Kept r₀ s) (n q : Nat) : Kept r₀ (takeEntries n s q) := by
  induction n generalizing s with
  | zero => exact h
  | succ n ih =>
    unfold takeEntries
    repeat' (first | with_reducible assumption | with_reducible apply ih | with_reducible apply setStalled_kept | with_reducible apply complete_kept | with_reducible apply State.setQueue_kept | with_reducible apply State.useFree_kept | with_reducible apply Kept.ite | dsimp only | split)

theorem copyWords_kept {r₀ : State} {s : State} (h : Kept r₀ s) (ty : Nat) (inst : Nat) (pg : Nat) (off : Nat) (x : List Byte) (at_ : Nat) (n : Nat) :
    Kept r₀ (copyWords s ty inst pg off x at_ n) := by
  unfold copyWords
  repeat' (first | with_reducible assumption | with_reducible apply storeWord_kept | (with_reducible apply Kept.foldl; intro _ _ _))

theorem loadSection_kept {r₀ : State} {s : State} (h : Kept r₀ s) (x : List Byte) :
    Kept r₀ (loadSection s x) := by
  unfold loadSection
  repeat' (first | with_reducible assumption | exact fun _ x => Tile.sound_upd x rfl rfl | with_reducible apply State.setF_kept | with_reducible apply storeWord_kept | with_reducible apply copyWords_kept | with_reducible apply Kept.ite | (with_reducible apply Kept.foldl; intro _ _ _) | with_reducible apply Kept.modTile | dsimp only | split)

theorem openWindows_kept {r₀ : State} {s : State} (h : Kept r₀ s) (x : List Byte) :
    Kept r₀ (openWindows s x) := by
  unfold openWindows
  repeat' (first | with_reducible assumption | with_reducible apply regionWrite_kept | (with_reducible apply Kept.foldl; intro _ _ _) | dsimp only | split)

theorem clearRootMap_kept {r₀ : State} {s : State} (h : Kept r₀ s) (d : Domain) :
    Kept r₀ (clearRootMap s d) := by
  unfold clearRootMap
  repeat' (first | with_reducible assumption | with_reducible apply Kept.ite | with_reducible apply Memory.wf_write | (with_reducible apply Memory.wf_foldl; intro _ _ _) | refine Kept.mk_dram ?_ ?_ _ _ _ _ _ _ _ _ _ _ _ _ _ _ _ _ _ _ _ _ _ _ _ _ _ _ _ _ _ _ _ _)

theorem beginStep_kept {r₀ : State} {s : State} (h : Kept r₀ s) (id : Nat) (reruns : Nat) :
    Kept r₀ (beginStep s id reruns) := by
  unfold beginStep
  repeat' (first | with_reducible assumption | with_reducible apply State.modDomain_kept | with_reducible apply clearRootMap_kept | split)

theorem prepareTile_kept {r₀ : State} {s : State} (h : Kept r₀ s) (q : Queue) (seed : Nat) (step : Nat) (legacy : Bool) (line0 : List Byte) (wsn : List DramWindow) (i : TileId) :
    Kept r₀ (prepareTile s q seed step legacy line0 wsn i) := by
  unfold prepareTile
  repeat' (first | with_reducible assumption | exact fun _ x => Tile.sound_upd x rfl rfl | with_reducible apply State.setF_kept | with_reducible apply pantryStore_kept | with_reducible apply doSoftReset_kept | with_reducible apply Kept.ite | with_reducible apply Kept.modTile)

theorem startUnit_kept {r₀ : State} {s : State} (h : Kept r₀ s) (q : Queue) (e : SubEntry) (reruns : Nat) :
    Kept r₀ (startUnit s q e reruns) := by
  unfold startUnit
  repeat' (first | with_reducible assumption | with_reducible apply State.countF_kept | with_reducible apply doStart_kept | with_reducible apply giveSides_kept | with_reducible apply fwError_kept | with_reducible apply journal_kept | with_reducible apply State.modQueue_kept | with_reducible apply complete_kept | with_reducible apply loadSection_kept | with_reducible apply openWindows_kept | with_reducible apply beginStep_kept | with_reducible apply prepareTile_kept | with_reducible apply Kept.ite | (with_reducible apply Kept.foldl; intro _ _ _) | dsimp only | split | intro _ | refine Kept.mk_dram ?_ ?_ _ _ _ _ _ _ _ _ _ _ _ _ _ _ _ _ _ _ _ _ _ _ _ _ _ _ _ _ _ _ _ _)

theorem readyUnit_kept {r₀ : State} {s : State} (h : Kept r₀ s) (q : Queue) :
    Kept r₀ ((readyUnit s q).1) := by
  unfold readyUnit
  repeat' (first | with_reducible assumption | with_reducible apply State.setF_kept | with_reducible apply powerUnit_kept | with_reducible apply wakeBanks_kept | (with_reducible apply Kept.foldl; intro _ _ _) | (with_reducible apply Kept.foldl_fst; intro _ _ _) | dsimp only | split)

theorem unitStart_kept {r₀ : State} {s : State} (h : Kept r₀ s) (t : Nat) :
    Kept r₀ (unitStart s t) := by
  unfold unitStart
  repeat' (first | with_reducible assumption | with_reducible apply State.atTime_kept | with_reducible apply setStalled_kept | with_reducible apply takeEntries_kept | with_reducible apply startUnit_kept | with_reducible apply readyUnit_kept | with_reducible apply Kept.ite | (with_reducible apply Kept.foldl; intro _ _ _) | dsimp only | split)

/-! Operations of Machine/IntegrityOps.lean. -/

theorem State.modGroup_kept {r₀ : State} {s : State} (h : Kept r₀ s) (id : Nat) (f : Group → Group) :
    Kept r₀ (State.modGroup s id f) := by
  unfold State.modGroup
  repeat' (first | with_reducible assumption | with_reducible apply State.modDomain_kept)

theorem sendPos_kept {r₀ : State} {s : State} (h : Kept r₀ s) (g : Group) (p : Nat) (op : Nat) (d : List Byte) :
    Kept r₀ (sendPos s g p op d) := by
  unfold sendPos
  repeat' (first | with_reducible assumption | with_reducible apply State.control_kept | split)

theorem sendAll_kept {r₀ : State} {s : State} (h : Kept r₀ s) (g : Group) (op : Nat) (d : List Byte) :
    Kept r₀ (sendAll s g op d) := by
  unfold sendAll
  repeat' (first | with_reducible assumption | with_reducible apply sendPos_kept | (with_reducible apply Kept.foldl; intro _ _ _))

theorem configureChannels_kept {r₀ : State} {s : State} (h : Kept r₀ s) (g : Group) :
    Kept r₀ (configureChannels s g) := by
  unfold configureChannels
  repeat' (first | with_reducible assumption | with_reducible apply setChF_kept | with_reducible apply Kept.ite | (with_reducible apply Kept.foldl; intro _ _ _))

theorem advanceEpoch_kept {r₀ : State} {s : State} (h : Kept r₀ s) (id : Nat) :
    Kept r₀ (advanceEpoch s id) := by
  unfold advanceEpoch
  repeat' (first | with_reducible assumption | with_reducible apply State.modDomain_kept | with_reducible apply dropGathered_kept | with_reducible apply configureChannels_kept | with_reducible apply Kept.ite | dsimp only | split)

theorem groupLog_kept {r₀ : State} {s : State} (h : Kept r₀ s) (id : Nat) (event : Nat) (cause : Nat) (step : Nat) (position : Nat) (member : Nat) (peer : Nat) :
    Kept r₀ (groupLog s id event cause step position member peer) := by
  unfold groupLog
  repeat' (first | with_reducible assumption | with_reducible apply integrity_kept)

theorem stopGroup_kept {r₀ : State} {s : State} (h : Kept r₀ s) (id : Nat) :
    Kept r₀ (stopGroup s id) := by
  unfold stopGroup
  repeat' (first | with_reducible assumption | with_reducible apply evtGroup_kept | with_reducible apply State.setQueue_kept | with_reducible apply complete_kept | with_reducible apply State.modGroup_kept | with_reducible apply groupLog_kept | with_reducible apply Kept.ite | dsimp only | split)

theorem noteFit_kept {r₀ : State} {s : State} (h : Kept r₀ s) (id : Nat) (fit : List Nat) :
    Kept r₀ (noteFit s id fit) := by
  unfold noteFit
  repeat' (first | (with_reducible apply Kept.mk_upd; first | with_reducible assumption | with_reducible apply Kept.ite | (with_reducible apply Kept.foldl; intro _ _ _) | (with_reducible apply Kept.foldl_fst; intro _ _ _) | (with_reducible apply Kept.foldl_on Rows.s; intro _ _ _) | (with_reducible apply Kept.foldl_on GWork.s; intro _ _ _) | dsimp only | split))

theorem zeroCullets_kept {r₀ : State} {s : State} (h : Kept r₀ s) (d : Domain) :
    Kept r₀ (zeroCullets s d) := by
  unfold zeroCullets
  repeat' (first | with_reducible assumption | with_reducible apply State.modDomain_kept | with_reducible apply Memory.wf_clear | (with_reducible apply Memory.wf_foldl; intro _ _ _) | refine Kept.mk_dram ?_ ?_ _ _ _ _ _ _ _ _ _ _ _ _ _ _ _ _ _ _ _ _ _ _ _ _ _ _ _ _ _ _ _ _)

theorem dropStepState_kept {r₀ : State} {s : State} (h : Kept r₀ s) (id : Nat) :
    Kept r₀ (dropStepState s id) := by
  unfold dropStepState
  repeat' (first | with_reducible assumption | with_reducible apply State.modDomain_kept | with_reducible apply dropGathered_kept | with_reducible apply zeroCullets_kept | split)

theorem abortStep_kept {r₀ : State} {s : State} (h : Kept r₀ s) (id : Nat) (a : Nat) :
    Kept r₀ (abortStep s id a) := by
  unfold abortStep
  repeat' (first | with_reducible assumption | with_reducible apply State.modDomain_kept | with_reducible apply takeSides_kept | with_reducible apply dropOps_kept | with_reducible apply State.setQueue_kept | with_reducible apply abortUnit_kept | with_reducible apply Kept.ite | dsimp only | split | (with_reducible apply Kept.mk_upd; first | with_reducible assumption | with_reducible apply State.modDomain_kept | with_reducible apply takeSides_kept | with_reducible apply dropOps_kept | with_reducible apply State.setQueue_kept | with_reducible apply abortUnit_kept | with_reducible apply Kept.ite | (with_reducible apply Kept.foldl; intro _ _ _) | (with_reducible apply Kept.foldl_fst; intro _ _ _) | (with_reducible apply Kept.foldl_on Rows.s; intro _ _ _) | (with_reducible apply Kept.foldl_on GWork.s; intro _ _ _) | dsimp only | split))

theorem noteActions_kept {r₀ : State} {s : State} (h : Kept r₀ s) (id : Nat) (due : Nat) (fail : Bool) (as_ : List GroupAction) :
    Kept r₀ (noteActions s id due fail as_) := by
  unfold noteActions
  repeat' (first | with_reducible assumption | with_reducible apply State.modGroup_kept)

theorem askSource_kept {r₀ : State} {s : State} (h : Kept r₀ s) (id : Nat) (g : Group) (src : Nat) (kind : Nat) (level : Nat) (first : Nat) (n : Nat) :
    Kept r₀ (askSource s id g src kind level first n) := by
  unfold askSource
  repeat' (first | with_reducible assumption | with_reducible apply sendPos_kept)

theorem startClone_kept {r₀ : State} {s : State} (h : Kept r₀ s) (id : Nat) (repair : Bool) (srcs : List Nat) :
    Kept r₀ (startClone s id repair srcs) := by
  unfold startClone
  repeat' (first | with_reducible assumption | with_reducible apply State.modGroup_kept | with_reducible apply askSource_kept | (with_reducible apply Kept.foldl; intro _ _ _) | dsimp only | split)

theorem beginClone_kept {r₀ : State} {s : State} (h : Kept r₀ s) (id : Nat) (a : GroupAction) :
    Kept r₀ (beginClone s id a) := by
  unfold beginClone
  repeat' (first | with_reducible assumption | with_reducible apply State.modGroup_kept | with_reducible apply startClone_kept | with_reducible apply Kept.ite | split)

theorem adoptGroup_kept {r₀ : State} {s : State} (h : Kept r₀ s) (b : List Byte) :
    Kept r₀ (adoptGroup s b) := by
  unfold adoptGroup
  repeat' (first | with_reducible assumption | with_reducible apply State.modDomain_kept)

theorem failReceived_kept {r₀ : State} {s : State} (h : Kept r₀ s) (b : List Byte) :
    Kept r₀ (failReceived s b) := by
  unfold failReceived
  repeat' (first | with_reducible assumption | with_reducible apply scanNow_kept | with_reducible apply dropStepState_kept | with_reducible apply abortStep_kept | with_reducible apply noteActions_kept | with_reducible apply beginClone_kept | with_reducible apply Kept.ite | (with_reducible apply Kept.foldl; intro _ _ _) | with_reducible apply Memory.wf_clear | dsimp only | split | refine Kept.mk_dram ?_ ?_ _ _ _ _ _ _ _ _ _ _ _ _ _ _ _ _ _ _ _ _ _ _ _ _ _ _ _ _ _ _ _ _)

theorem sendStages_kept {r₀ : State} {s : State} (h : Kept r₀ s) (d : Domain) (b : List Byte) :
    Kept r₀ (sendStages s d b) := by
  unfold sendStages
  repeat' (first | with_reducible assumption | with_reducible apply State.control_kept | (with_reducible apply Kept.foldl; intro _ _ _) | split)

theorem issueFail_kept {r₀ : State} {s : State} (h : Kept r₀ s) (id : Nat) (acts : List GroupAction) :
    Kept r₀ (issueFail s id acts) := by
  unfold issueFail
  repeat' (first | with_reducible assumption | with_reducible apply State.control_kept | with_reducible apply sendAll_kept | with_reducible apply failReceived_kept | with_reducible apply sendStages_kept | (with_reducible apply Kept.foldl; intro _ _ _) | dsimp only | split)

theorem failMembers_kept {r₀ : State} {s : State} (h : Kept r₀ s) (id : Nat) (ps : List Nat) (cause : Nat) :
    Kept r₀ (failMembers s id ps cause) := by
  unfold failMembers
  repeat' (first | with_reducible assumption | with_reducible apply issueFail_kept | with_reducible apply Kept.ite | dsimp only | split)

theorem stageFail_kept {r₀ : State} {s : State} (h : Kept r₀ s) (id : Nat) (b : List Byte) :
    Kept r₀ (stageFail s id b) := by
  unfold stageFail
  repeat' (first | with_reducible assumption | with_reducible apply sendAll_kept | with_reducible apply failReceived_kept | with_reducible apply sendStages_kept | with_reducible apply Kept.ite | dsimp only | split)

theorem startAgreed_kept {r₀ : State} {s : State} (h : Kept r₀ s) (id : Nat) :
    Kept r₀ (startAgreed s id) := by
  unfold startAgreed
  repeat' (first | with_reducible assumption | with_reducible apply State.modDomain_kept | with_reducible apply requestPin_kept)

theorem tableReceived_kept {r₀ : State} {s : State} (h : Kept r₀ s) (b : List Byte) :
    Kept r₀ (tableReceived s b) := by
  unfold tableReceived
  repeat' (first | with_reducible assumption | with_reducible apply integrity_kept | with_reducible apply State.modGroup_kept | with_reducible apply noteActions_kept | with_reducible apply beginClone_kept | with_reducible apply startAgreed_kept | with_reducible apply Kept.ite | (with_reducible apply Kept.foldl; intro _ _ _) | dsimp only | split)

theorem stageTable_kept {r₀ : State} {s : State} (h : Kept r₀ s) (b : List Byte) :
    Kept r₀ (stageTable s b) := by
  unfold stageTable
  repeat' (first | with_reducible assumption | with_reducible apply State.setDomain_kept | with_reducible apply sendAll_kept | with_reducible apply noteActions_kept | with_reducible apply Kept.ite | dsimp only | split)

theorem tableArrives_kept {r₀ : State} {s : State} (h : Kept r₀ s) (fail : Bool) (b : List Byte) (t : Nat) :
    Kept r₀ (tableArrives s fail b t) := by
  unfold tableArrives
  repeat' (first | with_reducible assumption | with_reducible apply State.atTime_kept | with_reducible apply sendPos_kept | with_reducible apply adoptGroup_kept | with_reducible apply failReceived_kept | with_reducible apply stageFail_kept | with_reducible apply tableReceived_kept | with_reducible apply stageTable_kept | with_reducible apply Kept.ite | split)

theorem formTable_kept {r₀ : State} {s : State} (h : Kept r₀ s) (id : Nat) :
    Kept r₀ (formTable s id) := by
  unfold formTable
  repeat' (first | with_reducible assumption | with_reducible apply State.control_kept | with_reducible apply sendAll_kept | with_reducible apply sendStages_kept | with_reducible apply tableReceived_kept | with_reducible apply Kept.ite | (with_reducible apply Kept.foldl; intro _ _ _) | dsimp only | split)

theorem reportArrives_kept {r₀ : State} {s : State} (h : Kept r₀ s) (b : List Byte) (fit : List Nat) (t : Nat) :
    Kept r₀ (reportArrives s b fit t) := by
  unfold reportArrives
  repeat' (first | with_reducible assumption | with_reducible apply State.atTime_kept | with_reducible apply State.modGroup_kept | with_reducible apply noteFit_kept | with_reducible apply formTable_kept | with_reducible apply Kept.ite)

theorem sendReport_kept {r₀ : State} {s : State} (h : Kept r₀ s) (id : Nat) :
    Kept r₀ (sendReport s id) := by
  unfold sendReport
  repeat' (first | with_reducible assumption | with_reducible apply State.modGroup_kept | with_reducible apply sendPos_kept | with_reducible apply formTable_kept | with_reducible apply Kept.ite | dsimp only | split)

theorem tableAsked_kept {r₀ : State} {s : State} (h : Kept r₀ s) (id : Nat) (position : Nat) (t : Nat) :
    Kept r₀ (tableAsked s id position t) := by
  unfold tableAsked
  repeat' (first | with_reducible assumption | with_reducible apply State.atTime_kept | with_reducible apply sendPos_kept | with_reducible apply Kept.ite | dsimp only | split)

theorem heartbeatSend_kept {r₀ : State} {s : State} (h : Kept r₀ s) (id : Nat) (t : Nat) :
    Kept r₀ (heartbeatSend s id t) := by
  unfold heartbeatSend
  repeat' (first | with_reducible assumption | with_reducible apply State.atTime_kept | with_reducible apply sendPos_kept | with_reducible apply sendAll_kept | with_reducible apply Kept.ite | dsimp only | split)

theorem heartbeat_kept {r₀ : State} {s : State} (h : Kept r₀ s) (id : Nat) (position : Nat) (t : Nat) :
    Kept r₀ (heartbeat s id position t) := by
  unfold heartbeat
  repeat' (first | with_reducible assumption | with_reducible apply State.atTime_kept | with_reducible apply State.modGroup_kept)

theorem heartbeatExpiry_kept {r₀ : State} {s : State} (h : Kept r₀ s) (id : Nat) (position : Nat) (t : Nat) (fit : List Nat) :
    Kept r₀ (heartbeatExpiry s id position t fit) := by
  unfold heartbeatExpiry
  repeat' (first | with_reducible assumption | with_reducible apply State.atTime_kept | with_reducible apply State.modGroup_kept | with_reducible apply noteFit_kept | with_reducible apply failMembers_kept | with_reducible apply Kept.ite | dsimp only | split)

theorem memberStop_kept {r₀ : State} {s : State} (h : Kept r₀ s) (id : Nat) (position : Nat) (t : Nat) (fit : List Nat) :
    Kept r₀ (memberStop s id position t fit) := by
  unfold memberStop
  repeat' (first | with_reducible assumption | with_reducible apply State.atTime_kept | with_reducible apply noteFit_kept | with_reducible apply failMembers_kept | with_reducible apply Kept.ite)

theorem linkFailure_kept {r₀ : State} {s : State} (h : Kept r₀ s) (id : Nat) (p : Nat) (q : Nat) (t : Nat) (fit : List Nat) :
    Kept r₀ (linkFailure s id p q t fit) := by
  unfold linkFailure
  repeat' (first | with_reducible assumption | with_reducible apply State.atTime_kept | with_reducible apply noteFit_kept | with_reducible apply failMembers_kept | with_reducible apply Kept.ite)

theorem reportStop_kept {r₀ : State} {s : State} (h : Kept r₀ s) (id : Nat) :
    Kept r₀ (reportStop s id) := by
  unfold reportStop
  repeat' (first | with_reducible assumption | with_reducible apply sendPos_kept | with_reducible apply failMembers_kept | with_reducible apply Kept.ite | split)

theorem State.modClone_kept {r₀ : State} {s : State} (h : Kept r₀ s) (id : Nat) (f : CloneJob → CloneJob) :
    Kept r₀ (State.modClone s id f) := by
  unfold State.modClone
  repeat' (first | with_reducible assumption | with_reducible apply State.modGroup_kept)

theorem joinAnswer_kept {r₀ : State} {s : State} (h : Kept r₀ s) (id : Nat) (position : Nat) (member : Nat) :
    Kept r₀ (joinAnswer s id position member) := by
  unfold joinAnswer
  repeat' (first | with_reducible assumption | with_reducible apply State.control_kept | with_reducible apply State.modGroup_kept | with_reducible apply sendAll_kept | with_reducible apply issueFail_kept | with_reducible apply tableReceived_kept | with_reducible apply Kept.ite | dsimp only | split)

theorem finishClone_kept {r₀ : State} {s : State} (h : Kept r₀ s) (id : Nat) :
    Kept r₀ (finishClone s id) := by
  unfold finishClone
  repeat' (first | with_reducible assumption | with_reducible apply State.modDomain_kept | with_reducible apply scanNow_kept | with_reducible apply State.modGroup_kept | with_reducible apply sendPos_kept | with_reducible apply groupLog_kept | with_reducible apply zeroCullets_kept | with_reducible apply askSource_kept | with_reducible apply startClone_kept | with_reducible apply joinAnswer_kept | with_reducible apply Kept.ite | (with_reducible apply Kept.foldl; intro _ _ _) | with_reducible apply Memory.wf_writeL | dsimp only | split | refine Kept.mk_dram ?_ ?_ _ _ _ _ _ _ _ _ _ _ _ _ _ _ _ _ _ _ _ _ _ _ _ _ _ _ _ _ _ _ _ _)

theorem badLeaf_kept {r₀ : State} {s : State} (h : Kept r₀ s) (id : Nat) (g : Group) (c : CloneJob) (src : Nat) (k : Nat) (leaf : Nat) (sec : Nat) (kind : Nat) :
    Kept r₀ (badLeaf s id g c src k leaf sec kind) := by
  unfold badLeaf
  repeat' (first | with_reducible assumption | with_reducible apply integrity_kept | with_reducible apply askSource_kept | with_reducible apply State.modClone_kept | with_reducible apply Kept.ite)

theorem logLeafDiffs_kept {r₀ : State} {s : State} (h : Kept r₀ s) (id : Nat) (g : Group) (c : CloneJob) (secs : List (List (Nat × Nat))) (ks : List Nat) :
    Kept r₀ (logLeafDiffs s id g c secs ks) := by
  unfold logLeafDiffs
  repeat' (first | with_reducible assumption | with_reducible apply integrity_kept | with_reducible apply Kept.ite | (with_reducible apply Kept.foldl; intro _ _ _))

theorem failClone_kept {r₀ : State} {s : State} (h : Kept r₀ s) (id : Nat) :
    Kept r₀ (failClone s id) := by
  unfold failClone
  repeat' (first | with_reducible assumption | with_reducible apply State.modGroup_kept)

theorem cloneRecords_kept {r₀ : State} {s : State} (h : Kept r₀ s) (id : Nat) (d : Domain) (g : Group) (c : CloneJob) (rs : List (Nat × List Byte)) :
    Kept r₀ (cloneRecords s id d g c rs) := by
  unfold cloneRecords
  repeat' (first | with_reducible assumption | with_reducible apply askSource_kept | with_reducible apply State.modClone_kept | with_reducible apply finishClone_kept | with_reducible apply failClone_kept | with_reducible apply Kept.ite | dsimp only | split)

theorem askRuns_kept {r₀ : State} {s : State} (h : Kept r₀ s) (id : Nat) (g : Group) (c : CloneJob) (kind : Nat) (n : Nat) :
    Kept r₀ (askRuns s id g c kind n) := by
  unfold askRuns
  repeat' (first | with_reducible assumption | with_reducible apply askSource_kept | (with_reducible apply Kept.foldl; intro _ _ _))

theorem cloneTree_kept {r₀ : State} {s : State} (h : Kept r₀ s) (id : Nat) (g : Group) (c : CloneJob) (src : Nat) (ls : List Nat) :
    Kept r₀ (cloneTree s id g c src ls) := by
  unfold cloneTree
  repeat' (first | with_reducible assumption | with_reducible apply State.modClone_kept | with_reducible apply finishClone_kept | with_reducible apply failClone_kept | with_reducible apply askRuns_kept | with_reducible apply Kept.ite)

theorem cloneNodes_kept {r₀ : State} {s : State} (h : Kept r₀ s) (id : Nat) (d : Domain) (g : Group) (c : CloneJob) (src : Nat) (level : Nat) (first : Nat) (ds : List Nat) :
    Kept r₀ (cloneNodes s id d g c src level first ds) := by
  unfold cloneNodes
  repeat' (first | with_reducible assumption | with_reducible apply askSource_kept | with_reducible apply State.modClone_kept | with_reducible apply finishClone_kept | with_reducible apply logLeafDiffs_kept | with_reducible apply Kept.ite | (with_reducible apply Kept.foldl; intro _ _ _) | dsimp only | split)

theorem cloneLeaf_kept {r₀ : State} {s : State} (h : Kept r₀ s) (id : Nat) (d : Domain) (g : Group) (c : CloneJob) (src : Nat) (k : Nat) (dat : List Byte) :
    Kept r₀ (cloneLeaf s id d g c src k dat) := by
  unfold cloneLeaf
  repeat' (first | with_reducible assumption | with_reducible apply State.modClone_kept | with_reducible apply finishClone_kept | with_reducible apply badLeaf_kept | with_reducible apply Kept.ite | with_reducible apply writeLeaf_wf | refine Kept.mk_dram ?_ ?_ _ _ _ _ _ _ _ _ _ _ _ _ _ _ _ _ _ _ _ _ _ _ _ _ _ _ _ _ _ _ _ _)

theorem setBaseTree_kept {r₀ : State} {s : State} (h : Kept r₀ s) (region : Nat) (leaves : List Nat) :
    Kept r₀ (setBaseTree s region leaves) := by
  unfold setBaseTree
  repeat' (first | dsimp only | (with_reducible apply Kept.mk_upd; first | with_reducible assumption | with_reducible apply Kept.ite | (with_reducible apply Kept.foldl; intro _ _ _) | (with_reducible apply Kept.foldl_fst; intro _ _ _) | (with_reducible apply Kept.foldl_on Rows.s; intro _ _ _) | (with_reducible apply Kept.foldl_on GWork.s; intro _ _ _) | dsimp only | split))

theorem cloneBaseLeaf_kept {r₀ : State} {s : State} (h : Kept r₀ s) (id : Nat) (d : Domain) (g : Group) (c : CloneJob) (src : Nat) (k : Nat) (dat : List Byte) :
    Kept r₀ (cloneBaseLeaf s id d g c src k dat) := by
  unfold cloneBaseLeaf
  repeat' (first | with_reducible assumption | with_reducible apply State.modClone_kept | with_reducible apply finishClone_kept | with_reducible apply badLeaf_kept | with_reducible apply setBaseTree_kept | with_reducible apply Kept.ite | with_reducible apply writeLeaf_wf | refine Kept.mk_dram ?_ ?_ _ _ _ _ _ _ _ _ _ _ _ _ _ _ _ _ _ _ _ _ _ _ _ _ _ _ _ _ _ _ _ _)

theorem cloneBaseTree_kept {r₀ : State} {s : State} (h : Kept r₀ s) (id : Nat) (d : Domain) (g : Group) (c : CloneJob) (src : Nat) (ls : List Nat) :
    Kept r₀ (cloneBaseTree s id d g c src ls) := by
  unfold cloneBaseTree
  repeat' (first | with_reducible assumption | with_reducible apply askSource_kept | with_reducible apply State.modClone_kept | with_reducible apply finishClone_kept | with_reducible apply Kept.ite | (with_reducible apply Kept.foldl; intro _ _ _))

theorem cloneArrives_kept {r₀ : State} {s : State} (h : Kept r₀ s) (id : Nat) (x : CloneUnit) (t : Nat) :
    Kept r₀ (cloneArrives s id x t) := by
  unfold cloneArrives
  repeat' (first | with_reducible assumption | with_reducible apply State.atTime_kept | with_reducible apply cloneRecords_kept | with_reducible apply cloneTree_kept | with_reducible apply cloneNodes_kept | with_reducible apply cloneLeaf_kept | with_reducible apply cloneBaseLeaf_kept | with_reducible apply cloneBaseTree_kept | dsimp only | split)

theorem cloneAsked_kept {r₀ : State} {s : State} (h : Kept r₀ s) (id : Nat) (member : Nat) (a : CloneAsk) (t : Nat) :
    Kept r₀ (cloneAsked s id member a t) := by
  unfold cloneAsked
  repeat' (first | with_reducible assumption | with_reducible apply State.atTime_kept | with_reducible apply dramUncorrectable_kept | with_reducible apply State.send_kept | with_reducible apply requestPin_kept | with_reducible apply releasePin_kept | with_reducible apply Kept.ite | (with_reducible apply Kept.foldl; intro _ _ _) | dsimp only | split)

theorem cloneDone_kept {r₀ : State} {s : State} (h : Kept r₀ s) (id : Nat) (position : Nat) (member : Nat) (t : Nat) :
    Kept r₀ (cloneDone s id position member t) := by
  unfold cloneDone
  repeat' (first | with_reducible assumption | with_reducible apply State.atTime_kept | with_reducible apply joinAnswer_kept)

theorem agreedCopyDone_kept {r₀ : State} {s : State} (h : Kept r₀ s) (id : Nat) (t : Nat) :
    Kept r₀ (agreedCopyDone s id t) := by
  unfold agreedCopyDone
  repeat' (first | with_reducible assumption | with_reducible apply State.atTime_kept | with_reducible apply State.modDomain_kept | with_reducible apply releasePin_kept | with_reducible apply Kept.ite | dsimp only | split)

theorem rollback_kept {r₀ : State} {s : State} (h : Kept r₀ s) (id : Nat) (n : Nat) (others : Bool) :
    Kept r₀ (rollback s id n others) := by
  unfold rollback
  repeat' (first | with_reducible assumption | with_reducible apply State.modDomain_kept | with_reducible apply scanNow_kept | with_reducible apply State.modGroup_kept | with_reducible apply groupLog_kept | with_reducible apply stopGroup_kept | with_reducible apply dropStepState_kept | with_reducible apply Kept.ite | with_reducible apply Memory.wf_writeL | with_reducible apply Memory.wf_clear | (with_reducible apply Memory.wf_foldl; intro _ _ _) | dsimp only | split | intro _ | refine Kept.mk_dram ?_ ?_ _ _ _ _ _ _ _ _ _ _ _ _ _ _ _ _ _ _ _ _ _ _ _ _ _ _ _ _ _ _ _ _)

theorem ejectAt_kept {r₀ : State} {s : State} (h : Kept r₀ s) (id : Nat) (a : GroupAction) (repair : Bool) :
    Kept r₀ (ejectAt s id a repair) := by
  unfold ejectAt
  repeat' (first | with_reducible assumption | with_reducible apply evtGroup_kept | with_reducible apply State.modGroup_kept | with_reducible apply advanceEpoch_kept | with_reducible apply groupLog_kept | with_reducible apply Kept.ite | dsimp only | split)

theorem joinAt_kept {r₀ : State} {s : State} (h : Kept r₀ s) (id : Nat) (a : GroupAction) :
    Kept r₀ (joinAt s id a) := by
  unfold joinAt
  repeat' (first | with_reducible assumption | with_reducible apply evtGroup_kept | with_reducible apply State.modGroup_kept | with_reducible apply advanceEpoch_kept | with_reducible apply groupLog_kept | with_reducible apply Kept.ite | dsimp only | split)

theorem shrinkAt_kept {r₀ : State} {s : State} (h : Kept r₀ s) (id : Nat) (a : GroupAction) :
    Kept r₀ (shrinkAt s id a) := by
  unfold shrinkAt
  repeat' (first | with_reducible assumption | with_reducible apply State.modGroup_kept | with_reducible apply advanceEpoch_kept | with_reducible apply groupLog_kept)

theorem repairAt_kept {r₀ : State} {s : State} (h : Kept r₀ s) (id : Nat) (a : GroupAction) :
    Kept r₀ (repairAt s id a) := by
  unfold repairAt
  repeat' (first | with_reducible assumption | with_reducible apply startClone_kept | with_reducible apply Kept.ite | split)

theorem boundaryActions_kept {r₀ : State} {s : State} (h : Kept r₀ s) (id : Nat) (next : Nat) (others : Bool) :
    Kept r₀ (boundaryActions s id next others) := by
  unfold boundaryActions
  repeat' (first | with_reducible assumption | with_reducible apply State.modGroup_kept | with_reducible apply stopGroup_kept | with_reducible apply rollback_kept | with_reducible apply ejectAt_kept | with_reducible apply joinAt_kept | with_reducible apply shrinkAt_kept | with_reducible apply repairAt_kept | with_reducible apply Kept.ite | (with_reducible apply Kept.foldl; intro _ _ _) | dsimp only | split)

theorem spareWaitExpiry_kept {r₀ : State} {s : State} (h : Kept r₀ s) (id : Nat) (t : Nat) :
    Kept r₀ (spareWaitExpiry s id t) := by
  unfold spareWaitExpiry
  repeat' (first | with_reducible assumption | with_reducible apply State.atTime_kept | with_reducible apply stopGroup_kept | with_reducible apply issueFail_kept | with_reducible apply Kept.ite | dsimp only | split)

/-! Operations of Machine/StepOps.lean. -/

theorem writeRetained_kept {r₀ : State} {s : State} (h : Kept r₀ s)  :
    Kept r₀ (writeRetained s) := by
  unfold writeRetained
  repeat' (first | with_reducible assumption | with_reducible apply Memory.wf_writeL | with_reducible apply Memory.wf_clear | dsimp only | split | intro _ | refine Kept.mk_dram ?_ ?_ _ _ _ _ _ _ _ _ _ _ _ _ _ _ _ _ _ _ _ _ _ _ _ _ _ _ _ _ _ _ _ _)

theorem stopDomain_kept {r₀ : State} {s : State} (h : Kept r₀ s) (id : Nat) (dead : Bool) :
    Kept r₀ (stopDomain s id dead) := by
  unfold stopDomain
  repeat' (first | with_reducible assumption | with_reducible apply State.modDomain_kept | with_reducible apply takeSides_kept | with_reducible apply State.setQueue_kept | with_reducible apply complete_kept | with_reducible apply abortUnit_kept | with_reducible apply reportStop_kept | with_reducible apply Kept.ite | dsimp only | split)

theorem commitCommand_kept {r₀ : State} {s : State} (h : Kept r₀ s) (t : Nat) :
    Kept r₀ (commitCommand s t) := by
  unfold commitCommand
  repeat' (first | with_reducible assumption | with_reducible apply commitExecute_kept | with_reducible apply sendReport_kept | with_reducible apply stopDomain_kept | with_reducible apply Kept.ite | dsimp only | split)

theorem setHopTimeout_kept {r₀ : State} {s : State} (h : Kept r₀ s) (g : Group) :
    Kept r₀ (setHopTimeout s g) := by
  unfold setHopTimeout
  repeat' (first | with_reducible assumption | with_reducible apply State.setF_kept | with_reducible apply Kept.ite)

theorem postOp_kept {r₀ : State} {s : State} (h : Kept r₀ s) (addr : Nat) :
    Kept r₀ (postOp s addr) := by
  unfold postOp
  repeat' (first | with_reducible assumption | with_reducible apply State.setF_kept | with_reducible apply journal_kept | with_reducible apply pushOp_kept)

theorem setOvfLocal_kept {r₀ : State} {s : State} (h : Kept r₀ s) (addr : Nat) :
    Kept r₀ (setOvfLocal s addr) := by
  unfold setOvfLocal
  repeat' (first | with_reducible assumption | with_reducible apply Memory.wf_write | refine Kept.mk_dram ?_ ?_ _ _ _ _ _ _ _ _ _ _ _ _ _ _ _ _ _ _ _ _ _ _ _ _ _ _ _ _ _ _ _ _)

theorem postGrad_kept {r₀ : State} {s : State} (h : Kept r₀ s) (d : Domain) (r : StepRun) (ws : List Nat) (addr : Nat) :
    Kept r₀ (postGrad s d r ws addr) := by
  unfold postGrad
  repeat' (first | with_reducible assumption | with_reducible apply State.modDomain_kept | with_reducible apply setHopTimeout_kept | with_reducible apply postOp_kept | with_reducible apply setOvfLocal_kept | with_reducible apply Kept.ite | split)

theorem postStat_kept {r₀ : State} {s : State} (h : Kept r₀ s) (d : Domain) (r : StepRun) (ws : List Nat) (addr : Nat) :
    Kept r₀ (postStat s d r ws addr) := by
  unfold postStat
  repeat' (first | with_reducible assumption | with_reducible apply State.modDomain_kept | with_reducible apply postOp_kept | with_reducible apply Kept.ite)

theorem postRoot_kept {r₀ : State} {s : State} (h : Kept r₀ s) (d : Domain) (r : StepRun) (ws : List Nat) (addr : Nat) :
    Kept r₀ (postRoot s d r ws addr) := by
  unfold postRoot
  repeat' (first | with_reducible assumption | with_reducible apply postOp_kept | with_reducible apply Kept.ite)

theorem opPush_kept {r₀ : State} {s : State} (h : Kept r₀ s) (addr : Nat) (t : Nat) :
    Kept r₀ (opPush s addr t) := by
  unfold opPush
  repeat' (first | with_reducible assumption | with_reducible apply State.atTime_kept | with_reducible apply postOp_kept | with_reducible apply postGrad_kept | with_reducible apply postStat_kept | with_reducible apply postRoot_kept | with_reducible apply Kept.ite | dsimp only | split)

theorem updateFault_kept {r₀ : State} {s : State} (h : Kept r₀ s) (d : Domain) :
    Kept r₀ (updateFault s d) := by
  unfold updateFault
  repeat' (first | with_reducible assumption | with_reducible apply State.recordErr_kept | with_reducible apply State.modDomain_kept | with_reducible apply evtFault_kept)

theorem runUpdate_kept {r₀ : State} {s : State} (h : Kept r₀ s) (id : Nat) (ws : List Nat) (items : List (List Nat)) :
    Kept r₀ (runUpdate s id ws items) := by
  unfold runUpdate
  repeat' (first | with_reducible assumption | with_reducible apply dramUncorrectable_kept | with_reducible apply State.modDomain_kept | with_reducible apply updateDomain_kept | with_reducible apply stopDomain_kept | with_reducible apply updateFault_kept | with_reducible apply Kept.ite | dsimp only | split)

theorem rerunStep_kept {r₀ : State} {s : State} (h : Kept r₀ s) (d : Domain) (reruns : Nat) :
    Kept r₀ (rerunStep s d reruns) := by
  unfold rerunStep
  repeat' (first | with_reducible assumption | with_reducible apply State.modDomain_kept | with_reducible apply takeSides_kept | with_reducible apply startUnit_kept | dsimp only | split)

theorem reportTimeout_kept {r₀ : State} {s : State} (h : Kept r₀ s) (id : Nat) (member : Nat) :
    Kept r₀ (reportTimeout s id member) := by
  unfold reportTimeout
  repeat' (first | with_reducible assumption | with_reducible apply sendPos_kept | with_reducible apply failMembers_kept | with_reducible apply Kept.ite | dsimp only | split)

theorem secondFault_kept {r₀ : State} {s : State} (h : Kept r₀ s) (id : Nat) (pos : Nat) :
    Kept r₀ (secondFault s id pos) := by
  unfold secondFault
  repeat' (first | with_reducible assumption | with_reducible apply State.recordErr_kept | with_reducible apply evtFault_kept | with_reducible apply sendPos_kept | with_reducible apply failMembers_kept | with_reducible apply stopDomain_kept | with_reducible apply Kept.ite | dsimp only | split)

theorem opDone_kept {r₀ : State} {s : State} (h : Kept r₀ s) (t : Nat) (fit : List Nat) :
    Kept r₀ (opDone s t fit) := by
  unfold opDone
  repeat' (first | with_reducible assumption | with_reducible apply State.atTime_kept | with_reducible apply State.modDomain_kept | with_reducible apply noteFit_kept | with_reducible apply runUpdate_kept | with_reducible apply rerunStep_kept | with_reducible apply reportTimeout_kept | with_reducible apply secondFault_kept | with_reducible apply Kept.ite | dsimp only | split | (with_reducible apply Kept.mk_upd; first | with_reducible assumption | with_reducible apply State.atTime_kept | with_reducible apply State.modDomain_kept | with_reducible apply noteFit_kept | with_reducible apply runUpdate_kept | with_reducible apply rerunStep_kept | with_reducible apply reportTimeout_kept | with_reducible apply secondFault_kept | with_reducible apply Kept.ite | (with_reducible apply Kept.foldl; intro _ _ _) | (with_reducible apply Kept.foldl_fst; intro _ _ _) | (with_reducible apply Kept.foldl_on Rows.s; intro _ _ _) | (with_reducible apply Kept.foldl_on GWork.s; intro _ _ _) | dsimp only | split))

theorem steerDomain_kept {r₀ : State} {s : State} (h : Kept r₀ s) (id : Nat) (n : Nat) :
    Kept r₀ (steerDomain s id n) := by
  unfold steerDomain
  repeat' (first | with_reducible assumption | with_reducible apply State.countF_kept | with_reducible apply State.modDomain_kept | with_reducible apply raiseEvent_kept | with_reducible apply Kept.ite | dsimp only | split)

theorem fitWatchdog_kept {r₀ : State} {s : State} (h : Kept r₀ s)  :
    Kept r₀ (fitWatchdog s) := by
  unfold fitWatchdog
  repeat' (first | with_reducible assumption | with_reducible apply State.setF_kept)

theorem applyPlan_kept {r₀ : State} {s : State} (h : Kept r₀ s) (id : Nat) :
    Kept r₀ (applyPlan s id) := by
  unfold applyPlan
  repeat' (first | with_reducible assumption | with_reducible apply State.modGroup_kept | with_reducible apply configureChannels_kept | with_reducible apply advanceEpoch_kept | with_reducible apply fitWatchdog_kept | with_reducible apply Kept.ite | dsimp only | split)

theorem endStep_kept {r₀ : State} {s : State} (h : Kept r₀ s) (d : Domain) (r : StepRun) :
    Kept r₀ (endStep s d r) := by
  unfold endStep
  repeat' (first | with_reducible assumption | with_reducible apply State.modDomain_kept | with_reducible apply takeSides_kept | with_reducible apply complete_kept | with_reducible apply endUnit_kept | with_reducible apply Kept.ite | split)

theorem boundaryHeld_kept {r₀ : State} {s : State} (h : Kept r₀ s) (d : Domain) (others : Bool) :
    Kept r₀ (boundaryHeld s d others) := by
  unfold boundaryHeld
  repeat' (first | with_reducible assumption | with_reducible apply State.modDomain_kept | with_reducible apply boundaryActions_kept | with_reducible apply writeRetained_kept | with_reducible apply steerDomain_kept | with_reducible apply applyPlan_kept | with_reducible apply endStep_kept | with_reducible apply Kept.ite | split)

theorem boundaryStarts_kept {r₀ : State} {s : State} (h : Kept r₀ s) (id : Nat) (t : Nat) :
    Kept r₀ (boundaryStarts s id t) := by
  unfold boundaryStarts
  repeat' (first | with_reducible assumption | with_reducible apply State.modDomain_kept | with_reducible apply applyFrequencies_kept | with_reducible apply unitStart_kept | with_reducible apply reportStop_kept | with_reducible apply Kept.ite)

theorem runComplete_kept {r₀ : State} {s : State} (h : Kept r₀ s) (qid : Nat) (t : Nat) :
    Kept r₀ (runComplete s qid t) := by
  unfold runComplete
  repeat' (first | with_reducible assumption | with_reducible apply State.atTime_kept | with_reducible apply complete_kept | with_reducible apply endUnit_kept | with_reducible apply Kept.ite | split)

theorem idleFault_kept {r₀ : State} {s : State} (h : Kept r₀ s) (qid : Nat) :
    Kept r₀ (idleFault s qid) := by
  unfold idleFault
  repeat' (first | with_reducible assumption | with_reducible apply State.recordErr_kept | with_reducible apply evtFault_kept | with_reducible apply Kept.ite | dsimp only | (with_reducible apply Kept.mk_upd; first | with_reducible assumption | with_reducible apply State.recordErr_kept | with_reducible apply evtFault_kept | with_reducible apply Kept.ite | (with_reducible apply Kept.foldl; intro _ _ _) | (with_reducible apply Kept.foldl_fst; intro _ _ _) | (with_reducible apply Kept.foldl_on Rows.s; intro _ _ _) | (with_reducible apply Kept.foldl_on GWork.s; intro _ _ _) | dsimp only | split))

theorem updateAgain_kept {r₀ : State} {s : State} (h : Kept r₀ s) (d : Domain) (r : StepRun) (tiles : List TileId) :
    Kept r₀ (updateAgain s d r tiles) := by
  unfold updateAgain
  repeat' (first | with_reducible assumption | with_reducible apply doSoftReset_kept | with_reducible apply State.modDomain_kept | with_reducible apply stopDomain_kept | with_reducible apply updateFault_kept | with_reducible apply runUpdate_kept | with_reducible apply Kept.ite | (with_reducible apply Kept.foldl; intro _ _ _))

theorem queueFault_kept {r₀ : State} {s : State} (h : Kept r₀ s) (qid : Nat) (t : Nat) :
    Kept r₀ (queueFault s qid t) := by
  unfold queueFault
  repeat' (first | with_reducible assumption | with_reducible apply State.atTime_kept | with_reducible apply State.recordErr_kept | with_reducible apply evtFault_kept | with_reducible apply complete_kept | with_reducible apply abortUnit_kept | with_reducible apply endUnit_kept | with_reducible apply stopQueue_kept | with_reducible apply stopDomain_kept | with_reducible apply idleFault_kept | with_reducible apply updateAgain_kept | with_reducible apply Kept.ite | dsimp only | split)

theorem abortCrucible_kept {r₀ : State} {s : State} (h : Kept r₀ s) (t : Nat) :
    Kept r₀ (abortCrucible s t) := by
  unfold abortCrucible
  repeat' (first | with_reducible assumption | with_reducible apply State.atTime_kept | with_reducible apply abortOp_kept | with_reducible apply Kept.ite)

/-! Operations of Machine/ExportOps.lean. -/

theorem exportFail_kept {r₀ : State} {s : State} (h : Kept r₀ s)  :
    Kept r₀ (exportFail s) := by
  unfold exportFail
  repeat' (first | with_reducible assumption | with_reducible apply State.setF_kept | with_reducible apply releasePin_kept | dsimp only | (with_reducible apply Kept.mk_upd; first | with_reducible assumption | with_reducible apply State.setF_kept | with_reducible apply releasePin_kept | with_reducible apply Kept.ite | (with_reducible apply Kept.foldl; intro _ _ _) | (with_reducible apply Kept.foldl_fst; intro _ _ _) | (with_reducible apply Kept.foldl_on Rows.s; intro _ _ _) | (with_reducible apply Kept.foldl_on GWork.s; intro _ _ _) | dsimp only | split))

theorem exportGo_kept {r₀ : State} {s : State} (h : Kept r₀ s) (t : Nat) :
    Kept r₀ (exportGo s t) := by
  unfold exportGo
  repeat' (first | with_reducible assumption | with_reducible apply State.setF_kept | with_reducible apply State.atTime_kept | with_reducible apply journal_kept | with_reducible apply requestPin_kept | with_reducible apply Kept.ite | dsimp only | split | (with_reducible apply Kept.mk_upd; first | with_reducible assumption | with_reducible apply State.setF_kept | with_reducible apply State.atTime_kept | with_reducible apply journal_kept | with_reducible apply requestPin_kept | with_reducible apply Kept.ite | (with_reducible apply Kept.foldl; intro _ _ _) | (with_reducible apply Kept.foldl_fst; intro _ _ _) | (with_reducible apply Kept.foldl_on Rows.s; intro _ _ _) | (with_reducible apply Kept.foldl_on GWork.s; intro _ _ _) | dsimp only | split))

theorem exportAbort_kept {r₀ : State} {s : State} (h : Kept r₀ s) (t : Nat) :
    Kept r₀ (exportAbort s t) := by
  unfold exportAbort
  repeat' (first | with_reducible assumption | with_reducible apply State.atTime_kept | with_reducible apply exportFail_kept | with_reducible apply Kept.ite)

theorem pinExpired_kept {r₀ : State} {s : State} (h : Kept r₀ s) (t : Nat) :
    Kept r₀ (pinExpired s t) := by
  unfold pinExpired
  repeat' (first | with_reducible assumption | with_reducible apply State.atTime_kept | with_reducible apply State.countF_kept | with_reducible apply State.raise_kept | with_reducible apply integrity_kept | with_reducible apply exportFail_kept | with_reducible apply Kept.ite | dsimp only | split)

theorem exportDone_kept {r₀ : State} {s : State} (h : Kept r₀ s) (t : Nat) :
    Kept r₀ (exportDone s t) := by
  unfold exportDone
  repeat' (first | with_reducible assumption | with_reducible apply State.setF_kept | with_reducible apply State.atTime_kept | with_reducible apply State.countF_kept | with_reducible apply State.raise_kept | with_reducible apply State.recordErr_kept | with_reducible apply dramUncorrectable_kept | with_reducible apply dramWrite_kept | with_reducible apply State.send_kept | with_reducible apply releasePin_kept | with_reducible apply exportFail_kept | with_reducible apply pinExpired_kept | with_reducible apply Kept.ite | dsimp only | split | (with_reducible apply Kept.mk_upd; first | with_reducible assumption | with_reducible apply State.setF_kept | with_reducible apply State.atTime_kept | with_reducible apply State.countF_kept | with_reducible apply State.raise_kept | with_reducible apply State.recordErr_kept | with_reducible apply dramUncorrectable_kept | with_reducible apply dramWrite_kept | with_reducible apply State.send_kept | with_reducible apply releasePin_kept | with_reducible apply exportFail_kept | with_reducible apply pinExpired_kept | with_reducible apply Kept.ite | (with_reducible apply Kept.foldl; intro _ _ _) | (with_reducible apply Kept.foldl_fst; intro _ _ _) | (with_reducible apply Kept.foldl_on Rows.s; intro _ _ _) | (with_reducible apply Kept.foldl_on GWork.s; intro _ _ _) | dsimp only | split))

theorem peerDone_kept {r₀ : State} {s : State} (h : Kept r₀ s) (t : Nat) :
    Kept r₀ (peerDone s t) := by
  unfold peerDone
  repeat' (first | with_reducible assumption | with_reducible apply State.setF_kept | with_reducible apply State.atTime_kept | with_reducible apply Kept.ite | dsimp only | (with_reducible apply Kept.mk_upd; first | with_reducible assumption | with_reducible apply State.setF_kept | with_reducible apply State.atTime_kept | with_reducible apply State.raise_kept | with_reducible apply Kept.ite | (with_reducible apply Kept.foldl; intro _ _ _) | (with_reducible apply Kept.foldl_fst; intro _ _ _) | (with_reducible apply Kept.foldl_on Rows.s; intro _ _ _) | (with_reducible apply Kept.foldl_on GWork.s; intro _ _ _) | dsimp only | split))

theorem restoreCellar_kept {r₀ : State} {s : State} (h : Kept r₀ s) (d : Domain) (c : List Byte) :
    Kept r₀ (restoreCellar s d c) := by
  unfold restoreCellar
  repeat' (first | with_reducible assumption | with_reducible apply State.modDomain_kept | with_reducible apply scanNow_kept | with_reducible apply Memory.wf_writeL | with_reducible apply Memory.wf_clear | (with_reducible apply Memory.wf_foldl; intro _ _ _) | (with_reducible apply Memory.wf_foldl_fst; intro _ _ _) | dsimp only | split | intro _ | refine Kept.mk_dram ?_ ?_ _ _ _ _ _ _ _ _ _ _ _ _ _ _ _ _ _ _ _ _ _ _ _ _ _ _ _ _ _ _ _ _)

end Sys2Proof.Machine
end

