-- ==== Sys2Proof/Laws/KeptDevice.lean ====
section
/-! SUPPORT. What every operation keeps, for the operations of the device: links, images, the mailbox, power, starts, firmware, register accesses and the tick. -/

namespace Sys2Proof.Machine

set_option Elab.async false
set_option linter.all false

/-! Operations of Machine/LinkOps.lean. -/

theorem setRole_kept {r₀ : State} {s : State} (h : Kept r₀ s) (p : Fin 2) (v : Nat) :
    Kept r₀ (setRole s p v) := by
  unfold setRole
  repeat' (first | with_reducible assumption | with_reducible apply State.setF_kept | with_reducible apply State.raise_kept | with_reducible apply Kept.ite)

theorem State.setHostLink_kept {r₀ : State} {s : State} (h : Kept r₀ s) (p : Fin 2) (l : HostLink) :
    Kept r₀ (State.setHostLink s p l) := by
  unfold State.setHostLink
  repeat' (first | (with_reducible apply Kept.mk_upd; first | with_reducible assumption | with_reducible apply Kept.ite | (with_reducible apply Kept.foldl; intro _ _ _) | (with_reducible apply Kept.foldl_fst; intro _ _ _) | (with_reducible apply Kept.foldl_on Rows.s; intro _ _ _) | (with_reducible apply Kept.foldl_on GWork.s; intro _ _ _) | dsimp only | split))

theorem settleRoles_kept {r₀ : State} {s : State} (h : Kept r₀ s) (p : Fin 2) :
    Kept r₀ (settleRoles s p) := by
  unfold settleRoles
  repeat' (first | with_reducible assumption | with_reducible apply setRole_kept | with_reducible apply Kept.ite | dsimp only | (with_reducible apply Kept.mk_upd; first | with_reducible assumption | with_reducible apply setRole_kept | with_reducible apply Kept.ite | (with_reducible apply Kept.foldl; intro _ _ _) | (with_reducible apply Kept.foldl_fst; intro _ _ _) | (with_reducible apply Kept.foldl_on Rows.s; intro _ _ _) | (with_reducible apply Kept.foldl_on GWork.s; intro _ _ _) | dsimp only | split))

theorem haTimeout_kept {r₀ : State} {s : State} (h : Kept r₀ s) (t : Nat) :
    Kept r₀ (haTimeout s t) := by
  unfold haTimeout
  repeat' (first | with_reducible assumption | with_reducible apply setRole_kept | with_reducible apply Kept.ite | dsimp only | split | (with_reducible apply Kept.mk_upd; first | with_reducible assumption | with_reducible apply State.atTime_kept | with_reducible apply setRole_kept | with_reducible apply Kept.ite | (with_reducible apply Kept.foldl; intro _ _ _) | (with_reducible apply Kept.foldl_fst; intro _ _ _) | (with_reducible apply Kept.foldl_on Rows.s; intro _ _ _) | (with_reducible apply Kept.foldl_on GWork.s; intro _ _ _) | dsimp only | split))

theorem failover_kept {r₀ : State} {s : State} (h : Kept r₀ s) (q : Fin 2) :
    Kept r₀ (failover s q) := by
  unfold failover
  repeat' (first | with_reducible assumption | with_reducible apply State.countF_kept | with_reducible apply State.recordErr_kept | with_reducible apply setRole_kept | with_reducible apply State.setHostLink_kept | with_reducible apply Kept.ite)

theorem failoverReq_kept {r₀ : State} {s : State} (h : Kept r₀ s) (p : Fin 2) (t : Nat) :
    Kept r₀ (failoverReq s p t) := by
  unfold failoverReq
  repeat' (first | with_reducible assumption | with_reducible apply State.atTime_kept | with_reducible apply failover_kept)

theorem failoverDelay_kept {r₀ : State} {s : State} (h : Kept r₀ s) (t : Nat) :
    Kept r₀ (failoverDelay s t) := by
  unfold failoverDelay
  repeat' (first | with_reducible assumption | with_reducible apply State.atTime_kept | with_reducible apply failover_kept | with_reducible apply Kept.ite | dsimp only | split)

theorem hostLinkUp_kept {r₀ : State} {s : State} (h : Kept r₀ s) (p : Fin 2) (gt64 : Bool) (x8 : Bool) (flit256 : Bool) (t : Nat) :
    Kept r₀ (hostLinkUp s p gt64 x8 flit256 t) := by
  unfold hostLinkUp
  repeat' (first | with_reducible assumption | with_reducible apply State.setF_kept | with_reducible apply State.atTime_kept | with_reducible apply State.recordErr_kept | with_reducible apply setRole_kept | with_reducible apply State.setHostLink_kept | with_reducible apply settleRoles_kept | with_reducible apply haTimeout_kept | with_reducible apply failoverDelay_kept | with_reducible apply Kept.ite)

theorem hostLinkDown_kept {r₀ : State} {s : State} (h : Kept r₀ s) (p : Fin 2) (t : Nat) :
    Kept r₀ (hostLinkDown s p t) := by
  unfold hostLinkDown
  repeat' (first | with_reducible assumption | with_reducible apply State.setF_kept | with_reducible apply State.atTime_kept | with_reducible apply State.countF_kept | with_reducible apply setRole_kept | with_reducible apply State.setHostLink_kept | with_reducible apply Kept.ite)

theorem windowRead_kept {r₀ : State} {s : State} (h : Kept r₀ s) (p : Fin 2) (o : Nat) (n : Nat) :
    Kept r₀ (windowRead s p o n) := by
  unfold windowRead
  repeat' (first | with_reducible assumption | with_reducible apply Kept.ite | dsimp only | split | (with_reducible apply Kept.mk_upd; first | with_reducible assumption | with_reducible apply dramRead_kept | with_reducible apply Kept.ite | (with_reducible apply Kept.foldl; intro _ _ _) | (with_reducible apply Kept.foldl_fst; intro _ _ _) | (with_reducible apply Kept.foldl_on Rows.s; intro _ _ _) | (with_reducible apply Kept.foldl_on GWork.s; intro _ _ _) | dsimp only | split))

theorem windowWrite_kept {r₀ : State} {s : State} (h : Kept r₀ s) (p : Fin 2) :
    Kept r₀ (windowWrite s p) := by
  unfold windowWrite
  repeat' (first | with_reducible assumption | with_reducible apply Kept.ite | dsimp only | (with_reducible apply Kept.mk_upd; first | with_reducible assumption | with_reducible apply State.countF_kept | with_reducible apply Kept.ite | (with_reducible apply Kept.foldl; intro _ _ _) | (with_reducible apply Kept.foldl_fst; intro _ _ _) | (with_reducible apply Kept.foldl_on Rows.s; intro _ _ _) | (with_reducible apply Kept.foldl_on GWork.s; intro _ _ _) | dsimp only | split))

theorem snoop_kept {r₀ : State} {s : State} (h : Kept r₀ s) (p : Fin 2) :
    Kept r₀ (snoop s p) := by
  unfold snoop
  repeat' (first | with_reducible assumption | with_reducible apply State.send_kept | with_reducible apply Kept.ite)

theorem State.setPort_kept {r₀ : State} {s : State} (h : Kept r₀ s) (p : Fin 8) (x : Port) :
    Kept r₀ (State.setPort s p x) := by
  unfold State.setPort
  repeat' (first | (with_reducible apply Kept.mk_upd; first | with_reducible assumption | with_reducible apply Kept.ite | (with_reducible apply Kept.foldl; intro _ _ _) | (with_reducible apply Kept.foldl_fst; intro _ _ _) | (with_reducible apply Kept.foldl_on Rows.s; intro _ _ _) | (with_reducible apply Kept.foldl_on GWork.s; intro _ _ _) | dsimp only | split))

theorem State.modPort_kept {r₀ : State} {s : State} (h : Kept r₀ s) (p : Fin 8) (f : Port → Port) :
    Kept r₀ (State.modPort s p f) := by
  unfold State.modPort
  repeat' (first | with_reducible assumption | with_reducible apply State.setPort_kept)

theorem setPortState_kept {r₀ : State} {s : State} (h : Kept r₀ s) (p : Fin 8) (v : Nat) :
    Kept r₀ (setPortState s p v) := by
  unfold setPortState
  repeat' (first | with_reducible assumption | with_reducible apply State.setF_kept | with_reducible apply State.raise_kept | with_reducible apply State.modPort_kept | with_reducible apply Kept.ite)

theorem emitFrame_kept {r₀ : State} {s : State} (h : Kept r₀ s) (p : Fin 8) (f : Frame) :
    Kept r₀ (emitFrame s p f) := by
  unfold emitFrame
  repeat' (first | with_reducible assumption | with_reducible apply State.send_kept | with_reducible apply State.setPort_kept)

theorem pumpPort_kept {r₀ s : State} (h : Kept r₀ s) (n : Nat) (p : Fin 8) : Kept r₀ (pumpPort n s p) := by
  induction n generalizing s with
  | zero => exact h
  | succ n ih =>
    unfold pumpPort
    repeat' (first | with_reducible assumption | with_reducible apply ih | with_reducible apply emitFrame_kept | with_reducible apply State.setPort_kept | dsimp only | split)

theorem sendFrame_kept {r₀ : State} {s : State} (h : Kept r₀ s) (p : Fin 8) (h : FrameHead) (payload : List Byte) :
    Kept r₀ (sendFrame s p h payload) := by
  unfold sendFrame
  repeat' (first | with_reducible assumption | with_reducible apply State.modPort_kept | with_reducible apply pumpPort_kept)

theorem sendAck_kept {r₀ : State} {s : State} (h : Kept r₀ s) (p : Fin 8) (dst : Nat) (nak : Bool) (tc : Nat) (vl : Nat) (n : Nat) :
    Kept r₀ (sendAck s p dst nak tc vl n) := by
  unfold sendAck
  repeat' (first | with_reducible assumption | with_reducible apply State.send_kept)

theorem replayPort_kept {r₀ : State} {s : State} (h : Kept r₀ s) (p : Fin 8) :
    Kept r₀ (replayPort s p) := by
  unfold replayPort
  repeat' (first | with_reducible assumption | with_reducible apply State.countF_kept | with_reducible apply State.send_kept | with_reducible apply State.setPort_kept | (with_reducible apply Kept.foldl; intro _ _ _) | dsimp only | split)

theorem sendMembership_kept {r₀ : State} {s : State} (h : Kept r₀ s)  :
    Kept r₀ (sendMembership s) := by
  unfold sendMembership
  repeat' (first | with_reducible assumption | with_reducible apply State.control_kept | (with_reducible apply Kept.foldl; intro _ _ _))

theorem updateMembership_kept {r₀ : State} {s : State} (h : Kept r₀ s)  :
    Kept r₀ (updateMembership s) := by
  unfold updateMembership
  repeat' (first | with_reducible assumption | with_reducible apply State.setF_kept | with_reducible apply sendMembership_kept | with_reducible apply Kept.ite)

theorem setPeer_kept {r₀ : State} {s : State} (h : Kept r₀ s) (x : Peer) :
    Kept r₀ (setPeer s x) := by
  unfold setPeer
  repeat' (first | dsimp only | (with_reducible apply Kept.mk_upd; first | with_reducible assumption | with_reducible apply Kept.ite | (with_reducible apply Kept.foldl; intro _ _ _) | (with_reducible apply Kept.foldl_fst; intro _ _ _) | (with_reducible apply Kept.foldl_on Rows.s; intro _ _ _) | (with_reducible apply Kept.foldl_on GWork.s; intro _ _ _) | dsimp only | split))

theorem deviceLost_kept {r₀ : State} {s : State} (h : Kept r₀ s) (member : Nat) :
    Kept r₀ (deviceLost s member) := by
  unfold deviceLost
  repeat' (first | with_reducible assumption | with_reducible apply failMembers_kept | (with_reducible apply Kept.foldl; intro _ _ _) | split)

theorem peerLost_kept {r₀ : State} {s : State} (h : Kept r₀ s) (member : Nat) (fit : List Nat) :
    Kept r₀ (peerLost s member fit) := by
  unfold peerLost
  repeat' (first | with_reducible assumption | with_reducible apply noteFit_kept | with_reducible apply deviceLost_kept | (with_reducible apply Kept.foldl; intro _ _ _))

theorem membership_kept {r₀ : State} {s : State} (h : Kept r₀ s) (member : Nat) (state : Nat) (boot : Nat) (serial : Nat) (runtime : Nat) (t : Nat) (fit : List Nat) :
    Kept r₀ (membership s member state boot serial runtime t fit) := by
  unfold membership
  repeat' (first | with_reducible assumption | with_reducible apply State.atTime_kept | with_reducible apply setPeer_kept | with_reducible apply peerLost_kept | with_reducible apply Kept.ite | dsimp only | split)

theorem reportLink_kept {r₀ : State} {s : State} (h : Kept r₀ s) (member : Nat) :
    Kept r₀ (reportLink s member) := by
  unfold reportLink
  repeat' (first | with_reducible assumption | with_reducible apply sendPos_kept | with_reducible apply failMembers_kept | with_reducible apply Kept.ite | (with_reducible apply Kept.foldl; intro _ _ _) | split)

theorem reroute_kept {r₀ : State} {s : State} (h : Kept r₀ s) (keep : Route → Bool) :
    Kept r₀ (reroute s keep) := by
  unfold reroute
  repeat' (first | dsimp only | (with_reducible apply Kept.mk_upd; first | with_reducible assumption | with_reducible apply Kept.ite | (with_reducible apply Kept.foldl; intro _ _ _) | (with_reducible apply Kept.foldl_fst; intro _ _ _) | (with_reducible apply Kept.foldl_on Rows.s; intro _ _ _) | (with_reducible apply Kept.foldl_on GWork.s; intro _ _ _) | dsimp only | split))

theorem rerouteIdle_kept {r₀ : State} {s : State} (h : Kept r₀ s)  :
    Kept r₀ (rerouteIdle s) := by
  unfold rerouteIdle
  repeat' (first | with_reducible assumption | with_reducible apply reroute_kept | with_reducible apply Kept.ite)

theorem linkLost_kept {r₀ : State} {s : State} (h : Kept r₀ s) (p : Fin 8) (peer : Nat) :
    Kept r₀ (linkLost s p peer) := by
  unfold linkLost
  repeat' (first | with_reducible assumption | with_reducible apply updateMembership_kept | with_reducible apply deviceLost_kept | with_reducible apply reportLink_kept | (with_reducible apply Kept.foldl; intro _ _ _) | (with_reducible apply Kept.mk_upd; first | with_reducible assumption | with_reducible apply updateMembership_kept | with_reducible apply deviceLost_kept | with_reducible apply reportLink_kept | with_reducible apply reroute_kept | with_reducible apply Kept.ite | (with_reducible apply Kept.foldl; intro _ _ _) | (with_reducible apply Kept.foldl_fst; intro _ _ _) | (with_reducible apply Kept.foldl_on Rows.s; intro _ _ _) | (with_reducible apply Kept.foldl_on GWork.s; intro _ _ _) | dsimp only | split))

theorem portFail_kept {r₀ : State} {s : State} (h : Kept r₀ s) (p : Fin 8) (code : Nat) :
    Kept r₀ (portFail s p code) := by
  unfold portFail
  repeat' (first | with_reducible assumption | with_reducible apply State.recordErr_kept | with_reducible apply State.setPort_kept | with_reducible apply setPortState_kept | with_reducible apply linkLost_kept | with_reducible apply Kept.ite)

theorem portEnable_kept {r₀ : State} {s : State} (h : Kept r₀ s) (p : Fin 8) (on : Bool) :
    Kept r₀ (portEnable s p on) := by
  unfold portEnable
  repeat' (first | with_reducible assumption | with_reducible apply State.modPort_kept | with_reducible apply setPortState_kept | with_reducible apply linkLost_kept | with_reducible apply Kept.ite)

theorem linkLock_kept {r₀ : State} {s : State} (h : Kept r₀ s) (p : Fin 8) (t : Nat) :
    Kept r₀ (linkLock s p t) := by
  unfold linkLock
  repeat' (first | with_reducible assumption | with_reducible apply State.atTime_kept | with_reducible apply State.useFree_kept | with_reducible apply State.modPort_kept | with_reducible apply setPortState_kept | with_reducible apply sendFrame_kept | with_reducible apply Kept.ite)

theorem trainingTimeout_kept {r₀ : State} {s : State} (h : Kept r₀ s) (p : Fin 8) (t : Nat) :
    Kept r₀ (trainingTimeout s p t) := by
  unfold trainingTimeout
  repeat' (first | with_reducible assumption | with_reducible apply State.atTime_kept | with_reducible apply portFail_kept | with_reducible apply Kept.ite)

theorem attestTimeout_kept {r₀ : State} {s : State} (h : Kept r₀ s) (p : Fin 8) (t : Nat) :
    Kept r₀ (attestTimeout s p t) := by
  unfold attestTimeout
  repeat' (first | with_reducible assumption | with_reducible apply State.atTime_kept | with_reducible apply portFail_kept | with_reducible apply Kept.ite)

theorem backoffExpiry_kept {r₀ : State} {s : State} (h : Kept r₀ s) (p : Fin 8) (t : Nat) :
    Kept r₀ (backoffExpiry s p t) := by
  unfold backoffExpiry
  repeat' (first | with_reducible assumption | with_reducible apply State.atTime_kept | with_reducible apply setPortState_kept | with_reducible apply Kept.ite)

theorem ackFrames_kept {r₀ : State} {s : State} (h : Kept r₀ s) (p : Fin 8) (a : Nat) :
    Kept r₀ (ackFrames s p a) := by
  unfold ackFrames
  repeat' (first | with_reducible assumption | with_reducible apply State.modPort_kept)

theorem takeReturn_kept {r₀ : State} {s : State} (h : Kept r₀ s) (p : Fin 8) (h : FrameHead) :
    Kept r₀ (takeReturn s p h) := by
  unfold takeReturn
  repeat' (first | with_reducible assumption | with_reducible apply State.modPort_kept | with_reducible apply pumpPort_kept | with_reducible apply replayPort_kept | with_reducible apply portFail_kept | with_reducible apply ackFrames_kept | with_reducible apply Kept.ite | split)

theorem nakOnce_kept {r₀ : State} {s : State} (h : Kept r₀ s) (p : Fin 8) (dst : Nat) :
    Kept r₀ (nakOnce s p dst) := by
  unfold nakOnce
  repeat' (first | with_reducible assumption | with_reducible apply State.modPort_kept | with_reducible apply sendAck_kept | with_reducible apply Kept.ite)

theorem replayTimeout_kept {r₀ : State} {s : State} (h : Kept r₀ s) (p : Fin 8) (t : Nat) :
    Kept r₀ (replayTimeout s p t) := by
  unfold replayTimeout
  repeat' (first | with_reducible assumption | with_reducible apply State.atTime_kept | with_reducible apply replayPort_kept | with_reducible apply portFail_kept | with_reducible apply Kept.ite)

theorem receive_kept {r₀ : State} {s : State} (h : Kept r₀ s) (f : RxFrame) :
    Kept r₀ ((receive s f).1) := by
  unfold receive
  repeat' (first | with_reducible assumption | with_reducible apply State.atTime_kept | with_reducible apply State.countF_kept | with_reducible apply State.setPort_kept | with_reducible apply sendAck_kept | with_reducible apply takeReturn_kept | with_reducible apply nakOnce_kept | with_reducible apply replayTimeout_kept | dsimp only | split)

theorem forward_kept {r₀ : State} {s : State} (h : Kept r₀ s) (f : RxFrame) (h : FrameHead) :
    Kept r₀ (forward s f h) := by
  unfold forward
  repeat' (first | with_reducible assumption | with_reducible apply State.countF_kept | with_reducible apply sendFrame_kept | with_reducible apply Kept.ite | dsimp only | split)

theorem classFrame_kept {r₀ s : State} (h : Kept r₀ s) (f : RxFrame) (tc : Nat) (go : State → FrameHead → List Byte → State)
    (hgo : ∀ x k b, Kept r₀ x → Kept r₀ (go x k b)) : Kept r₀ (classFrame s f tc go) := by
  unfold classFrame
  repeat' (first | with_reducible assumption | with_reducible apply hgo | with_reducible apply receive_kept | with_reducible apply forward_kept | with_reducible apply State.countF_kept | with_reducible apply Kept.ite | dsimp only | split)

theorem ackCommand_kept {r₀ : State} {s : State} (h : Kept r₀ s) (f : RxFrame) :
    Kept r₀ (ackCommand s f) := by
  unfold ackCommand
  repeat' (first | with_reducible assumption | with_reducible apply receive_kept)

theorem fecUncorrectable_kept {r₀ : State} {s : State} (h : Kept r₀ s) (p : Fin 8) (t : Nat) :
    Kept r₀ (fecUncorrectable s p t) := by
  unfold fecUncorrectable
  repeat' (first | with_reducible assumption | with_reducible apply State.atTime_kept | with_reducible apply State.countF_kept | with_reducible apply State.modPort_kept | with_reducible apply portFail_kept | with_reducible apply Kept.ite)

theorem linkFrame_kept {r₀ s : State} (h : Kept r₀ s) (f : RxFrame) (ltype : Nat) (go : State → List Byte → State)
    (hgo : ∀ x b, Kept r₀ x → Kept r₀ (go x b)) : Kept r₀ (linkFrame s f ltype go) := by
  unfold linkFrame
  refine classFrame_kept h f _ _ (fun x k b hx => ?_)
  split
  · exact hgo _ _ hx
  · exact hx

theorem identFrame_kept {r₀ : State} {s : State} (h : Kept r₀ s) (f : RxFrame) :
    Kept r₀ (identFrame s f) := by
  unfold identFrame
  repeat' (first | intro _ _ _ | with_reducible assumption | with_reducible apply State.setF_kept | with_reducible apply State.modPort_kept | with_reducible apply setPortState_kept | with_reducible apply sendFrame_kept | with_reducible apply portFail_kept | with_reducible apply linkFrame_kept | with_reducible apply Kept.ite | dsimp only | split)

theorem attestFrame_kept {r₀ : State} {s : State} (h : Kept r₀ s) (f : RxFrame) :
    Kept r₀ (attestFrame s f) := by
  unfold attestFrame
  repeat' (first | intro _ _ _ | with_reducible assumption | with_reducible apply State.countF_kept | with_reducible apply setPortState_kept | with_reducible apply sendMembership_kept | with_reducible apply updateMembership_kept | with_reducible apply setPeer_kept | with_reducible apply reroute_kept | with_reducible apply portFail_kept | with_reducible apply linkFrame_kept | with_reducible apply Kept.ite)

theorem controlFrame_kept {r₀ : State} {s : State} (h : Kept r₀ s) (f : RxFrame) (told : Option Told) (fit : List Nat) :
    Kept r₀ (controlFrame s f told fit) := by
  unfold controlFrame
  repeat' (first | intro _ _ _ _ | with_reducible assumption | with_reducible apply noteFit_kept | with_reducible apply failMembers_kept | with_reducible apply tableArrives_kept | with_reducible apply reportArrives_kept | with_reducible apply reportTimeout_kept | with_reducible apply classFrame_kept | with_reducible apply Kept.ite | split | (with_reducible apply Kept.mk_upd; first | with_reducible assumption | with_reducible apply noteFit_kept | with_reducible apply failMembers_kept | with_reducible apply tableArrives_kept | with_reducible apply reportArrives_kept | with_reducible apply reportTimeout_kept | with_reducible apply classFrame_kept | with_reducible apply Kept.ite | (with_reducible apply Kept.foldl; intro _ _ _) | (with_reducible apply Kept.foldl_fst; intro _ _ _) | (with_reducible apply Kept.foldl_on Rows.s; intro _ _ _) | (with_reducible apply Kept.foldl_on GWork.s; intro _ _ _) | dsimp only | split))

theorem doorFrame_kept {r₀ : State} {s : State} (h : Kept r₀ s) (f : RxFrame) (x : DoorItem) (cyc : Nat) :
    Kept r₀ (doorFrame s f x cyc) := by
  unfold doorFrame
  repeat' (first | intro _ _ _ _ | with_reducible assumption | with_reducible apply messageArrival_kept | with_reducible apply creditReturn_kept | with_reducible apply classFrame_kept | split)

theorem reductionFrame_kept {r₀ : State} {s : State} (h : Kept r₀ s) (f : RxFrame) :
    Kept r₀ (reductionFrame s f) := by
  unfold reductionFrame
  repeat' (first | intro _ _ _ _ | with_reducible assumption | with_reducible apply chunkArrives_kept | with_reducible apply classFrame_kept | with_reducible apply Kept.ite)

theorem bulkFrame_kept {r₀ : State} {s : State} (h : Kept r₀ s) (f : RxFrame) :
    Kept r₀ (bulkFrame s f) := by
  unfold bulkFrame
  repeat' (first | intro _ _ _ _ | with_reducible assumption | with_reducible apply classFrame_kept | (with_reducible apply Kept.mk_upd; first | with_reducible assumption | with_reducible apply classFrame_kept | with_reducible apply Kept.ite | (with_reducible apply Kept.foldl; intro _ _ _) | (with_reducible apply Kept.foldl_fst; intro _ _ _) | (with_reducible apply Kept.foldl_on Rows.s; intro _ _ _) | (with_reducible apply Kept.foldl_on GWork.s; intro _ _ _) | dsimp only | split))

theorem timebaseFrame_kept {r₀ : State} {s : State} (h : Kept r₀ s) (f : RxFrame) (stamp : Nat) :
    Kept r₀ (timebaseFrame s f stamp) := by
  unfold timebaseFrame
  repeat' (first | intro _ _ _ _ | with_reducible assumption | with_reducible apply classFrame_kept | dsimp only | (with_reducible apply Kept.mk_upd; first | with_reducible assumption | with_reducible apply classFrame_kept | with_reducible apply Kept.ite | (with_reducible apply Kept.foldl; intro _ _ _) | (with_reducible apply Kept.foldl_fst; intro _ _ _) | (with_reducible apply Kept.foldl_on Rows.s; intro _ _ _) | (with_reducible apply Kept.foldl_on GWork.s; intro _ _ _) | dsimp only | split))

theorem stepTime_kept {r₀ s : State} (h : Kept r₀ s) (ns : Nat) : Kept r₀ (stepTime s ns) :=
  Kept.setNow (State.wrapF_kept h _ _ _ _) (Nat.le_add_right _ _)

theorem timebaseExchange_kept {r₀ : State} {s : State} (h : Kept r₀ s) (par : Option (Fin 8 × Nat × Nat)) (t1 : Nat) (t2 : Nat) (t3 : Nat) (t4 : Nat) (t : Nat) :
    Kept r₀ (timebaseExchange s par t1 t2 t3 t4 t) := by
  unfold timebaseExchange
  repeat' (first | with_reducible assumption | with_reducible apply State.setF_kept | with_reducible apply State.atTime_kept | with_reducible apply State.useFree_kept | with_reducible apply State.countF_kept | with_reducible apply State.raise_kept | with_reducible apply stepTime_kept | dsimp only | split | (with_reducible apply Kept.mk_upd; first | with_reducible assumption | with_reducible apply State.setF_kept | with_reducible apply State.atTime_kept | with_reducible apply State.useFree_kept | with_reducible apply State.countF_kept | with_reducible apply State.raise_kept | with_reducible apply stepTime_kept | with_reducible apply Kept.ite | (with_reducible apply Kept.foldl; intro _ _ _) | (with_reducible apply Kept.foldl_fst; intro _ _ _) | (with_reducible apply Kept.foldl_on Rows.s; intro _ _ _) | (with_reducible apply Kept.foldl_on GWork.s; intro _ _ _) | with_reducible apply Kept.modTile | with_reducible apply Kept.setTile | dsimp only | split))

theorem timeUnsync_kept {r₀ : State} {s : State} (h : Kept r₀ s) (t : Nat) :
    Kept r₀ (timeUnsync s t) := by
  unfold timeUnsync
  repeat' (first | with_reducible assumption | with_reducible apply State.setF_kept | with_reducible apply State.atTime_kept | with_reducible apply State.recordErr_kept | with_reducible apply Kept.ite | dsimp only | split)

theorem State.modDimm_kept {r₀ : State} {s : State} (h : Kept r₀ s) (c : Fin 24) (f : DimmState → DimmState) :
    Kept r₀ (State.modDimm s c f) := by
  unfold State.modDimm
  repeat' (first | (with_reducible apply Kept.mk_upd; first | with_reducible assumption | with_reducible apply Kept.ite | (with_reducible apply Kept.foldl; intro _ _ _) | (with_reducible apply Kept.foldl_fst; intro _ _ _) | (with_reducible apply Kept.foldl_on Rows.s; intro _ _ _) | (with_reducible apply Kept.foldl_on GWork.s; intro _ _ _) | dsimp only | split))

theorem meetHits_kept {r₀ : State} {s : State} (h : Kept r₀ s) (hits : List DramHit) :
    Kept r₀ (meetHits s hits) := by
  unfold meetHits
  repeat' (first | with_reducible assumption | with_reducible apply State.recordErr_kept | with_reducible apply retirePending_kept | with_reducible apply State.modDimm_kept | with_reducible apply Kept.ite | (with_reducible apply Kept.foldl; intro _ _ _) | split | (with_reducible apply Kept.mk_upd; first | with_reducible assumption | with_reducible apply State.recordErr_kept | with_reducible apply retirePending_kept | with_reducible apply State.modDimm_kept | with_reducible apply Kept.ite | (with_reducible apply Kept.foldl; intro _ _ _) | (with_reducible apply Kept.foldl_fst; intro _ _ _) | (with_reducible apply Kept.foldl_on Rows.s; intro _ _ _) | (with_reducible apply Kept.foldl_on GWork.s; intro _ _ _) | dsimp only | split))

theorem pmicLines_kept {r₀ : State} {s : State} (h : Kept r₀ s) (a : Nat) (n : Nat) :
    Kept r₀ (pmicLines s a n) := by
  unfold pmicLines
  repeat' (first | dsimp only | (with_reducible apply Kept.mk_upd; first | with_reducible assumption | with_reducible apply Kept.ite | (with_reducible apply Kept.foldl; intro _ _ _) | (with_reducible apply Kept.foldl_fst; intro _ _ _) | (with_reducible apply Kept.foldl_on Rows.s; intro _ _ _) | (with_reducible apply Kept.foldl_on GWork.s; intro _ _ _) | dsimp only | split))

theorem dramReadCommand_kept {r₀ : State} {s : State} (h : Kept r₀ s) (a : Nat) (n : Nat) (hits : List DramHit) :
    Kept r₀ (dramReadCommand s a n hits) := by
  unfold dramReadCommand
  repeat' (first | with_reducible assumption | with_reducible apply meetHits_kept | with_reducible apply pmicLines_kept | dsimp only | (with_reducible apply Kept.mk_upd; first | with_reducible assumption | with_reducible apply dramRead_kept | with_reducible apply meetHits_kept | with_reducible apply pmicLines_kept | with_reducible apply Kept.ite | (with_reducible apply Kept.foldl; intro _ _ _) | (with_reducible apply Kept.foldl_fst; intro _ _ _) | (with_reducible apply Kept.foldl_on Rows.s; intro _ _ _) | (with_reducible apply Kept.foldl_on GWork.s; intro _ _ _) | dsimp only | split))

theorem dramWriteCommand_kept {r₀ : State} {s : State} (h : Kept r₀ s) (a : Nat) (d : List Byte) (hits : List DramHit) :
    Kept r₀ (dramWriteCommand s a d hits) := by
  unfold dramWriteCommand
  repeat' (first | with_reducible assumption | with_reducible apply meetHits_kept | dsimp only | (with_reducible apply Kept.mk_upd; first | with_reducible assumption | with_reducible apply dramWrite_kept | with_reducible apply meetHits_kept | with_reducible apply Kept.ite | (with_reducible apply Kept.foldl; intro _ _ _) | (with_reducible apply Kept.foldl_fst; intro _ _ _) | (with_reducible apply Kept.foldl_on Rows.s; intro _ _ _) | (with_reducible apply Kept.foldl_on GWork.s; intro _ _ _) | dsimp only | split))

theorem patrolScrub_kept {r₀ : State} {s : State} (h : Kept r₀ s) (c : Fin 24) (hits : List DramHit) (t : Nat) :
    Kept r₀ (patrolScrub s c hits t) := by
  unfold patrolScrub
  repeat' (first | with_reducible assumption | with_reducible apply State.setF_kept | with_reducible apply State.atTime_kept | with_reducible apply State.countF_kept | with_reducible apply State.recordErr_kept | with_reducible apply retirePending_kept | with_reducible apply State.modDimm_kept | with_reducible apply meetHits_kept | with_reducible apply pmicLines_kept | with_reducible apply Kept.ite | (with_reducible apply Kept.mk_upd; first | with_reducible assumption | with_reducible apply State.setF_kept | with_reducible apply State.atTime_kept | with_reducible apply State.countF_kept | with_reducible apply State.recordErr_kept | with_reducible apply retirePending_kept | with_reducible apply State.modDimm_kept | with_reducible apply meetHits_kept | with_reducible apply pmicLines_kept | with_reducible apply Kept.ite | (with_reducible apply Kept.foldl; intro _ _ _) | (with_reducible apply Kept.foldl_fst; intro _ _ _) | (with_reducible apply Kept.foldl_on Rows.s; intro _ _ _) | (with_reducible apply Kept.foldl_on GWork.s; intro _ _ _) | dsimp only | split))

/-! Operations of Machine/ImageOps.lean. -/

theorem imageFails_kept {r₀ : State} {s : State} (h : Kept r₀ s) (e : Nat × Nat) :
    Kept r₀ (imageFails s e) := by
  unfold imageFails
  repeat' (first | with_reducible assumption | with_reducible apply fwError_kept)

theorem setFlash_kept {r₀ : State} {s : State} (h : Kept r₀ s) (fb : Bool) (p : FlashPart) :
    Kept r₀ (setFlash s fb p) := by
  unfold setFlash
  repeat' (first | split | (with_reducible apply Kept.mk_upd; first | with_reducible assumption | with_reducible apply Kept.ite | (with_reducible apply Kept.foldl; intro _ _ _) | (with_reducible apply Kept.foldl_fst; intro _ _ _) | (with_reducible apply Kept.foldl_on Rows.s; intro _ _ _) | (with_reducible apply Kept.foldl_on GWork.s; intro _ _ _) | dsimp only | split))

theorem setRtSlot_kept {r₀ : State} {s : State} (h : Kept r₀ s) (k : Nat) (x : RtSlot) :
    Kept r₀ (setRtSlot s k x) := by
  unfold setRtSlot
  repeat' (first | dsimp only | (with_reducible apply Kept.mk_upd; first | with_reducible assumption | with_reducible apply Kept.ite | (with_reducible apply Kept.foldl; intro _ _ _) | (with_reducible apply Kept.foldl_fst; intro _ _ _) | (with_reducible apply Kept.foldl_on Rows.s; intro _ _ _) | (with_reducible apply Kept.foldl_on GWork.s; intro _ _ _) | dsimp only | split))

/-! Operations of Machine/MailboxOps.lean. -/

theorem okWith_kept {r₀ : State} {s : State} (h : Kept r₀ s) (d : List Byte) :
    Kept r₀ ((okWith s d).s) := by
  unfold okWith
  repeat' (first | with_reducible assumption)

theorem okay_kept {r₀ : State} {s : State} (h : Kept r₀ s)  :
    Kept r₀ ((okay s).s) := by
  unfold okay
  repeat' (first | with_reducible assumption | with_reducible apply okWith_kept)

theorem nack_kept {r₀ : State} {s : State} (h : Kept r₀ s) (status : Nat) :
    Kept r₀ ((nack s status).s) := by
  unfold nack
  repeat' (first | with_reducible assumption)

theorem nackRange_kept {r₀ : State} {s : State} (h : Kept r₀ s) (at_ : Nat) :
    Kept r₀ ((nackRange s at_).s) := by
  unfold nackRange
  repeat' (first | with_reducible assumption)

theorem nackState_kept {r₀ : State} {s : State} (h : Kept r₀ s)  :
    Kept r₀ ((nackState s).s) := by
  unfold nackState
  repeat' (first | with_reducible assumption | with_reducible apply nack_kept)

theorem nackBusy_kept {r₀ : State} {s : State} (h : Kept r₀ s)  :
    Kept r₀ ((nackBusy s).s) := by
  unfold nackBusy
  repeat' (first | with_reducible assumption | with_reducible apply nack_kept)

theorem nackVerify_kept {r₀ : State} {s : State} (h : Kept r₀ s) (code : Nat) :
    Kept r₀ ((nackVerify s code).s) := by
  unfold nackVerify
  repeat' (first | with_reducible assumption)

theorem invalidateRings_kept {r₀ : State} {s : State} (h : Kept r₀ s)  :
    Kept r₀ (invalidateRings s) := by
  unfold invalidateRings
  repeat' (first | (with_reducible apply Kept.mk_upd; first | with_reducible assumption | with_reducible apply Kept.ite | (with_reducible apply Kept.foldl; intro _ _ _) | (with_reducible apply Kept.foldl_fst; intro _ _ _) | (with_reducible apply Kept.foldl_on Rows.s; intro _ _ _) | (with_reducible apply Kept.foldl_on GWork.s; intro _ _ _) | dsimp only | split))

theorem bind_kept {r₀ : State} {s : State} (h : Kept r₀ s) (seq : Nat) (p : List Byte) :
    Kept r₀ ((bind s seq p).s) := by
  unfold bind
  repeat' (first | with_reducible assumption | with_reducible apply State.setF_kept | with_reducible apply setFwState_kept | with_reducible apply okay_kept | with_reducible apply nackRange_kept | with_reducible apply nackState_kept | with_reducible apply invalidateRings_kept | dsimp only | split | (with_reducible apply Kept.mk_upd; first | with_reducible assumption | with_reducible apply State.setF_kept | with_reducible apply setFwState_kept | with_reducible apply okay_kept | with_reducible apply nackRange_kept | with_reducible apply nackState_kept | with_reducible apply invalidateRings_kept | with_reducible apply Kept.ite | (with_reducible apply Kept.foldl; intro _ _ _) | (with_reducible apply Kept.foldl_fst; intro _ _ _) | (with_reducible apply Kept.foldl_on Rows.s; intro _ _ _) | (with_reducible apply Kept.foldl_on GWork.s; intro _ _ _) | dsimp only | split))

theorem unbind_kept {r₀ : State} {s : State} (h : Kept r₀ s)  :
    Kept r₀ ((unbind s).s) := by
  unfold unbind
  repeat' (first | with_reducible assumption | with_reducible apply State.setF_kept | with_reducible apply okay_kept | with_reducible apply invalidateRings_kept)

theorem putInForce_kept {r₀ : State} {s : State} (h : Kept r₀ s) (k : Nat) :
    Kept r₀ (putInForce s k) := by
  unfold putInForce
  repeat' (first | with_reducible apply State.setF_kept | dsimp only | (with_reducible apply Kept.mk_upd; first | with_reducible assumption | with_reducible apply State.setF_kept | with_reducible apply Kept.ite | (with_reducible apply Kept.foldl; intro _ _ _) | (with_reducible apply Kept.foldl_fst; intro _ _ _) | (with_reducible apply Kept.foldl_on Rows.s; intro _ _ _) | (with_reducible apply Kept.foldl_on GWork.s; intro _ _ _) | dsimp only | split))

theorem loadStandby_kept {r₀ : State} {s : State} (h : Kept r₀ s) (i : List Byte) :
    Kept r₀ ((loadStandby s i).s) := by
  unfold loadStandby
  repeat' (first | with_reducible assumption | with_reducible apply imageFails_kept | with_reducible apply setRtSlot_kept | with_reducible apply okay_kept | with_reducible apply nackVerify_kept | dsimp only | split)

theorem scheduleHandover_kept {r₀ : State} {s : State} (h : Kept r₀ s) (p : List Byte) :
    Kept r₀ ((scheduleHandover s p).s) := by
  unfold scheduleHandover
  repeat' (first | with_reducible assumption | with_reducible apply okay_kept | with_reducible apply nackRange_kept | with_reducible apply nackState_kept | dsimp only | split | (with_reducible apply Kept.mk_upd; first | with_reducible assumption | with_reducible apply okay_kept | with_reducible apply nackRange_kept | with_reducible apply nackState_kept | with_reducible apply Kept.ite | (with_reducible apply Kept.foldl; intro _ _ _) | (with_reducible apply Kept.foldl_fst; intro _ _ _) | (with_reducible apply Kept.foldl_on Rows.s; intro _ _ _) | (with_reducible apply Kept.foldl_on GWork.s; intro _ _ _) | dsimp only | split))

theorem flashWrite_kept {r₀ : State} {s : State} (h : Kept r₀ s) (p : List Byte) (d : List Byte) :
    Kept r₀ ((flashWrite s p d).s) := by
  unfold flashWrite
  repeat' (first | with_reducible assumption | with_reducible apply imageFails_kept | with_reducible apply setFlash_kept | with_reducible apply okay_kept | with_reducible apply nackRange_kept | with_reducible apply nackState_kept | with_reducible apply nackVerify_kept | dsimp only | split)

theorem svnRaise_kept {r₀ s : State} (h : Kept r₀ s) (p : List Byte) : Kept r₀ ((svnRaise s p).s) := by
  unfold svnRaise
  dsimp only
  split
  · exact nackRange_kept h 0
  · refine okay_kept ⟨h.now, ?_, h.sound, h.queue⟩
    exact Fuses.burntFrom_trans h.fuses ⟨rfl, rfl, rfl, Nat.le_max_left _ _, id, id, Nat.le_refl _⟩

theorem attestTo_kept {r₀ : State} {s : State} (h : Kept r₀ s) (p : List Byte) :
    Kept r₀ ((attestTo s p).s) := by
  unfold attestTo
  repeat' (first | with_reducible assumption | with_reducible apply State.sendHost_kept | with_reducible apply okay_kept)

theorem memberSet_kept {r₀ : State} {s : State} (h : Kept r₀ s) (p : List Byte) :
    Kept r₀ ((memberSet s p).s) := by
  unfold memberSet
  repeat' (first | with_reducible assumption | with_reducible apply State.setF_kept | with_reducible apply sendMembership_kept | with_reducible apply okay_kept | with_reducible apply nackRange_kept | with_reducible apply nackState_kept | dsimp only | split)

theorem spareSet_kept {r₀ : State} {s : State} (h : Kept r₀ s) (p : List Byte) :
    Kept r₀ ((spareSet s p).s) := by
  unfold spareSet
  repeat' (first | with_reducible assumption | with_reducible apply updateMembership_kept | with_reducible apply okay_kept | with_reducible apply nackState_kept | dsimp only | split | (with_reducible apply Kept.mk_upd; first | with_reducible assumption | with_reducible apply updateMembership_kept | with_reducible apply okay_kept | with_reducible apply nackState_kept | with_reducible apply Kept.ite | (with_reducible apply Kept.foldl; intro _ _ _) | (with_reducible apply Kept.foldl_fst; intro _ _ _) | (with_reducible apply Kept.foldl_on Rows.s; intro _ _ _) | (with_reducible apply Kept.foldl_on GWork.s; intro _ _ _) | dsimp only | split))

theorem keepEntry_kept {r₀ : State} {s : State} (h : Kept r₀ s) (d : Domain) :
    Kept r₀ (keepEntry s d) := by
  unfold keepEntry
  repeat' (first | with_reducible assumption | with_reducible apply dramWrite_kept | with_reducible apply Kept.ite)

theorem changeDomain_kept {r₀ : State} {s : State} (h : Kept r₀ s) (id : Nat) (f : Domain → Domain) :
    Kept r₀ (changeDomain s id f) := by
  unfold changeDomain
  repeat' (first | with_reducible assumption | with_reducible apply State.setDomain_kept | with_reducible apply keepEntry_kept | split)

theorem groupSet_kept {r₀ : State} {s : State} (h : Kept r₀ s) (p : List Byte) (dma : List Byte) (dma2 : List Byte) :
    Kept r₀ ((groupSet s p dma dma2).s) := by
  unfold groupSet
  repeat' (first | with_reducible assumption | with_reducible apply applyPlan_kept | with_reducible apply updateMembership_kept | with_reducible apply okay_kept | with_reducible apply nackRange_kept | with_reducible apply nackState_kept | with_reducible apply changeDomain_kept | with_reducible apply Kept.ite | dsimp only | split)

theorem countQueues_kept {r₀ : State} {s : State} (h : Kept r₀ s)  :
    Kept r₀ (countQueues s) := by
  unfold countQueues
  repeat' (first | with_reducible assumption | with_reducible apply State.setF_kept)

theorem queueCreate_kept {r₀ : State} {s : State} (h : Kept r₀ s) (p : List Byte) :
    Kept r₀ ((queueCreate s p).s) := by
  unfold queueCreate
  repeat' (first | with_reducible assumption | with_reducible apply State.setQueue_kept | with_reducible apply okay_kept | with_reducible apply nackRange_kept | with_reducible apply nackBusy_kept | with_reducible apply countQueues_kept | dsimp only | split)

theorem queueDestroy_kept {r₀ : State} {s : State} (h : Kept r₀ s) (p : List Byte) :
    Kept r₀ ((queueDestroy s p).s) := by
  unfold queueDestroy
  repeat' (first | with_reducible assumption | with_reducible apply okay_kept | with_reducible apply nackRange_kept | with_reducible apply nackBusy_kept | with_reducible apply countQueues_kept | dsimp only | split | (with_reducible apply Kept.mk_upd; first | with_reducible assumption | with_reducible apply okay_kept | with_reducible apply nackRange_kept | with_reducible apply nackBusy_kept | with_reducible apply countQueues_kept | with_reducible apply Kept.ite | (with_reducible apply Kept.foldl; intro _ _ _) | (with_reducible apply Kept.foldl_fst; intro _ _ _) | (with_reducible apply Kept.foldl_on Rows.s; intro _ _ _) | (with_reducible apply Kept.foldl_on GWork.s; intro _ _ _) | dsimp only | split))

theorem queueRingSet_kept {r₀ : State} {s : State} (h : Kept r₀ s) (p : List Byte) :
    Kept r₀ ((queueRingSet s p).s) := by
  unfold queueRingSet
  repeat' (first | with_reducible assumption | with_reducible apply State.setQueue_kept | with_reducible apply flushDue_kept | with_reducible apply okay_kept | with_reducible apply nackRange_kept | with_reducible apply countQueues_kept | dsimp only | split)

theorem queueSetStopped_kept {r₀ : State} {s : State} (h : Kept r₀ s) (p : List Byte) (v : Bool) :
    Kept r₀ ((queueSetStopped s p v).s) := by
  unfold queueSetStopped
  repeat' (first | with_reducible assumption | with_reducible apply State.setQueue_kept | with_reducible apply okay_kept | with_reducible apply nackRange_kept | split)

theorem queueQuery_kept {r₀ : State} {s : State} (h : Kept r₀ s) (p : List Byte) :
    Kept r₀ ((queueQuery s p).s) := by
  unfold queueQuery
  repeat' (first | with_reducible assumption | with_reducible apply okWith_kept | with_reducible apply nackRange_kept | split)

theorem countContexts_kept {r₀ : State} {s : State} (h : Kept r₀ s)  :
    Kept r₀ (countContexts s) := by
  unfold countContexts
  repeat' (first | with_reducible assumption | with_reducible apply State.setF_kept)

theorem bindDomain_kept {r₀ : State} {s : State} (h : Kept r₀ s) (d : Domain) (at_ : Nat) :
    Kept r₀ ((bindDomain s d at_).s) := by
  unfold bindDomain
  repeat' (first | with_reducible assumption | with_reducible apply State.setDomain_kept | with_reducible apply fwError_kept | with_reducible apply writeRetained_kept | with_reducible apply okay_kept | with_reducible apply nack_kept | with_reducible apply nackRange_kept | with_reducible apply keepEntry_kept | with_reducible apply countContexts_kept | with_reducible apply Kept.ite | dsimp only | split)

theorem contextCreate_kept {r₀ : State} {s : State} (h : Kept r₀ s) (p : List Byte) :
    Kept r₀ ((contextCreate s p).s) := by
  unfold contextCreate
  repeat' (first | with_reducible assumption | with_reducible apply nackRange_kept | with_reducible apply nackBusy_kept | with_reducible apply bindDomain_kept | dsimp only | split)

theorem contextDestroy_kept {r₀ : State} {s : State} (h : Kept r₀ s) (p : List Byte) :
    Kept r₀ ((contextDestroy s p).s) := by
  unfold contextDestroy
  repeat' (first | with_reducible assumption | with_reducible apply writeRetained_kept | with_reducible apply updateMembership_kept | with_reducible apply okay_kept | with_reducible apply nackRange_kept | with_reducible apply nackBusy_kept | with_reducible apply countContexts_kept | with_reducible apply Kept.ite | dsimp only | split | (with_reducible apply Kept.mk_upd; first | with_reducible assumption | with_reducible apply writeRetained_kept | with_reducible apply updateMembership_kept | with_reducible apply okay_kept | with_reducible apply nackRange_kept | with_reducible apply nackBusy_kept | with_reducible apply keepEntry_kept | with_reducible apply countContexts_kept | with_reducible apply Kept.ite | (with_reducible apply Kept.foldl; intro _ _ _) | (with_reducible apply Kept.foldl_fst; intro _ _ _) | (with_reducible apply Kept.foldl_on Rows.s; intro _ _ _) | (with_reducible apply Kept.foldl_on GWork.s; intro _ _ _) | dsimp only | split))

theorem placementWrite_kept {r₀ : State} {s : State} (h : Kept r₀ s) (p : List Byte) (dma : List Byte) :
    Kept r₀ ((placementWrite s p dma).s) := by
  unfold placementWrite
  repeat' (first | with_reducible assumption | with_reducible apply State.setF_kept | with_reducible apply dramWrite_kept | with_reducible apply fwError_kept | with_reducible apply okay_kept | with_reducible apply nack_kept | with_reducible apply nackRange_kept | dsimp only | split)

theorem domainSet_kept {r₀ : State} {s : State} (h : Kept r₀ s) (p : List Byte) :
    Kept r₀ ((domainSet s p).s) := by
  unfold domainSet
  repeat' (first | with_reducible assumption | with_reducible apply scanNow_kept | with_reducible apply okay_kept | with_reducible apply nackRange_kept | with_reducible apply nackState_kept | with_reducible apply nackBusy_kept | with_reducible apply changeDomain_kept | with_reducible apply bindDomain_kept | dsimp only | split)

theorem upbSubmit_kept {r₀ : State} {s : State} (h : Kept r₀ s) (p : List Byte) :
    Kept r₀ ((upbSubmit s p).s) := by
  unfold upbSubmit
  repeat' (first | with_reducible assumption | with_reducible apply State.setDomain_kept | with_reducible apply okay_kept | with_reducible apply nackRange_kept | with_reducible apply nackBusy_kept | dsimp only | split)

theorem retainSet_kept {r₀ : State} {s : State} (h : Kept r₀ s) (p : List Byte) :
    Kept r₀ ((retainSet s p).s) := by
  unfold retainSet
  repeat' (first | with_reducible assumption | with_reducible apply writeRetained_kept | with_reducible apply okay_kept | with_reducible apply nackRange_kept | with_reducible apply changeDomain_kept | dsimp only | split | (with_reducible apply Kept.mk_upd; first | with_reducible assumption | with_reducible apply writeRetained_kept | with_reducible apply okay_kept | with_reducible apply nackRange_kept | with_reducible apply changeDomain_kept | with_reducible apply Kept.ite | (with_reducible apply Kept.foldl; intro _ _ _) | (with_reducible apply Kept.foldl_fst; intro _ _ _) | (with_reducible apply Kept.foldl_on Rows.s; intro _ _ _) | (with_reducible apply Kept.foldl_on GWork.s; intro _ _ _) | dsimp only | split))

theorem baseLoad_kept {r₀ : State} {s : State} (h : Kept r₀ s) (p : List Byte) :
    Kept r₀ ((baseLoad s p).s) := by
  unfold baseLoad
  repeat' (first | with_reducible assumption | with_reducible apply dramUncorrectable_kept | with_reducible apply okay_kept | with_reducible apply nackRange_kept | dsimp only | split | intro _ | refine Kept.mk_dram ?_ ?_ _ _ _ _ _ _ _ _ _ _ _ _ _ _ _ _ _ _ _ _ _ _ _ _ _ _ _ _ _ _ _ _)

theorem exportRequest_kept {r₀ : State} {s : State} (h : Kept r₀ s) (p : List Byte) :
    Kept r₀ ((exportRequest s p).s) := by
  unfold exportRequest
  repeat' (first | with_reducible assumption | with_reducible apply State.setF_kept | with_reducible apply storeWord_kept | with_reducible apply exportGo_kept | with_reducible apply okay_kept | with_reducible apply nackRange_kept | with_reducible apply nackBusy_kept | (with_reducible apply Kept.foldl; intro _ _ _) | dsimp only | split)

theorem cellarRestore_kept {r₀ : State} {s : State} (h : Kept r₀ s) (p : List Byte) (dma : List Byte) :
    Kept r₀ ((cellarRestore s p dma).s) := by
  unfold cellarRestore
  repeat' (first | with_reducible assumption | with_reducible apply restoreCellar_kept | with_reducible apply okay_kept | with_reducible apply nackRange_kept | with_reducible apply nackBusy_kept | with_reducible apply changeDomain_kept | dsimp only | split)

theorem channelRetire_kept {r₀ : State} {s : State} (h : Kept r₀ s) (p : List Byte) :
    Kept r₀ ((channelRetire s p).s) := by
  unfold channelRetire
  repeat' (first | with_reducible assumption | with_reducible apply retirePending_kept | with_reducible apply okay_kept | with_reducible apply nackRange_kept | split)

theorem logRead_kept {r₀ : State} {s : State} (h : Kept r₀ s) (p : List Byte) :
    Kept r₀ ((logRead s p).s) := by
  unfold logRead
  repeat' (first | with_reducible assumption | with_reducible apply State.sendHost_kept | with_reducible apply okay_kept | with_reducible apply nackRange_kept | dsimp only | split)

theorem abortAll_kept {r₀ : State} {s : State} (h : Kept r₀ s)  :
    Kept r₀ (abortAll s) := by
  unfold abortAll
  repeat' (first | with_reducible assumption | with_reducible apply abortUnit_kept | (with_reducible apply Kept.foldl; intro _ _ _) | split)

theorem lcBurn_kept {r₀ s : State} (h : Kept r₀ s) (target : Nat) (a : List Byte) : Kept r₀ (lcBurn s target a) := by
  unfold lcBurn
  dsimp only
  split
  · exact setFlash_kept (Kept.burn (g := { s.fuses with decom := true }) h ⟨rfl, rfl, rfl, Nat.le_refl _, id, fun _ => rfl, Nat.le_refl _⟩) _ _
  · split
    · exact setFlash_kept (Kept.burn (g := { s.fuses with owned := true }) h ⟨rfl, rfl, rfl, Nat.le_refl _, fun _ => rfl, id, Nat.le_refl _⟩) _ _
    · exact Kept.burn h ⟨rfl, rfl, rfl, Nat.le_refl _, id, id, Nat.le_succ _⟩

theorem lcProceed_kept {r₀ : State} {s : State} (h : Kept r₀ s) (target : Nat) (a : List Byte) :
    Kept r₀ (lcProceed s target a) := by
  unfold lcProceed
  repeat' (first | with_reducible assumption | with_reducible apply reportStop_kept | with_reducible apply abortAll_kept | with_reducible apply lcBurn_kept | (with_reducible apply Kept.foldl; intro _ _ _) | with_reducible apply Memory.wf_clear | dsimp only | split | intro _ | refine Kept.mk_dram ?_ ?_ _ _ _ _ _ _ _ _ _ _ _ _ _ _ _ _ _ _ _ _ _ _ _ _ _ _ _ _ _ _ _ _)

theorem lifecycleSet_kept {r₀ : State} {s : State} (h : Kept r₀ s) (p : List Byte) (dma : List Byte) :
    Kept r₀ ((lifecycleSet s p dma).s) := by
  unfold lifecycleSet
  repeat' (first | with_reducible assumption | with_reducible apply okay_kept | with_reducible apply nack_kept | with_reducible apply nackRange_kept | with_reducible apply lcProceed_kept | dsimp only | split)

/-! Operations of Machine/PowerOps.lean. -/

theorem loseDomains_kept {r₀ s : State} (h : Kept r₀ s) : Kept r₀ (loseDomains s) := by
  unfold loseDomains
  refine Kept.foldl (fun x d hx => ?_) _ ⟨h.now, h.fuses, fun w => ⟨(h.sound w).1, fun i => ?_⟩, h.queue⟩
  · split
    · exact hx
    · exact setDomCur_kept (State.setF_kept hx _ _ _ _) _ _
  · have : (Vector.replicate 128 Tile.reset)[i] = Tile.reset := by simp
    simpa only [State.tile, State.reset, this] using Tile.sound_reset

theorem resetAon_kept {r₀ : State} {s : State} (h : Kept r₀ s)  :
    Kept r₀ (resetAon s) := by
  unfold resetAon
  repeat' (first | dsimp only | (with_reducible apply Kept.mk_upd; first | with_reducible assumption | with_reducible apply Kept.ite | (with_reducible apply Kept.foldl; intro _ _ _) | (with_reducible apply Kept.foldl_fst; intro _ _ _) | (with_reducible apply Kept.foldl_on Rows.s; intro _ _ _) | (with_reducible apply Kept.foldl_on GWork.s; intro _ _ _) | dsimp only | split))

theorem loseDram_kept {r₀ s : State} (h : Kept r₀ s) : Kept r₀ (loseDram s) :=
  Kept.mk_dram h (fun _ => rfl) _ _ _ _ _ _ _ _ _ _ _ _ _ _ _ _ _ _ _ _ _ _ _ _ _ _ _ _ _ _ _ _

theorem powerLoss_kept {r₀ : State} {s : State} (h : Kept r₀ s)  :
    Kept r₀ (powerLoss s) := by
  unfold powerLoss
  repeat' (first | with_reducible assumption | with_reducible apply loseDomains_kept | with_reducible apply resetAon_kept | dsimp only | (with_reducible apply Kept.mk_upd; first | with_reducible assumption | with_reducible apply loseDomains_kept | with_reducible apply resetAon_kept | with_reducible apply loseDram_kept | with_reducible apply Kept.ite | (with_reducible apply Kept.foldl; intro _ _ _) | (with_reducible apply Kept.foldl_fst; intro _ _ _) | (with_reducible apply Kept.foldl_on Rows.s; intro _ _ _) | (with_reducible apply Kept.foldl_on GWork.s; intro _ _ _) | dsimp only | split))

theorem resetEntry_kept {r₀ : State} {s : State} (h : Kept r₀ s)  :
    Kept r₀ (resetEntry s) := by
  unfold resetEntry
  repeat' (first | with_reducible assumption | with_reducible apply loseDomains_kept | dsimp only | (with_reducible apply Kept.mk_upd; first | with_reducible assumption | with_reducible apply loseDomains_kept | with_reducible apply resetAon_kept | with_reducible apply Kept.ite | (with_reducible apply Kept.foldl; intro _ _ _) | (with_reducible apply Kept.foldl_fst; intro _ _ _) | (with_reducible apply Kept.foldl_on Rows.s; intro _ _ _) | (with_reducible apply Kept.foldl_on GWork.s; intro _ _ _) | dsimp only | split))

theorem trip_kept {r₀ : State} {s : State} (h : Kept r₀ s) (cause : Nat) (info : Nat) (code : Nat) (i0 : Nat) :
    Kept r₀ (trip s cause info code i0) := by
  unfold trip
  repeat' (first | with_reducible assumption | with_reducible apply State.setF_kept | with_reducible apply State.recordErr_kept | with_reducible apply alert_kept | with_reducible apply loseDomains_kept | with_reducible apply Kept.ite | dsimp only | (with_reducible apply Kept.mk_upd; first | with_reducible assumption | with_reducible apply State.setF_kept | with_reducible apply State.recordErr_kept | with_reducible apply alert_kept | with_reducible apply loseDomains_kept | with_reducible apply loseDram_kept | with_reducible apply Kept.ite | (with_reducible apply Kept.foldl; intro _ _ _) | (with_reducible apply Kept.foldl_fst; intro _ _ _) | (with_reducible apply Kept.foldl_on Rows.s; intro _ _ _) | (with_reducible apply Kept.foldl_on GWork.s; intro _ _ _) | dsimp only | split))

theorem vinSample_kept {r₀ : State} {s : State} (h : Kept r₀ s) (mv : Nat) (t : Nat) :
    Kept r₀ (vinSample s mv t) := by
  unfold vinSample
  repeat' (first | with_reducible assumption | with_reducible apply State.recordErr_kept | with_reducible apply settleFloor_kept | with_reducible apply powerLoss_kept | with_reducible apply trip_kept | with_reducible apply Kept.ite | dsimp only | (with_reducible apply Kept.mk_upd; first | with_reducible assumption | with_reducible apply State.atTime_kept | with_reducible apply State.recordErr_kept | with_reducible apply settleFloor_kept | with_reducible apply powerLoss_kept | with_reducible apply trip_kept | with_reducible apply Kept.ite | (with_reducible apply Kept.foldl; intro _ _ _) | (with_reducible apply Kept.foldl_fst; intro _ _ _) | (with_reducible apply Kept.foldl_on Rows.s; intro _ _ _) | (with_reducible apply Kept.foldl_on GWork.s; intro _ _ _) | dsimp only | split))

theorem railFault_kept {r₀ : State} {s : State} (h : Kept r₀ s) (dimm : Bool) (n : Nat) (t : Nat) :
    Kept r₀ (railFault s dimm n t) := by
  unfold railFault
  repeat' (first | with_reducible assumption | with_reducible apply State.atTime_kept | with_reducible apply State.recordErr_kept | with_reducible apply State.modDimm_kept | with_reducible apply trip_kept | with_reducible apply Kept.ite | split)

theorem powerTick_kept {r₀ : State} {s : State} (h : Kept r₀ s) (p10us : Nat) (p10ms : Nat) (t : Nat) :
    Kept r₀ (powerTick s p10us p10ms t) := by
  unfold powerTick
  repeat' (first | with_reducible assumption | with_reducible apply State.atTime_kept | with_reducible apply State.countF_kept | with_reducible apply trip_kept | with_reducible apply Kept.ite | dsimp only | split | (with_reducible apply Kept.mk_upd; first | with_reducible assumption | with_reducible apply State.setF_kept | with_reducible apply State.atTime_kept | with_reducible apply State.countF_kept | with_reducible apply settleThrottle_kept | with_reducible apply trip_kept | with_reducible apply Kept.ite | (with_reducible apply Kept.foldl; intro _ _ _) | (with_reducible apply Kept.foldl_fst; intro _ _ _) | (with_reducible apply Kept.foldl_on Rows.s; intro _ _ _) | (with_reducible apply Kept.foldl_on GWork.s; intro _ _ _) | dsimp only | split))

theorem thermalTick_kept {r₀ : State} {s : State} (h : Kept r₀ s) (temps : List Nat) (t : Nat) :
    Kept r₀ (thermalTick s temps t) := by
  unfold thermalTick
  repeat' (first | with_reducible assumption | with_reducible apply State.setF_kept | with_reducible apply State.atTime_kept | with_reducible apply State.raise_kept | with_reducible apply settleThrottle_kept | with_reducible apply trip_kept | with_reducible apply Kept.ite | (with_reducible apply Kept.foldl; intro _ _ _) | dsimp only | split | (with_reducible apply Kept.mk_upd; first | with_reducible assumption | with_reducible apply State.setF_kept | with_reducible apply State.atTime_kept | with_reducible apply State.raise_kept | with_reducible apply settleThrottle_kept | with_reducible apply trip_kept | with_reducible apply Kept.ite | (with_reducible apply Kept.foldl; intro _ _ _) | (with_reducible apply Kept.foldl_fst; intro _ _ _) | (with_reducible apply Kept.foldl_on Rows.s; intro _ _ _) | (with_reducible apply Kept.foldl_on GWork.s; intro _ _ _) | dsimp only | split))

theorem limitWrite_kept {r₀ : State} {s : State} (h : Kept r₀ s) (a : Actor) (l : Limit) (v : Nat) :
    Kept r₀ (limitWrite s a l v) := by
  unfold limitWrite
  repeat' (first | with_reducible assumption | with_reducible apply State.setF_kept | with_reducible apply Kept.ite | split)

theorem replan_kept {r₀ : State} {s : State} (h : Kept r₀ s)  :
    Kept r₀ (replan s) := by
  unfold replan
  repeat' (first | with_reducible assumption | with_reducible apply State.setF_kept | (with_reducible apply Kept.foldl; intro _ _ _))

theorem cp2LiveExpiry_kept {r₀ : State} {s : State} (h : Kept r₀ s) (t : Nat) :
    Kept r₀ (cp2LiveExpiry s t) := by
  unfold cp2LiveExpiry
  repeat' (first | with_reducible assumption | with_reducible apply State.atTime_kept | with_reducible apply enterSafeFloor_kept | with_reducible apply Kept.ite)

theorem cp2Live_kept {r₀ : State} {s : State} (h : Kept r₀ s) (a : Actor) (t : Nat) :
    Kept r₀ (cp2Live s a t) := by
  unfold cp2Live
  repeat' (first | with_reducible assumption | with_reducible apply State.setF_kept | with_reducible apply State.raise_kept | with_reducible apply settleFloor_kept | with_reducible apply replan_kept | with_reducible apply cp2LiveExpiry_kept | with_reducible apply Kept.ite | dsimp only | (with_reducible apply Kept.mk_upd; first | with_reducible assumption | with_reducible apply State.setF_kept | with_reducible apply State.atTime_kept | with_reducible apply State.raise_kept | with_reducible apply settleFloor_kept | with_reducible apply replan_kept | with_reducible apply cp2LiveExpiry_kept | with_reducible apply Kept.ite | (with_reducible apply Kept.foldl; intro _ _ _) | (with_reducible apply Kept.foldl_fst; intro _ _ _) | (with_reducible apply Kept.foldl_on Rows.s; intro _ _ _) | (with_reducible apply Kept.foldl_on GWork.s; intro _ _ _) | dsimp only | split))

theorem writeDrift_kept {r₀ : State} {s : State} (h : Kept r₀ s) (kind : Nat) (cs : List Nat) :
    Kept r₀ (writeDrift s kind cs) := by
  unfold writeDrift
  repeat' (first | with_reducible assumption | with_reducible apply setFlash_kept)

theorem stepDown_kept {r₀ : State} {s : State} (h : Kept r₀ s) (n : Fin 4) :
    Kept r₀ (stepDown s n) := by
  unfold stepDown
  repeat' (first | with_reducible assumption | with_reducible apply State.setF_kept | with_reducible apply settleThrottle_kept | with_reducible apply Kept.ite | dsimp only | (with_reducible apply Kept.mk_upd; first | with_reducible assumption | with_reducible apply State.setF_kept | with_reducible apply settleThrottle_kept | with_reducible apply Kept.ite | (with_reducible apply Kept.foldl; intro _ _ _) | (with_reducible apply Kept.foldl_fst; intro _ _ _) | (with_reducible apply Kept.foldl_on Rows.s; intro _ _ _) | (with_reducible apply Kept.foldl_on GWork.s; intro _ _ _) | dsimp only | split))

theorem vSetWrite_kept {r₀ : State} {s : State} (h : Kept r₀ s) (a : Actor) (n : Fin 4) (k : Fin 8) (v : Nat) :
    Kept r₀ (vSetWrite s a n k v) := by
  unfold vSetWrite
  repeat' (first | with_reducible assumption | with_reducible apply State.setF_kept | with_reducible apply Kept.ite)

theorem actOnReading_kept {r₀ : State} {s : State} (h : Kept r₀ s) (r : AgeReading) :
    Kept r₀ (actOnReading s r) := by
  unfold actOnReading
  repeat' (first | with_reducible assumption | with_reducible apply State.setF_kept | with_reducible apply settleThrottle_kept | with_reducible apply stepDown_kept | with_reducible apply vSetWrite_kept | with_reducible apply Kept.ite | dsimp only | split | (with_reducible apply Kept.mk_upd; first | with_reducible assumption | with_reducible apply State.setF_kept | with_reducible apply settleThrottle_kept | with_reducible apply stepDown_kept | with_reducible apply vSetWrite_kept | with_reducible apply Kept.ite | (with_reducible apply Kept.foldl; intro _ _ _) | (with_reducible apply Kept.foldl_fst; intro _ _ _) | (with_reducible apply Kept.foldl_on Rows.s; intro _ _ _) | (with_reducible apply Kept.foldl_on GWork.s; intro _ _ _) | dsimp only | split))

theorem ageingSample_kept {r₀ : State} {s : State} (h : Kept r₀ s) (rs : List AgeReading) (t : Nat) :
    Kept r₀ (ageingSample s rs t) := by
  unfold ageingSample
  repeat' (first | with_reducible assumption | with_reducible apply State.atTime_kept | with_reducible apply actOnReading_kept | with_reducible apply Kept.ite | (with_reducible apply Kept.foldl; intro _ _ _))

theorem stepDownDone_kept {r₀ : State} {s : State} (h : Kept r₀ s) (n : Fin 4) :
    Kept r₀ (stepDownDone s n) := by
  unfold stepDownDone
  repeat' (first | with_reducible apply State.recordErr_kept | with_reducible apply evtFault_kept | with_reducible apply settleThrottle_kept | with_reducible apply writeDrift_kept | dsimp only | (with_reducible apply Kept.mk_upd; first | with_reducible assumption | with_reducible apply State.recordErr_kept | with_reducible apply evtFault_kept | with_reducible apply settleThrottle_kept | with_reducible apply writeDrift_kept | with_reducible apply Kept.ite | (with_reducible apply Kept.foldl; intro _ _ _) | (with_reducible apply Kept.foldl_fst; intro _ _ _) | (with_reducible apply Kept.foldl_on Rows.s; intro _ _ _) | (with_reducible apply Kept.foldl_on GWork.s; intro _ _ _) | dsimp only | split))

theorem anchorStack_kept {r₀ : State} {s : State} (h : Kept r₀ s) (n : Fin 4) :
    Kept r₀ (anchorStack s n) := by
  unfold anchorStack
  repeat' (first | with_reducible assumption | exact fun _ x => Tile.sound_upd x rfl rfl | with_reducible apply Kept.ite | (with_reducible apply Kept.foldl; intro _ _ _) | with_reducible apply Kept.modTile)

theorem freqChangeDone_kept {r₀ : State} {s : State} (h : Kept r₀ s) (n : Fin 4) (t : Nat) :
    Kept r₀ (freqChangeDone s n t) := by
  unfold freqChangeDone
  repeat' (first | with_reducible assumption | with_reducible apply State.atTime_kept | with_reducible apply settleFloor_kept | with_reducible apply stepDownDone_kept | with_reducible apply anchorStack_kept | with_reducible apply Kept.ite | dsimp only | split | (with_reducible apply Kept.mk_upd; first | with_reducible assumption | with_reducible apply State.setF_kept | with_reducible apply State.atTime_kept | with_reducible apply settleFloor_kept | with_reducible apply stepDownDone_kept | with_reducible apply anchorStack_kept | with_reducible apply Kept.ite | (with_reducible apply Kept.foldl; intro _ _ _) | (with_reducible apply Kept.foldl_fst; intro _ _ _) | (with_reducible apply Kept.foldl_on Rows.s; intro _ _ _) | (with_reducible apply Kept.foldl_on GWork.s; intro _ _ _) | dsimp only | split))

theorem driftDaily_kept {r₀ : State} {s : State} (h : Kept r₀ s) (t : Nat) :
    Kept r₀ (driftDaily s t) := by
  unfold driftDaily
  repeat' (first | with_reducible assumption | with_reducible apply writeDrift_kept | with_reducible apply Kept.ite | dsimp only | (with_reducible apply Kept.mk_upd; first | with_reducible assumption | with_reducible apply State.atTime_kept | with_reducible apply writeDrift_kept | with_reducible apply Kept.ite | (with_reducible apply Kept.foldl; intro _ _ _) | (with_reducible apply Kept.foldl_fst; intro _ _ _) | (with_reducible apply Kept.foldl_on Rows.s; intro _ _ _) | (with_reducible apply Kept.foldl_on GWork.s; intro _ _ _) | dsimp only | split))

theorem dimmTemperature_kept {r₀ : State} {s : State} (h : Kept r₀ s) (c : Fin 24) (temp : Nat) (t : Nat) :
    Kept r₀ (dimmTemperature s c temp t) := by
  unfold dimmTemperature
  repeat' (first | with_reducible assumption | with_reducible apply State.atTime_kept | with_reducible apply State.recordErr_kept | with_reducible apply State.modDimm_kept | with_reducible apply Kept.ite)

theorem phyOn_kept {r₀ : State} {s : State} (h : Kept r₀ s) (n : Nat) :
    Kept r₀ (phyOn s n) := by
  unfold phyOn
  repeat' (first | with_reducible assumption | with_reducible apply setPortState_kept | with_reducible apply Kept.ite | (with_reducible apply Kept.foldl; intro _ _ _) | dsimp only | (with_reducible apply Kept.mk_upd; first | with_reducible assumption | with_reducible apply setPortState_kept | with_reducible apply Kept.ite | (with_reducible apply Kept.foldl; intro _ _ _) | (with_reducible apply Kept.foldl_fst; intro _ _ _) | (with_reducible apply Kept.foldl_on Rows.s; intro _ _ _) | (with_reducible apply Kept.foldl_on GWork.s; intro _ _ _) | dsimp only | split))

theorem phyOff_kept {r₀ : State} {s : State} (h : Kept r₀ s) (n : Nat) :
    Kept r₀ (phyOff s n) := by
  unfold phyOff
  repeat' (first | with_reducible assumption | with_reducible apply portEnable_kept | (with_reducible apply Kept.foldl; intro _ _ _))

theorem domainEnd_kept {r₀ : State} {s : State} (h : Kept r₀ s) (d : Nat) (t : Nat) :
    Kept r₀ (domainEnd s d t) := by
  unfold domainEnd
  repeat' (first | with_reducible assumption | with_reducible apply startTrans_kept | with_reducible apply settleRegions_kept | with_reducible apply domArrived_kept | with_reducible apply phyOn_kept | with_reducible apply phyOff_kept | with_reducible apply Kept.ite | dsimp only | split | (with_reducible apply Kept.mk_upd; first | with_reducible assumption | with_reducible apply State.atTime_kept | with_reducible apply startTrans_kept | with_reducible apply settleRegions_kept | with_reducible apply domArrived_kept | with_reducible apply phyOn_kept | with_reducible apply phyOff_kept | with_reducible apply Kept.ite | (with_reducible apply Kept.foldl; intro _ _ _) | (with_reducible apply Kept.foldl_fst; intro _ _ _) | (with_reducible apply Kept.foldl_on Rows.s; intro _ _ _) | (with_reducible apply Kept.foldl_on GWork.s; intro _ _ _) | dsimp only | split))

theorem domainTimeout_kept {r₀ : State} {s : State} (h : Kept r₀ s) (d : Nat) (t : Nat) :
    Kept r₀ (domainTimeout s d t) := by
  unfold domainTimeout
  repeat' (first | with_reducible assumption | with_reducible apply State.setF_kept | with_reducible apply State.recordErr_kept | with_reducible apply domArrived_kept | with_reducible apply Kept.ite | dsimp only | split | (with_reducible apply Kept.mk_upd; first | with_reducible assumption | with_reducible apply State.setF_kept | with_reducible apply State.atTime_kept | with_reducible apply State.recordErr_kept | with_reducible apply domArrived_kept | with_reducible apply Kept.ite | (with_reducible apply Kept.foldl; intro _ _ _) | (with_reducible apply Kept.foldl_fst; intro _ _ _) | (with_reducible apply Kept.foldl_on Rows.s; intro _ _ _) | (with_reducible apply Kept.foldl_on GWork.s; intro _ _ _) | dsimp only | split))

theorem clusterIdle_kept {r₀ : State} {s : State} (h : Kept r₀ s) (c : Nat) (t : Nat) :
    Kept r₀ (clusterIdle s c t) := by
  unfold clusterIdle
  repeat' (first | with_reducible assumption | with_reducible apply domainRequest_kept | with_reducible apply Kept.ite)

theorem gateBank_kept {r₀ : State} {s : State} (h : Kept r₀ s) (i : TileId) (b : Nat) :
    Kept r₀ (gateBank s i b) := by
  unfold gateBank
  repeat' (first | dsimp only | (with_reducible apply Kept.mk_upd; first | with_reducible assumption | with_reducible apply Kept.ite | (with_reducible apply Kept.foldl; intro _ _ _) | (with_reducible apply Kept.foldl_fst; intro _ _ _) | (with_reducible apply Kept.foldl_on Rows.s; intro _ _ _) | (with_reducible apply Kept.foldl_on GWork.s; intro _ _ _) | dsimp only | split))

theorem bankRetention_kept {r₀ : State} {s : State} (h : Kept r₀ s) (c : Nat) (t : Nat) :
    Kept r₀ (bankRetention s c t) := by
  unfold bankRetention
  repeat' (first | with_reducible assumption | with_reducible apply State.atTime_kept | with_reducible apply bankRequest_kept | with_reducible apply gateBank_kept | with_reducible apply Kept.ite | (with_reducible apply Kept.foldl; intro _ _ _) | split)

theorem senseMake_kept {r₀ : State} {s : State} (h : Kept r₀ s) (t : Nat) :
    Kept r₀ (senseMake s t) := by
  unfold senseMake
  repeat' (first | with_reducible assumption | dsimp only | (with_reducible apply Kept.mk_upd; first | with_reducible assumption | with_reducible apply State.atTime_kept | with_reducible apply Kept.ite | (with_reducible apply Kept.foldl; intro _ _ _) | (with_reducible apply Kept.foldl_fst; intro _ _ _) | (with_reducible apply Kept.foldl_on Rows.s; intro _ _ _) | (with_reducible apply Kept.foldl_on GWork.s; intro _ _ _) | dsimp only | split))

theorem senseOpen_kept {r₀ : State} {s : State} (h : Kept r₀ s) (t : Nat) :
    Kept r₀ (senseOpen s t) := by
  unfold senseOpen
  repeat' (first | with_reducible assumption | with_reducible apply powerLoss_kept | dsimp only | (with_reducible apply Kept.mk_upd; first | with_reducible assumption | with_reducible apply State.atTime_kept | with_reducible apply powerLoss_kept | with_reducible apply Kept.ite | (with_reducible apply Kept.foldl; intro _ _ _) | (with_reducible apply Kept.foldl_fst; intro _ _ _) | (with_reducible apply Kept.foldl_on Rows.s; intro _ _ _) | (with_reducible apply Kept.foldl_on GWork.s; intro _ _ _) | dsimp only | split))

theorem switchClose_kept {r₀ : State} {s : State} (h : Kept r₀ s) (t : Nat) :
    Kept r₀ (switchClose s t) := by
  unfold switchClose
  repeat' (first | with_reducible assumption | with_reducible apply Kept.ite | dsimp only | split | (with_reducible apply Kept.mk_upd; first | with_reducible assumption | with_reducible apply State.atTime_kept | with_reducible apply Kept.ite | (with_reducible apply Kept.foldl; intro _ _ _) | (with_reducible apply Kept.foldl_fst; intro _ _ _) | (with_reducible apply Kept.foldl_on Rows.s; intro _ _ _) | (with_reducible apply Kept.foldl_on GWork.s; intro _ _ _) | dsimp only | split))

theorem perstAssert_kept {r₀ : State} {s : State} (h : Kept r₀ s) (t : Nat) :
    Kept r₀ (perstAssert s t) := by
  unfold perstAssert
  repeat' (first | with_reducible assumption | with_reducible apply State.atTime_kept | with_reducible apply Kept.ite | dsimp only | split | (with_reducible apply Kept.mk_upd; first | with_reducible assumption | with_reducible apply State.atTime_kept | with_reducible apply resetEntry_kept | with_reducible apply Kept.ite | (with_reducible apply Kept.foldl; intro _ _ _) | (with_reducible apply Kept.foldl_fst; intro _ _ _) | (with_reducible apply Kept.foldl_on Rows.s; intro _ _ _) | (with_reducible apply Kept.foldl_on GWork.s; intro _ _ _) | dsimp only | split))

theorem perstHold_kept {r₀ : State} {s : State} (h : Kept r₀ s) (t : Nat) :
    Kept r₀ (perstHold s t) := by
  unfold perstHold
  repeat' (first | with_reducible assumption | with_reducible apply State.atTime_kept | with_reducible apply Kept.ite | dsimp only | (with_reducible apply Kept.mk_upd; first | with_reducible assumption | with_reducible apply State.atTime_kept | with_reducible apply loseDram_kept | with_reducible apply Kept.ite | (with_reducible apply Kept.foldl; intro _ _ _) | (with_reducible apply Kept.foldl_fst; intro _ _ _) | (with_reducible apply Kept.foldl_on Rows.s; intro _ _ _) | (with_reducible apply Kept.foldl_on GWork.s; intro _ _ _) | dsimp only | split))

theorem perstRelease_kept {r₀ : State} {s : State} (h : Kept r₀ s) (t : Nat) :
    Kept r₀ (perstRelease s t) := by
  unfold perstRelease
  repeat' (first | with_reducible assumption | with_reducible apply perstHold_kept | with_reducible apply Kept.ite | dsimp only | split | (with_reducible apply Kept.mk_upd; first | with_reducible assumption | with_reducible apply State.atTime_kept | with_reducible apply perstHold_kept | with_reducible apply Kept.ite | (with_reducible apply Kept.foldl; intro _ _ _) | (with_reducible apply Kept.foldl_fst; intro _ _ _) | (with_reducible apply Kept.foldl_on Rows.s; intro _ _ _) | (with_reducible apply Kept.foldl_on GWork.s; intro _ _ _) | dsimp only | split))

theorem alertClear_kept {r₀ : State} {s : State} (h : Kept r₀ s) (a : Actor) (mask : Nat) :
    Kept r₀ (alertClear s a mask) := by
  unfold alertClear
  repeat' (first | with_reducible assumption | with_reducible apply State.setF_kept | with_reducible apply Kept.ite)

theorem smbusWrite_kept {r₀ : State} {s : State} (h : Kept r₀ s) (reg : Nat) (v : Nat) :
    Kept r₀ (smbusWrite s reg v) := by
  unfold smbusWrite
  repeat' (first | with_reducible assumption | with_reducible apply alertClear_kept | with_reducible apply Kept.ite)

theorem wakeEnd_kept {r₀ : State} {s : State} (h : Kept r₀ s) (t : Nat) :
    Kept r₀ (wakeEnd s t) := by
  unfold wakeEnd
  repeat' (first | with_reducible assumption | with_reducible apply Kept.ite | dsimp only | (with_reducible apply Kept.mk_upd; first | with_reducible assumption | with_reducible apply State.atTime_kept | with_reducible apply Kept.ite | (with_reducible apply Kept.foldl; intro _ _ _) | (with_reducible apply Kept.foldl_fst; intro _ _ _) | (with_reducible apply Kept.foldl_on Rows.s; intro _ _ _) | (with_reducible apply Kept.foldl_on GWork.s; intro _ _ _) | dsimp only | split))

theorem cageFault_kept {r₀ : State} {s : State} (h : Kept r₀ s) (p : Fin 8) (t : Nat) :
    Kept r₀ (cageFault s p t) := by
  unfold cageFault
  repeat' (first | with_reducible assumption | with_reducible apply portFail_kept | with_reducible apply Kept.ite | dsimp only | (with_reducible apply Kept.mk_upd; first | with_reducible assumption | with_reducible apply State.atTime_kept | with_reducible apply portFail_kept | with_reducible apply Kept.ite | (with_reducible apply Kept.foldl; intro _ _ _) | (with_reducible apply Kept.foldl_fst; intro _ _ _) | (with_reducible apply Kept.foldl_on Rows.s; intro _ _ _) | (with_reducible apply Kept.foldl_on GWork.s; intro _ _ _) | dsimp only | split))

theorem cfgLock_kept {r₀ : State} {s : State} (h : Kept r₀ s) (a : Actor) :
    Kept r₀ (cfgLock s a) := by
  unfold cfgLock
  repeat' (first | with_reducible assumption | with_reducible apply State.setF_kept | with_reducible apply Kept.ite)

/-! Operations of Machine/StartOps.lean. -/

theorem setGridMap_kept {r₀ : State} {s : State} (h : Kept r₀ s) (bad : List Nat) :
    Kept r₀ (setGridMap s bad) := by
  unfold setGridMap
  repeat' (first | with_reducible assumption | with_reducible apply State.setF_kept | (with_reducible apply Kept.foldl; intro _ _ _))

theorem domOn_kept {r₀ : State} {s : State} (h : Kept r₀ s) (d : Nat) :
    Kept r₀ (domOn s d) := by
  unfold domOn
  repeat' (first | with_reducible assumption | with_reducible apply State.setF_kept | with_reducible apply setDomCur_kept)

theorem enableAll_kept {r₀ : State} {s : State} (h : Kept r₀ s) (ty : Nat) :
    Kept r₀ (enableAll s ty) := by
  unfold enableAll
  repeat' (first | with_reducible assumption | with_reducible apply State.setF_kept | (with_reducible apply Kept.foldl; intro _ _ _))

theorem powerHearth_kept {r₀ : State} {s : State} (h : Kept r₀ s)  :
    Kept r₀ (powerHearth s) := by
  unfold powerHearth
  repeat' (first | with_reducible assumption | with_reducible apply domOn_kept | with_reducible apply enableAll_kept | with_reducible apply Kept.ite | (with_reducible apply Kept.foldl; intro _ _ _) | dsimp only | (with_reducible apply Kept.mk_upd; first | with_reducible assumption | with_reducible apply domOn_kept | with_reducible apply enableAll_kept | with_reducible apply Kept.ite | (with_reducible apply Kept.foldl; intro _ _ _) | (with_reducible apply Kept.foldl_fst; intro _ _ _) | (with_reducible apply Kept.foldl_on Rows.s; intro _ _ _) | (with_reducible apply Kept.foldl_on GWork.s; intro _ _ _) | dsimp only | split))

theorem powerClusters_kept {r₀ : State} {s : State} (h : Kept r₀ s)  :
    Kept r₀ (powerClusters s) := by
  unfold powerClusters
  repeat' (first | with_reducible assumption | with_reducible apply State.setF_kept | with_reducible apply domOn_kept | with_reducible apply Kept.ite | (with_reducible apply Kept.foldl; intro _ _ _))

theorem startChannels_kept {r₀ : State} {s : State} (h : Kept r₀ s) (f : StartFinds) (warm : Bool) :
    Kept r₀ ((startChannels s f warm).1) := by
  unfold startChannels
  repeat' (first | with_reducible assumption | with_reducible apply State.setF_kept | with_reducible apply State.recordErr_kept | with_reducible apply setChan_kept | with_reducible apply State.modDimm_kept | with_reducible apply setFlash_kept | with_reducible apply Kept.ite | (with_reducible apply Kept.foldl_fst; intro _ _ _) | split)

theorem wipeDram_kept {r₀ : State} {s : State} (h : Kept r₀ s) (keep : Bool) :
    Kept r₀ (wipeDram s keep) := by
  unfold wipeDram
  repeat' (first | with_reducible assumption | with_reducible apply State.setF_kept | with_reducible apply Kept.ite | with_reducible apply keepRetained_wf | exact Memory.wf_nil | intro _ | refine Kept.mk_dram ?_ ?_ _ _ _ _ _ _ _ _ _ _ _ _ _ _ _ _ _ _ _ _ _ _ _ _ _ _ _ _ _ _ _ _)

theorem startDram_kept {r₀ : State} {s : State} (h : Kept r₀ s) (f : StartFinds) (warm : Bool) :
    Kept r₀ (startDram s f warm) := by
  unfold startDram
  repeat' (first | with_reducible assumption | with_reducible apply State.setF_kept | with_reducible apply startChannels_kept | dsimp only | split | (with_reducible apply Kept.mk_upd; first | with_reducible assumption | with_reducible apply State.setF_kept | with_reducible apply startChannels_kept | with_reducible apply wipeDram_kept | with_reducible apply Kept.ite | (with_reducible apply Kept.foldl; intro _ _ _) | (with_reducible apply Kept.foldl_fst; intro _ _ _) | (with_reducible apply Kept.foldl_on Rows.s; intro _ _ _) | (with_reducible apply Kept.foldl_on GWork.s; intro _ _ _) | dsimp only | split))

theorem startAgeing_kept {r₀ : State} {s : State} (h : Kept r₀ s) (f : StartFinds) :
    Kept r₀ (startAgeing s f) := by
  unfold startAgeing
  repeat' (first | with_reducible assumption | with_reducible apply State.setF_kept | with_reducible apply State.recordErr_kept | with_reducible apply writeDrift_kept | with_reducible apply actOnReading_kept | with_reducible apply stepDownDone_kept | with_reducible apply Kept.ite | (with_reducible apply Kept.foldl; intro _ _ _) | dsimp only | split | (with_reducible apply Kept.mk_upd; first | with_reducible assumption | with_reducible apply State.setF_kept | with_reducible apply State.recordErr_kept | with_reducible apply writeDrift_kept | with_reducible apply actOnReading_kept | with_reducible apply stepDownDone_kept | with_reducible apply Kept.ite | (with_reducible apply Kept.foldl; intro _ _ _) | (with_reducible apply Kept.foldl_fst; intro _ _ _) | (with_reducible apply Kept.foldl_on Rows.s; intro _ _ _) | (with_reducible apply Kept.foldl_on GWork.s; intro _ _ _) | dsimp only | split))

theorem startConfig_kept {r₀ : State} {s : State} (h : Kept r₀ s)  :
    Kept r₀ (startConfig s) := by
  unfold startConfig
  repeat' (first | with_reducible assumption | with_reducible apply State.setF_kept | (with_reducible apply Kept.foldl; intro _ _ _) | dsimp only | split | (with_reducible apply Kept.mk_upd; first | with_reducible assumption | with_reducible apply State.setF_kept | with_reducible apply Kept.ite | (with_reducible apply Kept.foldl; intro _ _ _) | (with_reducible apply Kept.foldl_fst; intro _ _ _) | (with_reducible apply Kept.foldl_on Rows.s; intro _ _ _) | (with_reducible apply Kept.foldl_on GWork.s; intro _ _ _) | dsimp only | split))

theorem stampStart_kept {r₀ : State} {s : State} (h : Kept r₀ s)  :
    Kept r₀ (stampStart s) := by
  unfold stampStart
  repeat' (first | with_reducible assumption | with_reducible apply State.setF_kept)

theorem serviceOnly_kept {r₀ : State} {s : State} (h : Kept r₀ s) (code : Nat) :
    Kept r₀ (serviceOnly s code) := by
  unfold serviceOnly
  repeat' (first | with_reducible assumption | with_reducible apply setFwState_kept | with_reducible apply stampStart_kept | dsimp only | split | (with_reducible apply Kept.mk_upd; first | with_reducible assumption | with_reducible apply fwError_kept | with_reducible apply setFwState_kept | with_reducible apply stampStart_kept | with_reducible apply Kept.ite | (with_reducible apply Kept.foldl; intro _ _ _) | (with_reducible apply Kept.foldl_fst; intro _ _ _) | (with_reducible apply Kept.foldl_on Rows.s; intro _ _ _) | (with_reducible apply Kept.foldl_on GWork.s; intro _ _ _) | dsimp only | split))

theorem restoreDomains_kept {r₀ : State} {s : State} (h : Kept r₀ s)  :
    Kept r₀ (restoreDomains s) := by
  unfold restoreDomains
  repeat' (first | with_reducible assumption | with_reducible apply State.setF_kept | with_reducible apply State.setDomain_kept | with_reducible apply scanNow_kept | with_reducible apply keepEntry_kept | with_reducible apply countContexts_kept | with_reducible apply Kept.ite | (with_reducible apply Kept.foldl; intro _ _ _) | with_reducible apply Memory.wf_clear | refine Kept.mk_dram ?_ ?_ _ _ _ _ _ _ _ _ _ _ _ _ _ _ _ _ _ _ _ _ _ _ _ _ _ _ _ _ _ _ _ _)

theorem startRuntime_kept {r₀ : State} {s : State} (h : Kept r₀ s) (i : List Byte) (flash : Bool) (fb : Bool) :
    Kept r₀ (startRuntime s i flash fb) := by
  unfold startRuntime
  repeat' (first | with_reducible assumption | with_reducible apply State.setF_kept | with_reducible apply evtFault_kept | with_reducible apply settleRegions_kept | with_reducible apply setFwState_kept | with_reducible apply setCpState_kept | with_reducible apply portEnable_kept | with_reducible apply setRtSlot_kept | with_reducible apply putInForce_kept | with_reducible apply stampStart_kept | with_reducible apply restoreDomains_kept | with_reducible apply Kept.ite | (with_reducible apply Kept.foldl; intro _ _ _) | dsimp only | split | (with_reducible apply Kept.mk_upd; first | with_reducible assumption | with_reducible apply State.setF_kept | with_reducible apply evtFault_kept | with_reducible apply settleRegions_kept | with_reducible apply enterSafeFloor_kept | with_reducible apply setFwState_kept | with_reducible apply setCpState_kept | with_reducible apply portEnable_kept | with_reducible apply setRtSlot_kept | with_reducible apply putInForce_kept | with_reducible apply stampStart_kept | with_reducible apply restoreDomains_kept | with_reducible apply Kept.ite | (with_reducible apply Kept.foldl; intro _ _ _) | (with_reducible apply Kept.foldl_fst; intro _ _ _) | (with_reducible apply Kept.foldl_on Rows.s; intro _ _ _) | (with_reducible apply Kept.foldl_on GWork.s; intro _ _ _) | dsimp only | split))

theorem takeFlashRuntime_kept {r₀ : State} {s : State} (h : Kept r₀ s)  :
    Kept r₀ (takeFlashRuntime s) := by
  unfold takeFlashRuntime
  repeat' (first | with_reducible assumption | with_reducible apply imageFails_kept | with_reducible apply serviceOnly_kept | with_reducible apply startRuntime_kept | dsimp only | split)

theorem stage1Begins_kept {r₀ : State} {s : State} (h : Kept r₀ s) (f : StartFinds) (i : List Byte) :
    Kept r₀ (stage1Begins s f i) := by
  unfold stage1Begins
  repeat' (first | with_reducible apply State.setF_kept | with_reducible apply setFwState_kept | with_reducible apply setCpState_kept | with_reducible apply setFlash_kept | dsimp only | (with_reducible apply Kept.mk_upd; first | with_reducible assumption | with_reducible apply State.setF_kept | with_reducible apply setFwState_kept | with_reducible apply setCpState_kept | with_reducible apply setFlash_kept | with_reducible apply Kept.ite | (with_reducible apply Kept.foldl; intro _ _ _) | (with_reducible apply Kept.foldl_fst; intro _ _ _) | (with_reducible apply Kept.foldl_on Rows.s; intro _ _ _) | (with_reducible apply Kept.foldl_on GWork.s; intro _ _ _) | dsimp only | split))

theorem startHostPorts_kept {r₀ : State} {s : State} (h : Kept r₀ s) (f : StartFinds) :
    Kept r₀ (startHostPorts s f) := by
  unfold startHostPorts
  repeat' (first | with_reducible assumption | with_reducible apply setRole_kept | with_reducible apply hostLinkUp_kept | with_reducible apply Kept.ite | (with_reducible apply Kept.foldl; intro _ _ _))

theorem startBlocks_kept {r₀ : State} {s : State} (h : Kept r₀ s) (f : StartFinds) (warm : Bool) :
    Kept r₀ (startBlocks s f warm) := by
  unfold startBlocks
  repeat' (first | with_reducible apply setGridMap_kept | with_reducible apply powerClusters_kept | with_reducible apply startDram_kept | with_reducible apply startAgeing_kept | dsimp only | (with_reducible apply Kept.mk_upd; first | with_reducible assumption | with_reducible apply setGridMap_kept | with_reducible apply powerClusters_kept | with_reducible apply startDram_kept | with_reducible apply startAgeing_kept | with_reducible apply Kept.ite | (with_reducible apply Kept.foldl; intro _ _ _) | (with_reducible apply Kept.foldl_fst; intro _ _ _) | (with_reducible apply Kept.foldl_on Rows.s; intro _ _ _) | (with_reducible apply Kept.foldl_on GWork.s; intro _ _ _) | dsimp only | split))

theorem runStage1_kept {r₀ : State} {s : State} (h : Kept r₀ s) (f : StartFinds) (i : List Byte) (warm : Bool) :
    Kept r₀ (runStage1 s f i warm) := by
  unfold runStage1
  repeat' (first | with_reducible assumption | with_reducible apply State.setF_kept | with_reducible apply startConfig_kept | with_reducible apply serviceOnly_kept | with_reducible apply takeFlashRuntime_kept | with_reducible apply stage1Begins_kept | with_reducible apply startHostPorts_kept | with_reducible apply startBlocks_kept | with_reducible apply Kept.ite | dsimp only | (with_reducible apply Kept.mk_upd; first | with_reducible assumption | with_reducible apply State.setF_kept | with_reducible apply startConfig_kept | with_reducible apply serviceOnly_kept | with_reducible apply takeFlashRuntime_kept | with_reducible apply stage1Begins_kept | with_reducible apply startHostPorts_kept | with_reducible apply startBlocks_kept | with_reducible apply Kept.ite | (with_reducible apply Kept.foldl; intro _ _ _) | (with_reducible apply Kept.foldl_fst; intro _ _ _) | (with_reducible apply Kept.foldl_on Rows.s; intro _ _ _) | (with_reducible apply Kept.foldl_on GWork.s; intro _ _ _) | dsimp only | split))

theorem startBegins_kept {r₀ s : State} (h : Kept r₀ s) (reason t : Nat) (going : Bool) :
    Kept r₀ (startBegins s reason t going) := by
  unfold startBegins
  extract_lets s1 s2 from_ src s3 s4
  have h2 : Kept r₀ s2 := by
    refine Kept.ite (resetEntry_kept ?_) ?_ <;> exact State.atTime_kept h t
  clear_value s2 from_
  have h3 : Kept r₀ s3 := Kept.upd h2 rfl rfl rfl rfl rfl
  clear_value s3
  have h4 : Kept r₀ s4 := State.setF_kept (powerHearth_kept h3) _ _ _ _
  clear_value s4
  exact Kept.upd h4 rfl rfl rfl rfl rfl

theorem romRecovery_kept {r₀ : State} {s : State} (h : Kept r₀ s) (f : StartFinds) (e : Nat × Nat) (warm : Bool) :
    Kept r₀ (romRecovery s f e warm) := by
  unfold romRecovery
  repeat' (first | with_reducible assumption | with_reducible apply fwError_kept | with_reducible apply setFwState_kept | with_reducible apply setCpState_kept | with_reducible apply hostLinkUp_kept | with_reducible apply imageFails_kept | (with_reducible apply Kept.foldl; intro _ _ _) | dsimp only | split | (with_reducible apply Kept.mk_upd; first | with_reducible assumption | with_reducible apply fwError_kept | with_reducible apply setFwState_kept | with_reducible apply setCpState_kept | with_reducible apply setRole_kept | with_reducible apply hostLinkUp_kept | with_reducible apply imageFails_kept | with_reducible apply Kept.ite | (with_reducible apply Kept.foldl; intro _ _ _) | (with_reducible apply Kept.foldl_fst; intro _ _ _) | (with_reducible apply Kept.foldl_on Rows.s; intro _ _ _) | (with_reducible apply Kept.foldl_on GWork.s; intro _ _ _) | dsimp only | split))

theorem deviceStart_kept {r₀ s : State} (h : Kept r₀ s) (f : StartFinds) : Kept r₀ (deviceStart s f) := by
  unfold deviceStart
  split
  · exact h
  · refine Kept.ite h ?_
    extract_lets going reset warm s1 a b
    have h1 : Kept r₀ s1 := startBegins_kept h _ _ _
    clear_value s1 warm going a b
    refine Kept.ite (runStage1_kept h1 _ _ _) ?_
    split
    · exact runStage1_kept h1 _ _ _
    · extract_lets s2
      have h2 : Kept r₀ s2 := imageFails_kept h1 _
      clear_value s2
      split
      · exact runStage1_kept (State.setF_kept h2 _ _ _ _) _ _ _
      · exact romRecovery_kept h2 _ _ _

/-! Operations of Machine/FirmwareOps.lean. -/

theorem imageLoad_kept {r₀ : State} {s : State} (h : Kept r₀ s) (p : List Byte) (dma : List Byte) :
    Kept r₀ ((imageLoad s p dma).s) := by
  unfold imageLoad
  repeat' (first | with_reducible assumption | with_reducible apply imageFails_kept | with_reducible apply okay_kept | with_reducible apply nackRange_kept | with_reducible apply nackState_kept | with_reducible apply nackVerify_kept | with_reducible apply loadStandby_kept | with_reducible apply startRuntime_kept | dsimp only | split | (with_reducible apply Kept.mk_upd; first | with_reducible assumption | with_reducible apply imageFails_kept | with_reducible apply okay_kept | with_reducible apply nackRange_kept | with_reducible apply nackState_kept | with_reducible apply nackVerify_kept | with_reducible apply loadStandby_kept | with_reducible apply startRuntime_kept | with_reducible apply Kept.ite | (with_reducible apply Kept.foldl; intro _ _ _) | (with_reducible apply Kept.foldl_fst; intro _ _ _) | (with_reducible apply Kept.foldl_on Rows.s; intro _ _ _) | (with_reducible apply Kept.foldl_on GWork.s; intro _ _ _) | dsimp only | split))

theorem serveOp_kept {r₀ : State} {s : State} (h : Kept r₀ s) (op : Nat) (seq : Nat) (p : List Byte) (dma : List Byte) (dma2 : List Byte) :
    Kept r₀ ((serveOp s op seq p dma dma2).s) := by
  unfold serveOp
  repeat' (first | with_reducible assumption | with_reducible apply okWith_kept | with_reducible apply nack_kept | with_reducible apply bind_kept | with_reducible apply unbind_kept | with_reducible apply scheduleHandover_kept | with_reducible apply flashWrite_kept | with_reducible apply svnRaise_kept | with_reducible apply attestTo_kept | with_reducible apply memberSet_kept | with_reducible apply spareSet_kept | with_reducible apply groupSet_kept | with_reducible apply queueCreate_kept | with_reducible apply queueDestroy_kept | with_reducible apply queueRingSet_kept | with_reducible apply queueSetStopped_kept | with_reducible apply queueQuery_kept | with_reducible apply contextCreate_kept | with_reducible apply contextDestroy_kept | with_reducible apply placementWrite_kept | with_reducible apply domainSet_kept | with_reducible apply upbSubmit_kept | with_reducible apply retainSet_kept | with_reducible apply baseLoad_kept | with_reducible apply exportRequest_kept | with_reducible apply cellarRestore_kept | with_reducible apply channelRetire_kept | with_reducible apply logRead_kept | with_reducible apply lifecycleSet_kept | with_reducible apply imageLoad_kept | split)

theorem executeRequest_kept {r₀ : State} {s : State} (h : Kept r₀ s) (r : MbxRequest) :
    Kept r₀ ((executeRequest s r).s) := by
  unfold executeRequest
  repeat' (first | with_reducible assumption | with_reducible apply nack_kept | with_reducible apply nackState_kept | with_reducible apply serveOp_kept | dsimp only | split)

theorem placeResponse_kept {r₀ : State} {s : State} (h : Kept r₀ s) (x : List Byte) (status : Nat) :
    Kept r₀ (placeResponse s x status) := by
  unfold placeResponse
  repeat' (first | with_reducible apply State.countF_kept | with_reducible apply State.send_kept | with_reducible apply Kept.ite | (with_reducible apply Kept.mk_upd; first | with_reducible assumption | with_reducible apply State.countF_kept | with_reducible apply State.send_kept | with_reducible apply Kept.ite | (with_reducible apply Kept.foldl; intro _ _ _) | (with_reducible apply Kept.foldl_fst; intro _ _ _) | (with_reducible apply Kept.foldl_on Rows.s; intro _ _ _) | (with_reducible apply Kept.foldl_on GWork.s; intro _ _ _) | dsimp only | split))

theorem keepResponse_kept {r₀ : State} {s : State} (h : Kept r₀ s) (seq : Nat) (check : Nat) (x : List Byte) :
    Kept r₀ (keepResponse s seq check x) := by
  unfold keepResponse
  repeat' (first | dsimp only | (with_reducible apply Kept.mk_upd; first | with_reducible assumption | with_reducible apply Kept.ite | (with_reducible apply Kept.foldl; intro _ _ _) | (with_reducible apply Kept.foldl_fst; intro _ _ _) | (with_reducible apply Kept.foldl_on Rows.s; intro _ _ _) | (with_reducible apply Kept.foldl_on GWork.s; intro _ _ _) | dsimp only | split))

theorem serveRequest_kept {r₀ : State} {s : State} (h : Kept r₀ s) (r : MbxRequest) :
    Kept r₀ (serveRequest s r) := by
  unfold serveRequest
  repeat' (first | with_reducible assumption | with_reducible apply State.setF_kept | with_reducible apply nack_kept | with_reducible apply executeRequest_kept | with_reducible apply placeResponse_kept | with_reducible apply keepResponse_kept | with_reducible apply Kept.ite | dsimp only | split)

theorem serveAll_kept {r₀ s : State} (h : Kept r₀ s) (n : Nat) : Kept r₀ (serveAll n s) := by
  induction n generalizing s with
  | zero => exact h
  | succ n ih =>
    unfold serveAll
    repeat' (first | with_reducible assumption | with_reducible apply ih | with_reducible apply serveRequest_kept | with_reducible apply Kept.ite | dsimp only | split | (with_reducible apply Kept.mk_upd; first | with_reducible assumption | with_reducible apply ih | with_reducible apply serveRequest_kept | with_reducible apply Kept.ite | (with_reducible apply Kept.foldl; intro _ _ _) | (with_reducible apply Kept.foldl_fst; intro _ _ _) | intro _ _ | dsimp only | split))

theorem serveMailbox_kept {r₀ : State} {s : State} (h : Kept r₀ s)  :
    Kept r₀ (serveMailbox s) := by
  unfold serveMailbox
  repeat' (first | with_reducible assumption | with_reducible apply serveAll_kept)

theorem retainBound_kept {r₀ : State} {s : State} (h : Kept r₀ s)  :
    Kept r₀ (retainBound s) := by
  unfold retainBound
  repeat' (first | with_reducible assumption | with_reducible apply writeRetained_kept | with_reducible apply changeDomain_kept | with_reducible apply Kept.ite | (with_reducible apply Kept.foldl; intro _ _ _))

theorem hostLossTimeout_kept {r₀ : State} {s : State} (h : Kept r₀ s) (t : Nat) :
    Kept r₀ (hostLossTimeout s t) := by
  unfold hostLossTimeout
  repeat' (first | with_reducible assumption | with_reducible apply State.atTime_kept | with_reducible apply State.modDomain_kept | with_reducible apply fwError_kept | with_reducible apply setFwState_kept | with_reducible apply reportStop_kept | with_reducible apply retainBound_kept | with_reducible apply Kept.ite | (with_reducible apply Kept.foldl; intro _ _ _) | dsimp only | (with_reducible apply Kept.mk_upd; first | with_reducible assumption | with_reducible apply State.atTime_kept | with_reducible apply State.countF_kept | with_reducible apply State.modDomain_kept | with_reducible apply fwError_kept | with_reducible apply setFwState_kept | with_reducible apply reportStop_kept | with_reducible apply retainBound_kept | with_reducible apply Kept.ite | (with_reducible apply Kept.foldl; intro _ _ _) | (with_reducible apply Kept.foldl_fst; intro _ _ _) | (with_reducible apply Kept.foldl_on Rows.s; intro _ _ _) | (with_reducible apply Kept.foldl_on GWork.s; intro _ _ _) | dsimp only | split))

theorem hostWrite_kept {r₀ : State} {s : State} (h : Kept r₀ s) (t : Nat) :
    Kept r₀ (hostWrite s t) := by
  unfold hostWrite
  repeat' (first | with_reducible assumption | with_reducible apply State.setF_kept | with_reducible apply State.atTime_kept | with_reducible apply hostLossTimeout_kept | with_reducible apply Kept.ite | dsimp only | (with_reducible apply Kept.mk_upd; first | with_reducible assumption | with_reducible apply State.setF_kept | with_reducible apply State.atTime_kept | with_reducible apply hostLossTimeout_kept | with_reducible apply Kept.ite | (with_reducible apply Kept.foldl; intro _ _ _) | (with_reducible apply Kept.foldl_fst; intro _ _ _) | (with_reducible apply Kept.foldl_on Rows.s; intro _ _ _) | (with_reducible apply Kept.foldl_on GWork.s; intro _ _ _) | dsimp only | split))

theorem mailboxRequest_kept {r₀ : State} {s : State} (h : Kept r₀ s) (r : MbxRequest) (t : Nat) :
    Kept r₀ (mailboxRequest s r t) := by
  unfold mailboxRequest
  repeat' (first | with_reducible assumption | with_reducible apply fwError_kept | with_reducible apply serveMailbox_kept | with_reducible apply hostWrite_kept | with_reducible apply Kept.ite | (with_reducible apply Kept.mk_upd; first | with_reducible assumption | with_reducible apply fwError_kept | with_reducible apply serveMailbox_kept | with_reducible apply hostWrite_kept | with_reducible apply Kept.ite | (with_reducible apply Kept.foldl; intro _ _ _) | (with_reducible apply Kept.foldl_fst; intro _ _ _) | (with_reducible apply Kept.foldl_on Rows.s; intro _ _ _) | (with_reducible apply Kept.foldl_on GWork.s; intro _ _ _) | dsimp only | split))

theorem request_kept {r₀ : State} {s : State} (h : Kept r₀ s) (op : Nat) (a : MbxArgs) :
    Kept r₀ (request s op a) := by
  unfold request
  repeat' (first | with_reducible assumption | with_reducible apply mailboxRequest_kept)

theorem rspHeadWrite_kept {r₀ : State} {s : State} (h : Kept r₀ s) (v : Nat) (t : Nat) :
    Kept r₀ (rspHeadWrite s v t) := by
  unfold rspHeadWrite
  repeat' (first | with_reducible assumption | with_reducible apply serveMailbox_kept | with_reducible apply hostWrite_kept | with_reducible apply Kept.ite | (with_reducible apply Kept.mk_upd; first | with_reducible assumption | with_reducible apply serveMailbox_kept | with_reducible apply hostWrite_kept | with_reducible apply Kept.ite | (with_reducible apply Kept.foldl; intro _ _ _) | (with_reducible apply Kept.foldl_fst; intro _ _ _) | (with_reducible apply Kept.foldl_on Rows.s; intro _ _ _) | (with_reducible apply Kept.foldl_on GWork.s; intro _ _ _) | dsimp only | split))

theorem evtHeadWrite_kept {r₀ : State} {s : State} (h : Kept r₀ s) (v : Nat) (t : Nat) :
    Kept r₀ (evtHeadWrite s v t) := by
  unfold evtHeadWrite
  repeat' (first | with_reducible assumption | with_reducible apply drainEvents_kept | with_reducible apply hostWrite_kept | with_reducible apply Kept.ite | (with_reducible apply Kept.mk_upd; first | with_reducible assumption | with_reducible apply drainEvents_kept | with_reducible apply hostWrite_kept | with_reducible apply Kept.ite | (with_reducible apply Kept.foldl; intro _ _ _) | (with_reducible apply Kept.foldl_fst; intro _ _ _) | (with_reducible apply Kept.foldl_on Rows.s; intro _ _ _) | (with_reducible apply Kept.foldl_on GWork.s; intro _ _ _) | dsimp only | split))

theorem doorbell_kept {r₀ : State} {s : State} (h : Kept r₀ s) (qid : Nat) (v : Nat) (es : List (List Byte)) (t : Nat) :
    Kept r₀ (doorbell s qid v es t) := by
  unfold doorbell
  repeat' (first | with_reducible assumption | with_reducible apply State.setQueue_kept | with_reducible apply setStalled_kept | with_reducible apply hostWrite_kept | with_reducible apply Kept.ite | dsimp only | split)

theorem rekick_kept {r₀ : State} {s : State} (h : Kept r₀ s)  :
    Kept r₀ (rekick s) := by
  unfold rekick
  repeat' (first | dsimp only | (with_reducible apply Kept.mk_upd; first | with_reducible assumption | with_reducible apply Kept.ite | (with_reducible apply Kept.foldl; intro _ _ _) | (with_reducible apply Kept.foldl_fst; intro _ _ _) | (with_reducible apply Kept.foldl_on Rows.s; intro _ _ _) | (with_reducible apply Kept.foldl_on GWork.s; intro _ _ _) | dsimp only | split))

theorem handoverBegin_kept {r₀ : State} {s : State} (h : Kept r₀ s) (t : Nat) :
    Kept r₀ (handoverBegin s t) := by
  unfold handoverBegin
  repeat' (first | with_reducible assumption | with_reducible apply State.atTime_kept | with_reducible apply fwError_kept | with_reducible apply evtFwState_kept | with_reducible apply applyFrequencies_kept | with_reducible apply unitStart_kept | with_reducible apply putInForce_kept | with_reducible apply serveMailbox_kept | with_reducible apply rekick_kept | with_reducible apply Kept.ite | dsimp only | split | (with_reducible apply Kept.mk_upd; first | with_reducible assumption | with_reducible apply State.atTime_kept | with_reducible apply fwError_kept | with_reducible apply evtFwState_kept | with_reducible apply applyFrequencies_kept | with_reducible apply unitStart_kept | with_reducible apply putInForce_kept | with_reducible apply serveMailbox_kept | with_reducible apply rekick_kept | with_reducible apply Kept.ite | (with_reducible apply Kept.foldl; intro _ _ _) | (with_reducible apply Kept.foldl_fst; intro _ _ _) | (with_reducible apply Kept.foldl_on Rows.s; intro _ _ _) | (with_reducible apply Kept.foldl_on GWork.s; intro _ _ _) | dsimp only | split))

theorem stepBoundary_kept {r₀ : State} {s : State} (h : Kept r₀ s) (id : Nat) (others : Bool) (t : Nat) :
    Kept r₀ (stepBoundary s id others t) := by
  unfold stepBoundary
  repeat' (first | with_reducible assumption | with_reducible apply State.atTime_kept | with_reducible apply boundaryHeld_kept | with_reducible apply boundaryStarts_kept | with_reducible apply rerouteIdle_kept | with_reducible apply handoverBegin_kept | with_reducible apply Kept.ite | dsimp only | split)

theorem wdtKick_kept {r₀ : State} {s : State} (h : Kept r₀ s) (n : Fin 4) (t : Nat) :
    Kept r₀ (wdtKick s n t) := by
  unfold wdtKick
  repeat' (first | with_reducible assumption | with_reducible apply State.atTime_kept | with_reducible apply Kept.ite | dsimp only | (with_reducible apply Kept.mk_upd; first | with_reducible assumption | with_reducible apply State.atTime_kept | with_reducible apply Kept.ite | (with_reducible apply Kept.foldl; intro _ _ _) | (with_reducible apply Kept.foldl_fst; intro _ _ _) | (with_reducible apply Kept.foldl_on Rows.s; intro _ _ _) | (with_reducible apply Kept.foldl_on GWork.s; intro _ _ _) | dsimp only | split))

theorem reportStopAll_kept {r₀ : State} {s : State} (h : Kept r₀ s)  :
    Kept r₀ (reportStopAll s) := by
  unfold reportStopAll
  repeat' (first | with_reducible assumption | with_reducible apply reportStop_kept | with_reducible apply Kept.ite | (with_reducible apply Kept.foldl; intro _ _ _))

theorem escalate_kept {r₀ : State} {s : State} (h : Kept r₀ s) (n : Nat) :
    Kept r₀ (escalate s n) := by
  unfold escalate
  repeat' (first | with_reducible assumption | with_reducible apply fwError_kept | with_reducible apply setFwState_kept | with_reducible apply Kept.ite | dsimp only | (with_reducible apply Kept.mk_upd; first | with_reducible assumption | with_reducible apply fwError_kept | with_reducible apply setFwState_kept | with_reducible apply reportStopAll_kept | with_reducible apply Kept.ite | (with_reducible apply Kept.foldl; intro _ _ _) | (with_reducible apply Kept.foldl_fst; intro _ _ _) | (with_reducible apply Kept.foldl_on Rows.s; intro _ _ _) | (with_reducible apply Kept.foldl_on GWork.s; intro _ _ _) | dsimp only | split))

theorem restartCp_kept {r₀ : State} {s : State} (h : Kept r₀ s) (n : Fin 4) (copyOk : Bool) :
    Kept r₀ (restartCp s n copyOk) := by
  unfold restartCp
  repeat' (first | with_reducible apply State.countF_kept | with_reducible apply fwError_kept | with_reducible apply enterSafeFloor_kept | with_reducible apply setCpState_kept | with_reducible apply escalate_kept | with_reducible apply Kept.ite | dsimp only | (with_reducible apply Kept.mk_upd; first | with_reducible assumption | with_reducible apply State.countF_kept | with_reducible apply fwError_kept | with_reducible apply enterSafeFloor_kept | with_reducible apply setCpState_kept | with_reducible apply escalate_kept | with_reducible apply Kept.ite | (with_reducible apply Kept.foldl; intro _ _ _) | (with_reducible apply Kept.foldl_fst; intro _ _ _) | (with_reducible apply Kept.foldl_on Rows.s; intro _ _ _) | (with_reducible apply Kept.foldl_on GWork.s; intro _ _ _) | dsimp only | split))

theorem watchdogExpiry_kept {r₀ : State} {s : State} (h : Kept r₀ s) (n : Fin 4) (copyOk : Bool) (t : Nat) :
    Kept r₀ (watchdogExpiry s n copyOk t) := by
  unfold watchdogExpiry
  repeat' (first | with_reducible assumption | with_reducible apply State.atTime_kept | with_reducible apply fwError_kept | with_reducible apply evtFwState_kept | with_reducible apply setCpState_kept | with_reducible apply rekick_kept | with_reducible apply escalate_kept | with_reducible apply restartCp_kept | with_reducible apply Kept.ite | dsimp only | (with_reducible apply Kept.mk_upd; first | with_reducible assumption | with_reducible apply State.atTime_kept | with_reducible apply fwError_kept | with_reducible apply evtFwState_kept | with_reducible apply setCpState_kept | with_reducible apply putInForce_kept | with_reducible apply rekick_kept | with_reducible apply escalate_kept | with_reducible apply restartCp_kept | with_reducible apply Kept.ite | (with_reducible apply Kept.foldl; intro _ _ _) | (with_reducible apply Kept.foldl_fst; intro _ _ _) | (with_reducible apply Kept.foldl_on Rows.s; intro _ _ _) | (with_reducible apply Kept.foldl_on GWork.s; intro _ _ _) | dsimp only | split))

theorem resumeGroups_kept {r₀ : State} {s : State} (h : Kept r₀ s)  :
    Kept r₀ (resumeGroups s) := by
  unfold resumeGroups
  repeat' (first | with_reducible assumption | with_reducible apply sendPos_kept | with_reducible apply formTable_kept | with_reducible apply Kept.ite | (with_reducible apply Kept.foldl; intro _ _ _) | split)

theorem cpRestartComplete_kept {r₀ : State} {s : State} (h : Kept r₀ s) (n : Fin 4) (t : Nat) :
    Kept r₀ (cpRestartComplete s n t) := by
  unfold cpRestartComplete
  repeat' (first | with_reducible assumption | with_reducible apply State.atTime_kept | with_reducible apply setCpState_kept | with_reducible apply replan_kept | with_reducible apply serveMailbox_kept | with_reducible apply resumeGroups_kept | with_reducible apply Kept.ite | dsimp only | (with_reducible apply Kept.mk_upd; first | with_reducible assumption | with_reducible apply State.setF_kept | with_reducible apply State.atTime_kept | with_reducible apply setCpState_kept | with_reducible apply replan_kept | with_reducible apply serveMailbox_kept | with_reducible apply resumeGroups_kept | with_reducible apply Kept.ite | (with_reducible apply Kept.foldl; intro _ _ _) | (with_reducible apply Kept.foldl_fst; intro _ _ _) | (with_reducible apply Kept.foldl_on Rows.s; intro _ _ _) | (with_reducible apply Kept.foldl_on GWork.s; intro _ _ _) | dsimp only | split))

theorem abortRunning_kept {r₀ : State} {s : State} (h : Kept r₀ s)  :
    Kept r₀ (abortRunning s) := by
  unfold abortRunning
  repeat' (first | with_reducible assumption | with_reducible apply State.setQueue_kept | with_reducible apply abortStep_kept | with_reducible apply abortAll_kept | (with_reducible apply Kept.foldl; intro _ _ _))

theorem escalationWindowExpiry_kept {r₀ : State} {s : State} (h : Kept r₀ s) (t : Nat) :
    Kept r₀ (escalationWindowExpiry s t) := by
  unfold escalationWindowExpiry
  repeat' (first | with_reducible assumption | with_reducible apply State.atTime_kept | with_reducible apply runComplete_kept | with_reducible apply abortRunning_kept | with_reducible apply Kept.ite | (with_reducible apply Kept.foldl; intro _ _ _) | dsimp only | split | (with_reducible apply Kept.mk_upd; first | with_reducible assumption | with_reducible apply State.atTime_kept | with_reducible apply runComplete_kept | with_reducible apply retainBound_kept | with_reducible apply abortRunning_kept | with_reducible apply Kept.ite | (with_reducible apply Kept.foldl; intro _ _ _) | (with_reducible apply Kept.foldl_fst; intro _ _ _) | (with_reducible apply Kept.foldl_on Rows.s; intro _ _ _) | (with_reducible apply Kept.foldl_on GWork.s; intro _ _ _) | dsimp only | split))

theorem holdRunLimit_kept {r₀ : State} {s : State} (h : Kept r₀ s) (t : Nat) :
    Kept r₀ (holdRunLimit s t) := by
  unfold holdRunLimit
  repeat' (first | with_reducible assumption | with_reducible apply State.atTime_kept | with_reducible apply complete_kept | with_reducible apply abortUnit_kept | with_reducible apply endUnit_kept | with_reducible apply Kept.ite | (with_reducible apply Kept.foldl; intro _ _ _) | split)

theorem hostLoadWaitExpiry_kept {r₀ : State} {s : State} (h : Kept r₀ s) (t : Nat) :
    Kept r₀ (hostLoadWaitExpiry s t) := by
  unfold hostLoadWaitExpiry
  repeat' (first | with_reducible assumption | with_reducible apply State.atTime_kept | with_reducible apply takeFlashRuntime_kept | with_reducible apply Kept.ite | split)

/-! Operations of Machine/RegAccess.lean. -/

theorem clearInt_kept {r₀ : State} {s : State} (h : Kept r₀ s) (ty : Nat) (pg : Nat) (inst : Nat) (v : Nat) :
    Kept r₀ (clearInt s ty pg inst v) := by
  unfold clearInt
  repeat' (first | with_reducible assumption | with_reducible apply State.setF_kept | with_reducible apply State.resetFlds_kept | with_reducible apply Kept.ite)

theorem forceInt_kept {r₀ : State} {s : State} (h : Kept r₀ s) (ty : Nat) (pg : Nat) (inst : Nat) (v : Nat) :
    Kept r₀ (forceInt s ty pg inst v) := by
  unfold forceInt
  repeat' (first | with_reducible assumption | with_reducible apply State.setF_kept)

theorem settlePerf_kept {r₀ : State} {s : State} (h : Kept r₀ s) (ty : Nat) (inst : Nat) :
    Kept r₀ (settlePerf s ty inst) := by
  unfold settlePerf
  repeat' (first | with_reducible assumption | with_reducible apply State.useFree_kept | with_reducible apply State.countF_kept | with_reducible apply Kept.ite)

theorem countAccess_kept {r₀ : State} {s : State} (h : Kept r₀ s) (ty : Nat) (inst : Nat) (pg : Nat) :
    Kept r₀ (countAccess s ty inst pg) := by
  unfold countAccess
  repeat' (first | with_reducible assumption | with_reducible apply State.countF_kept | with_reducible apply Kept.ite)

theorem setPerf_kept {r₀ : State} {s : State} (h : Kept r₀ s) (ty : Nat) (inst : Nat) (v : Nat) :
    Kept r₀ (setPerf s ty inst v) := by
  unfold setPerf
  repeat' (first | with_reducible assumption | with_reducible apply State.setF_kept | with_reducible apply settlePerf_kept)

theorem clearPerf_kept {r₀ : State} {s : State} (h : Kept r₀ s) (ty : Nat) (inst : Nat) :
    Kept r₀ (clearPerf s ty inst) := by
  unfold clearPerf
  repeat' (first | with_reducible assumption | with_reducible apply State.setF_kept | with_reducible apply settlePerf_kept)

theorem setEnable_kept {r₀ : State} {s : State} (h : Kept r₀ s) (ty : Nat) (inst : Nat) (on : Bool) :
    Kept r₀ (setEnable s ty inst on) := by
  unfold setEnable
  repeat' (first | with_reducible assumption | with_reducible apply State.setF_kept | with_reducible apply portEnable_kept | with_reducible apply serveMailbox_kept | with_reducible apply Kept.ite | dsimp only | split)

theorem setFreeze_kept {r₀ : State} {s : State} (h : Kept r₀ s) (ty : Nat) (inst : Nat) (on : Bool) :
    Kept r₀ (setFreeze s ty inst on) := by
  unfold setFreeze
  repeat' (first | with_reducible assumption | with_reducible apply State.setF_kept | with_reducible apply doFreeze_kept | with_reducible apply Kept.ite)

theorem softReset_kept {r₀ : State} {s : State} (h : Kept r₀ s) (ty : Nat) (inst : Nat) :
    Kept r₀ (softReset s ty inst) := by
  unfold softReset
  repeat' (first | with_reducible assumption | with_reducible apply State.resetFlds_kept | with_reducible apply doSoftReset_kept | with_reducible apply clearPerf_kept | with_reducible apply Kept.ite)

theorem writeHeader_kept {r₀ : State} {s : State} (h : Kept r₀ s) (ty : Nat) (inst : Nat) (pg : Nat) (off : Nat) (v : Nat) :
    Kept r₀ (writeHeader s ty inst pg off v) := by
  unfold writeHeader
  repeat' (first | with_reducible assumption | with_reducible apply State.setF_kept | with_reducible apply clearInt_kept | with_reducible apply forceInt_kept | with_reducible apply setPerf_kept | with_reducible apply setEnable_kept | with_reducible apply setFreeze_kept | with_reducible apply softReset_kept | with_reducible apply Kept.ite | dsimp only | split)

theorem writePlain_kept {r₀ : State} {s : State} (h : Kept r₀ s) (a : Actor) (ty : Nat) (inst : Nat) (pg : Nat) (off : Nat) (v : Nat) :
    Kept r₀ (writePlain s a ty inst pg off v) := by
  unfold writePlain
  repeat' (first | with_reducible assumption | with_reducible apply storePart_kept | (with_reducible apply Kept.foldl; intro _ _ _))

theorem writeProgCtrl_kept {r₀ : State} {s : State} (h : Kept r₀ s) (a : Actor) (inst : Nat) (v : Nat) :
    Kept r₀ (writeProgCtrl s a inst v) := by
  unfold writeProgCtrl
  repeat' (first | with_reducible assumption | with_reducible apply doStart_kept | with_reducible apply doAbort_kept | with_reducible apply writePlain_kept | with_reducible apply Kept.ite)

theorem writeBreaker_kept {r₀ : State} {s : State} (h : Kept r₀ s) (a : Actor) (off : Nat) (v : Nat) :
    Kept r₀ (writeBreaker s a off v) := by
  unfold writeBreaker
  repeat' (first | with_reducible assumption | with_reducible apply State.setF_kept | with_reducible apply freqApply_kept | with_reducible apply limitWrite_kept | with_reducible apply cp2Live_kept | with_reducible apply Kept.ite | dsimp only | split)

theorem writeWord_kept {r₀ : State} {s : State} (h : Kept r₀ s) (a : Actor) (ty : Nat) (inst : Nat) (pg : Nat) (off : Nat) (v : Nat) :
    Kept r₀ (writeWord s a ty inst pg off v) := by
  unfold writeWord
  repeat' (first | with_reducible assumption | with_reducible apply regionWrite_kept | with_reducible apply counterClear_kept | with_reducible apply bankReqWrite_kept | with_reducible apply journal_kept | with_reducible apply domainRequest_kept | with_reducible apply pushRequest_kept | with_reducible apply pushOp_kept | with_reducible apply abortOp_kept | with_reducible apply exportGo_kept | with_reducible apply exportAbort_kept | with_reducible apply vSetWrite_kept | with_reducible apply alertClear_kept | with_reducible apply cfgLock_kept | with_reducible apply wdtKick_kept | with_reducible apply countAccess_kept | with_reducible apply writeHeader_kept | with_reducible apply writePlain_kept | with_reducible apply writeProgCtrl_kept | with_reducible apply writeBreaker_kept | with_reducible apply Kept.ite | dsimp only | split)

theorem readParts_kept {r₀ : State} {s : State} (h : Kept r₀ s) (a : Actor) (ty : Nat) (inst : Nat) (pg : Nat) (off : Nat) :
    Kept r₀ ((readParts s a ty inst pg off).1) := by
  unfold readParts
  repeat' (first | with_reducible assumption | (with_reducible apply Kept.foldl_fst; intro _ _ _) | dsimp only | split | (with_reducible apply Kept.mk_upd; first | with_reducible assumption | with_reducible apply Kept.ite | (with_reducible apply Kept.foldl; intro _ _ _) | (with_reducible apply Kept.foldl_fst; intro _ _ _) | (with_reducible apply Kept.foldl_on Rows.s; intro _ _ _) | (with_reducible apply Kept.foldl_on GWork.s; intro _ _ _) | dsimp only | split))

theorem readWord_kept {r₀ : State} {s : State} (h : Kept r₀ s) (a : Actor) (ty : Nat) (inst : Nat) (pg : Nat) (off : Nat) :
    Kept r₀ ((readWord s a ty inst pg off).1) := by
  unfold readWord
  repeat' (first | with_reducible assumption | with_reducible apply settlePerf_kept | with_reducible apply countAccess_kept | with_reducible apply readParts_kept | with_reducible apply Kept.ite | dsimp only | split)

theorem barWrite4_kept {r₀ : State} {s : State} (h : Kept r₀ s) (a : Actor) (addr : Nat) (v : Nat) :
    Kept r₀ (barWrite4 s a addr v) := by
  unfold barWrite4
  repeat' (first | with_reducible assumption | with_reducible apply writeWord_kept | with_reducible apply Kept.ite | split)

theorem barRead4_kept {r₀ : State} {s : State} (h : Kept r₀ s) (a : Actor) (addr : Nat) :
    Kept r₀ ((barRead4 s a addr).1) := by
  unfold barRead4
  repeat' (first | with_reducible assumption | with_reducible apply State.useFree_kept | with_reducible apply readWord_kept | split)

theorem registerWrite_kept {r₀ : State} {s : State} (h : Kept r₀ s) (a : Actor) (addr : Nat) (wide : Bool) (v : Nat) :
    Kept r₀ (registerWrite s a addr wide v) := by
  unfold registerWrite
  repeat' (first | with_reducible assumption | with_reducible apply barWrite4_kept | with_reducible apply Kept.ite)

theorem registerRead_kept {r₀ : State} {s : State} (h : Kept r₀ s) (a : Actor) (addr : Nat) (wide : Bool) :
    Kept r₀ (registerRead s a addr wide) := by
  unfold registerRead
  repeat' (first | with_reducible assumption | with_reducible apply barRead4_kept | with_reducible apply Kept.ite | dsimp only | split | (with_reducible apply Kept.mk_upd; first | with_reducible assumption | with_reducible apply barRead4_kept | with_reducible apply Kept.ite | (with_reducible apply Kept.foldl; intro _ _ _) | (with_reducible apply Kept.foldl_fst; intro _ _ _) | (with_reducible apply Kept.foldl_on Rows.s; intro _ _ _) | (with_reducible apply Kept.foldl_on GWork.s; intro _ _ _) | dsimp only | split))

theorem invalidAccess_kept {r₀ : State} {s : State} (h : Kept r₀ s) (a : Actor) (n : Nat) (write : Bool) :
    Kept r₀ (invalidAccess s a n write) := by
  unfold invalidAccess
  repeat' (first | with_reducible assumption | with_reducible apply Kept.ite | dsimp only | split | (with_reducible apply Kept.mk_upd; first | with_reducible assumption | with_reducible apply State.countF_kept | with_reducible apply Kept.ite | (with_reducible apply Kept.foldl; intro _ _ _) | (with_reducible apply Kept.foldl_fst; intro _ _ _) | (with_reducible apply Kept.foldl_on Rows.s; intro _ _ _) | (with_reducible apply Kept.foldl_on GWork.s; intro _ _ _) | dsimp only | split))

theorem headerCommand_kept {r₀ s : State} (h : Kept r₀ s) (a : Actor) (ty inst pg : Nat) (f : State → State)
    (hf : ∀ x, Kept r₀ x → Kept r₀ (f x)) : Kept r₀ (headerCommand s a ty inst pg f) := by
  unfold headerCommand
  split
  · exact hf _ (countAccess_kept h ty inst pg)
  · exact h

theorem startCommand_kept {r₀ : State} {s : State} (h : Kept r₀ s) (a : Actor) (i : TileId) (entry : Nat) :
    Kept r₀ (startCommand s a i entry) := by
  unfold startCommand
  repeat' (first | with_reducible assumption | with_reducible apply journal_kept | with_reducible apply countAccess_kept | with_reducible apply writeProgCtrl_kept | with_reducible apply Kept.ite)

theorem abortCommand_kept {r₀ : State} {s : State} (h : Kept r₀ s) (a : Actor) (i : TileId) :
    Kept r₀ (abortCommand s a i) := by
  unfold abortCommand
  repeat' (first | with_reducible assumption | with_reducible apply doAbort_kept | with_reducible apply countAccess_kept | with_reducible apply Kept.ite)

theorem queryDomain_kept {r₀ : State} {s : State} (h : Kept r₀ s) (a : Actor) (d : Nat) :
    Kept r₀ (queryDomain s a d) := by
  unfold queryDomain
  repeat' (first | with_reducible assumption | with_reducible apply State.setF_kept | with_reducible apply countAccess_kept | with_reducible apply Kept.ite)

theorem exportCommand_kept {r₀ s : State} (h : Kept r₀ s) (a : Actor) (f : State → State)
    (hf : ∀ x, Kept r₀ x → Kept r₀ (f x)) : Kept r₀ (exportCommand s a f) := by
  unfold exportCommand
  split
  · exact hf _ (countAccess_kept h 14 0 0)
  · exact h

/-! Operations of Machine/Bundle.lean. -/

theorem tick_kept {r₀ : State} {s : State} (h : Kept r₀ s)  :
    Kept r₀ (tick s) := by
  unfold tick
  repeat' (first | with_reducible assumption | with_reducible apply State.useFree_kept | with_reducible apply issueBundle_kept | dsimp only | split)

end Sys2Proof.Machine
end

