-- ==== Sys2Proof/Laws/KeptCommands.lean ====
section
/-! SUPPORT. What every command keeps, one lemma per meaning. -/

namespace Sys2Proof.Machine

set_option Elab.async false
set_option linter.all false

theorem execVAdd_kept {s u : State} (c : Issue) (f : VecF) (h : execVAdd c f s = .next u) : Kept s u := by
  unfold execVAdd at h
  injection h with h
  subst h
  repeat' first | with_reducible assumption | with_reducible exact Kept.refl s | with_reducible apply issueSlot_kept

theorem execVSub_kept {s u : State} (c : Issue) (f : VecF) (h : execVSub c f s = .next u) : Kept s u := by
  unfold execVSub at h
  injection h with h
  subst h
  repeat' first | with_reducible assumption | with_reducible exact Kept.refl s | with_reducible apply issueSlot_kept

theorem execVMul_kept {s u : State} (c : Issue) (f : VecF) (h : execVMul c f s = .next u) : Kept s u := by
  unfold execVMul at h
  injection h with h
  subst h
  repeat' first | with_reducible assumption | with_reducible exact Kept.refl s | with_reducible apply issueSlot_kept

theorem execVFma_kept {s u : State} (c : Issue) (f : VecF) (h : execVFma c f s = .next u) : Kept s u := by
  unfold execVFma at h
  injection h with h
  subst h
  repeat' first | with_reducible assumption | with_reducible exact Kept.refl s | with_reducible apply issueSlot_kept

theorem execVMin_kept {s u : State} (c : Issue) (f : VecF) (h : execVMin c f s = .next u) : Kept s u := by
  unfold execVMin at h
  injection h with h
  subst h
  repeat' first | with_reducible assumption | with_reducible exact Kept.refl s | with_reducible apply issueSlot_kept

theorem execVMax_kept {s u : State} (c : Issue) (f : VecF) (h : execVMax c f s = .next u) : Kept s u := by
  unfold execVMax at h
  injection h with h
  subst h
  repeat' first | with_reducible assumption | with_reducible exact Kept.refl s | with_reducible apply issueSlot_kept

theorem execVAbs_kept {s u : State} (c : Issue) (f : VecF) (h : execVAbs c f s = .next u) : Kept s u := by
  unfold execVAbs at h
  injection h with h
  subst h
  repeat' first | with_reducible assumption | with_reducible exact Kept.refl s | with_reducible apply issueSlot_kept

theorem execExp_kept {s u : State} (c : Issue) (f : VecF) (h : execExp c f s = .next u) : Kept s u := by
  unfold execExp at h
  injection h with h
  subst h
  repeat' first | with_reducible assumption | with_reducible exact Kept.refl s | with_reducible apply issueSlot_kept

theorem execLog_kept {s u : State} (c : Issue) (f : VecF) (h : execLog c f s = .next u) : Kept s u := by
  unfold execLog at h
  injection h with h
  subst h
  repeat' first | with_reducible assumption | with_reducible exact Kept.refl s | with_reducible apply issueSlot_kept

theorem execRcp_kept {s u : State} (c : Issue) (f : VecF) (h : execRcp c f s = .next u) : Kept s u := by
  unfold execRcp at h
  injection h with h
  subst h
  repeat' first | with_reducible assumption | with_reducible exact Kept.refl s | with_reducible apply issueSlot_kept

theorem execRsqrt_kept {s u : State} (c : Issue) (f : VecF) (h : execRsqrt c f s = .next u) : Kept s u := by
  unfold execRsqrt at h
  injection h with h
  subst h
  repeat' first | with_reducible assumption | with_reducible exact Kept.refl s | with_reducible apply issueSlot_kept

theorem execCvt_kept {s u : State} (c : Issue) (f : VecF) (h : execCvt c f s = .next u) : Kept s u := by
  unfold execCvt at h
  injection h with h
  subst h
  repeat' first | with_reducible assumption | with_reducible exact Kept.refl s | with_reducible apply issueSlot_kept

theorem execVEq_kept {s u : State} (c : Issue) (f : VecF) (h : execVEq c f s = .next u) : Kept s u := by
  unfold execVEq at h
  injection h with h
  subst h
  repeat' first | with_reducible assumption | with_reducible exact Kept.refl s | with_reducible apply issueSlot_kept

theorem execVNe_kept {s u : State} (c : Issue) (f : VecF) (h : execVNe c f s = .next u) : Kept s u := by
  unfold execVNe at h
  injection h with h
  subst h
  repeat' first | with_reducible assumption | with_reducible exact Kept.refl s | with_reducible apply issueSlot_kept

theorem execVLt_kept {s u : State} (c : Issue) (f : VecF) (h : execVLt c f s = .next u) : Kept s u := by
  unfold execVLt at h
  injection h with h
  subst h
  repeat' first | with_reducible assumption | with_reducible exact Kept.refl s | with_reducible apply issueSlot_kept

theorem execVLe_kept {s u : State} (c : Issue) (f : VecF) (h : execVLe c f s = .next u) : Kept s u := by
  unfold execVLe at h
  injection h with h
  subst h
  repeat' first | with_reducible assumption | with_reducible exact Kept.refl s | with_reducible apply issueSlot_kept

theorem execVGt_kept {s u : State} (c : Issue) (f : VecF) (h : execVGt c f s = .next u) : Kept s u := by
  unfold execVGt at h
  injection h with h
  subst h
  repeat' first | with_reducible assumption | with_reducible exact Kept.refl s | with_reducible apply issueSlot_kept

theorem execVGe_kept {s u : State} (c : Issue) (f : VecF) (h : execVGe c f s = .next u) : Kept s u := by
  unfold execVGe at h
  injection h with h
  subst h
  repeat' first | with_reducible assumption | with_reducible exact Kept.refl s | with_reducible apply issueSlot_kept

theorem execUnord_kept {s u : State} (c : Issue) (f : VecF) (h : execUnord c f s = .next u) : Kept s u := by
  unfold execUnord at h
  injection h with h
  subst h
  repeat' first | with_reducible assumption | with_reducible exact Kept.refl s | with_reducible apply issueSlot_kept

theorem execIeq_kept {s u : State} (c : Issue) (f : VecF) (h : execIeq c f s = .next u) : Kept s u := by
  unfold execIeq at h
  injection h with h
  subst h
  repeat' first | with_reducible assumption | with_reducible exact Kept.refl s | with_reducible apply issueSlot_kept

theorem execIne_kept {s u : State} (c : Issue) (f : VecF) (h : execIne c f s = .next u) : Kept s u := by
  unfold execIne at h
  injection h with h
  subst h
  repeat' first | with_reducible assumption | with_reducible exact Kept.refl s | with_reducible apply issueSlot_kept

theorem execIlt_kept {s u : State} (c : Issue) (f : VecF) (h : execIlt c f s = .next u) : Kept s u := by
  unfold execIlt at h
  injection h with h
  subst h
  repeat' first | with_reducible assumption | with_reducible exact Kept.refl s | with_reducible apply issueSlot_kept

theorem execIle_kept {s u : State} (c : Issue) (f : VecF) (h : execIle c f s = .next u) : Kept s u := by
  unfold execIle at h
  injection h with h
  subst h
  repeat' first | with_reducible assumption | with_reducible exact Kept.refl s | with_reducible apply issueSlot_kept

theorem execIltu_kept {s u : State} (c : Issue) (f : VecF) (h : execIltu c f s = .next u) : Kept s u := by
  unfold execIltu at h
  injection h with h
  subst h
  repeat' first | with_reducible assumption | with_reducible exact Kept.refl s | with_reducible apply issueSlot_kept

theorem execIleu_kept {s u : State} (c : Issue) (f : VecF) (h : execIleu c f s = .next u) : Kept s u := by
  unfold execIleu at h
  injection h with h
  subst h
  repeat' first | with_reducible assumption | with_reducible exact Kept.refl s | with_reducible apply issueSlot_kept

theorem execIadd_kept {s u : State} (c : Issue) (f : VecF) (h : execIadd c f s = .next u) : Kept s u := by
  unfold execIadd at h
  injection h with h
  subst h
  repeat' first | with_reducible assumption | with_reducible exact Kept.refl s | with_reducible apply issueSlot_kept

theorem execIsub_kept {s u : State} (c : Issue) (f : VecF) (h : execIsub c f s = .next u) : Kept s u := by
  unfold execIsub at h
  injection h with h
  subst h
  repeat' first | with_reducible assumption | with_reducible exact Kept.refl s | with_reducible apply issueSlot_kept

theorem execVAnd_kept {s u : State} (c : Issue) (f : VecF) (h : execVAnd c f s = .next u) : Kept s u := by
  unfold execVAnd at h
  injection h with h
  subst h
  repeat' first | with_reducible assumption | with_reducible exact Kept.refl s | with_reducible apply issueSlot_kept

theorem execVOr_kept {s u : State} (c : Issue) (f : VecF) (h : execVOr c f s = .next u) : Kept s u := by
  unfold execVOr at h
  injection h with h
  subst h
  repeat' first | with_reducible assumption | with_reducible exact Kept.refl s | with_reducible apply issueSlot_kept

theorem execVXor_kept {s u : State} (c : Issue) (f : VecF) (h : execVXor c f s = .next u) : Kept s u := by
  unfold execVXor at h
  injection h with h
  subst h
  repeat' first | with_reducible assumption | with_reducible exact Kept.refl s | with_reducible apply issueSlot_kept

theorem execVShl_kept {s u : State} (c : Issue) (f : VecF) (h : execVShl c f s = .next u) : Kept s u := by
  unfold execVShl at h
  injection h with h
  subst h
  repeat' first | with_reducible assumption | with_reducible exact Kept.refl s | with_reducible apply issueSlot_kept

theorem execVShr_kept {s u : State} (c : Issue) (f : VecF) (h : execVShr c f s = .next u) : Kept s u := by
  unfold execVShr at h
  injection h with h
  subst h
  repeat' first | with_reducible assumption | with_reducible exact Kept.refl s | with_reducible apply issueSlot_kept

theorem execVSra_kept {s u : State} (c : Issue) (f : VecF) (h : execVSra c f s = .next u) : Kept s u := by
  unfold execVSra at h
  injection h with h
  subst h
  repeat' first | with_reducible assumption | with_reducible exact Kept.refl s | with_reducible apply issueSlot_kept

theorem execPerm_kept {s u : State} (c : Issue) (f : VecF) (h : execPerm c f s = .next u) : Kept s u := by
  unfold execPerm at h
  injection h with h
  subst h
  repeat' first | with_reducible assumption | with_reducible exact Kept.refl s | with_reducible apply issueSlot_kept

theorem execRot_kept {s u : State} (c : Issue) (f : VecF) (h : execRot c f s = .next u) : Kept s u := by
  unfold execRot at h
  injection h with h
  subst h
  repeat' first | with_reducible assumption | with_reducible exact Kept.refl s | with_reducible apply issueSlot_kept

theorem execRsum_kept {s u : State} (c : Issue) (f : VecF) (h : execRsum c f s = .next u) : Kept s u := by
  unfold execRsum at h
  injection h with h
  subst h
  repeat' first | with_reducible assumption | with_reducible exact Kept.refl s | with_reducible apply issueSlot_kept

theorem execRmax_kept {s u : State} (c : Issue) (f : VecF) (h : execRmax c f s = .next u) : Kept s u := by
  unfold execRmax at h
  injection h with h
  subst h
  repeat' first | with_reducible assumption | with_reducible exact Kept.refl s | with_reducible apply issueSlot_kept

theorem execRmin_kept {s u : State} (c : Issue) (f : VecF) (h : execRmin c f s = .next u) : Kept s u := by
  unfold execRmin at h
  injection h with h
  subst h
  repeat' first | with_reducible assumption | with_reducible exact Kept.refl s | with_reducible apply issueSlot_kept

theorem execMov_kept {s u : State} (c : Issue) (f : VecF) (h : execMov c f s = .next u) : Kept s u := by
  unfold execMov at h
  injection h with h
  subst h
  repeat' first | with_reducible assumption | with_reducible exact Kept.refl s | with_reducible apply issueSlot_kept

theorem execBcast_kept {s u : State} (c : Issue) (f : VecF) (h : execBcast c f s = .next u) : Kept s u := by
  unfold execBcast at h
  injection h with h
  subst h
  repeat' first | with_reducible assumption | with_reducible exact Kept.refl s | with_reducible apply issueSlot_kept

theorem execSel_kept {s u : State} (c : Issue) (f : VecF) (h : execSel c f s = .next u) : Kept s u := by
  unfold execSel at h
  injection h with h
  subst h
  repeat' first | with_reducible assumption | with_reducible exact Kept.refl s | with_reducible apply issueSlot_kept

theorem execIota_kept {s u : State} (c : Issue) (f : VecF) (h : execIota c f s = .next u) : Kept s u := by
  unfold execIota at h
  injection h with h
  subst h
  repeat' first | with_reducible assumption | with_reducible exact Kept.refl s | with_reducible apply issueSlot_kept

theorem execSaluAdd_kept {s u : State} (c : Issue) (f : CtlF) (h : execSaluAdd c f s = .next u) : Kept s u := by
  unfold execSaluAdd at h
  injection h with h
  subst h
  repeat' first | with_reducible assumption | with_reducible exact Kept.refl s | with_reducible apply issueSlot_kept

theorem execSaluSub_kept {s u : State} (c : Issue) (f : CtlF) (h : execSaluSub c f s = .next u) : Kept s u := by
  unfold execSaluSub at h
  injection h with h
  subst h
  repeat' first | with_reducible assumption | with_reducible exact Kept.refl s | with_reducible apply issueSlot_kept

theorem execSaluAnd_kept {s u : State} (c : Issue) (f : CtlF) (h : execSaluAnd c f s = .next u) : Kept s u := by
  unfold execSaluAnd at h
  injection h with h
  subst h
  repeat' first | with_reducible assumption | with_reducible exact Kept.refl s | with_reducible apply issueSlot_kept

theorem execSaluOr_kept {s u : State} (c : Issue) (f : CtlF) (h : execSaluOr c f s = .next u) : Kept s u := by
  unfold execSaluOr at h
  injection h with h
  subst h
  repeat' first | with_reducible assumption | with_reducible exact Kept.refl s | with_reducible apply issueSlot_kept

theorem execSaluXor_kept {s u : State} (c : Issue) (f : CtlF) (h : execSaluXor c f s = .next u) : Kept s u := by
  unfold execSaluXor at h
  injection h with h
  subst h
  repeat' first | with_reducible assumption | with_reducible exact Kept.refl s | with_reducible apply issueSlot_kept

theorem execSaluShl_kept {s u : State} (c : Issue) (f : CtlF) (h : execSaluShl c f s = .next u) : Kept s u := by
  unfold execSaluShl at h
  injection h with h
  subst h
  repeat' first | with_reducible assumption | with_reducible exact Kept.refl s | with_reducible apply issueSlot_kept

theorem execSaluShr_kept {s u : State} (c : Issue) (f : CtlF) (h : execSaluShr c f s = .next u) : Kept s u := by
  unfold execSaluShr at h
  injection h with h
  subst h
  repeat' first | with_reducible assumption | with_reducible exact Kept.refl s | with_reducible apply issueSlot_kept

theorem execSaluSra_kept {s u : State} (c : Issue) (f : CtlF) (h : execSaluSra c f s = .next u) : Kept s u := by
  unfold execSaluSra at h
  injection h with h
  subst h
  repeat' first | with_reducible assumption | with_reducible exact Kept.refl s | with_reducible apply issueSlot_kept

theorem execAddi_kept {s u : State} (c : Issue) (f : CtlF) (h : execAddi c f s = .next u) : Kept s u := by
  unfold execAddi at h
  injection h with h
  subst h
  repeat' first | with_reducible assumption | with_reducible exact Kept.refl s | with_reducible apply issueSlot_kept

theorem execSmul_kept {s u : State} (c : Issue) (f : CtlF) (h : execSmul c f s = .next u) : Kept s u := by
  unfold execSmul at h
  injection h with h
  subst h
  repeat' first | with_reducible assumption | with_reducible exact Kept.refl s | with_reducible apply issueSlot_kept

theorem execLi_kept {s u : State} (c : Issue) (f : CtlF) (h : execLi c f s = .next u) : Kept s u := by
  unfold execLi at h
  injection h with h
  subst h
  repeat' first | with_reducible assumption | with_reducible exact Kept.refl s | with_reducible apply issueSlot_kept

theorem execBr_kept {s u : State} (c : Issue) (f : CtlF) (h : execBr c f s = .next u) : Kept s u := by
  unfold execBr at h
  injection h with h
  subst h
  repeat' first | with_reducible assumption | with_reducible exact Kept.refl s | with_reducible apply issueSlot_kept

theorem execLoop_kept {s u : State} (c : Issue) (f : CtlF) (h : execLoop c f s = .next u) : Kept s u := by
  unfold execLoop at h
  injection h with h
  subst h
  repeat' first | with_reducible assumption | with_reducible exact Kept.refl s | with_reducible apply issueSlot_kept

theorem execWait_kept {s u : State} (c : Issue) (f : CtlF) (h : execWait c f s = .next u) : Kept s u := by
  unfold execWait at h
  injection h with h
  subst h
  repeat' first | with_reducible assumption | with_reducible exact Kept.refl s | with_reducible apply issueSlot_kept

theorem execTime_kept {s u : State} (c : Issue) (f : CtlF) (h : execTime c f s = .next u) : Kept s u := by
  unfold execTime at h
  injection h with h
  subst h
  repeat' first | with_reducible assumption | with_reducible exact Kept.refl s | with_reducible apply issueSlot_kept

theorem execPsetEq_kept {s u : State} (c : Issue) (f : CtlF) (h : execPsetEq c f s = .next u) : Kept s u := by
  unfold execPsetEq at h
  injection h with h
  subst h
  repeat' first | with_reducible assumption | with_reducible exact Kept.refl s | with_reducible apply issueSlot_kept

theorem execPsetNe_kept {s u : State} (c : Issue) (f : CtlF) (h : execPsetNe c f s = .next u) : Kept s u := by
  unfold execPsetNe at h
  injection h with h
  subst h
  repeat' first | with_reducible assumption | with_reducible exact Kept.refl s | with_reducible apply issueSlot_kept

theorem execPsetLt_kept {s u : State} (c : Issue) (f : CtlF) (h : execPsetLt c f s = .next u) : Kept s u := by
  unfold execPsetLt at h
  injection h with h
  subst h
  repeat' first | with_reducible assumption | with_reducible exact Kept.refl s | with_reducible apply issueSlot_kept

theorem execPsetLe_kept {s u : State} (c : Issue) (f : CtlF) (h : execPsetLe c f s = .next u) : Kept s u := by
  unfold execPsetLe at h
  injection h with h
  subst h
  repeat' first | with_reducible assumption | with_reducible exact Kept.refl s | with_reducible apply issueSlot_kept

theorem execPsetGt_kept {s u : State} (c : Issue) (f : CtlF) (h : execPsetGt c f s = .next u) : Kept s u := by
  unfold execPsetGt at h
  injection h with h
  subst h
  repeat' first | with_reducible assumption | with_reducible exact Kept.refl s | with_reducible apply issueSlot_kept

theorem execPsetGe_kept {s u : State} (c : Issue) (f : CtlF) (h : execPsetGe c f s = .next u) : Kept s u := by
  unfold execPsetGe at h
  injection h with h
  subst h
  repeat' first | with_reducible assumption | with_reducible exact Kept.refl s | with_reducible apply issueSlot_kept

theorem execPsetLtu_kept {s u : State} (c : Issue) (f : CtlF) (h : execPsetLtu c f s = .next u) : Kept s u := by
  unfold execPsetLtu at h
  injection h with h
  subst h
  repeat' first | with_reducible assumption | with_reducible exact Kept.refl s | with_reducible apply issueSlot_kept

theorem execPsetGeu_kept {s u : State} (c : Issue) (f : CtlF) (h : execPsetGeu c f s = .next u) : Kept s u := by
  unfold execPsetGeu at h
  injection h with h
  subst h
  repeat' first | with_reducible assumption | with_reducible exact Kept.refl s | with_reducible apply issueSlot_kept

theorem execHalt_kept {s u : State} (c : Issue) (f : CtlF) (h : execHalt c f s = .next u) : Kept s u := by
  unfold execHalt at h
  injection h with h
  subst h
  repeat' first | with_reducible assumption | with_reducible exact Kept.refl s | with_reducible apply issueSlot_kept

theorem execIssue_kept {s u : State} (c : Issue) (f : CtlF) (h : execIssue c f s = .next u) : Kept s u := by
  unfold execIssue at h
  injection h with h
  subst h
  repeat' first | with_reducible assumption | with_reducible exact Kept.refl s | with_reducible apply issueSlot_kept

theorem execMstat_kept {s u : State} (c : Issue) (f : CtlF) (h : execMstat c f s = .next u) : Kept s u := by
  unfold execMstat at h
  injection h with h
  subst h
  repeat' first | with_reducible assumption | with_reducible exact Kept.refl s | with_reducible apply issueSlot_kept

theorem execGstatq_kept {s u : State} (c : Issue) (f : CtlF) (h : execGstatq c f s = .next u) : Kept s u := by
  unfold execGstatq at h
  injection h with h
  subst h
  repeat' first | with_reducible assumption | with_reducible exact Kept.refl s | with_reducible apply issueSlot_kept

theorem execSend_kept {s u : State} (c : Issue) (f : MsgF) (h : execSend c f s = .next u) : Kept s u := by
  unfold execSend at h
  injection h with h
  subst h
  repeat' first | with_reducible assumption | with_reducible exact Kept.refl s | with_reducible apply issueSlot_kept

theorem execSendr_kept {s u : State} (c : Issue) (f : MsgF) (h : execSendr c f s = .next u) : Kept s u := by
  unfold execSendr at h
  injection h with h
  subst h
  repeat' first | with_reducible assumption | with_reducible exact Kept.refl s | with_reducible apply issueSlot_kept

theorem execRecv_kept {s u : State} (c : Issue) (f : MsgF) (h : execRecv c f s = .next u) : Kept s u := by
  unfold execRecv at h
  injection h with h
  subst h
  repeat' first | with_reducible assumption | with_reducible exact Kept.refl s | with_reducible apply issueSlot_kept

theorem execRecvt_kept {s u : State} (c : Issue) (f : MsgF) (h : execRecvt c f s = .next u) : Kept s u := by
  unfold execRecvt at h
  injection h with h
  subst h
  repeat' first | with_reducible assumption | with_reducible exact Kept.refl s | with_reducible apply issueSlot_kept

theorem execDpoll_kept {s u : State} (c : Issue) (f : MsgF) (h : execDpoll c f s = .next u) : Kept s u := by
  unfold execDpoll at h
  injection h with h
  subst h
  repeat' first | with_reducible assumption | with_reducible exact Kept.refl s | with_reducible apply issueSlot_kept

theorem execLd_kept {s u : State} (c : Issue) (f : AccF) (wait : Fin 41) (h : execLd c f wait s = .next u) : Kept s u := by
  unfold execLd at h
  injection h with h
  subst h
  repeat' first | with_reducible assumption | with_reducible exact Kept.refl s | with_reducible apply issueSlot_kept

theorem execSt_kept {s u : State} (c : Issue) (f : AccF) (wait : Fin 41) (h : execSt c f wait s = .next u) : Kept s u := by
  unfold execSt at h
  injection h with h
  subst h
  repeat' first | with_reducible assumption | with_reducible exact Kept.refl s | with_reducible apply issueSlot_kept

theorem execDgo_kept {s u : State} (c : Issue) (f : AccF) (h : execDgo c f s = .next u) : Kept s u := by
  unfold execDgo at h
  injection h with h
  subst h
  repeat' first | with_reducible assumption | with_reducible exact Kept.refl s | with_reducible apply issueSlot_kept

theorem execDwait_kept {s u : State} (c : Issue) (f : AccF) (h : execDwait c f s = .next u) : Kept s u := by
  unfold execDwait at h
  injection h with h
  subst h
  repeat' first | with_reducible assumption | with_reducible exact Kept.refl s | with_reducible apply issueSlot_kept

theorem execFence_kept {s u : State} (c : Issue) (f : AccF) (h : execFence c f s = .next u) : Kept s u := by
  unfold execFence at h
  injection h with h
  subst h
  repeat' first | with_reducible assumption | with_reducible exact Kept.refl s | with_reducible apply issueSlot_kept

theorem execMode_kept {s u : State} (c : Issue) (f : ArrF) (h : execMode c f s = .next u) : Kept s u := by
  unfold execMode at h
  injection h with h
  subst h
  repeat' first | with_reducible assumption | with_reducible exact Kept.refl s | with_reducible apply issueSlot_kept

theorem execWload_kept {s u : State} (c : Issue) (f : ArrF) (h : execWload c f s = .next u) : Kept s u := by
  unfold execWload at h
  injection h with h
  subst h
  repeat' first | with_reducible assumption | with_reducible exact Kept.refl s | with_reducible apply issueSlot_kept

theorem execMm_kept {s u : State} (c : Issue) (f : ArrF) (h : execMm c f s = .next u) : Kept s u := by
  unfold execMm at h
  injection h with h
  subst h
  repeat' first | with_reducible assumption | with_reducible exact Kept.refl s | with_reducible apply issueSlot_kept

theorem execDrain_kept {s u : State} (c : Issue) (f : ArrF) (h : execDrain c f s = .next u) : Kept s u := by
  unfold execDrain at h
  injection h with h
  subst h
  repeat' first | with_reducible assumption | with_reducible exact Kept.refl s | with_reducible apply issueSlot_kept

theorem execGstat_kept {s u : State} (c : Issue) (f : ArrF) (h : execGstat c f s = .next u) : Kept s u := by
  unfold execGstat at h
  injection h with h
  subst h
  repeat' first | with_reducible assumption | with_reducible exact Kept.refl s | with_reducible apply issueSlot_kept

theorem execBindFeed_kept {s u : State} (c : Issue) (f : ArrF) (h : execBindFeed c f s = .next u) : Kept s u := by
  unfold execBindFeed at h
  injection h with h
  subst h
  repeat' first | with_reducible assumption | with_reducible exact Kept.refl s | with_reducible apply issueSlot_kept

theorem execBindDrain_kept {s u : State} (c : Issue) (f : ArrF) (h : execBindDrain c f s = .next u) : Kept s u := by
  unfold execBindDrain at h
  injection h with h
  subst h
  repeat' first | with_reducible assumption | with_reducible exact Kept.refl s | with_reducible apply issueSlot_kept

theorem execDrainCfg_kept {s u : State} (c : Issue) (f : ArrF) (h : execDrainCfg c f s = .next u) : Kept s u := by
  unfold execDrainCfg at h
  injection h with h
  subst h
  repeat' first | with_reducible assumption | with_reducible exact Kept.refl s | with_reducible apply issueSlot_kept

theorem execResetWalk_kept {s u : State} (c : Issue) (f : ArrF) (h : execResetWalk c f s = .next u) : Kept s u := by
  unfold execResetWalk at h
  injection h with h
  subst h
  repeat' first | with_reducible assumption | with_reducible exact Kept.refl s | with_reducible apply issueSlot_kept

theorem execWaitExpiry_kept {s u : State} (tile : TileId) (h : execWaitExpiry tile s = .next u) : Kept s u := by
  unfold execWaitExpiry at h
  injection h with h
  subst h
  repeat' first | with_reducible assumption | with_reducible exact Kept.refl s | with_reducible apply countedStallEnd_kept

theorem execProgramHalted_kept {s u : State} (tile : TileId) (cyc : Nat) (h : execProgramHalted tile cyc s = .next u) : Kept s u := by
  unfold execProgramHalted at h
  injection h with h
  subst h
  repeat' first | with_reducible assumption | with_reducible exact Kept.refl s | with_reducible apply programHalted_kept

theorem execModeComplete_kept {s u : State} (tile : TileId) (h : execModeComplete tile s = .next u) : Kept s u := by
  unfold execModeComplete at h
  injection h with h
  subst h
  repeat' first | with_reducible assumption | with_reducible exact Kept.refl s | with_reducible apply countedStallEnd_kept

theorem execDrainComplete_kept {s u : State} (tile : TileId) (cyc : Nat) (h : execDrainComplete tile cyc s = .next u) : Kept s u := by
  unfold execDrainComplete at h
  injection h with h
  subst h
  repeat' first | with_reducible assumption | with_reducible exact Kept.refl s | with_reducible apply drainEnd_kept

theorem execStallLimit_kept {s u : State} (tile : TileId) (h : execStallLimit tile s = .next u) : Kept s u := by
  unfold execStallLimit at h
  injection h with h
  subst h
  repeat' first | with_reducible assumption | with_reducible exact Kept.refl s | with_reducible apply stallLimit_kept

theorem execFenceComplete_kept {s u : State} (tile : TileId) (h : execFenceComplete tile s = .next u) : Kept s u := by
  unfold execFenceComplete at h
  injection h with h
  subst h
  repeat' first | with_reducible assumption | with_reducible exact Kept.refl s | with_reducible apply fenceEnd_kept

theorem execTranscendentalUnitFree_kept {s u : State} (tile : TileId) (h : execTranscendentalUnitFree tile s = .next u) : Kept s u := by
  unfold execTranscendentalUnitFree at h
  injection h with h
  subst h
  repeat' first | with_reducible assumption | with_reducible exact Kept.refl s | with_reducible apply transEnd_kept

theorem execMessageArrival_kept {s u : State} (tile : TileId) (door : BitVec 4) (src : ArrivalSrc) (time : Nat) (cyc : Nat) (h : execMessageArrival tile door src time cyc s = .next u) : Kept s u := by
  unfold execMessageArrival at h
  injection h with h
  subst h
  repeat' first | with_reducible assumption | with_reducible exact Kept.refl s | with_reducible apply messageArrival_kept

theorem execCreditReturn_kept {s u : State} (tile : TileId) (src : CreditSrc) (cyc : Nat) (h : execCreditReturn tile src cyc s = .next u) : Kept s u := by
  unfold execCreditReturn at h
  injection h with h
  subst h
  repeat' first | with_reducible assumption | with_reducible exact Kept.refl s | with_reducible apply creditReturn_kept

theorem execRecvtExpiry_kept {s u : State} (tile : TileId) (time : Nat) (cyc : Nat) (h : execRecvtExpiry tile time cyc s = .next u) : Kept s u := by
  unfold execRecvtExpiry at h
  injection h with h
  subst h
  repeat' first | with_reducible assumption | with_reducible exact Kept.refl s | with_reducible apply recvtExpiry_kept

theorem execArrayCommandStart_kept {s u : State} (tile : TileId) (b : Bool) (cyc : Waited) (h : execArrayCommandStart tile b cyc s = .next u) : Kept s u := by
  unfold execArrayCommandStart at h
  injection h with h
  subst h
  repeat' first | with_reducible assumption | with_reducible exact Kept.refl s | with_reducible apply arrayStart_kept

theorem execMmDrained_kept {s u : State} (tile : TileId) (b : Bool) (wait : Vector Nat 8) (press : Vector Nat 8) (cyc : Nat) (h : execMmDrained tile b wait press cyc s = .next u) : Kept s u := by
  unfold execMmDrained at h
  injection h with h
  subst h
  repeat' first | with_reducible assumption | with_reducible exact Kept.refl s | with_reducible apply mmDrained_kept

theorem execDramToPantry_kept {s u : State} (tile : TileId) (h : Fin 16) (rows : Nat) (cyc : MoveAt) (h : execDramToPantry tile h rows cyc s = .next u) : Kept s u := by
  unfold execDramToPantry at h
  injection h with h
  subst h
  repeat' first | with_reducible assumption | with_reducible exact Kept.refl s | with_reducible apply moveDesc_kept

theorem execPantryToDram_kept {s u : State} (tile : TileId) (h : Fin 16) (rows : Nat) (cyc : MoveAt) (h : execPantryToDram tile h rows cyc s = .next u) : Kept s u := by
  unfold execPantryToDram at h
  injection h with h
  subst h
  repeat' first | with_reducible assumption | with_reducible exact Kept.refl s | with_reducible apply moveDesc_kept

theorem execPantryToPantry_kept {s u : State} (tile : TileId) (h : Fin 16) (rows : Nat) (cyc : MoveAt) (h : execPantryToPantry tile h rows cyc s = .next u) : Kept s u := by
  unfold execPantryToPantry at h
  injection h with h
  subst h
  repeat' first | with_reducible assumption | with_reducible exact Kept.refl s | with_reducible apply moveDesc_kept

theorem execPantryToTile_kept {s u : State} (tile : TileId) (h : Fin 16) (rows : Nat) (cyc : MoveAt) (h : execPantryToTile tile h rows cyc s = .next u) : Kept s u := by
  unfold execPantryToTile at h
  injection h with h
  subst h
  repeat' first | with_reducible assumption | with_reducible exact Kept.refl s | with_reducible apply moveDesc_kept

theorem execFill_kept {s u : State} (tile : TileId) (h : Fin 16) (rows : Nat) (cyc : MoveAt) (h : execFill tile h rows cyc s = .next u) : Kept s u := by
  unfold execFill at h
  injection h with h
  subst h
  repeat' first | with_reducible assumption | with_reducible exact Kept.refl s | with_reducible apply moveDesc_kept

theorem execDescriptorComplete_kept {s u : State} (tile : TileId) (h : Fin 16) (cyc : Nat) (waited : Nat) (h : execDescriptorComplete tile h cyc waited s = .next u) : Kept s u := by
  unfold execDescriptorComplete at h
  injection h with h
  subst h
  repeat' first | with_reducible assumption | with_reducible exact Kept.refl s | with_reducible apply descComplete_kept

theorem execGstatAttach_kept {s u : State} (tile : TileId) (waited : Nat) (cyc : Nat) (h : execGstatAttach tile waited cyc s = .next u) : Kept s u := by
  unfold execGstatAttach at h
  injection h with h
  subst h
  repeat' first | with_reducible assumption | with_reducible exact Kept.refl s | with_reducible apply gstatAttach_kept

theorem execGstatComplete_kept {s u : State} (tile : TileId) (cyc : Waited) (h : execGstatComplete tile cyc s = .next u) : Kept s u := by
  unfold execGstatComplete at h
  injection h with h
  subst h
  repeat' first | with_reducible assumption | with_reducible exact Kept.refl s | with_reducible apply gstatComplete_kept

theorem execRoot_kept {s u : State} (tile : TileId) (cyc : Nat) (h : execRoot tile cyc s = .next u) : Kept s u := by
  unfold execRoot at h
  injection h with h
  subst h
  repeat' first | with_reducible assumption | with_reducible exact Kept.refl s | with_reducible apply marverBegin_kept

theorem execNsinv_kept {s u : State} (tile : TileId) (cyc : Nat) (h : execNsinv tile cyc s = .next u) : Kept s u := by
  unfold execNsinv at h
  injection h with h
  subst h
  repeat' first | with_reducible assumption | with_reducible exact Kept.refl s | with_reducible apply marverBegin_kept

theorem execChol_kept {s u : State} (tile : TileId) (cyc : Nat) (h : execChol tile cyc s = .next u) : Kept s u := by
  unfold execChol at h
  injection h with h
  subst h
  repeat' first | with_reducible assumption | with_reducible exact Kept.refl s | with_reducible apply marverBegin_kept

theorem execTrsvL_kept {s u : State} (tile : TileId) (cyc : Nat) (h : execTrsvL tile cyc s = .next u) : Kept s u := by
  unfold execTrsvL at h
  injection h with h
  subst h
  repeat' first | with_reducible assumption | with_reducible exact Kept.refl s | with_reducible apply marverBegin_kept

theorem execTrsvLt_kept {s u : State} (tile : TileId) (cyc : Nat) (h : execTrsvLt tile cyc s = .next u) : Kept s u := by
  unfold execTrsvLt at h
  injection h with h
  subst h
  repeat' first | with_reducible assumption | with_reducible exact Kept.refl s | with_reducible apply marverBegin_kept

theorem execCholsolve_kept {s u : State} (tile : TileId) (cyc : Nat) (h : execCholsolve tile cyc s = .next u) : Kept s u := by
  unfold execCholsolve at h
  injection h with h
  subst h
  repeat' first | with_reducible assumption | with_reducible exact Kept.refl s | with_reducible apply marverBegin_kept

theorem execMarverDescriptorDone_kept {s u : State} (tile : TileId) (cyc : Waited) (h : execMarverDescriptorDone tile cyc s = .next u) : Kept s u := by
  unfold execMarverDescriptorDone at h
  injection h with h
  subst h
  repeat' first | with_reducible assumption | with_reducible exact Kept.refl s | with_reducible apply marverDone_kept

theorem execDeadlineExpiry_kept {s u : State} (tile : TileId) (time : Nat) (cyc : Waited) (ats : List MvAt) (h : execDeadlineExpiry tile time cyc ats s = .next u) : Kept s u := by
  unfold execDeadlineExpiry at h
  injection h with h
  subst h
  repeat' first | with_reducible assumption | with_reducible exact Kept.refl s | with_reducible apply deadlineExpiry_kept

theorem execMarverRelease_kept {s u : State} (tile : TileId) (h : execMarverRelease tile s = .next u) : Kept s u := by
  unfold execMarverRelease at h
  injection h with h
  subst h
  repeat' first | with_reducible assumption | with_reducible exact Kept.refl s | with_reducible apply marverRelease_kept

theorem reportSweep_kept {r₀ t : State} (h : Kept r₀ t) (s : State) (i : TileId) : Kept r₀ (reportSweep s t i) := by
  unfold reportSweep
  split
  · exact evtFault_kept h _ _ _ _ _ _ _
  · exact h

theorem execPantryMasterAccess_kept {s u : State} (tile : TileId) (master : Fin 4) (addr : Nat) (n : Fin 65) (data : Option (List Byte)) (wait : Nat) (h : execPantryMasterAccess tile master addr n data wait s = .next u) : Kept s u := by
  unfold execPantryMasterAccess at h
  split at h
  all_goals first | contradiction | (cases h; repeat' first | with_reducible assumption | with_reducible exact Kept.refl s | with_reducible apply masterAccess_kept | split)

theorem execRegionDescriptorWrite_kept {s u : State} (actor : Actor) (tile : TileId) (m : Fin 7) (d : Fin 8) (word : Bool) (v : Word) (h : execRegionDescriptorWrite actor tile m d word v s = .next u) : Kept s u := by
  unfold execRegionDescriptorWrite at h
  injection h with h
  subst h
  repeat' first | with_reducible assumption | with_reducible exact Kept.refl s | with_reducible apply regionWrite_kept

theorem execBankReq_kept {s u : State} (actor : Actor) (tile : TileId) (m : Fin 3) (v : Word) (h : execBankReq actor tile m v s = .next u) : Kept s u := by
  unfold execBankReq at h
  injection h with h
  subst h
  repeat' first | with_reducible assumption | with_reducible exact Kept.refl s | with_reducible apply bankReqWrite_kept

theorem execBankTransitionEnd_kept {s u : State} (tile : TileId) (bank : Fin 40) (h : execBankTransitionEnd tile bank s = .next u) : Kept s u := by
  unfold execBankTransitionEnd at h
  injection h with h
  subst h
  repeat' first | with_reducible assumption | with_reducible exact Kept.refl s | with_reducible apply bankEnd_kept

theorem execSweepRegionStart_kept {s u : State} (tile : TileId) (fails : List (Fin 64)) (h : execSweepRegionStart tile fails s = .next u) : Kept s u := by
  unfold execSweepRegionStart at h
  injection h with h
  subst h
  repeat' first | with_reducible assumption | with_reducible exact Kept.refl s | with_reducible apply reportSweep_kept | with_reducible apply sweepRegion_kept

theorem execCtrClear_kept {s u : State} (actor : Actor) (tile : TileId) (h : execCtrClear actor tile s = .next u) : Kept s u := by
  unfold execCtrClear at h
  injection h with h
  subst h
  repeat' first | with_reducible assumption | with_reducible exact Kept.refl s | with_reducible apply counterClear_kept | split

theorem execStart_kept {s u : State} (actor : Actor) (tile : TileId) (entry : Fin 8192) (h : execStart actor tile entry s = .next u) : Kept s u := by
  unfold execStart at h
  injection h with h
  subst h
  repeat' first | with_reducible assumption | with_reducible exact Kept.refl s | with_reducible apply startCommand_kept

theorem execAbort_kept {s u : State} (actor : Actor) (tile : TileId) (h : execAbort actor tile s = .next u) : Kept s u := by
  unfold execAbort at h
  injection h with h
  subst h
  repeat' first | with_reducible assumption | with_reducible exact Kept.refl s | with_reducible apply abortCommand_kept

theorem execFreeze_kept {s u : State} (actor : Actor) (ty : Nat) (inst : Nat) (on : Bool) (h : execFreeze actor ty inst on s = .next u) : Kept s u := by
  unfold execFreeze at h
  injection h with h
  subst h
  repeat' first | with_reducible assumption | with_reducible exact Kept.refl s | with_reducible apply headerCommand_kept | with_reducible apply setFreeze_kept | intro _ _

theorem execSoftReset_kept {s u : State} (actor : Actor) (ty : Nat) (inst : Nat) (h : execSoftReset actor ty inst s = .next u) : Kept s u := by
  unfold execSoftReset at h
  injection h with h
  subst h
  repeat' first | with_reducible assumption | with_reducible exact Kept.refl s | with_reducible apply headerCommand_kept | with_reducible apply softReset_kept | intro _ _

theorem execEnable_kept {s u : State} (actor : Actor) (ty : Nat) (inst : Nat) (on : Bool) (h : execEnable actor ty inst on s = .next u) : Kept s u := by
  unfold execEnable at h
  injection h with h
  subst h
  repeat' first | with_reducible assumption | with_reducible exact Kept.refl s | with_reducible apply headerCommand_kept | with_reducible apply setEnable_kept | intro _ _

theorem execIntStatusClear_kept {s u : State} (actor : Actor) (ty : Nat) (inst : Nat) (pg : Nat) (mask : Word) (h : execIntStatusClear actor ty inst pg mask s = .next u) : Kept s u := by
  unfold execIntStatusClear at h
  injection h with h
  subst h
  repeat' first | with_reducible assumption | with_reducible exact Kept.refl s | with_reducible apply headerCommand_kept | with_reducible apply clearInt_kept | intro _ _

theorem execIntForce_kept {s u : State} (actor : Actor) (ty : Nat) (inst : Nat) (pg : Nat) (mask : Word) (h : execIntForce actor ty inst pg mask s = .next u) : Kept s u := by
  unfold execIntForce at h
  injection h with h
  subst h
  repeat' first | with_reducible assumption | with_reducible exact Kept.refl s | with_reducible apply headerCommand_kept | with_reducible apply forceInt_kept | intro _ _

theorem execPerfEvent_kept {s u : State} (actor : Actor) (ty : Nat) (inst : Nat) (ev : Byte) (h : execPerfEvent actor ty inst ev s = .next u) : Kept s u := by
  unfold execPerfEvent at h
  injection h with h
  subst h
  repeat' first | with_reducible assumption | with_reducible exact Kept.refl s | with_reducible apply headerCommand_kept | with_reducible apply setPerf_kept | intro _ _

theorem execPerfClear_kept {s u : State} (actor : Actor) (ty : Nat) (inst : Nat) (h : execPerfClear actor ty inst s = .next u) : Kept s u := by
  unfold execPerfClear at h
  injection h with h
  subst h
  repeat' first | with_reducible assumption | with_reducible exact Kept.refl s | with_reducible apply headerCommand_kept | with_reducible apply clearPerf_kept | intro _ _

theorem execLatchingRead_kept {s u : State} (actor : Actor) (addr : BitVec 26) (wide : Bool) (h : execLatchingRead actor addr wide s = .next u) : Kept s u := by
  unfold execLatchingRead at h
  injection h with h
  subst h
  repeat' first | with_reducible assumption | with_reducible exact Kept.refl s | with_reducible apply registerRead_kept | with_reducible apply invalidAccess_kept | split

theorem execBar0InvalidAccess_kept {s u : State} (actor : Actor) (addr : BitVec 26) (n : Fin 65) (write : Bool) (h : execBar0InvalidAccess actor addr n write s = .next u) : Kept s u := by
  unfold execBar0InvalidAccess at h
  split at h
  all_goals first | contradiction | (cases h; repeat' first | with_reducible assumption | with_reducible exact Kept.refl s | with_reducible apply invalidAccess_kept | split)

theorem execRegisterWrite_kept {s u : State} (actor : Actor) (addr : BitVec 26) (wide : Bool) (v : Word64) (h : execRegisterWrite actor addr wide v s = .next u) : Kept s u := by
  unfold execRegisterWrite at h
  injection h with h
  subst h
  repeat' first | with_reducible assumption | with_reducible exact Kept.refl s | with_reducible apply registerWrite_kept | with_reducible apply invalidAccess_kept | split

theorem execCommit_kept {s u : State} (d : BitVec 19) (skipped : Bool) (roots : Bool) (step : Word64) (epoch : BitVec 16) (acc : BitVec 16) (crc : Word) (growth : BitVec 24) (nonfinite : Word) (h : execCommit d skipped roots step epoch acc crc growth nonfinite s = .next u) : Kept s u := by
  unfold execCommit at h
  injection h with h
  subst h
  repeat' first | with_reducible assumption | with_reducible exact Kept.refl s | with_reducible apply pushCommit_kept

theorem execScan_kept {s u : State} (d : BitVec 19) (h : execScan d s = .next u) : Kept s u := by
  unfold execScan at h
  injection h with h
  subst h
  repeat' first | with_reducible assumption | with_reducible exact Kept.refl s | with_reducible apply pushScan_kept

theorem execCommitExecute_kept {s u : State} (t : Nat) (h : execCommitExecute t s = .next u) : Kept s u := by
  unfold execCommitExecute at h
  injection h with h
  subst h
  repeat' first | with_reducible assumption | with_reducible exact Kept.refl s | with_reducible apply commitCommand_kept

theorem execScanExecute_kept {s u : State} (t : Nat) (h : execScanExecute t s = .next u) : Kept s u := by
  unfold execScanExecute at h
  injection h with h
  subst h
  repeat' first | with_reducible assumption | with_reducible exact Kept.refl s | with_reducible apply scanExecute_kept

theorem execQueryDomain_kept {s u : State} (actor : Actor) (d : BitVec 19) (h : execQueryDomain actor d s = .next u) : Kept s u := by
  unfold execQueryDomain at h
  injection h with h
  subst h
  repeat' first | with_reducible assumption | with_reducible exact Kept.refl s | with_reducible apply queryDomain_kept

theorem execReadPinRequest_kept {s u : State} (d : BitVec 19) (h : PinHolder) (h : execReadPinRequest d h s = .next u) : Kept s u := by
  unfold execReadPinRequest at h
  injection h with h
  subst h
  repeat' first | with_reducible assumption | with_reducible exact Kept.refl s | with_reducible apply requestPin_kept

theorem execReadPinRelease_kept {s u : State} (d : BitVec 19) (h : PinHolder) (h : execReadPinRelease d h s = .next u) : Kept s u := by
  unfold execReadPinRelease at h
  injection h with h
  subst h
  repeat' first | with_reducible assumption | with_reducible exact Kept.refl s | with_reducible apply releasePin_kept

theorem execStepBoundary_kept {s u : State} (d : BitVec 19) (t : BoundaryAt) (h : execStepBoundary d t s = .next u) : Kept s u := by
  unfold execStepBoundary at h
  injection h with h
  subst h
  repeat' first | with_reducible assumption | with_reducible exact Kept.refl s | with_reducible apply updateMembership_kept | with_reducible apply stepBoundary_kept

theorem execOpPush_kept {s u : State} (addr : BitVec 41) (t : Nat) (h : execOpPush addr t s = .next u) : Kept s u := by
  unfold execOpPush at h
  injection h with h
  subst h
  repeat' first | with_reducible assumption | with_reducible exact Kept.refl s | with_reducible apply opPush_kept

theorem execOpAbort_kept {s u : State} (t : Nat) (h : execOpAbort t s = .next u) : Kept s u := by
  unfold execOpAbort at h
  injection h with h
  subst h
  repeat' first | with_reducible assumption | with_reducible exact Kept.refl s | with_reducible apply abortCrucible_kept

theorem execGradOp_kept {s u : State} (t : Nat) (h : execGradOp t s = .next u) : Kept s u := by
  unfold execGradOp at h
  injection h with h
  subst h
  repeat' first | with_reducible assumption | with_reducible exact Kept.refl s | with_reducible apply startOp_kept

theorem execStatOp_kept {s u : State} (t : Nat) (h : execStatOp t s = .next u) : Kept s u := by
  unfold execStatOp at h
  injection h with h
  subst h
  repeat' first | with_reducible assumption | with_reducible exact Kept.refl s | with_reducible apply startOp_kept

theorem execRootOp_kept {s u : State} (t : Nat) (h : execRootOp t s = .next u) : Kept s u := by
  unfold execRootOp at h
  injection h with h
  subst h
  repeat' first | with_reducible assumption | with_reducible exact Kept.refl s | with_reducible apply startOp_kept

theorem execDataChunk_kept {s u : State} (ch : Fin 16) (data : List Byte) (t : Nat) (h : execDataChunk ch data t s = .next u) : Kept s u := by
  unfold execDataChunk at h
  injection h with h
  subst h
  repeat' first | with_reducible assumption | with_reducible exact Kept.refl s | with_reducible apply chunkOfKind_kept

theorem execPremaxChunk_kept {s u : State} (ch : Fin 16) (data : List Byte) (t : Nat) (h : execPremaxChunk ch data t s = .next u) : Kept s u := by
  unfold execPremaxChunk at h
  injection h with h
  subst h
  repeat' first | with_reducible assumption | with_reducible exact Kept.refl s | with_reducible apply chunkOfKind_kept

theorem execStatChunk_kept {s u : State} (ch : Fin 16) (data : List Byte) (t : Nat) (h : execStatChunk ch data t s = .next u) : Kept s u := by
  unfold execStatChunk at h
  injection h with h
  subst h
  repeat' first | with_reducible assumption | with_reducible exact Kept.refl s | with_reducible apply chunkOfKind_kept

theorem execRootChunk_kept {s u : State} (ch : Fin 16) (data : List Byte) (t : Nat) (h : execRootChunk ch data t s = .next u) : Kept s u := by
  unfold execRootChunk at h
  injection h with h
  subst h
  repeat' first | with_reducible assumption | with_reducible exact Kept.refl s | with_reducible apply chunkOfKind_kept

theorem execEndChunk_kept {s u : State} (ch : Fin 16) (data : List Byte) (t : Nat) (h : execEndChunk ch data t s = .next u) : Kept s u := by
  unfold execEndChunk at h
  injection h with h
  subst h
  repeat' first | with_reducible assumption | with_reducible exact Kept.refl s | with_reducible apply chunkOfKind_kept

theorem execCloseChunk_kept {s u : State} (ch : Fin 16) (data : List Byte) (t : Nat) (h : execCloseChunk ch data t s = .next u) : Kept s u := by
  unfold execCloseChunk at h
  injection h with h
  subst h
  repeat' first | with_reducible assumption | with_reducible exact Kept.refl s | with_reducible apply chunkOfKind_kept

theorem execGrantChunk_kept {s u : State} (ch : Fin 16) (data : List Byte) (t : Nat) (h : execGrantChunk ch data t s = .next u) : Kept s u := by
  unfold execGrantChunk at h
  injection h with h
  subst h
  repeat' first | with_reducible assumption | with_reducible exact Kept.refl s | with_reducible apply chunkOfKind_kept

theorem execHopTimeout_kept {s u : State} (ch : Fin 16) (t : Nat) (h : execHopTimeout ch t s = .next u) : Kept s u := by
  unfold execHopTimeout at h
  injection h with h
  subst h
  repeat' first | with_reducible assumption | with_reducible exact Kept.refl s | with_reducible apply hopTimeout_kept

theorem execOpDone_kept {s u : State} (t : Nat) (fit : List Nat) (h : execOpDone t fit s = .next u) : Kept s u := by
  unfold execOpDone at h
  injection h with h
  subst h
  repeat' first | with_reducible assumption | with_reducible exact Kept.refl s | with_reducible apply opDone_kept

theorem execStepReport_kept {s u : State} (data : List Byte) (fit : List Nat) (t : Nat) (h : execStepReport data fit t s = .next u) : Kept s u := by
  unfold execStepReport at h
  injection h with h
  subst h
  repeat' first | with_reducible assumption | with_reducible exact Kept.refl s | with_reducible apply reportArrives_kept

theorem execGroupTable_kept {s u : State} (data : List Byte) (t : Nat) (h : execGroupTable data t s = .next u) : Kept s u := by
  unfold execGroupTable at h
  injection h with h
  subst h
  repeat' first | with_reducible assumption | with_reducible exact Kept.refl s | with_reducible apply tableArrives_kept

theorem execFailRecord_kept {s u : State} (data : List Byte) (t : Nat) (h : execFailRecord data t s = .next u) : Kept s u := by
  unfold execFailRecord at h
  injection h with h
  subst h
  repeat' first | with_reducible assumption | with_reducible exact Kept.refl s | with_reducible apply tableArrives_kept

theorem execTableRerequest_kept {s u : State} (d : BitVec 19) (position : Fin 4096) (t : Nat) (h : execTableRerequest d position t s = .next u) : Kept s u := by
  unfold execTableRerequest at h
  injection h with h
  subst h
  repeat' first | with_reducible assumption | with_reducible exact Kept.refl s | with_reducible apply tableAsked_kept

theorem execHeartbeatSend_kept {s u : State} (d : BitVec 19) (t : Nat) (h : execHeartbeatSend d t s = .next u) : Kept s u := by
  unfold execHeartbeatSend at h
  injection h with h
  subst h
  repeat' first | with_reducible assumption | with_reducible exact Kept.refl s | with_reducible apply heartbeatSend_kept

theorem execHeartbeat_kept {s u : State} (d : BitVec 19) (position : Fin 4096) (t : Nat) (h : execHeartbeat d position t s = .next u) : Kept s u := by
  unfold execHeartbeat at h
  injection h with h
  subst h
  repeat' first | with_reducible assumption | with_reducible exact Kept.refl s | with_reducible apply heartbeat_kept

theorem execHeartbeatExpiry_kept {s u : State} (d : BitVec 19) (position : Fin 4096) (t : Nat) (fit : List Nat) (h : execHeartbeatExpiry d position t fit s = .next u) : Kept s u := by
  unfold execHeartbeatExpiry at h
  injection h with h
  subst h
  repeat' first | with_reducible assumption | with_reducible exact Kept.refl s | with_reducible apply heartbeatExpiry_kept

theorem execMemberStop_kept {s u : State} (d : BitVec 19) (position : Fin 4096) (t : Nat) (fit : List Nat) (h : execMemberStop d position t fit s = .next u) : Kept s u := by
  unfold execMemberStop at h
  injection h with h
  subst h
  repeat' first | with_reducible assumption | with_reducible exact Kept.refl s | with_reducible apply memberStop_kept

theorem execLinkFailureReport_kept {s u : State} (d : BitVec 19) (position : Fin 4096) (peer : Fin 4096) (t : Nat) (fit : List Nat) (h : execLinkFailureReport d position peer t fit s = .next u) : Kept s u := by
  unfold execLinkFailureReport at h
  injection h with h
  subst h
  repeat' first | with_reducible assumption | with_reducible exact Kept.refl s | with_reducible apply linkFailure_kept

theorem execCloneFetchRequest_kept {s u : State} (d : BitVec 19) (member : Fin 4096) (ask : CloneAsk) (t : Nat) (h : execCloneFetchRequest d member ask t s = .next u) : Kept s u := by
  unfold execCloneFetchRequest at h
  injection h with h
  subst h
  repeat' first | with_reducible assumption | with_reducible exact Kept.refl s | with_reducible apply cloneAsked_kept

theorem execCloneLeafArrival_kept {s u : State} (d : BitVec 19) (unit : CloneUnit) (t : Nat) (h : execCloneLeafArrival d unit t s = .next u) : Kept s u := by
  unfold execCloneLeafArrival at h
  injection h with h
  subst h
  repeat' first | with_reducible assumption | with_reducible exact Kept.refl s | with_reducible apply cloneArrives_kept

theorem execCloneDone_kept {s u : State} (d : BitVec 19) (position : Fin 4096) (member : Fin 4096) (t : Nat) (h : execCloneDone d position member t s = .next u) : Kept s u := by
  unfold execCloneDone at h
  injection h with h
  subst h
  repeat' first | with_reducible assumption | with_reducible exact Kept.refl s | with_reducible apply cloneDone_kept

theorem execSpareWaitExpiry_kept {s u : State} (d : BitVec 19) (t : Nat) (h : execSpareWaitExpiry d t s = .next u) : Kept s u := by
  unfold execSpareWaitExpiry at h
  injection h with h
  subst h
  repeat' first | with_reducible assumption | with_reducible exact Kept.refl s | with_reducible apply spareWaitExpiry_kept

theorem execAgreedCopyDone_kept {s u : State} (d : BitVec 19) (t : Nat) (h : execAgreedCopyDone d t s = .next u) : Kept s u := by
  unfold execAgreedCopyDone at h
  injection h with h
  subst h
  repeat' first | with_reducible assumption | with_reducible exact Kept.refl s | with_reducible apply agreedCopyDone_kept

theorem execExportGo_kept {s u : State} (actor : Actor) (t : Nat) (h : execExportGo actor t s = .next u) : Kept s u := by
  unfold execExportGo at h
  injection h with h
  subst h
  repeat' first | with_reducible assumption | with_reducible exact Kept.refl s | with_reducible apply exportCommand_kept | with_reducible apply exportGo_kept | intro _ _

theorem execExportAbort_kept {s u : State} (actor : Actor) (t : Nat) (h : execExportAbort actor t s = .next u) : Kept s u := by
  unfold execExportAbort at h
  injection h with h
  subst h
  repeat' first | with_reducible assumption | with_reducible exact Kept.refl s | with_reducible apply exportCommand_kept | with_reducible apply exportAbort_kept | intro _ _

theorem execExportDone_kept {s u : State} (t : Nat) (h : execExportDone t s = .next u) : Kept s u := by
  unfold execExportDone at h
  injection h with h
  subst h
  repeat' first | with_reducible assumption | with_reducible exact Kept.refl s | with_reducible apply exportDone_kept

theorem execPeerDone_kept {s u : State} (t : Nat) (h : execPeerDone t s = .next u) : Kept s u := by
  unfold execPeerDone at h
  injection h with h
  subst h
  repeat' first | with_reducible assumption | with_reducible exact Kept.refl s | with_reducible apply peerDone_kept

theorem execPinExpired_kept {s u : State} (t : Nat) (h : execPinExpired t s = .next u) : Kept s u := by
  unfold execPinExpired at h
  injection h with h
  subst h
  repeat' first | with_reducible assumption | with_reducible exact Kept.refl s | with_reducible apply pinExpired_kept

theorem execHostLinkUp_kept {s u : State} (p : Fin 2) (gt64 : Bool) (x8 : Bool) (flit256 : Bool) (t : Nat) (h : execHostLinkUp p gt64 x8 flit256 t s = .next u) : Kept s u := by
  unfold execHostLinkUp at h
  injection h with h
  subst h
  repeat' first | with_reducible assumption | with_reducible exact Kept.refl s | with_reducible apply hostLinkUp_kept

theorem execHostLinkDown_kept {s u : State} (p : Fin 2) (t : Nat) (h : execHostLinkDown p t s = .next u) : Kept s u := by
  unfold execHostLinkDown at h
  injection h with h
  subst h
  repeat' first | with_reducible assumption | with_reducible exact Kept.refl s | with_reducible apply hostLinkDown_kept

theorem execHaTrainingTimeout_kept {s u : State} (t : Nat) (h : execHaTrainingTimeout t s = .next u) : Kept s u := by
  unfold execHaTrainingTimeout at h
  injection h with h
  subst h
  repeat' first | with_reducible assumption | with_reducible exact Kept.refl s | with_reducible apply haTimeout_kept

theorem execFailoverReq_kept {s u : State} (p : Fin 2) (t : Nat) (h : execFailoverReq p t s = .next u) : Kept s u := by
  unfold execFailoverReq at h
  injection h with h
  subst h
  repeat' first | with_reducible assumption | with_reducible exact Kept.refl s | with_reducible apply failoverReq_kept

theorem execFailoverDelayExpiry_kept {s u : State} (t : Nat) (h : execFailoverDelayExpiry t s = .next u) : Kept s u := by
  unfold execFailoverDelayExpiry at h
  injection h with h
  subst h
  repeat' first | with_reducible assumption | with_reducible exact Kept.refl s | with_reducible apply failoverDelay_kept

theorem execWindowRead_kept {s u : State} (p : Fin 2) (offset : Nat) (lines : Nat) (h : execWindowRead p offset lines s = .next u) : Kept s u := by
  unfold execWindowRead at h
  injection h with h
  subst h
  repeat' first | with_reducible assumption | with_reducible exact Kept.refl s | with_reducible apply windowRead_kept

theorem execWindowWrite_kept {s u : State} (p : Fin 2) (h : execWindowWrite p s = .next u) : Kept s u := by
  unfold execWindowWrite at h
  injection h with h
  subst h
  repeat' first | with_reducible assumption | with_reducible exact Kept.refl s | with_reducible apply windowWrite_kept

theorem execH2dSnoop_kept {s u : State} (p : Fin 2) (h : execH2dSnoop p s = .next u) : Kept s u := by
  unfold execH2dSnoop at h
  injection h with h
  subst h
  repeat' first | with_reducible assumption | with_reducible exact Kept.refl s | with_reducible apply snoop_kept

theorem execLinkLock_kept {s u : State} (p : Fin 8) (t : Nat) (h : execLinkLock p t s = .next u) : Kept s u := by
  unfold execLinkLock at h
  injection h with h
  subst h
  repeat' first | with_reducible assumption | with_reducible exact Kept.refl s | with_reducible apply linkLock_kept

theorem execPortTrainingTimeout_kept {s u : State} (p : Fin 8) (t : Nat) (h : execPortTrainingTimeout p t s = .next u) : Kept s u := by
  unfold execPortTrainingTimeout at h
  injection h with h
  subst h
  repeat' first | with_reducible assumption | with_reducible exact Kept.refl s | with_reducible apply trainingTimeout_kept

theorem execAttestTimeout_kept {s u : State} (p : Fin 8) (t : Nat) (h : execAttestTimeout p t s = .next u) : Kept s u := by
  unfold execAttestTimeout at h
  injection h with h
  subst h
  repeat' first | with_reducible assumption | with_reducible exact Kept.refl s | with_reducible apply attestTimeout_kept

theorem execPortBackoffExpiry_kept {s u : State} (p : Fin 8) (t : Nat) (h : execPortBackoffExpiry p t s = .next u) : Kept s u := by
  unfold execPortBackoffExpiry at h
  injection h with h
  subst h
  repeat' first | with_reducible assumption | with_reducible exact Kept.refl s | with_reducible apply backoffExpiry_kept

theorem execIdent_kept {s u : State} (f : RxFrame) (h : execIdent f s = .next u) : Kept s u := by
  unfold execIdent at h
  injection h with h
  subst h
  repeat' first | with_reducible assumption | with_reducible exact Kept.refl s | with_reducible apply identFrame_kept

theorem execAttestFrame_kept {s u : State} (f : RxFrame) (h : execAttestFrame f s = .next u) : Kept s u := by
  unfold execAttestFrame at h
  injection h with h
  subst h
  repeat' first | with_reducible assumption | with_reducible exact Kept.refl s | with_reducible apply attestFrame_kept

theorem execAck_kept {s u : State} (f : RxFrame) (h : execAck f s = .next u) : Kept s u := by
  unfold execAck at h
  injection h with h
  subst h
  repeat' first | with_reducible assumption | with_reducible exact Kept.refl s | with_reducible apply ackCommand_kept

theorem execReplayTimeout_kept {s u : State} (p : Fin 8) (t : Nat) (h : execReplayTimeout p t s = .next u) : Kept s u := by
  unfold execReplayTimeout at h
  injection h with h
  subst h
  repeat' first | with_reducible assumption | with_reducible exact Kept.refl s | with_reducible apply replayTimeout_kept

theorem execFecUncorrectable_kept {s u : State} (p : Fin 8) (t : Nat) (h : execFecUncorrectable p t s = .next u) : Kept s u := by
  unfold execFecUncorrectable at h
  injection h with h
  subst h
  repeat' first | with_reducible assumption | with_reducible exact Kept.refl s | with_reducible apply fecUncorrectable_kept

theorem execTimebaseFrame_kept {s u : State} (f : RxFrame) (stamp : Nat) (h : execTimebaseFrame f stamp s = .next u) : Kept s u := by
  unfold execTimebaseFrame at h
  injection h with h
  subst h
  repeat' first | with_reducible assumption | with_reducible exact Kept.refl s | with_reducible apply timebaseFrame_kept

theorem execTimebaseExchange_kept {s u : State} (par : Option (Fin 8 × Nat × Nat)) (t1 : Nat) (t2 : Nat) (t3 : Nat) (t4 : Nat) (t : Nat) (h : execTimebaseExchange par t1 t2 t3 t4 t s = .next u) : Kept s u := by
  unfold execTimebaseExchange at h
  injection h with h
  subst h
  repeat' first | with_reducible assumption | with_reducible exact Kept.refl s | with_reducible apply timebaseExchange_kept

theorem execTimeUnsync_kept {s u : State} (t : Nat) (h : execTimeUnsync t s = .next u) : Kept s u := by
  unfold execTimeUnsync at h
  injection h with h
  subst h
  repeat' first | with_reducible assumption | with_reducible exact Kept.refl s | with_reducible apply timeUnsync_kept

theorem execControlFrame_kept {s u : State} (f : RxFrame) (told : Option Told) (fit : List Nat) (h : execControlFrame f told fit s = .next u) : Kept s u := by
  unfold execControlFrame at h
  injection h with h
  subst h
  repeat' first | with_reducible assumption | with_reducible exact Kept.refl s | with_reducible apply controlFrame_kept

theorem execDoorFrame_kept {s u : State} (f : RxFrame) (x : DoorItem) (cyc : Nat) (h : execDoorFrame f x cyc s = .next u) : Kept s u := by
  unfold execDoorFrame at h
  injection h with h
  subst h
  repeat' first | with_reducible assumption | with_reducible exact Kept.refl s | with_reducible apply doorFrame_kept

theorem execReductionFrame_kept {s u : State} (f : RxFrame) (h : execReductionFrame f s = .next u) : Kept s u := by
  unfold execReductionFrame at h
  injection h with h
  subst h
  repeat' first | with_reducible assumption | with_reducible exact Kept.refl s | with_reducible apply reductionFrame_kept

theorem execBulkFrame_kept {s u : State} (f : RxFrame) (h : execBulkFrame f s = .next u) : Kept s u := by
  unfold execBulkFrame at h
  injection h with h
  subst h
  repeat' first | with_reducible assumption | with_reducible exact Kept.refl s | with_reducible apply bulkFrame_kept

theorem execMembership_kept {s u : State} (member : Fin 4096) (state : Fin 8) (boot : Nat) (serial : Nat) (runtime : Nat) (t : Nat) (fit : List Nat) (h : execMembership member state boot serial runtime t fit s = .next u) : Kept s u := by
  unfold execMembership at h
  injection h with h
  subst h
  repeat' first | with_reducible assumption | with_reducible exact Kept.refl s | with_reducible apply membership_kept

theorem execDramRead_kept {s u : State} (addr : Nat) (n : Nat) (hits : List DramHit) (h : execDramRead addr n hits s = .next u) : Kept s u := by
  unfold execDramRead at h
  split at h
  all_goals first | contradiction | (cases h; repeat' first | with_reducible assumption | with_reducible exact Kept.refl s | with_reducible apply dramReadCommand_kept | split)

theorem execDramWrite_kept {s u : State} (addr : Nat) (data : List Byte) (hits : List DramHit) (h : execDramWrite addr data hits s = .next u) : Kept s u := by
  unfold execDramWrite at h
  split at h
  all_goals first | contradiction | (cases h; repeat' first | with_reducible assumption | with_reducible exact Kept.refl s | with_reducible apply dramWriteCommand_kept | split)

theorem execPatrolScrub_kept {s u : State} (ch : Fin 24) (hits : List DramHit) (t : Nat) (h : execPatrolScrub ch hits t s = .next u) : Kept s u := by
  unfold execPatrolScrub at h
  injection h with h
  subst h
  repeat' first | with_reducible assumption | with_reducible exact Kept.refl s | with_reducible apply patrolScrub_kept

theorem execDimmTemperatureRead_kept {s u : State} (ch : Fin 24) (temp : Nat) (t : Nat) (h : execDimmTemperatureRead ch temp t s = .next u) : Kept s u := by
  unfold execDimmTemperatureRead at h
  injection h with h
  subst h
  repeat' first | with_reducible assumption | with_reducible exact Kept.refl s | with_reducible apply dimmTemperature_kept

theorem execGetVersion_kept {s u : State} (a : MbxArgs) (h : execGetVersion a s = .next u) : Kept s u := by
  unfold execGetVersion at h
  injection h with h
  subst h
  repeat' first | with_reducible assumption | with_reducible exact Kept.refl s | with_reducible apply request_kept

theorem execGetDeviceInfo_kept {s u : State} (a : MbxArgs) (h : execGetDeviceInfo a s = .next u) : Kept s u := by
  unfold execGetDeviceInfo at h
  injection h with h
  subst h
  repeat' first | with_reducible assumption | with_reducible exact Kept.refl s | with_reducible apply request_kept

theorem execBind_kept {s u : State} (a : MbxArgs) (h : execBind a s = .next u) : Kept s u := by
  unfold execBind at h
  injection h with h
  subst h
  repeat' first | with_reducible assumption | with_reducible exact Kept.refl s | with_reducible apply request_kept

theorem execUnbind_kept {s u : State} (a : MbxArgs) (h : execUnbind a s = .next u) : Kept s u := by
  unfold execUnbind at h
  injection h with h
  subst h
  repeat' first | with_reducible assumption | with_reducible exact Kept.refl s | with_reducible apply request_kept

theorem execImageLoad_kept {s u : State} (a : MbxArgs) (h : execImageLoad a s = .next u) : Kept s u := by
  unfold execImageLoad at h
  injection h with h
  subst h
  repeat' first | with_reducible assumption | with_reducible exact Kept.refl s | with_reducible apply request_kept

theorem execRuntimeHandover_kept {s u : State} (a : MbxArgs) (h : execRuntimeHandover a s = .next u) : Kept s u := by
  unfold execRuntimeHandover at h
  injection h with h
  subst h
  repeat' first | with_reducible assumption | with_reducible exact Kept.refl s | with_reducible apply request_kept

theorem execFlashWrite_kept {s u : State} (a : MbxArgs) (h : execFlashWrite a s = .next u) : Kept s u := by
  unfold execFlashWrite at h
  injection h with h
  subst h
  repeat' first | with_reducible assumption | with_reducible exact Kept.refl s | with_reducible apply request_kept

theorem execSvnRaise_kept {s u : State} (a : MbxArgs) (h : execSvnRaise a s = .next u) : Kept s u := by
  unfold execSvnRaise at h
  injection h with h
  subst h
  repeat' first | with_reducible assumption | with_reducible exact Kept.refl s | with_reducible apply request_kept

theorem execAttest_kept {s u : State} (a : MbxArgs) (h : execAttest a s = .next u) : Kept s u := by
  unfold execAttest at h
  injection h with h
  subst h
  repeat' first | with_reducible assumption | with_reducible exact Kept.refl s | with_reducible apply request_kept

theorem execMemberSet_kept {s u : State} (a : MbxArgs) (h : execMemberSet a s = .next u) : Kept s u := by
  unfold execMemberSet at h
  injection h with h
  subst h
  repeat' first | with_reducible assumption | with_reducible exact Kept.refl s | with_reducible apply request_kept

theorem execSpareSet_kept {s u : State} (a : MbxArgs) (h : execSpareSet a s = .next u) : Kept s u := by
  unfold execSpareSet at h
  injection h with h
  subst h
  repeat' first | with_reducible assumption | with_reducible exact Kept.refl s | with_reducible apply request_kept

theorem execGroupSet_kept {s u : State} (a : MbxArgs) (h : execGroupSet a s = .next u) : Kept s u := by
  unfold execGroupSet at h
  injection h with h
  subst h
  repeat' first | with_reducible assumption | with_reducible exact Kept.refl s | with_reducible apply request_kept

theorem execQueueCreate_kept {s u : State} (a : MbxArgs) (h : execQueueCreate a s = .next u) : Kept s u := by
  unfold execQueueCreate at h
  injection h with h
  subst h
  repeat' first | with_reducible assumption | with_reducible exact Kept.refl s | with_reducible apply request_kept

theorem execQueueDestroy_kept {s u : State} (a : MbxArgs) (h : execQueueDestroy a s = .next u) : Kept s u := by
  unfold execQueueDestroy at h
  injection h with h
  subst h
  repeat' first | with_reducible assumption | with_reducible exact Kept.refl s | with_reducible apply request_kept

theorem execQueueRingSet_kept {s u : State} (a : MbxArgs) (h : execQueueRingSet a s = .next u) : Kept s u := by
  unfold execQueueRingSet at h
  injection h with h
  subst h
  repeat' first | with_reducible assumption | with_reducible exact Kept.refl s | with_reducible apply request_kept

theorem execQueueStop_kept {s u : State} (a : MbxArgs) (h : execQueueStop a s = .next u) : Kept s u := by
  unfold execQueueStop at h
  injection h with h
  subst h
  repeat' first | with_reducible assumption | with_reducible exact Kept.refl s | with_reducible apply request_kept

theorem execQueueResume_kept {s u : State} (a : MbxArgs) (h : execQueueResume a s = .next u) : Kept s u := by
  unfold execQueueResume at h
  injection h with h
  subst h
  repeat' first | with_reducible assumption | with_reducible exact Kept.refl s | with_reducible apply request_kept

theorem execQueueQuery_kept {s u : State} (a : MbxArgs) (h : execQueueQuery a s = .next u) : Kept s u := by
  unfold execQueueQuery at h
  injection h with h
  subst h
  repeat' first | with_reducible assumption | with_reducible exact Kept.refl s | with_reducible apply request_kept

theorem execContextCreate_kept {s u : State} (a : MbxArgs) (h : execContextCreate a s = .next u) : Kept s u := by
  unfold execContextCreate at h
  injection h with h
  subst h
  repeat' first | with_reducible assumption | with_reducible exact Kept.refl s | with_reducible apply request_kept

theorem execContextDestroy_kept {s u : State} (a : MbxArgs) (h : execContextDestroy a s = .next u) : Kept s u := by
  unfold execContextDestroy at h
  injection h with h
  subst h
  repeat' first | with_reducible assumption | with_reducible exact Kept.refl s | with_reducible apply request_kept

theorem execPlacementWrite_kept {s u : State} (a : MbxArgs) (h : execPlacementWrite a s = .next u) : Kept s u := by
  unfold execPlacementWrite at h
  injection h with h
  subst h
  repeat' first | with_reducible assumption | with_reducible exact Kept.refl s | with_reducible apply request_kept

theorem execDomainSet_kept {s u : State} (a : MbxArgs) (h : execDomainSet a s = .next u) : Kept s u := by
  unfold execDomainSet at h
  injection h with h
  subst h
  repeat' first | with_reducible assumption | with_reducible exact Kept.refl s | with_reducible apply request_kept

theorem execUpbSubmit_kept {s u : State} (a : MbxArgs) (h : execUpbSubmit a s = .next u) : Kept s u := by
  unfold execUpbSubmit at h
  injection h with h
  subst h
  repeat' first | with_reducible assumption | with_reducible exact Kept.refl s | with_reducible apply request_kept

theorem execRetainSet_kept {s u : State} (a : MbxArgs) (h : execRetainSet a s = .next u) : Kept s u := by
  unfold execRetainSet at h
  injection h with h
  subst h
  repeat' first | with_reducible assumption | with_reducible exact Kept.refl s | with_reducible apply request_kept

theorem execBaseLoad_kept {s u : State} (a : MbxArgs) (h : execBaseLoad a s = .next u) : Kept s u := by
  unfold execBaseLoad at h
  injection h with h
  subst h
  repeat' first | with_reducible assumption | with_reducible exact Kept.refl s | with_reducible apply request_kept

theorem execExportReq_kept {s u : State} (a : MbxArgs) (h : execExportReq a s = .next u) : Kept s u := by
  unfold execExportReq at h
  injection h with h
  subst h
  repeat' first | with_reducible assumption | with_reducible exact Kept.refl s | with_reducible apply request_kept

theorem execCellarRestore_kept {s u : State} (a : MbxArgs) (h : execCellarRestore a s = .next u) : Kept s u := by
  unfold execCellarRestore at h
  injection h with h
  subst h
  repeat' first | with_reducible assumption | with_reducible exact Kept.refl s | with_reducible apply request_kept

theorem execChannelRetire_kept {s u : State} (a : MbxArgs) (h : execChannelRetire a s = .next u) : Kept s u := by
  unfold execChannelRetire at h
  injection h with h
  subst h
  repeat' first | with_reducible assumption | with_reducible exact Kept.refl s | with_reducible apply request_kept

theorem execLogRead_kept {s u : State} (a : MbxArgs) (h : execLogRead a s = .next u) : Kept s u := by
  unfold execLogRead at h
  injection h with h
  subst h
  repeat' first | with_reducible assumption | with_reducible exact Kept.refl s | with_reducible apply request_kept

theorem execLifecycleSet_kept {s u : State} (a : MbxArgs) (h : execLifecycleSet a s = .next u) : Kept s u := by
  unfold execLifecycleSet at h
  injection h with h
  subst h
  repeat' first | with_reducible assumption | with_reducible exact Kept.refl s | with_reducible apply request_kept

theorem execUnlistedOpcodeRequest_kept {s u : State} (bytes : List Byte) (dma : List Byte) (t : Nat) (h : execUnlistedOpcodeRequest bytes dma t s = .next u) : Kept s u := by
  unfold execUnlistedOpcodeRequest at h
  injection h with h
  subst h
  repeat' first | with_reducible assumption | with_reducible exact Kept.refl s | with_reducible apply mailboxRequest_kept

theorem execRspHeadWrite_kept {s u : State} (v : Word) (t : Nat) (h : execRspHeadWrite v t s = .next u) : Kept s u := by
  unfold execRspHeadWrite at h
  injection h with h
  subst h
  repeat' first | with_reducible assumption | with_reducible exact Kept.refl s | with_reducible apply rspHeadWrite_kept

theorem execEvtHeadWrite_kept {s u : State} (v : Word) (t : Nat) (h : execEvtHeadWrite v t s = .next u) : Kept s u := by
  unfold execEvtHeadWrite at h
  injection h with h
  subst h
  repeat' first | with_reducible assumption | with_reducible exact Kept.refl s | with_reducible apply evtHeadWrite_kept

theorem execQueueDoorbell_kept {s u : State} (q : BitVec 15) (v : Word) (entries : List (List Byte)) (t : Nat) (h : execQueueDoorbell q v entries t s = .next u) : Kept s u := by
  unfold execQueueDoorbell at h
  split at h
  all_goals first | contradiction | (cases h; repeat' first | with_reducible assumption | with_reducible exact Kept.refl s | with_reducible apply doorbell_kept | split)

theorem execUnitStart_kept {s u : State} (t : Nat) (h : execUnitStart t s = .next u) : Kept s u := by
  unfold execUnitStart at h
  injection h with h
  subst h
  repeat' first | with_reducible assumption | with_reducible exact Kept.refl s | with_reducible apply unitStart_kept

theorem execRunComplete_kept {s u : State} (q : BitVec 15) (t : Nat) (h : execRunComplete q t s = .next u) : Kept s u := by
  unfold execRunComplete at h
  injection h with h
  subst h
  repeat' first | with_reducible assumption | with_reducible exact Kept.refl s | with_reducible apply runComplete_kept

theorem execQueueFault_kept {s u : State} (q : BitVec 15) (t : Nat) (h : execQueueFault q t s = .next u) : Kept s u := by
  unfold execQueueFault at h
  injection h with h
  subst h
  repeat' first | with_reducible assumption | with_reducible exact Kept.refl s | with_reducible apply queueFault_kept

theorem execHandoverBegin_kept {s u : State} (t : Nat) (h : execHandoverBegin t s = .next u) : Kept s u := by
  unfold execHandoverBegin at h
  injection h with h
  subst h
  repeat' first | with_reducible assumption | with_reducible exact Kept.refl s | with_reducible apply handoverBegin_kept

theorem execWdtKick_kept {s u : State} (n : Fin 4) (t : Nat) (h : execWdtKick n t s = .next u) : Kept s u := by
  unfold execWdtKick at h
  injection h with h
  subst h
  repeat' first | with_reducible assumption | with_reducible exact Kept.refl s | with_reducible apply wdtKick_kept

theorem execWatchdogExpiry_kept {s u : State} (n : Fin 4) (copyOk : Bool) (t : Nat) (h : execWatchdogExpiry n copyOk t s = .next u) : Kept s u := by
  unfold execWatchdogExpiry at h
  injection h with h
  subst h
  repeat' first | with_reducible assumption | with_reducible exact Kept.refl s | with_reducible apply watchdogExpiry_kept

theorem execCpRestartComplete_kept {s u : State} (n : Fin 4) (t : Nat) (h : execCpRestartComplete n t s = .next u) : Kept s u := by
  unfold execCpRestartComplete at h
  injection h with h
  subst h
  repeat' first | with_reducible assumption | with_reducible exact Kept.refl s | with_reducible apply cpRestartComplete_kept

theorem execEscalationWindowExpiry_kept {s u : State} (t : Nat) (h : execEscalationWindowExpiry t s = .next u) : Kept s u := by
  unfold execEscalationWindowExpiry at h
  injection h with h
  subst h
  repeat' first | with_reducible assumption | with_reducible exact Kept.refl s | with_reducible apply escalationWindowExpiry_kept

theorem execHostLossTimeout_kept {s u : State} (t : Nat) (h : execHostLossTimeout t s = .next u) : Kept s u := by
  unfold execHostLossTimeout at h
  injection h with h
  subst h
  repeat' first | with_reducible assumption | with_reducible exact Kept.refl s | with_reducible apply hostLossTimeout_kept

theorem execHoldRunLimit_kept {s u : State} (t : Nat) (h : execHoldRunLimit t s = .next u) : Kept s u := by
  unfold execHoldRunLimit at h
  injection h with h
  subst h
  repeat' first | with_reducible assumption | with_reducible exact Kept.refl s | with_reducible apply holdRunLimit_kept

theorem execHostLoadWaitExpiry_kept {s u : State} (t : Nat) (h : execHostLoadWaitExpiry t s = .next u) : Kept s u := by
  unfold execHostLoadWaitExpiry at h
  injection h with h
  subst h
  repeat' first | with_reducible assumption | with_reducible exact Kept.refl s | with_reducible apply hostLoadWaitExpiry_kept

theorem execVinSample_kept {s u : State} (mv : Nat) (t : Nat) (h : execVinSample mv t s = .next u) : Kept s u := by
  unfold execVinSample at h
  injection h with h
  subst h
  repeat' first | with_reducible assumption | with_reducible exact Kept.refl s | with_reducible apply vinSample_kept

theorem execRailFault_kept {s u : State} (dimm : Bool) (n : Nat) (t : Nat) (h : execRailFault dimm n t s = .next u) : Kept s u := by
  unfold execRailFault at h
  injection h with h
  subst h
  repeat' first | with_reducible assumption | with_reducible exact Kept.refl s | with_reducible apply railFault_kept

theorem execBreakerPowerTick_kept {s u : State} (p10us : Nat) (p10ms : Nat) (t : Nat) (h : execBreakerPowerTick p10us p10ms t s = .next u) : Kept s u := by
  unfold execBreakerPowerTick at h
  injection h with h
  subst h
  repeat' first | with_reducible assumption | with_reducible exact Kept.refl s | with_reducible apply powerTick_kept

theorem execBreakerThermalTick_kept {s u : State} (temps : List Nat) (t : Nat) (h : execBreakerThermalTick temps t s = .next u) : Kept s u := by
  unfold execBreakerThermalTick at h
  split at h
  all_goals first | contradiction | (cases h; repeat' first | with_reducible assumption | with_reducible exact Kept.refl s | with_reducible apply thermalTick_kept | split)

theorem execBreakerLimitWrite_kept {s u : State} (actor : Actor) (l : Limit) (v : Word) (h : execBreakerLimitWrite actor l v s = .next u) : Kept s u := by
  unfold execBreakerLimitWrite at h
  injection h with h
  subst h
  repeat' first | with_reducible assumption | with_reducible exact Kept.refl s | with_reducible apply limitWrite_kept

theorem execCp2Live_kept {s u : State} (actor : Actor) (t : Nat) (h : execCp2Live actor t s = .next u) : Kept s u := by
  unfold execCp2Live at h
  injection h with h
  subst h
  repeat' first | with_reducible assumption | with_reducible exact Kept.refl s | with_reducible apply cp2Live_kept

theorem execCp2LiveExpiry_kept {s u : State} (t : Nat) (h : execCp2LiveExpiry t s = .next u) : Kept s u := by
  unfold execCp2LiveExpiry at h
  injection h with h
  subst h
  repeat' first | with_reducible assumption | with_reducible exact Kept.refl s | with_reducible apply cp2LiveExpiry_kept

theorem execFreqApply_kept {s u : State} (actor : Actor) (n : Fin 4) (t : Nat) (h : execFreqApply actor n t s = .next u) : Kept s u := by
  unfold execFreqApply at h
  injection h with h
  subst h
  repeat' first | with_reducible assumption | with_reducible exact Kept.refl s | with_reducible apply freqApply_kept

theorem execFreqChangeDone_kept {s u : State} (n : Fin 4) (t : Nat) (h : execFreqChangeDone n t s = .next u) : Kept s u := by
  unfold execFreqChangeDone at h
  injection h with h
  subst h
  repeat' first | with_reducible assumption | with_reducible exact Kept.refl s | with_reducible apply freqChangeDone_kept

theorem execDomainRequest_kept {s u : State} (actor : Actor) (dom : Fin 50) (v : BitVec 2) (t : Nat) (h : execDomainRequest actor dom v t s = .next u) : Kept s u := by
  unfold execDomainRequest at h
  injection h with h
  subst h
  repeat' first | with_reducible assumption | with_reducible exact Kept.refl s | with_reducible apply domainRequest_kept

theorem execDomainTransitionEnd_kept {s u : State} (dom : Fin 50) (t : Nat) (h : execDomainTransitionEnd dom t s = .next u) : Kept s u := by
  unfold execDomainTransitionEnd at h
  injection h with h
  subst h
  repeat' first | with_reducible assumption | with_reducible exact Kept.refl s | with_reducible apply domainEnd_kept

theorem execPwrDomainTimeout_kept {s u : State} (dom : Fin 50) (t : Nat) (h : execPwrDomainTimeout dom t s = .next u) : Kept s u := by
  unfold execPwrDomainTimeout at h
  injection h with h
  subst h
  repeat' first | with_reducible assumption | with_reducible exact Kept.refl s | with_reducible apply domainTimeout_kept

theorem execClusterIdleTimeout_kept {s u : State} (c : Fin 32) (t : Nat) (h : execClusterIdleTimeout c t s = .next u) : Kept s u := by
  unfold execClusterIdleTimeout at h
  injection h with h
  subst h
  repeat' first | with_reducible assumption | with_reducible exact Kept.refl s | with_reducible apply clusterIdle_kept

theorem execBankRetentionTimeout_kept {s u : State} (c : Fin 32) (t : Nat) (h : execBankRetentionTimeout c t s = .next u) : Kept s u := by
  unfold execBankRetentionTimeout at h
  injection h with h
  subst h
  repeat' first | with_reducible assumption | with_reducible exact Kept.refl s | with_reducible apply bankRetention_kept

theorem execAgeingSample_kept {s u : State} (rs : List AgeReading) (t : Nat) (h : execAgeingSample rs t s = .next u) : Kept s u := by
  unfold execAgeingSample at h
  injection h with h
  subst h
  repeat' first | with_reducible assumption | with_reducible exact Kept.refl s | with_reducible apply ageingSample_kept

theorem execVSet_kept {s u : State} (actor : Actor) (n : Fin 4) (k : Fin 8) (v : BitVec 16) (h : execVSet actor n k v s = .next u) : Kept s u := by
  unfold execVSet at h
  injection h with h
  subst h
  repeat' first | with_reducible assumption | with_reducible exact Kept.refl s | with_reducible apply vSetWrite_kept

theorem execDriftRecordDaily_kept {s u : State} (t : Nat) (h : execDriftRecordDaily t s = .next u) : Kept s u := by
  unfold execDriftRecordDaily at h
  injection h with h
  subst h
  repeat' first | with_reducible assumption | with_reducible exact Kept.refl s | with_reducible apply driftDaily_kept

theorem execSenseNMake_kept {s u : State} (t : Nat) (h : execSenseNMake t s = .next u) : Kept s u := by
  unfold execSenseNMake at h
  injection h with h
  subst h
  repeat' first | with_reducible assumption | with_reducible exact Kept.refl s | with_reducible apply senseMake_kept

theorem execInputSwitchClose_kept {s u : State} (t : Nat) (h : execInputSwitchClose t s = .next u) : Kept s u := by
  unfold execInputSwitchClose at h
  injection h with h
  subst h
  repeat' first | with_reducible assumption | with_reducible exact Kept.refl s | with_reducible apply switchClose_kept

theorem execSenseNOpen_kept {s u : State} (t : Nat) (h : execSenseNOpen t s = .next u) : Kept s u := by
  unfold execSenseNOpen at h
  injection h with h
  subst h
  repeat' first | with_reducible assumption | with_reducible exact Kept.refl s | with_reducible apply senseOpen_kept

theorem execPerstNAssert_kept {s u : State} (t : Nat) (h : execPerstNAssert t s = .next u) : Kept s u := by
  unfold execPerstNAssert at h
  injection h with h
  subst h
  repeat' first | with_reducible assumption | with_reducible exact Kept.refl s | with_reducible apply perstAssert_kept

theorem execPerstNHoldExpiry_kept {s u : State} (t : Nat) (h : execPerstNHoldExpiry t s = .next u) : Kept s u := by
  unfold execPerstNHoldExpiry at h
  injection h with h
  subst h
  repeat' first | with_reducible assumption | with_reducible exact Kept.refl s | with_reducible apply perstHold_kept

theorem execPerstNRelease_kept {s u : State} (t : Nat) (h : execPerstNRelease t s = .next u) : Kept s u := by
  unfold execPerstNRelease at h
  injection h with h
  subst h
  repeat' first | with_reducible assumption | with_reducible exact Kept.refl s | with_reducible apply perstRelease_kept

theorem execDeviceStart_kept {s u : State} (finds : StartFinds) (h : execDeviceStart finds s = .next u) : Kept s u := by
  unfold execDeviceStart at h
  injection h with h
  subst h
  repeat' first | with_reducible assumption | with_reducible exact Kept.refl s | with_reducible apply deviceStart_kept

theorem execCfgLock_kept {s u : State} (actor : Actor) (h : execCfgLock actor s = .next u) : Kept s u := by
  unfold execCfgLock at h
  injection h with h
  subst h
  repeat' first | with_reducible assumption | with_reducible exact Kept.refl s | with_reducible apply cfgLock_kept

theorem execAlertPendingClear_kept {s u : State} (actor : Actor) (mask : Word) (h : execAlertPendingClear actor mask s = .next u) : Kept s u := by
  unfold execAlertPendingClear at h
  injection h with h
  subst h
  repeat' first | with_reducible assumption | with_reducible exact Kept.refl s | with_reducible apply alertClear_kept

theorem execSmbusByteWrite_kept {s u : State} (reg : Byte) (v : Byte) (h : execSmbusByteWrite reg v s = .next u) : Kept s u := by
  unfold execSmbusByteWrite at h
  injection h with h
  subst h
  repeat' first | with_reducible assumption | with_reducible exact Kept.refl s | with_reducible apply smbusWrite_kept

theorem execWakeNPulseEnd_kept {s u : State} (t : Nat) (h : execWakeNPulseEnd t s = .next u) : Kept s u := by
  unfold execWakeNPulseEnd at h
  injection h with h
  subst h
  repeat' first | with_reducible assumption | with_reducible exact Kept.refl s | with_reducible apply wakeEnd_kept

theorem execCageRegulatorFault_kept {s u : State} (p : Fin 8) (t : Nat) (h : execCageRegulatorFault p t s = .next u) : Kept s u := by
  unfold execCageRegulatorFault at h
  injection h with h
  subst h
  repeat' first | with_reducible assumption | with_reducible exact Kept.refl s | with_reducible apply cageFault_kept

end Sys2Proof.Machine
end

