-- ==== Sys2Proof/WellFormed.lean ====
section
/-! DEFINITION. Well-formed commands: operands that their sender can form. The meanings take every command; they refuse by name
only the operands that have no effect the spec could give (NOTES.md, '## Stops'). -/

namespace Sys2Proof.Machine

set_option Elab.async false

/-- A message carries 1 to 8 vector registers (spec 02 R75). -/
def DoorMsg.wellFormed (m : DoorMsg) : Bool := decide (1 ≤ m.regs.length) && decide (m.regs.length ≤ 8)

/-- What arrives at a door. -/
def ArrivalSrc.wellFormed : ArrivalSrc → Bool
  | .local _ => true
  | .remote m => m.remote && m.wellFormed

/-- Credits of one message of a door of a logical tile of a device (spec 02 R77). -/
def CreditSrc.wellFormed : CreditSrc → Bool
  | .local _ _ => true
  | .remote member tile door n =>
    decide (member < 4096) && decide (tile < 112) && decide (door < 16) && decide (1 ≤ n) && decide (n ≤ 8)

/-- What a DOOR frame carries (spec 10 R422). -/
def DoorItem.wellFormed : DoorItem → Bool
  | .message _ _ m => m.remote && m.wellFormed
  | .credits _ member rtile rdoor n => CreditSrc.wellFormed (.remote member rtile rdoor n)

/-- A leaf has at most 65,536 bytes (spec 09 R386). -/
def CloneUnit.wellFormed : CloneUnit → Bool
  | .leaf _ _ data => decide (data.length ≤ 65536)
  | .baseLeaf _ _ data => decide (data.length ≤ 65536)
  | _ => true

end Sys2Proof.Machine

namespace Sys2Proof

open Machine

/-- The operands that a sender of the command can form: the place of a header bit in a page (spec 14 Table 14.2), the PASS code of
an ACFG (spec 05 Table 5.5), the payload limits of requests, chunks and messages, the readings of a tick. -/
def Instr.wellFormed : Instr → Bool
  | .vAdd .. | .vSub .. | .vMul .. | .vFma .. | .vMin .. | .vMax .. | .vAbs .. | .exp .. | .log .. | .rcp .. | .rsqrt ..
  | .cvt .. | .vEq .. | .vNe .. | .vLt .. | .vLe .. | .vGt .. | .vGe .. | .unord .. | .ieq .. | .ine .. | .ilt .. | .ile ..
  | .iltu .. | .ileu .. | .iadd .. | .isub .. | .vAnd .. | .vOr .. | .vXor .. | .vShl .. | .vShr .. | .vSra .. | .perm ..
  | .rot .. | .rsum .. | .rmax .. | .rmin .. | .mov .. | .bcast .. | .sel .. | .iota .. | .saluAdd .. | .saluSub ..
  | .saluAnd .. | .saluOr .. | .saluXor .. | .saluShl .. | .saluShr .. | .saluSra .. | .addi .. | .smul .. | .li .. | .br ..
  | .loop .. | .wait .. | .time .. | .psetEq .. | .psetNe .. | .psetLt .. | .psetLe .. | .psetGt .. | .psetGe ..
  | .psetLtu .. | .psetGeu .. | .halt .. | .issue .. | .mstat .. | .gstatq .. | .send .. | .sendr .. | .recv .. | .recvt ..
  | .dpoll .. | .ld .. | .st .. | .dgo .. | .dwait .. | .fence .. | .mode .. | .wload .. | .mm .. | .drain .. | .gstat .. => true
  | .bindFeed _ f => f.pass == 0#4
  | .bindDrain _ f => f.pass == 1#4
  | .drainCfg _ f => f.pass == 2#4
  | .resetWalk _ f => f.pass == 3#4
  | .waitExpiry .. | .programHalted .. | .modeComplete .. | .drainComplete .. | .stallLimit .. | .fenceComplete ..
  | .transcendentalUnitFree .. => true
  | .messageArrival _ _ src _ _ => src.wellFormed
  | .creditReturn _ src _ => src.wellFormed
  | .recvtExpiry .. | .arrayCommandStart .. | .mmDrained .. | .dramToPantry .. | .pantryToDram .. | .pantryToPantry ..
  | .pantryToTile .. | .fill .. | .descriptorComplete .. | .gstatAttach .. | .gstatComplete .. | .root .. | .nsinv ..
  | .chol .. | .trsvL .. | .trsvLt .. | .cholsolve .. | .marverDescriptorDone .. | .deadlineExpiry .. | .marverRelease .. => true
  | .pantryMasterAccess _ _ _ _ data _ => decide ((data.getD []).length ≤ 64)
  | .regionDescriptorWrite .. | .bankReq .. | .bankTransitionEnd .. | .sweepRegionStart .. | .ctrClear .. | .start ..
  | .abort .. => true
  | .freeze _ ty inst _ => decide (inst < blockInstances ty)
  | .softReset _ ty inst => decide (inst < blockInstances ty)
  | .enable _ ty inst _ => decide (inst < blockInstances ty)
  | .intStatusClear _ ty inst pg _ => decide (inst < blockInstances ty) && decide (pg = 0 ∨ (ty = 1 ∧ pg = 5))
  | .intForce _ ty inst pg _ => decide (inst < blockInstances ty) && decide (pg = 0 ∨ (ty = 1 ∧ pg = 5))
  | .perfEvent _ ty inst _ => decide (inst < blockInstances ty)
  | .perfClear _ ty inst => decide (inst < blockInstances ty)
  | .latchingRead .. => true
  | .bar0InvalidAccess _ addr n _ => !((n.val == 4 && addr.toNat % 4 == 0) || (n.val == 8 && addr.toNat % 8 == 0))
  | .registerWrite .. | .commit .. | .scan .. | .commitExecute .. | .scanExecute .. | .queryDomain .. | .readPinRequest ..
  | .readPinRelease .. | .stepBoundary .. | .opPush .. | .opAbort .. | .gradOp .. | .statOp .. | .rootOp .. => true
  | .dataChunk _ data _ => decide (64 ≤ data.length) && decide (data.length ≤ 64 + 16448)
  | .premaxChunk _ data _ => decide (64 ≤ data.length) && decide (data.length ≤ 64 + 16448)
  | .statChunk _ data _ => decide (64 ≤ data.length) && decide (data.length ≤ 64 + 16448)
  | .rootChunk _ data _ => decide (64 ≤ data.length) && decide (data.length ≤ 64 + 16448)
  | .endChunk _ data _ => decide (64 ≤ data.length) && decide (data.length ≤ 64 + 16448)
  | .closeChunk _ data _ => decide (64 ≤ data.length) && decide (data.length ≤ 64 + 16448)
  | .grantChunk _ data _ => decide (64 ≤ data.length) && decide (data.length ≤ 64 + 16448)
  | .hopTimeout .. | .opDone .. => true
  | .stepReport data _ _ => decide (data.length = 128)
  | .groupTable .. | .failRecord .. | .tableRerequest .. | .heartbeatSend .. | .heartbeat .. | .heartbeatExpiry ..
  | .memberStop .. | .linkFailureReport .. | .cloneFetchRequest .. => true
  | .cloneLeafArrival _ unit _ => unit.wellFormed
  | .cloneDone .. | .spareWaitExpiry .. | .agreedCopyDone .. | .exportGo .. | .exportAbort .. | .exportDone ..
  | .peerDone .. | .pinExpired .. | .hostLinkUp .. | .hostLinkDown .. | .haTrainingTimeout .. | .failoverReq ..
  | .failoverDelayExpiry .. | .windowRead .. | .windowWrite .. | .h2dSnoop .. | .linkLock .. | .portTrainingTimeout ..
  | .attestTimeout .. | .portBackoffExpiry .. | .ident .. | .attestFrame .. | .ack .. | .replayTimeout ..
  | .fecUncorrectable .. | .timebaseFrame .. => true
  | .timebaseExchange par _ _ _ _ _ => par.all (fun p => decide (p.2.2 < 4096))
  | .timeUnsync .. | .controlFrame .. => true
  | .doorFrame _ x _ => x.wellFormed
  | .reductionFrame .. | .bulkFrame .. | .membership .. | .dramRead .. | .dramWrite .. | .patrolScrub ..
  | .dimmTemperatureRead .. => true
  | .getVersion a => decide (a.payload.length ≤ 224)
  | .getDeviceInfo a => decide (a.payload.length ≤ 224)
  | .bind a => decide (a.payload.length ≤ 224)
  | .unbind a => decide (a.payload.length ≤ 224)
  | .imageLoad a => decide (a.payload.length ≤ 224)
  | .runtimeHandover a => decide (a.payload.length ≤ 224)
  | .flashWrite a => decide (a.payload.length ≤ 224)
  | .svnRaise a => decide (a.payload.length ≤ 224)
  | .attest a => decide (a.payload.length ≤ 224)
  | .memberSet a => decide (a.payload.length ≤ 224)
  | .spareSet a => decide (a.payload.length ≤ 224)
  | .groupSet a => decide (a.payload.length ≤ 224)
  | .queueCreate a => decide (a.payload.length ≤ 224)
  | .queueDestroy a => decide (a.payload.length ≤ 224)
  | .queueRingSet a => decide (a.payload.length ≤ 224)
  | .queueStop a => decide (a.payload.length ≤ 224)
  | .queueResume a => decide (a.payload.length ≤ 224)
  | .queueQuery a => decide (a.payload.length ≤ 224)
  | .contextCreate a => decide (a.payload.length ≤ 224)
  | .contextDestroy a => decide (a.payload.length ≤ 224)
  | .placementWrite a => decide (a.payload.length ≤ 224)
  | .domainSet a => decide (a.payload.length ≤ 224)
  | .upbSubmit a => decide (a.payload.length ≤ 224)
  | .retainSet a => decide (a.payload.length ≤ 224)
  | .baseLoad a => decide (a.payload.length ≤ 224)
  | .exportReq a => decide (a.payload.length ≤ 224)
  | .cellarRestore a => decide (a.payload.length ≤ 224)
  | .channelRetire a => decide (a.payload.length ≤ 224)
  | .logRead a => decide (a.payload.length ≤ 224)
  | .lifecycleSet a => decide (a.payload.length ≤ 224)
  | .unlistedOpcodeRequest bytes _ _ => decide (32 ≤ bytes.length) && decide (bytes.length ≤ 256)
  | .rspHeadWrite .. | .evtHeadWrite .. => true
  | .queueDoorbell _ _ entries _ => entries.all (fun e => e.length == 64)
  | .unitStart .. | .runComplete .. | .queueFault .. | .handoverBegin .. | .wdtKick .. | .watchdogExpiry ..
  | .cpRestartComplete .. | .escalationWindowExpiry .. | .hostLossTimeout .. | .holdRunLimit .. | .hostLoadWaitExpiry ..
  | .vinSample .. => true
  | .railFault dimm n _ => if dimm then decide (n < 24) else decide (n < 15) || (decide (32 ≤ n) && decide (n < 64))
  | .breakerPowerTick .. => true
  | .breakerThermalTick temps _ => decide (temps.length = 42)
  | .breakerLimitWrite .. | .cp2Live .. | .cp2LiveExpiry .. | .freqApply .. | .freqChangeDone .. | .domainRequest ..
  | .domainTransitionEnd .. | .pwrDomainTimeout .. | .clusterIdleTimeout .. | .bankRetentionTimeout .. => true
  | .ageingSample rs _ => decide (rs.length ≤ 32)
  | .vSet .. | .driftRecordDaily .. | .senseNMake .. | .inputSwitchClose .. | .senseNOpen .. | .perstNAssert ..
  | .perstNHoldExpiry .. | .perstNRelease .. => true
  | .deviceStart finds => decide (finds.serials.length = 24)
  | .cfgLock .. | .alertPendingClear .. | .smbusByteWrite .. | .wakeNPulseEnd .. | .cageRegulatorFault .. => true

end Sys2Proof
end

