-- ==== Sys2Proof/Laws/PerInstr.lean ====
section
/-! SUPPORT. Per-instruction families: `Listed`, that the check of well-formedness shuts no row of the table out. -/

namespace Sys2Proof.Laws

set_option Elab.async false

open Machine

def aIssue : Issue := { tile := 0, hdr := 0#3, last := true }
def aVec : VecF := ⟨0, 0, 0, 0, 0, 0, 0, false, 0, 0, false⟩
def anArr (pass : BitVec 4) : ArrF := ⟨0, 0, 0, 0, 0, 0, 0, pass, 0, 0⟩
def anAcc : AccF := ⟨0, 0, 0, 0, 0, 0⟩
def aMsg : MsgF := ⟨0, 0, 0, 0, 0, 0, 0, 0⟩
def aCtl : CtlF := ⟨0, 0, 0, 0, 0⟩
def aRequest : MbxArgs := ⟨0, 0, 0, [], [], [], 0⟩
def aFrame : RxFrame := ⟨0, [], false, 0⟩
def aStart : StartFinds := ⟨[], List.replicate 24 0, [], [], [], [], [], true, true, true, [], 0⟩

/-- Some command of the instruction's row is well-formed. -/
def Listed.Statement (i : Instr) : Prop := ∃ j : Instr, j.ctorIdx = i.ctorIdx ∧ j.wellFormed = true

theorem Listed.vAdd (c : Issue) (f : VecF) : Listed.Statement (.vAdd c f) := ⟨.vAdd aIssue aVec, rfl, rfl⟩
theorem Listed.vSub (c : Issue) (f : VecF) : Listed.Statement (.vSub c f) := ⟨.vSub aIssue aVec, rfl, rfl⟩
theorem Listed.vMul (c : Issue) (f : VecF) : Listed.Statement (.vMul c f) := ⟨.vMul aIssue aVec, rfl, rfl⟩
theorem Listed.vFma (c : Issue) (f : VecF) : Listed.Statement (.vFma c f) := ⟨.vFma aIssue aVec, rfl, rfl⟩
theorem Listed.vMin (c : Issue) (f : VecF) : Listed.Statement (.vMin c f) := ⟨.vMin aIssue aVec, rfl, rfl⟩
theorem Listed.vMax (c : Issue) (f : VecF) : Listed.Statement (.vMax c f) := ⟨.vMax aIssue aVec, rfl, rfl⟩
theorem Listed.vAbs (c : Issue) (f : VecF) : Listed.Statement (.vAbs c f) := ⟨.vAbs aIssue aVec, rfl, rfl⟩
theorem Listed.exp (c : Issue) (f : VecF) : Listed.Statement (.exp c f) := ⟨.exp aIssue aVec, rfl, rfl⟩
theorem Listed.log (c : Issue) (f : VecF) : Listed.Statement (.log c f) := ⟨.log aIssue aVec, rfl, rfl⟩
theorem Listed.rcp (c : Issue) (f : VecF) : Listed.Statement (.rcp c f) := ⟨.rcp aIssue aVec, rfl, rfl⟩
theorem Listed.rsqrt (c : Issue) (f : VecF) : Listed.Statement (.rsqrt c f) := ⟨.rsqrt aIssue aVec, rfl, rfl⟩
theorem Listed.cvt (c : Issue) (f : VecF) : Listed.Statement (.cvt c f) := ⟨.cvt aIssue aVec, rfl, rfl⟩
theorem Listed.vEq (c : Issue) (f : VecF) : Listed.Statement (.vEq c f) := ⟨.vEq aIssue aVec, rfl, rfl⟩
theorem Listed.vNe (c : Issue) (f : VecF) : Listed.Statement (.vNe c f) := ⟨.vNe aIssue aVec, rfl, rfl⟩
theorem Listed.vLt (c : Issue) (f : VecF) : Listed.Statement (.vLt c f) := ⟨.vLt aIssue aVec, rfl, rfl⟩
theorem Listed.vLe (c : Issue) (f : VecF) : Listed.Statement (.vLe c f) := ⟨.vLe aIssue aVec, rfl, rfl⟩
theorem Listed.vGt (c : Issue) (f : VecF) : Listed.Statement (.vGt c f) := ⟨.vGt aIssue aVec, rfl, rfl⟩
theorem Listed.vGe (c : Issue) (f : VecF) : Listed.Statement (.vGe c f) := ⟨.vGe aIssue aVec, rfl, rfl⟩
theorem Listed.unord (c : Issue) (f : VecF) : Listed.Statement (.unord c f) := ⟨.unord aIssue aVec, rfl, rfl⟩
theorem Listed.ieq (c : Issue) (f : VecF) : Listed.Statement (.ieq c f) := ⟨.ieq aIssue aVec, rfl, rfl⟩
theorem Listed.ine (c : Issue) (f : VecF) : Listed.Statement (.ine c f) := ⟨.ine aIssue aVec, rfl, rfl⟩
theorem Listed.ilt (c : Issue) (f : VecF) : Listed.Statement (.ilt c f) := ⟨.ilt aIssue aVec, rfl, rfl⟩
theorem Listed.ile (c : Issue) (f : VecF) : Listed.Statement (.ile c f) := ⟨.ile aIssue aVec, rfl, rfl⟩
theorem Listed.iltu (c : Issue) (f : VecF) : Listed.Statement (.iltu c f) := ⟨.iltu aIssue aVec, rfl, rfl⟩
theorem Listed.ileu (c : Issue) (f : VecF) : Listed.Statement (.ileu c f) := ⟨.ileu aIssue aVec, rfl, rfl⟩
theorem Listed.iadd (c : Issue) (f : VecF) : Listed.Statement (.iadd c f) := ⟨.iadd aIssue aVec, rfl, rfl⟩
theorem Listed.isub (c : Issue) (f : VecF) : Listed.Statement (.isub c f) := ⟨.isub aIssue aVec, rfl, rfl⟩
theorem Listed.vAnd (c : Issue) (f : VecF) : Listed.Statement (.vAnd c f) := ⟨.vAnd aIssue aVec, rfl, rfl⟩
theorem Listed.vOr (c : Issue) (f : VecF) : Listed.Statement (.vOr c f) := ⟨.vOr aIssue aVec, rfl, rfl⟩
theorem Listed.vXor (c : Issue) (f : VecF) : Listed.Statement (.vXor c f) := ⟨.vXor aIssue aVec, rfl, rfl⟩
theorem Listed.vShl (c : Issue) (f : VecF) : Listed.Statement (.vShl c f) := ⟨.vShl aIssue aVec, rfl, rfl⟩
theorem Listed.vShr (c : Issue) (f : VecF) : Listed.Statement (.vShr c f) := ⟨.vShr aIssue aVec, rfl, rfl⟩
theorem Listed.vSra (c : Issue) (f : VecF) : Listed.Statement (.vSra c f) := ⟨.vSra aIssue aVec, rfl, rfl⟩
theorem Listed.perm (c : Issue) (f : VecF) : Listed.Statement (.perm c f) := ⟨.perm aIssue aVec, rfl, rfl⟩
theorem Listed.rot (c : Issue) (f : VecF) : Listed.Statement (.rot c f) := ⟨.rot aIssue aVec, rfl, rfl⟩
theorem Listed.rsum (c : Issue) (f : VecF) : Listed.Statement (.rsum c f) := ⟨.rsum aIssue aVec, rfl, rfl⟩
theorem Listed.rmax (c : Issue) (f : VecF) : Listed.Statement (.rmax c f) := ⟨.rmax aIssue aVec, rfl, rfl⟩
theorem Listed.rmin (c : Issue) (f : VecF) : Listed.Statement (.rmin c f) := ⟨.rmin aIssue aVec, rfl, rfl⟩
theorem Listed.mov (c : Issue) (f : VecF) : Listed.Statement (.mov c f) := ⟨.mov aIssue aVec, rfl, rfl⟩
theorem Listed.bcast (c : Issue) (f : VecF) : Listed.Statement (.bcast c f) := ⟨.bcast aIssue aVec, rfl, rfl⟩
theorem Listed.sel (c : Issue) (f : VecF) : Listed.Statement (.sel c f) := ⟨.sel aIssue aVec, rfl, rfl⟩
theorem Listed.iota (c : Issue) (f : VecF) : Listed.Statement (.iota c f) := ⟨.iota aIssue aVec, rfl, rfl⟩
theorem Listed.saluAdd (c : Issue) (f : CtlF) : Listed.Statement (.saluAdd c f) := ⟨.saluAdd aIssue aCtl, rfl, rfl⟩
theorem Listed.saluSub (c : Issue) (f : CtlF) : Listed.Statement (.saluSub c f) := ⟨.saluSub aIssue aCtl, rfl, rfl⟩
theorem Listed.saluAnd (c : Issue) (f : CtlF) : Listed.Statement (.saluAnd c f) := ⟨.saluAnd aIssue aCtl, rfl, rfl⟩
theorem Listed.saluOr (c : Issue) (f : CtlF) : Listed.Statement (.saluOr c f) := ⟨.saluOr aIssue aCtl, rfl, rfl⟩
theorem Listed.saluXor (c : Issue) (f : CtlF) : Listed.Statement (.saluXor c f) := ⟨.saluXor aIssue aCtl, rfl, rfl⟩
theorem Listed.saluShl (c : Issue) (f : CtlF) : Listed.Statement (.saluShl c f) := ⟨.saluShl aIssue aCtl, rfl, rfl⟩
theorem Listed.saluShr (c : Issue) (f : CtlF) : Listed.Statement (.saluShr c f) := ⟨.saluShr aIssue aCtl, rfl, rfl⟩
theorem Listed.saluSra (c : Issue) (f : CtlF) : Listed.Statement (.saluSra c f) := ⟨.saluSra aIssue aCtl, rfl, rfl⟩
theorem Listed.addi (c : Issue) (f : CtlF) : Listed.Statement (.addi c f) := ⟨.addi aIssue aCtl, rfl, rfl⟩
theorem Listed.smul (c : Issue) (f : CtlF) : Listed.Statement (.smul c f) := ⟨.smul aIssue aCtl, rfl, rfl⟩
theorem Listed.li (c : Issue) (f : CtlF) : Listed.Statement (.li c f) := ⟨.li aIssue aCtl, rfl, rfl⟩
theorem Listed.br (c : Issue) (f : CtlF) : Listed.Statement (.br c f) := ⟨.br aIssue aCtl, rfl, rfl⟩
theorem Listed.loop (c : Issue) (f : CtlF) : Listed.Statement (.loop c f) := ⟨.loop aIssue aCtl, rfl, rfl⟩
theorem Listed.wait (c : Issue) (f : CtlF) : Listed.Statement (.wait c f) := ⟨.wait aIssue aCtl, rfl, rfl⟩
theorem Listed.time (c : Issue) (f : CtlF) : Listed.Statement (.time c f) := ⟨.time aIssue aCtl, rfl, rfl⟩
theorem Listed.psetEq (c : Issue) (f : CtlF) : Listed.Statement (.psetEq c f) := ⟨.psetEq aIssue aCtl, rfl, rfl⟩
theorem Listed.psetNe (c : Issue) (f : CtlF) : Listed.Statement (.psetNe c f) := ⟨.psetNe aIssue aCtl, rfl, rfl⟩
theorem Listed.psetLt (c : Issue) (f : CtlF) : Listed.Statement (.psetLt c f) := ⟨.psetLt aIssue aCtl, rfl, rfl⟩
theorem Listed.psetLe (c : Issue) (f : CtlF) : Listed.Statement (.psetLe c f) := ⟨.psetLe aIssue aCtl, rfl, rfl⟩
theorem Listed.psetGt (c : Issue) (f : CtlF) : Listed.Statement (.psetGt c f) := ⟨.psetGt aIssue aCtl, rfl, rfl⟩
theorem Listed.psetGe (c : Issue) (f : CtlF) : Listed.Statement (.psetGe c f) := ⟨.psetGe aIssue aCtl, rfl, rfl⟩
theorem Listed.psetLtu (c : Issue) (f : CtlF) : Listed.Statement (.psetLtu c f) := ⟨.psetLtu aIssue aCtl, rfl, rfl⟩
theorem Listed.psetGeu (c : Issue) (f : CtlF) : Listed.Statement (.psetGeu c f) := ⟨.psetGeu aIssue aCtl, rfl, rfl⟩
theorem Listed.halt (c : Issue) (f : CtlF) : Listed.Statement (.halt c f) := ⟨.halt aIssue aCtl, rfl, rfl⟩
theorem Listed.issue (c : Issue) (f : CtlF) : Listed.Statement (.issue c f) := ⟨.issue aIssue aCtl, rfl, rfl⟩
theorem Listed.mstat (c : Issue) (f : CtlF) : Listed.Statement (.mstat c f) := ⟨.mstat aIssue aCtl, rfl, rfl⟩
theorem Listed.gstatq (c : Issue) (f : CtlF) : Listed.Statement (.gstatq c f) := ⟨.gstatq aIssue aCtl, rfl, rfl⟩
theorem Listed.send (c : Issue) (f : MsgF) : Listed.Statement (.send c f) := ⟨.send aIssue aMsg, rfl, rfl⟩
theorem Listed.sendr (c : Issue) (f : MsgF) : Listed.Statement (.sendr c f) := ⟨.sendr aIssue aMsg, rfl, rfl⟩
theorem Listed.recv (c : Issue) (f : MsgF) : Listed.Statement (.recv c f) := ⟨.recv aIssue aMsg, rfl, rfl⟩
theorem Listed.recvt (c : Issue) (f : MsgF) : Listed.Statement (.recvt c f) := ⟨.recvt aIssue aMsg, rfl, rfl⟩
theorem Listed.dpoll (c : Issue) (f : MsgF) : Listed.Statement (.dpoll c f) := ⟨.dpoll aIssue aMsg, rfl, rfl⟩
theorem Listed.ld (c : Issue) (f : AccF) (wait : Fin 41) : Listed.Statement (.ld c f wait) := ⟨.ld aIssue anAcc 0, rfl, rfl⟩
theorem Listed.st (c : Issue) (f : AccF) (wait : Fin 41) : Listed.Statement (.st c f wait) := ⟨.st aIssue anAcc 0, rfl, rfl⟩
theorem Listed.dgo (c : Issue) (f : AccF) : Listed.Statement (.dgo c f) := ⟨.dgo aIssue anAcc, rfl, rfl⟩
theorem Listed.dwait (c : Issue) (f : AccF) : Listed.Statement (.dwait c f) := ⟨.dwait aIssue anAcc, rfl, rfl⟩
theorem Listed.fence (c : Issue) (f : AccF) : Listed.Statement (.fence c f) := ⟨.fence aIssue anAcc, rfl, rfl⟩
theorem Listed.mode (c : Issue) (f : ArrF) : Listed.Statement (.mode c f) := ⟨.mode aIssue (anArr 0#4), rfl, rfl⟩
theorem Listed.wload (c : Issue) (f : ArrF) : Listed.Statement (.wload c f) := ⟨.wload aIssue (anArr 0#4), rfl, rfl⟩
theorem Listed.mm (c : Issue) (f : ArrF) : Listed.Statement (.mm c f) := ⟨.mm aIssue (anArr 0#4), rfl, rfl⟩
theorem Listed.drain (c : Issue) (f : ArrF) : Listed.Statement (.drain c f) := ⟨.drain aIssue (anArr 0#4), rfl, rfl⟩
theorem Listed.gstat (c : Issue) (f : ArrF) : Listed.Statement (.gstat c f) := ⟨.gstat aIssue (anArr 0#4), rfl, rfl⟩
theorem Listed.bindFeed (c : Issue) (f : ArrF) : Listed.Statement (.bindFeed c f) := ⟨.bindFeed aIssue (anArr 0#4), rfl, by decide +kernel⟩
theorem Listed.bindDrain (c : Issue) (f : ArrF) : Listed.Statement (.bindDrain c f) := ⟨.bindDrain aIssue (anArr 1#4), rfl, by decide +kernel⟩
theorem Listed.drainCfg (c : Issue) (f : ArrF) : Listed.Statement (.drainCfg c f) := ⟨.drainCfg aIssue (anArr 2#4), rfl, by decide +kernel⟩
theorem Listed.resetWalk (c : Issue) (f : ArrF) : Listed.Statement (.resetWalk c f) := ⟨.resetWalk aIssue (anArr 3#4), rfl, by decide +kernel⟩
theorem Listed.waitExpiry (tile : TileId) : Listed.Statement (.waitExpiry tile) := ⟨.waitExpiry 0, rfl, rfl⟩
theorem Listed.programHalted (tile : TileId) (cyc : Nat) : Listed.Statement (.programHalted tile cyc) := ⟨.programHalted 0 0, rfl, rfl⟩
theorem Listed.modeComplete (tile : TileId) : Listed.Statement (.modeComplete tile) := ⟨.modeComplete 0, rfl, rfl⟩
theorem Listed.drainComplete (tile : TileId) (cyc : Nat) : Listed.Statement (.drainComplete tile cyc) := ⟨.drainComplete 0 0, rfl, rfl⟩
theorem Listed.stallLimit (tile : TileId) : Listed.Statement (.stallLimit tile) := ⟨.stallLimit 0, rfl, rfl⟩
theorem Listed.fenceComplete (tile : TileId) : Listed.Statement (.fenceComplete tile) := ⟨.fenceComplete 0, rfl, rfl⟩
theorem Listed.transcendentalUnitFree (tile : TileId) : Listed.Statement (.transcendentalUnitFree tile) := ⟨.transcendentalUnitFree 0, rfl, rfl⟩
theorem Listed.messageArrival (tile : TileId) (door : BitVec 4) (src : ArrivalSrc) (time : Nat) (cyc : Nat) : Listed.Statement (.messageArrival tile door src time cyc) := ⟨.messageArrival 0 0 (.local 0) 0 0, rfl, by decide +kernel⟩
theorem Listed.creditReturn (tile : TileId) (src : CreditSrc) (cyc : Nat) : Listed.Statement (.creditReturn tile src cyc) := ⟨.creditReturn 0 (.local 0 0) 0, rfl, by decide +kernel⟩
theorem Listed.recvtExpiry (tile : TileId) (time : Nat) (cyc : Nat) : Listed.Statement (.recvtExpiry tile time cyc) := ⟨.recvtExpiry 0 0 0, rfl, rfl⟩
theorem Listed.arrayCommandStart (tile : TileId) (b : Bool) (cyc : Waited) : Listed.Statement (.arrayCommandStart tile b cyc) := ⟨.arrayCommandStart 0 false ⟨0, 0⟩, rfl, rfl⟩
theorem Listed.mmDrained (tile : TileId) (b : Bool) (wait : Vector Nat 8) (press : Vector Nat 8) (cyc : Nat) : Listed.Statement (.mmDrained tile b wait press cyc) := ⟨.mmDrained 0 false (.replicate 8 0) (.replicate 8 0) 0, rfl, rfl⟩
theorem Listed.dramToPantry (tile : TileId) (h : Fin 16) (rows : Nat) (cyc : MoveAt) : Listed.Statement (.dramToPantry tile h rows cyc) := ⟨.dramToPantry 0 0 0 ⟨0, 0, 0, 0⟩, rfl, rfl⟩
theorem Listed.pantryToDram (tile : TileId) (h : Fin 16) (rows : Nat) (cyc : MoveAt) : Listed.Statement (.pantryToDram tile h rows cyc) := ⟨.pantryToDram 0 0 0 ⟨0, 0, 0, 0⟩, rfl, rfl⟩
theorem Listed.pantryToPantry (tile : TileId) (h : Fin 16) (rows : Nat) (cyc : MoveAt) : Listed.Statement (.pantryToPantry tile h rows cyc) := ⟨.pantryToPantry 0 0 0 ⟨0, 0, 0, 0⟩, rfl, rfl⟩
theorem Listed.pantryToTile (tile : TileId) (h : Fin 16) (rows : Nat) (cyc : MoveAt) : Listed.Statement (.pantryToTile tile h rows cyc) := ⟨.pantryToTile 0 0 0 ⟨0, 0, 0, 0⟩, rfl, rfl⟩
theorem Listed.fill (tile : TileId) (h : Fin 16) (rows : Nat) (cyc : MoveAt) : Listed.Statement (.fill tile h rows cyc) := ⟨.fill 0 0 0 ⟨0, 0, 0, 0⟩, rfl, rfl⟩
theorem Listed.descriptorComplete (tile : TileId) (h : Fin 16) (cyc : Nat) (waited : Nat) : Listed.Statement (.descriptorComplete tile h cyc waited) := ⟨.descriptorComplete 0 0 0 0, rfl, rfl⟩
theorem Listed.gstatAttach (tile : TileId) (waited : Nat) (cyc : Nat) : Listed.Statement (.gstatAttach tile waited cyc) := ⟨.gstatAttach 0 0 0, rfl, rfl⟩
theorem Listed.gstatComplete (tile : TileId) (cyc : Waited) : Listed.Statement (.gstatComplete tile cyc) := ⟨.gstatComplete 0 ⟨0, 0⟩, rfl, rfl⟩
theorem Listed.root (tile : TileId) (cyc : Nat) : Listed.Statement (.root tile cyc) := ⟨.root 0 0, rfl, rfl⟩
theorem Listed.nsinv (tile : TileId) (cyc : Nat) : Listed.Statement (.nsinv tile cyc) := ⟨.nsinv 0 0, rfl, rfl⟩
theorem Listed.chol (tile : TileId) (cyc : Nat) : Listed.Statement (.chol tile cyc) := ⟨.chol 0 0, rfl, rfl⟩
theorem Listed.trsvL (tile : TileId) (cyc : Nat) : Listed.Statement (.trsvL tile cyc) := ⟨.trsvL 0 0, rfl, rfl⟩
theorem Listed.trsvLt (tile : TileId) (cyc : Nat) : Listed.Statement (.trsvLt tile cyc) := ⟨.trsvLt 0 0, rfl, rfl⟩
theorem Listed.cholsolve (tile : TileId) (cyc : Nat) : Listed.Statement (.cholsolve tile cyc) := ⟨.cholsolve 0 0, rfl, rfl⟩
theorem Listed.marverDescriptorDone (tile : TileId) (cyc : Waited) : Listed.Statement (.marverDescriptorDone tile cyc) := ⟨.marverDescriptorDone 0 ⟨0, 0⟩, rfl, rfl⟩
theorem Listed.deadlineExpiry (tile : TileId) (time : Nat) (cyc : Waited) (ats : List MvAt) : Listed.Statement (.deadlineExpiry tile time cyc ats) := ⟨.deadlineExpiry 0 0 ⟨0, 0⟩ [], rfl, rfl⟩
theorem Listed.marverRelease (tile : TileId) : Listed.Statement (.marverRelease tile) := ⟨.marverRelease 0, rfl, rfl⟩
theorem Listed.pantryMasterAccess (tile : TileId) (master : Fin 4) (addr : Nat) (n : Fin 65) (data : Option (List Byte)) (wait : Nat) : Listed.Statement (.pantryMasterAccess tile master addr n data wait) := ⟨.pantryMasterAccess 0 0 0 0 none 0, rfl, by decide +kernel⟩
theorem Listed.regionDescriptorWrite (actor : Actor) (tile : TileId) (m : Fin 7) (d : Fin 8) (word : Bool) (v : Word) : Listed.Statement (.regionDescriptorWrite actor tile m d word v) := ⟨.regionDescriptorWrite .host 0 0 0 false 0, rfl, rfl⟩
theorem Listed.bankReq (actor : Actor) (tile : TileId) (m : Fin 3) (v : Word) : Listed.Statement (.bankReq actor tile m v) := ⟨.bankReq .host 0 0 0, rfl, rfl⟩
theorem Listed.bankTransitionEnd (tile : TileId) (bank : Fin 40) : Listed.Statement (.bankTransitionEnd tile bank) := ⟨.bankTransitionEnd 0 0, rfl, rfl⟩
theorem Listed.sweepRegionStart (tile : TileId) (fails : List (Fin 64)) : Listed.Statement (.sweepRegionStart tile fails) := ⟨.sweepRegionStart 0 [], rfl, rfl⟩
theorem Listed.ctrClear (actor : Actor) (tile : TileId) : Listed.Statement (.ctrClear actor tile) := ⟨.ctrClear .host 0, rfl, rfl⟩
theorem Listed.start (actor : Actor) (tile : TileId) (entry : Fin 8192) : Listed.Statement (.start actor tile entry) := ⟨.start .host 0 0, rfl, rfl⟩
theorem Listed.abort (actor : Actor) (tile : TileId) : Listed.Statement (.abort actor tile) := ⟨.abort .host 0, rfl, rfl⟩
theorem Listed.freeze (actor : Actor) (ty : Nat) (inst : Nat) (on : Bool) : Listed.Statement (.freeze actor ty inst on) := ⟨.freeze .host 1 0 false, rfl, by decide +kernel⟩
theorem Listed.softReset (actor : Actor) (ty : Nat) (inst : Nat) : Listed.Statement (.softReset actor ty inst) := ⟨.softReset .host 1 0, rfl, by decide +kernel⟩
theorem Listed.enable (actor : Actor) (ty : Nat) (inst : Nat) (on : Bool) : Listed.Statement (.enable actor ty inst on) := ⟨.enable .host 1 0 false, rfl, by decide +kernel⟩
theorem Listed.intStatusClear (actor : Actor) (ty : Nat) (inst : Nat) (pg : Nat) (mask : Word) : Listed.Statement (.intStatusClear actor ty inst pg mask) := ⟨.intStatusClear .host 1 0 0 0, rfl, by decide +kernel⟩
theorem Listed.intForce (actor : Actor) (ty : Nat) (inst : Nat) (pg : Nat) (mask : Word) : Listed.Statement (.intForce actor ty inst pg mask) := ⟨.intForce .host 1 0 0 0, rfl, by decide +kernel⟩
theorem Listed.perfEvent (actor : Actor) (ty : Nat) (inst : Nat) (ev : Byte) : Listed.Statement (.perfEvent actor ty inst ev) := ⟨.perfEvent .host 1 0 0, rfl, by decide +kernel⟩
theorem Listed.perfClear (actor : Actor) (ty : Nat) (inst : Nat) : Listed.Statement (.perfClear actor ty inst) := ⟨.perfClear .host 1 0, rfl, by decide +kernel⟩
theorem Listed.latchingRead (actor : Actor) (addr : BitVec 26) (wide : Bool) : Listed.Statement (.latchingRead actor addr wide) := ⟨.latchingRead .host 0 false, rfl, rfl⟩
theorem Listed.bar0InvalidAccess (actor : Actor) (addr : BitVec 26) (n : Fin 65) (write : Bool) : Listed.Statement (.bar0InvalidAccess actor addr n write) := ⟨.bar0InvalidAccess .host 0 1 false, rfl, by decide +kernel⟩
theorem Listed.registerWrite (actor : Actor) (addr : BitVec 26) (wide : Bool) (v : Word64) : Listed.Statement (.registerWrite actor addr wide v) := ⟨.registerWrite .host 0 false 0, rfl, rfl⟩
theorem Listed.commit (d : BitVec 19) (skipped : Bool) (roots : Bool) (step : Word64) (epoch : BitVec 16) (acc : BitVec 16) (crc : Word) (growth : BitVec 24) (nonfinite : Word) : Listed.Statement (.commit d skipped roots step epoch acc crc growth nonfinite) := ⟨.commit 0 false false 0 0 0 0 0 0, rfl, rfl⟩
theorem Listed.scan (d : BitVec 19) : Listed.Statement (.scan d) := ⟨.scan 0, rfl, rfl⟩
theorem Listed.commitExecute (t : Nat) : Listed.Statement (.commitExecute t) := ⟨.commitExecute 0, rfl, rfl⟩
theorem Listed.scanExecute (t : Nat) : Listed.Statement (.scanExecute t) := ⟨.scanExecute 0, rfl, rfl⟩
theorem Listed.queryDomain (actor : Actor) (d : BitVec 19) : Listed.Statement (.queryDomain actor d) := ⟨.queryDomain .host 0, rfl, rfl⟩
theorem Listed.readPinRequest (d : BitVec 19) (h : PinHolder) : Listed.Statement (.readPinRequest d h) := ⟨.readPinRequest 0 .exportEngine, rfl, rfl⟩
theorem Listed.readPinRelease (d : BitVec 19) (h : PinHolder) : Listed.Statement (.readPinRelease d h) := ⟨.readPinRelease 0 .exportEngine, rfl, rfl⟩
theorem Listed.stepBoundary (d : BitVec 19) (t : BoundaryAt) : Listed.Statement (.stepBoundary d t) := ⟨.stepBoundary 0 ⟨0, true⟩, rfl, rfl⟩
theorem Listed.opPush (addr : BitVec 41) (t : Nat) : Listed.Statement (.opPush addr t) := ⟨.opPush 0 0, rfl, rfl⟩
theorem Listed.opAbort (t : Nat) : Listed.Statement (.opAbort t) := ⟨.opAbort 0, rfl, rfl⟩
theorem Listed.gradOp (t : Nat) : Listed.Statement (.gradOp t) := ⟨.gradOp 0, rfl, rfl⟩
theorem Listed.statOp (t : Nat) : Listed.Statement (.statOp t) := ⟨.statOp 0, rfl, rfl⟩
theorem Listed.rootOp (t : Nat) : Listed.Statement (.rootOp t) := ⟨.rootOp 0, rfl, rfl⟩
theorem Listed.dataChunk (ch : Fin 16) (data : List Byte) (t : Nat) : Listed.Statement (.dataChunk ch data t) := ⟨.dataChunk 0 (List.replicate 64 0#8) 0, rfl, by decide +kernel⟩
theorem Listed.premaxChunk (ch : Fin 16) (data : List Byte) (t : Nat) : Listed.Statement (.premaxChunk ch data t) := ⟨.premaxChunk 0 (List.replicate 64 0#8) 0, rfl, by decide +kernel⟩
theorem Listed.statChunk (ch : Fin 16) (data : List Byte) (t : Nat) : Listed.Statement (.statChunk ch data t) := ⟨.statChunk 0 (List.replicate 64 0#8) 0, rfl, by decide +kernel⟩
theorem Listed.rootChunk (ch : Fin 16) (data : List Byte) (t : Nat) : Listed.Statement (.rootChunk ch data t) := ⟨.rootChunk 0 (List.replicate 64 0#8) 0, rfl, by decide +kernel⟩
theorem Listed.endChunk (ch : Fin 16) (data : List Byte) (t : Nat) : Listed.Statement (.endChunk ch data t) := ⟨.endChunk 0 (List.replicate 64 0#8) 0, rfl, by decide +kernel⟩
theorem Listed.closeChunk (ch : Fin 16) (data : List Byte) (t : Nat) : Listed.Statement (.closeChunk ch data t) := ⟨.closeChunk 0 (List.replicate 64 0#8) 0, rfl, by decide +kernel⟩
theorem Listed.grantChunk (ch : Fin 16) (data : List Byte) (t : Nat) : Listed.Statement (.grantChunk ch data t) := ⟨.grantChunk 0 (List.replicate 64 0#8) 0, rfl, by decide +kernel⟩
theorem Listed.hopTimeout (ch : Fin 16) (t : Nat) : Listed.Statement (.hopTimeout ch t) := ⟨.hopTimeout 0 0, rfl, rfl⟩
theorem Listed.opDone (t : Nat) (fit : List Nat) : Listed.Statement (.opDone t fit) := ⟨.opDone 0 [], rfl, rfl⟩
theorem Listed.stepReport (data : List Byte) (fit : List Nat) (t : Nat) : Listed.Statement (.stepReport data fit t) := ⟨.stepReport (List.replicate 128 0#8) [] 0, rfl, by decide +kernel⟩
theorem Listed.groupTable (data : List Byte) (t : Nat) : Listed.Statement (.groupTable data t) := ⟨.groupTable [] 0, rfl, rfl⟩
theorem Listed.failRecord (data : List Byte) (t : Nat) : Listed.Statement (.failRecord data t) := ⟨.failRecord [] 0, rfl, rfl⟩
theorem Listed.tableRerequest (d : BitVec 19) (position : Fin 4096) (t : Nat) : Listed.Statement (.tableRerequest d position t) := ⟨.tableRerequest 0 0 0, rfl, rfl⟩
theorem Listed.heartbeatSend (d : BitVec 19) (t : Nat) : Listed.Statement (.heartbeatSend d t) := ⟨.heartbeatSend 0 0, rfl, rfl⟩
theorem Listed.heartbeat (d : BitVec 19) (position : Fin 4096) (t : Nat) : Listed.Statement (.heartbeat d position t) := ⟨.heartbeat 0 0 0, rfl, rfl⟩
theorem Listed.heartbeatExpiry (d : BitVec 19) (position : Fin 4096) (t : Nat) (fit : List Nat) : Listed.Statement (.heartbeatExpiry d position t fit) := ⟨.heartbeatExpiry 0 0 0 [], rfl, rfl⟩
theorem Listed.memberStop (d : BitVec 19) (position : Fin 4096) (t : Nat) (fit : List Nat) : Listed.Statement (.memberStop d position t fit) := ⟨.memberStop 0 0 0 [], rfl, rfl⟩
theorem Listed.linkFailureReport (d : BitVec 19) (position : Fin 4096) (peer : Fin 4096) (t : Nat) (fit : List Nat) : Listed.Statement (.linkFailureReport d position peer t fit) := ⟨.linkFailureReport 0 0 0 0 [], rfl, rfl⟩
theorem Listed.cloneFetchRequest (d : BitVec 19) (member : Fin 4096) (ask : CloneAsk) (t : Nat) : Listed.Statement (.cloneFetchRequest d member ask t) := ⟨.cloneFetchRequest 0 0 .record 0, rfl, rfl⟩
theorem Listed.cloneLeafArrival (d : BitVec 19) (unit : CloneUnit) (t : Nat) : Listed.Statement (.cloneLeafArrival d unit t) := ⟨.cloneLeafArrival 0 (.records []) 0, rfl, by decide +kernel⟩
theorem Listed.cloneDone (d : BitVec 19) (position : Fin 4096) (member : Fin 4096) (t : Nat) : Listed.Statement (.cloneDone d position member t) := ⟨.cloneDone 0 0 0 0, rfl, rfl⟩
theorem Listed.spareWaitExpiry (d : BitVec 19) (t : Nat) : Listed.Statement (.spareWaitExpiry d t) := ⟨.spareWaitExpiry 0 0, rfl, rfl⟩
theorem Listed.agreedCopyDone (d : BitVec 19) (t : Nat) : Listed.Statement (.agreedCopyDone d t) := ⟨.agreedCopyDone 0 0, rfl, rfl⟩
theorem Listed.exportGo (actor : Actor) (t : Nat) : Listed.Statement (.exportGo actor t) := ⟨.exportGo .host 0, rfl, rfl⟩
theorem Listed.exportAbort (actor : Actor) (t : Nat) : Listed.Statement (.exportAbort actor t) := ⟨.exportAbort .host 0, rfl, rfl⟩
theorem Listed.exportDone (t : Nat) : Listed.Statement (.exportDone t) := ⟨.exportDone 0, rfl, rfl⟩
theorem Listed.peerDone (t : Nat) : Listed.Statement (.peerDone t) := ⟨.peerDone 0, rfl, rfl⟩
theorem Listed.pinExpired (t : Nat) : Listed.Statement (.pinExpired t) := ⟨.pinExpired 0, rfl, rfl⟩
theorem Listed.hostLinkUp (p : Fin 2) (gt64 : Bool) (x8 : Bool) (flit256 : Bool) (t : Nat) : Listed.Statement (.hostLinkUp p gt64 x8 flit256 t) := ⟨.hostLinkUp 0 false false false 0, rfl, rfl⟩
theorem Listed.hostLinkDown (p : Fin 2) (t : Nat) : Listed.Statement (.hostLinkDown p t) := ⟨.hostLinkDown 0 0, rfl, rfl⟩
theorem Listed.haTrainingTimeout (t : Nat) : Listed.Statement (.haTrainingTimeout t) := ⟨.haTrainingTimeout 0, rfl, rfl⟩
theorem Listed.failoverReq (p : Fin 2) (t : Nat) : Listed.Statement (.failoverReq p t) := ⟨.failoverReq 0 0, rfl, rfl⟩
theorem Listed.failoverDelayExpiry (t : Nat) : Listed.Statement (.failoverDelayExpiry t) := ⟨.failoverDelayExpiry 0, rfl, rfl⟩
theorem Listed.windowRead (p : Fin 2) (offset : Nat) (lines : Nat) : Listed.Statement (.windowRead p offset lines) := ⟨.windowRead 0 0 0, rfl, rfl⟩
theorem Listed.windowWrite (p : Fin 2) : Listed.Statement (.windowWrite p) := ⟨.windowWrite 0, rfl, rfl⟩
theorem Listed.h2dSnoop (p : Fin 2) : Listed.Statement (.h2dSnoop p) := ⟨.h2dSnoop 0, rfl, rfl⟩
theorem Listed.linkLock (p : Fin 8) (t : Nat) : Listed.Statement (.linkLock p t) := ⟨.linkLock 0 0, rfl, rfl⟩
theorem Listed.portTrainingTimeout (p : Fin 8) (t : Nat) : Listed.Statement (.portTrainingTimeout p t) := ⟨.portTrainingTimeout 0 0, rfl, rfl⟩
theorem Listed.attestTimeout (p : Fin 8) (t : Nat) : Listed.Statement (.attestTimeout p t) := ⟨.attestTimeout 0 0, rfl, rfl⟩
theorem Listed.portBackoffExpiry (p : Fin 8) (t : Nat) : Listed.Statement (.portBackoffExpiry p t) := ⟨.portBackoffExpiry 0 0, rfl, rfl⟩
theorem Listed.ident (f : RxFrame) : Listed.Statement (.ident f) := ⟨.ident aFrame, rfl, rfl⟩
theorem Listed.attestFrame (f : RxFrame) : Listed.Statement (.attestFrame f) := ⟨.attestFrame aFrame, rfl, rfl⟩
theorem Listed.ack (f : RxFrame) : Listed.Statement (.ack f) := ⟨.ack aFrame, rfl, rfl⟩
theorem Listed.replayTimeout (p : Fin 8) (t : Nat) : Listed.Statement (.replayTimeout p t) := ⟨.replayTimeout 0 0, rfl, rfl⟩
theorem Listed.fecUncorrectable (p : Fin 8) (t : Nat) : Listed.Statement (.fecUncorrectable p t) := ⟨.fecUncorrectable 0 0, rfl, rfl⟩
theorem Listed.timebaseFrame (f : RxFrame) (stamp : Nat) : Listed.Statement (.timebaseFrame f stamp) := ⟨.timebaseFrame aFrame 0, rfl, rfl⟩
theorem Listed.timebaseExchange (par : Option (Fin 8 × Nat × Nat)) (t1 : Nat) (t2 : Nat) (t3 : Nat) (t4 : Nat) (t : Nat) : Listed.Statement (.timebaseExchange par t1 t2 t3 t4 t) := ⟨.timebaseExchange none 0 0 0 0 0, rfl, by decide +kernel⟩
theorem Listed.timeUnsync (t : Nat) : Listed.Statement (.timeUnsync t) := ⟨.timeUnsync 0, rfl, rfl⟩
theorem Listed.controlFrame (f : RxFrame) (told : Option Told) (fit : List Nat) : Listed.Statement (.controlFrame f told fit) := ⟨.controlFrame aFrame none [], rfl, rfl⟩
theorem Listed.doorFrame (f : RxFrame) (x : DoorItem) (cyc : Nat) : Listed.Statement (.doorFrame f x cyc) := ⟨.doorFrame aFrame (.credits 0 0 0 0 1) 0, rfl, by decide +kernel⟩
theorem Listed.reductionFrame (f : RxFrame) : Listed.Statement (.reductionFrame f) := ⟨.reductionFrame aFrame, rfl, rfl⟩
theorem Listed.bulkFrame (f : RxFrame) : Listed.Statement (.bulkFrame f) := ⟨.bulkFrame aFrame, rfl, rfl⟩
theorem Listed.membership (member : Fin 4096) (state : Fin 8) (boot : Nat) (serial : Nat) (runtime : Nat) (t : Nat) (fit : List Nat) : Listed.Statement (.membership member state boot serial runtime t fit) := ⟨.membership 0 0 0 0 0 0 [], rfl, rfl⟩
theorem Listed.dramRead (addr : Nat) (n : Nat) (hits : List DramHit) : Listed.Statement (.dramRead addr n hits) := ⟨.dramRead 0 0 [], rfl, rfl⟩
theorem Listed.dramWrite (addr : Nat) (data : List Byte) (hits : List DramHit) : Listed.Statement (.dramWrite addr data hits) := ⟨.dramWrite 0 [] [], rfl, rfl⟩
theorem Listed.patrolScrub (ch : Fin 24) (hits : List DramHit) (t : Nat) : Listed.Statement (.patrolScrub ch hits t) := ⟨.patrolScrub 0 [] 0, rfl, rfl⟩
theorem Listed.dimmTemperatureRead (ch : Fin 24) (temp : Nat) (t : Nat) : Listed.Statement (.dimmTemperatureRead ch temp t) := ⟨.dimmTemperatureRead 0 0 0, rfl, rfl⟩
theorem Listed.getVersion (a : MbxArgs) : Listed.Statement (.getVersion a) := ⟨.getVersion aRequest, rfl, by decide +kernel⟩
theorem Listed.getDeviceInfo (a : MbxArgs) : Listed.Statement (.getDeviceInfo a) := ⟨.getDeviceInfo aRequest, rfl, by decide +kernel⟩
theorem Listed.bind (a : MbxArgs) : Listed.Statement (.bind a) := ⟨.bind aRequest, rfl, by decide +kernel⟩
theorem Listed.unbind (a : MbxArgs) : Listed.Statement (.unbind a) := ⟨.unbind aRequest, rfl, by decide +kernel⟩
theorem Listed.imageLoad (a : MbxArgs) : Listed.Statement (.imageLoad a) := ⟨.imageLoad aRequest, rfl, by decide +kernel⟩
theorem Listed.runtimeHandover (a : MbxArgs) : Listed.Statement (.runtimeHandover a) := ⟨.runtimeHandover aRequest, rfl, by decide +kernel⟩
theorem Listed.flashWrite (a : MbxArgs) : Listed.Statement (.flashWrite a) := ⟨.flashWrite aRequest, rfl, by decide +kernel⟩
theorem Listed.svnRaise (a : MbxArgs) : Listed.Statement (.svnRaise a) := ⟨.svnRaise aRequest, rfl, by decide +kernel⟩
theorem Listed.attest (a : MbxArgs) : Listed.Statement (.attest a) := ⟨.attest aRequest, rfl, by decide +kernel⟩
theorem Listed.memberSet (a : MbxArgs) : Listed.Statement (.memberSet a) := ⟨.memberSet aRequest, rfl, by decide +kernel⟩
theorem Listed.spareSet (a : MbxArgs) : Listed.Statement (.spareSet a) := ⟨.spareSet aRequest, rfl, by decide +kernel⟩
theorem Listed.groupSet (a : MbxArgs) : Listed.Statement (.groupSet a) := ⟨.groupSet aRequest, rfl, by decide +kernel⟩
theorem Listed.queueCreate (a : MbxArgs) : Listed.Statement (.queueCreate a) := ⟨.queueCreate aRequest, rfl, by decide +kernel⟩
theorem Listed.queueDestroy (a : MbxArgs) : Listed.Statement (.queueDestroy a) := ⟨.queueDestroy aRequest, rfl, by decide +kernel⟩
theorem Listed.queueRingSet (a : MbxArgs) : Listed.Statement (.queueRingSet a) := ⟨.queueRingSet aRequest, rfl, by decide +kernel⟩
theorem Listed.queueStop (a : MbxArgs) : Listed.Statement (.queueStop a) := ⟨.queueStop aRequest, rfl, by decide +kernel⟩
theorem Listed.queueResume (a : MbxArgs) : Listed.Statement (.queueResume a) := ⟨.queueResume aRequest, rfl, by decide +kernel⟩
theorem Listed.queueQuery (a : MbxArgs) : Listed.Statement (.queueQuery a) := ⟨.queueQuery aRequest, rfl, by decide +kernel⟩
theorem Listed.contextCreate (a : MbxArgs) : Listed.Statement (.contextCreate a) := ⟨.contextCreate aRequest, rfl, by decide +kernel⟩
theorem Listed.contextDestroy (a : MbxArgs) : Listed.Statement (.contextDestroy a) := ⟨.contextDestroy aRequest, rfl, by decide +kernel⟩
theorem Listed.placementWrite (a : MbxArgs) : Listed.Statement (.placementWrite a) := ⟨.placementWrite aRequest, rfl, by decide +kernel⟩
theorem Listed.domainSet (a : MbxArgs) : Listed.Statement (.domainSet a) := ⟨.domainSet aRequest, rfl, by decide +kernel⟩
theorem Listed.upbSubmit (a : MbxArgs) : Listed.Statement (.upbSubmit a) := ⟨.upbSubmit aRequest, rfl, by decide +kernel⟩
theorem Listed.retainSet (a : MbxArgs) : Listed.Statement (.retainSet a) := ⟨.retainSet aRequest, rfl, by decide +kernel⟩
theorem Listed.baseLoad (a : MbxArgs) : Listed.Statement (.baseLoad a) := ⟨.baseLoad aRequest, rfl, by decide +kernel⟩
theorem Listed.exportReq (a : MbxArgs) : Listed.Statement (.exportReq a) := ⟨.exportReq aRequest, rfl, by decide +kernel⟩
theorem Listed.cellarRestore (a : MbxArgs) : Listed.Statement (.cellarRestore a) := ⟨.cellarRestore aRequest, rfl, by decide +kernel⟩
theorem Listed.channelRetire (a : MbxArgs) : Listed.Statement (.channelRetire a) := ⟨.channelRetire aRequest, rfl, by decide +kernel⟩
theorem Listed.logRead (a : MbxArgs) : Listed.Statement (.logRead a) := ⟨.logRead aRequest, rfl, by decide +kernel⟩
theorem Listed.lifecycleSet (a : MbxArgs) : Listed.Statement (.lifecycleSet a) := ⟨.lifecycleSet aRequest, rfl, by decide +kernel⟩
theorem Listed.unlistedOpcodeRequest (bytes : List Byte) (dma : List Byte) (t : Nat) : Listed.Statement (.unlistedOpcodeRequest bytes dma t) := ⟨.unlistedOpcodeRequest (List.replicate 32 0#8) [] 0, rfl, by decide +kernel⟩
theorem Listed.rspHeadWrite (v : Word) (t : Nat) : Listed.Statement (.rspHeadWrite v t) := ⟨.rspHeadWrite 0 0, rfl, rfl⟩
theorem Listed.evtHeadWrite (v : Word) (t : Nat) : Listed.Statement (.evtHeadWrite v t) := ⟨.evtHeadWrite 0 0, rfl, rfl⟩
theorem Listed.queueDoorbell (q : BitVec 15) (v : Word) (entries : List (List Byte)) (t : Nat) : Listed.Statement (.queueDoorbell q v entries t) := ⟨.queueDoorbell 0 0 [] 0, rfl, by decide +kernel⟩
theorem Listed.unitStart (t : Nat) : Listed.Statement (.unitStart t) := ⟨.unitStart 0, rfl, rfl⟩
theorem Listed.runComplete (q : BitVec 15) (t : Nat) : Listed.Statement (.runComplete q t) := ⟨.runComplete 0 0, rfl, rfl⟩
theorem Listed.queueFault (q : BitVec 15) (t : Nat) : Listed.Statement (.queueFault q t) := ⟨.queueFault 0 0, rfl, rfl⟩
theorem Listed.handoverBegin (t : Nat) : Listed.Statement (.handoverBegin t) := ⟨.handoverBegin 0, rfl, rfl⟩
theorem Listed.wdtKick (n : Fin 4) (t : Nat) : Listed.Statement (.wdtKick n t) := ⟨.wdtKick 0 0, rfl, rfl⟩
theorem Listed.watchdogExpiry (n : Fin 4) (copyOk : Bool) (t : Nat) : Listed.Statement (.watchdogExpiry n copyOk t) := ⟨.watchdogExpiry 0 false 0, rfl, rfl⟩
theorem Listed.cpRestartComplete (n : Fin 4) (t : Nat) : Listed.Statement (.cpRestartComplete n t) := ⟨.cpRestartComplete 0 0, rfl, rfl⟩
theorem Listed.escalationWindowExpiry (t : Nat) : Listed.Statement (.escalationWindowExpiry t) := ⟨.escalationWindowExpiry 0, rfl, rfl⟩
theorem Listed.hostLossTimeout (t : Nat) : Listed.Statement (.hostLossTimeout t) := ⟨.hostLossTimeout 0, rfl, rfl⟩
theorem Listed.holdRunLimit (t : Nat) : Listed.Statement (.holdRunLimit t) := ⟨.holdRunLimit 0, rfl, rfl⟩
theorem Listed.hostLoadWaitExpiry (t : Nat) : Listed.Statement (.hostLoadWaitExpiry t) := ⟨.hostLoadWaitExpiry 0, rfl, rfl⟩
theorem Listed.vinSample (mv : Nat) (t : Nat) : Listed.Statement (.vinSample mv t) := ⟨.vinSample 0 0, rfl, rfl⟩
theorem Listed.railFault (dimm : Bool) (n : Nat) (t : Nat) : Listed.Statement (.railFault dimm n t) := ⟨.railFault false 0 0, rfl, by decide +kernel⟩
theorem Listed.breakerPowerTick (p10us : Nat) (p10ms : Nat) (t : Nat) : Listed.Statement (.breakerPowerTick p10us p10ms t) := ⟨.breakerPowerTick 0 0 0, rfl, rfl⟩
theorem Listed.breakerThermalTick (temps : List Nat) (t : Nat) : Listed.Statement (.breakerThermalTick temps t) := ⟨.breakerThermalTick (List.replicate 42 0) 0, rfl, by decide +kernel⟩
theorem Listed.breakerLimitWrite (actor : Actor) (l : Limit) (v : Word) : Listed.Statement (.breakerLimitWrite actor l v) := ⟨.breakerLimitWrite .host .pcap 0, rfl, rfl⟩
theorem Listed.cp2Live (actor : Actor) (t : Nat) : Listed.Statement (.cp2Live actor t) := ⟨.cp2Live .host 0, rfl, rfl⟩
theorem Listed.cp2LiveExpiry (t : Nat) : Listed.Statement (.cp2LiveExpiry t) := ⟨.cp2LiveExpiry 0, rfl, rfl⟩
theorem Listed.freqApply (actor : Actor) (n : Fin 4) (t : Nat) : Listed.Statement (.freqApply actor n t) := ⟨.freqApply .host 0 0, rfl, rfl⟩
theorem Listed.freqChangeDone (n : Fin 4) (t : Nat) : Listed.Statement (.freqChangeDone n t) := ⟨.freqChangeDone 0 0, rfl, rfl⟩
theorem Listed.domainRequest (actor : Actor) (dom : Fin 50) (v : BitVec 2) (t : Nat) : Listed.Statement (.domainRequest actor dom v t) := ⟨.domainRequest .host 0 0 0, rfl, rfl⟩
theorem Listed.domainTransitionEnd (dom : Fin 50) (t : Nat) : Listed.Statement (.domainTransitionEnd dom t) := ⟨.domainTransitionEnd 0 0, rfl, rfl⟩
theorem Listed.pwrDomainTimeout (dom : Fin 50) (t : Nat) : Listed.Statement (.pwrDomainTimeout dom t) := ⟨.pwrDomainTimeout 0 0, rfl, rfl⟩
theorem Listed.clusterIdleTimeout (c : Fin 32) (t : Nat) : Listed.Statement (.clusterIdleTimeout c t) := ⟨.clusterIdleTimeout 0 0, rfl, rfl⟩
theorem Listed.bankRetentionTimeout (c : Fin 32) (t : Nat) : Listed.Statement (.bankRetentionTimeout c t) := ⟨.bankRetentionTimeout 0 0, rfl, rfl⟩
theorem Listed.ageingSample (rs : List AgeReading) (t : Nat) : Listed.Statement (.ageingSample rs t) := ⟨.ageingSample [] 0, rfl, by decide +kernel⟩
theorem Listed.vSet (actor : Actor) (n : Fin 4) (k : Fin 8) (v : BitVec 16) : Listed.Statement (.vSet actor n k v) := ⟨.vSet .host 0 0 0, rfl, rfl⟩
theorem Listed.driftRecordDaily (t : Nat) : Listed.Statement (.driftRecordDaily t) := ⟨.driftRecordDaily 0, rfl, rfl⟩
theorem Listed.senseNMake (t : Nat) : Listed.Statement (.senseNMake t) := ⟨.senseNMake 0, rfl, rfl⟩
theorem Listed.inputSwitchClose (t : Nat) : Listed.Statement (.inputSwitchClose t) := ⟨.inputSwitchClose 0, rfl, rfl⟩
theorem Listed.senseNOpen (t : Nat) : Listed.Statement (.senseNOpen t) := ⟨.senseNOpen 0, rfl, rfl⟩
theorem Listed.perstNAssert (t : Nat) : Listed.Statement (.perstNAssert t) := ⟨.perstNAssert 0, rfl, rfl⟩
theorem Listed.perstNHoldExpiry (t : Nat) : Listed.Statement (.perstNHoldExpiry t) := ⟨.perstNHoldExpiry 0, rfl, rfl⟩
theorem Listed.perstNRelease (t : Nat) : Listed.Statement (.perstNRelease t) := ⟨.perstNRelease 0, rfl, rfl⟩
theorem Listed.deviceStart (finds : StartFinds) : Listed.Statement (.deviceStart finds) := ⟨.deviceStart aStart, rfl, by decide +kernel⟩
theorem Listed.cfgLock (actor : Actor) : Listed.Statement (.cfgLock actor) := ⟨.cfgLock .host, rfl, rfl⟩
theorem Listed.alertPendingClear (actor : Actor) (mask : Word) : Listed.Statement (.alertPendingClear actor mask) := ⟨.alertPendingClear .host 0, rfl, rfl⟩
theorem Listed.smbusByteWrite (reg : Byte) (v : Byte) : Listed.Statement (.smbusByteWrite reg v) := ⟨.smbusByteWrite 0 0, rfl, rfl⟩
theorem Listed.wakeNPulseEnd (t : Nat) : Listed.Statement (.wakeNPulseEnd t) := ⟨.wakeNPulseEnd 0, rfl, rfl⟩
theorem Listed.cageRegulatorFault (p : Fin 8) (t : Nat) : Listed.Statement (.cageRegulatorFault p t) := ⟨.cageRegulatorFault 0 0, rfl, rfl⟩

end Sys2Proof.Laws
end

