-- ==== Sys2Proof/Laws/Registers.lean ====
section
/-! SUPPORT. The register file: what a field reads as after a field is stored. -/

namespace Sys2Proof.Machine

set_option Elab.async false

theorem regFind_filter (m : List (Nat × Nat)) (k c : Nat) :
    regFind (m.filter (fun x => x.1 != k)) c = if k = c then none else regFind m c := by
  induction m with
  | nil => simp [regFind]
  | cons x m ih =>
    obtain ⟨x, y⟩ := x
    by_cases h1 : x = k
    · subst h1
      by_cases h2 : x = c <;> simp_all [regFind]
    · by_cases h2 : x = c
      · subst h2
        simp [regFind, h1, Ne.symm h1]
      · simp_all [regFind]

theorem regFind_insert (m : List (Nat × Nat)) (k v c : Nat) :
    regFind (regInsert m k v) c = if k = c then some v else regFind m c := by
  induction m with
  | nil => simp [regInsert, regFind]
  | cons x m ih =>
    obtain ⟨x, y⟩ := x
    simp only [regInsert]
    split
    · simp only [regFind, ih]
      by_cases h : x = c <;> by_cases h' : k = c <;> simp_all
    · split <;> by_cases h' : k = c <;> simp_all [regFind]

/-- What a key reads as after a key is listed or unlisted. -/
theorem regFind_regPut (m : List (Nat × Nat)) (k : Nat) (v : Option Nat) (c : Nat) :
    regFind (regPut m k v) c = if k = c then v else regFind m c := by
  cases v with
  | none => exact regFind_filter m k c
  | some v => exact regFind_insert m k v c

/-- A field reads as what was stored, cut to its width. -/
@[simp] theorem State.getF_setF_same (s : State) (f : Fld) (inst i v : Nat) :
    (s.setF f inst i v).getF f inst i = v % 2 ^ f.width := by
  simp only [State.getF, State.setF, regFind_regPut, if_true]
  split <;> simp_all

/-- A field stored at another place leaves a field as it was. -/
theorem State.getF_setF_ne (s : State) {f g : Fld} {inst i inst' i' : Nat} (v : Nat) (h : f.key inst i ≠ g.key inst' i') :
    (s.setF f inst i v).getF g inst' i' = s.getF g inst' i' := by
  simp only [State.getF, State.setF, regFind_regPut, h, if_false]

theorem State.flag_setF_same (s : State) (f : Fld) (inst i v : Nat) :
    (s.setF f inst i v).flag f inst i = (v % 2 ^ f.width != 0) := by
  simp [State.flag]

theorem State.flag_setF_ne (s : State) {f g : Fld} {inst i inst' i' : Nat} (v : Nat) (h : f.key inst i ≠ g.key inst' i') :
    (s.setF f inst i v).flag g inst' i' = s.flag g inst' i' := by
  simp [State.flag, State.getF_setF_ne s v h]

/-- A register page's bits of other blocks stay where INT_STATUS gets a bit. -/
theorem State.getF_raise_ne (s : State) {ty pg inst b : Nat} {g : Fld} {inst' i' : Nat}
    (h : (Hdr.INT_STATUS ty pg).key inst 0 ≠ g.key inst' i') : (s.raise ty pg inst b).getF g inst' i' = s.getF g inst' i' :=
  State.getF_setF_ne s _ h

end Sys2Proof.Machine
end

