-- ==== Sys2Proof/Laws/State.lean ====
section
/-! SUPPORT. One lemma per field and update: what the basic updates of the state leave as it was, and what they set. -/

namespace Sys2Proof.Machine

set_option Elab.async false

variable (s : State)

/-! State.setF. -/

@[simp] theorem State.setF_pending (f : Fld) (inst i v : Nat) : (s.setF f inst i v).pending = s.pending := rfl
@[simp] theorem State.setF_now (f : Fld) (inst i v : Nat) : (s.setF f inst i v).now = s.now := rfl
@[simp] theorem State.setF_free (f : Fld) (inst i v : Nat) : (s.setF f inst i v).free = s.free := rfl
@[simp] theorem State.setF_tiles (f : Fld) (inst i v : Nat) : (s.setF f inst i v).tiles = s.tiles := rfl
@[simp] theorem State.setF_net (f : Fld) (inst i v : Nat) : (s.setF f inst i v).net = s.net := rfl
@[simp] theorem State.setF_credits (f : Fld) (inst i v : Nat) : (s.setF f inst i v).credits = s.credits := rfl
@[simp] theorem State.setF_reply (f : Fld) (inst i v : Nat) : (s.setF f inst i v).reply = s.reply := rfl
@[simp] theorem State.setF_dram (f : Fld) (inst i v : Nat) : (s.setF f inst i v).dram = s.dram := rfl
@[simp] theorem State.setF_dramCe (f : Fld) (inst i v : Nat) : (s.setF f inst i v).dramCe = s.dramCe := rfl
@[simp] theorem State.setF_dramUe (f : Fld) (inst i v : Nat) : (s.setF f inst i v).dramUe = s.dramUe := rfl
@[simp] theorem State.setF_digests (f : Fld) (inst i v : Nat) : (s.setF f inst i v).digests = s.digests := rfl
@[simp] theorem State.setF_domains (f : Fld) (inst i v : Nat) : (s.setF f inst i v).domains = s.domains := rfl
@[simp] theorem State.setF_commitQ (f : Fld) (inst i v : Nat) : (s.setF f inst i v).commitQ = s.commitQ := rfl
@[simp] theorem State.setF_commitWait (f : Fld) (inst i v : Nat) : (s.setF f inst i v).commitWait = s.commitWait := rfl
@[simp] theorem State.setF_cruQ (f : Fld) (inst i v : Nat) : (s.setF f inst i v).cruQ = s.cruQ := rfl
@[simp] theorem State.setF_cru (f : Fld) (inst i v : Nat) : (s.setF f inst i v).cru = s.cru := rfl
@[simp] theorem State.setF_cruDone (f : Fld) (inst i v : Nat) : (s.setF f inst i v).cruDone = s.cruDone := rfl
@[simp] theorem State.setF_cruLate (f : Fld) (inst i v : Nat) : (s.setF f inst i v).cruLate = s.cruLate := rfl
@[simp] theorem State.setF_exportJob (f : Fld) (inst i v : Nat) : (s.setF f inst i v).exportJob = s.exportJob := rfl
@[simp] theorem State.setF_queues (f : Fld) (inst i v : Nat) : (s.setF f inst i v).queues = s.queues := rfl
@[simp] theorem State.setF_mbx (f : Fld) (inst i v : Nat) : (s.setF f inst i v).mbx = s.mbx := rfl
@[simp] theorem State.setF_fw (f : Fld) (inst i v : Nat) : (s.setF f inst i v).fw = s.fw := rfl
@[simp] theorem State.setF_flash (f : Fld) (inst i v : Nat) : (s.setF f inst i v).flash = s.flash := rfl
@[simp] theorem State.setF_fuses (f : Fld) (inst i v : Nat) : (s.setF f inst i v).fuses = s.fuses := rfl
@[simp] theorem State.setF_sent (f : Fld) (inst i v : Nat) : (s.setF f inst i v).sent = s.sent := rfl
@[simp] theorem State.setF_loaded (f : Fld) (inst i v : Nat) : (s.setF f inst i v).loaded = s.loaded := rfl
@[simp] theorem State.setF_peers (f : Fld) (inst i v : Nat) : (s.setF f inst i v).peers = s.peers := rfl
@[simp] theorem State.setF_routes (f : Fld) (inst i v : Nat) : (s.setF f inst i v).routes = s.routes := rfl
@[simp] theorem State.setF_hostLinks (f : Fld) (inst i v : Nat) : (s.setF f inst i v).hostLinks = s.hostLinks := rfl
@[simp] theorem State.setF_ports (f : Fld) (inst i v : Nat) : (s.setF f inst i v).ports = s.ports := rfl
@[simp] theorem State.setF_inbox (f : Fld) (inst i v : Nat) : (s.setF f inst i v).inbox = s.inbox := rfl
@[simp] theorem State.setF_timeSt (f : Fld) (inst i v : Nat) : (s.setF f inst i v).timeSt = s.timeSt := rfl
@[simp] theorem State.setF_dimms (f : Fld) (inst i v : Nat) : (s.setF f inst i v).dimms = s.dimms := rfl
@[simp] theorem State.setF_torusFabric (f : Fld) (inst i v : Nat) : (s.setF f inst i v).torusFabric = s.torusFabric := rfl
@[simp] theorem State.setF_power (f : Fld) (inst i v : Nat) : (s.setF f inst i v).power = s.power := rfl
@[simp] theorem State.setF_latches (f : Fld) (inst i v : Nat) : (s.setF f inst i v).latches = s.latches := rfl

/-! State.setTile. -/

@[simp] theorem State.setTile_pending (i : TileId) (t : Tile) : (s.setTile i t).pending = s.pending := rfl
@[simp] theorem State.setTile_now (i : TileId) (t : Tile) : (s.setTile i t).now = s.now := rfl
@[simp] theorem State.setTile_free (i : TileId) (t : Tile) : (s.setTile i t).free = s.free := rfl
@[simp] theorem State.setTile_regs (i : TileId) (t : Tile) : (s.setTile i t).regs = s.regs := rfl
@[simp] theorem State.setTile_net (i : TileId) (t : Tile) : (s.setTile i t).net = s.net := rfl
@[simp] theorem State.setTile_credits (i : TileId) (t : Tile) : (s.setTile i t).credits = s.credits := rfl
@[simp] theorem State.setTile_reply (i : TileId) (t : Tile) : (s.setTile i t).reply = s.reply := rfl
@[simp] theorem State.setTile_dram (i : TileId) (t : Tile) : (s.setTile i t).dram = s.dram := rfl
@[simp] theorem State.setTile_dramCe (i : TileId) (t : Tile) : (s.setTile i t).dramCe = s.dramCe := rfl
@[simp] theorem State.setTile_dramUe (i : TileId) (t : Tile) : (s.setTile i t).dramUe = s.dramUe := rfl
@[simp] theorem State.setTile_digests (i : TileId) (t : Tile) : (s.setTile i t).digests = s.digests := rfl
@[simp] theorem State.setTile_domains (i : TileId) (t : Tile) : (s.setTile i t).domains = s.domains := rfl
@[simp] theorem State.setTile_commitQ (i : TileId) (t : Tile) : (s.setTile i t).commitQ = s.commitQ := rfl
@[simp] theorem State.setTile_commitWait (i : TileId) (t : Tile) : (s.setTile i t).commitWait = s.commitWait := rfl
@[simp] theorem State.setTile_cruQ (i : TileId) (t : Tile) : (s.setTile i t).cruQ = s.cruQ := rfl
@[simp] theorem State.setTile_cru (i : TileId) (t : Tile) : (s.setTile i t).cru = s.cru := rfl
@[simp] theorem State.setTile_cruDone (i : TileId) (t : Tile) : (s.setTile i t).cruDone = s.cruDone := rfl
@[simp] theorem State.setTile_cruLate (i : TileId) (t : Tile) : (s.setTile i t).cruLate = s.cruLate := rfl
@[simp] theorem State.setTile_exportJob (i : TileId) (t : Tile) : (s.setTile i t).exportJob = s.exportJob := rfl
@[simp] theorem State.setTile_queues (i : TileId) (t : Tile) : (s.setTile i t).queues = s.queues := rfl
@[simp] theorem State.setTile_mbx (i : TileId) (t : Tile) : (s.setTile i t).mbx = s.mbx := rfl
@[simp] theorem State.setTile_fw (i : TileId) (t : Tile) : (s.setTile i t).fw = s.fw := rfl
@[simp] theorem State.setTile_flash (i : TileId) (t : Tile) : (s.setTile i t).flash = s.flash := rfl
@[simp] theorem State.setTile_fuses (i : TileId) (t : Tile) : (s.setTile i t).fuses = s.fuses := rfl
@[simp] theorem State.setTile_sent (i : TileId) (t : Tile) : (s.setTile i t).sent = s.sent := rfl
@[simp] theorem State.setTile_loaded (i : TileId) (t : Tile) : (s.setTile i t).loaded = s.loaded := rfl
@[simp] theorem State.setTile_peers (i : TileId) (t : Tile) : (s.setTile i t).peers = s.peers := rfl
@[simp] theorem State.setTile_routes (i : TileId) (t : Tile) : (s.setTile i t).routes = s.routes := rfl
@[simp] theorem State.setTile_hostLinks (i : TileId) (t : Tile) : (s.setTile i t).hostLinks = s.hostLinks := rfl
@[simp] theorem State.setTile_ports (i : TileId) (t : Tile) : (s.setTile i t).ports = s.ports := rfl
@[simp] theorem State.setTile_inbox (i : TileId) (t : Tile) : (s.setTile i t).inbox = s.inbox := rfl
@[simp] theorem State.setTile_timeSt (i : TileId) (t : Tile) : (s.setTile i t).timeSt = s.timeSt := rfl
@[simp] theorem State.setTile_dimms (i : TileId) (t : Tile) : (s.setTile i t).dimms = s.dimms := rfl
@[simp] theorem State.setTile_torusFabric (i : TileId) (t : Tile) : (s.setTile i t).torusFabric = s.torusFabric := rfl
@[simp] theorem State.setTile_power (i : TileId) (t : Tile) : (s.setTile i t).power = s.power := rfl
@[simp] theorem State.setTile_latches (i : TileId) (t : Tile) : (s.setTile i t).latches = s.latches := rfl

/-! State.modTile. -/

@[simp] theorem State.modTile_pending (i : TileId) (f : Tile → Tile) : (s.modTile i f).pending = s.pending := rfl
@[simp] theorem State.modTile_now (i : TileId) (f : Tile → Tile) : (s.modTile i f).now = s.now := rfl
@[simp] theorem State.modTile_free (i : TileId) (f : Tile → Tile) : (s.modTile i f).free = s.free := rfl
@[simp] theorem State.modTile_regs (i : TileId) (f : Tile → Tile) : (s.modTile i f).regs = s.regs := rfl
@[simp] theorem State.modTile_net (i : TileId) (f : Tile → Tile) : (s.modTile i f).net = s.net := rfl
@[simp] theorem State.modTile_credits (i : TileId) (f : Tile → Tile) : (s.modTile i f).credits = s.credits := rfl
@[simp] theorem State.modTile_reply (i : TileId) (f : Tile → Tile) : (s.modTile i f).reply = s.reply := rfl
@[simp] theorem State.modTile_dram (i : TileId) (f : Tile → Tile) : (s.modTile i f).dram = s.dram := rfl
@[simp] theorem State.modTile_dramCe (i : TileId) (f : Tile → Tile) : (s.modTile i f).dramCe = s.dramCe := rfl
@[simp] theorem State.modTile_dramUe (i : TileId) (f : Tile → Tile) : (s.modTile i f).dramUe = s.dramUe := rfl
@[simp] theorem State.modTile_digests (i : TileId) (f : Tile → Tile) : (s.modTile i f).digests = s.digests := rfl
@[simp] theorem State.modTile_domains (i : TileId) (f : Tile → Tile) : (s.modTile i f).domains = s.domains := rfl
@[simp] theorem State.modTile_commitQ (i : TileId) (f : Tile → Tile) : (s.modTile i f).commitQ = s.commitQ := rfl
@[simp] theorem State.modTile_commitWait (i : TileId) (f : Tile → Tile) : (s.modTile i f).commitWait = s.commitWait := rfl
@[simp] theorem State.modTile_cruQ (i : TileId) (f : Tile → Tile) : (s.modTile i f).cruQ = s.cruQ := rfl
@[simp] theorem State.modTile_cru (i : TileId) (f : Tile → Tile) : (s.modTile i f).cru = s.cru := rfl
@[simp] theorem State.modTile_cruDone (i : TileId) (f : Tile → Tile) : (s.modTile i f).cruDone = s.cruDone := rfl
@[simp] theorem State.modTile_cruLate (i : TileId) (f : Tile → Tile) : (s.modTile i f).cruLate = s.cruLate := rfl
@[simp] theorem State.modTile_exportJob (i : TileId) (f : Tile → Tile) : (s.modTile i f).exportJob = s.exportJob := rfl
@[simp] theorem State.modTile_queues (i : TileId) (f : Tile → Tile) : (s.modTile i f).queues = s.queues := rfl
@[simp] theorem State.modTile_mbx (i : TileId) (f : Tile → Tile) : (s.modTile i f).mbx = s.mbx := rfl
@[simp] theorem State.modTile_fw (i : TileId) (f : Tile → Tile) : (s.modTile i f).fw = s.fw := rfl
@[simp] theorem State.modTile_flash (i : TileId) (f : Tile → Tile) : (s.modTile i f).flash = s.flash := rfl
@[simp] theorem State.modTile_fuses (i : TileId) (f : Tile → Tile) : (s.modTile i f).fuses = s.fuses := rfl
@[simp] theorem State.modTile_sent (i : TileId) (f : Tile → Tile) : (s.modTile i f).sent = s.sent := rfl
@[simp] theorem State.modTile_loaded (i : TileId) (f : Tile → Tile) : (s.modTile i f).loaded = s.loaded := rfl
@[simp] theorem State.modTile_peers (i : TileId) (f : Tile → Tile) : (s.modTile i f).peers = s.peers := rfl
@[simp] theorem State.modTile_routes (i : TileId) (f : Tile → Tile) : (s.modTile i f).routes = s.routes := rfl
@[simp] theorem State.modTile_hostLinks (i : TileId) (f : Tile → Tile) : (s.modTile i f).hostLinks = s.hostLinks := rfl
@[simp] theorem State.modTile_ports (i : TileId) (f : Tile → Tile) : (s.modTile i f).ports = s.ports := rfl
@[simp] theorem State.modTile_inbox (i : TileId) (f : Tile → Tile) : (s.modTile i f).inbox = s.inbox := rfl
@[simp] theorem State.modTile_timeSt (i : TileId) (f : Tile → Tile) : (s.modTile i f).timeSt = s.timeSt := rfl
@[simp] theorem State.modTile_dimms (i : TileId) (f : Tile → Tile) : (s.modTile i f).dimms = s.dimms := rfl
@[simp] theorem State.modTile_torusFabric (i : TileId) (f : Tile → Tile) : (s.modTile i f).torusFabric = s.torusFabric := rfl
@[simp] theorem State.modTile_power (i : TileId) (f : Tile → Tile) : (s.modTile i f).power = s.power := rfl
@[simp] theorem State.modTile_latches (i : TileId) (f : Tile → Tile) : (s.modTile i f).latches = s.latches := rfl

/-! State.atTime. -/

@[simp] theorem State.atTime_pending (n : Nat) : (s.atTime n).pending = s.pending := rfl
@[simp] theorem State.atTime_free (n : Nat) : (s.atTime n).free = s.free := rfl
@[simp] theorem State.atTime_regs (n : Nat) : (s.atTime n).regs = s.regs := rfl
@[simp] theorem State.atTime_tiles (n : Nat) : (s.atTime n).tiles = s.tiles := rfl
@[simp] theorem State.atTime_net (n : Nat) : (s.atTime n).net = s.net := rfl
@[simp] theorem State.atTime_credits (n : Nat) : (s.atTime n).credits = s.credits := rfl
@[simp] theorem State.atTime_reply (n : Nat) : (s.atTime n).reply = s.reply := rfl
@[simp] theorem State.atTime_dram (n : Nat) : (s.atTime n).dram = s.dram := rfl
@[simp] theorem State.atTime_dramCe (n : Nat) : (s.atTime n).dramCe = s.dramCe := rfl
@[simp] theorem State.atTime_dramUe (n : Nat) : (s.atTime n).dramUe = s.dramUe := rfl
@[simp] theorem State.atTime_digests (n : Nat) : (s.atTime n).digests = s.digests := rfl
@[simp] theorem State.atTime_domains (n : Nat) : (s.atTime n).domains = s.domains := rfl
@[simp] theorem State.atTime_commitQ (n : Nat) : (s.atTime n).commitQ = s.commitQ := rfl
@[simp] theorem State.atTime_commitWait (n : Nat) : (s.atTime n).commitWait = s.commitWait := rfl
@[simp] theorem State.atTime_cruQ (n : Nat) : (s.atTime n).cruQ = s.cruQ := rfl
@[simp] theorem State.atTime_cru (n : Nat) : (s.atTime n).cru = s.cru := rfl
@[simp] theorem State.atTime_cruDone (n : Nat) : (s.atTime n).cruDone = s.cruDone := rfl
@[simp] theorem State.atTime_cruLate (n : Nat) : (s.atTime n).cruLate = s.cruLate := rfl
@[simp] theorem State.atTime_exportJob (n : Nat) : (s.atTime n).exportJob = s.exportJob := rfl
@[simp] theorem State.atTime_queues (n : Nat) : (s.atTime n).queues = s.queues := rfl
@[simp] theorem State.atTime_mbx (n : Nat) : (s.atTime n).mbx = s.mbx := rfl
@[simp] theorem State.atTime_fw (n : Nat) : (s.atTime n).fw = s.fw := rfl
@[simp] theorem State.atTime_flash (n : Nat) : (s.atTime n).flash = s.flash := rfl
@[simp] theorem State.atTime_fuses (n : Nat) : (s.atTime n).fuses = s.fuses := rfl
@[simp] theorem State.atTime_sent (n : Nat) : (s.atTime n).sent = s.sent := rfl
@[simp] theorem State.atTime_loaded (n : Nat) : (s.atTime n).loaded = s.loaded := rfl
@[simp] theorem State.atTime_peers (n : Nat) : (s.atTime n).peers = s.peers := rfl
@[simp] theorem State.atTime_routes (n : Nat) : (s.atTime n).routes = s.routes := rfl
@[simp] theorem State.atTime_hostLinks (n : Nat) : (s.atTime n).hostLinks = s.hostLinks := rfl
@[simp] theorem State.atTime_ports (n : Nat) : (s.atTime n).ports = s.ports := rfl
@[simp] theorem State.atTime_inbox (n : Nat) : (s.atTime n).inbox = s.inbox := rfl
@[simp] theorem State.atTime_timeSt (n : Nat) : (s.atTime n).timeSt = s.timeSt := rfl
@[simp] theorem State.atTime_dimms (n : Nat) : (s.atTime n).dimms = s.dimms := rfl
@[simp] theorem State.atTime_torusFabric (n : Nat) : (s.atTime n).torusFabric = s.torusFabric := rfl
@[simp] theorem State.atTime_power (n : Nat) : (s.atTime n).power = s.power := rfl
@[simp] theorem State.atTime_latches (n : Nat) : (s.atTime n).latches = s.latches := rfl

/-! State.useFree. -/

@[simp] theorem State.useFree_pending : (s.useFree).pending = s.pending := rfl
@[simp] theorem State.useFree_now : (s.useFree).now = s.now := rfl
@[simp] theorem State.useFree_regs : (s.useFree).regs = s.regs := rfl
@[simp] theorem State.useFree_tiles : (s.useFree).tiles = s.tiles := rfl
@[simp] theorem State.useFree_net : (s.useFree).net = s.net := rfl
@[simp] theorem State.useFree_credits : (s.useFree).credits = s.credits := rfl
@[simp] theorem State.useFree_reply : (s.useFree).reply = s.reply := rfl
@[simp] theorem State.useFree_dram : (s.useFree).dram = s.dram := rfl
@[simp] theorem State.useFree_dramCe : (s.useFree).dramCe = s.dramCe := rfl
@[simp] theorem State.useFree_dramUe : (s.useFree).dramUe = s.dramUe := rfl
@[simp] theorem State.useFree_digests : (s.useFree).digests = s.digests := rfl
@[simp] theorem State.useFree_domains : (s.useFree).domains = s.domains := rfl
@[simp] theorem State.useFree_commitQ : (s.useFree).commitQ = s.commitQ := rfl
@[simp] theorem State.useFree_commitWait : (s.useFree).commitWait = s.commitWait := rfl
@[simp] theorem State.useFree_cruQ : (s.useFree).cruQ = s.cruQ := rfl
@[simp] theorem State.useFree_cru : (s.useFree).cru = s.cru := rfl
@[simp] theorem State.useFree_cruDone : (s.useFree).cruDone = s.cruDone := rfl
@[simp] theorem State.useFree_cruLate : (s.useFree).cruLate = s.cruLate := rfl
@[simp] theorem State.useFree_exportJob : (s.useFree).exportJob = s.exportJob := rfl
@[simp] theorem State.useFree_queues : (s.useFree).queues = s.queues := rfl
@[simp] theorem State.useFree_mbx : (s.useFree).mbx = s.mbx := rfl
@[simp] theorem State.useFree_fw : (s.useFree).fw = s.fw := rfl
@[simp] theorem State.useFree_flash : (s.useFree).flash = s.flash := rfl
@[simp] theorem State.useFree_fuses : (s.useFree).fuses = s.fuses := rfl
@[simp] theorem State.useFree_sent : (s.useFree).sent = s.sent := rfl
@[simp] theorem State.useFree_loaded : (s.useFree).loaded = s.loaded := rfl
@[simp] theorem State.useFree_peers : (s.useFree).peers = s.peers := rfl
@[simp] theorem State.useFree_routes : (s.useFree).routes = s.routes := rfl
@[simp] theorem State.useFree_hostLinks : (s.useFree).hostLinks = s.hostLinks := rfl
@[simp] theorem State.useFree_ports : (s.useFree).ports = s.ports := rfl
@[simp] theorem State.useFree_inbox : (s.useFree).inbox = s.inbox := rfl
@[simp] theorem State.useFree_timeSt : (s.useFree).timeSt = s.timeSt := rfl
@[simp] theorem State.useFree_dimms : (s.useFree).dimms = s.dimms := rfl
@[simp] theorem State.useFree_torusFabric : (s.useFree).torusFabric = s.torusFabric := rfl
@[simp] theorem State.useFree_power : (s.useFree).power = s.power := rfl
@[simp] theorem State.useFree_latches : (s.useFree).latches = s.latches := rfl

/-! State.countF. -/

@[simp] theorem State.countF_pending (f : Fld) (inst i n : Nat) : (s.countF f inst i n).pending = s.pending := rfl
@[simp] theorem State.countF_now (f : Fld) (inst i n : Nat) : (s.countF f inst i n).now = s.now := rfl
@[simp] theorem State.countF_free (f : Fld) (inst i n : Nat) : (s.countF f inst i n).free = s.free := rfl
@[simp] theorem State.countF_tiles (f : Fld) (inst i n : Nat) : (s.countF f inst i n).tiles = s.tiles := rfl
@[simp] theorem State.countF_net (f : Fld) (inst i n : Nat) : (s.countF f inst i n).net = s.net := rfl
@[simp] theorem State.countF_credits (f : Fld) (inst i n : Nat) : (s.countF f inst i n).credits = s.credits := rfl
@[simp] theorem State.countF_reply (f : Fld) (inst i n : Nat) : (s.countF f inst i n).reply = s.reply := rfl
@[simp] theorem State.countF_dram (f : Fld) (inst i n : Nat) : (s.countF f inst i n).dram = s.dram := rfl
@[simp] theorem State.countF_dramCe (f : Fld) (inst i n : Nat) : (s.countF f inst i n).dramCe = s.dramCe := rfl
@[simp] theorem State.countF_dramUe (f : Fld) (inst i n : Nat) : (s.countF f inst i n).dramUe = s.dramUe := rfl
@[simp] theorem State.countF_digests (f : Fld) (inst i n : Nat) : (s.countF f inst i n).digests = s.digests := rfl
@[simp] theorem State.countF_domains (f : Fld) (inst i n : Nat) : (s.countF f inst i n).domains = s.domains := rfl
@[simp] theorem State.countF_commitQ (f : Fld) (inst i n : Nat) : (s.countF f inst i n).commitQ = s.commitQ := rfl
@[simp] theorem State.countF_commitWait (f : Fld) (inst i n : Nat) : (s.countF f inst i n).commitWait = s.commitWait := rfl
@[simp] theorem State.countF_cruQ (f : Fld) (inst i n : Nat) : (s.countF f inst i n).cruQ = s.cruQ := rfl
@[simp] theorem State.countF_cru (f : Fld) (inst i n : Nat) : (s.countF f inst i n).cru = s.cru := rfl
@[simp] theorem State.countF_cruDone (f : Fld) (inst i n : Nat) : (s.countF f inst i n).cruDone = s.cruDone := rfl
@[simp] theorem State.countF_cruLate (f : Fld) (inst i n : Nat) : (s.countF f inst i n).cruLate = s.cruLate := rfl
@[simp] theorem State.countF_exportJob (f : Fld) (inst i n : Nat) : (s.countF f inst i n).exportJob = s.exportJob := rfl
@[simp] theorem State.countF_queues (f : Fld) (inst i n : Nat) : (s.countF f inst i n).queues = s.queues := rfl
@[simp] theorem State.countF_mbx (f : Fld) (inst i n : Nat) : (s.countF f inst i n).mbx = s.mbx := rfl
@[simp] theorem State.countF_fw (f : Fld) (inst i n : Nat) : (s.countF f inst i n).fw = s.fw := rfl
@[simp] theorem State.countF_flash (f : Fld) (inst i n : Nat) : (s.countF f inst i n).flash = s.flash := rfl
@[simp] theorem State.countF_fuses (f : Fld) (inst i n : Nat) : (s.countF f inst i n).fuses = s.fuses := rfl
@[simp] theorem State.countF_sent (f : Fld) (inst i n : Nat) : (s.countF f inst i n).sent = s.sent := rfl
@[simp] theorem State.countF_loaded (f : Fld) (inst i n : Nat) : (s.countF f inst i n).loaded = s.loaded := rfl
@[simp] theorem State.countF_peers (f : Fld) (inst i n : Nat) : (s.countF f inst i n).peers = s.peers := rfl
@[simp] theorem State.countF_routes (f : Fld) (inst i n : Nat) : (s.countF f inst i n).routes = s.routes := rfl
@[simp] theorem State.countF_hostLinks (f : Fld) (inst i n : Nat) : (s.countF f inst i n).hostLinks = s.hostLinks := rfl
@[simp] theorem State.countF_ports (f : Fld) (inst i n : Nat) : (s.countF f inst i n).ports = s.ports := rfl
@[simp] theorem State.countF_inbox (f : Fld) (inst i n : Nat) : (s.countF f inst i n).inbox = s.inbox := rfl
@[simp] theorem State.countF_timeSt (f : Fld) (inst i n : Nat) : (s.countF f inst i n).timeSt = s.timeSt := rfl
@[simp] theorem State.countF_dimms (f : Fld) (inst i n : Nat) : (s.countF f inst i n).dimms = s.dimms := rfl
@[simp] theorem State.countF_torusFabric (f : Fld) (inst i n : Nat) : (s.countF f inst i n).torusFabric = s.torusFabric := rfl
@[simp] theorem State.countF_power (f : Fld) (inst i n : Nat) : (s.countF f inst i n).power = s.power := rfl
@[simp] theorem State.countF_latches (f : Fld) (inst i n : Nat) : (s.countF f inst i n).latches = s.latches := rfl

/-! State.wrapF. -/

@[simp] theorem State.wrapF_pending (f : Fld) (inst i n : Nat) : (s.wrapF f inst i n).pending = s.pending := rfl
@[simp] theorem State.wrapF_now (f : Fld) (inst i n : Nat) : (s.wrapF f inst i n).now = s.now := rfl
@[simp] theorem State.wrapF_free (f : Fld) (inst i n : Nat) : (s.wrapF f inst i n).free = s.free := rfl
@[simp] theorem State.wrapF_tiles (f : Fld) (inst i n : Nat) : (s.wrapF f inst i n).tiles = s.tiles := rfl
@[simp] theorem State.wrapF_net (f : Fld) (inst i n : Nat) : (s.wrapF f inst i n).net = s.net := rfl
@[simp] theorem State.wrapF_credits (f : Fld) (inst i n : Nat) : (s.wrapF f inst i n).credits = s.credits := rfl
@[simp] theorem State.wrapF_reply (f : Fld) (inst i n : Nat) : (s.wrapF f inst i n).reply = s.reply := rfl
@[simp] theorem State.wrapF_dram (f : Fld) (inst i n : Nat) : (s.wrapF f inst i n).dram = s.dram := rfl
@[simp] theorem State.wrapF_dramCe (f : Fld) (inst i n : Nat) : (s.wrapF f inst i n).dramCe = s.dramCe := rfl
@[simp] theorem State.wrapF_dramUe (f : Fld) (inst i n : Nat) : (s.wrapF f inst i n).dramUe = s.dramUe := rfl
@[simp] theorem State.wrapF_digests (f : Fld) (inst i n : Nat) : (s.wrapF f inst i n).digests = s.digests := rfl
@[simp] theorem State.wrapF_domains (f : Fld) (inst i n : Nat) : (s.wrapF f inst i n).domains = s.domains := rfl
@[simp] theorem State.wrapF_commitQ (f : Fld) (inst i n : Nat) : (s.wrapF f inst i n).commitQ = s.commitQ := rfl
@[simp] theorem State.wrapF_commitWait (f : Fld) (inst i n : Nat) : (s.wrapF f inst i n).commitWait = s.commitWait := rfl
@[simp] theorem State.wrapF_cruQ (f : Fld) (inst i n : Nat) : (s.wrapF f inst i n).cruQ = s.cruQ := rfl
@[simp] theorem State.wrapF_cru (f : Fld) (inst i n : Nat) : (s.wrapF f inst i n).cru = s.cru := rfl
@[simp] theorem State.wrapF_cruDone (f : Fld) (inst i n : Nat) : (s.wrapF f inst i n).cruDone = s.cruDone := rfl
@[simp] theorem State.wrapF_cruLate (f : Fld) (inst i n : Nat) : (s.wrapF f inst i n).cruLate = s.cruLate := rfl
@[simp] theorem State.wrapF_exportJob (f : Fld) (inst i n : Nat) : (s.wrapF f inst i n).exportJob = s.exportJob := rfl
@[simp] theorem State.wrapF_queues (f : Fld) (inst i n : Nat) : (s.wrapF f inst i n).queues = s.queues := rfl
@[simp] theorem State.wrapF_mbx (f : Fld) (inst i n : Nat) : (s.wrapF f inst i n).mbx = s.mbx := rfl
@[simp] theorem State.wrapF_fw (f : Fld) (inst i n : Nat) : (s.wrapF f inst i n).fw = s.fw := rfl
@[simp] theorem State.wrapF_flash (f : Fld) (inst i n : Nat) : (s.wrapF f inst i n).flash = s.flash := rfl
@[simp] theorem State.wrapF_fuses (f : Fld) (inst i n : Nat) : (s.wrapF f inst i n).fuses = s.fuses := rfl
@[simp] theorem State.wrapF_sent (f : Fld) (inst i n : Nat) : (s.wrapF f inst i n).sent = s.sent := rfl
@[simp] theorem State.wrapF_loaded (f : Fld) (inst i n : Nat) : (s.wrapF f inst i n).loaded = s.loaded := rfl
@[simp] theorem State.wrapF_peers (f : Fld) (inst i n : Nat) : (s.wrapF f inst i n).peers = s.peers := rfl
@[simp] theorem State.wrapF_routes (f : Fld) (inst i n : Nat) : (s.wrapF f inst i n).routes = s.routes := rfl
@[simp] theorem State.wrapF_hostLinks (f : Fld) (inst i n : Nat) : (s.wrapF f inst i n).hostLinks = s.hostLinks := rfl
@[simp] theorem State.wrapF_ports (f : Fld) (inst i n : Nat) : (s.wrapF f inst i n).ports = s.ports := rfl
@[simp] theorem State.wrapF_inbox (f : Fld) (inst i n : Nat) : (s.wrapF f inst i n).inbox = s.inbox := rfl
@[simp] theorem State.wrapF_timeSt (f : Fld) (inst i n : Nat) : (s.wrapF f inst i n).timeSt = s.timeSt := rfl
@[simp] theorem State.wrapF_dimms (f : Fld) (inst i n : Nat) : (s.wrapF f inst i n).dimms = s.dimms := rfl
@[simp] theorem State.wrapF_torusFabric (f : Fld) (inst i n : Nat) : (s.wrapF f inst i n).torusFabric = s.torusFabric := rfl
@[simp] theorem State.wrapF_power (f : Fld) (inst i n : Nat) : (s.wrapF f inst i n).power = s.power := rfl
@[simp] theorem State.wrapF_latches (f : Fld) (inst i n : Nat) : (s.wrapF f inst i n).latches = s.latches := rfl

/-! State.raise. -/

@[simp] theorem State.raise_pending (ty pg inst b : Nat) : (s.raise ty pg inst b).pending = s.pending := rfl
@[simp] theorem State.raise_now (ty pg inst b : Nat) : (s.raise ty pg inst b).now = s.now := rfl
@[simp] theorem State.raise_free (ty pg inst b : Nat) : (s.raise ty pg inst b).free = s.free := rfl
@[simp] theorem State.raise_tiles (ty pg inst b : Nat) : (s.raise ty pg inst b).tiles = s.tiles := rfl
@[simp] theorem State.raise_net (ty pg inst b : Nat) : (s.raise ty pg inst b).net = s.net := rfl
@[simp] theorem State.raise_credits (ty pg inst b : Nat) : (s.raise ty pg inst b).credits = s.credits := rfl
@[simp] theorem State.raise_reply (ty pg inst b : Nat) : (s.raise ty pg inst b).reply = s.reply := rfl
@[simp] theorem State.raise_dram (ty pg inst b : Nat) : (s.raise ty pg inst b).dram = s.dram := rfl
@[simp] theorem State.raise_dramCe (ty pg inst b : Nat) : (s.raise ty pg inst b).dramCe = s.dramCe := rfl
@[simp] theorem State.raise_dramUe (ty pg inst b : Nat) : (s.raise ty pg inst b).dramUe = s.dramUe := rfl
@[simp] theorem State.raise_digests (ty pg inst b : Nat) : (s.raise ty pg inst b).digests = s.digests := rfl
@[simp] theorem State.raise_domains (ty pg inst b : Nat) : (s.raise ty pg inst b).domains = s.domains := rfl
@[simp] theorem State.raise_commitQ (ty pg inst b : Nat) : (s.raise ty pg inst b).commitQ = s.commitQ := rfl
@[simp] theorem State.raise_commitWait (ty pg inst b : Nat) : (s.raise ty pg inst b).commitWait = s.commitWait := rfl
@[simp] theorem State.raise_cruQ (ty pg inst b : Nat) : (s.raise ty pg inst b).cruQ = s.cruQ := rfl
@[simp] theorem State.raise_cru (ty pg inst b : Nat) : (s.raise ty pg inst b).cru = s.cru := rfl
@[simp] theorem State.raise_cruDone (ty pg inst b : Nat) : (s.raise ty pg inst b).cruDone = s.cruDone := rfl
@[simp] theorem State.raise_cruLate (ty pg inst b : Nat) : (s.raise ty pg inst b).cruLate = s.cruLate := rfl
@[simp] theorem State.raise_exportJob (ty pg inst b : Nat) : (s.raise ty pg inst b).exportJob = s.exportJob := rfl
@[simp] theorem State.raise_queues (ty pg inst b : Nat) : (s.raise ty pg inst b).queues = s.queues := rfl
@[simp] theorem State.raise_mbx (ty pg inst b : Nat) : (s.raise ty pg inst b).mbx = s.mbx := rfl
@[simp] theorem State.raise_fw (ty pg inst b : Nat) : (s.raise ty pg inst b).fw = s.fw := rfl
@[simp] theorem State.raise_flash (ty pg inst b : Nat) : (s.raise ty pg inst b).flash = s.flash := rfl
@[simp] theorem State.raise_fuses (ty pg inst b : Nat) : (s.raise ty pg inst b).fuses = s.fuses := rfl
@[simp] theorem State.raise_sent (ty pg inst b : Nat) : (s.raise ty pg inst b).sent = s.sent := rfl
@[simp] theorem State.raise_loaded (ty pg inst b : Nat) : (s.raise ty pg inst b).loaded = s.loaded := rfl
@[simp] theorem State.raise_peers (ty pg inst b : Nat) : (s.raise ty pg inst b).peers = s.peers := rfl
@[simp] theorem State.raise_routes (ty pg inst b : Nat) : (s.raise ty pg inst b).routes = s.routes := rfl
@[simp] theorem State.raise_hostLinks (ty pg inst b : Nat) : (s.raise ty pg inst b).hostLinks = s.hostLinks := rfl
@[simp] theorem State.raise_ports (ty pg inst b : Nat) : (s.raise ty pg inst b).ports = s.ports := rfl
@[simp] theorem State.raise_inbox (ty pg inst b : Nat) : (s.raise ty pg inst b).inbox = s.inbox := rfl
@[simp] theorem State.raise_timeSt (ty pg inst b : Nat) : (s.raise ty pg inst b).timeSt = s.timeSt := rfl
@[simp] theorem State.raise_dimms (ty pg inst b : Nat) : (s.raise ty pg inst b).dimms = s.dimms := rfl
@[simp] theorem State.raise_torusFabric (ty pg inst b : Nat) : (s.raise ty pg inst b).torusFabric = s.torusFabric := rfl
@[simp] theorem State.raise_power (ty pg inst b : Nat) : (s.raise ty pg inst b).power = s.power := rfl
@[simp] theorem State.raise_latches (ty pg inst b : Nat) : (s.raise ty pg inst b).latches = s.latches := rfl

@[simp] theorem State.atTime_now (n : Nat) : (s.atTime n).now = max s.now n := rfl
@[simp] theorem State.useFree_free : s.useFree.free = s.free + 1 := rfl

/-! An update by record syntax leaves the register file and the tiles to the state it starts from. -/

/-- A recorded error leaves everything but the register file. -/
theorem State.recordErr_regs (ty pg inst code i0 i1 : Nat) :
    s.recordErr ty pg inst code i0 i1 = { s with regs := (s.recordErr ty pg inst code i0 i1).regs } := by
  unfold State.recordErr
  split <;> rfl

@[simp] theorem State.recordErr_pending (ty pg inst code i0 i1 : Nat) : (s.recordErr ty pg inst code i0 i1).pending = s.pending := by
  rw [State.recordErr_regs]
@[simp] theorem State.recordErr_now (ty pg inst code i0 i1 : Nat) : (s.recordErr ty pg inst code i0 i1).now = s.now := by
  rw [State.recordErr_regs]
@[simp] theorem State.recordErr_free (ty pg inst code i0 i1 : Nat) : (s.recordErr ty pg inst code i0 i1).free = s.free := by
  rw [State.recordErr_regs]
@[simp] theorem State.recordErr_tiles (ty pg inst code i0 i1 : Nat) : (s.recordErr ty pg inst code i0 i1).tiles = s.tiles := by
  rw [State.recordErr_regs]
@[simp] theorem State.recordErr_net (ty pg inst code i0 i1 : Nat) : (s.recordErr ty pg inst code i0 i1).net = s.net := by
  rw [State.recordErr_regs]
@[simp] theorem State.recordErr_credits (ty pg inst code i0 i1 : Nat) : (s.recordErr ty pg inst code i0 i1).credits = s.credits := by
  rw [State.recordErr_regs]
@[simp] theorem State.recordErr_reply (ty pg inst code i0 i1 : Nat) : (s.recordErr ty pg inst code i0 i1).reply = s.reply := by
  rw [State.recordErr_regs]
@[simp] theorem State.recordErr_dram (ty pg inst code i0 i1 : Nat) : (s.recordErr ty pg inst code i0 i1).dram = s.dram := by
  rw [State.recordErr_regs]
@[simp] theorem State.recordErr_dramCe (ty pg inst code i0 i1 : Nat) : (s.recordErr ty pg inst code i0 i1).dramCe = s.dramCe := by
  rw [State.recordErr_regs]
@[simp] theorem State.recordErr_dramUe (ty pg inst code i0 i1 : Nat) : (s.recordErr ty pg inst code i0 i1).dramUe = s.dramUe := by
  rw [State.recordErr_regs]
@[simp] theorem State.recordErr_digests (ty pg inst code i0 i1 : Nat) : (s.recordErr ty pg inst code i0 i1).digests = s.digests := by
  rw [State.recordErr_regs]
@[simp] theorem State.recordErr_domains (ty pg inst code i0 i1 : Nat) : (s.recordErr ty pg inst code i0 i1).domains = s.domains := by
  rw [State.recordErr_regs]
@[simp] theorem State.recordErr_commitQ (ty pg inst code i0 i1 : Nat) : (s.recordErr ty pg inst code i0 i1).commitQ = s.commitQ := by
  rw [State.recordErr_regs]
@[simp] theorem State.recordErr_commitWait (ty pg inst code i0 i1 : Nat) : (s.recordErr ty pg inst code i0 i1).commitWait = s.commitWait := by
  rw [State.recordErr_regs]
@[simp] theorem State.recordErr_cruQ (ty pg inst code i0 i1 : Nat) : (s.recordErr ty pg inst code i0 i1).cruQ = s.cruQ := by
  rw [State.recordErr_regs]
@[simp] theorem State.recordErr_cru (ty pg inst code i0 i1 : Nat) : (s.recordErr ty pg inst code i0 i1).cru = s.cru := by
  rw [State.recordErr_regs]
@[simp] theorem State.recordErr_cruDone (ty pg inst code i0 i1 : Nat) : (s.recordErr ty pg inst code i0 i1).cruDone = s.cruDone := by
  rw [State.recordErr_regs]
@[simp] theorem State.recordErr_cruLate (ty pg inst code i0 i1 : Nat) : (s.recordErr ty pg inst code i0 i1).cruLate = s.cruLate := by
  rw [State.recordErr_regs]
@[simp] theorem State.recordErr_exportJob (ty pg inst code i0 i1 : Nat) : (s.recordErr ty pg inst code i0 i1).exportJob = s.exportJob := by
  rw [State.recordErr_regs]
@[simp] theorem State.recordErr_queues (ty pg inst code i0 i1 : Nat) : (s.recordErr ty pg inst code i0 i1).queues = s.queues := by
  rw [State.recordErr_regs]
@[simp] theorem State.recordErr_mbx (ty pg inst code i0 i1 : Nat) : (s.recordErr ty pg inst code i0 i1).mbx = s.mbx := by
  rw [State.recordErr_regs]
@[simp] theorem State.recordErr_fw (ty pg inst code i0 i1 : Nat) : (s.recordErr ty pg inst code i0 i1).fw = s.fw := by
  rw [State.recordErr_regs]
@[simp] theorem State.recordErr_flash (ty pg inst code i0 i1 : Nat) : (s.recordErr ty pg inst code i0 i1).flash = s.flash := by
  rw [State.recordErr_regs]
@[simp] theorem State.recordErr_fuses (ty pg inst code i0 i1 : Nat) : (s.recordErr ty pg inst code i0 i1).fuses = s.fuses := by
  rw [State.recordErr_regs]
@[simp] theorem State.recordErr_sent (ty pg inst code i0 i1 : Nat) : (s.recordErr ty pg inst code i0 i1).sent = s.sent := by
  rw [State.recordErr_regs]
@[simp] theorem State.recordErr_loaded (ty pg inst code i0 i1 : Nat) : (s.recordErr ty pg inst code i0 i1).loaded = s.loaded := by
  rw [State.recordErr_regs]
@[simp] theorem State.recordErr_peers (ty pg inst code i0 i1 : Nat) : (s.recordErr ty pg inst code i0 i1).peers = s.peers := by
  rw [State.recordErr_regs]
@[simp] theorem State.recordErr_routes (ty pg inst code i0 i1 : Nat) : (s.recordErr ty pg inst code i0 i1).routes = s.routes := by
  rw [State.recordErr_regs]
@[simp] theorem State.recordErr_hostLinks (ty pg inst code i0 i1 : Nat) : (s.recordErr ty pg inst code i0 i1).hostLinks = s.hostLinks := by
  rw [State.recordErr_regs]
@[simp] theorem State.recordErr_ports (ty pg inst code i0 i1 : Nat) : (s.recordErr ty pg inst code i0 i1).ports = s.ports := by
  rw [State.recordErr_regs]
@[simp] theorem State.recordErr_inbox (ty pg inst code i0 i1 : Nat) : (s.recordErr ty pg inst code i0 i1).inbox = s.inbox := by
  rw [State.recordErr_regs]
@[simp] theorem State.recordErr_timeSt (ty pg inst code i0 i1 : Nat) : (s.recordErr ty pg inst code i0 i1).timeSt = s.timeSt := by
  rw [State.recordErr_regs]
@[simp] theorem State.recordErr_dimms (ty pg inst code i0 i1 : Nat) : (s.recordErr ty pg inst code i0 i1).dimms = s.dimms := by
  rw [State.recordErr_regs]
@[simp] theorem State.recordErr_torusFabric (ty pg inst code i0 i1 : Nat) : (s.recordErr ty pg inst code i0 i1).torusFabric = s.torusFabric := by
  rw [State.recordErr_regs]
@[simp] theorem State.recordErr_power (ty pg inst code i0 i1 : Nat) : (s.recordErr ty pg inst code i0 i1).power = s.power := by
  rw [State.recordErr_regs]
@[simp] theorem State.recordErr_latches (ty pg inst code i0 i1 : Nat) : (s.recordErr ty pg inst code i0 i1).latches = s.latches := by
  rw [State.recordErr_regs]

/-! Tiles. -/

@[simp] theorem State.tile_setTile (i : TileId) (t : Tile) : (s.setTile i t).tile i = t := by
  simp [State.tile, State.setTile]

theorem State.tile_setTile_ne {i j : TileId} (t : Tile) (h : j ≠ i) : (s.setTile i t).tile j = s.tile j := by
  have : (i : Nat) ≠ j := fun e => h (Fin.ext e.symm)
  simp [State.tile, State.setTile, Vector.getElem_set, this]

@[simp] theorem State.tile_modTile (i : TileId) (f : Tile → Tile) : (s.modTile i f).tile i = f (s.tile i) :=
  State.tile_setTile s i _

theorem State.tile_modTile_ne {i j : TileId} (f : Tile → Tile) (h : j ≠ i) : (s.modTile i f).tile j = s.tile j :=
  State.tile_setTile_ne s _ h

@[simp] theorem State.tile_setF (f : Fld) (inst i v : Nat) (j : TileId) : (s.setF f inst i v).tile j = s.tile j := rfl
@[simp] theorem State.tile_countF (f : Fld) (inst i n : Nat) (j : TileId) : (s.countF f inst i n).tile j = s.tile j := rfl
@[simp] theorem State.tile_wrapF (f : Fld) (inst i n : Nat) (j : TileId) : (s.wrapF f inst i n).tile j = s.tile j := rfl
@[simp] theorem State.tile_raise (ty pg inst b : Nat) (j : TileId) : (s.raise ty pg inst b).tile j = s.tile j := rfl
@[simp] theorem State.tile_atTime (n : Nat) (j : TileId) : (s.atTime n).tile j = s.tile j := rfl
@[simp] theorem State.tile_useFree (j : TileId) : s.useFree.tile j = s.tile j := rfl
@[simp] theorem State.tile_recordErr (ty pg inst code i0 i1 : Nat) (j : TileId) :
    (s.recordErr ty pg inst code i0 i1).tile j = s.tile j := by
  unfold State.tile; rw [State.recordErr_tiles]

/-! Fields of the register file. -/

@[simp] theorem State.getF_setTile (i : TileId) (t : Tile) (f : Fld) (inst k : Nat) : (s.setTile i t).getF f inst k = s.getF f inst k := rfl
@[simp] theorem State.getF_modTile (i : TileId) (g : Tile → Tile) (f : Fld) (inst k : Nat) :
    (s.modTile i g).getF f inst k = s.getF f inst k := rfl
@[simp] theorem State.getF_atTime (n : Nat) (f : Fld) (inst k : Nat) : (s.atTime n).getF f inst k = s.getF f inst k := rfl
@[simp] theorem State.getF_useFree (f : Fld) (inst k : Nat) : s.useFree.getF f inst k = s.getF f inst k := rfl
@[simp] theorem State.flag_setTile (i : TileId) (t : Tile) (f : Fld) (inst k : Nat) : (s.setTile i t).flag f inst k = s.flag f inst k := rfl
@[simp] theorem State.flag_modTile (i : TileId) (g : Tile → Tile) (f : Fld) (inst k : Nat) :
    (s.modTile i g).flag f inst k = s.flag f inst k := rfl
@[simp] theorem State.flag_atTime (n : Nat) (f : Fld) (inst k : Nat) : (s.atTime n).flag f inst k = s.flag f inst k := rfl
@[simp] theorem State.flag_useFree (f : Fld) (inst k : Nat) : s.useFree.flag f inst k = s.flag f inst k := rfl

theorem State.getF_countF_same (f : Fld) (inst i n : Nat) :
    (s.countF f inst i n).getF f inst i = min (s.getF f inst i + n) (2 ^ f.width - 1) := by
  unfold State.countF
  rw [State.getF_setF_same, Nat.mod_eq_of_lt]
  have : 0 < 2 ^ f.width := Nat.two_pow_pos _
  omega

theorem State.getF_countF_ne {f g : Fld} {inst i inst' i' : Nat} (n : Nat) (h : f.key inst i ≠ g.key inst' i') :
    (s.countF f inst i n).getF g inst' i' = s.getF g inst' i' := State.getF_setF_ne s _ h

theorem State.getF_wrapF_same (f : Fld) (inst i n : Nat) :
    (s.wrapF f inst i n).getF f inst i = (s.getF f inst i + n) % 2 ^ f.width := State.getF_setF_same s f inst i _

theorem State.getF_wrapF_ne {f g : Fld} {inst i inst' i' : Nat} (n : Nat) (h : f.key inst i ≠ g.key inst' i') :
    (s.wrapF f inst i n).getF g inst' i' = s.getF g inst' i' := State.getF_setF_ne s _ h

end Sys2Proof.Machine
end

