-- ==== Sys2Proof/Laws/Slots.lean ====
section
/-! SUPPORT. The issue of a bundle of one slot: which command it is, and the state that it leads to. -/

namespace Sys2Proof.Machine

set_option Elab.async false
set_option linter.all false

theorem State.ext_tiles {s t : State} (h : t = { s with tiles := t.tiles }) (ht : t.tiles = s.tiles) : t = s := by
  rw [h, ht]

@[simp] theorem State.setTile_tile (s : State) (i : TileId) : s.setTile i (s.tile i) = s := by
  simp [State.setTile, State.tile]

theorem State.modTile_id (s : State) (i : TileId) {f : Tile → Tile} (h : f (s.tile i) = s.tile i) : s.modTile i f = s := by
  unfold State.modTile; rw [h, State.setTile_tile]

/-! The commands of a slot. -/

theorem exec_vecInstr (c : Issue) (f : VecF) (op : VecOp) (s : State) :
    exec (vecInstr c f op) s = .next (issueSlot s c (.vec op f)) := by cases op <;> rfl
theorem exec_arrInstr (c : Issue) (f : ArrF) (op : ArrOp) (s : State) :
    exec (arrInstr c f op) s = .next (issueSlot s c (.arr op f)) := by cases op <;> rfl
theorem exec_accInstr (c : Issue) (f : AccF) (w : Fin 41) (op : AccOp) (s : State) :
    exec (accInstr c f w op) s = .next (issueSlot s c (.acc op f (match op with | .ld => w | .st => w | _ => 0))) := by
  cases op <;> rfl
theorem exec_msgInstr (c : Issue) (f : MsgF) (op : MsgOp) (s : State) :
    exec (msgInstr c f op) s = .next (issueSlot s c (.msg op f)) := by cases op <;> rfl
theorem exec_ctlInstr (c : Issue) (f : CtlF) (op : CtlOp) (s : State) :
    exec (ctlInstr c f op) s = .next (issueSlot s c (.ctl op f)) := by cases op <;> rfl

/-! The checks of the bundle. -/

/-- The tile while its one slot acts. -/
def acting (s : State) (i : TileId) (o : SlotOp) : State :=
  s.modTile i (fun t => { t with pstate := .running, stall := some { cause := 3, ops := [o], need := 0, run := 0, also := 0 } })

theorem landStores_none {s : State} {i : TileId} {c : Nat} (h : ∀ p ∈ (s.tile i).stores, c < p.visible) :
    s.landStores i c = s := by
  have h1 : (s.tile i).stores.filter (fun p => decide (p.visible ≤ c)) = [] := by
    rw [List.filter_eq_nil_iff]
    intro p hp
    have := h p hp
    simp; omega
  have h2 : (s.tile i).stores.filter (fun p => !decide (p.visible ≤ c)) = (s.tile i).stores := by
    rw [List.filter_eq_self]
    intro p hp
    have := h p hp
    simp; omega
  unfold State.landStores
  dsimp only
  rw [h1, List.foldl_nil]
  apply State.modTile_id
  rw [h2]

theorem bundleHitch_one {s : State} {i : TileId} {o : SlotOp} (h : slotHitch s i [o] o = none) : bundleHitch s i [o] = none := by
  have : ((List.range 5).flatMap (fun k => [o].filter (fun o => askOrder o == k))).filterMap (slotHitch s i [o]) = [] := by
    rw [List.filterMap_eq_nil_iff]
    intro x hx
    simp only [List.mem_flatMap, List.mem_filter, List.mem_singleton] at hx
    obtain ⟨_, _, rfl, _⟩ := hx
    exact h
  unfold bundleHitch
  rw [this]
  rfl

theorem slotMask_one {o : SlotOp} {p : SlotOp → Bool} (h : p o = false) : slotMask [o] p = 0 := by
  simp [slotMask, h]

/-- A bundle of one slot that issues at once, and whose access slot, if it is one, passes its checks: the slot acts, and the
bundle is finished; then a GSTAT that is at the head of its queue is taken up. -/
theorem issueSlot_alone {s : State} {c : Issue} {o : SlotOp} (h : Alone s c o)
    (ha : ∀ op f w, o = .acc op f w → ((accIssue (acting s c.tile o) c.tile op f).1.tile c.tile).pstate ≠ .faulted) :
    issueSlot s c o =
      let u := finishBundle (slotEffects (acting s c.tile o) c.tile [o]).1 c.tile [o] [o] (slotEffects (acting s c.tile o) c.tile [o]).2
      if o.isGstat && (u.tile c.tile).active then gatherHead u c.tile else u := by
  have hpc : ¬ (s.tile c.tile).pc ≥ s.getF Reg.TILE_PROG_LEN c.tile 0 := by have := h.inside.1; omega
  have h0 : s.setTile c.tile { s.tile c.tile with bundle := [], hdr := 0#3 } = s := by
    have e : ({ s.tile c.tile with bundle := [], hdr := 0#3 } : Tile) = s.tile c.tile := by
      rw [← h.first, ← h.header.1]
    rw [e, State.setTile_tile]
  unfold issueSlot
  dsimp only
  rw [if_neg (by simp [h.running, h.going]), if_pos h.last, h0, h.first, h.header.1, h.header.2, List.filter_nil, List.nil_append]
  unfold issueBundle
  dsimp only
  obtain ⟨hr, hloop⟩ : slotReserved s c.tile o = false ∧ loopIllegal s c.tile o = false := by
    have := h.legal.2
    unfold slotIllegal at this
    simpa using this
  have hsm : slotMask [o] (fun o => o.illegal (s.flag Reg.TILE_LEGACY c.tile 0) || slotReserved s c.tile o) = 0 :=
    slotMask_one (by rw [h.legal.1, hr]; rfl)
  rw [if_neg hpc]
  simp only [h.word.1, h.word.2, Bool.false_eq_true, if_false]
  rw [hsm, if_neg (by simp [h.straight.2.2])]
  unfold issueOps
  dsimp only
  rw [landStores_none h.stores]
  have hops : [o].filter (fun x => x.acts (s.tile c.tile)) = [o] := by simp [h.acts]
  rw [hops, h.parity]
  dsimp only
  rw [if_neg (by simp [slotMask_one hloop]), bundleHitch_one h.free]
  dsimp only
  rw [h.wait, if_pos rfl, if_pos rfl]
  change (if ((acting s c.tile o).tile c.tile).pstate = .faulted then _ else _) = _
  rw [if_neg (by simp [acting])]
  rw [State.setTile_tile]
  rw [if_neg]
  · simp only [List.any_cons, List.any_nil, Bool.or_false]
    rfl
  · cases o with
    | acc op f w => exact ha op f w rfl
    | vec op f => simp
    | arr op f => simp
    | msg op f => simp
    | ctl op f => simp
    | bad n => simp

/-! The end of a bundle. -/

/-- Results that land change the register files alone. -/
theorem Tile.land_frame (t : Tile) (d : Dest) :
    t.land d = { t with v := (t.land d).v, sreg := (t.land d).sreg, p := (t.land d).p, badV := (t.land d).badV,
                        badS := (t.land d).badS, badP := (t.land d).badP } := by
  cases d with
  | v r m x => rfl
  | s r x => rfl
  | p r m x => unfold Tile.land; dsimp only; split <;> rfl

theorem Tile.foldl_land_frame (ps : List Pend) (t : Tile) :
    let u := ps.foldl (fun (t : Tile) (p : Pend) => t.land p.dst) t
    u = { t with v := u.v, sreg := u.sreg, p := u.p, badV := u.badV, badS := u.badS, badP := u.badP } := by
  induction ps generalizing t with
  | nil => rfl
  | cons p ps ih =>
    dsimp only [List.foldl_cons] at ih ⊢
    rw [ih (t.land p.dst)]
    have := Tile.land_frame t p.dst
    generalize t.land p.dst = u at this ⊢
    rw [this]

/-- One bundle on: results come nearer, the due ones land; nothing but the register files and the results in flight
changes. -/
theorem Tile.advance_frame (t : Tile) :
    t.advance = { t with v := t.advance.v, sreg := t.advance.sreg, p := t.advance.p, badV := t.advance.badV,
                         badS := t.advance.badS, badP := t.advance.badP,
                         inflight := (t.inflight.map (fun p => { p with left := p.left - 1 })).filter (fun p => p.left != 0) } :=
  Tile.foldl_land_frame _ { t with inflight := (t.inflight.map (fun p => { p with left := p.left - 1 })).filter (fun p => p.left != 0) }

/-- NUM_STATUS bits change the register file alone. -/
theorem State.setNum_regs (s : State) (i : TileId) (n : BitVec 4) : s.setNum i n = { s with regs := (s.setNum i n).regs } := by
  unfold State.setNum
  dsimp only
  split <;> split <;> split <;> split <;> rfl

@[simp] theorem State.tile_setNum (s : State) (i j : TileId) (n : BitVec 4) : (s.setNum i n).tile j = s.tile j := by
  unfold State.tile; rw [State.setNum_regs]

theorem State.setNum_setTile (s : State) (i j : TileId) (t : Tile) (n : BitVec 4) :
    (s.setTile i t).setNum j n = (s.setNum j n).setTile i t := by
  unfold State.setNum
  dsimp only
  split <;> split <;> split <;> split <;> rfl

theorem State.setTile_setTile (s : State) (i : TileId) (a b : Tile) : (s.setTile i a).setTile i b = s.setTile i b := by
  simp [State.setTile]

theorem State.getF_setNum (s : State) (i : TileId) (n : BitVec 4) (f : Fld) (inst k : Nat)
    (h1 : Reg.TILE_NAN_PRODUCED.key i 0 ≠ f.key inst k) (h2 : Reg.TILE_INF_PRODUCED.key i 0 ≠ f.key inst k)
    (h3 : Reg.TILE_INVALID_CONVERT.key i 0 ≠ f.key inst k) (h4 : Reg.TILE_INT_SAT.key i 0 ≠ f.key inst k) :
    (s.setNum i n).getF f inst k = s.getF f inst k := by
  unfold State.setNum
  dsimp only
  repeat' split
  all_goals simp only [State.getF_setF_ne _ _ h1, State.getF_setF_ne _ _ h2, State.getF_setF_ne _ _ h3, State.getF_setF_ne _ _ h4]

/-- Stored NUM_STATUS bits. -/
theorem State.getF_setNum_same (s : State) (i : TileId) (n : BitVec 4) (k : Fin 4) :
    (s.setNum i n).getF (numField k) i 0 = if n[k] then 1 else s.getF (numField k) i 0 := by
  have h01 : Reg.TILE_NAN_PRODUCED.key i 0 ≠ Reg.TILE_INF_PRODUCED.key i 0 := by
    simp [Fld.key, Reg.TILE_NAN_PRODUCED, Reg.TILE_INF_PRODUCED, blockBase]
  have h02 : Reg.TILE_NAN_PRODUCED.key i 0 ≠ Reg.TILE_INVALID_CONVERT.key i 0 := by
    simp [Fld.key, Reg.TILE_NAN_PRODUCED, Reg.TILE_INVALID_CONVERT, blockBase]
  have h03 : Reg.TILE_NAN_PRODUCED.key i 0 ≠ Reg.TILE_INT_SAT.key i 0 := by
    simp [Fld.key, Reg.TILE_NAN_PRODUCED, Reg.TILE_INT_SAT, blockBase]
  have h12 : Reg.TILE_INF_PRODUCED.key i 0 ≠ Reg.TILE_INVALID_CONVERT.key i 0 := by
    simp [Fld.key, Reg.TILE_INF_PRODUCED, Reg.TILE_INVALID_CONVERT, blockBase]
  have h13 : Reg.TILE_INF_PRODUCED.key i 0 ≠ Reg.TILE_INT_SAT.key i 0 := by
    simp [Fld.key, Reg.TILE_INF_PRODUCED, Reg.TILE_INT_SAT, blockBase]
  have h23 : Reg.TILE_INVALID_CONVERT.key i 0 ≠ Reg.TILE_INT_SAT.key i 0 := by
    simp [Fld.key, Reg.TILE_INVALID_CONVERT, Reg.TILE_INT_SAT, blockBase]
  have same : ∀ (t : State) (b : Bool) (f : Fld), f.width = 1 →
      (if b then t.setF f i 0 1 else t).getF f i 0 = if b then 1 else t.getF f i 0 := by
    intro t b f hf
    cases b with
    | false => rfl
    | true => exact (State.getF_setF_same t f i 0 1).trans (by rw [hf]; rfl)
  have other : ∀ (t : State) (b : Bool) (f g : Fld), f.key i 0 ≠ g.key i 0 →
      (if b then t.setF f i 0 1 else t).getF g i 0 = t.getF g i 0 := by
    intro t b f g h
    cases b with
    | false => rfl
    | true => exact State.getF_setF_ne t 1 h
  unfold State.setNum
  dsimp only
  match k with
  | 0 => exact (other _ _ _ _ h03.symm).trans ((other _ _ _ _ h02.symm).trans ((other _ _ _ _ h01.symm).trans (same _ _ _ rfl)))
  | 1 =>
    refine (other _ _ _ _ h13.symm).trans ((other _ _ _ _ h12.symm).trans ((same _ _ _ rfl).trans ?_))
    rw [other _ _ _ _ h01]; rfl
  | 2 =>
    refine (other _ _ _ _ h23.symm).trans ((same _ _ _ rfl).trans ?_)
    rw [other _ _ _ _ h12, other _ _ _ _ h02]; rfl
  | 3 =>
    refine (same _ _ _ rfl).trans ?_
    rw [other _ _ _ _ h23, other _ _ _ _ h13, other _ _ _ _ h03]; rfl

/-- The tile after a bundle, with its flow. -/
def flowed (t : Tile) (all ops : List SlotOp) (ps : List Pend) : Tile :=
  let a := match loopOf ops with
    | some f => (t.sr f.sa).toNat
    | none => 0
  let u := ({ t with cycle := t.cycle + 1, inflight := t.inflight ++ ps } : Tile).advance.flow all ops a
  { u with
    halting := u.halting || ops.any SlotOp.isHalt
    timedOut := false
    stall := afterStall t ops
    pstate := if (afterStall t ops).isSome then .stalled else .running }

theorem State.setNum_atTime (s : State) (i : TileId) (n : BitVec 4) (t : Nat) :
    (s.atTime t).setNum i n = (s.setNum i n).atTime t := by
  unfold State.setNum
  dsimp only
  split <;> split <;> split <;> split <;> rfl

/-- The end of a bundle that neither halts the program nor leaves it. -/
theorem finishBundle_inside {s : State} {i : TileId} {all ops : List SlotOp} (ps : List Pend) (hr : (s.tile i).active = true)
    (hh : ops.any SlotOp.isHalt = false) (hl : (flowed (s.tile i) all ops ps).pc < s.getF Reg.TILE_PROG_LEN i 0) :
    let u := ({ s.tile i with cycle := (s.tile i).cycle + 1, inflight := (s.tile i).inflight ++ ps } : Tile)
    finishBundle s i all ops ps =
      ((((s.countF Reg.TILE_ISSUED_BUNDLES i 0 1).setTile i u).setNum i u.dueNum).setTile i (flowed (s.tile i) all ops ps)).atTime
        (s.tileTime i ((s.tile i).cycle + 1)) := by
  intro u
  have h1 : ((s.countF Reg.TILE_ISSUED_BUNDLES i 0 1).modTile i (fun t =>
      { t with cycle := t.cycle + 1, inflight := t.inflight ++ ps })) = (s.countF Reg.TILE_ISSUED_BUNDLES i 0 1).setTile i u := rfl
  have h2 : ∀ g : Tile → Tile, ((((s.countF Reg.TILE_ISSUED_BUNDLES i 0 1).setTile i u).setNum i u.dueNum).modTile i g) =
      ((((s.countF Reg.TILE_ISSUED_BUNDLES i 0 1).setTile i u).setNum i u.dueNum).setTile i (g u)) := by
    intro g
    unfold State.modTile
    rw [State.tile_setNum, State.tile_setTile]
  have key : Reg.TILE_ISSUED_BUNDLES.key i 0 ≠ Reg.TILE_PROG_LEN.key i 0 := by
    simp [Fld.key, Reg.TILE_ISSUED_BUNDLES, Reg.TILE_PROG_LEN, blockBase] <;> omega
  have h3 : ∀ t : Tile, ((((s.countF Reg.TILE_ISSUED_BUNDLES i 0 1).setTile i u).setNum i u.dueNum).setTile i t).getF
      Reg.TILE_PROG_LEN i 0 = s.getF Reg.TILE_PROG_LEN i 0 := by
    intro t
    rw [State.getF_setTile, State.getF_setNum, State.getF_setTile, State.getF_countF_ne s 1 key]
    all_goals
      simp [Fld.key, Reg.TILE_NAN_PRODUCED, Reg.TILE_INF_PRODUCED, Reg.TILE_INVALID_CONVERT, Reg.TILE_INT_SAT, Reg.TILE_PROG_LEN, blockBase]
    all_goals omega
  have clk : ((s.countF Reg.TILE_ISSUED_BUNDLES i 0 1).setTile i u).clockN i = s.clockN i := by
    unfold State.clockN
    rw [State.getF_setTile, State.getF_countF_ne]
    simp [Fld.key, Reg.TILE_ISSUED_BUNDLES, Reg.BRK_CUR_N, blockBase]
    omega
  have h4 : ((s.countF Reg.TILE_ISSUED_BUNDLES i 0 1).setTile i u).clockTo i u.cycle =
      ((s.countF Reg.TILE_ISSUED_BUNDLES i 0 1).setTile i u).atTime (s.tileTime i ((s.tile i).cycle + 1)) := by
    unfold State.clockTo State.tileTime
    rw [clk, State.tile_setTile, if_pos (show u.active = true from hr)]
    rfl
  unfold finishBundle
  dsimp only
  rw [h1, State.tile_setTile, h4, State.setNum_atTime]
  have h5 : ∀ (t : State) (n : Nat), (t.atTime n).tile i = t.tile i := fun _ _ => rfl
  have h6 : ∀ (t : State) (n : Nat) (g : Tile → Tile), (t.atTime n).modTile i g = (t.modTile i g).atTime n := fun _ _ _ => rfl
  have h7 : ∀ (t : State) (n : Nat) (f : Fld), (t.atTime n).getF f i 0 = t.getF f i 0 := fun _ _ _ => rfl
  rw [h5, State.tile_setTile, h6, h2, h7, h3, if_neg (by rw [hh]; decide), h5, State.tile_setTile, if_neg]
  · rfl
  · exact Nat.not_le.mpr hl

/-- A state that differs from `s` in the counted bundle, the NUM_STATUS bits and its tile alone. -/
theorem issued_of_state {s : State} {i : TileId} {ps : List Pend} {after : Tile → Tile} {t : Tile}
    (h : t = after ((s.tile i).issued ps)) :
    let u := ({ s.tile i with cycle := (s.tile i).cycle + 1, inflight := (s.tile i).inflight ++ ps } : Tile)
    Issued s (((((s.countF Reg.TILE_ISSUED_BUNDLES i 0 1).setTile i u).setNum i u.dueNum).setTile i t).atTime
      (s.tileTime i ((s.tile i).cycle + 1))) i ps after := by
  intro u
  have hk : ∀ k : Fin 4, Reg.TILE_ISSUED_BUNDLES.key i 0 ≠ (numField k).key i 0 := by
    intro k
    match k with
    | 0 => simp [Fld.key, Reg.TILE_ISSUED_BUNDLES, Reg.TILE_NAN_PRODUCED, numField, blockBase] <;> omega
    | 1 => simp [Fld.key, Reg.TILE_ISSUED_BUNDLES, Reg.TILE_INF_PRODUCED, numField, blockBase] <;> omega
    | 2 => simp [Fld.key, Reg.TILE_ISSUED_BUNDLES, Reg.TILE_INVALID_CONVERT, numField, blockBase] <;> omega
    | 3 => simp [Fld.key, Reg.TILE_ISSUED_BUNDLES, Reg.TILE_INT_SAT, numField, blockBase] <;> omega
  have at_tile : ∀ (t : State) (n : Nat) (j : TileId), (t.atTime n).tile j = t.tile j := fun _ _ _ => rfl
  have at_get : ∀ (t : State) (n : Nat) (f : Fld) (a b : Nat), (t.atTime n).getF f a b = t.getF f a b := fun _ _ _ _ _ => rfl
  refine ⟨?_, ?_, ?_, ?_, ?_, ?_, ?_⟩
  · rw [at_tile, State.tile_setTile, h]
  · intro j hj
    rw [at_tile]
    rw [State.tile_setTile_ne _ _ hj, State.tile_setNum, State.tile_setTile_ne _ _ hj, State.tile_countF]
  · rw [State.setNum_regs]
    rfl
  · rw [at_get, State.getF_setTile, State.getF_setNum, State.getF_setTile, State.getF_countF_same]
    · exact (hk 0).symm
    · exact (hk 1).symm
    · exact (hk 2).symm
    · exact (hk 3).symm
  · intro k
    rw [at_get, State.getF_setTile, State.getF_setNum_same, State.getF_setTile, State.getF_countF_ne _ _ (hk k)]
    rfl
  · intro f inst n h1 h2
    rw [at_get, State.getF_setTile, State.getF_setNum, State.getF_setTile, State.getF_countF_ne _ _ h1.symm]
    · exact (h2 0).symm
    · exact (h2 1).symm
    · exact (h2 2).symm
    · exact (h2 3).symm
  · rw [State.setNum_regs]
    rfl

/-- The register files after results land depend on the register files alone. -/
theorem Tile.foldl_land_files (l : List Pend) (a b : Tile) (h1 : a.v = b.v) (h2 : a.sreg = b.sreg) (h3 : a.p = b.p)
    (h4 : a.badV = b.badV) (h5 : a.badS = b.badS) (h6 : a.badP = b.badP) :
    let x := l.foldl (fun (t : Tile) (p : Pend) => t.land p.dst) a
    let y := l.foldl (fun (t : Tile) (p : Pend) => t.land p.dst) b
    x.v = y.v ∧ x.sreg = y.sreg ∧ x.p = y.p ∧ x.badV = y.badV ∧ x.badS = y.badS ∧ x.badP = y.badP := by
  induction l generalizing a b with
  | nil => exact ⟨h1, h2, h3, h4, h5, h6⟩
  | cons p l ih =>
    simp only [List.foldl_cons]
    obtain ⟨n, d, m⟩ := p
    cases d with
    | v r m x => exact ih _ _ (by simp [Tile.land, h1]) h2 h3 (by simp [Tile.land, h4]) h5 h6
    | s r x => exact ih _ _ h1 (by simp [Tile.land, h2]) h3 h4 (by simp [Tile.land, h5]) h6
    | p r m x =>
      by_cases hr : r = 0#3
      · simp only [Tile.land, hr, if_true]; exact ih _ _ h1 h2 h3 h4 h5 h6
      · simp only [Tile.land, hr, if_false]
        exact ih _ _ h1 h2 (by simp [h3]) h4 h5 (by simp [h6])

/-- The tile of `issued`, as the end of a bundle forms it. -/
theorem Tile.issued_eq (t : Tile) (ps : List Pend) :
    t.issued ps =
      { ({ t with cycle := t.cycle + 1, inflight := t.inflight ++ ps } : Tile).advance with
        pc := t.pc + 1, timedOut := false, stall := none, pstate := .running } := by
  have h1 := Tile.foldl_land_frame
    (((t.inflight ++ ps).map (fun p => { p with left := p.left - 1 })).filter (fun p => p.left == 0)) t
  have h3 := Tile.advance_frame { t with cycle := t.cycle + 1, inflight := t.inflight ++ ps }
  rw [h3]
  unfold Tile.issued
  dsimp only
  rw [h1]
  dsimp only
  have h4 := Tile.foldl_land_files (((t.inflight ++ ps).map (fun p => { p with left := p.left - 1 })).filter (fun p => p.left == 0)) t
    { t with
      cycle := t.cycle + 1
      inflight := ((t.inflight ++ ps).map (fun p => { p with left := p.left - 1 })).filter (fun p => p.left != 0) }
    rfl rfl rfl rfl rfl rfl
  dsimp only at h4
  obtain ⟨e1, e2, e3, e4, e5, e6⟩ := h4
  rw [e1, e2, e3, e4, e5, e6]
  rfl

/-- A slot after which the program simply goes on. -/
def SlotOp.plain : SlotOp → Bool
  | .ctl op _ => !(op == .br || op == .loop || op == .wait || op == .halt)
  | .arr op _ => !(op == .mode || op == .drain)
  | _ => true

/-- No loop is active and no branch is on its way. -/
def Tile.straight (t : Tile) : Prop := t.loops = [] ∧ t.branch = none ∧ t.brShadow = 0

theorem Tile.advance_straight {t : Tile} (h : t.straight) : t.advance.straight := by
  rw [Tile.advance_frame]; exact h

/-- What the tile holds while its slot acts does not matter for the tile after the bundle. -/
theorem Tile.issued_acting (t : Tile) (ps : List Pend) (st : Option Stall) (q : ProgState) :
    ({ t with pstate := q, stall := st } : Tile).issued ps = t.issued ps := by
  rw [Tile.issued_eq, Tile.issued_eq]
  have h1 := Tile.advance_frame { t with pstate := q, stall := st, cycle := t.cycle + 1, inflight := t.inflight ++ ps }
  have h2 := Tile.advance_frame { t with cycle := t.cycle + 1, inflight := t.inflight ++ ps }
  rw [h1, h2]
  have h4 := Tile.foldl_land_files (((t.inflight ++ ps).map (fun p => { p with left := p.left - 1 })).filter (fun p => p.left == 0))
    { t with
      pstate := q
      stall := st
      cycle := t.cycle + 1
      inflight := ((t.inflight ++ ps).map (fun p => { p with left := p.left - 1 })).filter (fun p => p.left != 0) }
    { t with
      cycle := t.cycle + 1
      inflight := ((t.inflight ++ ps).map (fun p => { p with left := p.left - 1 })).filter (fun p => p.left != 0) }
    rfl rfl rfl rfl rfl rfl
  dsimp only at h4
  obtain ⟨e1, e2, e3, e4, e5, e6⟩ := h4
  unfold Tile.advance
  dsimp only
  rw [e1, e2, e3, e4, e5, e6]

/-- The flow after a plain slot: the next bundle. -/
theorem flowed_plain {t : Tile} {o : SlotOp} (ps : List Pend) (ho : o.plain = true) (h : t.straight) :
    flowed t [o] [o] ps = t.issued ps := by
  have hs : afterStall t [o] = none := by
    cases o with
    | ctl op f => cases op <;> simp_all [SlotOp.plain, afterStall]
    | arr op f => cases op <;> simp_all [SlotOp.plain, afterStall]
    | _ => simp [afterStall]
  have hh : [o].any SlotOp.isHalt = false := by
    cases o with
    | ctl op f => cases op <;> simp_all [SlotOp.plain, SlotOp.isHalt]
    | _ => rfl
  have hf : ∀ (u : Tile) (a : Nat), u.straight → u.flow [o] [o] a = { u with pc := u.pc + 1 } := by
    intro u a hu
    obtain ⟨h1, h2, h3⟩ := hu
    have e : ({ u with branch := none, brShadow := 0, loops := [] } : Tile) = u := by rw [← h1, ← h2, ← h3]
    cases o with
    | ctl op f => cases op <;> simp_all [SlotOp.plain, Tile.flow, branchOf, hasBr, loopOf, loopEnd]
    | _ => simp_all [Tile.flow, branchOf, hasBr, loopOf, loopEnd]
  rw [Tile.issued_eq]
  unfold flowed
  dsimp only
  have hu : ({ t with cycle := t.cycle + 1, inflight := t.inflight ++ ps } : Tile).advance.straight :=
    Tile.advance_straight (t := { t with cycle := t.cycle + 1, inflight := t.inflight ++ ps }) h
  have hp : ({ t with cycle := t.cycle + 1, inflight := t.inflight ++ ps } : Tile).advance.pc = t.pc := by
    rw [Tile.advance_frame]
  revert hu hp
  generalize ({ t with cycle := t.cycle + 1, inflight := t.inflight ++ ps } : Tile).advance = u
  intro hu hp
  rw [hs, hh, hf u _ hu, hp]
  simp

/-- A bundle of one slot: the state at its end, from what the slot itself did and from the flow; then a GSTAT at the head of its
queue is taken up. -/
theorem issueSlot_then {s s' : State} {c : Issue} {o : SlotOp} {ps : List Pend} {after : Tile → Tile} (h : Alone s c o)
    (hh : o.isHalt = false)
    (ha : ∀ op f w, o = .acc op f w → ((accIssue (acting s c.tile o) c.tile op f).1.tile c.tile).pstate ≠ .faulted)
    (he : slotEffects (acting s c.tile o) c.tile [o] = (acting s' c.tile o, ps))
    (hf : flowed ((acting s' c.tile o).tile c.tile) [o] [o] ps = after ((s'.tile c.tile).issued ps))
    (hl : (after ((s'.tile c.tile).issued ps)).pc < s'.getF Reg.TILE_PROG_LEN c.tile 0) :
    ∃ u, Issued s' u c.tile ps after ∧
      issueSlot s c o = if o.isGstat && (u.tile c.tile).active then gatherHead u c.tile else u := by
  have h1 := issued_of_state (s := s') (i := c.tile) (ps := ps) (after := after) rfl
  rw [issueSlot_alone h ha, he]
  dsimp only
  rw [finishBundle_inside ps (by unfold acting; rw [State.tile_modTile]; rfl) (by simpa using hh) (by rw [hf]; exact hl), hf]
  have hd : ({ (acting s' c.tile o).tile c.tile with
        cycle := ((acting s' c.tile o).tile c.tile).cycle + 1,
        inflight := ((acting s' c.tile o).tile c.tile).inflight ++ ps } : Tile).dueNum =
      ({ s'.tile c.tile with
        cycle := (s'.tile c.tile).cycle + 1, inflight := (s'.tile c.tile).inflight ++ ps } : Tile).dueNum := by
    simp [acting, Tile.dueNum]
  have hs : ∀ (a b : Tile) (n : BitVec 4) (r : Tile),
      ((((acting s' c.tile o).countF Reg.TILE_ISSUED_BUNDLES c.tile 0 1).setTile c.tile a).setNum c.tile n).setTile c.tile r =
      (((s'.countF Reg.TILE_ISSUED_BUNDLES c.tile 0 1).setTile c.tile b).setNum c.tile n).setTile c.tile r := by
    intro a b n r
    have e : ((acting s' c.tile o).countF Reg.TILE_ISSUED_BUNDLES c.tile 0 1) =
        (s'.countF Reg.TILE_ISSUED_BUNDLES c.tile 0 1).setTile c.tile ((acting s' c.tile o).tile c.tile) := by
      unfold acting State.modTile
      rw [State.tile_setTile]
      rfl
    rw [e, State.setNum_setTile, State.setNum_setTile, State.setNum_setTile, State.setTile_setTile, State.setTile_setTile,
      State.setTile_setTile]
  have hc : (acting s' c.tile o).tileTime c.tile (((acting s' c.tile o).tile c.tile).cycle + 1) =
      s'.tileTime c.tile ((s'.tile c.tile).cycle + 1) := by
    unfold State.tileTime acting
    rw [State.tile_modTile]
    rfl
  rw [hd, hs, hc]
  exact ⟨_, h1, rfl⟩

/-- A bundle of one slot that is no GSTAT: its next state, from what the slot itself did and from the flow. -/
theorem issueSlot_flow {s s' : State} {c : Issue} {o : SlotOp} {ps : List Pend} {after : Tile → Tile} (h : Alone s c o)
    (hh : o.isHalt = false) (hg : o.isGstat = false)
    (ha : ∀ op f w, o = .acc op f w → ((accIssue (acting s c.tile o) c.tile op f).1.tile c.tile).pstate ≠ .faulted)
    (he : slotEffects (acting s c.tile o) c.tile [o] = (acting s' c.tile o, ps))
    (hf : flowed ((acting s' c.tile o).tile c.tile) [o] [o] ps = after ((s'.tile c.tile).issued ps))
    (hl : (after ((s'.tile c.tile).issued ps)).pc < s'.getF Reg.TILE_PROG_LEN c.tile 0) :
    Issued s' (issueSlot s c o) c.tile ps after := by
  obtain ⟨u, hu, e⟩ := issueSlot_then h hh ha he hf hl
  rw [hg] at e
  rw [e]
  exact hu

/-- A bundle of one plain slot: the state at its end, from what the slot itself did; then a GSTAT is taken up. -/
theorem issueSlot_plain_then {s s' : State} {c : Issue} {o : SlotOp} {ps : List Pend} (h : Alone s c o) (ho : o.plain = true)
    (ha : ∀ op f w, o = .acc op f w → ((accIssue (acting s c.tile o) c.tile op f).1.tile c.tile).pstate ≠ .faulted)
    (he : slotEffects (acting s c.tile o) c.tile [o] = (acting s' c.tile o, ps))
    (hs : (s'.tile c.tile).straight) (hp : (s'.tile c.tile).pc = (s.tile c.tile).pc)
    (hl : s'.getF Reg.TILE_PROG_LEN c.tile 0 = s.getF Reg.TILE_PROG_LEN c.tile 0) :
    ∃ u, Issued s' u c.tile ps ∧ issueSlot s c o = if o.isGstat && (u.tile c.tile).active then gatherHead u c.tile else u := by
  have hh : o.isHalt = false := by
    cases o with
    | ctl op f => cases op <;> simp_all [SlotOp.plain, SlotOp.isHalt]
    | _ => rfl
  refine issueSlot_then h hh ha he ?_ ?_
  · rw [flowed_plain ps ho (by unfold acting; rw [State.tile_modTile]; exact hs)]
    unfold acting
    rw [State.tile_modTile, Tile.issued_acting]
    rfl
  · have := h.inside.2
    rw [hh] at this
    rw [hl]
    change (s'.tile c.tile).pc + 1 < _
    rw [hp]
    simpa using this

/-- A bundle of one plain slot that is no GSTAT: its next state, from what the slot itself did. -/
theorem issueSlot_plain {s s' : State} {c : Issue} {o : SlotOp} {ps : List Pend} (h : Alone s c o) (ho : o.plain = true)
    (hg : o.isGstat = false)
    (ha : ∀ op f w, o = .acc op f w → ((accIssue (acting s c.tile o) c.tile op f).1.tile c.tile).pstate ≠ .faulted)
    (he : slotEffects (acting s c.tile o) c.tile [o] = (acting s' c.tile o, ps))
    (hs : (s'.tile c.tile).straight) (hp : (s'.tile c.tile).pc = (s.tile c.tile).pc)
    (hl : s'.getF Reg.TILE_PROG_LEN c.tile 0 = s.getF Reg.TILE_PROG_LEN c.tile 0) :
    Issued s' (issueSlot s c o) c.tile ps := by
  obtain ⟨u, hu, e⟩ := issueSlot_plain_then h ho ha he hs hp hl
  rw [hg] at e
  rw [e]
  exact hu

/-- A GSTAT alone in its bundle: the bundle's end, then the head of the gather queue. -/
theorem issueSlot_gstat {s s' : State} {c : Issue} {f : ArrF} {ps : List Pend} (h : Alone s c (.arr .gstat f))
    (he : slotEffects (acting s c.tile (.arr .gstat f)) c.tile [.arr .gstat f] = (acting s' c.tile (.arr .gstat f), ps))
    (hs : (s'.tile c.tile).straight) (hp : (s'.tile c.tile).pc = (s.tile c.tile).pc)
    (hl : s'.getF Reg.TILE_PROG_LEN c.tile 0 = s.getF Reg.TILE_PROG_LEN c.tile 0) :
    ∃ u, Issued s' u c.tile ps ∧ issueSlot s c (.arr .gstat f) = gatherHead u c.tile := by
  obtain ⟨u, hu, e⟩ := issueSlot_plain_then h rfl (fun _ _ _ e => by cases e) he hs hp hl
  refine ⟨u, hu, ?_⟩
  rw [e, hu.tile]
  rfl

end Sys2Proof.Machine
end

