-- ==== Sys2Proof/Tests/Slice0.lean ====
section
/-! SUPPORT. Tests of one step or one operation: words written out from the tables of the spec, its worked examples, ill-formed
commands that the check refuses, and for each obligation states that meet its hypotheses. -/

namespace Sys2Proof.Tests

open Sys2Proof.Machine Sys2Proof.Laws

set_option Elab.async false

/-! Words of slots and bundles, bit by bit. -/

/-- Spec 02 Table 2.4: 63 reserved, IMM16, SS, VBS, PD, RND, VC, VB, VA, VD, OPCODE, GUARD. V_ADD is 0x00. -/
theorem test_word_vadd :
    decodeVec 0b0_0000000000000000_00000_0_000_00_000000_000010_000001_000011_00000000_1101#64 =
      .vec .add ⟨0b1101, 3, 1, 2, 0, 0, 0, false, 0, 0, false⟩ := by decide +kernel

/-- CVT 0x40 to FP32 from BF16 part 2, RND toward zero; ROT 0xA1 by 5 of V9 into V63. -/
theorem test_word_cvt_rot :
    decodeVec 0b0_0000001000100000_00000_0_000_01_000000_000000_000111_000101_01000000_0000#64 =
      .vec .cvt ⟨0, 5, 7, 0, 0, 1, 0, false, 0, 0x0220, false⟩ ∧
    decodeVec 0b0_0000000000000101_00000_0_000_00_000000_000000_001001_111111_10100001_0000#64 =
      .vec .rot ⟨0, 63, 9, 0, 0, 0, 0, false, 0, 5, false⟩ := by decide +kernel

/-- A comparison with VBS: V_LT 0x62 of V4 and S6 into P5. -/
theorem test_word_vlt :
    decodeVec 0b0_0000000000000000_00110_1_101_00_000000_000000_000100_000000_01100010_0000#64 =
      .vec .lt ⟨0, 0, 4, 0, 0, 0, 5, true, 6, 0, false⟩ := by decide +kernel

/-- Spec 02 Table 2.5: reserved, ACC, PASS, KGRP, DRAIN_ST, FEED, FMT_W, FMT_X, SEL, OP, GUARD. MM is 3, an ACFG 6. -/
theorem test_word_mm_bind :
    decodeArr 0b000000_01_0010_000000000111_010_001_0000_0000_11_0011_0000#48 =
      .arr .mm ⟨0, 3, 0, 0, 1, 2, 7, 2, 1, 0⟩ ∧
    decodeArr 0b000000_00_0000_000000001111_000_100_0000_0000_00_0110_0000#48 =
      .arr .bindFeed ⟨0, 0, 0, 0, 4, 0, 15, 0, 0, 0⟩ := by decide +kernel

/-- Spec 02 Table 2.6: reserved, ROT, LINE, BASE, VR, OP, GUARD. LD is 1, ST 2, DGO 3. -/
theorem test_word_ld_st_dgo :
    decodeAcc 0b0000_010100_0000000000000001000_00010_001010_0001_0000#48 0 = .acc .ld ⟨0, 10, 2, 8, 20, 0⟩ 0 ∧
    decodeAcc 0b0000_000000_0000000000000000001_00001_000111_0010_0000#48 0 = .acc .st ⟨0, 7, 1, 1, 0, 0⟩ 0 ∧
    decodeAcc 0b0000_000000_0000000000000000000_00011_001111_0011_0000#48 0 = .acc .dgo ⟨0, 15, 3, 0, 0, 0⟩ 0 := by decide +kernel

/-- Spec 02 Table 2.7: reserved, PD, SX, DEST, N−1, VR, DOOR, OP, GUARD. SEND is 1, RECV 3. -/
theorem test_word_send_recv :
    decodeMsg 0b0000_000_00101_1101111_111_000100_1111_0001_0000#40 = .msg .send ⟨0, 15, 4, 7, 111, 5, 0, 0⟩ ∧
    decodeMsg 0b0000_000_00110_0000000_000_100000_0010_0011_0000#40 = .msg .recv ⟨0, 2, 32, 0, 0, 6, 0, 0⟩ := by decide +kernel

/-- Spec 02 Tables 2.8, 2.26: IMM21, SB, SA, SD, SUB, OP, GUARD. HALT is OP 10; BR OP 4; SALU_SUB OP 1, SUB 1; LI OP 3. -/
theorem test_word_control :
    decodeCtl 0b000000000000000000000_00000_00000_00000_0000_1010_0000#48 = .ctl .halt ⟨0, 0, 0, 0, 0⟩ ∧
    decodeCtl 0b000000001000000000001_00000_00000_00000_0000_0100_0000#48 = .ctl .br ⟨0, 0, 0, 0, 0x1001⟩ ∧
    decodeCtl 0b000000000000000000000_00011_00010_00001_0001_0001_0000#48 = .ctl .sub ⟨0, 1, 2, 3, 0⟩ ∧
    decodeCtl 0b111111111111111111111_00000_00000_11111_0000_0011_0000#48 = .ctl .li ⟨0, 31, 0, 0, 0x1FFFFF⟩ := by decide +kernel

/-- Reserved: vector class 0b000 operation 7, control OP 10 with SUB 1, array OP 7, access OP 6, message OP 0 (spec 02 R57). -/
theorem test_word_reserved :
    decodeVec 0x070#64 = .bad 0 ∧ decodeCtl 0x1A0#48 = .bad 4 ∧ decodeArr 0x70#48 = .bad 1 ∧ decodeAcc 0x60#48 0 = .bad 2 ∧
      decodeMsg 0x00#40 = .bad 3 := by decide +kernel

/-- Spec 02 Table 2.2: control slot at 208, message at 168, access at 120, array at 72, vector at 8, SLOT_EN in bits 4:0. -/
theorem test_word_bundle :
    decodeBundle (0x0000000000A0#48 ++ 0#40 ++ 0#48 ++ 0#48 ++ 0x0000000002081000#64 ++ 0b00010001#8) 0 =
      (0#3, [.vec .add ⟨0, 1, 2, 2, 0, 0, 0, false, 0, 0, false⟩, .ctl .halt ⟨0, 0, 0, 0, 0⟩]) := by decide +kernel

/-! Worked examples of the spec. -/

/-- Spec 04, after R163: 0xC0A0 is −160 × 2⁻⁵, FP8_E4M3 0x4C is 12 × 2⁻¹, MXFP4 0b1011 with scale 0x82 is −12. -/
theorem test_operands_decoded :
    decodeOpnd 0 0xC0A0 0 = .fin true 160 (-5) 8 ∧ decodeOpnd 3 0x4C 0 = .fin false 12 (-1) 8 ∧
      decodeOpnd 10 0b1011 0x82 = .fin true 12 0 8 := by decide +kernel

/-- Spec 05, after R212: a group whose sum is 0x3F800000 although the exact one rounds to 0x3F800001. -/
theorem test_group_sum :
    groupSum 40 (List.replicate 29 (.fin false 0 0) ++
      [mulOpnd 0 (decodeOpnd 0 0x3F80 0) (decodeOpnd 0 0x3F80 0), mulOpnd 0 (decodeOpnd 0 0x3980 0) (decodeOpnd 0 0x3980 0),
       mulOpnd 0 (decodeOpnd 0 0x3480 0) (decodeOpnd 0 0x3400 0)]) = 0x3F800000#32 := by decide +kernel

/-- Spec 05, after R219: 1 + 2⁻²³ squared in the FP32 class is 0x3F800002. -/
theorem test_fp32_class :
    groupSum 40 [mulOpnd 2 (decodeOpnd 2 0x3F800001 0) (decodeOpnd 2 0x3F800001 0)] = 0x3F800002#32 := by decide +kernel

/-- Spec 04, after R182: 0xBF80C000 to BF16 with r = 0x9E3A11F0, with 0xD0000000, to nearest even, toward zero. -/
theorem test_stochastic_rounding :
    fmtBF16.round (.sr 0x9E3A11F0#32) (fp32 0xBF80C000#32) = 0xBF81 ∧ fmtBF16.round (.sr 0xD0000000#32) (fp32 0xBF80C000#32) = 0xBF80 ∧
      fmtBF16.round .rne (fp32 0xBF80C000#32) = 0xBF81 ∧ fmtBF16.round .rtz (fp32 0xBF80C000#32) = 0xBF80 := by decide +kernel

/-- Spec 04 R183: max(−0, +0) is +0, min(−0, +0) is −0. -/
theorem test_signed_zero : fpMax 0x80000000#32 0#32 = 0#32 ∧ fpMin 0x80000000#32 0#32 = 0x80000000#32 := by decide +kernel

/-- Spec 07, after R316: w = 1.0 with moil 64 and LR × m = −2⁻¹³: the moil goes to 68; from 124 the weight goes to 0x3F81 and the moil
to −128. -/
theorem test_moil :
    settle (fpAdd .rne (wEff 0x3F80 64) 0x39000000#32) = (0x3F80, 68) ∧
      settle (fpAdd .rne (wEff 0x3F80 124) 0x39000000#32) = (0x3F81, -128) := by decide +kernel

/-- Spec 08, worked example: the history 130 gives E = 125 for INT8; the quants of 12.0, 11.5, 9.25 and −4.0 at E = 125 and at E = 127;
the sum saturates at the third member and is 29 in attempt 1; history 131 gives 126. -/
theorem test_crucible_block :
    histScale 130 7 = 125 ∧ histScale 131 7 = 126 ∧
      [0x41400000#32, 0x41380000#32, 0x41140000#32, 0xC0800000#32].map (fun x => quantElem (fp32 x) 125 7) = [48, 46, 37, -16] ∧
      [0x41400000#32, 0x41380000#32, 0x41140000#32, 0xC0800000#32].map (fun x => quantElem (fp32 x) 127 7) = [12, 12, 9, -4] ∧
      satAdd 7 (satAdd 7 48 46) 37 = satCode 7 ∧ satAdd 7 (satCode 7) (-16) = satCode 7 ∧
      satAdd 7 (satAdd 7 (satAdd 7 12 12) 9) (-4) = 29 := by decide +kernel

/-- Spec 03, after R126: an LD with ROT = 20 brings byte 20 of a line to byte 0 and byte 0 to byte 44; ST undoes it. -/
theorem test_rotate :
    (rotLoad 20 ((List.range 64).map (BitVec.ofNat 8)))[0]? = some 20#8 ∧
      (rotLoad 20 ((List.range 64).map (BitVec.ofNat 8)))[44]? = some 0#8 ∧
      rotStore 20 (rotLoad 20 ((List.range 64).map (BitVec.ofNat 8))) = (List.range 64).map (BitVec.ofNat 8) := by decide +kernel

/-- Spec 14, worked example: TILE page 2 of instance 0x55 answers 0x00015502 at 0x2AA000; pantry page 1 of the same tile lies at
0x555000. -/
theorem test_tile_registers :
    (match exec (.latchingRead (.cp 1) 0x2AA000#26 false) State.reset with
     | .next t => t.reply.data
     | _ => []) = [0x02#8, 0x55#8, 0x01#8, 0x00#8] ∧
    blockBase 2 0x55 + 0x1000 = 0x555000 ∧ blockBase 1 0x5D = 0x2E8000 ∧
    Reg.PANTRY_RD_BASE.key 0x55 (8 * 5 + 2) = 8 * 0x555250 := by decide +kernel

/-- Spec 00, worked example: with no retired cluster physical S2.C5.Y1 (instance 85) has linear index 4 × 19 + 1 once a start has
mapped it. -/
theorem test_tile_name : (State.reset.setF Reg.TILE_LOGICAL_X 85 0 19).logical 85 = 4 * 19 + 1 := by decide +kernel

/-- The check value of CRC-32C (log entry 30). -/
theorem test_crc32c : crc32c [0x31, 0x32, 0x33, 0x34, 0x35, 0x36, 0x37, 0x38, 0x39] = 0xE3069283 := by decide +kernel

/-! Well-formedness. -/

/-- One ill-formed term for each check. -/
theorem test_ill_formed :
    [Instr.logRead { aRequest with payload := List.replicate 225 0#8 }, .dataChunk 0 (List.replicate 63 0#8) 0,
      .closeChunk 0 (List.replicate 16513 0#8) 0, .bindFeed aIssue (anArr 1), .resetWalk aIssue (anArr 0),
      .messageArrival 0 0 (.remote ⟨0, true, 0, 0, 0, []⟩) 0 0, .creditReturn 0 (.remote 0 112 0 1) 0,
      .pantryMasterAccess 0 0 0 0 (some (List.replicate 65 0#8)) 0, .enable .host 1 128 true, .softReset .host 20 0,
      .perfClear .host 3 9, .perfEvent .host 0 0 0, .intForce .host 2 0 5 0, .intStatusClear .host 1 0 1 0,
      .bar0InvalidAccess .host 8 8 false].all (fun i => !i.wellFormed) = true ∧
    [Instr.stepReport [] [] 0, .unlistedOpcodeRequest [] [] 0,
      .queueDoorbell 0 0 [[]] 0, .breakerThermalTick [] 0, .railFault true 24 0, .railFault false 15 0,
      .ageingSample (List.replicate 33 ⟨0, 0, 0, 0, 0, 0⟩) 0, .deviceStart { aStart with serials := [] },
      .timebaseExchange (some (0, 0, 4096)) 0 0 0 0 0, .doorFrame aFrame (.credits 0 0 0 0 9) 0].all (fun i => !i.wellFormed) = true := by
  decide +kernel

/-- A leaf of more than 65,536 bytes is ill-formed. -/
theorem test_ill_formed_leaf (d : List Byte) (h : 65536 < d.length) :
    (Instr.cloneLeafArrival 0 (.leaf 0 0 d) 0).wellFormed = false := by
  exact decide_eq_false (by omega)

/-! Bundles of one slot. -/

/-- The state that a command answers, if it answers one. -/
def after (i : Instr) (s : State) : Option State :=
  match exec i s with
  | .next t => some t
  | _ => none

/-- Does the command answer a state that passes the check? -/
def runs (i : Instr) (s : State) (check : State → Bool) : Bool := (after i s).any check

/-- Tile 0 runs bundle 0 of a program of 4. -/
def tile0 (f : Tile → Tile) : State :=
  (State.reset.setF Reg.TILE_PROG_LEN 0 0 4).modTile 0 (fun t => f { t with pstate := .running })

/-- The conditions of `Alone` as a check. -/
def aloneCheck (s : State) (c : Issue) (o : SlotOp) : Bool :=
  let t := s.tile c.tile
  decide (t.pstate = .running) && !t.halting && t.bundle.isEmpty && t.hdr == 0#3 && c.hdr == 0#3 && c.last &&
    decide (t.pc + 1 < s.getF Reg.TILE_PROG_LEN c.tile 0) && !t.istoreSingle.contains t.pc && !t.istoreDouble.contains t.pc &&
    t.loops.isEmpty && t.branch.isNone && t.brShadow == 0 && t.stores.all (fun p => decide (t.cycle < p.visible)) &&
    o.acts t && !o.illegal (s.flag Reg.TILE_LEGACY c.tile 0) && !slotIllegal s c.tile o && (parityHit t [o]).isNone &&
    (slotHitch s c.tile [o] o).isNone && waitOf [o] == 0

theorem alone_of_check {s : State} {c : Issue} {o : SlotOp} (h : aloneCheck s c o = true) : Alone s c o := by
  simp only [aloneCheck, Bool.and_eq_true, Bool.not_eq_true', decide_eq_true_eq, List.isEmpty_iff, Option.isNone_iff_eq_none,
    beq_iff_eq, List.all_eq_true] at h
  obtain ⟨⟨⟨⟨⟨⟨⟨⟨⟨⟨⟨⟨⟨⟨⟨⟨⟨⟨h1, h2⟩, h3⟩, h4⟩, h5⟩, h6⟩, h7⟩, h8⟩, h9⟩, h10⟩, h11⟩, h12⟩, h13⟩, h14⟩, h15⟩, h16⟩, h17⟩, h18⟩, h19⟩ := h
  exact ⟨h1, h2, h3, ⟨h4, h5⟩, h6, ⟨by omega, .inr h7⟩, ⟨h8, h9⟩, ⟨h10, h11, h12⟩, h13, h14, ⟨h15, h16⟩, h17, h18, h19⟩

/-- V3 := V1 op V2, and V4 as source c. -/
def vecF (imm : BitVec 16) : VecF := ⟨0, 3, 1, 2, 4, 0, 0, false, 6, imm, false⟩

/-- A tile whose V1, V2 and V4 hold one word in every lane. -/
def words3 (a b c : Word) : State := tile0 (fun t =>
  { t with v := ((t.v.set 1 (Vector.replicate 128 a)).set 2 (Vector.replicate 128 b)).set 4 (Vector.replicate 128 c) })

/-- A tile whose V1 holds in lane l the number l. -/
def lanes1 : State := tile0 (fun t =>
  { t with v := t.v.set 1 (Vector.ofFn (fun l : Fin 128 => BitVec.ofNat 32 l.val)), sreg := t.sreg.set 6 0xFEDCBA9876543210#64 })

/-- After its bundle, lane 5 of a result for V3 that is `n` bundles away is `x`. -/
def flies (n : Nat) (x : Word) (u : State) : Bool :=
  (u.tile 0).inflight.any (fun p => p.left == n && match p.dst with
    | .v r _ v => r == 3#6 && v[5] == x
    | _ => false)

/-- Lane 5 of a comparison of V1 and V2. -/
def compares (op : VecOp) (a b : Word) : Bool := vecLane ((words3 a b 0).tile 0) ((words3 a b 0).srState 0) op (vecF 0) 0 5 == 1#32

/-- Spec 02 Tables 2.9, 2.25: 1.5, 2.25 and 0.5; exp 0, log 1, 1/2, 1/√4. -/
theorem test_float_results :
    ([(.vAdd aIssue (vecF 0), 3, 0x40700000#32), (.vSub aIssue (vecF 0), 3, 0xBF400000#32), (.vMul aIssue (vecF 0), 3, 0x40580000#32),
      (.vFma aIssue (vecF 0), 3, 0x40780000#32), (.vMin aIssue (vecF 0), 1, 0x3FC00000#32), (.vMax aIssue (vecF 0), 1, 0x40100000#32)] :
      List (Instr × Nat × Word)).all (fun x => runs x.1 (words3 0x3FC00000 0x40100000 0x3F000000) (flies x.2.1 x.2.2)) = true ∧
    runs (.vAbs aIssue (vecF 0)) (words3 0xBFC00000 0 0) (flies 1 0x3FC00000) = true ∧
    runs (.exp aIssue (vecF 0)) (words3 0 0 0) (flies 15 0x3F800000) = true ∧
    runs (.log aIssue (vecF 0)) (words3 0x3F800000 0 0) (flies 15 0) = true ∧
    runs (.rcp aIssue (vecF 0)) (words3 0x40000000 0 0) (flies 13 0x3F000000) = true ∧
    runs (.rsqrt aIssue (vecF 0)) (words3 0x40800000 0 0) (flies 13 0x3F000000) = true := by decide +kernel

/-- NaN in, canonical NaN out, and Inf − Inf (spec 04 Table 4.5). -/
theorem test_float_specials :
    runs (.vAdd aIssue (vecF 0)) (words3 0x7F800000 0xFF800000 0) (flies 3 0x7FC00000) = true ∧
    runs (.vMin aIssue (vecF 0)) (words3 0x7FC00001 0x40100000 0) (flies 1 0x7FC00000) = true ∧
    runs (.vMul aIssue (vecF 0)) (words3 0 0x7F800000 0) (flies 3 0x7FC00000) = true := by decide +kernel

/-- CVT from BF16 part 0 widens the low half of a register; to BF16 packs it. The 128 ones of V1 sum to 128. -/
theorem test_conversions_and_sums :
    runs (.cvt aIssue (vecF 0x0020)) (words3 0x3FC03FC0 0 0) (flies 2 0x3FC00000) = true ∧
    runs (.cvt aIssue (vecF 0x0002)) (words3 0x3FC00000 0 0) (flies 2 0x3FC03FC0) = true ∧
    runs (.rsum aIssue (vecF 0)) (words3 0x3F800000 0 0) (flies 7 0x43000000) = true ∧
    runs (.rmax aIssue (vecF 0)) (words3 0x3F800000 0 0) (flies 7 0x3F800000) = true ∧
    runs (.rmin aIssue (vecF 0)) (words3 0x3F800000 0 0) (flies 7 0x3F800000) = true := by decide +kernel

/-- 7 and 5; shifts of 0x80000000 by 3; lane 5 of the lane numbers, permuted and rotated; S6 broadcast. -/
theorem test_integer_and_move_results :
    ([(.iadd aIssue (vecF 0), 12#32), (.isub aIssue (vecF 0), 2#32), (.vAnd aIssue (vecF 0), 5#32), (.vOr aIssue (vecF 0), 7#32),
      (.vXor aIssue (vecF 0), 2#32), (.vShl aIssue (vecF 3), 56#32), (.mov aIssue (vecF 0), 7#32), (.iota aIssue (vecF 0), 5#32),
      (.sel aIssue (vecF 0), 7#32)] : List (Instr × Word)).all (fun x => runs x.1 (words3 7 5 9) (flies 1 x.2)) = true ∧
    runs (.vShr aIssue (vecF 3)) (words3 0x80000000 0 0) (flies 1 0x10000000) = true ∧
    runs (.vSra aIssue (vecF 3)) (words3 0x80000000 0 0) (flies 1 0xF0000000) = true ∧
    runs (.perm aIssue (vecF 0x01FF)) lanes1 (flies 2 6) = true ∧ runs (.rot aIssue (vecF 125)) lanes1 (flies 2 2) = true ∧
    runs (.bcast aIssue (vecF 0)) lanes1 (flies 1 0x76543210) = true ∧
    runs (.sel aIssue { vecF 0 with guard := 8 }) (words3 7 5 9) (flies 1 9) = true := by decide +kernel

/-- −1.0 against 2.0, NaN against 2.0, −1 against 2 signed and unsigned; guarded lanes of P[PD] are written. -/
theorem test_comparisons :
    [VecOp.eq, .ne, .lt, .le, .gt, .ge, .unord].map (fun op => compares op 0xBF800000 0x40000000) =
      [false, true, true, true, false, false, false] ∧
    [VecOp.eq, .ne, .lt, .le, .gt, .ge, .unord].map (fun op => compares op 0x7FC00000 0x40000000) =
      [false, true, false, false, false, false, true] ∧
    [VecOp.ieq, .ine, .ilt, .ile, .iltu, .ileu].map (fun op => compares op 0xFFFFFFFF 2) =
      [false, true, true, true, false, false] ∧
    runs (.ine aIssue { vecF 0 with pd := 5 }) (words3 1 2 0) (fun u => (u.tile 0).inflight.any (fun p => p.left == 1 && match p.dst with
      | .p r m v => r == 5#3 && m[7] && v[7]
      | _ => false)) = true := by decide +kernel

/-- Hypotheses of `VectorFloatResults`, `VectorIntegerAndMoveResults` and `VectorComparisonResults`. -/
theorem witness_vector_slot :
    (vecOps.filter (fun op => op != .cvt)).all (fun op => aloneCheck (words3 0 0 0) aIssue (.vec op (vecF 0))) = true ∧
      aloneCheck (words3 0 0 0) aIssue (.vec .cvt (vecF 0x0020)) = true ∧ cvtSrc (vecF 0x0020) ≠ 2 ∧
      aloneCheck (words3 0 0 0) aIssue (.vec .cvt (vecF 0x0002)) = true ∧ cvtSrc (vecF 0x0002) = 2 := by decide +kernel

/-- Hypotheses of `SlotJoinsItsBundle`. -/
theorem witness_slot_joins : ((tile0 id).tile 0).pstate = .running ∧ ((tile0 id).tile 0).halting = false := by decide +kernel

/-- S3 := S1 op S2. -/
def ctlF (imm : BitVec 21) : CtlF := ⟨0, 3, 1, 2, imm⟩

/-- A tile with two scalars. -/
def scalars2 (a b : Word64) : State := tile0 (fun t => { t with sreg := (t.sreg.set 1 a).set 2 b })

/-- 7 and 3; 7 × 3 and the clock, 56 cycles of 1.4 GHz after 99 ns, are 3 and 2 bundles away; −7 and unsigned relations; LI −1. -/
theorem test_scalar_results :
    ([(.saluAdd aIssue (ctlF 0), 10#64), (.saluSub aIssue (ctlF 0), 4#64), (.saluAnd aIssue (ctlF 0), 3#64), (.saluOr aIssue (ctlF 0), 7#64),
      (.saluXor aIssue (ctlF 0), 4#64), (.saluShl aIssue (ctlF 0), 56#64), (.saluShr aIssue (ctlF 0), 0#64), (.saluSra aIssue (ctlF 0), 0#64),
      (.addi aIssue ⟨0, 3, 1, 0, 0x1FFFFF⟩, 6#64), (.li aIssue ⟨0, 3, 0, 0, 0x1FFFFF⟩, 0xFFFFFFFFFFFFFFFF#64)] : List (Instr × Word64)).all
      (fun x => runs x.1 (scalars2 7 3) (fun u => (u.tile 0).sr 3 == x.2)) = true ∧
    runs (.smul aIssue (ctlF 0)) (scalars2 7 3) (fun u => (u.tile 0).inflight == [⟨2, .s 3 21, 0⟩]) = true ∧
    runs (.time aIssue ⟨0, 3, 0, 0, 0⟩) ((scalars2 7 3).modTile 0 (fun t => { t with cycle := 56, anchorAt := 99 })) (fun u => (u.tile 0).inflight == [⟨1, .s 3 139, 0⟩]) = true ∧
    runs (.psetLt aIssue (ctlF 0)) (scalars2 (-7) 3) (fun u => (u.tile 0).p[3] == BitVec.allOnes 128) = true ∧
    runs (.psetLtu aIssue (ctlF 0)) (scalars2 (-7) 3) (fun u => (u.tile 0).p[3] == 0#128) = true ∧
    runs (.saluSra aIssue (ctlF 0)) (scalars2 (-8) 2) (fun u => (u.tile 0).sr 3 == -2#64) = true := by decide +kernel

/-- BR acts after two delay bundles; LOOP of no pass skips its body; HALT and an unrepeated WAIT (spec 02 R65 to R67). -/
theorem test_flow :
    runs (.br aIssue ⟨0, 0, 0, 0, 3⟩) (scalars2 0 0) (fun u => (u.tile 0).branch == some (3, 2) && (u.tile 0).pc == 1) = true ∧
    runs (.loop aIssue ⟨0, 0, 1, 0, 2⟩) (scalars2 5 0) (fun u => (u.tile 0).loops == [⟨1, 2, 5⟩]) = true ∧
    runs (.loop aIssue ⟨0, 0, 1, 0, 2⟩) (scalars2 0 0) (fun u => (u.tile 0).pc == 3) = true ∧
    runs (.halt aIssue ⟨0, 0, 0, 0, 0⟩) (scalars2 0 0) (fun u => (u.tile 0).halting) = true ∧
    runs (.wait aIssue ⟨0, 0, 1, 0, 0⟩) (scalars2 9 0) (fun u => decide ((u.tile 0).pstate = .stalled)) = true := by decide +kernel

/-- Hypotheses of `ControlResults` and of the clauses of `ControlFlowCommands`. -/
theorem witness_control_slot :
    [CtlOp.add, .sub, .and, .or, .xor, .shl, .shr, .sra, .smul, .psetEq, .psetNe, .psetLt, .psetLe, .psetGt, .psetGe, .psetLtu, .psetGeu].all
      (fun op => aloneCheck (scalars2 7 3) aIssue (.ctl op (ctlF 0))) = true ∧
    [CtlOp.time, .mstat, .gstatq, .halt].all (fun op => aloneCheck (scalars2 7 3) aIssue (.ctl op ⟨0, 3, 0, 0, 0⟩)) = true ∧
    [CtlOp.addi, .li, .br, .loop].all (fun op => aloneCheck (scalars2 7 3) aIssue (.ctl op ⟨0, 3, 1, 0, 2⟩)) = true ∧
    aloneCheck (scalars2 0 0) aIssue (.ctl .loop ⟨0, 0, 1, 0, 2⟩) = true ∧ 2 + 1 < (scalars2 0 0).getF Reg.TILE_PROG_LEN 0 0 ∧
    aloneCheck (scalars2 7 3) aIssue (.ctl .wait ⟨0, 0, 1, 0, 0⟩) = true ∧ aloneCheck (scalars2 0 3) aIssue (.ctl .wait ⟨0, 0, 1, 0, 0⟩) = true ∧
    aloneCheck (scalars2 4096 3) aIssue (.ctl .issue ⟨0, 0, 1, 0, 0⟩) = true ∧ ((scalars2 0 0).tile 0).gather = [] := by decide +kernel
/-! Messages, accesses and array commands. -/

/-- Tile 1 serves logical tile 5, and credit slot 0 of tile 0 holds `n` credits of its door 3. -/
def withCredits (n : Nat) (s : State) : State :=
  ((((((s.setF Reg.TILE_LOGICAL_X 1 0 1).setF (Hdr.ENABLE 1) 1 0 1).setF Reg.TILE_CS_VALID 0 0 1).setF Reg.TILE_CS_DEST_TILE 0 0 5).setF
    Reg.TILE_CS_DOOR 0 0 3).setF Reg.TILE_CS_CREDITS 0 0 n)

/-- Credit slot 1 of tile 0 holds 8 credits of door 3 of logical tile 5 of member 9. -/
def withRemoteCredits (s : State) : State :=
  ((((((s.setF Reg.TILE_CS_VALID 0 1 1).setF Reg.TILE_CS_REMOTE 0 1 1).setF Reg.TILE_CS_DEST_MEMBER 0 1 9).setF Reg.TILE_CS_DEST_TILE 0 1 5).setF
    Reg.TILE_CS_DOOR 0 1 3).setF Reg.TILE_CS_CREDITS 0 1 8)

def aMessage (remote : Bool) (seq : BitVec 16) : DoorMsg :=
  { srcTile := 5, remote := remote, srcMember := if remote then 9 else 0, seq := seq, tag := 7#16, regs := [Vector.replicate 128 1#32] }

/-- Door 2 of tile 0 holds a message that arrived at time 10. -/
def holding (mode : Nat) : State :=
  (tile0 (fun t => { t with sreg := t.sreg.set 6 20#64, doors := t.doors.set 2 [⟨aMessage (mode == 3) 0, 10⟩] })).setF Reg.TILE_DOOR_MODE 0 2 mode

/-- Spec 02 R75, R77, R81, R83, Tables 2.11, 2.12: SEND takes N credits and names its sender; RECV answers credits and the header word. -/
theorem test_send_recv :
    runs (.send aIssue ⟨0, 3, 0, 1, 5, 0, 0, 0⟩) (withCredits 8 (tile0 id)) (fun u => u.getF Reg.TILE_CS_CREDITS 0 0 == 6 &&
      u.net.map (fun m => (m.remote, m.src, m.dst, m.door, m.msg.regs.length)) == [(false, 0, 5, 3, 2)]) = true ∧
    runs (.send aIssue ⟨0, 3, 0, 1, 5, 0, 0, 0⟩) (withCredits 1 (tile0 id)) (fun u => decide ((u.tile 0).pstate = .stalled) && u.net.isEmpty) = true ∧
    runs (.recv aIssue ⟨0, 2, 9, 0, 0, 6, 0, 0⟩) (holding 1) (fun u => (u.tile 0).doors[2].isEmpty && u.getF Reg.TILE_DOOR_EXPECTED_SEQ 0 2 == 1 &&
      u.credits == [⟨false, 0, 5, 0, 2, 1⟩] && (u.tile 0).inflight.any (fun p => p.left == 3 && p.dst == .s 6 0x0000000007000005#64)) = true := by
  decide +kernel

/-- Hypotheses of the clauses of `MessageCommands`. -/
theorem witness_message_slot :
    aloneCheck (withCredits 8 (tile0 id)) aIssue (.msg .send ⟨0, 3, 0, 7, 5, 0, 0, 0⟩) = true ∧
    aloneCheck (withRemoteCredits (tile0 (fun t => { t with sreg := t.sreg.set 6 0x50090000#64 }))) aIssue (.msg .sendr ⟨0, 3, 0, 7, 0, 6, 0, 0⟩) = true ∧
    [1, 2, 3].all (fun m => aloneCheck (holding m) aIssue (.msg .recv ⟨0, 2, 9, 0, 0, 6, 0, 0⟩)) = true ∧
    [1, 3].all (fun m => aloneCheck (holding m) aIssue (.msg .recvt ⟨0, 2, 9, 0, 0, 6, 0, 0⟩)) = true ∧
    ([1, 2, 3].map (fun m => doorTake (holding m) 0 2)).all (fun m => m.any (fun m => m.msg.regs.length == 1 && decide (m.time ≤ 20))) = true ∧
    ((holding 1).tile 0).sr 6 = 20#64 ∧
    aloneCheck (tile0 id) aIssue (.msg .dpoll ⟨0, 2, 0, 0, 0, 0, 1, 0⟩) = true := by decide +kernel

/-- Region descriptor 0 of master `m` opens the pantry of tile `i` for reads and writes. -/
def opened (m : Nat) (i : TileId) (s : State) : State :=
  ((((s.setF Reg.PANTRY_RD_EN i (8 * m) 1).setF Reg.PANTRY_RD_R i (8 * m) 1).setF Reg.PANTRY_RD_W i (8 * m) 1).setF Reg.PANTRY_RD_LAST i (8 * m) 5119)

/-- A pantry that holds `ws` as words of 8 bytes at 4096, open to the access engine, the sequencer and messages; S1 is 4096. -/
def pantryWith (ws : List Nat) (f : Tile → Tile) : State :=
  opened 2 0 (opened 1 0 (opened 0 0 (tile0 (fun t => f { t with
    sreg := t.sreg.set 1 4096#64
    pantry := { t.pantry with mem := Memory.writeL [] 4096 (ws.flatMap (toLe 8)) } }))))

/-- A descriptor of one row of one line (spec 03 Table 3.6). -/
def rowWords (kind src dst pattern dest : Nat) : List Nat := [0xF0 + kind, src, dst, 0, 0, 0, pattern, dest]

/-- Spec 02 Table 2.9, 03 R125: LD of the line at 4096 is 9 bundles away, ST is visible 6 cycles later. -/
theorem test_ld_st :
    runs (.ld aIssue ⟨0, 5, 1, 0, 0, 0⟩ 0) (pantryWith [0x0000000200000001] id) (fun u => (u.tile 0).inflight.any (fun p => p.left == 8 && match p.dst with
      | .v r _ v => r == 5#6 && v[0] == 1#32 && v[1] == 2#32 && v[2] == 0#32
      | _ => false)) = true ∧
    runs (.st aIssue ⟨0, 5, 1, 1, 0, 0⟩ 0) (pantryWith [] id) (fun u => (u.tile 0).stores.map (fun p => (p.addr, p.data.length, p.visible)) == [(4160, 512, 6)]) = true ∧
    runs (.fill 0 3 1 ⟨20, 0, 0, 0⟩) (pantryWith [] (fun t => { t with
      descs := t.descs.set 3 (some ⟨4096, (rowWords 5 0 8192 0x1122334455667788 0).map (BitVec.ofNat 64), 0, 0, 0, 0⟩) }))
      (fun u => Memory.readN (u.tile 0).pantry.mem 8192 9 == [0x88, 0x77, 0x66, 0x55, 0x44, 0x33, 0x22, 0x11, 0x88]) = true := by decide +kernel

/-- The descriptor that a DGO of the line at 4096 reads. -/
def readAt4096 (s : State) : AccDesc :=
  { addr := 4096, words := lineWords (Memory.readN (s.tile 0).pantry.mem 4096 64) 8, dgoCycle := 0, rowsDone := 0, finished := 0, seqNo := 0 }

/-- The conditions of `Tile.clean` as a check. -/
def cleanCheck (t : Tile) (a n : Nat) : Bool :=
  (wordsIn t.pantry.double a n).isEmpty && (wordsIn t.pantry.single a n).isEmpty && (t.pantry.hazardsFor none a n).isEmpty

theorem clean_of_check {t : Tile} {a n : Nat} (h : cleanCheck t a n = true) : t.clean a n := by
  simp only [cleanCheck, Bool.and_eq_true, List.isEmpty_iff] at h
  exact ⟨h.1.1, h.1.2, h.2⟩

/-- Hypotheses of the clauses of `AccessCommands`. -/
theorem witness_access_slot :
    let s := pantryWith (rowWords 5 0 8192 0x1122334455667788 0) id
    aloneCheck s aIssue (.acc .ld ⟨0, 5, 1, 0, 0, 0⟩ 0) = true ∧ aloneCheck s aIssue (.acc .st ⟨0, 5, 1, 0, 0, 0⟩ 0) = true ∧
    aloneCheck s aIssue (.acc .dgo ⟨0, 3, 1, 0, 0, 0⟩ 0) = true ∧ aloneCheck s aIssue (.acc .dwait ⟨0, 3, 0, 0, 0, 0⟩ 0) = true ∧
    aloneCheck s aIssue (.acc .fence ⟨0, 0, 0, 0, 0, 0⟩ 0) = true ∧ ((s.tile 0).sr 1).toNat + 64 * (0#19).toNat = 4096 ∧
    pantryCheck s 0 { master := mAccess, handle := 15, write := false, addr := 4096, len := 512 } = none ∧
    pantryCheck s 0 { master := mAccess, handle := 15, write := true, addr := 4096, len := 512 } = none ∧
    pantryCheck s 0 { master := mAccess, handle := 3, write := false, addr := 4096, len := 64 } = none ∧
    cleanCheck (s.tile 0) 4096 512 = true ∧ (s.tile 0).descs[3] = none ∧ checkDesc s 0 3 (readAt4096 s) = none := by decide +kernel

/-- Fields of an array command: SEL array A, FMT BF16. -/
def arrF (sel : BitVec 2) (feed drainSt : BitVec 3) (kgrp : BitVec 12) (pass : BitVec 4) (acc : BitVec 2) : ArrF :=
  ⟨0, sel, 0, 0, feed, drainSt, kgrp, pass, acc, 0⟩

/-- A tile whose array A has taken a WLOAD of BF16 into slot 0. -/
def loaded : State := (fun (s : State) => (s.setF Reg.TILE_GE_SIDE_M1 0 4 1).setF Reg.TILE_GE_STRIDE_LOG2 0 4 3) <| pantryWith [] (fun t => { t with
  nextId := 7
  arrays := { t.arrays with lastA := some 0, fmtA := t.arrays.fmtA.set 0 (some 0) } })

/-- Spec 05 R198, R199, R231: the first WLOAD fills slot 0, the next slot 1; MODE stalls for 300 cycles. -/
theorem test_array_commands :
    runs (.wload aIssue (arrF 1 0 0 3 0 0)) (tile0 id) (fun u => (u.tile 0).arrays.lastA == some 0 && (u.tile 0).arrays.queue.length == 1) = true ∧
    runs (.wload aIssue (arrF 1 0 0 3 0 0)) loaded (fun u => (u.tile 0).arrays.lastA == some 1) = true ∧
    runs (.mode aIssue (arrF 3 0 0 0 1 0)) (tile0 id) (fun u => u.getF Reg.TILE_ARRAY_MODE 0 0 == 1 &&
      (u.tile 0).stall.any (fun x => x.cause == 6 && x.need == 300)) = true := by decide +kernel

/-- Hypotheses of the clauses of `ArrayCommands`. -/
theorem witness_array_slot :
    [(ArrOp.mode, arrF 3 0 0 0 1 0), (.wload, arrF 1 0 0 3 0 0), (.mm, arrF 1 0 0 3 0 0), (.drain, arrF 1 0 0 0 0 0),
      (.bindFeed, arrF 3 2 0 5 0 0), (.bindDrain, arrF 3 0 2 5 1 0), (.drainCfg, arrF 3 0 0 1 2 0), (.resetWalk, arrF 3 0 0 5 3 0),
      (.gstat, arrF 0 0 0 4 0 0)].map (fun x => aloneCheck loaded aIssue (.arr x.1 x.2)) = List.replicate 9 true := by decide +kernel
/-! Events of tiles: states that meet the hypotheses, and what the events answer there. -/

def stalled (cause need run : Nat) (ops : List SlotOp) (f : Tile → Tile) : State :=
  tile0 (fun t => f { t with cycle := 40 }) |>.modTile 0 (fun t =>
    { t with pstate := .stalled, stall := some { cause := cause, ops := ops, need := need, run := run, also := 0 } })

def aDrain : ArrEntry := .cmd { id := 3, op := .drain, f := arrF 1 0 0 0 0 0, slotA := 0, slotB := 0, cfgA := 0, cfgB := 0 }

def halting : State := tile0 (fun t => { t with halting := true, inflight := [⟨2, .s 4 9, 0⟩] })

/-- `StallsAndProgramsEnd`: a WAIT of 9 with 2 counted, a MODE, a DRAIN, a limit of 100, a halting program. -/
theorem witness_stalls_end :
    (let s := stalled 7 9 2 [] id
     s.getF Reg.TILE_STALL_LIMIT 0 0 = 0 ∧ (s.tile 0).stall = some ⟨7, [], 9, 2, 0⟩ ∧
     runs (.waitExpiry 0) s (fun u => (u.tile 0).cycle == 47 && u.getF Reg.TILE_STALL_CYCLES 0 7 == 7 && (u.tile 0).pstate == .running) = true) ∧
    runs (.modeComplete 0) (stalled 6 300 0 [] id) (fun u => (u.tile 0).cycle == 340 && u.getF Reg.TILE_STALL_CYCLES 0 6 == 300) = true ∧
    (let s := stalled 6 0 0 [] (fun t => { t with arrays := { t.arrays with queue := [aDrain] } })
     (s.tile 0).arrays.drainedBefore 3 1#2 = true ∧ (s.tile 0).cycle ≤ 60 ∧
     runs (.drainComplete 0 60) s (fun u => (u.tile 0).arrays.queue.isEmpty && (u.tile 0).cycle == 60 && u.getF Reg.TILE_STALL_CYCLES 0 6 == 20) = true) ∧
    (let s := (stalled 3 0 5 [] id).setF Reg.TILE_STALL_LIMIT 0 0 100
     bit (s.getF (Hdr.INT_STATUS 1 0) 0 0) 0 = false ∧
     runs (.stallLimit 0) s (fun u => u.getF (Hdr.ERR_CODE 1 0) 0 0 == 0x010C && u.getF (Hdr.ERR_INFO1 1 0) 0 0 == 3) = true) ∧
    (let t := halting.tile 0
     t.halting = true ∧ t.pstate = .running ∧ t.arrays.empty = true ∧ t.gather = [] ∧ t.marver = [] ∧ t.descs.toList.all (·.isNone) = true ∧
     runs (.programHalted 0 50) halting (fun u => (u.tile 0).pstate == .halted && (u.tile 0).sr 4 == 9) = true) := by decide +kernel

/-- The conditions of `waits` in `WaitingBundlesIssue`. -/
def waitsCheck (s : State) (cause : Nat) (o : SlotOp) : Bool :=
  let t := s.tile 0
  t.pstate == .stalled && t.stall.any (fun x => x.cause == cause && x.ops == [o]) && o.acts t && (parityHit t [o]).isNone && !t.halting &&
    t.loops.isEmpty && t.branch.isNone && t.brShadow == 0 && s.getF Reg.TILE_STALL_LIMIT 0 0 == 0 && decide (t.pc + 1 < s.getF Reg.TILE_PROG_LEN 0 0)

/-- `WaitingBundlesIssue`: a FENCE behind a store visible at 46, an EXP behind a busy unit, a RECVT on an empty door. -/
theorem witness_waiting_bundles :
    (let s := stalled 3 0 0 [.acc .fence ⟨0, 0, 0, 0, 0, 0⟩ 0] (fun t => { t with stores := [⟨0, [], 46⟩] })
     waitsCheck s 3 (.acc .fence ⟨0, 0, 0, 0, 0, 0⟩ 0) = true ∧ runs (.fenceComplete 0) s (fun u => (u.tile 0).cycle == 47 && (u.tile 0).pc == 1) = true) ∧
    (let s := stalled 5 0 0 [.vec .exp (vecF 0)] (fun t => { t with transFree := 43 })
     waitsCheck s 5 (.vec .exp (vecF 0)) = true ∧ (s.tile 0).cycle ≤ (s.tile 0).transFree ∧ (s.tile 0).stores = []) ∧
    (let s := (stalled 0 0 0 [.msg .recvt ⟨0, 2, 9, 0, 0, 6, 0, 0⟩] id).setF Reg.TILE_DOOR_MODE 0 2 1
     waitsCheck s 0 (.msg .recvt ⟨0, 2, 9, 0, 0, 6, 0, 0⟩) = true ∧ doorP2P s 0 2 = true ∧ doorTake s 0 2 = none ∧ ((s.tile 0).sr 6).toNat < 1 ∧
     runs (.recvtExpiry 0 1 70) s (fun u => (u.tile 0).cycle == 71 && u.getF Reg.TILE_DOOR_EXPECTED_SEQ 0 2 == 1) = true) := by decide +kernel

def onItsWay : State :=
  { tile0 id with net := [⟨false, 0, 5, 0, 2, aMessage false 0⟩], credits := [⟨false, 0, 0, 5, 3, 2⟩] }

/-- `DoorsHoldMessages`: a local message for a shared and for a P2P door, a remote one, credits from a local and a remote door. -/
theorem witness_doors :
    (onItsWay.tile 0).pstate = .running ∧ onItsWay.tileActive 0 = true ∧ onItsWay.logical 0 = 0 ∧ (onItsWay.tile 0).skipped[2] = [] ∧
      (onItsWay.tile 0).doors[2].length < 8 ∧
    runs (.messageArrival 0 2 (.local 5) 77 40) (onItsWay.setF Reg.TILE_DOOR_MODE 0 2 2) (fun u => (u.tile 0).doors[2].map (·.time) == [77] && u.net.isEmpty) = true ∧
    runs (.messageArrival 0 2 (.local 5) 77 40) ((onItsWay.setF Reg.TILE_DOOR_MODE 0 2 1).setF Reg.TILE_DOOR_SENDER_TILE 0 2 5)
      (fun u => (u.tile 0).doors[2].length == 1) = true ∧
    runs (.messageArrival 0 2 (.remote (aMessage true 0)) 77 40)
      (((onItsWay.setF Reg.TILE_DOOR_MODE 0 2 3).setF Reg.TILE_DOOR_SENDER_TILE 0 2 5).setF Reg.TILE_DOOR_SENDER_MEMBER 0 2 9)
      (fun u => (u.tile 0).doors[2].length == 1 && u.net.length == 1) = true ∧
    runs (.creditReturn 0 (.local 5 3) 40) (withCredits 1 onItsWay) (fun u => u.getF Reg.TILE_CS_CREDITS 0 0 == 3 && u.credits.isEmpty) = true ∧
    runs (.creditReturn 0 (.remote 9 5 3 8) 40) ((withRemoteCredits (tile0 id)).setF Reg.TILE_CS_CREDITS 0 1 0)
      (fun u => u.getF Reg.TILE_CS_CREDITS 0 1 == 8) = true := by decide +kernel

def queued (op : ArrOp) (f : ArrF) : State := pantryWith [] (fun t => { t with
  arrays := { t.arrays with queue := [.cmd { id := 3, op := op, f := f, slotA := 0, slotB := 0, cfgA := 0, cfgB := 0 }] } })

def draining : State := pantryWith [] (fun t => { t with
  arrays := { t.arrays with jobs := [{ id := 3, sel := 1#2, parts := [⟨4, 1, [⟨8192, List.replicate 64 9#8⟩]⟩], num := 1#4 }] } })

/-- `ArrayCommandsStartAndDrain`: each command at the front of array A, and one drain of a line. -/
theorem witness_array_events :
    [ArrOp.bindFeed, .bindDrain, .resetWalk, .wload, .mm].all (fun op =>
      let k : ArrCmd := { id := 3, op := op, f := arrF 1 2 2 1 0 0, slotA := 0, slotB := 0, cfgA := 0, cfgB := 0 }
      ((queued op (arrF 1 2 2 1 0 0)).tile 0).arrays.front false == some (.cmd k) &&
        arrayReady ((queued op (arrF 1 2 2 1 0 0)).atTime 0) 0 k) = true ∧
    (let k : ArrCmd := { id := 3, op := .bindFeed, f := arrF 1 2 2 1 0 0, slotA := 0, slotB := 0, cfgA := 0, cfgB := 0 }
     let s := (queued .bindFeed (arrF 1 2 2 1 0 0)).modArrays 0 (fun a => { a with
       jobs := [{ id := 2, sel := 1#2, parts := [⟨0, 4, [⟨8192, List.replicate 64 9#8⟩]⟩], num := 0#4 }]
       queue := .cmd { k with id := 2, op := .mm, f := arrF 2 2 2 1 0 0 } :: a.queue })
     (s.tile 0).arrays.front false = some (.cmd k) ∧ (s.tile 0).arrays.streamTaken (s.flag Reg.TILE_ARRAY_MODE 0 0) k = true) ∧
    runs (.arrayCommandStart 0 false ⟨9, 0⟩) (queued .bindFeed (arrF 1 2 0 5 0 0)) (fun u => u.getF Reg.TILE_FEED_BIND 0 2 == 5) = true ∧
    runs (.arrayCommandStart 0 false ⟨9, 0⟩) (queued .bindDrain (arrF 1 0 2 5 0 0)) (fun u => u.getF Reg.TILE_DRAIN_BIND 0 2 == 5) = true ∧
    runs (.arrayCommandStart 0 false ⟨9, 0⟩) ((queued .resetWalk (arrF 1 0 0 5 0 0)).setF Reg.TILE_WALK_POS 0 5 7) (fun u => u.getF Reg.TILE_WALK_POS 0 5 == 0) = true ∧
    ((queued .wload (arrF 1 2 2 1 0 0)).setF Reg.TILE_FEED_BIND 0 2 15).getF Reg.TILE_FEED_BIND 0 2 = 15 ∧
    (startMm ((queued .mm (arrF 1 2 2 1 0 0)).setAll Reg.TILE_FEED_BIND 0 15 8) 0
      { id := 3, op := .mm, f := arrF 1 2 2 1 0 0, slotA := 0, slotB := 0, cfgA := 0, cfgB := 0 }).2 = none ∧
    (draining.tile 0).arrays.jobs.all (fun j => drainReady (draining.tile 0).arrays 0 j && (stageJob 0 (fun _ => 0) draining j).2.isNone) = true ∧
    runs (.mmDrained 0 false (.replicate 8 0) ((Vector.replicate 8 0).set 4 6) 9) draining (fun u => (u.tile 0).arrays.jobs.isEmpty && Memory.readN (u.tile 0).pantry.mem 8190 4 == [0, 0, 9, 9] &&
      u.getF Reg.TILE_MM_COMPLETED 0 0 == 1 && u.getF Reg.TILE_DRAIN_BACKPRESSURE_CYCLES 0 4 == 6) = true := by decide +kernel

/-- A descriptor of one row of one line bound to handle 3; DRAM channel 0 is in service; tile 1 serves logical tile 5. -/
def moving (kind src dst pattern dest done : Nat) : State :=
  let s := pantryWith [0x0807060504030201] (fun t => { t with
    descs := t.descs.set 3 (some ⟨4096, (rowWords kind src dst pattern dest).map (BitVec.ofNat 64), 0, done, 0, 0⟩) })
  (opened 2 1 (withCredits 8 s)).setF Reg.DDR_STATE 0 0 2

/-- `DescriptorsMoveRows`: each kind moves its line, and a finished one frees its handle. -/
theorem witness_descriptors :
    (let s := moving 1 0 8192 0 0 0
     0 + 64 ≤ dramSize s ∧ (s.tile 0).descs[3].any (fun d => d.kind == 1 && eligible s 0 d 20 && firstServed s 0 d 20 && d.rows == 1 && !d.chain) = true ∧
     pantryCheck s 0 { master := mAccess, handle := 3, write := true, addr := 8192, len := 64 } = none ∧
     runs (.dramToPantry 0 3 1 ⟨20, 0, 0, 0⟩) { s with dram := [(1, 7#8)] } (fun u => Memory.readN (u.tile 0).pantry.mem 8192 2 == [0, 7]) = true) ∧
    (let s := moving 2 4096 64 0 0 0
     64 + 64 ≤ dramSize s ∧ cleanCheck (s.tile 0) 4096 64 = true ∧
     pantryCheck s 0 { master := mAccess, handle := 3, write := false, addr := 4096, len := 64 } = none ∧
     runs (.pantryToDram 0 3 1 ⟨20, 0, 0, 0⟩) s (fun u => Memory.readN u.dram 64 3 == [1, 2, 3]) = true) ∧
    runs (.pantryToPantry 0 3 1 ⟨20, 0, 0, 0⟩) (moving 3 4096 8192 0 0 0) (fun u => Memory.readN (u.tile 0).pantry.mem 8192 3 == [1, 2, 3]) = true ∧
    (let s := moving 4 4096 8192 0 5 0
     s.mapped 5 = some 1 ∧ pantryCheck s 1 { master := mMessage, handle := 3, write := true, addr := 8192, len := 64 } = none ∧
     runs (.pantryToTile 0 3 1 ⟨20, 0, 0, 0⟩) s (fun u => Memory.readN (u.tile 1).pantry.mem 8192 3 == [1, 2, 3]) = true) ∧
    runs (.fill 0 3 1 ⟨20, 0, 0, 0⟩) (moving 5 0 8192 0x0807060504030201 0 0) (fun u => Memory.readN (u.tile 0).pantry.mem 8199 2 == [8, 1]) = true ∧
    (let s := moving 3 4096 8192 0 0 1
     (s.tile 0).descs[3].any (·.done) = true ∧
     runs (.descriptorComplete 0 3 30 0) s (fun u => (u.tile 0).descs[3].isNone && u.getF Reg.PANTRY_DESC_COMPLETED 0 0 == 1) = true) := by decide +kernel

def aGstat (rows : Option (List (List Opnd))) (attached : Bool) (lines : List LineWrite) : GStat :=
  { id := 3, direct := false, fmtX := 0, feed := 0, cont := false, sideM1 := 1, strideLog2 := 3, offset := 0, srcWalk := 0, rowsM1 := 0, dst := 16384,
    mm := some 2, rows := rows, loaded := none, attached := attached, lines := lines, num := 1#4 }

/-- `GatherUpdatesComplete`: an attached statistic that has its lines, and a tap with sampled rows. -/
theorem witness_gather_complete :
    let s := pantryWith [] (fun t => { t with gather := [aGstat (some []) true [⟨16384, List.replicate 64 5#8⟩]] })
    (writeLines 0 mSeq (s.dropHazards 0 (.gstat 3), none) [⟨16384, List.replicate 64 5#8⟩]).2 = none ∧
      runs (.gstatComplete 0 ⟨9, 0⟩) s (fun u => (u.tile 0).gather.isEmpty && u.getF Reg.TILE_GATHER_DONE 0 0 == 1 &&
        u.getF Reg.TILE_NAN_PRODUCED 0 0 == 1 && Memory.read (u.tile 0).pantry.mem 16384 == 5) = true := by decide +kernel

theorem gstatBlock_err (i : TileId) (g : GStat) (us : List (List Opnd)) (h : g.cont = false) (w : GWork) (p : Nat × Nat) :
    (gstatBlock i g us w p).err = w.err := by
  unfold gstatBlock
  split <;> simp_all [blockStart]

theorem witness_gather_tap (s : State) (us : List (List Opnd)) : (gstatBlocks s 0 (aGstat (some []) false []) us).err = none := by
  unfold gstatBlocks
  generalize hl : blockPairs ((aGstat (some []) false []).sideM1 + 1) = l
  generalize hw : (⟨s, none, [], 0#4⟩ : GWork) = w
  have : w.err = none := by rw [← hw]
  clear hl hw
  induction l generalizing w with
  | nil => exact this
  | cons p ps ih => exact ih _ ((gstatBlock_err 0 _ us rfl w p).trans this)

/-- A descriptor of one 1 × 1 problem (spec 06 Table 6.3). -/
def marverWords (k : Nat) : List Nat :=
  let it := k == 1 || k == 2
  let so := decide (4 ≤ k)
  [k + (if k = 1 then 16 else 0), 0, 0, 0, 0x10000, 0x11000, if it then 0x12000 else 0, if so then 0x13000 else 0,
    if k = 3 ∨ k = 4 ∨ k = 5 then 0 else 0x20000, 0x14000, 0, 0, 64 + (if so then 0x400000 else 0), 0, 0, 0]

def marverAt (k : Nat) (deadline : Nat) (running : Bool) : State := pantryWith (marverWords k) (fun t => { t with
  marver := [⟨3, 4096, if running then ((marverWords k).set 3 deadline).map (BitVec.ofNat 64) else [], [], running, []⟩]
  arrays := { t.arrays with queue := [.marver 3] } })

/-- The running descriptor that a start makes of the one at 4096. -/
def marverStarted (k : Nat) : MvDesc := ⟨3, 4096, lineWords (Memory.readN ((marverAt k 0 false).tile 0).pantry.mem 4096 128) 16, [], true, []⟩

/-- `MarverCommands`: a start of each kind, an end, a deadline, a release. -/
theorem witness_marver :
    [1, 2, 3, 4, 5, 6].all (fun k =>
      let s := marverAt k 0 false
      ((s.tile 0).arrays.drainedBefore 3 3#2) && (pantryCheck s 0 { master := mSeq, write := false, addr := 4096, len := 128 }).isNone &&
        cleanCheck (s.tile 0) 4096 128 && (marverStarted k).kind == k && (marverStarted k).check.isNone && ((marverStarted k).pantryFail s 0).isNone &&
        (readProblems (markMarver ((s.setF Reg.TILE_MV_DESC_ADDR 0 0 4096).modTile 0 (fun t => { t with marver := [marverStarted k] })) 0
          (marverStarted k)) 0 (marverStarted k)).2.1.isNone) = true ∧
    (finishFail (marverAt 3 50 true) 0 [{ addr := ((marverAt 3 50 true).tile 0).marver.head?.elim 0 (·.status), data := [] }]).isNone = true ∧
    runs (.marverDescriptorDone 0 ⟨90, 0⟩) (marverAt 3 0 true) (fun u => (u.tile 0).marver.isEmpty && u.getF Reg.TILE_MV_DONE 0 0 == 1 &&
      (u.tile 0).arrays.queue.isEmpty) = true ∧
    runs (.deadlineExpiry 0 51 ⟨60, 0⟩ []) (marverAt 3 50 true) (fun u => (u.tile 0).marver.isEmpty && u.getF Reg.TILE_MV_DONE 0 0 == 1 && u.now == 51) = true ∧
    runs (.marverRelease 0) (tile0 (fun t => { t with releasing := true })) (fun u => !(u.tile 0).releasing) = true := by decide +kernel

/-- `PantryCommands`: the line at 4096 read as CP and written, region descriptor 5 of HOST_DMA, bank 17 to RETENTION, bank 0 to OFF, the sweep. -/
theorem witness_pantry :
    (let s := pantryWith [0x0807060504030201] id
     pantryCheck s 0 { master := 3 + 3, write := false, addr := 4096, len := 64 } = none ∧ cleanCheck (s.tile 0) 4096 64 = true ∧
     runs (.pantryMasterAccess 0 3 4096 64 none 0) s (fun u => u.reply.data.take 3 == [1, 2, 3]) = true ∧
     runs (.pantryMasterAccess 0 3 4096 64 (some [5, 6, 7, 8, 9, 10, 11, 12]) 0) s (fun u => Memory.readN (u.tile 0).pantry.mem 4096 2 == [5, 6]) = true) ∧
    State.reset.flag Reg.PANTRY_RD_EN 0 (8 * 5 + 5) = false ∧
    runs (.regionDescriptorWrite (.cp 1) 0 5 5 true 0x12345) State.reset (fun u => u.getF Reg.PANTRY_RD_LAST 0 45 == 0x345) = true ∧
    State.reset.getF Reg.PANTRY_BANK_CUR 0 17 = 2 ∧
    runs (.bankReq (.cp 1) 0 1 0xFFFFFFF7) State.reset (fun u => u.getF Reg.PANTRY_BANK_CUR 0 17 == 3 && u.getF Reg.PANTRY_BANK_REQ 0 17 == 1) = true ∧
    (let s := State.reset.modTile 0 (fun t => { t with pantry := { t.pantry with mem := [(0, 1#8), (64, 2#8)], trans := [⟨0, 2, 0, none⟩] } })
     runs (.bankTransitionEnd 0 0) s (fun u => (u.tile 0).pantry.mem == [(64, 2#8)] && u.getF Reg.PANTRY_BANK_CUR 0 0 == 0) = true) ∧
    (let s := State.reset.setF Reg.PANTRY_SWEEP_EN 0 0 1
     s.flag Reg.PANTRY_SWEEP_EN 0 0 = true ∧ regionOn s 0 0 = true ∧ runs (.sweepRegionStart 0 []) s (fun u => (u.tile 0).pantry.sweepNext == 1) = true) ∧
    runs (.ctrClear (.cp 1) 0) (State.reset.setF Reg.PANTRY_DESC_COMPLETED 0 0 9) (fun u => u.getF Reg.PANTRY_DESC_COMPLETED 0 0 == 0) = true := by
  decide +kernel
/-! Register pages. -/

/-- Every power domain is ON. -/
def domainsOn (s : State) : State := s.setAll Reg.PSEQ_CUR 0 2 50

/-- `HeaderCommands`: the mailbox page and page 5 of a tile take a header command of CP1, the time base page is never reset, a busy one does not. -/
theorem witness_header :
    [(11, 0), (9, 0), (1, 5), (3, 8)].all (fun x => decide (x.2 < blockInstances x.1) && reaches (domainsOn State.reset) (.cp 1) &&
      (x.1 == 11 || pageTakes (domainsOn State.reset) (.cp 1) x.1 x.2)) = true ∧
    pageTakes State.reset (.cp 2) 11 0 = true ∧ (neverReset 9 || blockBusy (domainsOn State.reset) 9 0) = false ∧
    (neverReset 11 || blockBusy State.reset 11 0) = true ∧
    runs (.enable (.cp 1) 9 0 true) (domainsOn State.reset) (fun u => u.getF (Hdr.ENABLE 9) 0 0 == 1) = true ∧
    runs (.freeze (.cp 1) 9 0 true) (domainsOn State.reset) (fun u => u.getF (Hdr.FREEZE 9) 0 0 == 1) = true ∧
    runs (.intForce (.cp 1) 9 0 0 1) (domainsOn State.reset) (fun u => u.getF (Hdr.INT_STATUS 9 0) 0 0 == 1 && u.getF (Hdr.ERR_CODE 9 0) 0 0 == 0) = true ∧
    runs (.intStatusClear (.cp 1) 9 0 0 1) ((domainsOn State.reset).recordErr 9 0 0 5 6 7)
      (fun u => u.getF (Hdr.INT_STATUS 9 0) 0 0 == 0 && u.getF (Hdr.ERR_CODE 9 0) 0 0 == 0) = true ∧
    runs (.perfEvent (.cp 1) 9 0 3) (domainsOn State.reset) (fun u => u.getF (Hdr.PERF_EVENT 9) 0 0 == 3) = true ∧
    runs (.softReset (.cp 1) 9 0) ((domainsOn State.reset).recordErr 9 0 0 5 6 7) (fun u => u.getF (Hdr.ERR_CODE 9 0) 0 0 == 0) = true := by
  decide +kernel

/-- `TilePrograms`: a START, an ABORT, a SOFT_RESET, a FREEZE and its end of tile 0. -/
theorem witness_tile_programs :
    (let s := (domainsOn (State.reset.setF Reg.TILE_PROG_LEN 0 0 4)).setF (Hdr.ENABLE 1) 0 0 1
     reaches s (.cp 1) = true ∧ pageTakes s (.cp 1) 1 0 = true ∧ s.getF (Hdr.ENABLE 1) 0 0 ≠ 0 ∧ (s.tile 0).pstate = .idle ∧
     runs (.start (.cp 1) 0 2) s (fun u => (u.tile 0).pc == 2 && (u.tile 0).pstate == .running && u.getF Reg.TILE_ENTRY 0 0 == 2) = true ∧
     runs (.softReset (.cp 1) 1 0) s (fun u => (u.tile 0).pstate == .idle) = true) ∧
    (let s := domainsOn (holding 1)
     (s.tile 0).active = true ∧
     runs (.abort (.cp 1) 0) s (fun u => (u.tile 0).pstate == .halted && u.getF (Hdr.INT_STATUS 1 0) 0 0 == 2 && (u.tile 0).doors[2].length == 1) = true ∧
     runs (.freeze (.cp 1) 1 0 true) s (fun u => (u.tile 0).pstate == .frozen && (u.tile 0).thawTo == .running) = true) ∧
    runs (.freeze (.cp 1) 1 0 false) (domainsOn ((tile0 id).modTile 0 (fun t => { t with pstate := .frozen, thawTo := .running })))
      (fun u => (u.tile 0).pstate == .running) = true ∧
    runs (.softReset (.cp 1) 1 0) ((domainsOn (holding 1)).modTile 0 (fun t => { t with pstate := .halted }))
      (fun u => u.getF Reg.TILE_DOOR_DROPPED 0 0 == 1 && (u.tile 0).doors[2].isEmpty) = true := by decide +kernel

/-- `RegisterAccesses`: the ID word, an address outside the pages, STALL_LIMIT of tile 85 and who may write it, TIME. -/
theorem witness_register_accesses :
    (regPlace 0x2AA000).map (fun p => (p.ty, p.inst, p.pg, p.off)) = some (1, 85, 2, 0) ∧ (0x2AA000#26).toNat % 4 = 0 ∧
    (regPlace 0x3FDFFFC).isNone = true ∧ standardRegion 0x3FDFFFC = false ∧ (0x3FDFFFC#26).toNat % 4 = 0 ∧
    (regPlace 0x3FE0000).isNone = true ∧ standardRegion 0x3FE0000 = true ∧ (0x3FE0000#26).toNat % 4 = 0 ∧
    (let s := domainsOn { State.reset with now := 0x123456789AB }
     reaches s (.cp 1) = true ∧ pageTakes s (.cp 1) 1 85 = true ∧ s.getF (Hdr.PERF_EVENT 1) 85 0 = 0 ∧
     runs (.registerWrite (.cp 1) (BitVec.ofNat 26 (0x8000 * 85 + 0x110)) false 0x55) s (fun u => u.getF Reg.TILE_STALL_LIMIT 85 0 == 0x55) = true ∧
     pageOn s 12 0 = true ∧ s.getF (Hdr.PERF_EVENT 12) 0 0 = 0 ∧
     runs (.latchingRead (.cp 1) 0x718100 false) s (fun u => u.reply.data == [0xAB, 0x89, 0x67, 0x45] &&
       runs (.latchingRead (.cp 1) 0x718104 false) { u with now := 0x99999999999 } (fun v => v.reply.data == [0x23, 0x01, 0, 0])) = true ∧
     pageWriter (s.setF Reg.HP_ROLE 0 0 2) .host 1 85 = false ∧ reaches (s.setF Reg.HP_ROLE 0 0 2) .host = true) := by decide +kernel

/-- `AccessSizes`: an aligned access of 8 bytes; one of 2 bytes and one of 4 at an odd address are counted and have no effect. -/
theorem witness_access_sizes :
    (0x2AA1A0#26).toNat % 8 = 0 ∧ ¬ ((2 = 4 ∧ (0x718100#26).toNat % 4 = 0) ∨ (2 = 8 ∧ (0x718100#26).toNat % 8 = 0)) ∧
    reaches State.reset (.cp 1) = true ∧ (0x718101#26).toNat % 4 ≠ 0 ∧
    runs (.bar0InvalidAccess (.cp 1) 0x718100 2 false) State.reset (fun u => u.reply.data == [0, 0] && u.getF Reg.SEC_ACCESS_ERRORS 0 0 == 1) = true ∧
    runs (.registerWrite (.cp 1) 0x718101 false 5) State.reset (fun u => u.getF Reg.SEC_ACCESS_ERRORS 0 0 == 1) = true ∧
    runs (.latchingRead (.cp 1) 0x718100 true) { State.reset with now := 0x123456789AB } (fun u => u.reply.data == [0xAB, 0x89, 0x67, 0x45, 0x23, 0x01, 0, 0]) = true := by
  decide +kernel

/-- `ForcedInterrupts`: the bits of page 0 of the commit unit and of page 5 of a tile. -/
theorem witness_forced :
    pageTakes (domainsOn State.reset) (.cp 1) 16 0 = true ∧ pageTakes (domainsOn State.reset) (.cp 1) 1 3 = true ∧
    (3 < intBits 16 0 0 ∧ 1 < intBits 1 5 3) ∧ (regPlace (blockBase 16 0 + 0x18)).map (fun p => (p.ty, p.inst, p.pg, p.off)) = some (16, 0, 0, 0x18) := by
  decide +kernel

/-! Commit unit. -/

/-- Domain 5, a context of DRAM from 64 KiB on, whose journal lies at 2048. -/
def aDomain : Domain := { entryDomain 5 (toLe 4 5 ++ zeros 28 ++ toLe 8 2048 ++ zeros 24) with upb := [] }

def aRun (phase : StepPhase) : StepRun :=
  { step := 0, phase := phase, startedAt := 0, readyUs := 0, ovf := false, skipped := false, reruns := 0, updFaults := 0, nonfinite := 0,
    gradClosed := true, gradWords := [], gradItems := [], statOpen := false, statClosed := true, dueRoots := [] }

def aRequest5 (kind : Nat) (step : Nat) (skipped : Bool) : CommitReq :=
  { domain := 5, kind := kind, skipped := skipped, roots := false, legacy := false, step := step, epoch := 0, acc := 1, crc := 0, growth := 1, nonfinite := 0 }

/-- CP1 runs, the commit unit is enabled, DRAM channel 0 is in service. -/
def committer (ds : List Domain) (qs : List CommitReq) : State :=
  { (((domainsOn State.reset).setF Reg.CP_STATE 1 0 2).setF (Hdr.ENABLE 16) 0 0 1).setF Reg.DDR_STATE 0 0 2 with domains := ds, commitQ := qs }

/-- `CommitRequestsAndPins`. -/
theorem witness_commit_requests :
    cpUp (committer [] []) 1 = true ∧ (committer [] []).getF (Hdr.ENABLE 16) 0 0 ≠ 0 ∧
    runs (.commit 5 false false 0 0 1 0 1 0) (committer [{ aDomain with lastStep := some 0 }] [])
      (fun u => u.commitQ.map (fun q => (q.domain, q.kind, q.step)) == [(5, 0, 0)]) = true ∧
    (let r := { aRun .ready with skipped := true }
     let d := { aDomain with run := some r, accCount := 3 }
     let s := committer [d] []
     s.domain? 5 = some d ∧ d.lastStep ≠ some 0 ∧ statOwed s d r = false ∧ rootsArrived d = true ∧
     runs (.commit 5 true false 0 0 1 0 1 0) s (fun u => u.commitQ.map (·.acc) == [3] &&
       (u.domain? 5).any (fun d => d.run.any (fun r => r.phase == .committing))) = true ∧
     runs (.commit 5 false false 0 0 1 0 1 0) s (fun u => u.commitQ.isEmpty) = true) ∧
    (let d := { aDomain with run := some (aRun .ready) }
     runs (.commit 5 false false 0 0 1 0 1 0) (committer [d] []) (fun u => u.commitQ.map (·.skipped) == [false]) = true ∧
     runs (.commit 5 false false 0 0 1 0 1 0) (committer [{ d with rootsDue := [64] }] []) (fun u => u.commitQ.isEmpty) = true) ∧
    runs (.commit 5 false false 0 0 1 0 1 0) (committer [{ aDomain with run := some (aRun .updating) }] []) (fun u => u.commitQ.isEmpty) = true ∧
    (let s := committer [{ aDomain with lastStep := some 0 }] (List.replicate 64 (aRequest5 0 0 false))
     s.commitQ.length = 64 ∧ (s.domain? 5).any (·.lastStep == some 0) = true ∧ bit (s.getF (Hdr.INT_STATUS 16 0) 0 0) 0 = false ∧
     runs (.commit 5 false false 0 0 1 0 1 0) s (fun u => u.getF (Hdr.ERR_CODE 16 0) 0 0 == 0x0904 && u.commitQ.length == 64) = true) ∧
    runs (.scan 5) (committer [] []) (fun u => u.commitQ.map (·.kind) == [1]) = true ∧
    runs (.queryDomain (.cp 1) 5) (committer [{ aDomain with lastStep := some 9 }] []) (fun u => fieldValue u Reg.COMMIT_Q_STEP 0 0 == 9) = true ∧
    runs (.readPinRequest 5 (.cloneSource 3)) (committer [aDomain] []) (fun u => (u.domain? 5).any (fun d => d.pins == [.cloneSource 3])) = true ∧
    runs (.readPinRequest 5 (.cloneSource 3)) { committer [aDomain] [aRequest5 0 0 false] with commitWait := true }
      (fun u => (u.domain? 5).any (fun d => d.pinWait == [.cloneSource 3])) = true ∧
    runs (.readPinRelease 5 (.cloneSource 3)) (committer [{ aDomain with pins := [.cloneSource 3] }] []) (fun u => (u.domain? 5).any (fun d => d.pins.isEmpty)) = true := by
  decide +kernel

def checked (s : State) (q : CommitReq) : Option (Domain × Nat) :=
  match requestChecks s q with
  | .ok x => some x
  | .error _ => none

/-- `CommitsTakeEffect`: an unknown domain, a repeat, a step that does not follow, a pinned domain, a skipped step, a SCAN. -/
theorem witness_commits :
    (let s := committer [] [aRequest5 0 0 false]
     checked s (aRequest5 0 0 false) = none ∧ s.getF (Hdr.FREEZE 16) 0 0 ≠ 1 ∧ bit (s.getF (Hdr.INT_STATUS 16 0) 0 0) 0 = false ∧
     runs (.commitExecute 9) s (fun u => u.commitQ.isEmpty && u.getF (Hdr.ERR_CODE 16 0) 0 0 == 0x0902) = true) ∧
    (let q := aRequest5 0 3 true
     let d := { aDomain with lastStep := some 3, record := formRecord q false (16, 0, 0) 0 7 }
     checked (committer [d] [q]) q = some (d, 2048) ∧ repeats d q = true ∧
     runs (.commitExecute 9) (committer [d] [q]) (fun u => u.commitQ.isEmpty && u.getF Reg.COMMIT_DUPS 0 0 == 1) = true) ∧
    (let q := aRequest5 0 3 true
     repeats aDomain q = false ∧
     runs (.commitExecute 9) (committer [aDomain] [q]) (fun u => u.commitQ.isEmpty && u.getF (Hdr.ERR_CODE 16 0) 0 0 == 0x0903) = true) ∧
    (let q := aRequest5 0 0 true
     runs (.commitExecute 9) (committer [{ aDomain with pins := [.agreedCopy] }] [q]) (fun u => u.commitQ == [q] && u.commitWait) = true ∧
     checked (committer [aDomain] [q]) q = some (aDomain, 2048) ∧ 2048 + 64 * (0 % 16) + 64 ≤ dramSize (committer [aDomain] [q]) ∧
     runs (.commitExecute 9) (committer [aDomain] [q]) (fun u => u.commitQ.isEmpty && Memory.readN u.dram 2048 2 == [0x2D, 0x7C] &&
       u.getF Reg.COMMIT_SKIPS 0 0 == 1 && (u.domain? 5).any (fun d => d.lastStep == some 0 && recValid 5 0 d.record)) = true) ∧
    (let q := aRequest5 0 0 true
     let r := formRecord q false (16, 0, 0) 0 7
     let s := { committer [aDomain] [aRequest5 1 0 false] with dram := Memory.writeL [] 2048 r }
     checked s (aRequest5 1 0 false) = some (aDomain, 2048) ∧ 2048 + 1024 ≤ dramSize s ∧
     runs (.scanExecute 9) s (fun u => u.commitQ.isEmpty && (u.domain? 5).any (fun d => d.lastStep == some 0)) = true) := by decide +kernel

/-- `StepBoundaries`: a committed step of a domain without group. -/
theorem witness_boundary :
    (let d := { aDomain with run := some { aRun .committed with dueRoots := [64] }, nextAcc := some 4 }
     let s := committer [d] []
     s.domain? 5 = some d ∧ d.group = none ∧ d.steer = false ∧ d.retained = false ∧ s.queue? d.queue = none ∧ fwState s ≠ 3 ∧
     runs (.stepBoundary 5 ⟨9, true⟩) s (fun u => (u.domain? 5).any (fun d => d.run.isNone && d.rootsDue == [64] && d.accCount == 4))) = true := by decide +kernel
/-! Crucible. -/

/-- Domain 5 with its committed slot area at 65536 and the shadow at 131072, of 65536 bytes each. -/
def slotDomain : Domain :=
  entryDomain 5 (toLe 4 5 ++ zeros 4 ++ toLe 8 65536 ++ toLe 8 131072 ++ toLe 4 1 ++ zeros 4 ++ toLe 8 2048 ++ zeros 24)

/-- Words of a descriptor of kind `opk` on channel 0 of a ring of two, plan position 0, with one item. -/
def cruWords (opk : Nat) : List Nat :=
  [opk + 2 ^ 32, 0, 5 + 2 ^ 32, 1 + 2 ^ 32, 135168, 0, 0, 0, 0, 0, 0, 139264, 0, 0, 0, 0]

/-- Its item: one statistic of FP32. -/
def cruItem : List Nat := [132096, 133120, 4, 0]

/-- The descriptor at 0x1000; `en` enables channel 0. -/
def crucible (opk en : Nat) (d : Domain) : State :=
  let s := ((committer [d] []).setF (Hdr.ENABLE 3) 8 0 1).setF (Hdr.ENABLE 3) 0 0 1
  { (s.setF Reg.CH_EN 0 0 en).setF Reg.CH_RING_M1 0 0 1 with
      dram := Memory.writeL (Memory.writeL [] 0x1000 ((cruWords opk).flatMap (toLe 8))) 135168 (cruItem.flatMap (toLe 8)) }

/-- A STAT operation that awaits one chunk on channel 0. -/
def anOp : CruOp := { newOp 0x1000 (cruWords 2) [cruItem] with
  chans := [{ ch := 0, rx := [{ part := .stat 0 0 1, needs := [] }], tx := [], buf := [], rxDone := 0, progress := 0, planCrc := 0 }] }

def running6 : State := { crucible 2 1 slotDomain with cru := [anOp], cruQ := [0x1000] }

def doneOp (opk outcome : Nat) : CruDone :=
  { words := cruWords opk, items := [], outcome := outcome, localFault := false, faultPos := 0, prevMember := 0, redNorm := 0, groupSum := 0 }

/-- `CrucibleOperations`: a push, the push of the GRAD of a step, an abort, the head of the queue, a hop timeout, OP_DONE. -/
theorem witness_crucible :
    (let s := crucible 2 1 slotDomain
     cpUp s 1 = true ∧ s.getF (Hdr.ENABLE 3) 8 0 ≠ 0 ∧ s.domain? 5 = some slotDomain ∧ slotDomain.run = none ∧
     (let ws := wordsAt (Memory.readN s.dram 0x1000 128) 16
      ws = cruWords 2 ∧ descReserved ws = none ∧ 135168 + 32 ≤ dramSize s ∧ opRefusal s 0x1000 ws [cruItem] = none ∧
      s.dramUe = [] ∧ s.dramCe = []) ∧
     opRefusal (crucible 2 0 slotDomain) 0x1000 (cruWords 2) [cruItem] = some (0x0303, 0x1000, 0) ∧
     runs (.statOp 9) { crucible 2 0 slotDomain with cruQ := [0x1000] } (fun u =>
       u.cru.isEmpty && u.cruQ.isEmpty && u.cruDone.map (·.outcome) == [4] && u.getF (Hdr.ERR_CODE 3 0) 8 0 == 0x0303) = true ∧
     dChans (cruWords 2) = [0] ∧ opOn s 0 = none ∧ opOn running6 0 = some 0 ∧
     runs (.statOp 9) { s with cruQ := [0x1000] } (fun u => u.cru.length == 1 && u.getF Reg.CH_OPEN 0 0 == 1 && u.sent.length == 1) = true ∧
     runs (.statOp 9) running6 (fun u => u.cru.length == 1 && u.cruQ == [0x1000]) = true) ∧
    (anOp.chan 0 = anOp.chans.head? ∧ 0 < running6.getF Reg.CRU_HOP_TIMEOUT 8 0 ∧
     runs (.opAbort 9) running6 (fun u => u.cru.isEmpty && u.cruDone.map (·.outcome) == [5] && u.cruQ == [0x1000]) = true ∧
     runs (.hopTimeout 0 100000000000) { running6 with cru := [{ anOp with mismatch := true }] } (fun u => u.cruDone.map (·.outcome) == [3] && u.getF (Hdr.ERR_CODE 3 0) 0 0 == 0x0317) = true) ∧
    (let d := { slotDomain with run := some (aRun .reducing) }
     [(0, StepPhase.ready, false), (1, .ready, true), (4, .halted, false)].all (fun x =>
       runs (.opDone 9 []) { crucible 1 1 d with cruDone := [doneOp 1 x.1] } (fun u =>
         u.cruDone.isEmpty && (u.domain? 5).any (fun d => d.run.any (fun r => r.phase == x.2.1 && r.skipped == x.2.2)))) = true ∧
     dOpk (cruWords 1) = 1 ∧ dDomain (cruWords 1) = 5 ∧ dStep (cruWords 1) = 0 ∧ dNoise (cruWords 1) = false) := by decide +kernel

/-- Domain 5 in a step, with the descriptor of kind `opk` at 0x1000. -/
def posting (opk : Nat) (f : Domain → Domain) (r : StepRun) : State := crucible opk 1 (f { slotDomain with run := some r })

/-- `StepBoundaries`: an operation of an unknown domain, and GRAD, STAT and ROOT, in turn and out of turn. -/
theorem witness_posting :
    (let s : State := { crucible 1 1 slotDomain with domains := [] }
     cpUp s 1 = true ∧ s.getF (Hdr.ENABLE 3) 8 0 = 1 ∧ s.domain? (dDomain (descWords s 0x1000)) = none ∧
     runs (.opPush 0x1000 7) s (fun u => u.cruQ == [0x1000] && u.getF Reg.CRU_OP_ADDR 8 0 == 0x1000) = true) ∧
    runs (.opPush 0x1000 7) (crucible 1 1 slotDomain) (fun u => u.cruQ.isEmpty) = true ∧
    (let s := posting 1 id (aRun .program)
     dOpk (descWords s 0x1000) = 1 ∧ dStep (descWords s 0x1000) = 0 ∧
     (s.domain? 5).any (fun d => stepHalted s d && tableHeld d 0) = true ∧
     runs (.opPush 0x1000 7000) s (fun u => u.cruQ == [0x1000] &&
       (u.domain? 5).any (fun d => d.run.any (fun r => r.phase == .reducing && r.readyUs == 7 && !r.gradClosed))) = true ∧
     runs (.opPush 0x1000 7000) (posting 1 id (aRun .reducing)) (fun u => u.cruQ.isEmpty) = true) ∧
    (let r : StepRun := { aRun .ready with statClosed := false }
     let f : Domain → Domain := fun d => { d with entry := d.entry.take 56 ++ [10#8, 0#8] ++ d.entry.drop 58, gathered := true }
     let s := posting 2 f r
     (s.domain? 5).any (fun d => statOwed s d r && ownersOk s d (descWords s 0x1000) (descItems s (descWords s 0x1000))) = true ∧
     runs (.opPush 0x1000 7) s (fun u => u.cruQ == [0x1000] && (u.domain? 5).any (fun d => d.run.any (·.statOpen))) = true ∧
     runs (.opPush 0x1000 7) (posting 2 f { r with gradClosed := false }) (fun u => u.cruQ.isEmpty) = true) ∧
    (let s := posting 3 (fun d => { d with rootsDue := [64] }) (aRun .program)
     let s : State := { s with dram := Memory.write s.dram 1 1#8 }
     (s.domain? 5).any (fun d => ownersOk s d (descWords s 0x1000) (descItems s (descWords s 0x1000))) = true ∧
     ownRootsDone s (descWords s 0x1000) (descItems s (descWords s 0x1000)) = true ∧
     runs (.opPush 0x1000 7) s (fun u => u.cruQ == [0x1000]) = true ∧
     runs (.opPush 0x1000 7) (posting 3 id (aRun .program)) (fun u => u.cruQ.isEmpty) = true) := by decide +kernel

/-- A header of the running operation, from position 1 of the ring. -/
def aHead (kind lines w4 w5 : Nat) : ChunkHead :=
  { kind := kind, epoch := 0, chan := 0, phase := 2, attempt := 0, wide := false, ovf := false, fault := false, opk := 2, seq := 0,
    domain := 5, src := 1, dst := 0, lines := lines, step := 0, w4 := w4, w5 := w5 }

/-- `ChunksArrive`: a broken header, an old epoch, a STAT chunk that carries 1.0 and a GRANT of three credits. -/
theorem witness_chunks :
    running6.cru = [anOp] ∧ running6.getF (Hdr.ENABLE 3) (0 / 2) 0 ≠ 0 ∧ headGood (zeros 64) = false ∧
    runs (chunkInstr 2 0 (zeros 64) 9) running6 (fun u => u.getF (Hdr.ERR_CODE 3 0) 0 0 == 0x0311 && u.cru.any (·.fault)) = true ∧
    (let b := { aHead 3 1 0 0 with epoch := 4 }.bytes ++ toLe 4 0x3F800000 ++ zeros 60
     headGood b = true ∧ (headOf b).kind = 3 ∧ (headOf b).epoch ≠ dEpoch anOp.words ∧
     runs (chunkInstr 2 0 b 9) running6 (fun u => u.getF Reg.CH_EPOCH_DROPS 0 0 == 1) = true) ∧
    (let b := (aHead 3 1 0 0).bytes ++ toLe 4 0x3F800000 ++ zeros 60
     let h := headOf b
     headGood b = true ∧ h.kind = 3 ∧ (h.epoch = dEpoch anOp.words ∧ h.domain = dDomain anOp.words ∧ h.step = dStep anOp.words ∧
       h.opk = dOpk anOp.words) ∧ chunkReserved b = false ∧ ringSize anOp.words 0 = 2 ∧ ringPos anOp.words 0 (dPos anOp.words) = 0 ∧
     h.src = 1 ∧ h.dst = 0 ∧ h.seq = chF running6 Reg.CH_SEQ_RX 0 ∧
     runs (chunkInstr 2 0 b 9) running6 (fun u => u.getF Reg.CH_SEQ_RX 0 0 == 1 && Memory.readN u.dram 132096 4 == toLe 4 0x3F800000) = true) := by decide +kernel

/-- `ChunksArrive`: the chunks are in time; one after the hop timer's expiry is not. -/
theorem witness_hop_timer : opOn running6 0 = some 0 ∧ expiredChan running6 anOp 9 = none ∧
    (expiredChan running6 anOp 100000000000).isSome = true ∧ running6.cru.length = 1 := by decide +kernel

/-- `ChunksArrive`: a GRANT of three credits. -/
theorem test_grant_check : headGood (aHead 7 0 3 0).bytes = true := by decide +kernel

def aGrant : List Byte := (aHead 7 0 3 0).bytes

theorem witness_grant : (headOf aGrant).kind = 7 ∧ chunkReserved aGrant = false ∧ (headOf aGrant).src = 1 ∧
    (headOf aGrant).dst = 0 ∧ (headOf aGrant).w5 = 0 := by decide +kernel

theorem test_grant_credits : runs (chunkInstr 6 0 aGrant 9) running6 (fun u => u.getF Reg.CH_CREDITS 0 0 == 3) = true := by decide +kernel

/-! Replica groups. -/

def aParams : GroupParams :=
  { compareInterval := 4, hbPeriod := 10, hbExpiry := 50, stragglerFactor := 0, stragglerSteps := 3, hopFloor := 1, spareWait := 5,
    minMembers := 2, agreedCopy := 0, pinLimit := 1, spares := [] }

/-- A ring of the members 20, 21 and 22; this device has position `p`. -/
def aGroup (p : Nat) : Group :=
  { plan := ⟨false, 3, [some 20, some 21, some 22]⟩, nextPlan := none, position := p, params := aParams, epoch := 0, reports := [],
    beats := [(1, 100)], lateBeats := 0, lateRuns := [], table := [], tableStep := none, agreedStep := none, median := 0,
    actions := [], extra := [], vacant := [], heldSince := none, compareNext := false, stopDue := false, state := .member,
    clone := none, failed := [], firstStep := 0 }

/-- Member 20 + p, with CP1 and CP3 running. -/
def grouped (p : Nat) (f : Group → Group) : State :=
  let d := { slotDomain with group := some (f (aGroup p)) }
  ((committer [d] []).setF Reg.CP_STATE 3 0 2).setF Reg.SEC_MEMBER 0 0 (20 + p)

/-- The table of step 0, or a FAIL record of step `step`, with nothing to act on. -/
def aTable (typ step : Nat) : List Byte :=
  tableBytes { typ := typ, coordPos := 0, domain := 5, step := step, epoch := 0, m := 3, compare := false, split := false, verdict := 0,
               median := 7, agreed := 0xFFFFFFFFFFFFFFFF }
    ((List.range 3).map (fun i => { key := 0, ready := 0, member := 20 + i, late := false, run := 0, odd := false })) []

/-- A report of position 1. -/
def aReport : List Byte := stepReport State.reset { slotDomain with lastStep := some 1 } (aGroup 1)

/-- `GroupReportsAndTables`. -/
theorem witness_reports :
    cpUp (grouped 0 id) 3 = true ∧ reportOk (zeros 128) = false ∧ reportOk aReport = true ∧ repDomain aReport = 5 ∧ repPos aReport = 1 ∧
    (grouped 0 id).group? 5 = some (aGroup 0) ∧ (aGroup 0).memberAt 2 = some 22 ∧
    runs (.stepReport aReport [] 9) (grouped 0 id) (fun u => (u.group? 5).any (fun g => g.reports == [(1, aReport)])) = true ∧
    tableOk (aTable 2 0) = true ∧ (headT (aTable 2 0)).typ = 2 ∧ (headT (aTable 2 0)).compare = false ∧ actionsT (aTable 2 0) = [] ∧
    (headT (aTable 2 0)).domain = 5 ∧
    (grouped 1 id).domains.all (fun d => !ofOtherStage (grouped 1 id) d (aTable 2 0)) = true ∧ (aGroup 1).state ≠ .joined ∧
    runs (.groupTable (aTable 2 0) 9) (grouped 1 id) (fun u => (u.group? 5).any (fun g => g.tableStep == some 0 && g.median == 7)) = true := by
  decide +kernel

theorem witness_tables :
    (let b := toLe 4 0 ++ toLe 4 5
     tableOk b = false ∧ bits (field b 4 4) 18 0 = 5 ∧ (aGroup 1).memberAt (aGroup 1).coord = some 20 ∧
     runs (.groupTable b 9) (grouped 1 id) (fun u => u.sent == [.control 20 msgTableAsk (toLe 4 5)]) = true) ∧
    (tableOk (aTable 3 1) = true ∧ (headT (aTable 3 1)).typ = 3 ∧
     (let d := { slotDomain with group := some (aGroup 1), run := some { aRun .reducing with step := 1 } }
      let s : State := { grouped 1 id with domains := [d], commitQ := [aRequest5 0 1 false] }
      s.domain? 5 = some d ∧ d.lastStep ≠ some 1 ∧ s.queue? d.queue = none ∧ s.cru = [] ∧ ofOtherStage s d (aTable 3 1) = false ∧
      runs (.failRecord (aTable 3 1) 9) s (fun u => u.commitQ.isEmpty && (u.domain? 5).any (fun d => d.run.isNone)) = true)) ∧
    (let g := { aGroup 0 with table := aTable 2 0 }
     g.table ≠ [] ∧ g.memberAt 2 = some 22 ∧ (grouped 0 (fun _ => g)).group? 5 = some g ∧
     runs (.tableRerequest 5 2 9) (grouped 0 (fun _ => g)) (fun u => u.sent == [.control 22 msgTable (aTable 2 0)]) = true) := by
  decide +kernel

/-- `HeartbeatsAndFailures`. -/
theorem witness_heartbeats :
    (2 ≤ (aGroup 1).size ∧ (aGroup 1).state = .member ∧ (aGroup 1).isCoord = false ∧ (aGroup 0).isCoord = true ∧
     runs (.heartbeatSend 5 9) (grouped 1 id) (fun u => u.sent == [.control 20 msgHeartbeat (toLe 4 5)]) = true ∧
     runs (.heartbeatSend 5 9) (grouped 0 id) (fun u => u.sent.length == 2) = true) ∧
    runs (.heartbeat 5 1 200) (grouped 0 id) (fun u => (u.group? 5).any (fun g => g.beats == [(1, 200)])) = true ∧
    runs (.heartbeat 5 1 200) (grouped 0 (fun g => { g with failed := [1] })) (fun u => (u.group? 5).any (fun g => g.lateBeats == 1)) = true ∧
    ((aGroup 0).beats.find? (·.1 == 1) = some (1, 100) ∧ ¬ 50000099 ≥ 100 + 1000000 * aParams.hbExpiry ∧
     runs (.heartbeatExpiry 5 1 50000099 []) (grouped 0 id) (fun u => u.sent.isEmpty) = true ∧
     runs (.heartbeatExpiry 5 1 50000100 []) (grouped 0 id) (fun u => (u.group? 5).any (fun g => g.failed.contains 1)) = true) ∧
    runs (.memberStop 5 1 9 []) (grouped 0 id) (fun u => (u.group? 5).any (fun g => g.failed.contains 1)) = true ∧
    runs (.linkFailureReport 5 1 2 9 []) (grouped 0 id) (fun u => (u.group? 5).any (fun g => g.failed.contains 2 && !g.failed.contains 1)) = true ∧
    (let f : Group → Group := fun g => { g with heldSince := some 0, vacant := [1], params := { aParams with minMembers := 3 } }
     runs (.spareWaitExpiry 5 4999999) (grouped 0 f) (fun u => (u.group? 5).any (fun g => g.state == .member)) = true ∧
     (f (aGroup 0)).isCoord = true ∧ (f (aGroup 0)).size - 1 < 3 ∧
     runs (.spareWaitExpiry 5 5000000) (grouped 0 f) (fun u => (u.group? 5).any (fun g => g.state == .stopped)) = true) := by
  decide +kernel

/-- A clone of one leaf in which nothing is wanted but leaf 1. -/
def aClone : CloneJob :=
  { repair := false, sources := [0, 1], record := [], known := [], asked := [], wanted := [0, 1], bad := [], baseDone := true,
    baseWanted := [], baseDigests := [], treeDone := true }

/-- `ClonesAndAgreedCopies`: what needs no leaf of 64 KiB. -/
theorem witness_clones :
    (grouped 0 id).domain? 5 = some { slotDomain with group := some (aGroup 0) } ∧
    runs (.cloneFetchRequest 5 30 .record 9) (grouped 0 id) (fun u => (u.domain? 5).any (fun d => d.pins == [.cloneSource 30])) = true ∧
    (let d := { slotDomain with pins := [.cloneSource 30], lastStep := some 4, record := toLe 8 77 }
     runs (.cloneFetchRequest 5 30 .record 9) (committer [d] []) (fun u => u.sent == [.bulk 30 0 (toLe 8 77)]) = true ∧
     runs (.cloneFetchRequest 5 30 (.digests 0 0 1) 9) (committer [{ d with leaves0 := [6] }] []) (fun u => u.sent == [.bulk 30 1 (toLe 8 6)]) = true ∧
     runs (.cloneFetchRequest 5 30 .done 9) (committer [d] []) (fun u => (u.domain? 5).any (fun d => d.pins.isEmpty)) = true) ∧
    ((aGroup 0).isCoord = true ∧
     runs (.cloneDone 5 1 25 9) (grouped 0 id) (fun u => (u.group? 5).any (fun g => g.compareNext && g.extra.map (·.member) == [25])) = true) ∧
    (aClone.wanted.contains 1 = true ∧ ∃ j ∈ aClone.wanted, j ≠ 1) ∧
    (let d := { aDomain with copying := true, pins := [.agreedCopy], record := toLe 8 3 }
     runs (.agreedCopyDone 5 9) (committer [d] []) (fun u => (u.domain? 5).any (fun d => !d.copying && d.agreed.any (fun a => a.record == toLe 8 3)))
       = true) := by decide +kernel

/-- `ClonesAndAgreedCopies`: a leaf that agrees with its digest and one that does not, of a domain without a slot area. -/
theorem witness_leaves :
    (let d (x : Nat) := { aDomain with group := some { aGroup 1 with clone := some { aClone with known := [(0, 0, 0), (0, 1, x)] } } }
     [0, 5].all (fun x =>
       let s := committer [d x] []
       let v := { s.atTime 9 with dram := writeLeaf s.dram (cloneSecs s (d x) []) 1 [] }
       decide (crc64 (readLeaf v.dram (cloneSecs v (d x) []) 1) = 0) &&
       runs (.cloneLeafArrival 5 (.leaf 0 1 []) 9) s (fun u => (u.group? 5).any (fun g => g.clone.any (fun c =>
         if x = 0 then c.wanted == [0] && c.bad.isEmpty else c.wanted == [0, 1] && c.bad == [(0, 1)])))) = true) := by decide +kernel

/-! Export engine. -/

/-- A domain with a committed step, and the engine with a buffer of 64 KiB at 65536, in a state. -/
def exporter (st : Nat) (pins : List PinHolder) (last : Option Nat) : State :=
  let d := { aDomain with lastStep := last, record := toLe 16 0 ++ toLe 8 6, pins := pins }
  let s := ((committer [d] []).setF (Hdr.ENABLE 14) 0 0 1).setF Reg.EXPORT_REQ_DOMAIN 0 0 5
  ((s.setF Reg.EXPORT_BUF_LIMIT 0 0 1).setF Reg.EXPORT_BUF_BASE 0 0 65536).setF Reg.EXPORT_STATE 0 0 st

/-- Its export is under way since 100 ns. -/
def exporting (st : Nat) : State := { exporter st [.exportEngine] (some 6) with exportJob := some { pinAt := some 100, step := 6 } }

/-- `ExportEngine`. -/
theorem witness_export :
    (let s := exporter 0 [] (some 6)
     reaches s (.cp 1) = true ∧ pageTakes s (.cp 1) 14 0 = true ∧ s.getF (Hdr.ENABLE 14) 0 0 ≠ 0 ∧
     runs (.exportGo (.cp 1) 9) s (fun u => u.getF Reg.EXPORT_STATE 0 0 == 1 && u.getF Reg.EXPORT_PIN_HELD 0 0 == 1 &&
       u.exportJob.any (fun j => j.pinAt == some 9)) = true ∧
     runs (.exportGo (.cp 1) 9) (exporter 0 [] none) (fun u => u.getF Reg.EXPORT_STATE 0 0 == 4) = true ∧
     runs (.exportGo (.cp 1) 9) { s with commitQ := [aRequest5 0 7 false], commitWait := true } (fun u =>
       u.getF Reg.EXPORT_PIN_HELD 0 0 == 0 && (u.domain? 5).any (fun d => d.pinWait == [.exportEngine])) = true) ∧
    runs (.exportAbort (.cp 1) 9) (exporting 1) (fun u => u.getF Reg.EXPORT_STATE 0 0 == 4 && u.exportJob.isNone &&
      (u.domain? 5).any (fun d => d.pins.isEmpty)) = true ∧
    ((exporting 1).getF (Hdr.FREEZE 14) 0 0 ≠ 1 ∧ (exporting 1).dramUe = [] ∧ 65536 + 64 ≤ dramSize (exporting 1) ∧
     (container (exporting 1) ((exporting 1).domains.headD aDomain) false []).length = 64 ∧
     runs (.exportDone 200) (exporting 1) (fun u => u.getF Reg.EXPORT_STATE 0 0 == 3 && u.getF Reg.EXPORT_EXPORTS 0 0 == 1 &&
       Memory.readN u.dram 65536 4 == toLe 4 0x7C2D0E59 && (u.domain? 5).any (fun d => d.pins.isEmpty)) = true) ∧
    runs (.peerDone 200) (exporting 2) (fun u => u.getF Reg.EXPORT_STATE 0 0 == 3) = true ∧
    (let lim := (exporting 1).getF Reg.EXPORT_PIN_LIMIT 0 0
     runs (.pinExpired (99 + 1000000 * lim)) (exporting 1) (fun u => u.getF Reg.EXPORT_STATE 0 0 == 1) = true ∧
     runs (.pinExpired (100 + 1000000 * lim)) (exporting 1) (fun u => u.getF Reg.EXPORT_STATE 0 0 == 4 &&
       u.getF Reg.EXPORT_PIN_EXPIRIES 0 0 == 1) = true) := by decide +kernel

/-! Host ports. -/

/-- Ports HA and HB enabled, with these roles and link states. -/
def hostPorts (a b : Nat) (la lb : HostLink) : State :=
  let s := domainsOn State.reset
  let s := ((s.setF (Hdr.ENABLE 10) 0 0 1).setF (Hdr.ENABLE 10) 1 0 1).setF Reg.HP_ROLE 0 0 a
  { s.setF Reg.HP_ROLE 1 0 b with hostLinks := #v[la, lb], power := { s.power with haFrom := none, hdm := some (65536, 4096) } }

def linkOn : HostLink := { trained := true, downSince := none }
def linkOff (d : Option Nat) : HostLink := { trained := false, downSince := d }

/-- `HostPortsAndWindow`: links and roles. -/
theorem witness_host_ports :
    (let s := hostPorts 0 0 (linkOff none) (linkOff none)
     s.power.haFrom = none ∧ s.getF (Hdr.ENABLE 10) 0 0 ≠ 0 ∧ s.getF Reg.HP_ROLE 0 0 ≠ 2 ∧
     runs (.hostLinkUp 0 true true true 9) s (fun u => u.getF Reg.HP_ROLE 0 0 == 2 && u.getF Reg.HP_RATE 0 0 == 2 && u.getF Reg.HP_WIDTH 0 0 == 2) = true ∧
     runs (.hostLinkUp 1 true true true 9) (hostPorts 2 0 linkOn (linkOff none)) (fun u => u.getF Reg.HP_ROLE 1 0 == 1) = true ∧
     runs (.hostLinkUp 0 true true false 9) s (fun u => u.getF Reg.HP_ROLE 0 0 == 0 && u.getF (Hdr.ERR_CODE 10 0) 0 0 == 0x0421) = true) ∧
    runs (.hostLinkDown 0 9) (hostPorts 2 1 linkOn linkOn) (fun u => u.getF Reg.HP_ROLE 0 0 == 2 && u.getF Reg.HP_LINK_DOWNS 0 0 == 1 &&
      u.hostLink 0 == linkOff (some 9)) = true ∧
    runs (.hostLinkDown 1 9) (hostPorts 2 1 linkOn linkOn) (fun u => u.getF Reg.HP_ROLE 1 0 == 0) = true ∧
    (let s := hostPorts 0 1 (linkOff none) linkOn
     let s := { s with power := { s.power with haFrom := some 100 } }
     runs (.haTrainingTimeout 2000000099) s (fun u => u.getF Reg.HP_ROLE 1 0 == 1) = true ∧
     runs (.haTrainingTimeout 2000000100) s (fun u => u.getF Reg.HP_ROLE 1 0 == 2) = true) ∧
    runs (.failoverReq 1 9) (hostPorts 2 1 linkOn linkOn) (fun u => u.getF Reg.HP_ROLE 1 0 == 2 && u.getF Reg.HP_ROLE 0 0 == 1 &&
      u.getF Reg.HP_FAILOVERS 1 0 == 1 && u.getF (Hdr.ERR_CODE 10 0) 1 0 == 0x0422) = true ∧
    (let s := (hostPorts 2 1 (linkOff (some 100)) linkOn).setF Reg.HP_FAILOVER_DELAY 0 0 10
     runs (.failoverDelayExpiry 10000099) s (fun u => u.getF Reg.HP_ROLE 1 0 == 1) = true ∧
     runs (.failoverDelayExpiry 10000100) s (fun u => u.getF Reg.HP_ROLE 1 0 == 2 && u.getF Reg.HP_ROLE 0 0 == 0) = true) := by
  decide +kernel

/-- `HostPortsAndWindow`: the window and snoops. -/
theorem witness_window :
    (let s := { (hostPorts 2 1 linkOn linkOn).setF Reg.DDR_STATE 0 0 2 with dram := Memory.writeL [] 65600 [7#8] }
     s.power.hdm = some (65536, 4096) ∧ s.dramUe = [] ∧ s.dramCe = [] ∧ 65536 + 4096 ≤ dramSize s ∧
     runs (.windowRead 0 64 1) s (fun u => u.reply == ⟨7#8 :: zeros 63, 0⟩) = true ∧
     runs (.windowRead 0 4064 1) s (fun u => u.reply == ⟨[], 1⟩) = true ∧
     runs (.windowRead 1 64 1) s (fun u => u.reply == ⟨[], 1⟩) = true ∧
     runs (.windowWrite 0) s (fun u => u.getF Reg.HP_WINDOW_WRITE_DROPS 0 0 == 1 && u.dram == s.dram) = true ∧
     runs (.h2dSnoop 0) s (fun u => u.sent == [.rspIHitI 0]) = true ∧
     runs (.h2dSnoop 1) s (fun u => u.sent.isEmpty) = true) := by decide +kernel

/-! Kamduelm ports and frames. -/

/-- Port 0 enabled in a state of Table 10.5, its cage present; `f` changes the port. -/
def kml (st : Nat) (f : Port → Port) : State :=
  let s := domainsOn (State.reset.setF Reg.DDR_STATE 0 0 2)
  let s := ((s.setF (Hdr.ENABLE 4) 0 0 1).setF Reg.CP_STATE 3 0 2).setF Reg.SEC_MEMBER 0 0 20
  { (s.setF Reg.KML_STATE 0 0 st).modPort 0 f with power := { s.power with cages := Vector.replicate 8 true } }

def sentFrame : Frame := { tc := 1, vl := 0, fseq := 3, lines := 1, data := zeros 88 }

/-- `PortsTrainAndFail`. -/
theorem witness_ports :
    ((kml 1 id).power.cages[0] = true ∧ ((kml 1 id).port 0).waiting = [] ∧ ((kml 1 id).port 0).since = 0 ∧
     runs (.linkLock 0 500000001) (kml 1 id) (fun u => u.getF Reg.KML_STATE 0 0 == 1) = true) ∧
    [(1, 500000000, 0x0401), (3, 2000000000, 0x0407)].all (fun x =>
      let go (t : Nat) : Instr := if x.1 = 1 then .portTrainingTimeout 0 t else .attestTimeout 0 t
      runs (go (x.2.1 - 1)) (kml x.1 id) (fun u => u.getF Reg.KML_STATE 0 0 == x.1) &&
      runs (go x.2.1) (kml x.1 id) (fun u => u.getF Reg.KML_STATE 0 0 == 5 && u.getF (Hdr.ERR_CODE 4 0) 0 0 == x.2.2 && (u.port 0).backoff == 1))
      = true ∧
    (let s := kml 5 (fun x => { x with backoff := 2 })
     runs (.portBackoffExpiry 0 1999999999) s (fun u => u.getF Reg.KML_STATE 0 0 == 5) = true ∧
     runs (.portBackoffExpiry 0 2000000000) s (fun u => u.getF Reg.KML_STATE 0 0 == 1) = true) ∧
    (runs (.fecUncorrectable 0 9) (kml 1 (fun x => { x with badAt := List.replicate 15 1 })) (fun u => u.getF Reg.KML_STATE 0 0 == 1) = true ∧
     runs (.fecUncorrectable 0 9) (kml 1 (fun x => { x with badAt := List.replicate 16 1 })) (fun u => u.getF (Hdr.ERR_CODE 4 0) 0 0 == 0x0409) = true) ∧
    (let s := kml 4 (fun x => { x with replay := [sentFrame] })
     (s.port 0).ackAt + 4000 ≤ 4000 ∧
     runs (.replayTimeout 0 4000) s (fun u => u.sent == [.frame 0 (zeros 88)] && (u.port 0).replays == 1) = true ∧
     runs (.replayTimeout 0 3999) s (fun u => u.sent.isEmpty) = true) := by decide +kernel

/-- A frame header of this device, member 20, from member 21. -/
def fHead (tc lines fseq ltype : Nat) : FrameHead :=
  { tc := tc, vl := 0, dst := 20, src := 21, lines := lines, ttl := 64, fseq := fseq, ack := none, nak := false, credTc := 0,
    credVl := 0, credLines := 0, ltype := ltype }

def rx (h : FrameHead) (d : List Byte) : RxFrame := { port := 0, bytes := frameBytes h d, fecBad := false, time := 9 }

/-- The bytes with the first bit of their check code changed. -/
def broken (f : RxFrame) : RxFrame := { f with bytes := f.bytes.modify (f.bytes.length - 8) (· ^^^ 1#8) }

/-- `FramesAreReceived`: an ill-formed frame, a broken one, an acknowledgement, a frame in order, an old one, a later one. -/
theorem witness_received :
    (let f := rx (fHead 7 1 0 3) []
     (frameHead f.bytes).tc = 7 ∧ (kml 2 id).getF (Hdr.ENABLE 4) 0 0 ≠ 0 ∧ portState (kml 2 id) 0 = 2 ∧ frameFormatOk f.bytes = false ∧
     runs (.ack f) (kml 2 id) (fun u => u.getF Reg.KML_FORMAT_DROPS 0 0 == 1) = true) ∧
    (let f := broken (rx (fHead 7 1 0 1) [])
     frameFormatOk f.bytes = true ∧ frameCrcOk f.bytes = false ∧ runs (.ack f) (kml 2 id) (fun u => (u.port 0).nakSent) = true) ∧
    (let f := rx { fHead 7 0 0 0 with ack := some 3 } []
     let s := kml 4 (fun x => { x with replay := [sentFrame] })
     frameFormatOk f.bytes = true ∧ frameCrcOk f.bytes = true ∧ (frameHead f.bytes).nak = false ∧ (s.port 0).waiting = [] ∧
     (s.port 0).replays < 8 ∧ (frameHead f.bytes).credLines = 0 ∧ (frameHead f.bytes).ltype = 0 ∧ (frameHead f.bytes).ack = some 3 ∧
     runs (.ack f) s (fun u => (u.port 0).replay.isEmpty && u.sent.isEmpty) = true) ∧
    [(5, 6, true, true), (4, 5, true, false), (6, 5, true, false)].all (fun x =>
      let f := rx (fHead 7 1 x.1 1) []
      let s := kml 2 (fun x => { x with rxSeq := 5 })
      frameFormatOk f.bytes && frameCrcOk f.bytes && (frameHead f.bytes).ack.isNone && (frameHead f.bytes).fseq == x.1 &&
      runs (.ack f) s (fun u => (u.port 0).rxSeq == x.2.1 && u.sent.length == 1 && (u.port 0).nakSent == (x.1 == 6))) = true := by
  decide +kernel

/-- An IDENT payload of member `m`, with its life-cycle state. -/
def ident (m lc : Nat) : List Byte := toLe 8 99 ++ toLe 2 m ++ toLe 1 1 ++ toLe 1 lc ++ toLe 4 2 ++ toLe 4 0 ++ toLe 8 0 ++ zeros 36

/-- What `FramesTakeEffect` asks of a frame in a state, and the state once its port has taken it. -/
def taken (s : State) (f : RxFrame) (tc ltype : Nat) : Bool :=
  match receive s f with
  | (v, some h) => h.tc == tc && h.ltype == ltype && h.dst == ownMember v && v.getF Reg.KML_STATE 0 0 == s.getF Reg.KML_STATE 0 0
  | _ => false

/-- `FramesTakeEffect`: IDENT (refused in MANUFACTURE), ATTEST, TIMEBASE, CONTROL, DOOR, REDUCTION and BULK. -/
theorem witness_frames :
    (let f := rx (fHead 7 1 0 1) (ident 21 0)
     taken (kml 2 id) f 7 1 = true ∧ identCheck (kml 2 id) 0 (ident 21 0) = some 0x0403 ∧
     runs (.ident f) (kml 2 id) (fun u => u.getF Reg.KML_STATE 0 0 == 5 && u.getF (Hdr.ERR_CODE 4 0) 0 0 == 0x0403) = true) ∧
    (let f := rx (fHead 7 1 0 2) []
     taken (kml 3 id) f 7 2 = true ∧ attestOk (kml 3 id) ((kml 3 id).port 0) (framePayload f.bytes) = false ∧
     runs (.attestFrame f) (kml 3 id) (fun u => u.getF (Hdr.ERR_CODE 4 0) 0 0 == 0x0406) = true) ∧
    (let f := rx (fHead 0 1 0 0) []
     taken (kml 4 id) f 0 0 = true ∧ runs (.timebaseFrame f 77) (kml 4 id) (fun u => u.timeSt.stamps == [(0, 77)]) = true) ∧
    (let f := rx (fHead 1 1 0 0) [1#8, 2#8]
     taken (kml 4 id) f 1 0 = true ∧ field (framePayload f.bytes) 0 2 ≠ 0x9E51 ∧
     runs (.controlFrame f none []) (kml 4 id) (fun u => u.inbox.map (·.1) == [21]) = true) ∧
    (let f := rx (fHead 1 2 0 0) aReport
     taken (kml 4 id) f 1 0 = true ∧ field (framePayload f.bytes) 0 2 = 0x9E51 ∧ bits (field (framePayload f.bytes) 2 2) 3 0 = 1) ∧
    (let f := rx (fHead 4 1 0 0) [5#8]
     taken (kml 4 id) f 4 0 = true ∧ runs (.bulkFrame f) (kml 4 id) (fun u => u.inbox.map (·.1) == [21]) = true) ∧
    (let s := (kml 4 id).setF (Hdr.ENABLE 1) 3 0 1
     taken s (rx (fHead 2 1 0 0) []) 2 0 = true ∧ s.physical 3 = some 3 ∧
     runs (.doorFrame (rx (fHead 2 1 0 0) []) (.message 3 2 ⟨4, true, 21, 0, 0, []⟩) 0) s (fun u => u.getF Reg.TILE_DOOR_DROPPED 3 0 == 1) = true) ∧
    taken (kml 4 id) (rx (fHead 3 1 0 0) []) 3 0 = true := by decide +kernel

/-- `FramesTakeEffect`: frames for another member, with and without a route, and credits. -/
theorem witness_forwarded :
    (let f := rx { fHead 4 1 0 0 with dst := 30 } [5#8]
     let s := kml 4 (fun x => { x with credits := fullCredits })
     runs (.bulkFrame f) s (fun u => u.getF Reg.KML_ROUTE_DROPS 0 0 == 1) = true ∧
     runs (.bulkFrame f) { s with routes := [⟨30, 0, 1⟩] } (fun u => u.getF Reg.KML_ROUTE_DROPS 0 0 == 0 && u.sent.length == 2) = true) ∧
    runs (.doorFrame (rx (fHead 2 1 0 0) []) (.credits 3 21 4 2 1) 0) ((kml 4 id).setF (Hdr.ENABLE 1) 3 0 1) (fun u => u.sent.length == 1) = true := by decide +kernel

/-- `MembershipAndTimeBase`. -/
theorem witness_membership :
    (let s := kml 4 id
     cpUp s 3 = true ∧ ownMember s = 20 ∧
     runs (.membership 30 3 1 77 5 9 []) s (fun u => u.peers.map (fun p => (p.member, p.state)) == [(30, .spare)]) = true ∧
     runs (.membership 30 3 2 77 5 9 []) { s with peers := [⟨30, .member, 1, 77, 5, []⟩] } (fun u => u.peers.map (·.state) == [.unknown]) = true) ∧
    (let s := { kml 4 id with peers := [⟨3, .member, 1, 77, 5, []⟩] }
     s.timeSt.synced = false ∧ s.tiles.toList.any Tile.active = false ∧ portUp s 0 = true ∧ grandmaster s = 3 ∧
     runs (.timebaseExchange (some (0, 1, 3)) 0 1640 1640 0 100) s (fun u => u.getF Reg.TB_GM_MEMBER 0 0 == 3 && u.now == 202 &&
       u.getF Reg.TB_SYNC_STATE 0 0 == 1) = true) ∧
    (let s := (kml 0 id)
     (List.finRange 8).any (portUp s) = false ∧ s.getF Reg.TB_SYNC_STATE 0 0 ≠ 3 ∧
     runs (.timebaseExchange none 0 0 0 0 100) s (fun u => u.getF Reg.TB_SYNC_STATE 0 0 == 2 && u.timeSt.parentLostAt == some 100) = true ∧
     runs (.timeUnsync 1000000099) { s with timeSt := { s.timeSt with parentLostAt := some 100 } } (fun u => u.getF Reg.TB_SYNC_STATE 0 0 == 2) = true ∧
     runs (.timeUnsync 1000000100) { s with timeSt := { s.timeSt with parentLostAt := some 100 } } (fun u =>
       u.getF Reg.TB_SYNC_STATE 0 0 == 3 && u.getF (Hdr.ERR_CODE 12 0) 0 0 == 0x040A) = true) := by decide +kernel

/-- `DeviceDram`. -/
theorem witness_dram :
    (let s := kml 0 id
     dramSize s = 72000000000 ∧ s.dimms.toList.all (fun d => !d.pmic) = true ∧ dramLines 100 8 = [64] ∧ s.dramUe = [] ∧ chanInService s 0 = true ∧
     dramSize s < 71999999999 + 2 ∧ after (.dramRead 71999999999 2 []) s = none ∧ after (.dramWrite 71999999999 [1#8, 2#8] []) s = none ∧
     runs (.dramWrite 100 [7#8] []) s (fun u => Memory.read u.dram 100 == 7#8 && u.reply == ⟨[], 0⟩) = true ∧
     runs (.dramRead 100 1 []) { s with dram := [(100, 7#8)], dramCe := [64] } (fun u => u.reply == ⟨[7#8], 0⟩ && u.dramCe.isEmpty) = true ∧
     runs (.dramRead 100 1 []) { s with dramUe := [64] } (fun u => u.reply == ⟨[], 0x0503⟩) = true ∧
     s.dimms[0].patrolAt + 1 < chanLines ∧ runs (.patrolScrub 0 [] 9) s (fun u => u.dimms[0].patrolAt == 1) = true ∧
     runs (.dimmTemperatureRead 0 96 9) s (fun u => u.dimms[0].hot && u.getF (Hdr.ERR_CODE 19 0) 0 0 == 0x070C) = true ∧
     runs (.dimmTemperatureRead 0 90 9) s (fun u => !u.dimms[0].hot) = true) := by decide +kernel

/-! The mailbox. -/

/-- The mailbox served in a firmware state, with the host's port ACTIVE and every processor RUNNING. -/
def mbxState (fw : Nat) : State :=
  let s := (domainsOn (State.reset.setF Reg.DDR_STATE 0 0 2)).setF Reg.HP_ROLE 0 0 2
  let s := (List.range 4).foldl (fun s n => s.setF Reg.CP_STATE n 0 (if fw = 0 then 1 else 2)) s
  let s := ((s.setF (Hdr.ENABLE 8) 0 0 1).setF Reg.MBX_FW_STATE 0 0 fw).setF Reg.MBX_VER_MIN 0 0 1
  s.setF Reg.MBX_VER_MAX 0 0 2

def ask (p : List Byte) : MbxArgs := { version := 1, seq := 0, tag := 7, payload := p, dma := [], dma2 := [], time := 9 }

/-- `MbxTurn` as a check. -/
def turnCheck (s : State) (n : Nat) : Bool :=
  !s.fw.everBound && hostActive s && mailboxServed s && s.mbx.waiting.isEmpty && s.mbx.reqTail == s.mbx.reqHead && decide (s.mbx.reqHead < 2 ^ 32) &&
    rspFree s.mbx && decide (n ≤ 224)

/-- `MbxGood` as a check. -/
def goodCheck (s : State) (op : Nat) (a : MbxArgs) : Bool :=
  turnCheck s a.payload.length && decide (s.getF Reg.MBX_VER_MIN 0 0 ≤ a.version.toNat) && decide (a.version.toNat ≤ s.getF Reg.MBX_VER_MAX 0 0) &&
    a.seq.toNat == s.getF Reg.MBX_EXPECTED_SEQ 0 0 && opcodeAccepted (fwState s) op && decide (lcState s ≠ 3)

theorem mbxGood_of_check {s : State} {op : Nat} {a : MbxArgs} (h : goodCheck s op a = true) : MbxGood s op a := by
  simp only [goodCheck, turnCheck, Bool.and_eq_true, Bool.not_eq_true', decide_eq_true_eq, beq_iff_eq, List.isEmpty_iff] at h
  obtain ⟨⟨⟨⟨⟨⟨⟨⟨⟨⟨⟨⟨h0, h1⟩, h2⟩, h3⟩, h4⟩, h5⟩, h6⟩, h7⟩, h8⟩, h9⟩, h10⟩, h11⟩, h12⟩ := h
  exact ⟨⟨h1, fun h => by simp [h0] at h, h2, h3, ⟨h4, h5⟩, h6, h7⟩, ⟨h8, h9⟩, h10, ⟨h11, h12⟩⟩

/-- The command leaves a response with this status. -/
def answers (i : Instr) (s : State) (n : Nat) : Bool := runs i s (fun u => u.mbx.responses.any (fun r => field r.2 12 2 == n))

/-- Every opcode is accepted in state RUNNING; IMAGE_LOAD in the recovery loader and in the wait for a runtime image too. -/
theorem witness_good :
    (mailboxOps.all (fun o => goodCheck (mbxState 3) o.1 (ask (zeros 72))) && goodCheck (mbxState 0) 0x10 (ask (zeros 24)) &&
      goodCheck (mbxState 1) 0x10 (ask (zeros 24))) = true := by decide +kernel

/-- `MailboxChecks`: no host, a full ring, a mailbox that is not served, a VERSION out of range, a SEQ that is not due, a repeat, a state
that does not accept the opcode. -/
theorem witness_mbx_checks :
    hostActive State.reset = false ∧
    (let s := { mbxState 3 with mbx := { (mbxState 3).mbx with reqTail := 64 } }
     hostActive s = true ∧ runs (.unbind (ask [])) s (fun u => u.getF (Hdr.ERR_CODE 8 0) 0 0 == 0x0611) = true) ∧
    (let s := (mbxState 3).setF (Hdr.ENABLE 8) 0 0 0
     hostActive s = true ∧ mailboxServed s = false ∧ runs (.unbind (ask [])) s (fun u => u.mbx.waiting.length == 1) = true) ∧
    (turnCheck (mbxState 3) 0 = true ∧ answers (.unbind { ask [] with version := 3 }) (mbxState 3) 1 = true ∧
     answers (.unbind { ask [] with seq := 5 }) (mbxState 3) 3 = true ∧
     answers (.unbind { ask [] with seq := 5 }) { mbxState 3 with mbx := { (mbxState 3).mbx with kept := [(5, 1, [])] } } 4 = true) ∧
    (opcodeAccepted (fwState (mbxState 5)) 3 = false ∧ opcodeAccepted (fwState (mbxState 5)) 4 = false ∧ turnCheck (mbxState 5) 0 = true ∧
     answers (.unbind (ask [])) (mbxState 5) 6 = true) := by decide +kernel

/-- `MailboxResponses`: two requests that are no opcode's. -/
theorem witness_unlisted :
    (let c := requestBytes 0x05 (ask [])
     let bad := c.modify 28 (· ^^^ 1#8)
     formatOk c = true ∧ opcodeListed (field c 2 2) = false ∧ field c 0 2 = 1 ∧ field c 4 4 = (mbxState 3).getF Reg.MBX_EXPECTED_SEQ 0 0 ∧
     formatOk bad = false ∧ answers (.unlistedOpcodeRequest c [] 9) (mbxState 3) 5 = true ∧
     answers (.unlistedOpcodeRequest bad [] 9) (mbxState 3) 2 = true) := by decide +kernel

/-- A queue with rings of 16 entries, on the tiles of a mask; kind RUN or STEP by bit 3 of its flags. -/
def aQueue (flags : Nat) : Queue :=
  { id := 0, desc := toLe 2 0 ++ toLe 1 flags ++ toLe 1 2 ++ toLe 4 0 ++ toLe 16 1 ++ toLe 8 0x1000 ++ zeros 96, rings := some ⟨4, 4, 0, 0x8000⟩,
    subTail := 0, subHead := 0, cplHead := 0, cplTail := 0, cplCount := 0, stopped := false, stalled := false, waiting := [],
    entries := [], due := [], lastId := 0, lastStart := 0, unit := none, image := none }

def withQueue (q : Queue) (s : State) : State := { s with queues := [q] }

/-- `MailboxIndices`. -/
theorem witness_indices :
    (let s := { mbxState 3 with mbx := { (mbxState 3).mbx with rspTail := 2, evtTail := 2 } }
     hostActive s = true ∧ s.mbx.waiting = [] ∧ s.mbx.buffered = [] ∧
     runs (.rspHeadWrite 2 9) s (fun u => u.mbx.rspHead == 2) = true ∧ runs (.rspHeadWrite 3 9) s (fun u => u.mbx.rspHead == 0) = true ∧
     runs (.evtHeadWrite 2 9) s (fun u => u.mbx.evtHead == 2) = true ∧ runs (.evtHeadWrite 3 9) s (fun u => u.mbx.evtHead == 0) = true) ∧
    (mbxState 3).queue? 4 = none ∧
    (let s := withQueue (aQueue 8) ((mbxState 3).setF Reg.CP_STATE 1 0 1)
     s.queue? 0 = some (aQueue 8) ∧ after (.queueDoorbell 0 1 [] 9) s = none ∧
     runs (.queueDoorbell 0 1 [zeros 32] 9) s (fun u => (u.queue? 0).any (fun q => q.subTail == 1 && q.waiting.length == 1)) = true) ∧
    (let s := withQueue { aQueue 8 with cplTail := 16 } (mbxState 3)
     runs (.queueDoorbell 0 0x30000 [] 9) s (fun u => (u.queue? 0).any (fun q => q.cplHead == 3)) = true) ∧
    (let s := withQueue { aQueue 8 with cplTail := 16, stalled := true } ((mbxState 3).setF Reg.QMGR_QUEUES_STALLED 0 0 1)
     runs (.queueDoorbell 0 0x30000 [] 9) s (fun u => (u.queue? 0).any (fun q => !q.stalled) && u.getF Reg.QMGR_QUEUES_STALLED 0 0 == 0) = true) := by
  decide +kernel

/-- `MailboxDeviceRequests`. -/
theorem witness_device_requests :
    turnCheck (mbxState 3) 0 = true ∧ goodCheck (mbxState 3) 0x02 (ask []) = true ∧
    (let bound := (mbxState 3).setF Reg.MBX_BOUND 0 0 1
     answers (.bind (ask (zeros 8))) bound 6 = true ∧ answers (.bind (ask (1#8 :: zeros 7))) (mbxState 3) 6 = true ∧
     answers (.bind (ask (zeros 4 ++ toLe 2 3601 ++ zeros 2))) (mbxState 3) 7 = true ∧
     runs (.bind (ask (zeros 8))) (mbxState 3) (fun u => u.getF Reg.MBX_BOUND 0 0 == 1 && u.getF Reg.QMGR_HOST_LOSS_TIMEOUT 0 0 == 30) = true ∧
     runs (.bind (ask (zeros 8))) (withQueue (aQueue 8) (mbxState 4)) (fun u => u.getF Reg.MBX_FW_STATE 0 0 == 3 && (u.queue? 0).any (·.stopped)) = true ∧
     runs (.unbind (ask [])) (withQueue (aQueue 8) bound) (fun u => u.getF Reg.MBX_BOUND 0 0 == 0 && (u.queue? 0).any (·.rings.isNone)) = true) ∧
    (answers (.imageLoad (ask (3#8 :: zeros 23))) (mbxState 3) 7 = true ∧ answers (.imageLoad (ask (2#8 :: zeros 23))) (mbxState 0) 6 = true ∧
     answers (.imageLoad (ask (1#8 :: zeros 23))) (mbxState 3) 6 = true ∧
     (imageCheck (mbxServing (mbxState 0) (ask (1#8 :: zeros 23))) 1 0 []).isSome = true ∧
     answers (.imageLoad (ask (1#8 :: zeros 23))) (mbxState 0) 10 = true ∧ answers (.imageLoad (ask (2#8 :: zeros 23))) (mbxState 3) 10 = true ∧
     (let s := mbxState 1
      goodCheck { s with fw := { s.fw with loadWaitFrom := some 0 } } 0x10 (ask (2#8 :: zeros 23)) = true)) ∧
    (let s := mbxState 3
     let l := setRtSlot s 1 { image := [], locked := true }
     answers (.runtimeHandover (ask (zeros 16))) s 6 = true ∧ (rtSlot l (1 - l.fw.inForce % 2)).locked = true ∧
     answers (.runtimeHandover (ask (zeros 16))) l 7 = true ∧
     runs (.runtimeHandover (ask (toLe 8 0x7FFFF ++ toLe 8 4))) l (fun u => u.fw.handover == some (0x7FFFF, 4)) = true ∧
     answers (.runtimeHandover (ask (toLe 8 5 ++ toLe 8 0))) { l with domains := [{ aDomain with lastStep := some 3 }] } 7 = true ∧
     answers (.runtimeHandover (ask (toLe 8 5 ++ toLe 8 9))) { l with domains := [{ aDomain with lastStep := some 3 }] } 0 = true) := by
  decide +kernel

theorem witness_flash_requests :
    answers (.flashWrite (ask (2#8 :: zeros 23))) (mbxState 3) 7 = true ∧
    (let s := mbxState 3
     let o := { s with fuses := { s.fuses with owned := true } }
     let p := 0#8 :: 3#8 :: zeros 22
     lcState s = 0 ∧ lcState o = 1 ∧ answers (.flashWrite (ask p)) o 6 = true ∧ configCause [] ≠ 0 ∧ answers (.flashWrite (ask p)) s 7 = true ∧
     (imageCheck (mbxServing s (ask (0#8 :: 1#8 :: zeros 22))) 1 0 []).isSome = true ∧ answers (.flashWrite (ask (0#8 :: 1#8 :: zeros 22))) s 10 = true ∧
     answers (.svnRaise (ask (toLe 4 9))) s 7 = true ∧ answers (.svnRaise (ask (toLe 4 0))) s 0 = true ∧
     goodCheck s 0x14 (ask (zeros 24)) = true) := by decide +kernel

/-- A GROUP_SET of a ring of three members for domain 5. -/
def groupPayload : List Byte :=
  toLe 4 5 ++ toLe 2 0 ++ toLe 2 2 ++ toLe 2 0 ++ toLe 2 1 ++ zeros 12 ++ toLe 2 4 ++ toLe 2 10 ++ toLe 2 50 ++ toLe 1 0 ++ toLe 1 3 ++
    toLe 2 1 ++ zeros 2 ++ toLe 4 5 ++ toLe 2 2 ++ toLe 2 0 ++ toLe 2 1000 ++ zeros 18

/-- `MailboxGroupAndLifeRequests`. A signature that verifies is opaque: no state here has one. -/
theorem witness_group_requests :
    (let s := mbxState 3
     let busy := { s with domains := [{ aDomain with group := some (aGroup 1) }] }
     holdsPosition s = false ∧ lcState s ≠ 2 ∧ cpUp s 3 = true ∧ holdsPosition busy = true ∧
     answers (.memberSet (ask (zeros 8))) busy 6 = true ∧ answers (.memberSet (ask (toLe 8 4096))) s 7 = true ∧
     runs (.memberSet (ask (toLe 8 33))) s (fun u => u.getF Reg.SEC_MEMBER 0 0 == 33) = true ∧
     answers (.spareSet (ask (zeros 8))) busy 6 = true ∧ runs (.spareSet (ask (1#8 :: zeros 7))) s (fun u => u.fw.spare) = true) ∧
    (let s := { mbxState 3 with domains := [{ aDomain with run := some (aRun .program) }] }
     let a := { ask groupPayload with dma := toLe 2 20 ++ toLe 2 21 ++ toLe 2 22 }
     fabricRefused s = false ∧ fabricRefused (s.setF Reg.CP_STATE 3 0 3) = true ∧
     groupRange s (zeros 60) = some 0 ∧ groupRange s groupPayload = none ∧ (s.domain? 5).any (·.run.isSome) = true ∧
     answers (.groupSet (ask (zeros 60))) s 7 = true ∧
     answers (.groupSet { a with dma := toLe 2 20 ++ toLe 2 4096 ++ toLe 2 22 }) s 7 = true ∧
     answers (.groupSet a) (s.setF Reg.CP_STATE 3 0 3) 6 = true ∧
     runs (.groupSet a) s (fun u => (u.group? 5).any (fun g => g.nextPlan.any (fun x => x.1.members == [some 20, some 21, some 22] && x.2.1 == 1)))
       = true) := by decide +kernel

theorem witness_life_requests :
    (let s := mbxState 3
     answers (.channelRetire (ask (24#8 :: zeros 7))) s 7 = true ∧
     runs (.channelRetire (ask (0#8 :: zeros 7))) s (fun u => u.getF Reg.DDR_STATE 0 0 == 3 && u.getF Reg.DDR_CAUSE 0 0 == 6) = true ∧
     answers (.logRead (ask (2#8 :: zeros 23))) s 7 = true ∧ answers (.logRead (ask (zeros 4 ++ toLe 4 1 ++ zeros 16))) s 7 = true ∧
     answers (.logRead (ask (zeros 8 ++ toLe 4 1 ++ zeros 12))) s 7 = true ∧
     runs (.logRead (ask (zeros 8 ++ toLe 4 1 ++ zeros 4 ++ toLe 8 0x9000))) { s with fw := { s.fw with integrityLog := [zeros 32] } }
       (fun u => u.sent.contains (.hostMem 0x9000 (zeros 32))) = true ∧
     answers (.lifecycleSet (ask (toLe 2 0x0002 ++ zeros 22))) s 7 = true ∧
     lcAuthorised (mbxServing s (ask (1#8 :: zeros 23))) 0 1 [] = false ∧ answers (.lifecycleSet (ask (1#8 :: zeros 23))) s 7 = true) := by
  decide +kernel

/-- `MailboxQueueRequests`. -/
theorem witness_queue_requests :
    (let s := mbxState 3
     let p := (aQueue 8).desc
     let q := withQueue (aQueue 8) s
     queueRange (zeros 128) = some 3 ∧ queueRange p = none ∧ answers (.queueCreate (ask (zeros 128))) s 7 = true ∧
     answers (.queueCreate (ask p)) q 8 = true ∧
     runs (.queueCreate (ask p)) s (fun u => (u.queue? 0).any (·.desc == p) && u.getF Reg.QMGR_QUEUES 0 0 == 1) = true ∧
     answers (.queueDestroy (ask (zeros 8))) s 7 = true ∧
     runs (.queueDestroy (ask (zeros 8))) q (fun u => u.queues.isEmpty) = true ∧
     answers (.queueDestroy (ask (zeros 8))) (withQueue { aQueue 8 with unit := some ⟨⟨1, 1, 0, 1, 0⟩, [0], 0, false, false⟩ } s) 8 = true ∧
     answers (.queueStop (ask (zeros 8))) s 7 = true ∧ runs (.queueStop (ask (zeros 8))) q (fun u => (u.queue? 0).any (·.stopped)) = true ∧
     runs (.queueResume (ask (zeros 8))) (withQueue { aQueue 8 with stopped := true } s) (fun u => (u.queue? 0).any (!·.stopped)) = true ∧
     answers (.queueQuery (ask (zeros 8))) s 7 = true ∧ goodCheck q 0x35 (ask (zeros 8)) = true) ∧
    (let s := mbxState 3
     let q := withQueue (aQueue 8) s
     let p (a b : Nat) (x y : Nat) : List Byte := zeros 4 ++ toLe 1 a ++ toLe 1 b ++ zeros 2 ++ toLe 8 x ++ toLe 8 y
     [p 3 4 0 0, p 16 4 0 0, p 4 3 0 0, p 4 16 0 0, p 4 4 32 0, p 4 4 0 32].all (fun p => answers (.queueRingSet (ask p)) q 7) = true ∧
     answers (.queueRingSet (ask (p 4 4 0 0))) s 7 = true ∧ (aQueue 8).due = [] ∧
     runs (.queueRingSet (ask (p 4 15 64 128))) q (fun u => (u.queue? 0).any (·.rings == some ⟨4, 15, 64, 128⟩)) = true) := by decide +kernel

/-- A context entry of queue 0, with its check code. -/
def entryOf (w0 base rest : Nat) : List Byte :=
  let b := toLe 4 w0 ++ toLe 2 0 ++ toLe 2 0xFFFF ++ toLe 8 base ++ toLe 8 131072 ++ toLe 4 1 ++ toLe 4 1 ++ toLe 8 4096 ++ toLe 4 0 ++ toLe 4 1 ++
    toLe 8 0 ++ toLe 2 1 ++ toLe 2 rest
  b ++ toLe 4 (crc32c b)

/-- `MailboxDomainRequests`: contexts and placement entries. -/
theorem witness_context_requests :
    (let s := withQueue (aQueue 0) (mbxState 3)
     entryRange s false (entryOf 5 65536 0) = some 58 ∧ entryRange s false (entryOf 5 65536 1) = none ∧
     answers (.contextCreate (ask (entryOf 5 65536 0))) s 7 = true ∧
     domainFits (mbxServing s (ask (entryOf 5 65536 1))) (entryDomain 5 (entryOf 5 65536 1)) = none ∧
     runs (.contextCreate (ask (entryOf 5 65536 1))) s (fun u => (u.domain? 5).any (fun d => d.state == 1 && d.bound)) = true ∧
     answers (.contextCreate (ask (entryOf 5 65536 1))) { s with domains := [aDomain] } 8 = true ∧
     (let t := { s with domains := [slotDomain] }
      domainFits (mbxServing t (ask (entryOf 6 65536 1))) (entryDomain 6 (entryOf 6 65536 1)) = some 7 ∧
      answers (.contextCreate (ask (entryOf 6 65536 1))) t 7 = true) ∧
     (let t := s.setF Reg.DDR_STATE 0 0 0
      domainFits (mbxServing t (ask (entryOf 6 65536 1))) (entryDomain 6 (entryOf 6 65536 1)) = some 9 ∧
      answers (.contextCreate (ask (entryOf 6 65536 1))) t 9 = true)) ∧
    (let s := { mbxState 3 with domains := [aDomain, { aDomain with id := wholeDomain }] }
     answers (.contextDestroy (ask (toLe 8 6))) s 7 = true ∧ answers (.contextDestroy (ask (toLe 8 wholeDomain))) s 7 = true ∧
     answers (.contextDestroy (ask (toLe 8 5))) { s with domains := [{ aDomain with run := some (aRun .program) }] } 8 = true ∧
     runs (.contextDestroy (ask (toLe 8 5))) s (fun u => (u.domain? 5).isNone && u.domains.length == 1) = true) := by decide +kernel

/-- A placement entry of one element row, with its check code. -/
def aPlace : List Byte :=
  let b := zeros 60
  b ++ toLe 4 (crc32c b)

theorem witness_placement :
    (let s := mbxState 3
     let q (f n : Nat) (d : List Byte) : Instr := .placementWrite { ask (toLe 4 f ++ toLe 4 n) with dma := d }
     placeOk aPlace = true ∧ placeOk (zeros 64) = false ∧ s.domains = [] ∧ s.getF Reg.PLC_BASE 0 0 % 64 = 0 ∧
     s.getF Reg.PLC_BASE 0 0 + 64 * 3 ≤ dramSize s ∧
     answers (q 0x80000 1 aPlace) s 7 = true ∧ answers (q 2 0 aPlace) s 7 = true ∧ answers (q 0x7FFFF 2 aPlace) s 7 = true ∧
     answers (q 2 1 (zeros 64)) s 7 = true ∧
     runs (q 2 1 aPlace) s (fun u => Memory.readN u.dram (u.getF Reg.PLC_BASE 0 0 + 128) 64 == aPlace) = true) := by decide +kernel

/-- A payload of DOMAIN_SET for domain 5: root interval, flags, least and largest count, count. -/
def domainPayload (r f lo hi k : Nat) : List Byte :=
  toLe 8 5 ++ toLe 8 77 ++ toLe 2 r ++ toLe 1 f ++ zeros 1 ++ toLe 4 512 ++ toLe 2 lo ++ toLe 2 hi ++ toLe 2 0 ++ toLe 2 k ++ zeros 64

/-- `MailboxDomainRequests`: settings, update blocks, retention. -/
theorem witness_domain_requests :
    (let s := { mbxState 3 with domains := [aDomain] }
     runs (.domainSet (ask (domainPayload 0 0 1 4 2))) s (fun u => (u.domain? 5).any (fun d => d.rootInterval == 10)) = true ∧ answers (.domainSet (ask (domainPayload 1001 0 1 4 2))) s 7 = true ∧
     answers (.domainSet (ask (domainPayload 8 4 1 4 2))) s 7 = true ∧
     answers (.domainSet (ask (domainPayload 8 3 1 4 2))) (mbxState 3) 7 = true ∧
     answers (.domainSet (ask ((domainPayload 8 3 1 4 2).take 32 ++ 1#8 :: zeros 63))) s 7 = true ∧ 64 ≤ aDomain.entry.length ∧
     runs (.domainSet (ask (domainPayload 8 3 1 4 2))) s (fun u => (u.domain? 5).any (fun d => d.steer && d.legacy && d.accCount == 2 && d.window == 200))
       = true ∧
     runs (.domainSet (ask (domainPayload 8 3 1 4 2))) { s with domains := [{ aDomain with run := some (aRun .program) }] }
       (fun u => (u.domain? 5).any (fun d => d.nextAcc == some 2)) = true) ∧
    (let s := { mbxState 3 with domains := [aDomain] }
     let p := toLe 8 5 ++ zeros 64
     answers (.upbSubmit (ask p)) (mbxState 3) 7 = true ∧ upbValid (zeros 64) = false ∧ answers (.upbSubmit (ask p)) s 7 = true) ∧
    (let s := { mbxState 3 with domains := [aDomain] }
     let b := { s with fw := { s.fw with bases := [(2, 65536, 64, 0)] } }
     answers (.retainSet (ask (toLe 4 6 ++ toLe 4 1))) s 7 = true ∧
     runs (.retainSet (ask (toLe 4 5 ++ toLe 4 1))) s (fun u => (u.domain? 5).any (·.retained)) = true ∧
     answers (.retainSet (ask (toLe 4 0x80002 ++ toLe 4 1))) s 7 = true ∧
     runs (.retainSet (ask (toLe 4 0x80002 ++ toLe 4 1))) b (fun u => u.fw.retainedBases == [2]) = true) := by decide +kernel

/-- `MailboxDomainRequests`: base regions, exports, cellars. -/
theorem witness_region_requests :
    (let s := { mbxState 3 with domains := [aDomain] }
     let p (r b n : Nat) : List Byte := toLe 8 r ++ toLe 8 b ++ toLe 8 n
     answers (.baseLoad (ask (p 16 0 64))) s 7 = true ∧ answers (.baseLoad (ask (p 1 72000000000 64))) s 7 = true ∧
     answers (.baseLoad (ask (p 1 0 0))) s 7 = true ∧ answers (.baseLoad (ask (p 1 71999999999 2))) s 7 = true ∧
     runs (.baseLoad (ask (p 1 64 1))) s (fun u => u.fw.bases.map (·.1) == [1]) = true) ∧
    (let s := { mbxState 3 with domains := [aDomain] }
     let p (w0 w1 w2 w3 w4 w5 w6 w7 : Nat) : List Byte := [w0, w1, w2, w3, w4, w5, w6, w7].flatMap (toLe 4)
     answers (.exportReq (ask (p 5 0 0 0 0 0 0 1))) (s.setF Reg.EXPORT_STATE 0 0 2) 8 = true ∧
     answers (.exportReq (ask (p 6 0 0 0 0 0 0 1))) s 7 = true ∧ (s.getF Reg.EXPORT_STATE 0 0 ≠ 1 ∧ s.getF Reg.EXPORT_STATE 0 0 ≠ 2) ∧
     answers (.exportReq (ask (p 5 0 0 0 0 0 0 1))) s 0 = true) ∧
    (let s := { mbxState 3 with domains := [aDomain] }
     answers (.cellarRestore (ask (toLe 8 6))) s 7 = true ∧ cellarOk 5 [] = false ∧ answers (.cellarRestore (ask (toLe 8 5))) s 7 = true ∧
     answers (.cellarRestore (ask (toLe 8 5))) { s with domains := [{ aDomain with run := some (aRun .program) }] } 8 = true) := by decide +kernel

/-- A UPB in its ranges: learning rate and eps 1.0, growth 1. -/
def aUpb (step : Nat) : List Byte := toLe 8 step ++ toLe 4 0x3F800000 ++ zeros 8 ++ toLe 4 0x3F800000 ++ zeros 4 ++ toLe 4 1 ++ zeros 32

/-- `MailboxDomainRequests`: an update block of a step to come, of a past one, and a seventeenth. -/
theorem witness_upb_requests :
    (let s := { mbxState 3 with domains := [{ aDomain with lastStep := some 4 }] }
     upbValid (aUpb 5) = true ∧
     runs (.upbSubmit (ask (toLe 8 5 ++ aUpb 5))) s (fun u => (u.domain? 5).any (fun d => d.upbs == [aUpb 5])) = true ∧
     answers (.upbSubmit (ask (toLe 8 5 ++ aUpb 4))) s 7 = true ∧
     answers (.upbSubmit (ask (toLe 8 5 ++ aUpb 5))) { s with domains := [{ aDomain with upbs := List.replicate 16 [] }] } 8 = true) := by decide +kernel

/-! Units. -/

/-- A program image without sections. -/
def anImage : List Byte :=
  let b := toLe 4 0x5D1E40C3 ++ toLe 8 1 ++ toLe 4 0 ++ toLe 8 64 ++ zeros 36
  b ++ toLe 4 (crc32c b)

def anEntry (kind : Nat) : SubEntry := { kind := kind, id := 9, domain := 5, left := 1, arg := 0 }

/-- A queue with one entry; its image lies at 0x1000. -/
def scheduled (flags : Nat) (img : List Byte) : State :=
  { withQueue { aQueue flags with entries := [anEntry (if flags = 8 then 2 else 1)] } (mbxState 3) with
      dram := Memory.writeL [] 0x1000 img, domains := [slotDomain] }

/-- `UnitsStart`: nothing to start, a full completion ring, a bad image, a RUN, a STEP. -/
theorem witness_units_start :
    schedulerOn State.reset = false ∧
    (let s := withQueue (aQueue 8) (mbxState 3)
     schedulerOn s = true ∧ (s.queues.all (·.waiting.isEmpty)) = true ∧ pickQueue (s.atTime 9) = none) ∧
    (let s := scheduled 8 anImage
     let q := { aQueue 8 with entries := [anEntry 2] }
     pickQueue (s.atTime 9) = some q ∧ q.cplFree ≠ 0 ∧ (readyUnit (s.atTime 9) q).2 = true ∧ imageOk (readyUnit (s.atTime 9) q).1 q (readImage s q.prog) = true ∧
     (readyUnit (s.atTime 9) q).1.queue? 0 = some q ∧
     runs (.unitStart 9) s (fun u => (u.queue? 0).any (fun q => q.unit.isSome) && u.getF Reg.QMGR_UNITS_STARTED 0 0 == 1)
       = true ∧
     runs (.unitStart 9) (withQueue { q with cplTail := 16 } s) (fun u => (u.queue? 0).any (fun q => q.stalled && q.unit.isNone)) = true ∧
     runs (.unitStart 9) (scheduled 8 []) (fun u => u.getF (Hdr.ERR_CODE 8 0) 0 0 == 0x060D && u.getF Reg.QMGR_UNITS_STARTED 0 0 == 0) = true ∧
     (readyUnit ((domainsOn s).setF Reg.PSEQ_CUR 0 0 0) q).2 = false) := by decide +kernel

theorem witness_step_starts :
    runs (.unitStart 9) (scheduled 0 anImage) (fun u => (u.domain? 5).any (fun d => d.run.any (fun r => r.step == 0 && r.phase == .program))) = true := by
  decide +kernel

/-- A queue whose unit runs on tile 0. -/
def unitRuns (flags : Nat) (st : ProgState) (f : Domain → Domain) : State :=
  let s := (mbxState 3).setF (Hdr.ENABLE 1) 0 0 1
  let q : Queue := { aQueue flags with
    entries := [anEntry (if flags = 8 then 2 else 1)]
    unit := some { entry := anEntry (if flags = 8 then 2 else 1), tiles := [0], startedAt := 0, update := false, stopping := false } }
  { (withQueue q s).modTile 0 (fun t => { t with pstate := st }) with domains := [f slotDomain] }

/-- `UnitsEnd`. -/
theorem witness_units_end :
    (let s := unitRuns 8 .halted id
     s.getF Reg.CP_STATE 1 0 = 2 ∧ unitTiles s [0] = [0] ∧ (s.tile 0).pstate = .halted ∧ (aQueue 8).isRun = true ∧
     runs (.runComplete 0 9) s (fun u => (u.queue? 0).any (fun q => q.unit.isNone && q.cplTail == 1 && q.lastId == 9) &&
       u.sent.contains (.hostMem 0x8000 (toLe 4 9 ++ toLe 1 0 ++ toLe 1 3 ++ toLe 2 0 ++ toLe 8 0 ++ toLe 8 9 ++ zeros 8)) && u.sent.contains (.msix 2)) = true) ∧
    (unitRuns 8 .running id).tile 0 ≠ (unitRuns 8 .halted id).tile 0 ∧
    runs (.runComplete 0 9) (unitRuns 8 .running id) (fun u => u.sent.isEmpty) = true ∧
    runs (.queueFault 0 9) (unitRuns 8 .running id) (fun u => u.sent.isEmpty) = true ∧
    runs (.queueFault 0 9) (unitRuns 8 .faulted id) (fun u => u.getF (Hdr.ERR_CODE 8 0) 0 0 == 0x060E && (u.queue? 0).any (·.unit.isNone)) = true ∧
    (let f : Domain → Domain := fun d => { d with run := some (aRun .updating) }
     (aQueue 0).isRun = false ∧ ((unitRuns 0 .faulted f).tile 0).pstate = .faulted ∧
     runs (.queueFault 0 9) (unitRuns 0 .faulted f) (fun u => (u.domain? 5).any (fun d => d.run.any (·.updFaults == 1))) = true) := by decide +kernel

/-! Processors. -/

/-- `ProcessorsAndHandover`: kicks, expiries, restarts. -/
theorem witness_processors :
    (let s := mbxState 3
     let due := s.fw.kicks[1] + wdtPeriod s 1
     s.getF Reg.CP_STATE 1 0 = 2 ∧ due = 100000000 ∧
     runs (.wdtKick 1 due) s (fun u => u.fw.kicks[1] == due) = true ∧ runs (.wdtKick 1 (due + 1)) s (fun u => u.fw.kicks[1] == 0) = true ∧
     runs (.watchdogExpiry 1 true (due - 1)) s (fun u => u.getF Reg.CP_STATE 1 0 == 2) = true) ∧
    (let s := { mbxState 3 with power := { (mbxState 3).power with vaux := true } }
     let often (n : Fin 4) : State := { s with fw := { s.fw with restarts := s.fw.restarts.set n [1, 2] } }
     fwState s ≠ 5 ∧ 2 ≤ ((often 1).fw.restarts[1].filter (fun x => decide (max s.now 1000000000 < x + 600000000000))).length ∧
     runs (.watchdogExpiry 0 true 1000000000) s (fun u => u.getF Reg.MBX_FW_STATE 0 0 == 5 && u.getF Reg.CP_STATE 0 0 == 4 && u.getF Reg.SEC_FATAL 0 0 == 1) = true ∧
     runs (.watchdogExpiry 1 true 1000000000) { s with fw := { s.fw with handoverAt := some 5 } } (fun u => u.fw.inForce == 1 && u.fw.handoverAt.isNone) = true ∧
     runs (.watchdogExpiry 2 true 1000000001) { s with fw := { s.fw with handoverAt := some 0 } } (fun u => u.getF Reg.CP_STATE 2 0 == 3 &&
       u.getF Reg.CP_RESTARTS 2 0 == 1 && u.getF Reg.BRK_SAFE_FLOOR 0 0 != 0) = true ∧
     runs (.watchdogExpiry 2 true 1000000000) (often 2) (fun u => u.getF Reg.CP_STATE 2 0 == 4 && u.getF Reg.MBX_FW_STATE 0 0 == 3) = true ∧
     runs (.watchdogExpiry 1 true 1000000000) (often 1) (fun u => u.getF Reg.MBX_FW_STATE 0 0 == 5) = true) ∧
    [(1 : Fin 4), 2, 3].all (fun n => runs (.cpRestartComplete n 9) ((mbxState 3).setF Reg.CP_STATE n 0 3) (fun u =>
      u.getF Reg.CP_STATE n 0 == 2 && u.getF Reg.CP_LAST_RESTART n 0 == 9)) = true := by decide +kernel

/-- `ProcessorsAndHandover`: handovers and the end of an escalation. -/
theorem witness_handover :
    (let s := mbxState 3
     let h := { s with fw := { s.fw with handover := some (0x7FFFF, 0) } }
     noUnit h = true ∧ handoverReached h 0x7FFFF 0 = true ∧ h.mbx.waiting = [] ∧
     imgFmtLo [] ≤ imgFmtHi [] ∧ imgFmtHi [] ≤ imgFmtHi [] ∧ (rtSlot h h.fw.inForce).image = [] ∧
     runs (.handoverBegin 9) h (fun u => u.fw.handover.isNone && u.fw.inForce == 1 && u.fw.handoverAt == some 9) = true ∧
     (let old := zeros 30 ++ [9#8]
      let b := setRtSlot h 0 { image := old, locked := false }
      imgFmtHi [] < imgFmtHi old ∧ runs (.handoverBegin 9) b (fun u => u.fw.handover.isNone && u.fw.inForce == 0) = true) ∧
     noUnit { unitRuns 8 .running id with fw := h.fw } = false ∧
     (let e := { s with fw := { s.fw with escalatedAt := some 5 } }
      runs (.escalationWindowExpiry 9) e (fun u => u.power.startDue == some 2) = true ∧
      runs (.escalationWindowExpiry 9) { unitRuns 8 .running id with fw := e.fw } (fun u => u.power.startDue.isNone) = true)) := by decide +kernel

/-- `HostLossAndLoadWait`. -/
theorem witness_host_loss :
    (let s := (mbxState 3).setF Reg.QMGR_HOST_LOSS_TIMEOUT 0 0 30
     let b := { s with fw := { s.fw with everBound := true } }
     runs (.hostLossTimeout 30000000000) s (fun u => u.getF Reg.MBX_FW_STATE 0 0 == 3) = true ∧
     runs (.hostLossTimeout 29999999999) b (fun u => u.getF Reg.MBX_FW_STATE 0 0 == 3) = true ∧
     runs (.hostLossTimeout 30000000000) b (fun u => u.getF Reg.MBX_FW_STATE 0 0 == 4 && u.fw.holdAt == some 30000000000 && u.getF Reg.SEC_HOLD 0 0 == 1 &&
       u.getF (Hdr.ERR_CODE 8 0) 0 0 == 0x060C) = true) ∧
    (let s := (unitRuns 8 .running id).setF Reg.MBX_FW_STATE 0 0 4
     let h := { s with fw := { s.fw with holdAt := some 0 } }
     h.getF Reg.CP_STATE 1 0 = 2 ∧ (0 : TileId) ∈ unitTiles h [0] ∧ (h.tile 0).active = true ∧
     runs (.holdRunLimit 60000000000) h (fun u => (u.tile 0).pstate == .halted && (u.queue? 0).any (·.unit.isNone)) = true ∧
     runs (.holdRunLimit 59999999999) h (fun u => (u.tile 0).pstate == .running) = true) ∧
    (let s := mbxState 1
     let w := { s with fw := { s.fw with loadWaitFrom := some 0 } }
     runs (.hostLoadWaitExpiry 299999999999) w (fun u => u.getF Reg.MBX_FW_STATE 0 0 == 1) = true ∧
     (imageCheck (w.atTime 300000000000) 2 0 (flashPart w false).runtime).any (fun e =>
       (imageCheck (imageFails (w.atTime 300000000000) e) 2 1 (flashPart w true).runtime).isSome) = true ∧
     runs (.hostLoadWaitExpiry 300000000000) w (fun u => u.getF Reg.MBX_FW_STATE 0 0 == 2 && u.fw.loadWaitFrom.isNone) = true) := by
  decide +kernel

/-! Supply, breaker, power. -/

/-- A running device with VAUX, changed. -/
def powered (f : Power → Power) : State :=
  let s := mbxState 3
  { s with power := f { s.power with vaux := true, tripped := false, perstLow := false } }

/-- `BreakerSamples`: the input voltage and the regulators. -/
theorem witness_vin :
    ((powered id).power.vaux = true ∧ (powered id).power.tripped = false ∧
     runs (.vinSample 0 9) (powered id) (fun u => !u.power.vaux && u.regs.isEmpty) = true ∧
     runs (.vinSample 37999 100000) (powered (fun p => { p with uvAt := some 0 })) (fun u => u.getF Reg.BRK_TRIP_CAUSE 0 0 == 1 && u.power.tripped) = true ∧
     runs (.vinSample 52001 10000) (powered (fun p => { p with ovAt := some 0 })) (fun u => u.getF Reg.BRK_TRIP_CAUSE 0 0 == 2 && !u.power.vbus) = true ∧
     (powered (fun p => { p with lowAt := some 0 })).power.inputLow = false ∧
     runs (.vinSample 38000 1000000) (powered (fun p => { p with lowAt := some 0 })) (fun u => u.power.inputLow && u.getF (Hdr.ERR_CODE 6 0) 0 0 == 0x0701) = true ∧
     runs (.vinSample 40500 100000000) (powered (fun p => { p with okAt := some 0, inputLow := true })) (fun u => !u.power.inputLow) = true ∧
     runs (.vinSample 48000 9) (powered id) (fun u => u.power.vinMv == 48000) = true) ∧
    runs (.railFault true 3 9) (powered id) (fun u => u.dimms[3].pmic && u.getF (Hdr.ERR_CODE 19 0) 0 0 == 0x0705) = true ∧
    [14, 32, 63].all (fun n => runs (.railFault false n 9) (powered id) (fun u => u.getF Reg.BRK_TRIP_CAUSE 0 0 == 3 && u.getF Reg.BRK_TRIP_INFO 0 0 == n))
      = true := by decide +kernel

/-- `BreakerSamples`: power over the limit at the top level trips after 10 ms; the level before. -/
theorem witness_power_ticks :
    (let s := powered (fun p => { p with kP := 13, kPTop := some 0 })
     let pcap := s.getF Reg.BRK_PCAP 0 0
     s.power.kPAt + 1000000 ≤ 10000000 ∧ ¬ s.getF Reg.BRK_FUSE_P_PEAK 0 0 < pcap ∧
     runs (.breakerPowerTick pcap (pcap + 1) 10000000) s (fun u => u.getF Reg.BRK_TRIP_CAUSE 0 0 == 4) = true ∧
     runs (.breakerPowerTick pcap (pcap + 1) 10000000) (powered id) (fun u => u.power.kP == 1 && !u.power.tripped) = true) := by decide +kernel

/-- `BreakerSamples`: temperatures below the limit, one reading too few, a sensor above its trip limit for 100 µs. -/
theorem witness_thermal_ticks :
    after (.breakerThermalTick (List.replicate 41 40) 9) (powered id) = none ∧ (List.replicate 41 40).length ≠ 42 ∧
    (let s := powered id
     let cfg := s.getF Reg.BRK_T_THROTTLE_CFG 0 0
     let limit := s.getF Reg.BRK_FUSE_T_TRIP 0 0
     cfg + 1 < limit ∧ 3 ≤ cfg ∧
     runs (.breakerThermalTick (List.replicate 42 (cfg + 1)) 100000) s (fun u => u.power.kT[0] == 1 && u.getF Reg.BRK_HEARTH_HOT 0 0 == 1) = true ∧
     runs (.breakerThermalTick (List.replicate 42 (cfg - 3)) 10000000) (powered (fun p => { p with kT := #v[2, 2, 2, 2] })) (fun u => u.power.kT[3] == 1) = true ∧
     runs (.breakerThermalTick (List.replicate 42 (cfg - 2)) 10000000) (powered (fun p => { p with kT := #v[2, 2, 2, 2] })) (fun u => u.power.kT[3] == 2) = true ∧
     runs (.breakerThermalTick (limit :: List.replicate 41 40) 100000) (powered (fun p => { p with hotAt := [(0, 0)] })) (fun u =>
       u.getF Reg.BRK_TRIP_CAUSE 0 0 == 5 && u.getF Reg.BRK_TRIP_INFO 0 0 == 0) = true) := by decide +kernel

/-- The island voltage of cluster 9 is `mv`; its reset value is not known (V_BASE is fused), so that only a listed value can be compared. -/
def islandAt (mv : Nat) (f : Power → Power) : State :=
  let s := (powered f).setF Reg.BRK_SAFE_FLOOR 0 0 0
  { s with regs := regInsert s.regs (Reg.AGE_V_SET.key 1 1) mv }

/-- `LimitsClocksAndVoltages`. -/
theorem witness_limits :
    (let s := powered id
     s.getF Reg.CONFIG_CFG_LOCK 0 0 = 0 ∧ fwState s = 3 ∧ s.power.startDue = none ∧
     runs (.breakerLimitWrite (.cp 0) .pcap 1300) s (fun u => u.getF Reg.BRK_PCAP 0 0 == s.getF Reg.BRK_PCAP 0 0) = true ∧
     runs (.breakerLimitWrite (.cp 2) .pcap 1300) (s.setF Reg.CONFIG_CFG_LOCK 0 0 1) (fun u => u.getF Reg.BRK_PCAP 0 0 == s.getF Reg.BRK_PCAP 0 0) = true ∧
     runs (.breakerLimitWrite (.cp 2) .pcap 1) s (fun u => u.getF Reg.BRK_PCAP 0 0 == 1200) = true ∧
     runs (.breakerLimitWrite (.cp 2) (.targetN 1) 63) s (fun u => u.getF Reg.BRK_TARGET_N 0 1 == s.getF Reg.BRK_FUSE_F_MAX_N 0 0) = true) ∧
    (let s := (powered id).setF Reg.BRK_SAFE_FLOOR 0 0 0
     let f := (powered id).setF Reg.BRK_SAFE_FLOOR 0 0 1
     runs (.cp2Live (.cp 1) 9) s (fun u => u.power.liveAt == 0) = true ∧ runs (.cp2Live (.cp 2) 9) s (fun u => u.power.liveAt == 9) = true ∧
     f.getF Reg.CP_STATE 2 0 = 2 ∧ runs (.cp2Live (.cp 2) 9) f (fun u => u.getF Reg.BRK_SAFE_FLOOR 0 0 == 0 && u.power.liveAt == 9) = true ∧
     runs (.cp2LiveExpiry 49999999) s (fun u => u.getF Reg.BRK_SAFE_FLOOR 0 0 == 0) = true ∧
     runs (.cp2LiveExpiry 50000000) s (fun u => u.getF Reg.BRK_SAFE_FLOOR 0 0 == 1 && u.getF (Hdr.ERR_CODE 6 0) 0 0 == 0x0709) = true) ∧
    (let s := ((powered id).setF Reg.BRK_SAFE_FLOOR 0 0 0).setF Reg.BRK_TARGET_N 0 1 44
     stackBusy s 1 = false ∧ s.power.change[1] = none ∧ curN s 1 ≠ 44 ∧ s.power.stepDue[1] = false ∧
     runs (.freqApply (.cp 2) 1 9) s (fun u => u.power.change[1].isNone) = true ∧
     runs (.freqApply (.cp 1) 1 9) s (fun u => u.power.change[1] == some 44) = true ∧
     stackBusy (s.modTile 32 (fun t => { t with pstate := .running })) 1 = true ∧
     runs (.freqChangeDone 1 9) { s with power := { s.power with change := s.power.change.set 1 (some 44) } } (fun u => u.getF Reg.BRK_CUR_N 0 1 == 44) = true ∧ (islandAt 800 id).getF Reg.AGE_V_SET 1 1 = 800 ∧
     800 ≤ min 845 ((islandAt 800 id).getF Reg.BRK_FUSE_V_CEIL 0 0) ∧ min 790 ((islandAt 800 id).getF Reg.BRK_FUSE_V_CEIL 0 0) < 800) := by decide +kernel

/-- A running device in whose power sequencer page 19 is enabled and domain `d` is in state `v`. -/
def sequenced (d v : Nat) : State := ((powered id).setF (Hdr.ENABLE 19) 0 0 1).setF Reg.PSEQ_CUR 0 d v

def changing (d target : Nat) : State :=
  let s := (sequenced d 3).setF Reg.PSEQ_REQ 0 d target
  { s with power := { s.power with trans := [{ dom := d, target := target, since := 0 }] } }

/-- `PowerDomainTransitions`. -/
theorem witness_transitions :
    (runs (.domainRequest (.cp 1) 0 0 9) (sequenced 0 2) (fun u => u.power.trans.isEmpty) = true ∧
     runs (.domainRequest (.cp 2) 0 1 9) (sequenced 0 3) (fun u => u.getF Reg.PSEQ_REQ 0 0 == 1 && u.power.trans.isEmpty) = true ∧
     domAllowed (sequenced 0 2) 44 0 = false ∧ domAllowed (sequenced 0 2) 0 2 = true ∧
     runs (.domainRequest (.cp 2) 0 2 9) (sequenced 0 2) (fun u => u.power.trans.isEmpty && u.getF Reg.PSEQ_REQ 0 0 == 2) = true ∧
     domAllowed (sequenced 0 2) 0 1 = true ∧ runs (.domainRequest (.cp 2) 0 1 9) (sequenced 0 2) (fun u => u.getF Reg.PSEQ_CUR 0 0 == 3 &&
       u.power.trans == [{ dom := 0, target := 1, since := 9 }]) = true ∧
     (sequenced 0 2).power.trans = []) ∧
    (let s := changing 0 0
     transLate s { dom := 0, target := 0, since := 0 } 100000 = false ∧ transLate s { dom := 0, target := 0, since := 0 } 100001 = true ∧
     runs (.domainTransitionEnd 0 100000) s (fun u => u.getF Reg.PSEQ_CUR 0 0 == 0 && u.power.trans.isEmpty) = true ∧
     runs (.pwrDomainTimeout 0 100001) s (fun u => u.getF Reg.PSEQ_CUR 0 0 == 0 && u.getF Reg.PSEQ_FAULT 0 0 == 1 &&
       u.getF (Hdr.ERR_CODE 19 0) 0 0 == 0x0706) = true) ∧
    (let s := sequenced 0 2
     domCur s (regionOf 0) = 2 ∧ clusterBusy s 0 = false ∧ s.queues = [] ∧ s.getF Reg.CP_STATE 2 0 = 2 ∧
     runs (.clusterIdleTimeout 0 999999) s (fun u => u.power.trans.isEmpty) = true ∧
     runs (.clusterIdleTimeout 0 1000000) s (fun u => u.power.trans == [{ dom := 0, target := 1, since := 1000000 }]) = true) ∧
    (let s := sequenced 0 1
     let g := { s with power := { s.power with gatedAt := [(0, 0)] } }
     (g.tile 0).pantry.trans = [] ∧ g.getF Reg.PANTRY_BANK_CUR 0 0 = 2 ∧
     runs (.bankRetentionTimeout 0 99999999) g (fun u => u.getF Reg.PANTRY_BANK_CUR 0 0 == 2) = true ∧
     runs (.bankRetentionTimeout 0 100000000) g (fun u => u.getF Reg.PANTRY_BANK_CUR 0 0 == 3 && u.power.gateBanks.contains (0, 0)) = true) := by
  decide +kernel

/-- A reading of cluster 9: slacks of its two monitors. -/
def aReading (a b : Nat) : AgeReading := { cluster := 9, cpr0 := a, cpr1 := b, ro0 := 100, ro1 := 100, temp := 60 }

/-- `AgeingAndDrift`. -/
theorem witness_ageing :
    (let s := islandAt 800 id
     s.getF Reg.CP_STATE 2 0 = 2 ∧ s.getF Reg.BRK_FUSE_V_CEIL 0 0 = 850 ∧ s.getF Reg.BRK_SAFE_FLOOR 0 0 = 0 ∧ clusterInService s 9 = true ∧
     s.power.stepDue[1] = false ∧ s.getF Reg.AGE_V_SET 1 1 = 800 ∧ (9 : Fin 32).val = 8 * 1 + 1) ∧
    [(41 : Nat), 40].all (fun k =>
      let s := islandAt 850 (fun p => { p with plan := #v[k, k, k, k] })
      s.getF Reg.CP_STATE 2 0 == 2 && s.getF Reg.BRK_FUSE_V_CEIL 0 0 == 850 && clusterInService s 9 && s.getF Reg.AGE_V_SET 1 1 == 850 && s.power.plan[1] == k)
      = true ∧
    (let s := powered id
     s.power.driftAt = 0 ∧ s.getF Reg.CP_STATE 2 0 = 2 ∧ runs (.driftRecordDaily 86399999999999) s (fun u => (flashPart u false).drift.isEmpty) = true ∧
     runs (.driftRecordDaily 86400000000000) s (fun u => (flashPart u false).drift.length == 32) = true) := by decide +kernel

/-! The module. -/

/-- `ModulePins`. -/
theorem witness_pins :
    (let s := powered id
     runs (.senseNMake 9) s (fun u => u.power.senseLow) = true ∧ runs (.senseNOpen 9) s (fun u => !u.power.vaux && u.dram.isEmpty) = true ∧
     (let o := powered (fun p => { p with senseLow := true, switchClosed := false, vinOkAt := some 0 })
      runs (.inputSwitchClose 9999999) o (fun u => !u.power.switchClosed) = true ∧
      runs (.inputSwitchClose 10000000) o (fun u => u.power.switchClosed && u.power.vbus && u.power.startDue == some 0) = true) ∧
     runs (.perstNAssert 9) s (fun u => u.power.perstLow && u.power.perstAt == 9 && u.getF Reg.MBX_FW_STATE 0 0 == 0) = true ∧
     (let r := powered (fun p => { p with perstLow := true, perstAt := 0 })
      runs (.perstNHoldExpiry 10000000000) { r with dram := [(0, 1#8)] } (fun u => u.dram.length == 1) = true ∧
      runs (.perstNHoldExpiry 10000000001) { r with dram := [(0, 1#8)] } (fun u => u.dram.isEmpty && !u.power.vbus) = true ∧
      runs (.perstNRelease 10000000000) { r with dram := [(0, 1#8)] } (fun u => u.dram.length == 1 && u.power.startDue == some 1 || u.power.startDue == some 0) = true ∧
      runs (.perstNRelease 9) { r with power := { r.power with tripped := true } } (fun u => u.power.startDue == some 4 && !u.power.tripped) = true)) ∧
    (let s := (powered id).setF Reg.SEC_FATAL 0 0 1
     runs (.cfgLock (.cp 0)) s (fun u => u.getF Reg.CONFIG_CFG_LOCK 0 0 == 1) = true ∧ runs (.cfgLock .host) s (fun u => u.getF Reg.CONFIG_CFG_LOCK 0 0 == 0) = true ∧
     runs (.alertPendingClear .host 1) s (fun u => u.getF Reg.SEC_FATAL 0 0 == 0) = true ∧
     runs (.alertPendingClear .host 2) s (fun u => u.getF Reg.SEC_FATAL 0 0 == 1) = true ∧
     runs (.alertPendingClear (.cp 0) 1) s (fun u => u.getF Reg.SEC_FATAL 0 0 == 1) = true ∧
     smbusAnswers s = true ∧ runs (.smbusByteWrite 1 1) s (fun u => u.getF Reg.SEC_FATAL 0 0 == 0) = true) ∧
    (let w := powered (fun p => { p with wakeLow := some 0 })
     runs (.wakeNPulseEnd 99999999) w (fun u => u.power.wakeLow == some 0) = true ∧ runs (.wakeNPulseEnd 100000000) w (fun u => u.power.wakeLow.isNone) = true) ∧
    runs (.cageRegulatorFault 0 9) (kml 4 id) (fun u => u.getF Reg.KML_STATE 0 0 == 5 && u.getF (Hdr.ERR_CODE 4 0) 0 0 == 0x0401) = true ∧
    runs (.cageRegulatorFault 0 9) (kml 1 id) (fun u => u.getF Reg.KML_STATE 0 0 == 1 && !u.power.cages[0]) = true := by decide +kernel

/-- `StartsOfTheDevice`: a start that is not due, and one without an image in flash. That an image verifies depends on the opaque check of
its signatures. -/
theorem witness_starts :
    State.reset.power.perstLow = true ∧
    (let s := powered (fun p => { p with startDue := some 0 })
     s.getF Reg.CP_STATE 0 0 ≠ 1 ∧ imageCheck (startBegins s 0 9 false) 1 0 (flashPart s false).stage1 ≠ none ∧
     imageCheck (startBegins s 0 9 false) 1 1 (flashPart s true).stage1 ≠ none ∧
     runs (.deviceStart { Sys2Proof.Laws.aStart with time := 9 }) s (fun u => u.getF Reg.MBX_FW_STATE 0 0 == 0 && u.getF Reg.CP_STATE 0 0 == 1 &&
       u.power.startDue.isNone) = true) := by decide +kernel

/-! The queue of commands and the invariant. -/

/-- `StepRunsFrontCommand` and `EveryStepKeepsTheMachineSound`: a command in front runs; with none, a running tile issues; with no tile running
the device idles. -/
theorem witness_steps :
    (match step { State.reset with pending := [.senseNMake 9] } with
      | .next t => t.power.senseLow && t.pending.isEmpty
      | _ => false) = true ∧
    (match step (tile0 id) with
      | .next t => decide (t ≠ tile0 id)
      | _ => false) = true ∧
    State.reset.pending = [] := by decide +kernel

/-- No tile runs: the device idles. -/
theorem witness_idle : ((List.finRange 128).all (fun i => (State.reset.tile i).pstate != .running)) = true := by decide +kernel

/-- `BundleWordsReadBack` and `GuardsAndP0`: words that read as operations, opcodes that no table lists, a sound tile. -/
theorem witness_words : decodeVec (encodeVec .add (vecF 0)) = .vec .add (vecF 0) ∧ decodeCtl 0xFF0#48 = .bad 4 ∧ decodeVec 0xFF0#64 = .bad 0 ∧
    ((0xFF0#64).extractLsb' 4 8 = 0xFF#8) := by decide +kernel

theorem witness_free_opcodes : (∀ op : VecOp, op.code ≠ 0xFF#8) ∧ ∀ op : CtlOp, op.code ≠ 0xFF#8 :=
  ⟨fun op => by cases op <;> decide, fun op => by cases op <;> decide⟩

theorem witness_sound : (State.reset.tile 0).p[0] = BitVec.allOnes 128 := by decide +kernel
/-! What came in time, and what too late. -/

/-- Drain staging of tile 0 holds the line at 8192 for stream 4 until 100 ns. -/
def stagedAt (now : Nat) : State :=
  { pantryWith [] (fun t => { t with arrays := { t.arrays with staging := [{ stream := 4, addr := 8192, old := zeros 64, until_ := 100 }] } }) with now := now }

/-- `ArrayCommandsStartAndDrain`: a host write to a line that staging holds, and to one that it held. -/
theorem witness_staged :
    (let s := stagedAt 9
     (s.tile 0).arrays.staging.any (fun g => g.holds s.now 128 && (linesOf 8192 64).contains 128) = true ∧
     pantryCheck s 0 { master := 6, write := true, addr := 8192, len := 64 } = none ∧
     runs (.pantryMasterAccess 0 3 8192 64 (some (zeros 64)) 0) s (fun u => (u.tile 0).pantry.hazards.any (fun z => z.first == 8192 && z.by_ == .lost)) = true) ∧
    runs (.pantryMasterAccess 0 3 8192 64 (some (zeros 64)) 0) (stagedAt 100) (fun u => (u.tile 0).pantry.hazards.isEmpty) = true := by
  decide +kernel

/-- `DescriptorsMoveRows`: a descriptor not eligible yet, and one that the descriptor of handle 9 comes before. -/
theorem witness_order :
    (let s := moving 3 4096 8192 0 0 0
     let at_ (n : Nat) : AccDesc := ⟨4096, ((rowWords 3 4096 8192 0 0).set 0 (0xF3 + 65536 * n)).map (BitVec.ofNat 64), 0, 0, 0, 0⟩
     (at_ 7).needTime = 7 ∧
     runs (.pantryToPantry 0 3 1 ⟨20, 0, 0, 0⟩) (s.modTile 0 (fun t => { t with descs := t.descs.set 3 (some (at_ 0x10000000)) }))
       (fun u => (u.tile 0).descs[3].any (·.rowsDone == 0)) = true ∧
     runs (.pantryToPantry 0 3 1 ⟨20, 0, 0, 0⟩) (s.modTile 0 (fun t => { t with descs := t.descs.set 9 (some (at_ 7)) }))
       (fun u => (u.tile 0).descs[3].any (·.rowsDone == 0)) = true ∧
     runs (.pantryToPantry 0 9 1 ⟨20, 0, 0, 0⟩) (s.modTile 0 (fun t => { t with descs := t.descs.set 9 (some (at_ 7)) }))
       (fun u => (u.tile 0).descs[9].any (·.rowsDone == 1)) = true) := by decide +kernel

/-- `MembershipAndTimeBase`: position 0 of a torus of 2 by 2, from where position 3 lies first along x. -/
theorem witness_routes :
    (let g : Group := { aGroup 0 with plan := ⟨true, 2, [some 20, some 21, some 22, some 23]⟩ }
     let s : State := { (kml 4 id).setF Reg.KML_STATE 4 0 4 with torusFabric := true }
     g.plan.torus = true ∧ planRoute s g 3 = some ⟨23, 0, 0⟩ ∧ planRoute s g 2 = some ⟨22, 4, 0⟩) := by decide +kernel

/-- `PowerDomainTransitions`: a region with nothing to keep it, and a cluster that serves no column. -/
theorem witness_regions :
    (let s := [20, 21, 22, 23, 42].foldl (fun s d => s.setF Reg.PSEQ_CUR 0 d 0) (sequenced 37 2)
     s.getF Reg.CP_STATE 2 0 = 2 ∧ s.getF (Hdr.ENABLE 19) 0 0 ≠ 0 ∧ regionIdle s 5 = true ∧ domCur s 37 = 2 ∧ domCur s 42 = 0 ∧
     domCur (settleRegions s) 37 = 3) ∧
    (let s := (List.range 4).foldl (fun s k => s.setF Reg.TILE_MAP_STATE (28 + k) 0 2) State.reset
     clusterServes s 7 = false ∧ domAllowed s 7 2 = false) ∧
    (let s := sequenced 32 2
     regionIdle (s.setF Reg.DDR_STATE 0 0 2) 0 = false) := by decide +kernel

/-- `HostPortsAndWindow`: a link that comes back after FAILOVER_DELAY finds its role gone. -/
theorem witness_late_failover :
    (let s := (hostPorts 2 1 (linkOff (some 100)) linkOn).setF Reg.HP_FAILOVER_DELAY 0 0 10
     s.power.haFrom = none ∧ s.getF (Hdr.ENABLE 10) 0 0 ≠ 0 ∧
     runs (.hostLinkUp 0 true true true 10000101) s (fun u => u.getF Reg.HP_ROLE 1 0 == 2 && u.getF Reg.HP_ROLE 0 0 == 1) = true ∧
     runs (.hostLinkUp 0 true true true 10000000) s (fun u => u.getF Reg.HP_ROLE 1 0 == 1 && u.getF Reg.HP_ROLE 0 0 == 2) = true) := by decide +kernel

/-- `LimitsClocksAndVoltages`, `HostLossAndLoadWait`: CP2_LIVE after its 50 ms, and a host write after the host was given up. -/
theorem witness_late :
    (let s := ((powered id).setF Reg.BRK_SAFE_FLOOR 0 0 0)
     s.power.tripped = false ∧ s.power.perstLow = false ∧ s.getF Reg.CP_STATE 2 0 = 2 ∧ s.power.vaux = true ∧ s.power.liveAt = 0 ∧
     runs (.cp2Live (.cp 2) 50000001) s (fun u => u.getF Reg.BRK_SAFE_FLOOR 0 0 == 0 && bit (u.getF (Hdr.INT_STATUS 6 0) 0 0) 1) = true) ∧
    (let s := (mbxState 3).setF Reg.QMGR_HOST_LOSS_TIMEOUT 0 0 30
     let b := { s with fw := { s.fw with everBound := true } }
     hostActive b = true ∧ HostInTime b 30000000000 ∧
     runs (.rspHeadWrite 0 30000000000) b (fun u => u.fw.holdAt.isNone) = true ∧
     runs (.rspHeadWrite 0 30000000001) b (fun u => u.fw.holdAt == some 30000000000) = true) := by
  refine ⟨by decide +kernel, by decide +kernel, fun _ _ _ => by decide +kernel, by decide +kernel, by decide +kernel⟩

/-- `UnitsEnd`: a fault of a tile whose unit is over, and one of an update that has run again. -/
theorem witness_later_faults :
    (let s := unitRuns 8 .running id
     let b : State := { s.modTile 7 (fun t => { t with pstate := .faulted }) with fw := { s.fw with ran := [(7, 0)] } }
     (b.tile 0).pstate = .running ∧ (b.tile 7).pstate = .faulted ∧
     runs (.queueFault 0 9) b (fun u => u.fw.ran.isEmpty && u.getF (Hdr.ERR_CODE 8 0) 0 0 == 0x060E && (u.queue? 0).any (·.unit.isSome)) = true) ∧
    (let f : Domain → Domain := fun d => { d with run := some { aRun .ready with updFaults := 1 } }
     runs (.queueFault 0 9) (unitRuns 0 .faulted f) (fun u => (u.domain? 5).any (·.stopped)) = true) := by decide +kernel

/-- `HeartbeatsAndFailures`: the end of a spare's wait shrinks a group that is large enough. -/
theorem witness_spare_wait :
    (let f : Group → Group := fun g => { g with heldSince := some 0, vacant := [1] }
     (aParams.minMembers ≤ (f (aGroup 0)).size - 1) ∧
     runs (.spareWaitExpiry 5 5000000) (grouped 0 f) (fun u => u.sent.length == 2 && (u.group? 5).any (fun g => g.state == .member)) = true) := by decide +kernel

/-- `GroupReportsAndTables`, `MembershipAndTimeBase`: a table of another stage, and a membership state that is none. -/
theorem witness_not_taken :
    (let d := { slotDomain with group := some (aGroup 1) }
     let b := tableBytes (headT (aTable 2 0)) ((List.range 3).map (fun i => { key := 0, ready := 0, member := 40 + i, late := false, run := 0, odd := false })) []
     ofOtherStage (grouped 1 id) d b = true ∧ ofOtherStage (grouped 1 id) d (aTable 2 0) = false) ∧
    memberStateOf 7 = none ∧ runs (.membership 30 7 1 77 5 9 []) (kml 4 id) (fun u => u.peers.isEmpty) = true := by decide +kernel

end Sys2Proof.Tests
end

section
namespace Sys2Proof.Machine

set_option Elab.async false

/-! Every command keeps what `Kept` names, by the lemma of its meaning; so every step keeps the machine sound. -/

theorem exec_kept {s u : State} (c : Instr) (hu : exec c s = .next u) : Kept s u := by
  cases c with
  | vAdd c f => exact execVAdd_kept c f hu
  | vSub c f => exact execVSub_kept c f hu
  | vMul c f => exact execVMul_kept c f hu
  | vFma c f => exact execVFma_kept c f hu
  | vMin c f => exact execVMin_kept c f hu
  | vMax c f => exact execVMax_kept c f hu
  | vAbs c f => exact execVAbs_kept c f hu
  | exp c f => exact execExp_kept c f hu
  | log c f => exact execLog_kept c f hu
  | rcp c f => exact execRcp_kept c f hu
  | rsqrt c f => exact execRsqrt_kept c f hu
  | cvt c f => exact execCvt_kept c f hu
  | vEq c f => exact execVEq_kept c f hu
  | vNe c f => exact execVNe_kept c f hu
  | vLt c f => exact execVLt_kept c f hu
  | vLe c f => exact execVLe_kept c f hu
  | vGt c f => exact execVGt_kept c f hu
  | vGe c f => exact execVGe_kept c f hu
  | unord c f => exact execUnord_kept c f hu
  | ieq c f => exact execIeq_kept c f hu
  | ine c f => exact execIne_kept c f hu
  | ilt c f => exact execIlt_kept c f hu
  | ile c f => exact execIle_kept c f hu
  | iltu c f => exact execIltu_kept c f hu
  | ileu c f => exact execIleu_kept c f hu
  | iadd c f => exact execIadd_kept c f hu
  | isub c f => exact execIsub_kept c f hu
  | vAnd c f => exact execVAnd_kept c f hu
  | vOr c f => exact execVOr_kept c f hu
  | vXor c f => exact execVXor_kept c f hu
  | vShl c f => exact execVShl_kept c f hu
  | vShr c f => exact execVShr_kept c f hu
  | vSra c f => exact execVSra_kept c f hu
  | perm c f => exact execPerm_kept c f hu
  | rot c f => exact execRot_kept c f hu
  | rsum c f => exact execRsum_kept c f hu
  | rmax c f => exact execRmax_kept c f hu
  | rmin c f => exact execRmin_kept c f hu
  | mov c f => exact execMov_kept c f hu
  | bcast c f => exact execBcast_kept c f hu
  | sel c f => exact execSel_kept c f hu
  | iota c f => exact execIota_kept c f hu
  | saluAdd c f => exact execSaluAdd_kept c f hu
  | saluSub c f => exact execSaluSub_kept c f hu
  | saluAnd c f => exact execSaluAnd_kept c f hu
  | saluOr c f => exact execSaluOr_kept c f hu
  | saluXor c f => exact execSaluXor_kept c f hu
  | saluShl c f => exact execSaluShl_kept c f hu
  | saluShr c f => exact execSaluShr_kept c f hu
  | saluSra c f => exact execSaluSra_kept c f hu
  | addi c f => exact execAddi_kept c f hu
  | smul c f => exact execSmul_kept c f hu
  | li c f => exact execLi_kept c f hu
  | br c f => exact execBr_kept c f hu
  | loop c f => exact execLoop_kept c f hu
  | wait c f => exact execWait_kept c f hu
  | time c f => exact execTime_kept c f hu
  | psetEq c f => exact execPsetEq_kept c f hu
  | psetNe c f => exact execPsetNe_kept c f hu
  | psetLt c f => exact execPsetLt_kept c f hu
  | psetLe c f => exact execPsetLe_kept c f hu
  | psetGt c f => exact execPsetGt_kept c f hu
  | psetGe c f => exact execPsetGe_kept c f hu
  | psetLtu c f => exact execPsetLtu_kept c f hu
  | psetGeu c f => exact execPsetGeu_kept c f hu
  | halt c f => exact execHalt_kept c f hu
  | issue c f => exact execIssue_kept c f hu
  | mstat c f => exact execMstat_kept c f hu
  | gstatq c f => exact execGstatq_kept c f hu
  | send c f => exact execSend_kept c f hu
  | sendr c f => exact execSendr_kept c f hu
  | recv c f => exact execRecv_kept c f hu
  | recvt c f => exact execRecvt_kept c f hu
  | dpoll c f => exact execDpoll_kept c f hu
  | ld c f wait => exact execLd_kept c f wait hu
  | st c f wait => exact execSt_kept c f wait hu
  | dgo c f => exact execDgo_kept c f hu
  | dwait c f => exact execDwait_kept c f hu
  | fence c f => exact execFence_kept c f hu
  | mode c f => exact execMode_kept c f hu
  | wload c f => exact execWload_kept c f hu
  | mm c f => exact execMm_kept c f hu
  | drain c f => exact execDrain_kept c f hu
  | gstat c f => exact execGstat_kept c f hu
  | bindFeed c f => exact execBindFeed_kept c f hu
  | bindDrain c f => exact execBindDrain_kept c f hu
  | drainCfg c f => exact execDrainCfg_kept c f hu
  | resetWalk c f => exact execResetWalk_kept c f hu
  | waitExpiry tile => exact execWaitExpiry_kept tile hu
  | programHalted tile cyc => exact execProgramHalted_kept tile cyc hu
  | modeComplete tile => exact execModeComplete_kept tile hu
  | drainComplete tile cyc => exact execDrainComplete_kept tile cyc hu
  | stallLimit tile => exact execStallLimit_kept tile hu
  | fenceComplete tile => exact execFenceComplete_kept tile hu
  | transcendentalUnitFree tile => exact execTranscendentalUnitFree_kept tile hu
  | messageArrival tile door src time cyc => exact execMessageArrival_kept tile door src time cyc hu
  | creditReturn tile src cyc => exact execCreditReturn_kept tile src cyc hu
  | recvtExpiry tile time cyc => exact execRecvtExpiry_kept tile time cyc hu
  | arrayCommandStart tile b cyc => exact execArrayCommandStart_kept tile b cyc hu
  | mmDrained tile b wait press cyc => exact execMmDrained_kept tile b wait press cyc hu
  | dramToPantry tile h rows cyc => exact execDramToPantry_kept tile h rows cyc hu
  | pantryToDram tile h rows cyc => exact execPantryToDram_kept tile h rows cyc hu
  | pantryToPantry tile h rows cyc => exact execPantryToPantry_kept tile h rows cyc hu
  | pantryToTile tile h rows cyc => exact execPantryToTile_kept tile h rows cyc hu
  | fill tile h rows cyc => exact execFill_kept tile h rows cyc hu
  | descriptorComplete tile h cyc waited => exact execDescriptorComplete_kept tile h cyc waited hu
  | gstatAttach tile waited cyc => exact execGstatAttach_kept tile waited cyc hu
  | gstatComplete tile cyc => exact execGstatComplete_kept tile cyc hu
  | root tile cyc => exact execRoot_kept tile cyc hu
  | nsinv tile cyc => exact execNsinv_kept tile cyc hu
  | chol tile cyc => exact execChol_kept tile cyc hu
  | trsvL tile cyc => exact execTrsvL_kept tile cyc hu
  | trsvLt tile cyc => exact execTrsvLt_kept tile cyc hu
  | cholsolve tile cyc => exact execCholsolve_kept tile cyc hu
  | marverDescriptorDone tile cyc => exact execMarverDescriptorDone_kept tile cyc hu
  | deadlineExpiry tile time cyc ats => exact execDeadlineExpiry_kept tile time cyc ats hu
  | marverRelease tile => exact execMarverRelease_kept tile hu
  | pantryMasterAccess tile master addr n data wait => exact execPantryMasterAccess_kept tile master addr n data wait hu
  | regionDescriptorWrite actor tile m d word v => exact execRegionDescriptorWrite_kept actor tile m d word v hu
  | bankReq actor tile m v => exact execBankReq_kept actor tile m v hu
  | bankTransitionEnd tile bank => exact execBankTransitionEnd_kept tile bank hu
  | sweepRegionStart tile fails => exact execSweepRegionStart_kept tile fails hu
  | ctrClear actor tile => exact execCtrClear_kept actor tile hu
  | start actor tile entry => exact execStart_kept actor tile entry hu
  | abort actor tile => exact execAbort_kept actor tile hu
  | freeze actor ty inst on => exact execFreeze_kept actor ty inst on hu
  | softReset actor ty inst => exact execSoftReset_kept actor ty inst hu
  | enable actor ty inst on => exact execEnable_kept actor ty inst on hu
  | intStatusClear actor ty inst pg mask => exact execIntStatusClear_kept actor ty inst pg mask hu
  | intForce actor ty inst pg mask => exact execIntForce_kept actor ty inst pg mask hu
  | perfEvent actor ty inst ev => exact execPerfEvent_kept actor ty inst ev hu
  | perfClear actor ty inst => exact execPerfClear_kept actor ty inst hu
  | latchingRead actor addr wide => exact execLatchingRead_kept actor addr wide hu
  | bar0InvalidAccess actor addr n write => exact execBar0InvalidAccess_kept actor addr n write hu
  | registerWrite actor addr wide v => exact execRegisterWrite_kept actor addr wide v hu
  | commit d skipped roots step epoch acc crc growth nonfinite => exact execCommit_kept d skipped roots step epoch acc crc growth nonfinite hu
  | scan d => exact execScan_kept d hu
  | commitExecute t => exact execCommitExecute_kept t hu
  | scanExecute t => exact execScanExecute_kept t hu
  | queryDomain actor d => exact execQueryDomain_kept actor d hu
  | readPinRequest d h => exact execReadPinRequest_kept d h hu
  | readPinRelease d h => exact execReadPinRelease_kept d h hu
  | stepBoundary d t => exact execStepBoundary_kept d t hu
  | opPush addr t => exact execOpPush_kept addr t hu
  | opAbort t => exact execOpAbort_kept t hu
  | gradOp t => exact execGradOp_kept t hu
  | statOp t => exact execStatOp_kept t hu
  | rootOp t => exact execRootOp_kept t hu
  | dataChunk ch data t => exact execDataChunk_kept ch data t hu
  | premaxChunk ch data t => exact execPremaxChunk_kept ch data t hu
  | statChunk ch data t => exact execStatChunk_kept ch data t hu
  | rootChunk ch data t => exact execRootChunk_kept ch data t hu
  | endChunk ch data t => exact execEndChunk_kept ch data t hu
  | closeChunk ch data t => exact execCloseChunk_kept ch data t hu
  | grantChunk ch data t => exact execGrantChunk_kept ch data t hu
  | hopTimeout ch t => exact execHopTimeout_kept ch t hu
  | opDone t fit => exact execOpDone_kept t fit hu
  | stepReport data fit t => exact execStepReport_kept data fit t hu
  | groupTable data t => exact execGroupTable_kept data t hu
  | failRecord data t => exact execFailRecord_kept data t hu
  | tableRerequest d position t => exact execTableRerequest_kept d position t hu
  | heartbeatSend d t => exact execHeartbeatSend_kept d t hu
  | heartbeat d position t => exact execHeartbeat_kept d position t hu
  | heartbeatExpiry d position t fit => exact execHeartbeatExpiry_kept d position t fit hu
  | memberStop d position t fit => exact execMemberStop_kept d position t fit hu
  | linkFailureReport d position peer t fit => exact execLinkFailureReport_kept d position peer t fit hu
  | cloneFetchRequest d member ask t => exact execCloneFetchRequest_kept d member ask t hu
  | cloneLeafArrival d unit t => exact execCloneLeafArrival_kept d unit t hu
  | cloneDone d position member t => exact execCloneDone_kept d position member t hu
  | spareWaitExpiry d t => exact execSpareWaitExpiry_kept d t hu
  | agreedCopyDone d t => exact execAgreedCopyDone_kept d t hu
  | exportGo actor t => exact execExportGo_kept actor t hu
  | exportAbort actor t => exact execExportAbort_kept actor t hu
  | exportDone t => exact execExportDone_kept t hu
  | peerDone t => exact execPeerDone_kept t hu
  | pinExpired t => exact execPinExpired_kept t hu
  | hostLinkUp p gt64 x8 flit256 t => exact execHostLinkUp_kept p gt64 x8 flit256 t hu
  | hostLinkDown p t => exact execHostLinkDown_kept p t hu
  | haTrainingTimeout t => exact execHaTrainingTimeout_kept t hu
  | failoverReq p t => exact execFailoverReq_kept p t hu
  | failoverDelayExpiry t => exact execFailoverDelayExpiry_kept t hu
  | windowRead p offset lines => exact execWindowRead_kept p offset lines hu
  | windowWrite p => exact execWindowWrite_kept p hu
  | h2dSnoop p => exact execH2dSnoop_kept p hu
  | linkLock p t => exact execLinkLock_kept p t hu
  | portTrainingTimeout p t => exact execPortTrainingTimeout_kept p t hu
  | attestTimeout p t => exact execAttestTimeout_kept p t hu
  | portBackoffExpiry p t => exact execPortBackoffExpiry_kept p t hu
  | ident f => exact execIdent_kept f hu
  | attestFrame f => exact execAttestFrame_kept f hu
  | ack f => exact execAck_kept f hu
  | replayTimeout p t => exact execReplayTimeout_kept p t hu
  | fecUncorrectable p t => exact execFecUncorrectable_kept p t hu
  | timebaseFrame f stamp => exact execTimebaseFrame_kept f stamp hu
  | timebaseExchange par t1 t2 t3 t4 t => exact execTimebaseExchange_kept par t1 t2 t3 t4 t hu
  | timeUnsync t => exact execTimeUnsync_kept t hu
  | controlFrame f told fit => exact execControlFrame_kept f told fit hu
  | doorFrame f x cyc => exact execDoorFrame_kept f x cyc hu
  | reductionFrame f => exact execReductionFrame_kept f hu
  | bulkFrame f => exact execBulkFrame_kept f hu
  | membership member state boot serial runtime t fit => exact execMembership_kept member state boot serial runtime t fit hu
  | dramRead addr n hits => exact execDramRead_kept addr n hits hu
  | dramWrite addr data hits => exact execDramWrite_kept addr data hits hu
  | patrolScrub ch hits t => exact execPatrolScrub_kept ch hits t hu
  | dimmTemperatureRead ch temp t => exact execDimmTemperatureRead_kept ch temp t hu
  | getVersion a => exact execGetVersion_kept a hu
  | getDeviceInfo a => exact execGetDeviceInfo_kept a hu
  | bind a => exact execBind_kept a hu
  | unbind a => exact execUnbind_kept a hu
  | imageLoad a => exact execImageLoad_kept a hu
  | runtimeHandover a => exact execRuntimeHandover_kept a hu
  | flashWrite a => exact execFlashWrite_kept a hu
  | svnRaise a => exact execSvnRaise_kept a hu
  | attest a => exact execAttest_kept a hu
  | memberSet a => exact execMemberSet_kept a hu
  | spareSet a => exact execSpareSet_kept a hu
  | groupSet a => exact execGroupSet_kept a hu
  | queueCreate a => exact execQueueCreate_kept a hu
  | queueDestroy a => exact execQueueDestroy_kept a hu
  | queueRingSet a => exact execQueueRingSet_kept a hu
  | queueStop a => exact execQueueStop_kept a hu
  | queueResume a => exact execQueueResume_kept a hu
  | queueQuery a => exact execQueueQuery_kept a hu
  | contextCreate a => exact execContextCreate_kept a hu
  | contextDestroy a => exact execContextDestroy_kept a hu
  | placementWrite a => exact execPlacementWrite_kept a hu
  | domainSet a => exact execDomainSet_kept a hu
  | upbSubmit a => exact execUpbSubmit_kept a hu
  | retainSet a => exact execRetainSet_kept a hu
  | baseLoad a => exact execBaseLoad_kept a hu
  | exportReq a => exact execExportReq_kept a hu
  | cellarRestore a => exact execCellarRestore_kept a hu
  | channelRetire a => exact execChannelRetire_kept a hu
  | logRead a => exact execLogRead_kept a hu
  | lifecycleSet a => exact execLifecycleSet_kept a hu
  | unlistedOpcodeRequest bytes dma t => exact execUnlistedOpcodeRequest_kept bytes dma t hu
  | rspHeadWrite v t => exact execRspHeadWrite_kept v t hu
  | evtHeadWrite v t => exact execEvtHeadWrite_kept v t hu
  | queueDoorbell q v entries t => exact execQueueDoorbell_kept q v entries t hu
  | unitStart t => exact execUnitStart_kept t hu
  | runComplete q t => exact execRunComplete_kept q t hu
  | queueFault q t => exact execQueueFault_kept q t hu
  | handoverBegin t => exact execHandoverBegin_kept t hu
  | wdtKick n t => exact execWdtKick_kept n t hu
  | watchdogExpiry n copyOk t => exact execWatchdogExpiry_kept n copyOk t hu
  | cpRestartComplete n t => exact execCpRestartComplete_kept n t hu
  | escalationWindowExpiry t => exact execEscalationWindowExpiry_kept t hu
  | hostLossTimeout t => exact execHostLossTimeout_kept t hu
  | holdRunLimit t => exact execHoldRunLimit_kept t hu
  | hostLoadWaitExpiry t => exact execHostLoadWaitExpiry_kept t hu
  | vinSample mv t => exact execVinSample_kept mv t hu
  | railFault dimm n t => exact execRailFault_kept dimm n t hu
  | breakerPowerTick p10us p10ms t => exact execBreakerPowerTick_kept p10us p10ms t hu
  | breakerThermalTick temps t => exact execBreakerThermalTick_kept temps t hu
  | breakerLimitWrite actor l v => exact execBreakerLimitWrite_kept actor l v hu
  | cp2Live actor t => exact execCp2Live_kept actor t hu
  | cp2LiveExpiry t => exact execCp2LiveExpiry_kept t hu
  | freqApply actor n t => exact execFreqApply_kept actor n t hu
  | freqChangeDone n t => exact execFreqChangeDone_kept n t hu
  | domainRequest actor dom v t => exact execDomainRequest_kept actor dom v t hu
  | domainTransitionEnd dom t => exact execDomainTransitionEnd_kept dom t hu
  | pwrDomainTimeout dom t => exact execPwrDomainTimeout_kept dom t hu
  | clusterIdleTimeout c t => exact execClusterIdleTimeout_kept c t hu
  | bankRetentionTimeout c t => exact execBankRetentionTimeout_kept c t hu
  | ageingSample rs t => exact execAgeingSample_kept rs t hu
  | vSet actor n k v => exact execVSet_kept actor n k v hu
  | driftRecordDaily t => exact execDriftRecordDaily_kept t hu
  | senseNMake t => exact execSenseNMake_kept t hu
  | inputSwitchClose t => exact execInputSwitchClose_kept t hu
  | senseNOpen t => exact execSenseNOpen_kept t hu
  | perstNAssert t => exact execPerstNAssert_kept t hu
  | perstNHoldExpiry t => exact execPerstNHoldExpiry_kept t hu
  | perstNRelease t => exact execPerstNRelease_kept t hu
  | deviceStart finds => exact execDeviceStart_kept finds hu
  | cfgLock actor => exact execCfgLock_kept actor hu
  | alertPendingClear actor mask => exact execAlertPendingClear_kept actor mask hu
  | smbusByteWrite reg v => exact execSmbusByteWrite_kept reg v hu
  | wakeNPulseEnd t => exact execWakeNPulseEnd_kept t hu
  | cageRegulatorFault p t => exact execCageRegulatorFault_kept p t hu

/-- Taking the command at the front off the queue changes nothing that a sound state is about. -/
theorem sound_setPending_iff (s : State) (cs : List Instr) : State.sound { s with pending := cs } ↔ s.sound := Iff.rfl

theorem step_keeps_sound {s t : State} (h : step s = .next t) (hs : s.sound) : t.sound := by
  unfold step at h
  split at h
  case h_1 =>
    cases h
    exact (tick_kept (Kept.refl s)).sound hs
  case h_2 c cs _ => exact (exec_kept c h).sound ((sound_setPending_iff s cs).mpr hs)

theorem State.reset_tile (i : TileId) : State.reset.tile i = Tile.reset :=
  Vector.getElem_replicate i.isLt

/-! The guard of a slot (spec 02 R58). -/

theorem guard_of_decodeVec {w : BitVec 64} {op : VecOp} {f : VecF} (h : decodeVec w = .vec op f) :
    f.guard = w.extractLsb' 0 4 := by
  unfold decodeVec at h
  split at h <;> cases h
  rfl

theorem guard_of_decodeArr {w : BitVec 48} {op : ArrOp} {f : ArrF} (h : decodeArr w = .arr op f) :
    f.guard = w.extractLsb' 0 4 := by
  unfold decodeArr at h
  split at h <;> cases h
  rfl

theorem guard_of_decodeAcc {w : BitVec 48} {n m : Fin 41} {op : AccOp} {f : AccF} (h : decodeAcc w n = .acc op f m) :
    f.guard = w.extractLsb' 0 4 := by
  unfold decodeAcc at h
  split at h <;> cases h
  rfl

theorem guard_of_decodeMsg {w : BitVec 40} {op : MsgOp} {f : MsgF} (h : decodeMsg w = .msg op f) :
    f.guard = w.extractLsb' 0 4 := by
  unfold decodeMsg at h
  split at h <;> cases h
  rfl

theorem guard_of_decodeCtl {w : BitVec 48} {op : CtlOp} {f : CtlF} (h : decodeCtl w = .ctl op f) :
    f.guard = w.extractLsb' 0 4 := by
  unfold decodeCtl at h
  split at h <;> cases h
  rfl

/-- Bits 2:0 of a guard name the predicate register, and bit 3 inverts its test. -/
theorem guardLane_eq_xor (t : Tile) {g : BitVec 4} {n : Fin 8} (hn : g.toNat % 8 = n.val) (l : Fin 128) :
    guardLane t g l = ((t.p[n])[l] ^^ g[3]) := by
  have hreg : (g.extractLsb' 0 3).toFin = n := Fin.ext ((BitVec.extractLsb'_toNat 0 3 g).trans hn)
  subst hreg
  rfl

theorem Tile.land_p0 (t : Tile) (mask val : Lanes) : t.land (.p 0#3 mask val) = t := by
  simp only [Tile.land, if_true]

theorem Tile.sound.p0_lane {t : Tile} (h : t.sound) (l : Fin 128) : (t.p[0])[l] = true := by
  rw [h.1]
  exact BitVec.getElem_allOnes l l.isLt

theorem Tile.sound.guardLane_zero {t : Tile} (h : t.sound) (l : Fin 128) : guardLane t 0#4 l = true := by
  have hp0 : (t.p[(0 : Fin 8)])[l] = true := h.p0_lane l
  rw [guardLane_eq_xor t (n := 0) rfl l, hp0]
  rfl

/-- A guard of 0000 is unconditional, in whichever slot it stands. -/
theorem Tile.sound.acts_of_guard_zero {t : Tile} (h : t.sound) {o : SlotOp} (ho : o.guard = 0#4) : o.acts t = true := by
  have hslot : guardSlot t o.guard = true := ho ▸ h.guardLane_zero 0
  cases o with
  | vec op f => rfl
  | arr op f => exact hslot
  | acc op f w => exact hslot
  | msg op f => exact hslot
  | ctl op f => exact hslot
  | bad n => exact hslot

/-- Settles O56: each decoder takes the guard from bits 3:0, and P0 is all ones in every sound tile, as at reset and after
every step. -/
theorem guardsAndP0 : Obligations.GuardsAndP0 := by
  unfold Obligations.GuardsAndP0
  refine ⟨fun _ _ _ => guard_of_decodeVec, fun _ _ _ => guard_of_decodeArr, fun _ _ _ _ => guard_of_decodeAcc,
    fun _ _ _ => guard_of_decodeMsg, fun _ _ _ => guard_of_decodeCtl, fun t _ _ l hn => guardLane_eq_xor t hn l,
    Tile.land_p0, fun t ht => ?sound, fun i => ?reset, fun s t hstep hs => ?step⟩
  case sound => exact ⟨ht.p0_lane, ht.guardLane_zero, fun _ => ht.acts_of_guard_zero⟩
  case reset => exact State.reset_tile i ▸ Tile.sound_reset
  case step => exact (step_keeps_sound hstep hs).2

end Sys2Proof.Machine
end

section
namespace Sys2Proof.Machine

set_option Elab.async false

/-! Places of fields: the page frames of BAR0 are multiples of 4 KiB, so that fields at different bits of their pages never
share a key, whatever their instances (spec 14 R543). -/

/-- The bit of its page at which entry `i` of a field begins. -/
def Fld.bitOnPage (f : Fld) (i : Nat) : Nat := 8 * (f.off + f.step * (i / f.per)) + f.lsb + f.bitStep * (i % f.per)

theorem blockBase_mod_page (ty i : Nat) : blockBase ty i % 0x1000 = 0 := by
  unfold blockBase
  split <;> omega

theorem Fld.key_mod_page (f : Fld) (inst i : Nat) : f.key inst i % 0x8000 = f.bitOnPage i % 0x8000 := by
  have hbase := blockBase_mod_page f.ty inst
  simp only [Fld.key, Fld.bitOnPage]
  omega

theorem Fld.key_ne_of_bitOnPage {f g : Fld} {i k : Nat} (h : f.bitOnPage i % 0x8000 ≠ g.bitOnPage k % 0x8000)
    (inst inst' : Nat) : f.key inst i ≠ g.key inst' k := by
  intro hkey
  rw [← f.key_mod_page inst i, ← g.key_mod_page inst' k, hkey] at h
  exact h rfl

@[simp] theorem bitOnPage_intStatus (ty pg : Nat) : (Hdr.INT_STATUS ty pg).bitOnPage 0 = 0x80 := by
  simp [Fld.bitOnPage, Hdr.INT_STATUS]
@[simp] theorem bitOnPage_intEnable (ty pg : Nat) : (Hdr.INT_ENABLE ty pg).bitOnPage 0 = 0xA0 := by
  simp [Fld.bitOnPage, Hdr.INT_ENABLE]
@[simp] theorem bitOnPage_errCode (ty pg : Nat) : (Hdr.ERR_CODE ty pg).bitOnPage 0 = 0xE0 := by
  simp [Fld.bitOnPage, Hdr.ERR_CODE]
@[simp] theorem bitOnPage_errInfo0 (ty pg : Nat) : (Hdr.ERR_INFO0 ty pg).bitOnPage 0 = 0x100 := by
  simp [Fld.bitOnPage, Hdr.ERR_INFO0]
@[simp] theorem bitOnPage_errInfo1 (ty pg : Nat) : (Hdr.ERR_INFO1 ty pg).bitOnPage 0 = 0x120 := by
  simp [Fld.bitOnPage, Hdr.ERR_INFO1]
@[simp] theorem bitOnPage_perfCount (ty : Nat) : (Hdr.PERF_COUNT ty).bitOnPage 0 = 0x160 := by
  simp [Fld.bitOnPage, Hdr.PERF_COUNT]
@[simp] theorem bitOnPage_hpRole : Reg.HP_ROLE.bitOnPage 0 = 0x800 := rfl

/-- The CUR fields begin at bit 2 of their words. -/
theorem bitOnPage_pseqCur (d : Nat) : Reg.PSEQ_CUR.bitOnPage d = 32 * d + 0x802 := by
  simp [Fld.bitOnPage, Reg.PSEQ_CUR]
  omega

/-! What decides whether BAR0 serves an access: the supply, the host ports' roles and the power domains. -/

/-- The states serve the same accesses of the same pages (spec 14 R538, R554). -/
def SameServing (s t : State) : Prop :=
  t.power = s.power ∧ (∀ p, t.getF Reg.HP_ROLE p 0 = s.getF Reg.HP_ROLE p 0) ∧ ∀ d, domCur t d = domCur s d

namespace SameServing

theorem refl (s : State) : SameServing s s := ⟨rfl, fun _ => rfl, fun _ => rfl⟩

theorem trans {s t u : State} (hst : SameServing s t) (htu : SameServing t u) : SameServing s u := by
  obtain ⟨hpower, hrole, hdom⟩ := hst
  obtain ⟨hpower', hrole', hdom'⟩ := htu
  exact ⟨hpower'.trans hpower, fun p => (hrole' p).trans (hrole p), fun d => (hdom' d).trans (hdom d)⟩

/-- A store in a whole word of a header, below the fields of the block. -/
theorem setF_header (s : State) {f : Fld} (inst v : Nat) (hlow : f.bitOnPage 0 < 0x800) (hword : f.bitOnPage 0 % 32 = 0) :
    SameServing s (s.setF f inst 0 v) := by
  refine ⟨rfl, fun p => State.getF_setF_ne s v (Fld.key_ne_of_bitOnPage ?_ inst p),
    fun d => State.getF_setF_ne s v (Fld.key_ne_of_bitOnPage ?_ inst 0)⟩
  · rw [bitOnPage_hpRole]
    omega
  · rw [bitOnPage_pseqCur]
    omega

theorem useFree (s : State) : SameServing s s.useFree := ⟨rfl, fun _ => rfl, fun _ => rfl⟩

theorem countAccess (s : State) (ty inst pg : Nat) : SameServing s (countAccess s ty inst pg) := by
  unfold Machine.countAccess
  split
  · exact setF_header s inst _ (by simp) (by simp)
  · exact refl s

theorem settlePerf (s : State) (ty inst : Nat) : SameServing s (settlePerf s ty inst) := by
  unfold Machine.settlePerf
  dsimp only
  split
  · exact (setF_header s inst _ (by simp) (by simp)).trans (useFree _)
  · exact refl s

/-- A read of the parts of a word changes the latches alone. -/
theorem readParts (s : State) (a : Actor) (ty inst pg off : Nat) : SameServing s (readParts s a ty inst pg off).1 := by
  unfold Machine.readParts
  refine List.foldlRecOn (motive := fun x : State × Nat => SameServing s x.1) _ _ (refl s) fun x hx p _ => ?_
  dsimp only
  split
  · exact hx
  split
  · exact hx
  · exact hx

theorem readWord (s : State) (a : Actor) (ty inst pg off : Nat) : SameServing s (readWord s a ty inst pg off).1 := by
  unfold Machine.readWord
  dsimp only
  split
  · exact refl s
  split
  · exact refl s
  split
  · refine .trans ?_ ((readParts _ a ty inst pg off).trans (countAccess _ ty inst pg))
    split
    · exact settlePerf s ty inst
    · exact refl s
  split
  · exact readParts s a ty inst pg off
  · exact refl s

theorem barRead4 (s : State) (a : Actor) (addr : Nat) : SameServing s (barRead4 s a addr).1 := by
  unfold Machine.barRead4
  split
  · split
    · exact useFree s
    · exact refl s
  · exact readWord s a _ _ _ _

theorem reaches_eq {s t : State} (h : SameServing s t) (a : Actor) : reaches t a = reaches s a := by
  obtain ⟨hpower, hrole, -⟩ := h
  simp only [reaches, hostActive, hpRole, hpower, hrole]

theorem pageOn_eq {s t : State} (h : SameServing s t) (ty inst : Nat) : pageOn t ty inst = pageOn s ty inst := by
  obtain ⟨hpower, -, hdom⟩ := h
  simp only [pageOn, hpower, hdom]

end SameServing

/-! A read looks at nothing of the last reply, and leaves it as it was. -/

theorem fieldValue_setReply (s : State) (r : Reply) (f : Fld) (inst idx : Nat) :
    fieldValue { s with reply := r } f inst idx = fieldValue s f inst idx := rfl

theorem getF_setReply (s : State) (r : Reply) (f : Fld) (inst i : Nat) :
    State.getF { s with reply := r } f inst i = s.getF f inst i := rfl

theorem settlePerf_setReply (s : State) (r : Reply) (ty inst : Nat) :
    settlePerf { s with reply := r } ty inst = { settlePerf s ty inst with reply := r } := by
  simp only [settlePerf, getF_setReply]
  split
  case isTrue h => exact if_pos h
  case isFalse h => exact if_neg h

theorem countAccess_setReply (s : State) (r : Reply) (ty inst pg : Nat) :
    countAccess { s with reply := r } ty inst pg = { countAccess s ty inst pg with reply := r } := by
  simp only [countAccess, getF_setReply]
  split
  case isTrue h => exact if_pos h
  case isFalse h => exact if_neg h

/-- What a read answers, in the state with another reply. -/
def withReply (r : Reply) (x : State × Nat) : State × Nat := ({ x.1 with reply := r }, x.2)

theorem readParts_setReply (s : State) (r : Reply) (a : Actor) (ty inst pg off : Nat) :
    readParts { s with reply := r } a ty inst pg off = withReply r (readParts s a ty inst pg off) := by
  unfold readParts
  refine List.foldl_hom (withReply r) (init := (s, 0)) fun x p => ?_
  dsimp only [fieldValue_setReply]
  split
  · rfl
  split
  · rfl
  · rfl

theorem readWord_setReply (s : State) (r : Reply) (a : Actor) (ty inst pg off : Nat) :
    readWord { s with reply := r } a ty inst pg off = withReply r (readWord s a ty inst pg off) := by
  unfold readWord
  dsimp only
  have hon : pageOn { s with reply := r } ty inst = pageOn s ty inst := rfl
  rw [hon]
  split
  · rfl
  split
  · rfl
  split
  · split
    · rw [settlePerf_setReply, readParts_setReply]
      exact Prod.ext (countAccess_setReply _ r ty inst pg) rfl
    · rw [readParts_setReply]
      exact Prod.ext (countAccess_setReply _ r ty inst pg) rfl
  split
  · exact readParts_setReply s r a ty inst pg off
  · rfl

theorem barRead4_setReply (s : State) (r : Reply) (a : Actor) (addr : Nat) :
    barRead4 { s with reply := r } a addr = withReply r (barRead4 s a addr) := by
  unfold barRead4
  split
  · split
    · rfl
    · rfl
  · exact readWord_setReply s r a _ _ _ _

/-! Accesses that BAR0 accepts (spec 14 R538). -/

theorem validAccess_iff (addr n : Nat) :
    validAccess addr n = true ↔ (n = 4 ∧ addr % 4 = 0) ∨ (n = 8 ∧ addr % 8 = 0) := by
  simp [validAccess]

theorem validAccess_eq_aligned (addr : Nat) (wide : Bool) :
    validAccess addr (if wide then 8 else 4) = decide (addr % (if wide then 8 else 4) = 0) := by
  rw [Bool.eq_iff_iff, validAccess_iff, decide_eq_true_iff]
  cases wide with
  | false => simp
  | true => simp

theorem exec_registerWrite (s : State) (a : Actor) (addr : BitVec 26) (wide : Bool) (v : Word64) :
    exec (.registerWrite a addr wide v) s = .next (if addr.toNat % (if wide then 8 else 4) = 0 then
      registerWrite s a addr.toNat wide v.toNat else invalidAccess s a (if wide then 8 else 4) true) := by
  change execRegisterWrite a addr wide v s = _
  simp only [execRegisterWrite, validAccess_eq_aligned, decide_eq_true_eq]

theorem exec_latchingRead (s : State) (a : Actor) (addr : BitVec 26) (wide : Bool) :
    exec (.latchingRead a addr wide) s = .next (if addr.toNat % (if wide then 8 else 4) = 0 then
      registerRead s a addr.toNat wide else invalidAccess s a (if wide then 8 else 4) false) := by
  change execLatchingRead a addr wide s = _
  simp only [execLatchingRead, validAccess_eq_aligned, decide_eq_true_eq]

theorem exec_bar0InvalidAccess (s : State) (a : Actor) (addr : BitVec 26) (n : Fin 65) (write : Bool) :
    exec (.bar0InvalidAccess a addr n write) s =
      if validAccess addr.toNat n.val then .refused (.illFormed "an access of a size and alignment that BAR0 accepts")
      else .next (invalidAccess s a n.val write) := rfl

theorem registerWrite_narrow {s : State} {a : Actor} (h : reaches s a = true) (addr v : Nat) :
    registerWrite s a addr false v = barWrite4 s a addr v := by
  simp [registerWrite, h]

/-- A write of 8 bytes is a write of the low word and then one of the high word, which still reaches the device. -/
theorem registerWrite_wide {s : State} {a : Actor} {addr v : Nat} (h : reaches s a = true)
    (hnext : reaches (registerWrite s a addr false v) a = true) :
    registerWrite s a addr true v = registerWrite (registerWrite s a addr false v) a (addr + 4) false (v / 2 ^ 32) := by
  rw [registerWrite_narrow hnext, registerWrite_narrow h]
  simp [registerWrite, h]

theorem registerRead_narrow {s : State} {a : Actor} (h : reaches s a = true) (addr : Nat) :
    registerRead s a addr false = { (barRead4 s a addr).1 with reply := ⟨toLe 4 (barRead4 s a addr).2, 0⟩ } := by
  simp [registerRead, h]

theorem length_toLe (n v : Nat) : (toLe n v).length = n := by
  induction n generalizing v with
  | zero => rfl
  | succ n ih => simp [toLe, ih]

/-- The first of two reads lets the second reach the device. -/
theorem reaches_registerRead_narrow {s : State} {a : Actor} (h : reaches s a = true) (addr : Nat) :
    reaches (registerRead s a addr false) a = true := by
  rw [registerRead_narrow h]
  exact ((SameServing.barRead4 s a addr).reaches_eq a).trans h

/-- A read of 8 bytes is a read of the low word and then one of the high word, and answers both. -/
theorem registerRead_wide {s : State} {a : Actor} (h : reaches s a = true) (addr : Nat) :
    registerRead s a addr true =
      let u := registerRead s a addr false
      let w := registerRead u a (addr + 4) false
      { w with reply := ⟨u.reply.data ++ w.reply.data, 0⟩ } := by
  dsimp only
  rw [registerRead_narrow (reaches_registerRead_narrow h addr), registerRead_narrow h, barRead4_setReply]
  simp [registerRead, h, withReply]

theorem toNat_add_four {addr : BitVec 26} (h : addr.toNat % 8 = 0) : (addr + 4#26).toNat = addr.toNat + 4 := by
  bv_omega

/-! Accesses of another size or alignment (spec 14 R538). -/

section InvalidAccess
variable {s : State} {a : Actor} (h : reaches s a = true) (n : Nat) (write : Bool)
include h

theorem invalidAccess_eq : invalidAccess s a n write =
    { s.countF Reg.SEC_ACCESS_ERRORS 0 0 1 with reply := ⟨if write then [] else List.replicate n 0#8, 0⟩ } := by
  simp [invalidAccess, h, zeros]

theorem invalidAccess_counts : (invalidAccess s a n write).getF Reg.SEC_ACCESS_ERRORS 0 0 =
    min (s.getF Reg.SEC_ACCESS_ERRORS 0 0 + 1) (2 ^ 32 - 1) := by
  rw [invalidAccess_eq h]
  exact State.getF_countF_same s Reg.SEC_ACCESS_ERRORS 0 0 1

theorem getF_invalidAccess_ne {g : Fld} {i k : Nat} (hne : g.key i k ≠ Reg.SEC_ACCESS_ERRORS.key 0 0) :
    (invalidAccess s a n write).getF g i k = s.getF g i k := by
  rw [invalidAccess_eq h]
  exact State.getF_countF_ne s 1 hne.symm

end InvalidAccess

/-- Settles O57: an access of 8 bytes is two of 4, since a read keeps what BAR0 serves and sees nothing of the last reply; every
other access only counts. -/
theorem accessSizes : Obligations.AccessSizes := by
  unfold Obligations.AccessSizes
  refine fun s a hs => ⟨fun addr v haddr u hu hus => ?write, fun addr haddr u w hu hw => ?read,
    fun addr n write => ⟨fun hvalid => ?valid, fun hinvalid => ?invalid⟩, fun addr wide v haddr => ?unaligned⟩
  case write =>
    have hlow : addr.toNat % 4 = 0 := by omega
    have hhigh : (addr.toNat + 4) % 4 = 0 := by omega
    simp only [exec_registerWrite, toNat_add_four haddr, haddr, hlow, hhigh, if_true, Bool.false_eq_true, if_false,
      Host.Outcome.next.injEq] at hu ⊢
    subst hu
    rw [registerWrite_wide hs hus, BitVec.toNat_ushiftRight, Nat.shiftRight_eq_div_pow]
  case read =>
    have hlow : addr.toNat % 4 = 0 := by omega
    have hhigh : (addr.toNat + 4) % 4 = 0 := by omega
    simp only [exec_latchingRead, toNat_add_four haddr, haddr, hlow, hhigh, if_true, Bool.false_eq_true, if_false,
      Host.Outcome.next.injEq] at hu hw ⊢
    subst hu hw
    refine ⟨_, rfl, ?_, ?_, ?_, ?_⟩
    · rw [registerRead_wide hs]
    · rw [registerRead_narrow hs]
      exact length_toLe 4 _
    · rw [registerRead_narrow (reaches_registerRead_narrow hs addr.toNat)]
      exact length_toLe 4 _
    · rw [registerRead_wide hs]
  case valid => rw [exec_bar0InvalidAccess, if_pos ((validAccess_iff _ _).mpr hvalid)]
  case invalid =>
    rw [exec_bar0InvalidAccess, if_neg (mt (validAccess_iff _ _).mp hinvalid)]
    refine ⟨_, rfl, ?_, invalidAccess_counts hs n write, fun g i k => getF_invalidAccess_ne hs n write, ?_⟩
    · rw [invalidAccess_eq hs]
    · rw [invalidAccess_eq hs]
      rfl
  case unaligned =>
    rw [exec_registerWrite, exec_latchingRead, if_neg haddr, if_neg haddr]
    refine ⟨_, _, rfl, rfl, ?_, ?_, invalidAccess_counts hs _ true, fun g i k => getF_invalidAccess_ne hs _ true⟩
    · rw [invalidAccess_eq hs]
      rfl
    · rw [invalidAccess_eq hs, invalidAccess_eq hs]
      rfl

end Sys2Proof.Machine
end

section
namespace Sys2Proof.Machine

set_option Elab.async false

/-! INT_FORCE (spec 14 R549). -/

theorem bit_eq_testBit (v i : Nat) : bit v i = v.testBit i := by
  rw [bit, Nat.testBit_eq_decide_div_mod_eq]
  rfl

/-- A bit that is set and enabled on page 0, or on page 5 of a tile, asks for the interrupt (spec 14 R556). -/
theorem pageIrq_of_bit {s : State} {ty pg inst b : Nat} (hpg : pg = 0 ∨ ty = 1 ∧ pg = 5)
    (hset : bit (s.getF (Hdr.INT_STATUS ty pg) inst 0) b = true) (hen : bit (s.getF (Hdr.INT_ENABLE ty pg) inst 0) b = true) :
    pageIrq s ty inst = true := by
  rw [bit_eq_testBit] at hset hen
  have hline : s.getF (Hdr.INT_STATUS ty pg) inst 0 &&& s.getF (Hdr.INT_ENABLE ty pg) inst 0 ≠ 0 := by
    intro hzero
    have hbit := Nat.testBit_and (s.getF (Hdr.INT_STATUS ty pg) inst 0) (s.getF (Hdr.INT_ENABLE ty pg) inst 0) b
    simp [hzero, hset, hen] at hbit
  obtain rfl | ⟨rfl, rfl⟩ := hpg
  · simp [pageIrq, hline]
  · simp [pageIrq, hline]

theorem getF_countAccess_ne (s : State) (ty inst pg : Nat) {g : Fld} {i k : Nat} (h : g.bitOnPage k % 0x8000 ≠ 0x160) :
    (countAccess s ty inst pg).getF g i k = s.getF g i k := by
  unfold countAccess
  split
  · refine State.getF_countF_ne s 1 (Fld.key_ne_of_bitOnPage ?_ inst i)
    rw [bitOnPage_perfCount]
    exact h.symm
  · rfl

theorem getF_forceInt_ne (s : State) (ty pg inst v : Nat) {g : Fld} {i k : Nat} (h : g.bitOnPage k % 0x8000 ≠ 0x80) :
    (forceInt s ty pg inst v).getF g i k = s.getF g i k := by
  refine State.getF_setF_ne s _ (Fld.key_ne_of_bitOnPage ?_ inst i)
  rw [bitOnPage_intStatus]
  exact h.symm

/-- The bits of INT_STATUS after a force: those that were set, and those forced that the page has. -/
theorem bit_forceInt (s : State) (ty pg inst v : Nat) {b : Nat} (hb : b < 32) :
    bit ((forceInt s ty pg inst v).getF (Hdr.INT_STATUS ty pg) inst 0) b =
      (bit (s.getF (Hdr.INT_STATUS ty pg) inst 0) b || (decide (b < intBits ty pg inst) && bit v b)) := by
  have hwidth : b < (Hdr.INT_STATUS ty pg).width := hb
  simp only [forceInt, State.getF_setF_same, bit_eq_testBit, Nat.testBit_mod_two_pow, Nat.testBit_or, hwidth, decide_true,
    Bool.true_and]

theorem exec_intForce {s : State} {a : Actor} {ty inst pg : Nat} (mask : Word) (hinst : inst < blockInstances ty)
    (hs : reaches s a = true) (htakes : pageTakes s a ty inst = true) (hpg : pg = 0 ∨ ty = 1 ∧ pg = 5) :
    exec (.intForce a ty inst pg mask) s = .next (forceInt (countAccess s ty inst pg) ty pg inst mask.toNat) := by
  change execIntForce a ty inst pg mask s = _
  rw [execIntForce, headerCommand, if_pos ⟨hinst, hs, htakes, hpg⟩]

theorem SameServing.forceInt (s : State) (ty pg inst v : Nat) : SameServing s (forceInt s ty pg inst v) :=
  setF_header s inst _ (by simp) (by simp)

/-! INT_FORCE reads 0: it is alone in its word, and shows no state. -/

/-- The fields of a block lie past the common header (spec 14 R545). -/
theorem pageFields_off (ty inst pg : Nat) : ∀ f ∈ pageFields ty inst pg, 0x100 ≤ f.off := by
  unfold pageFields
  split
  case h_10 => split <;> decide
  all_goals decide

theorem Fld.parts_eq_nil_of_lt {f : Fld} {off : Nat} (h : off < f.off) : f.parts off = [] := by
  refine List.filterMap_eq_nil_iff.mpr fun i _ => if_pos (.inl ?_)
  omega

theorem pageParts_intForce (inst : Nat) {ty pg : Nat} (hpg : pg = 0 ∨ ty = 1 ∧ pg = 5) :
    pageParts ty inst pg 0x18 = [{ f := Hdr.INT_FORCE ty pg, idx := 0, lsb := 0, from_ := 0, width := 32 }] := by
  have hfields : (pageFields ty inst pg).flatMap (fun f => f.parts 0x18) = [] := by
    refine List.flatMap_eq_nil_iff.mpr fun f hf => Fld.parts_eq_nil_of_lt ?_
    have := pageFields_off ty inst pg f hf
    omega
  rw [pageParts, allFields, List.flatMap_append, hfields, List.append_nil]
  obtain rfl | ⟨rfl, rfl⟩ := hpg
  · simp [hdrFields, Fld.parts, Hdr.ENABLE, Hdr.SOFT_RESET, Hdr.FREEZE, Hdr.READY, Hdr.BUSY, Hdr.FROZEN, Hdr.ERROR,
      Hdr.INT_STATUS, Hdr.INT_ENABLE, Hdr.INT_FORCE, Hdr.ERR_CODE, Hdr.ERR_INFO0, Hdr.ERR_INFO1, Hdr.PERF_EVENT,
      Hdr.PERF_CLEAR, Hdr.PERF_COUNT]
  · rfl

theorem fieldValue_intForce (s : State) (ty pg inst : Nat) : fieldValue s (Hdr.INT_FORCE ty pg) inst 0 = 0 := by
  simp [fieldValue, Hdr.INT_FORCE, Hdr.READY, Hdr.BUSY, Hdr.FROZEN, Hdr.ERROR]

theorem readWord_intForce {s : State} (a : Actor) {ty inst pg : Nat} (hpg : pg = 0 ∨ ty = 1 ∧ pg = 5)
    (hon : pageOn s ty inst = true) : (readWord s a ty inst pg 0x18).2 = 0 := by
  have hlatch : (Hdr.INT_FORCE ty pg).latch = false := rfl
  simp [readWord, hon, readParts, pageParts_intForce inst hpg, fieldValue_intForce, hlatch]

theorem latchingRead_intForce {s : State} {a : Actor} {ty inst pg : Nat} {addr : BitVec 26} (hs : reaches s a = true)
    (hon : pageOn s ty inst = true) (hpg : pg = 0 ∨ ty = 1 ∧ pg = 5) (haddr : addr.toNat % 4 = 0)
    (hplace : regPlace addr.toNat = some ⟨ty, inst, pg, 0x18⟩) :
    ∃ w, exec (.latchingRead a addr false) s = .next w ∧ w.reply = { data := [0#8, 0#8, 0#8, 0#8], err := 0 } := by
  have hvalue : (barRead4 s a addr.toNat).2 = 0 := by
    simp only [barRead4, hplace, readWord_intForce a hpg hon]
  refine ⟨registerRead s a addr.toNat false, ?_, ?_⟩
  · rw [exec_latchingRead]
    exact congrArg _ (if_pos haddr)
  · rw [registerRead_narrow hs, hvalue]
    rfl

/-- Settles O58: the force is one store in INT_STATUS, beside the counted access; INT_FORCE holds nothing that could be read. -/
theorem forcedInterrupts : Obligations.ForcedInterrupts := by
  unfold Obligations.ForcedInterrupts
  intro s a ty inst pg mask hinst hs htakes hpg
  have hkeeps {g : Fld} (hcount : g.bitOnPage 0 % 0x8000 ≠ 0x160) (hstatus : g.bitOnPage 0 % 0x8000 ≠ 0x80) :
      (forceInt (countAccess s ty inst pg) ty pg inst mask.toNat).getF g inst 0 = s.getF g inst 0 :=
    (getF_forceInt_ne _ ty pg inst mask.toNat hstatus).trans (getF_countAccess_ne s ty inst pg hcount)
  have hbit (b : Fin 32) : bit ((forceInt (countAccess s ty inst pg) ty pg inst mask.toNat).getF (Hdr.INT_STATUS ty pg) inst 0) b =
      (bit (s.getF (Hdr.INT_STATUS ty pg) inst 0) b || (decide (b.val < intBits ty pg inst) && mask[b])) := by
    rw [bit_forceInt _ ty pg inst _ b.isLt, getF_countAccess_ne s ty inst pg (by simp), bit_eq_testBit mask.toNat]
    rfl
  refine ⟨_, exec_intForce mask hinst hs htakes hpg, fun b hb hmask => ?forced, fun b hmask => ?others,
    hkeeps (by simp) (by simp), hkeeps (by simp) (by simp), hkeeps (by simp) (by simp), ?reads⟩
  case forced =>
    have hset := hbit b
    simp only [hb, hmask, decide_true, Bool.and_self, Bool.or_true] at hset
    refine ⟨hset, fun hen => pageIrq_of_bit hpg hset ?_⟩
    rw [hkeeps (by simp) (by simp)]
    exact hen
  case others => rw [hbit, hmask, Bool.and_false, Bool.or_false]
  case reads =>
    rintro addr ⟨ty, inst, pg, off⟩ haddr hplace rfl rfl rfl rfl
    have hserves : SameServing s (forceInt (countAccess s ty inst pg) ty pg inst mask.toNat) :=
      (SameServing.countAccess s ty inst pg).trans (.forceInt _ ty pg inst _)
    have hon : pageOn s ty inst = true := (Bool.and_eq_true_iff.mp htakes).1
    exact latchingRead_intForce ((hserves.reaches_eq a).trans hs) ((hserves.pageOn_eq ty inst).trans hon) hpg haddr hplace

end Sys2Proof.Machine
end

section
namespace Sys2Proof.Machine

set_option Elab.async false

/-! O54. -/

/-- A step is a command's meaning or a tick, and either one keeps what `Kept` names. -/
theorem step_kept {s t : State} (h : step s = .next t) : ∃ cs, Kept { s with pending := cs } t := by
  unfold step at h
  split at h
  case h_1 hnone =>
    cases h
    exact ⟨s.pending, tick_kept (Kept.refl s)⟩
  case h_2 c cs _ => exact ⟨cs, exec_kept c h⟩

/-- Settles O54: by `Kept` of the tick and of every command; the queue is no part of what it is about. -/
theorem everyStepKeepsTheMachineSound : Obligations.EveryStepKeepsTheMachineSound := by
  unfold Obligations.EveryStepKeepsTheMachineSound
  intro s t h
  obtain ⟨cs, hkept⟩ := step_kept h
  exact ⟨fun hs => hkept.sound ((sound_setPending_iff s cs).mpr hs), hkept.now, hkept.fuses⟩

/-! O55. The words of slots: every field stands at its place (spec 02 Tables 2.2 to 2.8), so that a word is put together from
exactly the parts that its decoder takes. -/

theorem ofBool_getLsbD_eq_extractLsb' {n : Nat} (w : BitVec n) (k : Nat) : BitVec.ofBool (w.getLsbD k) = w.extractLsb' k 1 := by
  refine BitVec.eq_of_getLsbD_eq fun i hi => ?_
  obtain rfl : i = 0 := by omega
  simp

theorem getLsbD_append_of_le {m n : Nat} (x : BitVec m) (y : BitVec n) {k : Nat} (h : n ≤ k) :
    (x ++ y).getLsbD k = x.getLsbD (k - n) := by
  rw [BitVec.getLsbD_append, if_neg (by omega)]

theorem getLsbD_append_of_lt {m n : Nat} (x : BitVec m) (y : BitVec n) {k : Nat} (h : k < n) :
    (x ++ y).getLsbD k = y.getLsbD k := by
  rw [BitVec.getLsbD_append, if_pos h]

/-! The opcodes. -/

theorem vecOpOf_code (op : VecOp) : vecOpOf op.code = some op := by cases op <;> rfl

theorem ctlOpOf_code (op : CtlOp) : ctlOpOf op.code = some op := by cases op <;> rfl

theorem accOpOf_code (op : AccOp) : accOpOf op.code = some op := by cases op <;> rfl

theorem msgOpOf_code (op : MsgOp) : msgOpOf op.code = some op := by cases op <;> rfl

theorem arrOpOf_code (op : ArrOp) {pass : BitVec 4} (h : ∀ p, op.acfg = some p → pass = p) :
    arrOpOf (BitVec.ofNat 4 op.code) pass = some op := by
  cases op with
  | bindFeed | bindDrain | drainCfg | resetWalk =>
    obtain rfl := h _ rfl
    rfl
  | _ => rfl

theorem code_of_vecOpOf {c : BitVec 8} {op : VecOp} (h : vecOpOf c = some op) : op.code = c := by
  simpa using List.find?_some h

theorem code_of_ctlOpOf {c : BitVec 8} {op : CtlOp} (h : ctlOpOf c = some op) : op.code = c := by
  simpa using List.find?_some h

theorem code_of_accOpOf {c : BitVec 4} {op : AccOp} (h : accOpOf c = some op) : op.code = c := by
  simpa using List.find?_some h

theorem code_of_msgOpOf {c : BitVec 4} {op : MsgOp} (h : msgOpOf c = some op) : op.code = c := by
  simpa using List.find?_some h

theorem code_of_arrOpOf {c pass : BitVec 4} {op : ArrOp} (h : arrOpOf c pass = some op) : BitVec.ofNat 4 op.code = c := by
  have hcode : op.code = c.toNat := by
    unfold arrOpOf at h
    split at h
    case h_6 hc =>
      split at h <;> cases h <;> exact hc.symm
    case h_7 => cases h
    all_goals
      cases h
      exact Eq.symm ‹_›
  rw [hcode, BitVec.ofNat_toNat, BitVec.setWidth_eq]

theorem vecOpOf_eq_none {c : BitVec 8} (h : ∀ op : VecOp, op.code ≠ c) : vecOpOf c = none :=
  List.find?_eq_none.mpr fun op _ => by simpa using h op

theorem ctlOpOf_eq_none {c : BitVec 8} (h : ∀ op : CtlOp, op.code ≠ c) : ctlOpOf c = none :=
  List.find?_eq_none.mpr fun op _ => by simpa using h op

/-! From an operation to its word and back. -/

theorem decodeVec_encodeVec (op : VecOp) (f : VecF) : decodeVec (encodeVec op f) = .vec op f := by
  simp (disch := omega) only [decodeVec, encodeVec, BitVec.extractLsb'_append_eq_of_le, BitVec.extractLsb'_append_eq_of_add_le,
    Nat.reduceSub, BitVec.extractLsb'_eq_self, getLsbD_append_of_le, getLsbD_append_of_lt, BitVec.getLsbD_ofBool, vecOpOf_code]
  rfl

theorem decodeArr_encodeArr (op : ArrOp) (f : ArrF) (h : ∀ p, op.acfg = some p → f.pass = p) :
    decodeArr (encodeArr op f) = .arr op f := by
  simp (disch := omega) only [decodeArr, encodeArr, BitVec.extractLsb'_append_eq_of_le, BitVec.extractLsb'_append_eq_of_add_le,
    Nat.reduceSub, BitVec.extractLsb'_eq_self, arrOpOf_code op h]

theorem decodeAcc_encodeAcc (op : AccOp) (f : AccF) (w : Fin 41) : decodeAcc (encodeAcc op f) w = .acc op f w := by
  simp (disch := omega) only [decodeAcc, encodeAcc, BitVec.extractLsb'_append_eq_of_le, BitVec.extractLsb'_append_eq_of_add_le,
    Nat.reduceSub, BitVec.extractLsb'_eq_self, accOpOf_code]

theorem decodeMsg_encodeMsg (op : MsgOp) (f : MsgF) : decodeMsg (encodeMsg op f) = .msg op f := by
  simp (disch := omega) only [decodeMsg, encodeMsg, BitVec.extractLsb'_append_eq_of_le, BitVec.extractLsb'_append_eq_of_add_le,
    Nat.reduceSub, BitVec.extractLsb'_eq_self, msgOpOf_code]

theorem decodeCtl_encodeCtl (op : CtlOp) (f : CtlF) : decodeCtl (encodeCtl op f) = .ctl op f := by
  simp (disch := omega) only [decodeCtl, encodeCtl, BitVec.extractLsb'_append_eq_of_le, BitVec.extractLsb'_append_eq_of_add_le,
    Nat.reduceSub, BitVec.extractLsb'_eq_self, ctlOpOf_code]

/-! From a word to its operation and back. -/

theorem encodeVec_of_decodeVec {w : BitVec 64} {op : VecOp} {f : VecF} (h : decodeVec w = .vec op f) : encodeVec op f = w := by
  unfold decodeVec at h
  split at h
  case h_1 hop =>
    cases h
    simp only [encodeVec, code_of_vecOpOf hop, ofBool_getLsbD_eq_extractLsb', BitVec.extractLsb'_append_extractLsb'_eq_extractLsb',
      BitVec.extractLsb'_eq_self]
  case h_2 => cases h

theorem encodeArr_of_decodeArr {w : BitVec 48} {op : ArrOp} {f : ArrF} (h : decodeArr w = .arr op f) : encodeArr op f = w := by
  unfold decodeArr at h
  split at h
  case h_1 hop =>
    cases h
    simp only [encodeArr, code_of_arrOpOf hop, BitVec.extractLsb'_append_extractLsb'_eq_extractLsb', BitVec.extractLsb'_eq_self]
  case h_2 => cases h

theorem encodeAcc_of_decodeAcc {w : BitVec 48} {n : Fin 41} {op : AccOp} {f : AccF} (h : decodeAcc w n = .acc op f n) :
    encodeAcc op f = w := by
  unfold decodeAcc at h
  split at h
  case h_1 hop =>
    cases h
    simp only [encodeAcc, code_of_accOpOf hop, BitVec.extractLsb'_append_extractLsb'_eq_extractLsb', BitVec.extractLsb'_eq_self]
  case h_2 => cases h

theorem encodeMsg_of_decodeMsg {w : BitVec 40} {op : MsgOp} {f : MsgF} (h : decodeMsg w = .msg op f) : encodeMsg op f = w := by
  unfold decodeMsg at h
  split at h
  case h_1 hop =>
    cases h
    simp only [encodeMsg, code_of_msgOpOf hop, BitVec.extractLsb'_append_extractLsb'_eq_extractLsb', BitVec.extractLsb'_eq_self]
  case h_2 => cases h

theorem encodeCtl_of_decodeCtl {w : BitVec 48} {op : CtlOp} {f : CtlF} (h : decodeCtl w = .ctl op f) : encodeCtl op f = w := by
  unfold decodeCtl at h
  split at h
  case h_1 hop =>
    cases h
    simp only [encodeCtl, code_of_ctlOpOf hop, BitVec.extractLsb'_append_extractLsb'_eq_extractLsb', BitVec.extractLsb'_eq_self]
  case h_2 => cases h

/-! A bundle: its header byte, then its slots at their places. -/

theorem decodeBundle_encodeBundle (h : BitVec 8) (v : BitVec 64) (a c : BitVec 48) (m : BitVec 40) (k : BitVec 48) (n : Fin 41) :
    decodeBundle (encodeBundle h v a c m k) n = (h.extractLsb' 5 3,
      (if h[0] then [decodeVec v] else []) ++ (if h[1] then [decodeArr a] else []) ++ (if h[2] then [decodeAcc c n] else []) ++
      (if h[3] then [decodeMsg m] else []) ++ (if h[4] then [decodeCtl k] else [])) := by
  simp (disch := omega) only [decodeBundle, encodeBundle, BitVec.extractLsb'_append_eq_of_le, BitVec.extractLsb'_append_eq_of_add_le,
    Nat.reduceSub, BitVec.extractLsb'_eq_self, getLsbD_append_of_lt]
  rfl

/-- Settles O55: each word is the concatenation of the fields that its decoder takes, and a decoder's table lists every code once. -/
theorem bundleWordsReadBack : Obligations.BundleWordsReadBack := by
  unfold Obligations.BundleWordsReadBack
  refine ⟨decodeVec_encodeVec, decodeArr_encodeArr, decodeAcc_encodeAcc, decodeMsg_encodeMsg, decodeCtl_encodeCtl,
    fun _ _ _ => encodeVec_of_decodeVec, fun _ _ _ => encodeArr_of_decodeArr, fun _ _ _ _ => encodeAcc_of_decodeAcc,
    fun _ _ _ => encodeMsg_of_decodeMsg, fun _ _ _ => encodeCtl_of_decodeCtl, fun w hw => ?vec, fun w hw => ?ctl,
    decodeBundle_encodeBundle⟩
  case vec => rw [decodeVec, vecOpOf_eq_none hw]
  case ctl => rw [decodeCtl, ctlOpOf_eq_none hw]

end Sys2Proof.Machine
end

section
namespace Sys2Proof.Machine

set_option Elab.async false

/-! O1: a slot that is not its bundle's last. -/

theorem issueSlot_joins {s : State} {c : Issue} (hrun : (s.tile c.tile).pstate = .running)
    (hgo : (s.tile c.tile).halting = false) (hlast : c.last = false) (o : SlotOp) :
    issueSlot s c o = s.modTile c.tile (fun t =>
      { t with bundle := t.bundle.filter (fun x => x.slot != o.slot) ++ [o], hdr := t.hdr ||| c.hdr }) := by
  have hissues : ¬ ((s.tile c.tile).pstate ≠ .running ∨ (s.tile c.tile).halting) := by simp [hrun, hgo]
  simp only [issueSlot, if_neg hissues, hlast]
  rfl

/-- Settles O1: each slot's command is `issueSlot` of its operation, which only joins the bundle before the last slot. -/
theorem slotJoinsItsBundle : Obligations.SlotJoinsItsBundle := by
  unfold Obligations.SlotJoinsItsBundle
  intro s c hrun hgo hlast joins
  have hjoins (o : SlotOp) : (Host.Outcome.next (issueSlot s c o) : Host.Outcome State Fault Refusal) = .next _ :=
    congrArg _ (issueSlot_joins hrun hgo hlast o)
  exact ⟨fun op f => (exec_vecInstr c f op s).trans (hjoins _), fun op f => (exec_arrInstr c f op s).trans (hjoins _),
    fun f w => hjoins (.acc .ld f w), fun f w => hjoins (.acc .st f w), fun f => hjoins (.acc .dgo f 0),
    fun f => hjoins (.acc .dwait f 0), fun f => hjoins (.acc .fence f 0), fun op f => (exec_msgInstr c f op s).trans (hjoins _),
    fun op f => (exec_ctlInstr c f op s).trans (hjoins _)⟩

/-! O2 to O4: the vector slot. -/

theorem tile_acting (s : State) (i : TileId) (o : SlotOp) : (acting s i o).tile i =
    { s.tile i with pstate := .running, stall := some { cause := 3, ops := [o], need := 0, run := 0, also := 0 } } :=
  State.tile_modTile s i _

theorem getF_acting (s : State) (i : TileId) (o : SlotOp) (f : Fld) (inst k : Nat) :
    (acting s i o).getF f inst k = s.getF f inst k := rfl

/-- What a tile holds of its bundle is nothing that a vector result depends on. -/
theorem vecPend_acting (s : State) (i : TileId) (o : SlotOp) (sr : SrState) (op : VecOp) (f : VecF) :
    vecPend ((acting s i o).tile i) sr op f = vecPend (s.tile i) sr op f := by
  rw [tile_acting]
  rfl

theorem slotEffects_vec {s : State} {i : TileId} {op : VecOp} (f : VecF) (h : op.isTrans = false) :
    slotEffects (acting s i (.vec op f)) i [.vec op f] =
      (acting s i (.vec op f), [vecPend (s.tile i) (s.srState i) op f]) := by
  simp only [slotEffects, vecPend_acting, List.any_cons, h]
  rfl

/-- A transcendental operation also takes its unit for 4 cycles (spec 02 R71). -/
def takesTrans (s : State) (i : TileId) : State := s.modTile i (fun t => { t with transFree := t.cycle + 4 })

theorem slotEffects_trans {s : State} {i : TileId} {op : VecOp} (f : VecF) (h : op.isTrans = true) :
    slotEffects (acting s i (.vec op f)) i [.vec op f] =
      (acting (takesTrans s i) i (.vec op f), [vecPend (s.tile i) (s.srState i) op f]) := by
  have hswap : (acting s i (.vec op f)).modTile i (fun t => { t with transFree := t.cycle + 4 }) =
      acting (takesTrans s i) i (.vec op f) := by
    simp only [acting, takesTrans, State.modTile, State.tile_setTile, State.setTile_setTile]
  simp only [slotEffects, vecPend_acting, List.any_cons, h, ← hswap]
  rfl

theorem issued_vec {s : State} {c : Issue} {op : VecOp} {f : VecF} (h : Alone s c (.vec op f)) (ht : op.isTrans = false) :
    ∃ u, exec (vecInstr c f op) s = .next u ∧ Issued s u c.tile [vecPend (s.tile c.tile) (s.srState c.tile) op f] :=
  ⟨_, exec_vecInstr c f op s, issueSlot_plain h rfl rfl (fun _ _ _ e => by cases e) (slotEffects_vec f ht) h.straight rfl rfl⟩

theorem issued_trans {s : State} {c : Issue} {op : VecOp} {f : VecF} (h : Alone s c (.vec op f)) (ht : op.isTrans = true) :
    ∃ u, exec (vecInstr c f op) s = .next u ∧
      Issued (takesTrans s c.tile) u c.tile [vecPend (s.tile c.tile) (s.srState c.tile) op f] := by
  have htile : (takesTrans s c.tile).tile c.tile = { s.tile c.tile with transFree := (s.tile c.tile).cycle + 4 } :=
    State.tile_modTile s c.tile _
  exact ⟨_, exec_vecInstr c f op s, issueSlot_plain h rfl rfl (fun _ _ _ e => by cases e) (slotEffects_trans f ht)
    (by rw [htile]; exact h.straight) (by rw [htile]) rfl⟩

/-! What the vector slot puts in flight, by the kind of its operation. -/

/-- Does the operation give NUM_STATUS its FP32 results (spec 04 R585)? -/
def VecOp.counts (op : VecOp) (f : VecF) : Bool :=
  match op with
  | .add | .sub | .mul | .fma | .min | .max | .abs | .exp | .log | .rcp | .rsqrt | .rsum => true
  | .cvt => cvtSrc f != 13
  | _ => false

theorem vecPend_write (t : Tile) (sr : SrState) {op : VecOp} {f : VecF} (hcmp : op.isCmp = false)
    (hnarrow : cvtNarrows op f = false) (hsel : (op == .sel) = false) :
    vecPend t sr op f = vecWrite t f op.latency (if op.counts f then vecNum t f (vecLane t sr op f (vecRed t op f)) else 0#4)
      (vecLane t sr op f (vecRed t op f)) := by
  have hnum : (List.finRange 128).foldl (fun n l => if guardLane t f.guard l then
        n ||| numOf32 (Vector.ofFn (fun l => vecLane t sr op f (vecRed t op f) l))[l] else n) 0#4 =
      vecNum t f (vecLane t sr op f (vecRed t op f)) := by
    simp only [vecNum, Fin.getElem_fin, Vector.getElem_ofFn, Fin.eta]
  simp only [vecPend, hcmp, hnarrow, hsel, Bool.or_false, hnum, vecWrite]
  rfl

theorem vecPend_test (t : Tile) (sr : SrState) {op : VecOp} (f : VecF) (hcmp : op.isCmp = true) :
    vecPend t sr op f = vecTest t f (fun l => vecLane t sr op f (vecRed t op f) l == 1#32) := by
  have hlat : op.latency = 2 := by cases op <;> simp [VecOp.isCmp] at hcmp <;> rfl
  simp only [vecPend, hcmp, if_true, hlat]
  rfl

theorem runs_vec {s : State} {c : Issue} {f : VecF} (op : VecOp) (ht : op.isTrans = false) (hcmp : op.isCmp = false)
    (hnarrow : cvtNarrows op f = false) (hsel : (op == .sel) = false) (h : Alone s c (.vec op f)) :
    let val := vecLane (s.tile c.tile) (s.srState c.tile) op f (vecRed (s.tile c.tile) op f)
    ∃ u, exec (vecInstr c f op) s = .next u ∧ Issued s u c.tile
      [vecWrite (s.tile c.tile) f op.latency (if op.counts f then vecNum (s.tile c.tile) f val else 0#4) val] := by
  dsimp only
  rw [← vecPend_write _ _ hcmp hnarrow hsel]
  exact issued_vec h ht

theorem runs_trans {s : State} {c : Issue} {f : VecF} (op : VecOp) (ht : op.isTrans = true) (hcmp : op.isCmp = false)
    (hnarrow : cvtNarrows op f = false) (hsel : (op == .sel) = false) (h : Alone s c (.vec op f)) :
    let val := vecLane (s.tile c.tile) (s.srState c.tile) op f (vecRed (s.tile c.tile) op f)
    ∃ u, exec (vecInstr c f op) s = .next u ∧ Issued (takesTrans s c.tile) u c.tile
      [vecWrite (s.tile c.tile) f op.latency (if op.counts f then vecNum (s.tile c.tile) f val else 0#4) val] := by
  dsimp only
  rw [← vecPend_write _ _ hcmp hnarrow hsel]
  exact issued_trans h ht

/-- A narrowing CVT packs its elements into a part of V[VD] (spec 04 R173). -/
theorem vecPend_narrow (t : Tile) (sr : SrState) {f : VecF} (h : cvtSrc f = 2) :
    (vecPend t sr .cvt f).left = 3 ∧ (vecPend t sr .cvt f).dst = .v f.vd
      (packLanes (fmtBits (cvtDst f)) (cvtPart f) (fun l => if h : l < 128 then
        (if guardLane t f.guard ⟨l, h⟩ then 2 ^ fmtBits (cvtDst f) - 1 else 0) else 0))
      (packLanes (fmtBits (cvtDst f)) (cvtPart f) (fun l => if h : l < 128 then
        (cvtNarrow (laneRnd t sr f l) (cvtDst f) (t.vr f.va)[l]).1 else 0)) := by
  have hnarrow : cvtNarrows .cvt f = true := by simp [cvtNarrows, h]
  have hguards (l : Nat) : (((List.finRange 128).map (guardLane t f.guard)).getD l false) =
      if h : l < 128 then guardLane t f.guard ⟨l, h⟩ else false := by
    by_cases hl : l < 128 <;> simp [hl, List.getD_eq_getElem?_getD]
  have hcodes (l : Nat) : ((narrowElems t sr f).toList.getD l (0, false)).1 =
      if h : l < 128 then (cvtNarrow (laneRnd t sr f l) (cvtDst f) (t.vr f.va)[l]).1 else 0 := by
    by_cases hl : l < 128 <;> simp [hl, narrowElems, List.getD_eq_getElem?_getD]
  have hcmp : VecOp.isCmp .cvt = false := rfl
  simp only [vecPend, hcmp, hnarrow, hguards, hcodes, Bool.false_eq_true, if_false, if_true]
  refine ⟨rfl, ?_⟩
  congr 2
  funext l
  split <;> rfl

/-- Settles O2: the vector slot alone puts `vecPend` in flight, whose lanes are the operation's results. -/
theorem vectorFloatResults : Obligations.VectorFloatResults := by
  unfold Obligations.VectorFloatResults
  refine ⟨fun s c f => ?_, fun s c f => ?_⟩
  · exact ⟨runs_vec .add rfl rfl rfl rfl, runs_vec .sub rfl rfl rfl rfl, runs_vec .mul rfl rfl rfl rfl, runs_vec .fma rfl rfl rfl rfl,
      runs_vec .min rfl rfl rfl rfl, runs_vec .max rfl rfl rfl rfl, runs_vec .abs rfl rfl rfl rfl,
      runs_trans .exp rfl rfl rfl rfl, runs_trans .log rfl rfl rfl rfl, runs_trans .rcp rfl rfl rfl rfl,
      runs_trans .rsqrt rfl rfl rfl rfl⟩
  · refine ⟨fun h hwiden => ?widen, fun h hnarrow => ?narrow, runs_vec .rsum rfl rfl rfl rfl, runs_vec .rmax rfl rfl rfl rfl,
      runs_vec .rmin rfl rfl rfl rfl⟩
    case widen =>
      have hruns := runs_vec .cvt rfl rfl (by simp [cvtNarrows, hwiden]) rfl h
      have hcounts : VecOp.counts .cvt f = !decide (cvtSrc f = 13) := by simp [VecOp.counts, bne, BEq.beq]
      simp only [hcounts, Bool.not_eq_true', decide_eq_false_iff_not, ite_not] at hruns
      exact hruns
    case narrow =>
      obtain ⟨u, hu, hissued⟩ := issued_vec h rfl
      obtain ⟨hleft, hdst⟩ := vecPend_narrow (s.tile c.tile) (s.srState c.tile) hnarrow
      exact ⟨u, _, hu, hissued, hleft, hdst⟩

/-- SEL writes every lane (spec 02 Table 2.25). -/
theorem vecPend_sel (t : Tile) (sr : SrState) (f : VecF) :
    vecPend t sr .sel f =
      { left := 2, num := 0#4,
        dst := .v f.vd (Vector.ofFn (fun _ => BitVec.allOnes 32))
          (Vector.ofFn (fun l => if guardLane t f.guard l then (t.vr f.va)[l] else (t.vr f.vc)[l])) } := by
  have hall : (fun l : Fin 128 => if guardLane t f.guard l || (VecOp.sel == .sel) then BitVec.allOnes 32 else 0#32) =
      fun _ => BitVec.allOnes 32 := funext fun l => if_pos (Bool.or_true _)
  simp only [vecPend, hall]
  rfl

/-- Settles O3: as O2; integer results are no FP32 results, and set no NUM_STATUS bit. -/
theorem vectorIntegerAndMoveResults : Obligations.VectorIntegerAndMoveResults := by
  unfold Obligations.VectorIntegerAndMoveResults
  refine ⟨fun s c f => ?_, fun s c f => ?_⟩
  · exact ⟨runs_vec .iadd rfl rfl rfl rfl, runs_vec .isub rfl rfl rfl rfl, runs_vec .and rfl rfl rfl rfl, runs_vec .or rfl rfl rfl rfl,
      runs_vec .xor rfl rfl rfl rfl, runs_vec .shl rfl rfl rfl rfl, runs_vec .shr rfl rfl rfl rfl, runs_vec .sra rfl rfl rfl rfl⟩
  · refine ⟨runs_vec .perm rfl rfl rfl rfl, runs_vec .rot rfl rfl rfl rfl, runs_vec .mov rfl rfl rfl rfl,
      runs_vec .bcast rfl rfl rfl rfl, runs_vec .iota rfl rfl rfl rfl, fun h => ?sel⟩
    case sel =>
      have hruns := issued_vec h rfl
      rwa [vecPend_sel] at hruns

/-- A comparison that alone issues tests what its lanes say. -/
theorem tests_vec {s : State} {c : Issue} {f : VecF} (op : VecOp) (ht : op.isTrans = false) (hcmp : op.isCmp = true)
    {holds : Fin 128 → Prop}
    (hlane : ∀ l, vecLane (s.tile c.tile) (s.srState c.tile) op f (vecRed (s.tile c.tile) op f) l = 1#32 ↔ holds l)
    (h : Alone s c (.vec op f)) :
    ∃ u w, exec (vecInstr c f op) s = .next u ∧ Issued s u c.tile [vecTest (s.tile c.tile) f w] ∧ ∀ l, w l = true ↔ holds l := by
  obtain ⟨u, hu, hissued⟩ := issued_vec h ht
  rw [vecPend_test _ _ f hcmp] at hissued
  exact ⟨u, _, hu, hissued, fun l => beq_iff_eq.trans (hlane l)⟩

theorem ite_word_one_iff (x : Bool) : (if x then 1#32 else 0#32) = 1#32 ↔ x = true := by cases x <;> simp

/-- A floating-point relation holds of ordered operands alone; NE and UNORD are their own negations (spec 02 Table 2.25). -/
theorem ordered_and_iff (x y : Bool) (p : Prop) [Decidable p] :
    (!x && !y && decide p) = true ↔ ¬(x = true ∨ y = true) ∧ p := by
  cases x <;> cases y <;> simp

theorem not_ordered_and_iff (x y : Bool) (p : Prop) [Decidable p] :
    (!(!x && !y && decide p)) = true ↔ (x = true ∨ y = true) ∨ ¬p := by
  cases x <;> cases y <;> simp

theorem not_ordered_iff (x y : Bool) : (!(!x && !y)) = true ↔ x = true ∨ y = true := by
  cases x <;> cases y <;> simp

/-- Settles O4: a comparison's lane is 1 or 0 as its relation holds. -/
theorem vectorComparisonResults : Obligations.VectorComparisonResults := by
  unfold Obligations.VectorComparisonResults
  intro s c f t a b nan cmp tests
  have lane {x : Bool} {holds : Prop} (h : x = true ↔ holds) : (if x then 1#32 else 0#32) = 1#32 ↔ holds :=
    (ite_word_one_iff x).trans h
  exact ⟨tests_vec .eq rfl rfl fun l => lane (ordered_and_iff _ _ (cmp l = 0)),
    tests_vec .ne rfl rfl fun l => lane (not_ordered_and_iff _ _ (cmp l = 0)),
    tests_vec .lt rfl rfl fun l => lane (ordered_and_iff _ _ (cmp l < 0)),
    tests_vec .le rfl rfl fun l => lane (ordered_and_iff _ _ (cmp l ≤ 0)),
    tests_vec .gt rfl rfl fun l => lane (ordered_and_iff _ _ (cmp l > 0)),
    tests_vec .ge rfl rfl fun l => lane (ordered_and_iff _ _ (cmp l ≥ 0)),
    tests_vec .unord rfl rfl fun l => lane (not_ordered_iff _ _),
    tests_vec .ieq rfl rfl fun l => lane beq_iff_eq, tests_vec .ine rfl rfl fun l => lane bne_iff_ne,
    tests_vec .ilt rfl rfl fun l => lane BitVec.slt_iff_toInt_lt, tests_vec .ile rfl rfl fun l => lane BitVec.sle_iff_toInt_le,
    tests_vec .iltu rfl rfl fun l => lane BitVec.ult_iff_toNat_lt, tests_vec .ileu rfl rfl fun l => lane BitVec.ule_iff_toNat_le⟩

end Sys2Proof.Machine
end

section
namespace Sys2Proof.Machine

set_option Elab.async false

/-! O5: results of the control slot. -/

theorem ctlValue_acting (s : State) (i : TileId) (o : SlotOp) (op : CtlOp) (f : CtlF) :
    ctlValue (acting s i o) i op f = ctlValue s i op f := by
  simp only [ctlValue, State.tileTime, State.clockN, getF_acting, tile_acting]
  rfl

theorem ctlPends_acting (s : State) (i : TileId) (o : SlotOp) (op : CtlOp) (f : CtlF) :
    ctlPends (acting s i o) i op f = ctlPends s i op f := by
  simp only [ctlPends, ctlValue_acting, tile_acting]
  rfl

/-- A control slot other than ISSUE only puts its result in flight. -/
theorem slotEffects_ctl {s : State} {i : TileId} {op : CtlOp} (f : CtlF) (h : op ≠ .issue) :
    slotEffects (acting s i (.ctl op f)) i [.ctl op f] = (acting s i (.ctl op f), ctlPends s i op f) := by
  have hissue : (op == .issue) = false := by simpa using h
  cases op with
  | issue => exact absurd rfl h
  | _ =>
    simp only [slotEffects, List.flatMap_cons, List.flatMap_nil, List.append_nil, ctlPends_acting]
    rfl

theorem issued_ctl {s : State} {c : Issue} {op : CtlOp} {f : CtlF} (h : Alone s c (.ctl op f))
    (hplain : SlotOp.plain (.ctl op f) = true) (hissue : op ≠ .issue) :
    ∃ u, exec (ctlInstr c f op) s = .next u ∧ Issued s u c.tile (ctlPends s c.tile op f) :=
  ⟨_, exec_ctlInstr c f op s,
    issueSlot_plain h hplain rfl (fun _ _ _ e => by cases e) (slotEffects_ctl f hissue) h.straight rfl rfl⟩

theorem runs_pset {s : State} {c : Issue} {f : CtlF} (op : CtlOp) (hpset : op.isPset = true) {holds : Prop}
    (hholds : psetHolds op ((s.tile c.tile).sr f.sa) ((s.tile c.tile).sr f.sb) = true ↔ holds) (h : Alone s c (.ctl op f)) :
    ∃ u w, exec (ctlInstr c f op) s = .next u ∧ Issued s u c.tile [predWrite f w] ∧ (w = true ↔ holds) := by
  have hplain : SlotOp.plain (.ctl op f) = true := by cases op <;> simp [CtlOp.isPset] at hpset <;> rfl
  have hissue : op ≠ .issue := by
    rintro rfl
    cases hpset
  obtain ⟨u, hu, hissued⟩ := issued_ctl h hplain hissue
  rw [ctlPends, if_pos hpset] at hissued
  exact ⟨u, _, hu, hissued, hholds⟩

/-- Settles O5: a control slot alone puts `ctlPends` in flight. -/
theorem controlResults : Obligations.ControlResults := by
  unfold Obligations.ControlResults
  refine ⟨fun s c f => ?_, fun s c f => ?_⟩
  · have runs (op : CtlOp) (hplain : SlotOp.plain (.ctl op f) = true) (hissue : op ≠ .issue) (h : Alone s c (.ctl op f)) :=
      issued_ctl h hplain hissue
    exact ⟨runs .add rfl nofun, runs .sub rfl nofun, runs .and rfl nofun, runs .or rfl nofun, runs .xor rfl nofun,
      runs .shl rfl nofun, runs .shr rfl nofun, runs .sra rfl nofun, runs .addi rfl nofun, runs .smul rfl nofun,
      runs .li rfl nofun, runs .time rfl nofun, runs .mstat rfl nofun, runs .gstatq rfl nofun⟩
  · exact ⟨runs_pset .psetEq rfl beq_iff_eq, runs_pset .psetNe rfl bne_iff_ne, runs_pset .psetLt rfl BitVec.slt_iff_toInt_lt,
      runs_pset .psetLe rfl BitVec.sle_iff_toInt_le, runs_pset .psetGt rfl BitVec.slt_iff_toInt_lt,
      runs_pset .psetGe rfl BitVec.sle_iff_toInt_le, runs_pset .psetLtu rfl BitVec.ult_iff_toNat_lt,
      runs_pset .psetGeu rfl BitVec.ule_iff_toNat_le⟩

/-! O6: the flow of the control slot. -/

/-- The tile after a bundle, from one tile with the results landed: as `issued` leaves it, and as the bundle's flow does. -/
theorem flowed_of_straight {t : Tile} (ps : List Pend) (h : t.straight) :
    ∃ u : Tile, u.straight ∧ u.pc = t.pc ∧ u.halting = t.halting ∧
      t.issued ps = { u with pc := t.pc + 1, timedOut := false, stall := none, pstate := .running } ∧
      ∀ all ops, flowed t all ops ps =
        let w := u.flow all ops (match loopOf ops with | some f => (t.sr f.sa).toNat | none => 0)
        { w with
          halting := w.halting || ops.any SlotOp.isHalt, timedOut := false, stall := afterStall t ops
          pstate := if (afterStall t ops).isSome then .stalled else .running } := by
  refine ⟨({ t with cycle := t.cycle + 1, inflight := t.inflight ++ ps } : Tile).advance, ?_, ?_, ?_, Tile.issued_eq t ps,
    fun _ _ => rfl⟩
  · exact Tile.advance_straight (t := { t with cycle := t.cycle + 1, inflight := t.inflight ++ ps }) h
  · rw [Tile.advance_frame]
  · rw [Tile.advance_frame]

theorem flowed_acting (s : State) (i : TileId) (o : SlotOp) (ps : List Pend) (hs : (s.tile i).straight) {after : Tile → Tile}
    (h : ∀ t : Tile, t.straight → t.pc = (s.tile i).pc → t.sreg = (s.tile i).sreg → t.halting = (s.tile i).halting →
      flowed t [o] [o] ps = after (t.issued ps)) :
    flowed ((acting s i o).tile i) [o] [o] ps = after ((s.tile i).issued ps) := by
  rw [tile_acting, ← Tile.issued_acting (s.tile i) ps (some { cause := 3, ops := [o], need := 0, run := 0, also := 0 }) .running]
  exact h _ hs rfl rfl rfl

section Flows
variable {t : Tile} (h : t.straight) (f : CtlF)
include h

theorem flowed_br : flowed t [.ctl .br f] [.ctl .br f] [] =
    { t.issued [] with branch := some (ctlIndex f, 2), brShadow := 2 } := by
  obtain ⟨u, ⟨hloops, hbranch, hshadow⟩, hpc, -, hissued, hflow⟩ := flowed_of_straight [] h
  rw [hissued, hflow]
  simp [Tile.flow, branchOf, hasBr, loopOf, loopEnd, hloops, hbranch, hpc, afterStall, SlotOp.isHalt]

theorem flowed_loop_opens (hn : (t.sr f.sa).toNat ≠ 0) : flowed t [.ctl .loop f] [.ctl .loop f] [] =
    { t.issued [] with loops := [{ start := t.pc + 1, last := ctlIndex f, left := (t.sr f.sa).toNat }] } := by
  obtain ⟨u, ⟨hloops, hbranch, hshadow⟩, hpc, -, hissued, hflow⟩ := flowed_of_straight [] h
  rw [hissued, hflow]
  simp [Tile.flow, branchOf, hasBr, loopOf, hloops, hbranch, hshadow, hpc, afterStall, SlotOp.isHalt, hn]

theorem flowed_loop_skips (hn : (t.sr f.sa).toNat = 0) : flowed t [.ctl .loop f] [.ctl .loop f] [] =
    { t.issued [] with pc := ctlIndex f + 1 } := by
  obtain ⟨u, ⟨hloops, hbranch, hshadow⟩, hpc, -, hissued, hflow⟩ := flowed_of_straight [] h
  rw [hissued, hflow]
  simp [Tile.flow, branchOf, hasBr, loopOf, loopEnd, hloops, hbranch, hshadow, afterStall, SlotOp.isHalt, hn]

theorem flowed_wait : flowed t [.ctl .wait f] [.ctl .wait f] [] =
    if (t.sr f.sa).toNat = 0 then t.issued []
    else { t.issued [] with
      pstate := .stalled, stall := some { cause := 7, ops := [], need := (t.sr f.sa).toNat, run := 0, also := 0 } } := by
  obtain ⟨u, ⟨hloops, hbranch, hshadow⟩, hpc, -, hissued, hflow⟩ := flowed_of_straight [] h
  rw [hissued, hflow]
  by_cases hn : (t.sr f.sa).toNat = 0 <;>
    simp [Tile.flow, branchOf, hasBr, loopOf, loopEnd, hloops, hbranch, hshadow, hpc, afterStall, SlotOp.isHalt, hn]

theorem flowed_halt : flowed t [.ctl .halt f] [.ctl .halt f] [] = { t.issued [] with halting := true } := by
  obtain ⟨u, ⟨hloops, hbranch, hshadow⟩, hpc, -, hissued, hflow⟩ := flowed_of_straight [] h
  rw [hissued, hflow]
  simp [Tile.flow, branchOf, hasBr, loopOf, loopEnd, hloops, hbranch, hshadow, hpc, afterStall, SlotOp.isHalt]

end Flows

theorem Tile.issued_gather (t : Tile) (ps : List Pend) : (t.issued ps).gather = t.gather := by
  unfold Tile.issued
  dsimp only
  rw [Tile.foldl_land_frame]

/-- HALT with no unattached TAP discards nothing of the gather queue (spec 06 R248). -/
theorem orphanTaps_none {s : State} {i : TileId} (h : ∀ g ∈ (s.tile i).gather, g.direct = true ∨ g.mm.isSome = true) :
    orphanTaps s i = s := by
  have hnone : (s.tile i).gather.filter (fun g => !g.direct && g.mm.isNone) = [] :=
    List.filter_eq_nil_iff.mpr fun g hg => by
      rcases h g hg with hd | hm
      · simp [hd]
      · simp [Option.isSome_iff_ne_none.mp hm]
  have hall : (s.tile i).gather.filter (fun g => !(!g.direct && g.mm.isNone)) = (s.tile i).gather :=
    List.filter_eq_self.mpr fun g hg => by simpa using h g hg
  simp only [orphanTaps, hnone, List.foldl_nil, List.isEmpty_nil, if_true]
  refine State.modTile_id s i ?_
  rw [hall]

theorem clockTo_count_setTile (s : State) (i : TileId) (u : Tile) (hu : u.active = true) (ha : u.anchorAt = (s.tile i).anchorAt)
    (hc : u.anchorCycle = (s.tile i).anchorCycle) :
    ((s.countF Reg.TILE_ISSUED_BUNDLES i 0 1).setTile i u).clockTo i u.cycle =
      ((s.countF Reg.TILE_ISSUED_BUNDLES i 0 1).setTile i u).atTime (s.tileTime i u.cycle) := by
  have hkey : Reg.TILE_ISSUED_BUNDLES.key i 0 ≠ Reg.BRK_CUR_N.key 0 (i.val / 32) := by
    simp [Fld.key, Reg.TILE_ISSUED_BUNDLES, Reg.BRK_CUR_N, blockBase]
    omega
  simp only [State.clockTo, State.tileTime, State.clockN, State.tile_setTile, hu, if_true, State.getF_setTile,
    State.getF_countF_ne s 1 hkey, Tile.timeAt, ha, hc]

/-- The end of a bundle that halts the program. -/
theorem finishBundle_halt {s : State} {i : TileId} {all ops : List SlotOp} (ps : List Pend) (hr : (s.tile i).active = true)
    (hh : ops.any SlotOp.isHalt = true) :
    let u := ({ s.tile i with cycle := (s.tile i).cycle + 1, inflight := (s.tile i).inflight ++ ps } : Tile)
    finishBundle s i all ops ps =
      orphanTaps (((((s.countF Reg.TILE_ISSUED_BUNDLES i 0 1).setTile i u).setNum i u.dueNum).setTile i
        (flowed (s.tile i) all ops ps)).atTime (s.tileTime i ((s.tile i).cycle + 1))) i := by
  intro u
  have hcount : (s.countF Reg.TILE_ISSUED_BUNDLES i 0 1).modTile i (fun t =>
      { t with cycle := t.cycle + 1, inflight := t.inflight ++ ps }) = (s.countF Reg.TILE_ISSUED_BUNDLES i 0 1).setTile i u := rfl
  have hmod (w : State) (n : Nat) (g : Tile → Tile) : (w.atTime n).modTile i g = (w.setTile i (g (w.tile i))).atTime n := rfl
  unfold finishBundle
  dsimp only
  rw [hcount, State.tile_setTile, clockTo_count_setTile s i u hr rfl rfl, State.setNum_atTime, State.tile_atTime,
    State.tile_setTile, hmod, State.tile_setNum, State.tile_setTile, if_pos hh]
  rfl

/-! What the tile holds while its slot acts is gone at the end of the bundle. -/

theorem dueNum_acting (s : State) (i : TileId) (o : SlotOp) (ps : List Pend) :
    ({ (acting s i o).tile i with cycle := ((acting s i o).tile i).cycle + 1, inflight := ((acting s i o).tile i).inflight ++ ps } :
      Tile).dueNum =
    ({ s.tile i with cycle := (s.tile i).cycle + 1, inflight := (s.tile i).inflight ++ ps } : Tile).dueNum := by
  rw [tile_acting]
  rfl

theorem setTile_acting (s : State) (i : TileId) (o : SlotOp) (n : BitVec 4) (a b r : Tile) :
    ((((acting s i o).countF Reg.TILE_ISSUED_BUNDLES i 0 1).setTile i a).setNum i n).setTile i r =
      (((s.countF Reg.TILE_ISSUED_BUNDLES i 0 1).setTile i b).setNum i n).setTile i r := by
  have hcount : (acting s i o).countF Reg.TILE_ISSUED_BUNDLES i 0 1 =
      (s.countF Reg.TILE_ISSUED_BUNDLES i 0 1).setTile i ((acting s i o).tile i) := by
    rw [tile_acting]
    rfl
  simp only [hcount, State.setNum_setTile, State.setTile_setTile]

theorem tileTime_acting (s : State) (i : TileId) (o : SlotOp) (n : Nat) : (acting s i o).tileTime i n = s.tileTime i n := by
  unfold State.tileTime
  rw [tile_acting]
  rfl

theorem issueSlot_halt {s : State} {c : Issue} {f : CtlF} (h : Alone s c (.ctl .halt f))
    (hg : ∀ g ∈ (s.tile c.tile).gather, g.direct = true ∨ g.mm.isSome = true) :
    Issued s (issueSlot s c (.ctl .halt f)) c.tile [] (fun t => { t with halting := true }) := by
  have hflow : flowed ((acting s c.tile (.ctl .halt f)).tile c.tile) [.ctl .halt f] [.ctl .halt f] [] =
      { (s.tile c.tile).issued [] with halting := true } :=
    flowed_acting s c.tile _ [] h.straight (after := fun t => { t with halting := true }) fun t ht _ _ _ => flowed_halt ht f
  have hact : ((acting s c.tile (.ctl .halt f)).tile c.tile).active = true := by
    rw [tile_acting]
    rfl
  have hcycle : ((acting s c.tile (.ctl .halt f)).tile c.tile).cycle = (s.tile c.tile).cycle := by rw [tile_acting]
  have heffects : slotEffects (acting s c.tile (.ctl .halt f)) c.tile [.ctl .halt f] = (acting s c.tile (.ctl .halt f), []) :=
    slotEffects_ctl f nofun
  rw [issueSlot_alone h (fun _ _ _ e => by cases e), heffects]
  dsimp only
  rw [finishBundle_halt [] hact rfl, hflow, dueNum_acting,
    setTile_acting _ _ _ _ _ { s.tile c.tile with cycle := (s.tile c.tile).cycle + 1, inflight := (s.tile c.tile).inflight ++ [] },
    tileTime_acting, hcycle, orphanTaps_none]
  · exact issued_of_state (after := fun t => { t with halting := true }) rfl
  · rw [State.tile_atTime, State.tile_setTile]
    dsimp only
    rwa [Tile.issued_gather]

/-! ISSUE. -/

/-- A change of a tile that does not touch its stall goes before or after the tile begins to act. -/
theorem acting_modTile (s : State) (i : TileId) (o : SlotOp) (g : Tile → Tile)
    (h : ∀ (t : Tile) (p : ProgState) (st : Option Stall), g { t with pstate := p, stall := st } =
      { g t with pstate := p, stall := st }) :
    (acting s i o).modTile i g = acting (s.modTile i g) i o := by
  simp only [acting, State.modTile, State.tile_setTile, State.setTile_setTile]
  rw [h]

theorem acting_addHazard (s : State) (i : TileId) (o : SlotOp) (h : Hazard) :
    (acting s i o).addHazard i h = acting (s.addHazard i h) i o := by
  unfold State.addHazard
  split
  · rfl
  · exact acting_modTile s i o _ fun _ _ _ => rfl

theorem acting_markMarver (s : State) (i : TileId) (o : SlotOp) (d : MvDesc) :
    markMarver (acting s i o) i d = acting (markMarver s i d) i o := by
  unfold markMarver
  induction d.hazards generalizing s with
  | nil => rfl
  | cons h hs ih => rw [List.foldl_cons, List.foldl_cons, acting_addHazard, ih]

theorem acting_issueMarver (s : State) (i : TileId) (o : SlotOp) (addr : Nat) :
    issueMarver (acting s i o) i addr = acting (issueMarver s i addr) i o := by
  unfold issueMarver
  dsimp only
  rw [tile_acting, acting_modTile s i o _ fun _ _ _ => rfl, acting_markMarver]
  dsimp only
  split <;> rfl

theorem slotEffects_issue (s : State) (i : TileId) (f : CtlF) :
    slotEffects (acting s i (.ctl .issue f)) i [.ctl .issue f] =
      (acting (issueMarver s i ((s.tile i).sr f.sa).toNat) i (.ctl .issue f), []) := by
  have hsr : ((acting s i (.ctl .issue f)).tile i).sr f.sa = (s.tile i).sr f.sa := by
    rw [tile_acting]
    rfl
  have hpends : ctlPends (acting s i (.ctl .issue f)) i .issue f = [] := ctlPends_acting s i _ .issue f
  rw [← acting_issueMarver, ← hsr]
  change (_, [] ++ (ctlPends (acting s i (.ctl .issue f)) i .issue f ++ [])) = _
  rw [hpends]
  rfl

/-- The hazards of a tile are all that an ISSUE adds beside its queue entries. -/
theorem addHazard_frame (s : State) (i : TileId) (h : Hazard) :
    ∃ hs, s.addHazard i h = s.modTile i (fun t => { t with pantry := { t.pantry with hazards := hs } }) := by
  unfold State.addHazard
  split
  · exact ⟨(s.tile i).pantry.hazards, (State.modTile_id s i rfl).symm⟩
  · exact ⟨_, rfl⟩

theorem markMarver_frame (s : State) (i : TileId) (d : MvDesc) :
    ∃ hs, markMarver s i d = s.modTile i (fun t => { t with pantry := { t.pantry with hazards := hs } }) := by
  unfold markMarver
  induction d.hazards generalizing s with
  | nil => exact ⟨(s.tile i).pantry.hazards, (State.modTile_id s i rfl).symm⟩
  | cons h hs ih =>
    obtain ⟨h1, e1⟩ := addHazard_frame s i h
    obtain ⟨h2, e2⟩ := ih (s.addHazard i h)
    refine ⟨h2, ?_⟩
    rw [List.foldl_cons, e2, e1]
    simp only [State.modTile, State.tile_setTile, State.setTile_setTile]

theorem issueMarver_frame (s : State) (i : TileId) (addr : Nat) :
    ∃ g : Tile → Tile, issueMarver s i addr = s.modTile i g ∧ (g (s.tile i)).pc = (s.tile i).pc ∧
      ((s.tile i).straight → (g (s.tile i)).straight) := by
  unfold issueMarver
  dsimp only
  split
  · obtain ⟨hs, e⟩ := markMarver_frame (s.modTile i (fun t => { t with
      nextId := t.nextId + 1
      marver := t.marver ++ [{ id := (s.tile i).nextId, addr := addr, words := [], problems := [], running := false, touched := [] }]
      arrays := { t.arrays with
        queue := t.arrays.queue ++ [.marver t.nextId], lastA := none, lastB := none
        fmtA := Vector.replicate 2 none, fmtB := Vector.replicate 2 none } })) i
      { id := (s.tile i).nextId, addr := addr, words := mvWords (Memory.readN (s.tile i).pantry.mem addr 128), problems := [],
        running := false, touched := [] }
    rw [e]
    simp only [State.modTile, State.tile_setTile, State.setTile_setTile]
    exact ⟨fun _ => _, rfl, rfl, id⟩
  · exact ⟨_, rfl, rfl, id⟩

theorem issued_issue {s : State} {c : Issue} {f : CtlF} (h : Alone s c (.ctl .issue f)) :
    Issued (issueMarver s c.tile ((s.tile c.tile).sr f.sa).toNat) (issueSlot s c (.ctl .issue f)) c.tile [] := by
  obtain ⟨g, hframe, hpc, hstraight⟩ := issueMarver_frame s c.tile ((s.tile c.tile).sr f.sa).toNat
  refine issueSlot_plain h rfl rfl (fun _ _ _ e => by cases e) (slotEffects_issue s c.tile f) ?_ ?_ ?_
  · rw [hframe, State.tile_modTile]
    exact hstraight h.straight
  · rw [hframe, State.tile_modTile]
    exact hpc
  · rw [hframe]
    rfl

/-- A control slot whose bundle goes on by the flow `after`. -/
theorem issued_flow {s : State} {c : Issue} {op : CtlOp} {f : CtlF} {after : Tile → Tile} (h : Alone s c (.ctl op f))
    (hop : op ≠ .issue) (hhalt : SlotOp.isHalt (.ctl op f) = false) (hps : ctlPends s c.tile op f = [])
    (hflow : ∀ t : Tile, t.straight → t.pc = (s.tile c.tile).pc → t.sreg = (s.tile c.tile).sreg →
      t.halting = (s.tile c.tile).halting → flowed t [.ctl op f] [.ctl op f] [] = after (t.issued []))
    (hpc : (after ((s.tile c.tile).issued [])).pc < s.getF Reg.TILE_PROG_LEN c.tile 0) :
    ∃ u, exec (ctlInstr c f op) s = .next u ∧ Issued s u c.tile [] after := by
  refine ⟨_, exec_ctlInstr c f op s, issueSlot_flow h hhalt rfl (fun _ _ _ e => by cases e) ?_
    (flowed_acting s c.tile _ [] h.straight hflow) hpc⟩
  rw [slotEffects_ctl f hop, hps]

/-- The bundle after an acting slot that is no HALT is inside the program. -/
theorem Alone.next_inside {s : State} {c : Issue} {o : SlotOp} (h : Alone s c o) (hhalt : o.isHalt = false) :
    (s.tile c.tile).pc + 1 < s.getF Reg.TILE_PROG_LEN c.tile 0 :=
  h.inside.2.resolve_left (by simp [hhalt])

/-- Settles O6: the flow of a bundle of one control slot, from `Tile.flow` of a tile with no loop and no branch on its way. -/
theorem controlFlowCommands : Obligations.ControlFlowCommands := by
  unfold Obligations.ControlFlowCommands
  intro s c f i n x
  have hsr {t : Tile} (ht : t.sreg = (s.tile i).sreg) : t.sr f.sa = (s.tile i).sr f.sa := by rw [Tile.sr, ht]; rfl
  refine ⟨fun h => ?br, fun h hn => ?opens, fun h hn hx => ?skips, fun h hn => ?waits, fun h hn => ?passes,
    fun h hg => ⟨_, rfl, issueSlot_halt h hg⟩, fun h => ?issue⟩
  case br =>
    exact issued_flow (op := .br) h nofun rfl rfl (fun t ht _ _ _ => flowed_br ht f) (h.next_inside rfl)
  case opens =>
    refine issued_flow (op := .loop) h nofun rfl rfl (fun t ht _ hreg _ => ?_) (h.next_inside rfl)
    rw [flowed_loop_opens ht f (by rwa [hsr hreg]), hsr hreg]
    rfl
  case skips =>
    refine issued_flow (op := .loop) h nofun rfl rfl (fun t ht _ hreg _ => ?_) hx
    rw [flowed_loop_skips ht f (by rwa [hsr hreg])]
    rfl
  case waits =>
    refine issued_flow (op := .wait) h nofun rfl rfl (fun t ht _ hreg _ => ?_) (h.next_inside rfl)
    rw [flowed_wait ht f, hsr hreg, if_neg hn]
  case passes =>
    refine issued_flow (op := .wait) (after := id) h nofun rfl rfl (fun t ht _ hreg _ => ?_) (h.next_inside rfl)
    rw [flowed_wait ht f, hsr hreg, if_pos hn]
    rfl
  case issue =>
    have hissued := issued_issue h
    simp only [issueMarver, Option.isNone_iff_eq_none] at hissued
    exact ⟨_, rfl, hissued⟩

end Sys2Proof.Machine
end

section
namespace Sys2Proof.Machine

set_option Elab.async false

/-! O7: the message slot. -/

@[simp] theorem State.tile_setNet (s : State) (n : List NetMsg) (j : TileId) : State.tile { s with net := n } j = s.tile j := rfl

@[simp] theorem State.tile_returnCredits (s : State) (i : TileId) (d : Nat) (m : DoorMsg) (j : TileId) :
    (s.returnCredits i d m).tile j = s.tile j := rfl

theorem slotEffects_msg (s : State) (i : TileId) (op : MsgOp) (f : MsgF) :
    slotEffects (acting s i (.msg op f)) i [.msg op f] = msgIssue (acting s i (.msg op f)) i op f := by
  change (_, ([] ++ (msgIssue (acting s i (.msg op f)) i op f).2) ++ []) = _
  rw [List.append_nil]
  rfl

/-- A message slot alone: the state at the end of its bundle, from what the slot itself did. -/
theorem issued_msg {s s' : State} {c : Issue} {op : MsgOp} {f : MsgF} {ps : List Pend} (h : Alone s c (.msg op f))
    (he : msgIssue (acting s c.tile (.msg op f)) c.tile op f = (acting s' c.tile (.msg op f), ps))
    (hs : (s'.tile c.tile).straight) (hp : (s'.tile c.tile).pc = (s.tile c.tile).pc)
    (hl : s'.getF Reg.TILE_PROG_LEN c.tile 0 = s.getF Reg.TILE_PROG_LEN c.tile 0) :
    ∃ u, exec (msgInstr c f op) s = .next u ∧ Issued s' u c.tile ps :=
  ⟨_, exec_msgInstr c f op s, issueSlot_plain h rfl rfl (fun _ _ _ e => by cases e) ((slotEffects_msg s c.tile op f).trans he) hs hp hl⟩

theorem key_credits_ne (i : TileId) (k : Nat) {g : Fld} (h : g.bitOnPage 0 % 32 ≠ 24) :
    Reg.TILE_CS_CREDITS.key i k ≠ g.key i 0 := by
  refine Fld.key_ne_of_bitOnPage ?_ i i
  have : Reg.TILE_CS_CREDITS.bitOnPage k = 8 * (0x200 + 4 * k) + 24 := by simp [Fld.bitOnPage, Reg.TILE_CS_CREDITS]
  omega

theorem doSend_acting (s : State) (i : TileId) (o : SlotOp) (op : MsgOp) (f : MsgF) :
    doSend (acting s i o) i op f = acting (doSend s i op f) i o := by
  have hsetF (k v : Nat) : (acting s i o).setF Reg.TILE_CS_CREDITS i k v = acting (s.setF Reg.TILE_CS_CREDITS i k v) i o := rfl
  have hbump (w : State) (d : SendDest) : (acting w i o).modTile i (·.bumpSeq d) = acting (w.modTile i (·.bumpSeq d)) i o :=
    acting_modTile w i o _ fun _ _ _ => rfl
  unfold doSend
  simp only [tile_acting, getF_acting, hsetF, hbump]
  rfl

/-- A send that nothing hinders finds its credit slot, with the credits that it takes (spec 02 R74, R75). -/
theorem creditSlot_of_msgHitch {s : State} {i : TileId} {op : MsgOp} {f : MsgF} (hop : op = .send ∨ op = .sendr)
    (h : msgHitch s i op f = none) :
    ∃ k, creditSlot s i (sendDest (s.tile i) op f) = some k ∧ f.nm1.toNat + 1 ≤ s.getF Reg.TILE_CS_CREDITS i k := by
  have hmatch : (match creditSlot s i (sendDest (s.tile i) op f) with
      | none => some (Hitch.fault 0x0105 ((sendDest (s.tile i) op f).tile + 128 * f.door.toNat))
      | some k => if s.getF Reg.TILE_CS_CREDITS i k < f.nm1.toNat + 1 then some (.stall 1) else none) = none := by
    rcases hop with rfl | rfl
    all_goals
      simp only [msgHitch] at h
      split at h
      · cases h
      · split at h
        · cases h
        · exact h
  cases hk : creditSlot s i (sendDest (s.tile i) op f) with
  | none => simp [hk] at hmatch
  | some k => exact ⟨k, rfl, by simpa [hk] using hmatch⟩

theorem issued_send {s : State} {c : Issue} {op : MsgOp} {f : MsgF} (hop : op = .send ∨ op = .sendr)
    (h : Alone s c (.msg op f)) :
    ∃ u, exec (msgInstr c f op) s = .next u ∧ Issued (doSend s c.tile op f) u c.tile [] := by
  have he : msgIssue (acting s c.tile (.msg op f)) c.tile op f = (acting (doSend s c.tile op f) c.tile (.msg op f), []) := by
    rw [← doSend_acting]
    rcases hop with rfl | rfl <;> rfl
  have htile : (doSend s c.tile op f).tile c.tile = (s.tile c.tile).bumpSeq (sendDest (s.tile c.tile) op f) := by
    simp only [doSend, State.tile_setNet, State.tile_modTile, State.tile_setF]
  refine issued_msg h he (by rw [htile]; exact h.straight) (by rw [htile]; rfl) ?_
  exact State.getF_setF_ne s _ (key_credits_ne c.tile _ (by decide))

/-- What a send does, with its destination and its credit slot named. -/
theorem doSend_eq {s : State} {i : TileId} {op : MsgOp} {f : MsgF} {d : SendDest} {k : Nat} (hd : sendDest (s.tile i) op f = d)
    (hk : creditSlot s i d = some k) :
    let msg : DoorMsg := { srcTile := s.logical i, remote := d.remote, srcMember := if d.remote then s.member else 0,
                           seq := nextSeq (s.tile i) d, tag := ((s.tile i).sr f.sx).extractLsb' 0 16,
                           regs := (List.range (f.nm1.toNat + 1)).map (fun j => (s.tile i).vr (f.vr + BitVec.ofNat 6 j)) }
    doSend s i op f =
      { (s.setF Reg.TILE_CS_CREDITS i k (s.getF Reg.TILE_CS_CREDITS i k - (f.nm1.toNat + 1))).modTile i (·.bumpSeq d) with
        net := s.net ++
          [{ remote := d.remote, member := d.member, src := s.logical i, dst := d.tile, door := d.door, msg := msg }] } := by
  have hlogical (v : Nat) : (s.setF Reg.TILE_CS_CREDITS i k v).logical i = s.logical i := by
    simp only [State.logical, State.getF_setF_ne s v (key_credits_ne i k (g := Reg.TILE_LOGICAL_X) (by decide))]
  have hmod (w : State) (g : Tile → Tile) : (w.modTile i g).logical i = w.logical i := rfl
  subst hd
  simp only [doSend, hk, Option.getD_some, hmod, hlogical]
  rfl

theorem sends_of_alone {s : State} {c : Issue} {op : MsgOp} {f : MsgF} (hop : op = .send ∨ op = .sendr) {d : SendDest}
    (hd : sendDest (s.tile c.tile) op f = d) (h : Alone s c (.msg op f)) :
    ∃ k u, creditSlot s c.tile d = some k ∧ f.nm1.toNat + 1 ≤ s.getF Reg.TILE_CS_CREDITS c.tile k ∧
      exec (msgInstr c f op) s = .next u ∧ Issued (doSend s c.tile op f) u c.tile [] := by
  obtain ⟨k, hk, hcredits⟩ := creditSlot_of_msgHitch hop h.free
  obtain ⟨u, hu, hissued⟩ := issued_send hop h
  exact ⟨k, u, hd ▸ hk, hcredits, hu, hissued⟩

theorem key_expectedSeq_ne (i : TileId) (d : Nat) {g : Fld} (h : g.bitOnPage 0 % 64 ≠ 40) :
    Reg.TILE_DOOR_EXPECTED_SEQ.key i d ≠ g.key i 0 := by
  refine Fld.key_ne_of_bitOnPage ?_ i i
  have : Reg.TILE_DOOR_EXPECTED_SEQ.bitOnPage d = 8 * (0x104 + 8 * d) + 8 := by simp [Fld.bitOnPage, Reg.TILE_DOOR_EXPECTED_SEQ]
  omega

theorem doRecv_acting (s : State) (i : TileId) (o : SlotOp) (op : MsgOp) (f : MsgF) (m : HeldMsg) :
    doRecv (acting s i o) i op f m = (acting (doRecv s i op f m).1 i o, (doRecv s i op f m).2) := by
  have hdrop : (acting s i o).modTile i (·.dropMsg f.door m) = acting (s.modTile i (·.dropMsg f.door m)) i o :=
    acting_modTile s i o _ fun _ _ _ => rfl
  have hreturn (w : State) (d : Nat) : (acting w i o).returnCredits i d m.msg = acting (w.returnCredits i d m.msg) i o := rfl
  have hp2p (w : State) : doorP2P (acting w i o) i f.door = doorP2P w i f.door := rfl
  unfold doRecv
  simp only [hdrop, hreturn, hp2p]
  split <;> rfl

theorem doorTake_acting (s : State) (i : TileId) (o : SlotOp) (d : BitVec 4) :
    doorTake (acting s i o) i d = doorTake s i d := by
  simp only [doorTake, tile_acting, getF_acting]

theorem sr_acting (s : State) (i : TileId) (o : SlotOp) (r : BitVec 5) : ((acting s i o).tile i).sr r = (s.tile i).sr r := by
  rw [tile_acting]
  rfl

/-- A receive whose door holds its message. -/
theorem issued_recv {s : State} {c : Issue} {op : MsgOp} {f : MsgF} {m : HeldMsg} (h : Alone s c (.msg op f))
    (he : msgIssue (acting s c.tile (.msg op f)) c.tile op f = doRecv (acting s c.tile (.msg op f)) c.tile op f m) :
    ∃ u, exec (msgInstr c f op) s = .next u ∧
      Issued (doRecv s c.tile op f m).1 u c.tile (doRecv s c.tile op f m).2 := by
  have htile : ((doRecv s c.tile op f m).1.tile c.tile) = (s.tile c.tile).dropMsg f.door m := by
    simp only [doRecv]
    split <;> simp only [State.tile_wrapF, State.tile_returnCredits, State.tile_modTile]
  refine issued_msg h (he.trans (doRecv_acting s c.tile _ op f m)) (by rw [htile]; exact h.straight) (by rw [htile]; rfl) ?_
  simp only [doRecv]
  split
  · exact State.getF_wrapF_ne _ 1 (key_expectedSeq_ne c.tile _ (by decide))
  · rfl

theorem issued_dpoll {s : State} {c : Issue} {f : MsgF} (h : Alone s c (.msg .dpoll f)) :
    ∃ u, exec (.dpoll c f) s = .next u ∧ Issued s u c.tile [⟨1, .p f.pd (BitVec.allOnes 128)
      (if ((s.tile c.tile).doors[f.door.toFin]).isEmpty then 0#128 else BitVec.allOnes 128), 0#4⟩] := by
  refine issued_msg h ?_ h.straight rfl rfl
  simp only [msgIssue, tile_acting]
  cases ((s.tile c.tile).doors[f.door.toFin]).isEmpty <;> rfl

/-- Settles O7: a message slot alone does what `doSend`, `doRecv` and the test of DPOLL do, with the credit slot and the message
that the checks of the bundle have found. -/
theorem messageCommands : Obligations.MessageCommands := by
  unfold Obligations.MessageCommands
  intro s c f i t n sends takes
  refine ⟨fun h => ?send, fun h => ?sendr, fun m h hm => fun _ => ?recv, fun m h hm htime => fun _ => ?recvt, issued_dpoll⟩
  case send =>
    obtain ⟨k, u, hk, hcredits, hu, hissued⟩ := sends_of_alone (.inl rfl) rfl h
    rw [doSend_eq rfl hk] at hissued
    exact ⟨k, u, hk, hcredits, hu, hissued⟩
  case sendr =>
    obtain ⟨k, u, hk, hcredits, hu, hissued⟩ := sends_of_alone (.inr rfl) rfl h
    rw [doSend_eq rfl hk] at hissued
    exact ⟨k, u, hk, hcredits, hu, hissued⟩
  case recv => exact issued_recv h (by simp only [msgIssue, doorTake_acting, show doorTake s c.tile f.door = some m from hm])
  case recvt =>
    have hnot : ¬ ((s.tile c.tile).sr f.sx).toNat < m.time := Nat.not_lt.mpr htime
    exact issued_recv h (by
      simp only [msgIssue, doorTake_acting, show doorTake s c.tile f.door = some m from hm, sr_acting, if_neg hnot])

end Sys2Proof.Machine
end

section
namespace Sys2Proof.Machine

set_option Elab.async false

/-! O8: the access slot. -/

theorem slotEffects_acc (s : State) (i : TileId) (op : AccOp) (f : AccF) (w : Fin 41) :
    slotEffects (acting s i (.acc op f w)) i [.acc op f w] = accIssue (acting s i (.acc op f w)) i op f := by
  change (_, ([] ++ (accIssue (acting s i (.acc op f w)) i op f).2) ++ [] ++ []) = _
  rw [List.append_nil, List.append_nil]
  rfl

/-- An access slot alone that passes its checks: the state at the end of its bundle, from what the slot itself did. -/
theorem issued_acc {s s' : State} {c : Issue} {op : AccOp} {f : AccF} {ps : List Pend} (h : Alone s c (.acc op f 0))
    (he : accIssue (acting s c.tile (.acc op f 0)) c.tile op f = (acting s' c.tile (.acc op f 0), ps))
    (hs : (s'.tile c.tile).straight) (hp : (s'.tile c.tile).pc = (s.tile c.tile).pc)
    (hl : s'.getF Reg.TILE_PROG_LEN c.tile 0 = s.getF Reg.TILE_PROG_LEN c.tile 0) :
    Issued s' (issueSlot s c (.acc op f 0)) c.tile ps := by
  refine issueSlot_plain h rfl rfl (fun op' f' w e => ?_) ((slotEffects_acc s c.tile op f 0).trans he) hs hp hl
  cases e
  rw [he, tile_acting]
  simp

theorem pantryCheck_acting (s : State) (i j : TileId) (o : SlotOp) (x : PAccess) :
    pantryCheck (acting s i o) j x = pantryCheck s j x := rfl

/-- A read that passes its checks, of lines that are defined and free of ECC errors, answers the bytes and changes nothing. -/
theorem pantryLoad_clean {s : State} {i : TileId} {x : PAccess} (hcheck : pantryCheck s i x = none)
    (hclean : (s.tile i).clean x.addr x.len) :
    pantryLoad s i none x = (s, none, Memory.readN (s.tile i).pantry.mem x.addr x.len) := by
  obtain ⟨hdouble, hsingle, hhazards⟩ := hclean
  simp only [pantryLoad, hcheck, pantryRead, hdouble, hsingle, pantryBytesAt, hhazards, List.isEmpty_nil, if_true,
    List.length_nil]

/-! A tile that begins to act keeps its pantry and its descriptors, as every other tile does. -/

theorem pantry_acting (s : State) (i j : TileId) (o : SlotOp) : ((acting s i o).tile j).pantry = (s.tile j).pantry := by
  by_cases hij : j = i
  · subst hij
    rw [tile_acting]
  · rw [acting, State.tile_modTile_ne s _ hij]

theorem descs_acting (s : State) (i j : TileId) (o : SlotOp) : ((acting s i o).tile j).descs = (s.tile j).descs := by
  by_cases hij : j = i
  · subst hij
    rw [tile_acting]
  · rw [acting, State.tile_modTile_ne s _ hij]

theorem accAddr_acting (s : State) (i : TileId) (o : SlotOp) (f : AccF) :
    accAddr ((acting s i o).tile i) f = accAddr (s.tile i) f := by
  simp only [accAddr, sr_acting]

theorem clean_acting {s : State} {i : TileId} {o : SlotOp} {a n : Nat} (h : (s.tile i).clean a n) :
    ((acting s i o).tile i).clean a n := by
  rw [tile_acting]
  exact h

theorem issued_ld {s : State} {c : Issue} {f : AccF} (h : Alone s c (.acc .ld f 0))
    (hcheck : pantryCheck s c.tile { master := mAccess, write := false, addr := accAddr (s.tile c.tile) f, len := 512 } = none)
    (hclean : (s.tile c.tile).clean (accAddr (s.tile c.tile) f) 512) :
    Issued s (issueSlot s c (.acc .ld f 0)) c.tile [⟨9, .v f.vr (Vector.replicate 128 (BitVec.allOnes 32)) (bytesVreg
      (rotLoad f.rot.toNat (Memory.readN (s.tile c.tile).pantry.mem (accAddr (s.tile c.tile) f) 512))), 0#4⟩] := by
  refine issued_acc h ?_ h.straight rfl rfl
  have hload := pantryLoad_clean (s := acting s c.tile (.acc .ld f 0)) hcheck (clean_acting hclean)
  simp only [accIssue, accAddr_acting, hload, pantry_acting]

theorem issued_st {s : State} {c : Issue} {f : AccF} (h : Alone s c (.acc .st f 0))
    (hcheck : pantryCheck s c.tile { master := mAccess, write := true, addr := accAddr (s.tile c.tile) f, len := 512 } = none) :
    Issued (s.modTile c.tile (fun t => { t with
      stores := t.stores ++ [{ addr := accAddr (s.tile c.tile) f
                               data := rotStore f.rot.toNat (vregBytes ((s.tile c.tile).vr f.vr)), visible := t.cycle + 6 }] }))
      (issueSlot s c (.acc .st f 0)) c.tile [] := by
  refine issued_acc h ?_ (by rw [State.tile_modTile]; exact h.straight) (by rw [State.tile_modTile]) rfl
  simp only [accIssue, accAddr_acting, pantryCheck_acting, hcheck]
  rw [acting_modTile s c.tile _ _ fun _ _ _ => rfl]
  rfl

/-! A change of any tile that does not touch its stall goes before or after one tile begins to act. -/

theorem State.setTile_comm (s : State) {i j : TileId} (a b : Tile) (h : i ≠ j) :
    (s.setTile i a).setTile j b = (s.setTile j b).setTile i a := by
  have hval : i.val ≠ j.val := fun e => h (Fin.ext e)
  simp only [State.setTile, Vector.set_comm _ _ hval]

theorem acting_modTile_any (s : State) (i j : TileId) (o : SlotOp) (g : Tile → Tile)
    (h : ∀ (t : Tile) (p : ProgState) (st : Option Stall), g { t with pstate := p, stall := st } =
      { g t with pstate := p, stall := st }) :
    (acting s i o).modTile j g = acting (s.modTile j g) i o := by
  by_cases hij : j = i
  · subst hij
    exact acting_modTile s j o g h
  · simp only [acting, State.modTile, State.tile_setTile_ne _ _ hij, State.tile_setTile_ne _ _ (Ne.symm hij)]
    exact State.setTile_comm s _ _ (Ne.symm hij)

theorem clashes_acting (s : State) (i : TileId) (o : SlotOp) : clashes (acting s i o) = clashes s := by
  have hbusy : (acting s i o).handleBusy = s.handleBusy := funext fun x => by rw [State.handleBusy, State.handleBusy, descs_acting]
  unfold clashes
  rw [hbusy]

theorem addDescHazards_acting (s : State) (i j : TileId) (o : SlotOp) (hs : List Hazard) :
    (acting s i o).addDescHazards j hs = acting (s.addDescHazards j hs) i o := by
  simp only [State.addDescHazards, clashes_acting]
  exact acting_modTile_any s i j o _ fun _ _ _ => rfl

theorem markDesc_acting (s : State) (i : TileId) (o : SlotOp) (h : Fin 16) (d : AccDesc) :
    markDesc (acting s i o) i h d = acting (markDesc s i h d) i o := by
  have hmapped (l : Nat) : (acting s i o).mapped l = s.mapped l := rfl
  simp only [markDesc, hmapped, addDescHazards_acting]
  split
  · rfl
  · split
    · split <;> rfl
    · rfl

/-- A descriptor's lines become undefined, and nothing else changes. -/
theorem markDesc_tile (s : State) (i j : TileId) (h : Fin 16) (d : AccDesc) :
    (markDesc s i h d).tile j = { s.tile j with pantry := ((markDesc s i h d).tile j).pantry } := by
  have hadd (k : TileId) (hs : List Hazard) :
      (s.addDescHazards k hs).tile j = { s.tile j with pantry := ((s.addDescHazards k hs).tile j).pantry } := by
    by_cases hjk : j = k
    · subst hjk
      rw [State.addDescHazards, State.tile_modTile]
    · rw [State.addDescHazards, State.tile_modTile_ne s _ hjk]
  unfold markDesc
  split
  · rfl
  · split
    · split
      · exact hadd _ _
      · rfl
    · exact hadd _ _

theorem markDesc_regs (s : State) (i : TileId) (h : Fin 16) (d : AccDesc) : (markDesc s i h d).regs = s.regs := by
  unfold markDesc
  split
  · rfl
  · split
    · split <;> rfl
    · rfl

/-- A descriptor that its checks let pass is bound to its handle. -/
theorem readDesc_pass {s : State} {i : TileId} {h : Fin 16} {addr dgo fin seq : Nat} {d : AccDesc}
    (hcheck : pantryCheck s i { master := mAccess, handle := h.val, write := false, addr := addr, len := 64 } = none)
    (hclean : (s.tile i).clean addr 64)
    (hd : d = { addr := addr, words := lineWords (Memory.readN (s.tile i).pantry.mem addr 64) 8, dgoCycle := dgo, rowsDone := 0,
                finished := fin, seqNo := seq })
    (hdesc : checkDesc s i h d = none) :
    readDesc s i h addr dgo fin seq = (markDesc s i h d).modTile i (fun t => { t with descs := t.descs.set h.val (some d) }) := by
  subst hd
  simp only [readDesc, pantryLoad_clean hcheck hclean, hdesc]

theorem checkDesc_of_windows {s s' : State} (hregs : s'.regs = s.regs) (i : TileId) (h : Nat) (d : AccDesc)
    (hwin : (s'.tile i).windows = (s.tile i).windows) : checkDesc s' i h d = checkDesc s i h d := by
  cases s
  cases s'
  dsimp only at hregs
  subst hregs
  simp only [checkDesc, inWindow, hwin]
  rfl

theorem issued_dgo {s : State} {c : Issue} {f : AccF} {d : AccDesc} (h : Alone s c (.acc .dgo f 0))
    (hfree : (s.tile c.tile).descs[accHandle f] = none)
    (hcheck : pantryCheck s c.tile
      { master := mAccess, handle := (accHandle f).val, write := false, addr := accAddr (s.tile c.tile) f, len := 64 } = none)
    (hclean : (s.tile c.tile).clean (accAddr (s.tile c.tile) f) 64)
    (hd : d = { addr := accAddr (s.tile c.tile) f
                words := lineWords (Memory.readN (s.tile c.tile).pantry.mem (accAddr (s.tile c.tile) f) 64) 8
                dgoCycle := (s.tile c.tile).cycle, rowsDone := 0, finished := 0, seqNo := (s.tile c.tile).nextId })
    (hdesc : checkDesc s c.tile (accHandle f) d = none) :
    Issued ((markDesc (s.modTile c.tile (fun t => { t with nextId := t.nextId + 1 })) c.tile (accHandle f) d).modTile c.tile
      (fun t => { t with descs := t.descs.set (accHandle f) (some d) })) (issueSlot s c (.acc .dgo f 0)) c.tile [] := by
  have htile := markDesc_tile (s.modTile c.tile (fun t => { t with nextId := t.nextId + 1 })) c.tile c.tile (accHandle f) d
  rw [State.tile_modTile] at htile
  refine issued_acc h ?_ (by rw [State.tile_modTile, htile]; exact h.straight) (by rw [State.tile_modTile, htile]) ?_
  · have hnext : (acting s c.tile (.acc .dgo f 0)).modTile c.tile (fun t => { t with nextId := t.nextId + 1 }) =
        acting (s.modTile c.tile (fun t => { t with nextId := t.nextId + 1 })) c.tile (.acc .dgo f 0) :=
      acting_modTile s c.tile _ _ fun _ _ _ => rfl
    have hread : readDesc (acting (s.modTile c.tile (fun t => { t with nextId := t.nextId + 1 })) c.tile (.acc .dgo f 0)) c.tile
        (accHandle f) (accAddr (s.tile c.tile) f) (s.tile c.tile).cycle 0 (s.tile c.tile).nextId = _ :=
      readDesc_pass (d := d) hcheck (clean_acting (by rw [State.tile_modTile]; exact hclean))
        (by rw [pantry_acting, State.tile_modTile]; exact hd)
        (by refine (checkDesc_of_windows ?_ c.tile (accHandle f) d ?_).trans hdesc
            · rfl
            · rw [tile_acting, State.tile_modTile])
    simp only [accIssue, bindDesc, descs_acting, hfree, accAddr_acting, hnext]
    rw [if_neg (by simp), tile_acting, hread, markDesc_acting, acting_modTile _ c.tile _ _ fun _ _ _ => rfl]
  · simp only [State.getF, State.modTile_regs, markDesc_regs]

theorem acting_mapHazards (s : State) (i : TileId) (o : SlotOp) (g : List Hazard → List Hazard) :
    (acting s i o).mapHazards g = acting (s.mapHazards g) i o := by
  simp only [acting, State.mapHazards, State.modTile, State.setTile, State.tile, Vector.map_set, Vector.getElem_map, Fin.getElem_fin]

theorem anyHazard_acting (s : State) (i : TileId) (o : SlotOp) (g : Hazard → Bool) :
    (acting s i o).anyHazard g = s.anyHazard g := by
  have hany (w : State) : w.anyHazard g = true ↔ ∃ j, (w.tile j).pantry.hazards.any g = true := by
    simp only [State.anyHazard, List.any_eq_true, Vector.mem_toList_iff, Vector.mem_iff_getElem]
    constructor
    · rintro ⟨t, ⟨j, hj, rfl⟩, ht⟩
      exact ⟨⟨j, hj⟩, ht⟩
    · rintro ⟨j, ht⟩
      exact ⟨_, ⟨j.val, j.isLt, rfl⟩, ht⟩
  rw [Bool.eq_iff_iff, hany, hany]
  simp only [pantry_acting]

theorem acting_endHazards (s : State) (i : TileId) (o : SlotOp) (h : Fin 16) :
    endHazards (acting s i o) i h = acting (endHazards s i h) i o := by
  simp only [endHazards, anyHazard_acting, acting_mapHazards]
  split <;> rfl

theorem endHazards_tile (s : State) (i j : TileId) (h : Fin 16) :
    (endHazards s i h).tile j = { s.tile j with pantry := ((endHazards s i h).tile j).pantry } := by
  unfold endHazards
  split
  · simp only [State.mapHazards, State.tile, Fin.getElem_fin, Vector.getElem_map]
  · rfl

theorem endHazards_regs (s : State) (i : TileId) (h : Fin 16) : (endHazards s i h).regs = s.regs := by
  unfold endHazards
  split <;> rfl

/-- Settles O8: an access slot alone does what `accIssue` does, its checks passed. -/
theorem accessCommands : Obligations.AccessCommands := by
  unfold Obligations.AccessCommands
  intro s c f i t addr h ok
  refine ⟨fun ha hok hclean => ⟨_, rfl, issued_ld ha hok hclean⟩, fun ha hok => ⟨_, rfl, issued_st ha hok⟩,
    fun d ha hfree hok hclean hd hdesc => ⟨_, rfl, issued_dgo ha hfree hok hclean hd hdesc⟩, fun ha => ⟨_, rfl, ?dwait⟩,
    fun ha => ⟨_, rfl, issued_acc ha rfl ha.straight rfl rfl⟩⟩
  case dwait =>
    have htile := endHazards_tile s i i h
    refine issued_acc ha ?_ (by rw [htile]; exact ha.straight) (by rw [htile]) ?_
    · rw [← acting_endHazards]
      rfl
    · exact congrArg (fun r => State.getF { s with regs := r } Reg.TILE_PROG_LEN c.tile 0) (endHazards_regs s i h)

end Sys2Proof.Machine
end

section
namespace Sys2Proof.Machine

set_option Elab.async false

/-! O9: the array slot. -/

theorem slotEffects_arr (s : State) (i : TileId) (op : ArrOp) (f : ArrF) :
    slotEffects (acting s i (.arr op f)) i [.arr op f] = (arrIssue (acting s i (.arr op f)) i op f, []) := rfl

/-- An array slot alone, but a GSTAT: the state at the end of its bundle, from what the slot itself did and from the flow. -/
theorem issued_arr {s s' : State} {c : Issue} {op : ArrOp} {f : ArrF} {after : Tile → Tile} (h : Alone s c (.arr op f))
    (hg : op ≠ .gstat) (he : arrIssue (acting s c.tile (.arr op f)) c.tile op f = acting s' c.tile (.arr op f))
    (hs : (s'.tile c.tile).straight) (hp : (s'.tile c.tile).pc = (s.tile c.tile).pc)
    (hl : s'.getF Reg.TILE_PROG_LEN c.tile 0 = s.getF Reg.TILE_PROG_LEN c.tile 0)
    (hflow : ∀ t : Tile, t.straight → flowed t [.arr op f] [.arr op f] [] = after (t.issued []))
    (hpc : ∀ t, (after t).pc = t.pc) :
    ∃ u, exec (arrInstr c f op) s = .next u ∧ Issued s' u c.tile [] after := by
  have hgstat : SlotOp.isGstat (.arr op f) = false := by
    cases op with
    | gstat => exact absurd rfl hg
    | _ => rfl
  have hinside := h.next_inside rfl
  refine ⟨_, exec_arrInstr c f op s, issueSlot_flow h rfl hgstat (fun _ _ _ e => by cases e) ?_
    (flowed_acting s' c.tile _ [] hs fun t ht _ _ _ => hflow t ht) ?_⟩
  · rw [slotEffects_arr, he]
  · rw [hpc, hl]
    rw [← hp] at hinside
    exact hinside

theorem issued_arr_plain {s s' : State} {c : Issue} {op : ArrOp} {f : ArrF} (h : Alone s c (.arr op f))
    (hg : op ≠ .gstat) (ho : SlotOp.plain (.arr op f) = true)
    (he : arrIssue (acting s c.tile (.arr op f)) c.tile op f = acting s' c.tile (.arr op f))
    (hs : (s'.tile c.tile).straight) (hp : (s'.tile c.tile).pc = (s.tile c.tile).pc)
    (hl : s'.getF Reg.TILE_PROG_LEN c.tile 0 = s.getF Reg.TILE_PROG_LEN c.tile 0) :
    ∃ u, exec (arrInstr c f op) s = .next u ∧ Issued s' u c.tile [] :=
  issued_arr h hg he hs hp hl (fun _ ht => flowed_plain [] ho ht) fun _ => rfl

/-- The tile stalls after the bundle of a MODE or a DRAIN (spec 02 Table 2.14). -/
def Tile.stallsFor (n : Nat) (t : Tile) : Tile :=
  { t with pstate := .stalled, stall := some { cause := 6, ops := [], need := n, run := 0, also := 0 } }

theorem flowed_arr_stalls {op : ArrOp} (f : ArrF) {n : Nat} {t : Tile} (ht : t.straight)
    (hstall : afterStall t [.arr op f] = some { cause := 6, ops := [], need := n, run := 0, also := 0 }) :
    flowed t [.arr op f] [.arr op f] [] = (t.issued []).stallsFor n := by
  obtain ⟨u, ⟨hloops, hbranch, hshadow⟩, hpc, hhalt, hissued, hflow⟩ := flowed_of_straight [] ht
  rw [hissued, hflow, hstall]
  simp [Tile.flow, branchOf, hasBr, loopOf, loopEnd, hloops, hbranch, hshadow, hpc, SlotOp.isHalt, Tile.stallsFor]

theorem arrays_acting (s : State) (i : TileId) (o : SlotOp) : ((acting s i o).tile i).arrays = (s.tile i).arrays := by
  rw [tile_acting]

theorem nextId_acting (s : State) (i : TileId) (o : SlotOp) : ((acting s i o).tile i).nextId = (s.tile i).nextId := by
  rw [tile_acting]

theorem modArrays_acting (s : State) (i : TileId) (o : SlotOp) (g : Arrays → Arrays) :
    (acting s i o).modArrays i g = acting (s.modArrays i g) i o :=
  acting_modTile s i o _ fun _ _ _ => rfl

theorem pushCmd_acting (s : State) (i : TileId) (o : SlotOp) (op : ArrOp) (f : ArrF) (a b : Nat) :
    pushCmd (acting s i o) i op f a b = acting (pushCmd s i op f a b) i o := by
  have hcfg (x : Bool) : cfgOf (acting s i o) i x = cfgOf s i x := rfl
  unfold pushCmd
  dsimp only
  rw [nextId_acting]
  exact acting_modTile s i o _ fun _ _ _ => rfl

theorem modArrays_congr {s : State} {i : TileId} {f g : Arrays → Arrays} (h : f (s.tile i).arrays = g (s.tile i).arrays) :
    s.modArrays i f = s.modArrays i g := by
  simp only [State.modArrays, State.modTile, h]

theorem resetFlds_acting (s : State) (i : TileId) (o : SlotOp) (fs : List Fld) (inst : Nat) :
    (acting s i o).resetFlds fs inst = acting (s.resetFlds fs inst) i o := by
  have hfld (w : State) (f : Fld) (n : Nat) : (acting w i o).resetFld f inst n = acting (w.resetFld f inst n) i o := by
    induction n generalizing w with
    | zero => rfl
    | succ n ih => simp only [State.resetFld, ih]; rfl
  unfold State.resetFlds
  induction fs generalizing s with
  | nil => rfl
  | cons f fs ih => rw [List.foldl_cons, List.foldl_cons, hfld, ih]

theorem getF_resetFld_ne (s : State) {f g : Fld} {inst inst' k : Nat} (n : Nat) (h : ∀ j < n, f.key inst j ≠ g.key inst' k) :
    (s.resetFld f inst n).getF g inst' k = s.getF g inst' k := by
  induction n with
  | zero => rfl
  | succ n ih => rw [State.resetFld, State.getF_setF_ne _ _ (h n (by omega)), ih fun j hj => h j (by omega)]

theorem resetFld_eq_regs (s : State) (f : Fld) (inst n : Nat) : s.resetFld f inst n = { s with regs := (s.resetFld f inst n).regs } := by
  induction n with
  | zero => rfl
  | succ n ih =>
    rw [State.resetFld, ih]
    rfl

theorem resetFlds_eq_regs (s : State) (fs : List Fld) (inst : Nat) : s.resetFlds fs inst = { s with regs := (s.resetFlds fs inst).regs } := by
  unfold State.resetFlds
  induction fs generalizing s with
  | nil => rfl
  | cons f fs ih =>
    rw [List.foldl_cons, ih, resetFld_eq_regs]

theorem getF_resetFlds_ne (s : State) {fs : List Fld} {g : Fld} {inst inst' k : Nat}
    (h : ∀ f ∈ fs, ∀ j < f.cnt, f.key inst j ≠ g.key inst' k) : (s.resetFlds fs inst).getF g inst' k = s.getF g inst' k := by
  unfold State.resetFlds
  induction fs generalizing s with
  | nil => rfl
  | cons f fs ih =>
    rw [List.foldl_cons, ih _ fun f' hf' => h f' (List.mem_cons_of_mem f hf'), getF_resetFld_ne s _ (h f List.mem_cons_self)]

/-! What each array operation does as it issues. -/

theorem issued_mode {s : State} {c : Issue} {f : ArrF} (h : Alone s c (.arr .mode f)) :
    ∃ u, exec (.mode c f) s = .next u ∧
      Issued (((s.resetFlds [Reg.TILE_A_SLOT, Reg.TILE_B_SLOT] c.tile).setF Reg.TILE_ARRAY_MODE c.tile 0 f.pass.toNat).modArrays c.tile
        Arrays.clear) u c.tile [] (Tile.stallsFor 300) := by
  have htile (v : Nat) (j : TileId) :
      (((s.resetFlds [Reg.TILE_A_SLOT, Reg.TILE_B_SLOT] c.tile).setF Reg.TILE_ARRAY_MODE c.tile 0 v)).tile j = s.tile j := by
    rw [State.tile_setF, resetFlds_eq_regs]
    rfl
  refine issued_arr (op := .mode) h nofun ?_ ?_ ?_ ?_ (fun t ht => flowed_arr_stalls f ht rfl) fun _ => rfl
  · have hset (w : State) (v : Nat) : (acting w c.tile (.arr .mode f)).setF Reg.TILE_ARRAY_MODE c.tile 0 v =
        acting (w.setF Reg.TILE_ARRAY_MODE c.tile 0 v) c.tile (.arr .mode f) := rfl
    simp only [arrIssue, resetFlds_acting, hset, modArrays_acting]
  · rw [State.modArrays, State.tile_modTile, htile]
    exact h.straight
  · rw [State.modArrays, State.tile_modTile, htile]
  · rw [State.modArrays, State.getF_modTile, State.getF_setF_ne, getF_resetFlds_ne]
    · intro g hg j hj
      simp only [List.mem_cons, List.not_mem_nil, or_false] at hg
      rcases hg with rfl | rfl
      · simp only [Fld.key, Reg.TILE_A_SLOT, Reg.TILE_PROG_LEN, blockBase]
        omega
      · simp only [Fld.key, Reg.TILE_B_SLOT, Reg.TILE_PROG_LEN, blockBase]
        omega
    · simp only [Fld.key, Reg.TILE_ARRAY_MODE, Reg.TILE_PROG_LEN, blockBase]
      omega

/-- An operation that does no more than enter a command in the queues of its arrays. -/
theorem issued_push {s : State} {c : Issue} {op : ArrOp} {f : ArrF} (h : Alone s c (.arr op f))
    (hop : op = .bindFeed ∨ op = .bindDrain ∨ op = .resetWalk) :
    ∃ u, exec (arrInstr c f op) s = .next u ∧ Issued (pushCmd s c.tile op f 0 0) u c.tile [] := by
  have htile : (pushCmd s c.tile op f 0 0).tile c.tile = _ := State.tile_modTile s c.tile _
  refine issued_arr_plain h ?_ ?_ ?_ (by rw [htile]; exact h.straight) (by rw [htile]) rfl
  · rcases hop with rfl | rfl | rfl <;> nofun
  · rcases hop with rfl | rfl | rfl <;> rfl
  · rw [← pushCmd_acting]
    rcases hop with rfl | rfl | rfl <;> rfl

theorem issued_drain {s : State} {c : Issue} {f : ArrF} (h : Alone s c (.arr .drain f)) :
    ∃ u, exec (.drain c f) s = .next u ∧ Issued (pushCmd s c.tile .drain f 0 0) u c.tile [] (Tile.stallsFor 0) := by
  have htile : (pushCmd s c.tile .drain f 0 0).tile c.tile = _ := State.tile_modTile s c.tile _
  refine issued_arr (op := .drain) h nofun ?_ (by rw [htile]; exact h.straight) (by rw [htile]) rfl
    (fun t ht => flowed_arr_stalls f ht rfl) fun _ => rfl
  rw [← pushCmd_acting]
  rfl

/-- The drain configurations of the arrays that a DCFG selects. -/
def drainCfgSet (s : State) (i : TileId) (f : ArrF) : State :=
  let v := (f.kgrp.extractLsb' 0 6).toNat
  let s1 := if f.sel[0] then s.setF Reg.TILE_DRAIN_CFG_A i 0 v else s
  if f.sel[1] then s1.setF Reg.TILE_DRAIN_CFG_B i 0 v else s1

theorem drainCfgSet_eq_regs (s : State) (i : TileId) (f : ArrF) : drainCfgSet s i f = { s with regs := (drainCfgSet s i f).regs } := by
  unfold drainCfgSet
  dsimp only
  split <;> split <;> rfl

theorem getF_drainCfgSet (s : State) (i : TileId) (f : ArrF) :
    (drainCfgSet s i f).getF Reg.TILE_PROG_LEN i 0 = s.getF Reg.TILE_PROG_LEN i 0 := by
  have hA : Reg.TILE_DRAIN_CFG_A.key i 0 ≠ Reg.TILE_PROG_LEN.key i 0 := by
    simp only [Fld.key, Reg.TILE_DRAIN_CFG_A, Reg.TILE_PROG_LEN, blockBase]
    omega
  have hB : Reg.TILE_DRAIN_CFG_B.key i 0 ≠ Reg.TILE_PROG_LEN.key i 0 := by
    simp only [Fld.key, Reg.TILE_DRAIN_CFG_B, Reg.TILE_PROG_LEN, blockBase]
    omega
  unfold drainCfgSet
  dsimp only
  split <;> split <;> simp only [State.getF_setF_ne _ _ hA, State.getF_setF_ne _ _ hB]

theorem issued_drainCfg {s : State} {c : Issue} {f : ArrF} (h : Alone s c (.arr .drainCfg f)) :
    ∃ u, exec (.drainCfg c f) s = .next u ∧ Issued (pushCmd (drainCfgSet s c.tile f) c.tile .drainCfg f 0 0) u c.tile [] := by
  have htile : (pushCmd (drainCfgSet s c.tile f) c.tile .drainCfg f 0 0).tile c.tile = _ := State.tile_modTile _ c.tile _
  have hkeeps : (drainCfgSet s c.tile f).tile c.tile = s.tile c.tile := by
    rw [drainCfgSet_eq_regs]
    rfl
  refine issued_arr_plain (op := .drainCfg) h nofun rfl ?_ (by rw [htile, hkeeps]; exact h.straight) (by rw [htile, hkeeps])
    (getF_drainCfgSet s c.tile f)
  rw [← pushCmd_acting]
  simp only [arrIssue, drainCfgSet]
  split <;> split <;> rfl

theorem nextSlot_eq (k : Option Nat) : nextSlot k = if k = some 0 then 1 else 0 := by
  unfold nextSlot
  split
  · rfl
  · rw [if_neg (by assumption)]

theorem issued_wload {s : State} {c : Issue} {f : ArrF} (h : Alone s c (.arr .wload f)) :
    ∃ u, exec (.wload c f) s = .next u ∧ Issued (arrIssue s c.tile .wload f) u c.tile [] := by
  have htile : (arrIssue s c.tile .wload f).tile c.tile = _ := State.tile_modTile _ c.tile _
  have hpush (a b : Nat) : (pushCmd s c.tile .wload f a b).tile c.tile = _ := State.tile_modTile s c.tile _
  refine issued_arr_plain (op := .wload) h nofun rfl ?_ (by rw [htile, hpush]; exact h.straight) (by rw [htile, hpush]) rfl
  simp only [arrIssue, arrays_acting, pushCmd_acting, modArrays_acting]

theorem issued_mm {s : State} {c : Issue} {f : ArrF} (h : Alone s c (.arr .mm f)) :
    ∃ u, exec (.mm c f) s = .next u ∧ Issued (arrIssue s c.tile .mm f) u c.tile [] := by
  have htile : (arrIssue s c.tile .mm f).tile c.tile = _ := State.tile_modTile _ c.tile _
  have hpush (a b : Nat) : (pushCmd s c.tile .mm f a b).tile c.tile = _ := State.tile_modTile s c.tile _
  refine issued_arr_plain (op := .mm) h nofun rfl ?_ (by rw [htile, hpush]; exact h.straight) (by rw [htile, hpush]) rfl
  simp only [arrIssue, arrays_acting, nextId_acting, pushCmd_acting]
  exact acting_modTile _ c.tile _ _ fun _ _ _ => rfl

/-- A TAP takes the first MM that reads its feeder stream (spec 06 R244). -/
theorem tapJoin_eq (id : Nat) (g : GStat) (x : Option Nat) :
    (match g.waits, x with
      | true, some c => { g with mm := some id, fmtX := c }
      | _, _ => g) =
    if g.direct = false ∧ g.mm = none then
      match x with
      | some c => { g with mm := some id, fmtX := c }
      | none => g
    else g := by
  have hwaits : g.waits = true ↔ g.direct = false ∧ g.mm = none := by simp [GStat.waits]
  by_cases hg : g.waits = true
  · rw [if_pos (hwaits.mp hg), hg]
    cases x <;> rfl
  · rw [if_neg fun hn => hg (hwaits.mpr hn), Bool.not_eq_true _ |>.mp hg]

/-! A GSTAT. -/

theorem issueGstat_acting (s : State) (i : TileId) (o : SlotOp) (f : ArrF) :
    issueGstat (acting s i o) i f = acting (issueGstat s i f) i o := by
  unfold issueGstat
  simp only [tile_acting, getF_acting]
  rw [acting_modTile s i o _ fun _ _ _ => rfl, acting_addHazard]

/-- The entry that a GSTAT makes in the gather queue (spec 06 R243). -/
def newGstat (s : State) (i : TileId) (f : ArrF) : GStat :=
  let g := gstatEntry f
  { id := (s.tile i).nextId, direct := f.pass == 1#4, fmtX := f.fmtX.toNat, feed := f.feed.toNat
    cont := f.acc == 1#2 && !(s.tile i).statFresh.contains g, sideM1 := s.getF Reg.TILE_GE_SIDE_M1 i g + 1 - 1
    strideLog2 := s.getF Reg.TILE_GE_STRIDE_LOG2 i g, offset := s.getF Reg.TILE_GE_OFFSET i g
    srcWalk := s.getF Reg.TILE_GE_SRC_WALK i g, rowsM1 := s.getF Reg.TILE_GE_ROWS_M1 i g
    dst := 64 * s.getF Reg.TILE_GE_DST_LINE i g, mm := none, rows := none, loaded := none, attached := false, lines := [], num := 0#4 }

theorem issueGstat_eq (s : State) (i : TileId) (f : ArrF) : issueGstat s i f =
    (s.modTile i (fun t => { t with
      gather := t.gather ++ [newGstat s i f], nextId := t.nextId + 1
      statFresh := t.statFresh.filter (· != gstatEntry f) })).addHazard i
      { first := (newGstat s i f).dst, count := 16384 * blockCount (s.getF Reg.TILE_GE_SIDE_M1 i (gstatEntry f) + 1)
        by_ := .gstat (s.tile i).nextId } := rfl

/-- A GSTAT at issue adds its entry and the hazard of its lines. -/
theorem issueGstat_frame (s : State) (i : TileId) (f : ArrF) :
    ∃ hs : List Hazard, issueGstat s i f = s.modTile i (fun t => { t with
      gather := t.gather ++ [newGstat s i f], nextId := t.nextId + 1
      statFresh := t.statFresh.filter (· != gstatEntry f), pantry := { t.pantry with hazards := hs } }) := by
  rw [issueGstat_eq]
  obtain ⟨hs, hframe⟩ := addHazard_frame (s.modTile i (fun t => { t with
      gather := t.gather ++ [newGstat s i f], nextId := t.nextId + 1
      statFresh := t.statFresh.filter (· != gstatEntry f) })) i _
  refine ⟨hs, hframe.trans ?_⟩
  simp only [State.modTile, State.tile_setTile, State.setTile_setTile]

theorem issued_gstat {s : State} {c : Issue} {f : ArrF} (h : Alone s c (.arr .gstat f)) :
    ∃ u, exec (.gstat c f) s = .next (gatherHead u c.tile) ∧ Issued (issueGstat s c.tile f) u c.tile [] := by
  obtain ⟨hs, hframe⟩ := issueGstat_frame s c.tile f
  obtain ⟨u, hissued, hu⟩ := issueSlot_gstat (s' := issueGstat s c.tile f) (ps := []) h
    ((slotEffects_arr s c.tile .gstat f).trans (congrArg (·, []) (issueGstat_acting s c.tile _ f)))
    (by rw [hframe, State.tile_modTile]; exact h.straight) (by rw [hframe, State.tile_modTile]) (by rw [hframe]; rfl)
  exact ⟨u, congrArg _ hu, hissued⟩

/-- A GSTAT that is alone in the gather queue loads stored values only where it is a TAP that continues them. -/
theorem gatherHead_alone {s u : State} {i : TileId} {f : ArrF} (hissued : Issued (issueGstat s i f) u i [])
    (hempty : (s.tile i).gather = [])
    (hno : (f.acc == 1#2 && !(s.tile i).statFresh.contains (gstatEntry f)) = false ∨ (f.pass == 1#4) = true) :
    gatherHead u i = u := by
  obtain ⟨hs, hframe⟩ := issueGstat_frame s i f
  have hgather : (u.tile i).gather = [newGstat s i f] := by
    rw [hissued.tile, id, Tile.issued_gather, hframe, State.tile_modTile, hempty, List.nil_append]
  have hskips : ((newGstat s i f).direct || !(newGstat s i f).cont || (newGstat s i f).loaded.isSome) = true := by
    rcases hno with hno | hno
    · simp [show (newGstat s i f).cont = false from hno]
    · simp [show (newGstat s i f).direct = true from hno]
  simp only [gatherHead, hgather, hskips, if_true]

/-- Settles O9: an array slot alone does what `arrIssue` does, MODE and DRAIN stall, and a GSTAT is then taken up. -/
theorem arrayCommands : Obligations.ArrayCommands := by
  unfold Obligations.ArrayCommands
  intro s c f i a stalls enter other
  refine ⟨issued_mode, fun h => ?wload, fun h => ?mm, issued_drain, fun h => issued_push h (.inl rfl),
    fun h => issued_push h (.inr (.inl rfl)), fun h => issued_push h (.inr (.inr rfl)), ?drainCfg, ?gstat⟩
  case wload =>
    have hissued := issued_wload h
    simp only [arrIssue, nextSlot_eq] at hissued
    rw [modArrays_congr (g := fun a => { a with
        lastA := if f.sel[0] then some (other a.lastA) else a.lastA
        lastB := if f.sel[1] then some (other a.lastB) else a.lastB
        fmtA := if f.sel[0] then a.fmtA.setIfInBounds (other a.lastA) (some f.fmtW.toNat) else a.fmtA
        fmtB := if f.sel[1] then a.fmtB.setIfInBounds (other a.lastB) (some f.fmtW.toNat) else a.fmtB })] at hissued
    · exact hissued
    · rw [pushCmd, State.tile_modTile]
  case mm =>
    obtain ⟨u, hu, hissued⟩ := issued_mm h
    have hjoin : arrIssue s i .mm f = _ := congrArg (fun m : GStat → GStat =>
      (pushCmd s i .mm f (a.lastA.getD 0) (a.lastB.getD 0)).modTile i (fun t => { t with gather := t.gather.map m }))
      (funext fun g => tapJoin_eq (s.tile i).nextId g (mmFeedFmt (s.flag Reg.TILE_ARRAY_MODE i 0) f g.feed))
    exact ⟨u, hu, (congrArg (Issued · u i []) hjoin).mp hissued⟩
  case drainCfg =>
    rintro v rfl s1 s2 h
    exact issued_drainCfg h
  case gstat =>
    rintro g rfl k e s1 h
    obtain ⟨u, hu, hissued⟩ := issued_gstat h
    exact ⟨u, hu, hissued, fun hno hempty => gatherHead_alone hissued hempty hno⟩

end Sys2Proof.Machine
end

section
namespace Sys2Proof.Machine

set_option Elab.async false

/-! O10 fails: nothing in the statement bounds the cause of the stall, and the counter of a cause past the table has the place
of another register, which the stop of the program may write. -/

/-- A stall whose cause no table lists: the place of its counter is that of ERR_CODE of DRAM channel 0. -/
def strayStall : Stall := { cause := 0x1877A7, ops := [], need := 0, run := 0, also := 0 }

/-- A write descriptor with part of a line, which meets an uncorrectable one (spec 10 R439). -/
def strayDesc : AccDesc := { addr := 0, words := [2, 0, 8, 0, 0, 0, 0, 0], dgoCycle := 0, rowsDone := 0, finished := 0, seqNo := 0 }

/-- Tile 0 stalls with that descriptor in flight. -/
def strayState : State :=
  let s := State.reset.setF Reg.TILE_STALL_LIMIT 0 0 1
  { s.setTile 0 { Tile.reset with
      pstate := .stalled, stall := some strayStall, descs := (Vector.replicate 16 none).set 0 (some strayDesc) } with
    dramUe := [0] }

/-- The stop at STALL_LIMIT leaves the error code of the channel where the counter of the cause lies. -/
theorem stallLimit_strayState_counter :
    (stallLimit strayState 0).getF Reg.TILE_STALL_CYCLES 0 strayStall.cause = 0x0506 := by decide +kernel

/-- No stall has been counted before. -/
theorem strayState_counter : strayState.getF Reg.TILE_STALL_CYCLES 0 strayStall.cause = 0 := by decide +kernel

/-- STALL_LIMIT is 1. -/
theorem strayState_limit : strayState.getF Reg.TILE_STALL_LIMIT (0 : TileId) 0 = 1 := by decide +kernel

/-- The tile has no STALL_FAULT yet. -/
theorem strayState_intStatus : bit (strayState.getF (Hdr.INT_STATUS 1 0) (0 : TileId) 0) 0 = false := by decide +kernel

/-- Refutes O10: of a stall with an unlisted cause, STALL_LIMIT leaves 0x0506 where 2 counted cycles should stand. -/
theorem not_stallsAndProgramsEnd : ¬ Obligations.StallsAndProgramsEnd := by
  unfold Obligations.StallsAndProgramsEnd
  intro h
  obtain ⟨-, -, -, hlimit, -⟩ := h strayState 0 strayStall 0
  obtain ⟨u, hu, -, -, -, -, -, hcounted⟩ := hlimit (by decide +kernel) (by decide +kernel)
    (by rw [strayState_limit]; decide) (Nat.zero_le _) strayState_intStatus
  have hstop : exec (.stallLimit 0) strayState = .next (stallLimit strayState 0) := rfl
  obtain rfl : stallLimit strayState 0 = u := by simpa [hstop] using hu
  rw [strayState_limit] at hcounted
  have hzero : (0x0506 : Nat) = min (0 + (1 + 1 - strayStall.run)) (2 ^ Reg.TILE_STALL_CYCLES.width - 1) := by
    rw [← strayState_counter, ← stallLimit_strayState_counter]
    exact hcounted
  exact absurd hzero (by decide)
end Sys2Proof.Machine
end

section
namespace Sys2Proof.Machine

set_option Elab.async false

/-! O11: a bundle that waited issues. -/

/-- A slot that waited begins to act; its bundle had waited `run` cycles. -/
def resumed (s : State) (i : TileId) (o : SlotOp) (run : Nat) : State :=
  s.modTile i (fun t => { t with pstate := .running, stall := some { cause := 3, ops := [o], need := 0, run := run, also := 0 } })

/-- A bundle of one slot that nothing hinders any more acts and ends. -/
theorem issueOps_one {s : State} {i : TileId} {o : SlotOp} {run : Nat} (hstores : ∀ p ∈ (s.tile i).stores, (s.tile i).cycle < p.visible)
    (hacts : o.acts (s.tile i) = true) (hparity : parityHit (s.tile i) [o] = none) (hloop : loopIllegal s i o = false)
    (hfree : slotHitch s i [o] o = none) (hwait : waitOf [o] = 0) (hgstat : o.isGstat = false)
    (hacc : ∀ op f w, o = .acc op f w → ((accIssue (resumed s i o run) i op f).1.tile i).pstate ≠ .faulted) :
    issueOps s i [o] run =
      finishBundle (slotEffects (resumed s i o run) i [o]).1 i [o] [o] (slotEffects (resumed s i o run) i [o]).2 := by
  unfold issueOps
  dsimp only
  have hops : [o].filter (fun x => x.acts (s.tile i)) = [o] := by simp [hacts]
  rw [landStores_none hstores, hops, hparity]
  dsimp only
  rw [if_neg (by simp [slotMask_one hloop]), bundleHitch_one hfree]
  dsimp only
  rw [hwait, if_pos rfl, if_pos rfl]
  change (if ((resumed s i o run).tile i).pstate = .faulted then _ else _) = _
  rw [if_neg (by simp [resumed]), State.setTile_tile, if_neg]
  · rw [if_neg (by simp [hgstat])]
    rfl
  · cases o with
    | acc op f w => exact hacc op f w rfl
    | vec op f => simp
    | arr op f => simp
    | msg op f => simp
    | ctl op f => simp
    | bad n => simp

/-- The end of a bundle of one plain slot inside its program. -/
theorem issued_finishBundle {s : State} {i : TileId} {o : SlotOp} (ps : List Pend) (ho : o.plain = true) (hhalt : o.isHalt = false)
    (hactive : (s.tile i).active = true) (hs : (s.tile i).straight) (hl : (s.tile i).pc + 1 < s.getF Reg.TILE_PROG_LEN i 0) :
    Issued s (finishBundle s i [o] [o] ps) i ps := by
  have hflow : flowed (s.tile i) [o] [o] ps = (s.tile i).issued ps := flowed_plain ps ho hs
  rw [finishBundle_inside ps hactive (by simpa using hhalt) (by rw [hflow]; exact hl), hflow]
  exact issued_of_state (s := s) (i := i) (ps := ps) (after := id) rfl

/-- What stores that land change of the tile: its pantry, what its queued marver descriptors know, and the stores on their way. -/
theorem putPantry_fold (i : TileId) (l : List PendStore) (s : State) :
    ∃ p m, l.foldl (fun s x => s.putPantry i x.addr x.data) s = s.modTile i (fun t => { t with pantry := p, marver := m }) := by
  induction l generalizing s with
  | nil => exact ⟨(s.tile i).pantry, (s.tile i).marver, (State.modTile_id s i rfl).symm⟩
  | cons x l ih =>
    obtain ⟨p, m, h⟩ := ih (s.putPantry i x.addr x.data)
    exact ⟨p, m, by rw [List.foldl_cons, h]; simp [State.putPantry, State.modTile, State.setTile_setTile, Tile.putBytes]⟩

theorem landStores_frame (s : State) (i : TileId) (c : Nat) :
    ∃ p m, s.landStores i c = s.modTile i (fun t => { t with
      stores := t.stores.filter (fun x => !decide (x.visible ≤ c)), pantry := p, marver := m }) := by
  obtain ⟨p, m, h⟩ := putPantry_fold i ((s.tile i).stores.filter (fun x => decide (x.visible ≤ c)))
    (s.modTile i (fun t => { t with stores := t.stores.filter (fun x => !decide (x.visible ≤ c)) }))
  exact ⟨p, m, by unfold State.landStores; rw [h]; simp [State.modTile, State.setTile_setTile]⟩

theorem tileTime_of {s u : State} {i : TileId} {c : Nat} (ha : (u.tile i).anchorAt = (s.tile i).anchorAt)
    (hc : (u.tile i).anchorCycle = (s.tile i).anchorCycle)
    (hn : u.getF Reg.BRK_CUR_N 0 (i.val / 32) = s.getF Reg.BRK_CUR_N 0 (i.val / 32)) : u.tileTime i c = s.tileTime i c := by
  unfold State.tileTime Tile.timeAt State.clockN
  rw [ha, hc, hn]

theorem landStores_tileTime (s : State) (i : TileId) (c n : Nat) : (s.landStores i c).tileTime i n = s.tileTime i n := by
  obtain ⟨p, m, h⟩ := landStores_frame s i c
  rw [h]
  exact tileTime_of (by simp) (by simp) rfl

theorem clockTo_landStores {s : State} {i : TileId} {c : Nat} (h : s.tileTime i c ≤ s.now) :
    (s.landStores i c).clockTo i c = s.landStores i c := by
  unfold State.clockTo
  split
  · obtain ⟨p, m, e⟩ := landStores_frame s i c
    have hn : (s.landStores i c).now = s.now := by rw [e]; rfl
    rw [landStores_tileTime, State.atTime, hn, Nat.max_eq_left h, ← hn]
  · rfl

theorem landStores_landStores (s : State) (i : TileId) (c : Nat) : (s.landStores i c).landStores i c = s.landStores i c := by
  obtain ⟨p, m, e⟩ := landStores_frame s i c
  refine landStores_none fun x hx => ?_
  rw [e] at hx
  simp only [State.tile_modTile, List.mem_filter, Bool.not_eq_true', decide_eq_false_iff_not] at hx
  omega

/-- The tile counts its stall up to program cycle `c`. -/
def stallCounted (s : State) (i : TileId) (st : Stall) (c : Nat) : State :=
  (s.countF Reg.TILE_STALL_CYCLES i st.cause (c - (s.tile i).cycle)).modTile i (fun t =>
    { t with cycle := t.cycle + (c - (s.tile i).cycle), stall := some { st with run := st.run + (c - (s.tile i).cycle) } })

/-- The state of a tile that has stalled up to program cycle `c`, before its stores land. -/
def waited (s : State) (i : TileId) (st : Stall) (c : Nat) : State := (stallCounted s i st c).atTime (s.tileTime i c)

section
variable {s : State} {i : TileId} {st : Stall} {c : Nat}

theorem getF_waited {f : Fld} {k : Nat} (h : Reg.TILE_STALL_CYCLES.key i st.cause ≠ f.key i k) :
    (waited s i st c).getF f i k = s.getF f i k := by
  unfold waited stallCounted
  rw [State.getF_atTime, State.getF_modTile, State.getF_countF_ne _ _ h]

theorem tile_waited (hc : (s.tile i).cycle ≤ c) : (waited s i st c).tile i = { s.tile i with
    cycle := c, stall := some { st with run := st.run + (c - (s.tile i).cycle) } } := by
  simp [waited, stallCounted, Nat.add_sub_cancel' hc]

theorem waited_tileTime (hcause : st.cause < 8) (n : Nat) : (waited s i st c).tileTime i n = s.tileTime i n := by
  refine tileTime_of (by simp [waited, stallCounted]) (by simp [waited, stallCounted]) ?_
  unfold waited stallCounted
  rw [State.getF_atTime, State.getF_modTile, State.getF_countF_ne]
  simp [Fld.key, Reg.TILE_STALL_CYCLES, Reg.BRK_CUR_N, blockBase]
  omega

/-- A tile that stalls under no limit reaches program cycle `c`. -/
theorem tileAt_stalled (hstalled : (s.tile i).pstate = .stalled) (hstall : (s.tile i).stall = some st) (hcause : st.cause < 8)
    (hlim : s.getF Reg.TILE_STALL_LIMIT i 0 = 0) (hc : (s.tile i).cycle ≤ c) : tileAt s i c = (waited s i st c).landStores i c := by
  have hsum : (s.tile i).cycle + (c - (s.tile i).cycle) = c := by omega
  have hactive : (s.tile i).active = true := by simp [Tile.active, hstalled]
  have htime := waited_tileTime (s := s) (i := i) (c := c) hcause c
  have hcyc : stallCycles s i (c - (s.tile i).cycle) = (waited s i st c).landStores i c := by
    unfold stallCycles
    rw [hstall]
    simp only [hlim, bne_self_eq_false, Bool.false_and, Bool.false_eq_true, if_false, State.tile_modTile, State.tile_countF, hsum]
    congr 1
    unfold State.clockTo
    rw [if_pos (by simpa [Tile.active] using hactive)]
    exact congrArg (State.atTime (stallCounted s i st c)) htime
  unfold tileAt stallTo
  rw [if_pos hstalled, hcyc, clockTo_landStores, landStores_landStores]
  rw [htime]
  exact Nat.le_max_right _ _
end


/-- The tile at program cycle `c` of its stall: what the program itself reads is as it was. -/
theorem tileAt_stalled_tile {s : State} {i : TileId} {st : Stall} {c : Nat} (hstalled : (s.tile i).pstate = .stalled)
    (hstall : (s.tile i).stall = some st) (hcause : st.cause < 8) (hlim : s.getF Reg.TILE_STALL_LIMIT i 0 = 0)
    (hc : (s.tile i).cycle ≤ c) :
    ∃ p m, tileAt s i c = (waited s i st c).modTile i (fun t => { t with
      stores := t.stores.filter (fun x => !decide (x.visible ≤ c)), pantry := p, marver := m }) := by
  rw [tileAt_stalled hstalled hstall hcause hlim hc]
  exact landStores_frame _ i c

theorem slotEffects_fence (s : State) (i : TileId) (f : AccF) (w : Fin 41) : slotEffects s i [.acc .fence f w] = (s, []) := rfl

theorem slotEffects_recvt (s : State) (i : TileId) (f : MsgF) : slotEffects s i [.msg .recvt f] = msgIssue s i .recvt f := by
  change (_, ([] ++ (msgIssue s i .recvt f).2) ++ []) = _
  rw [List.append_nil]
  rfl

theorem slotEffects_ofTrans (s : State) (i : TileId) {op : VecOp} (f : VecF) (h : op.isTrans = true) :
    slotEffects s i [.vec op f] = (takesTrans s i, [vecPend (s.tile i) (s.srState i) op f]) := by
  unfold slotEffects
  simp [h, takesTrans]

/-- The stores of a tile are all visible by the cycle of the last one. -/
theorem visible_le_last (l : List PendStore) (n : Nat) :
    n ≤ l.foldl (fun n p => max n p.visible) n ∧ ∀ p ∈ l, p.visible ≤ l.foldl (fun n p => max n p.visible) n := by
  induction l generalizing n with
  | nil => simp
  | cons x l ih =>
    obtain ⟨hn, hl⟩ := ih (max n x.visible)
    rw [List.foldl_cons]
    refine ⟨by omega, fun p hp => ?_⟩
    rcases List.mem_cons.mp hp with rfl | hp
    · omega
    · exact hl p hp

/-- A bundle of one slot that waits under a cause: nothing but that cause hinders it, and its program goes on after it. -/
structure Waiting (s : State) (i : TileId) (st : Stall) (cause : Nat) (o : SlotOp) : Prop where
  stalled : (s.tile i).pstate = .stalled
  stall : (s.tile i).stall = some st
  cause : st.cause = cause
  ops : st.ops = [o]
  acts : o.acts (s.tile i) = true
  parity : parityHit (s.tile i) [o] = none
  straight : (s.tile i).straight
  inside : (s.tile i).pc + 1 < s.getF Reg.TILE_PROG_LEN i 0

/-- The bundle of a waiting slot that nothing hinders any more issues, and its program goes on. -/
theorem Waiting.issues {s : State} {i : TileId} {st : Stall} {cause : Nat} {o : SlotOp} (h : Waiting s i st cause o)
    (hstores : ∀ p ∈ (s.tile i).stores, (s.tile i).cycle < p.visible) (ho : o.plain = true) (hhalt : o.isHalt = false)
    (hloop : loopIllegal s i o = false) (hfree : slotHitch s i [o] o = none) (hwait : waitOf [o] = 0) (hgstat : o.isGstat = false)
    (hacc : ∀ op f w, o = .acc op f w → ((accIssue (resumed s i o st.run) i op f).1.tile i).pstate ≠ .faulted)
    {s' : State} {ps : List Pend} (he : slotEffects (resumed s i o st.run) i [o] = (s', ps)) (hactive : (s'.tile i).active = true)
    (hs : (s'.tile i).straight) (hpc : (s'.tile i).pc = (s.tile i).pc)
    (hlen : s'.getF Reg.TILE_PROG_LEN i 0 = s.getF Reg.TILE_PROG_LEN i 0) :
    Issued s' (retryStall s i cause) i ps := by
  unfold retryStall
  simp only [h.stall]
  rw [if_pos ⟨h.stalled, h.cause, by simp [h.ops]⟩, h.ops,
    issueOps_one hstores h.acts h.parity hloop hfree hwait hgstat hacc, he]
  exact issued_finishBundle ps ho hhalt hactive hs (by rw [hpc, hlen]; exact h.inside)

/-- A tile later in its stall: the program cycle, the stall's cycles, and what stores that land change. -/
def Tile.later (t : Tile) (c : Nat) (st : Stall) (l : List PendStore) (p : Pantry) (m : List MvDesc) : Tile :=
  { t with cycle := c, stall := some st, stores := l, pantry := p, marver := m }

theorem acts_later (t : Tile) (c : Nat) (st : Stall) (l : List PendStore) (p : Pantry) (m : List MvDesc) :
    (fun o : SlotOp => o.acts (t.later c st l p m)) = fun o => o.acts t := by
  funext o
  cases o <;> rfl

theorem parityHit_later (t : Tile) (c : Nat) (st : Stall) (l : List PendStore) (p : Pantry) (m : List MvDesc) (ops : List SlotOp) :
    parityHit (t.later c st l p m) ops = parityHit t ops := by
  unfold parityHit
  rw [acts_later]
  rfl

/-- A waiting bundle still waits at program cycle `c`. -/
theorem Waiting.at_cycle {s : State} {i : TileId} {st : Stall} {cause c : Nat} {o : SlotOp} (h : Waiting s i st cause o)
    (hcause : cause < 8) (hlim : s.getF Reg.TILE_STALL_LIMIT i 0 = 0) (hc : (s.tile i).cycle ≤ c) :
    ∃ p m, (tileAt s i c).tile i = (s.tile i).later c { st with run := st.run + (c - (s.tile i).cycle) }
        ((s.tile i).stores.filter (fun x => !decide (x.visible ≤ c))) p m ∧
      (∀ f k, Reg.TILE_STALL_CYCLES.key i st.cause ≠ f.key i k → (tileAt s i c).getF f i k = s.getF f i k) ∧
      (tileAt s i c).now = max s.now (s.tileTime i c) ∧ (∀ n, (tileAt s i c).tileTime i n = s.tileTime i n) ∧
      Waiting (tileAt s i c) i { st with run := st.run + (c - (s.tile i).cycle) } cause o := by
  have hbound : st.cause < 8 := by rw [h.cause]; exact hcause
  obtain ⟨p, m, e⟩ := tileAt_stalled_tile h.stalled h.stall hbound hlim hc
  have htile : (tileAt s i c).tile i = (s.tile i).later c { st with run := st.run + (c - (s.tile i).cycle) }
      ((s.tile i).stores.filter (fun x => !decide (x.visible ≤ c))) p m := by
    rw [e, State.tile_modTile, tile_waited hc]
    rfl
  have hget : ∀ f k, Reg.TILE_STALL_CYCLES.key i st.cause ≠ f.key i k → (tileAt s i c).getF f i k = s.getF f i k := by
    intro f k hk
    rw [e, State.getF_modTile, getF_waited hk]
  refine ⟨p, m, htile, hget, ?_, ?_, ?_⟩
  · rw [e]
    rfl
  · intro n
    rw [tileAt_stalled h.stalled h.stall hbound hlim hc, landStores_tileTime, waited_tileTime hbound]
  · exact {
      stalled := by rw [htile]; exact h.stalled
      stall := by rw [htile]; rfl
      cause := h.cause
      ops := h.ops
      acts := by rw [htile]; exact (congrFun (acts_later ..) o).trans h.acts
      parity := by rw [htile, parityHit_later]; exact h.parity
      straight := by rw [htile]; exact h.straight
      inside := by
        rw [htile, hget]
        · exact h.inside
        · simp [Fld.key, Reg.TILE_STALL_CYCLES, Reg.TILE_PROG_LEN, blockBase]
          omega }

/-- What the tile and its count of bundles look like after a waiting bundle has issued at cycle `n`. -/
theorem Issued.goes_on {s u : State} {i : TileId} {ps : List Pend} (h : Issued s u i ps) :
    (u.tile i).pc = (s.tile i).pc + 1 ∧ (u.tile i).pstate = .running ∧ (u.tile i).stall = none ∧
      (u.tile i).cycle = (s.tile i).cycle + 1 := by
  rw [h.tile, id, Tile.issued_eq, Tile.advance_frame]
  exact ⟨rfl, rfl, rfl, rfl⟩

/-- The counters of a stall lie elsewhere than the count of bundles. -/
theorem key_stallCycles_ne_issued (i : TileId) {k : Nat} (hk : k < 8) :
    Reg.TILE_STALL_CYCLES.key i k ≠ Reg.TILE_ISSUED_BUNDLES.key i 0 := by
  simp [Fld.key, Reg.TILE_STALL_CYCLES, Reg.TILE_ISSUED_BUNDLES, blockBase]
  omega

theorem resumed_straight {s : State} {i : TileId} {o : SlotOp} {run : Nat} (h : (s.tile i).straight) :
    ((resumed s i o run).tile i).straight := by
  rw [resumed, State.tile_modTile]
  exact h

theorem takesTrans_straight {s : State} {i : TileId} (h : (s.tile i).straight) : ((takesTrans s i).tile i).straight := by
  rw [takesTrans, State.tile_modTile]
  exact h

section
variable {s : State} {i : TileId} {st : Stall} {time c : Nat}

theorem fence_issues {f : AccF} {w : Fin 41} (h : Waiting s i st 3 (.acc .fence f w))
    (hlim : s.getF Reg.TILE_STALL_LIMIT i 0 = 0) :
    ∃ u, fenceEnd s i = u ∧ (u.tile i).stores = [] ∧ (u.tile i).pc = (s.tile i).pc + 1 ∧ (u.tile i).pstate = .running ∧
      (u.tile i).stall = none ∧ (u.tile i).cycle = (s.tile i).stores.foldl (fun n p => max n p.visible) (s.tile i).cycle + 1 ∧
      u.getF Reg.TILE_ISSUED_BUNDLES i 0 =
        min (s.getF Reg.TILE_ISSUED_BUNDLES i 0 + 1) (2 ^ Reg.TILE_ISSUED_BUNDLES.width - 1) := by
  obtain ⟨hc, hvis⟩ := visible_le_last (s.tile i).stores (s.tile i).cycle
  obtain ⟨p, m, htile, hget, -, -, hw⟩ := h.at_cycle (by decide) hlim hc
  unfold fenceEnd
  simp only [h.stall]
  rw [if_pos ⟨h.cause, h.stalled⟩]
  generalize (s.tile i).stores.foldl (fun n p => max n p.visible) (s.tile i).cycle = c at *
  have hnone : (s.tile i).stores.filter (fun x => !decide (x.visible ≤ c)) = [] := by
    rw [List.filter_eq_nil_iff]
    intro x hx
    simp [hvis x hx]
  rw [hnone] at htile
  have hempty : ((tileAt s i c).tile i).stores = [] := by rw [htile]; rfl
  have hcycle : ((tileAt s i c).tile i).cycle = c := by rw [htile]; rfl
  have hpc : ((tileAt s i c).tile i).pc = (s.tile i).pc := by rw [htile]; rfl
  have hissued := hw.issues (by simp [hempty]) rfl rfl rfl (by simp [slotHitch, accHitch, hempty]) rfl rfl
    (by
      rintro op f w ⟨⟩
      simp [accIssue, resumed])
    (slotEffects_fence _ i f w) (by simp [resumed, Tile.active]) (resumed_straight hw.straight) (by simp [resumed])
    (by simp [resumed])
  obtain ⟨hpc', hrun, hstall, hcyc⟩ := hissued.goes_on
  refine ⟨_, rfl, ?_, ?_, hrun, hstall, ?_, ?_⟩
  · rw [hissued.tile, id, Tile.issued_eq, Tile.advance_frame]
    simpa [resumed] using hempty
  · rw [hpc']
    simpa [resumed] using hpc
  · rw [hcyc]
    simpa [resumed] using hcycle
  · rw [hissued.counted, resumed, State.getF_modTile, hget]
    exact key_stallCycles_ne_issued i (by rw [h.cause]; decide)
theorem trans_issues {op : VecOp} {f : VecF} (ht : op.isTrans = true) (h : Waiting s i st 5 (.vec op f))
    (hlim : s.getF Reg.TILE_STALL_LIMIT i 0 = 0) (hc : (s.tile i).cycle ≤ (s.tile i).transFree) (hnone : (s.tile i).stores = []) :
    ∃ u, transEnd s i = u ∧ (u.tile i).transFree = (s.tile i).transFree + 4 ∧ (u.tile i).pc = (s.tile i).pc + 1 ∧
      (u.tile i).pstate = .running ∧ (u.tile i).stall = none ∧ (u.tile i).cycle = (s.tile i).transFree + 1 ∧
      u.getF Reg.TILE_ISSUED_BUNDLES i 0 =
        min (s.getF Reg.TILE_ISSUED_BUNDLES i 0 + 1) (2 ^ Reg.TILE_ISSUED_BUNDLES.width - 1) := by
  obtain ⟨p, m, htile, hget, -, -, hw⟩ := h.at_cycle (by decide) hlim hc
  unfold transEnd
  simp only [h.stall]
  rw [if_pos ⟨h.cause, h.stalled⟩]
  have hempty : ((tileAt s i (s.tile i).transFree).tile i).stores = [] := by rw [htile]; simp [Tile.later, hnone]
  have hcycle : ((tileAt s i (s.tile i).transFree).tile i).cycle = (s.tile i).transFree := by rw [htile]; rfl
  have hfree : ((tileAt s i (s.tile i).transFree).tile i).transFree = (s.tile i).transFree := by rw [htile]; rfl
  have hpc : ((tileAt s i (s.tile i).transFree).tile i).pc = (s.tile i).pc := by rw [htile]; rfl
  have hcvt : (op == .cvt) = false := by cases op <;> simp_all [VecOp.isTrans]
  have hissued := hw.issues (by simp [hempty]) rfl rfl rfl (by simp [slotHitch, vecUnsupported, hcvt, hcycle, hfree]) rfl rfl
    (fun _ _ _ e => by cases e)
    (slotEffects_ofTrans _ i f ht) (by simp [takesTrans, resumed, Tile.active])
    (takesTrans_straight (resumed_straight hw.straight)) (by simp [takesTrans, resumed])
    (by simp [takesTrans, resumed])
  obtain ⟨hpc', hrun, hstall, hcyc⟩ := hissued.goes_on
  refine ⟨_, rfl, ?_, ?_, hrun, hstall, ?_, ?_⟩
  · rw [hissued.tile, id, Tile.issued_eq, Tile.advance_frame]
    simpa [takesTrans, resumed] using hcycle
  · rw [hpc']
    simpa [takesTrans, resumed] using hpc
  · rw [hcyc]
    simpa [takesTrans, resumed] using hcycle
  · rw [hissued.counted, takesTrans, State.getF_modTile, resumed, State.getF_modTile, hget]
    exact key_stallCycles_ne_issued i (by rw [h.cause]; decide)
end

/-- A RECVT that times out changes the doors and what they skip, the expected number, and counts a message that came too late. -/
theorem doTimeout_frame (s : State) (i : TileId) (f : MsgF) :
    (∃ a b, (doTimeout s i f).1.tile i = { s.tile i with doors := a, skipped := b }) ∧ (doTimeout s i f).1.now = s.now ∧
      ((doTimeout s i f).1.regs = (s.wrapF Reg.TILE_DOOR_EXPECTED_SEQ i f.door.toNat 1).regs ∨
        (doTimeout s i f).1.regs =
          ((s.wrapF Reg.TILE_DOOR_EXPECTED_SEQ i f.door.toNat 1).countF Reg.TILE_DOOR_LATE_DISCARD i 0 1).regs) := by
  unfold doTimeout
  dsimp only
  split
  · next m _ =>
    exact ⟨⟨(s.tile i).doors.set f.door.toFin ((s.tile i).doors[f.door.toFin].erase m), (s.tile i).skipped, by simp [Tile.dropMsg]⟩,
      rfl, .inr rfl⟩
  · exact ⟨⟨(s.tile i).doors, _, State.tile_modTile _ i _⟩, rfl, .inl rfl⟩

theorem getF_of_regs {s u : State} (h : u.regs = s.regs) (f : Fld) (inst k : Nat) : u.getF f inst k = s.getF f inst k := by
  unfold State.getF
  rw [h]

theorem getF_doTimeout_ne {s : State} {i : TileId} {f : MsgF} {g : Fld} {inst k : Nat}
    (hseq : Reg.TILE_DOOR_EXPECTED_SEQ.key i f.door.toNat ≠ g.key inst k) (hlate : Reg.TILE_DOOR_LATE_DISCARD.key i 0 ≠ g.key inst k) :
    (doTimeout s i f).1.getF g inst k = s.getF g inst k := by
  obtain ⟨-, -, h | h⟩ := doTimeout_frame s i f
  · rw [getF_of_regs h, State.getF_wrapF_ne _ _ hseq]
  · rw [getF_of_regs h, State.getF_countF_ne _ _ hlate, State.getF_wrapF_ne _ _ hseq]

theorem getF_doTimeout_seq (s : State) (i : TileId) (f : MsgF) :
    (doTimeout s i f).1.getF Reg.TILE_DOOR_EXPECTED_SEQ i f.door.toNat =
      (s.getF Reg.TILE_DOOR_EXPECTED_SEQ i f.door.toNat + 1) % 2 ^ Reg.TILE_DOOR_EXPECTED_SEQ.width := by
  obtain ⟨-, -, h | h⟩ := doTimeout_frame s i f
  · rw [getF_of_regs h, State.getF_wrapF_same]
  · rw [getF_of_regs h, State.getF_countF_ne, State.getF_wrapF_same]
    simp [Fld.key, Reg.TILE_DOOR_LATE_DISCARD, Reg.TILE_DOOR_EXPECTED_SEQ, blockBase]
    omega

theorem doTimeout_tileTime (s : State) (i : TileId) (f : MsgF) (n : Nat) : (doTimeout s i f).1.tileTime i n = s.tileTime i n := by
  obtain ⟨⟨a, b, h⟩, -, -⟩ := doTimeout_frame s i f
  refine tileTime_of (by rw [h]) (by rw [h]) (getF_doTimeout_ne ?_ ?_)
  all_goals
    simp [Fld.key, Reg.TILE_DOOR_LATE_DISCARD, Reg.TILE_DOOR_EXPECTED_SEQ, Reg.BRK_CUR_N, blockBase]
    omega

/-- The tile's RECVT has expired. -/
def expired (s : State) (i : TileId) (time : Nat) : State := (s.atTime time).modTile i (fun t => { t with timedOut := true })

theorem tile_expired (s : State) (i : TileId) (time : Nat) : (expired s i time).tile i = { s.tile i with timedOut := true } := by
  simp [expired]

theorem getF_expired (s : State) (i : TileId) (time : Nat) (f : Fld) (inst k : Nat) :
    (expired s i time).getF f inst k = s.getF f inst k := rfl

theorem Waiting.expired {s : State} {i : TileId} {st : Stall} {cause : Nat} {o : SlotOp} (h : Waiting s i st cause o) (time : Nat) :
    Waiting (Machine.expired s i time) i st cause o where
  stalled := by rw [tile_expired]; exact h.stalled
  stall := by rw [tile_expired]; exact h.stall
  cause := h.cause
  ops := h.ops
  acts := by rw [tile_expired, ← h.acts]; cases o <;> rfl
  parity := by
    rw [tile_expired, ← h.parity]
    have hacts : (fun o : SlotOp => o.acts { s.tile i with timedOut := true }) = fun o => o.acts (s.tile i) := by
      funext o
      cases o <;> rfl
    unfold parityHit
    rw [hacts]
  straight := by rw [tile_expired]; exact h.straight
  inside := by rw [tile_expired]; exact h.inside

theorem tileTime_mono (s : State) (i : TileId) (n : Nat) : s.tileTime i n ≤ s.tileTime i (n + 1) := by
  unfold State.tileTime Tile.timeAt
  have : (n - (s.tile i).anchorCycle) * 40 / s.clockN i ≤ (n + 1 - (s.tile i).anchorCycle) * 40 / s.clockN i :=
    Nat.div_le_div_right (by omega)
  omega

theorem doorTake_of {s u : State} {i : TileId} {d : BitVec 4} (hdoors : (u.tile i).doors = (s.tile i).doors)
    (hmode : u.getF Reg.TILE_DOOR_MODE i d.toNat = s.getF Reg.TILE_DOOR_MODE i d.toNat)
    (hseq : u.getF Reg.TILE_DOOR_EXPECTED_SEQ i d.toNat = s.getF Reg.TILE_DOOR_EXPECTED_SEQ i d.toNat) :
    doorTake u i d = doorTake s i d := by
  unfold doorTake
  rw [hdoors, hmode, hseq]

section
variable {s : State} {i : TileId} {st : Stall} {time c : Nat}

/-- An expired RECVT without its message issues: the door expects the next message. -/
theorem Waiting.recvt_issues {f : MsgF} (h : Waiting s i st 0 (.msg .recvt f)) (hsx : f.sx[0] = false)
    (hp2p : doorP2P s i f.door = true) (htake : doorTake s i f.door = none) (hout : (s.tile i).timedOut = true)
    (hnone : (s.tile i).stores = []) :
    ∃ u, retryStall s i 0 = u ∧ (u.tile i).pc = (s.tile i).pc + 1 ∧ (u.tile i).pstate = .running ∧ (u.tile i).stall = none ∧
      (u.tile i).cycle = (s.tile i).cycle + 1 ∧
      u.getF Reg.TILE_ISSUED_BUNDLES i 0 =
        min (s.getF Reg.TILE_ISSUED_BUNDLES i 0 + 1) (2 ^ Reg.TILE_ISSUED_BUNDLES.width - 1) ∧
      u.now = max s.now (s.tileTime i ((s.tile i).cycle + 1)) ∧
      u.getF Reg.TILE_DOOR_EXPECTED_SEQ i f.door.toNat =
        (s.getF Reg.TILE_DOOR_EXPECTED_SEQ i f.door.toNat + 1) % 2 ^ Reg.TILE_DOOR_EXPECTED_SEQ.width := by
  have hstraight := resumed_straight (o := .msg .recvt f) (run := st.run) h.straight
  have hslot : slotHitch s i [.msg .recvt f] (.msg .recvt f) = none := by simp [slotHitch, msgHitch, hsx, hp2p, htake, hout]
  have htile : (resumed s i (.msg .recvt f) st.run).tile i =
      { s.tile i with
        pstate := .running
        stall := some { cause := 3, ops := [.msg .recvt f], need := 0, run := st.run, also := 0 } } := State.tile_modTile ..
  have heffects : slotEffects (resumed s i (.msg .recvt f) st.run) i [.msg .recvt f] =
      doTimeout (resumed s i (.msg .recvt f) st.run) i f := by
    have htake' : doorTake (resumed s i (.msg .recvt f) st.run) i f.door = none :=
      (doorTake_of (s := s) (u := resumed s i (.msg .recvt f) st.run) (by rw [htile]) rfl rfl).trans htake
    rw [slotEffects_recvt, msgIssue]
    simp only [htake']
  have hissue {s' : State} {ps : List Pend} := h.issues (s' := s') (ps := ps) (by simp [hnone]) rfl rfl rfl hslot rfl rfl
    (fun _ _ _ e => by cases e)
  have hregs : ∀ g inst k, (resumed s i (.msg .recvt f) st.run).getF g inst k = s.getF g inst k := fun _ _ _ => rfl
  have hrnow : (resumed s i (.msg .recvt f) st.run).now = s.now := rfl
  have hrtime : ∀ n, (resumed s i (.msg .recvt f) st.run).tileTime i n = s.tileTime i n := fun n =>
    tileTime_of (by rw [htile]) (by rw [htile]) (hregs ..)
  generalize resumed s i (.msg .recvt f) st.run = r at *
  obtain ⟨⟨a, b, hframe⟩, hnow, -⟩ := doTimeout_frame r i f
  have hlen : (doTimeout r i f).1.getF Reg.TILE_PROG_LEN i 0 = s.getF Reg.TILE_PROG_LEN i 0 := by
    rw [getF_doTimeout_ne, hregs]
    all_goals simp [Fld.key, Reg.TILE_DOOR_LATE_DISCARD, Reg.TILE_DOOR_EXPECTED_SEQ, Reg.TILE_PROG_LEN, blockBase]
    all_goals omega
  have hissued := hissue (s' := (doTimeout r i f).1) (ps := (doTimeout r i f).2) heffects (by rw [hframe, htile]; rfl) (by rw [hframe]; exact hstraight) (by rw [hframe, htile]) hlen
  obtain ⟨hpc, hrun, hstall, hcyc⟩ := hissued.goes_on
  have hcyc' : ((doTimeout r i f).1.tile i).cycle = (s.tile i).cycle := by rw [hframe, htile]
  refine ⟨_, rfl, ?_, hrun, hstall, ?_, ?_, ?_, ?_⟩
  · rw [hpc, hframe, htile]
  · rw [hcyc, hcyc']
  · rw [hissued.counted, getF_doTimeout_ne, hregs]
    all_goals simp [Fld.key, Reg.TILE_DOOR_LATE_DISCARD, Reg.TILE_DOOR_EXPECTED_SEQ, Reg.TILE_ISSUED_BUNDLES, blockBase]
    all_goals omega
  · rw [hissued.clock, hnow, hrnow, hcyc', doTimeout_tileTime, hrtime]
  · rw [hissued.regs, getF_doTimeout_seq, hregs]
    · simp [Fld.key, Reg.TILE_DOOR_EXPECTED_SEQ, Reg.TILE_ISSUED_BUNDLES, blockBase]
      omega
    · intro k
      match k with
      | 0 => simp [Fld.key, Reg.TILE_DOOR_EXPECTED_SEQ, numField, Reg.TILE_NAN_PRODUCED, blockBase]; omega
      | 1 => simp [Fld.key, Reg.TILE_DOOR_EXPECTED_SEQ, numField, Reg.TILE_INF_PRODUCED, blockBase]; omega
      | 2 => simp [Fld.key, Reg.TILE_DOOR_EXPECTED_SEQ, numField, Reg.TILE_INVALID_CONVERT, blockBase]; omega
      | 3 => simp [Fld.key, Reg.TILE_DOOR_EXPECTED_SEQ, numField, Reg.TILE_INT_SAT, blockBase]; omega

/-- A RECVT that expires at cycle `c` issues there. -/
theorem recvt_issues {f : MsgF} (h : Waiting s i st 0 (.msg .recvt f)) (hlim : s.getF Reg.TILE_STALL_LIMIT i 0 = 0)
    (hsx : f.sx[0] = false) (hp2p : doorP2P s i f.door = true) (htake : doorTake s i f.door = none)
    (hc : (s.tile i).cycle ≤ c) (hnone : (s.tile i).stores = []) :
    ∃ u, retryStall (expired (tileAt s i c) i time) i 0 = u ∧
      (u.tile i).pc = (s.tile i).pc + 1 ∧ (u.tile i).pstate = .running ∧ (u.tile i).stall = none ∧ (u.tile i).cycle = c + 1 ∧
      u.getF Reg.TILE_ISSUED_BUNDLES i 0 =
        min (s.getF Reg.TILE_ISSUED_BUNDLES i 0 + 1) (2 ^ Reg.TILE_ISSUED_BUNDLES.width - 1) ∧
      u.now = max (max s.now time) (s.tileTime i (c + 1)) ∧
      u.getF Reg.TILE_DOOR_EXPECTED_SEQ i f.door.toNat =
        (s.getF Reg.TILE_DOOR_EXPECTED_SEQ i f.door.toNat + 1) % 2 ^ Reg.TILE_DOOR_EXPECTED_SEQ.width := by
  obtain ⟨p, m, htile, hget, hnow, htime, hw⟩ := h.at_cycle (c := c) (by decide) hlim hc
  have hcause : st.cause = 0 := h.cause
  have hmode : (tileAt s i c).getF Reg.TILE_DOOR_MODE i f.door.toNat = s.getF Reg.TILE_DOOR_MODE i f.door.toNat := by
    refine hget _ _ ?_
    simp [hcause, Fld.key, Reg.TILE_STALL_CYCLES, Reg.TILE_DOOR_MODE, blockBase]
    omega
  have hseq : (tileAt s i c).getF Reg.TILE_DOOR_EXPECTED_SEQ i f.door.toNat = s.getF Reg.TILE_DOOR_EXPECTED_SEQ i f.door.toNat := by
    refine hget _ _ ?_
    simp [hcause, Fld.key, Reg.TILE_STALL_CYCLES, Reg.TILE_DOOR_EXPECTED_SEQ, blockBase]
    omega
  have hcount := hget Reg.TILE_ISSUED_BUNDLES 0 (key_stallCycles_ne_issued i (by rw [hcause]; decide))
  generalize tileAt s i c = x at *
  have hx := hw.expired time
  obtain ⟨u, hu, hpc, hrun, hstall, hcyc, hcount', hnow', hseq'⟩ := hx.recvt_issues hsx
    (by rw [doorP2P, getF_expired, hmode]; exact hp2p)
    ((doorTake_of (u := expired x i time) (by rw [tile_expired, htile, Tile.later]) hmode hseq).trans htake)
    (by rw [tile_expired]) (by rw [tile_expired, htile]; simp [Tile.later, hnone])
  refine ⟨u, hu, ?_, hrun, hstall, ?_, ?_, ?_, ?_⟩
  · rw [hpc, tile_expired, htile, Tile.later]
  · rw [hcyc, tile_expired, htile, Tile.later]
  · rw [hcount', getF_expired, hcount]
  · have hcycle : ((expired x i time).tile i).cycle = c := by rw [tile_expired, htile, Tile.later]
    have htime' : (expired x i time).tileTime i (c + 1) = x.tileTime i (c + 1) :=
      tileTime_of (by rw [tile_expired]) (by rw [tile_expired]) rfl
    have hxnow : (expired x i time).now = max x.now time := rfl
    rw [hnow', hcycle, htime', htime, hxnow, hnow]
    have := tileTime_mono s i c
    omega
  · rw [hseq', getF_expired, hseq]
end

/-- Settles O11: each event brings its bundle to the cycle of the event, and then nothing hinders it. -/
theorem waitingBundlesIssue : Obligations.WaitingBundlesIssue := by
  unfold Obligations.WaitingBundlesIssue
  intro s i st time t waits on
  have waiting {cause : Nat} {o : SlotOp} (h : waits cause o) :
      Waiting s i st cause o ∧ s.getF Reg.TILE_STALL_LIMIT i 0 = 0 := by
    obtain ⟨hstalled, hstall, hcause, hops, hacts, hparity, -, hloops, hbranch, hshadow, hlim, hlen⟩ := h
    exact ⟨⟨hstalled, hstall, hcause, hops, hacts, hparity, ⟨hloops, hbranch, hshadow⟩, hlen⟩, hlim⟩
  refine ⟨fun f w h => ?_, fun op f ht h hc hnone => ?_, fun f c c' h hsx hp2p htake hpassed hc hnone hcomp hc' => ?_⟩
  · obtain ⟨hw, hlim⟩ := waiting h
    obtain ⟨u, hu, hstores, hpc, hrun, hstall, hcyc, hcount⟩ := fence_issues hw hlim
    exact ⟨u, congrArg Host.Outcome.next hu, hstores, hpc, hrun, hstall, hcyc, hcount⟩
  · obtain ⟨hw, hlim⟩ := waiting h
    obtain ⟨u, hu, hfree, hpc, hrun, hstall, hcyc, hcount⟩ := trans_issues ht hw hlim hc hnone
    exact ⟨u, congrArg Host.Outcome.next hu, hfree, hpc, hrun, hstall, hcyc, hcount⟩
  · obtain ⟨hw, hlim⟩ := waiting h
    have hle : (s.tile i).cycle ≤ c' := by
      rw [hc']
      split
      · exact Nat.le_succ_of_le hc
      · exact hc
    obtain ⟨u, hu, hpc, hrun, hstall, hcyc, hcount, hnow, hseq⟩ := recvt_issues (time := time) hw hlim hsx hp2p htake hle hnone
    refine ⟨u, ?_, ⟨hpc, hrun, hstall, hcyc, hcount⟩, hnow, hseq⟩
    rw [← hu, hc']
    change Host.Outcome.next (recvtExpiry s i time c) = _
    unfold recvtExpiry
    simp only [hw.stall]
    rw [if_pos]
    · rfl
    · refine ⟨hw.stalled, hw.cause, ?_, by simpa using hcomp⟩
      simpa [hw.ops, hw.acts] using hpassed
end Sys2Proof.Machine
end

section
namespace Sys2Proof.Machine

set_option Elab.async false

/-! O12: arrivals at a running tile. -/

section
variable {s : State} {i : TileId} {c : Nat}

/-- An event at program cycle `c` of a running tile. -/
theorem tileAt_running (h : (s.tile i).pstate = .running) : tileAt s i c = (s.atTime (s.tileTime i c)).landStores i c := by
  have hstall : stallTo s i c = s := if_neg (by simp [h])
  have hactive : (s.tile i).active = true := by simp [Tile.active, h]
  rw [tileAt, hstall, State.clockTo, if_pos hactive]

/-- Nothing waits at a running tile. -/
theorem retryStall_running (cause : Nat) (h : (s.tile i).pstate = .running) : retryStall s i cause = s := by
  unfold retryStall
  dsimp only
  split
  · rw [if_neg (by simp [h])]
  · rfl

/-- What an event at a running tile finds: device time is that of the cycle, and stores have landed. -/
theorem tileAt_running_frame (h : (s.tile i).pstate = .running) :
    ∃ l p m, tileAt s i c = (s.modTile i (fun t => { t with stores := l, pantry := p, marver := m })).atTime (s.tileTime i c) := by
  obtain ⟨p, m, e⟩ := landStores_frame (s.atTime (s.tileTime i c)) i c
  exact ⟨_, p, m, by rw [tileAt_running h, e]; rfl⟩
end

section
variable {s : State} {i : TileId} {d : BitVec 4} {m : DoorMsg} {time : Nat}

/-- A door admits a message (spec 02 R79, R81): its mode and its sender fit, and it has room. -/
structure Admits (s : State) (i : TileId) (d : BitVec 4) (m : DoorMsg) : Prop where
  fits : m.remote = false ∧ (s.getF Reg.TILE_DOOR_MODE i d.toNat = 2 ∨
      s.getF Reg.TILE_DOOR_MODE i d.toNat = 1 ∧ m.srcTile = s.getF Reg.TILE_DOOR_SENDER_TILE i d.toNat) ∨
    m.remote = true ∧ s.getF Reg.TILE_DOOR_MODE i d.toNat = 3 ∧ m.srcTile = s.getF Reg.TILE_DOOR_SENDER_TILE i d.toNat ∧
      m.srcMember = s.getF Reg.TILE_DOOR_SENDER_MEMBER i d.toNat
  skipped : (s.tile i).skipped[d.toFin] = []
  room : (s.tile i).doors[d.toFin].length < 8 ∧ occupancy (s.tile i).doors[d.toFin] + m.regs.length ≤ 8

/-- A message that its door admits is held. -/
theorem arriveMsg_admits (h : Admits s i d m) : arriveMsg s i d m time =
    s.modTile i (fun t => { t with doors := t.doors.set d.toFin ((s.tile i).doors[d.toFin] ++ [{ msg := m, time := time }]) }) := by
  obtain ⟨hlen, hocc⟩ := h.room
  have hroom : ¬ ((s.tile i).doors[d.toFin].length ≥ 8 ∨ occupancy (s.tile i).doors[d.toFin] + m.regs.length > 8) := by omega
  unfold arriveMsg
  rcases h.fits with ⟨hloc, hmode | ⟨hmode, hsender⟩⟩ | ⟨hrem, hmode, htile, hmember⟩
  · simp only [hloc, hmode, h.skipped, if_neg hroom]
    simp
  · simp only [hloc, hmode, hsender, h.skipped, if_neg hroom]
    simp
  · simp only [hrem, hmode, htile, hmember, h.skipped, if_neg hroom]
    simp

/-- A message arrives at a running tile whose door admits it. -/
theorem arrival_held {c : Nat} (hrun : (s.tile i).pstate = .running) (h : Admits s i d m) :
    let u := retryStall (arriveMsg ((tileAt s i c).atTime time) i d m time) i 0
    (u.tile i).doors = (s.tile i).doors.set d.toFin ((s.tile i).doors[d.toFin] ++ [{ msg := m, time := time }]) ∧
      (u.tile i).v = (s.tile i).v ∧ (u.tile i).sreg = (s.tile i).sreg ∧ u.regs = s.regs ∧
      u.now = max (max s.now (s.tileTime i c)) time ∧ (∀ j, j ≠ i → u.tile j = s.tile j) ∧ u.net = s.net := by
  obtain ⟨l, p, mv, e⟩ := tileAt_running_frame (c := c) hrun
  have htile : ((tileAt s i c).atTime time).tile i = { s.tile i with stores := l, pantry := p, marver := mv } := by
    rw [State.tile_atTime, e, State.tile_atTime, State.tile_modTile]
  have hadmits : Admits ((tileAt s i c).atTime time) i d m := by
    constructor
    · rw [e]
      exact h.fits
    · rw [htile]
      exact h.skipped
    · rw [htile]
      exact h.room
  rw [arriveMsg_admits hadmits, retryStall_running _ (by rw [State.tile_modTile, htile]; exact hrun)]
  refine ⟨?_, ?_, ?_, by rw [e]; rfl, by rw [e]; rfl, fun j hj => ?_, by rw [e]; rfl⟩
  · rw [State.tile_modTile, htile]
  · rw [State.tile_modTile, htile]
  · rw [State.tile_modTile, htile]
  · rw [State.tile_modTile_ne _ _ hj, State.tile_atTime, e, State.tile_atTime, State.tile_modTile_ne _ _ hj]
end

/-- Credits that arrive at a running tile add to the slot of their door. -/
theorem credits_add {s : State} {i : TileId} {d : SendDest} {n k c : Nat} (hrun : (s.tile i).pstate = .running)
    (hslot : creditSlot s i d = some k) (hroom : s.getF Reg.TILE_CS_CREDITS i k + n ≤ 8) :
    let u := retryStall (arriveCredit (tileAt s i c) i d n) i 1
    u.credits = s.credits ∧ u.getF Reg.TILE_CS_CREDITS i k = s.getF Reg.TILE_CS_CREDITS i k + n := by
  obtain ⟨l, p, mv, e⟩ := tileAt_running_frame (c := c) hrun
  have hslot' : creditSlot (tileAt s i c) i d = some k := by rw [e]; exact hslot
  have hget : (tileAt s i c).getF Reg.TILE_CS_CREDITS i k = s.getF Reg.TILE_CS_CREDITS i k := by rw [e]; rfl
  have harrive : arriveCredit (tileAt s i c) i d n =
      (tileAt s i c).setF Reg.TILE_CS_CREDITS i k (s.getF Reg.TILE_CS_CREDITS i k + n) := by
    unfold arriveCredit
    simp only [hslot', hget]
    rw [if_neg (by omega)]
  rw [harrive, retryStall_running _ (by rw [State.tile_setF, e, State.tile_atTime, State.tile_modTile]; exact hrun)]
  refine ⟨by rw [State.setF_credits, e]; rfl, ?_⟩
  rw [State.getF_setF_same, Nat.mod_eq_of_lt]
  have : 2 ^ Reg.TILE_CS_CREDITS.width > 8 := by decide
  omega

/-- Settles O12: the tile runs, so that an arrival changes its door or its credits and no bundle issues. -/
theorem doorsHoldMessages : Obligations.DoorsHoldMessages := by
  unfold Obligations.DoorsHoldMessages
  intro s i d time c t mode room held
  refine ⟨fun l m hrun hactive hfind hloc hmode hskip hroom => ?_, fun m hrun hactive hrem hmode htile hmember hskip hroom => ?_,
    fun l e r k hrun hactive hfind hslot hroom => ?_, fun m l e n k hrun hactive hslot hroom => ?_⟩
  · have h := arrival_held (s := { s with net := s.net.erase m }) (d := d) (m := m.msg) (time := time) (c := c) hrun
      ⟨.inl ⟨hloc, hmode⟩, hskip, hroom⟩
    obtain ⟨hdoors, hv, hsreg, hregs, hnow, hothers, hnet⟩ := h
    refine ⟨_, ?_, ⟨hdoors, hv, hsreg, hregs, hnow, hothers⟩, hnet⟩
    change Host.Outcome.next (messageArrival s i d (.local l) time c) = _
    unfold messageArrival
    simp only [hfind, hactive, if_true]
  · have h := arrival_held (s := s) (d := d) (m := m) (time := time) (c := c) hrun
      ⟨.inr ⟨hrem, hmode, htile, hmember⟩, hskip, hroom⟩
    obtain ⟨hdoors, hv, hsreg, hregs, hnow, hothers, hnet⟩ := h
    refine ⟨_, ?_, ⟨hdoors, hv, hsreg, hregs, hnow, hothers⟩, hnet⟩
    change Host.Outcome.next (messageArrival s i d (.remote m) time c) = _
    unfold messageArrival
    have hm : ({ m with remote := true } : DoorMsg) = m := by rw [← hrem]
    simp only [hactive, if_true, hm]
  · obtain ⟨hcredits, hget⟩ := credits_add (s := { s with credits := s.credits.erase r }) (c := c) hrun hslot hroom
    refine ⟨_, ?_, hcredits, hget⟩
    change Host.Outcome.next (creditReturn s i (.local l e) c) = _
    unfold creditReturn
    simp only [hfind, hactive, if_true]
  · obtain ⟨hcredits, hget⟩ := credits_add (s := s) (c := c) hrun hslot hroom
    refine ⟨_, ?_, hcredits, hget⟩
    change Host.Outcome.next (creditReturn s i (.remote m l e n) c) = _
    unfold creditReturn
    simp only [hactive, if_true]
end Sys2Proof.Machine
end

section
namespace Sys2Proof.Machine

set_option Elab.async false

/-! O14: descriptors and the waits at bank arbiters. -/

/-! Counting the cycles that a master waited changes no field that the checks of a pantry or of DRAM read. -/

section
variable {s : State} {i j : TileId} {m n : Nat}

@[simp] theorem tile_countWaits : (countWaits s i m n).tile j = s.tile j := by
  unfold countWaits
  split <;> rfl

theorem countWaits_regs : countWaits s i m n = { s with regs := (countWaits s i m n).regs } := by
  unfold countWaits
  split <;> rfl

theorem getF_countWaits {f : Fld} {inst k : Nat} (h : Reg.PANTRY_CONFLICT_CYCLES.key i m ≠ f.key inst k) :
    (countWaits s i m n).getF f inst k = s.getF f inst k := by
  unfold countWaits
  split
  · rfl
  · exact State.getF_countF_ne _ _ h

theorem regionOpens_countWaits {k d g : Nat} {w : Bool} (hm : m < 7) (hk : k < 7) (hd : d < 8) :
    regionOpens (countWaits s i m n) j k w g d = regionOpens s j k w g d := by
  unfold regionOpens State.flag
  dsimp only
  rw [getF_countWaits, getF_countWaits, getF_countWaits, getF_countWaits]
  all_goals (repeat' split)
  all_goals simp [Fld.key, Reg.PANTRY_CONFLICT_CYCLES, Reg.PANTRY_RD_EN, Reg.PANTRY_RD_BASE, Reg.PANTRY_RD_LAST,
    Reg.PANTRY_RD_W, Reg.PANTRY_RD_R, blockBase]
  all_goals omega

theorem permitted_countWaits {k l : Nat} {w : Bool} (hm : m < 7) (hk : k < 7) :
    permitted (countWaits s i m n) j k w l = permitted s j k w l := by
  unfold permitted
  rw [Bool.eq_iff_iff, List.any_eq_true, List.any_eq_true]
  refine exists_congr fun d => and_congr_right fun hd => ?_
  rw [regionOpens_countWaits hm hk (List.mem_range.mp hd)]

theorem bankOn_countWaits {b : Nat} (hm : m < 7) (hb : b < 40) : bankOn (countWaits s i m n) j b = bankOn s j b := by
  unfold bankOn
  rw [getF_countWaits]
  simp [Fld.key, Reg.PANTRY_CONFLICT_CYCLES, Reg.PANTRY_BANK_CUR, blockBase]
  omega

theorem bankOf_lt {a n l : Nat} (h : a + n ≤ pantryBytes) (hl : l ∈ linesOf a n) : bankOf l < 40 := by
  unfold linesOf at hl
  split at hl
  · simp at hl
  · simp only [List.mem_map, List.mem_range] at hl
    unfold pantryBytes at h
    unfold bankOf
    omega

theorem find?_eq_of_agree {α : Type} {p q : α → Bool} {l : List α} (h : ∀ x ∈ l, p x = q x) : l.find? p = l.find? q := by
  induction l with
  | nil => rfl
  | cons x l ih =>
    rw [List.find?_cons, List.find?_cons, h x List.mem_cons_self, ih fun y hy => h y (List.mem_cons_of_mem x hy)]

theorem pantryCheck_countWaits {x : PAccess} (hm : m < 7) (hx : x.master < 7) :
    pantryCheck (countWaits s i m n) j x = pantryCheck s j x := by
  unfold pantryCheck
  dsimp only
  by_cases hspace : x.addr + x.len > pantryBytes
  · simp only [if_pos hspace]
  · have hp : ∀ l, (!permitted (countWaits s i m n) j x.master x.write l) = !permitted s j x.master x.write l := fun l => by
      rw [permitted_countWaits hm hx]
    have hb : (linesOf x.addr x.len).find? (fun l => !bankOn (countWaits s i m n) j (bankOf l)) =
        (linesOf x.addr x.len).find? (fun l => !bankOn s j (bankOf l)) :=
      find?_eq_of_agree fun l hl => by rw [bankOn_countWaits hm (bankOf_lt (by omega) hl)]
    simp only [hp, hb]

theorem mapped_countWaits {l : Nat} (hm : m < 7) : (countWaits s i m n).mapped l = s.mapped l := by
  unfold State.mapped State.tileActive State.logical
  refine find?_eq_of_agree fun k _ => ?_
  rw [getF_countWaits, getF_countWaits]
  all_goals simp [Fld.key, Reg.PANTRY_CONFLICT_CYCLES, Reg.TILE_MAP_STATE, Reg.TILE_LOGICAL_X, blockBase]
  all_goals omega

theorem dramSize_countWaits (hm : m < 7) : dramSize (countWaits s i m n) = dramSize s := by
  unfold dramSize chansInService
  congr 2
  refine List.filter_congr fun c hc => ?_
  rw [List.mem_range] at hc
  unfold chanInService
  rw [getF_countWaits]
  simp [Fld.key, Reg.PANTRY_CONFLICT_CYCLES, Reg.DDR_STATE, blockBase]
  omega
end

section
variable {s : State} {i : TileId} {h : Fin 16} {d : AccDesc} {c k : Nat} {x : MoveCost}

/-- Row `rowsDone` of the descriptor on a handle has been moved. -/
def movedRow (u : State) (i : TileId) (h : Fin 16) (d : AccDesc) : State := u.setDesc i h (some { d with rowsDone := d.rowsDone + 1 })

/-- One row of a descriptor that goes on, or that is the last of its chain. -/
theorem moveRows_one {u : State} {late : Nat} (hd : (s.tile i).descs[h] = some d)
    (hdest : d.kind = 4 → (s.mapped d.destTile).isSome = true) (hrow : d.rowsDone < d.rows)
    (hlast : d.rowsDone + 1 < d.rows ∨ d.chain = false) (hmove : moveRow s i h d = (u, none)) :
    moveRows i h c late 1 s = movedRow u i h d := by
  have hno : ¬ (d.kind = 4 ∧ (s.mapped d.destTile).isNone = true) := by
    rintro ⟨hk, hnone⟩
    have := hdest hk
    simp_all
  simp only [moveRows, hd, if_neg hno, if_pos hrow, hmove]
  split
  · next hend =>
    have hchain : d.chain = false := hlast.resolve_left (by omega)
    simp only [hchain, Bool.false_eq_true, if_false]
    rfl
  · rfl

/-- The engine may move a row of the descriptor at program cycle `c`. -/
structure Bound (s : State) (i : TileId) (h : Fin 16) (d : AccDesc) (c k : Nat) : Prop where
  running : (s.tile i).pstate = .running
  handle : (s.tile i).descs[h] = some d
  kind : d.kind = k
  eligible : eligible s i d c = true
  first : firstServed s i d c = true
  row : d.rowsDone < d.rows
  last : d.rowsDone + 1 < d.rows ∨ d.chain = false

/-- The state in which the row moves: time is that of the cycle, stores have landed, and the waits of the ACCESS master count. -/
def movingAt (s : State) (i : TileId) (c : Nat) (x : MoveCost) : State :=
  countWaits ((s.atTime (s.tileTime i c)).landStores i c) i mAccess x.wait

theorem descs_landStores (t : State) : ((t.landStores i c).tile i).descs = (t.tile i).descs := by
  obtain ⟨p, m, e⟩ := landStores_frame t i c
  rw [e, State.tile_modTile]

theorem landStores_regs (t : State) : (t.landStores i c).regs = t.regs := by
  obtain ⟨p, m, e⟩ := landStores_frame t i c
  rw [e]
  rfl

theorem mapped_of_regs {s u : State} (h : u.regs = s.regs) (l : Nat) : u.mapped l = s.mapped l := by
  unfold State.mapped State.tileActive State.logical State.getF
  rw [h]

theorem pantryCheck_of_regs {s u : State} (h : u.regs = s.regs) (j : TileId) (a : PAccess) : pantryCheck u j a = pantryCheck s j a := by
  unfold pantryCheck permitted regionOpens bankOn State.flag State.getF
  rw [h]

theorem pantryCheck_movingAt (j : TileId) {a : PAccess} (ha : a.master < 7) :
    pantryCheck (movingAt s i c x) j a = pantryCheck s j a := by
  rw [movingAt, pantryCheck_countWaits (by decide) ha]
  exact pantryCheck_of_regs (landStores_regs _) j a

theorem mapped_movingAt (l : Nat) : (movingAt s i c x).mapped l = s.mapped l := by
  rw [movingAt, mapped_countWaits (by decide)]
  exact mapped_of_regs (landStores_regs _) l

theorem dramSize_of_regs {s u : State} (h : u.regs = s.regs) : dramSize u = dramSize s := by
  unfold dramSize chansInService chanInService State.getF
  rw [h]

theorem dramSize_movingAt : dramSize (movingAt s i c x) = dramSize s := by
  rw [movingAt, dramSize_countWaits (by decide)]
  exact dramSize_of_regs (landStores_regs _)

theorem landStores_dram (t : State) :
    (t.landStores i c).dram = t.dram ∧ (t.landStores i c).dramUe = t.dramUe ∧ (t.landStores i c).dramCe = t.dramCe := by
  obtain ⟨p, m, e⟩ := landStores_frame t i c
  rw [e]
  exact ⟨rfl, rfl, rfl⟩

theorem countWaits_dram (t : State) (n m : Nat) :
    (countWaits t i m n).dram = t.dram ∧ (countWaits t i m n).dramUe = t.dramUe ∧ (countWaits t i m n).dramCe = t.dramCe := by
  rw [countWaits_regs]
  exact ⟨rfl, rfl, rfl⟩

theorem movingAt_dram : (movingAt s i c x).dram = s.dram ∧ (movingAt s i c x).dramUe = s.dramUe ∧ (movingAt s i c x).dramCe = s.dramCe := by
  unfold movingAt
  obtain ⟨h1, h2, h3⟩ := countWaits_dram (i := i) ((s.atTime (s.tileTime i c)).landStores i c) x.wait mAccess
  obtain ⟨h4, h5, h6⟩ := landStores_dram (i := i) (c := c) (s.atTime (s.tileTime i c))
  exact ⟨h1.trans h4, h2.trans h5, h3.trans h6⟩

/-- A descriptor of a kind that names no other tile moves its row. -/
theorem Bound.moves (hb : Bound s i h d c k) (hk : k ≠ 4) {u : State} (hmove : moveRow (movingAt s i c x) i h d = (u, none)) :
    moveDesc s i h k 1 c x = movedRow u i h d := by
  have hd : ((movingAt s i c x).tile i).descs[h] = some d := by
    rw [movingAt, tile_countWaits]
    simp only [descs_landStores]
    exact hb.handle
  unfold moveDesc
  simp only [hb.handle]
  rw [if_pos ⟨hb.kind, hb.row, hb.eligible, hb.first⟩, tileAt_running hb.running]
  have hsame : (match (movingAt s i c x).mapped d.destTile with
      | some j => if k = 4 then countWaits (movingAt s i c x) j mMessage x.msgWait else movingAt s i c x
      | none => movingAt s i c x) = movingAt s i c x := by
    split
    · rw [if_neg hk]
    · rfl
  have hone := moveRows_one (c := c) (late := x.late) hd (fun h4 => absurd (hb.kind.symm.trans h4) hk) hb.row hb.last hmove
  rw [← hone]
  exact congrArg (moveRows i h c x.late 1) hsame

/-- A descriptor to another tile's pantry moves its row; the MESSAGE master's waits there count. -/
theorem Bound.moves_tile (hb : Bound s i h d c 4) {j : TileId} (hj : s.mapped d.destTile = some j) {u : State}
    (hmove : moveRow (countWaits (movingAt s i c x) j mMessage x.msgWait) i h d = (u, none)) :
    moveDesc s i h 4 1 c x = movedRow u i h d := by
  have hd : ((countWaits (movingAt s i c x) j mMessage x.msgWait).tile i).descs[h] = some d := by
    rw [tile_countWaits, movingAt, tile_countWaits]
    simp only [descs_landStores]
    exact hb.handle
  have hmap : (countWaits (movingAt s i c x) j mMessage x.msgWait).mapped d.destTile = some j := by
    rw [mapped_countWaits (by decide), mapped_movingAt, hj]
  unfold moveDesc
  simp only [hb.handle]
  rw [if_pos ⟨hb.kind, hb.row, hb.eligible, hb.first⟩, tileAt_running hb.running]
  have hsame : (match (movingAt s i c x).mapped d.destTile with
      | some j => if 4 = 4 then countWaits (movingAt s i c x) j mMessage x.msgWait else movingAt s i c x
      | none => movingAt s i c x) = countWaits (movingAt s i c x) j mMessage x.msgWait := by
    rw [mapped_movingAt, hj]
    rfl
  have hone := moveRows_one (c := c) (late := x.late) hd (fun _ => by rw [hmap]; rfl) hb.row hb.last hmove
  rw [← hone]
  exact congrArg (moveRows i h c x.late 1) hsame
end

section
variable {s : State} {i : TileId} {h : Fin 16} {d : AccDesc} {c : Nat} {x : MoveCost}

/-- The tile once its stores have landed: the one whose row moves. -/
theorem tile_movingAt (j : TileId) : (movingAt s i c x).tile j = ((s.atTime (s.tileTime i c)).landStores i c).tile j := tile_countWaits

/-- A clean source row of the pantry is read as it stands. -/
theorem load_movingAt {a n : Nat} (hcheck : pantryCheck s i { master := mAccess, handle := h, write := false, addr := a, len := n } = none)
    (hclean : (((s.atTime (s.tileTime i c)).landStores i c).tile i).clean a n) :
    pantryLoad (movingAt s i c x) i none { master := mAccess, handle := h.val, write := false, addr := a, len := n } =
      (movingAt s i c x, none, Memory.readN (((s.atTime (s.tileTime i c)).landStores i c).tile i).pantry.mem a n) := by
  rw [pantryLoad_clean (by rw [pantryCheck_movingAt _ (show mAccess < 7 by decide), hcheck]) (by rw [tile_movingAt]; exact hclean),
    tile_movingAt]

/-- A row whose destination the checks let pass is written. -/
theorem pantryStore_pass {t : State} {j : TileId} {m k z : Nat} {data : List Byte}
    (hcheck : pantryCheck t j { master := m, handle := k, write := true, addr := z, len := data.length } = none) :
    pantryStore t j m k z data = (t.putPantry j z data, none) := by
  unfold pantryStore
  rw [hcheck]

/-- A DRAM read without errors answers the bytes; it changes no more than the list of correctable lines. -/
theorem dramRead_clean {t : State} {a n : Nat} (hsize : a + n ≤ dramSize t)
    (hlines : ∀ l ∈ dramLines a n, t.dramUe.contains l = false ∧ t.dramCe.contains l = false) :
    dramRead t a n = ({ t with dramCe := t.dramCe.filter (fun l => !(dramLines a n).contains l) }, none, Memory.readN t.dram a n) := by
  have hue : (dramLines a n).find? (t.dramUe.contains ·) = none :=
    List.find?_eq_none.mpr fun l hl => by simpa using (hlines l hl).1
  have hce : (dramLines a n).filter (t.dramCe.contains ·) = [] :=
    List.filter_eq_nil_iff.mpr fun l hl => by simpa using (hlines l hl).2
  unfold dramRead
  dsimp only
  rw [hue, hce]
  dsimp only [List.foldl_nil]
  exact if_pos hsize

/-- A DRAM write where no line is uncorrectable stores its bytes. -/
theorem dramWrite_clean {t : State} {a : Nat} {data : List Byte} (hsize : a + data.length ≤ dramSize t) (hue : t.dramUe = []) :
    dramWrite t a data = ({ t with
      dram := Memory.writeL t.dram a data
      dramUe := []
      dramCe := t.dramCe.filter (fun l => !(dramLines a data.length).contains l) }, none) := by
  unfold dramWrite
  simp only [hue, List.contains_nil, List.filter_nil]
  rw [List.find?_eq_none.mpr (by simp)]
  dsimp only
  rw [List.take_of_length_le (by omega)]

theorem rotRow_length (d : AccDesc) (y : List Byte) : (d.rotRow y).length = y.length := by simp [AccDesc.rotRow, rotLoad]

/-- A row from DRAM. -/
theorem moveRow_fromDram {t : State} (hk : d.kind = 1) (hsize : d.srcRow d.rowsDone + d.rowBytes ≤ dramSize t)
    (hlines : ∀ l ∈ dramLines (d.srcRow d.rowsDone) d.rowBytes, t.dramUe.contains l = false ∧ t.dramCe.contains l = false)
    (hwrite : pantryCheck t i
      { master := mAccess, handle := h, write := true, addr := d.dstRow d.rowsDone, len := (d.rotRow (Memory.readN t.dram (d.srcRow d.rowsDone) d.rowBytes)).length } = none) :
    moveRow t i h d = (({ t with
      dramCe := t.dramCe.filter (fun l => !(dramLines (d.srcRow d.rowsDone) d.rowBytes).contains l) } : State).putPantry i
        (d.dstRow d.rowsDone) (d.rotRow (Memory.readN t.dram (d.srcRow d.rowsDone) d.rowBytes)), none) := by
  unfold moveRow
  simp only [hk, if_true, dramRead_clean hsize hlines]
  rw [if_neg (by decide), if_neg (by decide)]
  exact pantryStore_pass hwrite

/-- A row to DRAM. -/
theorem moveRow_toDram {t : State} {old : List Byte} (hk : d.kind = 2)
    (hload : pantryLoad t i none { master := mAccess, handle := h.val, write := false, addr := d.srcRow d.rowsDone, len := d.rowBytes } =
      (t, none, old)) (hsize : d.dstRow d.rowsDone + (d.rotRow old).length ≤ dramSize t) (hue : t.dramUe = []) :
    moveRow t i h d = ({ t with
      dram := Memory.writeL t.dram (d.dstRow d.rowsDone) (d.rotRow old)
      dramUe := []
      dramCe := t.dramCe.filter (fun l => !(dramLines (d.dstRow d.rowsDone) (d.rotRow old).length).contains l) }, none) := by
  unfold moveRow
  simp only [hk, Nat.reduceEqDiff, if_false, hload, if_true, dramWrite_clean hsize hue]

/-- A row within the pantry. -/
theorem moveRow_within {t : State} {old : List Byte} (hk : d.kind = 3)
    (hload : pantryLoad t i none { master := mAccess, handle := h.val, write := false, addr := d.srcRow d.rowsDone, len := d.rowBytes } =
      (t, none, old))
    (hwrite : pantryCheck t i { master := mAccess, handle := h, write := true, addr := d.dstRow d.rowsDone, len := (d.rotRow old).length } = none) :
    moveRow t i h d = (t.putPantry i (d.dstRow d.rowsDone) (d.rotRow old), none) := by
  unfold moveRow
  simp only [hk, Nat.reduceEqDiff, if_false, hload]
  exact pantryStore_pass hwrite

/-- A row to the pantry of another tile. -/
theorem moveRow_toTile {t : State} {old : List Byte} {j : TileId} (hk : d.kind = 4) (hj : t.mapped d.destTile = some j)
    (hload : pantryLoad t i none { master := mAccess, handle := h.val, write := false, addr := d.srcRow d.rowsDone, len := d.rowBytes } =
      (t, none, old))
    (hwrite : pantryCheck t j { master := mMessage, handle := h, write := true, addr := d.dstRow d.rowsDone, len := (d.rotRow old).length } = none) :
    moveRow t i h d = (t.putPantry j (d.dstRow d.rowsDone) (d.rotRow old), none) := by
  unfold moveRow
  simp only [hk, Nat.reduceEqDiff, if_false, hload, hj, if_true]
  exact pantryStore_pass hwrite

/-- A row of a FILL. -/
theorem moveRow_fill {t : State} (hk : d.kind = 5)
    (hwrite : pantryCheck t i
      { master := mAccess, handle := h, write := true, addr := d.dstRow d.rowsDone, len := (d.rotRow (List.replicate (d.rowBytes / 8) d.pattern).flatten).length } = none) :
    moveRow t i h d = (t.putPantry i (d.dstRow d.rowsDone) (d.rotRow (List.replicate (d.rowBytes / 8) d.pattern).flatten), none) := by
  unfold moveRow
  simp only [hk, Nat.reduceEqDiff, if_false, if_true]
  exact pantryStore_pass hwrite

/-- A finished descriptor of a running tile frees its handle and is counted. -/
theorem descComplete_running {waited : Nat} (hrun : (s.tile i).pstate = .running) (hd : (s.tile i).descs[h] = some d)
    (hdone : d.done = true) : descComplete s i h c waited =
      (((countLate ((s.atTime (s.tileTime i c)).landStores i c) i d c waited).countF Reg.PANTRY_DESC_COMPLETED i 0
        (d.finished + 1)).modTile i (fun t => { t with descs := t.descs.set h none })).settleClashes := by
  have hlate : ∀ t : State, (countLate t i d c waited).tile i = t.tile i := fun t => by
    unfold countLate
    dsimp only
    split
    · split <;> rfl
    · rfl
  have hstate : ∀ t : State, (t.settleClashes.tile i).pstate = (t.tile i).pstate := fun t => by
    unfold State.settleClashes
    split
    · simp [State.mapHazards, State.tile]
    · rfl
  unfold descComplete
  simp only [hd, hdone, if_true, tileAt_running hrun]
  have hgo : (((((countLate ((s.atTime (s.tileTime i c)).landStores i c) i d c waited).countF Reg.PANTRY_DESC_COMPLETED i 0
      (d.finished + 1)).setDesc i h none).settleClashes).tile i).pstate = .running := by
    obtain ⟨p, m, e⟩ := landStores_frame (s.atTime (s.tileTime i c)) i c
    rw [hstate, State.setDesc, State.tile_modTile, State.tile_countF, hlate, e, State.tile_modTile]
    exact hrun
  unfold retryAfter
  split
  · rw [if_neg (by rw [hgo]; simp)]
    rfl
  · rfl

/-- The engine moves no row of a descriptor that is not eligible, or that another eligible one comes before. -/
theorem moveDesc_waits {k n : Nat} (hd : (s.tile i).descs[h] = some d)
    (hwait : eligible s i d c = false ∨ firstServed s i d c = false) : moveDesc s i h k n c x = s := by
  unfold moveDesc
  simp only [hd]
  rw [if_neg]
  rintro ⟨-, -, helig, hfirst⟩
  rcases hwait with hno | hno
  · exact absurd helig (by simp [hno])
  · exact absurd hfirst (by simp [hno])

/-- A descriptor that needs its data later than the engine may run ahead is not eligible. -/
theorem not_eligible (hneed : d.needTime ≠ 0) (hlate : c + s.getF Reg.PANTRY_RUNAHEAD i 0 < d.needTime) : eligible s i d c = false := by
  have h0 : (d.needTime == 0) = false := by simp [hneed]
  simp [eligible, h0]
  omega

/-- An eligible descriptor that is needed earlier, or was bound earlier, comes first. -/
theorem not_firstServed {k : Fin 16} {e : AccDesc} (he : (s.tile i).descs[k] = some e) (hrow : e.rowsDone < e.rows)
    (helig : eligible s i e c = true) (hbefore : e.before d = true) : firstServed s i d c = false := by
  unfold firstServed
  rw [List.all_eq_false]
  refine ⟨some e, ?_, by simp [hrow, helig, hbefore]⟩
  rw [← he]
  simp
end

/-- Settles O14: each kind moves its row through the checks of its source and its destination. -/
theorem descriptorsMoveRows : Obligations.DescriptorsMoveRows := by
  unfold Obligations.DescriptorsMoveRows
  refine ⟨fun s i h d c x => ?_, fun s i h d rows c x hd hlate => ?_⟩
  · intro s1 s2 p n a z bound next readable writable
    have bound' {k : Nat} (hb : bound k) : Bound s i h d c k := by
      obtain ⟨hrun, hd, hk, helig, hfirst, hrow, hlast⟩ := hb
      exact ⟨hrun, hd, hk, helig, hfirst, hrow, hlast⟩
    have writes {y : List Byte} (hw : writable y) : pantryCheck (movingAt s i c x) i
        { master := mAccess, handle := h, write := true, addr := d.dstRow d.rowsDone, len := y.length } = none := by
      rw [pantryCheck_movingAt _ (show mAccess < 7 by decide)]
      exact hw
    obtain ⟨hdram, hue, hce⟩ := movingAt_dram (s := s) (i := i) (c := c) (x := x)
    refine ⟨?_, ?_, ?_, ?_, ?_, ?_⟩
    · rintro data rfl hb hsize hlines hw
      have hb := bound' hb
      have hmove := moveRow_fromDram (t := movingAt s i c x) (i := i) (h := h) hb.kind (by rw [dramSize_movingAt]; exact hsize)
        (by rw [hue, hce]; exact hlines) (by rw [hdram]; exact writes hw)
      rw [hdram] at hmove
      exact ⟨_, congrArg Host.Outcome.next (hb.moves (by decide) hmove), rfl, rfl⟩
    · rintro data rfl hb ⟨hread, hclean⟩ hnoue hsize
      have hb := bound' hb
      have hmove := moveRow_toDram (t := movingAt s i c x) (i := i) (h := h) hb.kind (load_movingAt hread hclean)
        (by rw [dramSize_movingAt]; exact hsize) (by rw [hue, hnoue])
      rw [hdram] at hmove
      exact ⟨_, congrArg Host.Outcome.next (hb.moves (by decide) hmove), rfl, rfl⟩
    · rintro data rfl hb ⟨hread, hclean⟩ hw
      have hb := bound' hb
      exact congrArg Host.Outcome.next (hb.moves (by decide) (moveRow_within hb.kind (load_movingAt hread hclean) (writes hw)))
    · rintro data j rfl hb ⟨hread, hclean⟩ hj hw
      have hb := bound' hb
      have hmap : (countWaits (movingAt s i c x) j mMessage x.msgWait).mapped d.destTile = some j := by
        rw [mapped_countWaits (by decide), mapped_movingAt, hj]
      have hload : pantryLoad (countWaits (movingAt s i c x) j mMessage x.msgWait) i none
          { master := mAccess, handle := h.val, write := false, addr := d.srcRow d.rowsDone, len := d.rowBytes } =
          (countWaits (movingAt s i c x) j mMessage x.msgWait, none,
            Memory.readN (((s.atTime (s.tileTime i c)).landStores i c).tile i).pantry.mem (d.srcRow d.rowsDone) d.rowBytes) := by
        rw [pantryLoad_clean, tile_countWaits, tile_movingAt]
        · rw [pantryCheck_countWaits (by decide) (show mAccess < 7 by decide), pantryCheck_movingAt _ (show mAccess < 7 by decide)]
          exact hread
        · rw [tile_countWaits, tile_movingAt]
          exact hclean
      have hwrite := (pantryCheck_countWaits (s := movingAt s i c x) (i := j) (j := j) (m := mMessage) (n := x.msgWait) (by decide)
        (show mMessage < 7 by decide)).trans ((pantryCheck_movingAt j (show mMessage < 7 by decide)).trans hw)
      exact congrArg Host.Outcome.next (hb.moves_tile hj (moveRow_toTile hb.kind hmap hload hwrite))
    · rintro data rfl hb hw
      have hb := bound' hb
      exact congrArg Host.Outcome.next (hb.moves (by decide) (moveRow_fill hb.kind (writes hw)))
    · intro waited hrun hd hdone
      exact congrArg Host.Outcome.next (descComplete_running hrun hd hdone)
  · have hwait : eligible s i d c = false ∨ firstServed s i d c = false := by
      rcases hlate with ⟨hneed, hlate⟩ | ⟨k, e, he, hrow, hdgo, hneed, hahead, hbound, hbefore⟩
      · exact .inl (not_eligible hneed hlate)
      · refine .inr (not_firstServed he hrow (by simp [eligible, hdgo, hahead]) ?_)
        simp only [AccDesc.before, hneed, if_false, Bool.or_eq_true, decide_eq_true_eq, Bool.and_eq_true, beq_iff_eq]
        split <;> omega
    have hstay {k : Nat} : moveDesc s i h k rows c x = s := moveDesc_waits hd hwait
    exact ⟨congrArg Host.Outcome.next hstay, congrArg Host.Outcome.next hstay, congrArg Host.Outcome.next hstay,
      congrArg Host.Outcome.next hstay, congrArg Host.Outcome.next hstay⟩
end Sys2Proof.Machine
end

section
namespace Sys2Proof.Machine

set_option Elab.async false

/-! O15: the head of the gather queue. -/

/-- Settles O15: the tile runs, so that each command finds the stores landed and the head of the queue as it is. -/
theorem gatherUpdatesComplete : Obligations.GatherUpdatesComplete := by
  unfold Obligations.GatherUpdatesComplete
  intro s i g gs c s1 hrun hhead
  refine ⟨fun waited rows w hdirect hattached hrows hblocks herr => ?_, fun wait r hdirect hattached hlines => ?_⟩
  · have hattach : gstatAttach s i waited c = gstatResult i g w := by
      unfold gstatAttach
      simp only [hhead, hdirect, hattached, hrows, tileAt_running hrun]
      exact congrArg (gstatResult i g) hblocks
    have hresult : gstatResult i g w = w.s.modTile i (fun t => { t with
        gather := { g with attached := true, lines := w.lines, num := w.num } :: t.gather.tail }) := by
      unfold gstatResult
      rw [herr]
    exact congrArg Host.Outcome.next (hattach.trans hresult)
  · refine congrArg Host.Outcome.next ?_
    unfold gstatComplete
    simp only [hhead, hdirect, hattached, tileAt_running hrun, Bool.not_true, Bool.and_false, Bool.false_eq_true, if_false]
    have hwritten : writeLines i mSeq ((countWaits s1 i mSeq wait).dropHazards i (.gstat g.id), none) g.lines = (r, none) := hlines
    rw [hwritten]
end Sys2Proof.Machine
end

section
namespace Sys2Proof.Machine

set_option Elab.async false

/-! O16 fails: the status lines that a descriptor writes at its end are writes since the ISSUE of the descriptors behind it, which
note them (spec 06 R254), so that the rest of the queue does not stay as it was. -/

/-- A descriptor that runs with one problem done; its status line is line 0. -/
def runningMv : MvDesc :=
  { id := 1, addr := 4096, words := [], running := true, touched := [],
    problems := [{ src := [], rhs := [], out := MvOutcome.base 0 1, lines := [], undef := [] }] }

/-- The descriptor behind it. -/
def waitingMv : MvDesc := { id := 2, addr := 8192, words := [], problems := [], running := false, touched := [] }

/-- Tile 0 runs with both in its queue; master SEQ may write the whole pantry. -/
def twoMarver : State :=
  (((State.reset.setF Reg.PANTRY_RD_EN 0 8 1).setF Reg.PANTRY_RD_W 0 8 1).setF Reg.PANTRY_RD_LAST 0 8 5119).setTile 0
    { Tile.reset with pstate := .running, marver := [runningMv, waitingMv] }

/-- The end of the first descriptor. -/
def oneMarver : State := marverDone twoMarver 0 0 0

/-- The second descriptor knows of the status line written. -/
theorem oneMarver_touched : (oneMarver.tile 0).marver.map (·.touched) = [[0]] := by decide +kernel

theorem twoMarver_head :
    (((twoMarver.atTime (twoMarver.tileTime 0 0)).landStores 0 0).tile 0).marver = [runningMv, waitingMv] := by decide +kernel

theorem twoMarver_writable :
    finishFail ((twoMarver.atTime (twoMarver.tileTime 0 0)).landStores 0 0) 0
      (runningMv.problems.flatMap (·.lines) ++ [{
        addr := runningMv.status
        data := runningMv.problems.flatMap (fun p => statusBytes p.out) ++
          List.replicate ((64 - (runningMv.problems.flatMap (fun p => statusBytes p.out)).length % 64) % 64) 0#8 }]) = none := by
  decide +kernel

/-- Refutes O16: of two queued descriptors, the end of the first marks the second as touched. -/
theorem not_marverCommands : ¬ Obligations.MarverCommands := by
  unfold Obligations.MarverCommands
  intro h
  obtain ⟨-, hdone, -⟩ := h twoMarver 0 runningMv [waitingMv] 0
  obtain ⟨u, hu, hqueue, -⟩ := hdone 0 rfl twoMarver_head rfl rfl (.inl (by decide +kernel)) twoMarver_writable
  have hend : exec (.marverDescriptorDone 0 ⟨0, 0⟩) twoMarver = .next oneMarver := rfl
  obtain rfl : oneMarver = u := by simpa [hend] using hu
  have htouched := oneMarver_touched
  rw [hqueue] at htouched
  exact absurd htouched (by decide)
end Sys2Proof.Machine
end

section
namespace Sys2Proof.Machine

set_option Elab.async false

/-! O17: the pantry's other masters, its banks and its sweep. -/

section
variable {s : State} {i : TileId}

theorem getF_raise_ne (s : State) {ty pg inst b : Nat} {g : Fld} {inst' k : Nat} (h : (Hdr.INT_STATUS ty pg).key inst 0 ≠ g.key inst' k) :
    (s.raise ty pg inst b).getF g inst' k = s.getF g inst' k := State.getF_setF_ne s _ h

theorem bit_raise (s : State) (ty pg inst : Nat) {b : Nat} (hb : b < 32) :
    bit ((s.raise ty pg inst b).getF (Hdr.INT_STATUS ty pg) inst 0) b = true := by
  unfold State.raise
  rw [State.getF_setF_same, bit_eq_testBit]
  have hwidth : (Hdr.INT_STATUS ty pg).width = 32 := rfl
  rw [hwidth, Nat.testBit_mod_two_pow, Nat.testBit_or, Nat.testBit_two_pow_self]
  simp [hb]

@[simp] theorem tile_modPantry (f : Pantry → Pantry) : (s.modPantry i f).tile i = { s.tile i with pantry := f (s.tile i).pantry } :=
  State.tile_modTile s i _

/-- A master reads bytes that it may read. -/
theorem masterAccess_reads {m a len : Nat} (hcheck : pantryCheck s i { master := m, write := false, addr := a, len := len } = none)
    (hclean : (s.tile i).clean a len) :
    masterAccess s i m a len none 0 = { s with reply := { data := Memory.readN (s.tile i).pantry.mem a len, err := 0 } } := by
  unfold masterAccess
  have hload := pantryLoad_clean (x := { master := m, handle := 15, write := false, addr := a, len := len }) hcheck hclean
  simp only [countWaits, if_true, hload, Option.getD_none]

/-- A master writes bytes that it may write. -/
theorem masterAccess_writes {m a n : Nat} {data : List Byte}
    (hcheck : pantryCheck s i { master := m, write := true, addr := a, len := data.length } = none) :
    masterAccess s i m a n (some data) 0 = { s.putPantry i a data with reply := { data := [], err := 0 } } := by
  unfold masterAccess
  have hstore : pantryStore s i m 15 a data = (s.putPantry i a data, none) := pantryStore_pass hcheck
  simp only [countWaits, if_true, hstore, Option.getD_none]

/-- The second word of a region descriptor that is not enabled. -/
theorem regionWrite_last {n : Fin 4} {m : Fin 7} {d : Fin 8} {v : Word} (hm : 3 ≤ m.val)
    (hoff : s.flag Reg.PANTRY_RD_EN i (8 * m.val + d.val) = false) :
    regionWrite s (.cp n) i m d true v = s.setF Reg.PANTRY_RD_LAST i (8 * m.val + d.val) (v.toNat % 8192) := by
  have hen : (s.setF Reg.PANTRY_RD_LAST i (8 * m.val + d.val) (v.toNat % 8192)).flag Reg.PANTRY_RD_EN i (8 * m.val + d.val) = false := by
    rw [← hoff]
    unfold State.flag
    rw [State.getF_setF_ne]
    simp [Fld.key, Reg.PANTRY_RD_LAST, Reg.PANTRY_RD_EN, blockBase]
    omega
  have hgo : (!(Actor.cp n).isCp || (decide (m.val < 3) && (s.tile i).active)) = false := by
    simp [Actor.isCp]
    omega
  unfold regionWrite
  simp only [hgo, Bool.false_eq_true, if_false, if_true, hen, Bool.false_and]

/-! Bank requests. -/

/-- The word of BANK_REQ that asks for RETENTION of one of its banks holds 3 for every other. -/
theorem bankCode_one : ∀ k j : Fin 16,
    bits (BitVec.ofNat 32 (2 ^ 32 - 1 - 2 * 4 ^ k.val)).toNat (2 * j.val + 1) (2 * j.val) = if j = k then 1 else 3 := by
  decide +kernel

/-- Requests with code 3 change nothing, so that of a list of banks only one asks. -/
theorem bankRequests_one {f : State → Nat → State} {l : List Nat} {k : Nat} (hnodup : l.Nodup) (hk : k ∈ l)
    (hother : ∀ t j, j ∈ l → j ≠ k → f t j = t) (s : State) : l.foldl f s = f s k := by
  have hnone (l : List Nat) (hl : ∀ t j, j ∈ l → f t j = t) (s : State) : l.foldl f s = s := by
    induction l generalizing s with
    | nil => rfl
    | cons j l ih => rw [List.foldl_cons, hl s j (by simp), ih fun t x hx => hl t x (List.mem_cons_of_mem _ hx)]
  induction l generalizing s with
  | nil => simp at hk
  | cons j l ih =>
    rw [List.foldl_cons]
    obtain ⟨hj, hnodup⟩ := List.nodup_cons.mp hnodup
    by_cases hjk : j = k
    · subst hjk
      exact hnone l (fun t x hx => hother t x (List.mem_cons_of_mem _ hx) fun e => hj (e ▸ hx)) _
    · rw [hother s j (by simp) hjk]
      exact ih hnodup ((List.mem_cons.mp hk).resolve_left fun e => hjk e.symm)
        (fun t x hx => hother t x (List.mem_cons_of_mem _ hx)) s

theorem bankReqWrite_one (n : Fin 4) (b : Fin 40) (hw : b.val / 16 < 3) :
    bankReqWrite s (.cp n) i ⟨b.val / 16, hw⟩ (BitVec.ofNat 32 (2 ^ 32 - 1 - 2 * 4 ^ (b.val % 16))) =
      bankRequest (ungateBank s i b.val) i b.val 1 := by
  have hdiv : 16 * (b.val / 16) + b.val % 16 = b.val := Nat.div_add_mod ..
  have hcode : ∀ j < 16, bits (BitVec.ofNat 32 (2 ^ 32 - 1 - 2 * 4 ^ (b.val % 16))).toNat (2 * j + 1) (2 * j) =
      if j = b.val % 16 then 1 else 3 := by
    intro j hj
    have := bankCode_one ⟨b.val % 16, Nat.mod_lt _ (by decide)⟩ ⟨j, hj⟩
    simpa [Fin.ext_iff] using this
  unfold bankReqWrite
  simp only [Actor.isCp, Bool.not_true, Bool.false_eq_true, if_false]
  rw [bankRequests_one (k := b.val % 16)]
  · simp only [hcode _ (Nat.mod_lt _ (by decide)), if_true, hdiv, Nat.reduceEqDiff, if_false]
  · exact List.Pairwise.filter _ List.nodup_range
  · simp only [List.mem_filter, List.mem_range, decide_eq_true_eq]
    omega
  · intro t j hj hne
    simp only [List.mem_filter, List.mem_range] at hj
    simp only [hcode j hj.1, if_neg hne, if_true, bankRequest]

/-- A bank that is ON and in no transition begins one to RETENTION. -/
theorem bankRequest_begins {b : Nat} (hb : b < 40) (hnone : (s.tile i).pantry.trans = []) (hon : s.getF Reg.PANTRY_BANK_CUR i b = 2) :
    bankRequest s i b 1 = ((s.setF Reg.PANTRY_BANK_REQ i b 1).setF Reg.PANTRY_BANK_CUR i b 3).modPantry i (fun p =>
      { p with trans := p.trans ++ [{ bank := b, from_ := 2, target := 1, pending := none }] }) := by
  have hcur : (s.setF Reg.PANTRY_BANK_REQ i b 1).getF Reg.PANTRY_BANK_CUR i b = 2 := by
    rw [← hon, State.getF_setF_ne]
    simp only [Fld.key, Reg.PANTRY_BANK_REQ, Reg.PANTRY_BANK_CUR, blockBase]
    omega
  unfold bankRequest
  simp only [Nat.reduceEqDiff, if_false, State.tile_setF, hnone, List.any_nil, Bool.false_eq_true, hcur]

/-! The end of a transition. -/

theorem read_wipeBank (p : Pantry) (b a : Nat) :
    Memory.read (p.wipeBank b).mem a = if bankOf (a / 64) = b then 0#8 else Memory.read p.mem a := by
  have h := Memory.read_filter (fun x => bankOf (x / 64) != b) p.mem a
  refine Eq.trans h ?_
  by_cases hab : bankOf (a / 64) = b <;> simp [hab]

theorem modPantry_congr {f g : Pantry → Pantry} (h : f (s.tile i).pantry = g (s.tile i).pantry) : s.modPantry i f = s.modPantry i g := by
  simp only [State.modPantry, State.modTile, h]

/-- The contents after a transition: lost on the way to OFF and from it. -/
theorem bankEnd_only {b f g : Nat} (ht : (s.tile i).pantry.trans = [{ bank := b, from_ := f, target := g, pending := none }]) :
    bankEnd s i b = ((s.modPantry i (fun p => if g = 0 ∨ f = 0 then { p with trans := [] }.wipeBank b else { p with trans := [] })).setF
      Reg.PANTRY_BANK_CUR i b g).raise 2 0 i 3 := by
  have hfind : (s.tile i).pantry.trans.find? (·.bank == b) = some { bank := b, from_ := f, target := g, pending := none } := by
    rw [ht]
    simp
  unfold bankEnd
  simp only [hfind]
  congr 2
  exact modPantry_congr (by simp [ht])

/-! The sweep. -/

theorem wordsIn_filter_none (l : List Nat) (a n : Nat) : wordsIn (l.filter (fun w => !(wordsIn l a n).contains w)) a n = [] := by
  unfold wordsIn
  rw [List.filter_eq_nil_iff]
  intro w hw hin
  simp only [List.mem_filter, Bool.not_eq_true', decide_eq_false_iff_not, List.elem_eq_mem] at hw
  exact hw.2 ⟨hw.1, hin⟩

/-- Words with double-bit errors are raised and counted: the register file and the free values change, no tile does. -/
theorem sweepDoubles_tiles (l : List Nat) (s : State) : (l.foldl (sweepDouble i) s).tiles = s.tiles := by
  induction l generalizing s with
  | nil => rfl
  | cons w l ih =>
    rw [List.foldl_cons, ih]
    unfold sweepDouble recordPErr
    split
    · rfl
    · rw [State.recordErr_tiles]
      rfl

/-- What the sweep leaves of its next region, which is ON and where no line fails. -/
theorem sweepRegion_good (hen : s.flag Reg.PANTRY_SWEEP_EN i 0 = true) (hgo : (s.tile i).pantry.halted = none)
    (hon : regionOn s i (s.tile i).pantry.sweepNext = true) (hr : (s.tile i).pantry.sweepNext < 5119) :
    ∃ t : State, t.tiles = s.tiles ∧ sweepRegion s i [] = (t.modPantry i (fun p => { p with
      single := p.single.filter (fun w => !(wordsIn (s.tile i).pantry.single (4096 * (s.tile i).pantry.sweepNext) 4096).contains w)
      sweepNext := (s.tile i).pantry.sweepNext + 1 })).setF Reg.PANTRY_REGION i 0 (s.tile i).pantry.sweepNext := by
  have hmod : (s.tile i).pantry.sweepNext % 5120 = (s.tile i).pantry.sweepNext := Nat.mod_eq_of_lt (by omega)
  have hnext : nextRegion s i 5120 (s.tile i).pantry.sweepNext = some (s.tile i).pantry.sweepNext := by
    rw [nextRegion, hmod, if_pos hon]
  have hpass : ¬ (s.tile i).pantry.sweepNext + 1 ≥ 5120 := by omega
  have hstep : ((s.tile i).pantry.sweepNext + 1) % 5120 = (s.tile i).pantry.sweepNext + 1 := Nat.mod_eq_of_lt (by omega)
  unfold sweepRegion
  simp only [hen, hgo, hnext, hmod, hstep, if_neg hpass, Bool.not_true, Option.isSome_none, Bool.or_self, Bool.false_eq_true, if_false,
    List.foldl_nil]
  refine ⟨_, ?_, rfl⟩
  rw [sweepDoubles_tiles]
  split <;> rfl
end

/-- A field that has been returned to its reset value. -/
theorem getF_resetFld_same (s : State) {f : Fld} {inst k n : Nat} (hk : k < n) (hinj : ∀ j < n, j ≠ k → f.key inst j ≠ f.key inst k) :
    (s.resetFld f inst n).getF f inst k = f.resetAt inst k % 2 ^ f.width := by
  induction n with
  | zero => omega
  | succ n ih =>
    rw [State.resetFld]
    by_cases hkn : k = n
    · subst hkn
      exact State.getF_setF_same ..
    · rw [State.getF_setF_ne _ _ (hinj n (by omega) fun e => hkn e.symm)]
      exact ih (by omega) fun j hj => hinj j (by omega)

/-- The counters of a pantry's page 2 after CTR_CLEAR. -/
theorem counterClear_zero (s : State) (i : TileId) : (counterClear s i).getF Reg.PANTRY_DESC_COMPLETED i 0 = 0 ∧
    (∀ m : Fin 7, (counterClear s i).getF Reg.PANTRY_CONFLICT_CYCLES i m = 0) ∧ (counterClear s i).tiles = s.tiles := by
  have hclear : counterClear s i = (s.resetFld Reg.PANTRY_DESC_COMPLETED i 1).resetFld Reg.PANTRY_CONFLICT_CYCLES i 7 := rfl
  refine ⟨?_, fun m => ?_, by rw [counterClear, resetFlds_eq_regs]⟩
  · rw [hclear, getF_resetFld_ne, getF_resetFld_same _ (by decide)]
    · simp [Fld.resetAt, Reg.PANTRY_DESC_COMPLETED, Reg.CP_WDT_PERIOD, Reg.AGE_V_SET, Reg.PSEQ_CUR, Reg.PSEQ_REQ]
    · omega
    · intro j hj
      simp [Fld.key, Reg.PANTRY_DESC_COMPLETED, Reg.PANTRY_CONFLICT_CYCLES]
      omega
  · rw [hclear, getF_resetFld_same _ m.isLt]
    · simp [Fld.resetAt, Reg.PANTRY_CONFLICT_CYCLES, Reg.CP_WDT_PERIOD, Reg.AGE_V_SET, Reg.PSEQ_CUR, Reg.PSEQ_REQ]
    · intro j hj hne
      simp [Fld.key, Reg.PANTRY_CONFLICT_CYCLES]
      omega

/-- Settles O17: each command through the rule of its own operation. -/
theorem pantryCommands : Obligations.PantryCommands := by
  unfold Obligations.PantryCommands
  intro s i n cp
  refine ⟨fun m a len h hcheck hclean => congrArg Host.Outcome.next (masterAccess_reads hcheck hclean), ?_,
    fun m d v hm hoff => congrArg Host.Outcome.next (regionWrite_last hm hoff), fun b hnone hon _ => ?_, fun b f g ht hg => ?_,
    fun hen hgo hon hr => ?_, ?_⟩
  · intro m a len data hlen hcheck
    change execPantryMasterAccess i m a len (some data) 0 s = _
    unfold execPantryMasterAccess
    rw [if_neg (by simpa using hlen), masterAccess_writes hcheck]
  · refine ⟨_, congrArg Host.Outcome.next (bankReqWrite_one n b (by omega)), ?_⟩
    rw [bankRequest_begins (s := ungateBank s i b.val) b.isLt hnone hon]
    refine ⟨?_, ?_, ?_⟩
    · rw [State.modPantry, State.getF_modTile, State.getF_setF_same]
      rfl
    · rw [State.modPantry, State.getF_modTile, State.getF_setF_ne, State.getF_setF_same]
      · rfl
      · simp only [Fld.key, Reg.PANTRY_BANK_REQ, Reg.PANTRY_BANK_CUR, blockBase]
        omega
    · rw [tile_modPantry]
      exact congrArg (· ++ [{ bank := b.val, from_ := 2, target := 1, pending := none }]) hnone
  · refine ⟨_, congrArg Host.Outcome.next (bankEnd_only ht), ?_, ?_, ?_, ?_, bit_raise _ _ _ _ (by decide)⟩
    · rw [getF_raise_ne, State.getF_setF_same]
      · exact Nat.mod_eq_of_lt (by simp [Reg.PANTRY_BANK_CUR]; omega)
      · refine Fld.key_ne_of_bitOnPage ?_ _ _
        simp [Fld.bitOnPage, Hdr.INT_STATUS, Reg.PANTRY_BANK_CUR]
        omega
    · rw [State.tile_raise, State.tile_setF, tile_modPantry]
      split <;> rfl
    · intro a ha
      rw [State.tile_raise, State.tile_setF, tile_modPantry]
      dsimp only
      by_cases hlost : g = 0 ∨ f = 0
      · rw [if_pos hlost, if_pos hlost.symm, read_wipeBank, if_pos ha]
      · rw [if_neg hlost, if_neg fun h => hlost h.symm]
    · intro a ha
      rw [State.tile_raise, State.tile_setF, tile_modPantry]
      dsimp only
      split
      · rw [read_wipeBank, if_neg ha]
      · rfl
  · obtain ⟨t, ht, hsweep⟩ := sweepRegion_good hen hgo hon hr
    have htile : t.tile i = s.tile i := by unfold State.tile; rw [ht]
    have hexec : exec (.sweepRegionStart i []) s = .next (sweepRegion s i []) := by
      change Host.Outcome.next (reportSweep s (sweepRegion s i []) i) = _
      unfold reportSweep
      rw [hsweep, State.tile_setF, tile_modPantry, htile, hgo]
    refine ⟨_, hexec, ?_⟩
    rw [hsweep]
    refine ⟨?_, ?_, ?_, ?_⟩
    · rw [State.getF_setF_same]
      exact Nat.mod_eq_of_lt (by simp [Reg.PANTRY_REGION]; omega)
    · rw [State.tile_setF, tile_modPantry]
    · rw [State.tile_setF, tile_modPantry, htile]
    · rw [State.tile_setF, tile_modPantry, htile]
      exact wordsIn_filter_none ..
  · exact ⟨_, rfl, counterClear_zero s i⟩
end Sys2Proof.Machine
end

section
namespace Sys2Proof.Machine

set_option Elab.async false

/-! O18: the header of a page. -/

/-- The states differ in free values and in the fields at the listed places of the register file alone. -/
structure ChangesAt (s u : State) (ks : List Nat) : Prop where
  rest : u = { s with regs := u.regs, free := u.free }
  fields : ∀ (g : Fld) (i k : Nat), g.key i k ∉ ks → u.getF g i k = s.getF g i k

namespace ChangesAt

theorem refl (s : State) (ks : List Nat) : ChangesAt s s ks := ⟨rfl, fun _ _ _ _ => rfl⟩

theorem trans {s t u : State} {ks : List Nat} (hst : ChangesAt s t ks) (htu : ChangesAt t u ks) : ChangesAt s u ks := by
  refine ⟨?_, fun g i k h => (htu.fields g i k h).trans (hst.fields g i k h)⟩
  rw [htu.rest, hst.rest]

theorem setF (s : State) {f : Fld} {inst k : Nat} (v : Nat) {ks : List Nat} (h : f.key inst k ∈ ks) :
    ChangesAt s (s.setF f inst k v) ks := by
  refine ⟨rfl, fun g i j hg => State.getF_setF_ne s v fun e => hg ?_⟩
  rw [← e]
  exact h

theorem useFree (s : State) (ks : List Nat) : ChangesAt s s.useFree ks := ⟨rfl, fun _ _ _ _ => rfl⟩

theorem countAccess (s : State) (ty inst pg : Nat) {ks : List Nat} (h : (Hdr.PERF_COUNT ty).key inst 0 ∈ ks) :
    ChangesAt s (countAccess s ty inst pg) ks := by
  unfold Machine.countAccess
  split
  · exact setF s _ h
  · exact refl s ks

theorem settlePerf (s : State) (ty inst : Nat) {ks : List Nat} (h : (Hdr.PERF_COUNT ty).key inst 0 ∈ ks) :
    ChangesAt s (settlePerf s ty inst) ks := by
  unfold Machine.settlePerf
  dsimp only
  split
  · exact (setF s _ h).trans (useFree _ _)
  · exact refl s ks

/-- Single fields that return to their reset values. -/
theorem resetFlds (s : State) {fs : List Fld} {inst : Nat} {ks : List Nat} (h : ∀ f ∈ fs, f.cnt = 1 ∧ f.key inst 0 ∈ ks) :
    ChangesAt s (s.resetFlds fs inst) ks := by
  unfold State.resetFlds
  induction fs generalizing s with
  | nil => exact refl s ks
  | cons f fs ih =>
    obtain ⟨hcnt, hkey⟩ := h f List.mem_cons_self
    rw [List.foldl_cons, hcnt]
    exact trans (setF s _ hkey) (ih _ fun g hg => h g (List.mem_cons_of_mem f hg))

end ChangesAt

section
variable {s : State} {a : Actor} {ty inst pg : Nat}

/-- A header command of an actor whose writes the page takes. -/
theorem headerCommand_taken {f : State → State} (hinst : inst < blockInstances ty) (hs : reaches s a = true)
    (htakes : pageTakes s a ty inst = true) (hpg : pg = 0 ∨ ty = 1 ∧ pg = 5) :
    headerCommand s a ty inst pg f = f (countAccess s ty inst pg) := if_pos ⟨hinst, hs, htakes, hpg⟩

theorem key_headers_ne {f g : Fld} (h : f.bitOnPage 0 % 0x8000 ≠ g.bitOnPage 0 % 0x8000) : f.key inst 0 ≠ g.key inst 0 :=
  Fld.key_ne_of_bitOnPage h inst inst

@[simp] theorem bitOnPage_enable (ty : Nat) : (Hdr.ENABLE ty).bitOnPage 0 = 0x40 := by simp [Fld.bitOnPage, Hdr.ENABLE]
@[simp] theorem bitOnPage_freeze (ty : Nat) : (Hdr.FREEZE ty).bitOnPage 0 = 0x42 := by simp [Fld.bitOnPage, Hdr.FREEZE]
@[simp] theorem bitOnPage_perfEvent (ty : Nat) : (Hdr.PERF_EVENT ty).bitOnPage 0 = 0x140 := by simp [Fld.bitOnPage, Hdr.PERF_EVENT]

theorem b2n_mod_two (b : Bool) : b2n b % 2 = b2n b := by cases b <;> rfl

/-- Numbers without a bit in common. -/
theorem or_eq_add_of_and_eq_zero {x y : Nat} (h : x &&& y = 0) : x ||| y = x + y := by
  have hx : x < 2 ^ (x + y) := Nat.lt_of_lt_of_le Nat.lt_two_pow_self (Nat.pow_le_pow_right (by decide) (by omega))
  have hy : y < 2 ^ (x + y) := Nat.lt_of_lt_of_le Nat.lt_two_pow_self (Nat.pow_le_pow_right (by decide) (by omega))
  have hand : BitVec.ofNat (x + y) x &&& BitVec.ofNat (x + y) y = 0#(x + y) := by
    apply BitVec.eq_of_toNat_eq
    rw [BitVec.toNat_and, BitVec.toNat_ofNat, BitVec.toNat_ofNat, Nat.mod_eq_of_lt hx, Nat.mod_eq_of_lt hy, h]
    simp
  have hsum := BitVec.toNat_add_of_and_eq_zero hand
  rw [BitVec.add_eq_or_of_and_eq_zero _ _ hand, BitVec.toNat_or, BitVec.toNat_ofNat, BitVec.toNat_ofNat, Nat.mod_eq_of_lt hx,
    Nat.mod_eq_of_lt hy] at hsum
  exact hsum

/-- The bits of INT_STATUS after some have been written 1. -/
theorem testBit_clear (n v b : Nat) : (n - (n &&& v)).testBit b = (n.testBit b && !v.testBit b) := by
  have hsub : n &&& v ≤ n := Nat.and_le_left
  have hor : (n - (n &&& v)) = n ^^^ (n &&& v) := by
    refine Nat.sub_eq_of_eq_add ?_
    rw [Nat.add_comm, ← or_eq_add_of_and_eq_zero]
    · refine Nat.eq_of_testBit_eq fun i => ?_
      simp only [Nat.testBit_or, Nat.testBit_and, Nat.testBit_xor]
      cases n.testBit i <;> cases v.testBit i <;> rfl
    · refine Nat.eq_of_testBit_eq fun i => ?_
      simp only [Nat.testBit_and, Nat.testBit_xor, Nat.zero_testBit]
      cases n.testBit i <;> cases v.testBit i <;> rfl
  rw [hor, Nat.testBit_xor, Nat.testBit_and]
  cases n.testBit b <;> cases v.testBit b <;> rfl

theorem resetAt_header {f : Fld} (hreset : f.reset = 0) (hne : f.off < 0x100) : f.resetAt inst 0 = 0 := by
  unfold Fld.resetAt
  rw [if_neg (by omega), if_neg (by rintro rfl; simp [Reg.CP_WDT_PERIOD] at hne),
    if_neg (by rintro rfl; simp [Reg.AGE_V_SET] at hne), if_neg (by omega), hreset]

/-- The interrupts and errors of a page. -/
def intFields (ty pg : Nat) : List Fld := [Hdr.INT_STATUS ty pg, Hdr.ERR_CODE ty pg, Hdr.ERR_INFO0 ty pg, Hdr.ERR_INFO1 ty pg]

/-- A header field of a list that has been returned to its reset value reads 0. -/
theorem getF_resetHeader (s : State) {fs : List Fld} {f : Fld} (hf : f ∈ fs)
    (hone : ∀ g ∈ fs, g.cnt = 1) (hzero : f.reset = 0) (hlow : f.off < 0x100) (hnodup : fs.Pairwise (fun g k => g.key inst 0 ≠ k.key inst 0)) :
    (s.resetFlds fs inst).getF f inst 0 = 0 := by
  unfold State.resetFlds
  induction fs generalizing s with
  | nil => simp at hf
  | cons g fs ih =>
    obtain ⟨hne, hnodup⟩ := List.pairwise_cons.mp hnodup
    rw [List.foldl_cons, hone g List.mem_cons_self]
    rcases List.mem_cons.mp hf with rfl | hf
    · have hkeep := getF_resetFlds_ne (s.resetFld f inst 1) (fs := fs) (g := f) (inst := inst) (inst' := inst) (k := 0) (by
        intro k hk j hj
        have hcnt := hone k (List.mem_cons_of_mem f hk)
        have : j = 0 := by omega
        subst this
        exact (hne k hk).symm)
      unfold State.resetFlds at hkeep
      rw [hkeep, getF_resetFld_same s (by decide) (by omega), resetAt_header hzero hlow]
      exact Nat.zero_mod _
    · exact ih _ hf (fun k hk => hone k (List.mem_cons_of_mem g hk)) hnodup

theorem clearInt_errors (s : State) (ty pg inst v : Nat) (h : bit v 0 = true) :
    ∀ f ∈ [Hdr.ERR_CODE ty pg, Hdr.ERR_INFO0 ty pg, Hdr.ERR_INFO1 ty pg], (clearInt s ty pg inst v).getF f inst 0 = 0 := by
  intro f hf
  unfold clearInt
  dsimp only
  rw [if_pos h]
  refine getF_resetHeader _ hf (by simp [Hdr.ERR_CODE, Hdr.ERR_INFO0, Hdr.ERR_INFO1]) ?_ ?_ ?_
  · simp only [List.mem_cons, List.not_mem_nil, or_false] at hf
    rcases hf with rfl | rfl | rfl <;> rfl
  · simp only [List.mem_cons, List.not_mem_nil, or_false] at hf
    rcases hf with rfl | rfl | rfl <;> simp [Hdr.ERR_CODE, Hdr.ERR_INFO0, Hdr.ERR_INFO1]
  · simp only [List.pairwise_cons, List.mem_cons, List.not_mem_nil, or_false, forall_eq_or_imp, forall_eq, List.Pairwise.nil,
      and_true, false_implies, implies_true]
    exact ⟨⟨key_headers_ne (by simp), key_headers_ne (by simp)⟩, key_headers_ne (by simp)⟩

theorem bit_clearInt (s : State) (ty pg inst v b : Nat) : bit ((clearInt s ty pg inst v).getF (Hdr.INT_STATUS ty pg) inst 0) b =
    (decide (b < 32) && bit (s.getF (Hdr.INT_STATUS ty pg) inst 0) b && !bit v b) := by
  have hstatus : (clearInt s ty pg inst v).getF (Hdr.INT_STATUS ty pg) inst 0 =
      (s.getF (Hdr.INT_STATUS ty pg) inst 0 - (s.getF (Hdr.INT_STATUS ty pg) inst 0 &&& v)) % 2 ^ 32 := by
    unfold clearInt
    dsimp only
    split
    · rw [getF_resetFlds_ne]
      · exact State.getF_setF_same ..
      · intro f hf j hj
        simp only [List.mem_cons, List.not_mem_nil, or_false] at hf
        rcases hf with rfl | rfl | rfl
        all_goals
          obtain rfl : j = 0 := by simpa [Hdr.ERR_CODE, Hdr.ERR_INFO0, Hdr.ERR_INFO1] using hj
          exact key_headers_ne (by simp)
    · exact State.getF_setF_same ..
  rw [hstatus, bit_eq_testBit, Nat.testBit_mod_two_pow, testBit_clear, bit_eq_testBit, bit_eq_testBit, Bool.and_assoc]

theorem ChangesAt.clearInt (s : State) (ty pg inst v : Nat) {ks : List Nat} (hstatus : (Hdr.INT_STATUS ty pg).key inst 0 ∈ ks)
    (herr : bit v 0 = true → ∀ f ∈ [Hdr.ERR_CODE ty pg, Hdr.ERR_INFO0 ty pg, Hdr.ERR_INFO1 ty pg], f.key inst 0 ∈ ks) :
    ChangesAt s (clearInt s ty pg inst v) ks := by
  unfold Machine.clearInt
  dsimp only
  split
  · next hv =>
    refine (ChangesAt.setF s _ hstatus).trans (ChangesAt.resetFlds _ fun f hf => ⟨?_, herr hv f hf⟩)
    simp only [List.mem_cons, List.not_mem_nil, or_false] at hf
    rcases hf with rfl | rfl | rfl <;> rfl
  · exact ChangesAt.setF s _ hstatus

theorem settlePerf_idle (h : s.getF (Hdr.PERF_EVENT ty) inst 0 = 0) : settlePerf s ty inst = s := by
  unfold settlePerf
  dsimp only
  rw [if_neg]
  omega

theorem countAccess_idle (h : s.getF (Hdr.PERF_EVENT ty) inst 0 = 0) : countAccess s ty inst pg = s := by
  unfold countAccess
  rw [if_neg]
  omega

/-- A counted access changes nothing of what keeps a block busy. -/
theorem blockBusy_countAccess (s : State) (ty inst pg : Nat) : blockBusy (countAccess s ty inst pg) ty inst = blockBusy s ty inst := by
  have hopen : ∀ k < 2, (countAccess s ty inst pg).flag Reg.CH_OPEN inst k = s.flag Reg.CH_OPEN inst k := by
    intro k hk
    unfold State.flag
    rw [getF_countAccess_ne]
    simp [Fld.bitOnPage, Reg.CH_OPEN]
    omega
  have hexport : exportState (countAccess s ty inst pg) = exportState s := by
    unfold exportState
    rw [getF_countAccess_ne]
    simp [Fld.bitOnPage, Reg.EXPORT_STATE]
  have hrest : countAccess s ty inst pg = { s with regs := (countAccess s ty inst pg).regs } := by
    unfold countAccess
    split <;> rfl
  generalize countAccess s ty inst pg = t at *
  unfold blockBusy
  rw [hopen 0 (by decide), hopen 1 (by decide), hexport, hrest]
  rfl

theorem clearPerf_zero (s : State) (ty inst : Nat) : (clearPerf s ty inst).getF (Hdr.PERF_COUNT ty) inst 0 = 0 := by
  unfold clearPerf
  rw [State.getF_setF_same]
  exact Nat.zero_mod _

theorem ChangesAt.clearPerf (s : State) (ty inst : Nat) {ks : List Nat} (h : (Hdr.PERF_COUNT ty).key inst 0 ∈ ks) :
    ChangesAt s (clearPerf s ty inst) ks := (ChangesAt.settlePerf s ty inst h).trans (ChangesAt.setF _ _ h)

theorem getF_clearPerf_ne (s : State) (ty inst : Nat) {g : Fld} {i k : Nat} (h : (Hdr.PERF_COUNT ty).key inst 0 ≠ g.key i k) :
    (Machine.clearPerf s ty inst).getF g i k = s.getF g i k :=
  (ChangesAt.clearPerf s ty inst (ks := [(Hdr.PERF_COUNT ty).key inst 0]) (by simp)).fields g i k (by simpa using h.symm)
end

/-- Settles O18: after the counted access each command is a store in its own fields. -/
theorem headerCommands : Obligations.HeaderCommands := by
  unfold Obligations.HeaderCommands
  intro s a ty inst hinst hs htakes only
  have honly {u : State} {fs : List Fld} (h : ChangesAt s u (fs.map (·.key inst 0) ++ [(Hdr.PERF_COUNT ty).key inst 0])) : only u fs := by
    refine ⟨h.rest, fun g i k hfs hperf => h.fields g i k ?_⟩
    simp only [List.mem_append, List.mem_map, List.mem_singleton, not_or, not_exists, not_and]
    exact ⟨fun f hf e => hfs f hf e.symm, hperf⟩
  have taken {pg : Nat} (f : State → State) (hpg : pg = 0 ∨ ty = 1 ∧ pg = 5) :
      Host.Outcome.next (ρ := Refusal) (φ := Fault) (headerCommand s a ty inst pg f) = .next (f (countAccess s ty inst pg)) :=
    congrArg _ (headerCommand_taken hinst hs htakes hpg)
  have hcount (pg : Nat) (fs : List Fld) : ChangesAt s (countAccess s ty inst pg) (fs.map (·.key inst 0) ++ [(Hdr.PERF_COUNT ty).key inst 0]) :=
    ChangesAt.countAccess s ty inst pg (by simp)
  refine ⟨fun on h4 h8 => ?enable, fun on h1 => ?freeze, fun pg mask hpg => ?clear, fun pg mask hpg => ?force, fun ev => ?perf, ?perfClear,
    fun h1 hidle => ?reset, fun h1 hbusy => ?busy⟩
  case enable =>
    have hset : setEnable (countAccess s ty inst 0) ty inst on = (countAccess s ty inst 0).setF (Hdr.ENABLE ty) inst 0 (b2n on) := by
      unfold setEnable
      dsimp only
      rw [dif_neg fun h => h4 h.1, if_neg fun h => h8 h.1]
    refine ⟨_, taken _ (.inl rfl), ?_⟩
    rw [hset]
    exact ⟨(State.getF_setF_same ..).trans (b2n_mod_two on), honly ((hcount 0 _).trans (ChangesAt.setF _ _ (by simp)))⟩
  case freeze =>
    have hset : setFreeze (countAccess s ty inst 0) ty inst on = (countAccess s ty inst 0).setF (Hdr.FREEZE ty) inst 0 (b2n on) := if_neg h1
    refine ⟨_, taken _ (.inl rfl), ?_⟩
    rw [hset]
    exact ⟨(State.getF_setF_same ..).trans (b2n_mod_two on), honly ((hcount 0 _).trans (ChangesAt.setF _ _ (by simp)))⟩
  case clear =>
    refine ⟨_, taken _ hpg, fun b => ?_, fun hmask => ?_, honly ((hcount pg _).trans (ChangesAt.clearInt _ ty pg inst _ (by simp) ?_))⟩
    · rw [bit_clearInt, getF_countAccess_ne s ty inst pg (by simp)]
    · have hzero := clearInt_errors (countAccess s ty inst pg) ty pg inst mask.toNat hmask
      exact ⟨hzero _ (by simp), hzero _ (by simp), hzero _ (by simp)⟩
    · intro hmask f hf
      rw [if_pos hmask]
      exact List.mem_append_left _ (List.mem_map_of_mem (List.mem_cons_of_mem _ hf))
  case force =>
    refine ⟨_, taken _ hpg, fun b => ?_, honly ((hcount pg _).trans (ChangesAt.setF _ _ (by simp)))⟩
    by_cases hb : b < 32
    · rw [bit_forceInt _ ty pg inst _ hb, getF_countAccess_ne s ty inst pg (by simp)]
      simp [hb, Bool.and_comm]
    · have hsmall : (forceInt (countAccess s ty inst pg) ty pg inst mask.toNat).getF (Hdr.INT_STATUS ty pg) inst 0 < 2 ^ b := by
        refine Nat.lt_of_lt_of_le ?_ (Nat.pow_le_pow_right (by decide) (Nat.le_of_not_lt hb))
        rw [forceInt, State.getF_setF_same]
        exact Nat.mod_lt _ (Nat.two_pow_pos 32)
      rw [bit_eq_testBit, Nat.testBit_lt_two_pow hsmall]
      simp [hb]
  case perf =>
    refine ⟨_, taken _ (.inl rfl), ?_, fun hno => ?_, honly ?_⟩
    · refine (State.getF_setF_same ..).trans (Nat.mod_eq_of_lt ?_)
      exact ev.isLt
    · rw [countAccess_idle hno, setPerf, settlePerf_idle hno, State.getF_setF_ne]
      exact key_headers_ne (by simp)
    · exact (hcount 0 _).trans ((ChangesAt.settlePerf _ ty inst (by simp)).trans (ChangesAt.setF _ _ (by simp)))
  case perfClear =>
    exact ⟨_, taken _ (.inl rfl), clearPerf_zero _ ty inst, honly ((hcount 0 _).trans (ChangesAt.clearPerf _ ty inst (by simp)))⟩
  case reset =>
    have hset : softReset (countAccess s ty inst 0) ty inst =
        clearPerf ((countAccess s ty inst 0).resetFlds (intFields ty 0) inst) ty inst := by
      unfold softReset
      rw [if_neg h1, blockBusy_countAccess, if_neg (by simp [hidle])]
      rfl
    have hone : ∀ f ∈ intFields ty 0, f.cnt = 1 := by simp [intFields, Hdr.INT_STATUS, Hdr.ERR_CODE, Hdr.ERR_INFO0, Hdr.ERR_INFO1]
    have hnodup : (intFields ty 0).Pairwise (fun g k => g.key inst 0 ≠ k.key inst 0) := by
      simp only [intFields, List.pairwise_cons, List.mem_cons, List.not_mem_nil, or_false, forall_eq_or_imp, forall_eq, List.Pairwise.nil,
        and_true, false_implies, implies_true]
      exact ⟨⟨key_headers_ne (by simp), key_headers_ne (by simp), key_headers_ne (by simp)⟩,
        ⟨key_headers_ne (by simp), key_headers_ne (by simp)⟩, key_headers_ne (by simp)⟩
    have hzero (f : Fld) (hf : f ∈ intFields ty 0) (hreset : f.reset = 0) (hlow : f.off < 0x100) (hbit : f.bitOnPage 0 % 0x8000 ≠ 0x160) :
        (clearPerf ((countAccess s ty inst 0).resetFlds (intFields ty 0) inst) ty inst).getF f inst 0 = 0 := by
      rw [getF_clearPerf_ne _ ty inst (key_headers_ne (by simpa using hbit.symm))]
      exact getF_resetHeader _ hf hone hreset hlow hnodup
    refine ⟨_, taken _ (.inl rfl), ?_⟩
    rw [hset]
    refine ⟨hzero _ (by simp [intFields]) rfl (by simp [Hdr.INT_STATUS]) (by simp), hzero _ (by simp [intFields]) rfl (by simp [Hdr.ERR_CODE]) (by simp),
      hzero _ (by simp [intFields]) rfl (by simp [Hdr.ERR_INFO0]) (by simp), hzero _ (by simp [intFields]) rfl (by simp [Hdr.ERR_INFO1]) (by simp),
      clearPerf_zero _ ty inst, honly ((hcount 0 _).trans ((ChangesAt.resetFlds _ fun f hf => ⟨hone f hf, ?_⟩).trans
        (ChangesAt.clearPerf _ ty inst (by simp))))⟩
    exact List.mem_append_left _ (List.mem_map_of_mem hf)
  case busy =>
    have hset : softReset (countAccess s ty inst 0) ty inst = countAccess s ty inst 0 := by
      unfold softReset
      rw [if_neg h1, blockBusy_countAccess, if_pos hbusy]
    refine ⟨_, taken _ (.inl rfl), ?_⟩
    rw [hset]
    exact honly (hcount 0 [])
end Sys2Proof.Machine
end

section
namespace Sys2Proof.Machine

set_option Elab.async false

/-! O19 fails: nothing in the statement bounds the cycles that a stall has lasted. Where they are past STALL_LIMIT, the tile faults
as FREEZE settles its stall, and is not frozen. -/

/-- Tile 0 has stalled for longer than STALL_LIMIT; its cluster is ON. -/
def overdueState : State :=
  ((State.reset.setF Reg.PSEQ_CUR 0 0 2).setF Reg.TILE_STALL_LIMIT 0 0 1).setTile 0
    { Tile.reset with pstate := .stalled, stall := some { cause := 0, ops := [], need := 0, run := 5, also := 0 } }

/-- FREEZE of that tile by CP1. -/
def overdueFrozen : State := headerCommand overdueState (.cp 1) 1 0 0 (fun s => setFreeze s 1 0 true)

theorem overdueFrozen_faulted : (overdueFrozen.tile 0).pstate = .faulted := by decide +kernel

/-- Refutes O19: FREEZE leaves a tile that has stalled past STALL_LIMIT faulted. -/
theorem not_tilePrograms : ¬ Obligations.TilePrograms := by
  unfold Obligations.TilePrograms
  intro h
  obtain ⟨-, -, -, -, hfreeze, -⟩ := h overdueState (.cp 1) 0 (by decide +kernel) (by decide +kernel)
  obtain ⟨u, hu, htile, -⟩ := hfreeze (.inr (by decide +kernel))
  have hend : exec (.freeze (.cp 1) 1 0 true) overdueState = .next overdueFrozen := rfl
  obtain rfl : overdueFrozen = u := Host.Outcome.next.inj (hend.symm.trans hu)
  have hfaulted := overdueFrozen_faulted
  rw [htile] at hfaulted
  exact absurd hfaulted (by decide)
end Sys2Proof.Machine
end

section
namespace Sys2Proof.Machine

set_option Elab.async false

/-! O20: accesses of registers. -/

section
variable {s : State} {a : Actor}

/-- A read of 4 aligned bytes of a reader that reaches the device. -/
theorem exec_read4 (h : reaches s a = true) {addr : BitVec 26} (haddr : addr.toNat % 4 = 0) :
    exec (.latchingRead a addr false) s =
      .next { (barRead4 s a addr.toNat).1 with reply := ⟨toLe 4 (barRead4 s a addr.toNat).2, 0⟩ } := by
  rw [exec_latchingRead]
  refine congrArg Host.Outcome.next ((if_pos haddr).trans (registerRead_narrow h _))

/-- A write of 4 aligned bytes of a writer that reaches the device. -/
theorem exec_write4 (h : reaches s a = true) {addr : BitVec 26} (haddr : addr.toNat % 4 = 0) (v : Word64) :
    exec (.registerWrite a addr false v) s = .next (barWrite4 s a addr.toNat v.toNat) := by
  rw [exec_registerWrite]
  exact congrArg Host.Outcome.next ((if_pos haddr).trans (registerWrite_narrow h _ _))

/-- A word of page 0 of a tile. -/
theorem regPlace_tile (i : TileId) {o : Nat} (ho : o < 0x1000) : regPlace (0x8000 * i.val + o) = some ⟨1, i.val, 0, o⟩ := by
  have hi := i.isLt
  have hdiv : (0x8000 * i.val + o) / 0x8000 = i.val := by omega
  have hmod : (0x8000 * i.val + o) % 0x8000 = o := by omega
  have hpage : o / 0x1000 = 0 := by omega
  unfold regPlace
  rw [if_pos (by omega)]
  unfold placeIn
  simp only [Nat.sub_zero, hdiv, hmod, hpage, Nat.mod_eq_of_lt ho, blockInstances, blockPages]
  rw [if_neg (by omega), if_pos (by omega)]

/-- The parts of a stored 32-bit field that fills its word. -/
theorem storePart_whole (s : State) (f : Fld) (inst v : Nat) (hw : f.width = 32) :
    storePart s inst v { f := f, idx := 0, lsb := 0, from_ := 0, width := 32 } = s.setF f inst 0 (v % 2 ^ 32) := by
  unfold storePart State.setF
  have hval : (s.getF f inst 0 - s.getF f inst 0 / 2 ^ 0 % 2 ^ 32 * 2 ^ 0 + bits v (0 + 32 - 1) 0 * 2 ^ 0) % 2 ^ f.width =
      v % 2 ^ 32 % 2 ^ f.width := by
    rw [hw]
    simp only [bits, Nat.pow_zero, Nat.div_one, Nat.mul_one]
    omega
  dsimp only
  rw [hval]

/-- Every field of page 0 of a tile is a field of a tile. -/
theorem allFields_tile0 (inst : Nat) : ∀ f ∈ allFields 1 inst 0, f.ty = 1 := by
  change ∀ f ∈ allFields 1 0 0, f.ty = 1
  decide

theorem pageParts_fld {ty inst pg off : Nat} {p : FldPart} (h : p ∈ pageParts ty inst pg off) : p.f ∈ allFields ty inst pg := by
  simp only [pageParts, Fld.parts, List.mem_flatMap, List.mem_filterMap, List.mem_range] at h
  obtain ⟨f, hf, k, -, hk⟩ := h
  simp only [Option.ite_none_left_eq_some, Option.some.injEq] at hk
  obtain ⟨-, -, rfl⟩ := hk
  exact hf

/-- An actor that is no writer of the page stores none of its fields. -/
theorem writePlain_foreign {inst off v : Nat} (h : pageWriter s a 1 inst = false) : writePlain s a 1 inst 0 off v = s := by
  have hnone : (pageParts 1 inst 0 off).filter
      (fun p => (p.f.acc == .rw || p.f.acc == .rwl) && !p.f.live && fieldTakes s a inst p.idx p.f) = [] := by
    refine List.filter_eq_nil_iff.mpr fun p hp => ?_
    have hty := allFields_tile0 inst p.f (pageParts_fld hp)
    have htakes : fieldTakes s a inst p.idx p.f = false := by
      unfold fieldTakes
      rw [if_neg (by rintro e; rw [e] at hty; simp [Reg.HP_FAILOVER_DELAY] at hty),
        if_neg (by rintro e; rw [e] at hty; simp [Reg.SEC_MEMBER] at hty), if_pos (by rw [hty, h]; rfl)]
    simp [htakes]
  unfold writePlain
  rw [hnone]
  rfl

/-- The word of STALL_LIMIT. -/
theorem writePlain_stallLimit {inst v : Nat} (h : pageWriter s a 1 inst = true) :
    writePlain s a 1 inst 0 0x110 v = s.setF Reg.TILE_STALL_LIMIT inst 0 (v % 2 ^ 32) := by
  have hparts : pageParts 1 inst 0 0x110 = [{ f := Reg.TILE_STALL_LIMIT, idx := 0, lsb := 0, from_ := 0, width := 32 }] := rfl
  have htakes : fieldTakes s a inst 0 Reg.TILE_STALL_LIMIT = true := by
    have hguard : tileGuarded Reg.TILE_STALL_LIMIT = false := by decide
    have hdoor : doorCfg Reg.TILE_STALL_LIMIT = false := by decide
    have hty : Reg.TILE_STALL_LIMIT.ty = 1 := rfl
    unfold fieldTakes
    rw [if_neg (by decide), if_neg (by decide), hty, h, if_neg (by decide), if_neg (by simp [Reg.TILE_STALL_LIMIT]), if_neg (by decide),
      if_pos (.inl rfl), hguard, hdoor]
    rfl
  have hfilter : (pageParts 1 inst 0 0x110).filter
      (fun p => (p.f.acc == .rw || p.f.acc == .rwl) && !p.f.live && fieldTakes s a inst p.idx p.f) =
      [{ f := Reg.TILE_STALL_LIMIT, idx := 0, lsb := 0, from_ := 0, width := 32 }] := by
    rw [hparts, List.filter_cons_of_pos]
    · rfl
    · rw [htakes]
      rfl
  unfold writePlain
  rw [hfilter]
  exact storePart_whole s _ inst v rfl
end

/-! TIME of the time base page, with its latch (spec 14 R541). -/

theorem toLe_mod (v : Nat) : toLe 4 (v % 2 ^ 32) = toLe 4 v := by
  have hbyte {x y : Nat} (h : x % 256 = y % 256) : BitVec.ofNat 8 x = BitVec.ofNat 8 y := by
    apply BitVec.eq_of_toNat_eq
    rw [BitVec.toNat_ofNat, BitVec.toNat_ofNat]
    exact h
  simp only [toLe, List.cons.injEq, and_true]
  exact ⟨hbyte (by omega), hbyte (by omega), hbyte (by omega), hbyte (by omega)⟩

/-- The latches after a read of TIME's low word. -/
def timeLatches (s : State) (a : Actor) : List (Nat × Nat × Nat) :=
  s.latches.filter (fun (l : Nat × Nat × Nat) => l.1 != latchOwner a) ++ [(latchOwner a, Reg.TB_TIME.key 0 0, s.now % 2 ^ 64 / 2 ^ 32)]

theorem readParts_timeLow (s : State) (a : Actor) :
    readParts s a 12 0 0 0x100 = ({ s with latches := timeLatches s a }, s.now % 2 ^ 64 % 2 ^ 32) := by
  have hparts : pageParts 12 0 0 0x100 = [{ f := Reg.TB_TIME, idx := 0, lsb := 0, from_ := 0, width := 32 }] := by decide
  have hvalue : fieldValue s Reg.TB_TIME 0 0 = s.now := rfl
  have hlatch : Reg.TB_TIME.latch = true := rfl
  have hwidth : Reg.TB_TIME.width = 64 := rfl
  unfold readParts
  rw [hparts]
  simp only [List.foldl_cons, List.foldl_nil, hvalue, hlatch, hwidth, Bool.not_true, Bool.false_eq_true, if_false, if_true, Nat.pow_zero,
    Nat.one_mul, Nat.zero_add]
  rfl

theorem readParts_timeHigh (t : State) (a : Actor) {v : Nat}
    (h : t.latches.find? (fun l => l.1 == latchOwner a && l.2.1 == Reg.TB_TIME.key 0 0) = some (latchOwner a, Reg.TB_TIME.key 0 0, v)) :
    readParts t a 12 0 0 0x104 = (t, v % 2 ^ 32) := by
  have hparts : pageParts 12 0 0 0x104 = [{ f := Reg.TB_TIME, idx := 0, lsb := 0, from_ := 32, width := 32 }] := by decide
  have hlatch : Reg.TB_TIME.latch = true := rfl
  unfold readParts
  rw [hparts]
  simp only [List.foldl_cons, List.foldl_nil, hlatch, h, Bool.not_true, Bool.false_eq_true, if_false, Nat.reduceEqDiff, Nat.pow_zero,
    Nat.one_mul, Nat.zero_add]

theorem find_timeLatches (s : State) (a : Actor) :
    (timeLatches s a).find? (fun l => l.1 == latchOwner a && l.2.1 == Reg.TB_TIME.key 0 0) =
      some (latchOwner a, Reg.TB_TIME.key 0 0, s.now % 2 ^ 64 / 2 ^ 32) := by
  unfold timeLatches
  rw [List.find?_append, List.find?_eq_none.mpr]
  · simp
  · intro l hl
    simp only [List.mem_filter, bne_iff_ne, ne_eq] at hl
    simp [hl.2]

/-- A word of the time base page that is served, whose accesses are not counted. -/
theorem readWord_timebase {s : State} {a : Actor} {off : Nat} (hoff : 0x100 ≤ off) (hon : pageOn s 12 0 = true)
    (hperf : ∀ t : State, t.regs = s.regs → t.getF (Hdr.PERF_EVENT 12) 0 0 = 0) (hregs : (readParts s a 12 0 0 off).1.regs = s.regs) :
    readWord s a 12 0 0 off = readParts s a 12 0 0 off := by
  unfold readWord
  simp only [hon, if_true, if_neg (show ¬ off = 0 by omega), if_neg (show ¬ off = 4 by omega),
    if_neg (show ¬ off = 0x2C by omega), and_true]
  rw [countAccess_idle (hperf _ hregs)]

/-- Settles O20: each access through the word that its address names. -/
theorem registerAccesses : Obligations.RegisterAccesses := by
  unfold Obligations.RegisterAccesses
  intro s a hs
  refine ⟨fun addr p haddr hp hoff => ?id, fun addr haddr hp => ⟨fun hstd => ?empty, fun hstd => ?free, fun v => ?write⟩,
    fun i v htakes hperf => ?limit, fun i addr o v ho hlow hhigh haddr hon hforeign hperf => ?foreign, fun hon hperf => ?time⟩
  case id =>
    have hread : barRead4 s a addr.toNat = (s, p.pg + 256 * p.inst + 65536 * p.ty) := by
      simp only [barRead4, hp, readWord, hoff, if_true]
    rw [exec_read4 hs haddr, hread]
  case empty =>
    have hread : barRead4 s a addr.toNat = (s, 0) := by simp only [barRead4, hp, hstd, Bool.false_eq_true, if_false]
    have hzero : toLe 4 0 = [0#8, 0#8, 0#8, 0#8] := by decide
    rw [exec_read4 hs haddr, hread]
    simp only [hzero]
  case free =>
    have hread : barRead4 s a addr.toNat = (s.useFree, Config.freeNat s.free % 2 ^ 32) := by simp only [barRead4, hp, hstd, if_true]
    rw [exec_read4 hs haddr, hread]
  case write =>
    have hwrite : barWrite4 s a addr.toNat v.toNat = s := by simp only [barWrite4, hp]
    rw [exec_write4 hs haddr, hwrite]
  case limit =>
    obtain ⟨hon, hwriter⟩ := Bool.and_eq_true_iff.mp htakes
    have hnat : (BitVec.ofNat 26 (0x8000 * i.val + 0x110)).toNat = 0x8000 * i.val + 0x110 := by
      rw [BitVec.toNat_ofNat]
      have := i.isLt
      omega
    rw [exec_write4 hs (by rw [hnat]; omega), hnat]
    simp only [barWrite4, regPlace_tile i (show 0x110 < 0x1000 by decide), hon, if_true]
    unfold writeWord
    simp only [countAccess_idle hperf, if_neg (show ¬ 0x110 < 0x100 by decide), if_neg (show ¬ 0x110 = 0x104 by decide)]
    rw [writePlain_stallLimit hwriter, Nat.mod_mod]
  case foreign =>
    rw [exec_write4 hs (by omega), haddr]
    simp only [barWrite4, regPlace_tile i hhigh, hon, if_true]
    unfold writeWord
    simp only [countAccess_idle hperf, if_neg (show ¬ o < 0x100 by omega), hforeign, Bool.false_eq_true, if_false]
    rw [writePlain_foreign hforeign]
    exact congrArg _ (ite_self _)
  case time =>
    have hlow : regPlace (0x718100#26).toNat = some ⟨12, 0, 0, 0x100⟩ := by decide
    have hhigh : regPlace (0x718104#26).toNat = some ⟨12, 0, 0, 0x104⟩ := by decide
    have hreadLow : barRead4 s a (0x718100#26).toNat = ({ s with latches := timeLatches s a }, s.now % 2 ^ 64 % 2 ^ 32) := by
      simp only [barRead4, hlow]
      rw [readWord_timebase (by decide) hon (fun t ht => (getF_of_regs ht ..).trans hperf) (by rw [readParts_timeLow]), readParts_timeLow]
    refine ⟨_, exec_read4 hs (by decide), ?_, ?_, fun t ht hreach hpage hcount => ?_⟩
    · rw [hreadLow, show (s.now % 2 ^ 64 % 2 ^ 32) = s.now % 2 ^ 32 by omega]
      simp only [toLe_mod]
    · rw [hreadLow]
    · have hfind := (congrArg (List.find? (fun l => l.1 == latchOwner a && l.2.1 == Reg.TB_TIME.key 0 0))
        (ht.trans (by rw [hreadLow]))).trans (find_timeLatches s a)
      have hreadHigh : barRead4 t a (0x718104#26).toNat = (t, s.now % 2 ^ 64 / 2 ^ 32 % 2 ^ 32) := by
        simp only [barRead4, hhigh]
        rw [readWord_timebase (by decide) hpage (fun u hu => (getF_of_regs hu ..).trans hcount) (by rw [readParts_timeHigh t a hfind]),
          readParts_timeHigh t a hfind]
      rw [exec_read4 hreach (by decide), hreadHigh, show s.now % 2 ^ 64 / 2 ^ 32 % 2 ^ 32 = s.now / 2 ^ 32 % 2 ^ 32 by omega, toLe_mod]
end Sys2Proof.Machine
end

section
namespace Sys2Proof.Machine

set_option Elab.async false

/-! O21: requests of the commit unit, pins and QUERY_DOMAIN. -/

/-! Domains by ID. -/

/-- A domain put in its place is the one that its ID names. -/
theorem find_putDomain_same (ds : List Domain) (d : Domain) : (putDomain ds d).find? (fun e => e.id == d.id) = some d := by
  induction ds with
  | nil => simp [putDomain]
  | cons e ds ih =>
    unfold putDomain
    split
    · rename_i hlt
      rw [List.find?_cons_of_neg (by simp; omega), ih]
    · split <;> simp

/-- A domain put in its place leaves the others as they were. -/
theorem find_putDomain_ne (ds : List Domain) (d : Domain) {id : Nat} (h : d.id ≠ id) :
    (putDomain ds d).find? (fun e => e.id == id) = ds.find? (fun e => e.id == id) := by
  induction ds with
  | nil => simp [putDomain, h]
  | cons e ds ih =>
    unfold putDomain
    split
    · rw [List.find?_cons, List.find?_cons, ih]
    · split
      · rename_i heq
        rw [List.find?_cons_of_neg (by simpa using h), List.find?_cons_of_neg (by simpa [heq] using h)]
      · rw [List.find?_cons_of_neg (by simpa using h)]

theorem State.domain?_setDomain_same (s : State) {d : Domain} {id : Nat} (h : d.id = id) : (s.setDomain d).domain? id = some d := by
  subst h
  exact find_putDomain_same s.domains d

theorem State.domain?_setDomain_ne (s : State) {d : Domain} {id : Nat} (h : d.id ≠ id) :
    (s.setDomain d).domain? id = s.domain? id :=
  find_putDomain_ne s.domains d h

theorem State.domain?_id {s : State} {id : Nat} {d : Domain} (h : s.domain? id = some d) : d.id = id := by
  have := List.find?_some h
  simpa using this

theorem State.domain?_of_domains {s u : State} (h : u.domains = s.domains) (id : Nat) : u.domain? id = s.domain? id := by
  unfold State.domain?
  rw [h]

theorem State.modDomain_of_some {s : State} {id : Nat} {d : Domain} (h : s.domain? id = some d) (f : Domain → Domain) :
    s.modDomain id f = s.setDomain (f d) := by
  simp only [State.modDomain, h]

/-! The request registers. -/

/-- A list of fields stored changes the registers alone. -/
theorem storeFields_regs (l : List (Fld × Nat)) (s : State) :
    l.foldl (fun s (x : Fld × Nat) => s.setF x.1 0 0 x.2) s =
      { s with regs := (l.foldl (fun s (x : Fld × Nat) => s.setF x.1 0 0 x.2) s).regs } := by
  induction l generalizing s with
  | nil => rfl
  | cons x l ih =>
    rw [List.foldl_cons, ih]
    rfl

theorem setRequest_regs (s : State) (q : CommitReq) : setRequest s q = { s with regs := (setRequest s q).regs } :=
  storeFields_regs _ s

@[simp] theorem setRequest_commitQ (s : State) (q : CommitReq) : (setRequest s q).commitQ = s.commitQ := by rw [setRequest_regs]
@[simp] theorem setRequest_domains (s : State) (q : CommitReq) : (setRequest s q).domains = s.domains := by rw [setRequest_regs]
@[simp] theorem setRequest_dram (s : State) (q : CommitReq) : (setRequest s q).dram = s.dram := by rw [setRequest_regs]

theorem getF_setRequest_enable (s : State) (q : CommitReq) : (setRequest s q).getF (Hdr.ENABLE 16) 0 0 = s.getF (Hdr.ENABLE 16) 0 0 := by
  simp (disch := decide) only [setRequest, List.foldl_cons, List.foldl_nil, State.getF_setF_ne]

theorem getF_setRequest_intStatus (s : State) (q : CommitReq) :
    (setRequest s q).getF (Hdr.INT_STATUS 16 0) 0 0 = s.getF (Hdr.INT_STATUS 16 0) 0 0 := by
  simp (disch := decide) only [setRequest, List.foldl_cons, List.foldl_nil, State.getF_setF_ne]

/-- A request read back from the request registers, each field cut to its width. -/
theorem requestOf_setRequest (s : State) (q : CommitReq) :
    requestOf (setRequest s q) =
      { q with
        domain := q.domain % 2 ^ 19, kind := q.kind % 2 ^ 4, step := q.step % 2 ^ 64, epoch := q.epoch % 2 ^ 16
        acc := q.acc % 2 ^ 16, crc := q.crc % 2 ^ 32, growth := q.growth % 2 ^ 24, nonfinite := q.nonfinite % 2 ^ 32 } := by
  have hbool (b : Bool) : (b2n b % 2 != 0) = b := by cases b <;> rfl
  simp (disch := decide) only [requestOf, State.flag, setRequest, List.foldl_cons, List.foldl_nil, State.getF_setF_ne,
    State.getF_setF_same]
  simp only [Reg.COMMIT_REQ_DOMAIN, Reg.COMMIT_REQ_KIND, Reg.COMMIT_REQ_SKIPPED, Reg.COMMIT_REQ_ROOTS, Reg.COMMIT_REQ_LEGACY,
    Reg.COMMIT_REQ_STEP, Reg.COMMIT_REQ_EPOCH, Reg.COMMIT_REQ_ACC_COUNT, Reg.COMMIT_REQ_UPB_CRC, Reg.COMMIT_REQ_GROWTH,
    Reg.COMMIT_REQ_NONFINITE, Nat.pow_one, hbool]

/-- CP1's push of a request: its journal entry, the request registers, then REQ_PUSH. -/
def pushNow (s : State) (q : CommitReq) : State := pushRequest (setRequest (journal s 16 (commitAccepted s)) q)

theorem getF_journal (s : State) (target count : Nat) (f : Fld) (inst i : Nat) :
    (journal s target count).getF f inst i = s.getF f inst i := rfl

theorem pushNow_room {s : State} (hen : s.getF (Hdr.ENABLE 16) 0 0 ≠ 0) (hroom : s.commitQ.length < 64) (q : CommitReq) :
    (pushNow s q).commitQ = s.commitQ ++ [requestOf (setRequest s q)] ∧ (pushNow s q).domains = s.domains ∧
      (pushNow s q).dram = s.dram := by
  have hlen : ¬s.commitQ.length ≥ 64 := Nat.not_le.mpr hroom
  unfold pushNow pushRequest
  rw [getF_setRequest_enable, getF_journal, if_neg hen]
  simp only [setRequest_commitQ, journal, hlen, if_false, requestOf_setRequest, setRequest_domains, setRequest_dram, and_self]

theorem pushNow_full {s : State} (hen : s.getF (Hdr.ENABLE 16) 0 0 ≠ 0) (hfull : s.commitQ.length = 64) (q : CommitReq) :
    pushNow s q = commitError (setRequest (journal s 16 (commitAccepted s)) q) 0x0904 (q.domain % 2 ^ 19) 0 := by
  have hlen : s.commitQ.length ≥ 64 := Nat.le_of_eq hfull.symm
  unfold pushNow pushRequest
  rw [getF_setRequest_enable, getF_journal, if_neg hen, requestOf_setRequest, setRequest_commitQ]
  exact if_pos hlen

/-- An error that meets no other one gives its code and its first word. -/
theorem recordErr_fields {s : State} {ty pg inst : Nat} (h : bit (s.getF (Hdr.INT_STATUS ty pg) inst 0) 0 = false) (code i0 i1 : Nat) :
    (s.recordErr ty pg inst code i0 i1).getF (Hdr.ERR_CODE ty pg) inst 0 = code % 2 ^ (Hdr.ERR_CODE ty pg).width ∧
      (s.recordErr ty pg inst code i0 i1).getF (Hdr.ERR_INFO0 ty pg) inst 0 = i0 % 2 ^ (Hdr.ERR_INFO0 ty pg).width := by
  unfold State.recordErr
  rw [if_neg (by simp [h])]
  constructor
  · rw [State.getF_raise_ne, State.getF_setF_ne, State.getF_setF_ne, State.getF_setF_same]
    all_goals simp only [Fld.key, Hdr.ERR_CODE, Hdr.ERR_INFO0, Hdr.ERR_INFO1, Hdr.INT_STATUS]
    all_goals omega
  · rw [State.getF_raise_ne, State.getF_setF_ne, State.getF_setF_same]
    all_goals simp only [Fld.key, Hdr.ERR_INFO0, Hdr.ERR_INFO1, Hdr.INT_STATUS]
    all_goals omega

/-! Which commits are pushed. -/

variable {s : State} {q : CommitReq} {d : Domain}

theorem pushCommit_again (hcp : cpUp s 1 = true) (hd : s.domain? q.domain = some d) (hlast : d.lastStep = some q.step) :
    pushCommit s q = pushNow s { q with legacy := d.legacyMode } := by
  simp only [pushCommit, hcp, hd, hlast, pushNow, Bool.not_true, Bool.false_eq_true, if_true, if_false]

/-- Whether CP1 pushes the commit of a run of a domain: as `pushCommit` asks it. -/
theorem pushCommit_refused (hd : s.domain? q.domain = some d) (hlast : d.lastStep ≠ some q.step)
    (hno : ∀ r, d.run = some r → r.step ≠ q.step ∨ r.skipped ≠ q.skipped ∨ r.phase ≠ .ready ∧ r.phase ≠ .committing ∨
      r.statOpen = true ∨ statOwed s d r = true ∨ rootsArrived d = false) : pushCommit s q = s := by
  unfold pushCommit
  split
  · rfl
  · simp only [hd, hlast, if_false]
    split
    · rfl
    · rename_i r hr
      rw [if_pos]
      have := hno r hr
      simp only [bne_iff_ne, ne_eq, Bool.not_eq_true']
      exact this.imp_right (Or.imp_left fun h e => h e.symm)

theorem pushCommit_run {r : StepRun} (hcp : cpUp s 1 = true) (hd : s.domain? q.domain = some d) (hrun : d.run = some r)
    (hlast : d.lastStep ≠ some q.step) (hstep : r.step = q.step) (hskip : r.skipped = q.skipped) (hready : r.phase = .ready)
    (hopen : r.statOpen = false) (howed : statOwed s d r = false) (hroots : rootsArrived d = true) :
    pushCommit s q =
      pushNow (State.modDomain (if q.skipped then s else (writeShadowMap s d r).1) q.domain
          (fun d => { d with run := d.run.map (fun r => { r with phase := .committing }) }))
        { commitFields d q with roots := !q.skipped && (writeShadowMap s d r).2, nonfinite := r.nonfinite } := by
  have hgo : ¬(r.step ≠ q.step ∨ (q.skipped != r.skipped) = true ∨ r.phase ≠ .ready ∧ r.phase ≠ .committing ∨ r.statOpen = true ∨
      statOwed s d r = true ∨ (!rootsArrived d) = true) := by
    simp [hstep, hskip, hready, hopen, howed, hroots]
  simp only [pushCommit, hcp, hd, hlast, hrun, Bool.not_true, Bool.false_eq_true, if_false]
  rw [if_neg hgo]
  cases hq : q.skipped <;> simp [pushNow, commitFields, hq]

/-- The shadow that CP1 writes is in device DRAM alone. -/
theorem writeShadowMap_dram (s : State) (d : Domain) (r : StepRun) :
    (writeShadowMap s d r).1 = { s with dram := (writeShadowMap s d r).1.dram } := rfl

/-- The shadow changes no field of the registers, no queue and no domain. -/
theorem shadowed_same (s : State) (d : Domain) (r : StepRun) (b : Bool) :
    let u := if b = true then s else (writeShadowMap s d r).1
    u.commitQ = s.commitQ ∧ u.domains = s.domains ∧ u.regs = s.regs ∧ u.dram = if b = true then s.dram else (writeShadowMap s d r).1.dram := by
  cases b <;> exact ⟨rfl, rfl, rfl, rfl⟩

/-- The push of the commit of a run: the queue takes the request, the domain commits, its shadow stands. -/
theorem pushCommit_run_takes {r : StepRun} (hcp : cpUp s 1 = true) (hen : s.getF (Hdr.ENABLE 16) 0 0 ≠ 0) (hroom : s.commitQ.length < 64)
    (hd : s.domain? q.domain = some d) (hrun : d.run = some r) (hlast : d.lastStep ≠ some q.step) (hstep : r.step = q.step)
    (hskip : r.skipped = q.skipped) (hready : r.phase = .ready) (hopen : r.statOpen = false) (howed : statOwed s d r = false)
    (hroots : rootsArrived d = true) :
    (pushCommit s q).commitQ = s.commitQ ++ [requestOf (setRequest s
        { commitFields d q with roots := !q.skipped && (writeShadowMap s d r).2, nonfinite := r.nonfinite })] ∧
      (pushCommit s q).dram = (if q.skipped then s.dram else (writeShadowMap s d r).1.dram) ∧
      (pushCommit s q).domain? q.domain = some { d with run := some { r with phase := .committing } } := by
  rw [pushCommit_run hcp hd hrun hlast hstep hskip hready hopen howed hroots]
  obtain ⟨hq', hdom, hregs, hdram⟩ := shadowed_same s d r q.skipped
  generalize (if q.skipped = true then s else (writeShadowMap s d r).1) = u at hq' hdom hregs hdram ⊢
  have hud : u.domain? q.domain = some d := (State.domain?_of_domains hdom _).trans hd
  rw [State.modDomain_of_some hud, hrun]
  have hue : (u.setDomain { d with run := some { r with phase := .committing } }).getF (Hdr.ENABLE 16) 0 0 ≠ 0 := by
    change u.getF (Hdr.ENABLE 16) 0 0 ≠ 0
    unfold State.getF at hen ⊢
    rwa [hregs]
  obtain ⟨h1, h2, h3⟩ := pushNow_room hue (by change u.commitQ.length < 64; rwa [hq'])
    { commitFields d q with roots := !q.skipped && (writeShadowMap s d r).2, nonfinite := r.nonfinite }
  refine ⟨?_, h3.trans hdram, ?_⟩
  · refine h1.trans ?_
    rw [requestOf_setRequest, requestOf_setRequest]
    exact congrArg (· ++ _) hq'
  · exact (State.domain?_of_domains h2 _).trans (State.domain?_setDomain_same _ (show d.id = _ from State.domain?_id hd))

/-! Pins. -/

theorem pinGranted_same (s : State) (h : PinHolder) : (pinGranted s h).domains = s.domains ∧ (pinGranted s h).dram = s.dram := by
  cases h <;> exact ⟨rfl, rfl⟩

theorem markPin_same (s : State) (h : PinHolder) (v : Nat) : (markPin s h v).domains = s.domains ∧ (markPin s h v).dram = s.dram := by
  cases h <;> exact ⟨rfl, rfl⟩

theorem requestPin_takes {id : Nat} (hd : s.domain? id = some d) (h : PinHolder) :
    (requestPin s id h).dram = s.dram ∧ (requestPin s id h).domain? id =
      some (if committing s id then { d with pinWait := d.pinWait ++ [h] } else { d with pins := d.pins ++ [h] }) := by
  simp only [requestPin, hd]
  split
  · exact ⟨rfl, State.domain?_setDomain_same _ (show d.id = _ from State.domain?_id hd)⟩
  · obtain ⟨hdom, hdram⟩ := pinGranted_same (s.setDomain { d with pins := d.pins ++ [h] }) h
    exact ⟨hdram, (State.domain?_of_domains hdom _).trans (State.domain?_setDomain_same _ (show d.id = _ from State.domain?_id hd))⟩

theorem releasePin_takes {id : Nat} (hd : s.domain? id = some d) (h : PinHolder) :
    (releasePin s id h).dram = s.dram ∧ (releasePin s id h).domain? id =
      some (if d.pins.contains h then { d with pins := eraseOne h d.pins } else { d with pinWait := eraseOne h d.pinWait }) := by
  obtain ⟨hdom, hdram⟩ := markPin_same s h 0
  rw [releasePin, State.modDomain_of_some ((State.domain?_of_domains hdom _).trans hd)]
  refine ⟨hdram, State.domain?_setDomain_same _ ?_⟩
  split <;> exact (show d.id = id from State.domain?_id hd)

/-! The status registers of a domain. -/

theorem countAccess_same (s : State) (ty inst pg : Nat) :
    countAccess s ty inst pg = { s with regs := (countAccess s ty inst pg).regs } := by
  unfold countAccess
  split <;> rfl

/-- QUERY_DOMAIN shows the domain that it names. -/
theorem queryDomain_shows {a : Actor} {id : BitVec 19} (hr : reaches s a = true) (ht : pageTakes s a 16 0 = true) :
    let u := queryDomain s a id.toNat
    u.getF Reg.COMMIT_QUERY_DOMAIN 0 0 = id.toNat ∧ u.domains = s.domains := by
  have hsel : queryDomain s a id.toNat = (countAccess s 16 0 0).setF Reg.COMMIT_QUERY_DOMAIN 0 0 id.toNat := by
    rw [queryDomain, if_pos ⟨hr, ht⟩]
  dsimp only
  rw [hsel, State.getF_setF_same]
  refine ⟨Nat.mod_eq_of_lt id.isLt, ?_⟩
  rw [State.setF_domains, countAccess_same]

theorem fieldValue_ofQuery {u : State} {id : Nat} (hq : u.getF Reg.COMMIT_QUERY_DOMAIN 0 0 = id) (hd : u.domain? id = some d) :
    fieldValue u Reg.COMMIT_Q_STEP 0 0 = d.lastStep.getD 0 ∧ fieldValue u Reg.COMMIT_Q_PINS 0 0 = d.pins.length ∧
      fieldValue u Reg.COMMIT_Q_VALID 0 0 = b2n d.lastStep.isSome := by
  have hl (f : Fld) (hf : f ∈ [Reg.COMMIT_Q_STEP, Reg.COMMIT_Q_PINS, Reg.COMMIT_Q_VALID]) : fieldValue u f 0 0 = liveHearth u f 0 := by
    simp only [List.mem_cons, List.not_mem_nil, or_false] at hf
    rcases hf with rfl | rfl | rfl <;> rfl
  refine ⟨(hl _ (by simp)).trans ?_, (hl _ (by simp)).trans ?_, (hl _ (by simp)).trans ?_⟩
  · change ((u.domain? (u.getF Reg.COMMIT_QUERY_DOMAIN 0 0)).bind (·.lastStep)).getD 0 = _
    rw [hq, hd]; rfl
  · change (Option.map (fun d => d.pins.length) (u.domain? (u.getF Reg.COMMIT_QUERY_DOMAIN 0 0))).getD 0 = _
    rw [hq, hd]; rfl
  · change b2n ((Option.map (fun d => d.lastStep.isSome) (u.domain? (u.getF Reg.COMMIT_QUERY_DOMAIN 0 0))).getD false) = _
    rw [hq, hd]; rfl

/-- The request that SCAN pushes. -/
def scanRequest (id : Nat) : CommitReq :=
  { domain := id, kind := 1, skipped := false, roots := false, legacy := false, step := 0, epoch := 0, acc := 0, crc := 0, growth := 0
    nonfinite := 0 }

theorem pushScan_up (hcp : cpUp s 1 = true) (id : Nat) : pushScan s id = pushNow s (scanRequest id) := if_pos hcp

/-- Settles O21: each request is one push, pin or register write, and what it carries is read back from the request registers. -/
theorem commitRequestsAndPins : Obligations.CommitRequestsAndPins := by
  unfold Obligations.CommitRequestsAndPins
  intro s id skipped roots step epoch acc crc growth nonfinite commit q up
  have hid : id.toNat % 2 ^ 19 = id.toNat := Nat.mod_eq_of_lt id.isLt
  have hstep : step.toNat % 2 ^ 64 = step.toNat := Nat.mod_eq_of_lt step.isLt
  refine ⟨?_, ?_, ?_, ?_, ?_, ?_, ?_, ?_⟩
  · rintro d ⟨hcp, hen⟩ hroom hd hlast
    refine ⟨_, rfl, ?_⟩
    rw [show pushCommit s q = _ from pushCommit_again (q := q) hcp hd hlast]
    obtain ⟨h1, h2, h3⟩ := pushNow_room hen hroom { q with legacy := d.legacyMode }
    refine ⟨h1.trans ?_, h2, h3⟩
    rw [requestOf_setRequest]
    simp only [q, hid, hstep, Nat.mod_eq_of_lt epoch.isLt, Nat.mod_eq_of_lt acc.isLt, Nat.mod_eq_of_lt crc.isLt,
      Nat.mod_eq_of_lt growth.isLt, Nat.mod_eq_of_lt nonfinite.isLt, Nat.zero_mod]
  · rintro d r ⟨hcp, hen⟩ hroom hd hrun hlast hrs hrk hready hopen howed hroots p
    obtain ⟨h1, h2, h3⟩ := pushCommit_run_takes (q := q) hcp hen hroom hd hrun hlast hrs hrk hready hopen howed hroots
    refine ⟨_, rfl, h1.trans ?_, h2, h3⟩
    rw [requestOf_setRequest]
    simp only [p, commitFields, q, hid, hstep, Nat.zero_mod]
  · intro d hd hlast hno
    exact congrArg Host.Outcome.next (pushCommit_refused (q := q) hd hlast hno)
  · rintro d ⟨hcp, hen⟩ hfull hd hlast hclear
    refine ⟨_, rfl, ?_⟩
    rw [show pushCommit s q = _ from pushCommit_again (q := q) hcp hd hlast, pushNow_full hen hfull, commitError]
    obtain ⟨hcode, hinfo⟩ := recordErr_fields (s := setRequest (journal s 16 (commitAccepted s)) { q with legacy := d.legacyMode })
      (by rw [getF_setRequest_intStatus, getF_journal]; exact hclear) 0x0904 (q.domain % 2 ^ 19) 0
    refine ⟨?_, hcode, hinfo.trans ?_⟩
    · rw [State.recordErr_commitQ, setRequest_commitQ]; rfl
    · simp only [q, hid]
      exact Nat.mod_eq_of_lt (by have := id.isLt; simp only [Hdr.ERR_INFO0]; omega)
  · rintro ⟨hcp, hen⟩ hroom
    refine ⟨_, rfl, ?_⟩
    rw [pushScan_up hcp]
    obtain ⟨h1, h2, -⟩ := pushNow_room hen hroom (scanRequest id.toNat)
    refine ⟨h2, h1.trans ?_⟩
    rw [requestOf_setRequest]
    simp only [scanRequest, hid, Nat.zero_mod, Nat.one_mod_two_pow_eq_one.mpr (show 0 < 4 by decide)]
  · intro a hr ht
    obtain ⟨hq, hdom⟩ := queryDomain_shows (id := id) hr ht
    refine ⟨_, rfl, hq, hdom, fun d hd => ?_⟩
    exact fieldValue_ofQuery hq ((State.domain?_of_domains hdom _).trans hd)
  · intro d h hd
    exact ⟨_, rfl, requestPin_takes hd h⟩
  · intro d h hd
    exact ⟨_, rfl, releasePin_takes hd h⟩

end Sys2Proof.Machine
end

section
namespace Sys2Proof.Machine

set_option Elab.async false

/-! O22: the request at the head of the commit queue. -/

variable {s : State} {q : CommitReq} {d : Domain} {j : Nat}

/-! Registers that size and interrupts depend on. -/

theorem dramSize_setF (s : State) {f : Fld} {i : Nat} (h : f.bitOnPage i % 0x8000 ≠ 0x800) (inst v : Nat) :
    dramSize (s.setF f inst i v) = dramSize s := by
  have hstate (c : Nat) : (s.setF f inst i v).getF Reg.DDR_STATE c 0 = s.getF Reg.DDR_STATE c 0 :=
    State.getF_setF_ne s v (Fld.key_ne_of_bitOnPage (by simpa [Reg.DDR_STATE, Fld.bitOnPage] using h) inst c)
  unfold dramSize chansInService chanInService
  simp only [hstate]

theorem dramSize_raise (s : State) (ty pg inst b : Nat) : dramSize (s.raise ty pg inst b) = dramSize s :=
  dramSize_setF s (by rw [bitOnPage_intStatus]; decide) inst _

theorem bit_raise_of_bit {ty pg inst b : Nat} (hb : b < 32) (h : bit (s.getF (Hdr.INT_STATUS ty pg) inst 0) b = true) (k : Nat) :
    bit ((s.raise ty pg inst k).getF (Hdr.INT_STATUS ty pg) inst 0) b = true := by
  unfold State.raise
  rw [bit_eq_testBit] at h
  rw [State.getF_setF_same, bit_eq_testBit, show (Hdr.INT_STATUS ty pg).width = 32 from rfl, Nat.testBit_mod_two_pow, Nat.testBit_or, h]
  simp [hb]

/-! The ends of a request. -/

/-- What a pin's grant leaves: all but the mark of the export engine's pin and its job. -/
theorem pinGranted_frame (s : State) (h : PinHolder) :
    (pinGranted s h).domains = s.domains ∧ (pinGranted s h).dram = s.dram ∧ (pinGranted s h).commitQ = s.commitQ ∧
      (pinGranted s h).commitWait = s.commitWait ∧ ∀ f : Fld, f.bitOnPage 0 % 0x8000 ≠ 0x923 → (pinGranted s h).getF f 0 0 = s.getF f 0 0 := by
  have hkeep : ∀ f : Fld, f.bitOnPage 0 % 0x8000 ≠ 0x923 → (s.setF Reg.EXPORT_PIN_HELD 0 0 1).getF f 0 0 = s.getF f 0 0 := fun f hf =>
    State.getF_setF_ne s 1 (Fld.key_ne_of_bitOnPage (by simpa [Reg.EXPORT_PIN_HELD, Fld.bitOnPage] using hf.symm) 0 0)
  cases h with
  | exportEngine => exact ⟨rfl, rfl, rfl, rfl, hkeep⟩
  | _ => exact ⟨rfl, rfl, rfl, rfl, fun _ _ => rfl⟩

theorem foldl_pinGranted_frame (hs : List PinHolder) (s : State) :
    let u := hs.foldl pinGranted s
    u.domains = s.domains ∧ u.dram = s.dram ∧ u.commitQ = s.commitQ ∧
      u.commitWait = s.commitWait ∧ ∀ f : Fld, f.bitOnPage 0 % 0x8000 ≠ 0x923 → u.getF f 0 0 = s.getF f 0 0 := by
  induction hs generalizing s with
  | nil => exact ⟨rfl, rfl, rfl, rfl, fun _ _ => rfl⟩
  | cons h hs ih =>
    obtain ⟨h1, h2, h3, h4, h5⟩ := ih (pinGranted s h)
    obtain ⟨g1, g2, g3, g4, g5⟩ := pinGranted_frame s h
    exact ⟨h1.trans g1, h2.trans g2, h3.trans g3, h4.trans g4, fun f hf => (h5 f hf).trans (g5 f hf)⟩

/-- The pins that waited are granted, and nothing else of the commit unit changes. -/
theorem grantWaiting_takes {id : Nat} (hd : s.domain? id = some d) :
    let u := grantWaiting s id
    u.domain? id = some { d with pins := d.pins ++ d.pinWait, pinWait := [] } ∧ (∀ k, k ≠ id → u.domain? k = s.domain? k) ∧
      u.dram = s.dram ∧ u.commitQ = s.commitQ ∧ u.commitWait = s.commitWait ∧
      ∀ f : Fld, f.bitOnPage 0 % 0x8000 ≠ 0x923 → u.getF f 0 0 = s.getF f 0 0 := by
  have hid : d.id = id := State.domain?_id hd
  obtain ⟨h1, h2, h3, h4, h5⟩ := foldl_pinGranted_frame d.pinWait (s.setDomain { d with pins := d.pins ++ d.pinWait, pinWait := [] })
  simp only [grantWaiting, hd]
  refine ⟨(State.domain?_of_domains h1 _).trans (State.domain?_setDomain_same _ hid), fun k hk => ?_, h2, h3, h4, h5⟩
  exact (State.domain?_of_domains h1 _).trans (State.domain?_setDomain_ne _ (show d.id ≠ k from fun e => hk (e.symm.trans hid)))

/-- The head of the queue is done: it leaves the queue, and COMMIT_DONE stands beside what stood before. -/
theorem requestDone_takes (s : State) (q : CommitReq) (n : Nat) :
    let u := requestDone s q n
    u.domains = s.domains ∧ u.dram = s.dram ∧ u.commitQ = s.commitQ.drop 1 ∧ u.commitWait = false ∧
      bit (u.getF (Hdr.INT_STATUS 16 0) 0 0) 1 = true ∧
      (bit (s.getF (Hdr.INT_STATUS 16 0) 0 0) 2 = true → bit (u.getF (Hdr.INT_STATUS 16 0) 0 0) 2 = true) ∧
      ∀ f ∈ [Reg.COMMIT_COMMITS, Reg.COMMIT_SKIPS, Reg.COMMIT_DUPS], u.getF f 0 0 = s.getF f 0 0 := by
  unfold requestDone
  refine ⟨rfl, rfl, rfl, rfl, bit_raise _ 16 0 0 (by decide), fun h => bit_raise_of_bit (by decide) ?_ 1, fun f hf => ?_⟩
  · rw [State.getF_setF_ne _ _ (by decide), State.getF_setF_ne _ _ (by decide)]
    exact h
  · simp only [List.mem_cons, List.not_mem_nil, or_false] at hf
    rcases hf with rfl | rfl | rfl <;>
      · rw [State.getF_raise_ne _ (by decide), State.getF_setF_ne _ _ (by decide), State.getF_setF_ne _ _ (by decide)]
        rfl

theorem requestFails_takes (s : State) (c i0 i1 : Nat) :
    let u := requestFails s c i0 i1
    u.domains = s.domains ∧ u.dram = s.dram ∧ u.commitQ = s.commitQ.drop 1 ∧
      (bit (s.getF (Hdr.INT_STATUS 16 0) 0 0) 0 = false →
        u.getF (Hdr.ERR_CODE 16 0) 0 0 = c % 65536 ∧ u.getF (Hdr.ERR_INFO0 16 0) 0 0 = i0 % 2 ^ 32) := by
  unfold requestFails commitError
  refine ⟨State.recordErr_domains .., State.recordErr_dram .., State.recordErr_commitQ .., fun h => ?_⟩
  exact recordErr_fields (s := { s with commitQ := s.commitQ.drop 1, commitWait := false }) h c i0 i1

/-! The head of the queue, by the outcome of its checks. -/

theorem requestChecks_atTime (s : State) (t : Nat) (q : CommitReq) : requestChecks (s.atTime t) q = requestChecks s q := rfl

theorem requestChecks_domain (h : requestChecks s q = .ok (d, j)) : s.domain? q.domain = some d := by
  unfold requestChecks at h
  split at h
  · cases h
  split at h
  · cases h
  split at h
  · cases h
  · rename_i e he
    split at h
    · cases h
    split at h
    · cases h
    · cases h
      exact he

variable {t : Nat} {qs : List CommitReq}

/-- A head of the queue that changes no domain ends as the commit unit's own work. -/
theorem commitCommand_of_domains (hq : s.commitQ = q :: qs) (h : (commitExecute s t).domains = s.domains) :
    commitCommand s t = commitExecute s t := by
  simp only [commitCommand, hq, State.domain?_of_domains h]
  simp

section
variable (hq : s.commitQ = q :: qs) (hrun : s.getF (Hdr.FREEZE 16) 0 0 ≠ 1) (hkind : q.kind = 0)
include hq hrun hkind

theorem commitExecute_error {c i0 i1 : Nat} (h : requestChecks s q = .error (c, i0, i1)) :
    commitExecute s t = requestFails (s.atTime t) c i0 i1 := by
  simp only [commitExecute, hrun, hq, hkind, requestChecks_atTime, h, Nat.zero_ne_one, if_false]

theorem commitExecute_repeat (h : requestChecks s q = .ok (d, j)) (hrep : repeats d q = true) :
    commitExecute s t = requestDone ((s.atTime t).countF Reg.COMMIT_DUPS 0 0 1) q q.step := by
  simp only [commitExecute, hrun, hq, hkind, requestChecks_atTime, h, hrep, Nat.zero_ne_one, if_false, if_true]

theorem commitExecute_first (h : requestChecks s q = .ok (d, j)) (hrep : repeats d q = false) :
    commitExecute s t =
      if q.step ≠ d.lastStep.elim 0 (fun n => (n + 1) % 2 ^ 64) then
        requestFails (s.atTime t) 0x0903 (q.step % 2 ^ 32) (d.lastStep.getD 0 % 2 ^ 32)
      else if !d.pins.isEmpty then
        if s.commitWait then s.atTime t else { s.atTime t with commitWait := true }.raise 16 0 0 3
      else commitRecord (s.atTime t) q d j := by
  simp only [commitExecute, hrun, hq, hkind, requestChecks_atTime, h, hrep, Nat.zero_ne_one, if_false, Bool.false_eq_true]
  cases d.lastStep <;> rfl

end

/-! The commit record. -/

theorem length_formRecord (q : CommitReq) (slot : Bool) (ls : Nat × Nat × Nat) (digest time : Nat) :
    (formRecord q slot ls digest time).length = 64 := by
  simp [formRecord, length_toLe]

/-- The slot area that a commit makes the committed one. -/
def CommitReq.slot (q : CommitReq) (d : Domain) : Bool := if q.skipped then d.committed else !d.committed

/-- The digest that goes into the record. -/
def commitDigest (s : State) (q : CommitReq) (d : Domain) : Nat :=
  if q.skipped then (if d.lastStep.isSome then recDigest d.record else 0) else rootDigest (domainLeaves s d (q.slot d))

/-- The record of a commit. -/
def commitBytes (s : State) (q : CommitReq) (d : Domain) : List Byte :=
  formRecord q (q.slot d) (lossScaleNext d.lossScale q.skipped q.growth).1 (commitDigest s q d) s.now

/-- The domain once its commit stands. -/
def committedDomain (s : State) (q : CommitReq) (d : Domain) : Domain :=
  let d' := { d with committed := q.slot d, lastStep := some q.step, record := commitBytes s q d }
  let d' := if q.skipped then d' else d'.setLeaves (q.slot d) (domainLeaves s d (q.slot d))
  { d' with run := d'.run.map (fun x => if x.step = q.step then { x with phase := .committed } else x) }

/-- LOSS_SCALE_FLOOR, where the commit meets it. -/
def floorRaised (s : State) (q : CommitReq) (d : Domain) : State :=
  if (lossScaleNext d.lossScale q.skipped q.growth).2 then s.raise 16 0 0 2 else s

theorem floorRaised_regs (s : State) (q : CommitReq) (d : Domain) :
    floorRaised s q d = { s with regs := (floorRaised s q d).regs } := by
  unfold floorRaised
  split <;> rfl

theorem dramSize_floorRaised (s : State) (q : CommitReq) (d : Domain) : dramSize (floorRaised s q d) = dramSize s := by
  unfold floorRaised
  split
  · exact dramSize_raise s 16 0 0 2
  · rfl

/-- The record in its journal entry. -/
def recordWritten (s : State) (q : CommitReq) (d : Domain) (j : Nat) : State :=
  let u := floorRaised s q d
  { u with
    dram := Memory.writeL s.dram (j + 64 * (q.step % 16)) (commitBytes s q d)
    dramUe := []
    dramCe := u.dramCe.filter (fun l => !(dramLines (j + 64 * (q.step % 16)) 64).contains l) }

/-- The commit's counter. -/
def commitCounted (s : State) (q : CommitReq) : State :=
  if q.skipped then s.countF Reg.COMMIT_SKIPS 0 0 1 else s.countF Reg.COMMIT_COMMITS 0 0 1

theorem commitRecord_written (hue : s.dramUe = []) (hsize : j + 64 * (q.step % 16) + 64 ≤ dramSize s) :
    commitRecord s q d j =
      grantWaiting (requestDone (commitCounted ((recordWritten s q d j).setDomain (committedDomain s q d)) q) q q.step) q.domain := by
  have hlen : (commitBytes s q d).length = 64 := length_formRecord ..
  have hsame := floorRaised_regs s q d
  have hdram : (floorRaised s q d).dram = s.dram := by rw [hsame]
  have hw : dramWrite (floorRaised s q d) (j + 64 * (q.step % 16)) (commitBytes s q d) = (recordWritten s q d j, none) := by
    rw [dramWrite_clean (by rw [hlen, dramSize_floorRaised]; exact hsize) (by rw [hsame]; exact hue), hlen, hdram]
    rfl
  have hsz : ¬(j + 64 * (q.step % 16) + 64 > dramSize (floorRaised s q d)) := by
    rw [dramSize_floorRaised]
    omega
  unfold commitRecord
  rcases hls : lossScaleNext d.lossScale q.skipped q.growth with ⟨ls, fl⟩
  have hfloor : (if fl = true then s.raise 16 0 0 2 else s) = floorRaised s q d := by rw [floorRaised, hls]
  have hbytes : formRecord q (q.slot d) ls (commitDigest s q d) s.now = commitBytes s q d := by rw [commitBytes, hls]
  have hslot : (if q.skipped = true then d.committed else !d.committed) = q.slot d := rfl
  have hdigest : (if q.skipped = true then (if d.lastStep.isSome then recDigest d.record else 0) else rootDigest (domainLeaves s d (q.slot d))) =
    commitDigest s q d := rfl
  dsimp only
  rw [hfloor, hslot, hdigest, hbytes, if_neg hsz, hw]
  rfl

theorem committedDomain_fields (s : State) (q : CommitReq) (d : Domain) :
    let e := committedDomain s q d
    e.id = d.id ∧ e.committed = q.slot d ∧ e.lastStep = some q.step ∧ e.record = commitBytes s q d ∧ e.pins = d.pins ∧
      e.pinWait = d.pinWait ∧ e.group = d.group ∧ e.stopped = d.stopped := by
  unfold committedDomain Domain.setLeaves
  cases q.skipped <;> cases q.slot d <;> exact ⟨rfl, rfl, rfl, rfl, rfl, rfl, rfl, rfl⟩

theorem recordWritten_same (s : State) (q : CommitReq) (d : Domain) (j : Nat) :
    (recordWritten s q d j).regs = (floorRaised s q d).regs ∧ (recordWritten s q d j).commitQ = s.commitQ ∧
      (recordWritten s q d j).domains = s.domains ∧
      (recordWritten s q d j).dram = Memory.writeL s.dram (j + 64 * (q.step % 16)) (commitBytes s q d) := by
  have hsame := floorRaised_regs s q d
  unfold recordWritten
  generalize floorRaised s q d = u at hsame
  dsimp only
  rw [hsame]
  exact ⟨rfl, rfl, rfl, rfl⟩

theorem getF_recordWritten {f : Fld} (h : f.bitOnPage 0 % 0x8000 ≠ 0x80) :
    (recordWritten s q d j).getF f 0 0 = s.getF f 0 0 := by
  rw [getF_of_regs (recordWritten_same s q d j).1]
  unfold floorRaised
  split
  · exact State.getF_raise_ne s (Fld.key_ne_of_bitOnPage (by rw [bitOnPage_intStatus]; exact h.symm) 0 0)
  · rfl

theorem bit_recordWritten (h : (lossScaleNext d.lossScale q.skipped q.growth).2 = true) :
    bit ((recordWritten s q d j).getF (Hdr.INT_STATUS 16 0) 0 0) 2 = true := by
  rw [getF_of_regs (recordWritten_same s q d j).1]
  rw [floorRaised, if_pos h]
  exact bit_raise s 16 0 0 (by decide)

/-- What counting a commit leaves, and the counter itself. -/
theorem commitCounted_takes (s : State) (q : CommitReq) :
    let u := commitCounted s q
    let up (f : Fld) : Prop := u.getF f 0 0 = min (s.getF f 0 0 + 1) (2 ^ f.width - 1)
    u.domains = s.domains ∧ u.dram = s.dram ∧ u.commitQ = s.commitQ ∧
      u.getF (Hdr.INT_STATUS 16 0) 0 0 = s.getF (Hdr.INT_STATUS 16 0) 0 0 ∧
      (if q.skipped then up Reg.COMMIT_SKIPS else up Reg.COMMIT_COMMITS) := by
  unfold commitCounted
  cases q.skipped
  · exact ⟨rfl, rfl, rfl, State.getF_countF_ne s 1 (by decide), State.getF_countF_same ..⟩
  · exact ⟨rfl, rfl, rfl, State.getF_countF_ne s 1 (by decide), State.getF_countF_same ..⟩

/-- A commit that stands: the record in the journal, the domain at its step, the pins granted that waited for it. -/
theorem commitRecord_takes (hue : s.dramUe = []) (hsize : j + 64 * (q.step % 16) + 64 ≤ dramSize s) (hid : d.id = q.domain) :
    let u := commitRecord s q d j
    let e := committedDomain s q d
    let up (f : Fld) : Prop := u.getF f 0 0 = min (s.getF f 0 0 + 1) (2 ^ f.width - 1)
    u.commitQ = s.commitQ.drop 1 ∧ u.commitWait = false ∧
      u.dram = Memory.writeL s.dram (j + 64 * (q.step % 16)) (commitBytes s q d) ∧
      u.domain? q.domain = some { e with pins := e.pins ++ e.pinWait, pinWait := [] } ∧
      (∀ k, k ≠ q.domain → u.domain? k = s.domain? k) ∧
      (if q.skipped then up Reg.COMMIT_SKIPS else up Reg.COMMIT_COMMITS) ∧
      ((lossScaleNext d.lossScale q.skipped q.growth).2 = true → bit (u.getF (Hdr.INT_STATUS 16 0) 0 0) 2 = true) ∧
      bit (u.getF (Hdr.INT_STATUS 16 0) 0 0) 1 = true := by
  dsimp only
  rw [commitRecord_written hue hsize]
  obtain ⟨-, hcommitQ, hdomains, hdram⟩ := recordWritten_same s q d j
  have hC : (recordWritten s q d j).getF Reg.COMMIT_COMMITS 0 0 = s.getF Reg.COMMIT_COMMITS 0 0 := getF_recordWritten (by decide)
  have hS : (recordWritten s q d j).getF Reg.COMMIT_SKIPS 0 0 = s.getF Reg.COMMIT_SKIPS 0 0 := getF_recordWritten (by decide)
  have hF := bit_recordWritten (s := s) (q := q) (d := d) (j := j)
  have heid : (committedDomain s q d).id = q.domain := (committedDomain_fields s q d).1.trans hid
  obtain ⟨c1, c2, c3, c4, c5⟩ := commitCounted_takes ((recordWritten s q d j).setDomain (committedDomain s q d)) q
  obtain ⟨r1, r2, r3, r4, r5, r6, r7⟩ :=
    requestDone_takes (commitCounted ((recordWritten s q d j).setDomain (committedDomain s q d)) q) q q.step
  generalize recordWritten s q d j = v at hcommitQ hdomains hdram hC hS hF c1 c2 c3 c4 c5 r1 r2 r3 r4 r5 r6 r7 ⊢
  have hdom := r1.trans c1
  obtain ⟨g1, g2, g3, g4, g5, g6⟩ := grantWaiting_takes
    ((State.domain?_of_domains hdom q.domain).trans (State.domain?_setDomain_same v heid))
  have hint := g6 (Hdr.INT_STATUS 16 0) (by decide)
  refine ⟨?_, g5.trans r4, g3.trans (r2.trans (c2.trans hdram)), g1, fun k hk => ?_, ?_, fun hfl => ?_, ?_⟩
  · rw [g4, r3, c3]
    exact congrArg (List.drop 1) hcommitQ
  · rw [g2 k hk, State.domain?_of_domains hdom, State.domain?_setDomain_ne _ (by rw [heid]; exact hk.symm),
      State.domain?_of_domains hdomains]
  · cases hq : q.skipped
    · rw [hq] at c5
      rw [if_neg (by decide)] at c5 ⊢
      rw [g6 _ (by decide), r7 _ (by simp), ← hC]
      exact c5
    · rw [hq] at c5
      rw [if_pos rfl] at c5 ⊢
      rw [g6 _ (by decide), r7 _ (by simp), ← hS]
      exact c5
  · rw [hint]
    refine r6 ?_
    rw [c4]
    exact hF hfl
  · rw [hint]
    exact r5

/-! The scan of a journal. -/

theorem readJournal_clean (hue : s.dramUe = []) (hce : s.dramCe = []) (hsize : j + 1024 ≤ dramSize s) :
    readJournal s j = (s, (List.range 16).map (fun k => Memory.readN s.dram (j + 64 * k) 64)) := by
  have hread (k : Nat) (hk : k < 16) : dramRead s (j + 64 * k) 64 = (s, none, Memory.readN s.dram (j + 64 * k) 64) := by
    rw [dramRead_clean (by omega) (by simp [hue, hce])]
    have : { s with dramCe := s.dramCe.filter (fun l => !(dramLines (j + 64 * k) 64).contains l) } = s := by
      rw [hce, List.filter_nil, ← hce]
    rw [this]
  have hall (ks : List Nat) (es : List (List Byte)) (hks : ∀ k ∈ ks, k < 16) :
      ks.foldl (fun (x : State × List (List Byte)) k =>
        let r := dramRead x.1 (j + 64 * k) 64
        (r.1, x.2 ++ [r.2.2])) (s, es) = (s, es ++ ks.map (fun k => Memory.readN s.dram (j + 64 * k) 64)) := by
    induction ks generalizing es with
    | nil => simp
    | cons k ks ih =>
      rw [List.foldl_cons]
      dsimp only
      rw [hread k (hks k List.mem_cons_self), ih _ (fun x hx => hks x (List.mem_cons_of_mem _ hx))]
      simp
  exact hall (List.range 16) [] (fun k hk => List.mem_range.mp hk)

/-- The domain as a scan that found `found` leaves it. -/
def scannedDomain (d : Domain) (found : Option (List Byte)) : Domain :=
  { d with committed := found.elim false recSlot, lastStep := found.map recStep, record := found.getD [] }

theorem scanDomain_clean (hue : s.dramUe = []) (hce : s.dramCe = []) (hsize : j + 1024 ≤ dramSize s) :
    let found := latestOf d.id ((List.range 16).map (fun k => Memory.readN s.dram (j + 64 * k) 64))
    scanDomain s d j = (s.setDomain (scannedDomain d found), found.isSome) := by
  dsimp only
  unfold scanDomain
  rw [readJournal_clean hue hce hsize]
  dsimp only
  cases latestOf d.id ((List.range 16).map (fun k => Memory.readN s.dram (j + 64 * k) 64)) <;> rfl

theorem scanExecute_scanned (hq : s.commitQ = q :: qs) (hrun : s.getF (Hdr.FREEZE 16) 0 0 ≠ 1) (hkind : q.kind = 1)
    (h : requestChecks s q = .ok (d, j)) (hue : s.dramUe = []) (hce : s.dramCe = []) (hsize : j + 1024 ≤ dramSize s) :
    let found := latestOf d.id ((List.range 16).map (fun k => Memory.readN s.dram (j + 64 * k) 64))
    let v := (s.atTime t).setDomain (scannedDomain d found)
    scanExecute s t = if found.isSome then requestDone v q (((v.domain? q.domain).bind (·.lastStep)).getD 0)
      else requestFails v 0x0906 q.domain 16 := by
  have hscan := scanDomain_clean (s := s.atTime t) (d := d) (j := j) hue hce hsize
  dsimp only at hscan ⊢
  simp only [scanExecute, hrun, hq, hkind, requestChecks_atTime, h, hscan, ne_eq, not_true_eq_false, if_false]
  rfl

/-- Settles O22: the head of the queue by the outcome of its checks, and the frame lemmas of each end of a request. -/
theorem commitsTakeEffect : Obligations.CommitsTakeEffect := by
  unfold Obligations.CommitsTakeEffect
  intro s t q qs hq hrun clear up
  have hdrop : s.commitQ.drop 1 = qs := by rw [hq]; rfl
  refine ⟨?_, ?_, ?_, ?_, ?_, ?_⟩
  · intro c i0 i1 hkind hchk
    have he := commitExecute_error (t := t) hq hrun hkind hchk
    obtain ⟨h1, h2, h3, h4⟩ := requestFails_takes (s.atTime t) c i0 i1
    have hc := commitCommand_of_domains (t := t) hq (by rw [he]; exact h1)
    refine ⟨_, congrArg Host.Outcome.next (hc.trans he), h3.trans hdrop, h1, h2, fun h => (h4 h).1⟩
  · intro d j hkind hchk hrep
    have he := commitExecute_repeat (t := t) hq hrun hkind hchk hrep
    obtain ⟨h1, h2, h3, -, h5, -, h7⟩ := requestDone_takes ((s.atTime t).countF Reg.COMMIT_DUPS 0 0 1) q q.step
    have hc := commitCommand_of_domains (t := t) hq (by rw [he]; exact h1)
    refine ⟨_, congrArg Host.Outcome.next (hc.trans he), h3.trans hdrop, h1, h2, ?_, h5⟩
    exact (h7 _ (by simp)).trans (State.getF_countF_same ..)
  · intro d j hkind hchk hrep hstep
    have he := (commitExecute_first (t := t) hq hrun hkind hchk hrep).trans (if_pos hstep)
    obtain ⟨h1, h2, h3, h4⟩ := requestFails_takes (s.atTime t) 0x0903 (q.step % 2 ^ 32) (d.lastStep.getD 0 % 2 ^ 32)
    have hc := commitCommand_of_domains (t := t) hq (by rw [he]; exact h1)
    refine ⟨_, congrArg Host.Outcome.next (hc.trans he), h3.trans hdrop, h1, h2, fun h => ?_⟩
    obtain ⟨hcode, hinfo⟩ := h4 h
    exact ⟨hcode, hinfo.trans (Nat.mod_mod _ _)⟩
  · intro d j hkind hchk hrep hstep hpins
    have hpin : (!d.pins.isEmpty) = true := by simp [hpins]
    have he := (commitExecute_first (t := t) hq hrun hkind hchk hrep).trans ((if_neg (not_not_intro hstep)).trans (if_pos hpin))
    cases hw : s.commitWait
    · rw [hw, if_neg (by decide)] at he
      have hc := commitCommand_of_domains (t := t) hq (by rw [he]; rfl)
      refine ⟨_, congrArg Host.Outcome.next (hc.trans he), rfl, rfl, rfl, rfl, fun _ => ?_⟩
      exact bit_raise _ 16 0 0 (by decide)
    · rw [hw, if_pos rfl] at he
      have hc := commitCommand_of_domains (t := t) hq (by rw [he]; rfl)
      exact ⟨_, congrArg Host.Outcome.next (hc.trans he), rfl, hw, rfl, rfl, fun h => by simp at h⟩
  · intro d j hkind hchk hrep hstep hpins hgroup hue hsize ls slot digest r
    have hd := requestChecks_domain hchk
    have he := (commitExecute_first (t := t) hq hrun hkind hchk hrep).trans
      ((if_neg (not_not_intro hstep)).trans (if_neg (by simp [hpins])))
    obtain ⟨h1, h2, h3, h4, h5, h6, h7, h8⟩ :=
      commitRecord_takes (s := s.atTime t) (q := q) (j := j) hue hsize (State.domain?_id hd)
    obtain ⟨-, f2, f3, f4, f5, f6, f7, f8⟩ := committedDomain_fields (s.atTime t) q d
    have hc : commitCommand s t = commitExecute s t := by
      simp only [commitCommand, hq, he, h4, hd, Option.any_some, f8, sendReport, f7, hgroup]
      simp
    refine ⟨_, _, congrArg Host.Outcome.next (hc.trans he), h1.trans hdrop, h2, h3, h4, f2, f3, f4, ?_, rfl, h6, h7, h8, h5⟩
    change (committedDomain (s.atTime t) q d).pins ++ (committedDomain (s.atTime t) q d).pinWait = d.pinWait
    rw [f5, f6, hpins, List.nil_append]
  · intro d j hkind hchk hue hce hsize found
    have hd := requestChecks_domain hchk
    have he := scanExecute_scanned (t := t) hq hrun hkind hchk hue hce hsize
    have hnew : ((s.atTime t).setDomain (scannedDomain d found)).domain? q.domain = some (scannedDomain d found) :=
      State.domain?_setDomain_same _ (show d.id = _ from State.domain?_id hd)
    cases hf : found with
    | some r =>
      rw [show latestOf d.id _ = some r from hf] at he
      rw [hf] at hnew
      obtain ⟨h1, h2, h3, -⟩ := requestDone_takes ((s.atTime t).setDomain (scannedDomain d (some r))) q
        (((((s.atTime t).setDomain (scannedDomain d (some r))).domain? q.domain).bind (·.lastStep)).getD 0)
      exact ⟨_, _, congrArg Host.Outcome.next he, h3.trans hdrop, h2, (State.domain?_of_domains h1 _).trans hnew, rfl, rfl, rfl, rfl,
        fun h => nomatch h⟩
    | none =>
      rw [show latestOf d.id _ = none from hf] at he
      rw [hf] at hnew
      obtain ⟨h1, h2, h3, h4⟩ := requestFails_takes ((s.atTime t).setDomain (scannedDomain d none)) 0x0906 q.domain 16
      exact ⟨_, _, congrArg Host.Outcome.next he, h3.trans hdrop, h2, (State.domain?_of_domains h1 _).trans hnew, rfl, rfl, rfl, rfl,
        fun _ h => (h4 h).1⟩

end Sys2Proof.Machine
end

section
namespace Sys2Proof.Machine

set_option Elab.async false

/-! O23: posts of operations and step boundaries. -/

variable {s : State} {d : Domain} {r : StepRun} {ws : List Nat} {addr t : Nat}

/-! OP_PUSH. -/

/-- A push into a queue with room: the address is queued, and nothing but the registers and the journal changes. -/
theorem postOp_takes (hen : s.getF (Hdr.ENABLE 3) 8 0 ≠ 0) (hroom : s.cruQ.length + s.cru.length < 16) (a : BitVec 41) :
    let u := postOp s a.toNat
    u.cruQ = s.cruQ ++ [a.toNat] ∧ u.getF Reg.CRU_OP_ADDR 8 0 = a.toNat ∧ u.domains = s.domains ∧ u.dram = s.dram := by
  have haddr : ((journal s 3 (cruAccepted s)).setF Reg.CRU_OP_ADDR 8 0 a.toNat).getF Reg.CRU_OP_ADDR 8 0 = a.toNat := by
    rw [State.getF_setF_same]
    exact Nat.mod_eq_of_lt (Nat.lt_of_lt_of_le a.isLt (by decide))
  have hon : ((journal s 3 (cruAccepted s)).setF Reg.CRU_OP_ADDR 8 0 a.toNat).getF (Hdr.ENABLE 3) 8 0 ≠ 0 := by
    rw [State.getF_setF_ne _ _ (by decide)]
    exact hen
  have hdepth : ¬cruDepth ((journal s 3 (cruAccepted s)).setF Reg.CRU_OP_ADDR 8 0 a.toNat) ≥ 16 := Nat.not_le.mpr hroom
  have hpost : postOp s a.toNat = { (journal s 3 (cruAccepted s)).setF Reg.CRU_OP_ADDR 8 0 a.toNat with cruQ := s.cruQ ++ [a.toNat] } := by
    rw [postOp, pushOp, if_neg hon, if_neg hdepth, haddr]
    rfl
  rw [hpost]
  exact ⟨rfl, haddr, rfl, rfl⟩

/-- CP1 posts nothing while it is down. -/
theorem opPush_down (h : cpUp s 1 = false) (addr t : Nat) : opPush s addr t = s.atTime t :=
  if_pos (show (!cpUp (s.atTime t) 1) = true by rw [show cpUp (s.atTime t) 1 = cpUp s 1 from rfl, h]; rfl)

/-- What CP1 does with a descriptor once it runs. -/
theorem opPush_up (h : cpUp s 1 = true) (addr t : Nat) :
    opPush s addr t =
      match s.domain? (dDomain (descWords s addr)) with
      | none => postOp (s.atTime t) addr
      | some d => match d.run with
        | none => s.atTime t
        | some r =>
          match dOpk (descWords s addr) with
          | 1 => if r.step = dStep (descWords s addr) then postGrad (s.atTime t) d r (descWords s addr) addr else s.atTime t
          | 2 => if r.step = dStep (descWords s addr) then postStat (s.atTime t) d r (descWords s addr) addr else s.atTime t
          | 3 => postRoot (s.atTime t) d r (descWords s addr) addr
          | _ => postOp (s.atTime t) addr :=
  if_neg (show ¬(!cpUp (s.atTime t) 1) = true by rw [show cpUp (s.atTime t) 1 = cpUp s 1 from rfl, h]; decide)

theorem opPush_idle (hd : s.domain? (dDomain (descWords s addr)) = some d) (hrun : d.run = none) : opPush s addr t = s.atTime t := by
  cases hcp : cpUp s 1
  · exact opPush_down hcp addr t
  · rw [opPush_up hcp]
    simp only [hd, hrun]

section
variable (hd : s.domain? (dDomain (descWords s addr)) = some d) (hrun : d.run = some r)
include hd hrun

theorem opPush_grad (hcp : cpUp s 1 = true) (hk : dOpk (descWords s addr) = 1) :
    opPush s addr t = if r.step = dStep (descWords s addr) then postGrad (s.atTime t) d r (descWords s addr) addr else s.atTime t := by
  rw [opPush_up hcp]
  simp only [hd, hrun, hk]

theorem opPush_stat (hcp : cpUp s 1 = true) (hk : dOpk (descWords s addr) = 2) :
    opPush s addr t = if r.step = dStep (descWords s addr) then postStat (s.atTime t) d r (descWords s addr) addr else s.atTime t := by
  rw [opPush_up hcp]
  simp only [hd, hrun, hk]

theorem opPush_root (hcp : cpUp s 1 = true) (hk : dOpk (descWords s addr) = 3) :
    opPush s addr t = postRoot (s.atTime t) d r (descWords s addr) addr := by
  rw [opPush_up hcp]
  simp only [hd, hrun, hk]

/-- A GRAD out of turn is held. -/
theorem opPush_grad_held (hk : dOpk (descWords s addr) = 1)
    (hno : r.step ≠ dStep (descWords s addr) ∨ r.phase ≠ .program ∧ r.phase ≠ .halted ∨ stepHalted s d = false ∨ tableHeld d r.step = false) :
    opPush s addr t = s.atTime t := by
  cases hcp : cpUp s 1
  · exact opPush_down hcp addr t
  · rw [opPush_grad hd hrun hcp hk]
    split
    · rename_i hstep
      refine if_pos ?_
      simp only [Bool.not_eq_true']
      exact hno.resolve_left (not_not_intro hstep)
    · rfl

/-- A STAT out of turn is held. -/
theorem opPush_stat_held (hk : dOpk (descWords s addr) = 2)
    (hno : r.step ≠ dStep (descWords s addr) ∨ r.gradClosed = false ∨ r.statOpen = true ∨ statOwed s d r = false) :
    opPush s addr t = s.atTime t := by
  cases hcp : cpUp s 1
  · exact opPush_down hcp addr t
  · rw [opPush_stat hd hrun hcp hk]
    split
    · rename_i hstep
      refine if_pos ?_
      simp only [Bool.not_eq_true']
      rcases hno.resolve_left (not_not_intro hstep) with h | h | h
      · exact Or.inl h
      · exact Or.inr (Or.inl h)
      · exact Or.inr (Or.inr (Or.inl h))
    · rfl

/-- A ROOT that is not due, or whose own roots are not written, is held. -/
theorem opPush_root_held (hk : dOpk (descWords s addr) = 3)
    (hno : d.rootsDue = [] ∨ ownRootsDone s (descWords s addr) (descItems s (descWords s addr)) = false) :
    opPush s addr t = s.atTime t := by
  cases hcp : cpUp s 1
  · exact opPush_down hcp addr t
  · rw [opPush_root hd hrun hcp hk]
    refine if_pos ?_
    simp only [Bool.not_eq_true', List.isEmpty_iff]
    rcases hno with h | h
    · exact Or.inr (Or.inl h)
    · exact Or.inr (Or.inr (Or.inr h))

end

theorem opTaken_of (hen : s.getF (Hdr.ENABLE 3) 8 0 = 1) (hroom : s.cruQ.length + s.cru.length < 16) : opTaken s = true := by
  simp [opTaken, hen, cruDepth, hroom]

/-- The step's overflow flag, and HOP_TIMEOUT for its GRAD. -/
def gradReady (s : State) (d : Domain) (ovf : Bool) (addr : Nat) : State :=
  let s := if ovf then setOvfLocal s addr else s
  match d.group with
  | some g => if g.size < 2 then s else setHopTimeout s g
  | none => s

theorem setHopTimeout_same (s : State) (g : Group) :
    (setHopTimeout s g).dram = s.dram ∧ (setHopTimeout s g).domains = s.domains ∧ (setHopTimeout s g).cruQ = s.cruQ ∧
      (setHopTimeout s g).cru = s.cru ∧ (setHopTimeout s g).now = s.now ∧
      (setHopTimeout s g).getF (Hdr.ENABLE 3) 8 0 = s.getF (Hdr.ENABLE 3) 8 0 := by
  unfold setHopTimeout
  split
  · exact ⟨rfl, rfl, rfl, rfl, rfl, rfl⟩
  · exact ⟨rfl, rfl, rfl, rfl, rfl, State.getF_setF_ne _ _ (by decide)⟩

theorem gradReady_same (s : State) (d : Domain) (ovf : Bool) (addr : Nat) :
    let u := gradReady s d ovf addr
    u.dram = (if ovf then Memory.write s.dram addr (Memory.read s.dram addr ||| 0x40#8) else s.dram) ∧ u.domains = s.domains ∧
      u.cruQ = s.cruQ ∧ u.cru = s.cru ∧ u.now = s.now ∧ u.getF (Hdr.ENABLE 3) 8 0 = s.getF (Hdr.ENABLE 3) 8 0 := by
  have hovf : let v := if ovf = true then setOvfLocal s addr else s
      v.dram = (if ovf then Memory.write s.dram addr (Memory.read s.dram addr ||| 0x40#8) else s.dram) ∧ v.domains = s.domains ∧
        v.cruQ = s.cruQ ∧ v.cru = s.cru ∧ v.now = s.now ∧ v.getF (Hdr.ENABLE 3) 8 0 = s.getF (Hdr.ENABLE 3) 8 0 := by
    cases ovf <;> exact ⟨rfl, rfl, rfl, rfl, rfl, rfl⟩
  unfold gradReady
  generalize (if ovf = true then setOvfLocal s addr else s) = v at hovf ⊢
  obtain ⟨v1, v2, v3, v4, v5, v6⟩ := hovf
  dsimp only
  split
  · rename_i g hg
    split
    · exact ⟨v1, v2, v3, v4, v5, v6⟩
    · obtain ⟨h1, h2, h3, h4, h5, h6⟩ := setHopTimeout_same v g
      exact ⟨h1.trans v1, h2.trans v2, h3.trans v3, h4.trans v4, h5.trans v5, h6.trans v6⟩
  · exact ⟨v1, v2, v3, v4, v5, v6⟩

/-- The step as it goes into its reduction. -/
def StepRun.reduce (r : StepRun) (ovf : Bool) (now : Nat) : StepRun :=
  { r with phase := .reducing, ovf := ovf, gradClosed := false, readyUs := min 0xFFFFFFFF ((now - r.startedAt) / 1000) }

/-- A step of a domain changed, and an operation posted. -/
theorem postOp_modRun (hd : s.domain? d.id = some d) (hrun : d.run = some r) (f : StepRun → StepRun)
    (hen : s.getF (Hdr.ENABLE 3) 8 0 ≠ 0) (hroom : s.cruQ.length + s.cru.length < 16) (a : BitVec 41) :
    let u := postOp (s.modDomain d.id (fun d => { d with run := d.run.map f })) a.toNat
    u.cruQ = s.cruQ ++ [a.toNat] ∧ u.getF Reg.CRU_OP_ADDR 8 0 = a.toNat ∧ u.dram = s.dram ∧
      (u.domain? d.id).bind (·.run) = some (f r) := by
  rw [State.modDomain_of_some hd]
  obtain ⟨h1, h2, h3, h4⟩ := postOp_takes (s := s.setDomain { d with run := d.run.map f }) hen hroom a
  refine ⟨h1, h2, h4, ?_⟩
  rw [State.domain?_of_domains h3, State.domain?_setDomain_same s rfl]
  simp [hrun]

theorem postGrad_takes (hd : s.domain? d.id = some d) (hrun : d.run = some r) (hphase : r.phase = .program ∨ r.phase = .halted)
    (hhalted : stepHalted s d = true) (htable : tableHeld d r.step = true) (hen : s.getF (Hdr.ENABLE 3) 8 0 = 1)
    (hroom : s.cruQ.length + s.cru.length < 16) (a : BitVec 41) :
    let ovf := dOvf ws || accOverflow s.dram ((descItems s ws).map (fun it => (iA it, iLen it)))
    let u := postGrad s d r ws a.toNat
    u.cruQ = s.cruQ ++ [a.toNat] ∧ u.getF Reg.CRU_OP_ADDR 8 0 = a.toNat ∧
      u.dram = (if ovf then Memory.write s.dram a.toNat (Memory.read s.dram a.toNat ||| 0x40#8) else s.dram) ∧
      (u.domain? d.id).bind (·.run) = some (r.reduce ovf s.now) := by
  have hgo : ¬((r.phase ≠ .program ∧ r.phase ≠ .halted) ∨ (!stepHalted s d) = true ∨ (!tableHeld d r.step) = true) := by
    rcases hphase with h | h <;> simp [h, hhalted, htable]
  have hpost : postGrad s d r ws a.toNat =
      let ovf := dOvf ws || accOverflow s.dram ((descItems s ws).map (fun it => (iA it, iLen it)))
      let v := gradReady s d ovf a.toNat
      postOp (v.modDomain d.id (fun d => { d with run := d.run.map (fun r => r.reduce ovf v.now) })) a.toNat := by
    rw [postGrad, if_neg hgo, if_neg (by simp [opTaken_of hen hroom])]
    rfl
  dsimp only at hpost ⊢
  rw [hpost]
  generalize (dOvf ws || accOverflow s.dram ((descItems s ws).map (fun it => (iA it, iLen it)))) = ovf
  obtain ⟨v1, v2, v3, v4, v5, v6⟩ := gradReady_same s d ovf a.toNat
  generalize gradReady s d ovf a.toNat = v at v1 v2 v3 v4 v5 v6 ⊢
  obtain ⟨h1, h2, h3, h4⟩ := postOp_modRun (s := v) ((State.domain?_of_domains v2 _).trans hd) hrun (fun r => r.reduce ovf v.now)
    (by rw [v6, hen]; decide) (by rw [v3, v4]; exact hroom) a
  exact ⟨h1.trans (by rw [v3]), h2, h3.trans v1, h4.trans (by rw [v5])⟩

theorem postStat_takes (hd : s.domain? d.id = some d) (hrun : d.run = some r) (hclosed : r.gradClosed = true) (hopen : r.statOpen = false)
    (howed : statOwed s d r = true) (howners : ownersOk s d ws (descItems s ws) = true) (hen : s.getF (Hdr.ENABLE 3) 8 0 = 1)
    (hroom : s.cruQ.length + s.cru.length < 16) (a : BitVec 41) :
    let u := postStat s d r ws a.toNat
    u.cruQ = s.cruQ ++ [a.toNat] ∧ u.getF Reg.CRU_OP_ADDR 8 0 = a.toNat ∧ u.dram = s.dram ∧
      (u.domain? d.id).bind (·.run) = some { r with statOpen := true } := by
  dsimp only
  rw [postStat, if_neg (by simp [hclosed, hopen, howed, howners]), if_neg (by simp [opTaken_of hen hroom])]
  exact postOp_modRun hd hrun (fun r => { r with statOpen := true }) (by rw [hen]; decide) hroom a

/-! Step boundaries. -/

/-- A boundary waits for the commit of its step and for its programs. -/
theorem stepBoundary_waits {id : Nat} {others : Bool} (hd : s.domain? id = some d) (hrun : d.run = some r)
    (hwait : r.phase ≠ .committed ∨ stepActive s d = true) : stepBoundary s id others t = s.atTime t := by
  have hd' : (s.atTime t).domain? id = some d := hd
  unfold stepBoundary
  dsimp only
  split
  · rfl
  · simp only [hd', hrun]
    refine if_pos ?_
    have hact : stepActive (s.atTime t) d = stepActive s d := rfl
    rcases hwait with h | h <;> simp [h, hact]

/-- The domain once its step has ended. -/
def endedDomain (s : State) (d : Domain) (r : StepRun) : Domain :=
  { d with
    gathered := s.gathered d
    freshSides := (d.tiles s).flatMap (fun l => match s.physical l with
      | some i => (s.tile i).statFresh.map (fun g => (l, g))
      | none => [])
    run := none, rootsDue := r.dueRoots, roots := [] }

theorem takeSides_of_run {id : Nat} (hd : s.domain? id = some d) (hrun : d.run = some r) :
    takeSides s id = s.setDomain { d with
      gathered := s.gathered d
      freshSides := (d.tiles s).flatMap (fun l => match s.physical l with
        | some i => (s.tile i).statFresh.map (fun g => (l, g))
        | none => []) } := by
  rw [takeSides, State.modDomain_of_some hd, hrun]
  rfl

theorem setDomain_setDomain (s : State) {d e : Domain} (h : d.id = e.id) : (s.setDomain d).setDomain e = s.setDomain e := by
  have hput (ds : List Domain) : putDomain (putDomain ds d) e = putDomain ds e := by
    induction ds with
    | nil => simp [putDomain, h]
    | cons x ds ih =>
      by_cases hlt : x.id < d.id
      · simp only [putDomain, hlt, h ▸ hlt, if_true, ih]
      · by_cases heq : x.id = d.id
        · simp [putDomain, heq, h]
        · simp [putDomain, h ▸ hlt, h ▸ heq, h]
  unfold State.setDomain
  simp only [hput]

/-- The end of a step whose queue runs no unit. -/
theorem endStep_idle (hd : s.domain? d.id = some d) (hrun : d.run = some r)
    (hunit : ∀ q, s.queue? d.queue = some q → q.unit = none) : endStep s d r = s.setDomain (endedDomain s d r) := by
  rw [endStep, takeSides_of_run hd hrun]
  generalize hx : { d with
    gathered := s.gathered d
    freshSides := (d.tiles s).flatMap (fun l => match s.physical l with
      | some i => (s.tile i).statFresh.map (fun g => (l, g))
      | none => []) } = x
  have hid : x.id = d.id := by rw [← hx]
  have hq : (s.setDomain x).queue? d.queue = s.queue? d.queue := rfl
  have hend : { x with run := none, rootsDue := r.dueRoots, roots := [] } = endedDomain s d r := by rw [← hx]; rfl
  rw [hq]
  have hmod : (s.setDomain x).modDomain d.id (fun d => { d with run := none, rootsDue := r.dueRoots, roots := [] }) =
      s.setDomain (endedDomain s d r) := by
    rw [State.modDomain_of_some (State.domain?_setDomain_same s hid), hend, setDomain_setDomain s (show x.id = (endedDomain s d r).id from hid)]
  cases hqueue : s.queue? d.queue with
  | none => exact hmod
  | some q => simpa only [hunit q hqueue] using hmod

/-- The held accumulation count in force. -/
def Domain.accApplied (d : Domain) : Domain := { d with accCount := d.nextAcc.getD d.accCount, nextAcc := none }

theorem boundaryHeld_alone (hd : s.domain? d.id = some d) (hrun : d.run = some r) (hgroup : d.group = none) (hsteer : d.steer = false)
    (hret : d.retained = false) (hunit : ∀ q, s.queue? d.queue = some q → q.unit = none) (others : Bool) :
    boundaryHeld s d others = s.setDomain (endedDomain s d r).accApplied := by
  have he : (s.setDomain (endedDomain s d r)).domain? d.id = some (endedDomain s d r) := State.domain?_setDomain_same s rfl
  have hsteered : steerDomain (s.setDomain (endedDomain s d r)) d.id r.step = s.setDomain (endedDomain s d r) := by
    simp only [steerDomain, he]
    exact if_pos (Or.inl (by rw [show (endedDomain s d r).steer = d.steer from rfl, hsteer]; rfl))
  have hnone : (s.setDomain (endedDomain s d r)).group? d.id = none := by
    rw [State.group?, he]
    exact hgroup
  have hacts : boundaryActions (s.setDomain (endedDomain s d r)) d.id d.nextStep others = s.setDomain (endedDomain s d r) := by
    simp only [boundaryActions, hnone]
  have hplan : applyPlan (s.setDomain (endedDomain s d r)) d.id = s.setDomain (endedDomain s d r) := by
    simp only [applyPlan, hnone, Option.bind_none]
  unfold boundaryHeld
  simp only [hrun, endStep_idle hd hrun hunit, hsteered, hacts, hplan, hret, Bool.false_eq_true, if_false]
  rw [State.modDomain_of_some he]
  exact setDomain_setDomain s rfl

theorem rerouteIdle_routes (s : State) : rerouteIdle s = { s with routes := (rerouteIdle s).routes } := by
  unfold rerouteIdle reroute
  split <;> rfl

theorem stepActive_idle (hunit : ∀ q, s.queue? d.queue = some q → q.unit = none) : stepActive s d = false := by
  have : (s.queue? d.queue).bind (·.unit) = none := by
    cases h : s.queue? d.queue with
    | none => rfl
    | some q => exact hunit q h
  rw [stepActive, this]

/-- The boundary of a committed step of a domain alone: the step ends, and the held count takes effect. -/
theorem stepBoundary_ends {id : Nat} {others : Bool} (hcp : cpUp s 1 = true) (hd : s.domain? id = some d) (hrun : d.run = some r)
    (hphase : r.phase = .committed) (hgroup : d.group = none) (hsteer : d.steer = false) (hret : d.retained = false)
    (hunit : ∀ q, s.queue? d.queue = some q → q.unit = none) (hfw : fwState s ≠ 3) :
    stepBoundary s id others t =
      boundaryStarts (rerouteIdle ((s.atTime t).setDomain (endedDomain (s.atTime t) d r).accApplied)) id t := by
  have hid := State.domain?_id hd
  subst hid
  have hd' : (s.atTime t).domain? d.id = some d := hd
  have hcp' : cpUp (s.atTime t) 1 = true := hcp
  have hact : stepActive (s.atTime t) d = false := stepActive_idle hunit
  have hfw' : fwState (rerouteIdle ((s.atTime t).setDomain (endedDomain (s.atTime t) d r).accApplied)) = fwState s := by
    rw [rerouteIdle_routes]
    rfl
  unfold stepBoundary
  simp only [hcp', hd', hrun, hphase, hact, boundaryHeld_alone hd' hrun hgroup hsteer hret hunit others]
  rw [if_neg (by decide), if_neg (by decide), if_neg (by rw [hfw']; exact fun h => hfw h.1)]

/-- Settles O23: CP1 posts each kind of operation in its turn and holds it till then; a boundary ends the committed step. -/
theorem stepBoundaries : Obligations.StepBoundaries := by
  unfold Obligations.StepBoundaries
  refine ⟨fun s id others t d r hd hrun => ⟨?_, fun hwait => ?_⟩, ?_⟩
  · intro hcp hphase hgroup hsteer hret hunit hfw
    have hid := State.domain?_id hd
    have hroutes := rerouteIdle_routes ((s.atTime t).setDomain (endedDomain (s.atTime t) d r).accApplied)
    refine ⟨_, (endedDomain (s.atTime t) d r).accApplied, congrArg (fun v => Host.Outcome.next (updateMembership v))
      (stepBoundary_ends (t := t) (others := others) hcp hd hrun hphase hgroup hsteer hret hunit hfw),
      ?_, ?_, ?_, ?_, rfl, rfl, rfl, rfl, rfl, rfl, rfl, rfl, fun i hi => ?_⟩
    · rw [hroutes]; rfl
    · rw [hroutes]; rfl
    · rw [hroutes]; rfl
    · rw [hroutes]
      exact State.domain?_setDomain_same (s.atTime t) (show d.id = _ from hid)
    · rw [hroutes]
      exact State.domain?_setDomain_ne (s.atTime t) (show d.id ≠ i from fun e => hi (e.symm.trans hid))
  · exact congrArg (fun v => Host.Outcome.next (updateMembership v)) (stepBoundary_waits hd hrun hwait)
  intro s t a ws its queued
  refine ⟨?_, ?_, ?_, ?_⟩
  · intro hcp hen hroom hd
    refine ⟨_, rfl, ?_⟩
    have hpost : opPush s a.toNat t = postOp (s.atTime t) a.toNat := by
      rw [opPush_up hcp]
      simp only [show s.domain? (dDomain (descWords s a.toNat)) = none from hd]
    obtain ⟨h1, h2, h3, h4⟩ := postOp_takes (s := s.atTime t) hen hroom a
    rw [hpost]
    exact ⟨⟨h1, h2⟩, h3, h4⟩
  · intro d hd hrun
    exact congrArg Host.Outcome.next (opPush_idle hd hrun)
  · intro d r hd hrun
    refine ⟨fun hk hno => ?_, fun hk hno => ?_, fun hk hno => ?_⟩
    · exact congrArg Host.Outcome.next (opPush_grad_held hd hrun hk hno)
    · exact congrArg Host.Outcome.next (opPush_stat_held hd hrun hk hno)
    · exact congrArg Host.Outcome.next (opPush_root_held hd hrun hk hno)
  · intro d r hcp hen hroom hd hrun
    have hd' : (s.atTime t).domain? d.id = some d := by rw [State.domain?_id hd]; exact hd
    refine ⟨fun hk hstep hphase hhalted htable => ?_, fun hk hstep hclosed hopen howed howners => ?_,
      fun hk hstep hdue howners hdone => ?_⟩
    · obtain ⟨h1, h2, h3, h4⟩ := postGrad_takes (s := s.atTime t) (ws := ws) hd' hrun hphase hhalted htable hen hroom a
      refine ⟨_, congrArg Host.Outcome.next ((opPush_grad hd hrun hcp hk).trans (if_pos hstep)), ⟨h1, h2⟩, h3, h4⟩
    · obtain ⟨h1, h2, h3, h4⟩ := postStat_takes (s := s.atTime t) (ws := ws) hd' hrun hclosed hopen howed howners hen hroom a
      exact ⟨_, congrArg Host.Outcome.next ((opPush_stat hd hrun hcp hk).trans (if_pos hstep)), ⟨h1, h2⟩, h3, h4⟩
    · have hgo : ¬((dStep ws ≠ r.step ∧ dStep ws + 1 ≠ r.step) ∨ d.rootsDue.isEmpty = true ∨
          (!ownersOk (s.atTime t) d ws (descItems (s.atTime t) ws)) = true ∨
          (!ownRootsDone (s.atTime t) ws (descItems (s.atTime t) ws)) = true) := by
        have h1 : ownersOk (s.atTime t) d ws (descItems (s.atTime t) ws) = true := howners
        have h2 : ownRootsDone (s.atTime t) ws (descItems (s.atTime t) ws) = true := hdone
        rcases hstep with h | h <;> simp [h, h1, h2, hdue]
      obtain ⟨h1, h2, h3, h4⟩ := postOp_takes (s := s.atTime t) (by rw [show (s.atTime t).getF (Hdr.ENABLE 3) 8 0 = 1 from hen]; decide) hroom a
      exact ⟨_, congrArg Host.Outcome.next ((opPush_root hd hrun hcp hk).trans (if_neg hgo)), ⟨h1, h2⟩, h4, h3⟩

end Sys2Proof.Machine
end

section
namespace Sys2Proof.Machine

set_option Elab.async false

/-! O24: crucible operations. -/

/-- A write of DRAM stores, or meets an uncorrectable line. -/
theorem dramWrite_cases (s : State) (a : Nat) (d : List Byte) :
    (∃ c l, (dramWrite s a d).1 = s.recordErr 5 0 c 0x0506 c l) ∨
      ∃ m ue ce, (dramWrite s a d).1 = { s with dram := m, dramUe := ue, dramCe := ce } := by
  unfold dramWrite
  dsimp only
  generalize (dramLines a d.length).filter (fun l => decide (a ≤ l) && decide (l + 64 ≤ a + d.length)) = whole
  split
  · exact Or.inl ⟨_, _, rfl⟩
  · exact Or.inr ⟨_, _, _, rfl⟩

/-- What an operation's effects leave as they were: the crucible's lists, time, OPS_DONE and the slices' error codes. -/
structure CruFrame (s u : State) : Prop where
  cru : u.cru = s.cru
  cruQ : u.cruQ = s.cruQ
  cruDone : u.cruDone = s.cruDone
  now : u.now = s.now
  opsDone : u.getF Reg.CRU_OPS_DONE 8 0 = s.getF Reg.CRU_OPS_DONE 8 0
  errCode : ∀ i ≤ 8, u.getF (Hdr.ERR_CODE 3 0) i 0 = s.getF (Hdr.ERR_CODE 3 0) i 0

namespace CruFrame

variable {s u v : State}

theorem refl (s : State) : CruFrame s s := ⟨rfl, rfl, rfl, rfl, rfl, fun _ _ => rfl⟩

theorem trans (h : CruFrame s u) (g : CruFrame u v) : CruFrame s v :=
  ⟨g.cru.trans h.cru, g.cruQ.trans h.cruQ, g.cruDone.trans h.cruDone, g.now.trans h.now, g.opsDone.trans h.opsDone,
    fun i hi => (g.errCode i hi).trans (h.errCode i hi)⟩

/-- Steps that change no register and none of the crucible's lists. -/
theorem of_regs (hregs : u.regs = s.regs) (h : u.cru = s.cru ∧ u.cruQ = s.cruQ ∧ u.cruDone = s.cruDone ∧ u.now = s.now) : CruFrame s u :=
  ⟨h.1, h.2.1, h.2.2.1, h.2.2.2, getF_of_regs hregs _ _ _, fun _ _ => getF_of_regs hregs _ _ _⟩

theorem setF (s : State) {f : Fld} {i : Nat} (h9 : f.bitOnPage i % 0x8000 ≠ 0x900) (he : f.bitOnPage i % 0x8000 ≠ 0xE0) (inst v : Nat) :
    CruFrame s (s.setF f inst i v) where
  cru := rfl
  cruQ := rfl
  cruDone := rfl
  now := rfl
  opsDone := State.getF_setF_ne s v (Fld.key_ne_of_bitOnPage (by simpa [Reg.CRU_OPS_DONE, Fld.bitOnPage] using h9) inst 8)
  errCode := fun k _ => State.getF_setF_ne s v (Fld.key_ne_of_bitOnPage (by rw [bitOnPage_errCode]; exact he) inst k)

theorem countF (s : State) {f : Fld} {i : Nat} (h9 : f.bitOnPage i % 0x8000 ≠ 0x900) (he : f.bitOnPage i % 0x8000 ≠ 0xE0) (inst n : Nat) :
    CruFrame s (s.countF f inst i n) := setF s h9 he inst _

theorem raise (s : State) (ty pg inst b : Nat) : CruFrame s (s.raise ty pg inst b) :=
  setF s (by rw [bitOnPage_intStatus]; decide) (by rw [bitOnPage_intStatus]; decide) inst _

theorem foldl {α : Type} {g : State → α → State} (h : ∀ s a, CruFrame s (g s a)) (l : List α) (s : State) : CruFrame s (l.foldl g s) := by
  induction l generalizing s with
  | nil => exact refl s
  | cons a l ih => exact (h s a).trans (ih (g s a))

/-- The error code of a DRAM channel is none of the crucible's. -/
theorem errCode_ne_dram (c : Nat) {k : Nat} (hk : k ≤ 8) : (Hdr.ERR_CODE 5 0).key c 0 ≠ (Hdr.ERR_CODE 3 0).key k 0 := by
  simp only [Fld.key, Hdr.ERR_CODE, blockBase, Nat.zero_mul, Nat.mul_zero, Nat.add_zero]
  omega

theorem setDramCode (s : State) (c v : Nat) : CruFrame s (s.setF (Hdr.ERR_CODE 5 0) c 0 v) where
  cru := rfl
  cruQ := rfl
  cruDone := rfl
  now := rfl
  opsDone := State.getF_setF_ne s v (Fld.key_ne_of_bitOnPage (by simp [Reg.CRU_OPS_DONE, Fld.bitOnPage, Hdr.ERR_CODE]) c 8)
  errCode := fun _ hk => State.getF_setF_ne s v (errCode_ne_dram c hk)

/-- An error of a DRAM channel. -/
theorem dramErr (s : State) (c code i0 i1 : Nat) : CruFrame s (s.recordErr 5 0 c code i0 i1) := by
  unfold State.recordErr
  split
  · exact refl s
  · have h0 (s : State) := setF s (f := Hdr.ERR_INFO0 5 0) (i := 0) (by rw [bitOnPage_errInfo0]; decide) (by rw [bitOnPage_errInfo0]; decide) c i0
    have h1 (s : State) := setF s (f := Hdr.ERR_INFO1 5 0) (i := 0) (by rw [bitOnPage_errInfo1]; decide) (by rw [bitOnPage_errInfo1]; decide) c i1
    exact (((setDramCode s c code).trans (h0 _)).trans (h1 _)).trans (raise _ 5 0 c 0)

theorem dramWrite (s : State) (a : Nat) (d : List Byte) : CruFrame s (dramWrite s a d).1 := by
  rcases dramWrite_cases s a d with ⟨c, l, h⟩ | ⟨m, ue, ce, h⟩
  · rw [h]
    exact dramErr s _ _ _ _
  · rw [h]
    exact of_regs rfl ⟨rfl, rfl, rfl, rfl⟩

theorem useFree (s : State) : CruFrame s s.useFree := of_regs rfl ⟨rfl, rfl, rfl, rfl⟩

theorem cruUndefine (s : State) (a n : Nat) : CruFrame s (cruUndefine s a n) := (dramWrite s a _).trans (useFree _)

theorem modDomain (s : State) (id : Nat) (f : Domain → Domain) : CruFrame s (s.modDomain id f) := by
  unfold State.modDomain
  split <;> exact of_regs rfl ⟨rfl, rfl, rfl, rfl⟩

theorem undefineOp (s : State) (o : CruOp) (outcome : Nat) : CruFrame s (undefineOp s o outcome) := by
  unfold Machine.undefineOp
  dsimp only
  generalize ((outcome == 2 || outcome == 3) && (o.mismatch ||
    ((outcome == 2 || outcome == 3) && !o.mismatch && decide (dM o.words > 1) && Config.freeNat s.free % 2 == 1))) = broken
  have h1 : CruFrame s (if ((outcome == 2 || outcome == 3) && !o.mismatch && decide (dM o.words > 1)) = true then s.useFree else s) := by
    split
    · exact useFree s
    · exact refl s
  generalize (if ((outcome == 2 || outcome == 3) && !o.mismatch && decide (dM o.words > 1)) = true then s.useFree else s) = v at h1 ⊢
  have hpair (s : State) (a n b m : Nat) : CruFrame s (Machine.cruUndefine (Machine.cruUndefine s a n) b m) :=
    (cruUndefine s a n).trans (cruUndefine _ b m)
  have h2 : CruFrame v (if dOpk o.words = 1 ∧ (outcome = 3 ∨ outcome = 5 ∨ broken = true) then
      Machine.cruUndefine (o.items.foldl (fun s it => Machine.cruUndefine (Machine.cruUndefine s (iA it) (2 * iLen it)) (iB it) (2 * iLen it)) v)
        (dBrec o.words) (2 * dNBlocks o.words) else v) := by
    split
    · exact (foldl (fun s it => hpair s _ _ _ _) o.items v).trans (cruUndefine _ _ _)
    · exact refl v
  have h3 (w : State) : CruFrame w (if broken = true then
      if dOpk o.words = 1 then Machine.cruUndefine w (dHistOut o.words) (dNBlocks o.words)
      else if dOpk o.words = 2 then o.items.foldl (fun s it => Machine.cruUndefine (Machine.cruUndefine s (iA it) (iLen it)) (iB it) (iLen it)) w
      else w
    else w) := by
    split
    · split
      · exact cruUndefine _ _ _
      · split
        · exact foldl (fun s it => hpair s _ _ _ _) o.items _
        · exact refl _
    · exact refl _
  exact (h1.trans h2).trans (h3 _)

/-- An outcome that did not close the group's result touches the step alone. -/
theorem rootEffects (s : State) (o : CruOp) {outcome : Nat} (h : 3 ≤ outcome) : CruFrame s (rootEffects s o outcome) := by
  have h0 : outcome ≠ 0 := by omega
  have h2 : outcome ≠ 2 := by omega
  unfold Machine.rootEffects
  simp only [h0, h2, Bool.or_self, if_false, show (outcome == 0) = false by simp [h0], show (outcome == 2) = false by simp [h2],
    Bool.false_eq_true]
  split
  · exact modDomain s _ _
  · exact modDomain s _ _
  · exact refl s
  · exact refl s

theorem closeChan (s : State) (c : CruChan) : CruFrame s ((setChF s Reg.CH_OPEN c.ch 0).raise 3 0 (c.ch / 2) 1) := by
  have hslot : c.ch % 2 = 0 ∨ c.ch % 2 = 1 := by omega
  refine (setF s ?_ ?_ _ _).trans (raise _ _ _ _ _)
  all_goals rcases hslot with h | h <;> rw [h] <;> decide

end CruFrame

/-! The end of an operation. -/

/-- The result record, where the operation may write one: OPS_DONE counts it. -/
def recordResult (s : State) (o : CruOp) (outcome fp : Nat) (sum : Word) : State :=
  if outcome = 4 ∧ (!addrOk (dw o.words 11) ∨ !inWindows (domainWindows s (dDomain o.words)) true (dResult o.words) 64) then s
  else (((dramWrite s (dResult o.words) (resultRecord o outcome fp sum s.now)).1).countF Reg.CRU_OPS_DONE 8 0 1).raise 3 0 8 1

/-- The counters and interrupts of an outcome, and the channels freed. -/
def countOutcome (s : State) (o : CruOp) (outcome : Nat) : State :=
  let s := match outcome with
    | 1 => (s.countF Reg.CRU_OPS_OVF 8 0 1).raise 3 0 8 3
    | 2 => (s.countF Reg.CRU_OPS_FAULT 8 0 1).raise 3 0 8 2
    | 3 => (s.countF Reg.CRU_OPS_TIMEOUT 8 0 1).raise 3 0 8 4
    | _ => s
  let s := ((s.countF Reg.CRU_BLOCKS_REPAIRED 8 0 o.repaired).countF Reg.CRU_BLOCKS_WIDE 8 0 o.wide).countF Reg.CRU_BLOCKS_PREMAX 8 0 o.premaxed
  o.chans.foldl (fun s c => (setChF s Reg.CH_OPEN c.ch 0).raise 3 0 (c.ch / 2) 1) s

theorem CruFrame.countOutcome (s : State) (o : CruOp) (outcome : Nat) : CruFrame s (countOutcome s o outcome) := by
  have hcount (s : State) (f : Fld) (hf : f ∈ [Reg.CRU_OPS_OVF, Reg.CRU_OPS_FAULT, Reg.CRU_OPS_TIMEOUT, Reg.CRU_BLOCKS_REPAIRED,
      Reg.CRU_BLOCKS_WIDE, Reg.CRU_BLOCKS_PREMAX]) (n : Nat) : CruFrame s (s.countF f 8 0 n) := by
    simp only [List.mem_cons, List.not_mem_nil, or_false] at hf
    rcases hf with rfl | rfl | rfl | rfl | rfl | rfl <;> exact countF s (by decide) (by decide) 8 n
  have h1 : CruFrame s (match outcome with
      | 1 => (s.countF Reg.CRU_OPS_OVF 8 0 1).raise 3 0 8 3
      | 2 => (s.countF Reg.CRU_OPS_FAULT 8 0 1).raise 3 0 8 2
      | 3 => (s.countF Reg.CRU_OPS_TIMEOUT 8 0 1).raise 3 0 8 4
      | _ => s) := by
    split
    · exact (hcount s _ (by simp) 1).trans (raise _ _ _ _ _)
    · exact (hcount s _ (by simp) 1).trans (raise _ _ _ _ _)
    · exact (hcount s _ (by simp) 1).trans (raise _ _ _ _ _)
    · exact refl s
  refine h1.trans ?_
  exact ((hcount _ Reg.CRU_BLOCKS_REPAIRED (by simp) o.repaired).trans (hcount _ Reg.CRU_BLOCKS_WIDE (by simp) o.wide)).trans
    (hcount _ Reg.CRU_BLOCKS_PREMAX (by simp) o.premaxed) |>.trans (foldl closeChan o.chans _)

theorem endOp_eq {s : State} {o : CruOp} {os : List CruOp} (hcru : s.cru = o :: os) (outcome faultPos : Nat) (sum : Word) (prev : Nat) :
    let fp := if outcome = 2 then faultPos else 0
    let v := countOutcome (recordResult (rootEffects (undefineOp s o outcome) o outcome) o outcome fp sum) o outcome
    endOp s outcome faultPos sum prev =
      { v with
        cru := v.cru.drop 1
        cruLate := v.cruLate.filter (fun (x : CruLate) => !o.chans.any (fun c => c.ch == x.ch)) ++
          (if outcome = 3 then o.chans.map (fun c => (⟨c.ch, dEpoch o.words, dDomain o.words, dStep o.words, dOpk o.words⟩ : CruLate)) else [])
        cruDone := v.cruDone ++ [{ words := o.words, items := o.items, outcome := outcome, localFault := o.fault,
                                   faultPos := fp, prevMember := prev, redNorm := o.redNorm, groupSum := sum }] } := by
  unfold endOp
  rw [hcru]
  rfl

/-- An operation ends: it leaves the list, tells CP1 its outcome, and is counted where it has a result record. -/
theorem endOp_ends {s : State} {o : CruOp} {os : List CruOp} (hcru : s.cru = o :: os) {outcome : Nat} (hout : 3 ≤ outcome) (fp : Nat)
    (sum : Word) (prev : Nat) :
    let u := endOp s outcome fp sum prev
    u.cru = os ∧ u.cruQ = s.cruQ ∧ u.now = s.now ∧ (∃ x, u.cruDone = s.cruDone ++ [x] ∧ x.outcome = outcome) ∧
      (outcome ≠ 4 → u.getF Reg.CRU_OPS_DONE 8 0 = min (s.getF Reg.CRU_OPS_DONE 8 0 + 1) (2 ^ Reg.CRU_OPS_DONE.width - 1)) ∧
      ∀ i ≤ 8, u.getF (Hdr.ERR_CODE 3 0) i 0 = s.getF (Hdr.ERR_CODE 3 0) i 0 := by
  dsimp only
  rw [endOp_eq hcru]
  generalize hfp : (if outcome = 2 then fp else 0) = pos
  have hpre : CruFrame s (rootEffects (undefineOp s o outcome) o outcome) :=
    (CruFrame.undefineOp s o outcome).trans (CruFrame.rootEffects _ o hout)
  generalize rootEffects (undefineOp s o outcome) o outcome = v at hpre ⊢
  have hpost := CruFrame.countOutcome (recordResult v o outcome pos sum) o outcome
  generalize countOutcome (recordResult v o outcome pos sum) o outcome = w at hpost ⊢
  have hw := CruFrame.dramWrite v (dResult o.words) (resultRecord o outcome pos sum v.now)
  have hkeep : (recordResult v o outcome pos sum).cru = v.cru ∧ (recordResult v o outcome pos sum).cruQ = v.cruQ ∧
      (recordResult v o outcome pos sum).cruDone = v.cruDone ∧ (recordResult v o outcome pos sum).now = v.now ∧
      (outcome ≠ 4 → (recordResult v o outcome pos sum).getF Reg.CRU_OPS_DONE 8 0 =
        min (v.getF Reg.CRU_OPS_DONE 8 0 + 1) (2 ^ Reg.CRU_OPS_DONE.width - 1)) ∧
      ∀ i ≤ 8, (recordResult v o outcome pos sum).getF (Hdr.ERR_CODE 3 0) i 0 = v.getF (Hdr.ERR_CODE 3 0) i 0 := by
    unfold recordResult
    split
    · rename_i h
      exact ⟨rfl, rfl, rfl, rfl, fun hne => absurd h.1 hne, fun _ _ => rfl⟩
    · generalize (dramWrite v (dResult o.words) (resultRecord o outcome pos sum v.now)).1 = x at hw ⊢
      refine ⟨hw.cru, hw.cruQ, hw.cruDone, hw.now, fun _ => ?_, fun i hi => ?_⟩
      · rw [State.getF_raise_ne _ (by decide), State.getF_countF_same, hw.opsDone]
      · rw [State.getF_raise_ne, State.getF_countF_ne, hw.errCode i hi]
        all_goals exact Fld.key_ne_of_bitOnPage (by simp [Reg.CRU_OPS_DONE, Fld.bitOnPage, Hdr.ERR_CODE, Hdr.INT_STATUS]) _ _
  obtain ⟨h1, h2, h3, h4, h5, h6⟩ := hkeep
  refine ⟨?_, hpost.cruQ.trans (h2.trans hpre.cruQ), hpost.now.trans (h4.trans hpre.now), ⟨_, congrArg (· ++ _) (hpost.cruDone.trans (h3.trans hpre.cruDone)), rfl⟩, fun hne => ?_,
    fun i hi => ?_⟩
  · change w.cru.drop 1 = os
    rw [hpost.cru, h1, hpre.cru, hcru]
    rfl
  · exact hpost.opsDone.trans ((h5 hne).trans (by rw [hpre.opsDone]))
  · exact (hpost.errCode i hi).trans ((h6 i hi).trans (hpre.errCode i hi))

/-! The head of the queue. -/

section
variable {s : State} {a t : Nat} {rest : List Nat}

/-- A read of clean DRAM leaves the state as it was. -/
theorem dramRead_pure {s : State} (hue : s.dramUe = []) (hce : s.dramCe = []) {a n : Nat} (hsize : a + n ≤ dramSize s) :
    dramRead s a n = (s, none, Memory.readN s.dram a n) := by
  rw [dramRead_clean hsize (by simp [hue, hce]), hce, List.filter_nil]
  cases s
  subst hce
  rfl

/-- The words of a descriptor, as clean DRAM holds them. -/
def cleanWords (s : State) (a : Nat) : List Nat := wordsAt (Memory.readN s.dram a 128) 16

/-- The items of a descriptor, as clean DRAM holds them; none of one with a reserved value. -/
def cleanItems (s : State) (ws : List Nat) : List (List Nat) :=
  if (descReserved ws).isSome then []
  else (List.range (dNItems ws)).map (fun i => wordsAt ((Memory.readN s.dram (dItems ws) (32 * dNItems ws)).drop (32 * i)) 4)

/-- The kind of command that starts an operation. -/
def startKind (ws : List Nat) : Nat := if dOpk ws = 2 then 2 else if dOpk ws = 3 then 3 else 1

theorem startOp_clean (hrun : s.getF (Hdr.FREEZE 3) 8 0 ≠ 1) (hq : s.cruQ = a :: rest) (hue : s.dramUe = []) (hce : s.dramCe = [])
    (hread : a + 128 ≤ dramSize s)
    (hitems : descReserved (cleanWords s a) = none → dItems (cleanWords s a) + 32 * dNItems (cleanWords s a) ≤ dramSize s) :
    startOp s (startKind (cleanWords s a)) t =
      match opRefusal (s.atTime t) a (cleanWords s a) (cleanItems s (cleanWords s a)) with
      | some (c, i0, i1) =>
        endOp { (s.atTime t).recordErr 3 0 8 c i0 i1 with cruQ := rest, cru := newOp a (cleanWords s a) [] :: s.cru } 4 0 0#32 0
      | none =>
        if (dChans (cleanWords s a)).any (fun c => (opOn s c).isSome) then s
        else beginOp { s.atTime t with cruQ := rest } a (cleanWords s a) (cleanItems s (cleanWords s a)) := by
  have hdesc : dramRead (s.atTime t) a 128 = (s.atTime t, none, Memory.readN s.dram a 128) :=
    dramRead_pure (s := s.atTime t) hue hce hread
  have hkind : ¬((if dOpk (cleanWords s a) = 2 ∨ dOpk (cleanWords s a) = 3 then dOpk (cleanWords s a) else 1) ≠
      startKind (cleanWords s a)) := by
    unfold startKind
    repeat' split
    all_goals omega
  have hpair : (if (descReserved (cleanWords s a)).isSome = true then s.atTime t
        else (dramRead (s.atTime t) (dItems (cleanWords s a)) (32 * dNItems (cleanWords s a))).1) = s.atTime t ∧
      (if (descReserved (cleanWords s a)).isSome = true then [] else (List.range (dNItems (cleanWords s a))).map (fun i =>
        wordsAt ((dramRead (s.atTime t) (dItems (cleanWords s a)) (32 * dNItems (cleanWords s a))).2.2.drop (32 * i)) 4)) =
      cleanItems s (cleanWords s a) := by
    unfold cleanItems
    cases hbad : (descReserved (cleanWords s a)).isSome
    · have hr := dramRead_pure (s := s.atTime t) hue hce (hitems (by simpa using hbad))
      simp only [Bool.false_eq_true, if_false]
      rw [hr]
      exact ⟨rfl, rfl⟩
    · exact ⟨rfl, rfl⟩
  unfold startOp
  rw [if_neg hrun, hq]
  dsimp only
  rw [hdesc]
  dsimp only
  rw [show wordsAt (Memory.readN s.dram a 128) 16 = cleanWords s a from rfl, if_neg hkind, hpair.1, hpair.2]
  rfl

/-- A refused operation leaves the queue with its error. -/
theorem startOp_refused {c i0 i1 : Nat} {ws : List Nat} (hclear : bit (s.getF (Hdr.INT_STATUS 3 0) 8 0) 0 = false) :
    let u := endOp { (s.atTime t).recordErr 3 0 8 c i0 i1 with cruQ := rest, cru := newOp a ws [] :: s.cru } 4 0 0#32 0
    u.cru = s.cru ∧ u.cruQ = rest ∧ u.now = max s.now t ∧ (∃ x, u.cruDone = s.cruDone ++ [x] ∧ x.outcome = 4) ∧
      u.getF (Hdr.ERR_CODE 3 0) 8 0 = c % 65536 := by
  obtain ⟨hcode, -⟩ := recordErr_fields (s := s.atTime t) (ty := 3) (pg := 0) (inst := 8) hclear c i0 i1
  have hnow : ((s.atTime t).recordErr 3 0 8 c i0 i1).now = max s.now t := by rw [State.recordErr_now]; rfl
  have hdone : ((s.atTime t).recordErr 3 0 8 c i0 i1).cruDone = s.cruDone := by rw [State.recordErr_cruDone]; rfl
  dsimp only
  generalize (s.atTime t).recordErr 3 0 8 c i0 i1 = v at hcode hnow hdone ⊢
  obtain ⟨h1, h2, h3, h4, -, h6⟩ := endOp_ends (s := { v with cruQ := rest, cru := newOp a ws [] :: s.cru }) rfl (outcome := 4)
    (by decide) 0 0#32 0
  refine ⟨h1, h2, h3.trans hnow, ?_, (h6 8 (by decide)).trans hcode⟩
  rw [← hdone]
  exact h4

end

/-! The hop timer. -/

theorem insertIdx_eraseIdx_eq_set {α : Type} {l : List α} {k : Nat} (h : k < l.length) (x : α) : (l.eraseIdx k).insertIdx k x = l.set k x := by
  induction l generalizing k with
  | nil => exact absurd h (Nat.not_lt_zero k)
  | cons y l ih =>
    cases k with
    | zero => rfl
    | succ k =>
      rw [List.eraseIdx_cons_succ, List.insertIdx_succ_cons, List.set_cons_succ, ih (Nat.lt_of_succ_lt_succ h)]

theorem insertIdx_eraseIdx_of_getElem? {α : Type} {l : List α} {k : Nat} {x : α} (h : l[k]? = some x) : (l.eraseIdx k).insertIdx k x = l := by
  obtain ⟨hk, rfl⟩ := List.getElem?_eq_some_iff.mp h
  exact (insertIdx_eraseIdx_eq_set hk l[k]).trans (List.set_getElem_self hk)

section
variable {s : State} {k t : Nat} {o : CruOp} {f : State → State}

/-- An operation in focus that ends leaves its place in the order of starts. -/
theorem withOp_ended (hk : s.cru[k]? = some o) (hf : (f { s with cru := o :: s.cru.eraseIdx k }).cru = s.cru.eraseIdx k) :
    withOp s k f = f { s with cru := o :: s.cru.eraseIdx k } := by
  obtain ⟨hlt, -⟩ := List.getElem?_eq_some_iff.mp hk
  simp only [withOp, hk]
  split
  · rfl
  · rename_i p ps hps
    refine if_neg ?_
    have hlen : ps.length + 1 = (s.cru.eraseIdx k).length := by rw [← hf, hps]; rfl
    rw [hlen, List.length_eraseIdx_of_lt hlt]
    omega

/-- An operation in focus that nothing happens to stays where it was. -/
theorem withOp_same (hk : s.cru[k]? = some o) (hf : f { s with cru := o :: s.cru.eraseIdx k } = { s with cru := o :: s.cru.eraseIdx k }) :
    withOp s k f = s := by
  obtain ⟨hlt, -⟩ := List.getElem?_eq_some_iff.mp hk
  have hlen : (s.cru.eraseIdx k).length + 1 = s.cru.length := by
    rw [List.length_eraseIdx_of_lt hlt]
    omega
  simp only [withOp, hk, hf, hlen, if_true, insertIdx_eraseIdx_of_getElem? hk]

end

theorem chanFault_same (s : State) (c code i0 i1 : Nat) : (chanFault s c code i0 i1).cruQ = s.cruQ ∧
    (chanFault s c code i0 i1).cruDone = s.cruDone ∧ (chanFault s c code i0 i1).now = s.now := by
  unfold chanFault State.modOp
  refine ⟨?_, ?_, ?_⟩
  · exact State.recordErr_cruQ ..
  · exact State.recordErr_cruDone ..
  · exact State.recordErr_now ..

/-- A hop timer that expired ends its operation TIMEOUT. -/
theorem timeoutOp_ends {s : State} {o : CruOp} {os : List CruOp} (hcru : s.cru = o :: os) (c : Nat) :
    let u := timeoutOp s c
    u.cru = os ∧ u.cruQ = s.cruQ ∧ u.now = s.now ∧ (∃ x, u.cruDone = s.cruDone ++ [x] ∧ x.outcome = 3) ∧
      u.getF Reg.CRU_OPS_DONE 8 0 = min (s.getF Reg.CRU_OPS_DONE 8 0 + 1) (2 ^ Reg.CRU_OPS_DONE.width - 1) ∧
      (c < 16 → bit (s.getF (Hdr.INT_STATUS 3 0) (c / 2) 0) 0 = false → u.getF (Hdr.ERR_CODE 3 0) (c / 2) 0 = 0x0317) := by
  have hhead (i1 : Nat) : (chanFault s c 0x0317 c i1).cru = { o with fault := true } :: os := by
    simp only [chanFault, State.modOp, State.recordErr_cru, hcru, List.modifyHead]
  have hops (i1 : Nat) : (chanFault s c 0x0317 c i1).getF Reg.CRU_OPS_DONE 8 0 = s.getF Reg.CRU_OPS_DONE 8 0 := by
    change (s.recordErr 3 0 (c / 2) 0x0317 c i1).getF Reg.CRU_OPS_DONE 8 0 = _
    unfold State.recordErr
    split
    · rfl
    · rw [State.getF_raise_ne, State.getF_setF_ne, State.getF_setF_ne, State.getF_setF_ne]
      all_goals
        refine Fld.key_ne_of_bitOnPage ?_ _ _
        simp [Reg.CRU_OPS_DONE, Fld.bitOnPage, Hdr.ERR_CODE, Hdr.ERR_INFO0, Hdr.ERR_INFO1, Hdr.INT_STATUS]
  have hcode (i1 : Nat) (h : bit (s.getF (Hdr.INT_STATUS 3 0) (c / 2) 0) 0 = false) :
      (chanFault s c 0x0317 c i1).getF (Hdr.ERR_CODE 3 0) (c / 2) 0 = 0x0317 := (recordErr_fields h 0x0317 c i1).1
  unfold timeoutOp
  dsimp only
  generalize chF s Reg.CH_SEQ_RX c = i1
  obtain ⟨f1, f2, f3⟩ := chanFault_same s c 0x0317 c i1
  have hh := hhead i1
  have ho := hops i1
  have hcd := hcode i1
  generalize chanFault s c 0x0317 c i1 = v at f1 f2 f3 hh ho hcd ⊢
  obtain ⟨h1, h2, h3, h4, h5, h6⟩ := endOp_ends hh (outcome := 3) (by decide) 0 0#32 (chF v Reg.CH_PREV_MEMBER c)
  refine ⟨h1, h2.trans f1, h3.trans f3, ?_, (h5 (by decide)).trans (by rw [ho]), fun hc h => (h6 _ (by omega)).trans (hcd h)⟩
  rw [← f2]
  exact h4

section
variable {s : State} {ch : Fin 16} {k t : Nat} {o : CruOp} {x : CruChan}

/-- What the hop timer does with the operation in focus. -/
def hopBody (c t : Nat) (s : State) : State :=
  match s.cru.head?.bind (fun o => o.chan c) with
  | none => s
  | some x => if t < hopExpiry s x then s else timeoutOp (s.atTime t) c

theorem hopBody_of_chan {os : List CruOp} (hcru : s.cru = o :: os) (hx : o.chan ch.val = some x) :
    hopBody ch.val t s = if t < hopExpiry s x then s else timeoutOp (s.atTime t) ch.val := by
  rw [hopBody, hcru, List.head?_cons, Option.bind_some, hx]

theorem hopTimeout_eq (hon : opOn s ch.val = some k) : hopTimeout s ch.val t = withOp s k (hopBody ch.val t) := by
  rw [hopTimeout, hon]
  rfl

theorem hopTimeout_early (hon : opOn s ch.val = some k) (hk : s.cru[k]? = some o) (hx : o.chan ch.val = some x)
    (ht : t < x.progress + s.getF Reg.CRU_HOP_TIMEOUT 8 0) : hopTimeout s ch.val t = s := by
  rw [hopTimeout_eq hon]
  exact withOp_same hk ((hopBody_of_chan rfl hx).trans (if_pos ht))

theorem hopTimeout_late (hon : opOn s ch.val = some k) (hk : s.cru[k]? = some o) (hx : o.chan ch.val = some x)
    (ht : ¬t < x.progress + s.getF Reg.CRU_HOP_TIMEOUT 8 0) :
    hopTimeout s ch.val t = timeoutOp ({ s with cru := o :: s.cru.eraseIdx k }.atTime t) ch.val := by
  have hbody := (hopBody_of_chan (s := { s with cru := o :: s.cru.eraseIdx k }) (t := t) rfl hx).trans (if_neg ht)
  rw [hopTimeout_eq hon]
  have hcru : ({ s with cru := o :: s.cru.eraseIdx k }.atTime t).cru = o :: s.cru.eraseIdx k := rfl
  obtain ⟨hend, -⟩ := timeoutOp_ends hcru ch.val
  exact (withOp_ended hk ((congrArg State.cru hbody).trans hend)).trans hbody

end

/-! Outcomes of a GRAD. -/

section
variable {s : State} {t : Nat} {fit : List Nat} {c : CruDone} {cs : List CruDone} {d : Domain} {r : StepRun}

/-- CP1 with the oldest outcome taken. -/
def doneTaken (s : State) (c : CruDone) (cs : List CruDone) (t : Nat) (fit : List Nat) : State :=
  noteFit { s with now := max s.now t, cruDone := cs } (dDomain c.words) fit

theorem opDone_grad (hcp : cpUp s 1 = true) (hdone : s.cruDone = c :: cs) (hk : dOpk c.words = 1) (hd : s.domain? (dDomain c.words) = some d)
    (hrun : d.run = some r) (hstep : r.step = dStep c.words) (hphase : r.phase = .reducing) (hto : c.outcome ≠ 3) :
    let v := doneTaken s c cs t fit
    opDone s t fit = match c.outcome with
      | 0 =>
        let s := if dNoise c.words ∧ dM c.words > 1 then
            v.modDomain (dDomain c.words) (fun d => { d with noise := d.noise.filter (fun x => decide (x.step < r.step)) ++
              [noiseSample r.step (dAcc c.words) d.mbTokens (dM c.words) (dLsExp c.words) c.groupSum c.redNorm] })
          else v
        runUpdate (s.modDomain (dDomain c.words) (fun d => { d with run := d.run.map (fun r => { r with phase := .updating }) }))
          (dDomain c.words) c.words c.items
      | 1 => v.modDomain (dDomain c.words) (fun d => { d with run := d.run.map (fun r => { r with phase := .ready, skipped := true }) })
      | 2 => if r.reruns = 0 then rerunStep v d 1 else secondFault v (dDomain c.words) c.faultPos
      | _ => v.modDomain (dDomain c.words) (fun d => { d with run := d.run.map (fun r => { r with phase := .halted }) }) := by
  have hcp' : cpUp (s.atTime t) 1 = true := hcp
  have hdone' : (s.atTime t).cruDone = c :: cs := hdone
  have hd' : (doneTaken s c cs t fit).domain? (dDomain c.words) = some d := hd
  have hno : ¬(r.step ≠ dStep c.words ∨ r.phase ≠ .reducing) := by simp [hstep, hphase]
  unfold opDone
  dsimp only
  rw [if_neg (by simp [hcp']), hdone']
  dsimp only
  rw [if_neg hto, if_neg (not_not_intro hk)]
  change (match (doneTaken s c cs t fit).domain? (dDomain c.words) with | none => _ | some d => _) = _
  rw [hd']
  dsimp only
  rw [hrun]
  dsimp only
  rw [if_neg hno]
  rfl

theorem modRun_setDomain {id : Nat} (hd : s.domain? id = some d) (hrun : d.run = some r) (f : StepRun → StepRun) :
    s.modDomain id (fun d => { d with run := d.run.map f }) = s.setDomain { d with run := some (f r) } := by
  rw [State.modDomain_of_some hd, hrun]
  rfl

/-- The update of a domain that reads no bad line: its shadow is written, and the step is ready. -/
theorem runUpdate_clean {id : Nat} (hd : s.domain? id = some d) (hrun : d.run = some r) (hue : s.dramUe = []) (ws : List Nat)
    (items : List (List Nat)) :
    let x := updateDomain s d (dM ws) (reducedGradient s ws items)
    (runUpdate s id ws items).dram = x.1.dram ∧
      ((runUpdate s id ws items).domain? id).bind (·.run) = some { r with phase := .ready, nonfinite := x.2 } := by
  have hdom (m : Nat) (g : Array Word) : (updateDomain s d m g).1.domains = s.domains := by
    unfold updateDomain
    dsimp only
    split <;> rfl
  have hd' := (State.domain?_of_domains (hdom (dM ws) (reducedGradient s ws items)) id).trans hd
  dsimp only
  simp only [runUpdate, hd, hue, List.find?_nil]
  generalize updateDomain s d (dM ws) (reducedGradient s ws items) = x at hd' ⊢
  rw [modRun_setDomain hd' hrun (fun r => { r with phase := .ready, nonfinite := x.2 })]
  exact ⟨rfl, congrArg (·.bind (·.run)) (State.domain?_setDomain_same x.1
    (d := { d with run := some { r with phase := .ready, nonfinite := x.2 } }) (show d.id = id from State.domain?_id hd))⟩

end

/-- Settles O24: an operation starts, is refused, aborted or timed out; each outcome of a GRAD moves its step on. -/
theorem crucibleOperations : Obligations.CrucibleOperations := by
  unfold Obligations.CrucibleOperations
  intro s t words itemsAt ended counted readable
  refine ⟨?_, ?_, ?_, ?_⟩
  · intro o os hcp hcru
    obtain ⟨h1, h2, h3, h4, h5, -⟩ := endOp_ends (s := s.atTime t) hcru (outcome := 5) (by decide) 0 0#32 0
    have habort : abortCrucible s t = endOp (s.atTime t) 5 0 0#32 0 := if_pos (by rw [hcp, hcru]; rfl)
    exact ⟨_, congrArg Host.Outcome.next habort, ⟨h1, h2, h3, h4⟩, h5 (by decide)⟩
  · intro a rest hrun hq hue hce hread hitems its start free
    have hstart : exec start s = .next (startOp s (startKind (words a)) t) := by
      unfold startKind
      by_cases h2 : dOpk (words a) = 2
      · simp only [start, h2, if_true]
        rfl
      · by_cases h3 : dOpk (words a) = 3
        · simp only [start, h3, if_true]
          rfl
        · simp only [start, h2, h3, if_false]
          rfl
    have heq := startOp_clean (t := t) hrun hq hue hce hread hitems
    have hits : cleanItems s (words a) = its := rfl
    have hfree : (dChans (words a)).any (fun c => (opOn s c).isSome) = true ↔ ¬free := by
      simp [free, Option.isSome_iff_ne_none]
    refine ⟨fun hok hfr => ?_, fun hok hfr => ?_, fun c i0 i1 hbad hclear => ?_⟩
    · rw [hstart, show words a = cleanWords s a from rfl, heq]
      simp only [show opRefusal (s.atTime t) a (cleanWords s a) (cleanItems s (cleanWords s a)) = none from hok]
      exact congrArg Host.Outcome.next (if_neg (fun h => hfree.mp h hfr))
    · rw [hstart, show words a = cleanWords s a from rfl, heq]
      simp only [show opRefusal (s.atTime t) a (cleanWords s a) (cleanItems s (cleanWords s a)) = none from hok]
      exact congrArg Host.Outcome.next (if_pos (hfree.mpr hfr))
    · obtain ⟨h1, h2, h3, h4, h5⟩ := startOp_refused (t := t) (a := a) (rest := rest) (ws := words a) (c := c) (i0 := i0) (i1 := i1) hclear
      refine ⟨_, ?_, ⟨h1, h2, h3, h4⟩, h5⟩
      rw [hstart, show words a = cleanWords s a from rfl, heq]
      simp only [show opRefusal (s.atTime t) a (cleanWords s a) (cleanItems s (cleanWords s a)) = some (c, i0, i1) from hbad]
  · intro ch k o x hon hk hx
    split
    · rename_i ht
      exact congrArg Host.Outcome.next (hopTimeout_early hon hk hx ht)
    · rename_i ht
      obtain ⟨h1, h2, h3, h4, h5, h6⟩ := timeoutOp_ends (s := { s with cru := o :: s.cru.eraseIdx k }.atTime t) rfl ch.val
      exact ⟨_, congrArg Host.Outcome.next (hopTimeout_late hon hk hx ht), ⟨h1, h2, h3, h4⟩, h5, h6 ch.isLt⟩
  · intro c cs d r fit hcp hdone hk hd hrun hstep hphase with_
    have hd' : (doneTaken s c cs t fit).domain? (dDomain c.words) = some d := hd
    refine ⟨fun h => ?_, fun h => ?_, fun h hnoise hue => ?_⟩
    · have he := opDone_grad (t := t) (fit := fit) hcp hdone hk hd hrun hstep hphase (by rw [h]; decide)
      rw [h] at he
      exact congrArg Host.Outcome.next (he.trans (modRun_setDomain hd' hrun _))
    · have he := opDone_grad (t := t) (fit := fit) hcp hdone hk hd hrun hstep hphase (by omega)
      refine congrArg Host.Outcome.next (he.trans (Eq.trans ?_ (modRun_setDomain hd' hrun (fun r => { r with phase := .halted }))))
      rcases h with h | h <;> rw [h] <;> rfl
    · have he := opDone_grad (t := t) (fit := fit) hcp hdone hk hd hrun hstep hphase (by rw [h]; decide)
      rw [h, hnoise] at he
      have he' := he.trans (congrArg (fun v => runUpdate v (dDomain c.words) c.words c.items)
        (modRun_setDomain hd' hrun (fun r => { r with phase := .updating })))
      obtain ⟨h1, h2⟩ := runUpdate_clean (s := with_ { r with phase := .updating }) (id := dDomain c.words)
        (d := { d with run := some { r with phase := .updating } }) (State.domain?_setDomain_same _ (show d.id = _ from State.domain?_id hd))
        rfl hue c.words c.items
      exact ⟨_, _, congrArg Host.Outcome.next he', h2, Prod.ext h1 rfl⟩

end Sys2Proof.Machine
end

section
namespace Sys2Proof.Machine

set_option Elab.async false

/-! O25: chunks that arrive. -/

/-- The state with running operation `k`, as `o`, in focus. -/
def State.inFocus (s : State) (k : Nat) (o : CruOp) : State := { s with cru := o :: s.cru.eraseIdx k }

@[simp] theorem State.inFocus_cru (s : State) (k : Nat) (o : CruOp) : (s.inFocus k o).cru = o :: s.cru.eraseIdx k := rfl

/-- An operation in focus that only changes goes back to its place. -/
theorem withOp_changed {s : State} {k : Nat} {o o' : CruOp} {f : State → State} (hk : s.cru[k]? = some o)
    (hf : (f (s.inFocus k o)).cru = o' :: s.cru.eraseIdx k) :
    withOp s k f = { f (s.inFocus k o) with cru := s.cru.set k o' } := by
  obtain ⟨hlt, -⟩ := List.getElem?_eq_some_iff.mp hk
  have hlen : (s.cru.eraseIdx k).length + 1 = s.cru.length := by
    rw [List.length_eraseIdx_of_lt hlt]
    omega
  have hput : (s.cru.eraseIdx k).insertIdx k o' = s.cru.set k o' := insertIdx_eraseIdx_eq_set hlt o'
  have hfocus : f { s with cru := o :: s.cru.eraseIdx k } = f (s.inFocus k o) := rfl
  simp only [withOp, hk, hfocus, hf, hlen, if_true, hput]

theorem withOp_congr {s : State} {k : Nat} {o : CruOp} {f g : State → State} (hk : s.cru[k]? = some o)
    (h : f (s.inFocus k o) = g (s.inFocus k o)) : withOp s k f = withOp s k g := by
  have hf : f { s with cru := o :: s.cru.eraseIdx k } = f (s.inFocus k o) := rfl
  have hg : g { s with cru := o :: s.cru.eraseIdx k } = g (s.inFocus k o) := rfl
  simp only [withOp, hk, hf, hg, h]

variable {s : State} {ch : Fin 16} {data : List Byte} {t j : Nat} {o : CruOp} {x : CruChan}

theorem exec_chunk (s : State) (k : Fin 7) (ch : Fin 16) (data : List Byte) (t : Nat) :
    exec (chunkInstr k ch data t) s = .next (chunkOfKind s (k.val + 1) ch.val data t) := by
  match k with
  | 0 => rfl
  | 1 => rfl
  | 2 => rfl
  | 3 => rfl
  | 4 => rfl
  | 5 => rfl
  | 6 => rfl

/-- What arrives at a slice that is on, where no timer of its operation expired. -/
theorem chunkArrives_none (hon : s.getF (Hdr.ENABLE 3) (ch.val / 2) 0 ≠ 0) (hop : opOn s ch.val = none) :
    chunkArrives s ch.val data t =
      if headGood data then chunkOnClosed (s.atTime t) ch.val data
      else (s.atTime t).recordErr 3 0 (ch.val / 2) 0x0311 ch.val (field data 60 4) := by
  have hop' : opOn (s.atTime t) ch.val = none := hop
  unfold chunkArrives
  rw [if_neg (fun h => hon h.1), hop]
  simp only [Option.bind_none, hop']

theorem chunkArrives_on (hon : s.getF (Hdr.ENABLE 3) (ch.val / 2) 0 ≠ 0) (hop : opOn s ch.val = some j) (hj : s.cru[j]? = some o)
    (hexp : expiredChan s o t = none) :
    chunkArrives s ch.val data t = withOp (s.atTime t) j (fun s =>
      if headGood data then chunkOnOpen s ch.val data else chanFault s ch.val 0x0311 ch.val (field data 60 4)) := by
  have hop' : opOn (s.atTime t) ch.val = some j := hop
  unfold chunkArrives
  rw [if_neg (fun h => hon h.1), hop]
  simp only [Option.bind_some, hj, hexp, Option.map_none, hop']

theorem chunkArrives_late {e : CruChan} (hon : s.getF (Hdr.ENABLE 3) (ch.val / 2) 0 ≠ 0) (hop : opOn s ch.val = some j)
    (hj : s.cru[j]? = some o) (hexp : expiredChan s o t = some e) :
    chunkArrives s ch.val data t =
      let s' := withOp s j (fun s => timeoutOp (s.atTime t) e.ch)
      match opOn s' ch.val with
      | none => if headGood data then chunkOnClosed s' ch.val data else s'.recordErr 3 0 (ch.val / 2) 0x0311 ch.val (field data 60 4)
      | some k => withOp s' k (fun s => if headGood data then chunkOnOpen s ch.val data else chanFault s ch.val 0x0311 ch.val (field data 60 4)) := by
  unfold chunkArrives
  rw [if_neg (fun h => hon h.1), hop]
  simp only [Option.bind_some, hj, hexp, Option.map_some] <;> rfl

/-- The chunk command of the right kind, or with a bad header, is the arrival. -/
theorem chunkOfKind_arrives {k : Nat} (h : headGood data = false ∨ (headOf data).kind = k) :
    chunkOfKind s k ch.val data t = chunkArrives s ch.val data t :=
  if_neg fun ⟨hg, hk⟩ => h.elim (fun hb => by rw [hb] at hg; cases hg) hk

/-- The channel that an operation has by a number bears that number. -/
theorem CruOp.chan_ch {c : Nat} (h : o.chan c = some x) : x.ch = c := by
  have := List.find?_some h
  simpa using this

theorem chunkOnOpen_head {os : List CruOp} (hcru : s.cru = o :: os) (hx : o.chan ch.val = some x) :
    chunkOnOpen s ch.val data =
      if (headOf data).epoch ≠ dEpoch o.words then countCh s Reg.CH_EPOCH_DROPS ch.val
      else if (headOf data).domain ≠ dDomain o.words ∨ (headOf data).step ≠ dStep o.words ∨ (headOf data).opk ≠ dOpk o.words then
        countCh s Reg.CH_STALE_DROPS ch.val
      else if chunkReserved data then chanFault s ch.val 0x0312 ch.val (field data 0 4)
      else if (headOf data).kind = 7 then acceptGrant s o x data
      else acceptChunk s o x data := by
  simp only [chunkOnOpen, hcru, List.head?_cons, Option.bind_some, hx, Option.map_some]

/-- A chunk of the operation's own step that is well formed goes to its taking. -/
theorem chunkOnOpen_own {os : List CruOp} (hcru : s.cru = o :: os) (hx : o.chan ch.val = some x)
    (hsame : (headOf data).epoch = dEpoch o.words ∧ (headOf data).domain = dDomain o.words ∧ (headOf data).step = dStep o.words ∧
      (headOf data).opk = dOpk o.words) (hres : chunkReserved data = false) :
    chunkOnOpen s ch.val data = if (headOf data).kind = 7 then acceptGrant s o x data else acceptChunk s o x data := by
  obtain ⟨h1, h2, h3, h4⟩ := hsame
  rw [chunkOnOpen_head hcru hx, if_neg (not_not_intro h1), if_neg (by simp [h2, h3, h4]), if_neg (by simp [hres])]

/-- What is left of a list without its element `j` stands at another place. -/
theorem mem_eraseIdx_other {α : Type} {l : List α} {j : Nat} {a : α} (h : a ∈ l.eraseIdx j) : ∃ m, m ≠ j ∧ l[m]? = some a := by
  obtain ⟨i, hi⟩ := List.getElem?_of_mem h
  rw [List.getElem?_eraseIdx] at hi
  split at hi
  · exact ⟨i, by omega, hi⟩
  · exact ⟨i + 1, by omega, hi⟩

theorem chunkOnClosed_lists (s : State) (c : Nat) (d : List Byte) :
    (chunkOnClosed s c d).cru = s.cru ∧ (chunkOnClosed s c d).cruDone = s.cruDone := by
  unfold chunkOnClosed
  dsimp only
  split <;> exact ⟨rfl, rfl⟩

/-- Settles O25: the arrival of a chunk by what its channel's operation is, and what the header says. -/
theorem chunksArrive : Obligations.ChunksArrive := by
  unfold Obligations.ChunksArrive
  intro s k ch data t h n p on quiet holds mine same
  have hmine (j : Nat) (o : CruOp) (x : CruChan) (hm : mine j o x) : exec (chunkInstr k ch data t) s =
      .next (withOp (s.atTime t) j (fun s => chunkOnOpen s ch.val data)) := by
    obtain ⟨hon, ⟨hop, hj⟩, hx, hexp, hg, hk⟩ := hm
    rw [exec_chunk, chunkOfKind_arrives (Or.inr hk), chunkArrives_on hon hop hj hexp, hg]
    rfl
  refine ⟨?_, ?_, ?_, ?_, ?_, ?_, ?_⟩
  · intro hon hbad hquiet hop
    obtain ⟨hcode, -⟩ := recordErr_fields (s := s.atTime t) hquiet 0x0311 ch.val (field data 60 4)
    refine ⟨(s.atTime t).recordErr 3 0 (ch.val / 2) 0x0311 ch.val (field data 60 4), ?_, hcode, State.recordErr_dram .., State.recordErr_cru ..⟩
    rw [exec_chunk, chunkOfKind_arrives (Or.inl hbad), chunkArrives_none hon hop, hbad]
    rfl
  · intro j o hon hbad hquiet hold hexp
    obtain ⟨hop, hj⟩ := hold
    have hj' : (s.atTime t).cru[j]? = some o := hj
    have hf : (chanFault ((s.atTime t).inFocus j o) ch.val 0x0311 ch.val (field data 60 4)).cru =
        { o with fault := true } :: s.cru.eraseIdx j := by
      rw [chanFault, State.modOp, State.recordErr_cru]
      rfl
    have hw := withOp_changed (f := fun s => chanFault s ch.val 0x0311 ch.val (field data 60 4)) hj' hf
    obtain ⟨hcode, -⟩ := recordErr_fields (s := ((s.atTime t).inFocus j o)) (ty := 3) (pg := 0) (inst := ch.val / 2)
      hquiet 0x0311 ch.val (field data 60 4)
    refine ⟨{ chanFault ((s.atTime t).inFocus j o) ch.val 0x0311 ch.val (field data 60 4) with cru := s.cru.set j { o with fault := true } },
      ?_, hcode, State.recordErr_dram .., rfl⟩
    rw [exec_chunk, chunkOfKind_arrives (Or.inl hbad), chunkArrives_on hon hop hj hexp, hbad]
    exact congrArg Host.Outcome.next hw
  · intro hon hg hk hop hlate
    rw [exec_chunk, chunkOfKind_arrives (Or.inr hk), chunkArrives_none hon hop, hg]
    have hlate' : (s.atTime t).cruLate = [] := hlate
    refine congrArg Host.Outcome.next ((if_pos rfl).trans (if_neg ?_))
    rw [hlate']
    exact Bool.false_ne_true
  · intro j o x hm hep
    have hx : o.chan ch.val = some x := hm.2.2.1
    have hj : (s.atTime t).cru[j]? = some o := hm.2.1.2
    have hf : chunkOnOpen ((s.atTime t).inFocus j o) ch.val data =
        countCh ((s.atTime t).inFocus j o) Reg.CH_EPOCH_DROPS ch.val :=
      (chunkOnOpen_head rfl hx).trans (if_pos hep)
    have hset : s.cru.set j o = s.cru := by
      obtain ⟨hlt, rfl⟩ := List.getElem?_eq_some_iff.mp hj
      exact List.set_getElem_self hlt
    have hw := withOp_changed (f := fun s => chunkOnOpen s ch.val data) hj (congrArg State.cru hf)
    rw [hf] at hw
    rw [hmine j o x hm, hw, show (s.atTime t).cru.set j o = s.cru from hset]
    rfl
  · intro j o x hm hsame hres hk hsrc hdst hseq hbuf
    have hx : o.chan ch.val = some x := hm.2.2.1
    have hxc : x.ch = ch.val := CruOp.chan_ch hx
    have hj : (s.atTime t).cru[j]? = some o := hm.2.1.2
    have hne : ¬(headOf data).kind = 7 := by
      have hkind : (headOf data).kind = k.val + 1 := hm.2.2.2.2.2
      have : k.val ≠ 6 := fun e => hk (Fin.ext e)
      omega
    rw [hmine j o x hm]
    refine congrArg Host.Outcome.next (withOp_congr hj ?_)
    rw [chunkOnOpen_own rfl hx hsame hres, if_neg hne, acceptChunk]
    dsimp only
    rw [hxc, if_neg (by simp only [not_or, Classical.not_not]; exact ⟨hsrc, hdst⟩), if_neg (by
      simp only [not_or, Classical.not_not, Nat.not_le]
      exact ⟨hseq, hbuf⟩)]
    rfl
  · intro j o x hm hsame hres hk hsrc hdst hcrc
    have hx : o.chan ch.val = some x := hm.2.2.1
    have hxc : x.ch = ch.val := CruOp.chan_ch hx
    have hj : (s.atTime t).cru[j]? = some o := hm.2.1.2
    have hkind : h.kind = k.val + 1 := hm.2.2.2.2.2
    rw [hmine j o x hm]
    refine congrArg Host.Outcome.next (withOp_congr hj ?_)
    have hcred (v : State) : chF (countCh v Reg.CH_CHUNKS_RX ch.val) Reg.CH_CREDITS ch.val = chF v Reg.CH_CREDITS ch.val := by
      refine State.getF_countF_ne v 1 ?_
      simp [Fld.key, Reg.CH_CHUNKS_RX, Reg.CH_CREDITS]
      omega
    rw [chunkOnOpen_own rfl hx hsame hres, if_pos (by rw [hk] at hkind; exact hkind), acceptGrant]
    dsimp only
    rw [hxc, if_neg (by simp only [not_or, Classical.not_not]; exact ⟨hsrc, hdst⟩), if_neg (not_not_intro hcrc), hcred]
    rfl
  · intro j o e hon hold hexp hg hk hothers
    obtain ⟨hop, hj⟩ := hold
    obtain ⟨h1, -, -, ⟨x, h4, hout⟩, -⟩ := timeoutOp_ends (s := (s.inFocus j o).atTime t) rfl e.ch
    have hw : withOp s j (fun s => timeoutOp (s.atTime t) e.ch) = timeoutOp ((s.inFocus j o).atTime t) e.ch := withOp_ended hj h1
    have hnone : opOn (timeoutOp ((s.inFocus j o).atTime t) e.ch) ch.val = none := by
      rw [opOn, h1, List.findIdx?_eq_none_iff]
      intro o' ho'
      obtain ⟨m, hm, hmo⟩ := mem_eraseIdx_other ho'
      rw [hothers m o' hm hmo]
      rfl
    have hexec : exec (chunkInstr k ch data t) s = .next (chunkOnClosed (timeoutOp ((s.inFocus j o).atTime t) e.ch) ch.val data) := by
      rw [exec_chunk, chunkOfKind_arrives (Or.inr hk), chunkArrives_late hon hop hj hexp]
      dsimp only
      rw [hw]
      simp only [hnone, hg, if_true]
    obtain ⟨hc, hd⟩ := chunkOnClosed_lists (timeoutOp ((s.inFocus j o).atTime t) e.ch) ch.val data
    exact ⟨_, x, hexec, hc.trans h1, hd.trans h4, hout⟩

end Sys2Proof.Machine
end

section
namespace Sys2Proof.Machine

set_option Elab.async false

/-! O26: step reports, group tables and FAIL records. -/

/-! Changes of domains alone. -/

/-- The one field that changes is the list of domains. -/
def OnlyDomains (s u : State) : Prop := u = { s with domains := u.domains }

theorem OnlyDomains.refl (s : State) : OnlyDomains s s := rfl

theorem OnlyDomains.trans {s u v : State} (h : OnlyDomains s u) (g : OnlyDomains u v) : OnlyDomains s v := by
  unfold OnlyDomains at *
  rw [g, h]

theorem State.modDomain_only (s : State) (id : Nat) (f : Domain → Domain) : OnlyDomains s (s.modDomain id f) := by
  unfold State.modDomain
  split <;> rfl

theorem State.setDomain_only (s : State) (d : Domain) : OnlyDomains s (s.setDomain d) := rfl

section
variable {s : State} {id : Nat} {d : Domain} {g : Group}

theorem State.domain?_modDomain (hd : s.domain? id = some d) (f : Domain → Domain) (hf : (f d).id = d.id) :
    (s.modDomain id f).domain? id = some (f d) := by
  rw [State.modDomain_of_some hd]
  exact State.domain?_setDomain_same s (hf.trans (State.domain?_id hd))

theorem State.domain?_modGroup (hd : s.domain? id = some d) (hg : d.group = some g) (f : Group → Group) :
    (s.modGroup id f).domain? id = some { d with group := some (f g) } := by
  have := State.domain?_modDomain hd (fun d => { d with group := d.group.map f }) rfl
  rw [hg] at this
  exact this

theorem State.group?_of_domain (hd : s.domain? id = some d) : s.group? id = d.group := by
  rw [State.group?, hd]
  rfl

theorem State.group?_domain (hg : s.group? id = some g) : ∃ d, s.domain? id = some d ∧ d.group = some g :=
  Option.bind_eq_some_iff.mp hg

theorem State.group?_modGroup (hg : s.group? id = some g) (f : Group → Group) : (s.modGroup id f).group? id = some (f g) := by
  obtain ⟨d, hd, hdg⟩ := State.group?_domain hg
  rw [State.group?_of_domain (State.domain?_modGroup hd hdg f)]

/-! Step reports. -/

/-- The reports that a coordinator holds once it has a new one. -/
def Group.withReport (g : Group) (b : List Byte) : Group :=
  { g with reports := g.reports.filter (fun r => r.1 != repPos b && repStep r.2 == repStep b) ++ [(repPos b, b)] }

/-- No table is formed by a member, or while a report is missing. -/
theorem formTable_waits (hg : s.group? id = some g)
    (h : g.isCoord = false ∨ ∃ p m, g.memberAt p = some m ∧ ∀ r ∈ g.reports, r.1 ≠ p) : formTable s id = s := by
  obtain ⟨d, hd, hdg⟩ := State.group?_domain hg
  unfold formTable
  simp only [hd, hdg, Option.bind_some, Option.map_some]
  refine if_pos ?_
  rcases h with h | ⟨p, m, hm, hr⟩
  · exact Or.inl (by simp [h])
  · refine Or.inr (Or.inr ?_)
    have hp : p < g.size := by
      refine Nat.lt_of_not_ge fun hp => ?_
      rw [Group.memberAt, List.getElem?_eq_none hp] at hm
      cases hm
    rw [List.any_eq_true]
    refine ⟨p, List.mem_filter.mpr ⟨List.mem_range.mpr hp, by rw [hm]; rfl⟩, ?_⟩
    simpa using fun a b hab => hr (a, b) hab

theorem reportArrives_bad {b : List Byte} {fit : List Nat} {t : Nat} (h : reportOk b = false) : reportArrives s b fit t = s.atTime t :=
  if_pos (Or.inr (by rw [h]; rfl))

theorem reportArrives_good {b : List Byte} {fit : List Nat} {t : Nat} (hcp : cpUp s 3 = true) (h : reportOk b = true) :
    reportArrives s b fit t =
      formTable ((noteFit (s.atTime t) (repDomain b) fit).modGroup (repDomain b) (fun g => g.withReport b)) (repDomain b) := by
  have hcp' : cpUp (s.atTime t) 3 = true := hcp
  exact if_neg (by simp [hcp', h])

/-! Tables and FAIL records. -/

variable {b : List Byte} {t : Nat} {fail : Bool}

theorem tableArrives_bad {m : Nat} (hcp : cpUp s 3 = true) (hbad : tableOk b = false) (hg : s.group? (bits (field b 4 4) 18 0) = some g)
    (hm : g.memberAt g.coord = some m) :
    tableArrives s fail b t = (s.atTime t).send (.control m msgTableAsk (toLe 4 (bits (field b 4 4) 18 0))) := by
  have hcp' : cpUp (s.atTime t) 3 = true := hcp
  have hg' : (s.atTime t).group? (bits (field b 4 4) 18 0) = some g := hg
  unfold tableArrives
  simp only [hcp', hbad, hg', sendPos, hm]
  rfl

/-- A good table or record of the own stage is adopted, then acted on. -/
theorem tableArrives_own (hcp : cpUp s 3 = true) (hok : tableOk b = true) (htyp : ((headT b).typ == 3) = fail)
    (hown : ∀ d, s.domain? (headT b).domain = some d → ofOtherStage s d b = false) :
    tableArrives s fail b t =
      if fail then failReceived (adoptGroup (s.atTime t) b) b else tableReceived (adoptGroup (s.atTime t) b) b := by
  have hcp' : cpUp (s.atTime t) 3 = true := hcp
  have hstage : ((s.atTime t).domain? (bits (field b 4 4) 18 0)).any (fun d => ofOtherStage (s.atTime t) d b) = false := by
    change (s.domain? (headT b).domain).any (fun d => ofOtherStage s d b) = false
    cases hd : s.domain? (headT b).domain with
    | none => rfl
    | some d => exact hown d hd
  unfold tableArrives
  simp only [hcp', hok, htyp, hstage, Bool.not_true, Bool.false_eq_true, bne_self_eq_false, or_self, if_false]

/-- A table of a group that the device serves brings it no plan. -/
theorem adoptGroup_served (hd : s.domain? (headT b).domain = some d) (hg : d.group = some g)
    (h : (headT b).typ = 3 ∨ g.state ≠ .joined) :
    OnlyDomains s (adoptGroup s b) ∧ (adoptGroup s b).domain? (headT b).domain = some d := by
  have hsame : adoptGroup s b = s.setDomain d := by
    unfold adoptGroup
    rw [State.modDomain_of_some hd]
    simp only [hg]
    rw [if_neg]
    rcases h with h | h <;> simp [h]
  rw [hsame]
  exact ⟨rfl, State.domain?_setDomain_same s (State.domain?_id hd)⟩

/-- Actions noted; none of them answers a CLONE_DONE. -/
theorem noteActions_takes (hd : s.domain? id = some d) (hg : d.group = some g) (due : Nat) (fail : Bool) {as_ : List GroupAction}
    (hjoin : ∀ a ∈ as_, a.action = 2 → a.cause ≠ 0) :
    OnlyDomains s (noteActions s id due fail as_) ∧ (noteActions s id due fail as_).domain? id = some { d with group := some { g with
      actions := g.actions ++ as_.map (fun a => (due, a))
      failed := if fail then g.failed ++ (as_.filter (·.action == 1)).map (·.position) else g.failed } } := by
  have hall : as_.filter (fun a => !(a.action == 2 && a.cause == 0 &&
      (g.memberAt a.position == some a.member || g.actions.any (·.2 == a)))) = as_ := by
    refine List.filter_eq_self.mpr fun a ha => ?_
    by_cases h2 : a.action = 2
    · simp [h2, hjoin a ha h2]
    · simp [h2]
  refine ⟨State.modDomain_only s id _, ?_⟩
  refine (State.domain?_modGroup hd hg _).trans ?_
  rw [hall]

/-- No clone begins for actions that name no join of this device. -/
theorem foldl_beginClone_none (as_ : List GroupAction) (h : ∀ a ∈ as_, a.action = 2 → a.member ≠ ownMember s) :
    as_.foldl (fun s a => beginClone s id a) s = s := by
  induction as_ with
  | nil => rfl
  | cons a as_ ih =>
    have ha : beginClone s id a = s := by
      unfold beginClone
      split
      · rfl
      split
      · rfl
      refine if_pos ?_
      by_cases h2 : a.action = 2
      · exact Or.inr (Or.inr (Or.inl (h a List.mem_cons_self h2)))
      · exact Or.inl h2
    rw [List.foldl_cons, ha]
    exact ih fun x hx => h x (List.mem_cons_of_mem _ hx)

end

/-- The reference of a repair in a table: the position of the first entry of the majority. -/
def majorPosition (g : Group) (b : List Byte) : Nat :=
  let held := (entriesT b).zipIdx.filter (fun e => (g.memberAt e.2).isSome)
  ((held.find? (fun e => some e.1.key == majorityKey (held.map (·.1)))).map (·.2)).getD 0

/-- A repair of a table names its reference. -/
def repairFrom (g : Group) (b : List Byte) (a : GroupAction) : GroupAction :=
  if a.action = 3 then { a with arg := majorPosition g b } else a

theorem repairFrom_same (g : Group) (b : List Byte) (a : GroupAction) :
    (repairFrom g b a).action = a.action ∧ (repairFrom g b a).cause = a.cause := by
  unfold repairFrom
  split <;> exact ⟨rfl, rfl⟩

/-- What a new table says of its group. -/
def Group.withTable (g : Group) (b : List Byte) : Group :=
  { g with
    table := b, tableStep := some (headT b).step, median := (headT b).median, reports := [], compareNext := false
    lateRuns := (entriesT b).zipIdx.map (fun e => (e.2, e.1.run))
    agreedStep := if (headT b).agreed = 0xFFFFFFFFFFFFFFFF then none else some (headT b).agreed
    stopDue := g.stopDue || (headT b).split, extra := if g.isCoord then [] else g.extra }

section
variable {s : State} {d : Domain} {g : Group} {b : List Byte}

/-- A new table of a step that compares nothing. -/
theorem tableReceived_takes (hd : s.domain? (headT b).domain = some d) (hg : d.group = some g) (hcmp : (headT b).compare = false)
    (hjoin : ∀ a ∈ actionsT b, a.action = 2 → a.cause ≠ 0 ∧ a.member ≠ ownMember s) (hnew : ∀ n, g.tableStep = some n → n < (headT b).step) :
    OnlyDomains s (tableReceived s b) ∧ (tableReceived s b).domain? (headT b).domain = some { d with group := some { g.withTable b with
      actions := g.actions ++ (actionsT b).map (fun a => ((headT b).step + 2, repairFrom g b a)) } } := by
  have hjoins : (actionsT b).filter (fun a => a.action == 2 && a.cause == 0) = [] := by
    refine List.filter_eq_nil_iff.mpr fun a ha => ?_
    by_cases h2 : a.action = 2
    · simp [h2, (hjoin a ha h2).1]
    · simp [h2]
  have hothers : (actionsT b).filter (fun a => !(a.action == 2 && a.cause == 0)) = actionsT b := by
    refine List.filter_eq_self.mpr fun a ha => ?_
    by_cases h2 : a.action = 2
    · simp [h2, (hjoin a ha h2).1]
    · simp [h2]
  have hlate : g.tableStep.any (fun n => decide ((headT b).step ≤ n)) = false := by
    cases hn : g.tableStep with
    | none => rfl
    | some n => simpa using hnew n hn
  obtain ⟨o1, h1⟩ := noteActions_takes hd hg (if g.vacant.isEmpty then (headT b).step + 2 else 0) false (as_ := []) (by simp)
  unfold tableReceived
  simp only [hd, hg, hjoins, hothers, hlate, hcmp, Bool.false_eq_true, if_false, Bool.false_and]
  generalize noteActions s (headT b).domain (if g.vacant.isEmpty = true then (headT b).step + 2 else 0) false [] = s1 at o1 h1 ⊢
  have h2 := State.domain?_modGroup h1 rfl (fun g => g.withTable b)
  have o2 : OnlyDomains s1 (s1.modGroup (headT b).domain (fun g => g.withTable b)) := State.modDomain_only s1 _ _
  change OnlyDomains s ((actionsT b).foldl _ (noteActions (s1.modGroup (headT b).domain (fun g => g.withTable b)) _ _ _ _)) ∧
    ((actionsT b).foldl _ (noteActions (s1.modGroup (headT b).domain (fun g => g.withTable b)) _ _ _ _)).domain? _ = _
  generalize s1.modGroup (headT b).domain (fun g => g.withTable b) = s2 at o2 h2 ⊢
  obtain ⟨o3, h3⟩ := noteActions_takes h2 rfl ((headT b).step + 2) false
    (as_ := (actionsT b).map (repairFrom g b)) (by
      intro a ha h2
      obtain ⟨x, hx, rfl⟩ := List.mem_map.mp ha
      obtain ⟨hact, hcause⟩ := repairFrom_same g b x
      rw [hcause]
      exact (hjoin x hx (hact.symm.trans h2)).1)
  change OnlyDomains s ((actionsT b).foldl _ (noteActions s2 (headT b).domain ((headT b).step + 2) false
      ((actionsT b).map (repairFrom g b)))) ∧
    ((actionsT b).foldl _ (noteActions s2 (headT b).domain ((headT b).step + 2) false
      ((actionsT b).map (repairFrom g b)))).domain? _ = _
  generalize noteActions s2 (headT b).domain ((headT b).step + 2) false
    ((actionsT b).map (repairFrom g b)) = s3 at o3 h3 ⊢
  have hown : ownMember s3 = ownMember s := by
    have := (o1.trans o2).trans o3
    rw [this]
    rfl
  rw [foldl_beginClone_none (s := s3) (actionsT b) (fun a ha h2 => by rw [hown]; exact (hjoin a ha h2).2)]
  refine ⟨(o1.trans o2).trans o3, h3.trans ?_⟩
  simp only [Group.withTable, List.append_nil, List.map_nil, List.map_map, Bool.false_eq_true, if_false]
  rfl

/-! The step that a FAIL record abandons. -/

variable {r : StepRun} {id n : Nat}

/-- The operations of the crucible that a FAIL record drops from the queue. -/
def keptOps (s : State) (id n : Nat) : List Nat :=
  s.cruQ.filter (fun x => !(dDomain (wordsAt (Memory.readN s.dram x 128) 16) == id && decide (n ≤ dStep (wordsAt (Memory.readN s.dram x 128) 16))))

/-- The commits that a FAIL record leaves in the queue. -/
def keptCommits (s : State) (id n : Nat) : List CommitReq :=
  s.commitQ.filter (fun q => !(q.domain == id && q.kind == 0 && decide (n ≤ q.step)))

/-- The queues once what a FAIL record abandons has left them. -/
def dropQueued (s : State) (id n : Nat) : State :=
  { s with
    cruQ := keptOps s id n, commitQ := keptCommits s id n
    commitWait := if committing { s with cruQ := keptOps s id n } id then false else s.commitWait }

theorem dropOps_quiet (hcru : ∀ o ∈ s.cru, dDomain o.words ≠ id) (k : Nat) : dropOps (k + 1) s id n = { s with cruQ := keptOps s id n } := by
  have hnone : s.cru.findIdx? (fun o => dDomain o.words == id && decide (n ≤ dStep o.words)) = none :=
    List.findIdx?_eq_none_iff.mpr fun o ho => by simp [hcru o ho]
  simp only [dropOps, hnone]
  rfl

/-- The abort of a step whose queue runs no unit, with no operation of the domain in the crucible. -/
theorem abortStep_quiet (hd : s.domain? id = some d) (hrun : d.run = some r) (hstep : n ≤ r.step)
    (hunit : ∀ q, s.queue? d.queue = some q → q.unit = none) (hcru : ∀ o ∈ s.cru, dDomain o.words ≠ id) :
    let u := abortStep s id n
    u.cru = s.cru ∧ u.cruQ = keptOps s id n ∧ u.commitQ = keptCommits s id n ∧ u.dram = s.dram ∧ u.regs = s.regs ∧
      ∃ gathered fresh, u.domain? id = some { d with run := none, gathered := gathered, freshSides := fresh } := by
  have htake := takeSides_of_run hd hrun
  have hrun' : (s.domain? id).bind (·.run) = some r := by rw [hd]; exact hrun
  generalize hx : { d with
    gathered := s.gathered d
    freshSides := (d.tiles s).flatMap (fun l => match s.physical l with
      | some i => (s.tile i).statFresh.map (fun g => (l, g))
      | none => []) } = x at htake
  have hxid : x.id = id := by rw [← hx]; exact (show d.id = id from State.domain?_id hd)
  have hxd : (s.setDomain x).domain? id = some x := State.domain?_setDomain_same s hxid
  have hxq : (s.setDomain x).queue? x.queue = s.queue? d.queue := by rw [← hx]; rfl
  have hvd : (dropQueued (s.setDomain x) id n).domain? id = some x := hxd
  have heq : abortStep s id n = (dropQueued (s.setDomain x) id n).modDomain id (fun d => { d with run := none }) := by
    unfold abortStep
    simp only [hrun', htake, hxd, hxq, Nat.not_lt.mpr hstep, if_false]
    cases hq : s.queue? d.queue with
    | none =>
      dsimp only
      rw [dropOps_quiet (s := s.setDomain x) hcru]
      rfl
    | some q =>
      simp only [hunit q hq]
      rw [dropOps_quiet (s := s.setDomain x) hcru]
      rfl
  have ho : OnlyDomains (dropQueued (s.setDomain x) id n) (abortStep s id n) := by
    rw [heq]
    exact State.modDomain_only _ _ _
  have hu : (abortStep s id n).domain? id = some { x with run := none } := by
    rw [heq]
    exact State.domain?_modDomain hvd _ rfl
  generalize abortStep s id n = u at ho hu ⊢
  dsimp only
  refine ⟨?_, ?_, ?_, ?_, ?_, x.gathered, x.freshSides, hu.trans ?_⟩
  · rw [ho]; rfl
  · rw [ho]; rfl
  · rw [ho]; rfl
  · rw [ho]; rfl
  · rw [ho]; rfl
  · rw [← hx]

/-- The statistics gathered are discarded and the cullets zeroed of a domain that runs no step. -/
theorem dropStepState_idle (hd : s.domain? id = some d) (hrun : d.run = none) :
    let u := dropStepState s id
    u.cru = s.cru ∧ u.cruQ = s.cruQ ∧ u.commitQ = s.commitQ ∧ u.regs = s.regs ∧
      u.dram = d.cullets.foldl (fun m c => Memory.clear m c.1 (c.1 + 2 * c.2)) s.dram ∧
      ∃ fresh, u.domain? id = some { d with gathered := false, freshSides := fresh, rootsDue := [], zeroCul := d.cullets.isEmpty } := by
  have hid : d.id = id := State.domain?_id hd
  subst hid
  have hzd : (zeroCullets s d).domain? d.id = some { d with zeroCul := d.cullets.isEmpty } :=
    State.domain?_modDomain (s := { s with dram := d.cullets.foldl (fun (m : Memory) (c : Nat × Nat) => Memory.clear m c.1 (c.1 + 2 * c.2)) s.dram })
      hd (fun d => { d with zeroCul := d.cullets.isEmpty }) rfl
  have hzo : OnlyDomains { s with dram := d.cullets.foldl (fun (m : Memory) (c : Nat × Nat) => Memory.clear m c.1 (c.1 + 2 * c.2)) s.dram }
    (zeroCullets s d) := State.modDomain_only _ _ _
  have hg : ∃ fresh, dropGathered (zeroCullets s d) d.id =
      (zeroCullets s d).modDomain d.id (fun d => { d with gathered := false, freshSides := fresh }) := by
    unfold dropGathered
    simp only [hzd, hrun, Option.isSome_none, Bool.false_eq_true, if_false]
    exact ⟨_, rfl⟩
  obtain ⟨fresh, hg⟩ := hg
  have hgd := State.domain?_modDomain hzd (fun d => { d with gathered := false, freshSides := fresh }) rfl
  have hgo := State.modDomain_only (zeroCullets s d) d.id (fun d => { d with gathered := false, freshSides := fresh })
  rw [← hg] at hgd hgo
  have heq : dropStepState s d.id = (dropGathered (zeroCullets s d) d.id).modDomain d.id (fun d => { d with rootsDue := [] }) := by
    unfold dropStepState
    simp only [hd]
  have hud := State.domain?_modDomain hgd (fun d => { d with rootsDue := [] }) rfl
  have huo := State.modDomain_only (dropGathered (zeroCullets s d) d.id) d.id (fun d => { d with rootsDue := [] })
  rw [← heq] at hud huo
  have ho := (hzo.trans hgo).trans huo
  generalize dropStepState s d.id = u at ho hud ⊢
  dsimp only
  refine ⟨?_, ?_, ?_, ?_, ?_, fresh, hud⟩
  all_goals
    rw [ho]

/-- A FAIL record of a step that the domain runs and has not committed. -/
theorem failReceived_takes (hd : s.domain? (headT b).domain = some d) (hg : d.group = some g)
    (hjoin : ∀ a ∈ actionsT b, a.action = 2 → a.cause ≠ 0 ∧ a.member ≠ ownMember s) (hrun : d.run = some r)
    (hstep : (headT b).step ≤ r.step) (hlast : d.lastStep ≠ some (headT b).step)
    (hunit : ∀ q, s.queue? d.queue = some q → q.unit = none) (hcru : ∀ o ∈ s.cru, dDomain o.words ≠ (headT b).domain) :
    let u := failReceived s b
    u.cru = s.cru ∧ u.commitQ = keptCommits s (headT b).domain (headT b).step ∧ u.cruQ = keptOps s (headT b).domain (headT b).step ∧
      u.dram = d.cullets.foldl (fun m c => Memory.clear m c.1 (c.1 + 2 * c.2)) s.dram ∧
      ∃ fs, u.domain? (headT b).domain = some { d with
        run := none, gathered := false, freshSides := fs, rootsDue := [], zeroCul := d.cullets.isEmpty, group := some { g with
          actions := g.actions ++ (actionsT b).map (fun a => ((headT b).step, a))
          failed := g.failed ++ ((actionsT b).filter (·.action == 1)).map (·.position) } } := by
  obtain ⟨a1, a2, a3, a4, a5, gathered, fresh, a6⟩ := abortStep_quiet hd hrun hstep hunit hcru
  dsimp only at a1 a2 a3 a4 a5 a6 ⊢
  have heq : failReceived s b = (actionsT b).foldl (fun s a => beginClone s (headT b).domain a)
      (noteActions (dropStepState (abortStep s (headT b).domain (headT b).step) (headT b).domain) (headT b).domain (headT b).step true
        (actionsT b)) := by
    unfold failReceived
    simp only [hd, hlast, if_false]
    cases journalBase (abortStep s (headT b).domain (headT b).step) d <;> rfl
  rw [heq]
  generalize abortStep s (headT b).domain (headT b).step = s1 at a1 a2 a3 a4 a5 a6 ⊢
  obtain ⟨b1, b2, b3, b4, b5, fs, b6⟩ := dropStepState_idle a6 rfl
  generalize dropStepState s1 (headT b).domain = s2 at b1 b2 b3 b4 b5 b6 ⊢
  obtain ⟨o3, h3⟩ := noteActions_takes b6 hg (headT b).step true (as_ := actionsT b) (fun a ha h2 => (hjoin a ha h2).1)
  generalize noteActions s2 (headT b).domain (headT b).step true (actionsT b) = s3 at o3 h3 ⊢
  have hown : ownMember s3 = ownMember s := getF_of_regs (by rw [o3]; exact b4.trans a5) _ _ _
  rw [foldl_beginClone_none (s := s3) (actionsT b) (fun a ha h2 => by rw [hown]; exact (hjoin a ha h2).2)]
  refine ⟨?_, ?_, ?_, ?_, fs, h3⟩
  · rw [o3]; exact b1.trans a1
  · rw [o3]; exact b3.trans a3
  · rw [o3]; exact b2.trans a2
  · rw [o3]; exact b5.trans (by rw [a4])

end

/-- Settles O26: reports, tables and FAIL records change what the group's record holds, and a bad one is asked for again. -/
theorem groupReportsAndTables : Obligations.GroupReportsAndTables := by
  unfold Obligations.GroupReportsAndTables
  intro s b fit t hcp noOwnJoin ownStage
  refine ⟨?_, ?_, ?_, ?_, ?_, ?_⟩
  · intro hbad
    exact congrArg Host.Outcome.next (reportArrives_bad hbad)
  · intro g hok hg hwait
    have hg0 : (noteFit (s.atTime t) (repDomain b) fit).group? (repDomain b) = some g := hg
    have hg1 := State.group?_modGroup hg0 (fun g => g.withReport b)
    have ho : OnlyDomains _ ((noteFit (s.atTime t) (repDomain b) fit).modGroup (repDomain b) (fun g => g.withReport b)) :=
      State.modDomain_only _ _ _
    have hform := formTable_waits hg1 (by
      rcases hwait with h | ⟨p, m, hm, hne, hr⟩
      · exact Or.inl h
      · refine Or.inr ⟨p, m, hm, fun x hx => ?_⟩
        rcases List.mem_append.mp hx with hx | hx
        · exact hr x (List.mem_filter.mp hx).1
        · rw [List.mem_singleton.mp hx]
          exact hne.symm)
    refine ⟨_, congrArg Host.Outcome.next ((reportArrives_good hcp hok).trans hform), ?_, ?_, hg1⟩
    · rw [ho]; rfl
    · rw [ho]; rfl
  · intro g hok htyp hstage hg hcmp hjoin hnew hjoined held major
    obtain ⟨d, hd, hdg⟩ := State.group?_domain hg
    have harr := tableArrives_own (s := s) (t := t) (fail := false) hcp hok (by rw [htyp]; rfl) hstage
    obtain ⟨o1, h1⟩ := adoptGroup_served (s := s.atTime t) hd hdg (Or.inr hjoined)
    have hown : ownMember (adoptGroup (s.atTime t) b) = ownMember s := getF_of_regs (by rw [o1]; rfl) _ _ _
    obtain ⟨o2, h2⟩ := tableReceived_takes h1 hdg hcmp (by rw [hown]; exact hjoin) hnew
    have ho := o1.trans o2
    refine ⟨_, congrArg Host.Outcome.next harr, ?_, ?_, (State.group?_of_domain h2).trans rfl⟩
    · exact (congrArg State.dram ho).trans rfl
    · exact (congrArg State.sent ho).trans rfl
  · intro g m hbad hg hm
    exact ⟨congrArg Host.Outcome.next (tableArrives_bad hcp hbad hg hm), congrArg Host.Outcome.next (tableArrives_bad hcp hbad hg hm)⟩
  · intro d g r hok htyp hstage hd hdg hjoin hrun hstep hlast hunit hcru dropped
    have harr := tableArrives_own (s := s) (t := t) (fail := true) hcp hok (by rw [htyp]; rfl) hstage
    obtain ⟨o1, h1⟩ := adoptGroup_served (s := s.atTime t) hd hdg (Or.inl htyp)
    have hcommits : keptCommits s (headT b).domain (headT b).step = s.commitQ.filter (fun q => !(q.kind == 0 && dropped q.domain q.step)) :=
      List.filter_congr fun q _ => by
        simp only [dropped]
        cases q.domain == (headT b).domain <;> cases q.kind == 0 <;> rfl
    have hfail : let u := failReceived (adoptGroup (s.atTime t) b) b
        u.cru = s.cru ∧ u.commitQ = keptCommits s (headT b).domain (headT b).step ∧ u.cruQ = keptOps s (headT b).domain (headT b).step ∧
          u.dram = d.cullets.foldl (fun m c => Memory.clear m c.1 (c.1 + 2 * c.2)) s.dram ∧
          ∃ fs, u.domain? (headT b).domain = some { d with
            run := none, gathered := false, freshSides := fs, rootsDue := [], zeroCul := d.cullets.isEmpty, group := some { g with
              actions := g.actions ++ (actionsT b).map (fun a => ((headT b).step, a))
              failed := g.failed ++ ((actionsT b).filter (·.action == 1)).map (·.position) } } := by
      generalize adoptGroup (s.atTime t) b = v at o1 h1
      have hf := failReceived_takes h1 hdg (by rw [show ownMember v = ownMember s from getF_of_regs (by rw [o1]; rfl) _ _ _]; exact hjoin) hrun
        hstep hlast (by rw [o1]; exact hunit) (by rw [o1]; exact hcru)
      have hk : keptOps v (headT b).domain (headT b).step = keptOps s (headT b).domain (headT b).step := by rw [o1]; rfl
      have hc : keptCommits v (headT b).domain (headT b).step = keptCommits s (headT b).domain (headT b).step := by rw [o1]; rfl
      have hcr : v.cru = s.cru := by rw [o1]; rfl
      have hdr : v.dram = s.dram := by rw [o1]; rfl
      rw [hk, hc, hcr, hdr] at hf
      exact hf
    obtain ⟨f1, f2, f3, f4, fs, f5⟩ := hfail
    exact ⟨_, fs, congrArg Host.Outcome.next harr, f1, f2.trans hcommits, f3, f4, f5⟩
  · intro id p g m hg ht hm
    have hcp' : cpUp (s.atTime t) 3 = true := hcp
    have hg' : (s.atTime t).group? id.toNat = some g := hg
    have hask : tableAsked s id.toNat p.val t = (s.atTime t).send (.control m msgTable g.table) := by
      unfold tableAsked
      simp only [hg']
      rw [if_neg (by simp [hcp', ht]), sendPos, hm]
      rfl
    exact congrArg Host.Outcome.next hask

end Sys2Proof.Machine
end

section
namespace Sys2Proof.Machine

set_option Elab.async false

/-! O27: heartbeats and failures of members. -/

/-! What a report to the host leaves as it was. -/

/-- Only what tells the host, and the queues, changed; of the registers at most the count of lost events. -/
structure Reported (s u : State) : Prop where
  same : ∃ regs power mbx fw sent queues, u = { s with regs := regs, power := power, mbx := mbx, fw := fw, sent := sent, queues := queues }
  regs : ∀ (f : Fld) (inst i : Nat), Reg.MBX_EVT_LOST.key 0 0 ≠ f.key inst i → u.getF f inst i = s.getF f inst i

namespace Reported

variable {s u v : State}

theorem refl (s : State) : Reported s s := ⟨⟨_, _, _, _, _, _, rfl⟩, fun _ _ _ _ => rfl⟩

theorem trans (h : Reported s u) (g : Reported u v) : Reported s v := by
  obtain ⟨⟨r, p, m, w, x, q, hu⟩, hr⟩ := h
  obtain ⟨⟨r', p', m', w', x', q', hv⟩, hr'⟩ := g
  exact ⟨⟨r', p', m', w', x', q', by rw [hv, hu]⟩, fun f inst i hf => (hr' f inst i hf).trans (hr f inst i hf)⟩

theorem domains (h : Reported s u) : u.domains = s.domains := by
  obtain ⟨⟨_, _, _, _, _, _, rfl⟩, -⟩ := h
  rfl
theorem dram (h : Reported s u) : u.dram = s.dram := by
  obtain ⟨⟨_, _, _, _, _, _, rfl⟩, -⟩ := h
  rfl
theorem tiles (h : Reported s u) : u.tiles = s.tiles := by
  obtain ⟨⟨_, _, _, _, _, _, rfl⟩, -⟩ := h
  rfl
theorem now (h : Reported s u) : u.now = s.now := by
  obtain ⟨⟨_, _, _, _, _, _, rfl⟩, -⟩ := h
  rfl

/-- A step that changes none of the registers. -/
theorem of_state (s : State) (power : Power) (mbx : Mailbox) (fw : Firmware) (sent : List Sent) (queues : List Queue) :
    Reported s { s with power := power, mbx := mbx, fw := fw, sent := sent, queues := queues } :=
  ⟨⟨_, _, _, _, _, _, rfl⟩, fun _ _ _ _ => rfl⟩

theorem wake (s : State) : Reported s (wake s) := by
  unfold Machine.wake
  split
  · exact refl s
  split
  · exact refl s
  · exact of_state s _ _ _ _ _

theorem send (s : State) (x : Sent) : Reported s (s.send x) := of_state s _ _ _ _ _

theorem sendHost (s : State) (a : Nat) (d : List Byte) : Reported s (s.sendHost a d) := by
  unfold State.sendHost
  split
  · exact refl s
  · exact send s _

theorem placeEvent (s : State) (e : List Byte) : Reported s (placeEvent s e) :=
  ((wake s).trans (of_state _ _ _ _ _ _)).trans (send _ _)

theorem raiseEvent (s : State) (op : Nat) (payload : List Byte) : Reported s (raiseEvent s op payload) := by
  unfold Machine.raiseEvent
  dsimp only
  split
  · exact (of_state s _ _ _ _ _).trans (placeEvent _ _)
  split
  · exact of_state s _ _ _ _ _
  · exact ⟨⟨_, _, _, _, _, _, rfl⟩, fun f inst i hf => State.getF_countF_ne _ 1 hf⟩

theorem integrity (s : State) (event cause domain step position member peer leaf sec : Nat) :
    Reported s (integrity s event cause domain step position member peer leaf sec) :=
  (of_state s _ _ _ _ _).trans (raiseEvent _ _ _)

theorem evtGroup (s : State) (d : Nat) (g : GroupState) (epoch : Nat) : Reported s (evtGroup s d g epoch) := raiseEvent _ _ _

theorem setQueue (s : State) (q : Queue) : Reported s (s.setQueue q) := by
  unfold State.setQueue
  split <;> exact of_state s _ _ _ _ _

theorem writeCpl (s : State) (q : Queue) (c : List Byte) : Reported s (writeCpl s q c) := by
  unfold Machine.writeCpl
  split
  · exact setQueue s _
  · exact ((setQueue s _).trans (sendHost _ _ _)).trans (send _ _)

theorem complete (s : State) (qid subId status : Nat) (last : Bool) (err step : Nat) :
    Reported s (complete s qid subId status last err step) := by
  unfold Machine.complete
  split
  · exact refl s
  · exact (setQueue s _).trans (writeCpl _ _ _)

end Reported

/-! A group that stops. -/

variable {s : State} {id : Nat} {g : Group} {t : Nat} {fit : List Nat}

theorem State.group?_of_domains {s u : State} (h : u.domains = s.domains) (id : Nat) : u.group? id = s.group? id := by
  rw [State.group?, State.group?, State.domain?_of_domains h]

/-- A group that stops: what follows is told to the host. -/
theorem stopGroup_reported (hg : s.group? id = some g) :
    Reported (s.modGroup id (fun g => { g with state := .stopped, stopDue := false })) (stopGroup s id) := by
  obtain ⟨d, hd, hdg⟩ := State.group?_domain hg
  unfold stopGroup
  simp only [hd, hdg]
  generalize s.modGroup id (fun g => { g with state := .stopped, stopDue := false }) = v
  have h1 : Reported v (evtGroup (groupLog v id 0x0B 0 (d.lastStep.getD 0) g.position (ownMember v) 0) id .stopped g.epoch) :=
    (Reported.integrity v _ _ _ _ _ _ _ _ _).trans (Reported.evtGroup _ _ _ _)
  refine h1.trans ?_
  generalize evtGroup (groupLog v id 0x0B 0 (d.lastStep.getD 0) g.position (ownMember v) 0) id .stopped g.epoch = w
  split
  · split
    · split
      · exact (Reported.setQueue _ _).trans (Reported.complete _ _ _ _ _ _ _)
      · exact Reported.refl w
    · exact Reported.refl w
  · exact Reported.refl w

theorem stopGroup_takes (hg : s.group? id = some g) :
    ((stopGroup s id).group? id).map (·.state) = some .stopped ∧ (stopGroup s id).dram = s.dram := by
  have hrep := stopGroup_reported hg
  have ho := State.modDomain_only s id (fun d => { d with group := d.group.map (fun g => { g with state := .stopped, stopDue := false }) })
  have hgr := State.group?_modGroup hg (fun g => { g with state := .stopped, stopDue := false })
  refine ⟨?_, hrep.dram.trans ?_⟩
  · rw [State.group?_of_domains hrep.domains, hgr]
    rfl
  · exact (congrArg State.dram ho).trans rfl

/-! Heartbeats. -/

theorem failMembers_member (hg : s.group? id = some g) (h : g.isCoord = false) (ps : List Nat) (cause : Nat) :
    failMembers s id ps cause = s := by
  unfold failMembers
  simp only [hg]
  exact if_pos (Or.inl (by rw [h]; rfl))

theorem failMembers_coord (hg : s.group? id = some g) (ps : List Nat) (cause : Nat) :
    failMembers s id ps cause = if g.isCoord then failMembers s id ps cause else s := by
  cases h : g.isCoord
  · exact failMembers_member hg h ps cause
  · rfl

theorem foldl_sendPos (g : Group) (op : Nat) (d : List Byte) (ps : List Nat) (h : ∀ p ∈ ps, (g.memberAt p).isSome) (s : State) :
    ps.foldl (fun s p => sendPos s g p op d) s = { s with sent := s.sent ++ ps.map (fun p => .control ((g.memberAt p).getD 0) op d) } := by
  induction ps generalizing s with
  | nil => simp
  | cons p ps ih =>
    obtain ⟨m, hm⟩ := Option.isSome_iff_exists.mp (h p List.mem_cons_self)
    have hp : sendPos s g p op d = { s with sent := s.sent ++ [.control m op d] } := by
      rw [sendPos, hm]
      rfl
    rw [List.foldl_cons, hp, ih (fun x hx => h x (List.mem_cons_of_mem _ hx))]
    simp [hm]

theorem sendAll_eq (s : State) (g : Group) (op : Nat) (d : List Byte) :
    sendAll s g op d =
      { s with sent := s.sent ++ (g.live.filter (· != g.position)).map (fun p => .control ((g.memberAt p).getD 0) op d) } := by
  refine foldl_sendPos g op d _ (fun p hp => ?_) s
  have hlive := (List.mem_filter.mp (List.mem_filter.mp hp).1).2
  simp only [Bool.and_eq_true] at hlive
  exact hlive.1

theorem heartbeatSend_served (hcp : cpUp s 3 = true) (hg : s.group? id = some g) (hsize : 2 ≤ g.size) (hstate : g.state = .member) :
    heartbeatSend s id t = if g.isCoord then sendAll (s.atTime t) g msgHeartbeat (toLe 4 id)
      else sendPos (s.atTime t) g g.coord msgHeartbeat (toLe 4 id) := by
  have hg' : (s.atTime t).group? id = some g := hg
  have hcp' : cpUp (s.atTime t) 3 = true := hcp
  unfold heartbeatSend
  simp only [hg']
  exact if_neg (by simp [hcp', hstate, Nat.not_lt.mpr hsize])

section
variable {p x at_ : Nat}

theorem heartbeatExpiry_early (hg : s.group? id = some g) (hbeat : g.beats.find? (·.1 == p) = some (x, at_))
    (ht : t < at_ + 1000000 * g.params.hbExpiry) : heartbeatExpiry s id p t fit = s := by
  unfold heartbeatExpiry
  simp only [hg, hbeat]
  exact if_pos (Or.inr (Or.inl ht))

theorem heartbeatExpiry_late (hcp : cpUp s 3 = true) (hg : s.group? id = some g) (hbeat : g.beats.find? (·.1 == p) = some (x, at_))
    (ht : at_ + 1000000 * g.params.hbExpiry ≤ t) (hfailed : g.failed.contains p = false) (hown : p ≠ g.position) :
    heartbeatExpiry s id p t fit =
      failMembers (noteFit ((s.atTime t).modGroup id (fun g => { g with failed := g.failed ++ [p] })) id fit) id [p] 1 := by
  unfold heartbeatExpiry
  simp only [hg, hbeat]
  exact if_neg (by
    rw [hfailed]
    simp [hcp, hown, Nat.not_lt.mpr ht])

end

/-- A group changed by a function, or set to what the function gives. -/
theorem modGroup_const (hg : s.group? id = some g) (f : Group → Group) : s.modGroup id f = s.modGroup id (fun _ => f g) := by
  obtain ⟨d, hd, hdg⟩ := State.group?_domain hg
  unfold State.modGroup
  rw [State.modDomain_of_some hd, State.modDomain_of_some hd, hdg]
  rfl

theorem spareWaitExpiry_held {h v : Nat} {vs : List Nat} (hg : s.group? id = some g) (hheld : g.heldSince = some h)
    (hvac : g.vacant = v :: vs) :
    spareWaitExpiry s id t =
      if !cpUp s 3 ∨ t < h + 1000000 * g.params.spareWait then s
      else if g.size - 1 < g.params.minMembers then stopGroup (s.atTime t) id
      else if g.isCoord then issueFail (s.atTime t) id [{ action := 5, cause := 0, position := v, member := 0, arg := 0 }]
      else s.atTime t := by
  unfold spareWaitExpiry
  simp only [hg, hheld, hvac]

/-- Settles O27: heartbeats go to or from the coordinator, and only the coordinator fails a member. -/
theorem heartbeatsAndFailures : Obligations.HeartbeatsAndFailures := by
  unfold Obligations.HeartbeatsAndFailures
  intro s id g t p q fit hcp hg beat
  have hg' : (s.atTime t).group? id.toNat = some g := hg
  refine ⟨?_, ?_, ?_, ?_, ?_, ?_⟩
  · intro m hsize hstate hco hm
    have hsend := heartbeatSend_served (t := t) hcp hg hsize hstate
    rw [hco, if_neg (by decide), sendPos, hm] at hsend
    exact congrArg Host.Outcome.next hsend
  · intro hsize hstate hco
    have hsend := heartbeatSend_served (t := t) hcp hg hsize hstate
    rw [hco, if_pos rfl, sendAll_eq] at hsend
    exact ⟨_, congrArg Host.Outcome.next hsend, rfl, rfl⟩
  · refine ⟨_, rfl, ?_, State.group?_modGroup hg' _⟩
    have ho := State.modDomain_only (s.atTime t) id.toNat (fun d => { d with group := d.group.map (fun g =>
      if g.failed.contains p.val ∨ g.beats.any (fun (b : Nat × Nat) => b.1 == p.val && decide (b.2 + 1000000 * g.params.hbExpiry < t)) then
        { g with lateBeats := g.lateBeats + 1 }
      else { g with beats := g.beats.filter (fun (b : Nat × Nat) => b.1 != p.val) ++ [(p.val, t)] }) })
    exact (congrArg State.sent ho).trans rfl
  · intro x at_ hbeat
    refine ⟨fun ht => congrArg Host.Outcome.next (heartbeatExpiry_early hg hbeat ht), fun ht hfailed hown => ?_⟩
    intro g' v
    have hv : v.group? id.toNat = some g' := State.group?_modGroup hg' (fun _ => g')
    have hlate := heartbeatExpiry_late (fit := fit) hcp hg hbeat ht hfailed hown
    rw [modGroup_const hg'] at hlate
    exact ⟨hv, congrArg Host.Outcome.next (hlate.trans (failMembers_coord hv [p.val] 1))⟩
  · intro v
    have hv : v.group? id.toNat = some g := hg
    refine ⟨congrArg Host.Outcome.next (Eq.trans ?_ (failMembers_coord hv [p.val] 8)),
      congrArg Host.Outcome.next (Eq.trans ?_ (failMembers_coord hv [max p.val q.val] 2))⟩
    · exact if_neg (by simp [hcp])
    · exact if_neg (by simp [hcp])
  · intro h v vs hheld hvac
    have hexp := spareWaitExpiry_held (t := t) hg hheld hvac
    refine ⟨fun ht => congrArg Host.Outcome.next (hexp.trans (if_pos (Or.inr ht))), fun ht => ?_⟩
    have hexp' := hexp.trans (if_neg (by simp [hcp, Nat.not_lt.mpr ht]))
    refine ⟨fun hmin => ?_, fun hmin => ?_⟩
    · exact ⟨_, congrArg Host.Outcome.next (hexp'.trans (if_pos hmin)), stopGroup_takes hg'⟩
    · exact congrArg Host.Outcome.next (hexp'.trans (if_neg (Nat.not_lt.mpr hmin)))

end Sys2Proof.Machine
end

section
namespace Sys2Proof.Machine

set_option Elab.async false

/-! O28 fails: where the leaf that arrives is the last one wanted and all else of the clone is there, the clone is finished with it
(spec 09 R394, steps 6 to 8), so that the group holds no clone job any more. -/

/-- A clone that wants nothing but leaf 1. -/
def lastLeafJob : CloneJob :=
  { repair := false, sources := [0, 1], record := [], known := [], asked := [], wanted := [1], bad := [], baseDone := true
    baseWanted := [], baseDigests := [], treeDone := true }

/-- The group of the cloning device: member 21 of three. -/
def lastLeafGroup : Group :=
  { plan := ⟨false, 3, [some 20, some 21, some 22]⟩, nextPlan := none, position := 1, params := defaultParams 3, epoch := 0
    reports := [], beats := [], lateBeats := 0, lateRuns := [], table := [], tableStep := none, agreedStep := none, median := 0
    actions := [], extra := [], vacant := [], heldSince := none, compareNext := false, stopDue := false, state := .member
    clone := some lastLeafJob, failed := [], firstStep := 0 }

/-- The whole-model domain of the group, without a slot area: a leaf of it is empty. No journal is set up. -/
def lastLeafDomain : Domain := { Domain.fresh wholeDomain [] with group := some lastLeafGroup }

def lastLeafState : State := { State.reset with domains := [lastLeafDomain] }

/-- The arrival of the last leaf ends the clone job. -/
theorem lastLeaf_ends : ((cloneArrives lastLeafState wholeDomain (.leaf 0 1 []) 9).group? wholeDomain).map (·.clone.isNone) = some true := by decide +kernel

/-- Refutes O28: the last leaf of a clone leaves no clone job. -/
theorem not_clonesAndAgreedCopies : ¬ Obligations.ClonesAndAgreedCopies := by
  unfold Obligations.ClonesAndAgreedCopies
  intro h
  obtain ⟨-, -, hleaf, -⟩ := h lastLeafState (BitVec.ofNat 19 wholeDomain) 9 lastLeafDomain rfl
  obtain ⟨u, c', hu, -, hgroup, -⟩ := hleaf lastLeafGroup lastLeafJob 0 1 [] rfl rfl (by decide) (by decide) (by decide)
  have hend : exec (  .cloneLeafArrival (BitVec.ofNat 19 wholeDomain) (.leaf 0 1 []) 9) lastLeafState = .next (cloneArrives lastLeafState wholeDomain (.leaf 0 1 []) 9) := rfl
  obtain rfl := Host.Outcome.next.inj (hend.symm.trans hu)
  have hends := lastLeaf_ends
  rw [show (cloneArrives lastLeafState wholeDomain (.leaf 0 1 []) 9).group? wholeDomain = _ from hgroup] at hends
  cases hends

end Sys2Proof.Machine
end

section
namespace Sys2Proof.Machine

set_option Elab.async false

/-! O29: the export engine. -/

/-! What a container is formed of. -/

section
variable {s u : State} (hdram : u.dram = s.dram) (hplc : u.getF Reg.PLC_BASE 0 0 = s.getF Reg.PLC_BASE 0 0)
include hdram hplc

theorem placeBytes_congr : placeBytes u = placeBytes s := by
  funext i
  simp only [placeBytes, hdram, hplc]

theorem tensorParts_congr : tensorParts u = tensorParts s := by
  funext d i ks
  simp only [tensorParts, placeBytes_congr hdram hplc, hdram]

omit hplc in
theorem rootMapEntry_congr : rootMapEntry u = rootMapEntry s := by
  funext d slot i
  simp only [rootMapEntry, hdram]

theorem rootParts_congr : rootParts u = rootParts s := by
  funext d i
  simp only [rootParts, placeBytes_congr hdram hplc, rootMapEntry_congr hdram, hdram]

theorem contParts_congr : contParts u = contParts s := by
  funext d cellar list
  simp only [contParts, tensorParts_congr hdram hplc, rootParts_congr hdram hplc, placeBytes_congr hdram hplc, hdram]

theorem container_congr : container u = container s := by
  funext d cellar list
  simp only [container, contParts_congr hdram hplc]

end

theorem exportList_congr {s u : State} (hdram : u.dram = s.dram) (hcount : u.getF Reg.EXPORT_LIST_COUNT 0 0 = s.getF Reg.EXPORT_LIST_COUNT 0 0)
    (hbase : u.getF Reg.EXPORT_LIST_BASE 0 0 = s.getF Reg.EXPORT_LIST_BASE 0 0) : exportList u = exportList s := by
  simp only [exportList, hdram, hcount, hbase]

/-- The container of the request that the registers hold. -/
def requestedContainer (s : State) (d : Domain) : List Byte := container s d (s.flag Reg.EXPORT_REQ_KIND 0 0) (exportList s)

/-- The registers that say what an export is to copy. -/
def exportRegs : List Fld :=
  [Reg.EXPORT_REQ_DOMAIN, Reg.EXPORT_REQ_KIND, Reg.EXPORT_TARGET, Reg.EXPORT_PEER_MEMBER, Reg.EXPORT_BUF_BASE, Reg.EXPORT_BUF_LIMIT,
   Reg.EXPORT_LIST_BASE, Reg.EXPORT_LIST_COUNT, Reg.EXPORT_PIN_LIMIT, Reg.PLC_BASE]

/-- A state whose DRAM, domains and export request are those of another. -/
structure SameRequest (s u : State) : Prop where
  dram : u.dram = s.dram
  domains : u.domains = s.domains
  regs : ∀ f ∈ exportRegs, u.getF f 0 0 = s.getF f 0 0

theorem SameRequest.container {s u : State} (h : SameRequest s u) (d : Domain) : requestedContainer u d = requestedContainer s d := by
  unfold requestedContainer State.flag
  rw [container_congr h.dram (h.regs Reg.PLC_BASE (by decide)), exportList_congr h.dram (h.regs _ (by decide)) (h.regs _ (by decide)),
    h.regs Reg.EXPORT_REQ_KIND (by decide)]

/-! The ends of an export. -/

section
variable {s : State} {d : Domain}

theorem OnlyDomains.regs {s u : State} (h : OnlyDomains s u) : u.regs = s.regs := by rw [h]

theorem releasePin_only (s : State) (id : Nat) (h : PinHolder) : OnlyDomains (markPin s h 0) (releasePin s id h) :=
  State.modDomain_only _ _ _

/-- An export that fails: its pin is released and its job is gone. -/
theorem exportFail_takes (hd : s.domain? (s.getF Reg.EXPORT_REQ_DOMAIN 0 0) = some d) (hpin : d.pins.contains .exportEngine = true) :
    let u := exportFail s
    u.getF Reg.EXPORT_STATE 0 0 = 4 ∧ u.getF Reg.EXPORT_PIN_HELD 0 0 = 0 ∧
      (u.domain? (s.getF Reg.EXPORT_REQ_DOMAIN 0 0)).map (·.pins) = some (eraseOne .exportEngine d.pins) ∧ u.exportJob = none ∧
      u.dram = s.dram ∧ u.getF Reg.EXPORT_PIN_EXPIRIES 0 0 = s.getF Reg.EXPORT_PIN_EXPIRIES 0 0 := by
  obtain ⟨hdram, hdom⟩ := releasePin_takes hd .exportEngine
  have hregs := (releasePin_only s (s.getF Reg.EXPORT_REQ_DOMAIN 0 0) .exportEngine).regs
  have hexp : (releasePin s (s.getF Reg.EXPORT_REQ_DOMAIN 0 0) .exportEngine).getF Reg.EXPORT_PIN_EXPIRIES 0 0 =
      s.getF Reg.EXPORT_PIN_EXPIRIES 0 0 := (getF_of_regs hregs _ _ _).trans (State.getF_setF_ne s 0 (by decide))
  unfold exportFail
  generalize releasePin s (s.getF Reg.EXPORT_REQ_DOMAIN 0 0) .exportEngine = v at hdram hdom hexp ⊢
  have hstate : ((v.setF Reg.EXPORT_PIN_HELD 0 0 0).setF Reg.EXPORT_STATE 0 0 4).getF Reg.EXPORT_STATE 0 0 = 4 := State.getF_setF_same ..
  have hheld : ((v.setF Reg.EXPORT_PIN_HELD 0 0 0).setF Reg.EXPORT_STATE 0 0 4).getF Reg.EXPORT_PIN_HELD 0 0 = 0 :=
    (State.getF_setF_ne _ 4 (by decide)).trans (State.getF_setF_same ..)
  have hexp' : ((v.setF Reg.EXPORT_PIN_HELD 0 0 0).setF Reg.EXPORT_STATE 0 0 4).getF Reg.EXPORT_PIN_EXPIRIES 0 0 =
      s.getF Reg.EXPORT_PIN_EXPIRIES 0 0 := (State.getF_setF_ne _ 4 (by decide)).trans ((State.getF_setF_ne _ 0 (by decide)).trans hexp)
  have hdom' : ((v.setF Reg.EXPORT_PIN_HELD 0 0 0).setF Reg.EXPORT_STATE 0 0 4).domains = v.domains := rfl
  have hdram' : ((v.setF Reg.EXPORT_PIN_HELD 0 0 0).setF Reg.EXPORT_STATE 0 0 4).dram = v.dram := rfl
  dsimp only
  generalize (v.setF Reg.EXPORT_PIN_HELD 0 0 0).setF Reg.EXPORT_STATE 0 0 4 = w at hstate hheld hexp' hdom' hdram' ⊢
  refine ⟨hstate, hheld, ?_, rfl, hdram'.trans hdram, hexp'⟩
  refine (congrArg (Option.map (·.pins)) ((State.domain?_of_domains hdom' _).trans hdom)).trans ?_
  rw [hpin]
  rfl

/-! GO. -/

/-- The engine as it takes a request: nothing written yet, no job. -/
def exportBegun (s : State) (t : Nat) : State :=
  { (journal (s.atTime t) 14 (exportState s)).setF Reg.EXPORT_BYTES_DONE 0 0 0 with exportJob := none }

theorem exportBegun_same (s : State) (t : Nat) :
    SameRequest s (exportBegun s t) ∧ (exportBegun s t).getF Reg.EXPORT_BYTES_DONE 0 0 = 0 ∧ (exportBegun s t).now = max s.now t ∧
      ∀ id, committing (exportBegun s t) id = committing s id := by
  have hget (f : Fld) : (exportBegun s t).getF f 0 0 = (s.setF Reg.EXPORT_BYTES_DONE 0 0 0).getF f 0 0 := rfl
  refine ⟨⟨rfl, rfl, fun f hf => ?_⟩, ?_, rfl, fun _ => rfl⟩
  · rw [hget]
    simp only [exportRegs, List.mem_cons, List.not_mem_nil, or_false] at hf
    rcases hf with rfl | rfl | rfl | rfl | rfl | rfl | rfl | rfl | rfl | rfl <;> exact State.getF_setF_ne s 0 (by decide)
  · rw [hget, State.getF_setF_same]
    rfl

/-- The engine with a job whose pin is not granted yet. -/
def exportAsking (s : State) (t : Nat) (d : Domain) : State :=
  { (exportBegun s t).setF Reg.EXPORT_STATE 0 0 1 with exportJob := some { pinAt := none, step := recStep d.record } }

/-- GO by a device whose engine is free. -/
theorem exportGo_free {t : Nat} (hen : s.getF (Hdr.ENABLE 14) 0 0 ≠ 0) (h1 : exportState s ≠ 1) (h2 : exportState s ≠ 2)
    (hd : s.domain? (s.getF Reg.EXPORT_REQ_DOMAIN 0 0) = some d) :
    exportGo s t =
      if d.lastStep.isNone ∨ (requestedContainer s d).length > 65536 * s.getF Reg.EXPORT_BUF_LIMIT 0 0 then
        (exportBegun s t).setF Reg.EXPORT_STATE 0 0 4
      else
        let v := requestPin (exportAsking s t d) (s.getF Reg.EXPORT_REQ_DOMAIN 0 0) .exportEngine
        v.setF Reg.EXPORT_PIN_HELD 0 0 (b2n ((v.exportJob.bind (·.pinAt)).isSome)) := by
  obtain ⟨hsame, -⟩ := exportBegun_same s t
  have hno : ¬((s.atTime t).getF (Hdr.ENABLE 14) 0 0 = 0 ∨ exportState (s.atTime t) = 1 ∨ exportState (s.atTime t) = 2) := by
    rintro (h | h | h)
    · exact hen h
    · exact h1 h
    · exact h2 h
  have hvd : (exportBegun s t).domain? (s.getF Reg.EXPORT_REQ_DOMAIN 0 0) = some d := (State.domain?_of_domains hsame.domains _).trans hd
  rw [← hsame.container d, ← hsame.regs Reg.EXPORT_BUF_LIMIT (by decide)]
  unfold exportGo
  dsimp only
  rw [if_neg hno]
  change (match (exportBegun s t).domain? (s.getF Reg.EXPORT_REQ_DOMAIN 0 0) with | none => _ | some d => _) = _
  rw [hvd]
  rfl

/-- An export that moves no byte. -/
theorem exportGo_refused {t : Nat} (hen : s.getF (Hdr.ENABLE 14) 0 0 ≠ 0) (h1 : exportState s ≠ 1) (h2 : exportState s ≠ 2)
    (hd : s.domain? (s.getF Reg.EXPORT_REQ_DOMAIN 0 0) = some d)
    (hno : d.lastStep = none ∨ 65536 * s.getF Reg.EXPORT_BUF_LIMIT 0 0 < (requestedContainer s d).length) :
    let u := exportGo s t
    u.dram = s.dram ∧ u.getF Reg.EXPORT_BYTES_DONE 0 0 = 0 ∧ u.getF Reg.EXPORT_STATE 0 0 = 4 ∧ u.domains = s.domains := by
  obtain ⟨hsame, hdone, -⟩ := exportBegun_same s t
  have hif : d.lastStep.isNone = true ∨ (requestedContainer s d).length > 65536 * s.getF Reg.EXPORT_BUF_LIMIT 0 0 :=
    hno.imp_left Option.isNone_iff_eq_none.mpr
  dsimp only
  rw [exportGo_free hen h1 h2 hd, if_pos hif]
  generalize exportBegun s t = v at hsame hdone ⊢
  exact ⟨hsame.dram, (State.getF_setF_ne v 4 (by decide)).trans hdone, State.getF_setF_same .., hsame.domains⟩

theorem exportAsking_same (s : State) (t : Nat) (d : Domain) :
    (exportAsking s t d).domains = s.domains ∧ (exportAsking s t d).dram = s.dram ∧ (exportAsking s t d).now = max s.now t ∧
      (exportAsking s t d).exportJob = some { pinAt := none, step := recStep d.record } ∧
      (∀ id, committing (exportAsking s t d) id = committing s id) ∧ (exportAsking s t d).getF Reg.EXPORT_STATE 0 0 = 1 ∧
      (exportAsking s t d).getF Reg.EXPORT_BYTES_DONE 0 0 = 0 := by
  obtain ⟨hsame, hdone, hnow, hcommit⟩ := exportBegun_same s t
  have hregs : (exportAsking s t d).regs = ((exportBegun s t).setF Reg.EXPORT_STATE 0 0 1).regs := rfl
  exact ⟨hsame.domains, hsame.dram, hnow, rfl, hcommit, (getF_of_regs hregs ..).trans (State.getF_setF_same ..),
    (getF_of_regs hregs ..).trans ((State.getF_setF_ne _ 1 (by decide)).trans hdone)⟩

/-- The pin of the export engine, asked for. -/
theorem requestPin_export {s : State} {id : Nat} {d : Domain} (hd : s.domain? id = some d) :
    (requestPin s id .exportEngine).exportJob =
        (if committing s id then s.exportJob else s.exportJob.map (fun j => { j with pinAt := some s.now })) ∧
      ∀ f : Fld, Reg.EXPORT_PIN_HELD.key 0 0 ≠ f.key 0 0 → (requestPin s id .exportEngine).getF f 0 0 = s.getF f 0 0 := by
  simp only [requestPin, hd]
  split
  · exact ⟨rfl, fun _ _ => rfl⟩
  · exact ⟨rfl, fun f hf => (getF_of_regs rfl ..).trans (State.getF_setF_ne (s.setDomain _) 1 hf)⟩

/-- An export that begins: it holds its pin, or waits for it while a commit of the domain is under way. -/
theorem exportGo_begins {t : Nat} (hen : s.getF (Hdr.ENABLE 14) 0 0 ≠ 0) (h1 : exportState s ≠ 1) (h2 : exportState s ≠ 2)
    (hd : s.domain? (s.getF Reg.EXPORT_REQ_DOMAIN 0 0) = some d)
    (hgo : ¬(d.lastStep = none ∨ 65536 * s.getF Reg.EXPORT_BUF_LIMIT 0 0 < (requestedContainer s d).length)) :
    let u := exportGo s t
    let id := s.getF Reg.EXPORT_REQ_DOMAIN 0 0
    u.dram = s.dram ∧ u.getF Reg.EXPORT_BYTES_DONE 0 0 = 0 ∧ u.getF Reg.EXPORT_STATE 0 0 = 1 ∧
      if committing s id then
        u.getF Reg.EXPORT_PIN_HELD 0 0 = 0 ∧ (u.domain? id).map (·.pinWait) = some (d.pinWait ++ [.exportEngine])
      else u.getF Reg.EXPORT_PIN_HELD 0 0 = 1 ∧ (u.domain? id).map (·.pins) = some (d.pins ++ [.exportEngine]) ∧
        u.exportJob = some { pinAt := some (max s.now t), step := recStep d.record } := by
  have hif : ¬(d.lastStep.isNone = true ∨ (requestedContainer s d).length > 65536 * s.getF Reg.EXPORT_BUF_LIMIT 0 0) :=
    fun h => hgo (h.imp_left Option.isNone_iff_eq_none.mp)
  dsimp only
  rw [exportGo_free hen h1 h2 hd, if_neg hif]
  generalize s.getF Reg.EXPORT_REQ_DOMAIN 0 0 = id at hd ⊢
  obtain ⟨hdom, hdram, hnow, hjob, hcommit, hstate, hdone⟩ := exportAsking_same s t d
  generalize exportAsking s t d = w at hdom hdram hnow hjob hcommit hstate hdone ⊢
  have hwd : w.domain? id = some d := (State.domain?_of_domains hdom _).trans hd
  obtain ⟨hpjob, hpget⟩ := requestPin_export hwd
  obtain ⟨hpdram, hpdom⟩ := requestPin_takes hwd .exportEngine
  rw [hcommit, hjob, hnow] at hpjob
  rw [hcommit] at hpdom
  have hpstate := (hpget Reg.EXPORT_STATE (by decide)).trans hstate
  have hpdone := (hpget Reg.EXPORT_BYTES_DONE (by decide)).trans hdone
  dsimp only
  generalize requestPin w id .exportEngine = v at hpjob hpdram hpdom hpstate hpdone ⊢
  have hheld (b : Bool) : (v.setF Reg.EXPORT_PIN_HELD 0 0 (b2n b)).getF Reg.EXPORT_PIN_HELD 0 0 = b2n b := by
    rw [State.getF_setF_same]
    cases b <;> rfl
  refine ⟨hpdram.trans hdram, (State.getF_setF_ne v _ (by decide)).trans hpdone, (State.getF_setF_ne v _ (by decide)).trans hpstate, ?_⟩
  rw [hheld, hpjob]
  by_cases hc : committing s id = true
  · simp only [hc, if_true] at hpdom ⊢
    exact ⟨rfl, congrArg (Option.map (·.pinWait)) hpdom⟩
  · simp only [hc, if_false, Bool.false_eq_true] at hpdom hpjob ⊢
    exact ⟨rfl, congrArg (Option.map (·.pins)) hpdom, hpjob⟩

/-! The end of the copy. -/

/-- The container complete in the buffer: the pin released, the export counted. -/
def exportWritten (s : State) (id n : Nat) : State :=
  ((releasePin ((s.setF Reg.EXPORT_BYTES_DONE 0 0 n).raise 14 0 0 1) id .exportEngine).setF Reg.EXPORT_PIN_HELD 0 0 0).countF Reg.EXPORT_EXPORTS 0 0 1

theorem exportWritten_takes {s : State} {id : Nat} {d : Domain} (n : Nat) (hd : s.domain? id = some d) (hpin : d.pins.contains .exportEngine = true) :
    let u := exportWritten s id n
    u.dram = s.dram ∧ u.getF Reg.EXPORT_PIN_HELD 0 0 = 0 ∧ (u.domain? id).map (·.pins) = some (eraseOne .exportEngine d.pins) ∧
      u.getF Reg.EXPORT_BYTES_DONE 0 0 = n % 2 ^ 64 ∧ bit (u.getF (Hdr.INT_STATUS 14 0) 0 0) 1 = true ∧
      u.getF Reg.EXPORT_EXPORTS 0 0 = min (s.getF Reg.EXPORT_EXPORTS 0 0 + 1) (2 ^ Reg.EXPORT_EXPORTS.width - 1) ∧
      u.sent = s.sent ∧ ∀ f ∈ [Reg.EXPORT_TARGET, Reg.EXPORT_PEER_MEMBER], u.getF f 0 0 = s.getF f 0 0 := by
  unfold exportWritten
  have hraised (f : Fld) (h1 : (Hdr.INT_STATUS 14 0).key 0 0 ≠ f.key 0 0) (h2 : Reg.EXPORT_BYTES_DONE.key 0 0 ≠ f.key 0 0) :
      ((s.setF Reg.EXPORT_BYTES_DONE 0 0 n).raise 14 0 0 1).getF f 0 0 = s.getF f 0 0 :=
    (getF_raise_ne _ h1).trans (State.getF_setF_ne s n h2)
  have hbit := bit_raise (s.setF Reg.EXPORT_BYTES_DONE 0 0 n) 14 0 0 (b := 1) (by decide)
  have hdone : ((s.setF Reg.EXPORT_BYTES_DONE 0 0 n).raise 14 0 0 1).getF Reg.EXPORT_BYTES_DONE 0 0 = n % 2 ^ 64 :=
    (getF_raise_ne _ (by decide)).trans (State.getF_setF_same ..)
  have hxd : ((s.setF Reg.EXPORT_BYTES_DONE 0 0 n).raise 14 0 0 1).domain? id = some d := hd
  have hxs : ((s.setF Reg.EXPORT_BYTES_DONE 0 0 n).raise 14 0 0 1).sent = s.sent := rfl
  have hxr : ((s.setF Reg.EXPORT_BYTES_DONE 0 0 n).raise 14 0 0 1).dram = s.dram := rfl
  generalize (s.setF Reg.EXPORT_BYTES_DONE 0 0 n).raise 14 0 0 1 = x at hraised hbit hdone hxd hxs hxr ⊢
  obtain ⟨hdram, hdom⟩ := releasePin_takes hxd .exportEngine
  have honly := releasePin_only x id .exportEngine
  have hsent : (releasePin x id .exportEngine).sent = x.sent := by
    rw [honly]
    rfl
  have hget (f : Fld) (h : Reg.EXPORT_PIN_HELD.key 0 0 ≠ f.key 0 0) : (releasePin x id .exportEngine).getF f 0 0 = x.getF f 0 0 :=
    (getF_of_regs honly.regs ..).trans (State.getF_setF_ne x 0 h)
  generalize releasePin x id .exportEngine = y at hdram hdom honly hsent hget ⊢
  have hkeep (f : Fld) (h1 : Reg.EXPORT_PIN_HELD.key 0 0 ≠ f.key 0 0) (h2 : Reg.EXPORT_EXPORTS.key 0 0 ≠ f.key 0 0) :
      ((y.setF Reg.EXPORT_PIN_HELD 0 0 0).countF Reg.EXPORT_EXPORTS 0 0 1).getF f 0 0 = x.getF f 0 0 :=
    (State.getF_countF_ne _ 1 h2).trans ((State.getF_setF_ne y 0 h1).trans (hget f h1))
  refine ⟨hdram.trans hxr, (State.getF_countF_ne _ 1 (by decide)).trans (State.getF_setF_same ..), ?_, (hkeep _ (by decide) (by decide)).trans hdone, ?_, ?_,
    hsent.trans hxs, ?_⟩
  · refine (congrArg (Option.map (·.pins)) ((State.domain?_of_domains rfl id).trans hdom)).trans ?_
    rw [hpin]
    rfl
  · rw [hkeep _ (by decide) (by decide)]
    exact hbit
  · rw [State.getF_countF_same, State.getF_setF_ne y 0 (by decide), hget _ (by decide), hraised _ (by decide) (by decide)]
  · simp only [List.mem_cons, List.not_mem_nil, or_false]
    rintro f (rfl | rfl) <;> exact (hkeep _ (by decide) (by decide)).trans (hraised _ (by decide) (by decide))

/-- The buffer's holders are told, where it lies in the window of host-managed memory. -/
def exportSnooped (s : State) (base n : Nat) : State :=
  match s.power.hdm with
  | some (w, k) => if base < w + k ∧ w < base + n then s.send (.biSnp (max base w) (min (base + n) (w + k) - max base w)) else s
  | none => s

theorem exportSnooped_same (s : State) (base n : Nat) : exportSnooped s base n = { s with sent := (exportSnooped s base n).sent } := by
  unfold exportSnooped
  split
  · split <;> rfl
  · rfl

/-- The container goes to the member that asked, or stays in the buffer. -/
def exportHanded (s : State) (c : List Byte) : State :=
  if s.flag Reg.EXPORT_TARGET 0 0 then (s.setF Reg.EXPORT_STATE 0 0 2).send (.bulk (s.getF Reg.EXPORT_PEER_MEMBER 0 0) 4 c)
  else { s.setF Reg.EXPORT_STATE 0 0 3 with exportJob := none }

theorem exportDone_clean {t p step : Nat} (hst : exportState s = 1) (hfr : s.getF (Hdr.FREEZE 14) 0 0 ≠ 1)
    (hjob : s.exportJob = some { pinAt := some p, step := step }) (hue : s.dramUe = []) (ht : t ≤ p + 1000000 * s.getF Reg.EXPORT_PIN_LIMIT 0 0)
    (hd : s.domain? (s.getF Reg.EXPORT_REQ_DOMAIN 0 0) = some d) :
    exportDone s t =
      let c := requestedContainer s d
      exportHanded (exportWritten (dramWrite (exportSnooped (s.atTime t) (s.getF Reg.EXPORT_BUF_BASE 0 0) c.length) (s.getF Reg.EXPORT_BUF_BASE 0 0) c).1
        (s.getF Reg.EXPORT_REQ_DOMAIN 0 0) c.length) c := by
  have hpin : s.exportJob.bind (·.pinAt) = some p := by
    rw [hjob]
    rfl
  have hno : ¬(exportState s ≠ 1 ∨ s.getF (Hdr.FREEZE 14) 0 0 = 1 ∨ (s.exportJob.bind (·.pinAt)).isNone = true) := by
    rintro (h | h | h)
    · exact h hst
    · exact hfr h
    · rw [hpin] at h
      cases h
  have hlate : ¬((s.exportJob.bind (·.pinAt)).any (fun p => decide (p + 1000000 * s.getF Reg.EXPORT_PIN_LIMIT 0 0 < t)) = true) := by
    rw [hpin]
    simpa using ht
  have hd' : (s.atTime t).domain? ((s.atTime t).getF Reg.EXPORT_REQ_DOMAIN 0 0) = some d := hd
  have hue' : (s.atTime t).dramUe = [] := hue
  unfold exportDone
  rw [if_neg hno, if_neg hlate]
  simp only [hd', hue', List.find?_nil]
  rfl

theorem exportHanded_takes (s : State) (c : List Byte) :
    let u := exportHanded s c
    u.dram = s.dram ∧ u.domains = s.domains ∧ (∀ f : Fld, Reg.EXPORT_STATE.key 0 0 ≠ f.key 0 0 → u.getF f 0 0 = s.getF f 0 0) ∧
      if s.flag Reg.EXPORT_TARGET 0 0 then u.getF Reg.EXPORT_STATE 0 0 = 2 ∧ .bulk (s.getF Reg.EXPORT_PEER_MEMBER 0 0) 4 c ∈ u.sent
      else u.getF Reg.EXPORT_STATE 0 0 = 3 ∧ u.exportJob = none := by
  unfold exportHanded
  split
  · exact ⟨rfl, rfl, fun f hf => (getF_of_regs (s := s.setF Reg.EXPORT_STATE 0 0 2) rfl ..).trans (State.getF_setF_ne s 2 hf),
      (getF_of_regs (s := s.setF Reg.EXPORT_STATE 0 0 2) rfl ..).trans (State.getF_setF_same ..), List.mem_append_right _ (List.mem_singleton.mpr rfl)⟩
  · exact ⟨rfl, rfl, fun f hf => (getF_of_regs (s := s.setF Reg.EXPORT_STATE 0 0 3) rfl ..).trans (State.getF_setF_ne s 3 hf),
      (getF_of_regs (s := s.setF Reg.EXPORT_STATE 0 0 3) rfl ..).trans (State.getF_setF_same ..), rfl⟩

/-- The container written to its buffer, with its pin released, and handed on. -/
theorem exportDone_takes {t p step : Nat} (hst : exportState s = 1) (hfr : s.getF (Hdr.FREEZE 14) 0 0 ≠ 1)
    (hjob : s.exportJob = some { pinAt := some p, step := step }) (hue : s.dramUe = []) (ht : t ≤ p + 1000000 * s.getF Reg.EXPORT_PIN_LIMIT 0 0)
    (hd : s.domain? (s.getF Reg.EXPORT_REQ_DOMAIN 0 0) = some d)
    (hsize : s.getF Reg.EXPORT_BUF_BASE 0 0 + (requestedContainer s d).length ≤ dramSize s) (hpin : d.pins.contains .exportEngine = true) :
    let c := requestedContainer s d
    let u := exportDone s t
    u.dram = Memory.writeL s.dram (s.getF Reg.EXPORT_BUF_BASE 0 0) c ∧
      (u.getF Reg.EXPORT_PIN_HELD 0 0 = 0 ∧
        (u.domain? (s.getF Reg.EXPORT_REQ_DOMAIN 0 0)).map (·.pins) = some (eraseOne .exportEngine d.pins)) ∧
      u.getF Reg.EXPORT_BYTES_DONE 0 0 = c.length % 2 ^ 64 ∧ bit (u.getF (Hdr.INT_STATUS 14 0) 0 0) 1 = true ∧
      u.getF Reg.EXPORT_EXPORTS 0 0 = min (s.getF Reg.EXPORT_EXPORTS 0 0 + 1) (2 ^ Reg.EXPORT_EXPORTS.width - 1) ∧
      if s.flag Reg.EXPORT_TARGET 0 0 then
        u.getF Reg.EXPORT_STATE 0 0 = 2 ∧ .bulk (s.getF Reg.EXPORT_PEER_MEMBER 0 0) 4 c ∈ u.sent
      else u.getF Reg.EXPORT_STATE 0 0 = 3 ∧ u.exportJob = none := by
  dsimp only
  rw [exportDone_clean hst hfr hjob hue ht hd]
  dsimp only
  generalize s.getF Reg.EXPORT_BUF_BASE 0 0 = base at hsize ⊢
  generalize requestedContainer s d = c at hsize ⊢
  generalize hid : s.getF Reg.EXPORT_REQ_DOMAIN 0 0 = id at hd
  have hsnoop := exportSnooped_same (s.atTime t) base c.length
  generalize exportSnooped (s.atTime t) base c.length = v at hsnoop ⊢
  have hvregs : v.regs = s.regs := by
    rw [hsnoop]
    rfl
  have hvdram : v.dram = s.dram := by
    rw [hsnoop]
    rfl
  have hvue : v.dramUe = [] := by
    rw [hsnoop]
    exact hue
  have hvdom : v.domain? id = some d := by
    rw [hsnoop]
    exact hd
  rw [dramWrite_clean (by rwa [dramSize_of_regs hvregs]) hvue]
  dsimp only
  obtain ⟨hwdram, hheld, hfree, hdone, hbit, hexp, -, hkeep⟩ := exportWritten_takes (s := { v with
    dram := Memory.writeL v.dram base c
    dramUe := []
    dramCe := v.dramCe.filter (fun l => !(dramLines base c.length).contains l) }) c.length hvdom hpin
  have hregs (f : Fld) := getF_of_regs (s := s) (u := { v with
    dram := Memory.writeL v.dram base c
    dramUe := []
    dramCe := v.dramCe.filter (fun l => !(dramLines base c.length).contains l) }) hvregs f 0 0
  simp only [hregs] at hexp hkeep
  generalize exportWritten _ id c.length = y at hwdram hheld hfree hdone hbit hexp hkeep ⊢
  obtain ⟨hudram, hudom, huget, hend⟩ := exportHanded_takes y c
  unfold State.flag at hend ⊢
  rw [hkeep _ (by decide), hkeep _ (by decide)] at hend
  refine ⟨hudram.trans (hwdram.trans (by rw [hvdram])), ⟨(huget _ (by decide)).trans hheld, ?_⟩, (huget _ (by decide)).trans hdone, ?_,
    (huget _ (by decide)).trans hexp, hend⟩
  · rw [State.domain?_of_domains hudom]
    exact hfree
  · rw [huget _ (by decide)]
    exact hbit

/-- The peer has the whole container. -/
theorem peerDone_takes {t : Nat} (h : exportState s = 2) :
    let u := peerDone s t
    u.getF Reg.EXPORT_STATE 0 0 = 3 ∧ u.exportJob = none ∧ bit (u.getF (Hdr.INT_STATUS 14 0) 0 0) 3 = true ∧ u.dram = s.dram ∧
      u.domains = s.domains := by
  have hno : ¬(exportState (s.atTime t) ≠ 2) := fun hne => hne h
  simp only [peerDone, if_neg hno]
  have hstate : (((s.atTime t).setF Reg.EXPORT_STATE 0 0 3).raise 14 0 0 3).getF Reg.EXPORT_STATE 0 0 = 3 :=
    (getF_raise_ne _ (by decide)).trans (State.getF_setF_same ..)
  have hbit := bit_raise ((s.atTime t).setF Reg.EXPORT_STATE 0 0 3) 14 0 0 (b := 3) (by decide)
  have hdom : (((s.atTime t).setF Reg.EXPORT_STATE 0 0 3).raise 14 0 0 3).domains = s.domains := rfl
  have hdram : (((s.atTime t).setF Reg.EXPORT_STATE 0 0 3).raise 14 0 0 3).dram = s.dram := rfl
  generalize ((s.atTime t).setF Reg.EXPORT_STATE 0 0 3).raise 14 0 0 3 = v at hstate hbit hdom hdram ⊢
  exact ⟨hstate, trivial, hbit, hdram, hdom⟩

/-- A pin that has not reached its limit goes on. -/
theorem pinExpired_early {t p step : Nat} (hjob : s.exportJob = some { pinAt := some p, step := step })
    (ht : t < p + 1000000 * s.getF Reg.EXPORT_PIN_LIMIT 0 0) : pinExpired s t = s := by
  have hpin : s.exportJob.bind (·.pinAt) = some p := by
    rw [hjob]
    rfl
  simp only [pinExpired, hpin, ht, or_true, if_true]

/-- A pin at its limit: the export fails and is reported. -/
theorem pinExpired_takes {t p step : Nat} (hst : exportState s = 1) (hjob : s.exportJob = some { pinAt := some p, step := step })
    (ht : p + 1000000 * s.getF Reg.EXPORT_PIN_LIMIT 0 0 ≤ t) (hd : s.domain? (s.getF Reg.EXPORT_REQ_DOMAIN 0 0) = some d)
    (hpin : d.pins.contains .exportEngine = true) :
    let u := pinExpired s t
    (u.getF Reg.EXPORT_STATE 0 0 = 4 ∧ u.getF Reg.EXPORT_PIN_HELD 0 0 = 0 ∧
      (u.domain? (s.getF Reg.EXPORT_REQ_DOMAIN 0 0)).map (·.pins) = some (eraseOne .exportEngine d.pins) ∧ u.exportJob = none ∧ u.dram = s.dram) ∧
    bit (u.getF (Hdr.INT_STATUS 14 0) 0 0) 2 = true ∧
      u.getF Reg.EXPORT_PIN_EXPIRIES 0 0 = min (s.getF Reg.EXPORT_PIN_EXPIRIES 0 0 + 1) (2 ^ Reg.EXPORT_PIN_EXPIRIES.width - 1) := by
  have hjp : s.exportJob.bind (·.pinAt) = some p := by
    rw [hjob]
    rfl
  have hno : ¬(exportState s ≠ 1 ∨ t < p + 1000000 * s.getF Reg.EXPORT_PIN_LIMIT 0 0) := by
    rintro (h | h)
    · exact h hst
    · omega
  obtain ⟨hs, hheld, hfree, hej, hdram, hexp⟩ := exportFail_takes (s := s.atTime t) hd hpin
  simp only [pinExpired, hjp, if_neg hno]
  generalize exportFail (s.atTime t) = v at hs hheld hfree hej hdram hexp ⊢
  generalize (v.raise 14 0 0 2).getF Reg.SEC_MEMBER 0 0 = member
  have hstate : ((v.raise 14 0 0 2).countF Reg.EXPORT_PIN_EXPIRIES 0 0 1).getF Reg.EXPORT_STATE 0 0 = 4 :=
    (State.getF_countF_ne _ 1 (by decide)).trans ((getF_raise_ne v (by decide)).trans hs)
  have hpinheld : ((v.raise 14 0 0 2).countF Reg.EXPORT_PIN_EXPIRIES 0 0 1).getF Reg.EXPORT_PIN_HELD 0 0 = 0 :=
    (State.getF_countF_ne _ 1 (by decide)).trans ((getF_raise_ne v (by decide)).trans hheld)
  have hbit : bit (((v.raise 14 0 0 2).countF Reg.EXPORT_PIN_EXPIRIES 0 0 1).getF (Hdr.INT_STATUS 14 0) 0 0) 2 = true := by
    rw [State.getF_countF_ne _ 1 (by decide)]
    exact bit_raise v 14 0 0 (by decide)
  have hcount : ((v.raise 14 0 0 2).countF Reg.EXPORT_PIN_EXPIRIES 0 0 1).getF Reg.EXPORT_PIN_EXPIRIES 0 0 =
      min (s.getF Reg.EXPORT_PIN_EXPIRIES 0 0 + 1) (2 ^ Reg.EXPORT_PIN_EXPIRIES.width - 1) := by
    rw [State.getF_countF_same, getF_raise_ne v (by decide), hexp]
    rfl
  have hdom' : ((v.raise 14 0 0 2).countF Reg.EXPORT_PIN_EXPIRIES 0 0 1).domains = v.domains := rfl
  have hdram' : ((v.raise 14 0 0 2).countF Reg.EXPORT_PIN_EXPIRIES 0 0 1).dram = v.dram := rfl
  have hjob' : ((v.raise 14 0 0 2).countF Reg.EXPORT_PIN_EXPIRIES 0 0 1).exportJob = v.exportJob := rfl
  generalize (v.raise 14 0 0 2).countF Reg.EXPORT_PIN_EXPIRIES 0 0 1 = w at hstate hpinheld hbit hcount hdom' hdram' hjob' ⊢
  have hrep : Reported w (integrity w 0x0C 0 ((s.atTime t).getF Reg.EXPORT_REQ_DOMAIN 0 0) (((s.atTime t).exportJob.map (·.step)).getD 0)
    ((((s.atTime t).group? ((s.atTime t).getF Reg.EXPORT_REQ_DOMAIN 0 0)).map (·.position)).getD 0) member 0 0 0) := Reported.integrity ..
  generalize integrity w 0x0C 0 ((s.atTime t).getF Reg.EXPORT_REQ_DOMAIN 0 0) (((s.atTime t).exportJob.map (·.step)).getD 0)
    ((((s.atTime t).group? ((s.atTime t).getF Reg.EXPORT_REQ_DOMAIN 0 0)).map (·.position)).getD 0) member 0 0 0 = z at hrep ⊢
  have hget (f : Fld) (hf : Reg.MBX_EVT_LOST.key 0 0 ≠ f.key 0 0) := hrep.regs f 0 0 hf
  refine ⟨⟨(hget _ (by decide)).trans hstate, (hget _ (by decide)).trans hpinheld, ?_, ?_, hrep.dram.trans (hdram'.trans hdram)⟩, ?_,
    (hget _ (by decide)).trans hcount⟩
  · rw [State.domain?_of_domains (hrep.domains.trans hdom')]
    exact hfree
  · obtain ⟨_, _, _, _, _, _, h⟩ := hrep.same
    rw [h]
    exact hjob'.trans hej
  · rw [hget _ (by decide)]
    exact hbit

end

/-- Settles O29, command by command: each part is the lemma about the engine, and the request's page only counts the access. -/
theorem exportEngine : Obligations.ExportEngine := by
  unfold Obligations.ExportEngine
  intro s a t d id c base st free hd
  have hcount (f : Fld) (hf : f.bitOnPage 0 % 0x8000 ≠ 0x160) : (countAccess s 14 0 0).getF f 0 0 = s.getF f 0 0 := getF_countAccess_ne s 14 0 0 hf
  have hsame := countAccess_same s 14 0 0
  have hcs : SameRequest s (countAccess s 14 0 0) := by
    refine ⟨by rw [hsame], by rw [hsame], fun f hf => hcount f ?_⟩
    simp only [exportRegs, List.mem_cons, List.not_mem_nil, or_false] at hf
    rcases hf with rfl | rfl | rfl | rfl | rfl | rfl | rfl | rfl | rfl | rfl <;> decide
  have hid : (countAccess s 14 0 0).getF Reg.EXPORT_REQ_DOMAIN 0 0 = id := hcs.regs _ (by decide)
  have hstate : exportState (countAccess s 14 0 0) = st s := hcount Reg.EXPORT_STATE (by decide)
  have hxd : (countAccess s 14 0 0).domain? ((countAccess s 14 0 0).getF Reg.EXPORT_REQ_DOMAIN 0 0) = some d := by
    rw [hid]
    exact (State.domain?_of_domains hcs.domains _).trans hd
  have hcommit : committing (countAccess s 14 0 0) id = committing s id := by
    rw [hsame]
    rfl
  have hnow : (countAccess s 14 0 0).now = s.now := by rw [hsame]
  refine ⟨fun hr ht hen h1 h2 => ?_, fun hr ht hst hpin => ?_, fun p step hst hfr hjob hue ht hsize hpin => ?_, fun hst => ?_,
    fun p step hst hjob => ⟨fun ht => ?_, fun ht hpin => ?_⟩⟩
  · have hcmd : exportCommand s a (fun s => exportGo s t) = exportGo (countAccess s 14 0 0) t := if_pos ⟨hr, ht⟩
    refine ⟨_, congrArg Host.Outcome.next hcmd, ?_⟩
    have hen' : (countAccess s 14 0 0).getF (Hdr.ENABLE 14) 0 0 ≠ 0 := by
      rw [hcount _ (by decide)]
      exact hen
    have hlim := hcs.regs Reg.EXPORT_BUF_LIMIT (by decide)
    have hcont : requestedContainer (countAccess s 14 0 0) d = c := hcs.container d
    generalize countAccess s 14 0 0 = x at hcs hid hstate hxd hcommit hnow hen' hlim hcont ⊢
    by_cases hno : d.lastStep = none ∨ 65536 * s.getF Reg.EXPORT_BUF_LIMIT 0 0 < c.length
    · rw [if_pos hno]
      rw [← hlim, ← hcont] at hno
      obtain ⟨hdram, hdone, hst, hdom⟩ := exportGo_refused (t := t) hen' (hstate ▸ h1) (hstate ▸ h2) hxd hno
      exact ⟨hdram.trans hcs.dram, hdone, hst, hdom.trans hcs.domains⟩
    · rw [if_neg hno]
      rw [← hlim, ← hcont] at hno
      obtain ⟨hdram, hdone, hst, hpins⟩ := exportGo_begins (t := t) hen' (hstate ▸ h1) (hstate ▸ h2) hxd hno
      rw [hid, hcommit, hnow] at hpins
      exact ⟨hdram.trans hcs.dram, hdone, hst, hpins⟩
  · have hcmd : exportCommand s a (fun s => exportAbort s t) = exportAbort (countAccess s 14 0 0) t := if_pos ⟨hr, ht⟩
    refine ⟨_, congrArg Host.Outcome.next hcmd, ?_⟩
    have habort : exportAbort (countAccess s 14 0 0) t = exportFail ((countAccess s 14 0 0).atTime t) :=
      if_pos (show exportState (countAccess s 14 0 0) = 1 ∨ exportState (countAccess s 14 0 0) = 2 by rw [hstate]; exact hst)
    obtain ⟨h1, h2, h3, h4, h5, -⟩ := exportFail_takes (s := (countAccess s 14 0 0).atTime t) hxd hpin
    rw [habort]
    rw [show ((countAccess s 14 0 0).atTime t).getF Reg.EXPORT_REQ_DOMAIN 0 0 = id from hid] at h3
    exact ⟨h1, ⟨h2, h3⟩, h4, h5.trans hcs.dram⟩
  · exact ⟨_, rfl, exportDone_takes hst hfr hjob hue ht hd hsize hpin⟩
  · exact ⟨_, rfl, peerDone_takes hst⟩
  · exact congrArg Host.Outcome.next (pinExpired_early hjob ht)
  · obtain ⟨⟨h1, h2, h3, h4, h5⟩, h6, h7⟩ := pinExpired_takes hst hjob ht hd hpin
    exact ⟨_, rfl, h1, ⟨h2, h3⟩, h4, h5, h6, h7⟩

end Sys2Proof.Machine
end

section
namespace Sys2Proof.Machine

set_option Elab.async false

/-! O30: host ports and the window. -/

section
variable {s u : State}

/-- A record of an error touches its page's error and interrupt fields only. -/
theorem getF_recordErr_ne (s : State) (ty pg inst code i0 i1 : Nat) {f : Fld} {i : Nat}
    (h : f.bitOnPage i % 0x8000 ∉ [0x80, 0xE0, 0x100, 0x120]) (inst' : Nat) : (s.recordErr ty pg inst code i0 i1).getF f inst' i = s.getF f inst' i := by
  have hne (n : Nat) (hn : n ∈ [0x80, 0xE0, 0x100, 0x120]) : n % 0x8000 ≠ f.bitOnPage i % 0x8000 := by
    rintro heq
    rw [← heq] at h
    simp only [List.mem_cons, List.not_mem_nil, or_false] at hn
    rcases hn with rfl | rfl | rfl | rfl <;> exact h (by decide)
  unfold State.recordErr
  split
  · rfl
  · rw [getF_raise_ne _ (Fld.key_ne_of_bitOnPage (by rw [bitOnPage_intStatus]; exact hne _ (by decide)) _ _),
      State.getF_setF_ne _ _ (Fld.key_ne_of_bitOnPage (by rw [bitOnPage_errInfo1]; exact hne _ (by decide)) _ _),
      State.getF_setF_ne _ _ (Fld.key_ne_of_bitOnPage (by rw [bitOnPage_errInfo0]; exact hne _ (by decide)) _ _),
      State.getF_setF_ne _ _ (Fld.key_ne_of_bitOnPage (by rw [bitOnPage_errCode]; exact hne _ (by decide)) _ _)]

theorem recordErr_same (s : State) (ty pg inst code i0 i1 : Nat) :
    s.recordErr ty pg inst code i0 i1 = { s with regs := (s.recordErr ty pg inst code i0 i1).regs } := by
  unfold State.recordErr
  split <;> rfl

/-- Another bit raised leaves an interrupt bit as it was. -/
theorem bit_raise_ne (s : State) (ty pg inst : Nat) {b k : Nat} (h : b ≠ k) (hb : b < 32) :
    bit ((s.raise ty pg inst k).getF (Hdr.INT_STATUS ty pg) inst 0) b = bit (s.getF (Hdr.INT_STATUS ty pg) inst 0) b := by
  unfold State.raise
  rw [State.getF_setF_same, bit_eq_testBit, bit_eq_testBit, show (Hdr.INT_STATUS ty pg).width = 32 from rfl, Nat.testBit_mod_two_pow,
    Nat.testBit_or, Nat.testBit_two_pow_of_ne h.symm]
  simp [hb]

/-! Roles. -/

theorem hostPort_cases (p : Fin 2) : p = 0 ∨ p = 1 := by decide +revert

theorem otherPort_ne (p : Fin 2) : otherPort p ≠ p := by decide +revert

theorem otherPort_otherPort (p : Fin 2) : otherPort (otherPort p) = p := by decide +revert

theorem hpRole_key_ne {p r : Fin 2} (h : r ≠ p) : Reg.HP_ROLE.key p 0 ≠ Reg.HP_ROLE.key r 0 := by decide +revert

/-- What a role of a port is written to, and what that leaves as it was. -/
structure RoleSet (s : State) (p : Fin 2) (v : Nat) (u : State) : Prop where
  role : hpRole u p = v
  other : ∀ r, r ≠ p → hpRole u r = hpRole s r
  regs : ∀ (f : Fld) (inst i : Nat), f.bitOnPage i % 0x8000 ∉ [0x80, 0x800] → u.getF f inst i = s.getF f inst i
  fault : ∀ q : Fin 2, bit (u.getF (Hdr.INT_STATUS 10 0) q 0) 0 = bit (s.getF (Hdr.INT_STATUS 10 0) q 0) 0
  same : u = { s with regs := u.regs }

theorem intStatus_key_ne {p q : Fin 2} (h : q ≠ p) : (Hdr.INT_STATUS 10 0).key p 0 ≠ (Hdr.INT_STATUS 10 0).key q 0 := by decide +revert

theorem setRole_takes (s : State) (p : Fin 2) {v : Nat} (hv : v < 4) : RoleSet s p v (setRole s p v) := by
  have hset : RoleSet s p v (s.setF Reg.HP_ROLE p 0 v) := by
    refine ⟨(State.getF_setF_same ..).trans (Nat.mod_eq_of_lt hv), fun r hr => State.getF_setF_ne s v (hpRole_key_ne hr), fun f inst i hf =>
      State.getF_setF_ne s v (Fld.key_ne_of_bitOnPage ?_ _ _), fun q => ?_, rfl⟩
    · rintro heq
      rw [← heq] at hf
      exact hf (by decide)
    · rw [State.getF_setF_ne s v (Fld.key_ne_of_bitOnPage (by decide) _ _)]
  unfold setRole
  dsimp only
  split
  · generalize s.setF Reg.HP_ROLE p 0 v = w at hset
    obtain ⟨hrole, hother, hregs, hfault, hsame⟩ := hset
    have hget (f : Fld) (inst i : Nat) (h : f.bitOnPage i % 0x8000 ≠ 0x80) : (w.raise 10 0 p 1).getF f inst i = w.getF f inst i :=
      getF_raise_ne w (Fld.key_ne_of_bitOnPage (by rw [bitOnPage_intStatus]; exact h.symm) _ _)
    refine ⟨(hget _ _ _ (by decide)).trans hrole, fun r hr => (hget _ _ _ (by decide)).trans (hother r hr), fun f inst i hf =>
      (hget _ _ _ (fun h => hf (by rw [h]; decide))).trans (hregs f inst i hf), fun q => ?_, ?_⟩
    · rw [← hfault q]
      by_cases h : q = p
      · subst h
        exact bit_raise_ne w 10 0 q (by decide) (by decide)
      · rw [getF_raise_ne w (intStatus_key_ne h)]
    · rw [show w.raise 10 0 p 1 = { w with regs := (w.raise 10 0 p 1).regs } from rfl, hsame]
  · exact hset

/-- Only the fields of a failover, its record and the roles, differ. -/
theorem failover_takes {q : Fin 2} (hq : hpRole s q = 1) (hp : hpRole s (otherPort q) = 2) :
    let u := failover s q
    hpRole u q = 2 ∧ hpRole u (otherPort q) = (if (s.hostLink (otherPort q)).trained then 1 else 0) ∧
      u.getF Reg.HP_FAILOVERS q 0 = min (s.getF Reg.HP_FAILOVERS q 0 + 1) (2 ^ 32 - 1) ∧
      (bit (s.getF (Hdr.INT_STATUS 10 0) q 0) 0 = false → u.getF (Hdr.ERR_CODE 10 0) q 0 = 0x0422) ∧
      u.getF (Hdr.ENABLE 10) (otherPort q) 0 = s.getF (Hdr.ENABLE 10) (otherPort q) 0 ∧ u.power = s.power := by
  have hno : ¬(hpRole s q ≠ 1 ∨ hpRole s (otherPort q) ≠ 2) := by simp [hq, hp]
  have hlt : (if (s.hostLink (otherPort q)).trained = true then 1 else 0) < 4 := by split <;> decide
  obtain ⟨h1role, -, h1regs, h1fault, h1same⟩ := setRole_takes s (otherPort q) hlt
  simp only [failover, if_neg hno]
  generalize setRole s (otherPort q) (if (s.hostLink (otherPort q)).trained = true then 1 else 0) = v at h1role h1regs h1fault h1same ⊢
  have hwregs (f : Fld) (inst i : Nat) := getF_of_regs (s := v)
    (u := v.setHostLink (otherPort q) { v.hostLink (otherPort q) with downSince := none }) rfl f inst i
  have hwpower : (v.setHostLink (otherPort q) { v.hostLink (otherPort q) with downSince := none }).power = s.power := by
    rw [h1same]
    rfl
  generalize v.setHostLink (otherPort q) { v.hostLink (otherPort q) with downSince := none } = w at hwregs hwpower ⊢
  obtain ⟨h2role, h2other, h2regs, h2fault, h2same⟩ := setRole_takes w q (v := 2) (by decide)
  have hxpower : (setRole w q 2).power = s.power := by
    rw [h2same]
    exact hwpower
  generalize setRole w q 2 = x at h2role h2other h2regs h2fault hxpower ⊢
  have hcount (f : Fld) (hf : f.bitOnPage 0 % 0x8000 ≠ 0x840) (r : Fin 2) : (x.countF Reg.HP_FAILOVERS q 0 1).getF f r 0 = x.getF f r 0 :=
    State.getF_countF_ne x 1 (Fld.key_ne_of_bitOnPage (f := Reg.HP_FAILOVERS) (g := f) (i := 0) (k := 0) hf.symm _ _)
  have hend (f : Fld) (hf : f.bitOnPage 0 % 0x8000 ∉ [0x80, 0xE0, 0x100, 0x120]) (r : Fin 2) :=
    getF_recordErr_ne (x.countF Reg.HP_FAILOVERS q 0 1) 10 0 q 0x0422 q 0 hf r
  refine ⟨(hend _ (by decide) q).trans ((hcount _ (by decide) q).trans h2role), ?_, ?_, fun hclear => ?_, ?_, ?_⟩
  · refine (hend _ (by decide) _).trans ((hcount _ (by decide) _).trans ((h2other _ (otherPort_ne q)).trans ?_))
    exact (hwregs ..).trans h1role
  · rw [hend _ (by decide), State.getF_countF_same, h2regs _ _ _ (by decide), hwregs, h1regs _ _ _ (by decide)]
    rfl
  · have hbit : bit ((x.countF Reg.HP_FAILOVERS q 0 1).getF (Hdr.INT_STATUS 10 0) q 0) 0 = false := by
      rw [hcount _ (by decide), h2fault, hwregs, h1fault, hclear]
    exact (recordErr_fields hbit 0x0422 q 0).1
  · rw [hend _ (by simp), hcount _ (by simp), h2regs _ _ _ (by simp), hwregs, h1regs _ _ _ (by simp)]
  · rw [recordErr_same]
    exact hxpower

/-- A port's link trains: its link, its rate and its width. -/
def linkTrained (s : State) (p : Fin 2) (gt64 x8 : Bool) : State :=
  ((s.setHostLink p { trained := true, downSince := none }).setF Reg.HP_RATE p 0 (1 + b2n gt64)).setF Reg.HP_WIDTH p 0 (1 + b2n x8)

/-- The roles after a link trained. -/
def trainedRoles (s : State) (p : Fin 2) : State :=
  let s := settleRoles s p
  if p = 0 ∧ hpRole s 0 = 2 ∧ (s.hostLink 1).trained ∧ hpRole s 1 ≠ 2 then setRole s 1 1 else s

/-- The port that trains gets its role, ACTIVE unless the other one is, and no other register is touched. -/
theorem settleRoles_takes {p : Fin 2} (hha : s.power.haFrom = none) (hp : hpRole s p ≠ 2) :
    ∃ w, w.regs = s.regs ∧ w.hostLinks = s.hostLinks ∧ w.now = s.now ∧
      settleRoles s p = setRole w p (if hpRole s (otherPort p) = 2 then 1 else 2) := by
  unfold settleRoles
  rcases hostPort_cases p with rfl | rfl
  · have hother : otherPort 0 = 1 := rfl
    rw [hother, if_neg hp]
    by_cases h : hpRole s 1 = 2
    · exact ⟨s, rfl, rfl, rfl, by rw [if_pos (Or.inr h), if_pos h]⟩
    · exact ⟨{ s with power := { s.power with haFrom := none } }, rfl, rfl, rfl, by rw [if_neg (not_or.mpr ⟨hp, h⟩), if_neg h, if_pos rfl]⟩
  · have hother : otherPort 1 = 0 := rfl
    rw [hother, if_neg hp]
    by_cases h : hpRole s 0 = 2
    · exact ⟨s, rfl, rfl, rfl, by rw [if_pos (Or.inl h), if_pos h]⟩
    · exact ⟨s, rfl, rfl, rfl, by rw [if_neg (not_or.mpr ⟨h, hp⟩), if_neg h, if_neg (by decide), if_neg (by simp [hha])]⟩

theorem trainedRoles_takes {p : Fin 2} (hha : s.power.haFrom = none) (hp : hpRole s p ≠ 2) :
    let u := trainedRoles s p
    hpRole u p = (if hpRole s (otherPort p) = 2 then 1 else 2) ∧ (hpRole s (otherPort p) = 2 → hpRole u (otherPort p) = 2) ∧
      u.hostLinks = s.hostLinks ∧ u.now = s.now ∧
      ∀ (f : Fld) (inst i : Nat), f.bitOnPage i % 0x8000 ∉ [0x80, 0x800] → u.getF f inst i = s.getF f inst i := by
  obtain ⟨w, hwregs, hwlinks, hwnow, hsettle⟩ := settleRoles_takes hha hp
  obtain ⟨hrole, hother, hregs, -, hsame⟩ := setRole_takes w p (v := if hpRole s (otherPort p) = 2 then 1 else 2) (by split <;> decide)
  simp only [trainedRoles, hsettle]
  generalize setRole w p (if hpRole s (otherPort p) = 2 then 1 else 2) = v at hrole hother hregs hsame ⊢
  have hvlinks : v.hostLinks = s.hostLinks := by
    rw [hsame]
    exact hwlinks
  have hvnow : v.now = s.now := by
    rw [hsame]
    exact hwnow
  have hvo : hpRole v (otherPort p) = hpRole s (otherPort p) := (hother _ (otherPort_ne p)).trans (getF_of_regs hwregs ..)
  have hvregs (f : Fld) (inst i : Nat) (hf : f.bitOnPage i % 0x8000 ∉ [0x80, 0x800]) : v.getF f inst i = s.getF f inst i :=
    (hregs f inst i hf).trans (getF_of_regs hwregs ..)
  split
  · rename_i hif
    obtain ⟨rfl, -, -, hne⟩ := hif
    obtain ⟨-, h2other, h2regs, -, h2same⟩ := setRole_takes v 1 (v := 1) (by decide)
    have h1 : hpRole s (otherPort 0) ≠ 2 := fun h => hne (hvo.trans h)
    exact ⟨(h2other 0 (by decide)).trans hrole, fun h => absurd h h1, by rw [h2same]; exact hvlinks, by rw [h2same]; exact hvnow,
      fun f inst i hf => (h2regs f inst i hf).trans (hvregs f inst i hf)⟩
  · exact ⟨hrole, fun h => hvo.trans h, hvlinks, hvnow, hvregs⟩

/-! Links. -/

theorem linkTrained_takes (s : State) (p : Fin 2) (gt64 x8 : Bool) :
    let u := linkTrained s p gt64 x8
    u.hostLink p = { trained := true, downSince := none } ∧ u.getF Reg.HP_RATE p 0 = 1 + b2n gt64 ∧ u.getF Reg.HP_WIDTH p 0 = 1 + b2n x8 ∧
      u.now = s.now ∧ u.power = s.power ∧ ∀ r, hpRole u r = hpRole s r := by
  have hlink : (linkTrained s p gt64 x8).hostLink p = { trained := true, downSince := none } := Vector.getElem_set_self ..
  have hb (b : Bool) : (1 + b2n b) % 2 ^ 2 = 1 + b2n b := by cases b <;> rfl
  have hrole (r : Fin 2) : hpRole (linkTrained s p gt64 x8) r = hpRole s r :=
    (State.getF_setF_ne _ _ (Fld.key_ne_of_bitOnPage (by decide) _ _)).trans
      ((State.getF_setF_ne _ _ (Fld.key_ne_of_bitOnPage (by decide) _ _)).trans (getF_of_regs rfl ..))
  refine ⟨hlink, ?_, (State.getF_setF_same ..).trans (hb x8), rfl, rfl, hrole⟩
  exact (State.getF_setF_ne _ _ (Fld.key_ne_of_bitOnPage (by decide) _ _)).trans ((State.getF_setF_same ..).trans (hb gt64))

/-- A link that trains: a failover that is due comes first. -/
theorem hostLinkUp_trains {p : Fin 2} {gt64 x8 : Bool} {t : Nat}
    (hen : (failoverDelay (haTimeout (s.atTime t) t) (t - 1)).getF (Hdr.ENABLE 10) p 0 ≠ 0) :
    hostLinkUp s p gt64 x8 true t = trainedRoles (linkTrained (failoverDelay (haTimeout (s.atTime t) t) (t - 1)) p gt64 x8) p := by
  unfold hostLinkUp
  dsimp only
  rw [if_neg hen]
  rfl

theorem haTimeout_off (h : s.power.haFrom = none) (t : Nat) : haTimeout s t = s := by
  simp only [haTimeout, h]

/-- A FAILOVER_DELAY as the ports count it, in ms. -/
def failoverMs (f : Nat) : Nat := if f < 10 ∨ 10000 < f then 100 else f

theorem failoverMs_ge (f : Nat) : 10 ≤ failoverMs f := by
  unfold failoverMs
  split <;> omega

/-- No link has been down for long enough. -/
theorem failoverDelay_soon {t : Nat} (h : ∀ r d, (s.hostLink r).downSince = some d → t ≤ d + 10000000) : failoverDelay s (t - 1) = s := by
  unfold failoverDelay
  generalize (if hpRole s 0 = 2 then (0 : Fin 2) else 1) = p
  dsimp only
  split
  · rfl
  · rename_i d hd
    have hms := failoverMs_ge (s.getF Reg.HP_FAILOVER_DELAY p 0)
    unfold failoverMs at hms
    have hle := h p d hd
    simp only [gt_iff_lt]
    rw [if_pos (Or.inr (by omega))]

/-- The delay of HA, which is ACTIVE. -/
theorem failoverDelay_active {t d : Nat} (h0 : hpRole s 0 = 2) (hd : (s.hostLink 0).downSince = some d) :
    failoverDelay s t =
      if t < d + 1000000 * failoverMs (s.getF Reg.HP_FAILOVER_DELAY 0 0) then s else failover (s.atTime t) 1 := by
  have hother : otherPort 0 = 1 := rfl
  unfold failoverDelay
  rw [if_pos h0]
  simp only [hd, h0, ne_eq, not_true_eq_false, false_or, hother]
  rfl

/-- A link that goes down. -/
theorem hostLinkDown_takes {p : Fin 2} {t : Nat} (h : (s.hostLink p).trained = true) :
    let u := hostLinkDown s p t
    u.getF Reg.HP_RATE p 0 = 0 ∧ u.getF Reg.HP_WIDTH p 0 = 0 ∧
      u.getF Reg.HP_LINK_DOWNS p 0 = min (s.getF Reg.HP_LINK_DOWNS p 0 + 1) (2 ^ 32 - 1) ∧ hpRole u p = (if hpRole s p = 2 then 2 else 0) ∧
      u.hostLink p = { trained := false, downSince := if hpRole s p = 2 then some t else none } ∧
      hpRole u (otherPort p) = hpRole s (otherPort p) := by
  have hno : ¬((!((s.atTime t).hostLink p).trained) = true) := by
    rw [show (s.atTime t).hostLink p = s.hostLink p from rfl, h]
    decide
  simp only [hostLinkDown, if_neg hno]
  have hrate : ((((s.atTime t).setF Reg.HP_RATE p 0 0).setF Reg.HP_WIDTH p 0 0).countF Reg.HP_LINK_DOWNS p 0 1).getF Reg.HP_RATE p 0 = 0 := by
    rw [State.getF_countF_ne _ _ (Fld.key_ne_of_bitOnPage (by decide) _ _), State.getF_setF_ne _ _ (Fld.key_ne_of_bitOnPage (by decide) _ _),
      State.getF_setF_same]
    rfl
  have hwidth : ((((s.atTime t).setF Reg.HP_RATE p 0 0).setF Reg.HP_WIDTH p 0 0).countF Reg.HP_LINK_DOWNS p 0 1).getF Reg.HP_WIDTH p 0 = 0 := by
    rw [State.getF_countF_ne _ _ (Fld.key_ne_of_bitOnPage (by decide) _ _), State.getF_setF_same]
    rfl
  have hcount : ((((s.atTime t).setF Reg.HP_RATE p 0 0).setF Reg.HP_WIDTH p 0 0).countF Reg.HP_LINK_DOWNS p 0 1).getF Reg.HP_LINK_DOWNS p 0 =
      min (s.getF Reg.HP_LINK_DOWNS p 0 + 1) (2 ^ 32 - 1) := by
    rw [State.getF_countF_same, State.getF_setF_ne _ _ (Fld.key_ne_of_bitOnPage (by decide) _ _),
      State.getF_setF_ne _ _ (Fld.key_ne_of_bitOnPage (by decide) _ _)]
    rfl
  have hrole (r : Fin 2) : hpRole ((((s.atTime t).setF Reg.HP_RATE p 0 0).setF Reg.HP_WIDTH p 0 0).countF Reg.HP_LINK_DOWNS p 0 1) r = hpRole s r := by
    unfold hpRole
    rw [State.getF_countF_ne _ _ (Fld.key_ne_of_bitOnPage (by decide) _ _), State.getF_setF_ne _ _ (Fld.key_ne_of_bitOnPage (by decide) _ _),
      State.getF_setF_ne _ _ (Fld.key_ne_of_bitOnPage (by decide) _ _)]
    rfl
  generalize (((s.atTime t).setF Reg.HP_RATE p 0 0).setF Reg.HP_WIDTH p 0 0).countF Reg.HP_LINK_DOWNS p 0 1 = v at hrate hwidth hcount hrole ⊢
  rw [hrole]
  have hset (l : HostLink) : (v.setHostLink p l).hostLink p = l := Vector.getElem_set_self ..
  have hget (l : HostLink) (f : Fld) (inst : Nat) : (v.setHostLink p l).getF f inst 0 = v.getF f inst 0 := getF_of_regs rfl ..
  by_cases hact : hpRole s p = 2
  · simp only [hact, if_true]
    exact ⟨(hget ..).trans hrate, (hget ..).trans hwidth, (hget ..).trans hcount, (hget ..).trans ((hrole p).trans hact), hset _, (hget ..).trans (hrole _)⟩
  · simp only [hact, if_false]
    have hlink := hset { trained := false, downSince := none }
    have hwget := hget { trained := false, downSince := none }
    generalize v.setHostLink p { trained := false, downSince := none } = w at hlink hwget ⊢
    obtain ⟨h1, h2, h3, -, h4⟩ := setRole_takes w p (v := 0) (by decide)
    exact ⟨(h3 _ _ _ (by decide)).trans ((hwget ..).trans hrate), (h3 _ _ _ (by decide)).trans ((hwget ..).trans hwidth),
      (h3 _ _ _ (by decide)).trans ((hwget ..).trans hcount), h1, by rw [h4]; exact hlink,
      (h2 _ (otherPort_ne p)).trans ((hwget ..).trans (hrole _))⟩

/-- HA's time to train is over. -/
theorem haTimeout_takes {r t : Nat} (hr : s.power.haFrom = some r) (ht : r + 2000000000 ≤ t) (h0 : hpRole s 0 ≠ 2) (h1 : hpRole s 1 ≠ 2)
    (hlink : (s.hostLink 0).trained = false) :
    let u := haTimeout s t
    u.power.haFrom = none ∧ hpRole u 1 = (if (s.hostLink 1).trained then 2 else hpRole s 1) ∧ hpRole u 0 = hpRole s 0 := by
  have hno : ¬(((s.hostLink 0).trained = true) ∨ hpRole s 0 = 2 ∨ hpRole s 1 = 2) := by simp [hlink, h0, h1]
  simp only [haTimeout, hr, if_neg (Nat.not_lt.mpr ht)]
  generalize hw : { s.atTime t with power := { s.power with haFrom := none } } = w
  have hwrole (p : Fin 2) : hpRole w p = hpRole s p := by
    subst hw
    rfl
  have hwlink (p : Fin 2) : w.hostLink p = s.hostLink p := by
    subst hw
    rfl
  have hwha : w.power.haFrom = none := by
    subst hw
    rfl
  rw [hwlink, hwlink, hwrole, hwrole, if_neg hno]
  split
  · obtain ⟨h2, h3, -, -, h4⟩ := setRole_takes w 1 (v := 2) (by decide)
    exact ⟨by rw [h4]; exact hwha, h2, (h3 0 (by decide)).trans (hwrole 0)⟩
  · exact ⟨hwha, hwrole 1, hwrole 0⟩

/-! The window. -/

theorem windowRead_takes {p : Fin 2} {base size o n : Nat} (hw : s.power.hdm = some (base, size)) (hue : s.dramUe = []) (hce : s.dramCe = [])
    (hsize : base + size ≤ dramSize s) :
    windowRead s p o n = { s with
      reply := if hpRole s p = 2 ∧ o % 64 = 0 ∧ o + 64 * n ≤ size then ⟨Memory.readN s.dram (base + o) (64 * n), 0⟩ else ⟨[], 1⟩ } := by
  simp only [windowRead, hw]
  by_cases h : hpRole s p = 2 ∧ o % 64 = 0 ∧ o + 64 * n ≤ size
  · obtain ⟨h1, h2, h3⟩ := h
    rw [if_neg (by simp only [h1, h2]; omega), if_pos ⟨h1, h2, h3⟩, dramRead_pure hue hce (by omega)]
    rfl
  · have hno : hpRole s p ≠ 2 ∨ o % 64 ≠ 0 ∨ o + 64 * n > size := by omega
    rw [if_pos hno, if_neg h]

theorem windowWrite_takes {p : Fin 2} (hp : hpRole s p = 2) (hw : s.power.hdm.isSome = true) :
    let u := windowWrite s p
    u.getF Reg.HP_WINDOW_WRITE_DROPS p 0 = min (s.getF Reg.HP_WINDOW_WRITE_DROPS p 0 + 1) (2 ^ 32 - 1) ∧ u.dram = s.dram ∧ u.reply = ⟨[], 0⟩ := by
  have hno : ¬(hpRole s p ≠ 2 ∨ s.power.hdm.isNone = true) := by simp [hp, Option.isNone_iff_eq_none, Option.isSome_iff_ne_none.mp hw]
  simp only [windowWrite, if_neg hno]
  exact ⟨(getF_of_regs rfl ..).trans (State.getF_countF_same s Reg.HP_WINDOW_WRITE_DROPS p 0 1), rfl, trivial⟩

end

/-- Settles O30, command by command: each part is the lemma about the port's event. -/
theorem hostPortsAndWindow : Obligations.HostPortsAndWindow := by
  unfold Obligations.HostPortsAndWindow
  intro s p t q role counts soon
  refine ⟨fun gt64 x8 hha hen hp hsoon => ?_, fun gt64 x8 hha hen hclear hsoon => ?_, fun htr => ⟨_, rfl, hostLinkDown_takes htr⟩,
    fun r hr => ⟨fun ht => ?_, fun ht h0 h1 hl => ⟨_, rfl, haTimeout_takes hr ht h0 h1 hl⟩⟩, fun hp hq => ?_, fun d h0 hd => ?_,
    fun base size o n hw hue hce hsize => congrArg Host.Outcome.next (windowRead_takes hw hue hce hsize),
    fun hp hw => ⟨_, rfl, windowWrite_takes hp hw⟩, ?_⟩
  · have hquiet : failoverDelay (haTimeout (s.atTime t) t) (t - 1) = s.atTime t := by
      rw [haTimeout_off (s := s.atTime t) hha]
      exact failoverDelay_soon hsoon
    have hup := hostLinkUp_trains (s := s) (p := p) (gt64 := gt64) (x8 := x8) (t := t) (by rw [hquiet]; exact hen)
    rw [hquiet] at hup
    refine ⟨_, congrArg Host.Outcome.next hup, ?_⟩
    obtain ⟨hlink, hrate, hwidth, hnow, hpower, hrole⟩ := linkTrained_takes (s.atTime t) p gt64 x8
    generalize linkTrained (s.atTime t) p gt64 x8 = v at hlink hrate hwidth hnow hpower hrole ⊢
    obtain ⟨h1, -, h3, h4, h5⟩ := trainedRoles_takes (s := v) (p := p) (by rw [hpower]; exact hha) (by rw [hrole]; exact hp)
    rw [hrole] at h1
    refine ⟨?_, (h5 _ _ _ (by decide)).trans hrate, (h5 _ _ _ (by decide)).trans hwidth, h4.trans hnow, h1⟩
    unfold State.hostLink at hlink ⊢
    rw [h3]
    exact hlink
  · have hquiet : failoverDelay (haTimeout (s.atTime t) t) (t - 1) = s.atTime t := by
      rw [haTimeout_off (s := s.atTime t) hha]
      exact failoverDelay_soon hsoon
    have hup : hostLinkUp s p gt64 x8 false t = (s.atTime t).recordErr 10 0 p 0x0421 p 0 := by
      unfold hostLinkUp
      rw [hquiet]
      exact (if_neg hen).trans (if_pos rfl)
    refine ⟨_, congrArg Host.Outcome.next hup, ?_⟩
    have hclear' : bit ((s.atTime t).getF (Hdr.INT_STATUS 10 0) p 0) 0 = false := hclear
    exact ⟨(recordErr_fields hclear' 0x0421 p 0).1, State.recordErr_hostLinks .., getF_recordErr_ne (s.atTime t) 10 0 p 0x0421 p 0 (by decide) p⟩
  · simp only [exec, execHaTrainingTimeout, haTimeout, hr, if_pos ht]
  · obtain ⟨h1, h2, h3, h4, -⟩ := failover_takes (s := s.atTime t) hp hq
    exact ⟨_, rfl, h1, h2, h3, h4⟩
  · have hother : otherPort 1 = 0 := rfl
    refine ⟨fun ht => ?_, fun gt64 x8 ht h1 hha hen => ?_, fun ht h1 => ?_⟩
    · exact congrArg Host.Outcome.next ((failoverDelay_active h0 hd).trans (if_pos ht))
    · obtain ⟨hr1, hr0, -, -, hen', hpow'⟩ := failover_takes (s := (s.atTime t).atTime (t - 1)) (q := 1) h1 h0
      have hdue : ¬t - 1 < d + 1000000 * failoverMs (s.getF Reg.HP_FAILOVER_DELAY 0 0) := by
        change d + 1000000 * failoverMs (s.getF Reg.HP_FAILOVER_DELAY 0 0) < t at ht
        omega
      have hfail : failoverDelay (haTimeout (s.atTime t) t) (t - 1) = failover ((s.atTime t).atTime (t - 1)) 1 := by
        rw [haTimeout_off (s := s.atTime t) hha]
        exact (failoverDelay_active (s := s.atTime t) h0 hd).trans (if_neg hdue)
      have hup := hostLinkUp_trains (s := s) (p := 0) (gt64 := gt64) (x8 := x8) (t := t) (by rw [hfail, hother] at *; exact fun e => hen (hen'.symm.trans e))
      rw [hfail] at hup
      refine ⟨_, congrArg Host.Outcome.next hup, ?_⟩
      rw [hother] at hr0
      generalize failover ((s.atTime t).atTime (t - 1)) 1 = v at hr1 hr0 hpow' ⊢
      obtain ⟨-, -, -, -, hpower, hrole⟩ := linkTrained_takes v 0 gt64 x8
      generalize linkTrained v 0 gt64 x8 = w at hpower hrole ⊢
      have hno : hpRole w 0 ≠ 2 := by
        rw [hrole, hr0]
        split <;> decide
      obtain ⟨h2, h3, -⟩ := trainedRoles_takes (s := w) (p := 0) (by rw [hpower, hpow']; exact hha) hno
      have hact : hpRole w (otherPort 0) = 2 := (hrole 1).trans hr1
      rw [if_pos hact] at h2
      exact ⟨h3 hact, h2⟩
    · obtain ⟨hr1, hr0, hcount, -⟩ := failover_takes (s := s.atTime t) (q := 1) h1 h0
      exact ⟨_, congrArg Host.Outcome.next ((failoverDelay_active h0 hd).trans (if_neg (Nat.not_lt.mpr ht))), hr1, hr0, hcount⟩
  · show Host.Outcome.next (snoop s p) = _
    unfold snoop
    by_cases h : hpRole s p = 2
    · rw [if_neg (not_not_intro h), if_pos (show role s p = 2 from h)]
    · rw [if_pos h, if_neg (show ¬role s p = 2 from h)]

end Sys2Proof.Machine
end

section
namespace Sys2Proof.Machine

set_option Elab.async false

/-! O31: Kamduelm ports that train, fail and replay. -/

section
variable {s u : State} {p : Fin 8}

theorem State.port_setPort_same (s : State) (p : Fin 8) (x : Port) : (s.setPort p x).port p = x := Vector.getElem_set_self ..

theorem State.port_setPort_ne (s : State) {p r : Fin 8} (x : Port) (h : r ≠ p) : (s.setPort p x).port r = s.port r :=
  Vector.getElem_set_ne (hi := p.isLt) (hj := r.isLt) (fun heq => h (Fin.ext heq.symm))

theorem State.port_modPort_same (s : State) (p : Fin 8) (f : Port → Port) : (s.modPort p f).port p = f (s.port p) := State.port_setPort_same ..

theorem State.port_modPort_ne (s : State) {p r : Fin 8} (f : Port → Port) (h : r ≠ p) : (s.modPort p f).port r = s.port r :=
  State.port_setPort_ne s _ h

theorem State.port_of_ports (h : u.ports = s.ports) (r : Fin 8) : u.port r = s.port r := by
  unfold State.port
  rw [h]

/-- What the state of a port is written to, and what that leaves as it was. -/
structure PortSet (s : State) (p : Fin 8) (v : Nat) (u : State) : Prop where
  state : portState u p = v
  port : u.port p = { s.port p with since := if v = 3 then (s.port p).since else s.now }
  other : ∀ r, r ≠ p → u.port r = s.port r
  regs : ∀ (f : Fld) (inst i : Nat), f.bitOnPage i % 0x8000 ∉ [0x80, 0x800] → u.getF f inst i = s.getF f inst i
  same : u = { s with regs := u.regs, ports := u.ports }

theorem setPortState_takes (s : State) (p : Fin 8) {v : Nat} (hv : v < 8) : PortSet s p v (setPortState s p v) := by
  have hset : PortSet s p v ((s.setF Reg.KML_STATE p 0 v).modPort p (fun x => { x with since := if v = 3 then x.since else s.now })) := by
    refine ⟨(getF_of_regs rfl ..).trans ((State.getF_setF_same ..).trans (Nat.mod_eq_of_lt hv)), State.port_modPort_same .., fun r hr =>
      State.port_modPort_ne _ _ hr, fun f inst i hf => (getF_of_regs rfl ..).trans (State.getF_setF_ne s v
        (Fld.key_ne_of_bitOnPage (f := Reg.KML_STATE) (i := 0) ?_ p inst)), rfl⟩
    rintro heq
    rw [← heq] at hf
    exact hf (by decide)
  unfold setPortState
  dsimp only
  split
  · change PortSet s p v
      (((s.setF Reg.KML_STATE p 0 v).modPort p (fun x => { x with since := if v = 3 then x.since else s.now })).raise 4 0 p 1)
    generalize (s.setF Reg.KML_STATE p 0 v).modPort p (fun x => { x with since := if v = 3 then x.since else s.now }) = w at hset ⊢
    obtain ⟨hstate, hport, hother, hregs, hsame⟩ := hset
    have hget (f : Fld) (inst i : Nat) (h : f.bitOnPage i % 0x8000 ≠ 0x80) : (w.raise 4 0 p 1).getF f inst i = w.getF f inst i :=
      getF_raise_ne w (Fld.key_ne_of_bitOnPage (by rw [bitOnPage_intStatus]; exact h.symm) _ _)
    refine ⟨(hget _ _ _ (by decide)).trans hstate, hport, hother, fun f inst i hf =>
      (hget _ _ _ (fun h => hf (by rw [h]; decide))).trans (hregs f inst i hf), ?_⟩
    rw [show w.raise 4 0 p 1 = { w with regs := (w.raise 4 0 p 1).regs } from rfl, hsame]
  · exact hset

/-- A port as a failure leaves it. -/
def failedPort (x : Port) (wasUp : Bool) (now : Nat) : Port :=
  { x with
    backoff := if (wasUp && decide (x.since + 60000000000 ≤ now)) = true ∨ x.backoff = 0 then 1 else min 64 (2 * x.backoff)
    txSeq := 0
    rxSeq := 0
    replay := []
    waiting := []
    credits := List.replicate 9 0
    lastReplay := none
    replays := 0
    nakSent := false
    badAt := []
    identSent := []
    identGot := [] }

/-- A port that fails, when it was not UP. -/
theorem portFail_down (hup : portState s p ≠ 4) {code : Nat} (hcode : code < 65536) :
    let u := portFail s p code
    portState u p = 5 ∧ (u.port p).since = s.now ∧ (u.port p).replay = [] ∧ (u.port p).waiting = [] ∧
      (u.port p).backoff = (if (s.port p).backoff = 0 then 1 else min 64 (2 * (s.port p).backoff)) ∧
      (bit (s.getF (Hdr.INT_STATUS 4 0) p 0) 0 = false → u.getF (Hdr.ERR_CODE 4 0) p 0 = code) ∧ ∀ r, r ≠ p → u.port r = s.port r := by
  have hdown : portUp s p = false := by simpa [portUp] using hup
  simp only [portFail, hdown, Bool.false_and, Bool.false_eq_true, false_or, if_false]
  have herr (h : bit (s.getF (Hdr.INT_STATUS 4 0) p 0) 0 = false) :
      (s.recordErr 4 0 p code p (s.getF Reg.KML_PEER_MEMBER p 0)).getF (Hdr.ERR_CODE 4 0) p 0 = code :=
    (recordErr_fields h code p _).1.trans (Nat.mod_eq_of_lt hcode)
  have hports (r : Fin 8) := State.port_of_ports (State.recordErr_ports (s := s) 4 0 p code p (s.getF Reg.KML_PEER_MEMBER p 0)) r
  have hnow := State.recordErr_now (s := s) 4 0 p code p (s.getF Reg.KML_PEER_MEMBER p 0)
  generalize s.recordErr 4 0 p code p (s.getF Reg.KML_PEER_MEMBER p 0) = v at herr hports hnow ⊢
  have hset (x : Port) : PortSet (v.setPort p x) p 5 (setPortState (v.setPort p x) p 5) := setPortState_takes _ p (by decide)
  obtain ⟨hstate, hport, hother, hregs, -⟩ := hset _
  refine ⟨hstate, ?_, ?_, ?_, ?_, fun h => (hregs _ _ _ (by decide)).trans ((getF_of_regs rfl ..).trans (herr h)), fun r hr =>
    (hother r hr).trans ((State.port_setPort_ne v _ hr).trans (hports r))⟩
  · rw [hport]
    exact hnow
  · rw [hport, State.port_setPort_same]
  · rw [hport, State.port_setPort_same]
  · rw [hport, State.port_setPort_same]

/-! Sending. -/

theorem pumpPort_idle (n : Nat) (h : (s.port p).waiting = []) : pumpPort n s p = s := by
  cases n with
  | zero => rfl
  | succ n =>
    have hnext : nextFrame (s.port p) = none := by simp [nextFrame, h]
    simp only [pumpPort, hnext, Option.filter_none]

/-- A LINK frame that is alone goes first. -/
theorem nextFrame_link {x : Port} {f : Frame} (h : x.waiting = [f]) (hf : f.tc = 7) : nextFrame x = some f := by
  simp [nextFrame, h, hasCredits, hf]

/-- A port whose one waiting frame, a LINK frame, is taken to be sent. -/
def linkTaken (x : Port) : Port := { x with waiting := [], redBytes := 0, bulkBytes := 0 }

theorem pumpPort_link {n : Nat} {f : Frame} (h : (s.port p).waiting = [f]) (hf : f.tc = 7) (hroom : replayRoom (s.port p) f = true) :
    pumpPort (n + 1) s p = pumpPort n (emitFrame (s.setPort p (linkTaken (s.port p))) p f) p := by
  have hnext : (nextFrame (s.port p)).filter (replayRoom (s.port p)) = some f := by simp [nextFrame_link h hf, hroom]
  have htaken : { s.port p with
      waiting := ([] : List Frame)
      credits := (s.port p).credits
      redBytes := 0
      bulkBytes := 0 } = linkTaken (s.port p) := rfl
  simp only [pumpPort, hnext]
  simp [h, hf, eraseFrame, htaken]

theorem emitFrame_takes (s : State) (p : Fin 8) (f : Frame) :
    let u := emitFrame s p f
    (∃ d, u.sent = s.sent ++ [.frame p d]) ∧ u.regs = s.regs ∧ u.free = s.free ∧ (u.port p).waiting = (s.port p).waiting ∧
      (u.port p).since = (s.port p).since ∧ (u.port p).identSent = (s.port p).identSent ∧
      (u.port p).txSeq = ((s.port p).txSeq + 1) % 65536 := by
  refine ⟨⟨_, rfl⟩, rfl, rfl, ?_, ?_, ?_, ?_⟩ <;> simp only [emitFrame, State.send, State.port, State.setPort, Fin.getElem_fin, Vector.getElem_set_self]

theorem length_frameBytes (h : FrameHead) (payload : List Byte) : (frameBytes h payload).length = 24 + 64 * h.lines := by
  simp [frameBytes, zeros, length_toLe]
  omega

/-- A LINK frame of a port that has nothing else to send is sent at once. -/
theorem sendFrame_link {h : FrameHead} {payload : List Byte} (htc : h.tc = 7) (hl : h.lines ≤ 258) (hw : (s.port p).waiting = [])
    (hr : (s.port p).replay = []) :
    let u := sendFrame s p h payload
    (∃ d, u.sent = s.sent ++ [.frame p d]) ∧ u.regs = s.regs ∧ u.free = s.free ∧ (u.port p).since = (s.port p).since ∧
      (u.port p).identSent = (s.port p).identSent ∧ (u.port p).txSeq = ((s.port p).txSeq + 1) % 65536 := by
  generalize hf : ({ tc := h.tc, vl := h.vl, fseq := 0, lines := h.lines, data := frameBytes h payload } : Frame) = f
  have hsend : sendFrame s p h payload = pumpPort (1023 + 1) (s.modPort p (fun x => { x with waiting := x.waiting ++ [f] })) p := by
    rw [← hf]
    rfl
  generalize hv : s.modPort p (fun x => { x with waiting := x.waiting ++ [f] }) = v at hsend
  have hvport : v.port p = { s.port p with waiting := [f] } := by
    rw [← hv, State.port_modPort_same, hw]
    rfl
  have hvsame : v = { s with ports := v.ports } := by
    rw [← hv]
    rfl
  have hroom : replayRoom (v.port p) f = true := by
    rw [hvport, ← hf]
    simp only [replayRoom, hr, List.foldl_nil, length_frameBytes, decide_eq_true_eq]
    omega
  dsimp only
  rw [hsend, pumpPort_link (by rw [hvport]) (by rw [← hf]; exact htc) hroom]
  obtain ⟨⟨d, hsent⟩, hregs, hfree, hwait, hsince, hident, hseq⟩ := emitFrame_takes (v.setPort p (linkTaken (v.port p))) p f
  rw [State.port_setPort_same] at hwait hsince hident hseq
  rw [pumpPort_idle 1023 hwait]
  generalize emitFrame (v.setPort p (linkTaken (v.port p))) p f = w at hsent hregs hfree hsince hident hseq ⊢
  rw [hvport] at hsince hident hseq
  refine ⟨⟨d, hsent.trans ?_⟩, hregs.trans ?_, hfree.trans ?_, hsince, hident, hseq⟩
  · rw [hvsame]
    rfl
  · rw [hvsame]
    rfl
  · rw [hvsame]
    rfl

/-- What an IDENT says of this device. -/
theorem identBytes_congr (hregs : ∀ f ∈ [Reg.SEC_MEMBER, Reg.CONFIG_BOOT_COUNT, Reg.MBX_RUNTIME_ID], u.getF f 0 0 = s.getF f 0 0)
    (hfuses : u.fuses = s.fuses) (hflash : u.flash = s.flash) (hfree : u.free = s.free) (p : Fin 8) : identBytes u p = identBytes s p := by
  have hlc : lcState u = lcState s := by simp only [lcState, hfuses]
  have hkey : ownerKey u = ownerKey s := by
    funext k
    simp only [ownerKey, secArea, hflash]
  have htag : ownerTag u = ownerTag s := by simp only [ownerTag, hlc, hkey]
  simp only [identBytes, ownMember, hfuses, hlc, htag, hfree, hregs Reg.SEC_MEMBER (by decide), hregs Reg.CONFIG_BOOT_COUNT (by decide),
    hregs Reg.MBX_RUNTIME_ID (by decide)]

/-- A port that locks in time identifies itself. -/
theorem linkLock_takes {t : Nat} (hst : portState s p = 1) (ht : t ≤ (s.port p).since + 500000000) (hc : s.power.cages[p] = true)
    (hw : (s.port p).waiting = []) (hr : (s.port p).replay = []) :
    let u := linkLock s p t
    portState u p = 2 ∧ (u.port p).since = max s.now t ∧ (u.port p).identSent = identBytes s p ∧ u.free = s.free + 1 ∧
      (∃ d, u.sent = s.sent ++ [.frame p d]) ∧ (u.port p).txSeq = ((s.port p).txSeq + 1) % 65536 := by
  have hno : ¬(portState s p ≠ 1 ∨ t > (s.port p).since + 500000000 ∨ (!s.power.cages[p]) = true) := by simp [hst, ht, hc]
  obtain ⟨hstate, hport, -, hregs, hsame⟩ := setPortState_takes (s.atTime t) p (v := 2) (by decide)
  simp only [linkLock, if_neg hno]
  generalize setPortState (s.atTime t) p 2 = v at hstate hport hregs hsame ⊢
  have hident : identBytes v p = identBytes s p := by
    refine identBytes_congr (fun f hf => ?_) (by rw [hsame]; rfl) (by rw [hsame]; rfl) (by rw [hsame]; rfl) p
    simp only [List.mem_cons, List.not_mem_nil, or_false] at hf
    rcases hf with rfl | rfl | rfl <;> exact hregs _ 0 0 (by decide)
  generalize hx : (v.modPort p (fun x => { x with identSent := identBytes v p })).useFree = w
  have hwport : w.port p = { v.port p with identSent := identBytes v p } := by
    rw [← hx]
    exact State.port_modPort_same v p (fun x => { x with identSent := identBytes v p })
  have hwregs : w.regs = v.regs := by
    rw [← hx]
    rfl
  have hwfree : w.free = s.free + 1 := by
    rw [← hx]
    change v.free + 1 = s.free + 1
    rw [hsame]
    rfl
  have hwsent : w.sent = s.sent := by
    rw [← hx]
    change v.sent = s.sent
    rw [hsame]
    rfl
  obtain ⟨⟨d, hsent⟩, huregs, hufree, husince, huident, huseq⟩ := sendFrame_link (s := w) (p := p)
    (h := { tc := 7, vl := 0, dst := linkPeer v p, src := ownMember w, lines := 1, ttl := 64, fseq := 0, ack := none, nak := false,
            credTc := 0, credVl := 0, credLines := 0, ltype := 1 }) (payload := identBytes v p) rfl (show 1 ≤ 258 by decide)
    (by rw [hwport, hport]; exact hw) (by rw [hwport, hport]; exact hr)
  refine ⟨(getF_of_regs huregs ..).trans ((getF_of_regs hwregs ..).trans hstate), husince.trans ?_, huident.trans ?_, hufree.trans hwfree,
    ⟨d, hsent.trans (by rw [hwsent])⟩, huseq.trans ?_⟩
  · rw [hwport, hport]
    rfl
  · rw [hwport, hident]
  · rw [hwport, hport]
    rfl

/-- A port that has met one more uncorrectable codeword. -/
def fecCounted (s : State) (p : Fin 8) (t : Nat) : State :=
  ((s.atTime t).countF Reg.KML_FEC_UNCORRECTABLE p 0 1).modPort p
    (fun x => { x with badAt := (s.port p).badAt.filter (fun u => decide (t < u + 1000000)) ++ [t] })

theorem fecCounted_takes (s : State) (p : Fin 8) (t : Nat) :
    (∀ f : Fld, f.bitOnPage 0 % 0x8000 ≠ 0x8E0 → (fecCounted s p t).getF f p 0 = s.getF f p 0) ∧
      (fecCounted s p t).getF Reg.KML_FEC_UNCORRECTABLE p 0 = min (s.getF Reg.KML_FEC_UNCORRECTABLE p 0 + 1) (2 ^ 32 - 1) ∧
      ((fecCounted s p t).port p).backoff = (s.port p).backoff ∧ ∀ r, r ≠ p → (fecCounted s p t).port r = s.port r := by
  refine ⟨fun f hf => (getF_of_regs rfl ..).trans (State.getF_countF_ne (s.atTime t) 1
      (Fld.key_ne_of_bitOnPage (f := Reg.KML_FEC_UNCORRECTABLE) (i := 0) hf.symm p p)),
    (getF_of_regs rfl ..).trans (State.getF_countF_same (s.atTime t) Reg.KML_FEC_UNCORRECTABLE p 0 1), ?_, fun r hr => ?_⟩
  · unfold fecCounted
    rw [State.port_modPort_same]
    rfl
  · exact State.port_modPort_ne _ _ hr

theorem fecUncorrectable_eq (s : State) (p : Fin 8) (t : Nat) :
    fecUncorrectable s p t =
      if ((s.port p).badAt.filter (fun u => decide (t < u + 1000000)) ++ [t]).length > 16 ∧ portState (fecCounted s p t) p ≥ 1 ∧
          portState (fecCounted s p t) p ≤ 4 then
        portFail (fecCounted s p t) p 0x0409
      else fecCounted s p t := rfl

/-! Replays. -/

theorem foldl_sendFrames (q : Nat) (l : List Frame) : ∀ s : State,
    l.foldl (fun s g => s.send (.frame q g.data)) s = { s with sent := s.sent ++ l.map (fun g => .frame q g.data) } := by
  induction l with
  | nil => intro s; simp
  | cons g l ih =>
    intro s
    refine (ih _).trans ?_
    simp only [State.send, List.map_cons, List.append_assoc, List.singleton_append]

/-- A port that has begun a replay. -/
def replayedPort (x : Port) (f : Frame) (now : Nat) : Port :=
  { x with
    lastReplay := some f.fseq
    replays := if x.lastReplay = some f.fseq then x.replays + 1 else 1
    ackAt := now }

theorem replayPort_takes {f : Frame} {fs : List Frame} (h : (s.port p).replay = f :: fs) :
    let u := replayPort s p
    u.sent = s.sent ++ (s.port p).replay.map (fun g => .frame p g.data) ∧ u.port p = replayedPort (s.port p) f s.now ∧
      u.getF Reg.KML_FRAMES_REPLAYED p 0 = min (s.getF Reg.KML_FRAMES_REPLAYED p 0 + (s.port p).replay.length) (2 ^ 32 - 1) := by
  have heq : replayPort s p = ((s.port p).replay.foldl (fun s g => s.send (.frame p g.data))
      ((s.setPort p (replayedPort (s.port p) f s.now)).countF Reg.KML_FRAMES_REPLAYED p 0 (s.port p).replay.length)) := by
    unfold replayPort
    dsimp only
    split
    · rename_i hnil
      rw [h] at hnil
      cases hnil
    · rename_i g gs hcons
      obtain ⟨rfl, rfl⟩ := List.cons.inj (h.symm.trans hcons)
      rfl
  dsimp only
  rw [heq, foldl_sendFrames]
  exact ⟨rfl, State.port_setPort_same .., (getF_of_regs rfl ..).trans
    (State.getF_countF_same (s.setPort p (replayedPort (s.port p) f s.now)) Reg.KML_FRAMES_REPLAYED p 0 (s.port p).replay.length)⟩

end

/-- Settles O31, event by event: each part is the lemma about the port's event. -/
theorem portsTrainAndFail : Obligations.PortsTrainAndFail := by
  unfold Obligations.PortsTrainAndFail
  intro s p t x clear failed
  have hfail (v : State) {code : Nat} (hst : portState v p ≠ 4) (hcode : code < 65536) (hnow : v.now = max s.now t)
      (hback : (v.port p).backoff = x.backoff) (hint : v.getF (Hdr.INT_STATUS 4 0) p 0 = s.getF (Hdr.INT_STATUS 4 0) p 0)
      (hother : ∀ r, r ≠ p → v.port r = s.port r) : failed (portFail v p code) code := by
    obtain ⟨h1, h2, h3, h4, h5, h6, h7⟩ := portFail_down hst hcode
    rw [hint] at h6
    exact ⟨h1, h2.trans hnow, h3, h4, by rw [h5, hback], h6, fun r hr => (h7 r hr).trans (hother r hr)⟩
  refine ⟨fun hst ht hc hw hr => ?_, fun hst h => ?_, fun hst => ⟨fun ht => ?_, fun ht => ?_⟩, fun hst => ⟨fun ht => ?_, fun ht => ?_⟩,
    fun hst => ⟨fun ht => ?_, fun ht => ?_⟩, fun n hn => ⟨fun hle => ?_, fun hlt h1 h3 => ?_⟩, fun f fs hrep ht h2 h4 hlt => ?_,
    fun f fs hrep ht => ?_⟩
  · obtain ⟨h1, h2, h3, h4, ⟨d, h5⟩, h6⟩ := linkLock_takes hst ht hc hw hr
    exact ⟨_, d, rfl, h1, h2, h3, h4, h5, h6⟩
  · refine congrArg Host.Outcome.next (if_pos (Or.inr (h.imp_right fun hc => ?_)))
    rw [hc]
    rfl
  · exact congrArg Host.Outcome.next (if_pos (Or.inr ht))
  · have hno : ¬(portState s p ≠ 1 ∨ t < (s.port p).since + 500000000) := not_or.mpr ⟨not_not_intro hst, Nat.not_lt.mpr ht⟩
    exact ⟨_, congrArg Host.Outcome.next (if_neg hno), hfail (s.atTime t) (fun e => absurd (hst.symm.trans e) (by decide)) (by decide) rfl rfl rfl fun _ _ => rfl⟩
  · exact congrArg Host.Outcome.next (if_pos (Or.inr ht))
  · have hno : ¬(portState s p ≠ 3 ∨ t < (s.port p).since + 2000000000) := not_or.mpr ⟨not_not_intro hst, Nat.not_lt.mpr ht⟩
    exact ⟨_, congrArg Host.Outcome.next (if_neg hno), hfail (s.atTime t) (fun e => absurd (hst.symm.trans e) (by decide)) (by decide) rfl rfl rfl fun _ _ => rfl⟩
  · exact congrArg Host.Outcome.next (if_pos (Or.inr ht))
  · have hno : ¬(portState s p ≠ 5 ∨ t < (s.port p).since + 1000000000 * (s.port p).backoff) :=
      not_or.mpr ⟨not_not_intro hst, Nat.not_lt.mpr ht⟩
    obtain ⟨h1, h2, h3, -, -⟩ := setPortState_takes (s.atTime t) p (v := 1) (by decide)
    exact ⟨_, congrArg Host.Outcome.next (if_neg hno), h1, by rw [h2]; rfl, h3⟩
  · obtain ⟨h1, h2, -, -⟩ := fecCounted_takes s p t
    have hno : ¬(((s.port p).badAt.filter (fun u => decide (t < u + 1000000)) ++ [t]).length > 16 ∧ portState (fecCounted s p t) p ≥ 1 ∧
        portState (fecCounted s p t) p ≤ 4) := by
      rw [List.length_append, List.length_singleton, ← hn]
      exact fun h => absurd h.1 (Nat.not_lt.mpr hle)
    exact ⟨_, congrArg Host.Outcome.next ((fecUncorrectable_eq s p t).trans (if_neg hno)), h1 _ (by decide), h2⟩
  · obtain ⟨hget, -, hb, hr⟩ := fecCounted_takes s p t
    have hstate : portState (fecCounted s p t) p = portState s p := hget _ (by decide)
    have hyes : ((s.port p).badAt.filter (fun u => decide (t < u + 1000000)) ++ [t]).length > 16 ∧ portState (fecCounted s p t) p ≥ 1 ∧
        portState (fecCounted s p t) p ≤ 4 := by
      rw [List.length_append, List.length_singleton, ← hn, hstate]
      exact ⟨hlt, h1, by omega⟩
    exact ⟨_, congrArg Host.Outcome.next ((fecUncorrectable_eq s p t).trans (if_pos hyes)),
      hfail _ (by rw [hstate]; omega) (by decide) rfl hb (hget _ (by decide)) hr⟩
  · have hno : ¬((s.port p).replay.isEmpty = true ∨ t < (s.port p).ackAt + 4000 ∨ portState s p < 2 ∨ portState s p > 4) := by
      have ht' : (s.port p).ackAt + 4000 ≤ t := ht
      rw [hrep, List.isEmpty_cons]
      exact not_or.mpr ⟨Bool.false_ne_true, by omega⟩
    obtain ⟨h1, h2, h3⟩ := replayPort_takes (s := s.atTime t) (p := p) hrep
    have hfew : ¬((replayPort (s.atTime t) p).port p).replays ≥ 8 := by
      rw [h2]
      exact Nat.not_le.mpr hlt
    exact ⟨_, congrArg Host.Outcome.next ((if_neg hno).trans (if_neg hfew)), h1, h2, h3⟩
  · refine congrArg Host.Outcome.next (if_pos (Or.inr (Or.inl ht)))

end Sys2Proof.Machine
end

section
namespace Sys2Proof.Machine

set_option Elab.async false

/-! O32: frames that a Kamduelm port takes. -/

section
variable {s : State} {p : Fin 8} {f : RxFrame} {h : FrameHead}

/-- No replay is due before the frame. -/
theorem replayTimeout_early {t : Nat} (hr : (s.port p).replay = [] ∨ t ≤ (s.port p).ackAt + 4000) : replayTimeout s p (t - 1) = s := by
  refine if_pos ?_
  rcases hr with hr | hr
  · exact Or.inl (by rw [hr]; rfl)
  · exact Or.inr (Or.inl (by omega))

/-- A frame reaches an open port that has no replay to make first. -/
theorem receive_open (hen : s.getF (Hdr.ENABLE 4) f.port 0 ≠ 0) (h2 : 2 ≤ portState s f.port) (h4 : portState s f.port ≤ 4)
    (hr : (s.port f.port).replay = [] ∨ f.time ≤ (s.port f.port).ackAt + 4000) :
    (receive s f).1 =
      let v := s.atTime f.time
      let p := f.port
      let h := frameHead f.bytes
      if !frameFormatOk f.bytes then nakOnce (v.countF Reg.KML_FORMAT_DROPS p 0 1) p (linkPeer s p)
      else if !frameCrcOk f.bytes ∨ f.fecBad then nakOnce v p h.src
      else
        let w := takeReturn v p h
        if portState w p < 2 ∨ portState w p > 4 ∨ (h.tc = 7 ∧ h.ltype = 0) then w
        else if (h.fseq + 65536 - (w.port p).rxSeq) % 65536 = 0 then
          sendAck (w.setPort p { w.port p with rxSeq := ((w.port p).rxSeq + 1) % 65536, nakSent := false }) p h.src false h.tc h.vl
            (if h.tc = 7 then 0 else h.lines + 1)
        else if (h.fseq + 65536 - (w.port p).rxSeq) % 65536 ≥ 32768 then sendAck w p h.src false 0 0 0
        else nakOnce w p h.src := by
  have hno : ¬((s.atTime f.time).getF (Hdr.ENABLE 4) f.port 0 = 0 ∨ portState (s.atTime f.time) f.port < 2 ∨ portState (s.atTime f.time) f.port > 4) := by
    rintro (h | h | h)
    · exact hen h
    · exact absurd h2 (Nat.not_le.mpr h)
    · exact absurd h4 (Nat.not_le.mpr h)
  have hpeer : linkPeer (s.atTime f.time) f.port = linkPeer s f.port := rfl
  unfold receive
  dsimp only
  rw [replayTimeout_early hr]
  rw [if_neg hno, hpeer]
  simp only [apply_ite Prod.fst]

/-- A header that asks for nothing leaves the port as it was. -/
theorem takeReturn_nothing (hack : h.ack = none) (hcred : h.credLines = 0) (hnak : h.nak = false) (hw : (s.port p).waiting = [])
    (hr : (s.port p).replays < 8) : takeReturn s p h = s := by
  simp only [takeReturn, hack, hcred, hnak, if_true, Bool.false_eq_true, if_false, if_neg (Nat.not_le.mpr hr), ge_iff_le, pumpPort_idle 1024 hw,
    ite_self]

theorem ackFrames_takes (s : State) (p : Fin 8) (a : Nat) :
    (ackFrames s p a).sent = s.sent ∧ ((ackFrames s p a).port p).waiting = (s.port p).waiting ∧
      ((ackFrames s p a).port p).replay = (s.port p).replay.filter (fun g => decide ((a + 65536 - g.fseq) % 65536 ≥ 32768)) ∧
      ((s.port p).replays < 8 → ((ackFrames s p a).port p).replays < 8) := by
  have hport := State.port_modPort_same s p (fun x =>
    let rest := x.replay.filter (fun f => decide ((a + 65536 - f.fseq) % 65536 ≥ 32768))
    if rest.length < x.replay.length then { x with replay := rest, ackAt := s.now, lastReplay := none, replays := 0 } else x)
  change (ackFrames s p a).port p = _ at hport
  refine ⟨rfl, ?_⟩
  rw [hport]
  dsimp only
  split
  · exact ⟨rfl, rfl, fun _ => show 0 < 8 by decide⟩
  · rename_i hlen
    exact ⟨rfl, (List.filter_eq_self.mpr fun g hg => Classical.byContradiction fun hne =>
      hlen (List.length_filter_lt_length_iff_exists.mpr ⟨g, hg, hne⟩)).symm, id⟩

/-- A header that only acknowledges. -/
theorem takeReturn_ack {a : Nat} (hack : h.ack = some a) (hcred : h.credLines = 0) (hnak : h.nak = false) (hw : (s.port p).waiting = [])
    (hr : (s.port p).replays < 8) : takeReturn s p h = ackFrames s p a := by
  obtain ⟨-, hwait, -, hrep⟩ := ackFrames_takes s p a
  simp only [takeReturn, hack, hcred, hnak, if_true, Bool.false_eq_true, if_false, if_neg (Nat.not_le.mpr (hrep hr)), ge_iff_le,
    pumpPort_idle 1024 (hwait.trans hw), ite_self]

end

/-- Settles O32: the cases of a frame at an open port, one by one. -/
theorem framesAreReceived : Obligations.FramesAreReceived := by
  unfold Obligations.FramesAreReceived
  intro s f p h x s1 nak htc hen h2 h4 hr
  have hrec := receive_open hen h2 h4 hr
  dsimp only at hrec
  refine ⟨fun hfmt => ?_, fun hfmt hbad => ?_, fun hfmt hcrc hfec hnak hw hrep hcred => ⟨fun a hlt hack => ?_, fun hlt hack => ?_⟩⟩
  · exact congrArg Host.Outcome.next (hrec.trans (if_pos (by rw [hfmt]; rfl)))
  · refine congrArg Host.Outcome.next (hrec.trans ((if_neg (by rw [hfmt]; decide)).trans (if_pos ?_)))
    exact hbad.imp_left fun hcrc => by rw [hcrc]; rfl
  · rw [if_neg (by rw [hfmt]; decide), if_neg (by rw [hcrc, hfec]; decide), takeReturn_ack (s := s.atTime f.time) (p := f.port) hack hcred hnak hw hrep,
      if_pos (Or.inr (Or.inr ⟨htc, hlt⟩))] at hrec
    obtain ⟨hsent, -, hreplay, -⟩ := ackFrames_takes s1 p a
    exact ⟨_, congrArg Host.Outcome.next hrec, hsent, hreplay⟩
  · have hgo : ¬(portState s1 p < 2 ∨ portState s1 p > 4 ∨ (h.tc = 7 ∧ h.ltype = 0)) := by
      rintro (h | h | h)
      · exact absurd h2 (Nat.not_le.mpr h)
      · exact absurd h4 (Nat.not_le.mpr h)
      · exact hlt h.2
    rw [if_neg (by rw [hfmt]; decide), if_neg (by rw [hcrc, hfec]; decide), takeReturn_nothing (s := s.atTime f.time) (p := f.port) hack hcred hnak hw hrep, if_neg hgo] at hrec
    refine ⟨fun hseq hmax => ?_, fun hold => ?_, fun hnew hlow => ?_⟩
    · have h0 : (h.fseq + 65536 - x.rxSeq) % 65536 = 0 := by
        rw [hseq]
        omega
      rw [if_pos (show (h.fseq + 65536 - (s1.port p).rxSeq) % 65536 = 0 from h0), if_pos htc] at hrec
      rw [show (frameHead f.bytes).tc = 7 from htc] at hrec
      exact congrArg Host.Outcome.next hrec
    · rw [if_neg (show ¬(h.fseq + 65536 - (s1.port p).rxSeq) % 65536 = 0 from Nat.ne_of_gt (by omega : 0 < (h.fseq + 65536 - x.rxSeq) % 65536)),
        if_pos (show (h.fseq + 65536 - (s1.port p).rxSeq) % 65536 ≥ 32768 from hold)] at hrec
      exact congrArg Host.Outcome.next hrec
    · rw [if_neg (show ¬(h.fseq + 65536 - (s1.port p).rxSeq) % 65536 = 0 from Nat.ne_of_gt hnew),
        if_neg (show ¬(h.fseq + 65536 - (s1.port p).rxSeq) % 65536 ≥ 32768 from Nat.not_le.mpr hlow)] at hrec
      exact congrArg Host.Outcome.next hrec

end Sys2Proof.Machine
end

section
namespace Sys2Proof.Machine

set_option Elab.async false

/-! O33: what a taken frame does. -/

theorem leNat_lt (l : List Byte) : leNat l < 256 ^ l.length := by
  induction l with
  | nil => exact Nat.one_pos
  | cons b l ih =>
    have hb : b.toNat < 256 := b.isLt
    rw [List.length_cons, Nat.pow_succ, leNat]
    omega

/-- A field of `n` bytes fits in them. -/
theorem field_lt (d : List Byte) (a n : Nat) : field d a n < 256 ^ n :=
  Nat.lt_of_lt_of_le (leNat_lt _) (Nat.pow_le_pow_right (by decide) (List.length_take_le _ _))

section
variable {s v : State} {p : Fin 8} {f : RxFrame} {h : FrameHead}

/-- The header of a taken frame is that of its bytes. -/
theorem receive_head (hrec : receive s f = (v, some h)) : h = frameHead f.bytes := by
  have hopt : ∀ (c : Prop) [Decidable c] (k : FrameHead), (if c then none else some k) = some h → h = k := by
    intro c _ k hk
    split at hk
    · cases hk
    · exact (Option.some.inj hk).symm
  have hsnd : (receive s f).2 = some h := by rw [hrec]
  unfold receive at hsnd
  dsimp only at hsnd
  split at hsnd
  · cases hsnd
  · split at hsnd
    · cases hsnd
    · split at hsnd
      · cases hsnd
      · split at hsnd
        · cases hsnd
        · split at hsnd
          · exact hopt _ _ hsnd
          · split at hsnd <;> cases hsnd

/-- A taken frame of its class that is for this device. -/
theorem classFrame_own (hrec : receive s f = (v, some h)) {tc : Nat} (htc : h.tc = tc) (hown : h.dst = ownMember v)
    (go : State → FrameHead → List Byte → State) : classFrame s f tc go = go v h (framePayload f.bytes) := by
  unfold classFrame
  rw [if_neg (by rw [← receive_head hrec]; exact not_not_intro htc)]
  simp only [hrec, hown, if_true]

/-- A taken BULK frame that is for another device goes on. -/
theorem bulkFrame_forward (hrec : receive s f = (v, some h)) (htc : h.tc = 4) (hown : h.dst ≠ ownMember v) : bulkFrame s f = forward v f h := by
  unfold bulkFrame classFrame
  rw [if_neg (by rw [← receive_head hrec]; exact not_not_intro htc)]
  simp only [hrec, if_neg hown, or_true, if_true]

theorem forward_dropped (hno : s.routes.find? (fun r => r.member == h.dst) = none ∨ h.ttl = 0) :
    forward s f h = s.countF Reg.KML_ROUTE_DROPS f.port 0 1 := by
  unfold forward
  split
  · rfl
  · rename_i r hr
    rw [hr] at hno
    rw [if_pos (hno.resolve_left (by simp))]

/-- The header that a frame goes on with. -/
def forwardHead (s : State) (f : RxFrame) (h : FrameHead) (r : Route) : FrameHead :=
  { h with
    vl := if portDim s.torusFabric f.port = 0 ∧ portDim s.torusFabric r.port = 1 then r.vl % 2 else max h.vl (r.vl % 2)
    ttl := h.ttl - 1
    ack := none
    nak := false
    credTc := 0
    credVl := 0
    credLines := 0 }

theorem forward_sent {q : Fin 8} {r : Route} (hr : s.routes.find? (fun r => r.member == h.dst) = some r) (hq : r.port = q.val) (httl : h.ttl ≠ 0)
    (hup : portState s q = 4) : forward s f h = sendFrame s q (forwardHead s f h r) (framePayload f.bytes) := by
  have hfin : (⟨r.port % 8, Nat.mod_lt _ (by decide)⟩ : Fin 8) = q := Fin.ext (by simp only [hq]; omega)
  have hup' : ¬((!portUp s q) = true) := by simp [portUp, hup]
  unfold forward
  simp only [hr, if_neg httl, hfin, if_neg hup']
  rfl

theorem linkFrame_own (hrec : receive s f = (v, some h)) (htc : h.tc = 7) {ltype : Nat} (hl : h.ltype = ltype) (hown : h.dst = ownMember v)
    (go : State → List Byte → State) : linkFrame s f ltype go = go v (framePayload f.bytes) := by
  unfold linkFrame
  rw [classFrame_own hrec htc hown, if_pos hl]

/-! What sending leaves as it was. -/

theorem emitFrame_keeps (s : State) (p : Fin 8) (g : Frame) :
    (emitFrame s p g).regs = s.regs ∧ ((emitFrame s p g).port p).identGot = (s.port p).identGot :=
  ⟨rfl, by simp only [emitFrame, State.send, State.port, State.setPort, Fin.getElem_fin, Vector.getElem_set_self]⟩

theorem pumpPort_keeps (n : Nat) : ∀ s : State, (pumpPort n s p).regs = s.regs ∧ ((pumpPort n s p).port p).identGot = (s.port p).identGot := by
  induction n with
  | zero => exact fun s => ⟨rfl, rfl⟩
  | succ n ih =>
    intro s
    unfold pumpPort
    dsimp only
    split
    · exact ⟨rfl, rfl⟩
    · rename_i g _
      obtain ⟨h1, h2⟩ := ih (emitFrame (s.setPort p _) p g)
      obtain ⟨h3, h4⟩ := emitFrame_keeps (s.setPort p _) p g
      refine ⟨h1.trans h3, h2.trans (h4.trans ?_)⟩
      rw [State.port_setPort_same]

theorem sendFrame_keeps (s : State) (p : Fin 8) (h : FrameHead) (payload : List Byte) :
    (sendFrame s p h payload).regs = s.regs ∧ ((sendFrame s p h payload).port p).identGot = (s.port p).identGot := by
  obtain ⟨h1, h2⟩ := pumpPort_keeps (p := p) 1024 (s.modPort p (fun x => { x with
    waiting := x.waiting ++ [{ tc := h.tc, vl := h.vl, fseq := 0, lines := h.lines, data := frameBytes h payload }] }))
  refine ⟨h1, h2.trans ?_⟩
  rw [State.port_modPort_same]

theorem foldl_control (op : Nat) (d : State → List Byte) (l : List Peer) : ∀ s : State,
    l.foldl (fun s p => s.control p.member op (d s)) s = { s with sent := (l.foldl (fun s p => s.control p.member op (d s)) s).sent } := by
  induction l with
  | nil => exact fun s => rfl
  | cons y l ih => exact fun s => (ih (s.control y.member op (d s))).trans rfl

theorem sendMembership_same (s : State) : sendMembership s = { s with sent := (sendMembership s).sent } := by
  exact foldl_control msgMembership membershipMsg (s.peers.filter (·.state != .unknown)) s

theorem updateMembership_takes (s : State) :
    (∀ (g : Fld) (inst : Nat), Reg.SEC_MEMBER_STATE.key 0 0 ≠ g.key inst 0 → (updateMembership s).getF g inst 0 = s.getF g inst 0) ∧
      (updateMembership s).peers = s.peers := by
  unfold updateMembership
  dsimp only
  split
  · exact ⟨fun _ _ _ => rfl, rfl⟩
  · split
    · rw [sendMembership_same]
      exact ⟨fun g inst hg => (getF_of_regs rfl ..).trans (State.getF_setF_ne s _ hg), rfl⟩
    · exact ⟨fun g inst hg => State.getF_setF_ne s _ hg, rfl⟩

/-! IDENT and ATTEST. -/

/-- The registers that name the peer, written from its IDENT. -/
def peerNamed (s : State) (p : Fin 8) (b : List Byte) : State :=
  (((s.setF Reg.KML_PEER_MEMBER p 0 (field b 8 2)).setF Reg.KML_PEER_PORT p 0 (field b 10 1)).setF Reg.KML_PEER_SERIAL p 0
    (field b 0 8)).setF Reg.KML_PEER_BOOT_COUNT p 0 (field b 12 4)

theorem peerNamed_takes (s : State) (p : Fin 8) (b : List Byte) :
    (peerNamed s p b).getF Reg.KML_PEER_MEMBER p 0 = field b 8 2 % 4096 ∧ (peerNamed s p b).getF Reg.KML_PEER_SERIAL p 0 = field b 0 8 % 2 ^ 64 := by
  unfold peerNamed
  constructor
  · rw [State.getF_setF_ne _ _ (Fld.key_ne_of_bitOnPage (by decide) _ _), State.getF_setF_ne _ _ (Fld.key_ne_of_bitOnPage (by decide) _ _),
      State.getF_setF_ne _ _ (Fld.key_ne_of_bitOnPage (by decide) _ _), State.getF_setF_same]
    rfl
  · rw [State.getF_setF_ne _ _ (Fld.key_ne_of_bitOnPage (by decide) _ _), State.getF_setF_same]
    rfl

/-- An IDENT taken by a port in IDENT. -/
theorem identFrame_checked (hrec : receive s f = (v, some h)) (htc : h.tc = 7) (hl : h.ltype = 1) (hown : h.dst = ownMember v)
    (hst : portState v f.port = 2) :
    identFrame s f =
      let b := framePayload f.bytes
      match identCheck (peerNamed v f.port b) f.port b with
      | some c => portFail (peerNamed v f.port b) f.port c
      | none =>
        let w := setPortState ((peerNamed v f.port b).modPort f.port (fun x => { x with identGot := b, credits := fullCredits })) f.port 3
        sendFrame w f.port { tc := 7, vl := 0, dst := field b 8 2, src := ownMember w, lines := 139, ttl := 64, fseq := 0, ack := none,
                             nak := false, credTc := 0, credVl := 0, credLines := 0, ltype := 2 } (attestPayload w ((b.drop 28).take 16)) := by
  have h4 : ¬portState v f.port = 4 := by
    rw [hst]
    decide
  unfold identFrame
  rw [linkFrame_own hrec htc hl hown]
  dsimp only
  rw [if_neg h4, if_neg (not_not_intro hst)]
  rfl

/-- An IDENT that passes its checks: the port keeps it and goes on to ATTESTING. -/
theorem ident_accepted {w : State} {b d : List Byte} (hd : FrameHead) :
    let u := sendFrame (setPortState (w.modPort p (fun x => { x with identGot := b, credits := fullCredits })) p 3) p hd d
    portState u p = 3 ∧ (u.port p).identGot = b ∧
      ∀ (g : Fld) (inst i : Nat), g.bitOnPage i % 0x8000 ∉ [0x80, 0x800] → u.getF g inst i = w.getF g inst i := by
  obtain ⟨hstate, hport, -, hregs, -⟩ := setPortState_takes (w.modPort p (fun x => { x with identGot := b, credits := fullCredits })) p (v := 3)
    (by decide)
  rw [State.port_modPort_same] at hport
  have hmod (g : Fld) (inst i : Nat) := getF_of_regs (s := w)
    (u := w.modPort p (fun x => { x with identGot := b, credits := fullCredits })) rfl g inst i
  generalize setPortState (w.modPort p (fun x => { x with identGot := b, credits := fullCredits })) p 3 = y at hstate hport hregs ⊢
  obtain ⟨h1, h2⟩ := sendFrame_keeps y p hd d
  refine ⟨(getF_of_regs h1 ..).trans hstate, h2.trans (by rw [hport]), fun g inst i hg => (getF_of_regs h1 ..).trans ((hregs g inst i hg).trans (hmod g inst i))⟩

/-- An ATTEST taken by a port that attests. -/
theorem attestFrame_checked (hrec : receive s f = (v, some h)) (htc : h.tc = 7) (hl : h.ltype = 2) (hown : h.dst = ownMember v)
    (hst : portState v f.port = 3) :
    attestFrame s f =
      let x := v.port f.port
      let m := field x.identGot 8 2
      if x.since + 2000000000 < f.time then portFail v f.port 0x0407
      else if !attestOk v x (framePayload f.bytes) then portFail v f.port 0x0406
      else
        let w := (setPortState v f.port 4).countF Reg.KML_UP_COUNT f.port 0 1
        let w := setPeer w { member := m, state := .attested, boot := field x.identGot 12 4, serial := field x.identGot 0 8,
                             runtime := field x.identGot 16 4, fit := ((w.peers.find? (·.member == m)).map (·.fit)).getD [] }
        let w := updateMembership (reroute w (fun _ => true))
        if cpUp w 3 then sendMembership w else w := by
  unfold attestFrame
  rw [linkFrame_own hrec htc hl hown]
  dsimp only
  rw [if_neg (not_not_intro hst)]

/-- A port that goes UP, with its peer kept and told. -/
theorem attested_takes {y : Peer} :
    let w := setPeer ((setPortState v p 4).countF Reg.KML_UP_COUNT p 0 1) y
    let w := updateMembership (reroute w (fun _ => true))
    let u := if cpUp w 3 then sendMembership w else w
    portState u p = 4 ∧ u.getF Reg.KML_UP_COUNT p 0 = min (v.getF Reg.KML_UP_COUNT p 0 + 1) (2 ^ 32 - 1) ∧ y ∈ u.peers := by
  obtain ⟨hstate, -, -, hregs, -⟩ := setPortState_takes v p (v := 4) (by decide)
  generalize setPortState v p 4 = a at hstate hregs ⊢
  have hstate' : portState (a.countF Reg.KML_UP_COUNT p 0 1) p = 4 :=
    (State.getF_countF_ne a 1 (Fld.key_ne_of_bitOnPage (by decide) _ _)).trans hstate
  have hcount : (a.countF Reg.KML_UP_COUNT p 0 1).getF Reg.KML_UP_COUNT p 0 = min (v.getF Reg.KML_UP_COUNT p 0 + 1) (2 ^ 32 - 1) := by
    rw [State.getF_countF_same, hregs _ _ _ (by decide)]
    rfl
  generalize a.countF Reg.KML_UP_COUNT p 0 1 = b at hstate' hcount ⊢
  have hpeers : y ∈ (reroute (setPeer b y) (fun _ => true)).peers :=
    List.mem_append_left _ (List.mem_append_right _ (List.mem_singleton.mpr rfl))
  have hget (g : Fld) := getF_of_regs (s := b) (u := reroute (setPeer b y) (fun _ => true)) rfl g p 0
  dsimp only
  generalize reroute (setPeer b y) (fun _ => true) = c at hpeers hget ⊢
  obtain ⟨hupd, hupeers⟩ := updateMembership_takes c
  have hkey (g : Fld) (hg : g.bitOnPage 0 % 0x8000 ≠ Reg.SEC_MEMBER_STATE.bitOnPage 0 % 0x8000) : (updateMembership c).getF g p 0 = b.getF g p 0 :=
    (hupd g p (Fld.key_ne_of_bitOnPage hg.symm _ _)).trans (hget g)
  have h1 : portState (updateMembership c) p = 4 := (hkey Reg.KML_STATE (by decide)).trans hstate'
  have h2 := hkey Reg.KML_UP_COUNT (by decide)
  rw [hcount] at h2
  rw [← hupeers] at hpeers
  generalize updateMembership c = e at h1 h2 hpeers ⊢
  split
  · rw [sendMembership_same]
    exact ⟨(getF_of_regs rfl ..).trans h1, (getF_of_regs rfl ..).trans h2, hpeers⟩
  · exact ⟨h1, h2, hpeers⟩

end

/-- Settles O33, class by class: a taken frame for this device is given to what its class delivers to, and one for another goes on. -/
theorem framesTakeEffect : Obligations.FramesTakeEffect := by
  unfold Obligations.FramesTakeEffect
  intro s v f h hrec p d own m w
  refine ⟨fun htc hl hown hst => ⟨fun c hc => ?_, fun hc => ?_⟩, fun htc hl hown hst => ⟨fun hlate => ?_, fun ht hbad => ?_, fun ht hok => ?_⟩,
    fun htc hown stamp => ?_, fun told fit htc hown => ⟨fun hk h1 => ?_, fun hk => ?_⟩, fun l dr msg i cyc htc hown hl => ?_,
    fun l mb rt rd n i cyc htc hown hl => ?_, fun htc hown => ?_, fun htc hown => ?_, fun htc hown => ⟨fun hno => ?_, fun q r hr hq httl hup => ?_⟩⟩
  · have hc' : identCheck (peerNamed v f.port (framePayload f.bytes)) f.port (framePayload f.bytes) = some c := hc
    refine congrArg Host.Outcome.next ((identFrame_checked hrec htc hl hown hst).trans ?_)
    simp only [hc'] <;> rfl
  · have hc' : identCheck (peerNamed v f.port (framePayload f.bytes)) f.port (framePayload f.bytes) = none := hc
    have hchk := identFrame_checked hrec htc hl hown hst
    simp only [hc'] at hchk
    refine ⟨_, congrArg Host.Outcome.next hchk, ?_⟩
    obtain ⟨hmember, hserial⟩ := peerNamed_takes v f.port (framePayload f.bytes)
    generalize peerNamed v f.port (framePayload f.bytes) = x at hmember hserial ⊢
    obtain ⟨h1, h2, h3⟩ := ident_accepted (w := x) (p := f.port) (b := framePayload f.bytes)
      (d := attestPayload (setPortState (x.modPort f.port (fun x => { x with identGot := framePayload f.bytes, credits := fullCredits })) f.port 3)
        (((framePayload f.bytes).drop 28).take 16)) _
    refine ⟨h1, h2, (h3 _ _ _ (by decide)).trans hmember, ((h3 _ _ _ (by decide)).trans hserial).trans (Nat.mod_eq_of_lt (field_lt ..))⟩
  · exact congrArg Host.Outcome.next ((attestFrame_checked hrec htc hl hown hst).trans (if_pos hlate))
  · exact congrArg Host.Outcome.next ((attestFrame_checked hrec htc hl hown hst).trans
      ((if_neg (Nat.not_lt.mpr ht)).trans (if_pos (show (!_) = true by rw [show attestOk v (v.port f.port) (framePayload f.bytes) = false from hbad]; rfl))))
  · have hgood : ¬((!attestOk v (v.port f.port) (framePayload f.bytes)) = true) := by
      rw [show attestOk v (v.port f.port) (framePayload f.bytes) = true from hok]
      decide
    have hchk := (attestFrame_checked hrec htc hl hown hst).trans ((if_neg (Nat.not_lt.mpr ht)).trans (if_neg hgood))
    obtain ⟨h1, h2, h3⟩ := attested_takes (v := v) (p := f.port) (y :=
      { member := field (v.port f.port).identGot 8 2
        state := .attested
        boot := field (v.port f.port).identGot 12 4
        serial := field (v.port f.port).identGot 0 8
        runtime := field (v.port f.port).identGot 16 4
        fit := ((((setPortState v f.port 4).countF Reg.KML_UP_COUNT f.port 0 1).peers.find?
          (·.member == field (v.port f.port).identGot 8 2)).map (·.fit)).getD [] })
    exact ⟨_, congrArg Host.Outcome.next hchk, h1, h2, _, h3, rfl, rfl⟩
  · exact congrArg Host.Outcome.next (classFrame_own hrec htc hown _)
  · exact congrArg Host.Outcome.next ((classFrame_own hrec htc hown _).trans ((if_pos hk).trans (if_pos h1)))
  · exact congrArg Host.Outcome.next ((classFrame_own hrec htc hown _).trans (if_neg hk))
  · refine congrArg Host.Outcome.next ((classFrame_own hrec htc hown _).trans ?_)
    simp only [hl]
  · refine congrArg Host.Outcome.next ((classFrame_own hrec htc hown _).trans ?_)
    simp only [hl]
  · exact congrArg Host.Outcome.next (classFrame_own hrec htc hown _)
  · exact congrArg Host.Outcome.next (classFrame_own hrec htc hown _)
  · exact congrArg Host.Outcome.next ((bulkFrame_forward hrec htc hown).trans (forward_dropped hno))
  · exact congrArg Host.Outcome.next ((bulkFrame_forward hrec htc hown).trans (forward_sent hr hq httl hup))

end Sys2Proof.Machine
end

section
namespace Sys2Proof.Machine

set_option Elab.async false

/-! O34: membership, the time base and routes. -/

section
variable {s : State} {t : Nat}

/-! Membership. -/

theorem membership_reserved {m st boot serial runtime : Nat} {fit : List Nat} (h : memberStateOf st = none) :
    membership s m st boot serial runtime t fit = s.atTime t := by
  simp only [membership, h]

/-- A message of a device of which nothing else is known, or the same BOOT_COUNT. -/
theorem membership_sameBoot {m st boot serial runtime : Nat} {fit : List Nat} {ms : MemberState} (hcp : cpUp s 3 = true) (hm : m ≠ ownMember s)
    (hst : memberStateOf st = some ms) (hboot : (s.peers.find? (·.member == m)).all (·.boot == boot) = true) :
    membership s m st boot serial runtime t fit =
      setPeer (s.atTime t) ⟨m, ms, boot, serial, runtime, ((s.peers.find? (·.member == m)).map (·.fit)).getD []⟩ := by
  have hno : ¬((!cpUp (s.atTime t) 3) = true ∨ m = ownMember (s.atTime t)) := by
    rintro (h | h)
    · rw [show cpUp (s.atTime t) 3 = true from hcp] at h
      cases h
    · exact hm h
  have hpeers : (s.atTime t).peers = s.peers := rfl
  simp only [membership, hst, if_neg hno, hpeers]
  cases hp : s.peers.find? (·.member == m) with
  | none => rfl
  | some p =>
    rw [hp] at hboot
    have heq : p.boot = boot := beq_iff_eq.mp hboot
    exact if_neg (not_not_intro heq)

/-- A message with another BOOT_COUNT. -/
theorem membership_rebooted {m st boot serial runtime : Nat} {fit : List Nat} {ms : MemberState} (hcp : cpUp s 3 = true) (hm : m ≠ ownMember s)
    (hst : memberStateOf st = some ms) (hboot : (s.peers.find? (·.member == m)).all (·.boot == boot) = false) :
    membership s m st boot serial runtime t fit = peerLost (setPeer (s.atTime t) ⟨m, .unknown, boot, serial, runtime, []⟩) m fit := by
  have hno : ¬((!cpUp (s.atTime t) 3) = true ∨ m = ownMember (s.atTime t)) := by
    rintro (h | h)
    · rw [show cpUp (s.atTime t) 3 = true from hcp] at h
      cases h
    · exact hm h
  have hpeers : (s.atTime t).peers = s.peers := rfl
  simp only [membership, hst, if_neg hno, hpeers]
  cases hp : s.peers.find? (·.member == m) with
  | none =>
    rw [hp] at hboot
    cases hboot
  | some p =>
    rw [hp] at hboot
    have hne : p.boot ≠ boot := fun h => by simp [h] at hboot
    exact if_pos hne

/-! Routes. -/

theorem dimHop_takes {dim n a b p : Nat} {w : Bool} (h : dimHop s dim n a b = some (p, w)) :
    ∃ up, p ∈ dirPorts s.torusFabric dim up ∧ w = wrapHop n a up ∧ ∃ q : Fin 8, p = q.val ∧ portState s q = 4 := by
  have hpick (up : Bool) (hp : ((dirPorts s.torusFabric dim up).find? (fun p => (List.finRange 8).any (fun q => q.val == p && portUp s q))).map
      (fun p => (p, wrapHop n a up)) = some (p, w)) :
      p ∈ dirPorts s.torusFabric dim up ∧ w = wrapHop n a up ∧ ∃ q : Fin 8, p = q.val ∧ portState s q = 4 := by
    obtain ⟨p', hfind, heq⟩ := Option.map_eq_some_iff.mp hp
    obtain ⟨rfl, rfl⟩ := Prod.mk.inj heq
    have hany : ((List.finRange 8).any fun q => q.val == p' && portUp s q) = true :=
      List.find?_some (p := fun p => (List.finRange 8).any (fun q => q.val == p && portUp s q)) hfind
    obtain ⟨q, -, hq⟩ := List.any_eq_true.mp hany
    obtain ⟨hval, hup⟩ := Bool.and_eq_true_iff.mp hq
    exact ⟨List.mem_of_find?_eq_some hfind, rfl, q, (beq_iff_eq.mp hval).symm, beq_iff_eq.mp hup⟩
  unfold dimHop at h
  dsimp only at h
  rcases Option.or_eq_some_iff.mp h with h | ⟨-, h⟩
  · exact ⟨_, hpick _ h⟩
  · exact ⟨_, hpick _ h⟩

/-- The hop and the member of a route. -/
theorem planRoute_takes {g : Group} {q : Nat} {r : Route} (htor : g.plan.torus = true) (hx : 0 < g.plan.x) (h : planRoute s g q = some r) :
    ∃ w, g.memberAt q = some r.member ∧ r.vl = b2n w ∧
      (if g.position % g.plan.x ≠ q % g.plan.x then dimHop s 0 g.plan.x (g.position % g.plan.x) (q % g.plan.x)
       else dimHop s 1 (g.size / g.plan.x) (g.position / g.plan.x) (q / g.plan.x)) = some (r.port, w) := by
  have hmax : max 1 g.plan.x = g.plan.x := by omega
  unfold planRoute at h
  simp only [htor, if_true, hmax] at h
  split at h
  · rename_i m p w hm hh
    obtain rfl := Option.some.inj h
    exact ⟨w, hm, rfl, hh⟩
  · cases h

theorem dirPorts_x (up : Bool) : dirPorts true 0 up = if up then [0, 1] else [2, 3] := rfl

theorem dirPorts_y (up : Bool) : dirPorts true 1 up = if up then [4, 5] else [6, 7] := rfl

theorem b2n_wrapHop_iff (n a : Nat) (up : Bool) : b2n (wrapHop n a up) = 1 ↔ (up = true ∧ a + 1 = n) ∨ (¬up = true ∧ a = 0) := by
  cases up <;> simp [wrapHop, b2n]

theorem b2n_le_one (b : Bool) : b2n b ≤ 1 := by cases b <;> decide

theorem route_facts {g : Group} {q : Nat} {r : Route} (hfab : s.torusFabric = true) (htor : g.plan.torus = true) (hx : 0 < g.plan.x)
    (h : planRoute s g q = some r) :
    let x := g.plan.x
    let own := g.position
    let wraps (n a : Nat) (up : Prop) : Prop := (up ∧ a + 1 = n) ∨ (¬up ∧ a = 0)
    g.memberAt q = some r.member ∧ (∃ p : Fin 8, r.port = p.val ∧ portState s p = 4) ∧
    (own % x ≠ q % x → r.port < 4 ∧ (r.vl = 1 ↔ wraps x (own % x) (r.port < 2)) ∧ r.vl ≤ 1) ∧
    (own % x = q % x → 4 ≤ r.port ∧ (r.vl = 1 ↔ wraps (g.size / x) (own / x) (r.port < 6)) ∧ r.vl ≤ 1) := by
  obtain ⟨w, hm, hvl, hhop⟩ := planRoute_takes htor hx h
  intro x own wraps
  by_cases hne : g.position % g.plan.x ≠ q % g.plan.x
  · rw [if_pos hne] at hhop
    obtain ⟨up, hmem, rfl, hport⟩ := dimHop_takes hhop
    rw [hfab, dirPorts_x] at hmem
    have hup : r.port < 4 ∧ (up = true ↔ r.port < 2) := by
      cases up <;> simp at hmem <;> simp <;> omega
    refine ⟨hm, hport, fun _ => ⟨hup.1, ?_, by rw [hvl]; exact b2n_le_one _⟩, fun heq => absurd heq hne⟩
    rw [hvl, b2n_wrapHop_iff, hup.2]
  · rw [if_neg hne] at hhop
    obtain ⟨up, hmem, rfl, hport⟩ := dimHop_takes hhop
    rw [hfab, dirPorts_y] at hmem
    have hup : 4 ≤ r.port ∧ (up = true ↔ r.port < 6) := by
      cases up <;> simp at hmem <;> simp <;> omega
    refine ⟨hm, hport, fun hne' => absurd hne' hne, fun _ => ⟨hup.1, ?_, by rw [hvl]; exact b2n_le_one _⟩⟩
    rw [hvl, b2n_wrapHop_iff, hup.2]

/-! The time base. -/

/-- A new parent and a new grandmaster are counted and signalled. -/
def parentCounted (s : State) (p : Fin 8) (gm : Nat) : State :=
  let s := if !s.flag Reg.TB_PARENT_VALID 0 0 || s.getF Reg.TB_PARENT_PORT 0 0 != p.val then (s.countF Reg.TB_PARENT_CHANGES 0 0 1).raise 12 0 0 1
    else s
  if s.getF Reg.TB_GM_MEMBER 0 0 ≠ gm then (s.countF Reg.TB_GM_CHANGES 0 0 1).raise 12 0 0 2 else s

theorem parentCounted_same (s : State) (p : Fin 8) (gm : Nat) : parentCounted s p gm = { s with regs := (parentCounted s p gm).regs } := by
  unfold parentCounted
  dsimp only
  split <;> split <;> rfl

/-- The registers that name the parent and show the offset. -/
def parentNamed (s : State) (p : Fin 8) (hops gm off : Nat) : State :=
  (((((s.setF Reg.TB_PARENT_VALID 0 0 1).setF Reg.TB_PARENT_PORT 0 0 p).setF Reg.TB_HOPS 0 0 (min 64 hops)).setF Reg.TB_GM_MEMBER 0 0 gm).setF
    Reg.TB_OFFSET 0 0 off).setF Reg.TB_SYNC_STATE 0 0 1

theorem parentNamed_takes (s : State) (p : Fin 8) (hops off : Nat) {gm : Nat} (hgm : gm < 4096) :
    let u := parentNamed s p hops gm off
    u.getF Reg.TB_PARENT_VALID 0 0 = 1 ∧ u.getF Reg.TB_PARENT_PORT 0 0 = p.val ∧ u.getF Reg.TB_HOPS 0 0 = min 64 hops ∧
      u.getF Reg.TB_GM_MEMBER 0 0 = gm ∧ u.getF Reg.TB_SYNC_STATE 0 0 = 1 := by
  unfold parentNamed
  simp (disch := decide) only [State.getF_setF_ne, State.getF_setF_same]
  refine ⟨rfl, Nat.mod_eq_of_lt p.isLt, Nat.mod_eq_of_lt ?_, Nat.mod_eq_of_lt hgm, rfl⟩
  exact Nat.lt_of_le_of_lt (Nat.min_le_left 64 hops) (by decide)

/-- The first exchange may step device time forward; a later one corrects the rate. -/
def timeCorrected (s : State) (off : Int) : State :=
  if !s.timeSt.synced ∧ !s.tiles.toList.any Tile.active then (if off ≥ 16 then stepTime s (off / 16).toNat else s)
  else (s.setF Reg.TB_RATE_ADJ 0 0 (toSigned 32 ((Config.freeNat s.free % 400001 : Nat) - 200000))).useFree

theorem timeCorrected_takes (s : State) (off : Int) :
    (∀ f : Fld, f.bitOnPage 0 % 0x8000 ∉ [0x880, 0x8E0] → (timeCorrected s off).getF f 0 0 = s.getF f 0 0) ∧ (timeCorrected s off).tiles = s.tiles ∧
      (timeCorrected s off).now = s.now +
        (if s.timeSt.synced = false ∧ s.tiles.toList.any Tile.active = false ∧ 16 ≤ off then (off / 16).toNat else 0) := by
  have hkey {g f : Fld} (hg : g.bitOnPage 0 % 0x8000 ∈ [0x880, 0x8E0]) (hf : f.bitOnPage 0 % 0x8000 ∉ [0x880, 0x8E0]) : g.key 0 0 ≠ f.key 0 0 :=
    Fld.key_ne_of_bitOnPage (fun h => hf (h ▸ hg)) _ _
  unfold timeCorrected
  by_cases hfirst : (!s.timeSt.synced) = true ∧ (!s.tiles.toList.any Tile.active) = true
  · rw [if_pos hfirst]
    obtain ⟨h1, h2⟩ := hfirst
    simp only [Bool.not_eq_true'] at h1 h2
    by_cases hoff : 16 ≤ off
    · rw [if_pos hoff, if_pos ⟨h1, h2, hoff⟩]
      exact ⟨fun f hf => (getF_of_regs rfl ..).trans (State.getF_setF_ne s _ (hkey (g := Reg.TB_STEPS) (by decide) hf)), rfl, rfl⟩
    · rw [if_neg hoff, if_neg (fun h => hoff h.2.2)]
      exact ⟨fun _ _ => rfl, rfl, rfl⟩
  · rw [if_neg hfirst, if_neg (fun h => hfirst ⟨by rw [h.1]; rfl, by rw [h.2.1]; rfl⟩)]
    exact ⟨fun f hf => (getF_of_regs rfl ..).trans (State.getF_setF_ne s _ (hkey (g := Reg.TB_RATE_ADJ) (by decide) hf)), rfl, rfl⟩

theorem timebaseExchange_parent {p : Fin 8} {hops gm t1 t2 t3 t4 : Nat} (hgm : gm < 4096) (hup : portUp s p = true) (hmaster : gm = grandmaster s) :
    let off : Int := max (-(2 ^ 31 : Int)) (min (2 ^ 31 - 1) ((((t2 : Int) - t1) - ((t4 : Int) - t3)) / 2))
    let u := timebaseExchange s (some (p, hops, gm)) t1 t2 t3 t4 t
    u.getF Reg.TB_PARENT_VALID 0 0 = 1 ∧ u.getF Reg.TB_PARENT_PORT 0 0 = p.val ∧ u.getF Reg.TB_HOPS 0 0 = min 64 hops ∧
      u.getF Reg.TB_GM_MEMBER 0 0 = gm ∧ u.getF Reg.TB_SYNC_STATE 0 0 = 1 ∧ u.timeSt.synced = true ∧ u.timeSt.parentLostAt = none ∧
      u.tiles = s.tiles ∧
      u.now = max s.now t + (if s.timeSt.synced = false ∧ s.tiles.toList.any Tile.active = false ∧ 16 ≤ off then (off / 16).toNat else 0) := by
  have hfilter : (some (p, hops, gm)).filter (fun x => portUp (s.atTime t) x.1 && x.2.2 == grandmaster (s.atTime t)) = some (p, hops, gm) := by
    have h1 : portUp (s.atTime t) p = true := hup
    have h2 : grandmaster (s.atTime t) = gm := hmaster.symm
    simp [Option.filter_some, h1, h2]
  have heq : timebaseExchange s (some (p, hops, gm)) t1 t2 t3 t4 t =
      let off : Int := max (-(2 ^ 31 : Int)) (min (2 ^ 31 - 1) ((((t2 : Int) - t1) - ((t4 : Int) - t3)) / 2))
      let w := timeCorrected (parentNamed (parentCounted (s.atTime t) p gm) p hops gm (toSigned 32 off)) off
      { w.setF Reg.TB_LAST_SYNC 0 0 w.now with timeSt := { w.timeSt with synced := true, parentLostAt := none } } := by
    unfold timebaseExchange
    simp only [hfilter]
    rfl
  dsimp only at heq ⊢
  rw [heq]
  generalize max (-(2 ^ 31 : Int)) (min (2 ^ 31 - 1) ((((t2 : Int) - t1) - ((t4 : Int) - t3)) / 2)) = off
  have hsame := parentCounted_same (s.atTime t) p gm
  generalize parentCounted (s.atTime t) p gm = v at hsame ⊢
  obtain ⟨h1, h2, h3, h4, h5⟩ := parentNamed_takes v p hops (toSigned 32 off) hgm
  have htiles : (parentNamed v p hops gm (toSigned 32 off)).tiles = s.tiles := by
    change v.tiles = s.tiles
    rw [hsame]
    rfl
  have hnow : (parentNamed v p hops gm (toSigned 32 off)).now = max s.now t := by
    change v.now = max s.now t
    rw [hsame]
    rfl
  have hsync : (parentNamed v p hops gm (toSigned 32 off)).timeSt = s.timeSt := by
    change v.timeSt = s.timeSt
    rw [hsame]
    rfl
  generalize parentNamed v p hops gm (toSigned 32 off) = x at h1 h2 h3 h4 h5 htiles hnow hsync ⊢
  obtain ⟨hget, htiles', hnow'⟩ := timeCorrected_takes x off
  rw [hsync, htiles, hnow] at hnow'
  generalize timeCorrected x off = w at hget htiles' hnow' ⊢
  have hend (f : Fld) (hf : f.bitOnPage 0 % 0x8000 ∉ [0x880, 0x8E0]) (hlast : Reg.TB_LAST_SYNC.key 0 0 ≠ f.key 0 0) :
      (w.setF Reg.TB_LAST_SYNC 0 0 w.now).getF f 0 0 = x.getF f 0 0 := (State.getF_setF_ne w _ hlast).trans (hget f hf)
  have hkeep (f : Fld) := getF_of_regs (s := w.setF Reg.TB_LAST_SYNC 0 0 w.now)
    (u := { w.setF Reg.TB_LAST_SYNC 0 0 w.now with timeSt := { w.timeSt with synced := true, parentLostAt := none } }) rfl f 0 0
  exact ⟨(hkeep _).trans ((hend _ (by decide) (by decide)).trans h1), (hkeep _).trans ((hend _ (by decide) (by decide)).trans h2),
    (hkeep _).trans ((hend _ (by decide) (by decide)).trans h3), (hkeep _).trans ((hend _ (by decide) (by decide)).trans h4),
    (hkeep _).trans ((hend _ (by decide) (by decide)).trans h5), rfl, rfl, htiles'.trans htiles, hnow'⟩

/-- The fields of the parent, cleared; a loss and a new grandmaster are counted and signalled. -/
def parentCleared (s : State) : State :=
  let v := (s.setF Reg.TB_PARENT_VALID 0 0 0).setF Reg.TB_HOPS 0 0 0
  let v := if s.flag Reg.TB_PARENT_VALID 0 0 then (v.countF Reg.TB_PARENT_CHANGES 0 0 1).raise 12 0 0 1 else v
  if grandmaster s == ownMember s ∧ s.getF Reg.TB_GM_MEMBER 0 0 ≠ ownMember s then
    ((v.setF Reg.TB_GM_MEMBER 0 0 (ownMember s)).countF Reg.TB_GM_CHANGES 0 0 1).raise 12 0 0 2
  else v

/-- The fields that count and signal a lost parent and a new grandmaster. -/
def parentSignals : List Nat :=
  [(Hdr.INT_STATUS 12 0).key 0 0, Reg.TB_GM_MEMBER.key 0 0, Reg.TB_PARENT_CHANGES.key 0 0, Reg.TB_GM_CHANGES.key 0 0]

/-- The state of the time base without a parent, and since when. -/
def parentLost (s : State) (alone : Bool) (t : Nat) : State :=
  let up := (List.finRange 8).any (portUp s)
  let s := if s.getF Reg.TB_SYNC_STATE 0 0 = 3 ∧ !(up && alone) then s else s.setF Reg.TB_SYNC_STATE 0 0 (if up && alone then 0 else 2)
  { s with timeSt := { s.timeSt with parentLostAt := if up && alone then none else some (s.timeSt.parentLostAt.getD t) } }

theorem parentCleared_signals (s : State) :
    ChangesAt ((s.setF Reg.TB_PARENT_VALID 0 0 0).setF Reg.TB_HOPS 0 0 0) (parentCleared s) parentSignals := by
  have hset (v : State) {f : Fld} (n : Nat) (h : f.key 0 0 ∈ parentSignals) : ChangesAt v (v.setF f 0 0 n) parentSignals := ChangesAt.setF v n h
  unfold parentCleared
  dsimp only
  generalize (s.setF Reg.TB_PARENT_VALID 0 0 0).setF Reg.TB_HOPS 0 0 0 = v
  have hlost (c : Prop) [Decidable c] :
      ChangesAt v (if c then (v.countF Reg.TB_PARENT_CHANGES 0 0 1).raise 12 0 0 1 else v) parentSignals := by
    split
    · exact (hset v (f := Reg.TB_PARENT_CHANGES) _ (by decide)).trans (hset _ (f := Hdr.INT_STATUS 12 0) _ (by decide))
    · exact ChangesAt.refl _ _
  split
  · exact (hlost _).trans ((hset _ (f := Reg.TB_GM_MEMBER) _ (by decide)).trans ((hset _ (f := Reg.TB_GM_CHANGES) _ (by decide)).trans
      (hset _ (f := Hdr.INT_STATUS 12 0) _ (by decide))))
  · exact hlost _

theorem parentCleared_takes (s : State) :
    (parentCleared s).getF Reg.TB_PARENT_VALID 0 0 = 0 ∧ (∀ p : Fin 8, portState (parentCleared s) p = portState s p) ∧
      (parentCleared s).getF Reg.TB_SYNC_STATE 0 0 = s.getF Reg.TB_SYNC_STATE 0 0 ∧ (parentCleared s).timeSt = s.timeSt ∧
      (parentCleared s).now = s.now := by
  obtain ⟨hrest, hget⟩ := parentCleared_signals s
  refine ⟨(hget _ _ _ (by decide)).trans ((State.getF_setF_ne _ 0 (by decide)).trans (State.getF_setF_same ..)), fun p => ?_,
    (hget _ _ _ (by decide)).trans ((State.getF_setF_ne _ 0 (by decide)).trans (State.getF_setF_ne s 0 (by decide))), ?_, ?_⟩
  · have hsignal : Reg.KML_STATE.key p 0 ∉ parentSignals := by decide +revert
    exact (hget _ _ _ hsignal).trans ((State.getF_setF_ne _ 0 (Fld.key_ne_of_bitOnPage (by decide) _ _)).trans
      (State.getF_setF_ne s 0 (Fld.key_ne_of_bitOnPage (by decide) _ _)))
  · rw [hrest]
    rfl
  · rw [hrest]
    rfl

/-- Without a parent: its fields are cleared and the loss is dated. -/
theorem timebaseExchange_alone {par : Option (Fin 8 × Nat × Nat)} {t1 t2 t3 t4 : Nat} (hdown : (List.finRange 8).any (portUp s) = false)
    (hsync : s.getF Reg.TB_SYNC_STATE 0 0 ≠ 3) :
    let u := timebaseExchange s par t1 t2 t3 t4 t
    u.getF Reg.TB_PARENT_VALID 0 0 = 0 ∧ u.getF Reg.TB_SYNC_STATE 0 0 = 2 ∧ u.timeSt.parentLostAt = some (s.timeSt.parentLostAt.getD t) ∧
      u.now = max s.now t := by
  have hfilter : par.filter (fun x => portUp (s.atTime t) x.1 && x.2.2 == grandmaster (s.atTime t)) = none := by
    rw [Option.filter_eq_none_iff]
    intro x _ hx
    obtain ⟨h, -⟩ := Bool.and_eq_true_iff.mp hx
    have hany : (List.finRange 8).any (portUp s) = true := List.any_eq_true.mpr ⟨x.1, List.mem_finRange _, h⟩
    rw [hdown] at hany
    cases hany
  obtain ⟨hvalid, hstate, hold, htime, hnow⟩ := parentCleared_takes (s.atTime t)
  have hports : portUp (parentCleared (s.atTime t)) = portUp s := funext fun p => congrArg (· == 4) (hstate p)
  have hdown' : (List.finRange 8).any (portUp (parentCleared (s.atTime t))) = false := by rw [hports, hdown]
  have hsync' : (parentCleared (s.atTime t)).getF Reg.TB_SYNC_STATE 0 0 ≠ 3 := fun h => hsync (hold.symm.trans h)
  have heq : timebaseExchange s par t1 t2 t3 t4 t =
      let w := (parentCleared (s.atTime t)).setF Reg.TB_SYNC_STATE 0 0 2
      { w with timeSt := { w.timeSt with parentLostAt := some (s.timeSt.parentLostAt.getD t) } } := by
    have hstage : timebaseExchange s par t1 t2 t3 t4 t =
        parentLost (parentCleared (s.atTime t)) (grandmaster (s.atTime t) == ownMember (s.atTime t)) t := by
      unfold timebaseExchange
      simp only [hfilter]
      rfl
    rw [hstage]
    unfold parentLost
    rw [hdown']
    simp only [Bool.false_and, Bool.false_eq_true, if_false, if_neg (fun h => hsync' (And.left h)), State.setF_timeSt, htime]
    rfl
  dsimp only at heq ⊢
  rw [heq]
  generalize parentCleared (s.atTime t) = v at hvalid hnow ⊢
  exact ⟨(getF_of_regs (s := v.setF Reg.TB_SYNC_STATE 0 0 2) rfl ..).trans ((State.getF_setF_ne v 2 (by decide)).trans hvalid),
    (getF_of_regs (s := v.setF Reg.TB_SYNC_STATE 0 0 2) rfl ..).trans ((State.getF_setF_same ..).trans rfl), rfl, hnow⟩

/-- The loss of the parent, reported once a second is over. -/
theorem timeUnsync_takes {l : Nat} (hl : s.timeSt.parentLostAt = some l) (hsync : s.getF Reg.TB_SYNC_STATE 0 0 ≠ 3) (ht : l + 1000000000 ≤ t) :
    let u := timeUnsync s t
    u.getF Reg.TB_SYNC_STATE 0 0 = 3 ∧ u.now = max s.now t ∧
      (bit (s.getF (Hdr.INT_STATUS 12 0) 0 0) 0 = false → u.getF (Hdr.ERR_CODE 12 0) 0 0 = 0x040A) := by
  have hno : ¬(t < l + 1000000000 ∨ s.getF Reg.TB_SYNC_STATE 0 0 = 3) := not_or.mpr ⟨Nat.not_lt.mpr ht, hsync⟩
  simp only [timeUnsync, hl, if_neg hno]
  refine ⟨(State.getF_setF_same ..).trans rfl, State.recordErr_now .., fun h => ?_⟩
  rw [State.getF_setF_ne _ _ (by decide)]
  exact (recordErr_fields (s := s.atTime t) h ..).1

end

/-- Settles O34, message by message, and the route of a plan by its hop. -/
theorem membershipAndTimeBase : Obligations.MembershipAndTimeBase := by
  unfold Obligations.MembershipAndTimeBase
  refine ⟨fun s t => ⟨fun m st boot serial runtime fit hcp hm => ?_, fun p hops gm t1 t2 t3 t4 hgm hup hmaster => ?_,
    fun par t1 t2 t3 t4 hdown hsync => ⟨_, rfl, timebaseExchange_alone hdown hsync⟩, fun l hl hsync => ⟨fun ht => ?_, fun ht => ?_⟩⟩,
    fun s g q r hfab htor hx h => route_facts hfab htor hx h⟩
  · intro known y
    exact ⟨fun hst => congrArg Host.Outcome.next (membership_reserved hst),
      fun ms hst hboot => ⟨_, congrArg Host.Outcome.next (membership_sameBoot hcp hm hst hboot), rfl, rfl⟩,
      fun ms hst hboot => congrArg Host.Outcome.next (membership_rebooted hcp hm hst hboot)⟩
  · obtain ⟨h1, h2, h3, h4, h5, h6, h7, h8, h9⟩ :=
      timebaseExchange_parent (t := t) (hops := hops) (t1 := t1) (t2 := t2) (t3 := t3) (t4 := t4) hgm hup hmaster
    exact ⟨_, rfl, h1, h2, h3, h4, h5, h6, h7, h8, h9⟩
  · have hno : t < l + 1000000000 ∨ s.getF Reg.TB_SYNC_STATE 0 0 = 3 := Or.inl ht
    simp only [exec, execTimeUnsync, timeUnsync, hl, if_pos hno]
  · exact ⟨_, rfl, timeUnsync_takes hl hsync ht⟩

end Sys2Proof.Machine
end

section
namespace Sys2Proof.Machine

set_option Elab.async false

/-! O35: device DRAM. -/

section
variable {s : State} {a n : Nat}

theorem pmicLines_calm (h : ∀ c : Fin 24, s.dimms[c].pmic = false) (a n : Nat) : pmicLines s a n = s := by
  have hnone : (dramLines a n).filter (fun l => s.dimms[chanFin s l].pmic && !s.dramUe.contains l) = [] :=
    List.filter_eq_nil_iff.mpr fun l _ => by rw [h]; exact Bool.false_ne_true
  unfold pmicLines
  rw [hnone]
  dsimp only
  rw [List.append_nil]

theorem dramReadCommand_calm (h : ∀ c : Fin 24, s.dimms[c].pmic = false) :
    dramReadCommand s a n [] =
      { (dramRead s a n).1 with reply := { data := (dramRead s a n).2.2, err := (dramRead s a n).2.1.getD 0 } } := by
  have hhits : meetHits s [] = s := rfl
  unfold dramReadCommand
  rw [hhits, pmicLines_calm h]

/-- Corrected lines are counted, and nothing else changes. -/
theorem foldl_countCe (l : List Nat) : ∀ s : State,
    let u := l.foldl (fun s l => s.countF Reg.DDR_CE_COUNT (chanOf s l) 0 1) s
    u = { s with regs := u.regs } ∧ dramSize u = dramSize s := by
  induction l with
  | nil => exact fun s => ⟨rfl, rfl⟩
  | cons x l ih =>
    intro s
    obtain ⟨h1, h2⟩ := ih (s.countF Reg.DDR_CE_COUNT (chanOf s x) 0 1)
    exact ⟨h1.trans rfl, h2.trans (dramSize_setF s (by decide) _ _)⟩

/-- A read of lines that can be read. -/
theorem dramRead_readable (hsize : a + n ≤ dramSize s) (hue : ∀ l ∈ dramLines a n, l ∉ s.dramUe) :
    ∃ u, dramRead s a n = (u, none, Memory.readN s.dram a n) ∧ u.dram = s.dram ∧ ∀ l ∈ dramLines a n, l ∉ u.dramCe := by
  have hnone : (dramLines a n).find? (s.dramUe.contains ·) = none := List.find?_eq_none.mpr fun l hl => by simpa using hue l hl
  have hfold := foldl_countCe ((dramLines a n).filter (s.dramCe.contains ·))
    { s with dramCe := s.dramCe.filter (fun l => !(dramLines a n).contains l) }
  unfold dramRead
  dsimp only at hfold ⊢
  rw [hnone]
  dsimp only
  generalize ((dramLines a n).filter (s.dramCe.contains ·)).foldl _ _ = v at hfold ⊢
  obtain ⟨hsame, hdsize⟩ := hfold
  have hvdram : v.dram = s.dram := by rw [hsame]
  have hfits : a + n ≤ dramSize v := Nat.le_trans hsize (Nat.le_of_eq hdsize.symm)
  rw [if_pos hfits, hvdram]
  refine ⟨v, rfl, hvdram, fun l hl hmem => ?_⟩
  rw [hsame] at hmem
  have hnot := (List.mem_filter.mp hmem).2
  simp [hl] at hnot

theorem dramUncorrectable_dram (s : State) (a : Nat) : (dramUncorrectable s a).dram = s.dram := by
  unfold dramUncorrectable retirePending setChan
  dsimp only
  split
  · split <;> simp
  · simp

/-- A read that meets an uncorrectable line. -/
theorem dramRead_uncorrectable {l : Nat} (hl : l ∈ dramLines a n) (hue : l ∈ s.dramUe) :
    ∃ u, dramRead s a n = (u, some 0x0503, []) ∧ u.dram = s.dram := by
  obtain ⟨k, hk⟩ := Option.isSome_iff_exists.mp (List.find?_isSome.mpr ⟨l, hl, by simpa using hue⟩ :
    ((dramLines a n).find? (s.dramUe.contains ·)).isSome)
  unfold dramRead
  dsimp only
  rw [hk]
  exact ⟨_, rfl, dramUncorrectable_dram s k⟩

theorem State.dimm_modDimm (s : State) (c : Fin 24) (f : DimmState → DimmState) : (s.modDimm c f).dimms[c] = f s.dimms[c] :=
  Vector.getElem_set_self ..

/-- What patrol scrub makes of the line at `a`. -/
def patrolRead (s : State) (c : Fin 24) (a : Nat) : State :=
  if s.dramUe.contains a then
    let s := (s.countF Reg.DDR_UE_COUNT c 0 1).setF Reg.DDR_LAST_UE_ADDR c 0 a
    retirePending (s.recordErr 5 0 c 0x0504 c (a % 2 ^ 32)) c 4
  else if s.dramCe.contains a then ({ s with dramCe := s.dramCe.filter (· != a) }).countF Reg.DDR_CE_COUNT c 0 1
  else s

theorem patrolRead_clean (hue : s.dramUe = []) (c : Fin 24) (a : Nat) :
    (patrolRead s c a).dram = s.dram ∧ a ∉ (patrolRead s c a).dramCe := by
  unfold patrolRead
  rw [if_neg (by rw [hue]; exact Bool.false_ne_true)]
  split
  · refine ⟨rfl, fun hmem => ?_⟩
    have hne := (List.mem_filter.mp hmem).2
    simp at hne
  · rename_i hce
    exact ⟨rfl, fun hmem => hce (by simpa using hmem)⟩

/-- The patrol scrub of a channel with no uncorrectable line, but for its last line. -/
theorem patrolScrub_takes {ch : Fin 24} {t : Nat} (hcalm : ∀ c : Fin 24, s.dimms[c].pmic = false) (hch : chanInService s ch = true)
    (hue : s.dramUe = []) (hk : s.dimms[ch].patrolAt + 1 < chanLines) :
    let u := patrolScrub s ch [] t
    u.dimms[ch].patrolAt = s.dimms[ch].patrolAt + 1 ∧ u.dram = s.dram ∧ chanAddr s ch s.dimms[ch].patrolAt ∉ u.dramCe := by
  have hno : ¬((!chanInService (s.atTime t) ch) = true) := by
    rw [show chanInService (s.atTime t) ch = chanInService s ch from rfl, hch]
    decide
  have haddr : chanAddr (s.atTime t) ch (s.atTime t).dimms[ch].patrolAt = chanAddr s ch s.dimms[ch].patrolAt := rfl
  have hquiet : pmicLines (meetHits (s.atTime t) []) (chanAddr s ch s.dimms[ch].patrolAt) 64 = s.atTime t := pmicLines_calm (s := s.atTime t) hcalm _ _
  have hlast : ¬((s.atTime t).dimms[ch].patrolAt + 1 ≥ chanLines) := Nat.not_le.mpr hk
  have heq : patrolScrub s ch [] t =
      (patrolRead (pmicLines (meetHits (s.atTime t) []) (chanAddr s ch s.dimms[ch].patrolAt) 64) ch (chanAddr s ch s.dimms[ch].patrolAt)).modDimm ch
        (fun d => { d with patrolAt := s.dimms[ch].patrolAt + 1 }) := (if_neg hno).trans (if_neg hlast)
  rw [hquiet] at heq
  obtain ⟨hdram, hce⟩ := patrolRead_clean (s := s.atTime t) hue ch (chanAddr s ch s.dimms[ch].patrolAt)
  dsimp only
  rw [heq]
  exact ⟨congrArg DimmState.patrolAt (State.dimm_modDimm _ ch _), hdram, hce⟩

/-- A DIMM's temperature. -/
theorem dimmTemperature_takes {ch : Fin 24} {temp t : Nat} (hch : chanInService s ch = true) :
    let u := dimmTemperature s ch temp t
    u.dram = s.dram ∧ u.dimms[ch].hot = (if temp > 95 then true else if temp ≤ 90 then false else s.dimms[ch].hot) ∧
      (temp > 95 → s.dimms[ch].hot = false → bit (s.getF (Hdr.INT_STATUS 19 0) 0 0) 0 = false → u.getF (Hdr.ERR_CODE 19 0) 0 0 = 0x070C) := by
  have hno : ¬((!chanInService (s.atTime t) ch) = true) := by
    rw [show chanInService (s.atTime t) ch = chanInService s ch from rfl, hch]
    decide
  by_cases hhigh : temp > 95
  · rw [if_pos hhigh]
    by_cases hhot : s.dimms[ch].hot = true
    · have heq : dimmTemperature s ch temp t = s.atTime t := (if_neg hno).trans ((if_pos hhigh).trans (if_pos hhot))
      dsimp only
      rw [heq]
      exact ⟨rfl, hhot, fun _ h => absurd (hhot.symm.trans h) (by decide)⟩
    · have heq : dimmTemperature s ch temp t = ((s.atTime t).recordErr 19 0 0 0x070C ch 0).modDimm ch (fun d => { d with hot := true }) :=
        (if_neg hno).trans ((if_pos hhigh).trans (if_neg hhot))
      dsimp only
      rw [heq]
      refine ⟨State.recordErr_dram .., congrArg DimmState.hot (State.dimm_modDimm _ ch _), fun _ _ h => ?_⟩
      exact (getF_of_regs rfl ..).trans (recordErr_fields (s := s.atTime t) h 0x070C ch 0).1
  · rw [if_neg hhigh]
    by_cases hlow : temp ≤ 90
    · have heq : dimmTemperature s ch temp t = (s.atTime t).modDimm ch (fun d => { d with hot := false }) :=
        (if_neg hno).trans ((if_neg hhigh).trans (if_pos hlow))
      dsimp only
      rw [heq, if_pos hlow]
      exact ⟨rfl, congrArg DimmState.hot (State.dimm_modDimm _ ch _), fun h => absurd h hhigh⟩
    · have heq : dimmTemperature s ch temp t = s.atTime t := (if_neg hno).trans ((if_neg hhigh).trans (if_neg hlow))
      dsimp only
      rw [heq, if_neg hlow]
      exact ⟨rfl, rfl, fun h => absurd h hhigh⟩

end

/-- Settles O35, access by access. -/
theorem deviceDram : Obligations.DeviceDram := by
  unfold Obligations.DeviceDram
  intro s a n data ch t calm
  refine ⟨fun hits h => if_pos h, fun hits h => if_pos h, fun hsize hcalm hue => ?_, fun l hsize hcalm hl hue => ?_, fun hsize hue => ?_,
    fun hcalm hch hue hk => ⟨_, rfl, patrolScrub_takes hcalm hch hue hk⟩, fun temp hch => ⟨_, rfl, dimmTemperature_takes hch⟩⟩
  · obtain ⟨u, hread, hdram, hce⟩ := dramRead_readable hsize hue
    have hcmd := dramReadCommand_calm (a := a) (n := n) hcalm
    rw [hread] at hcmd
    exact ⟨_, (if_neg (Nat.not_lt.mpr hsize)).trans (congrArg Host.Outcome.next hcmd), rfl, hdram, hce⟩
  · obtain ⟨u, hread, hdram⟩ := dramRead_uncorrectable hl hue
    have hcmd := dramReadCommand_calm (a := a) (n := n) hcalm
    rw [hread] at hcmd
    exact ⟨_, (if_neg (Nat.not_lt.mpr hsize)).trans (congrArg Host.Outcome.next hcmd), rfl, hdram⟩
  · have hcmd : dramWriteCommand s a data [] = { (dramWrite s a data).1 with reply := { data := [], err := (dramWrite s a data).2.getD 0 } } := rfl
    rw [dramWrite_clean hsize hue] at hcmd
    refine ⟨_, (if_neg (Nat.not_lt.mpr hsize)).trans (congrArg Host.Outcome.next hcmd), rfl, rfl, fun k hk => ?_, fun k hk => ?_⟩
    · exact Memory.read_writeL_outside data s.dram hk
    · change Memory.read (Memory.writeL s.dram a data) (a + k) = data[k]
      rw [Memory.read_writeL, if_pos (by omega), Nat.add_sub_cancel_left, List.getD_eq_getElem?_getD, List.getElem?_eq_getElem hk, Option.getD_some]

end Sys2Proof.Machine
end

section
namespace Sys2Proof.Machine

set_option Elab.async false

/-! O36: the mailbox takes requests. -/

/-! Numbers as bytes. -/

theorem leNat_toLe (n : Nat) : ∀ v : Nat, leNat (toLe n v) = v % 256 ^ n := by
  induction n with
  | zero => exact fun v => (Nat.mod_one v).symm
  | succ n ih =>
    intro v
    have hpow : 256 ^ (n + 1) = 256 * 256 ^ n := (Nat.pow_succ 256 n).trans (Nat.mul_comm ..)
    rw [toLe, leNat, ih, BitVec.toNat_ofNat, hpow]
    exact Nat.mod_mul.symm

theorem toLe_add (m n : Nat) : ∀ v : Nat, toLe (m + n) v = toLe m v ++ toLe n (v / 256 ^ m) := by
  induction m with
  | zero =>
    intro v
    rw [Nat.zero_add, Nat.pow_zero, Nat.div_one]
    rfl
  | succ m ih =>
    intro v
    rw [Nat.succ_add, toLe, ih, toLe, List.cons_append, Nat.div_div_eq_div_mul, Nat.mul_comm 256 (256 ^ m), ← Nat.pow_succ]

theorem field_toLe_append (n v : Nat) (rest : List Byte) : field (toLe n v ++ rest) 0 n = v % 256 ^ n := by
  rw [field, List.drop_zero, List.take_left' (length_toLe n v), leNat_toLe]

theorem field_append (l rest : List Byte) {a : Nat} (n : Nat) (h : l.length ≤ a) : field (l ++ rest) a n = field rest (a - l.length) n := by
  rw [field, List.drop_append, List.drop_of_length_le h, List.nil_append, field]

/-- A field after a number. -/
theorem field_toLe_skip (m v : Nat) (rest : List Byte) {a : Nat} (n : Nat) (h : m ≤ a) : field (toLe m v ++ rest) a n = field rest (a - m) n := by
  rw [field_append _ _ _ (by rwa [length_toLe]), length_toLe]

theorem crc32c_lt (d : List Byte) : crc32c d < 2 ^ 32 := (~~~(crc32More 0xFFFFFFFF#32 d)).isLt

/-! The bytes of a request. -/

/-- The first 28 bytes of a request: all but its CHECK. -/
def requestHead (op : Nat) (a : MbxArgs) : List Byte :=
  toLe 2 a.version.toNat ++ toLe 2 op ++ toLe 4 a.seq.toNat ++ toLe 8 a.payload.length ++ toLe 8 a.tag.toNat ++ toLe 4 0

theorem length_requestHead (op : Nat) (a : MbxArgs) : (requestHead op a).length = 28 := by
  simp [requestHead, length_toLe]

theorem requestBytes_eq (op : Nat) (a : MbxArgs) :
    requestBytes op a = requestHead op a ++ (toLe 4 (crc32c (requestHead op a ++ a.payload)) ++ a.payload) := by
  rw [← List.append_assoc]
  rfl

/-- What the head of a request says. -/
structure RequestFields (op : Nat) (a : MbxArgs) (b : List Byte) : Prop where
  version : field b 0 2 = a.version.toNat
  opcode : field b 2 2 = op
  seq : field b 4 4 = a.seq.toNat
  size : field b 8 2 = a.payload.length
  unused : field b 10 6 = 0
  tag : field b 16 8 = a.tag.toNat
  reserved : field b 24 4 = 0
  check : field b 28 4 = crc32c (requestHead op a ++ a.payload)
  head : b.take 28 = requestHead op a
  payload : b.drop 32 = a.payload
  long : 32 ≤ b.length

theorem requestBytes_fields {op : Nat} {a : MbxArgs} (hop : op < 65536) (hlen : a.payload.length ≤ 224) :
    RequestFields op a (requestBytes op a) := by
  have hver : a.version.toNat < 65536 := a.version.isLt
  have hseq : a.seq.toNat < 2 ^ 32 := a.seq.isLt
  have htag : a.tag.toNat < 2 ^ 64 := a.tag.isLt
  have hlen2 : toLe 8 a.payload.length = toLe 2 a.payload.length ++ toLe 6 0 := by
    rw [toLe_add 2 6, Nat.div_eq_of_lt (by omega)]
  have hlong : (requestBytes op a).length = 32 + a.payload.length := by
    rw [requestBytes_eq, List.length_append, List.length_append, length_requestHead, length_toLe]
    omega
  have hbytes : requestBytes op a = toLe 2 a.version.toNat ++ (toLe 2 op ++ (toLe 4 a.seq.toNat ++ (toLe 2 a.payload.length ++ (toLe 6 0 ++
      (toLe 8 a.tag.toNat ++ (toLe 4 0 ++ (toLe 4 (crc32c (requestHead op a ++ a.payload)) ++ a.payload))))))) := by
    rw [requestBytes_eq]
    generalize crc32c (requestHead op a ++ a.payload) = c
    rw [requestHead, hlen2]
    simp only [List.append_assoc]
  refine ⟨?_, ?_, ?_, ?_, ?_, ?_, ?_, ?_, ?_, ?_, by omega⟩
  · rw [hbytes, field_toLe_append]
    exact Nat.mod_eq_of_lt hver
  · rw [hbytes, field_toLe_skip 2 _ _ _ (by decide), field_toLe_append]
    exact Nat.mod_eq_of_lt hop
  · rw [hbytes, field_toLe_skip 2 _ _ _ (by decide), field_toLe_skip 2 _ _ _ (by decide), field_toLe_append]
    exact Nat.mod_eq_of_lt hseq
  · rw [hbytes, field_toLe_skip 2 _ _ _ (by decide), field_toLe_skip 2 _ _ _ (by decide), field_toLe_skip 4 _ _ _ (by decide), field_toLe_append]
    exact Nat.mod_eq_of_lt (by omega)
  · rw [hbytes, field_toLe_skip 2 _ _ _ (by decide), field_toLe_skip 2 _ _ _ (by decide), field_toLe_skip 4 _ _ _ (by decide),
      field_toLe_skip 2 _ _ _ (by decide)]
    exact field_toLe_append ..
  · rw [hbytes, field_toLe_skip 2 _ _ _ (by decide), field_toLe_skip 2 _ _ _ (by decide), field_toLe_skip 4 _ _ _ (by decide),
      field_toLe_skip 2 _ _ _ (by decide), field_toLe_skip 6 _ _ _ (by decide), field_toLe_append]
    exact Nat.mod_eq_of_lt htag
  · rw [hbytes, field_toLe_skip 2 _ _ _ (by decide), field_toLe_skip 2 _ _ _ (by decide), field_toLe_skip 4 _ _ _ (by decide),
      field_toLe_skip 2 _ _ _ (by decide), field_toLe_skip 6 _ _ _ (by decide), field_toLe_skip 8 _ _ _ (by decide)]
    exact field_toLe_append ..
  · rw [requestBytes_eq, field_append _ _ _ (Nat.le_of_eq (length_requestHead ..)), length_requestHead, field_toLe_append]
    exact Nat.mod_eq_of_lt (crc32c_lt _)
  · rw [requestBytes_eq]
    exact List.take_left' (length_requestHead op a)
  · rw [requestBytes_eq, ← List.append_assoc]
    exact List.drop_left' (by rw [List.length_append, length_requestHead, length_toLe])

theorem requestBytes_formed {op : Nat} {a : MbxArgs} (hop : op < 65536) (hlen : a.payload.length ≤ 224) :
    formatOk (requestBytes op a) = true ∧ reqPayload (requestBytes op a) = a.payload := by
  obtain ⟨-, -, -, hsize, hun, -, hres, hcheck, hhead, hpay, hlong⟩ := requestBytes_fields hop hlen
  have hp : reqPayload (requestBytes op a) = a.payload := by
    rw [reqPayload, hsize, hpay, List.take_length]
  refine ⟨?_, hp⟩
  rw [formatOk, hsize, hun, hres, hcheck, hhead, hp]
  simp [hlong, hlen]

/-! A write of the host that comes in time. -/

section
variable {s : State} {t : Nat}

/-- The host is heard at device time `t`. -/
def hostHeard (s : State) (t : Nat) : State :=
  if s.flag Reg.MBX_BOUND 0 0 then { s.atTime t with fw := { s.fw with hostPaused := 0 } }.setF Reg.QMGR_HOST_LAST_SEEN 0 0 t else s.atTime t

theorem hostWrite_inTime (h : HostInTime s t) : hostWrite s t = hostHeard s t := by
  have hquiet : hostLossTimeout (s.atTime t) (t - 1) = s.atTime t := by
    refine if_pos ?_
    refine Classical.byContradiction fun hall => ?_
    simp only [not_or, Bool.not_eq_true', Bool.not_eq_false, Classical.not_not] at hall
    obtain ⟨h1, h2, h3, h4⟩ := hall
    exact h4 (h h1 h2 h3)
  unfold hostWrite
  rw [hquiet]
  rfl

/-- What hearing the host leaves as it was. -/
theorem hostHeard_takes (s : State) (t : Nat) :
    (∀ (f : Fld) (inst i : Nat), Reg.QMGR_HOST_LAST_SEEN.key 0 0 ≠ f.key inst i → (hostHeard s t).getF f inst i = s.getF f inst i) ∧
      ∃ regs n, hostHeard s t = { s with now := max s.now t, regs := regs, fw := { s.fw with hostPaused := n } } := by
  unfold hostHeard
  split
  · exact ⟨fun f inst i h => (State.getF_setF_ne _ t h).trans (getF_of_regs rfl ..), _, _, rfl⟩
  · exact ⟨fun f inst i _ => rfl, _, s.fw.hostPaused, rfl⟩

/-- The state in which a request is taken up, but for the time, the host's timer and the ring. -/
theorem mbxTaken_same (h : HostInTime s t) :
    (∀ (f : Fld) (inst i : Nat), Reg.QMGR_HOST_LAST_SEEN.key 0 0 ≠ f.key inst i → (mbxTaken s t).getF f inst i = s.getF f inst i) ∧
      ∃ regs n, mbxTaken s t = { s with
        now := max s.now t
        regs := regs
        fw := { s.fw with hostPaused := n }
        mbx := { s.mbx with reqTail := (s.mbx.reqTail + 1) % 2 ^ 32, waiting := [] } } := by
  obtain ⟨hget, regs, n, hsame⟩ := hostHeard_takes s t
  unfold mbxTaken
  rw [hostWrite_inTime h]
  refine ⟨fun f inst i hf => (getF_of_regs rfl ..).trans (hget f inst i hf), regs, n, ?_⟩
  rw [hsame]

/-- Is the mailbox served, as the fields that say so tell. -/
theorem mailboxServed_congr {u : State} (hpower : u.power = s.power)
    (hget : ∀ (f : Fld) (inst : Nat), Reg.QMGR_HOST_LAST_SEEN.key 0 0 ≠ f.key inst 0 → u.getF f inst 0 = s.getF f inst 0) :
    mailboxServed u = mailboxServed s := by
  unfold mailboxServed fwState cpUp
  rw [hpower, hget (Hdr.ENABLE 8) 0 (by decide), hget Reg.MBX_FW_STATE 0 (by decide), hget Reg.CP_STATE 0 (by decide),
    hget Reg.CP_STATE 1 (by decide)]

/-- The mailbox takes a request up at once. -/
theorem mailboxRequest_taken {n : Nat} (h : MbxTurn s t n) (r : MbxRequest) :
    mailboxRequest s r t = serveAll 64 (serveRequest (mbxTaken s t) r) := by
  obtain ⟨hact, htime, hserved, hnone, ⟨htail, hlt⟩, hroom, -⟩ := h
  obtain ⟨hget, regs, k, hsame⟩ := hostHeard_takes s t
  have hmbx : (hostWrite s t).mbx = s.mbx := by
    rw [hostWrite_inTime htime, hsame]
  have hfew : ¬((s.mbx.reqTail + 2 ^ 32 - s.mbx.reqHead) % 2 ^ 32 ≥ 64) := by
    rw [htail]
    omega
  have hserved' : mailboxServed ({ hostWrite s t with
      mbx := { s.mbx with waiting := [r], reqTail := (s.mbx.reqTail + 1) % 2 ^ 32 } } : State) = true := by
    rw [← hserved]
    refine mailboxServed_congr ?_ fun f inst hf => (getF_of_regs rfl ..).trans ?_
    · rw [hostWrite_inTime htime, hsame]
    · rw [hostWrite_inTime htime]
      exact hget f inst 0 hf
  have hroom' : rspFree { s.mbx with waiting := [r], reqTail := (s.mbx.reqTail + 1) % 2 ^ 32 } = true := hroom
  have hno : ¬((!mailboxServed ({ hostWrite s t with
        mbx := { s.mbx with waiting := [r], reqTail := (s.mbx.reqTail + 1) % 2 ^ 32 } } : State)) = true ∨
      (!rspFree { s.mbx with waiting := [r], reqTail := (s.mbx.reqTail + 1) % 2 ^ 32 }) = true) := by
    rw [hserved', hroom']
    decide
  have hact' : ¬((!hostActive s) = true) := by
    rw [hact]
    decide
  unfold mailboxRequest
  rw [if_neg hact']
  dsimp only
  rw [hmbx, if_neg hfew, hnone, List.nil_append, serveMailbox]
  refine (if_neg hno).trans ?_
  unfold mbxTaken
  dsimp only
  rw [hmbx]

theorem request_taken {op : Nat} {a : MbxArgs} {n : Nat} (h : MbxTurn s a.time n) :
    request s op a = serveAll 64 (serveRequest (mbxTaken s a.time) (mbxRequest op a)) := mailboxRequest_taken h _

/-! Serving a request. -/

section
variable {op : Nat} {a : MbxArgs} (hop : op < 65536) (hlen : a.payload.length ≤ 224)
include hop hlen

/-- An answered request of a good format, by the order of its checks. -/
theorem serveRequest_eq :
    serveRequest s (mbxRequest op a) =
      let b := requestBytes op a
      let reply (x : Answer) (consumed : Bool) : State :=
        placeResponse (if consumed then keepResponse x.s a.seq.toNat (field b 28 4) (responseOf b x.status x.data) else x.s)
          (responseOf b x.status x.data) x.status
      if op ≠ 1 ∧ (a.version.toNat < s.getF Reg.MBX_VER_MIN 0 0 ∨ a.version.toNat > s.getF Reg.MBX_VER_MAX 0 0) then
        reply { s := s, status := 1, data := toLe 2 (s.getF Reg.MBX_VER_MIN 0 0) ++ toLe 2 (s.getF Reg.MBX_VER_MAX 0 0) } false
      else if op = 1 then reply (executeRequest s (mbxRequest op a)) false
      else if op = 3 then reply (executeRequest s (mbxRequest op a)) ((executeRequest s (mbxRequest op a)).status == 0)
      else if a.seq.toNat = s.getF Reg.MBX_EXPECTED_SEQ 0 0 then
        reply (executeRequest (s.setF Reg.MBX_EXPECTED_SEQ 0 0 (a.seq.toNat + 1)) (mbxRequest op a)) true
      else match s.mbx.kept.find? (fun y => y.1 == a.seq.toNat) with
        | none => reply (nack s 3) false
        | some (_, c, x) => if c = field b 28 4 then placeResponse s x (field x 12 2) else reply (nack s 4) false := by
  obtain ⟨hfmt, -⟩ := requestBytes_formed hop hlen
  obtain ⟨hver, hopc, hseq, -⟩ := requestBytes_fields hop hlen
  have hb : (mbxRequest op a).bytes = requestBytes op a := rfl
  unfold serveRequest
  dsimp only
  rw [hb, hfmt, hver, hopc, hseq, Bool.not_true]
  exact if_neg Bool.false_ne_true

theorem executeRequest_eq :
    executeRequest s (mbxRequest op a) =
      if !opcodeListed op then nack s 5
      else if !opcodeAccepted (fwState s) op ∨ (lcState s = 3 ∧ op ≠ 0x01 ∧ op ≠ 0x02 ∧ op ≠ 0x61) then nackState s
      else serveOp s op a.seq.toNat a.payload a.dma a.dma2 := by
  obtain ⟨-, hpay⟩ := requestBytes_formed hop hlen
  obtain ⟨-, hopc, hseq, -⟩ := requestBytes_fields hop hlen
  have hb : (mbxRequest op a).bytes = requestBytes op a := rfl
  unfold executeRequest
  rw [hb, hopc, hseq, hpay]
  rfl

theorem executeRequest_refused (hlisted : opcodeListed op = true)
    (hno : opcodeAccepted (fwState s) op = false ∨ (lcState s = 3 ∧ op ≠ 0x01 ∧ op ≠ 0x02 ∧ op ≠ 0x61)) :
    executeRequest s (mbxRequest op a) = nackState s := by
  rw [executeRequest_eq hop hlen, if_neg (by rw [hlisted]; decide), if_pos (hno.imp_left fun h => by rw [h]; rfl)]

theorem executeRequest_served (hlisted : opcodeListed op = true) (hacc : opcodeAccepted (fwState s) op = true)
    (hlc : lcState s = 3 → op = 0x01 ∨ op = 0x02 ∨ op = 0x61) :
    executeRequest s (mbxRequest op a) = serveOp s op a.seq.toNat a.payload a.dma a.dma2 := by
  have hno : ¬((!opcodeAccepted (fwState s) op) = true ∨ (lcState s = 3 ∧ op ≠ 0x01 ∧ op ≠ 0x02 ∧ op ≠ 0x61)) := by
    rintro (h | ⟨h, h1, h2, h3⟩)
    · rw [hacc] at h
      cases h
    · rcases hlc h with h | h | h
      · exact h1 h
      · exact h2 h
      · exact h3 h
  rw [executeRequest_eq hop hlen, if_neg (by rw [hlisted]; decide), if_neg hno]

end

/-- Every opcode of the list is one of Table 11.11, and its command is its request. -/
theorem mailboxOps_listed {o : Nat × (MbxArgs → Instr)} (ho : o ∈ mailboxOps) :
    o.1 < 65536 ∧ opcodeListed o.1 = true ∧ ∀ (s : State) (a : MbxArgs), exec (o.2 a) s = .next (request s o.1 a) := by
  simp only [mailboxOps, List.cons_append, List.nil_append, List.mem_cons, List.not_mem_nil, or_false] at ho
  rcases ho with rfl | rfl | rfl | rfl | rfl | rfl | rfl | rfl | rfl | rfl | rfl | rfl | rfl | rfl | rfl | rfl | rfl | rfl | rfl | rfl | rfl | rfl |
    rfl | rfl | rfl | rfl | rfl | rfl | rfl | rfl <;> exact ⟨by decide, by decide, fun _ _ => rfl⟩

/-- A request that the mailbox does not take up yet waits. -/
theorem mailboxRequest_waits {r : MbxRequest} (hact : hostActive s = true) (htime : HostInTime s t)
    (hfew : (s.mbx.reqTail + 2 ^ 32 - s.mbx.reqHead) % 2 ^ 32 < 64) (hno : mailboxServed s = false ∨ rspFree s.mbx = false) :
    mailboxRequest s r t =
      { hostWrite s t with mbx := { s.mbx with waiting := s.mbx.waiting ++ [r], reqTail := (s.mbx.reqTail + 1) % 2 ^ 32 } } := by
  obtain ⟨hget, regs, k, hsame⟩ := hostHeard_takes s t
  have hmbx : (hostWrite s t).mbx = s.mbx := by
    rw [hostWrite_inTime htime, hsame]
  generalize hx : ({ hostWrite s t with
    mbx := { s.mbx with waiting := s.mbx.waiting ++ [r], reqTail := (s.mbx.reqTail + 1) % 2 ^ 32 } } : State) = x
  have hserved : mailboxServed x = mailboxServed s := by
    rw [← hx]
    refine mailboxServed_congr ?_ fun f inst hf => (getF_of_regs rfl ..).trans ?_
    · rw [hostWrite_inTime htime, hsame]
    · rw [hostWrite_inTime htime]
      exact hget f inst 0 hf
  have hroom : rspFree x.mbx = rspFree s.mbx := by
    rw [← hx]
    rfl
  have hstop : (!mailboxServed x) = true ∨ (!rspFree x.mbx) = true := by
    rw [hserved, hroom]
    exact hno.imp (fun h => by rw [h]; rfl) (fun h => by rw [h]; rfl)
  have hact' : ¬((!hostActive s) = true) := by
    rw [hact]
    decide
  unfold mailboxRequest
  rw [if_neg hact']
  dsimp only
  rw [hmbx, if_neg (Nat.not_le.mpr hfew), hx, serveMailbox, serveAll]
  split
  · rfl
  · exact if_pos hstop

end

/-- Settles O36: the request is followed through the ring and its checks, in their order. -/
theorem mailboxChecks : Obligations.MailboxChecks := by
  unfold Obligations.MailboxChecks
  intro s o a ho op s1 r m used lo hi due
  obtain ⟨hop, hlisted, hexec⟩ := mailboxOps_listed ho
  refine ⟨fun hact => ?_, fun hact htime hfull => ?_, fun hact htime hfew hno => ?_, fun hturn h1 hver => ?_, fun hturn h1 hlo hhi =>
    ⟨fun h3 hseq => ⟨fun hnone => ?_, fun n c y hsome => ?_⟩, fun hno => ⟨fun h3 => ?_, fun h3 hseq => ?_⟩⟩⟩
  · exact (hexec s a).trans (congrArg Host.Outcome.next (if_pos (by rw [hact]; rfl)))
  · obtain ⟨-, regs, k, hsame⟩ := hostHeard_takes s a.time
    have hmbx : (hostWrite s a.time).mbx = s.mbx := by
      rw [hostWrite_inTime htime, hsame]
    refine (hexec s a).trans (congrArg Host.Outcome.next ((if_neg (by rw [hact]; decide)).trans ?_))
    rw [hmbx, if_pos hfull]
  · exact (hexec s a).trans (congrArg Host.Outcome.next (mailboxRequest_waits hact htime hfew hno))
  all_goals
    obtain ⟨hget, regs, k, hsame⟩ := mbxTaken_same hturn.inTime
    have hreq := request_taken (op := op) hturn
    rw [serveRequest_eq hop hturn.size, hget Reg.MBX_VER_MIN 0 0 (by decide), hget Reg.MBX_VER_MAX 0 0 (by decide),
      hget Reg.MBX_EXPECTED_SEQ 0 0 (by decide)] at hreq
    have hlc : lcState (mbxTaken s a.time) = lcState s := by
      rw [hsame]
      rfl
    have hfw : fwState (mbxTaken s a.time) = fwState s := hget Reg.MBX_FW_STATE 0 0 (by decide)
    have hkept : (mbxTaken s a.time).mbx.kept = s.mbx.kept := by rw [hsame]
  · rw [if_pos ⟨h1, hver⟩] at hreq
    exact (hexec s a).trans (congrArg Host.Outcome.next hreq)
  all_goals
    rw [if_neg (fun h => h.2.elim (Nat.not_lt.mpr hlo) (Nat.not_lt.mpr hhi)), if_neg h1] at hreq
  · rw [if_neg h3, if_neg hseq, hkept, hnone] at hreq
    exact (hexec s a).trans (congrArg Host.Outcome.next hreq)
  · rw [if_neg h3, if_neg hseq, hkept, hsome] at hreq
    refine (hexec s a).trans (congrArg Host.Outcome.next (hreq.trans ?_))
    exact apply_ite (serveAll 64) _ _ _
  · rw [if_pos h3, executeRequest_refused hop hturn.size hlisted
      (by rw [hfw, hlc]; exact hno.imp_right fun h => ⟨h.1, h1, h.2⟩)] at hreq
    exact (hexec s a).trans (congrArg Host.Outcome.next hreq)
  · have hfw' : fwState (mbxServing s a) = fwState s := (State.getF_setF_ne _ _ (by decide)).trans hfw
    rw [if_neg h3, if_pos hseq] at hreq
    have hrefused := executeRequest_refused (s := mbxServing s a) hop hturn.size hlisted
      (by rw [hfw', show lcState (mbxServing s a) = lcState s from hlc]; exact hno.imp_right fun h => ⟨h.1, h1, h.2⟩)
    refine (hexec s a).trans (congrArg Host.Outcome.next (hreq.trans ?_))
    exact congrArg (mbxAnswered op a) hrefused

end Sys2Proof.Machine
end

section
namespace Sys2Proof.Machine

set_option Elab.async false

/-! O37: the responses of the mailbox. -/

/-- The first 28 bytes of a response: all but its CHECK. -/
def responseHead (r : List Byte) (status : Nat) (data : List Byte) : List Byte :=
  toLe 2 (field r 0 2) ++ toLe 2 (field r 2 2) ++ toLe 4 (field r 4 4) ++ toLe 2 data.length ++ toLe 2 1 ++ toLe 2 status ++ toLe 2 0 ++
    toLe 8 (field r 16 8) ++ toLe 4 0

theorem length_responseHead (r : List Byte) (status : Nat) (data : List Byte) : (responseHead r status data).length = 28 := by
  simp [responseHead, length_toLe]

theorem responseOf_eq (r : List Byte) (status : Nat) (data : List Byte) :
    responseOf r status data = responseHead r status data ++ (toLe 4 (crc32c (responseHead r status data ++ data)) ++ data) := by
  rw [← List.append_assoc]
  rfl

/-- What a response says. -/
structure ResponseFields (r : List Byte) (status : Nat) (data y : List Byte) : Prop where
  version : field y 0 2 = field r 0 2
  opcode : field y 2 2 = field r 2 2
  seq : field y 4 4 = field r 4 4
  size : field y 8 2 = data.length
  response : field y 10 2 = 1
  status : field y 12 2 = status
  reserved : field y 14 2 = 0
  tag : field y 16 8 = field r 16 8
  check : field y 28 4 = crc32c (y.take 28 ++ data)
  payload : y.drop 32 = data

theorem responseOf_fields {r : List Byte} {status : Nat} {data : List Byte} (hst : status < 65536) (hlen : data.length ≤ 224) :
    ResponseFields r status data (responseOf r status data) := by
  have hlt (a n : Nat) : field r a n % 256 ^ n = field r a n := Nat.mod_eq_of_lt (field_lt r a n)
  have hbytes : responseOf r status data = toLe 2 (field r 0 2) ++ (toLe 2 (field r 2 2) ++ (toLe 4 (field r 4 4) ++ (toLe 2 data.length ++
      (toLe 2 1 ++ (toLe 2 status ++ (toLe 2 0 ++ (toLe 8 (field r 16 8) ++ (toLe 4 0 ++
        (toLe 4 (crc32c (responseHead r status data ++ data)) ++ data))))))))) := by
    rw [responseOf_eq]
    generalize crc32c (responseHead r status data ++ data) = c
    rw [responseHead]
    simp only [List.append_assoc]
  refine ⟨?_, ?_, ?_, ?_, ?_, ?_, ?_, ?_, ?_, ?_⟩
  · rw [hbytes, field_toLe_append]
    exact hlt 0 2
  · rw [hbytes, field_toLe_skip 2 _ _ _ (by decide), field_toLe_append]
    exact hlt 2 2
  · rw [hbytes, field_toLe_skip 2 _ _ _ (by decide), field_toLe_skip 2 _ _ _ (by decide), field_toLe_append]
    exact hlt 4 4
  · rw [hbytes, field_toLe_skip 2 _ _ _ (by decide), field_toLe_skip 2 _ _ _ (by decide), field_toLe_skip 4 _ _ _ (by decide), field_toLe_append]
    exact Nat.mod_eq_of_lt (by omega)
  · rw [hbytes, field_toLe_skip 2 _ _ _ (by decide), field_toLe_skip 2 _ _ _ (by decide), field_toLe_skip 4 _ _ _ (by decide),
      field_toLe_skip 2 _ _ _ (by decide)]
    exact field_toLe_append ..
  · rw [hbytes, field_toLe_skip 2 _ _ _ (by decide), field_toLe_skip 2 _ _ _ (by decide), field_toLe_skip 4 _ _ _ (by decide),
      field_toLe_skip 2 _ _ _ (by decide), field_toLe_skip 2 _ _ _ (by decide), field_toLe_append]
    exact Nat.mod_eq_of_lt hst
  · rw [hbytes, field_toLe_skip 2 _ _ _ (by decide), field_toLe_skip 2 _ _ _ (by decide), field_toLe_skip 4 _ _ _ (by decide),
      field_toLe_skip 2 _ _ _ (by decide), field_toLe_skip 2 _ _ _ (by decide), field_toLe_skip 2 _ _ _ (by decide)]
    exact field_toLe_append ..
  · rw [hbytes, field_toLe_skip 2 _ _ _ (by decide), field_toLe_skip 2 _ _ _ (by decide), field_toLe_skip 4 _ _ _ (by decide),
      field_toLe_skip 2 _ _ _ (by decide), field_toLe_skip 2 _ _ _ (by decide), field_toLe_skip 2 _ _ _ (by decide),
      field_toLe_skip 2 _ _ _ (by decide), field_toLe_append]
    exact hlt 16 8
  · have hhead : (responseOf r status data).take 28 = responseHead r status data := by
      rw [responseOf_eq]
      exact List.take_left' (length_responseHead r status data)
    rw [hhead, responseOf_eq, field_append _ _ _ (Nat.le_of_eq (length_responseHead ..)), length_responseHead, field_toLe_append]
    exact Nat.mod_eq_of_lt (crc32c_lt _)
  · rw [responseOf_eq, ← List.append_assoc]
    exact List.drop_left' (by rw [List.length_append, length_responseHead, length_toLe])

section
variable {s : State}

/-- A response takes the next entry of its ring. -/
theorem placeResponse_takes (s : State) (y : List Byte) (status : Nat) :
    let u := placeResponse s y status
    (u.mbx = { s.mbx with
        responses := s.mbx.responses.filter (fun (z : Nat × List Byte) => z.1 != s.mbx.rspTail % 64) ++ [(s.mbx.rspTail % 64, y)]
        rspTail := (s.mbx.rspTail + 1) % 2 ^ 32
        reqHead := (s.mbx.reqHead + 1) % 2 ^ 32 }) ∧
      u.sent = s.sent ++ [.msix 0] ∧ u.getF Reg.MBX_REQUESTS 0 0 = min (s.getF Reg.MBX_REQUESTS 0 0 + 1) (2 ^ 32 - 1) ∧
      u.getF Reg.MBX_NACKS 0 0 =
        (if 1 ≤ status ∧ status ≤ 10 then min (s.getF Reg.MBX_NACKS 0 0 + 1) (2 ^ 32 - 1) else s.getF Reg.MBX_NACKS 0 0) ∧
      u.dram = s.dram ∧ u.tiles = s.tiles := by
  have hplace (v w : State) (hmbx : w.mbx = v.mbx) (hsent : w.sent = v.sent) (hdram : w.dram = v.dram) (htiles : w.tiles = v.tiles) :
      (w.send (.msix 0)).mbx = v.mbx ∧ (w.send (.msix 0)).sent = v.sent ++ [.msix 0] ∧ (w.send (.msix 0)).dram = v.dram ∧
        (w.send (.msix 0)).tiles = v.tiles ∧ ∀ f : Fld, (w.send (.msix 0)).getF f 0 0 = w.getF f 0 0 :=
    ⟨hmbx, congrArg (· ++ [Sent.msix 0]) hsent, hdram, htiles, fun f => getF_of_regs (s := w) rfl f 0 0⟩
  have hcounted (v : State) (c : Prop) [Decidable c] :
      let w := if c then v.countF Reg.MBX_NACKS 0 0 1 else v
      w.mbx = v.mbx ∧ w.sent = v.sent ∧ w.dram = v.dram ∧ w.tiles = v.tiles ∧ w.getF Reg.MBX_REQUESTS 0 0 = v.getF Reg.MBX_REQUESTS 0 0 ∧
        w.getF Reg.MBX_NACKS 0 0 = if c then min (v.getF Reg.MBX_NACKS 0 0 + 1) (2 ^ 32 - 1) else v.getF Reg.MBX_NACKS 0 0 := by
    dsimp only
    split
    · exact ⟨rfl, rfl, rfl, rfl, State.getF_countF_ne v 1 (by decide), State.getF_countF_same v Reg.MBX_NACKS 0 0 1⟩
    · exact ⟨rfl, rfl, rfl, rfl, rfl, rfl⟩
  generalize hv : ({ s with
    mbx := { s.mbx with
      responses := s.mbx.responses.filter (fun (z : Nat × List Byte) => z.1 != s.mbx.rspTail % 64) ++ [(s.mbx.rspTail % 64, y)]
      rspTail := (s.mbx.rspTail + 1) % 2 ^ 32
      reqHead := (s.mbx.reqHead + 1) % 2 ^ 32 } } : State) = v
  have heq : placeResponse s y status =
      (if 1 ≤ status ∧ status ≤ 10 then (v.countF Reg.MBX_REQUESTS 0 0 1).countF Reg.MBX_NACKS 0 0 1 else v.countF Reg.MBX_REQUESTS 0 0 1).send
        (.msix 0) := by
    rw [← hv]
    rfl
  obtain ⟨h1, h2, h3, h4, h5, h6⟩ := hcounted (v.countF Reg.MBX_REQUESTS 0 0 1) (1 ≤ status ∧ status ≤ 10)
  rw [State.getF_countF_same] at h5
  rw [State.getF_countF_ne v 1 (by decide)] at h6
  have hget (f : Fld) : v.getF f 0 0 = s.getF f 0 0 := by
    rw [← hv]
    rfl
  rw [hget] at h5 h6
  dsimp only
  rw [heq]
  generalize (if 1 ≤ status ∧ status ≤ 10 then (v.countF Reg.MBX_REQUESTS 0 0 1).countF Reg.MBX_NACKS 0 0 1
    else v.countF Reg.MBX_REQUESTS 0 0 1) = w at h1 h2 h3 h4 h5 h6 ⊢
  obtain ⟨p1, p2, p3, p4, p5⟩ := hplace v w h1 h2 h3 h4
  subst hv
  exact ⟨p1, p2, (p5 _).trans h5, (p5 _).trans h6, p3, p4⟩

theorem keepResponse_holds (s : State) (seq check : Nat) (y : List Byte) :
    (seq, check, y) ∈ (keepResponse s seq check y).mbx.kept ∧ (keepResponse s seq check y).mbx.kept.length ≤ 64 := by
  have hkept : (keepResponse s seq check y).mbx.kept =
      (s.mbx.kept.filter (fun (z : Nat × Nat × List Byte) => z.1 != seq) ++ [(seq, check, y)]).drop
        ((s.mbx.kept.filter (fun (z : Nat × Nat × List Byte) => z.1 != seq) ++ [(seq, check, y)]).length - 64) := rfl
  rw [hkept]
  generalize s.mbx.kept.filter (fun (z : Nat × Nat × List Byte) => z.1 != seq) = l
  constructor
  · rw [List.drop_append_of_le_length (by rw [List.length_append, List.length_singleton]; omega)]
    exact List.mem_append_right _ (List.mem_singleton.mpr rfl)
  · rw [List.length_drop]
    omega

/-- The entry of the ring that is written, and the others. -/
theorem mem_placed {k n : Nat} {y z : List Byte} (l : List (Nat × List Byte)) :
    (k, z) ∈ l.filter (fun x => x.1 != n) ++ [(n, y)] ↔ (k ≠ n ∧ (k, z) ∈ l) ∨ (k = n ∧ z = y) := by
  simp only [List.mem_append, List.mem_filter, List.mem_singleton, Prod.mk.injEq, bne_iff_ne, and_comm]

end

/-- Settles O37: the fields of a response, its place in the ring, and the requests that are answered without being served. -/
theorem mailboxResponses : Obligations.MailboxResponses := by
  unfold Obligations.MailboxResponses
  intro op a x hop hlen hdata hst b y m u
  obtain ⟨hver, hopc, hseq, -, -, htag, -⟩ := requestBytes_fields hop hlen
  obtain ⟨y1, y2, y3, y4, y5, y6, y7, y8, y9, y10⟩ := responseOf_fields (r := b) hst hdata
  obtain ⟨hk1, hk2⟩ := keepResponse_holds x.s a.seq.toNat (field b 28 4) y
  obtain ⟨hmbx, hsent, hreq, hnack, hdram, htiles⟩ := placeResponse_takes (keepResponse x.s a.seq.toNat (field b 28 4) y) y x.status
  refine ⟨⟨y1.trans hver, y2.trans hopc, y3.trans hseq, y4, y5, y6, y7, y8.trans htag, y9, y10⟩, ?_⟩
  have hrsp : u.mbx.responses = m.responses.filter (fun z => z.1 != m.rspTail % 64) ++ [(m.rspTail % 64, y)] := congrArg Mailbox.responses hmbx
  have hkept : u.mbx.kept = (keepResponse x.s a.seq.toNat (field b 28 4) y).mbx.kept := (congrArg Mailbox.kept hmbx :)
  refine ⟨(congrArg Mailbox.rspTail hmbx :), (congrArg Mailbox.reqHead hmbx :), (congrArg Mailbox.waiting hmbx :), fun z => ?_, fun k z hk => ?_,
    hkept ▸ hk1, Nat.le_trans (Nat.le_of_eq (congrArg List.length hkept)) hk2, hsent, hreq, hnack, hdram, htiles,
    fun s c dma t hturn => ?_⟩
  · rw [hrsp, mem_placed]
    simp
  · rw [hrsp, mem_placed]
    simp [hk]
  · intro s1 q
    obtain ⟨hget, regs, k, hsame⟩ := mbxTaken_same hturn.inTime
    have hrec := mailboxRequest_taken hturn { bytes := c, dma := dma, dma2 := [] }
    refine ⟨fun hbad => ?_, fun hfmt hop hlo hhi hq => ?_⟩
    · refine congrArg Host.Outcome.next (hrec.trans (congrArg (serveAll 64) ?_))
      unfold serveRequest
      dsimp only
      rw [hbad]
      rfl
    · have h1 : field c 2 2 ≠ 1 := fun h => by rw [h] at hop; exact absurd hop (by decide)
      have h3 : field c 2 2 ≠ 3 := fun h => by rw [h] at hop; exact absurd hop (by decide)
      refine congrArg Host.Outcome.next (hrec.trans (congrArg (serveAll 64) ?_))
      unfold serveRequest
      dsimp only
      rw [hget Reg.MBX_VER_MIN 0 0 (by decide), hget Reg.MBX_VER_MAX 0 0 (by decide), hget Reg.MBX_EXPECTED_SEQ 0 0 (by decide), hfmt, Bool.not_true,
        if_neg Bool.false_ne_true, if_neg (fun h => h.2.elim (Nat.not_lt.mpr hlo) (Nat.not_lt.mpr hhi)), if_neg h1, if_neg h3, if_pos hq]
      unfold executeRequest
      dsimp only
      rw [hop, Bool.not_false, if_pos rfl]
      rfl

end Sys2Proof.Machine
end

section
namespace Sys2Proof.Machine

set_option Elab.async false

/-! O38: the host's index writes. -/

section
variable {s : State} {t : Nat}

/-! Queues. -/

theorem State.queue?_id {id : Nat} {q : Queue} (h : s.queue? id = some q) : q.id = id := by
  have := List.find?_some h
  exact beq_iff_eq.mp this

theorem State.queue?_of_queues {u : State} (h : u.queues = s.queues) (id : Nat) : u.queue? id = s.queue? id := by
  unfold State.queue?
  rw [h]

theorem find?_putQueue (qs : List Queue) (q : Queue) : (putQueue qs q).find? (fun x => x.id == q.id) = some q := by
  induction qs with
  | nil => simp [putQueue]
  | cons x xs ih =>
    unfold putQueue
    split
    · rename_i hlt
      rw [List.find?_cons_of_neg (by simpa using Nat.ne_of_lt hlt)]
      exact ih
    · split <;> simp

theorem State.setQueue_queues (s : State) (q : Queue) : (s.setQueue q).queues = putQueue s.queues q := by
  unfold State.setQueue
  dsimp only
  split <;> rfl

theorem State.queue?_setQueue_same (s : State) {q : Queue} {id : Nat} (h : q.id = id) : (s.setQueue q).queue? id = some q := by
  subst h
  unfold State.queue?
  rw [State.setQueue_queues]
  exact find?_putQueue s.queues q

/-- A queue that is no longer stalled, as the QUEUE_MGR page counts it. -/
theorem setStalled_clears (s : State) (q : Queue) {id : Nat} (hid : q.id = id) :
    (setStalled s q false).queue? id = some { q with stalled := false } ∧
      (setStalled s q false).getF Reg.QMGR_QUEUES_STALLED 0 0 =
        ((setStalled s q false).queues.filter (·.stalled)).length % 2 ^ Reg.QMGR_QUEUES_STALLED.width := by
  have heq : setStalled s q false = (s.setQueue { q with stalled := false }).setF Reg.QMGR_QUEUES_STALLED 0 0
      ((s.setQueue { q with stalled := false }).queues.filter (·.stalled)).length := rfl
  rw [heq]
  have hq := State.queue?_setQueue_same s (q := { q with stalled := false }) (id := id) hid
  generalize s.setQueue { q with stalled := false } = v at hq ⊢
  exact ⟨hq, State.getF_setF_same ..⟩

/-! Ring indices. -/

theorem hostWrite_frame (h : HostInTime s t) : (hostWrite s t).mbx = s.mbx ∧ (hostWrite s t).queues = s.queues := by
  obtain ⟨-, regs, n, hsame⟩ := hostHeard_takes s t
  rw [hostWrite_inTime h, hsame]
  exact ⟨rfl, rfl⟩

theorem serveMailbox_idle (h : s.mbx.waiting = []) : serveMailbox s = s := by
  unfold serveMailbox serveAll
  rw [h]

theorem drainEvents_idle (h : s.mbx.buffered = []) : drainEvents 4096 s = s := by
  unfold drainEvents
  rw [h]

theorem rspHeadWrite_takes {v : Nat} (hact : hostActive s = true) (htime : HostInTime s t) (hv : v < 2 ^ 32) (hw : s.mbx.waiting = []) :
    rspHeadWrite s v t =
      if (v + 2 ^ 32 - s.mbx.rspHead) % 2 ^ 32 ≤ (s.mbx.rspTail + 2 ^ 32 - s.mbx.rspHead) % 2 ^ 32 then
        { hostWrite s t with mbx := { s.mbx with rspHead := v } }
      else hostWrite s t := by
  have hact' : ¬((!hostActive s) = true) := by
    rw [hact]
    decide
  obtain ⟨hmbx, -⟩ := hostWrite_frame htime
  unfold rspHeadWrite
  rw [if_neg hact']
  dsimp only
  rw [hmbx, Nat.mod_eq_of_lt hv]
  by_cases h : (v + 2 ^ 32 - s.mbx.rspHead) % 2 ^ 32 ≤ (s.mbx.rspTail + 2 ^ 32 - s.mbx.rspHead) % 2 ^ 32
  · rw [if_neg (Nat.not_lt.mpr h), if_pos h]
    exact serveMailbox_idle hw
  · rw [if_pos (Nat.not_le.mp h), if_neg h]

theorem evtHeadWrite_takes {v : Nat} (hact : hostActive s = true) (htime : HostInTime s t) (hv : v < 2 ^ 32) (hb : s.mbx.buffered = []) :
    evtHeadWrite s v t =
      if (v + 2 ^ 32 - s.mbx.evtHead) % 2 ^ 32 ≤ (s.mbx.evtTail + 2 ^ 32 - s.mbx.evtHead) % 2 ^ 32 then
        { hostWrite s t with mbx := { s.mbx with evtHead := v } }
      else hostWrite s t := by
  have hact' : ¬((!hostActive s) = true) := by
    rw [hact]
    decide
  obtain ⟨hmbx, -⟩ := hostWrite_frame htime
  unfold evtHeadWrite
  rw [if_neg hact']
  dsimp only
  rw [hmbx, Nat.mod_eq_of_lt hv]
  by_cases h : (v + 2 ^ 32 - s.mbx.evtHead) % 2 ^ 32 ≤ (s.mbx.evtTail + 2 ^ 32 - s.mbx.evtHead) % 2 ^ 32
  · rw [if_neg (Nat.not_lt.mpr h), if_pos h]
    exact drainEvents_idle hb
  · rw [if_pos (Nat.not_le.mp h), if_neg h]

/-! Doorbells. -/

/-- A queue as a doorbell leaves it, whose tail is moved to `tail` and whose head to `head`. -/
def rung (x : Queue) (subLog tail head : Nat) (es : List (List Byte)) : Queue :=
  let n := (tail + 65536 - x.subTail) % 65536
  let x := if x.waiting.length + n > 2 ^ subLog ∨ es.length ≠ n then x else { x with subTail := tail, waiting := x.waiting ++ es }
  if (head + 65536 - x.cplHead) % 65536 > (x.cplTail + 65536 - x.cplHead) % 65536 then x else { x with cplHead := head }

theorem doorbell_rung {q v : Nat} {x : Queue} {r : QRings} {es : List (List Byte)} (hact : hostActive s = true) (htime : HostInTime s t)
    (hq : s.queue? q = some x) (hr : x.rings = some r) :
    doorbell s q v es t =
      let y := rung x r.subLog (bits v 15 0) (bits v 31 16) es
      if y.stalled ∧ y.cplFree > 0 then setStalled ((hostWrite s t).setQueue y) y false else (hostWrite s t).setQueue y := by
  have hact' : ¬((!hostActive s) = true) := by
    rw [hact]
    decide
  obtain ⟨-, hqueues⟩ := hostWrite_frame htime
  have hq' : (hostWrite s t).queue? q = some x := (State.queue?_of_queues hqueues q).trans hq
  unfold doorbell
  rw [if_neg hact']
  dsimp only
  rw [hq']
  dsimp only
  split
  · rename_i hnone
    rw [hr] at hnone
    cases hnone
  · rename_i r' hr'
    obtain rfl := Option.some.inj (hr.symm.trans hr')
    rfl

theorem rung_entries {x : Queue} {subLog tail head : Nat} {es : List (List Byte)} (hlen : es.length = (tail + 65536 - x.subTail) % 65536)
    (hroom : x.waiting.length + es.length ≤ 2 ^ subLog) (hhead : head = x.cplHead) (hlt : head < 65536) :
    rung x subLog tail head es = { x with subTail := tail, waiting := x.waiting ++ es } := by
  have h0 : ¬((x.cplHead + 65536 - x.cplHead) % 65536 > (x.cplTail + 65536 - x.cplHead) % 65536) := by omega
  subst hhead
  unfold rung
  dsimp only
  rw [← hlen, if_neg (not_or.mpr ⟨Nat.not_lt.mpr hroom, not_not_intro rfl⟩)]
  exact if_neg h0

theorem rung_head {x : Queue} {subLog tail head : Nat} (htail : tail = x.subTail)
    (hle : (head + 65536 - x.cplHead) % 65536 ≤ (x.cplTail + 65536 - x.cplHead) % 65536) :
    rung x subLog tail head [] = { x with cplHead := head } := by
  subst htail
  unfold rung
  rw [List.append_nil]
  dsimp only
  rw [ite_self]
  exact if_neg (Nat.not_lt.mpr hle)

/-- A head that moves makes room. -/
theorem cplFree_pos {x : Queue} {r : QRings} {head : Nat} (hr : x.rings = some r) (hne : x.cplHead ≠ head) (hlt : head < 65536) (hx : x.cplHead < 65536)
    (hle : (head + 65536 - x.cplHead) % 65536 ≤ (x.cplTail + 65536 - x.cplHead) % 65536)
    (hfull : (x.cplTail + 65536 - x.cplHead) % 65536 ≤ 2 ^ r.cplLog) : 0 < ({ x with cplHead := head } : Queue).cplFree := by
  unfold Queue.cplFree
  simp only [hr]
  generalize 2 ^ r.cplLog = n at hfull ⊢
  omega

end

theorem bits_lt (v hi lo : Nat) : bits v hi lo < 2 ^ (hi + 1 - lo) := Nat.mod_lt _ (Nat.two_pow_pos _)

/-- Settles O38, index by index. -/
theorem mailboxIndices : Obligations.MailboxIndices := by
  unfold Obligations.MailboxIndices
  intro s v t hact htime s1 m
  obtain ⟨-, hqueues⟩ := hostWrite_frame htime
  refine ⟨fun hw => congrArg Host.Outcome.next (rspHeadWrite_takes hact htime v.isLt hw),
    fun hb => congrArg Host.Outcome.next (evtHeadWrite_takes hact htime v.isLt hb), fun q es hq => ?_, fun q x r es hq hr =>
    ⟨fun hlen => ?_, fun hlen hroom hhead hst => ?_, fun hes htail hst hle => ?_, fun hes htail hst hne hx hle hfull => ?_⟩⟩
  · have hform : doorbellFormed s q.toNat v.toNat es = true := by simp only [doorbellFormed, hq]
    refine (if_pos hform).trans (congrArg Host.Outcome.next ?_)
    have hq' : (hostWrite s t).queue? q.toNat = none := (State.queue?_of_queues hqueues _).trans hq
    unfold doorbell
    rw [if_neg (by rw [hact]; decide)]
    simp only [hq'] <;> rfl
  all_goals
    have hform : doorbellFormed s q.toNat v.toNat es = (es.length == (bits v.toNat 15 0 + 65536 - x.subTail) % 65536) := by
      simp only [doorbellFormed, hq]
  · exact if_neg (by rw [hform]; simpa using hlen)
  · have hbell := doorbell_rung (v := v.toNat) (es := es) hact htime hq hr
    rw [rung_entries hlen hroom hhead (bits_lt ..)] at hbell
    refine (if_pos (by rw [hform]; simpa using hlen)).trans (congrArg Host.Outcome.next (hbell.trans (if_neg ?_)))
    exact fun h => absurd (hst.symm.trans h.1) (by decide)
  all_goals
    have hbell := doorbell_rung (v := v.toNat) (es := es) hact htime hq hr
    have hzero : es.length = (bits v.toNat 15 0 + 65536 - x.subTail) % 65536 := by
      rw [hes, htail, Nat.add_sub_cancel_left]
      rfl
    subst hes
    rw [rung_head htail hle] at hbell
  · refine (if_pos (by rw [hform]; simpa using hzero)).trans (congrArg Host.Outcome.next (hbell.trans (if_neg ?_)))
    exact fun h => absurd (hst.symm.trans h.1) (by decide)
  · have hfree := cplFree_pos hr hne (bits_lt v.toNat 31 16) hx hle hfull
    have hid : x.id = q.toNat := State.queue?_id hq
    obtain ⟨h1, h2⟩ := setStalled_clears ((hostWrite s t).setQueue { x with cplHead := bits v.toNat 31 16 }) { x with cplHead := bits v.toNat 31 16 }
      (id := q.toNat) hid
    exact ⟨_, _, (if_pos (by rw [hform]; simpa using hzero)).trans (congrArg Host.Outcome.next (hbell.trans (if_pos ⟨hst, hfree⟩))), h1, rfl, rfl, h2⟩

end Sys2Proof.Machine
end

section
namespace Sys2Proof.Machine

set_option Elab.async false

/-! O39: mailbox requests about the device. -/

/-! What an event to the host leaves as it was. -/

/-- Only what tells the host, and the fields at `ks`, changed. -/
structure Announced (s u : State) (ks : List Nat) : Prop where
  same : ∃ regs mbx sent log low, u = { s with
    regs := regs
    mbx := mbx
    sent := sent
    fw := { s.fw with eventLog := log }
    power := { s.power with wakeLow := low } }
  fields : ∀ (f : Fld) (inst i : Nat), f.key inst i ∉ ks → u.getF f inst i = s.getF f inst i

namespace Announced

variable {s t u : State} {ks : List Nat}

theorem refl (s : State) (ks : List Nat) : Announced s s ks := ⟨⟨s.regs, s.mbx, s.sent, s.fw.eventLog, s.power.wakeLow, rfl⟩, fun _ _ _ _ => rfl⟩

theorem trans (hst : Announced s t ks) (htu : Announced t u ks) : Announced s u ks := by
  obtain ⟨⟨_, _, _, _, _, ht⟩, hf⟩ := hst
  obtain ⟨⟨regs, mbx, sent, log, low, hu⟩, hg⟩ := htu
  exact ⟨⟨regs, mbx, sent, log, low, by rw [hu, ht]⟩, fun f inst i h => (hg f inst i h).trans (hf f inst i h)⟩

theorem setF (s : State) {f : Fld} {inst k : Nat} (v : Nat) (h : f.key inst k ∈ ks) : Announced s (s.setF f inst k v) ks :=
  ⟨⟨_, s.mbx, s.sent, s.fw.eventLog, s.power.wakeLow, rfl⟩, fun _ _ _ hg => State.getF_setF_ne s v fun e => hg (e ▸ h)⟩

theorem of_ring (s : State) (mbx : Mailbox) (sent : List Sent) (log : List (List Byte)) (low : Option Nat) :
    Announced s { s with mbx := mbx, sent := sent, fw := { s.fw with eventLog := log }, power := { s.power with wakeLow := low } } ks :=
  ⟨⟨s.regs, mbx, sent, log, low, rfl⟩, fun _ _ _ _ => rfl⟩

theorem wake (s : State) : Announced s (wake s) ks := by
  unfold Machine.wake
  split
  · exact refl s ks
  split
  · exact refl s ks
  · exact of_ring s s.mbx s.sent s.fw.eventLog _

theorem placeEvent (s : State) (e : List Byte) : Announced s (placeEvent s e) ks :=
  (wake s).trans (of_ring _ _ _ _ _)

theorem raiseEvent (s : State) (op : Nat) (payload : List Byte) (h : Reg.MBX_EVT_LOST.key 0 0 ∈ ks) : Announced s (raiseEvent s op payload) ks := by
  unfold Machine.raiseEvent
  dsimp only
  split
  · exact (of_ring s _ s.sent _ s.power.wakeLow).trans (placeEvent _ _)
  split
  · exact of_ring s _ s.sent _ s.power.wakeLow
  · exact (of_ring s s.mbx s.sent _ s.power.wakeLow).trans ((setF _ _ h).trans (of_ring _ _ _ _ _))

theorem domains (h : Announced s u ks) : u.domains = s.domains := by
  obtain ⟨⟨_, _, _, _, _, h⟩, -⟩ := h
  rw [h]

theorem queues (h : Announced s u ks) : u.queues = s.queues := by
  obtain ⟨⟨_, _, _, _, _, h⟩, -⟩ := h
  rw [h]

theorem now (h : Announced s u ks) : u.now = s.now := by
  obtain ⟨⟨_, _, _, _, _, h⟩, -⟩ := h
  rw [h]

theorem dram (h : Announced s u ks) : u.dram = s.dram := by
  obtain ⟨⟨_, _, _, _, _, h⟩, -⟩ := h
  rw [h]

theorem tiles (h : Announced s u ks) : u.tiles = s.tiles := by
  obtain ⟨⟨_, _, _, _, _, h⟩, -⟩ := h
  rw [h]

theorem fw (h : Announced s u ks) : ∃ log, u.fw = { s.fw with eventLog := log } := by
  obtain ⟨⟨_, _, _, log, _, h⟩, -⟩ := h
  exact ⟨log, by rw [h]⟩

theorem power (h : Announced s u ks) : ∃ low, u.power = { s.power with wakeLow := low } := by
  obtain ⟨⟨_, _, _, _, low, h⟩, -⟩ := h
  exact ⟨low, by rw [h]⟩

/-- A recorded error, told to the host. -/
theorem recordErr (s : State) (ty pg inst code i0 i1 : Nat)
    (h : ∀ f ∈ [Hdr.INT_STATUS ty pg, Hdr.ERR_CODE ty pg, Hdr.ERR_INFO0 ty pg, Hdr.ERR_INFO1 ty pg], f.key inst 0 ∈ ks) :
    Announced s (s.recordErr ty pg inst code i0 i1) ks := by
  unfold State.recordErr
  split
  · exact refl s ks
  · exact (setF s _ (h _ (by simp))).trans ((setF _ _ (h _ (by simp))).trans ((setF _ _ (h _ (by simp))).trans (setF _ _ (h _ (by simp)))))

end Announced

/-- The fields that a change of FW_STATE changes. -/
def fwStateKeys : List Nat :=
  [Reg.MBX_FW_STATE.key 0 0, (Hdr.INT_STATUS 8 0).key 0 0, Reg.SEC_FATAL.key 0 0, Reg.SEC_HOLD.key 0 0, Reg.MBX_EVT_LOST.key 0 0]

theorem setFwState_takes (s : State) {v : Nat} (hv : v < 8) (cause : Nat) :
    fwState (setFwState s v cause) = v ∧ Announced s (setFwState s v cause) fwStateKeys := by
  have hraise (w : State) (c : Prop) [Decidable c] : Announced w (if c then w.raise 8 0 0 1 else w) [(Hdr.INT_STATUS 8 0).key 0 0] := by
    split
    · exact Announced.setF w _ (by simp)
    · exact Announced.refl w _
  have halert (w : State) (c e : Prop) [Decidable c] [Decidable e] :
      Announced w (if c then alert w Reg.SEC_FATAL else if e then alert w Reg.SEC_HOLD else w) [Reg.SEC_FATAL.key 0 0, Reg.SEC_HOLD.key 0 0] := by
    split
    · exact Announced.setF w _ (by simp)
    split
    · exact Announced.setF w _ (by simp)
    · exact Announced.refl w _
  have hwide {s u : State} {ks : List Nat} (h : Announced s u ks) (hks : ∀ k ∈ ks, k ∈ fwStateKeys) : Announced s u fwStateKeys :=
    ⟨h.same, fun f inst i hf => h.fields f inst i fun hk => hf (hks _ hk)⟩
  unfold setFwState
  dsimp only
  have h1 : (s.setF Reg.MBX_FW_STATE 0 0 v).getF Reg.MBX_FW_STATE 0 0 = v := (State.getF_setF_same ..).trans (Nat.mod_eq_of_lt hv)
  have t1 : Announced s (s.setF Reg.MBX_FW_STATE 0 0 v) fwStateKeys := Announced.setF s v (by decide)
  generalize s.setF Reg.MBX_FW_STATE 0 0 v = a at h1 t1 ⊢
  have h2 := hraise a ((fwState s != v) = true)
  generalize (if (fwState s != v) = true then a.raise 8 0 0 1 else a) = b at h2 ⊢
  have h3 := halert b (v = 0 ∨ v = 2 ∨ v = 5) (v = 4)
  generalize (if v = 0 ∨ v = 2 ∨ v = 5 then alert b Reg.SEC_FATAL else if v = 4 then alert b Reg.SEC_HOLD else b) = c at h3 ⊢
  have h4 : Announced c (evtFwState c cause) [Reg.MBX_EVT_LOST.key 0 0] := Announced.raiseEvent c _ _ (by simp)
  refine ⟨(h4.fields _ 0 0 (by decide)).trans ((h3.fields _ 0 0 (by decide)).trans ((h2.fields _ 0 0 (by decide)).trans h1)), ?_⟩
  exact t1.trans ((hwide h2 (by decide)).trans ((hwide h3 (by decide)).trans (hwide h4 (by decide))))

/-! Requests that pass the checks. -/

section
variable {s : State} {a : MbxArgs} {op : Nat}

/-- A request that passes its checks is served in the state in which its SEQ is used up. -/
theorem request_served (h : MbxGood s op a) (hop : op < 65536) (h1 : op ≠ 1) (h3 : op ≠ 3) (hlisted : opcodeListed op = true) :
    request s op a = mbxAnswered op a (serveOp (mbxServing s a) op a.seq.toNat a.payload a.dma a.dma2) := by
  obtain ⟨hturn, ⟨hlo, hhi⟩, hseq, hacc, hlc⟩ := h
  obtain ⟨hget, regs, k, hsame⟩ := mbxTaken_same hturn.inTime
  have hreq := request_taken (op := op) hturn
  rw [serveRequest_eq hop hturn.size, hget Reg.MBX_VER_MIN 0 0 (by decide), hget Reg.MBX_VER_MAX 0 0 (by decide),
    hget Reg.MBX_EXPECTED_SEQ 0 0 (by decide), if_neg (fun h => h.2.elim (Nat.not_lt.mpr hlo) (Nat.not_lt.mpr hhi)), if_neg h1, if_neg h3,
    if_pos hseq] at hreq
  have hfw : fwState (mbxServing s a) = fwState s :=
    (State.getF_setF_ne _ _ (by decide)).trans (hget Reg.MBX_FW_STATE 0 0 (by decide))
  have hlc' : lcState (mbxServing s a) = lcState s := by
    change lcState (mbxTaken s a.time) = _
    rw [hsame]
    rfl
  have hexec := executeRequest_served (s := mbxServing s a) hop hturn.size hlisted (by rw [hfw]; exact hacc)
    (fun h => absurd (hlc'.symm.trans h) hlc)
  exact hreq.trans (congrArg (mbxAnswered op a) hexec)

/-- The state that serves a request: what of it differs. -/
theorem mbxServing_same (h : HostInTime s a.time) :
    (∀ (f : Fld) (inst i : Nat), f.key inst i ∉ [Reg.QMGR_HOST_LAST_SEEN.key 0 0, Reg.MBX_EXPECTED_SEQ.key 0 0] →
        (mbxServing s a).getF f inst i = s.getF f inst i) ∧
      ∃ regs n, mbxServing s a = { s with
        now := max s.now a.time
        regs := regs
        fw := { s.fw with hostPaused := n }
        mbx := { s.mbx with reqTail := (s.mbx.reqTail + 1) % 2 ^ 32, waiting := [] } } := by
  obtain ⟨hget, regs, n, hsame⟩ := mbxTaken_same h
  refine ⟨fun f inst i hf => ?_, ((mbxTaken s a.time).setF Reg.MBX_EXPECTED_SEQ 0 0 (a.seq.toNat + 1)).regs, n, ?_⟩
  · simp only [List.mem_cons, List.not_mem_nil, or_false, not_or] at hf
    exact (State.getF_setF_ne _ _ (Ne.symm hf.2)).trans (hget f inst i (Ne.symm hf.1))
  · have heq : mbxServing s a = { mbxTaken s a.time with regs := ((mbxTaken s a.time).setF Reg.MBX_EXPECTED_SEQ 0 0 (a.seq.toNat + 1)).regs } := rfl
    rw [heq]
    generalize ((mbxTaken s a.time).setF Reg.MBX_EXPECTED_SEQ 0 0 (a.seq.toNat + 1)).regs = r
    rw [hsame]

/-! GET_VERSION and BIND, which do not use up a SEQ before they are served. -/

theorem getVersion_answered (h : MbxTurn s a.time a.payload.length) :
    request s 0x01 a = mbxRefused 0x01 a (okWith (mbxTaken s a.time) (getVersion (mbxTaken s a.time))) := by
  have hreq := request_taken (op := 0x01) h
  rw [serveRequest_eq (by decide) h.size, if_neg (fun h => h.1 rfl), if_pos rfl,
    executeRequest_served (by decide) h.size (by decide) rfl (fun _ => Or.inl rfl)] at hreq
  exact hreq

theorem bind_answered (h : MbxTurn s a.time a.payload.length) (hlo : s.getF Reg.MBX_VER_MIN 0 0 ≤ a.version.toNat)
    (hhi : a.version.toNat ≤ s.getF Reg.MBX_VER_MAX 0 0) (hfw : fwState s = 3 ∨ fwState s = 4) (hlc : lcState s ≠ 3) :
    let x := bind (mbxTaken s a.time) a.seq.toNat a.payload
    request s 0x03 a = if x.status = 0 then mbxAnswered 0x03 a x else mbxRefused 0x03 a x := by
  obtain ⟨hget, regs, k, hsame⟩ := mbxTaken_same h.inTime
  have hfw' : fwState (mbxTaken s a.time) = fwState s := hget Reg.MBX_FW_STATE 0 0 (by decide)
  have hlc' : lcState (mbxTaken s a.time) = lcState s := by
    rw [hsame]
    rfl
  have hacc : opcodeAccepted (fwState (mbxTaken s a.time)) 0x03 = true := by
    rw [hfw']
    rcases hfw with h | h <;> rw [h] <;> decide
  have hreq := request_taken (op := 0x03) h
  rw [serveRequest_eq (by decide) h.size, hget Reg.MBX_VER_MIN 0 0 (by decide), hget Reg.MBX_VER_MAX 0 0 (by decide),
    if_neg (fun h => h.2.elim (Nat.not_lt.mpr hlo) (Nat.not_lt.mpr hhi)), if_neg (by decide), if_pos rfl,
    executeRequest_served (by decide) h.size (by decide) hacc (fun h => absurd (hlc'.symm.trans h) hlc)] at hreq
  refine hreq.trans ?_
  change serveAll 64 (placeResponse (if ((bind (mbxTaken s a.time) a.seq.toNat a.payload).status == 0) = true then _ else _) _ _) = _
  simp only [beq_iff_eq]
  split <;> rfl

/-- A driver bound: its registers. -/
def driverBound (s : State) (seq n : Nat) : State :=
  let v := (((s.setF Reg.MBX_BOUND 0 0 1).setF Reg.QMGR_HOST_LOSS_TIMEOUT 0 0 (if n = 0 then 30 else n)).setF Reg.QMGR_HOST_LAST_SEEN 0 0 s.now).setF
    Reg.MBX_EXPECTED_SEQ 0 0 (seq + 1)
  { v with fw := { v.fw with everBound := true } }

/-- A device that leaves HOLD: its queues are stopped and its domains no longer parked. -/
def holdLeft (s : State) : State :=
  setFwState { s with
    queues := s.queues.map (fun q => { q with stopped := true })
    domains := s.domains.map (fun d => { d with parked := false })
    fw := { s.fw with holdAt := none } } 3 0

theorem bind_eq {seq : Nat} {p : List Byte} (hok : ¬((bit (field p 0 1) 0 = false ∧ s.getF Reg.MBX_BOUND 0 0 = 1) ∨
      (bit (field p 0 1) 0 = true ∧ s.getF Reg.MBX_BOUND 0 0 ≠ 1 ∧ fwState s ≠ 4))) (hn : field p 4 2 ≤ 3600) :
    bind s seq p =
      let v := driverBound s seq (field p 4 2)
      let v := if bit (field p 0 1) 0 then invalidateRings v else v
      okay (if fwState v ≠ 4 then v else holdLeft v) := by
  have hno : ¬((!bit (field p 0 1) 0) = true ∧ s.getF Reg.MBX_BOUND 0 0 = 1 ∨
      bit (field p 0 1) 0 = true ∧ (!decide (s.getF Reg.MBX_BOUND 0 0 = 1)) = true ∧ fwState s ≠ 4) := by
    simpa using hok
  unfold bind
  dsimp only
  rw [if_neg hno, if_neg (Nat.not_lt.mpr hn)]
  exact (apply_ite okay _ _ _).symm

theorem driverBound_takes (s : State) (seq : Nat) {n : Nat} (hn : n ≤ 3600) :
    let v := driverBound s seq n
    v.getF Reg.MBX_BOUND 0 0 = 1 ∧ v.getF Reg.QMGR_HOST_LOSS_TIMEOUT 0 0 = (if n = 0 then 30 else n) ∧
      v.getF Reg.MBX_EXPECTED_SEQ 0 0 = (seq + 1) % 2 ^ 32 ∧ v.getF Reg.QMGR_HOST_LAST_SEEN 0 0 = s.now % 2 ^ 64 ∧
      fwState v = fwState s ∧ v.fw.everBound = true := by
  have hregs (f : Fld) : (driverBound s seq n).getF f 0 0 = ((((s.setF Reg.MBX_BOUND 0 0 1).setF Reg.QMGR_HOST_LOSS_TIMEOUT 0 0
      (if n = 0 then 30 else n)).setF Reg.QMGR_HOST_LAST_SEEN 0 0 s.now).setF Reg.MBX_EXPECTED_SEQ 0 0 (seq + 1)).getF f 0 0 := getF_of_regs rfl ..
  have hlt : (if n = 0 then 30 else n) < 4096 := by split <;> omega
  unfold fwState
  simp only [hregs]
  simp (disch := decide) only [State.getF_setF_ne, State.getF_setF_same]
  exact ⟨rfl, Nat.mod_eq_of_lt hlt, rfl, rfl, trivial, rfl⟩

/-- BIND that is accepted. -/
theorem bind_binds {seq : Nat} {p : List Byte} (hfw : fwState s = 3 ∨ fwState s = 4) (hok : ¬((bit (field p 0 1) 0 = false ∧ s.getF Reg.MBX_BOUND 0 0 = 1) ∨
      (bit (field p 0 1) 0 = true ∧ s.getF Reg.MBX_BOUND 0 0 ≠ 1 ∧ fwState s ≠ 4))) (hn : field p 4 2 ≤ 3600) :
    ∃ u, bind s seq p = okay u ∧ u.getF Reg.MBX_BOUND 0 0 = 1 ∧
      u.getF Reg.QMGR_HOST_LOSS_TIMEOUT 0 0 = (if field p 4 2 = 0 then 30 else field p 4 2) ∧ fwState u = 3 ∧ u.fw.everBound = true ∧
      u.getF Reg.MBX_EXPECTED_SEQ 0 0 = (seq + 1) % 2 ^ 32 ∧ u.getF Reg.QMGR_HOST_LAST_SEEN 0 0 = s.now % 2 ^ 64 ∧
      (bit (field p 0 1) 0 = true → ∀ q ∈ u.queues, q.rings = none) ∧
      (fwState s = 4 → u.fw.holdAt = none ∧ (∀ q ∈ u.queues, q.stopped = true) ∧ ∀ d ∈ u.domains, d.parked = false) := by
  refine ⟨_, bind_eq hok hn, ?_⟩
  obtain ⟨h1, h2, h3, h4, h5, h6⟩ := driverBound_takes s seq hn
  generalize driverBound s seq (field p 4 2) = v at h1 h2 h3 h4 h5 h6 ⊢
  have hrings : ∀ q ∈ (if bit (field p 0 1) 0 = true then invalidateRings v else v).queues, bit (field p 0 1) 0 = true → q.rings = none := by
    intro q hq hre
    rw [if_pos hre] at hq
    obtain ⟨q', -, rfl⟩ := List.mem_map.mp hq
    rfl
  have hregs : (if bit (field p 0 1) 0 = true then invalidateRings v else v).regs = v.regs := by split <;> rfl
  have hfws : (if bit (field p 0 1) 0 = true then invalidateRings v else v).fw = v.fw := by split <;> rfl
  generalize (if bit (field p 0 1) 0 = true then invalidateRings v else v) = w at hrings hregs hfws ⊢
  have hget (f : Fld) : w.getF f 0 0 = v.getF f 0 0 := getF_of_regs hregs ..
  have hwfw : fwState w = fwState s := (hget _).trans h5
  rcases hfw with hfw | hfw
  · rw [if_pos (by rw [hwfw, hfw]; decide)]
    exact ⟨(hget _).trans h1, (hget _).trans h2, hwfw.trans hfw, by rw [hfws]; exact h6, (hget _).trans h3, (hget _).trans h4,
      fun hre q hq => hrings q hq hre, fun h => absurd (hfw.symm.trans h) (by decide)⟩
  · rw [if_neg (by rw [hwfw, hfw]; decide)]
    obtain ⟨hst, hann⟩ := setFwState_takes { w with
      queues := w.queues.map (fun q => { q with stopped := true })
      domains := w.domains.map (fun d => { d with parked := false })
      fw := { w.fw with holdAt := none } } (v := 3) (by decide) 0
    change fwState (holdLeft w) = 3 at hst
    change Announced _ (holdLeft w) fwStateKeys at hann
    obtain ⟨log, hlog⟩ := hann.fw
    have hq := hann.queues
    have hd := hann.domains
    have hf (f : Fld) (hk : f.key 0 0 ∉ fwStateKeys) : (holdLeft w).getF f 0 0 = v.getF f 0 0 :=
      (hann.fields f 0 0 hk).trans ((getF_of_regs rfl ..).trans (hget f))
    generalize holdLeft w = u at hst hlog hq hd hf ⊢
    refine ⟨(hf _ (by decide)).trans h1, (hf _ (by decide)).trans h2, hst, ?_, (hf _ (by decide)).trans h3, (hf _ (by decide)).trans h4,
      fun hre q hmem => ?_, fun _ => ⟨by rw [hlog], fun q hmem => ?_, fun d hmem => ?_⟩⟩
    · rw [hlog]
      change w.fw.everBound = true
      rw [hfws]
      exact h6
    · rw [hq] at hmem
      obtain ⟨q', hq', rfl⟩ := List.mem_map.mp hmem
      exact hrings q' hq' hre
    · rw [hq] at hmem
      obtain ⟨q', -, rfl⟩ := List.mem_map.mp hmem
      rfl
    · rw [hd] at hmem
      obtain ⟨d', -, rfl⟩ := List.mem_map.mp hmem
      rfl

/-! The fields of GET_DEVICE_INFO. -/

theorem length_flatMap_byte {α : Type} (l : List α) (f : α → Nat) : (l.flatMap (fun x => toLe 1 (f x))).length = l.length := by
  induction l with
  | nil => rfl
  | cons x l ih => rw [List.flatMap_cons, List.length_append, length_toLe, ih, List.length_cons, Nat.add_comm]

theorem lcState_le (s : State) : lcState s ≤ 3 := by
  unfold lcState
  split
  · decide
  split
  · decide
  split <;> decide

theorem deviceInfo_fields (s : State) :
    (deviceInfo s).length = 66 ∧ field (deviceInfo s) 0 8 = s.fuses.serial % 2 ^ 64 ∧ field (deviceInfo s) 9 1 = lcState s ∧
      field (deviceInfo s) 63 2 = s.getF Reg.SEC_MEMBER 0 0 % 65536 := by
  have hcols := length_flatMap_byte (List.range 28) (columnInfo s)
  have hchans := length_flatMap_byte (List.range 24) (fun c => s.getF Reg.DDR_STATE c 0)
  rw [List.length_range] at hcols hchans
  have hbytes : deviceInfo s = toLe 8 s.fuses.serial ++ (toLe 1 s.fuses.stepping ++ (toLe 1 (lcState s) ++
      (toLe 1 (s.getF Reg.MBX_S1_FB 0 0 + 2 * s.getF Reg.MBX_RUNTIME_FLASH 0 0 + 4 * s.getF Reg.MBX_RUNTIME_FB 0 0) ++
        ((List.range 28).flatMap (fun x => toLe 1 (columnInfo s x)) ++ ((List.range 24).flatMap (fun c => toLe 1 (s.getF Reg.DDR_STATE c 0)) ++
          (toLe 2 (s.getF Reg.SEC_MEMBER 0 0) ++ toLe 1 (s.getF Reg.SEC_MEMBER_STATE 0 0))))))) := by
    simp only [deviceInfo, List.append_assoc]
  rw [hbytes]
  refine ⟨?_, ?_, ?_, ?_⟩
  · simp only [List.length_append, length_toLe, hcols, hchans]
  · exact field_toLe_append ..
  · rw [field_toLe_skip 8 _ _ _ (by decide), field_toLe_skip 1 _ _ _ (by decide), field_toLe_append]
    exact Nat.mod_eq_of_lt (Nat.lt_of_le_of_lt (lcState_le s) (by decide))
  · rw [field_toLe_skip 8 _ _ _ (by decide), field_toLe_skip 1 _ _ _ (by decide), field_toLe_skip 1 _ _ _ (by decide),
      field_toLe_skip 1 _ _ _ (by decide), field_append _ _ _ (by rw [hcols]; decide), hcols, field_append _ _ _ (Nat.le_of_eq hchans), hchans]
    exact field_toLe_append ..

/-! What a request finds is the device as it stood. -/

/-- All but time, registers, the host's timer and the ring. -/
structure SameDevice (s v : State) : Prop where
  power : v.power = s.power
  fuses : v.fuses = s.fuses
  flash : v.flash = s.flash
  domains : v.domains = s.domains
  queues : v.queues = s.queues
  dram : v.dram = s.dram
  fw : ∃ n, v.fw = { s.fw with hostPaused := n }
  regs : ∀ (f : Fld) (inst i : Nat), f.key inst i ∉ [Reg.QMGR_HOST_LAST_SEEN.key 0 0, Reg.MBX_EXPECTED_SEQ.key 0 0] → v.getF f inst i = s.getF f inst i

theorem mbxServing_sameDevice (h : HostInTime s a.time) : SameDevice s (mbxServing s a) := by
  obtain ⟨hget, regs, n, hsame⟩ := mbxServing_same (a := a) h
  exact ⟨by rw [hsame], by rw [hsame], by rw [hsame], by rw [hsame], by rw [hsame], by rw [hsame], ⟨n, by rw [hsame]⟩, hget⟩

theorem SameDevice.get {v : State} (h : SameDevice s v) {f : Fld}
    (hf : f.key 0 0 ∉ [Reg.QMGR_HOST_LAST_SEEN.key 0 0, Reg.MBX_EXPECTED_SEQ.key 0 0]) : v.getF f 0 0 = s.getF f 0 0 := h.regs f 0 0 hf

theorem SameDevice.rtSlot {v : State} (h : SameDevice s v) (k : Nat) : Machine.rtSlot v k = Machine.rtSlot s k := by
  obtain ⟨n, hfw⟩ := h.fw
  simp only [Machine.rtSlot, hfw]

theorem SameDevice.inForce {v : State} (h : SameDevice s v) : v.fw.inForce = s.fw.inForce := by
  obtain ⟨n, hfw⟩ := h.fw
  rw [hfw]

theorem SameDevice.flashPart {v : State} (h : SameDevice s v) (fb : Bool) : Machine.flashPart v fb = Machine.flashPart s fb := by
  simp only [Machine.flashPart, h.flash]

theorem SameDevice.lcState {v : State} (h : SameDevice s v) : Machine.lcState v = Machine.lcState s := by
  simp only [Machine.lcState, h.fuses]

theorem SameDevice.domain? {v : State} (h : SameDevice s v) (id : Nat) : v.domain? id = s.domain? id := State.domain?_of_domains h.domains id

theorem SameDevice.fwState {v : State} (h : SameDevice s v) : Machine.fwState v = Machine.fwState s := h.get (by decide)

/-! IMAGE_LOAD. -/

section
variable {p dma : List Byte}

theorem imageLoad_otherKind (h1 : field p 0 1 ≠ 1) (h2 : field p 0 1 ≠ 2) : imageLoad s p dma = nackRange s 0 := if_pos ⟨h1, h2⟩

theorem imageLoad_runtimeTooEarly (hk : field p 0 1 = 2) (hst : fwState s = 0) : imageLoad s p dma = nackState s := by
  refine (if_neg (fun h => h.2 hk)).trans ((if_pos hst).trans (if_pos ?_))
  rw [hk]
  decide

theorem imageLoad_stage1TooLate (hk : field p 0 1 = 1) (hst : fwState s ≠ 0) : imageLoad s p dma = nackState s := by
  refine (if_neg (fun h => h.1 hk)).trans ((if_neg hst).trans (if_pos ?_))
  rw [hk]
  decide

theorem imageLoad_stage1 (hk : field p 0 1 = 1) (hst : fwState s = 0) :
    imageLoad s p dma = match imageCheck s 1 0 (dma.take (field p 16 4)) with
      | some e => nackVerify (imageFails s e) e.1
      | none => okay { s with
          fw := { s.fw with stage1 := dma.take (field p 16 4) }
          power := { s.power with startDue := some (s.getF Reg.CONFIG_START_REASON 0 0) } } :=
  (if_neg (fun h => h.1 hk)).trans ((if_pos hst).trans (if_neg (not_not_intro hk)))

theorem imageLoad_runtime {w : Nat} (hk : field p 0 1 = 2) (hst : fwState s = 1) (hw : s.fw.loadWaitFrom = some w) (ht : s.now ≤ w + 300000000000)
    (hc : imageCheck s 2 0 (dma.take (field p 16 4)) = none) :
    imageLoad s p dma = okay (startRuntime s (dma.take (field p 16 4)) false false) := by
  unfold imageLoad
  dsimp only
  rw [if_neg (fun h => h.2 hk), if_neg (by rw [hst]; decide), if_neg (not_not_intro hk), if_pos hst, hw]
  dsimp only
  rw [if_neg (Nat.not_lt.mpr ht), hc]

theorem imageLoad_standby (hk : field p 0 1 = 2) (hst : 3 ≤ fwState s) :
    imageLoad s p dma = match imageCheck s 2 (1 - s.fw.inForce % 2) (dma.take (field p 16 4)) with
      | some e => nackVerify (imageFails (setRtSlot s (1 - s.fw.inForce % 2) { image := [], locked := false }) e) e.1
      | none => okay (setRtSlot s (1 - s.fw.inForce % 2) { image := dma.take (field p 16 4), locked := true }) :=
  (if_neg (fun h => h.2 hk)).trans ((if_neg (by omega)).trans ((if_neg (not_not_intro hk)).trans (if_neg (by omega))))

/-! RUNTIME_HANDOVER. -/

theorem scheduleHandover_unlocked (h : (rtSlot s (1 - s.fw.inForce % 2)).locked = false) : scheduleHandover s p = nackState s :=
  if_pos (by rw [h]; rfl)

theorem scheduleHandover_any (h : (rtSlot s (1 - s.fw.inForce % 2)).locked = true) (hid : field p 0 4 = 0x7FFFF) :
    scheduleHandover s p = okay { s with fw := { s.fw with handover := some (field p 0 4, field p 8 8) } } :=
  (if_neg (by rw [h]; decide)).trans (if_pos hid)

theorem scheduleHandover_domain (h : (rtSlot s (1 - s.fw.inForce % 2)).locked = true) (hid : field p 0 4 ≠ 0x7FFFF) :
    scheduleHandover s p = match s.domain? (field p 0 4) with
      | none => nackRange s 0
      | some d => if field p 8 8 < d.nextStep then nackRange s 8
        else okay { s with fw := { s.fw with handover := some (field p 0 4, field p 8 8) } } :=
  (if_neg (by rw [h]; decide)).trans (if_neg hid)

/-! FLASH_WRITE. -/

theorem flashWrite_config (hpart : field p 0 1 = 0) (hkind : field p 1 1 = 3) (hlc : lcState s = 0 ∨ lcState s = 2) :
    flashWrite s p dma = if configCause (dma.take (field p 16 4)) = 0 then
        okay (setFlash s false { flashPart s false with config := dma.take (field p 16 4) })
      else nackRange s 8 := by
  refine (if_neg (by rw [hpart]; decide)).trans ((if_pos hkind).trans ((if_neg ?_).trans ((if_neg (not_not_intro hpart)).trans ?_)))
  · exact fun h => hlc.elim h.1 h.2
  · exact ite_not ..

theorem flashWrite_image (hpart : field p 0 1 < 2) (hkind : field p 1 1 = 1 ∨ field p 1 1 = 2) :
    flashWrite s p dma = match imageCheck s (field p 1 1) (field p 0 1) (dma.take (field p 16 4)) with
      | some e => nackVerify (imageFails s e) e.1
      | none =>
        if (field p 0 1 == 1) = s.flag Reg.MBX_S1_FB 0 0 ∧
            (imageCheck s (field p 1 1) (1 - field p 0 1) ((flashPart s (!(field p 0 1 == 1))).image (field p 1 1))).isSome then nackState s
        else okay (setFlash s (field p 0 1 == 1) ((flashPart s (field p 0 1 == 1)).withImage (field p 1 1) (dma.take (field p 16 4)))) :=
  (if_neg (by omega)).trans ((if_neg (by omega)).trans (if_neg (by omega)))

end

end

/-- Settles O39: each request is what its opcode does, in the state in which the request is served. -/
theorem mailboxDeviceRequests : Obligations.MailboxDeviceRequests := by
  unfold Obligations.MailboxDeviceRequests
  intro s a p v s1 get
  have hans {op : Nat} {f : MbxArgs → Instr} (hf : ∀ x, exec (f a) x = .next (request x op a)) (h : MbxGood s op a) (hop : op < 65536) (h1 : op ≠ 1)
      (h3 : op ≠ 3) (hlisted : opcodeListed op = true) {x : Answer} (hx : serveOp v op a.seq.toNat p a.dma a.dma2 = x) :
      exec (f a) s = .next (mbxAnswered op a x) :=
    (hf s).trans (congrArg Host.Outcome.next ((request_served h hop h1 h3 hlisted).trans (congrArg (mbxAnswered op a) hx)))
  refine ⟨fun h => ?_, fun h => ?_, fun h hlo hhi hfw hlc => ?_, fun h => ?_, fun h => ?_, fun h => ?_, fun h => ?_, fun h => ?_, fun h => ?_⟩
  · obtain ⟨hget, -⟩ := mbxTaken_same h.inTime
    have hver : getVersion s1 = getVersion s := by
      simp only [getVersion, fwState, s1, hget Reg.MBX_VER_MIN 0 0 (by decide), hget Reg.MBX_VER_MAX 0 0 (by decide),
        hget Reg.MBX_FW_STATE 0 0 (by decide), hget Reg.MBX_STAGE1_ID 0 0 (by decide), hget Reg.MBX_RUNTIME_ID 0 0 (by decide)]
    exact congrArg Host.Outcome.next ((getVersion_answered h).trans (congrArg (fun d => mbxRefused 0x01 a (okWith s1 d)) hver))
  · have hv : SameDevice s v := mbxServing_sameDevice h.turn.inTime
    obtain ⟨h1, h2, h3, h4⟩ := deviceInfo_fields v
    exact ⟨_, hans (fun _ => rfl) h (by decide) (by decide) (by decide) (by decide) rfl, h1, by rw [h2, hv.fuses],
      h3.trans hv.lcState, by rw [h4, hv.get (by decide)]⟩
  · intro rebind off
    obtain ⟨hget, regs, n, hsame⟩ := mbxTaken_same h.inTime
    have hreq := bind_answered h hlo hhi hfw hlc
    have hfw1 : fwState s1 = fwState s := hget Reg.MBX_FW_STATE 0 0 (by decide)
    have hbound : s1.getF Reg.MBX_BOUND 0 0 = get Reg.MBX_BOUND := hget _ 0 0 (by decide)
    have hrefused (hno : (bit (field p 0 1) 0 = false ∧ get Reg.MBX_BOUND = 1) ∨ (bit (field p 0 1) 0 = true ∧ get Reg.MBX_BOUND ≠ 1 ∧ fwState s ≠ 4)) :
        exec (.bind a) s = .next (mbxRefused 0x03 a (nackState s1)) := by
      have hx : bind s1 a.seq.toNat p = nackState s1 := by
        refine if_pos ?_
        rw [hbound, hfw1]
        simpa using hno
      rw [show bind (mbxTaken s a.time) a.seq.toNat a.payload = nackState s1 from hx] at hreq
      exact congrArg Host.Outcome.next (hreq.trans (if_neg (show (6 : Nat) ≠ 0 by decide)))
    refine ⟨fun hre hb => hrefused (Or.inl ⟨hre, hb⟩), fun hre hb h3 => hrefused (Or.inr ⟨hre, by rw [hb]; decide, by rw [h3]; decide⟩),
      fun hoff hn => ?_, fun hoff hn => ?_⟩
    · obtain ⟨hoff1, hoff2, hle⟩ := hoff
      have hb1 (hb : get Reg.MBX_BOUND ≠ 1) : get Reg.MBX_BOUND = 0 := by omega
      have hx : bind s1 a.seq.toNat p = nackRange s1 4 := by
        refine (if_neg ?_).trans (if_pos hn)
        rw [hbound, hfw1]
        simp only [Bool.not_eq_true', decide_eq_false_iff_not]
        exact fun h => h.elim (fun h => hoff2 h) (fun h => hoff1 ⟨h.1, hb1 h.2.1, h.2.2⟩)
      rw [show bind (mbxTaken s a.time) a.seq.toNat a.payload = nackRange s1 4 from hx] at hreq
      exact congrArg Host.Outcome.next (hreq.trans (if_neg (show (7 : Nat) ≠ 0 by decide)))
    · obtain ⟨hoff1, hoff2, hle⟩ := hoff
      have hb1 (hb : get Reg.MBX_BOUND ≠ 1) : get Reg.MBX_BOUND = 0 := by omega
      have hok : ¬((bit (field p 0 1) 0 = false ∧ s1.getF Reg.MBX_BOUND 0 0 = 1) ∨
          (bit (field p 0 1) 0 = true ∧ s1.getF Reg.MBX_BOUND 0 0 ≠ 1 ∧ fwState s1 ≠ 4)) := by
        rw [hbound, hfw1]
        exact fun h => h.elim (fun h => hoff2 h) (fun h => hoff1 ⟨h.1, hb1 h.2.1, h.2.2⟩)
      obtain ⟨u, hbind, h1, h2, h3, h4, h5, h6, h7, h8⟩ := bind_binds (s := s1) (seq := a.seq.toNat) (by rw [hfw1]; exact hfw) hok hn
      rw [show bind (mbxTaken s a.time) a.seq.toNat a.payload = okay u from hbind] at hreq
      exact ⟨u, congrArg Host.Outcome.next (hreq.trans (if_pos rfl)), h1, h2, h3, h4, h5, h6, h7, fun h => h8 (hfw1.trans h)⟩
  · have hv : SameDevice s v := mbxServing_sameDevice h.turn.inTime
    refine hans (fun _ => rfl) h (by decide) (by decide) (by decide) (by decide) ?_
    rw [← hv.queues]
    rfl
  · have hv : SameDevice s v := mbxServing_sameDevice h.turn.inTime
    intro kind i ans
    have hwait : v.fw.loadWaitFrom = s.fw.loadWaitFrom := by
      obtain ⟨n, hfw⟩ := hv.fw
      rw [hfw]
    have hload {x : Answer} (hx : imageLoad v p a.dma = x) : ans x := hans (fun _ => rfl) h (by decide) (by decide) (by decide) (by decide) hx
    refine ⟨fun h1 h2 => hload (imageLoad_otherKind h1 h2), fun hk hst => hload (imageLoad_runtimeTooEarly hk (hv.fwState.trans hst)),
      fun hk hst => hload (imageLoad_stage1TooLate hk (by rw [hv.fwState]; exact hst)), fun hk hst => ⟨fun e he => ?_, fun he => ?_⟩,
      fun hk hst w hw ht hc => hload (imageLoad_runtime hk (hv.fwState.trans hst) (hwait.trans hw) ht hc), fun hk hst k hkeq => ⟨fun e he => ?_, fun he => ?_⟩⟩
    · have hx := imageLoad_stage1 (dma := a.dma) hk (hv.fwState.trans hst)
      rw [he] at hx
      exact hload hx
    · have hx := imageLoad_stage1 (dma := a.dma) hk (hv.fwState.trans hst)
      rw [he, hv.get (f := Reg.CONFIG_START_REASON) (by decide)] at hx
      exact hload hx
    all_goals
      subst hkeq
      have hx := imageLoad_standby (dma := a.dma) (s := v) hk (by rw [hv.fwState]; exact hst)
      rw [hv.inForce, he] at hx
      exact hload hx
  · have hv : SameDevice s v := mbxServing_sameDevice h.turn.inTime
    intro id step ans due
    have hslot : rtSlot v (1 - v.fw.inForce % 2) = rtSlot s (1 - s.fw.inForce % 2) := by rw [hv.rtSlot, hv.inForce]
    have hdo {x : Answer} (hx : scheduleHandover v p = x) : ans x := hans (fun _ => rfl) h (by decide) (by decide) (by decide) (by decide) hx
    refine ⟨fun hl => hdo (scheduleHandover_unlocked (by rw [hslot]; exact hl)), fun hl => ⟨fun hid => hdo (scheduleHandover_any (by rw [hslot]; exact hl) hid),
      fun hid => ⟨fun hd => hdo ?_, fun d hd => hdo ?_⟩⟩⟩
    all_goals
      have hx := scheduleHandover_domain (s := v) (by rw [hslot]; exact hl) hid
      rw [hv.domain?, hd] at hx
      exact hx
  · have hv : SameDevice s v := mbxServing_sameDevice h.turn.inTime
    intro part kind i ans
    have hdo {x : Answer} (hx : flashWrite v p a.dma = x) : ans x := hans (fun _ => rfl) h (by decide) (by decide) (by decide) (by decide) hx
    refine ⟨fun hp => hdo (if_pos hp), fun hp hk h0 h2 => hdo ?_, fun hp hk hlc => hdo ?_, fun hp hk => ⟨fun e he => hdo ?_, fun he hgood => hdo ?_⟩⟩
    · refine (if_neg (show ¬part > 1 by rw [hp]; decide)).trans ((if_pos hk).trans (if_pos ?_))
      rw [hv.lcState]
      exact ⟨h0, h2⟩
    · have hx := flashWrite_config (s := v) (dma := a.dma) hp hk (by rw [hv.lcState]; exact hlc)
      rw [hv.flashPart] at hx
      exact hx
    · have hx := flashWrite_image (s := v) (dma := a.dma) hp hk
      rw [he] at hx
      exact hx
    · have hx := flashWrite_image (s := v) (dma := a.dma) hp hk
      rw [he, hv.flashPart, hv.flashPart] at hx
      refine hx.trans (if_neg fun ⟨h1, h2⟩ => ?_)
      rcases hgood with hne | hnone
      · exact hne (h1.trans (congrArg (fun n => n != 0) (hv.get (f := Reg.MBX_S1_FB) (by decide))))
      · rw [hnone] at h2
        exact absurd h2 (by decide)
  · have hv : SameDevice s v := mbxServing_sameDevice h.turn.inTime
    intro top
    have hdo {x : Answer} (hx : svnRaise v p = x) : exec (.svnRaise a) s = .next (mbxAnswered 0x13 a x) :=
      hans (fun _ => rfl) h (by decide) (by decide) (by decide) (by decide) hx
    obtain ⟨n, hfw⟩ := hv.fw
    have hst : v.fw.stage1 = s.fw.stage1 := by rw [hfw]
    have hrt : runtimeImage v = runtimeImage s := by simp only [runtimeImage, hfw]
    have hid : v.getF Reg.MBX_RUNTIME_ID 0 0 = get Reg.MBX_RUNTIME_ID := hv.get (by decide)
    refine ⟨fun hno => hdo (if_pos ?_), fun hok => hdo ((if_neg ?_).trans ?_)⟩
    · rw [hst, hrt, hid]
      omega
    · rw [hst, hrt, hid]
      omega
    · rw [hv.fuses]
  · exact hans (fun _ => rfl) h (by decide) (by decide) (by decide) (by decide) rfl

end Sys2Proof.Machine
end

section
namespace Sys2Proof.Machine

set_option Elab.async false

/-! O41: mailbox requests on queues. -/

section
variable {s : State} {a : MbxArgs} {op : Nat}

/-- A request that passes its checks is answered by what its opcode does. -/
theorem MbxGood.exec (h : MbxGood s op a) {f : MbxArgs → Instr} (hf : ∀ x, exec (f a) x = .next (request x op a)) (hop : op < 65536) (h1 : op ≠ 1)
    (h3 : op ≠ 3) (hlisted : opcodeListed op = true) {x : Answer} (hx : serveOp (mbxServing s a) op a.seq.toNat a.payload a.dma a.dma2 = x) :
    exec (f a) s = .next (mbxAnswered op a x) :=
  (hf s).trans (congrArg Host.Outcome.next ((request_served h hop h1 h3 hlisted).trans (congrArg (mbxAnswered op a) hx)))

theorem MbxGood.sameDevice (h : MbxGood s op a) : SameDevice s (mbxServing s a) := mbxServing_sameDevice h.turn.inTime

theorem SameDevice.queue? {v : State} (h : SameDevice s v) (id : Nat) : v.queue? id = s.queue? id := State.queue?_of_queues h.queues id

/-! A queue put in its place. -/

theorem find?_putQueue_ne (qs : List Queue) (q : Queue) {k : Nat} (hk : q.id ≠ k) :
    (putQueue qs q).find? (fun x => x.id == k) = qs.find? (fun x => x.id == k) := by
  have hq : ¬ (q.id == k) = true := by simpa using hk
  induction qs with
  | nil => exact List.find?_cons_of_neg hq
  | cons x xs ih =>
    unfold putQueue
    split
    · simp only [List.find?_cons, ih]
    split
    · next heq =>
      have hx : ¬ (x.id == k) = true := by rw [heq]; exact hq
      rw [List.find?_cons, List.find?_cons, (Bool.not_eq_true _).mp hq, (Bool.not_eq_true _).mp hx]
    · exact List.find?_cons_of_neg hq

theorem length_putQueue (qs : List Queue) (q : Queue) (h : qs.find? (fun x => x.id == q.id) = none) : (putQueue qs q).length = qs.length + 1 := by
  induction qs with
  | nil => rfl
  | cons x xs ih =>
    obtain ⟨hx, hxs⟩ : x.id ≠ q.id ∧ xs.find? (fun x => x.id == q.id) = none := by
      rw [List.find?_cons] at h
      split at h
      · exact absurd h (by simp)
      · next hne => exact ⟨by simpa using hne, h⟩
    unfold putQueue
    rw [if_neg hx]
    split
    · rw [List.length_cons, ih hxs, List.length_cons]
    · rw [List.length_cons]

theorem State.queue?_setQueue_ne (s : State) {q : Queue} {k : Nat} (hk : q.id ≠ k) : (s.setQueue q).queue? k = s.queue? k := by
  unfold State.queue?
  rw [State.setQueue_queues]
  exact find?_putQueue_ne s.queues q hk

/-- A queue put in its place changes the queues, and who idles. -/
theorem State.setQueue_same (s : State) (q : Queue) : ∃ power, s.setQueue q = { s with power := power, queues := putQueue s.queues q } := by
  unfold State.setQueue
  dsimp only
  split
  · exact ⟨_, rfl⟩
  · exact ⟨_, rfl⟩

theorem countQueues_same (s : State) : ∃ regs, countQueues s = { s with regs := regs } := ⟨_, rfl⟩

theorem countQueues_counts (s : State) : (countQueues s).getF Reg.QMGR_QUEUES 0 0 = s.queues.length % 65536 :=
  (State.getF_setF_ne _ _ (by decide)).trans (State.getF_setF_same ..)

/-! QUEUE_CREATE and QUEUE_DESTROY. -/

/-- A queue as QUEUE_CREATE makes it. -/
def newQueue (p : List Byte) : Queue :=
  { id := field p 0 2, desc := (p ++ zeros 128).take 128, rings := none, subTail := 0, subHead := 0, cplHead := 0, cplTail := 0,
    cplCount := 0, stopped := false, stalled := false, waiting := [], entries := [], due := [], lastId := 0,
    lastStart := 0, unit := none, image := none }

variable {p : List Byte}

theorem queueCreate_outOfRange {n : Nat} (h : queueRange p = some n) : queueCreate s p = nackRange s n := by
  rw [queueCreate, h]

theorem queueCreate_taken {q : Queue} (h : queueRange p = none) (hq : s.queue? (field p 0 2) = some q) : queueCreate s p = nackBusy s := by
  rw [queueCreate, h]
  exact if_pos (by rw [hq]; rfl)

theorem queueCreate_new (h : queueRange p = none) (hq : s.queue? (field p 0 2) = none) :
    queueCreate s p = okay (countQueues (s.setQueue (newQueue p))) := by
  rw [queueCreate, h]
  exact if_neg (by rw [hq]; decide)

theorem newQueue_placed (hq : s.queue? (field p 0 2) = none) :
    let u := countQueues (s.setQueue (newQueue p))
    u.queue? (field p 0 2) = some (newQueue p) ∧ (∀ k, k ≠ field p 0 2 → u.queue? k = s.queue? k) ∧
      u.getF Reg.QMGR_QUEUES 0 0 = (s.queues.length + 1) % 65536 ∧ u.domains = s.domains ∧ u.dram = s.dram := by
  dsimp only
  have hcount := countQueues_counts (s.setQueue (newQueue p))
  have hsame := State.queue?_setQueue_same s (q := newQueue p) rfl
  have hother {k : Nat} (hk : k ≠ field p 0 2) : (s.setQueue (newQueue p)).queue? k = s.queue? k := State.queue?_setQueue_ne s (Ne.symm hk)
  rw [State.setQueue_queues, length_putQueue s.queues (newQueue p) hq] at hcount
  obtain ⟨power, hset⟩ := State.setQueue_same s (newQueue p)
  exact ⟨hsame, fun k hk => hother hk, hcount, (congrArg State.domains hset :), (congrArg State.dram hset :)⟩

theorem queueDestroy_none (hq : s.queue? (field p 0 2) = none) : queueDestroy s p = nackRange s 0 := by
  rw [queueDestroy, hq]

theorem any_uses_queue (ds : List Domain) (id : Nat) (q : Queue) :
    ds.any (fun d => d.bound && d.queue == id && !q.isRun) = true ↔ ∃ d ∈ ds, d.bound = true ∧ d.queue = id ∧ q.isRun = false := by
  simp only [List.any_eq_true, Bool.and_eq_true, beq_iff_eq, Bool.not_eq_true', and_assoc]

theorem queueDestroy_used {q : Queue} (hq : s.queue? (field p 0 2) = some q)
    (hu : q.unit.isSome = true ∨ ∃ d ∈ s.domains, d.bound = true ∧ d.queue = field p 0 2 ∧ q.isRun = false) : queueDestroy s p = nackBusy s := by
  rw [← any_uses_queue] at hu
  rw [queueDestroy, hq]
  exact if_pos hu

theorem queueDestroy_free {q : Queue} (hq : s.queue? (field p 0 2) = some q)
    (hu : ¬(q.unit.isSome = true ∨ ∃ d ∈ s.domains, d.bound = true ∧ d.queue = field p 0 2 ∧ q.isRun = false)) :
    queueDestroy s p = okay (countQueues { s with queues := s.queues.filter (fun (x : Queue) => x.id != field p 0 2) }) := by
  rw [← any_uses_queue] at hu
  rw [queueDestroy, hq]
  exact if_neg hu

/-! QUEUE_RING_SET, QUEUE_STOP, QUEUE_RESUME and QUEUE_QUERY. -/

/-- A queue with the rings that QUEUE_RING_SET gives it. -/
def Queue.withRings (q : Queue) (p : List Byte) : Queue :=
  { q with
    rings := some ⟨field p 4 1, field p 5 1, field p 8 8, field p 16 8⟩
    subTail := 0, subHead := 0, cplHead := 0, cplTail := 0, cplCount := 0, waiting := [], stalled := false, due := [] }

theorem queueRingSet_none (hq : s.queue? (field p 0 2) = none) : queueRingSet s p = nackRange s 0 := by
  rw [queueRingSet, hq]

theorem queueRingSet_some {q : Queue} (hq : s.queue? (field p 0 2) = some q) :
    queueRingSet s p =
      if field p 4 1 < 4 ∨ field p 4 1 > 15 then nackRange s 4
      else if field p 5 1 < 4 ∨ field p 5 1 > 15 then nackRange s 5
      else if field p 8 8 % 64 ≠ 0 then nackRange s 8
      else if field p 16 8 % 64 ≠ 0 then nackRange s 16
      else okay (countQueues (flushDue q.due (s.setQueue (q.withRings p)) (field p 0 2))) := by
  rw [queueRingSet, hq]
  rfl

theorem withRings_placed {q : Queue} (hq : s.queue? (field p 0 2) = some q) :
    let u := countQueues (s.setQueue (q.withRings p))
    u.queue? (field p 0 2) = some (q.withRings p) ∧ (∀ k, k ≠ field p 0 2 → u.queue? k = s.queue? k) ∧ u.dram = s.dram := by
  dsimp only
  have hid : q.id = field p 0 2 := State.queue?_id hq
  obtain ⟨power, hset⟩ := State.setQueue_same s (q.withRings p)
  exact ⟨State.queue?_setQueue_same s hid, fun k hk => State.queue?_setQueue_ne s fun e => hk (e.symm.trans hid), (congrArg State.dram hset :)⟩

theorem queueSetStopped_none (hq : s.queue? (field p 0 2) = none) (v : Bool) : queueSetStopped s p v = nackRange s 0 := by
  rw [queueSetStopped, hq]

theorem queueSetStopped_some {q : Queue} (hq : s.queue? (field p 0 2) = some q) (v : Bool) :
    queueSetStopped s p v = okay (s.setQueue { q with stopped := v }) := by
  rw [queueSetStopped, hq]

theorem queueQuery_none (hq : s.queue? (field p 0 2) = none) : queueQuery s p = nackRange s 0 := by
  rw [queueQuery, hq]

theorem queueQuery_some {q : Queue} (hq : s.queue? (field p 0 2) = some q) :
    queueQuery s p = okWith s (q.desc ++ toLe 4 (if q.stopped = true then 2 else if q.stalled = true then 1 else 0) ++ toLe 2 q.subTail ++
      toLe 2 q.subHead ++ toLe 2 q.cplHead ++ toLe 2 q.cplTail ++ toLe 4 q.lastId) := by
  rw [queueQuery, hq]

end

/-- Settles O41: each request is what its opcode does, in the state in which the request is served. -/
theorem mailboxQueueRequests : Obligations.MailboxQueueRequests := by
  unfold Obligations.MailboxQueueRequests
  intro s a p v id
  refine ⟨fun h => ?_, fun h => ?_, fun h => ?_, fun o ho h => ?_, fun h => ?_⟩
  · have hq := h.sameDevice.queue? id
    have hans {x : Answer} (hx : queueCreate v p = x) : exec (.queueCreate a) s = .next (mbxAnswered 0x30 a x) :=
      h.exec (fun _ => rfl) (by decide) (by decide) (by decide) (by decide) hx
    refine ⟨fun n hn => hans (queueCreate_outOfRange hn), fun hr => ⟨fun q hs => hans (queueCreate_taken hr (hq.trans hs)), fun hs => ?_⟩⟩
    obtain ⟨h1, h2, h3, h4, h5⟩ := newQueue_placed (hq.trans hs)
    exact ⟨_, _, hans (queueCreate_new hr (hq.trans hs)), h1, rfl, rfl, rfl, rfl, rfl, rfl, fun k hk => (h2 k hk).trans (h.sameDevice.queue? k),
      by rw [h3, h.sameDevice.queues], h4.trans h.sameDevice.domains, h5.trans h.sameDevice.dram⟩
  · have hq := h.sameDevice.queue? id
    have hans {x : Answer} (hx : queueDestroy v p = x) : exec (.queueDestroy a) s = .next (mbxAnswered 0x31 a x) :=
      h.exec (fun _ => rfl) (by decide) (by decide) (by decide) (by decide) hx
    have hdoms : v.domains = s.domains := h.sameDevice.domains
    have hqs : v.queues = s.queues := h.sameDevice.queues
    refine ⟨fun hs => hans (queueDestroy_none (hq.trans hs)), fun q hs => ⟨fun hu => ?_, fun hu => ?_⟩⟩
    all_goals rw [← hdoms] at hu
    · exact hans (queueDestroy_used (hq.trans hs) hu)
    · exact ⟨_, hans (queueDestroy_free (hq.trans hs) hu), congrArg _ hqs, hdoms, h.sameDevice.dram⟩
  · have hq := h.sameDevice.queue? id
    have hans {x : Answer} (hx : queueRingSet v p = x) : exec (.queueRingSet a) s = .next (mbxAnswered 0x32 a x) :=
      h.exec (fun _ => rfl) (by decide) (by decide) (by decide) (by decide) hx
    refine ⟨fun hs => hans (queueRingSet_none (hq.trans hs)), fun q hs => ?_⟩
    have hx := queueRingSet_some (hq.trans hs)
    refine ⟨fun h4 => hans (hx.trans (if_pos h4)), fun h4 h4' => ⟨fun h5 => hans ?_, fun h5 h5' => ⟨fun h8 => hans ?_, fun h8 h16 => hans ?_,
      fun h8 h16 hdue => ?_⟩⟩⟩
    · exact hx.trans ((if_neg (by omega)).trans (if_pos h5))
    · exact hx.trans ((if_neg (by omega)).trans ((if_neg (by omega)).trans (if_pos h8)))
    · exact hx.trans ((if_neg (by omega)).trans ((if_neg (by omega)).trans ((if_neg (not_not_intro h8)).trans (if_pos h16))))
    · obtain ⟨h1, h2, h3⟩ := withRings_placed (p := p) (hq.trans hs)
      rw [hdue] at hx
      refine ⟨_, hans (hx.trans ((if_neg (by omega)).trans ((if_neg (by omega)).trans ((if_neg (not_not_intro h8)).trans
        (if_neg (not_not_intro h16)))))), h1.trans ?_, fun k hk => (h2 k hk).trans (h.sameDevice.queue? k), h3.trans h.sameDevice.dram⟩
      rw [Queue.withRings, hdue]
  · have hset {op : Nat} {f : MbxArgs → Instr} {b : Bool} (h : MbxGood s op a) (hf : ∀ x, exec (f a) x = .next (request x op a)) (hop : op < 65536)
        (h1 : op ≠ 1) (h3 : op ≠ 3) (hlisted : opcodeListed op = true) (hserve : serveOp v op a.seq.toNat p a.dma a.dma2 = queueSetStopped v p b) :
        (s.queue? id = none → exec (f a) s = .next (mbxAnswered op a (nackRange v 0))) ∧
          ∀ q, s.queue? id = some q → exec (f a) s = .next (mbxAnswered op a (okay (v.setQueue { q with stopped := b }))) :=
      ⟨fun hs => h.exec hf hop h1 h3 hlisted (hserve.trans (queueSetStopped_none ((h.sameDevice.queue? id).trans hs) b)),
        fun q hs => h.exec hf hop h1 h3 hlisted (hserve.trans (queueSetStopped_some ((h.sameDevice.queue? id).trans hs) b))⟩
    rcases List.mem_cons.mp ho with rfl | ho
    · exact hset h (fun _ => rfl) (by decide) (by decide) (by decide) (by decide) rfl
    · obtain rfl := List.mem_singleton.mp ho
      exact hset h (fun _ => rfl) (by decide) (by decide) (by decide) (by decide) rfl
  · have hq := h.sameDevice.queue? id
    exact ⟨fun hs => h.exec (fun _ => rfl) (by decide) (by decide) (by decide) (by decide) (queueQuery_none (hq.trans hs)),
      fun q hs => h.exec (fun _ => rfl) (by decide) (by decide) (by decide) (by decide) (queueQuery_some (hq.trans hs))⟩

end Sys2Proof.Machine
end

section
namespace Sys2Proof.Machine

set_option Elab.async false

/-! O46 fails: nothing in the statement bounds the cycle that a stalled tile has reached. Where it lies in the future, the abort of the
tile settles its stall there, and device time with it. -/

/-- A queue that runs a RUN on logical tile 0. -/
def runningQueue : Queue :=
  { id := 0, desc := [0, 0, 8], rings := none, subTail := 0, subHead := 0, cplHead := 0, cplTail := 0, cplCount := 0, stopped := false,
    stalled := false, waiting := [], entries := [], due := [], lastId := 0, lastStart := 0, image := none
    unit := some { entry := { kind := 0, id := 7, domain := 0, left := 1, arg := 0 }, tiles := [0], startedAt := 0, update := false, stopping := false } }

/-- A device in HOLD since device time 0 runs that queue; tile 0 stalls at a cycle that is reached 70 s after power-on. -/
def stalledAhead : State :=
  let s := (((State.reset.setF Reg.MBX_FW_STATE 0 0 4).setF Reg.CP_STATE 1 0 2).setF (Hdr.ENABLE 1) 0 0 1).setTile 0
    { Tile.reset with pstate := .stalled, stall := some { cause := 0, ops := [], need := 0, run := 0, also := 0 }, anchorAt := 70000000000 }
  { s with queues := [runningQueue], fw := { s.fw with holdAt := some 0 } }

/-- 60 s later the RUN is over the limit. -/
def stalledAheadStopped : State := holdRunLimit stalledAhead 60000000000

theorem stalledAheadStopped_now : stalledAheadStopped.now = 70000000000 := by decide +kernel

/-- Refutes O46: the abort of a RUN at the limit takes device time to the cycle of its stalled tile. -/
theorem not_hostLossAndLoadWait : ¬ Obligations.HostLossAndLoadWait := by
  unfold Obligations.HostLossAndLoadWait
  intro h
  obtain ⟨-, -, -, hlimit, -, -⟩ := h stalledAhead 60000000000
  obtain ⟨-, hrun⟩ := hlimit 0 rfl
  obtain ⟨u, hu, hnow, -⟩ := hrun (by decide +kernel) (by decide +kernel) (by decide)
  have hend : exec (.holdRunLimit 60000000000) stalledAhead = .next stalledAheadStopped := rfl
  obtain rfl : stalledAheadStopped = u := Host.Outcome.next.inj (hend.symm.trans hu)
  rw [stalledAheadStopped_now] at hnow
  exact absurd hnow (by decide +kernel)

end Sys2Proof.Machine
end

section
namespace Sys2Proof.Machine

set_option Elab.async false

/-! O44 fails for the same reason as O46: the abort of a faulted unit settles the stall of another tile of the unit, which may lie in the
future, and the completion then carries a later device time. -/

/-- The rings of the queue. -/
def faultRings : QRings := { subLog := 4, cplLog := 4, subBase := 0, cplBase := 0 }

/-- A unit on logical tiles 0 and 1. -/
def faultUnit : RunUnit := { entry := { kind := 0, id := 7, domain := 0, left := 1, arg := 0 }, tiles := [0, 1], startedAt := 0, update := false, stopping := false }

/-- A queue that runs it as a RUN. -/
def faultQueue : Queue := { runningQueue with rings := some faultRings, unit := some faultUnit }

/-- Tile 1 of the unit has faulted; tile 0 stalls at a cycle that is reached 70 s after power-on. -/
def faultedBeside : State :=
  let s := (((State.reset.setF Reg.CP_STATE 1 0 2).setF (Hdr.ENABLE 1) 0 0 1).setF (Hdr.ENABLE 1) 1 0 1).setTile 0
    { Tile.reset with pstate := .stalled, stall := some { cause := 0, ops := [], need := 0, run := 0, also := 0 }, anchorAt := 70000000000 }
  { s.setTile 1 { Tile.reset with pstate := .faulted } with queues := [faultQueue] }

/-- The handler has run at device time 0. -/
def faultedBesideHandled : State := queueFault faultedBeside 0 0

/-- The completion that the statement asks for: FAULT with code 0x060E at device time 0. -/
def faultCompletion : Sent :=
  .hostMem 0 (toLe 4 7 ++ toLe 1 1 ++ toLe 1 (2 + 1) ++ toLe 2 0x060E ++ toLe 8 0 ++ toLe 8 0 ++ zeros 8)

theorem faultedBesideHandled_sent : faultedBesideHandled.sent.reverse[1]? ≠ some faultCompletion := by decide +kernel

/-- Refutes O44: the completion of the faulted RUN carries device time 70 s. -/
theorem not_unitsEnd : ¬ Obligations.UnitsEnd := by
  unfold Obligations.UnitsEnd
  intro h
  obtain ⟨-, -, -, hfault, -⟩ := h faultedBeside 0 0 faultQueue faultRings faultUnit (by decide +kernel) rfl rfl rfl
  obtain ⟨u, hu, ⟨⟨l, hsent⟩, -⟩, -⟩ := hfault (by decide) ⟨1, by decide +kernel, by decide +kernel⟩
  have hend : exec (.queueFault 0 0) faultedBeside = .next faultedBesideHandled := rfl
  obtain rfl : faultedBesideHandled = u := Host.Outcome.next.inj (hend.symm.trans hu)
  refine faultedBesideHandled_sent ?_
  rw [hsent, List.reverse_append]
  rfl

end Sys2Proof.Machine
end

section
namespace Sys2Proof.Machine

set_option Elab.async false

/-! O45 fails for the same reason as O46: CP0's escalation has the groups of the device fail their steps, and the abort of a step settles
the stall of its tiles, which may lie in the future. ESCALATING then begins later than the watchdog's expiry. -/

/-- A group of two, which this device coordinates. -/
def failingGroup : Group :=
  { Group.waiting (Domain.fresh 0 []) 0 (defaultParams 2) with plan := { torus := false, x := 2, members := [some 0, some 1] }, state := .member }

/-- Its domain runs step 0. -/
def failingDomain : Domain :=
  { Domain.fresh 0 [] with
    group := some failingGroup
    run := some { step := 0, phase := .program, startedAt := 0, readyUs := 0, ovf := false, skipped := false, reruns := 0, updFaults := 0,
                  nonfinite := 0, gradClosed := false, gradWords := [], gradItems := [], statOpen := false, statClosed := false, dueRoots := [] } }

/-- CP0 was kicked last at device time 0; the step's program on tile 0 stalls at a cycle that is reached 70 s after power-on. -/
def escalatingStep : State :=
  let s := (((State.reset.setF Reg.CP_STATE 0 0 2).setF Reg.CP_STATE 3 0 2).setF (Hdr.ENABLE 1) 0 0 1).setTile 0
    { Tile.reset with pstate := .stalled, stall := some { cause := 0, ops := [], need := 0, run := 0, also := 0 }, anchorAt := 70000000000 }
  { s with queues := [{ runningQueue with desc := [] }], domains := [failingDomain], power := { s.power with vaux := true } }

/-- The watchdog of CP0 has expired at its period. -/
def escalatedStep : State := watchdogExpiry escalatingStep 0 true 500000000

theorem escalatedStep_at : escalatedStep.fw.escalatedAt = some 70000000000 := by decide +kernel

/-- Refutes O45: the device escalates at device time 70 s. -/
theorem not_processorsAndHandover : ¬ Obligations.ProcessorsAndHandover := by
  unfold Obligations.ProcessorsAndHandover
  intro h
  obtain ⟨-, -, -, hexpiry, -⟩ := h escalatingStep 0 true 500000000
  obtain ⟨hzero, -⟩ := hexpiry (by decide +kernel) (by decide +kernel) rfl (by decide +kernel)
  obtain ⟨u, hu, -, -, hat, -⟩ := hzero rfl
  have hend : exec (.watchdogExpiry 0 true 500000000) escalatingStep = .next escalatedStep := rfl
  obtain rfl : escalatedStep = u := Host.Outcome.next.inj (hend.symm.trans hu)
  rw [escalatedStep_at] at hat
  exact absurd hat (by decide +kernel)

end Sys2Proof.Machine
end

section
namespace Sys2Proof.Machine

set_option Elab.async false

/-! O43 fails for the same reason as O46: the start of a unit SOFT_RESETs a tile whose doors hold a message, which settles the tile's stall.
Where that lies in the future, the unit starts at a later device time than it became ready. -/

/-- A program image without sections. -/
def emptyImage : List Byte :=
  let head := toLe 4 0x5D1E40C3 ++ toLe 1 1 ++ zeros 11 ++ toLe 8 64 ++ zeros 36
  head ++ toLe 4 (crc32c head)

/-- A RUN that waits on a queue with tile 0 in its mask. -/
def readyQueue : Queue :=
  { runningQueue with
    desc := toLe 8 (8 * 2 ^ 16) ++ toLe 16 1 ++ zeros 8
    rings := some { subLog := 4, cplLog := 4, subBase := 0, cplBase := 0 }
    entries := [{ kind := 0, id := 7, domain := 0, left := 1, arg := 0 }]
    unit := none }

/-- Tile 0 holds a message, and stalls at a cycle that is reached 70 s after power-on. -/
def readyBeside : State :=
  let s := (((((State.reset.setF Reg.CP_STATE 1 0 2).setF Reg.MBX_FW_STATE 0 0 3).setF (Hdr.ENABLE 1) 0 0 1).setF Reg.PSEQ_CUR 0 0 2).setF
    Reg.DDR_STATE 0 0 2).setTile 0
    { Tile.reset with
      pstate := .stalled, stall := some { cause := 0, ops := [], need := 0, run := 0, also := 0 }, anchorAt := 70000000000
      doors := Vector.replicate 16 [{ msg := { srcTile := 0, remote := false, srcMember := 0, seq := 0, tag := 0, regs := [] }, time := 0 }] }
  { s with queues := [readyQueue], dram := Memory.writeL [] 0 emptyImage, power := { s.power with startDue := none } }

/-- CP1 has started the unit. -/
def startedBeside : State := unitStart readyBeside 0

theorem startedBeside_at : (startedBeside.queue? 0).bind (fun q => q.unit.map (·.startedAt)) = some 70000000000 := by decide +kernel

theorem readyBeside_now : (readyUnit (readyBeside.atTime 0) readyQueue).1.now = 0 := by decide +kernel

/-- Refutes O43: the unit starts at device time 70 s. -/
theorem not_unitsStart : ¬ Obligations.UnitsStart := by
  unfold Obligations.UnitsStart
  intro h
  obtain ⟨-, hon⟩ := h readyBeside 0
  obtain ⟨-, hpick⟩ := hon (by decide +kernel) (by decide +kernel)
  obtain ⟨-, -, hready⟩ := hpick readyQueue (by decide +kernel)
  obtain ⟨-, -, hstart⟩ := hready _ _ rfl (by decide +kernel) (readyUnit (readyBeside.atTime 0) readyQueue).1
    (readyUnit (readyBeside.atTime 0) readyQueue).2 rfl
  obtain ⟨u, y, hu, hy, hunit, -⟩ := hstart (by decide +kernel) (by decide +kernel) (by decide +kernel)
  have hend : exec (.unitStart 0) readyBeside = .next startedBeside := rfl
  obtain rfl : startedBeside = u := Host.Outcome.next.inj (hend.symm.trans hu)
  have hat : (startedBeside.queue? 0).bind (fun q => q.unit.map (·.startedAt)) = some (readyUnit (readyBeside.atTime 0) readyQueue).1.now := by
    rw [show startedBeside.queue? 0 = some y from hy, Option.bind_some]
    generalize (readyUnit (readyBeside.atTime 0) readyQueue).1 = w at hunit ⊢
    rw [hunit, Option.map_some]
  rw [startedBeside_at, readyBeside_now] at hat
  exact absurd hat (by decide)

end Sys2Proof.Machine
end

section
namespace Sys2Proof.Machine

set_option Elab.async false

/-! O50: ageing and drift. -/

/-! The throttle levels. -/

/-- The level that the requests of stack `n` ask for. -/
def Power.level (p : Power) (n : Fin 4) : Nat := max (max p.kP p.kT[n]) (max p.kS[n] p.kA[n])

def throttleKeys : List Nat := (List.finRange 4).map (fun (n : Fin 4) => Reg.BRK_THROTTLE.key 0 n)

section
variable {α : Type} (l : List α) (f : Fld) (inst idx : α → Nat)

/-- Fields stored one after another, by values that the power state gives: no store changes it. -/
theorem foldl_setF_power (val : Power → α → Nat) (s : State) :
    l.foldl (fun (s : State) a => s.setF f (inst a) (idx a) (val s.power a)) s =
      l.foldl (fun (t : State) a => t.setF f (inst a) (idx a) (val s.power a)) s := by
  induction l generalizing s with
  | nil => rfl
  | cons a l ih => exact ih (s.setF f (inst a) (idx a) (val s.power a))

theorem foldl_setF_only (val : α → Nat) (s : State) {ks : List Nat} (h : ∀ a ∈ l, f.key (inst a) (idx a) ∈ ks) :
    ChangesAt s (l.foldl (fun (t : State) a => t.setF f (inst a) (idx a) (val a)) s) ks := by
  induction l generalizing s with
  | nil => exact ChangesAt.refl s ks
  | cons a l ih => exact (ChangesAt.setF s _ (h a List.mem_cons_self)).trans (ih _ fun b hb => h b (List.mem_cons_of_mem _ hb))

/-- A field stored, and not again, keeps its value. -/
theorem getF_foldl_setF (val : α → Nat) (s : State) (hne : l.Pairwise (fun a b => f.key (inst a) (idx a) ≠ f.key (inst b) (idx b))) {a : α} (ha : a ∈ l) :
    (l.foldl (fun (t : State) a => t.setF f (inst a) (idx a) (val a)) s).getF f (inst a) (idx a) = val a % 2 ^ f.width := by
  induction l generalizing s with
  | nil => cases ha
  | cons b l ih =>
    obtain ⟨hb, hl⟩ := List.pairwise_cons.mp hne
    rcases List.mem_cons.mp ha with rfl | ha
    · refine ((foldl_setF_only l f inst idx val _ (ks := l.map fun b => f.key (inst b) (idx b)) fun c hc => List.mem_map_of_mem hc).fields f _ _ ?_).trans
        (State.getF_setF_same ..)
      rw [List.mem_map]
      rintro ⟨c, hc, heq⟩
      exact hb c hc heq.symm
    · exact ih _ hl ha

end

section

theorem settleThrottle_eq (s : State) :
    settleThrottle s = (List.finRange 4).foldl (fun (t : State) (n : Fin 4) => t.setF Reg.BRK_THROTTLE 0 n (s.power.level n)) s :=
  foldl_setF_power (List.finRange 4) Reg.BRK_THROTTLE (fun _ => 0) (fun n => n) Power.level s

theorem settleThrottle_only (s : State) : ChangesAt s (settleThrottle s) throttleKeys := by
  rw [settleThrottle_eq]
  exact foldl_setF_only _ _ (fun _ => 0) (fun n : Fin 4 => n) _ s fun n hn => List.mem_map_of_mem hn

theorem settleThrottle_level (s : State) (n : Fin 4) : (settleThrottle s).getF Reg.BRK_THROTTLE 0 n = s.power.level n % 16 := by
  rw [settleThrottle_eq]
  exact getF_foldl_setF _ Reg.BRK_THROTTLE (fun _ => 0) (fun n : Fin 4 => n) _ s (by decide) (List.mem_finRange n)

end

/-! Readings. -/

section
variable {s : State} {n : Fin 4} {k : Fin 8}

/-- The keys of an island's page that a reading stores. -/
def readingKeys (n : Fin 4) (k : Fin 8) : List Nat :=
  [Reg.AGE_CPR0_SLACK, Reg.AGE_CPR1_SLACK, Reg.AGE_TEMP, Reg.AGE_RO0_COUNT, Reg.AGE_RO1_COUNT].map (fun f => f.key n k)

/-- A reading stored. -/
def readingStored (s : State) (r : AgeReading) (n : Fin 4) (k : Fin 8) : State :=
  ((((s.setF Reg.AGE_CPR0_SLACK n k (min 255 r.cpr0)).setF Reg.AGE_CPR1_SLACK n k (min 255 r.cpr1)).setF Reg.AGE_TEMP n k (min 255 r.temp)).setF
    Reg.AGE_RO0_COUNT n k r.ro0).setF Reg.AGE_RO1_COUNT n k r.ro1

theorem readingStored_only (s : State) (r : AgeReading) (n : Fin 4) (k : Fin 8) : ChangesAt s (readingStored s r n k) (readingKeys n k) :=
  ((((ChangesAt.setF s _ (by simp [readingKeys])).trans (ChangesAt.setF _ _ (by simp [readingKeys]))).trans
    (ChangesAt.setF _ _ (by simp [readingKeys]))).trans (ChangesAt.setF _ _ (by simp [readingKeys]))).trans (ChangesAt.setF _ _ (by simp [readingKeys]))

theorem readingKeys_nodup (n : Fin 4) (k : Fin 8) : (readingKeys n k).Nodup := by decide +revert

theorem readingStored_values (s : State) (r : AgeReading) (n : Fin 4) (k : Fin 8) :
    let u := readingStored s r n k
    u.getF Reg.AGE_CPR0_SLACK n k = min 255 r.cpr0 ∧ u.getF Reg.AGE_CPR1_SLACK n k = min 255 r.cpr1 ∧ u.getF Reg.AGE_TEMP n k = min 255 r.temp := by
  have hlt (x : Nat) : min 255 x % 2 ^ 8 = min 255 x := Nat.mod_eq_of_lt (by omega)
  have hne := readingKeys_nodup n k
  simp only [readingKeys, List.map_cons, List.map_nil, List.nodup_cons, List.mem_cons, List.not_mem_nil, or_false, not_or] at hne
  obtain ⟨⟨h01, h02, h03, h04⟩, ⟨h12, h13, h14⟩, ⟨h23, h24⟩, -⟩ := hne
  dsimp only [readingStored]
  refine ⟨?_, ?_, ?_⟩
  · rw [State.getF_setF_ne _ _ (Ne.symm h04), State.getF_setF_ne _ _ (Ne.symm h03), State.getF_setF_ne _ _ (Ne.symm h02),
      State.getF_setF_ne _ _ (Ne.symm h01), State.getF_setF_same]
    exact hlt _
  · rw [State.getF_setF_ne _ _ (Ne.symm h14), State.getF_setF_ne _ _ (Ne.symm h13), State.getF_setF_ne _ _ (Ne.symm h12), State.getF_setF_same]
    exact hlt _
  · rw [State.getF_setF_ne _ _ (Ne.symm h24), State.getF_setF_ne _ _ (Ne.symm h23), State.getF_setF_same]
    exact hlt _

/-- What CP2 does with the readings of an island. -/
def acted (s : State) (r : AgeReading) (n : Fin 4) (k : Fin 8) : State :=
  let t := readingStored s r n k
  if !clusterInService t r.cluster then t
  else
    let u := if min r.cpr0 r.cpr1 < 15 then
        (if t.getF Reg.AGE_V_SET n k < 850 then vSetWrite t (.cp 2) n k (t.getF Reg.AGE_V_SET n k + 5) else stepDown t n) else t
    if min r.cpr0 r.cpr1 < 8 then settleThrottle { u with power := { u.power with kA := u.power.kA.set n (max 2 u.power.kA[n]) } } else u

theorem actOnReading_eq (s : State) {r : AgeReading} (hc : r.cluster.val = 8 * n.val + k.val) : actOnReading s r = acted s r n k := by
  have hlt := r.cluster.isLt
  have hn : (⟨r.cluster.val / 8, by omega⟩ : Fin 4) = n := Fin.ext (by change r.cluster.val / 8 = n.val; omega)
  have hk : (⟨r.cluster.val % 8, by omega⟩ : Fin 8) = k := Fin.ext (by change r.cluster.val % 8 = k.val; omega)
  have h : actOnReading s r = acted s r ⟨r.cluster.val / 8, by omega⟩ ⟨r.cluster.val % 8, by omega⟩ := rfl
  rw [h, hn, hk]

/-! Changes of registers and of the power state. -/

/-- Registers and the power state changed, of the registers those at `ks`. -/
structure PowerOnly (s u : State) (ks : List Nat) : Prop where
  rest : u = { s with regs := u.regs, free := u.free, power := u.power }
  fields : ∀ (g : Fld) (i j : Nat), g.key i j ∉ ks → u.getF g i j = s.getF g i j

namespace PowerOnly

variable {s t u : State} {ks : List Nat}

theorem of_regs (h : ChangesAt s u ks) : PowerOnly s u ks := ⟨by rw [h.rest], h.fields⟩

theorem of_power (s : State) (p : Power) (ks : List Nat) : PowerOnly s { s with power := p } ks := ⟨rfl, fun _ _ _ _ => rfl⟩

theorem trans (hst : PowerOnly s t ks) (htu : PowerOnly t u ks) : PowerOnly s u ks := by
  refine ⟨?_, fun g i j h => (htu.fields g i j h).trans (hst.fields g i j h)⟩
  rw [htu.rest, hst.rest]

theorem mono {ks' : List Nat} (h : PowerOnly s u ks) (hks : ∀ k ∈ ks, k ∈ ks') : PowerOnly s u ks' :=
  ⟨h.rest, fun g i j hg => h.fields g i j fun hk => hg (hks _ hk)⟩

theorem refl (s : State) (ks : List Nat) : PowerOnly s s ks := of_regs (ChangesAt.refl s ks)

end PowerOnly

/-! What follows a reading. -/

/-- The keys that an action on a reading changes. -/
def actionKeys (n : Fin 4) (k : Fin 8) : List Nat := Reg.AGE_V_SET.key n k :: Reg.BRK_TARGET_N.key 0 n :: throttleKeys

theorem settleThrottle_action (s : State) (n : Fin 4) (k : Fin 8) : PowerOnly s (settleThrottle s) (actionKeys n k) :=
  (PowerOnly.of_regs (settleThrottle_only s)).mono fun _ h => List.mem_cons_of_mem _ (List.mem_cons_of_mem _ h)

theorem stepDown_action (s : State) (n : Fin 4) (k : Fin 8) : PowerOnly s (stepDown s n) (actionKeys n k) := by
  unfold stepDown
  split
  · exact PowerOnly.refl s _
  split
  · exact (PowerOnly.of_power s _ _).trans (settleThrottle_action _ n k)
  · dsimp only
    split
    · exact PowerOnly.of_power s _ _
    · exact (PowerOnly.of_power s _ _).trans (PowerOnly.of_regs (ChangesAt.setF _ _ (by simp [actionKeys])))

theorem vSetWrite_action (s : State) (n : Fin 4) (k : Fin 8) (v : Nat) : PowerOnly s (vSetWrite s (.cp 2) n k v) (actionKeys n k) := by
  unfold vSetWrite
  dsimp only
  split
  · exact PowerOnly.refl s _
  · exact PowerOnly.of_regs (ChangesAt.setF _ _ (by simp [actionKeys]))

theorem acted_action (s : State) (r : AgeReading) (n : Fin 4) (k : Fin 8) : PowerOnly (readingStored s r n k) (acted s r n k) (actionKeys n k) := by
  unfold acted
  dsimp only
  generalize readingStored s r n k = t
  split
  · exact PowerOnly.refl t _
  have hu : PowerOnly t (if min r.cpr0 r.cpr1 < 15 then
      (if t.getF Reg.AGE_V_SET n k < 850 then vSetWrite t (.cp 2) n k (t.getF Reg.AGE_V_SET n k + 5) else stepDown t n) else t) (actionKeys n k) := by
    split
    · split
      · exact vSetWrite_action t n k _
      · exact stepDown_action t n k
    · exact PowerOnly.refl t _
  split
  · exact hu.trans ((PowerOnly.of_power _ _ _).trans (settleThrottle_action _ n k))
  · exact hu

/-! Rules of an action. -/

/-- The throttle of an urgent reading. -/
def urgentAfter (u : State) (n : Fin 4) (slack : Nat) : State :=
  if slack < 8 then settleThrottle { u with power := { u.power with kA := u.power.kA.set n (max 2 u.power.kA[n]) } } else u

theorem urgentAfter_takes (u : State) (n : Fin 4) (slack : Nat) :
    let w := urgentAfter u n slack
    w.power.plan = u.power.plan ∧ w.power.stepDue = u.power.stepDue ∧ u.power.kA[n] ≤ w.power.kA[n] ∧ (slack < 8 → 2 ≤ w.power.kA[n]) ∧
      ∀ (g : Fld) (i j : Nat), g.key i j ∉ throttleKeys → w.getF g i j = u.getF g i j := by
  dsimp only [urgentAfter]
  split
  · next h =>
    have hset := settleThrottle_only { u with power := { u.power with kA := u.power.kA.set n (max 2 u.power.kA[n]) } }
    have hpow := congrArg State.power hset.rest
    have hf := hset.fields
    generalize settleThrottle { u with power := { u.power with kA := u.power.kA.set n (max 2 u.power.kA[n]) } } = w at hpow hf ⊢
    have hk : w.power.kA[n] = max 2 u.power.kA[n] := by
      rw [hpow]
      exact Vector.getElem_set_self _
    exact ⟨by rw [hpow], by rw [hpow], by omega, fun _ => by omega, hf⟩
  · next h => exact ⟨rfl, rfl, Nat.le_refl _, fun hlt => absurd hlt h, fun _ _ _ _ => rfl⟩

theorem clusterInService_readingStored (s : State) (r : AgeReading) (n : Fin 4) (k : Fin 8) (c : Fin 32) :
    clusterInService (readingStored s r n k) c = clusterInService s c := by
  have hmap : Reg.TILE_MAP_STATE.key (4 * c.val) 0 ∉ readingKeys n k := by decide +revert +kernel
  have hcur : Reg.PSEQ_CUR.key 0 c.val ∉ readingKeys n k := by decide +revert +kernel
  have hf := (readingStored_only s r n k).fields
  simp only [clusterInService, State.tileActive, domCur, hf _ _ _ hmap, hf _ _ _ hcur]

/-- The action on a short reading of a cluster in service. -/
theorem acted_short {s : State} {r : AgeReading} (hin : clusterInService s r.cluster = true) (hshort : r.cpr0 < 15 ∨ r.cpr1 < 15) :
    acted s r n k = urgentAfter (if (readingStored s r n k).getF Reg.AGE_V_SET n k < 850 then
        vSetWrite (readingStored s r n k) (.cp 2) n k ((readingStored s r n k).getF Reg.AGE_V_SET n k + 5)
      else stepDown (readingStored s r n k) n) n (min r.cpr0 r.cpr1) := by
  have hmin : min r.cpr0 r.cpr1 < 15 := by omega
  unfold acted
  dsimp only
  rw [clusterInService_readingStored, hin, if_neg (by decide), if_pos hmin]
  rfl

/-- A reading that is not short stores its values alone. -/
theorem acted_calm {s : State} {r : AgeReading} (h0 : 15 ≤ r.cpr0) (h1 : 15 ≤ r.cpr1) : acted s r n k = readingStored s r n k := by
  unfold acted
  dsimp only
  rw [if_neg (c := min r.cpr0 r.cpr1 < 15) (by omega), if_neg (c := min r.cpr0 r.cpr1 < 8) (by omega), ite_self]

theorem vSetWrite_raises {t : State} (hfloor : t.getF Reg.BRK_SAFE_FLOOR 0 0 = 0) (hceil : t.getF Reg.BRK_FUSE_V_CEIL 0 0 = 850)
    (hv : t.getF Reg.AGE_V_SET n k < 850) :
    vSetWrite t (.cp 2) n k (t.getF Reg.AGE_V_SET n k + 5) = t.setF Reg.AGE_V_SET n k (min (t.getF Reg.AGE_V_SET n k + 5) 850) := by
  have hflag : t.flag Reg.BRK_SAFE_FLOOR 0 0 = false := by
    unfold State.flag
    rw [hfloor]
    rfl
  unfold vSetWrite
  dsimp only
  rw [hceil, hflag]
  refine if_neg ?_
  rintro (h | h | h)
  · exact absurd h Bool.false_ne_true
  · exact absurd h Bool.false_ne_true
  · omega

theorem stepDown_steps {t : State} (hfloor : t.getF Reg.BRK_SAFE_FLOOR 0 0 = 0) (hdue : t.power.stepDue[n] = false) (hplan : 40 < t.power.plan[n]) :
    let u := stepDown t n
    u.power.plan[n] = t.power.plan[n] - 1 ∧ u.power.stepDue[n] = true ∧ u.getF Reg.BRK_TARGET_N 0 n = (t.power.plan[n] - 1) % 64 := by
  have hflag (p : Power) : State.flag { t with power := p } Reg.BRK_SAFE_FLOOR 0 0 = false := by
    change (t.getF Reg.BRK_SAFE_FLOOR 0 0 != 0) = false
    rw [hfloor]
    rfl
  unfold stepDown
  dsimp only
  rw [if_neg (by rw [hdue]; decide), if_neg (Nat.not_le.mpr hplan), if_neg (by rw [hflag]; decide)]
  exact ⟨Vector.getElem_set_self _, Vector.getElem_set_self _, State.getF_setF_same ..⟩

theorem stepDown_atFloor {t : State} (hdue : t.power.stepDue[n] = false) (hplan : t.power.plan[n] ≤ 40) :
    let u := stepDown t n
    u.power.plan = t.power.plan ∧ u.power.kA[n] = 2 := by
  unfold stepDown
  dsimp only
  rw [if_neg (by rw [hdue]; decide), if_pos hplan]
  have hpow := congrArg State.power (settleThrottle_only { t with power := { t.power with kA := t.power.kA.set n 2 } }).rest
  rw [hpow]
  exact ⟨rfl, Vector.getElem_set_self _⟩

/-! The daily drift records. -/

theorem writeDrift_fits {s : State} {kind : Nat} {cs : List Nat} (h : (flashPart s false).drift.length + cs.length ≤ 65536) :
    writeDrift s kind cs = setFlash s false { flashPart s false with drift := (flashPart s false).drift ++ cs.map (driftRecord s kind) } := by
  unfold writeDrift
  dsimp only
  rw [show ((flashPart s false).drift ++ cs.map (driftRecord s kind)).length - 65536 = 0 by
    rw [List.length_append, List.length_map]
    omega]
  rfl

end

/-- The fields of the rules stand apart from those that a reading stores, and its values from those that an action changes. -/
theorem islandKeys_apart (n : Fin 4) (k : Fin 8) :
    Reg.AGE_V_SET.key n k ∉ readingKeys n k ∧ Reg.BRK_SAFE_FLOOR.key 0 0 ∉ readingKeys n k ∧ Reg.BRK_FUSE_V_CEIL.key 0 0 ∉ readingKeys n k ∧
      (∀ f ∈ [Reg.AGE_CPR0_SLACK, Reg.AGE_CPR1_SLACK, Reg.AGE_TEMP], f.key n k ∉ actionKeys n k) ∧ Reg.AGE_V_SET.key n k ∉ throttleKeys ∧
      Reg.BRK_TARGET_N.key 0 n ∉ throttleKeys := by decide +revert

/-- Settles O50: a reading is stored, and an action follows it where the cluster's slack is short. -/
theorem ageingAndDrift : Obligations.AgeingAndDrift := by
  unfold Obligations.AgeingAndDrift
  intro s t
  refine ⟨fun hdown => ⟨fun rs => congrArg Host.Outcome.next (if_pos ?_), congrArg Host.Outcome.next (if_pos (Or.inl ?_))⟩,
    fun hearly => congrArg Host.Outcome.next (if_pos (Or.inr hearly)), fun hup => ⟨fun r n k hc => ?_, fun hdue hroom => ?_⟩⟩
  · change (!(s.getF Reg.CP_STATE 2 0 == 2)) = true
    simpa using hdown
  · change (!(s.getF Reg.CP_STATE 2 0 == 2)) = true
    simpa using hdown
  · have hcp : (!cpUp (s.atTime t) 2) = false := by
      change (!(s.getF Reg.CP_STATE 2 0 == 2)) = false
      rw [hup]
      rfl
    have hexec : exec (.ageingSample [r] t) s = .next (acted (s.atTime t) r n k) := by
      refine congrArg Host.Outcome.next ((if_neg (by rw [hcp]; decide)).trans ?_)
      exact actOnReading_eq (s.atTime t) hc
    obtain ⟨h0, h1, h2⟩ := readingStored_values (s.atTime t) r n k
    have hact := (acted_action (s.atTime t) r n k).fields
    have hstored := (readingStored_only (s.atTime t) r n k).fields
    have hpower : (readingStored (s.atTime t) r n k).power = s.power := (congrArg State.power (readingStored_only (s.atTime t) r n k).rest :)
    obtain ⟨kv, kfloor, kceil, hkept, kvt, ktt⟩ := islandKeys_apart n k
    have hv : (readingStored (s.atTime t) r n k).getF Reg.AGE_V_SET n k = s.getF Reg.AGE_V_SET n k := hstored _ _ _ kv
    refine ⟨_, hexec, (hact _ _ _ (hkept _ (by simp))).trans h0, (hact _ _ _ (hkept _ (by simp))).trans h1, (hact _ _ _ (hkept _ (by simp))).trans h2,
      fun h15 h15' => ?_, fun hin hfloor hceil hshort => ?_⟩
    · rw [acted_calm h15 h15']
      exact ⟨hv, hpower⟩
    · rw [acted_short (n := n) (k := k) (show clusterInService (s.atTime t) r.cluster = true from hin) hshort]
      have hfloor' : (readingStored (s.atTime t) r n k).getF Reg.BRK_SAFE_FLOOR 0 0 = 0 := (hstored _ _ _ kfloor).trans hfloor
      have hceil' : (readingStored (s.atTime t) r n k).getF Reg.BRK_FUSE_V_CEIL 0 0 = 850 := (hstored _ _ _ kceil).trans hceil
      rw [← hpower, ← hv]
      generalize readingStored (s.atTime t) r n k = w at hfloor' hceil'
      refine ⟨fun hlow => ?_, fun hhigh hdue => ⟨fun hplan => ?_, fun hplan => ?_⟩, fun hurgent => ?_⟩
      · rw [if_pos hlow, vSetWrite_raises hfloor' hceil' hlow]
        obtain ⟨hp, -, -, -, hf⟩ := urgentAfter_takes (w.setF Reg.AGE_V_SET n k (min (w.getF Reg.AGE_V_SET n k + 5) 850)) n (min r.cpr0 r.cpr1)
        refine ⟨(hf _ _ _ kvt).trans ((State.getF_setF_same ..).trans ?_), hp⟩
        rw [Nat.min_comm]
        exact Nat.mod_eq_of_lt (by change min 850 _ < 2 ^ 10; omega)
      · rw [if_neg (Nat.not_lt.mpr hhigh)]
        obtain ⟨h1, h2, h3⟩ := stepDown_steps hfloor' hdue hplan
        obtain ⟨hp, hd, -, -, hf⟩ := urgentAfter_takes (stepDown w n) n (min r.cpr0 r.cpr1)
        exact ⟨by rw [hp]; exact h1, by rw [hd]; exact h2, (hf _ _ _ ktt).trans h3⟩
      · rw [if_neg (Nat.not_lt.mpr hhigh)]
        obtain ⟨h1, h2⟩ := stepDown_atFloor hdue hplan
        obtain ⟨hp, -, hk, -, -⟩ := urgentAfter_takes (stepDown w n) n (min r.cpr0 r.cpr1)
        exact ⟨by rw [hp, h1], h2 ▸ hk⟩
      · exact (urgentAfter_takes _ n (min r.cpr0 r.cpr1)).2.2.2.1 (by omega)
  · have hcp : (!cpUp s 2) = false := by
      change (!(s.getF Reg.CP_STATE 2 0 == 2)) = false
      rw [hup]
      rfl
    have hno : ¬((!cpUp s 2) = true ∨ t < s.power.driftAt + 86400000000000) := by
      rw [hcp]
      exact fun h => h.elim (by decide) (Nat.not_lt.mpr hdue)
    have hfits := writeDrift_fits (s := { s.atTime t with power := { s.power with driftAt := t } }) (kind := 1) (cs := List.range 32)
      (by rw [List.length_range]; exact hroom)
    refine ⟨_, congrArg Host.Outcome.next ((if_neg hno).trans hfits), rfl, ?_, rfl, rfl⟩
    exact congrArg FlashPart.drift (Vector.getElem_set_self _)

end Sys2Proof.Machine
end

section
namespace Sys2Proof.Machine

set_option Elab.async false

/-! O48: limits, CP2's liveness, frequencies and voltages. -/

/-! SAFE_FLOOR. -/

/-- The request of the safe floor for a stack. -/
def floorRequest (s : State) (n : Fin 4) : Nat := 16 - 16 * 1000 / (25 * max 1 (curN s n))

/-- The requests of the safe floor, as SAFE_FLOOR and the input voltage make them. -/
def floorRequests (s : State) : Vector Nat 4 :=
  Vector.ofFn fun n => if s.flag Reg.BRK_SAFE_FLOOR 0 0 || s.power.inputLow then floorRequest s n else 0

section
variable {s : State}

theorem State.flag_eq_false {f : Fld} {inst i : Nat} (h : s.getF f inst i = 0) : s.flag f inst i = false := by
  unfold State.flag
  rw [h]
  rfl

theorem State.flag_eq_true {f : Fld} {inst i : Nat} (h : s.getF f inst i ≠ 0) : s.flag f inst i = true := bne_iff_ne.mpr h

/-- What the safe floor asks for follows SAFE_FLOOR and the input voltage; the throttle levels follow. -/
theorem settleFloor_takes (s : State) :
    let u := settleFloor s
    u.power = { s.power with kS := floorRequests s } ∧ PowerOnly s u throttleKeys ∧ ∀ n : Fin 4, u.getF Reg.BRK_THROTTLE 0 n = u.power.level n % 16 := by
  unfold settleFloor
  dsimp only
  have hp := congrArg State.power (settleThrottle_only { s with power := { s.power with kS := floorRequests s } }).rest
  refine ⟨hp, (PowerOnly.of_power s _ _).trans (PowerOnly.of_regs (settleThrottle_only _)), fun n => ?_⟩
  exact (settleThrottle_level _ n).trans (congrArg (fun p : Power => p.level n % 16) hp.symm)

/-- The keys that the breaker's error changes, with those of SAFE_FLOOR. -/
def breakerKeys : List Nat :=
  [Reg.BRK_SAFE_FLOOR, Hdr.INT_STATUS 6 0, Hdr.ERR_CODE 6 0, Hdr.ERR_INFO0 6 0, Hdr.ERR_INFO1 6 0].map (fun f => f.key 0 0) ++ throttleKeys

theorem recordErr_breaker (s : State) (code i0 i1 : Nat) : ChangesAt s (s.recordErr 6 0 0 code i0 i1) breakerKeys := by
  unfold State.recordErr
  split
  · exact ChangesAt.refl s _
  · exact (((ChangesAt.setF s _ (by decide)).trans (ChangesAt.setF _ _ (by decide))).trans (ChangesAt.setF _ _ (by decide))).trans
      (ChangesAt.setF _ _ (by decide))

/-- The event that the breaker's interrupt reports, raised before an error is recorded. -/
theorem bit_recordErr (s : State) (ty pg inst code i0 i1 : Nat) {b : Nat} (hb : b < 32) (h : bit (s.getF (Hdr.INT_STATUS ty pg) inst 0) b = true) :
    bit ((s.recordErr ty pg inst code i0 i1).getF (Hdr.INT_STATUS ty pg) inst 0) b = true := by
  unfold State.recordErr
  split
  · exact h
  · refine bit_raise_of_bit hb ?_ 0
    rw [State.getF_setF_ne, State.getF_setF_ne, State.getF_setF_ne]
    · exact h
    all_goals exact Fld.key_ne_of_bitOnPage (by simp) _ _

/-- The breaker enters SAFE_FLOOR. -/
theorem enterSafeFloor_enters (h : s.getF Reg.BRK_SAFE_FLOOR 0 0 = 0) (cause : Nat) :
    let u := enterSafeFloor s cause
    PowerOnly s u breakerKeys ∧ u.getF Reg.BRK_SAFE_FLOOR 0 0 = 1 ∧ bit (u.getF (Hdr.INT_STATUS 6 0) 0 0) 1 = true ∧
      (∃ k, u.power = { s.power with kS := k }) ∧ (∀ n : Fin 4, u.power.kS[n] = floorRequest s n) ∧
      (bit (s.getF (Hdr.INT_STATUS 6 0) 0 0) 0 = false → u.getF (Hdr.ERR_CODE 6 0) 0 0 = 0x0709 ∧ u.getF (Hdr.ERR_INFO0 6 0) 0 0 = cause % 2 ^ 32) := by
  have hent : enterSafeFloor s cause = settleFloor (((s.setF Reg.BRK_SAFE_FLOOR 0 0 1).raise 6 0 0 1).recordErr 6 0 0 0x0709 cause 0) :=
    if_neg (by rw [State.flag_eq_false h]; decide)
  rw [hent]
  have hset : PowerOnly s ((s.setF Reg.BRK_SAFE_FLOOR 0 0 1).raise 6 0 0 1) breakerKeys :=
    PowerOnly.of_regs ((ChangesAt.setF s _ (by decide)).trans (ChangesAt.setF _ _ (by decide)))
  have hon : ((s.setF Reg.BRK_SAFE_FLOOR 0 0 1).raise 6 0 0 1).getF Reg.BRK_SAFE_FLOOR 0 0 = 1 :=
    (getF_raise_ne _ (by decide)).trans (State.getF_setF_same ..)
  have hbit1 := bit_raise (s.setF Reg.BRK_SAFE_FLOOR 0 0 1) 6 0 0 (b := 1) (by decide)
  have hbit0 : bit (((s.setF Reg.BRK_SAFE_FLOOR 0 0 1).raise 6 0 0 1).getF (Hdr.INT_STATUS 6 0) 0 0) 0 = bit (s.getF (Hdr.INT_STATUS 6 0) 0 0) 0 :=
    (bit_raise_ne _ 6 0 0 (by decide) (by decide)).trans (congrArg (fun x => bit x 0) (State.getF_setF_ne s _ (by decide)))
  have hpower : ((s.setF Reg.BRK_SAFE_FLOOR 0 0 1).raise 6 0 0 1).power = s.power := rfl
  generalize (s.setF Reg.BRK_SAFE_FLOOR 0 0 1).raise 6 0 0 1 = a at hset hon hbit1 hbit0 hpower ⊢
  have herr := recordErr_breaker a 0x0709 cause 0
  have hcode := fun hb => recordErr_fields (s := a) (ty := 6) (pg := 0) (inst := 0) hb 0x0709 cause 0
  have hbit2 := bit_recordErr a 6 0 0 0x0709 cause 0 (by decide) hbit1
  have hon' := (getF_recordErr_ne a 6 0 0 0x0709 cause 0 (f := Reg.BRK_SAFE_FLOOR) (i := 0) (by decide) 0).trans hon
  have hpower' : (a.recordErr 6 0 0 0x0709 cause 0).power = s.power := (congrArg State.power (recordErr_same a 6 0 0 0x0709 cause 0) :).trans hpower
  generalize a.recordErr 6 0 0 0x0709 cause 0 = b at herr hcode hbit2 hon' hpower' ⊢
  obtain ⟨hp, hrest, -⟩ := settleFloor_takes b
  have hsb : PowerOnly s b breakerKeys := hset.trans (PowerOnly.of_regs herr)
  have hcur (n : Fin 4) : floorRequest b n = floorRequest s n := by
    have hk : Reg.BRK_CUR_N.key 0 n ∉ breakerKeys := by
      revert n
      decide
    simp only [floorRequest, curN, hsb.fields _ _ _ hk]
  generalize settleFloor b = u at hp hrest ⊢
  refine ⟨hsb.trans (hrest.mono (fun _ hk => List.mem_append_right _ hk)), (hrest.fields _ _ _ (by decide)).trans hon', ?_, ⟨_, hpower' ▸ hp⟩,
    fun n => ?_, fun hb => ?_⟩
  · rw [hrest.fields _ _ _ (by decide)]
    exact hbit2
  · rw [hp]
    refine (Vector.getElem_ofFn _).trans ?_
    rw [State.flag_eq_true (by rw [hon']; decide)]
    exact hcur n
  · obtain ⟨h1, h2⟩ := hcode (hbit0.trans hb)
    exact ⟨(hrest.fields _ _ _ (by decide)).trans h1, (hrest.fields _ _ _ (by decide)).trans h2⟩

/-! CP2_LIVE. -/

theorem replan_eq (s : State) :
    replan s = (List.finRange 4).foldl (fun (t : State) (n : Fin 4) => t.setF Reg.BRK_TARGET_N 0 n s.power.plan[n]) s :=
  foldl_setF_power (List.finRange 4) Reg.BRK_TARGET_N (fun _ => 0) (fun n => n) (fun p n => p.plan[n]) s

/-- The keys of the target frequencies. -/
def targetKeys : List Nat := (List.finRange 4).map (fun (n : Fin 4) => Reg.BRK_TARGET_N.key 0 n)

theorem replan_takes (s : State) :
    ChangesAt s (replan s) targetKeys ∧ ∀ n : Fin 4, (replan s).getF Reg.BRK_TARGET_N 0 n = s.power.plan[n] % 64 := by
  rw [replan_eq]
  exact ⟨foldl_setF_only _ _ (fun _ => 0) (fun n : Fin 4 => n) _ s fun n hn => List.mem_map_of_mem hn,
    fun n => getF_foldl_setF _ Reg.BRK_TARGET_N (fun _ => 0) (fun n : Fin 4 => n) _ s (by decide) (List.mem_finRange n)⟩

/-- SAFE_FLOOR ends: CP2 plans again. -/
theorem leaveSafeFloor_takes (s : State) :
    let u := replan (settleFloor ((s.setF Reg.BRK_SAFE_FLOOR 0 0 0).raise 6 0 0 1))
    u.getF Reg.BRK_SAFE_FLOOR 0 0 = 0 ∧ u.power.liveAt = s.power.liveAt ∧ bit (u.getF (Hdr.INT_STATUS 6 0) 0 0) 1 = true ∧
      (∀ n : Fin 4, u.getF Reg.BRK_TARGET_N 0 n = s.power.plan[n] % 64) ∧ (s.power.inputLow = false → ∀ n : Fin 4, u.power.kS[n] = 0) := by
  dsimp only
  have hoff : ((s.setF Reg.BRK_SAFE_FLOOR 0 0 0).raise 6 0 0 1).getF Reg.BRK_SAFE_FLOOR 0 0 = 0 :=
    (getF_raise_ne _ (by decide)).trans (State.getF_setF_same ..)
  have hbit := bit_raise (s.setF Reg.BRK_SAFE_FLOOR 0 0 0) 6 0 0 (b := 1) (by decide)
  have hpower : ((s.setF Reg.BRK_SAFE_FLOOR 0 0 0).raise 6 0 0 1).power = s.power := rfl
  generalize (s.setF Reg.BRK_SAFE_FLOOR 0 0 0).raise 6 0 0 1 = a at hoff hbit hpower ⊢
  obtain ⟨hp, hrest, -⟩ := settleFloor_takes a
  have hk (hlow : s.power.inputLow = false) (n : Fin 4) : (floorRequests a)[n] = 0 := by
    refine (Vector.getElem_ofFn _).trans ?_
    rw [State.flag_eq_false hoff, hpower, hlow]
    rfl
  generalize floorRequests a = k at hp hk
  generalize settleFloor a = b at hp hrest ⊢
  obtain ⟨hplan, htarget⟩ := replan_takes b
  have hpw : (replan b).power = b.power := (congrArg State.power hplan.rest :)
  refine ⟨?_, ?_, ?_, fun n => ?_, fun hlow n => ?_⟩
  · exact (hplan.fields _ _ _ (by decide)).trans ((hrest.fields _ _ _ (by decide)).trans hoff)
  · rw [hpw, hp, hpower]
  · rw [hplan.fields _ _ _ (by decide), hrest.fields _ _ _ (by decide)]
    exact hbit
  · rw [htarget, hp, hpower]
  · rw [hpw, hp]
    exact hk hlow n

variable {t : Nat}

theorem cp2LiveExpiry_expired (hv : s.power.vaux = true) (ht : s.power.tripped = false) (hp : s.power.perstLow = false)
    (hdue : s.power.liveAt + 50000000 ≤ t) : cp2LiveExpiry s t = enterSafeFloor (s.atTime t) 1 := by
  refine if_neg ?_
  rw [hv, ht, hp]
  rintro (h | h | h | h)
  · exact absurd h (by decide)
  · exact absurd h (by decide)
  · exact absurd h (by decide)
  · omega

/-- CP2_LIVE once the expiry has been taken up. -/
theorem cp2Live_eq (hv : s.power.vaux = true) :
    cp2Live s (.cp 2) t =
      let w : State := (cp2LiveExpiry s (t - 1)).atTime t
      let w : State := { w with power := { w.power with liveAt := t } }
      if !w.flag Reg.BRK_SAFE_FLOOR 0 0 ∨ !cpUp w 2 then w
      else replan (settleFloor ((w.setF Reg.BRK_SAFE_FLOOR 0 0 0).raise 6 0 0 1)) :=
  if_neg (by rw [hv]; decide)

theorem cp2Live_inFloor {w : State} (hv : s.power.vaux = true) (hw : w = (cp2LiveExpiry s (t - 1)).atTime t) (hon : w.getF Reg.BRK_SAFE_FLOOR 0 0 ≠ 0)
    (hcp : w.getF Reg.CP_STATE 2 0 = 2) :
    cp2Live s (.cp 2) t =
      replan (settleFloor ((({ w with power := { w.power with liveAt := t } } : State).setF Reg.BRK_SAFE_FLOOR 0 0 0).raise 6 0 0 1)) := by
  rw [cp2Live_eq hv, ← hw]
  refine if_neg ?_
  rintro (h | h)
  · change (!w.flag Reg.BRK_SAFE_FLOOR 0 0) = true at h
    rw [State.flag_eq_true hon] at h
    exact absurd h (by decide)
  · change (!(w.getF Reg.CP_STATE 2 0 == 2)) = true at h
    rw [hcp] at h
    exact absurd h (by decide)

end

/-! A frequency change. -/

section

/-- Of stack `n`'s tiles, the cycle from which they count changed. -/
structure Anchored (n : Fin 4) (s u : State) : Prop where
  same : u = { s with tiles := u.tiles }
  other : ∀ i : TileId, i.val / 32 ≠ n.val → u.tile i = s.tile i
  tile : ∀ i : TileId, ∃ at_ cyc, u.tile i = { s.tile i with anchorAt := at_, anchorCycle := cyc }

theorem Anchored.refl (n : Fin 4) (s : State) : Anchored n s s := ⟨rfl, fun _ _ => rfl, fun _ => ⟨_, _, rfl⟩⟩

theorem Anchored.trans {n : Fin 4} {s t u : State} (hst : Anchored n s t) (htu : Anchored n t u) : Anchored n s u := by
  refine ⟨by rw [htu.same, hst.same], fun i hi => (htu.other i hi).trans (hst.other i hi), fun i => ?_⟩
  obtain ⟨a, c, h1⟩ := hst.tile i
  obtain ⟨a', c', h2⟩ := htu.tile i
  exact ⟨a', c', by rw [h2, h1]⟩

theorem Anchored.modTile {n : Fin 4} (s : State) {i : TileId} (hi : i.val / 32 = n.val) (at_ cyc : Nat) :
    Anchored n s (s.modTile i (fun t => { t with anchorAt := at_, anchorCycle := cyc })) := by
  refine ⟨rfl, fun j hj => State.tile_modTile_ne _ _ fun h => hj (h ▸ hi), fun j => ?_⟩
  by_cases h : j = i
  · subst h
    exact ⟨at_, cyc, State.tile_modTile ..⟩
  · exact ⟨_, _, State.tile_modTile_ne _ _ h⟩

theorem anchorStack_takes (s : State) (n : Fin 4) : Anchored n s (anchorStack s n) := by
  unfold anchorStack
  generalize List.finRange 128 = l
  induction l generalizing s with
  | nil => exact Anchored.refl n s
  | cons i l ih =>
    rw [List.foldl_cons]
    refine Anchored.trans ?_ (ih _)
    split
    · next h => exact Anchored.modTile s h.1 _ _
    · exact Anchored.refl n s

/-- A frequency change completes. -/
theorem freqChangeDone_takes {s : State} {n : Fin 4} {v : Nat} (h : s.power.change[n] = some v) (hv : v < 64) (hdue : s.power.stepDue[n] = false) (t : Nat) :
    let u := freqChangeDone s n t
    curN u n = v ∧ u.power.change[n] = none ∧ (∀ m, m ≠ n → curN u m = curN s m) ∧
      (∀ i : TileId, (i.val / 32 ≠ n.val → u.tile i = s.tile i) ∧ ∃ at_ cyc, u.tile i = { s.tile i with anchorAt := at_, anchorCycle := cyc }) ∧
      u.dram = s.dram := by
  have hcur {i j : Fin 4} (hij : i ≠ j) : Reg.BRK_CUR_N.key 0 i ≠ Reg.BRK_CUR_N.key 0 j := by
    revert i j
    decide
  have hlevel (i : Fin 4) : Reg.BRK_CUR_N.key 0 i ∉ throttleKeys := by
    revert i
    decide
  have hanchor := anchorStack_takes (s.atTime t) n
  have hdone : freqChangeDone s n t = settleFloor { (anchorStack (s.atTime t) n).setF Reg.BRK_CUR_N 0 n v with
      power := { (anchorStack (s.atTime t) n).power with change := (anchorStack (s.atTime t) n).power.change.set n none } } := by
    have hstep := fun w : State => settleFloor_takes w
    unfold freqChangeDone
    rw [h]
    dsimp only
    refine if_neg ?_
    rw [(hstep _).1]
    change ¬((anchorStack (s.atTime t) n).power.stepDue[n] && _) = true
    rw [hanchor.same]
    change ¬(s.power.stepDue[n] && _) = true
    rw [hdue, Bool.false_and]
    decide
  dsimp only
  rw [hdone]
  have hregs : (anchorStack (s.atTime t) n).regs = s.regs := (congrArg State.regs hanchor.same :)
  have hpower : (anchorStack (s.atTime t) n).power = s.power := (congrArg State.power hanchor.same :)
  have hdram : (anchorStack (s.atTime t) n).dram = s.dram := (congrArg State.dram hanchor.same :)
  have htiles := fun i => hanchor.tile i
  have hother := hanchor.other
  generalize anchorStack (s.atTime t) n = a at hregs hpower hdram htiles hother ⊢
  obtain ⟨hp, hrest, -⟩ := settleFloor_takes { a.setF Reg.BRK_CUR_N 0 n v with power := { a.power with change := a.power.change.set n none } }
  have htile (i : TileId) : (settleFloor { a.setF Reg.BRK_CUR_N 0 n v with power := { a.power with change := a.power.change.set n none } }).tile i = a.tile i := by
    unfold State.tile
    rw [(congrArg State.tiles hrest.rest :)]
    rfl
  refine ⟨?_, ?_, fun m hm => ?_, fun i => ⟨fun hi => (htile i).trans (hother i hi), ?_⟩, (congrArg State.dram hrest.rest :).trans hdram⟩
  · refine (hrest.fields _ _ _ (hlevel n)).trans ((getF_of_regs (s := a.setF Reg.BRK_CUR_N 0 n v) rfl ..).trans ((State.getF_setF_same ..).trans ?_))
    exact Nat.mod_eq_of_lt hv
  · rw [hp]
    exact Vector.getElem_set_self _
  · exact (hrest.fields _ _ _ (hlevel m)).trans ((getF_of_regs (s := a.setF Reg.BRK_CUR_N 0 n v) rfl ..).trans
      ((State.getF_setF_ne _ _ (hcur (Ne.symm hm))).trans (getF_of_regs hregs ..)))
  · obtain ⟨x, c, hx⟩ := htiles i
    exact ⟨x, c, (htile i).trans hx⟩

end

/-- Who writes the pages of spec 12. -/
theorem powerWriter_iff (s : State) (a : Actor) :
    powerWriter s a = true ↔ a = .cp 2 ∨ (a = .cp 0 ∧ (s.power.startDue.isSome = true ∨ fwState s ≤ 1)) := by
  cases a with
  | host => simp [powerWriter]
  | cp n =>
    have h2 : (Actor.cp n = .cp 2) ↔ n.val = 2 := by
      rw [Actor.cp.injEq]
      exact Fin.ext_iff
    have h0 : (Actor.cp n = .cp 0) ↔ n.val = 0 := by
      rw [Actor.cp.injEq]
      exact Fin.ext_iff
    simp [powerWriter, h2, h0, fwState]

/-- Settles O48: each write is the breaker's clamp or nothing; SAFE_FLOOR comes with CP2_LIVE's expiry and goes with the next CP2_LIVE. -/
theorem limitsClocksAndVoltages : Obligations.LimitsClocksAndVoltages := by
  unfold Obligations.LimitsClocksAndVoltages
  intro s a t get writer
  have hwriter : powerWriter s a = true ↔ writer := powerWriter_iff s a
  have hno (h : ¬ writer) : (!powerWriter s a) = true := by
    rw [Bool.not_eq_true']
    exact Bool.eq_false_iff.mpr fun hw => h (hwriter.mp hw)
  have hyes (h : writer) : ¬(!powerWriter s a) = true := by
    rw [hwriter.mpr h]
    decide
  refine ⟨fun h l v => congrArg Host.Outcome.next (if_pos (hno h)), fun h v => ⟨fun hlock => ⟨?_, ?_⟩, fun hopen => ⟨?_, ?_⟩, fun n => ?_⟩,
    fun h => ?_, fun ha hv => ⟨fun hoff ht => ?_, fun hoff ht htrip hperst hcp => ?_, fun hon hcp => ?_⟩, fun ht => ?_, fun ht hv htrip hperst hoff => ?_,
    fun n => ?_⟩
  · exact congrArg Host.Outcome.next ((if_neg (hyes h)).trans (if_pos (State.flag_eq_true hlock)))
  · exact congrArg Host.Outcome.next ((if_neg (hyes h)).trans (if_pos (State.flag_eq_true hlock)))
  · exact congrArg Host.Outcome.next ((if_neg (hyes h)).trans (if_neg (by rw [State.flag_eq_false hopen]; decide)))
  · exact congrArg Host.Outcome.next ((if_neg (hyes h)).trans (if_neg (by rw [State.flag_eq_false hopen]; decide)))
  · exact congrArg Host.Outcome.next (if_neg (hyes h))
  · refine congrArg Host.Outcome.next (if_pos (h.imp_right fun hv => ?_))
    rw [hv]
    rfl
  · subst ha
    have hexp : cp2LiveExpiry s (t - 1) = s := if_pos (Or.inr (Or.inr (Or.inr (by omega))))
    refine congrArg Host.Outcome.next ((cp2Live_eq hv).trans ?_)
    rw [hexp]
    refine if_pos (Or.inl ?_)
    change (!s.flag Reg.BRK_SAFE_FLOOR 0 0) = true
    rw [State.flag_eq_false hoff]
    rfl
  · subst ha
    have hexp := cp2LiveExpiry_expired hv htrip hperst (t := t - 1) (by omega)
    obtain ⟨hrest, hone, -⟩ := enterSafeFloor_enters (s := s.atTime (t - 1)) hoff 1
    have hon : ((cp2LiveExpiry s (t - 1)).atTime t).getF Reg.BRK_SAFE_FLOOR 0 0 ≠ 0 := by
      rw [hexp]
      change (enterSafeFloor (s.atTime (t - 1)) 1).getF Reg.BRK_SAFE_FLOOR 0 0 ≠ 0
      rw [hone]
      decide
    have hup : ((cp2LiveExpiry s (t - 1)).atTime t).getF Reg.CP_STATE 2 0 = 2 := by
      rw [hexp]
      exact (hrest.fields _ _ _ (by decide)).trans hcp
    obtain ⟨h1, h2, h3, -, -⟩ := leaveSafeFloor_takes ({ (cp2LiveExpiry s (t - 1)).atTime t with
      power := { ((cp2LiveExpiry s (t - 1)).atTime t).power with liveAt := t } } : State)
    exact ⟨_, congrArg Host.Outcome.next (cp2Live_inFloor hv rfl hon hup), h1, h2, h3⟩
  · subst ha
    have hsame : ∃ w : State, w = (cp2LiveExpiry s (t - 1)).atTime t ∧ w.regs = s.regs ∧ w.power = s.power := by
      refine ⟨_, rfl, ?_⟩
      unfold cp2LiveExpiry
      split
      · exact ⟨rfl, rfl⟩
      · have hstay : enterSafeFloor (s.atTime (t - 1)) 1 = s.atTime (t - 1) := if_pos (State.flag_eq_true (s := s.atTime (t - 1)) hon)
        rw [hstay]
        exact ⟨rfl, rfl⟩
    obtain ⟨w, hw, hregs, hpower⟩ := hsame
    have hfloor : w.getF Reg.BRK_SAFE_FLOOR 0 0 ≠ 0 := by
      rw [getF_of_regs (s := s) hregs]
      exact hon
    obtain ⟨h1, h2, -, h4, h5⟩ := leaveSafeFloor_takes ({ w with power := { w.power with liveAt := t } } : State)
    refine ⟨_, congrArg Host.Outcome.next (cp2Live_inFloor hv hw hfloor ((getF_of_regs (s := s) hregs ..).trans hcp)), h1, h2, fun n => ?_, fun hlow => ?_⟩
    · rw [h4, hpower]
    · exact h5 (by rw [hpower]; exact hlow)
  · exact congrArg Host.Outcome.next (if_pos (Or.inr (Or.inr (Or.inr ht))))
  · obtain ⟨-, h1, h2, -, h3, h4⟩ := enterSafeFloor_enters (s := s.atTime t) hoff 1
    exact ⟨_, congrArg Host.Outcome.next (cp2LiveExpiry_expired hv htrip hperst ht), h1, h2, h3, h4⟩
  · intro want
    have hwant : wantedN s n = want := by
      unfold wantedN
      dsimp only
      by_cases hoff : get Reg.BRK_SAFE_FLOOR 0 = 0
      · rw [if_neg (by rw [State.flag_eq_false hoff]; decide)]
        exact (if_pos hoff).symm
      · rw [if_pos (State.flag_eq_true hoff)]
        exact (if_neg hoff).symm
    have hwant' : wantedN (s.atTime t) n = want := hwant
    refine ⟨fun h => congrArg Host.Outcome.next (if_pos h), fun h => ⟨fun ⟨hcp, hbusy, hstep, hnone, hne⟩ => ?_, fun hor => ?_⟩, fun hnone => ?_,
      fun v hv hlt hdue => ?_, fun k v => ?_⟩
    · refine congrArg Host.Outcome.next ((if_neg (not_not_intro h)).trans ((if_neg ?_).trans ?_))
      · rintro (h1 | h1 | h1 | h1 | h1)
        · change (!(s.getF Reg.CP_STATE 1 0 == 2)) = true at h1
          rw [hcp] at h1
          exact absurd h1 (by decide)
        · exact Bool.false_ne_true (hbusy.symm.trans h1)
        · exact Bool.false_ne_true (hstep.symm.trans h1)
        · change (s.power.change[n]).isSome = true at h1
          rw [hnone] at h1
          exact absurd h1 (by decide)
        · exact hne (hwant'.symm.trans h1)
      · exact congrArg (fun w => ({ s.atTime t with power := { s.power with change := s.power.change.set n (some w) } } : State)) hwant'
    · refine congrArg Host.Outcome.next ((if_neg (not_not_intro h)).trans (if_pos (Or.inr ?_)))
      rcases hor with h1 | h1 | h1
      · exact Or.inl h1
      · exact Or.inr (Or.inl h1)
      · exact Or.inr (Or.inr (Or.inr (hwant'.trans h1)))
    · refine congrArg Host.Outcome.next ?_
      unfold freqChangeDone
      rw [hnone]
    · exact ⟨_, rfl, freqChangeDone_takes hv hlt hdue t⟩
    · intro x
      refine ⟨fun hor => congrArg Host.Outcome.next (if_pos ?_), fun hw hoff hle => congrArg Host.Outcome.next (if_neg ?_)⟩
      · exact hor.imp hno (Or.imp_left State.flag_eq_true)
      · rintro (h1 | h1 | h1)
        · exact hyes hw h1
        · rw [State.flag_eq_false hoff] at h1
          exact absurd h1 (by decide)
        · exact Nat.not_lt.mpr hle h1

end Sys2Proof.Machine
end

section
namespace Sys2Proof.Machine

set_option Elab.async false

/-! O47: the breaker. -/

/-! What a loss of the domains leaves. -/

theorem ChangesAt.foldl {α : Type} {g : State → α → State} {ks : List Nat} (l : List α) (h : ∀ a ∈ l, ∀ s, ChangesAt s (g s a) ks) (s : State) :
    ChangesAt s (l.foldl g s) ks := by
  induction l generalizing s with
  | nil => exact ChangesAt.refl s ks
  | cons a l ih => exact (h a List.mem_cons_self s).trans (ih (fun b hb => h b (List.mem_cons_of_mem _ hb)) _)

theorem regFind_filter_keep (m : List (Nat × Nat)) (p : Nat → Bool) {k : Nat} (h : p k = true) : regFind (m.filter (fun r => p r.1)) k = regFind m k := by
  induction m with
  | nil => rfl
  | cons r m ih =>
    rw [List.filter_cons]
    split
    · simp only [regFind, ih]
    · next hr =>
      have hne : r.1 ≠ k := fun e => hr (e ▸ h)
      simp only [regFind, if_neg hne, ih]

/-- Does H_AON hold the register at a key? -/
def aonKey (k : Nat) : Bool := match regPlace (k / 8) with
  | some p => isAonBlock p.ty || (p.ty == 1 && (k == Reg.TILE_LOGICAL_X.key p.inst 0 || k == Reg.TILE_MAP_STATE.key p.inst 0))
  | none => false

theorem aonRegs_eq (s : State) : aonRegs s = s.regs.filter (fun r => aonKey r.1) := rfl

/-- The device without its domains, before POWER_SEQ shows it. -/
def loseBase (s : State) : State :=
  { State.reset with
    pending := s.pending, now := s.now, free := s.free, regs := aonRegs s, dram := s.dram, dramCe := s.dramCe
    dramUe := s.dramUe
    digests := if s.domains.isEmpty then s.digests else s.domains.map (fun d => (d.id, d.leaves0, d.leaves1)), flash := s.flash, fuses := s.fuses, sent := s.sent, reply := s.reply, timeSt := s.timeSt
    dimms := Vector.ofFn (fun c : Fin 24 => s.dimms[c].keep (s.getF Reg.DDR_STATE c 0 == 3)), power := s.power.down }

/-- The keys of POWER_SEQ that show the domains. -/
def domainKeys : List Nat :=
  (Hdr.INT_STATUS 19 0).key 0 0 :: (List.range domCount).flatMap (fun d => [Reg.PSEQ_REQ.key 0 d, Reg.PSEQ_CUR.key 0 d])

theorem setDomCur_only (s : State) {d : Nat} (hd : d < domCount) (v : Nat) : ChangesAt s (setDomCur s d v) domainKeys := by
  unfold setDomCur
  split
  · exact ChangesAt.refl s _
  · refine (ChangesAt.setF s _ ?_).trans (ChangesAt.setF _ _ List.mem_cons_self)
    exact List.mem_cons_of_mem _ (List.mem_flatMap.mpr ⟨d, List.mem_range.mpr hd, by simp⟩)

theorem loseDomains_eq (s : State) : loseDomains s =
    (List.range domCount).foldl (fun s d => if d = domAon then s else setDomCur (s.setF Reg.PSEQ_REQ 0 d 0) d 0) (loseBase s) := rfl

theorem loseDomains_only (s : State) : ChangesAt (loseBase s) (loseDomains s) domainKeys := by
  rw [loseDomains_eq]
  refine ChangesAt.foldl _ (fun d hd v => ?_) _
  split
  · exact ChangesAt.refl v _
  · refine (ChangesAt.setF v _ ?_).trans (setDomCur_only _ (List.mem_range.mp hd) 0)
    exact List.mem_cons_of_mem _ (List.mem_flatMap.mpr ⟨d, hd, by simp⟩)

/-- A register of H_AON keeps its value while the domains go off, those of POWER_SEQ apart. -/
theorem getF_loseDomains (s : State) {f : Fld} {inst i : Nat} (haon : aonKey (f.key inst i) = true) (hk : f.key inst i ∉ domainKeys) :
    (loseDomains s).getF f inst i = s.getF f inst i := by
  refine ((loseDomains_only s).fields f inst i hk).trans ?_
  unfold State.getF
  exact congrArg (fun r => Option.getD r _) (regFind_filter_keep s.regs aonKey haon)

theorem loseDomains_rest (s : State) :
    (loseDomains s).power = s.power.down ∧ (loseDomains s).flash = s.flash ∧ (loseDomains s).fuses = s.fuses ∧ (loseDomains s).dram = s.dram ∧
      (loseDomains s).tiles = State.reset.tiles ∧ (loseDomains s).queues = [] ∧ (loseDomains s).domains = [] := by
  have h := (loseDomains_only s).rest
  exact ⟨(congrArg State.power h :), (congrArg State.flash h :), (congrArg State.fuses h :), (congrArg State.dram h :), (congrArg State.tiles h :),
    (congrArg State.queues h :), (congrArg State.domains h :)⟩

/-! Trips. -/

/-- What a trip leaves. -/
structure Tripped (s : State) (cause info : Nat) (u : State) : Prop where
  tripped : u.power.tripped = true
  vbus : u.power.vbus = false
  startDue : u.power.startDue = none
  dram : u.dram = []
  cause : u.getF Reg.BRK_TRIP_CAUSE 0 0 = cause
  info : u.getF Reg.BRK_TRIP_INFO 0 0 = info
  alert : u.getF Reg.SEC_BREAKER 0 0 = 1
  flash : u.flash = s.flash
  fuses : u.fuses = s.fuses

theorem trip_trips {s : State} (h : s.power.tripped = false) {cause info : Nat} (hc : cause < 8) (hi : info < 65536) (code i0 : Nat) :
    Tripped s cause info (trip s cause info code i0) := by
  have hnot : ¬ s.power.tripped = true := by rw [h]; decide
  rw [trip, if_neg hnot]
  dsimp only
  have hflash : (s.recordErr 6 0 0 code i0 0).flash = s.flash := (congrArg State.flash (recordErr_same s 6 0 0 code i0 0) :)
  have hfuses : (s.recordErr 6 0 0 code i0 0).fuses = s.fuses := (congrArg State.fuses (recordErr_same s 6 0 0 code i0 0) :)
  generalize s.recordErr 6 0 0 code i0 0 = a at hflash hfuses ⊢
  have h1 : (alert ((a.setF Reg.BRK_TRIP_CAUSE 0 0 cause).setF Reg.BRK_TRIP_INFO 0 0 info) Reg.SEC_BREAKER).getF Reg.BRK_TRIP_CAUSE 0 0 = cause :=
    (State.getF_setF_ne _ _ (by decide)).trans ((State.getF_setF_ne _ _ (by decide)).trans ((State.getF_setF_same ..).trans (Nat.mod_eq_of_lt hc)))
  have h2 : (alert ((a.setF Reg.BRK_TRIP_CAUSE 0 0 cause).setF Reg.BRK_TRIP_INFO 0 0 info) Reg.SEC_BREAKER).getF Reg.BRK_TRIP_INFO 0 0 = info :=
    (State.getF_setF_ne _ _ (by decide)).trans ((State.getF_setF_same ..).trans (Nat.mod_eq_of_lt hi))
  have h3 : (alert ((a.setF Reg.BRK_TRIP_CAUSE 0 0 cause).setF Reg.BRK_TRIP_INFO 0 0 info) Reg.SEC_BREAKER).getF Reg.SEC_BREAKER 0 0 = 1 :=
    State.getF_setF_same ..
  have h4 : (alert ((a.setF Reg.BRK_TRIP_CAUSE 0 0 cause).setF Reg.BRK_TRIP_INFO 0 0 info) Reg.SEC_BREAKER).flash = s.flash := hflash
  have h5 : (alert ((a.setF Reg.BRK_TRIP_CAUSE 0 0 cause).setF Reg.BRK_TRIP_INFO 0 0 info) Reg.SEC_BREAKER).fuses = s.fuses := hfuses
  generalize alert ((a.setF Reg.BRK_TRIP_CAUSE 0 0 cause).setF Reg.BRK_TRIP_INFO 0 0 info) Reg.SEC_BREAKER = b at h1 h2 h3 h4 h5 ⊢
  obtain ⟨-, hf, hu, -⟩ := loseDomains_rest b
  have hget {f : Fld} (haon : aonKey (f.key 0 0) = true) (hk : f.key 0 0 ∉ domainKeys) : (loseDomains b).getF f 0 0 = b.getF f 0 0 := getF_loseDomains b haon hk
  have g1 := hget (f := Reg.BRK_TRIP_CAUSE) (by decide) (by decide)
  have g2 := hget (f := Reg.BRK_TRIP_INFO) (by decide) (by decide)
  have g3 := hget (f := Reg.SEC_BREAKER) (by decide) (by decide)
  generalize loseDomains b = c at hf hu g1 g2 g3 ⊢
  exact ⟨rfl, rfl, rfl, rfl, g1.trans h1, g2.trans h2, g3.trans h3, hf.trans h4, hu.trans h5⟩

theorem powerLoss_takes (s : State) :
    let u := powerLoss s
    u.power.vaux = false ∧ u.power.vbus = false ∧ u.power.switchClosed = false ∧ u.power.startDue = none ∧ u.dram = [] ∧ u.regs = [] ∧
      u.flash = s.flash ∧ u.fuses = s.fuses ∧ u.power.senseLow = s.power.senseLow := by
  unfold powerLoss
  dsimp only
  obtain ⟨hp, hf, hu, -⟩ := loseDomains_rest s
  generalize loseDomains s = c at hp hf hu ⊢
  exact ⟨rfl, rfl, rfl, rfl, rfl, rfl, hf, hu, (congrArg Power.senseLow hp :)⟩

/-! Samples of the input voltage. -/

section
variable {s : State} {t : Nat}

/-- The state in which a sample of the input voltage is noted. -/
def sampled (s : State) (mv t : Nat) : State :=
  { s.atTime t with power := { s.power with
    vinMv := mv, vinOkAt := held s.power.vinOkAt (decide (mv ≥ 40000)) t, lowAt := held s.power.lowAt (decide (mv < 40000)) t
    uvAt := held s.power.uvAt (decide (mv < 38000)) t, ovAt := held s.power.ovAt (decide (mv > 52000)) t
    okAt := held s.power.okAt (decide (mv ≥ 40500)) t } }

/-- The device at a sample of an input voltage that is low for too long. -/
def inputFellLow (s : State) (mv t : Nat) : State :=
  let s := ((sampled s mv t).recordErr 6 0 0 0x0701 mv 0).recordErr 6 0 0 0x0709 2 0
  settleFloor { s with power := { s.power with inputLow := true } }

theorem vinSample_eq {mv : Nat} (hmv : mv ≠ 0) (hv : s.power.vaux = true) (ht : s.power.tripped = false) :
    vinSample s mv t =
      if heldFor (held s.power.uvAt (decide (mv < 38000)) t) t 100000 then trip (sampled s mv t) 1 0 0x0702 mv
      else if heldFor (held s.power.ovAt (decide (mv > 52000)) t) t 10000 then trip (sampled s mv t) 2 0 0x0703 mv
      else if heldFor (held s.power.lowAt (decide (mv < 40000)) t) t 1000000 ∧ !s.power.inputLow then inputFellLow s mv t
      else if s.power.inputLow && heldFor (held s.power.okAt (decide (mv ≥ 40500)) t) t 100000000 then
        settleFloor { sampled s mv t with power := { (sampled s mv t).power with inputLow := false } }
      else sampled s mv t := by
  refine (if_neg hmv).trans (if_neg ?_)
  change ¬((!s.power.vaux) = true ∨ s.power.tripped = true)
  rw [hv, ht]
  decide

theorem heldFor_fresh (t n : Nat) (hn : 0 < n) : ¬heldFor (held none true t) t n = true := by
  have hlate : ¬t + n ≤ t := by omega
  simpa [held, heldFor] using hlate

theorem heldFor_off (since : Since) (t n : Nat) : ¬heldFor (held since false t) t n = true := by
  simp [held, heldFor]

theorem heldFor_since {since : Since} {f t n : Nat} (h : since = some f) (hle : f + n ≤ t) : heldFor (held since true t) t n = true := by
  subst h
  simpa [held, heldFor] using hle

/-- No over- or undervoltage in this range. -/
theorem inRange_untripped {mv : Nat} (hlo : 38000 ≤ mv) (hhi : mv ≤ 52000) :
    ¬heldFor (held s.power.uvAt (decide (mv < 38000)) t) t 100000 = true ∧ ¬heldFor (held s.power.ovAt (decide (mv > 52000)) t) t 10000 = true := by
  rw [decide_eq_false (Nat.not_lt.mpr hlo), decide_eq_false (Nat.not_lt.mpr hhi)]
  exact ⟨heldFor_off _ _ _, heldFor_off _ _ _⟩

/-- The levels that the breaker shows. -/
def LevelsShown (u : State) : Prop :=
  ∀ n : Fin 4, u.getF Reg.BRK_THROTTLE 0 n = max (max u.power.kP u.power.kT[n]) (max u.power.kS[n] u.power.kA[n]) % 16

theorem settleFloor_shown (s : State) : LevelsShown (settleFloor s) := (settleFloor_takes s).2.2

theorem settleThrottle_shown (s : State) : LevelsShown (settleThrottle s) := by
  intro n
  refine (settleThrottle_level s n).trans ?_
  have hp : (settleThrottle s).power = s.power := (congrArg State.power (settleThrottle_only s).rest :)
  rw [hp]
  rfl

theorem recordErr_again (s : State) (ty pg inst code i0 i1 code' i0' i1' : Nat) :
    (s.recordErr ty pg inst code i0 i1).recordErr ty pg inst code' i0' i1' = s.recordErr ty pg inst code i0 i1 := by
  have hbit : bit ((s.recordErr ty pg inst code i0 i1).getF (Hdr.INT_STATUS ty pg) inst 0) 0 = true := by
    unfold State.recordErr
    split
    · next h => exact h
    · exact bit_raise _ ty pg inst (by decide)
  exact if_pos hbit

theorem inputFellLow_takes (s : State) (mv t : Nat) :
    let u := inputFellLow s mv t
    u.power.inputLow = true ∧ u.power.tripped = s.power.tripped ∧ LevelsShown u ∧
      (∀ n : Fin 4, u.power.kS[n] = 16 - 16000 / (25 * max 1 (curN s n))) ∧ u.dram = s.dram ∧
      (bit (s.getF (Hdr.INT_STATUS 6 0) 0 0) 0 = false → u.getF (Hdr.ERR_CODE 6 0) 0 0 = 0x0701) := by
  unfold inputFellLow
  dsimp only
  rw [recordErr_again]
  have hcode := fun hb => (recordErr_fields (s := sampled s mv t) (ty := 6) (pg := 0) (inst := 0) hb 0x0701 mv 0).1
  have herr := recordErr_breaker (sampled s mv t) 0x0701 mv 0
  have hcur (n : Fin 4) : curN ((sampled s mv t).recordErr 6 0 0 0x0701 mv 0) n = curN s n := by
    have hk : Reg.BRK_CUR_N.key 0 n ∉ breakerKeys := by
      revert n
      decide
    exact herr.fields _ _ _ hk
  have htrip : ((sampled s mv t).recordErr 6 0 0 0x0701 mv 0).power.tripped = s.power.tripped :=
    (congrArg (fun w : State => w.power.tripped) (recordErr_same (sampled s mv t) 6 0 0 0x0701 mv 0) :)
  have hdram : ((sampled s mv t).recordErr 6 0 0 0x0701 mv 0).dram = s.dram :=
    (congrArg State.dram (recordErr_same (sampled s mv t) 6 0 0 0x0701 mv 0) :)
  generalize (sampled s mv t).recordErr 6 0 0 0x0701 mv 0 = a at hcode hcur htrip hdram
  have hshown := settleFloor_shown { a with power := { a.power with inputLow := true } }
  obtain ⟨hp, hrest, -⟩ := settleFloor_takes { a with power := { a.power with inputLow := true } }
  have hks (n : Fin 4) : (floorRequests { a with power := { a.power with inputLow := true } })[n] = 16 - 16000 / (25 * max 1 (curN s n)) := by
    refine (Vector.getElem_ofFn _).trans ((if_pos ?_).trans ?_)
    · exact Bool.or_true _
    · rw [← hcur n]
      rfl
  generalize floorRequests { a with power := { a.power with inputLow := true } } = k at hp hks
  have hd : (settleFloor { a with power := { a.power with inputLow := true } }).dram = a.dram := (congrArg State.dram hrest.rest :)
  have hf := hrest.fields (Hdr.ERR_CODE 6 0) 0 0 (by decide)
  generalize settleFloor { a with power := { a.power with inputLow := true } } = u at hp hshown hd hf ⊢
  refine ⟨by rw [hp], by rw [hp]; exact htrip, hshown, fun n => ?_, hd.trans hdram, fun hb => hf.trans (hcode hb)⟩
  rw [hp]
  exact hks n

theorem inputRose_takes (s : State) (mv t : Nat) :
    let u := settleFloor { sampled s mv t with power := { (sampled s mv t).power with inputLow := false } }
    u.power.inputLow = false ∧ LevelsShown u ∧ (s.getF Reg.BRK_SAFE_FLOOR 0 0 = 0 → ∀ n : Fin 4, u.power.kS[n] = 0) := by
  dsimp only
  have hflag (h : s.getF Reg.BRK_SAFE_FLOOR 0 0 = 0) : (sampled s mv t).flag Reg.BRK_SAFE_FLOOR 0 0 = false := State.flag_eq_false h
  generalize sampled s mv t = a at hflag ⊢
  have hshown := settleFloor_shown { a with power := { a.power with inputLow := false } }
  obtain ⟨hp, -, -⟩ := settleFloor_takes { a with power := { a.power with inputLow := false } }
  have hks (h : s.getF Reg.BRK_SAFE_FLOOR 0 0 = 0) (n : Fin 4) : (floorRequests { a with power := { a.power with inputLow := false } })[n] = 0 := by
    refine (Vector.getElem_ofFn _).trans (if_neg ?_)
    change ¬(a.flag Reg.BRK_SAFE_FLOOR 0 0 || false) = true
    rw [hflag h]
    decide
  generalize floorRequests { a with power := { a.power with inputLow := false } } = k at hp hks
  generalize settleFloor { a with power := { a.power with inputLow := false } } = u at hp hshown ⊢
  refine ⟨by rw [hp], hshown, fun h n => ?_⟩
  rw [hp]
  exact hks h n

/-! Ticks of the input power. -/

/-- The power request that a tick leaves. -/
def powerRequest (s : State) (a b t : Nat) : Nat :=
  let past := decide (b > s.getF Reg.BRK_PCAP 0 0)
  let peak := decide (a > s.getF Reg.BRK_FUSE_P_PEAK 0 0)
  let ms := decide (s.power.kPAt + 1000000 ≤ t)
  let k := s.power.kP + (if peak then 2 else 0) + (if past && ms then 1 else 0)
  min 14 (if (decide (100 * b < 95 * s.getF Reg.BRK_PCAP 0 0) && !peak) && ms then k - 1 else k)

/-- Since when the power request stands at its top. -/
def powerTop (s : State) (a b t : Nat) : Since :=
  held s.power.kPTop (powerRequest s a b t == 14 && (decide (b > s.getF Reg.BRK_PCAP 0 0) || decide (a > s.getF Reg.BRK_FUSE_P_PEAK 0 0))) t

/-- The device once a tick of the input power has settled its request, before its milliseconds are counted. -/
def powerSettled (s : State) (a b t : Nat) : State :=
  settleThrottle { (s.atTime t).setF Reg.BRK_P_IN 0 0 (min b 4095) with power := { s.power with
    kP := powerRequest s a b t, kPAt := if s.power.kPAt + 1000000 ≤ t then t else s.power.kPAt, kPTop := powerTop s a b t } }

/-- The ticks with a throttled stack are counted. -/
def throttleCounted (s : State) : State :=
  let n := s.power.ticks + (if (List.finRange 4).any (fun n => s.getF Reg.BRK_THROTTLE 0 n != 0) then 1 else 0)
  let s := { s with power := { s.power with ticks := n % 100 } }
  if n ≥ 100 then s.countF Reg.BRK_THROTTLE_MS 0 0 1 else s

theorem powerTick_eq (a b : Nat) (hv : s.power.vaux = true) (ht : s.power.tripped = false) :
    powerTick s a b t = if heldFor (powerTop s a b t) t 10000000 then trip (throttleCounted (powerSettled s a b t)) 4 0 0x0707 (min b 4095)
      else throttleCounted (powerSettled s a b t) := by
  have hno : ¬((!(s.atTime t).power.vaux) = true ∨ (s.atTime t).power.tripped = true) := by
    change ¬((!s.power.vaux) = true ∨ s.power.tripped = true)
    rw [hv, ht]
    decide
  have hcap : ((s.atTime t).setF Reg.BRK_P_IN 0 0 (min b 4095)).getF Reg.BRK_PCAP 0 0 = s.getF Reg.BRK_PCAP 0 0 := State.getF_setF_ne _ _ (by decide)
  have hpeak : ((s.atTime t).setF Reg.BRK_P_IN 0 0 (min b 4095)).getF Reg.BRK_FUSE_P_PEAK 0 0 = s.getF Reg.BRK_FUSE_P_PEAK 0 0 :=
    State.getF_setF_ne _ _ (by decide)
  rw [powerTick, if_neg hno]
  dsimp only
  rw [hcap, hpeak]
  simp only [powerTop, powerSettled, powerRequest, throttleCounted, decide_eq_true_eq]
  rfl

theorem throttleCounted_only (s : State) : PowerOnly s (throttleCounted s) [Reg.BRK_THROTTLE_MS.key 0 0] ∧ ∃ n, (throttleCounted s).power = { s.power with ticks := n } := by
  unfold throttleCounted
  generalize (if (List.finRange 4).any (fun n => s.getF Reg.BRK_THROTTLE 0 n != 0) then 1 else 0) = n
  dsimp only
  split
  · exact ⟨(PowerOnly.of_power s _ _).trans (PowerOnly.of_regs (ChangesAt.setF _ _ (by simp))), _, rfl⟩
  · exact ⟨PowerOnly.of_power s _ _, _, rfl⟩

theorem powerSettled_takes (a b : Nat) :
    let u := throttleCounted (powerSettled s a b t)
    u.power.kP = powerRequest s a b t ∧ LevelsShown u ∧ u.getF Reg.BRK_P_IN 0 0 = min b 4095 ∧ u.power.tripped = s.power.tripped ∧
      u.power.kPAt = (if s.power.kPAt + 1000000 ≤ t then t else s.power.kPAt) ∧ u.flash = s.flash ∧ u.fuses = s.fuses := by
  dsimp only
  have hin : ((s.atTime t).setF Reg.BRK_P_IN 0 0 (min b 4095)).getF Reg.BRK_P_IN 0 0 = min b 4095 :=
    (State.getF_setF_same ..).trans (Nat.mod_eq_of_lt (by change min b 4095 < 2 ^ 12; omega))
  unfold powerSettled
  have hshown := settleThrottle_shown { (s.atTime t).setF Reg.BRK_P_IN 0 0 (min b 4095) with power := { s.power with
    kP := powerRequest s a b t, kPAt := if s.power.kPAt + 1000000 ≤ t then t else s.power.kPAt, kPTop := powerTop s a b t } }
  have hrest := settleThrottle_only { (s.atTime t).setF Reg.BRK_P_IN 0 0 (min b 4095) with power := { s.power with
    kP := powerRequest s a b t, kPAt := if s.power.kPAt + 1000000 ≤ t then t else s.power.kPAt, kPTop := powerTop s a b t } }
  have hp := (congrArg State.power hrest.rest :)
  have hfl := (congrArg State.flash hrest.rest :)
  have hfu := (congrArg State.fuses hrest.rest :)
  have hget := (hrest.fields Reg.BRK_P_IN 0 0 (by decide)).trans hin
  generalize settleThrottle { (s.atTime t).setF Reg.BRK_P_IN 0 0 (min b 4095) with power := { s.power with
    kP := powerRequest s a b t, kPAt := if s.power.kPAt + 1000000 ≤ t then t else s.power.kPAt, kPTop := powerTop s a b t } } = w at hshown hp hfl hfu hget ⊢
  obtain ⟨hc, n, hn⟩ := throttleCounted_only w
  refine ⟨by rw [hn, hp], fun m => ?_, (hc.fields _ _ _ (by decide)).trans hget, by rw [hn, hp], by rw [hn, hp],
    (congrArg State.flash hc.rest :).trans hfl, (congrArg State.fuses hc.rest :).trans hfu⟩
  have hk : Reg.BRK_THROTTLE.key 0 m ∉ [Reg.BRK_THROTTLE_MS.key 0 0] := by
    revert m
    decide
  rw [hc.fields _ _ _ hk, hshown m, hn]

/-! Ticks of the temperatures. -/

/-- The readings of a tick, stored. -/
def temperaturesStored (s : State) (temps : List Nat) : State :=
  let s := (List.range 32).foldl (fun s c => s.setF Reg.AGE_TEMP (c / 8) (c % 8) (min 255 (temps.getD c 0))) s
  (List.range 8).foldl (fun s r => s.setF Reg.AGE_RG_TEMP (r / 2) (r % 2) (min 255 (temps.getD (32 + r) 0))) s

/-- Is a sensor of the stack over the throttle limit? -/
def stackHot (s : State) (temps : List Nat) (n : Fin 4) : Bool :=
  (stackSensors n).any (fun k => decide (temps.getD k 0 > s.getF Reg.BRK_T_THROTTLE_CFG 0 0))

/-- Are all its sensors 3 °C or more below? -/
def stackCool (s : State) (temps : List Nat) (n : Fin 4) : Bool :=
  (stackSensors n).all (fun k => decide (temps.getD k 0 + 3 ≤ s.getF Reg.BRK_T_THROTTLE_CFG 0 0))

def raisesThermal (s : State) (temps : List Nat) (t : Nat) (n : Fin 4) : Bool := stackHot s temps n && decide (s.power.kTUp[n] + 100000 ≤ t)
def lowersThermal (s : State) (temps : List Nat) (t : Nat) (n : Fin 4) : Bool := stackCool s temps n && decide (s.power.kTDown[n] + 10000000 ≤ t)

/-- The thermal request of a stack that a tick leaves. -/
def thermalRequest (s : State) (temps : List Nat) (t : Nat) (n : Fin 4) : Nat :=
  if raisesThermal s temps t n then min 14 (s.power.kT[n] + 1) else if lowersThermal s temps t n then s.power.kT[n] - 1 else s.power.kT[n]

/-- The sensors at their trip limit, and since when. -/
def hotSince (s : State) (temps : List Nat) (t : Nat) : List (Nat × Nat) :=
  (List.range 42).filterMap (fun k =>
    if temps.getD k 0 ≥ s.getF Reg.BRK_FUSE_T_TRIP 0 0 then some (k, ((s.power.hotAt.find? (·.1 == k)).map (·.2)).getD t) else none)

/-- Is a sensor of the hearth over the throttle limit? -/
def hearthHot (s : State) (temps : List Nat) : Bool :=
  decide (temps.getD 40 0 > s.getF Reg.BRK_T_THROTTLE_CFG 0 0 ∨ temps.getD 41 0 > s.getF Reg.BRK_T_THROTTLE_CFG 0 0)

/-- The power state that a tick leaves. -/
def thermalPower (s : State) (temps : List Nat) (t : Nat) : Power :=
  { s.power with
    kT := Vector.ofFn (thermalRequest s temps t), hotAt := hotSince s temps t
    tMax := (List.range 42).foldl (fun m k => max m (temps.getD k 0)) 0
    kTUp := Vector.ofFn (fun n : Fin 4 => if raisesThermal s temps t n then t else s.power.kTUp[n])
    kTDown := Vector.ofFn (fun n : Fin 4 => if lowersThermal s temps t n || !stackCool s temps n then t else s.power.kTDown[n]) }

/-- HEARTH_HOT follows the hearth's sensors. -/
def hearthShown (s : State) (hot : Bool) : State :=
  if s.getF Reg.BRK_HEARTH_HOT 0 0 = b2n hot then s else (s.setF Reg.BRK_HEARTH_HOT 0 0 (b2n hot)).raise 6 0 0 1

/-- The device once a tick of the temperatures has settled its requests. -/
def thermalSettled (s : State) (temps : List Nat) (t : Nat) : State :=
  settleThrottle (hearthShown { temperaturesStored (s.atTime t) temps with power := thermalPower s temps t } (hearthHot s temps))

theorem temperaturesStored_only (s : State) (temps : List Nat) :
    ChangesAt s (temperaturesStored s temps)
      ((List.range 32).map (fun c => Reg.AGE_TEMP.key (c / 8) (c % 8)) ++ (List.range 8).map (fun r => Reg.AGE_RG_TEMP.key (r / 2) (r % 2))) :=
  (foldl_setF_only _ Reg.AGE_TEMP (fun c => c / 8) (fun c => c % 8) _ s fun _ hc => List.mem_append_left _ (List.mem_map_of_mem hc)).trans
    (foldl_setF_only _ Reg.AGE_RG_TEMP (fun r => r / 2) (fun r => r % 2) _ _ fun _ hr => List.mem_append_right _ (List.mem_map_of_mem hr))

theorem thermalTick_eq (temps : List Nat) (hv : s.power.vaux = true) (ht : s.power.tripped = false) :
    thermalTick s temps t = match (hotSince s temps t).find? (fun x => decide (x.2 + 100000 ≤ t)) with
      | some x => trip (thermalSettled s temps t) 5 x.1 0x0708 x.1
      | none => thermalSettled s temps t := by
  have hno : ¬((!(s.atTime t).power.vaux) = true ∨ (s.atTime t).power.tripped = true) := by
    change ¬((!s.power.vaux) = true ∨ s.power.tripped = true)
    rw [hv, ht]
    decide
  have hlimit : (temperaturesStored (s.atTime t) temps).getF Reg.BRK_FUSE_T_TRIP 0 0 = s.getF Reg.BRK_FUSE_T_TRIP 0 0 :=
    (temperaturesStored_only _ temps).fields _ _ _ (by decide)
  have hpower : (temperaturesStored (s.atTime t) temps).power = s.power := (congrArg State.power (temperaturesStored_only (s.atTime t) temps).rest :)
  unfold temperaturesStored at hlimit hpower
  rw [thermalTick, if_neg hno]
  dsimp only at hlimit hpower ⊢
  rw [hlimit, hpower]
  rfl

theorem hearthShown_only (s : State) (hot : Bool) : ChangesAt s (hearthShown s hot) [Reg.BRK_HEARTH_HOT.key 0 0, (Hdr.INT_STATUS 6 0).key 0 0] := by
  unfold hearthShown
  split
  · exact ChangesAt.refl s _
  · exact (ChangesAt.setF s _ (by simp)).trans (ChangesAt.setF _ _ (by simp))

theorem hearthShown_value (s : State) (hot : Bool) : (hearthShown s hot).getF Reg.BRK_HEARTH_HOT 0 0 = b2n hot := by
  unfold hearthShown
  split
  · next h => exact h
  · refine (getF_raise_ne _ (by decide)).trans ((State.getF_setF_same ..).trans ?_)
    cases hot <;> rfl

theorem temperaturesStored_value (s : State) (temps : List Nat) (c : Fin 32) :
    (temperaturesStored s temps).getF Reg.AGE_TEMP (c.val / 8) (c.val % 8) = min 255 (temps.getD c 0) := by
  have hk : Reg.AGE_TEMP.key (c.val / 8) (c.val % 8) ∉ (List.range 8).map (fun r => Reg.AGE_RG_TEMP.key (r / 2) (r % 2)) := by
    revert c
    decide
  have h := getF_foldl_setF (List.range 32) Reg.AGE_TEMP (fun c => c / 8) (fun c => c % 8) (fun c => min 255 (temps.getD c 0)) s (by decide)
    (List.mem_range.mpr c.isLt)
  have hlt : min 255 (temps.getD c 0) < 2 ^ Reg.AGE_TEMP.width := by
    change min 255 _ < 256
    omega
  unfold temperaturesStored
  dsimp only at h ⊢
  rw [Nat.mod_eq_of_lt hlt] at h
  generalize (List.range 32).foldl (fun s c => s.setF Reg.AGE_TEMP (c / 8) (c % 8) (min 255 (temps.getD c 0))) s = a at h ⊢
  have hrest := foldl_setF_only (List.range 8) Reg.AGE_RG_TEMP (fun r => r / 2) (fun r => r % 2) (fun r => min 255 (temps.getD (32 + r) 0)) a
    fun _ hr => List.mem_map_of_mem hr
  exact (hrest.fields _ _ _ hk).trans h

theorem thermalSettled_takes (temps : List Nat) :
    let u := thermalSettled s temps t
    LevelsShown u ∧ u.power.tripped = s.power.tripped ∧ (∀ n : Fin 4, u.power.kT[n] = thermalRequest s temps t n) ∧
      u.getF Reg.BRK_HEARTH_HOT 0 0 = b2n (hearthHot s temps) ∧
      (∀ c : Fin 32, u.getF Reg.AGE_TEMP (c.val / 8) (c.val % 8) = min 255 (temps.getD c 0)) ∧ u.flash = s.flash ∧ u.fuses = s.fuses := by
  unfold thermalSettled
  dsimp only
  have hst := temperaturesStored_only (s.atTime t) temps
  have htemp := temperaturesStored_value (s.atTime t) temps
  have hfl : (temperaturesStored (s.atTime t) temps).flash = s.flash := (congrArg State.flash hst.rest :)
  have hfu : (temperaturesStored (s.atTime t) temps).fuses = s.fuses := (congrArg State.fuses hst.rest :)
  generalize temperaturesStored (s.atTime t) temps = a at htemp hfl hfu
  have hh := hearthShown_only { a with power := thermalPower s temps t } (hearthHot s temps)
  have hv := hearthShown_value { a with power := thermalPower s temps t } (hearthHot s temps)
  have hp : (hearthShown { a with power := thermalPower s temps t } (hearthHot s temps)).power = thermalPower s temps t := (congrArg State.power hh.rest :)
  have hfl' : (hearthShown { a with power := thermalPower s temps t } (hearthHot s temps)).flash = s.flash := (congrArg State.flash hh.rest :).trans hfl
  have hfu' : (hearthShown { a with power := thermalPower s temps t } (hearthHot s temps)).fuses = s.fuses := (congrArg State.fuses hh.rest :).trans hfu
  have hage (c : Fin 32) : (hearthShown { a with power := thermalPower s temps t } (hearthHot s temps)).getF Reg.AGE_TEMP (c.val / 8) (c.val % 8) =
      min 255 (temps.getD c 0) := by
    have hk : Reg.AGE_TEMP.key (c.val / 8) (c.val % 8) ∉ [Reg.BRK_HEARTH_HOT.key 0 0, (Hdr.INT_STATUS 6 0).key 0 0] := by
      revert c
      decide
    exact (hh.fields _ _ _ hk).trans (htemp c)
  generalize hearthShown { a with power := thermalPower s temps t } (hearthHot s temps) = b at hv hp hfl' hfu' hage
  have hset := settleThrottle_only b
  have hpw : (settleThrottle b).power = thermalPower s temps t := (congrArg State.power hset.rest :).trans hp
  refine ⟨settleThrottle_shown b, by rw [hpw]; rfl, fun n => ?_, (hset.fields _ _ _ (by decide)).trans hv, fun c => ?_,
    (congrArg State.flash hset.rest :).trans hfl', (congrArg State.fuses hset.rest :).trans hfu'⟩
  · rw [hpw]
    exact Vector.getElem_ofFn _
  · have hk : Reg.AGE_TEMP.key (c.val / 8) (c.val % 8) ∉ throttleKeys := by
      revert c
      decide
    exact (hset.fields _ _ _ hk).trans (hage c)

theorem mem_stackSensors (n : Fin 4) (k : Nat) :
    k ∈ stackSensors n ↔ (8 * n.val ≤ k ∧ k < 8 * n.val + 8) ∨ k = 32 + 2 * n.val ∨ k = 33 + 2 * n.val := by
  simp only [stackSensors, List.mem_append, List.mem_map, List.mem_range, List.mem_cons, List.not_mem_nil, or_false]
  refine or_congr ⟨?_, fun h => ⟨k - 8 * n.val, by omega, by omega⟩⟩ Iff.rfl
  rintro ⟨j, hj, rfl⟩
  omega

theorem stackHot_iff (temps : List Nat) (n : Fin 4) :
    stackHot s temps n = true ↔ ∃ k ∈ stackSensors n, s.getF Reg.BRK_T_THROTTLE_CFG 0 0 < temps.getD k 0 := by
  simp only [stackHot, List.any_eq_true, decide_eq_true_eq, gt_iff_lt]

theorem stackCool_iff (temps : List Nat) (n : Fin 4) :
    stackCool s temps n = true ↔ ∀ k ∈ stackSensors n, temps.getD k 0 + 3 ≤ s.getF Reg.BRK_T_THROTTLE_CFG 0 0 := by
  simp only [stackCool, List.all_eq_true, decide_eq_true_eq]

theorem mem_hotSince {temps : List Nat} {x : Nat × Nat} :
    x ∈ hotSince s temps t ↔ x.1 < 42 ∧ s.getF Reg.BRK_FUSE_T_TRIP 0 0 ≤ temps.getD x.1 0 ∧
      x.2 = ((s.power.hotAt.find? (fun y => y.1 == x.1)).map (fun y => y.2)).getD t := by
  obtain ⟨k, f⟩ := x
  simp only [hotSince, List.mem_filterMap, List.mem_range, Option.ite_none_right_eq_some, Option.some.injEq, Prod.mk.injEq, ge_iff_le]
  constructor
  · rintro ⟨j, hj, hlim, rfl, rfl⟩
    exact ⟨hj, hlim, rfl⟩
  · rintro ⟨hj, hlim, rfl⟩
    exact ⟨k, hj, hlim, rfl, rfl⟩

end

/-- Settles O47: a sample or a tick filters, throttles, or trips. -/
theorem breakerSamples : Obligations.BreakerSamples := by
  unfold Obligations.BreakerSamples
  intro s t p alive tripped levels
  have htripped {u : State} {cause info : Nat} (h : Tripped s cause info u) : tripped u cause info :=
    ⟨h.tripped, h.vbus, h.startDue, h.dram, h.cause, h.info, h.alert, h.flash, h.fuses⟩
  refine ⟨?_, fun mv hmv ⟨hv, ht⟩ => ?_, fun hv => ⟨fun n => ?_, fun n ht hn => ?_⟩, fun a b ⟨hv, ht⟩ => ?_, fun temps hlen => if_neg hlen,
    fun temps hlen ⟨hv, ht⟩ => ?_⟩
  · obtain ⟨h1, h2, h3, h4, h5, h6, h7, h8, -⟩ := powerLoss_takes
      { s.atTime t with power := { s.power with vinMv := 0, vinOkAt := held s.power.vinOkAt (decide (0 ≥ 40000)) t } }
    exact ⟨_, rfl, h1, h2, h3, h4, h5, h6, h7, h8⟩
  · have heq := vinSample_eq (t := t) hmv hv ht
    have htrip {cause : Nat} (hc : cause < 8) (code i0 : Nat) : tripped (trip (sampled s mv t) cause 0 code i0) cause 0 := by
      have h := trip_trips (s := sampled s mv t) ht hc (info := 0) (by decide) code i0
      exact htripped ⟨h.tripped, h.vbus, h.startDue, h.dram, h.cause, h.info, h.alert, h.flash, h.fuses⟩
    refine ⟨fun f hlow hf hle => ?_, fun f hhigh hf hle => ?_, fun f hlo hhi hf hle hin => ?_, fun f hlo hhi hf hle hin => ?_, fun hlo hhi hin => ?_⟩
    · rw [decide_eq_true hlow, if_pos (heldFor_since hf hle)] at heq
      exact ⟨_, congrArg Host.Outcome.next heq, htrip (by decide) _ _⟩
    · rw [decide_eq_false (p := mv < 38000) (by omega), if_neg (heldFor_off _ _ _), decide_eq_true (p := mv > 52000) hhigh,
        if_pos (heldFor_since hf hle)] at heq
      exact ⟨_, congrArg Host.Outcome.next heq, htrip (by decide) _ _⟩
    · obtain ⟨hu, ho⟩ := inRange_untripped (s := s) (t := t) hlo (by omega)
      rw [if_neg hu, if_neg ho, decide_eq_true hhi, if_pos ⟨heldFor_since hf hle, by rw [show s.power.inputLow = false from hin]; rfl⟩] at heq
      obtain ⟨h1, h2, h3, h4, h5, h6⟩ := inputFellLow_takes s mv t
      exact ⟨_, congrArg Host.Outcome.next heq, h1, h2.trans ht, h3, h4, h5, h6⟩
    · obtain ⟨hu, ho⟩ := inRange_untripped (s := s) (t := t) (by omega) hhi
      rw [if_neg hu, if_neg ho, decide_eq_false (p := mv < 40000) (by omega), if_neg (fun h => heldFor_off _ _ _ h.1), decide_eq_true (p := mv ≥ 40500) hlo,
        if_pos (by rw [show s.power.inputLow = true from hin, heldFor_since hf hle]; rfl)] at heq
      obtain ⟨h1, h2, h3⟩ := inputRose_takes s mv t
      exact ⟨_, congrArg Host.Outcome.next heq, h1, h2, h3⟩
    · obtain ⟨hu, ho⟩ := inRange_untripped (s := s) (t := t) (by omega) hhi
      have hsampled : sampled s mv t = { s.atTime t with power := { p with
          vinMv := mv, vinOkAt := some (p.vinOkAt.getD t), lowAt := none, uvAt := none, ovAt := none, okAt := some (p.okAt.getD t) } } := by
        unfold sampled
        rw [decide_eq_true (p := mv ≥ 40000) (by omega), decide_eq_false (p := mv < 40000) (by omega), decide_eq_false (p := mv < 38000) (by omega),
          decide_eq_false (p := mv > 52000) (by omega), decide_eq_true (p := mv ≥ 40500) hlo]
        rfl
      rw [if_neg hu, if_neg ho, decide_eq_false (p := mv < 40000) (by omega), if_neg (fun h => heldFor_off _ _ _ h.1),
        if_neg (by rw [show s.power.inputLow = false from hin, Bool.false_and]; decide), hsampled] at heq
      exact congrArg Host.Outcome.next heq
  · have hfault : railFault s true n.val t = ((s.atTime t).recordErr 19 0 0 0x0705 n.val 0).modDimm n (fun d => { d with pmic := true }) := by
      refine (if_neg (by rw [show s.power.vaux = true from hv]; decide)).trans ((if_pos rfl).trans ?_)
      exact dif_pos n.isLt
    have hdram : ((s.atTime t).recordErr 19 0 0 0x0705 n.val 0).dram = s.dram := (congrArg State.dram (recordErr_same (s.atTime t) 19 0 0 0x0705 n.val 0) :)
    refine ⟨_, congrArg Host.Outcome.next hfault, congrArg DimmState.pmic (Vector.getElem_set_self _), hdram, fun hb => ?_⟩
    obtain ⟨h1, h2⟩ := recordErr_fields (s := s.atTime t) (ty := 19) (pg := 0) (inst := 0) hb 0x0705 n.val 0
    exact ⟨h1, h2.trans (Nat.mod_eq_of_lt (Nat.lt_trans n.isLt (by decide)))⟩
  · have hfault : railFault s false n t = trip (s.atTime t) 3 n 0x0704 n :=
      (if_neg (by rw [show s.power.vaux = true from hv]; decide)).trans ((if_neg (by decide)).trans (if_pos hn))
    have h := trip_trips (s := s.atTime t) ht (cause := 3) (info := n) (by decide) (by omega) 0x0704 n
    exact ⟨_, congrArg Host.Outcome.next hfault, htripped ⟨h.tripped, h.vbus, h.startDue, h.dram, h.cause, h.info, h.alert, h.flash, h.fuses⟩⟩
  · intro pcap past peak ms k1 k hk1 hk
    have heq := powerTick_eq (t := t) a b hv ht
    obtain ⟨h1, h2, h3, h4, h5, h6, h7⟩ := powerSettled_takes (s := s) (t := t) a b
    have hreq : powerRequest s a b t = k := by
      rw [hk, hk1]
      simp only [powerRequest, Bool.and_eq_true, decide_eq_true_eq, Bool.not_eq_true', decide_eq_false_iff_not, and_assoc]
      rfl
    have htop (hor : past ∨ peak) (h14 : k = 14) : powerTop s a b t = held s.power.kPTop true t := by
      unfold powerTop
      rw [hreq, h14]
      refine congrArg (fun c => held s.power.kPTop c t) ?_
      rcases hor with h | h
      · rw [decide_eq_true (p := b > s.getF Reg.BRK_PCAP 0 0) h]
        rfl
      · rw [decide_eq_true (p := a > s.getF Reg.BRK_FUSE_P_PEAK 0 0) h, Bool.or_true]
        rfl
    refine ⟨fun hor => ?_, fun f h14 hf hle hor => ?_⟩
    · have hcalm : ¬heldFor (powerTop s a b t) t 10000000 = true := by
        by_cases hheld : k = 14 ∧ (past ∨ peak)
        · obtain ⟨h14, hpp⟩ := hheld
          have hnone : s.power.kPTop = none := by
            rcases hor with h | h | ⟨h, h'⟩
            · exact absurd h14 h
            · exact h
            · exact absurd hpp (not_or.mpr ⟨h, h'⟩)
          rw [htop hpp h14, hnone]
          exact heldFor_fresh _ _ (by decide)
        · have hoff : (powerRequest s a b t == 14 && (decide (b > s.getF Reg.BRK_PCAP 0 0) || decide (a > s.getF Reg.BRK_FUSE_P_PEAK 0 0))) = false := by
            rw [hreq]
            refine Bool.eq_false_iff.mpr fun h => hheld ?_
            simpa using h
          unfold powerTop
          rw [hoff]
          exact heldFor_off _ _ _
      rw [if_neg hcalm] at heq
      exact ⟨_, congrArg Host.Outcome.next heq, h1.trans hreq, h2, h3, h4.trans ht, h5⟩
    · rw [htop hor h14, if_pos (heldFor_since hf hle)] at heq
      have h := trip_trips (s := throttleCounted (powerSettled s a b t)) (h4.trans ht) (cause := 4) (info := 0) (by decide) (by decide) 0x0707 (min b 4095)
      exact ⟨_, congrArg Host.Outcome.next heq,
        htripped ⟨h.tripped, h.vbus, h.startDue, h.dram, h.cause, h.info, h.alert, h.flash.trans h6, h.fuses.trans h7⟩⟩
  · intro cfg limit deg sensor
    have hexec : exec (.breakerThermalTick temps t) s = .next (thermalTick s temps t) := if_pos hlen
    have heq := thermalTick_eq (t := t) temps hv ht
    obtain ⟨h1, h2, h3, h4, h5, h6, h7⟩ := thermalSettled_takes (s := s) (t := t) temps
    have hsens (n : Fin 4) (k : Nat) : sensor n k ↔ k ∈ stackSensors n := (mem_stackSensors n k).symm
    refine ⟨fun hcalm => ?_, fun k f hk hlim hf hle => ?_⟩
    · have hnone : (hotSince s temps t).find? (fun x => decide (x.2 + 100000 ≤ t)) = none := by
        refine List.find?_eq_none.mpr fun x hx => ?_
        obtain ⟨hlt, hge, -⟩ := mem_hotSince.mp hx
        exact absurd (hcalm x.1 hlt) (Nat.not_lt.mpr hge)
      rw [hnone] at heq
      refine ⟨_, hexec.trans (congrArg Host.Outcome.next heq), h1, h2.trans ht, fun n ⟨k, hk, hdeg⟩ hup => ?_, fun n hcool hdown => ?_,
        fun n hle ⟨k, hk, hnear⟩ => ?_, h4.trans ?_, h5⟩
      · have hhot : stackHot s temps n = true := (stackHot_iff temps n).mpr ⟨k, (hsens n k).mp hk, hdeg⟩
        rw [h3, thermalRequest, raisesThermal, hhot, decide_eq_true (p := s.power.kTUp[n] + 100000 ≤ t) hup]
        rfl
      · have hhot : stackHot s temps n = false := Bool.eq_false_iff.mpr fun h => by
          obtain ⟨k, hk, hdeg⟩ := (stackHot_iff temps n).mp h
          have : temps.getD k 0 + 3 ≤ s.getF Reg.BRK_T_THROTTLE_CFG 0 0 := hcool k ((hsens n k).mpr hk)
          omega
        have hall : stackCool s temps n = true := (stackCool_iff temps n).mpr fun k hk => hcool k ((hsens n k).mpr hk)
        rw [h3, thermalRequest, raisesThermal, lowersThermal, hhot, hall, decide_eq_true (p := s.power.kTDown[n] + 10000000 ≤ t) hdown]
        rfl
      · have hhot : stackHot s temps n = false := Bool.eq_false_iff.mpr fun h => by
          obtain ⟨k, hk, hdeg⟩ := (stackHot_iff temps n).mp h
          exact absurd hdeg (Nat.not_lt.mpr (hle k ((hsens n k).mpr hk)))
        have hwarm : stackCool s temps n = false := Bool.eq_false_iff.mpr fun h => by
          have : temps.getD k 0 + 3 ≤ s.getF Reg.BRK_T_THROTTLE_CFG 0 0 := (stackCool_iff temps n).mp h k ((hsens n k).mp hk)
          exact absurd hnear (Nat.not_lt.mpr this)
        rw [h3, thermalRequest, raisesThermal, lowersThermal, hhot, hwarm]
        rfl
      · unfold b2n hearthHot
        simp only [decide_eq_true_eq]
        rfl
    · have hmem : (k, f) ∈ hotSince s temps t := mem_hotSince.mpr ⟨hk, hlim, by rw [show s.power.hotAt.find? (fun y => y.1 == k) = some (k, f) from hf]; rfl⟩
      obtain ⟨x, hx⟩ := Option.isSome_iff_exists.mp ((List.find?_isSome (p := fun x => decide (x.2 + 100000 ≤ t))).mpr ⟨(k, f), hmem, decide_eq_true (p := f + 100000 ≤ t) hle⟩)
      obtain ⟨hlt, hge, -⟩ := mem_hotSince.mp (List.mem_of_find?_eq_some hx)
      rw [hx] at heq
      have h := trip_trips (s := thermalSettled s temps t) (h2.trans ht) (cause := 5) (info := x.1) (by decide) (by omega) 0x0708 x.1
      exact ⟨_, x.1, hexec.trans (congrArg Host.Outcome.next heq), hlt, hge,
        htripped ⟨h.tripped, h.vbus, h.startDue, h.dram, h.cause, h.info, h.alert, h.flash.trans h6, h.fuses.trans h7⟩⟩

end Sys2Proof.Machine
end

section
namespace Sys2Proof.Machine

set_option Elab.async false

/-! O51 fails: nothing in the statement bounds the cause of a tile's stall, by which the tile's stall counter is chosen. The counter of a
cause past the listed ones lies in another block's page; here in the STATE of the very port whose cage faults. The lost link fails the
step of the group, the abort of the step settles the stall, and its cycles are added to STATE. -/

/-- The cause whose stall counter of tile 0 is the STATE of Kamduelm port 0. -/
def strayCause : Nat := 1587168

theorem strayCause_key : Reg.TILE_STALL_CYCLES.key 0 strayCause = Reg.KML_STATE.key 0 0 := by decide

/-- Port 0 is UP to the other member of the group, whose step runs on tile 0, stalled under that cause. -/
def linkedStep : State :=
  let s := (((((State.reset.setF Reg.CP_STATE 3 0 2).setF (Hdr.ENABLE 1) 0 0 1).setF Reg.PSEQ_CUR 0 0 2).setF Reg.KML_STATE 0 0 4).setF
    Reg.KML_PEER_MEMBER 0 0 1).setTile 0
    { Tile.reset with pstate := .stalled, stall := some { cause := strayCause, ops := [], need := 0, run := 0, also := 0 } }
  { s with queues := [{ runningQueue with desc := [] }], domains := [failingDomain] }

/-- The regulator of cage 0 faults at 1 ms. -/
def cageFaulted : State := cageFault linkedStep 0 1000000

theorem cageFaulted_state : portState cageFaulted 0 ≠ 5 := by decide +kernel

/-- Refutes O51: the port does not stay in FAILED. -/
theorem not_modulePins : ¬ Obligations.ModulePins := by
  unfold Obligations.ModulePins
  intro h
  obtain ⟨-, -, -, -, -, -, -, -, -, -, -, -, -, hcage⟩ := h linkedStep 1000000
  obtain ⟨u, hu, -, hfails, -⟩ := hcage 0
  have hend : exec (.cageRegulatorFault 0 1000000) linkedStep = .next cageFaulted := rfl
  obtain rfl : cageFaulted = u := Host.Outcome.next.inj (hend.symm.trans hu)
  obtain ⟨hfailed, -⟩ := hfails (by decide +kernel) (by decide +kernel)
  exact cageFaulted_state hfailed

end Sys2Proof.Machine
end

section
namespace Sys2Proof.Machine

set_option Elab.async false

/-! O49: power domains. -/

/-! The registers of POWER_SEQ. -/

theorem cur_key_ne {d e : Nat} (h : e ≠ d) : Reg.PSEQ_CUR.key 0 d ≠ Reg.PSEQ_CUR.key 0 e := by
  simp only [Fld.key, Reg.PSEQ_CUR, blockBase]
  omega

theorem req_key_ne_cur (d e : Nat) : Reg.PSEQ_REQ.key 0 d ≠ Reg.PSEQ_CUR.key 0 e := by
  simp only [Fld.key, Reg.PSEQ_CUR, Reg.PSEQ_REQ, blockBase]
  omega

theorem fault_key_ne_cur (d e : Nat) : Reg.PSEQ_FAULT.key 0 d ≠ Reg.PSEQ_CUR.key 0 e := by
  simp only [Fld.key, Reg.PSEQ_CUR, Reg.PSEQ_FAULT, blockBase]
  omega

/-- A header field of POWER_SEQ lies before the words of the domains. -/
theorem seqHeader_key_ne {f g : Fld} (hf : f.key 0 0 < 8 * 0x726100) (hg : g.ty = 19 ∧ g.pg = 0 ∧ g.off = 0x100) (e : Nat) :
    f.key 0 0 ≠ g.key 0 e := by
  obtain ⟨hty, hpg, hoff⟩ := hg
  have hbase : 8 * 0x726100 ≤ g.key 0 e := by
    simp only [Fld.key, hty, hpg, hoff, blockBase]
    omega
  exact Nat.ne_of_lt (Nat.lt_of_lt_of_le hf hbase)

/-- A change that sets CUR of domain `d` and leaves the rest of the device, its registers apart. -/
structure CurSet (s : State) (d v : Nat) (u : State) : Prop where
  cur : domCur u d = v
  other : ∀ e, e ≠ d → domCur u e = domCur s e
  changes : ChangesAt s u [Reg.PSEQ_CUR.key 0 d, (Hdr.INT_STATUS 19 0).key 0 0]

theorem setDomCur_takes (s : State) (d : Nat) {v : Nat} (hv : v < 4) : CurSet s d v (setDomCur s d v) := by
  have hint (e : Nat) : (Hdr.INT_STATUS 19 0).key 0 0 ≠ Reg.PSEQ_CUR.key 0 e := seqHeader_key_ne (by decide) ⟨rfl, rfl, rfl⟩ e
  unfold setDomCur
  split
  · next h => exact ⟨h, fun _ _ => rfl, ChangesAt.refl s _⟩
  · refine ⟨?_, fun e he => ?_, (ChangesAt.setF s _ (by simp)).trans (ChangesAt.setF _ _ (by simp))⟩
    · exact (State.getF_setF_ne _ _ (hint d)).trans ((State.getF_setF_same ..).trans (Nat.mod_eq_of_lt hv))
    · exact (State.getF_setF_ne _ _ (hint e)).trans (State.getF_setF_ne _ _ (cur_key_ne he))

/-! Requests. -/

/-- What the start of a transition leaves. -/
structure TransStarted (s : State) (x : DomTrans) (u : State) : Prop where
  trans : u.power.trans = s.power.trans ++ [x]
  cur : domCur u x.dom = 3
  other : ∀ e, e ≠ x.dom → domCur u e = domCur s e
  tiles : u.tiles = s.tiles
  dram : u.dram = s.dram
  fields : ∀ (g : Fld) (i k : Nat), g.key i k ∉ [Reg.PSEQ_CUR.key 0 x.dom, (Hdr.INT_STATUS 19 0).key 0 0] → u.getF g i k = s.getF g i k

theorem startTrans_started (s : State) (d v : Nat) : TransStarted s { dom := d, target := v, since := s.now } (startTrans s d v) := by
  obtain ⟨hcur, hother, hrest, hfields⟩ := setDomCur_takes s d (v := 3) (by decide)
  have hpower := (congrArg State.power hrest :)
  have hnow := (congrArg State.now hrest :)
  have htiles := (congrArg State.tiles hrest :)
  have hdram := (congrArg State.dram hrest :)
  unfold startTrans
  dsimp only
  generalize setDomCur s d 3 = u at hcur hother hpower hnow htiles hdram hfields ⊢
  exact ⟨by rw [hpower, hnow], hcur, hother, htiles, hdram, hfields⟩

section
variable {s : State} {a : Actor} {d v t : Nat}

/-- Who may write REQ of a domain. -/
def mayAsk (s : State) (a : Actor) (d v : Nat) : Bool := powerWriter s a || (a == .cp 1 && v == 2 && decide (d < 40))

theorem domainRequest_refused (h : mayAsk s a d v = false ∨ s.getF (Hdr.ENABLE 19) 0 0 = 0) : domainRequest s a d v t = s := by
  refine if_pos ?_
  rcases h with h | h
  · exact Or.inl (by rw [show (powerWriter s a || (a == .cp 1 && v == 2 && decide (d < 40))) = false from h]; rfl)
  · exact Or.inr (Or.inr h)

theorem domainRequest_heard (hmay : mayAsk s a d v = true) (hd : d < 50) (hen : s.getF (Hdr.ENABLE 19) 0 0 ≠ 0) :
    domainRequest s a d v t =
      if domCur s d = 3 then (if v < 3 ∧ (v ≠ 1 ∨ isCluster d) ∧ d ≠ domAon then (s.atTime t).setF Reg.PSEQ_REQ 0 d v else s.atTime t)
      else if !domAllowed s d v then s.atTime t
      else if domCur s d = v then (s.atTime t).setF Reg.PSEQ_REQ 0 d v else startTrans ((s.atTime t).setF Reg.PSEQ_REQ 0 d v) d v := by
  have hno : ¬((!mayAsk s a d v) = true ∨ d ≥ domCount ∨ s.getF (Hdr.ENABLE 19) 0 0 = 0) := by
    rw [hmay]
    exact not_or.mpr ⟨by decide, not_or.mpr ⟨Nat.not_le.mpr hd, hen⟩⟩
  refine (if_neg hno).trans ?_
  have hcur : domCur ((s.atTime t).setF Reg.PSEQ_REQ 0 d v) d = domCur s d := State.getF_setF_ne _ _ (req_key_ne_cur d d)
  simp only [hcur]
  rfl

/-- A request for another state that the rules allow starts a transition. -/
theorem domainRequest_starts (hmay : mayAsk s a d v = true) (hd : d < 50) (hen : s.getF (Hdr.ENABLE 19) 0 0 ≠ 0) (hv : v < 4)
    (h3 : domCur s d ≠ 3) (hall : domAllowed s d v = true) (hne : domCur s d ≠ v) :
    (domainRequest s a d v t).getF Reg.PSEQ_REQ 0 d = v ∧
      TransStarted ((s.atTime t).setF Reg.PSEQ_REQ 0 d v) { dom := d, target := v, since := max s.now t } (domainRequest s a d v t) := by
  have hno : ¬(!domAllowed s d v) = true := by
    rw [hall]
    decide
  rw [domainRequest_heard hmay hd hen, if_neg h3, if_neg hno, if_neg hne]
  have hstart := startTrans_started ((s.atTime t).setF Reg.PSEQ_REQ 0 d v) d v
  refine ⟨(hstart.fields _ _ _ ?_).trans ((State.getF_setF_same ..).trans (Nat.mod_eq_of_lt hv)), hstart⟩
  have hint : (Hdr.INT_STATUS 19 0).key 0 0 ≠ Reg.PSEQ_REQ.key 0 d := seqHeader_key_ne (by decide) ⟨rfl, rfl, rfl⟩ d
  simp only [List.mem_cons, List.not_mem_nil, or_false, not_or]
  exact ⟨req_key_ne_cur d d, hint.symm⟩

end

/-! What a domain loses. -/

/-- Is this the place of a register of POWER_SEQ? -/
def seqKey (k : Nat) : Bool := (regPlace (k / 8)).any (fun p => p.ty == 19)

/-- The loss of a cluster or of a region keeps the registers of POWER_SEQ, DRAM and the power state, the times of gating apart. -/
structure SeqKept (s u : State) : Prop where
  fields : ∀ (g : Fld) (i k : Nat), seqKey (g.key i k) = true → u.getF g i k = s.getF g i k
  power : u.power = { s.power with gatedAt := u.power.gatedAt }
  dram : u.dram = s.dram

namespace SeqKept

theorem refl (s : State) : SeqKept s s := ⟨fun _ _ _ _ => rfl, rfl, rfl⟩

theorem trans {s t u : State} (hst : SeqKept s t) (htu : SeqKept t u) : SeqKept s u :=
  ⟨fun g i k h => (htu.fields g i k h).trans (hst.fields g i k h), htu.power.trans (by rw [hst.power]), htu.dram.trans hst.dram⟩

theorem foldl {α : Type} {g : State → α → State} (h : ∀ s a, SeqKept s (g s a)) (l : List α) (s : State) : SeqKept s (l.foldl g s) := by
  induction l generalizing s with
  | nil => exact refl s
  | cons a l ih => exact (h s a).trans (ih _)

theorem modTile (s : State) (i : TileId) (f : Tile → Tile) : SeqKept s (s.modTile i f) := ⟨fun _ _ _ _ => rfl, rfl, rfl⟩

theorem dropPage (s : State) {ty : Nat} (hty : ty ≠ 19) (inst : Nat) (keep : List Fld) : SeqKept s (dropPage s ty inst keep) := by
  refine ⟨fun g i k h => ?_, rfl, rfl⟩
  unfold State.getF
  refine congrArg (fun r => Option.getD r _) (regFind_filter_keep s.regs (fun k => match regPlace (k / 8) with
    | some p => !(p.ty == ty && p.inst == inst) || keep.any (fun f => f.key inst 0 == k)
    | none => true) ?_)
  unfold seqKey at h
  cases hp : regPlace (g.key i k / 8) with
  | none => rfl
  | some p =>
    rw [hp, Option.any_some, beq_iff_eq] at h
    simp [h, hty.symm]

end SeqKept

/-- A tile at reset, with the pantry that it had. -/
def Tile.cleared (t : Tile) : Tile := { Tile.reset with pantry := t.pantry }

/-- A tile whose pantry has lost its state. -/
def Tile.pantryCleared (t : Tile) : Tile := { t with pantry := Tile.reset.pantry }

/-- A tile whose cluster goes off. -/
def tileOff (s : State) (i : TileId) : State := dropPage (s.modTile i Tile.cleared) 1 i [Reg.TILE_LOGICAL_X, Reg.TILE_MAP_STATE]

/-- A tile of region `r` whose pantry goes off with the region; other tiles stay. -/
def pantryOff (r : Nat) (s : State) (i : TileId) : State :=
  if regionOf (i.val / 4) = 32 + r then dropPage (s.modTile i Tile.pantryCleared) 2 i [] else s

/-- The pages of the blocks of a region are lost. -/
def regionPages (r : Nat) (s : State) : State :=
  (List.range 3).foldl (fun s k => dropPage s 5 (3 * r + k) []) (dropPage (dropPage s 3 r []) 4 r [])

theorem clusterLost_eq (s : State) (c : Nat) : clusterLost s c =
    { (clusterTiles c).foldl tileOff s with
      loaded := ((clusterTiles c).foldl tileOff s).loaded.filter (fun x => x.1 / 4 != c)
      power := { ((clusterTiles c).foldl tileOff s).power with
        gatedAt := ((clusterTiles c).foldl tileOff s).power.gatedAt.filter (·.1 != c) } } := rfl

theorem regionLost_eq (s : State) (r : Nat) : regionLost s r = regionPages r ((List.finRange 128).foldl (pantryOff r) s) := rfl

theorem clusterLost_seq (s : State) (c : Nat) : SeqKept s (clusterLost s c) := by
  have h := SeqKept.foldl (g := tileOff) (fun s i => (SeqKept.modTile s i _).trans (SeqKept.dropPage _ (by decide) _ _)) (clusterTiles c) s
  exact ⟨h.fields, by rw [clusterLost_eq, h.power], h.dram⟩

theorem regionPages_seq (r : Nat) (s : State) : SeqKept s (regionPages r s) :=
  ((SeqKept.dropPage s (by decide) r []).trans (SeqKept.dropPage _ (by decide) r [])).trans
    (SeqKept.foldl (fun s k => SeqKept.dropPage s (by decide) _ _) _ _)

theorem regionLost_seq (s : State) (r : Nat) : SeqKept s (regionLost s r) := by
  have htile (s : State) (i : TileId) : SeqKept s (pantryOff r s i) := by
    unfold pantryOff
    split
    · exact (SeqKept.modTile s i _).trans (SeqKept.dropPage _ (by decide) _ _)
    · exact SeqKept.refl s
  rw [regionLost_eq]
  exact (SeqKept.foldl htile _ s).trans (regionPages_seq r _)

theorem tile_dropPage (s : State) (ty inst : Nat) (keep : List Fld) (i : TileId) : (dropPage s ty inst keep).tile i = s.tile i := rfl

/-- A change of one tile each goes over a list of tiles. -/
theorem tile_foldl {g : State → TileId → State} {C : TileId → Prop} {F : Tile → Tile} (hone : ∀ s i, C i → (g s i).tile i = F (s.tile i))
    (hother : ∀ s i j, j ≠ i → (g s i).tile j = s.tile j) (hF : ∀ t, F (F t) = F t) (l : List TileId) {i : TileId} (hC : C i) (s : State) :
    (l.foldl g s).tile i = if i ∈ l then F (s.tile i) else s.tile i := by
  induction l generalizing s with
  | nil => simp
  | cons a l ih =>
    rw [List.foldl_cons, ih]
    by_cases ha : i = a
    · subst ha
      simp [hone s i hC, hF]
    · simp [hother s a i ha, ha]

theorem clusterLost_tile (s : State) {c : Nat} {i : TileId} (h : i.val / 4 = c) :
    (clusterLost s c).tile i = { Tile.reset with pantry := (s.tile i).pantry } := by
  have hmem : i ∈ clusterTiles c := by simp [clusterTiles, h]
  exact (tile_foldl (g := tileOff) (C := fun _ => True) (F := Tile.cleared) (fun s i _ => (tile_dropPage ..).trans (State.tile_modTile ..))
    (fun s i j hj => (tile_dropPage ..).trans (State.tile_modTile_ne s _ hj)) (fun _ => rfl) (clusterTiles c) trivial s).trans (if_pos hmem)

theorem regionPages_tiles (r : Nat) (s : State) : (regionPages r s).tiles = s.tiles := by
  have hdrop (l : List Nat) (v : State) : (l.foldl (fun s k => dropPage s 5 (3 * r + k) []) v).tiles = v.tiles := by
    induction l generalizing v with
    | nil => rfl
    | cons k l ih => exact ih _
  exact hdrop _ _

theorem regionLost_pantry (s : State) {r : Nat} {i : TileId} (h : regionOf (i.val / 4) = 32 + r) :
    ((regionLost s r).tile i).pantry = Tile.reset.pantry := by
  have hother (s : State) (i j : TileId) (hj : j ≠ i) : (pantryOff r s i).tile j = s.tile j := by
    unfold pantryOff
    split
    · exact (tile_dropPage ..).trans (State.tile_modTile_ne s _ hj)
    · rfl
  have hone (s : State) (i : TileId) (hi : regionOf (i.val / 4) = 32 + r) : (pantryOff r s i).tile i = (s.tile i).pantryCleared := by
    rw [pantryOff, if_pos hi]
    exact (tile_dropPage ..).trans (State.tile_modTile ..)
  have hfold := (tile_foldl (g := pantryOff r) (C := fun i => regionOf (i.val / 4) = 32 + r) (F := Tile.pantryCleared) hone
    hother (fun _ => rfl) (List.finRange 128) h s).trans (if_pos (List.mem_finRange i))
  rw [regionLost_eq, State.tile, regionPages_tiles]
  exact (congrArg Tile.pantry hfold :)

/-! The end of a transition. -/

/-- What a domain that has reached `v` leaves. -/
structure Arrived (s : State) (d v : Nat) (u : State) : Prop where
  cur : domCur u d = v
  fields : ∀ (g : Fld) (i k : Nat), seqKey (g.key i k) = true → g.key i k ∉ [Reg.PSEQ_CUR.key 0 d, (Hdr.INT_STATUS 19 0).key 0 0] →
    u.getF g i k = s.getF g i k
  error : bit (u.getF (Hdr.INT_STATUS 19 0) 0 0) 0 = bit (s.getF (Hdr.INT_STATUS 19 0) 0 0) 0
  power : u.power = { s.power with gatedAt := u.power.gatedAt }
  dram : u.dram = s.dram
  cluster : d < 32 → v = 0 → ∀ i : TileId, i.val / 4 = d → u.tile i = { Tile.reset with pantry := (s.tile i).pantry }
  region : 32 ≤ d → d < 40 → v = 0 → ∀ i : TileId, regionOf (i.val / 4) = d → (u.tile i).pantry = Tile.reset.pantry

/-- The state that a domain loses as it reaches `v`. -/
def arrivalLoss (s : State) (d v : Nat) : State :=
  if v ≠ 0 then s else if isCluster d then clusterLost s d else if isRegion d then regionLost s (d - 32) else s

/-- A cluster that is GATED, and since when. -/
def gatedNote (s : State) (d v : Nat) : State :=
  if isCluster d then
    { s with power := { s.power with gatedAt := s.power.gatedAt.filter (·.1 != d) ++ (if v = 1 then [(d, s.now)] else []) } }
  else s

theorem domArrived_eq (s : State) (d v : Nat) : domArrived s d v = setDomCur (gatedNote (arrivalLoss s d v) d v) d v := rfl

theorem arrivalLoss_seq (s : State) (d v : Nat) : SeqKept s (arrivalLoss s d v) := by
  unfold arrivalLoss
  split
  · exact SeqKept.refl s
  split
  · exact clusterLost_seq s d
  split
  · exact regionLost_seq s _
  · exact SeqKept.refl s

theorem gatedNote_seq (s : State) (d v : Nat) : SeqKept s (gatedNote s d v) := by
  unfold gatedNote
  split
  · exact ⟨fun _ _ _ _ => rfl, rfl, rfl⟩
  · exact SeqKept.refl s

theorem gatedNote_tiles (s : State) (d v : Nat) : (gatedNote s d v).tiles = s.tiles := by
  unfold gatedNote
  split <;> rfl

theorem setDomCur_error (s : State) (d v : Nat) :
    bit ((setDomCur s d v).getF (Hdr.INT_STATUS 19 0) 0 0) 0 = bit (s.getF (Hdr.INT_STATUS 19 0) 0 0) 0 := by
  unfold setDomCur
  split
  · rfl
  · rw [bit_raise_ne _ _ _ _ (by decide) (by decide), State.getF_setF_ne _ _ (seqHeader_key_ne (by decide) ⟨rfl, rfl, rfl⟩ d).symm]

theorem domArrived_arrived (s : State) (d : Nat) {v : Nat} (hv : v < 4) : Arrived s d v (domArrived s d v) := by
  have hseq := (arrivalLoss_seq s d v).trans (gatedNote_seq _ d v)
  have htiles : (gatedNote (arrivalLoss s d v) d v).tiles = (arrivalLoss s d v).tiles := gatedNote_tiles ..
  rw [domArrived_eq]
  generalize gatedNote (arrivalLoss s d v) d v = w at hseq htiles ⊢
  obtain ⟨hcur, -, hrest, hfields⟩ := setDomCur_takes w d hv
  have hpower := (congrArg State.power hrest :)
  have htile (i : TileId) : (setDomCur w d v).tile i = (arrivalLoss s d v).tile i := by
    rw [State.tile, State.tile, (congrArg State.tiles hrest :).trans htiles]
  refine ⟨hcur, fun g i k hk hne => (hfields g i k hne).trans (hseq.fields g i k hk), ?_, ?_, (congrArg State.dram hrest :).trans hseq.dram,
    fun hd h0 i hi => (htile i).trans ?_, fun hlo hhi h0 i hi => (congrArg Tile.pantry (htile i)).trans ?_⟩
  · rw [setDomCur_error, hseq.fields _ _ _ (by decide)]
  · rw [hpower, hseq.power]
  · rw [arrivalLoss, if_neg (not_not_intro h0), if_pos (by simp [isCluster, hd])]
    exact clusterLost_tile s hi
  · rw [arrivalLoss, if_neg (not_not_intro h0), if_neg (by simp [isCluster, hlo]), if_pos (by simp [isRegion, hlo, hhi])]
    exact regionLost_pantry s (by omega)

section
variable {s : State} {d t : Nat} {x : DomTrans}

/-- The transition of a domain is over. -/
def transDropped (s : State) (d t : Nat) : State :=
  { s.atTime t with power := { s.power with trans := s.power.trans.filter (fun y => y.dom != d) } }

theorem domainEnd_eq (hx : s.power.trans.find? (fun x => x.dom == d) = some x) (hlate : transLate s x t = false)
    (hreq : (domArrived (transDropped s d t) d x.target).getF Reg.PSEQ_REQ 0 d = x.target) (hd : d < 40 ∨ 44 ≤ d) :
    domainEnd s d t = settleRegions (domArrived (transDropped s d t) d x.target) := by
  have hno : ¬transLate s x t = true := by
    rw [hlate]
    decide
  have hphy : ¬(40 ≤ d ∧ d < 44) := by omega
  unfold domainEnd
  rw [hx]
  dsimp only
  rw [if_neg hno, if_neg hphy]
  refine congrArg settleRegions (if_neg fun h => h.1 ?_)
  exact hreq

/-- A cluster whose transition failed is noted for the next start. -/
def clusterFailed (s : State) (d : Nat) : State :=
  if isCluster d then { s with power := { s.power with failedClusters := s.power.failedClusters.filter (· != d) ++ [d] } } else s

theorem domainTimeout_eq (hx : s.power.trans.find? (fun x => x.dom == d) = some x) (hlate : transLate s x t = true) :
    domainTimeout s d t =
      clusterFailed (((domArrived (transDropped s d t) d 0).setF Reg.PSEQ_FAULT 0 d 1).recordErr 19 0 0 0x0706 d 0) d := by
  unfold domainTimeout
  rw [hx]
  dsimp only
  rw [hlate, if_neg (by decide)]
  rfl

theorem clusterFailed_takes (s : State) (d : Nat) :
    (clusterFailed s d).regs = s.regs ∧ (clusterFailed s d).power.trans = s.power.trans ∧ (d < 32 → d ∈ (clusterFailed s d).power.failedClusters) := by
  unfold clusterFailed
  split
  · exact ⟨rfl, rfl, fun _ => List.mem_append_right _ (List.mem_singleton.mpr rfl)⟩
  · next h => exact ⟨rfl, rfl, fun hd => absurd (decide_eq_true hd) h⟩

/-- The words of the domains lie outside the error fields of their page. -/
theorem seqBit_free {lsb : Nat} (hlsb : lsb < 32) (hd : d < 50) : (8 * (0x100 + 4 * d) + lsb) % 0x8000 ∉ [0x80, 0xE0, 0x100, 0x120] := by
  simp only [List.mem_cons, List.not_mem_nil, or_false]
  omega

theorem bitOnPage_seq {f : Fld} (hf : f.pg = 0 ∧ f.off = 0x100 ∧ f.step = 4 ∧ f.per = 1 ∧ f.bitStep = 0) (d : Nat) :
    f.bitOnPage d = 8 * (0x100 + 4 * d) + f.lsb := by
  obtain ⟨hpg, hoff, hstep, hper, hbit⟩ := hf
  simp only [Fld.bitOnPage, hoff, hstep, hper, hbit, Nat.div_one]
  omega

/-- A transition that has not ended in time. -/
theorem domainTimeout_takes (hx : s.power.trans.find? (fun x => x.dom == d) = some x) (hlate : transLate s x t = true) (hd : d < 50) :
    let u := domainTimeout s d t
    domCur u d = 0 ∧ u.getF Reg.PSEQ_FAULT 0 d = 1 ∧ u.power.trans = s.power.trans.filter (fun y => y.dom != d) ∧
      (d < 32 → d ∈ u.power.failedClusters) ∧
      (bit (s.getF (Hdr.INT_STATUS 19 0) 0 0) 0 = false → u.getF (Hdr.ERR_CODE 19 0) 0 0 = 0x0706 ∧ u.getF (Hdr.ERR_INFO0 19 0) 0 0 = d) := by
  obtain ⟨hcur, -, herror, hpower, -⟩ := domArrived_arrived (transDropped s d t) d (v := 0) (by decide)
  rw [domainTimeout_eq hx hlate]
  generalize domArrived (transDropped s d t) d 0 = w at hcur herror hpower ⊢
  have hclean : bit ((w.setF Reg.PSEQ_FAULT 0 d 1).getF (Hdr.INT_STATUS 19 0) 0 0) 0 = bit (s.getF (Hdr.INT_STATUS 19 0) 0 0) 0 := by
    rw [State.getF_setF_ne _ _ (seqHeader_key_ne (by decide) ⟨rfl, rfl, rfl⟩ d).symm]
    exact herror
  have hkept {f : Fld} (hf : f.pg = 0 ∧ f.off = 0x100 ∧ f.step = 4 ∧ f.per = 1 ∧ f.bitStep = 0) (hlsb : f.lsb < 32) :
      ((w.setF Reg.PSEQ_FAULT 0 d 1).recordErr 19 0 0 0x0706 d 0).getF f 0 d = (w.setF Reg.PSEQ_FAULT 0 d 1).getF f 0 d := by
    refine getF_recordErr_ne _ _ _ _ _ _ _ ?_ _
    rw [bitOnPage_seq hf]
    exact seqBit_free hlsb hd
  have hcur' := (hkept (f := Reg.PSEQ_CUR) (by decide) (by decide)).trans ((State.getF_setF_ne _ _ (fault_key_ne_cur d d)).trans hcur)
  have hfault := (hkept (f := Reg.PSEQ_FAULT) (by decide) (by decide)).trans (State.getF_setF_same ..)
  have herr (h : bit (s.getF (Hdr.INT_STATUS 19 0) 0 0) 0 = false) := recordErr_fields (hclean.trans h) 0x0706 d 0
  have htrans : ((w.setF Reg.PSEQ_FAULT 0 d 1).recordErr 19 0 0 0x0706 d 0).power.trans = s.power.trans.filter (fun y => y.dom != d) :=
    (congrArg (fun u => u.power.trans) (recordErr_same (w.setF Reg.PSEQ_FAULT 0 d 1) ..)).trans (congrArg Power.trans hpower)
  generalize (w.setF Reg.PSEQ_FAULT 0 d 1).recordErr 19 0 0 0x0706 d 0 = r at herr hcur' hfault htrans ⊢
  obtain ⟨hregs, hpow, hfailed⟩ := clusterFailed_takes r d
  refine ⟨(getF_of_regs hregs ..).trans hcur', (getF_of_regs hregs ..).trans hfault, hpow.trans htrans, hfailed, fun h => ?_⟩
  obtain ⟨hcode, hinfo⟩ := herr h
  exact ⟨(getF_of_regs hregs ..).trans hcode, (getF_of_regs hregs ..).trans (hinfo.trans (Nat.mod_eq_of_lt (Nat.lt_trans hd (by decide))))⟩

end

/-! Banks under a GATED cluster. -/

section
variable {s u : State} {i j : TileId}

/-- Tile `i` and the states of its banks stay, and no bank is forgotten that went to RETENTION with its cluster. -/
structure BanksKept (i : TileId) (s u : State) : Prop where
  tile : u.tile i = s.tile i
  cur : ∀ b < 40, u.getF Reg.PANTRY_BANK_CUR i b = s.getF Reg.PANTRY_BANK_CUR i b
  gated : ∀ x ∈ s.power.gateBanks, x ∈ u.power.gateBanks

theorem BanksKept.refl (i : TileId) (s : State) : BanksKept i s s := ⟨rfl, fun _ _ => rfl, fun _ h => h⟩

theorem BanksKept.trans {r s t : State} (h : BanksKept i r s) (h' : BanksKept i s t) : BanksKept i r t :=
  ⟨h'.tile.trans h.tile, fun b hb => (h'.cur b hb).trans (h.cur b hb), fun x hx => h'.gated x (h.gated x hx)⟩

theorem BanksKept.foldl {α : Type} {g : State → α → State} (l : List α) (h : ∀ a ∈ l, ∀ s, BanksKept i s (g s a)) (s : State) :
    BanksKept i s (l.foldl g s) := by
  induction l generalizing s with
  | nil => exact refl i s
  | cons a l ih => exact (h a List.mem_cons_self s).trans (ih (fun b hb => h b (List.mem_cons_of_mem a hb)) _)

theorem bankCur_key_ne {b c : Nat} (hb : b < 40) (hc : c < 40) (h : i ≠ j ∨ b ≠ c) :
    Reg.PANTRY_BANK_CUR.key i b ≠ Reg.PANTRY_BANK_CUR.key j c := by
  have hvals : i.val ≠ j.val ∨ b ≠ c := h.imp_left fun hij e => hij (Fin.ext e)
  simp only [Fld.key, Reg.PANTRY_BANK_CUR, blockBase]
  omega

theorem bankReq_key_ne {b c : Nat} (hb : b < 40) (hc : c < 40) : Reg.PANTRY_BANK_REQ.key i b ≠ Reg.PANTRY_BANK_CUR.key j c := by
  simp only [Fld.key, Reg.PANTRY_BANK_CUR, Reg.PANTRY_BANK_REQ, blockBase]
  omega

theorem mem_gateBank {x : Nat × Nat} (s : State) (j : TileId) (c : Nat) :
    x ∈ (gateBank s j c).power.gateBanks ↔ x ∈ s.power.gateBanks ∨ x = (j.val, c) := by
  simp only [gateBank, List.mem_append, List.mem_filter, bne_iff_ne, List.mem_singleton]
  refine ⟨fun h => h.imp_left And.left, fun h => ?_⟩
  by_cases he : x = (j.val, c)
  · exact Or.inr he
  · exact Or.inl ⟨h.resolve_right he, he⟩

/-- A bank that is ON and has a request to go to RETENTION. -/
def retainBank (j : TileId) (s : State) (c : Nat) : State :=
  if s.getF Reg.PANTRY_BANK_CUR j c = 2 then gateBank (bankRequest s j c 1) j c else s

/-- The banks of a tile go to RETENTION. -/
def retainTile (s : State) (j : TileId) : State := (List.range 40).foldl (retainBank j) s

/-- What a request of a bank that is ON leaves: the other tiles, the states of the other banks and the power state. -/
structure BankAsked (s : State) (j : TileId) (c : Nat) (u : State) : Prop where
  tile : ∀ i, i ≠ j → u.tile i = s.tile i
  cur : ∀ (i : TileId), ∀ b < 40, i ≠ j ∨ b ≠ c → u.getF Reg.PANTRY_BANK_CUR i b = s.getF Reg.PANTRY_BANK_CUR i b
  power : u.power = s.power

/-- Register writes to the bank and a change of its pantry. -/
theorem bankAsked_of {u : State} {c : Nat} (f : Tile → Tile) (hkeys : ChangesAt s u [Reg.PANTRY_BANK_REQ.key j c, Reg.PANTRY_BANK_CUR.key j c])
    (hc : c < 40) : BankAsked s j c (u.modTile j f) := by
  refine ⟨fun i hi => (State.tile_modTile_ne u f hi).trans ?_, fun i b hb hor => (State.getF_modTile ..).trans (hkeys.fields _ _ _ ?_),
    (congrArg State.power hkeys.rest :)⟩
  · exact (congrArg (fun v : State => v.tile i) hkeys.rest :)
  · simp only [List.mem_cons, List.not_mem_nil, or_false, not_or]
    exact ⟨(bankReq_key_ne hc hb).symm, bankCur_key_ne hb hc hor⟩

theorem bankRequest_asked {c : Nat} (hc : c < 40) (hon : s.getF Reg.PANTRY_BANK_CUR j c = 2) : BankAsked s j c (bankRequest s j c 1) := by
  have hcur : (s.setF Reg.PANTRY_BANK_REQ j c 1).getF Reg.PANTRY_BANK_CUR j c = 2 := (State.getF_setF_ne _ _ (bankReq_key_ne hc hc)).trans hon
  unfold bankRequest
  simp only [Nat.reduceEqDiff, if_false, hcur]
  split
  · exact bankAsked_of _ (ChangesAt.setF s _ (by simp)) hc
  · exact bankAsked_of _ ((ChangesAt.setF s _ (by simp)).trans (ChangesAt.setF _ _ (by simp))) hc

/-- A bank that is ON and in no transition begins one. -/
theorem bankRequest_opens {c : Nat} (hc : c < 40) (hp : (s.tile j).pantry.trans.any (·.bank == c) = false)
    (hon : s.getF Reg.PANTRY_BANK_CUR j c = 2) :
    (bankRequest s j c 1).getF Reg.PANTRY_BANK_CUR j c = 3 ∧
      ((bankRequest s j c 1).tile j).pantry.trans = (s.tile j).pantry.trans ++ [{ bank := c, from_ := 2, target := 1, pending := none }] := by
  have hcur : (s.setF Reg.PANTRY_BANK_REQ j c 1).getF Reg.PANTRY_BANK_CUR j c = 2 := (State.getF_setF_ne _ _ (bankReq_key_ne hc hc)).trans hon
  unfold bankRequest
  simp only [Nat.reduceEqDiff, if_false, State.tile_setF, hp, Bool.false_eq_true, hcur]
  exact ⟨(State.getF_modTile ..).trans (State.getF_setF_same ..), congrArg (fun t => t.pantry.trans) (State.tile_modTile ..)⟩

theorem retainBank_other (hij : i ≠ j) {c : Nat} (hc : c < 40) : BanksKept i s (retainBank j s c) := by
  unfold retainBank
  split
  · next hon =>
    obtain ⟨htile, hcur, hpower⟩ := bankRequest_asked hc hon
    generalize bankRequest s j c 1 = w at htile hcur hpower ⊢
    refine ⟨htile i hij, fun b hb => hcur i b hb (Or.inl hij), fun x hx => (mem_gateBank w j c).mpr (Or.inl ?_)⟩
    rwa [hpower]
  · exact BanksKept.refl i s

/-- How the banks of tile `i` stand when those below `n` have been gone over. -/
structure Retaining (i : TileId) (s : State) (n : Nat) (u : State) : Prop where
  known : ∀ x ∈ (u.tile i).pantry.trans, x.bank < n
  rest : ∀ b < 40, n ≤ b ∨ s.getF Reg.PANTRY_BANK_CUR i b ≠ 2 → u.getF Reg.PANTRY_BANK_CUR i b = s.getF Reg.PANTRY_BANK_CUR i b
  sent : ∀ b < n, s.getF Reg.PANTRY_BANK_CUR i b = 2 → u.getF Reg.PANTRY_BANK_CUR i b = 3 ∧ (i.val, b) ∈ u.power.gateBanks ∧
    { bank := b, target := 1, pending := none, from_ := 2 } ∈ (u.tile i).pantry.trans

theorem Retaining.step {n : Nat} (hn : n < 40) (h : Retaining i s n u) : Retaining i s (n + 1) (retainBank i u n) := by
  obtain ⟨hknown, hrest, hsent⟩ := h
  have hcur := hrest n hn (Or.inl (Nat.le_refl n))
  unfold retainBank
  by_cases hon : s.getF Reg.PANTRY_BANK_CUR i n = 2
  · have hnone : (u.tile i).pantry.trans.any (·.bank == n) = false :=
      List.any_eq_false.mpr fun x hx hxn => Nat.lt_irrefl n (beq_iff_eq.mp hxn ▸ hknown x hx)
    obtain ⟨-, hothers, hpower⟩ := bankRequest_asked hn (hcur.trans hon)
    obtain ⟨hself, htile⟩ := bankRequest_opens hn hnone (hcur.trans hon)
    have hgates := congrArg Power.gateBanks hpower
    rw [if_pos (hcur.trans hon)]
    generalize bankRequest u i n 1 = w at hothers hself htile hgates ⊢
    refine ⟨fun x hx => ?_, fun b hb hor => ?_, fun b hb hb2 => ?_⟩
    · rcases List.mem_append.mp ((congrArg (x ∈ ·) htile).mp hx) with hx | hx
      · exact Nat.lt_succ_of_lt (hknown x hx)
      · rw [List.mem_singleton.mp hx]
        exact Nat.lt_succ_self n
    · have hbn : n ≠ b := by
        rintro rfl
        rcases hor with h | h
        · omega
        · exact h hon
      exact (hothers i b hb (Or.inr hbn.symm)).trans (hrest b hb (hor.imp_left fun h => Nat.le_of_succ_le h))
    · by_cases hbn : n = b
      · subst hbn
        exact ⟨hself, (mem_gateBank w i n).mpr (Or.inr rfl), (congrArg (_ ∈ ·) htile).mpr (List.mem_append_right _ (List.mem_singleton.mpr rfl))⟩
      · obtain ⟨h1, h2, h3⟩ := hsent b (by omega) hb2
        exact ⟨(hothers i b (by omega) (Or.inr (Ne.symm hbn))).trans h1, (mem_gateBank w i n).mpr (Or.inl (hgates ▸ h2)),
          (congrArg (_ ∈ ·) htile).mpr (List.mem_append_left _ h3)⟩
  · rw [if_neg (by rwa [hcur])]
    refine ⟨fun x hx => Nat.lt_succ_of_lt (hknown x hx), fun b hb hor => hrest b hb (hor.imp_left fun h => Nat.le_of_succ_le h), fun b hb hb2 => ?_⟩
    have hbn : b ≠ n := by
      rintro rfl
      exact hon hb2
    exact hsent b (by omega) hb2

theorem retainTile_retains (h : (s.tile i).pantry.trans = []) : Retaining i s 40 (retainTile s i) := by
  have hupto (n : Nat) (hn : n ≤ 40) : Retaining i s n ((List.range n).foldl (retainBank i) s) := by
    induction n with
    | zero => exact ⟨fun x hx => by simp [h] at hx, fun _ _ _ => rfl, fun b hb => absurd hb (Nat.not_lt_zero b)⟩
    | succ n ih =>
      rw [List.range_succ, List.foldl_append, List.foldl_cons, List.foldl_nil]
      exact (ih (Nat.le_of_succ_le hn)).step hn
  exact hupto 40 (Nat.le_refl 40)

/-- Over the tiles of a cluster, the banks of each stand as its own pass leaves them. -/
theorem retainTiles_retain {l : List TileId} (hnodup : l.Nodup) (hi : i ∈ l) (h : (s.tile i).pantry.trans = []) :
    Retaining i s 40 (l.foldl retainTile s) := by
  obtain ⟨l₁, l₂, rfl⟩ := List.append_of_mem hi
  obtain ⟨-, hnodup₂, hdisj⟩ := List.nodup_append.mp hnodup
  have hothers {l : List TileId} (hl : i ∉ l) (v : State) : BanksKept i v (l.foldl retainTile v) :=
    BanksKept.foldl l (fun j hj v => BanksKept.foldl _ (fun c hc v => retainBank_other (fun e : i = j => hl (e ▸ hj)) (List.mem_range.mp hc)) v) v
  have hbefore := hothers (fun hmem => hdisj i hmem i List.mem_cons_self rfl) s
  have hafter := hothers (List.nodup_cons.mp hnodup₂).1 (retainTile (l₁.foldl retainTile s) i)
  rw [List.foldl_append, List.foldl_cons]
  generalize l₁.foldl retainTile s = v at hbefore hafter ⊢
  obtain ⟨hknown, hrest, hsent⟩ := retainTile_retains (s := v) (i := i) (by rw [hbefore.tile]; exact h)
  refine ⟨fun x hx => hknown x (by rwa [hafter.tile] at hx), fun b hb hor => ?_, fun b hb hb2 => ?_⟩
  · exact (hafter.cur b hb).trans ((hrest b hb (hor.imp_right fun hne => by rwa [hbefore.cur b hb])).trans (hbefore.cur b hb))
  · obtain ⟨h1, h2, h3⟩ := hsent b hb ((hbefore.cur b hb).trans hb2)
    exact ⟨(hafter.cur b hb).trans h1, hafter.gated _ h2, by rwa [hafter.tile]⟩

theorem bankRetention_eq {c t : Nat} {g : Nat × Nat} (hg : s.power.gatedAt.find? (fun x => x.1 == c) = some g) :
    bankRetention s c t = if !cpUp s 2 ∨ domCur s c ≠ 1 ∨ t < g.2 + 100000000 then s else (clusterTiles c).foldl retainTile (s.atTime t) := by
  unfold bankRetention
  rw [hg]
  rfl

end

/-! Regions without users. -/

section
variable {s : State} {r : Nat}

/-- Requests for domains of a list leave the registers below INT_STATUS of POWER_SEQ, the CUR of the other domains, the tiles and DRAM, and
drop no transition. -/
structure SeqCalm (ds : List Nat) (s u : State) : Prop where
  low : ∀ (g : Fld) (i k : Nat), g.key i k < 8 * 0x726010 → u.getF g i k = s.getF g i k
  cur : ∀ e, e ∉ ds → domCur u e = domCur s e
  tiles : u.tiles = s.tiles
  dram : u.dram = s.dram
  trans : ∀ x ∈ s.power.trans, x ∈ u.power.trans

namespace SeqCalm
variable {ds : List Nat} {t u : State}

theorem refl (ds : List Nat) (s : State) : SeqCalm ds s s := ⟨fun _ _ _ _ => rfl, fun _ _ => rfl, rfl, rfl, fun _ h => h⟩

theorem atTime (ds : List Nat) (s : State) (t : Nat) : SeqCalm ds s (s.atTime t) := ⟨fun _ _ _ _ => rfl, fun _ _ => rfl, rfl, rfl, fun _ h => h⟩

theorem thenCalm (h : SeqCalm ds s t) (h' : SeqCalm ds t u) : SeqCalm ds s u :=
  ⟨fun g i k hk => (h'.low g i k hk).trans (h.low g i k hk), fun e he => (h'.cur e he).trans (h.cur e he), h'.tiles.trans h.tiles,
    h'.dram.trans h.dram, fun x hx => h'.trans x (h.trans x hx)⟩

theorem mono {es : List Nat} (h : SeqCalm ds s u) (hsub : ∀ e ∈ ds, e ∈ es) : SeqCalm es s u :=
  ⟨h.low, fun e he => h.cur e fun hd => he (hsub e hd), h.tiles, h.dram, h.trans⟩

theorem foldl {α : Type} {g : State → α → State} (l : List α) (h : ∀ a ∈ l, ∀ s, SeqCalm ds s (g s a)) (s : State) : SeqCalm ds s (l.foldl g s) := by
  induction l generalizing s with
  | nil => exact refl ds s
  | cons a l ih => exact (h a List.mem_cons_self s).thenCalm (ih (fun b hb => h b (List.mem_cons_of_mem a hb)) _)

theorem setReq (s : State) (d v : Nat) : SeqCalm [d] s (s.setF Reg.PSEQ_REQ 0 d v) := by
  refine ⟨fun g i k hk => State.getF_setF_ne _ _ fun e => ?_, fun e he => State.getF_setF_ne _ _ (req_key_ne_cur d e), rfl, rfl, fun _ h => h⟩
  have hreq : 8 * 0x726100 ≤ Reg.PSEQ_REQ.key 0 d := by
    simp only [Fld.key, Reg.PSEQ_REQ, blockBase]
    omega
  omega

theorem ofStarted {x : DomTrans} (h : TransStarted s x u) : SeqCalm [x.dom] s u := by
  refine ⟨fun g i k hk => h.fields g i k ?_, fun e he => h.other e (by simpa using he), h.tiles, h.dram, fun y hy => ?_⟩
  · have hcur : 8 * 0x726100 ≤ Reg.PSEQ_CUR.key 0 x.dom := by
      simp only [Fld.key, Reg.PSEQ_CUR, blockBase]
      omega
    have hint : (Hdr.INT_STATUS 19 0).key 0 0 = 8 * 0x726010 := by decide
    simp only [List.mem_cons, List.not_mem_nil, or_false, not_or]
    omega
  · rw [h.trans]
    exact List.mem_append_left _ hy

end SeqCalm

theorem domainRequest_calm (s : State) (a : Actor) (d v t : Nat) (hd : d < 50) : SeqCalm [d] s (domainRequest s a d v t) := by
  have hreq : SeqCalm [d] s ((s.atTime t).setF Reg.PSEQ_REQ 0 d v) := (SeqCalm.atTime _ s t).thenCalm (SeqCalm.setReq (s.atTime t) d v)
  cases hmay : mayAsk s a d v with
  | false =>
    rw [domainRequest_refused (Or.inl hmay)]
    exact SeqCalm.refl _ s
  | true =>
    by_cases hen : s.getF (Hdr.ENABLE 19) 0 0 = 0
    · rw [domainRequest_refused (Or.inr hen)]
      exact SeqCalm.refl _ s
    · rw [domainRequest_heard hmay hd hen]
      split
      · split
        · exact hreq
        · exact SeqCalm.atTime _ s t
      split
      · exact SeqCalm.atTime _ s t
      split
      · exact hreq
      · exact hreq.thenCalm (SeqCalm.ofStarted (startTrans_started _ d v))

/-- CP2 has region `r` go OFF, and before it its KPHY where its other region is idle too. -/
def settleRegion (s : State) (r : Nat) : State :=
  if !regionIdle s r ∨ domCur s (32 + r) ≠ 2 then s
  else
    let k := 40 + r / 2
    let s := if domCur s k = 2 && regionIdle s (2 * (r / 2)) && regionIdle s (2 * (r / 2) + 1) then domainRequest s (.cp 2) k 0 s.now else s
    domainRequest s (.cp 2) (32 + r) 0 s.now

theorem settleRegions_eq (s : State) : settleRegions s = if !cpUp s 2 then s else (List.range 8).foldl settleRegion s := rfl

theorem settleRegion_calm (s : State) (hr : r < 8) : SeqCalm [32 + r, 40 + r / 2] s (settleRegion s r) := by
  unfold settleRegion
  dsimp only
  split
  · exact SeqCalm.refl _ s
  · have hregion (v : State) : SeqCalm [32 + r, 40 + r / 2] v (domainRequest v (.cp 2) (32 + r) 0 v.now) :=
      (domainRequest_calm v _ _ 0 _ (by omega)).mono (by simp)
    split
    · exact ((domainRequest_calm s _ _ 0 _ (by omega)).mono (by simp)).thenCalm (hregion _)
    · exact hregion s

/-- A KPHY that is OFF stays OFF. -/
theorem settleRegion_phyOff {k : Nat} (hr : r < 8) (hk : k < 4) (hoff : domCur s (40 + k) = 0) : domCur (settleRegion s r) (40 + k) = 0 := by
  by_cases hkr : k = r / 2
  · unfold settleRegion
    dsimp only
    split
    · exact hoff
    · rw [if_neg (by rw [← hkr, hoff]; exact Bool.false_ne_true)]
      exact ((domainRequest_calm s _ _ 0 _ (by omega)).cur _ (by simp; omega)).trans hoff
  · exact ((settleRegion_calm s hr).cur _ (by simp; omega)).trans hoff

theorem any_range_congr {n : Nat} {p q : Nat → Bool} (h : ∀ k < n, p k = q k) : (List.range n).any p = (List.range n).any q := by
  refine Bool.eq_iff_iff.mpr ?_
  simp only [List.any_eq_true, List.mem_range]
  exact exists_congr fun k => and_congr_right fun hk => by rw [h k hk]

theorem all_range_congr {n : Nat} {p q : Nat → Bool} (h : ∀ k < n, p k = q k) : (List.range n).all p = (List.range n).all q := by
  refine Bool.eq_iff_iff.mpr ?_
  simp only [List.all_eq_true, List.mem_range]
  exact forall₂_congr fun k hk => by rw [h k hk]

theorem regionIdle_calm {ds : List Nat} {u : State} (h : SeqCalm ds s u) (hds : ∀ e ∈ ds, 32 ≤ e) (hr : r < 8) : regionIdle u r = regionIdle s r := by
  have hchan (k : Nat) (hk : k < 3) : chanInService u (3 * r + k) = chanInService s (3 * r + k) := by
    unfold chanInService
    rw [h.low]
    simp only [Fld.key, Reg.DDR_STATE, blockBase]
    omega
  have hport : u.getF (Hdr.ENABLE 4) r 0 = s.getF (Hdr.ENABLE 4) r 0 := by
    refine h.low _ _ _ ?_
    simp only [Fld.key, Hdr.ENABLE, blockBase]
    omega
  have hcru (k : Nat) (hk : k < 2) : u.getF Reg.CH_EN r k = s.getF Reg.CH_EN r k := by
    refine h.low _ _ _ ?_
    simp only [Fld.key, Reg.CH_EN, blockBase]
    omega
  have hused : regionUsed u r = regionUsed s r := by
    unfold regionUsed
    rw [hport]
    refine congr (congrArg or (congr (congrArg or ?_) rfl)) ?_
    · exact any_range_congr hchan
    · exact any_range_congr fun k hk => congrArg (· == 1) (hcru k hk)
  unfold regionIdle
  rw [hused]
  refine congrArg (and _) (all_range_congr fun c hc => ?_)
  rw [h.cur c fun hmem => Nat.not_le.mpr hc (hds c hmem)]

theorem settleRegion_busy (h : regionIdle s r = false) : settleRegion s r = s := if_pos (Or.inl (by rw [h]; rfl))

/-- The regions of a list are gone over without region `r`. -/
theorem settleOthers_calm (l : List Nat) (hl : ∀ q ∈ l, q < 8) (s : State) : SeqCalm ((List.range 12).map (32 + ·)) s (l.foldl settleRegion s) := by
  refine SeqCalm.foldl l (fun q hq s => (settleRegion_calm s (hl q hq)).mono fun e he => ?_) s
  have := hl q hq
  simp only [List.mem_cons, List.not_mem_nil, or_false] at he
  simp only [List.mem_map, List.mem_range]
  exact ⟨e - 32, by omega, by omega⟩

theorem region_kept {l : List Nat} (hl : ∀ q ∈ l, q < 8) (hr : r < 8) (hnot : r ∉ l) (s : State) :
    domCur (l.foldl settleRegion s) (32 + r) = domCur s (32 + r) := by
  induction l generalizing s with
  | nil => rfl
  | cons q l ih =>
    have hq := hl q List.mem_cons_self
    have hne : r ≠ q := fun e => hnot (e ▸ List.mem_cons_self)
    rw [List.foldl_cons, ih (fun x hx => hl x (List.mem_cons_of_mem q hx)) (fun h => hnot (List.mem_cons_of_mem q h))]
    exact (settleRegion_calm s hq).cur _ (by simp; omega)

theorem phy_keptOff {l : List Nat} (hl : ∀ q ∈ l, q < 8) {k : Nat} (hk : k < 4) (hoff : domCur s (40 + k) = 0) :
    domCur (l.foldl settleRegion s) (40 + k) = 0 := by
  induction l generalizing s with
  | nil => exact hoff
  | cons q l ih => exact ih (fun x hx => hl x (List.mem_cons_of_mem q hx)) (settleRegion_phyOff (hl q List.mem_cons_self) hk hoff)

theorem range_split (hr : r < 8) : ∃ l₁ l₂, List.range 8 = l₁ ++ r :: l₂ ∧ r ∉ l₁ ∧ r ∉ l₂ ∧ (∀ q ∈ l₁, q < 8) ∧ ∀ q ∈ l₂, q < 8 := by
  obtain ⟨l₁, l₂, heq⟩ := List.append_of_mem (List.mem_range.mpr hr)
  have hnodup : (l₁ ++ r :: l₂).Nodup := heq ▸ List.nodup_range
  have hlt : ∀ q ∈ l₁ ++ r :: l₂, q < 8 := fun q hq => List.mem_range.mp (heq ▸ hq)
  obtain ⟨-, hnodup₂, hdisj⟩ := List.nodup_append.mp hnodup
  exact ⟨l₁, l₂, heq, fun h => hdisj r h r List.mem_cons_self rfl, (List.nodup_cons.mp hnodup₂).1,
    fun q hq => hlt q (List.mem_append_left _ hq), fun q hq => hlt q (List.mem_append_right _ (List.mem_cons_of_mem r hq))⟩

/-- What needs a region ON: its clusters and its KPHY. -/
theorem domUsers_region (hr : r < 8) : ∀ e ∈ domUsers (32 + r), (e < 32 ∧ regionOf e = 32 + r) ∨ e = 40 + r / 2 := by
  decide +revert

theorem regionIdle_iff : regionIdle s r = true ↔ regionUsed s r = false ∧ ∀ c < 32, regionOf c = 32 + r → domCur s c = 0 := by
  simp only [regionIdle, Bool.and_eq_true, Bool.not_eq_true', List.all_eq_true, List.mem_range, Bool.or_eq_true, bne_iff_ne, beq_iff_eq]
  refine and_congr_right fun _ => forall₂_congr fun c _ => ?_
  exact ⟨fun h he => h.resolve_left fun hne => hne he, fun h => (Classical.em (regionOf c = 32 + r)).symm.imp id h⟩

theorem settleRegion_starts (hr : r < 8) (hen : s.getF (Hdr.ENABLE 19) 0 0 ≠ 0) (hidle : regionIdle s r = true) (hon : domCur s (32 + r) = 2)
    (hphy : domCur s (40 + r / 2) = 0) :
    domCur (settleRegion s r) (32 + r) = 3 ∧ { dom := 32 + r, target := 0, since := s.now } ∈ (settleRegion s r).power.trans := by
  obtain ⟨hused, hclusters⟩ := regionIdle_iff.mp hidle
  have hno : ¬((!regionIdle s r) = true ∨ domCur s (32 + r) ≠ 2) := by
    rw [hidle, hon]
    decide
  have hrun : settleRegion s r = domainRequest s (.cp 2) (32 + r) 0 s.now := by
    unfold settleRegion
    dsimp only
    rw [if_neg hno, if_neg (by rw [hphy]; exact Bool.false_ne_true)]
  have hall : domAllowed s (32 + r) 0 = true := by
    have husers : (domUsers (32 + r)).all (fun e => domCur s e == 0) = true := List.all_eq_true.mpr fun e he => beq_iff_eq.mpr (by
      rcases domUsers_region hr e he with ⟨hlt, hof⟩ | rfl
      · exact hclusters e hlt hof
      · exact hphy)
    have hnot : isCluster (32 + r) = false := by simp [isCluster]
    have haon : 32 + r ≠ domAon := by
      unfold domAon
      omega
    simp only [domAllowed, haon, hnot, husers, show 32 + r - 32 = r by omega, hused, Nat.reduceEqDiff, decide_false,
      Bool.false_and, Bool.and_false, Bool.false_eq_true, or_false, if_false, if_true, Bool.not_false, Bool.and_true]
  obtain ⟨-, htrans, hcur, -⟩ := domainRequest_starts (s := s) (a := .cp 2) (t := s.now) rfl (show 32 + r < 50 by omega) hen (by decide) (by rw [hon]; decide)
    hall (by rw [hon]; decide)
  rw [hrun]
  refine ⟨hcur, ?_⟩
  rw [htrans, Nat.max_self]
  exact List.mem_append_right _ (List.mem_singleton.mpr rfl)

end

theorem mayAsk_iff (s : State) (a : Actor) (d : Fin 50) (w : BitVec 2) :
    mayAsk s a d w.toNat = true ↔ a = .cp 2 ∨ (a = .cp 0 ∧ (s.power.startDue.isSome = true ∨ fwState s ≤ 1)) ∨ (a = .cp 1 ∧ w = 2#2 ∧ d.val < 40) := by
  have hw : w.toNat = 2 ↔ w = 2#2 := by bv_omega
  rw [mayAsk, Bool.or_eq_true, powerWriter_iff, Bool.and_eq_true, Bool.and_eq_true, beq_iff_eq, beq_iff_eq, decide_eq_true_eq, hw, or_assoc, and_assoc]

theorem seqKey_req (d : Fin 50) : seqKey (Reg.PSEQ_REQ.key 0 d) = true := by decide +revert

theorem calmDomains_ge : ∀ e ∈ (List.range 12).map (32 + ·), 32 ≤ e := by decide

section
variable {s : State} {c t : Nat}

/-- A cluster on which no unit has run for 1 ms. -/
theorem clusterIdle_asks (hc : c < 32) (hcp : s.getF Reg.CP_STATE 2 0 = 2) (hunits : ∀ q ∈ s.queues, q.unit = none) (hon : domCur s c = 2)
    (hidle : ((s.power.idleAt.find? (fun x => x.1 == c)).map (fun x => x.2)).getD 0 + 1000000 ≤ t) :
    clusterIdle s c t = domainRequest s (.cp 2) c 1 t := by
  unfold clusterIdle
  dsimp only
  rw [cpUp, hcp, hon]
  refine if_neg ?_
  simp only [not_or]
  refine ⟨Nat.not_le.mpr hc, by decide, Bool.eq_false_iff.mp (List.any_eq_false.mpr fun q hq => ?_), by decide, Nat.not_lt.mpr hidle⟩
  rw [hunits q hq]
  exact Bool.false_ne_true

/-- An idle cluster that is ON may be GATED. -/
theorem domAllowed_gated (hc : c < 32) (hon : domCur s c = 2) (hregion : domCur s (regionOf c) = 2) (hserves : clusterServes s c = true)
    (hbusy : clusterBusy s c = false) : domAllowed s c 1 = true := by
  have hcluster : isCluster c = true := decide_eq_true hc
  have haon : c ≠ domAon := by
    unfold domAon
    omega
  have hneeds : domNeeds c = [regionOf c] := if_pos hc
  simp [domAllowed, haon, hcluster, hserves, hneeds, hregion, hon, hbusy]

theorem domAllowed_unserved {d : Nat} (hd : d < 32) (hc : c ≠ 0) (h : clusterServes s d = false) : domAllowed s d c = false := by
  have hcluster : isCluster d = true := decide_eq_true hd
  simp [domAllowed, hcluster, hc, h]

end

/-- Settles O49, command by command: each part is the lemma about it. -/
theorem powerDomainTransitions : Obligations.PowerDomainTransitions := by
  unfold Obligations.PowerDomainTransitions
  refine ⟨fun s a d w t => ?_, fun s => ?_⟩
  · intro v may started
    have hmay : mayAsk s a d w.toNat = true ↔ may := mayAsk_iff s a d w
    have hno (h : ¬ may) : mayAsk s a d w.toNat = false := Bool.eq_false_iff.mpr fun hm => h (hmay.mp hm)
    have hw := w.isLt
    refine ⟨fun h => congrArg Host.Outcome.next (domainRequest_refused (h.imp_left hno)), fun hm hen => ?_, fun hnone => ?_,
      fun x hx htarget => ?_, fun c => ?_⟩
    · have hheard := domainRequest_heard (t := t) (hmay.mpr hm) d.isLt hen
      refine ⟨fun h3 => ?_, fun h3 hall => ?_, fun h3 hall heq => ?_, fun h3 hall hne => ?_⟩
      · have hcond : (w.toNat < 3 ∧ (w.toNat ≠ 1 ∨ isCluster d.val = true) ∧ d.val ≠ domAon) ↔ (w ≠ 3#2 ∧ (w ≠ 1#2 ∨ d.val < 32) ∧ d ≠ 44) := by
          have h1 : w.toNat < 3 ↔ w ≠ 3#2 := by bv_omega
          have h2 : w.toNat ≠ 1 ↔ w ≠ 1#2 := by bv_omega
          have h4 : d.val ≠ domAon ↔ d ≠ 44 := not_congr (Fin.ext_iff (a := d) (b := 44)).symm
          rw [h1, h2, h4, isCluster, decide_eq_true_eq]
        exact congrArg Host.Outcome.next (hheard.trans ((if_pos h3).trans (ite_congr (propext hcond) (fun _ => rfl) (fun _ => rfl))))
      · exact congrArg Host.Outcome.next (hheard.trans ((if_neg h3).trans (if_pos (by rw [hall]; rfl))))
      · exact congrArg Host.Outcome.next (hheard.trans ((if_neg h3).trans ((if_neg (by rw [hall]; decide)).trans (if_pos heq))))
      · obtain ⟨hreq, htrans, hcur, hother, htiles, hdram, -⟩ := domainRequest_starts (t := t) (hmay.mpr hm) d.isLt hen hw h3 hall hne
        exact ⟨_, rfl, hreq, htrans, hcur, fun e he => (hother e he).trans (State.getF_setF_ne _ _ (req_key_ne_cur d e)), htiles, hdram⟩
    · constructor
      · exact congrArg Host.Outcome.next (by rw [domainEnd, hnone])
      · exact congrArg Host.Outcome.next (by rw [domainTimeout, hnone])
    · have hlt4 : x.target < 4 := Nat.lt_succ_of_lt htarget
      refine ⟨fun hlate => ?_, fun hlate => ?_, fun hlate hreq hd => ?_, fun hlate => ⟨_, rfl, domainTimeout_takes hx hlate d.isLt⟩⟩
      · exact congrArg Host.Outcome.next (by rw [domainEnd, hx]; exact if_pos hlate)
      · exact congrArg Host.Outcome.next (by rw [domainTimeout, hx]; exact if_pos (by rw [hlate]; rfl))
      · obtain ⟨hcur, hfields, -, hpower, hdram, hcluster, hregion⟩ := domArrived_arrived (transDropped s d t) d hlt4
        have hkey : seqKey (Reg.PSEQ_REQ.key 0 d) = true := seqKey_req d
        have hint : (Hdr.INT_STATUS 19 0).key 0 0 ≠ Reg.PSEQ_REQ.key 0 d := seqHeader_key_ne (by decide) ⟨rfl, rfl, rfl⟩ d
        have hreq' := (hfields Reg.PSEQ_REQ 0 d hkey (by simpa using ⟨req_key_ne_cur d d, hint.symm⟩)).trans hreq
        exact ⟨_, congrArg Host.Outcome.next (domainEnd_eq hx hlate hreq' hd), hcur, (congrArg Power.trans hpower :), hdram, hcluster, hregion⟩
    · intro idle
      refine ⟨fun h => ?_, fun hcp hunits hon hidle hregion hserves hbusy hen => ?_, fun g hg => ⟨fun h => ?_, fun hcp hgated ht => ?_⟩⟩
      · exact congrArg Host.Outcome.next (if_pos (Or.inr (Or.inr (Or.inr h))))
      · have hrun : clusterIdle s c t = domainRequest s (.cp 2) c 1 t := clusterIdle_asks c.isLt hcp hunits hon hidle
        have hall : domAllowed s c 1 = true := domAllowed_gated c.isLt hon hregion hserves hbusy
        obtain ⟨-, htrans, hcur, hother, htiles, hdram, -⟩ := domainRequest_starts (t := t) (s := s) (a := .cp 2) rfl
          (Nat.lt_trans c.isLt (by decide)) hen (by decide) (by rw [hon]; decide) hall (by rw [hon]; decide)
        exact ⟨_, congrArg Host.Outcome.next hrun, htrans, hcur, fun e he => (hother e he).trans (State.getF_setF_ne _ _ (req_key_ne_cur c e)),
          htiles, hdram⟩
      · exact congrArg Host.Outcome.next ((bankRetention_eq hg).trans (if_pos (Or.inr h)))
      · have hno : ¬((!cpUp s 2) = true ∨ domCur s c ≠ 1 ∨ t < g.2 + 100000000) := by
          rw [cpUp, hcp, hgated]
          exact not_or.mpr ⟨by decide, not_or.mpr ⟨by decide, Nat.not_lt.mpr ht⟩⟩
        refine ⟨_, congrArg Host.Outcome.next ((bankRetention_eq hg).trans (if_neg hno)), fun i hi b hnone => ?_⟩
        have hmem : i ∈ clusterTiles c := by simp [clusterTiles, hi]
        obtain ⟨-, hrest, hsent⟩ := retainTiles_retain (s := s.atTime t) ((List.nodup_finRange 128).filter _) hmem hnone
        exact ⟨hsent b b.isLt, fun h2 => hrest b b.isLt (Or.inr h2)⟩
  · have hsettled (hcp : s.getF Reg.CP_STATE 2 0 = 2) : settleRegions s = (List.range 8).foldl settleRegion s := by
      rw [settleRegions_eq, cpUp, hcp]
      exact if_neg (by decide)
    have hdown (hcp : s.getF Reg.CP_STATE 2 0 ≠ 2) : settleRegions s = s := by
      rw [settleRegions_eq, cpUp]
      exact if_pos (by simpa using hcp)
    refine ⟨hdown, fun r hr hbusy => ?_, fun r hr hcp hen hidle hon hphy => ?_, fun d c hd hc hserves => ?_, ?_⟩
    · by_cases hcp : s.getF Reg.CP_STATE 2 0 = 2
      · obtain ⟨l₁, l₂, heq, hn₁, hn₂, hl₁, hl₂⟩ := range_split hr
        have hcalm := settleOthers_calm l₁ hl₁ s
        rw [hsettled hcp, heq, List.foldl_append, List.foldl_cons, region_kept hl₂ hr hn₂,
          settleRegion_busy ((regionIdle_calm hcalm calmDomains_ge hr).trans hbusy), region_kept hl₁ hr hn₁]
      · rw [hdown hcp]
    · obtain ⟨l₁, l₂, heq, hn₁, hn₂, hl₁, hl₂⟩ := range_split hr
      have hcalm := settleOthers_calm l₁ hl₁ s
      obtain ⟨hcur, htrans⟩ := settleRegion_starts hr (fun e => hen ((hcalm.low (Hdr.ENABLE 19) 0 0 (by decide)).symm.trans e))
        ((regionIdle_calm hcalm calmDomains_ge hr).trans hidle) ((region_kept hl₁ hr hn₁ s).trans hon) (phy_keptOff hl₁ (by omega) hphy)
      rw [hsettled hcp, heq, List.foldl_append, List.foldl_cons]
      exact ⟨(region_kept hl₂ hr hn₂ _).trans hcur, _, (settleOthers_calm l₂ hl₂ _).trans _ htrans, rfl, rfl⟩
    · exact domAllowed_unserved hd hc hserves
    · by_cases hcp : s.getF Reg.CP_STATE 2 0 = 2
      · have hcalm := settleOthers_calm (List.range 8) (fun q => List.mem_range.mp) s
        rw [hsettled hcp]
        exact ⟨hcalm.tiles, hcalm.dram⟩
      · rw [hdown hcp]
        exact ⟨rfl, rfl⟩

end Sys2Proof.Machine
end

section
namespace Sys2Proof.Machine

set_option Elab.async false

/-! O42: mailbox requests on contexts, placement, domains and cellars. -/

/-! Fields of records. -/

section
variable {r e : List Byte} {a n b m v w : Nat}

theorem field_putField_same (h : a ≤ r.length) : field (putField r a n v) a n = v % 256 ^ n := by
  have hlen : (r.take a).length = a := List.length_take_of_le h
  rw [putField, List.append_assoc, field_append _ _ _ (Nat.le_of_eq hlen), hlen, Nat.sub_self, field_toLe_append]

theorem field_putField_before (h : b + m ≤ a) (hr : b + m ≤ r.length) : field (putField r a n v) b m = field r b m := by
  have hlen : b + m ≤ (r.take a).length := by
    rw [List.length_take]
    omega
  rw [putField, List.append_assoc, field, List.drop_append_of_le_length (by omega), List.take_append_of_le_length (by rw [List.length_drop]; omega),
    List.drop_take, List.take_take, Nat.min_eq_left (by omega), field]

theorem field_putField_after (h : a + n ≤ b) (hr : a ≤ r.length) : field (putField r a n v) b m = field r b m := by
  have hlen : (r.take a).length = a := List.length_take_of_le hr
  rw [putField, List.append_assoc, field_append _ _ _ (by omega), hlen, field_toLe_skip _ _ _ _ (by omega), field, List.drop_drop,
    show a + n + (b - a - n) = b by omega, field]

theorem length_putField (h : a + n ≤ r.length) : (putField r a n v).length = r.length := by
  simp only [putField, List.length_append, List.length_take, length_toLe, List.length_drop]
  omega

/-- The first word of an entry that is given one, whatever the entry held. -/
theorem field_withIdState_first (e : List Byte) (w : Nat) : field (withIdState e w) 0 4 = w % 2 ^ 32 := by
  have hlen : 4 ≤ (putField e 0 4 w).length := by
    simp only [putField, List.length_append, length_toLe]
    omega
  exact (field_putField_before (by decide) hlen).trans (field_putField_same (Nat.zero_le _))

/-- The other fields of the entry. -/
theorem field_withIdState (h4 : 4 ≤ a) (h60 : a + n ≤ 60) (hlen : 60 ≤ e.length) : field (withIdState e w) a n = field e a n := by
  have hlen' : (putField e 0 4 w).length = e.length := length_putField (by omega)
  exact (field_putField_before h60 (by omega)).trans (field_putField_after (by omega) (Nat.zero_le _))

end

/-! The state of a context. -/

theorem field_four_lt (e : List Byte) (a : Nat) : field e a 4 < 2 ^ 32 := Nat.lt_of_lt_of_le (field_lt e a 4) (by decide)

theorem state_withIdState (d : Domain) (w : Nat) : Domain.state { d with entry := withIdState d.entry w } = bits (w % 2 ^ 32) 19 18 := by
  rw [Domain.state, field_withIdState_first]

/-- The word that binds a context. -/
theorem bits_bound {w g : Nat} (hg : g = 0 ∨ g = 2 ^ 22 ∧ 2 ^ 22 ≤ w / 2 ^ 22 * 2 ^ 22) :
    bits ((w - bits w 19 18 * 2 ^ 18 - g + 2 ^ 18) % 2 ^ 32) 19 18 = 1 := by
  simp only [bits]
  omega

theorem entryDomain_state (id : Nat) (e : List Byte) : (entryDomain id e).state = 1 := by
  have hg : (if bit (field e 0 4) 22 then 2 ^ 22 else 0) = 0 ∨
      (if bit (field e 0 4) 22 then 2 ^ 22 else 0) = 2 ^ 22 ∧ 2 ^ 22 ≤ field e 0 4 / 2 ^ 22 * 2 ^ 22 := by
    split
    · next h =>
      simp only [bit, beq_iff_eq] at h
      omega
    · exact Or.inl rfl
  exact (congrArg (fun w => bits w 19 18) (field_withIdState_first e _)).trans (bits_bound hg)

/-! What a request leaves beside the domains. -/

section
variable {s : State} {id : Nat} {d : Domain}

theorem keepEntry_frame (s : State) (d : Domain) :
    ∃ regs m ue ce, keepEntry s d = { s with regs := regs, dram := m, dramUe := ue, dramCe := ce } := by
  unfold keepEntry
  split
  · exact ⟨_, _, _, _, rfl⟩
  · rcases dramWrite_cases s (s.getF Reg.CTX_BASE 0 0 + 64 * d.id) d.entry with ⟨c, l, h⟩ | ⟨m, ue, ce, h⟩
    · rw [h, recordErr_same]
      exact ⟨_, _, _, _, rfl⟩
    · rw [h]
      exact ⟨_, _, _, _, rfl⟩

theorem updateMembership_frame (s : State) : ∃ regs sent, updateMembership s = { s with regs := regs, sent := sent } := by
  unfold updateMembership
  dsimp only
  split
  · exact ⟨_, _, rfl⟩
  · split
    · rw [sendMembership_same]
      exact ⟨_, _, rfl⟩
    · exact ⟨_, _, rfl⟩

/-- The domains and the queues of a device are those of another. -/
structure SameTables (s u : State) : Prop where
  domains : u.domains = s.domains
  queues : u.queues = s.queues

theorem keepEntry_tables (s : State) (d : Domain) : SameTables s (keepEntry s d) := by
  obtain ⟨_, _, _, _, h⟩ := keepEntry_frame s d
  exact ⟨by rw [h], by rw [h]⟩

theorem updateMembership_tables (s : State) : SameTables s (updateMembership s) := by
  obtain ⟨_, _, h⟩ := updateMembership_frame s
  exact ⟨by rw [h], by rw [h]⟩

theorem SameTables.trans {t u : State} (h : SameTables s t) (h' : SameTables t u) : SameTables s u :=
  ⟨h'.domains.trans h.domains, h'.queues.trans h.queues⟩

theorem SameTables.writeRetained_if (s : State) (c : Bool) : SameTables s (if c then writeRetained s else s) := by
  split <;> exact ⟨rfl, rfl⟩

/-- A domain changed together with its entry. -/
theorem changeDomain_takes (hd : s.domain? id = some d) (f : Domain → Domain) (hf : (f d).id = d.id) :
    let u := changeDomain s id f
    u.domain? id = some (f d) ∧ (∀ j, j ≠ id → u.domain? j = s.domain? j) ∧ u.queues = s.queues := by
  have hid : (f d).id = id := hf.trans (State.domain?_id hd)
  have hkeep := keepEntry_tables (s.setDomain (f d)) (f d)
  have hrun : changeDomain s id f = keepEntry (s.setDomain (f d)) (f d) := by rw [changeDomain, hd]
  rw [hrun]
  exact ⟨(State.domain?_of_domains hkeep.domains id).trans (State.domain?_setDomain_same s hid),
    fun j hj => (State.domain?_of_domains hkeep.domains j).trans (State.domain?_setDomain_ne s (hid ▸ hj.symm)), hkeep.queues⟩

/-! Contexts. -/

theorem entryRange_same {v : State} (h : v.queues = s.queues) (whole : Bool) (e : List Byte) : entryRange v whole e = entryRange s whole e := by
  have hq (k : Nat) : v.queue? k = s.queue? k := State.queue?_of_queues h k
  unfold entryRange
  simp only [hq]

variable {p : List Byte}

/-- The entry that CONTEXT_CREATE carries. -/
def newEntry (p : List Byte) : List Byte := (p ++ zeros 64).take 64

/-- The context that it names. -/
def newContext (p : List Byte) : Nat := bits (field (newEntry p) 0 4) 17 0

theorem contextCreate_outOfRange {n : Nat} (h : entryRange s false (newEntry p) = some n) : contextCreate s p = nackRange s n := by
  unfold contextCreate
  dsimp only
  rw [show entryRange s false ((p ++ zeros 64).take 64) = some n from h]

theorem contextCreate_inRange (h : entryRange s false (newEntry p) = none) :
    contextCreate s p = if (s.domain? (newContext p)).isSome then nackBusy s else bindDomain s (entryDomain (newContext p) (newEntry p)) 0 := by
  unfold contextCreate
  dsimp only
  rw [show entryRange s false ((p ++ zeros 64).take 64) = none from h, newContext, newEntry]

/-- The device with a new domain in place. -/
def boundDevice (s : State) (d : Domain) : State :=
  if d.retained then writeRetained (countContexts (keepEntry (s.setDomain d) d)) else countContexts (keepEntry (s.setDomain d) d)

theorem bindDomain_fits {at_ : Nat} (h : domainFits s d = none) : bindDomain s d at_ = okay (boundDevice s d) := by
  rw [bindDomain, h]
  rfl

theorem bindDomain_meets {at_ : Nat} (h : domainFits s d = some 7) : bindDomain s d at_ = nackRange s (at_ + 8) := by
  simp only [bindDomain, h]

theorem bindDomain_large {at_ : Nat} (h : domainFits s d = some 9) : bindDomain s d at_ = nack (fwError s 0x0610 d.id) 9 := by
  simp only [bindDomain, h]

theorem boundDevice_tables (s : State) (d : Domain) : SameTables (s.setDomain d) (boundDevice s d) :=
  (SameTables.trans (t := countContexts (keepEntry (s.setDomain d) d)) ⟨(keepEntry_tables (s.setDomain d) d).domains,
    (keepEntry_tables (s.setDomain d) d).queues⟩ (SameTables.writeRetained_if _ d.retained))

/-- The device without a context. -/
def unboundDevice (s : State) (d : Domain) : State :=
  let w := keepEntry s { d with entry := withIdState d.entry (field d.entry 0 4 - d.state * 2 ^ 18) }
  let w := countContexts { w with domains := w.domains.filter (fun (x : Domain) => x.id != d.id) }
  updateMembership (if d.retained then writeRetained w else w)

theorem unboundDevice_tables (s : State) (d : Domain) :
    (unboundDevice s d).domains = s.domains.filter (fun (x : Domain) => x.id != d.id) ∧ (unboundDevice s d).queues = s.queues := by
  unfold unboundDevice
  dsimp only
  have hkeep := keepEntry_tables s { d with entry := withIdState d.entry (field d.entry 0 4 - d.state * 2 ^ 18) }
  generalize keepEntry s { d with entry := withIdState d.entry (field d.entry 0 4 - d.state * 2 ^ 18) } = w at hkeep ⊢
  obtain ⟨h1, h2⟩ := (SameTables.writeRetained_if (countContexts { w with domains := w.domains.filter (fun (x : Domain) => x.id != d.id) })
    d.retained).trans (updateMembership_tables _)
  refine ⟨h1.trans ?_, h2.trans hkeep.queues⟩
  rw [← hkeep.domains]
  rfl

theorem contextDestroy_eq (hd : s.domain? (field p 0 4) = some d) (hid : ¬ field p 0 4 ≥ wholeDomain) (hrun : d.run = none) :
    contextDestroy s p = okay (unboundDevice s d) := by
  unfold contextDestroy
  dsimp only
  rw [hd]
  dsimp only
  rw [if_neg hid, hrun, if_neg (by decide), ← State.domain?_id hd]
  rfl

theorem contextDestroy_whole (hd : s.domain? (field p 0 4) = some d) (hid : field p 0 4 ≥ wholeDomain) : contextDestroy s p = nackRange s 0 := by
  unfold contextDestroy
  dsimp only
  rw [hd]
  exact if_pos hid

theorem contextDestroy_running (hd : s.domain? (field p 0 4) = some d) (hid : ¬ field p 0 4 ≥ wholeDomain) (hrun : d.run.isSome = true) :
    contextDestroy s p = nackBusy s := by
  unfold contextDestroy
  dsimp only
  rw [hd]
  exact (if_neg hid).trans (if_pos hrun)

theorem contextDestroy_none (hd : s.domain? (field p 0 4) = none) : contextDestroy s p = nackRange s 0 := by
  unfold contextDestroy
  dsimp only
  rw [hd]

/-- A list of domains without one of them. -/
theorem find?_without (ds : List Domain) {k j : Nat} (h : j ≠ k) :
    (ds.filter (fun (x : Domain) => x.id != k)).find? (fun x => x.id == j) = ds.find? (fun x => x.id == j) := by
  rw [List.find?_filter]
  refine congrArg (fun q => ds.find? q) (funext fun x => ?_)
  by_cases hx : x.id = j
  · simp [hx, h]
  · simp [hx]

end

/-! Placement entries. -/

section
variable {s : State} {p dma : List Byte}

/-- A write of whole lines, in device DRAM, stores its bytes. -/
theorem dramWrite_lines {a : Nat} {d : List Byte} (ha : a % 64 = 0) (hd : d.length % 64 = 0) (hsize : a + d.length ≤ dramSize s) :
    ∃ ue ce, (dramWrite s a d).1 = { s with dram := Memory.writeL s.dram a d, dramUe := ue, dramCe := ce } := by
  have hwhole : ∀ l ∈ dramLines a d.length, a ≤ l ∧ l + 64 ≤ a + d.length := by
    intro l hl
    unfold dramLines at hl
    split at hl
    · exact absurd hl List.not_mem_nil
    · obtain ⟨k, hk, rfl⟩ := List.mem_map.mp hl
      rw [List.mem_range] at hk
      omega
  have hpart : (dramLines a d.length).filter (fun l =>
      !((dramLines a d.length).filter (fun l => decide (a ≤ l) && decide (l + 64 ≤ a + d.length))).contains l) = [] := by
    refine List.filter_eq_nil_iff.mpr fun l hl => ?_
    obtain ⟨h1, h2⟩ := hwhole l hl
    simp [hl, h1, h2]
  unfold dramWrite
  dsimp only
  rw [hpart, List.take_of_length_le (by omega)]
  exact ⟨_, _, rfl⟩

/-- Entry `i` as a request writes it from entry `first` on. -/
def placeEntry (first : Nat) (dma : List Byte) (i : Nat) : List Byte := (dma.drop (64 * (i - first)) ++ zeros 64).take 64

/-- Does entry `i` of the request pass? -/
def placeAccepted (s : State) (first : Nat) (dma : List Byte) (i : Nat) : Bool :=
  placeOk (placeEntry first dma i) && s.domains.all (fun d => decide (i < d.placeFirst) || decide (d.placeFirst + d.placeCount ≤ i) ||
    placeFits (fun j => if first ≤ j ∧ j ≤ i then placeEntry first dma j else placeBytes s j) d i)

/-- Entries of the range of the request that were not good before. -/
def freshPlaces (s : State) (p : List Byte) : Nat :=
  ((List.range (field p 4 4)).filter (fun k => !placeOk (placeBytes s (field p 0 4 + k)))).length

theorem placementWrite_first (h : 2 ^ 19 ≤ field p 0 4) : placementWrite s p dma = nackRange s 0 := if_pos h

theorem placementWrite_count (h : field p 0 4 < 2 ^ 19) (hn : field p 4 4 = 0 ∨ 2 ^ 19 < field p 0 4 + field p 4 4) :
    placementWrite s p dma = nackRange s 4 := (if_neg (Nat.not_le.mpr h)).trans (if_pos hn)

section
variable (h : field p 0 4 < 2 ^ 19) (hn : field p 4 4 ≠ 0) (hend : field p 0 4 + field p 4 4 ≤ 2 ^ 19)
include h hn hend

theorem placementWrite_bad {k : Nat}
    (hk : (List.range (field p 4 4)).find? (fun k => !placeAccepted s (field p 0 4) dma (field p 0 4 + k)) = some k) :
    placementWrite s p dma = nackRange (fwError s 0x060F (field p 0 4 + k)) (field p 0 4 + k) := by
  unfold placementWrite
  dsimp only
  rw [if_neg (Nat.not_le.mpr h), if_neg (not_or.mpr ⟨hn, Nat.not_lt.mpr hend⟩)]
  unfold placeAccepted placeEntry at hk
  rw [hk]

/-- Without domains there is nothing to meet. -/
theorem placementWrite_good (hdoms : s.domains = [])
    (hk : (List.range (field p 4 4)).find? (fun k => !placeAccepted s (field p 0 4) dma (field p 0 4 + k)) = none)
    (hlen : dma.length = 64 * field p 4 4) :
    placementWrite s p dma =
      let v := (dramWrite s (s.getF Reg.PLC_BASE 0 0 + 64 * field p 0 4) dma).1
      okay (v.setF Reg.PLC_IN_USE 0 0 (v.getF Reg.PLC_IN_USE 0 0 + freshPlaces s p)) := by
  have hdma : (dma ++ zeros (64 * field p 4 4)).take (64 * field p 4 4) = dma := List.take_left' hlen
  have hfits (u : State) (hu : u.domains = []) : overBudget u = false := by
    unfold overBudget
    rw [hu]
    exact decide_eq_false (Nat.not_lt_zero _)
  unfold placementWrite
  dsimp only
  rw [if_neg (Nat.not_le.mpr h), if_neg (not_or.mpr ⟨hn, Nat.not_lt.mpr hend⟩)]
  unfold placeAccepted placeEntry at hk
  rw [hk]
  dsimp only
  rw [hdma, hfits s hdoms, Bool.not_false, Bool.and_true]
  refine if_neg (Bool.eq_false_iff.mp (hfits _ ?_))
  rcases dramWrite_cases s (s.getF Reg.PLC_BASE 0 0 + 64 * field p 0 4) dma with ⟨c, l, hw⟩ | ⟨m, ue, ce, hw⟩
  · rw [hw, recordErr_same]
    exact hdoms
  · rw [hw]
    exact hdoms

theorem placementWrite_firstBad (hbad : placeOk ((dma ++ zeros 64).take 64) = false) :
    placementWrite s p dma = nackRange (fwError s 0x060F (field p 0 4)) (field p 0 4) := by
  refine placementWrite_bad h hn hend (k := 0) ?_
  obtain ⟨m, hm⟩ := Nat.exists_eq_succ_of_ne_zero hn
  have hentry : placeEntry (field p 0 4) dma (field p 0 4 + 0) = (dma ++ zeros 64).take 64 := by
    rw [placeEntry, Nat.add_zero, Nat.sub_self, Nat.mul_zero, List.drop_zero]
  rw [hm, List.range_succ_eq_map]
  refine List.find?_cons_of_pos ?_
  rw [placeAccepted, hentry, hbad]
  rfl

end

theorem placeAccepted_alone {first i n : Nat} (hdoms : s.domains = []) (hi : i < n) (hlen : dma.length = 64 * n)
    (hok : placeOk ((dma.drop (64 * i)).take 64) = true) : placeAccepted s first dma (first + i) = true := by
  have hentry : placeEntry first dma (first + i) = (dma.drop (64 * i)).take 64 := by
    rw [placeEntry, Nat.add_sub_cancel_left, List.take_append_of_le_length]
    rw [List.length_drop]
    omega
  rw [placeAccepted, hentry, hok, hdoms]
  rfl

end

/-! Settings of a domain. -/

section
variable {s : State} {p : List Byte} {d : Domain}

/-- The entry as DOMAIN_SET leaves it, its first word apart. -/
def settingsRecord (p : List Byte) (d : Domain) : List Byte :=
  putField (putField (putField d.entry 48 8 (field p 8 8)) 56 2 (if field p 16 2 = 0 then 10 else field p 16 2)) 58 2 (field p 30 2)

/-- Its first word: LEGACY as the request gives it. -/
def settingsWord (p : List Byte) (d : Domain) : Nat :=
  (if bit (field (settingsRecord p d) 0 4) 21 then field (settingsRecord p d) 0 4 - 2 ^ 21 else field (settingsRecord p d) 0 4) +
    2 ^ 21 * b2n (bit (field p 18 1) 1)

/-- A domain with the settings that a running step takes up too. -/
def withSettings (p : List Byte) (d : Domain) : Domain :=
  { d with
    entry := withIdState (settingsRecord p d) (settingsWord p d), steer := bit (field p 18 1) 0, legacy := bit (field p 18 1) 1
    mbTokens := field p 20 4, accMin := field p 24 2, accMax := field p 26 2, window := if field p 28 2 = 0 then 200 else field p 28 2 }

theorem domainSettings_running (h : d.run.isSome = true) : domainSettings p d = { withSettings p d with nextAcc := some (field p 30 2) } := if_pos h

theorem domainSettings_idle (h : d.run = none) : domainSettings p d = { withSettings p d with accCount := field p 30 2 } :=
  if_neg (by rw [h]; decide)

/-- What DOMAIN_SET leaves of a domain. -/
theorem domainSettings_fields (p : List Byte) (d : Domain) :
    let e := domainSettings p d
    e.id = d.id ∧ e.entry = withIdState (settingsRecord p d) (settingsWord p d) ∧ e.steer = bit (field p 18 1) 0 ∧ e.legacy = bit (field p 18 1) 1 ∧
      e.mbTokens = field p 20 4 ∧ e.accMin = field p 24 2 ∧ e.accMax = field p 26 2 ∧
      e.window = (if field p 28 2 = 0 then 200 else field p 28 2) ∧
      (d.run.isSome = true → e.accCount = d.accCount ∧ e.nextAcc = some (field p 30 2)) ∧ (d.run = none → e.accCount = field p 30 2) := by
  cases h : d.run with
  | none =>
    rw [domainSettings_idle h]
    exact ⟨rfl, rfl, rfl, rfl, rfl, rfl, rfl, rfl, fun h' => absurd h' (by decide), fun _ => rfl⟩
  | some r =>
    rw [domainSettings_running (by rw [h]; rfl)]
    exact ⟨rfl, rfl, rfl, rfl, rfl, rfl, rfl, rfl, fun _ => ⟨rfl, rfl⟩, fun h' => absurd h' (by simp)⟩

theorem settings_entry (hlen : 64 ≤ d.entry.length) :
    field (domainSettings p d).entry 48 8 = field p 8 8 ∧
      field (domainSettings p d).entry 56 2 = if field p 16 2 = 0 then 10 else field p 16 2 := by
  have hentry := (domainSettings_fields p d).2.1
  have h1 : (putField d.entry 48 8 (field p 8 8)).length = d.entry.length := length_putField (by omega)
  have h2 : (putField (putField d.entry 48 8 (field p 8 8)) 56 2 (if field p 16 2 = 0 then 10 else field p 16 2)).length = d.entry.length :=
    (length_putField (by omega)).trans h1
  have h3 : (settingsRecord p d).length = d.entry.length := (length_putField (by omega)).trans h2
  rw [hentry]
  constructor
  · rw [field_withIdState (by decide) (by decide) (by omega), settingsRecord, field_putField_before (by decide) (by omega),
      field_putField_before (by decide) (by omega), field_putField_same (by omega)]
    exact Nat.mod_eq_of_lt (field_lt p 8 8)
  · rw [field_withIdState (by decide) (by decide) (by omega), settingsRecord, field_putField_before (by decide) (by omega),
      field_putField_same (by omega)]
    refine Nat.mod_eq_of_lt ?_
    split
    · decide
    · exact field_lt p 16 2

/-- The settings are in their ranges. -/
def SettingsGood (p : List Byte) : Prop := field p 16 2 ≤ 1000 ∧ field p 18 1 ≤ 3 ∧ field p 24 2 ≤ field p 26 2 ∧ field p 30 2 ≠ 0

section
variable (h : SettingsGood p) (hid : field p 0 4 ≠ wholeDomain)
include h hid

theorem domainSet_none (hd : s.domain? (field p 0 4) = none) : domainSet s p = nackRange s 0 := by
  obtain ⟨h16, h18, h24, h30⟩ := h
  unfold domainSet
  dsimp only
  rw [if_neg (Nat.not_lt.mpr h16), if_neg (Nat.not_lt.mpr h18), if_neg (Nat.not_lt.mpr h24), if_neg h30, if_neg hid, hd]

theorem domainSet_some (hd : s.domain? (field p 0 4) = some d) :
    domainSet s p = if field p 32 64 ≠ 0 then nackRange s 32
      else if !legacyFits s (domainSettings p d) then nackState s
      else okay (changeDomain s (field p 0 4) (domainSettings p)) := by
  obtain ⟨h16, h18, h24, h30⟩ := h
  unfold domainSet
  dsimp only
  rw [if_neg (Nat.not_lt.mpr h16), if_neg (Nat.not_lt.mpr h18), if_neg (Nat.not_lt.mpr h24), if_neg h30, if_neg hid, hd]

end

theorem legacyFits_same {v : State} (h : v.queues = s.queues) (d : Domain) : legacyFits v d = legacyFits s d := by
  unfold legacyFits
  rw [State.queue?_of_queues h]

end

/-! Update blocks. -/

section
variable {s : State} {p : List Byte} {d : Domain}

/-- The update block of a request. -/
def submittedUpb (p : List Byte) : List Byte := (p.drop 8).take 64

/-- Does the block come too late: for a step that runs, or that is committed? -/
def upbPast (p : List Byte) (d : Domain) : Bool :=
  match d.run with
  | some r => decide (field (submittedUpb p) 0 8 ≤ r.step)
  | none => match d.lastStep with
    | some n => decide (field (submittedUpb p) 0 8 ≤ n)
    | none => false

theorem upbPast_iff (p : List Byte) (d : Domain) : upbPast p d = true ↔ match d.run, d.lastStep with
    | some r, _ => field (submittedUpb p) 0 8 ≤ r.step
    | none, some n => field (submittedUpb p) 0 8 ≤ n
    | none, none => False := by
  unfold upbPast
  cases d.run with
  | some r => exact decide_eq_true_iff
  | none =>
    cases d.lastStep with
    | some n => exact decide_eq_true_iff
    | none => exact iff_of_false Bool.false_ne_true id

theorem upbSubmit_none (hd : s.domain? (field p 0 4) = none) : upbSubmit s p = nackRange s 0 := by
  unfold upbSubmit
  dsimp only
  rw [hd]

theorem upbSubmit_refused (hd : s.domain? (field p 0 4) = some d) (h : upbValid (submittedUpb p) = false ∨ upbPast p d = true) :
    upbSubmit s p = nackRange s 8 := by
  unfold upbSubmit
  dsimp only
  rw [hd]
  refine if_pos (Bool.or_eq_true_iff.mpr (h.imp_left fun hv => ?_))
  exact (congrArg not hv).trans rfl

theorem upbSubmit_taken (hd : s.domain? (field p 0 4) = some d) (hv : upbValid (submittedUpb p) = true) (hpast : upbPast p d = false) :
    upbSubmit s p = if 16 ≤ d.upbs.length then nackBusy s else okay (s.setDomain { d with upbs := d.upbs ++ [submittedUpb p] }) := by
  unfold upbSubmit
  dsimp only
  rw [hd]
  refine if_neg fun h => ?_
  rcases Bool.or_eq_true_iff.mp h with h | h
  · exact absurd ((congrArg not hv).symm.trans h) (by decide)
  · exact absurd (hpast.symm.trans h) (by decide)

end

/-! Retained contexts and base regions. -/

section
variable {s : State} {p : List Byte} {d : Domain}

/-- A context that is retained or not. -/
def withRetained (on : Bool) (d : Domain) : Domain :=
  { d with
    retained := on
    entry := withIdState d.entry ((if bit (field d.entry 0 4) 20 then field d.entry 0 4 - 2 ^ 20 else field d.entry 0 4) + 2 ^ 20 * b2n on) }

theorem bit_retained (on : Bool) (d : Domain) : bit (field (withRetained on d).entry 0 4) 20 = on := by
  have hw := field_four_lt d.entry 0
  rw [withRetained, field_withIdState_first]
  generalize field d.entry 0 4 = w at hw
  have hsplit : (if bit w 20 then w - 2 ^ 20 else w) / 2 ^ 20 % 2 = 0 ∧ (if bit w 20 then w - 2 ^ 20 else w) < 2 ^ 32 := by
    simp only [bit, beq_iff_eq]
    split
    all_goals omega
  generalize (if bit w 20 then w - 2 ^ 20 else w) = x at hsplit
  obtain ⟨hbit, hlt⟩ := hsplit
  simp only [bit]
  cases on
  · rw [show b2n false = 0 from rfl, beq_eq_false_iff_ne]
    omega
  · rw [show b2n true = 1 from rfl, beq_iff_eq]
    omega

theorem retainSet_none (hid : field p 0 4 < 0x80000) (hd : s.domain? (field p 0 4) = none) : retainSet s p = nackRange s 0 := by
  unfold retainSet
  dsimp only
  rw [if_neg (Nat.not_le.mpr hid), hd]

theorem retainSet_domain (hid : field p 0 4 < 0x80000) (hd : s.domain? (field p 0 4) = some d) :
    retainSet s p = okay (writeRetained (changeDomain s (field p 0 4) (withRetained (bit (field p 4 1) 0)))) := by
  unfold retainSet
  dsimp only
  rw [if_neg (Nat.not_le.mpr hid), hd]
  exact congrArg (fun f => okay (writeRetained (changeDomain s (field p 0 4) f))) rfl

theorem retainSet_noBase (hid : 0x80000 ≤ field p 0 4) (hb : ∀ b ∈ s.fw.bases, b.1 ≠ field p 0 4 - 0x80000) : retainSet s p = nackRange s 0 := by
  refine (if_pos hid).trans (if_pos ?_)
  rw [Bool.not_eq_true', List.any_eq_false]
  exact fun b hmem => fun h => hb b hmem (beq_iff_eq.mp h)

/-- The regions that stay retained. -/
def keptBases (s : State) (r : Nat) (on : Bool) : List Nat :=
  if on then s.fw.retainedBases.filter (· != r) ++ [r] else s.fw.retainedBases.filter (· != r)

theorem mem_keptBases (s : State) (r : Nat) (on : Bool) :
    (r ∈ keptBases s r on ↔ on = true) ∧ ∀ q, q ≠ r → (q ∈ keptBases s r on ↔ q ∈ s.fw.retainedBases) := by
  unfold keptBases
  constructor
  · cases on <;> simp
  · intro q hq
    cases on <;> simp [hq]

theorem retainSet_base (hid : 0x80000 ≤ field p 0 4) (hb : ∃ b ∈ s.fw.bases, b.1 = field p 0 4 - 0x80000) :
    retainSet s p = okay (writeRetained { s with fw := { s.fw with
      retainedBases := keptBases s (field p 0 4 - 0x80000) (bit (field p 4 1) 0) } }) := by
  obtain ⟨b, hmem, heq⟩ := hb
  refine (if_pos hid).trans (if_neg ?_)
  rw [Bool.not_eq_true', Bool.not_eq_false]
  exact List.any_eq_true.mpr ⟨b, hmem, beq_iff_eq.mpr heq⟩

/-! BASE_LOAD. -/

theorem baseLoad_region (h : 15 < field p 0 1) : baseLoad s p = nackRange s 0 := if_pos h

theorem baseLoad_base (h : field p 0 1 ≤ 15) (hb : dramSize s ≤ field p 8 8) : baseLoad s p = nackRange s 8 :=
  (if_neg (Nat.not_lt.mpr h)).trans (if_pos hb)

theorem baseLoad_size (h : field p 0 1 ≤ 15) (hb : field p 8 8 < dramSize s) (hn : field p 16 8 = 0 ∨ dramSize s < field p 8 8 + field p 16 8) :
    baseLoad s p = nackRange s 16 := (if_neg (Nat.not_lt.mpr h)).trans ((if_neg (Nat.not_le.mpr hb)).trans (if_pos hn))

/-- The device with base region `r`, whose lines can all be read. -/
def withBase (s : State) (r a n : Nat) : State :=
  let leaves := leafDigests s.dram [[(a, n)]]
  { s with fw := { s.fw with
    bases := s.fw.bases.filter (fun (b : Nat × Nat × Nat × Nat) => b.1 != r) ++ [(r, a, n, rootDigest leaves)]
    baseTrees := s.fw.baseTrees.filter (fun (b : Nat × List Nat) => b.1 != r) ++ [(r, leaves)] } }

theorem baseLoad_good (h : field p 0 1 ≤ 15) (hb : field p 8 8 < dramSize s) (hn : field p 16 8 ≠ 0) (hend : field p 8 8 + field p 16 8 ≤ dramSize s)
    (hue : s.dramUe = []) : baseLoad s p = okay (withBase s (field p 0 1) (field p 8 8) (field p 16 8)) := by
  have hread : s.dramUe.find? (fun l => decide (field p 8 8 < l + 64) && decide (l < field p 8 8 + field p 16 8)) = none := by
    rw [hue, List.find?_nil]
  unfold baseLoad
  dsimp only
  rw [if_neg (Nat.not_lt.mpr h), if_neg (Nat.not_le.mpr hb), if_neg (not_or.mpr ⟨hn, Nat.not_lt.mpr hend⟩), hread]
  exact congrArg okay rfl

end

/-! EXPORT. -/

theorem storeWord_regs (s : State) (ty inst pg off v : Nat) : ∃ regs, storeWord s ty inst pg off v = { s with regs := regs } := by
  unfold storeWord
  generalize (pageParts ty inst pg off).filter (fun p => p.f.acc == .rw && !p.f.live) = l
  induction l generalizing s with
  | nil => exact ⟨_, rfl⟩
  | cons x l ih =>
    obtain ⟨regs, h⟩ := ih (storePart s inst v x)
    exact ⟨regs, h⟩

theorem storeWords_regs (l : List Nat) (w : Nat → Nat) (s : State) :
    ∃ regs, l.foldl (fun s k => storeWord s 14 0 0 (0x100 + 4 * k) (w k)) s = { s with regs := regs } := by
  induction l generalizing s with
  | nil => exact ⟨_, rfl⟩
  | cons k l ih =>
    obtain ⟨regs, h⟩ := storeWord_regs s 14 0 0 (0x100 + 4 * k) (w k)
    obtain ⟨regs', h'⟩ := ih (storeWord s 14 0 0 (0x100 + 4 * k) (w k))
    exact ⟨regs', h'.trans (by rw [h])⟩

section
variable {s : State} {p : List Byte} {d : Domain}

/-- The request's words stand in the registers of the export engine. -/
def exportAsked (s : State) (p : List Byte) (d : Domain) : State :=
  let w := (List.range 8).foldl (fun s k => storeWord s 14 0 0 (0x100 + 4 * k) (field p (4 * k) 4)) s
  match d.group with
  | some g => w.setF Reg.EXPORT_PIN_LIMIT 0 0 g.params.pinLimit
  | none => w

theorem exportAsked_regs (s : State) (p : List Byte) (d : Domain) : ∃ regs, exportAsked s p d = { s with regs := regs } := by
  obtain ⟨regs, h⟩ := storeWords_regs (List.range 8) (fun k => field p (4 * k) 4) s
  unfold exportAsked
  dsimp only
  rw [h]
  cases d.group with
  | none => exact ⟨_, rfl⟩
  | some g => exact ⟨_, rfl⟩

theorem exportRequest_busy (h : exportState s = 1 ∨ exportState s = 2) : exportRequest s p = nackBusy s := if_pos h

theorem exportRequest_none (h : ¬(exportState s = 1 ∨ exportState s = 2)) (hd : s.domain? (bits (field p (4 * 0) 4) 18 0) = none) :
    exportRequest s p = nackRange s 0 := by
  unfold exportRequest
  dsimp only
  rw [if_neg h, hd]

/-- The words of the request are in their ranges. -/
structure ExportGood (p : List Byte) : Prop where
  w0 : field p (4 * 0) 4 < 2 ^ 21
  w1 : field p (4 * 1) 4 < 4096
  w2 : field p (4 * 2) 4 % 65536 = 0
  w3 : field p (4 * 3) 4 < 512
  w5 : field p (4 * 5) 4 % 64 = 0
  w6 : field p (4 * 6) 4 < 512
  w7 : field p (4 * 7) 4 ≤ 2 ^ 19
  listed : field p (4 * 7) 4 ≠ 0 ∨ bit (field p (4 * 0) 4) 19 = true

theorem exportRequest_good (h : ¬(exportState s = 1 ∨ exportState s = 2)) (hd : s.domain? (bits (field p (4 * 0) 4) 18 0) = some d) (hp : ExportGood p) :
    exportRequest s p = okay (exportGo (exportAsked s p d) (exportAsked s p d).now) := by
  obtain ⟨h0, h1, h2, h3, h5, h6, h7, hlist⟩ := hp
  have h7' : ¬(field p (4 * 7) 4 ≥ 2 ^ 19 + 1 ∨ (field p (4 * 7) 4 = 0 ∧ (!bit (field p (4 * 0) 4) 19) = true)) := by
    refine not_or.mpr ⟨Nat.not_le.mpr (Nat.lt_succ_of_le h7), fun hz => hlist.elim (fun hne => hne hz.1) fun hb => ?_⟩
    rw [hb] at hz
    exact absurd hz.2 (by decide)
  unfold exportRequest
  dsimp only
  rw [if_neg h, hd]
  dsimp only
  rw [if_neg (Nat.not_le.mpr h0), if_neg (Nat.not_le.mpr h1), if_neg (not_not_intro h2), if_neg (Nat.not_le.mpr h3), if_neg (not_not_intro h5),
    if_neg (Nat.not_le.mpr h6), if_neg h7']
  exact congrArg (fun w => okay (exportGo w w.now)) rfl

end
/-! CELLAR_RESTORE. -/

section
variable {s : State}

theorem foldl_countF_frame {α : Type} (l : List α) (f : Fld) (c : State → α → Nat) (s : State) :
    ∃ regs, l.foldl (fun s a => s.countF f (c s a) 0 1) s = { s with regs := regs } := by
  induction l generalizing s with
  | nil => exact ⟨_, rfl⟩
  | cons a l ih => exact ih (s.countF f (c s a) 0 1)

theorem retirePending_frame (s : State) (c cause : Nat) : ∃ regs, retirePending s c cause = { s with regs := regs } := by
  unfold retirePending setChan
  dsimp only
  split
  · split
    · exact ⟨_, rfl⟩
    · exact ⟨_, rfl⟩
  · exact ⟨_, rfl⟩

theorem dramRead_frame (s : State) (a n : Nat) : ∃ regs ce free, (dramRead s a n).1 = { s with regs := regs, dramCe := ce, free := free } := by
  unfold dramRead
  dsimp only
  split
  · next l _ =>
    unfold dramUncorrectable
    dsimp only
    obtain ⟨regs, h⟩ := retirePending_frame ((s.countF Reg.DDR_UE_COUNT (chanOf s l) 0 1).recordErr 5 0 (chanOf s l) 0x0503 (chanOf s l) (l % 2 ^ 32))
      (chanOf s l) 4
    rw [h, recordErr_same]
    exact ⟨_, _, _, rfl⟩
  · obtain ⟨regs, h⟩ := foldl_countF_frame ((dramLines a n).filter (s.dramCe.contains ·)) Reg.DDR_CE_COUNT chanOf
      { s with dramCe := s.dramCe.filter (fun l => !(dramLines a n).contains l) }
    rw [h]
    split
    · exact ⟨_, _, _, rfl⟩
    · exact ⟨_, _, _, rfl⟩

theorem readJournal_frame (s : State) (j : Nat) : ∃ regs ce free, (readJournal s j).1 = { s with regs := regs, dramCe := ce, free := free } := by
  have hfold (l : List Nat) (x : State × List (List Byte)) : ∃ regs ce free,
      (l.foldl (fun (x : State × List (List Byte)) k =>
        let r := dramRead x.1 (j + 64 * k) 64
        (r.1, x.2 ++ [r.2.2])) x).1 = { x.1 with regs := regs, dramCe := ce, free := free } := by
    induction l generalizing x with
    | nil => exact ⟨_, _, _, rfl⟩
    | cons k l ih =>
      obtain ⟨_, _, _, h⟩ := dramRead_frame x.1 (j + 64 * k) 64
      obtain ⟨regs, ce, free, h'⟩ := ih ((dramRead x.1 (j + 64 * k) 64).1, x.2 ++ [(dramRead x.1 (j + 64 * k) 64).2.2])
      exact ⟨regs, ce, free, h'.trans (by rw [h])⟩
  exact hfold _ _

/-- A SCAN changes what the device knows of the domain's journal. -/
theorem scanNow_frame (s : State) (id : Nat) :
    ∃ regs ce free ds, scanNow s id = { s with regs := regs, dramCe := ce, free := free, domains := ds } := by
  unfold scanNow
  split
  · exact ⟨_, _, _, _, rfl⟩
  · next d _ =>
    split
    · rw [commitError, recordErr_same]
      exact ⟨_, _, _, _, rfl⟩
    · next j _ =>
      obtain ⟨regs, ce, free, h⟩ := readJournal_frame s j
      have hscan : ∃ regs ce free ds, (scanDomain s d j).1 = { s with regs := regs, dramCe := ce, free := free, domains := ds } := by
        unfold scanDomain
        generalize readJournal s j = x at h ⊢
        obtain ⟨u, es⟩ := x
        obtain rfl := h
        dsimp only
        split
        all_goals exact ⟨_, _, _, _, rfl⟩
      generalize scanDomain s d j = x at hscan ⊢
      obtain ⟨u, found⟩ := x
      obtain ⟨_, _, _, _, rfl⟩ := hscan
      dsimp only
      split
      · exact ⟨_, _, _, _, rfl⟩
      · rw [commitError, recordErr_same]
        exact ⟨_, _, _, _, rfl⟩

theorem restoreCellar_queues (s : State) (d : Domain) (c : List Byte) : (restoreCellar s d c).queues = s.queues := by
  unfold restoreCellar
  dsimp only
  split
  · rfl
  · next j _ =>
    rw [State.modDomain_only]
    obtain ⟨_, _, _, _, h⟩ := scanNow_frame _ d.id
    exact (congrArg State.queues h).trans rfl

variable {p dma : List Byte} {d : Domain}

/-- A domain whose cellar is restored. -/
def resumedDomain (d : Domain) : Domain :=
  { d with
    stopped := false, entry := withIdState d.entry (field d.entry 0 4 - d.state * 2 ^ 18 + 2 ^ 18)
    group := d.group.map (·.resumed d.nextStep) }

theorem resumedDomain_state (d : Domain) : (resumedDomain d).state = 1 := by
  have h := bits_bound (w := field d.entry 0 4) (g := 0) (Or.inl rfl)
  exact (congrArg (fun w => bits w 19 18) (field_withIdState_first d.entry _)).trans h

theorem resumed_fields (g : Group) (n : Nat) : (g.resumed n).tableStep = none ∧ (g.resumed n).reports = [] ∧ (g.resumed n).state ≠ .stopped := by
  refine ⟨rfl, rfl, ?_⟩
  unfold Group.resumed
  dsimp only
  split
  · decide
  · assumption

theorem cellarRestore_none (hd : s.domain? (field p 0 4) = none) : cellarRestore s p dma = nackRange s 0 := by
  unfold cellarRestore
  dsimp only
  rw [hd]

theorem cellarRestore_running (hd : s.domain? (field p 0 4) = some d) (hrun : d.run.isSome = true) : cellarRestore s p dma = nackBusy s := by
  unfold cellarRestore
  dsimp only
  rw [hd]
  exact if_pos hrun

theorem cellarRestore_bad (hd : s.domain? (field p 0 4) = some d) (hrun : d.run = none) (hok : cellarOk (field p 0 4) dma = false) :
    cellarRestore s p dma = nackRange s 8 := by
  unfold cellarRestore
  dsimp only
  rw [hd]
  exact (if_neg (by rw [hrun]; decide)).trans (if_pos (by rw [hok]; rfl))

theorem cellarRestore_good (hd : s.domain? (field p 0 4) = some d) (hrun : d.run = none) (hok : cellarOk (field p 0 4) dma = true) :
    cellarRestore s p dma = okay (changeDomain (restoreCellar s d dma) (field p 0 4) resumedDomain) := by
  unfold cellarRestore
  dsimp only
  rw [hd]
  exact (if_neg (by rw [hrun]; decide)).trans ((if_neg (by rw [hok]; decide)).trans
    (congrArg (fun f => okay (changeDomain (restoreCellar s d dma) (field p 0 4) f)) rfl))

theorem restored_takes (s : State) (id : Nat) (d : Domain) (dma : List Byte) :
    let u := changeDomain (restoreCellar s d dma) id resumedDomain
    u.queues = s.queues ∧ ∀ e, u.domain? id = some e → e.stopped = false ∧ e.state = 1 ∧
      ∀ g, e.group = some g → g.tableStep = none ∧ g.reports = [] ∧ g.state ≠ .stopped := by
  have hqueues := restoreCellar_queues s d dma
  generalize restoreCellar s d dma = w at hqueues ⊢
  cases hw : w.domain? id with
  | none =>
    have hsame : changeDomain w id resumedDomain = w := by rw [changeDomain, hw]
    rw [hsame]
    exact ⟨hqueues, fun e he => absurd (hw.symm.trans he) (by simp)⟩
  | some x =>
    obtain ⟨hdom, -, hq⟩ := changeDomain_takes hw resumedDomain rfl
    refine ⟨hq.trans hqueues, fun e he => ?_⟩
    obtain rfl := Option.some.inj (hdom.symm.trans he)
    refine ⟨rfl, resumedDomain_state x, fun g hg => ?_⟩
    obtain ⟨g', -, rfl⟩ := Option.map_eq_some_iff.mp (show x.group.map (·.resumed x.nextStep) = some g from hg)
    exact resumed_fields g' _

end

theorem SameDevice.dramSize {s v : State} (h : SameDevice s v) : Machine.dramSize v = Machine.dramSize s := by
  have hkeys : ∀ c < 24, Reg.DDR_STATE.key c 0 ∉ [Reg.QMGR_HOST_LAST_SEEN.key 0 0, Reg.MBX_EXPECTED_SEQ.key 0 0] := by decide
  have hchans : (List.range 24).filter (chanInService v) = (List.range 24).filter (chanInService s) := by
    refine List.filter_congr fun c hc => ?_
    rw [chanInService, chanInService, h.regs _ c 0 (hkeys c (List.mem_range.mp hc))]
  exact congrArg (fun cs : List Nat => cs.length * 72000000000) hchans

theorem mbxServing_dramUe {s : State} {a : MbxArgs} (h : HostInTime s a.time) : (mbxServing s a).dramUe = s.dramUe := by
  obtain ⟨-, _, _, hsame⟩ := mbxServing_same (a := a) h
  exact (congrArg State.dramUe hsame :)

/-- Settles O42, request by request: each part is the lemma about what its opcode does. -/
theorem mailboxDomainRequests : Obligations.MailboxDomainRequests := by
  unfold Obligations.MailboxDomainRequests
  intro s a p v id
  refine ⟨fun h => ?_, fun h => ?_, fun h => ?_, fun h => ?_, fun h => ?_, fun h => ?_, fun h => ?_, fun h => ?_, fun h => ?_⟩
  all_goals
    have hv : SameDevice s v := h.sameDevice
  · have hans {x : Answer} (hx : contextCreate v p = x) : exec (.contextCreate a) s = .next (mbxAnswered 0x40 a x) :=
      h.exec (fun _ => rfl) (by decide) (by decide) (by decide) (by decide) hx
    have hrange := entryRange_same hv.queues false (newEntry p)
    refine ⟨fun n hn => hans (contextCreate_outOfRange (hrange.trans hn)), fun hn => ?_⟩
    have hcreate := contextCreate_inRange (hrange.trans hn)
    refine ⟨fun d hd => hans (hcreate.trans (if_pos ?_)), fun hd => ?_⟩
    · rw [hv.domain?, show s.domain? (newContext p) = some d from hd]
      rfl
    · have hfree : ¬(v.domain? (newContext p)).isSome = true := by
        rw [hv.domain?, show s.domain? (newContext p) = none from hd]
        decide
      have hbind := hcreate.trans (if_neg hfree)
      refine ⟨fun h7 => hans (hbind.trans (bindDomain_meets h7)), fun h9 => hans (hbind.trans (bindDomain_large h9)), fun hfits hk => ?_⟩
      obtain ⟨hdoms, hqueues⟩ := boundDevice_tables v (entryDomain (newContext p) (newEntry p))
      have hstate := entryDomain_state (newContext p) (newEntry p)
      refine ⟨_, _, hans (hbind.trans (bindDomain_fits hfits)), (State.domain?_of_domains hdoms _).trans (State.domain?_setDomain_same v rfl), hstate,
        beq_iff_eq.mpr hstate, rfl, rfl, fun j hj => ?_, hqueues.trans hv.queues⟩
      exact (State.domain?_of_domains hdoms j).trans ((State.domain?_setDomain_ne v (Ne.symm hj)).trans (hv.domain? j))
  · have hans {x : Answer} (hx : contextDestroy v p = x) : exec (.contextDestroy a) s = .next (mbxAnswered 0x41 a x) :=
      h.exec (fun _ => rfl) (by decide) (by decide) (by decide) (by decide) hx
    have hdom := hv.domain? id
    refine ⟨fun hd => hans (contextDestroy_none (hdom.trans hd)), fun d hd => ⟨fun hid => hans (contextDestroy_whole (hdom.trans hd) hid),
      fun hid => ⟨fun hrun => hans (contextDestroy_running (hdom.trans hd) (Nat.not_le.mpr hid) hrun), fun hrun => ?_⟩⟩⟩
    obtain ⟨hdoms, hqueues⟩ := unboundDevice_tables v d
    have hid' : d.id = id := State.domain?_id hd
    rw [hid', hv.domains] at hdoms
    refine ⟨_, hans (contextDestroy_eq (hdom.trans hd) (Nat.not_le.mpr hid) hrun), fun x hx => ?_, fun j hj => ?_, hqueues.trans hv.queues⟩
    · rw [hdoms, List.mem_filter, bne_iff_ne] at hx
      exact hx.2
    · rw [State.domain?, hdoms]
      exact find?_without s.domains hj
  · intro n ans
    have hans {x : Answer} (hx : placementWrite v p a.dma = x) : exec (.placementWrite a) s = .next (mbxAnswered 0x42 a x) :=
      h.exec (fun _ => rfl) (by decide) (by decide) (by decide) (by decide) hx
    refine ⟨fun hid => hans (placementWrite_first hid), fun hid hn => hans (placementWrite_count hid hn),
      fun hid hn hend hbad => hans (placementWrite_firstBad hid hn hend hbad), fun hid hn hend hdoms hlen hbase hsize hok => ?_⟩
    have hvdoms : v.domains = [] := hv.domains.trans hdoms
    have hbase' : v.getF Reg.PLC_BASE 0 0 = s.getF Reg.PLC_BASE 0 0 := hv.get (by decide)
    have hfind : (List.range n).find? (fun k => !placeAccepted v id a.dma (id + k)) = none := by
      refine List.find?_eq_none.mpr fun k hk => ?_
      have hlt := List.mem_range.mp hk
      rw [placeAccepted_alone hvdoms hlt hlen (hok k hlt)]
      decide
    have hbytes : a.dma.length = 64 * n := hlen
    obtain ⟨_, _, hwrite⟩ := dramWrite_lines (s := v) (a := v.getF Reg.PLC_BASE 0 0 + 64 * id) (d := a.dma) (by rw [hbase']; omega) (by omega)
      (by rw [hbase', hv.dramSize]; omega)
    have hdram : (dramWrite v (v.getF Reg.PLC_BASE 0 0 + 64 * id) a.dma).1.dram = Memory.writeL s.dram (s.getF Reg.PLC_BASE 0 0 + 64 * id) a.dma := by
      rw [hwrite, ← hbase', ← hv.dram]
    refine ⟨_, hans (placementWrite_good hid hn hend hvdoms hfind hlen), ?_, fun k hk => ?_⟩
    · refine (congrArg (fun m => Memory.readN m _ _) hdram).trans ?_
      rw [← hbytes]
      exact Memory.readN_writeL a.dma s.dram _
    · refine (congrArg (fun m => Memory.read m k) hdram).trans (Memory.read_writeL_outside a.dma s.dram ?_)
      omega
  · intro ans good
    have hans {x : Answer} (hx : domainSet v p = x) : exec (.domainSet a) s = .next (mbxAnswered 0x43 a x) :=
      h.exec (fun _ => rfl) (by decide) (by decide) (by decide) (by decide) hx
    have hdom := hv.domain? id
    have hfits (d : Domain) : legacyFits v (domainSettings p d) = legacyFits s (domainSettings p d) := legacyFits_same hv.queues _
    refine ⟨fun h16 => hans (if_pos h16), fun h16 h18 => hans ((if_neg (Nat.not_lt.mpr h16)).trans (if_pos h18)),
      fun hg hid hd => hans (domainSet_none hg hid (hdom.trans hd)), fun hg hid hz d hd => hans ((domainSet_some hg hid (hdom.trans hd)).trans (if_pos hz)),
      fun hg hid hz d hd hno => hans ((domainSet_some hg hid (hdom.trans hd)).trans ((if_neg (not_not_intro hz)).trans (if_pos ?_))),
      fun hg hid hz d hd hyes hlen => ?_⟩
    · rw [hfits, hno]
      rfl
    · have hset := (domainSet_some hg hid (hdom.trans hd)).trans ((if_neg (not_not_intro hz)).trans (if_neg (by rw [hfits, hyes]; decide)))
      obtain ⟨hidd, -, h1, h2, h3, h4, h5, h6, h7, h8⟩ := domainSettings_fields p d
      obtain ⟨hseed, hroot⟩ := settings_entry (p := p) hlen
      obtain ⟨hsame, hother, hqueues⟩ := changeDomain_takes (hdom.trans hd) (domainSettings p) hidd
      exact ⟨_, _, hans hset, hsame, h1, h2, h3, h4, h5, h6, hseed, hroot, h7, h8, fun j hj => (hother j hj).trans (hv.domain? j),
        hqueues.trans hv.queues⟩
  · intro b ans
    have hans {x : Answer} (hx : upbSubmit v p = x) : exec (.upbSubmit a) s = .next (mbxAnswered 0x44 a x) :=
      h.exec (fun _ => rfl) (by decide) (by decide) (by decide) (by decide) hx
    have hdom := hv.domain? id
    refine ⟨fun hd => hans (upbSubmit_none (hdom.trans hd)), fun d hd => ?_⟩
    intro past
    have hpast : upbPast p d = true ↔ past := upbPast_iff p d
    refine ⟨fun hbad => hans (upbSubmit_refused (hdom.trans hd) (hbad.imp_right hpast.mpr)), fun hvalid hnot => ?_⟩
    exact hans (upbSubmit_taken (hdom.trans hd) hvalid (Bool.eq_false_iff.mpr fun hp => hnot (hpast.mp hp)))
  · intro ans on
    have hans {x : Answer} (hx : retainSet v p = x) : exec (.retainSet a) s = .next (mbxAnswered 0x45 a x) :=
      h.exec (fun _ => rfl) (by decide) (by decide) (by decide) (by decide) hx
    have hdom := hv.domain? id
    obtain ⟨_, hfw⟩ := hv.fw
    have hbases : v.fw.bases = s.fw.bases := by rw [hfw]
    have hkept : v.fw.retainedBases = s.fw.retainedBases := by rw [hfw]
    refine ⟨fun hid hd => hans (retainSet_none hid (hdom.trans hd)), fun hid d hd => ?_, fun hid hno => hans (retainSet_noBase hid (hbases ▸ hno)),
      fun hid hyes => ?_⟩
    · obtain ⟨hsame, -, -⟩ := changeDomain_takes (hdom.trans hd) (withRetained on) rfl
      exact ⟨_, _, hans (retainSet_domain hid (hdom.trans hd)), (State.domain?_of_domains rfl _).trans hsame, rfl, bit_retained on d⟩
    · obtain ⟨hself, hothers⟩ := mem_keptBases v (id - 0x80000) on
      exact ⟨_, hans (retainSet_base hid (hbases ▸ hyes)), hself, fun r hr => hkept ▸ hothers r hr⟩
  · intro r b n ans
    have hans {x : Answer} (hx : baseLoad v p = x) : exec (.baseLoad a) s = .next (mbxAnswered 0x46 a x) :=
      h.exec (fun _ => rfl) (by decide) (by decide) (by decide) (by decide) hx
    obtain ⟨_, hfw⟩ := hv.fw
    have hbases : v.fw.bases = s.fw.bases := by rw [hfw]
    rw [← hv.dramSize, ← hv.dram, ← hbases]
    refine ⟨fun hr => hans (baseLoad_region hr), fun hr hb => hans (baseLoad_base hr hb), fun hr hb hn => hans (baseLoad_size hr hb hn),
      fun hr hb hn hend hue => ?_⟩
    refine ⟨_, hans (baseLoad_good hr hb hn hend ((mbxServing_dramUe h.turn.inTime).trans hue)), List.mem_append_right _ (List.mem_singleton.mpr rfl),
      List.mem_append_right _ (List.mem_singleton.mpr rfl), fun y hy hne => List.mem_append_left _ (List.mem_filter.mpr ⟨hy, bne_iff_ne.mpr hne⟩), rfl⟩
  · intro w ans
    have hans {x : Answer} (hx : exportRequest v p = x) : exec (.exportReq a) s = .next (mbxAnswered 0x50 a x) :=
      h.exec (fun _ => rfl) (by decide) (by decide) (by decide) (by decide) hx
    have hstate : exportState v = exportState s := hv.get (by decide)
    rw [← hstate]
    refine ⟨fun hb => hans (exportRequest_busy hb), fun h1 h2 hd => hans (exportRequest_none (not_or.mpr ⟨h1, h2⟩) ((hv.domain? _).trans hd)),
      fun h1 h2 hd w0 w1 w2 w3 w5 w6 w7 hlist => ?_⟩
    obtain ⟨d, hd⟩ := Option.isSome_iff_exists.mp hd
    obtain ⟨_, hregs⟩ := exportAsked_regs v p d
    exact ⟨_, hans (exportRequest_good (not_or.mpr ⟨h1, h2⟩) ((hv.domain? _).trans hd) ⟨w0, w1, w2, w3, w5, w6, w7, hlist⟩),
      (congrArg State.now hregs :), (congrArg State.domains hregs :).trans hv.domains, (congrArg State.dram hregs :).trans hv.dram⟩
  · intro ans
    have hans {x : Answer} (hx : cellarRestore v p a.dma = x) : exec (.cellarRestore a) s = .next (mbxAnswered 0x51 a x) :=
      h.exec (fun _ => rfl) (by decide) (by decide) (by decide) (by decide) hx
    have hdom := hv.domain? id
    refine ⟨fun hd => hans (cellarRestore_none (hdom.trans hd)), fun d hd => ⟨fun hrun => hans (cellarRestore_running (hdom.trans hd) hrun),
      fun hrun hbad => hans (cellarRestore_bad (hdom.trans hd) hrun hbad), fun hrun hok => ?_⟩⟩
    obtain ⟨hqueues, hdomain⟩ := restored_takes v id d a.dma
    exact ⟨_, hans (cellarRestore_good (hdom.trans hd) hrun hok), hqueues.trans hv.queues, hdomain⟩

end Sys2Proof.Machine
end

section
namespace Sys2Proof.Machine

set_option Elab.async false

/-! O40: mailbox requests about the group, channels, logs and the life cycle. -/

/-! No step that the failure of a group takes burns a fuse. -/

theorem foldl_fuses {α : Type} {g : State → α → State} (h : ∀ s a, (g s a).fuses = s.fuses) (l : List α) (s : State) :
    (l.foldl g s).fuses = s.fuses := by
  induction l generalizing s with
  | nil => rfl
  | cons a l ih => exact (ih (g s a)).trans (h s a)

theorem foldl_snd_fuses {α β : Type} {g : β × State → α → β × State} (h : ∀ x a, (g x a).2.fuses = x.2.fuses) (l : List α) (x : β × State) :
    (l.foldl g x).2.fuses = x.2.fuses := by
  induction l generalizing x with
  | nil => rfl
  | cons a l ih => exact (ih (g x a)).trans (h x a)

section
variable (s : State)

/-! Device DRAM and domains. -/

theorem dramWrite_fuses (a : Nat) (d : List Byte) : (dramWrite s a d).1.fuses = s.fuses := by
  rcases dramWrite_cases s a d with ⟨c, l, h⟩ | ⟨m, ue, ce, h⟩
  · rw [h, State.recordErr_fuses]
  · rw [h]

theorem scanNow_fuses (id : Nat) : (scanNow s id).fuses = s.fuses := by
  obtain ⟨_, _, _, _, h⟩ := scanNow_frame s id
  rw [h]

theorem modDomain_fuses (id : Nat) (f : Domain → Domain) : (s.modDomain id f).fuses = s.fuses := by
  rw [State.modDomain_only]

theorem giveSides_fuses (tiles : List Nat) (fresh : List (Nat × Nat)) : (giveSides s tiles fresh).fuses = s.fuses := by
  refine foldl_fuses (fun s l => ?_) tiles s
  split
  · exact State.modTile_fuses ..
  · rfl

theorem dropGathered_fuses (id : Nat) : (dropGathered s id).fuses = s.fuses := by
  unfold dropGathered
  split
  · rfl
  · dsimp only
    rw [modDomain_fuses]
    split
    · exact giveSides_fuses ..
    · rfl

theorem zeroCullets_fuses (d : Domain) : (zeroCullets s d).fuses = s.fuses := modDomain_fuses _ d.id _

theorem dropStepState_fuses (id : Nat) : (dropStepState s id).fuses = s.fuses := by
  unfold dropStepState
  split
  · rfl
  · rw [modDomain_fuses, dropGathered_fuses, zeroCullets_fuses]

theorem takeSides_fuses (id : Nat) : (takeSides s id).fuses = s.fuses := modDomain_fuses s id _

/-! Operations of the crucible. -/

theorem cruUndefine_fuses (a n : Nat) : (cruUndefine s a n).fuses = s.fuses := dramWrite_fuses s a _

theorem ctlFault_fuses (code i0 i1 : Nat) : (ctlFault s code i0 i1).fuses = s.fuses := State.recordErr_fuses ..

theorem cruWrite_fuses (a : Nat) (d : List Byte) : (cruWrite s a d).fuses = s.fuses := by
  unfold cruWrite
  dsimp only
  split
  · exact dramWrite_fuses s a d
  · exact (ctlFault_fuses ..).trans (dramWrite_fuses s a d)

theorem undefineOp_fuses (o : CruOp) (outcome : Nat) : (undefineOp s o outcome).fuses = s.fuses := by
  have hareas (s : State) (it : _) (n m : Nat) : (cruUndefine (cruUndefine s (iA it) n) (iB it) m).fuses = s.fuses :=
    (cruUndefine_fuses ..).trans (cruUndefine_fuses ..)
  unfold undefineOp
  dsimp only
  have hfree (c : Prop) [Decidable c] : (if c then s.useFree else s).fuses = s.fuses := by split <;> rfl
  have hgrad (c : Prop) [Decidable c] (v : State) : (if c then cruUndefine (o.items.foldl (fun s it =>
      cruUndefine (cruUndefine s (iA it) (2 * iLen it)) (iB it) (2 * iLen it)) v) (dBrec o.words) (2 * dNBlocks o.words) else v).fuses = v.fuses := by
    split
    · exact (cruUndefine_fuses ..).trans (foldl_fuses (fun s it => hareas s it _ _) _ v)
    · rfl
  split
  · split
    · exact (cruUndefine_fuses ..).trans ((hgrad _ _).trans (hfree _))
    · split
      · exact (foldl_fuses (fun s it => hareas s it _ _) _ _).trans ((hgrad _ _).trans (hfree _))
      · exact (hgrad _ _).trans (hfree _)
  · exact (hgrad _ _).trans (hfree _)

theorem rootEffects_fuses (o : CruOp) (outcome : Nat) : (rootEffects s o outcome).fuses = s.fuses := by
  unfold rootEffects
  dsimp only
  split
  · exact modDomain_fuses ..
  · split
    · exact (dropGathered_fuses ..).trans (modDomain_fuses ..)
    · exact modDomain_fuses ..
  · have hstatus (c : Prop) [Decidable c] : (if c then o.items.foldl (fun s it =>
        cruWrite s (dStatus o.words + 16 * iIndex it) (toLe 4 (0x06 + 2 ^ 8 + 2 ^ 10) ++ zeros 12)) s else s).fuses = s.fuses := by
      split
      · exact foldl_fuses (fun s it => cruWrite_fuses s _ _) _ s
      · rfl
    split
    · exact (modDomain_fuses ..).trans (hstatus _)
    · exact hstatus _
  · rfl

theorem endOp_fuses (outcome faultPos : Nat) (sum : Word) (prev : Nat) : (endOp s outcome faultPos sum prev).fuses = s.fuses := by
  unfold endOp
  split
  · rfl
  · next o _ =>
    have hbase := (rootEffects_fuses (undefineOp s o outcome) o outcome).trans (undefineOp_fuses s o outcome)
    dsimp only
    generalize rootEffects (undefineOp s o outcome) o outcome = w at hbase ⊢
    have hrecord (c : Prop) [Decidable c] : (if c then w else (((dramWrite w (dResult o.words) (resultRecord o outcome
        (if outcome = 2 then faultPos else 0) sum w.now)).1).countF Reg.CRU_OPS_DONE 8 0 1).raise 3 0 8 1).fuses = s.fuses := by
      split
      · exact hbase
      · rw [State.raise_fuses, State.countF_fuses, dramWrite_fuses, hbase]
    have hclose (s : State) (c : CruChan) : ((setChF s Reg.CH_OPEN c.ch 0).raise 3 0 (c.ch / 2) 1).fuses = s.fuses := by
      rw [State.raise_fuses, setChF, State.setF_fuses]
    refine (foldl_fuses hclose o.chans _).trans ?_
    rw [State.countF_fuses, State.countF_fuses, State.countF_fuses]
    split
    · rw [State.raise_fuses, State.countF_fuses, hrecord]
    · rw [State.raise_fuses, State.countF_fuses, hrecord]
    · rw [State.raise_fuses, State.countF_fuses, hrecord]
    · exact hrecord _

theorem withOp_fuses {f : State → State} (hf : ∀ s, (f s).fuses = s.fuses) (k : Nat) : (withOp s k f).fuses = s.fuses := by
  unfold withOp
  split
  · rfl
  · next o _ =>
    dsimp only
    have h := hf { s with cru := o :: s.cru.eraseIdx k }
    split
    · exact h
    · split
      · exact h
      · exact h

theorem dropOps_fuses (fuel id a : Nat) : (dropOps fuel s id a).fuses = s.fuses := by
  induction fuel generalizing s with
  | zero => rfl
  | succ fuel ih =>
    unfold dropOps
    split
    · exact (ih _).trans (withOp_fuses s (fun s => endOp_fuses s 5 0 0#32 0) _)
    · rfl

/-! Tiles that stop. -/

theorem putPantry_fuses (i : TileId) (a : Nat) (d : List Byte) : (s.putPantry i a d).fuses = s.fuses := State.modTile_fuses ..

theorem stopWrite_fuses (j : TileId) (x : Nat × State) (a : Nat) (new : List Byte) : (stopWrite j x a new).2.fuses = x.2.fuses := putPantry_fuses ..

theorem stopRow_fuses (i : TileId) (d : AccDesc) (x : Nat × State) (r : Nat) : (stopRow i d x r).2.fuses = x.2.fuses := by
  unfold stopRow
  split
  · rfl
  · dsimp only
    split
    · exact dramWrite_fuses ..
    · split
      · split
        · exact stopWrite_fuses ..
        · rfl
      · exact stopWrite_fuses ..

theorem stopDescs_fuses (i : TileId) : (s.stopDescs i).fuses = s.fuses := by
  unfold State.stopDescs
  dsimp only
  split
  · rfl
  · exact foldl_snd_fuses (fun x d => foldl_snd_fuses (stopRow_fuses i d) _ x) _ (0, s)

theorem stopDrains_fuses (i : TileId) : (s.stopDrains i).fuses = s.fuses := by
  unfold State.stopDrains
  dsimp only
  split
  · rfl
  · rw [State.useFree_fuses, foldl_snd_fuses (fun x (w : LineWrite) => stopWrite_fuses i x w.addr w.data),
      foldl_snd_fuses (fun x (g : Staged) => stopWrite_fuses i x g.addr g.old), State.modTile_fuses]

theorem landAllStores_fuses (i : TileId) : (s.landAllStores i).fuses = s.fuses := by
  unfold State.landAllStores
  dsimp only
  rw [foldl_fuses (fun s (p : PendStore) => putPantry_fuses s i p.addr p.data), State.modTile_fuses]

theorem countStopped_fuses (i : TileId) : (s.countStopped i).fuses = s.fuses := by
  unfold State.countStopped
  exact foldl_fuses (fun s d => State.countF_fuses ..) _ s

theorem dropDescHazards_fuses (i : TileId) : (s.dropDescHazards i).fuses = s.fuses := by
  unfold State.dropDescHazards
  split <;> rfl

theorem settleClashes_fuses : s.settleClashes.fuses = s.fuses := by
  unfold State.settleClashes
  split <;> rfl

theorem stopTile_fuses (i : TileId) : (s.stopTile i).fuses = s.fuses := by
  unfold State.stopTile
  dsimp only
  rw [settleClashes_fuses, State.modTile_fuses, dropDescHazards_fuses, stopDrains_fuses, stopDescs_fuses, countStopped_fuses, landAllStores_fuses]

theorem tileFault_fuses (i : TileId) (code info1 : Nat) : (s.tileFault i code info1).fuses = s.fuses := by
  unfold State.tileFault
  dsimp only
  split
  · rfl
  · rw [State.modTile_fuses]
    split
    · rw [stopTile_fuses, State.recordErr_fuses]
    · exact State.recordErr_fuses ..

theorem landStores_fuses (i : TileId) (c : Nat) : (s.landStores i c).fuses = s.fuses := by
  unfold State.landStores
  dsimp only
  rw [foldl_fuses (fun s (p : PendStore) => putPantry_fuses s i p.addr p.data), State.modTile_fuses]

theorem clockTo_fuses (i : TileId) (c : Nat) : (s.clockTo i c).fuses = s.fuses := by
  unfold State.clockTo
  split <;> rfl

theorem stallCycles_fuses (i : TileId) (n : Nat) : (stallCycles s i n).fuses = s.fuses := by
  unfold stallCycles
  split
  · rfl
  · dsimp only
    split
    all_goals
      simp only [tileFault_fuses, landStores_fuses, clockTo_fuses, State.modTile_fuses, State.countF_fuses]

theorem settleStall_fuses (i : TileId) : (settleStall s i).fuses = s.fuses := by
  have hto (c : Nat) : (stallTo s i c).fuses = s.fuses := by
    unfold stallTo
    split
    · exact stallCycles_fuses ..
    · rfl
  unfold settleStall
  split
  · exact hto _
  · rfl

theorem doAbort_fuses (i : TileId) : (doAbort s i).fuses = s.fuses := by
  unfold doAbort
  split
  · rw [setHalted, State.raise_fuses, State.modTile_fuses, stopTile_fuses, settleStall_fuses]
  · rfl

theorem abortUnit_fuses (u : RunUnit) : (abortUnit s u).fuses = s.fuses := foldl_fuses doAbort_fuses _ s

theorem abortAll_fuses : (abortAll s).fuses = s.fuses := by
  refine foldl_fuses (fun s q => ?_) s.queues s
  split
  · exact abortUnit_fuses ..
  · rfl

theorem setQueue_fuses (q : Queue) : (s.setQueue q).fuses = s.fuses := by
  unfold State.setQueue
  dsimp only
  split <;> rfl

/-! The failure of members. -/

theorem abortStep_fuses (id a : Nat) : (abortStep s id a).fuses = s.fuses := by
  unfold abortStep
  split
  · exact dropOps_fuses ..
  · split
    · rfl
    · dsimp only
      rw [modDomain_fuses]
      refine (dropOps_fuses ..).trans ?_
      split
      · exact takeSides_fuses s id
      · split
        · exact takeSides_fuses s id
        · split
          · split
            · rw [setQueue_fuses, abortUnit_fuses, takeSides_fuses]
            · exact takeSides_fuses s id
          · exact takeSides_fuses s id

theorem control_fuses (m op : Nat) (d : List Byte) : (s.control m op d).fuses = s.fuses := rfl

theorem sendPos_fuses (g : Group) (p op : Nat) (d : List Byte) : (sendPos s g p op d).fuses = s.fuses := by
  unfold sendPos
  split <;> rfl

theorem startClone_fuses (id : Nat) (repair : Bool) (srcs : List Nat) : (startClone s id repair srcs).fuses = s.fuses := by
  unfold startClone
  dsimp only
  split
  · exact (foldl_fuses (fun s p => sendPos_fuses s _ p _ _) _ _).trans (modDomain_fuses ..)
  · exact modDomain_fuses ..

theorem beginClone_fuses (id : Nat) (a : GroupAction) : (beginClone s id a).fuses = s.fuses := by
  unfold beginClone
  split
  · rfl
  · split
    · rfl
    · split
      · rfl
      · exact (startClone_fuses ..).trans (modDomain_fuses ..)

theorem failReceived_fuses (b : List Byte) : (failReceived s b).fuses = s.fuses := by
  unfold failReceived
  dsimp only
  split
  · rfl
  · refine (foldl_fuses (fun s a => beginClone_fuses s _ a) _ _).trans ?_
    refine (modDomain_fuses ..).trans ((dropStepState_fuses ..).trans ?_)
    split
    · split
      · exact (scanNow_fuses ..).trans (abortStep_fuses ..)
      · exact abortStep_fuses ..
    · exact abortStep_fuses ..

theorem issueFail_fuses (id : Nat) (acts : List GroupAction) : (issueFail s id acts).fuses = s.fuses := by
  have hstages (s : State) (d : Domain) (b : List Byte) : (sendStages s d b).fuses = s.fuses := by
    refine foldl_fuses (fun s x => ?_) d.stages s
    split <;> rfl
  unfold issueFail
  split
  · rfl
  · split
    · rfl
    · dsimp only
      rw [failReceived_fuses, hstages]
      refine (foldl_fuses (fun s (x : GroupAction) => control_fuses s x.member _ _) _ _).trans ?_
      exact foldl_fuses (fun s p => sendPos_fuses s _ p _ _) _ s

theorem failMembers_fuses (id : Nat) (ps : List Nat) (cause : Nat) : (failMembers s id ps cause).fuses = s.fuses := by
  unfold failMembers
  split
  · rfl
  · dsimp only
    split
    · rfl
    · exact issueFail_fuses ..

theorem reportStop_fuses (id : Nat) : (reportStop s id).fuses = s.fuses := by
  unfold reportStop
  split
  · rfl
  · split
    · rfl
    · split
      · exact failMembers_fuses ..
      · exact sendPos_fuses ..

end

/-! What the requests find is the device as it stood. -/

section
variable {s : State} {a : MbxArgs}

theorem SameDevice.fabricRefused {v : State} (h : SameDevice s v) : Machine.fabricRefused v = Machine.fabricRefused s := by
  have hcp : cpUp v 3 = cpUp s 3 := congrArg (· == 2) (h.regs Reg.CP_STATE 3 0 (by decide))
  rw [Machine.fabricRefused, Machine.fabricRefused, h.lcState, hcp]

theorem SameDevice.holdsPosition {v : State} (h : SameDevice s v) : Machine.holdsPosition v = Machine.holdsPosition s := by
  rw [Machine.holdsPosition, Machine.holdsPosition, h.domains]

theorem SameDevice.columnsFit {v : State} (h : SameDevice s v) (d : Domain) : Machine.columnsFit v d = Machine.columnsFit s d := by
  have hmapped (l : Nat) : v.mapped l = s.mapped l := by
    have hkeys (i : TileId) : Reg.TILE_MAP_STATE.key i 0 ∉ [Reg.QMGR_HOST_LAST_SEEN.key 0 0, Reg.MBX_EXPECTED_SEQ.key 0 0] ∧
        Reg.TILE_LOGICAL_X.key i 0 ∉ [Reg.QMGR_HOST_LAST_SEEN.key 0 0, Reg.MBX_EXPECTED_SEQ.key 0 0] := by decide +revert
    refine congrArg (fun q => List.find? q (List.finRange 128)) (funext fun i => ?_)
    rw [State.tileActive, State.tileActive, State.logical, State.logical, h.regs _ _ _ (hkeys i).1, h.regs _ _ _ (hkeys i).2]
  have htiles : d.tiles v = d.tiles s := by
    unfold Domain.tiles
    rw [h.queue?]
  rw [Machine.columnsFit, Machine.columnsFit, htiles]
  exact congrArg (fun q => List.all (d.tiles s) q) (funext fun l => by rw [hmapped])

theorem SameDevice.groupPlaced {v : State} (h : SameDevice s v) (id : Nat) : Machine.groupPlaced v id = Machine.groupPlaced s id := by
  rw [Machine.groupPlaced, Machine.groupPlaced, h.domain?]
  exact congrArg (fun q => Option.all q (s.domain? id)) (funext fun d => by rw [h.columnsFit, h.queue?])

theorem mbxServing_groupRange (h : HostInTime s a.time) (p : List Byte) : groupRange (mbxServing s a) p = groupRange s p := by
  have hdom := (mbxServing_sameDevice h).domain? (field p 0 4)
  obtain ⟨-, _, _, hsame⟩ := mbxServing_same (a := a) h
  have htorus : (mbxServing s a).torusFabric = s.torusFabric := (congrArg State.torusFabric hsame :)
  rw [groupRange, groupRange, hdom, htorus]

/-! MEMBER_SET and SPARE_SET. -/

variable {p dma dma2 : List Byte}

/-- MEMBER_SET and SPARE_SET are refused: a position is held, or CP3 serves no fabric. -/
def FabricShut (s : State) : Prop := holdsPosition s = true ∨ fabricRefused s = true

theorem fabricShut_iff (s : State) : FabricShut s ↔ holdsPosition s = true ∨ lcState s = 2 ∨ cpUp s 3 = false := by
  simp only [FabricShut, fabricRefused, Bool.or_eq_true, beq_iff_eq, Bool.not_eq_true']

theorem memberSet_shut (h : FabricShut s) : memberSet s p = nackState s := if_pos h

theorem memberSet_range (h : ¬FabricShut s) (hp : 4096 ≤ field p 0 2) : memberSet s p = nackRange s 0 := (if_neg h).trans (if_pos hp)

theorem memberSet_taken (h : ¬FabricShut s) (hp : field p 0 2 < 4096) :
    memberSet s p = okay (sendMembership ((s.setF Reg.SEC_MEMBER 0 0 (field p 0 2)).setF Reg.SEC_MEMBER_ASSIGNED 0 0 1)) :=
  (if_neg h).trans (if_neg (Nat.not_le.mpr hp))

theorem spareSet_shut (h : FabricShut s) : spareSet s p = nackState s := if_pos h

theorem spareSet_taken (h : ¬FabricShut s) : spareSet s p = okay (updateMembership { s with fw := { s.fw with spare := bit (field p 0 1) 0 } }) := if_neg h

/-! GROUP_SET. -/

/-- The members that the request lists. -/
def groupMembers (p dma : List Byte) : List Nat := (List.range (field p 6 2 + 1)).map (fun k => field dma (2 * k) 2)

/-- The spares that it lists. -/
def groupSpares (p dma2 : List Byte) : List Nat := (List.range (field p 56 1)).map (fun k => field dma2 (2 * k) 2)

/-- The plan that it gives. -/
def groupPlan (p dma : List Byte) : GroupPlan :=
  { torus := bit (field p 4 1) 0, x := if bit (field p 4 1) 0 then field p 8 2 + 1 else field p 6 2 + 1, members := (groupMembers p dma).map some }

/-- The parameters that it gives. -/
def groupParams (p dma2 : List Byte) : GroupParams :=
  { compareInterval := field p 24 2, hbPeriod := field p 26 1, hbExpiry := field p 28 2, stragglerFactor := field p 30 1,
    stragglerSteps := field p 31 1, hopFloor := field p 32 2, spareWait := field p 36 4, minMembers := field p 40 2,
    agreedCopy := field p 42 1, pinLimit := field p 44 2, spares := groupSpares p dma2 }

/-- A domain that takes a plan at its next boundary. -/
def withPlan (p dma dma2 : List Byte) (d : Domain) : Domain :=
  { d.setGrouped with
    group := some { (d.group.getD (Group.waiting d (field p 10 2) (groupParams p dma2))) with
      nextPlan := some (groupPlan p dma, field p 10 2, groupParams p dma2) } }

/-- The first member index past the range. -/
def badIndex (l : List Nat) : Option Nat := l.findIdx? (fun x => decide (x ≥ 4096))

theorem badIndex_none {n : Nat} {f : Nat → Nat} (h : ∀ k, k < n → f k < 4096) : badIndex ((List.range n).map f) = none := by
  refine List.findIdx?_eq_none_iff.mpr fun x hx => ?_
  obtain ⟨k, hk, rfl⟩ := List.mem_map.mp hx
  exact decide_eq_false (Nat.not_le.mpr (h k (List.mem_range.mp hk)))

theorem badIndex_some {n k : Nat} {f : Nat → Nat} (hk : k < n) (hbad : 4096 ≤ f k) (hgood : ∀ j, j < k → f j < 4096) :
    badIndex ((List.range n).map f) = some k := by
  refine List.findIdx?_eq_some_iff_getElem.mpr ⟨by simpa using hk, ?_, fun j hj => ?_⟩
  · simpa using hbad
  · simpa using hgood j hj

theorem groupSet_shut (h : fabricRefused s = true ∨ groupPlaced s (field p 0 4) = false) : groupSet s p dma dma2 = nackState s :=
  if_pos (h.imp_right fun hp => by rw [hp]; rfl)

section
variable (hfabric : fabricRefused s = false) (hplaced : groupPlaced s (field p 0 4) = true)
include hfabric hplaced

theorem groupSet_range {n : Nat} (hn : groupRange s p = some n) : groupSet s p dma dma2 = nackRange s n := by
  unfold groupSet
  rw [hfabric, hplaced, if_neg (by decide), hn]

theorem groupSet_badMember (hr : groupRange s p = none) {k : Nat} (hk : badIndex (groupMembers p dma) = some k) :
    groupSet s p dma dma2 = nackRange s k := by
  unfold groupSet
  rw [hfabric, hplaced, if_neg (by decide), hr]
  dsimp only
  unfold badIndex groupMembers at hk
  rw [hk]

theorem groupSet_running (hr : groupRange s p = none) (hm : badIndex (groupMembers p dma) = none) (hs : badIndex (groupSpares p dma2) = none)
    (hrun : (((changeDomain s (field p 0 4) (withPlan p dma dma2)).domain? (field p 0 4)).bind (·.run)).isSome = true) :
    groupSet s p dma dma2 = okay (changeDomain s (field p 0 4) (withPlan p dma dma2)) := by
  unfold groupSet
  rw [hfabric, hplaced, if_neg (by decide), hr]
  dsimp only
  unfold badIndex groupMembers at hm
  unfold badIndex groupSpares at hs
  rw [hm, hs]
  exact congrArg okay (if_pos hrun)

end

theorem setGrouped_grouped (d : Domain) : bit (field d.setGrouped.entry 0 4) 22 = true := by
  unfold Domain.setGrouped
  dsimp only
  by_cases h : bit (field d.entry 0 4) 22 = true
  · rw [if_pos h]
    exact h
  · rw [if_neg h, field_withIdState_first]
    have hw := field_four_lt d.entry 0
    simp only [bit, beq_iff_eq] at h ⊢
    omega

/-! LOG_READ. -/

/-- The log that a request reads. -/
def logOf (s : State) (p : List Byte) : List (List Byte) :=
  if field p 0 1 = 0 then s.fw.integrityLog else s.fw.eventLog.map (fun e => (e ++ zeros 256).take 256)

theorem logRead_eq (s : State) (p : List Byte) : logRead s p =
    if field p 0 1 > 1 then nackRange s 0
    else if field p 4 4 > (logOf s p).length then nackRange s 4
    else if field p 4 4 + field p 8 4 > (logOf s p).length then nackRange s 8
    else okay (s.sendHost (field p 16 8) (((logOf s p).drop (field p 4 4)).take (field p 8 4)).flatten) := rfl

theorem SameDevice.logOf {v : State} (h : SameDevice s v) (p : List Byte) : Machine.logOf v p = Machine.logOf s p := by
  obtain ⟨_, hfw⟩ := h.fw
  rw [Machine.logOf, Machine.logOf, hfw]

/-! LIFECYCLE_SET. -/

/-- The transitions of Table 13.4. -/
def LcListed (start target : Nat) : Prop :=
  (start = 0 ∧ target = 1) ∨ (start = 1 ∧ (target = 2 ∨ target = 3)) ∨ (start = 2 ∧ (target = 1 ∨ target = 3))

theorem lifecycleSet_unlisted (h : field p 1 1 ≠ lcState s ∨ ¬LcListed (field p 1 1) (field p 0 1)) : lifecycleSet s p dma = nackRange s 0 := by
  unfold lifecycleSet
  dsimp only
  rw [if_pos]
  refine h.imp_right fun hn => ?_
  unfold LcListed at hn
  rw [decide_eq_false hn]
  rfl

section
variable (hfrom : field p 1 1 = lcState s) (hlisted : LcListed (field p 1 1) (field p 0 1)) (hzero : field p 2 6 = 0)
include hfrom hlisted hzero

theorem lifecycleSet_listed : lifecycleSet s p dma =
    if !lcAuthorised s (field p 1 1) (field p 0 1) (dma.take (field p 16 4)) then nackRange s 8
    else if field p 1 1 = 1 ∧ field p 0 1 = 2 ∧ s.fuses.toggles ≥ 32 then nack s 9
    else okay (lcProceed s (field p 0 1) (dma.take (field p 16 4))) := by
  unfold lifecycleSet
  dsimp only
  rw [if_neg, if_neg (not_not_intro hzero)]
  refine not_or.mpr ⟨not_not_intro hfrom, ?_⟩
  unfold LcListed at hlisted
  rw [decide_eq_true hlisted]
  decide

end

/-- The device as the transition finds it once the groups are told and the units aborted. -/
def lcStopped (s : State) : State :=
  let w := abortAll (if cpUp s 3 then (s.domains.map (·.id)).foldl reportStop s else s)
  { w with dram := Memory.clear w.dram 0 16 }

theorem lcProceed_eq (s : State) (target : Nat) (d : List Byte) : lcProceed s target d =
    { lcBurn (lcStopped s) target d with power := { (lcBurn (lcStopped s) target d).power with startDue := some 3 } } := rfl

theorem lcStopped_fuses (s : State) : (lcStopped s).fuses = s.fuses := by
  unfold lcStopped
  dsimp only
  rw [abortAll_fuses]
  split
  · exact foldl_fuses reportStop_fuses _ s
  · rfl

theorem flashPart_setFlash (s : State) (x : FlashPart) : flashPart (setFlash s false x) false = x := by
  simp [flashPart, setFlash]

theorem lcBurn_takes (s : State) (target : Nat) (d : List Byte) :
    (lcBurn s target d).dram = s.dram ∧
      (lcBurn s target d).fuses = { s.fuses with
        decom := if target = 3 then true else s.fuses.decom
        owned := if target ≠ 3 ∧ lcState s = 0 then true else s.fuses.owned
        toggles := if target ≠ 3 ∧ lcState s ≠ 0 then s.fuses.toggles + 1 else s.fuses.toggles } ∧
      (target = 3 → (flashPart (lcBurn s target d) false).security = [] ∧ (flashPart (lcBurn s target d) false).training = List.replicate 24 0) := by
  unfold lcBurn
  dsimp only
  by_cases h3 : target = 3
  · subst h3
    rw [if_pos rfl]
    refine ⟨rfl, rfl, fun _ => ?_⟩
    rw [flashPart_setFlash]
    exact ⟨rfl, rfl⟩
  · have hno (P : Prop) : target = 3 → P := fun h => absurd h h3
    rw [if_neg h3, if_neg h3]
    by_cases h0 : lcState s = 0
    · rw [if_pos h0, if_pos ⟨h3, h0⟩, if_neg fun h => h.2 h0]
      exact ⟨rfl, rfl, hno _⟩
    · rw [if_neg h0, if_neg fun h => h0 h.2, if_pos ⟨h3, h0⟩]
      exact ⟨rfl, rfl, hno _⟩

theorem lcProceed_takes (s : State) (target : Nat) (d : List Byte) :
    let u := lcProceed s target d
    u.power.startDue = some 3 ∧ u.fuses = { s.fuses with
        decom := if target = 3 then true else s.fuses.decom
        owned := if target ≠ 3 ∧ lcState s = 0 then true else s.fuses.owned
        toggles := if target ≠ 3 ∧ lcState s ≠ 0 then s.fuses.toggles + 1 else s.fuses.toggles } ∧
      (target = 3 → (flashPart u false).security = [] ∧ (flashPart u false).training = List.replicate 24 0) ∧
      ∀ k, k < 16 → Memory.read u.dram k = 0#8 := by
  have hfuses := lcStopped_fuses s
  have hstate : lcState (lcStopped s) = lcState s := by rw [lcState, lcState, hfuses]
  have hclear (k : Nat) (hk : k < 16) : Memory.read (lcStopped s).dram k = 0#8 := (Memory.read_clear ..).trans (if_pos ⟨Nat.zero_le k, hk⟩)
  obtain ⟨hdram, hburn, hflash⟩ := lcBurn_takes (lcStopped s) target d
  rw [lcProceed_eq]
  rw [hfuses, hstate] at hburn
  refine ⟨rfl, hburn, hflash, fun k hk => ?_⟩
  exact (congrArg (fun m => Memory.read m k) hdram).trans (hclear k hk)

end

/-- Settles O40, request by request: each part is the lemma about what its opcode does. -/
theorem mailboxGroupAndLifeRequests : Obligations.MailboxGroupAndLifeRequests := by
  unfold Obligations.MailboxGroupAndLifeRequests
  intro s a p v shut
  have hshut {v : State} (h : SameDevice s v) : FabricShut v ↔ shut := by
    rw [FabricShut, h.holdsPosition, h.fabricRefused]
    exact fabricShut_iff s
  refine ⟨fun h => ?_, fun h => ?_, fun h => ?_, fun h => ?_, fun h => ?_, fun h => ?_⟩
  all_goals
    have hv : SameDevice s v := h.sameDevice
  · intro ans
    have hans {x : Answer} (hx : memberSet v p = x) : ans x := h.exec (fun _ => rfl) (by decide) (by decide) (by decide) (by decide) hx
    refine ⟨fun hs => hans (memberSet_shut ((hshut hv).mpr hs)), fun hs hp => hans (memberSet_range (fun hn => hs ((hshut hv).mp hn)) hp),
      fun hs hp => ⟨_, hans (memberSet_taken (fun hn => hs ((hshut hv).mp hn)) hp), ?_⟩⟩
    have hget (w : State) (f : Fld) : (sendMembership w).getF f 0 0 = w.getF f 0 0 := by
      rw [sendMembership_same]
      rfl
    refine ⟨?_, (hget _ _).trans (State.getF_setF_same ..), ?_, ?_⟩
    · rw [hget, State.getF_setF_ne _ _ (by decide), State.getF_setF_same]
      exact Nat.mod_eq_of_lt hp
    · rw [sendMembership_same]
      exact hv.dram
    · rw [sendMembership_same]
      exact hv.queues
  · have hans {x : Answer} (hx : spareSet v p = x) : exec (.spareSet a) s = .next (mbxAnswered 0x21 a x) :=
      h.exec (fun _ => rfl) (by decide) (by decide) (by decide) (by decide) hx
    refine ⟨fun hs => hans (spareSet_shut ((hshut hv).mpr hs)), fun hs => ⟨_, hans (spareSet_taken fun hn => hs ((hshut hv).mp hn)), ?_⟩⟩
    obtain ⟨_, _, hsame⟩ := updateMembership_frame { v with fw := { v.fw with spare := bit (field p 0 1) 0 } }
    rw [hsame]
    exact ⟨rfl, hv.dram, hv.queues⟩
  · intro ans m
    have hans {x : Answer} (hx : groupSet v p a.dma a.dma2 = x) : ans x := h.exec (fun _ => rfl) (by decide) (by decide) (by decide) (by decide) hx
    have hrange := mbxServing_groupRange h.turn.inTime p
    refine ⟨fun hno => hans (groupSet_shut (hno.imp (hv.fabricRefused.trans ·) ((hv.groupPlaced _).trans ·))), fun hfab hpl => ?_⟩
    have hfab' := hv.fabricRefused.trans hfab
    have hpl' := (hv.groupPlaced (field p 0 4)).trans hpl
    refine ⟨fun n hn => hans (groupSet_range hfab' hpl' (hrange.trans hn)), fun hn => ⟨fun k hk hgood hbad => ?_, fun hm hs d hd hrun hid => ?_⟩⟩
    · exact hans (groupSet_badMember hfab' hpl' (hrange.trans hn) (badIndex_some hk hbad hgood))
    · obtain ⟨hdom, -, -⟩ := changeDomain_takes ((hv.domain? (field p 0 4)).trans hd) (withPlan p a.dma a.dma2) rfl
      have hrun' : (((changeDomain v (field p 0 4) (withPlan p a.dma a.dma2)).domain? (field p 0 4)).bind (·.run)).isSome = true := by
        rw [hdom]
        exact hrun
      refine ⟨_, _, _, hans (groupSet_running hfab' hpl' (hrange.trans hn) (badIndex_none hm) (badIndex_none hs) hrun'), hdom, rfl,
        setGrouped_grouped d, rfl, _, _, rfl, ?_, rfl, rfl, rfl⟩
      rw [groupPlan, groupMembers, List.map_map]
      rfl
  · have hans {x : Answer} (hx : channelRetire v p = x) : exec (.channelRetire a) s = .next (mbxAnswered 0x60 a x) :=
      h.exec (fun _ => rfl) (by decide) (by decide) (by decide) (by decide) hx
    exact ⟨fun hc => hans (if_pos hc), fun hc => hans (if_neg (Nat.not_le.mpr hc))⟩
  · intro log ans
    have hans {x : Answer} (hx : logRead v p = x) : ans x := h.exec (fun _ => rfl) (by decide) (by decide) (by decide) (by decide) hx
    have hlog : logOf v p = log := hv.logOf p
    have hread := logRead_eq v p
    rw [hlog] at hread
    refine ⟨fun h1 => hans (hread.trans (if_pos h1)), fun h1 h2 => hans (hread.trans ((if_neg (by omega)).trans (if_pos h2))),
      fun h1 h2 h3 => hans (hread.trans ((if_neg (by omega)).trans ((if_neg (Nat.not_lt.mpr h2)).trans (if_pos h3)))),
      fun h1 h2 => hans (hread.trans ((if_neg (by omega)).trans ((if_neg (by omega)).trans (if_neg (Nat.not_lt.mpr h2)))))⟩
  · intro target start d listed ans
    have hans {x : Answer} (hx : lifecycleSet v p a.dma = x) : ans x := h.exec (fun _ => rfl) (by decide) (by decide) (by decide) (by decide) hx
    have hstate := hv.lcState
    have hlisted (hs : start = lcState s) (hl : listed) (hz : field p 2 6 = 0) := lifecycleSet_listed (dma := a.dma) (hs.trans hstate.symm) hl hz
    have refused (hauth : lcAuthorised v start target d = true) : ¬(!lcAuthorised v start target d) = true := by
      rw [hauth]
      decide
    refine ⟨fun hno => hans (lifecycleSet_unlisted (hno.imp_left fun hs => by rwa [hstate])), fun hs hl hz hauth => ?_, fun hs hl hz hauth h1 h2 ht => ?_,
      fun hs hl hz hauth ht => ?_⟩
    · exact hans ((hlisted hs hl hz).trans (if_pos (congrArg not hauth)))
    · exact hans ((hlisted hs hl hz).trans ((if_neg (refused hauth)).trans (if_pos ⟨h1, h2, hv.fuses ▸ ht⟩)))
    · obtain ⟨h1, h2, h3, h4⟩ := lcProceed_takes v target d
      have hroom : ¬(start = 1 ∧ target = 2 ∧ v.fuses.toggles ≥ 32) := fun hn => Nat.not_le.mpr (ht hn.1 hn.2.1) (hv.fuses ▸ hn.2.2)
      refine ⟨_, hans ((hlisted hs hl hz).trans ((if_neg (refused hauth)).trans (if_neg hroom))), h1, ?_, h3, h4⟩
      rw [h2, hv.fuses, hstate, ← hs]

end Sys2Proof.Machine
end

section
namespace Sys2Proof.Machine

set_option Elab.async false

/-! O52: starts of the device. -/

/-- The registers that a start shows: the state of CP0, the identity of stage 1, the boot count, the lock, the kind of the start, and what
it misses. -/
def bootFlds : List Fld :=
  [Reg.CP_STATE, Reg.MBX_STAGE1_ID, Reg.CONFIG_BOOT_COUNT, Reg.CONFIG_CFG_LOCK, Reg.CONFIG_START_KIND, Reg.CONFIG_MSS_MISSING]

/-- The same, with the state of firmware. -/
def startFlds : List Fld := Reg.MBX_FW_STATE :: bootFlds

/-- A part of a start that keeps the fuses, stage 1, the wait for a runtime image and what is due, and some registers. -/
structure StartKept (fs : List Fld) (s u : State) : Prop where
  fuses : u.fuses = s.fuses
  stage1 : u.fw.stage1 = s.fw.stage1
  wait : u.fw.loadWaitFrom = s.fw.loadWaitFrom
  due : u.power.startDue = s.power.startDue
  fresh : u.power.fresh = s.power.fresh
  now : s.now ≤ u.now
  regs : ∀ f ∈ fs, u.getF f 0 0 = s.getF f 0 0

/-- The device waits for a runtime image, or no more. -/
def State.waiting (s : State) (w : Option Nat) : State := { s with fw := { s.fw with loadWaitFrom := w } }

/-- A key apart from those registers. -/
@[reducible] def Aside (k : Nat) : Prop := ∀ g ∈ startFlds, k ≠ g.key 0 0

/-- A field that lies elsewhere on its page. -/
theorem aside_of_bit {f : Fld} {i : Nat} (h : f.bitOnPage i % 0x8000 ∉ [0x800, 0x820, 0x840, 0x845, 0x860]) (inst : Nat) : Aside (f.key inst i) := by
  have hbits : ∀ g ∈ startFlds, g.bitOnPage 0 % 0x8000 ∈ [0x800, 0x820, 0x840, 0x845, 0x860] := by decide
  intro g hg
  refine Fld.key_ne_of_bitOnPage (fun e => h ?_) inst 0
  rw [e]
  exact hbits g hg

namespace StartKept
variable {fs : List Fld} {s t u : State}

theorem refl (fs : List Fld) (s : State) : StartKept fs s s := ⟨rfl, rfl, rfl, rfl, rfl, Nat.le_refl _, fun _ _ => rfl⟩

theorem andThen (h : StartKept fs s t) (h' : StartKept fs t u) : StartKept fs s u :=
  ⟨h'.fuses.trans h.fuses, h'.stage1.trans h.stage1, h'.wait.trans h.wait, h'.due.trans h.due, h'.fresh.trans h.fresh, Nat.le_trans h.now h'.now,
    fun f hf => (h'.regs f hf).trans (h.regs f hf)⟩

theorem mono {gs : List Fld} (h : StartKept fs s u) (hsub : ∀ g ∈ gs, g ∈ fs) : StartKept gs s u :=
  ⟨h.fuses, h.stage1, h.wait, h.due, h.fresh, h.now, fun f hf => h.regs f (hsub f hf)⟩

theorem foldl {α : Type} {g : State → α → State} (l : List α) (h : ∀ a ∈ l, ∀ s, StartKept fs s (g s a)) (s : State) :
    StartKept fs s (l.foldl g s) := by
  induction l generalizing s with
  | nil => exact refl fs s
  | cons a l ih => exact (h a List.mem_cons_self s).andThen (ih (fun b hb => h b (List.mem_cons_of_mem a hb)) _)

theorem foldlPair {α β : Type} {g : State × β → α → State × β} (l : List α) (h : ∀ a x, StartKept fs x.1 (g x a).1) (x : State × β) :
    StartKept fs x.1 (l.foldl g x).1 := by
  induction l generalizing x with
  | nil => exact refl fs x.1
  | cons a l ih => exact (h a x).andThen (ih _)

theorem ite {c : Prop} [Decidable c] (h : StartKept fs s t) (h' : StartKept fs s u) : StartKept fs s (if c then t else u) := by
  split
  · exact h
  · exact h'

/-- An update of other fields. -/
theorem upd (h1 : u.fuses = s.fuses) (h2 : u.fw = s.fw) (h3 : u.power = s.power) (h4 : u.now = s.now) (h5 : u.regs = s.regs) : StartKept fs s u :=
  ⟨h1, by rw [h2], by rw [h2], by rw [h3], by rw [h3], Nat.le_of_eq h4.symm, fun f _ => getF_of_regs h5 f 0 0⟩

/-- An update of the power state. -/
theorem power (s : State) (p : Power) (h1 : p.startDue = s.power.startDue) (h2 : p.fresh = s.power.fresh) : StartKept fs s { s with power := p } :=
  ⟨rfl, rfl, rfl, h1, h2, Nat.le_refl _, fun _ _ => rfl⟩

theorem atTime (s : State) (t : Nat) : StartKept fs s (s.atTime t) := ⟨rfl, rfl, rfl, rfl, rfl, Nat.le_max_left _ _, fun _ _ => rfl⟩

/-- A register write elsewhere. -/
theorem write (s : State) {f : Fld} {inst i : Nat} (v : Nat) (h : ∀ g ∈ fs, f.key inst i ≠ g.key 0 0) : StartKept fs s (s.setF f inst i v) :=
  ⟨rfl, rfl, rfl, rfl, rfl, Nat.le_refl _, fun g hg => State.getF_setF_ne s v (h g hg)⟩

theorem setF (s : State) {f : Fld} {inst i : Nat} (v : Nat) (h : Aside (f.key inst i)) : StartKept startFlds s (s.setF f inst i v) := write s v h

theorem thenSetF (h : StartKept startFlds s t) {f : Fld} {inst i : Nat} (v : Nat) (hk : Aside (f.key inst i)) :
    StartKept startFlds s (t.setF f inst i v) := h.andThen (setF t v hk)

theorem raise (s : State) (ty pg inst b : Nat) : StartKept startFlds s (s.raise ty pg inst b) := setF s _ (aside_of_bit (by simp) inst)

theorem recordErr (s : State) (ty pg inst code i0 i1 : Nat) : StartKept startFlds s (s.recordErr ty pg inst code i0 i1) := by
  unfold State.recordErr
  split
  · exact refl _ s
  · exact (((setF s _ (aside_of_bit (by simp) inst)).andThen (setF _ _ (aside_of_bit (by simp) inst))).andThen
      (setF _ _ (aside_of_bit (by simp) inst))).andThen (raise _ ty pg inst 0)

theorem announced {ks : List Nat} (h : Announced s u ks) (hks : ∀ g ∈ fs, g.key 0 0 ∉ ks) : StartKept fs s u := by
  obtain ⟨⟨_, _, _, _, _, hsame⟩, hfields⟩ := h
  refine ⟨?_, ?_, ?_, ?_, ?_, Nat.le_of_eq ?_, fun f hf => hfields f 0 0 (hks f hf)⟩
  all_goals rw [hsame]

/-- The wait for a runtime image. -/
theorem waiting (h : StartKept fs s t) (w : Option Nat) : StartKept fs (s.waiting w) (t.waiting w) :=
  ⟨h.fuses, h.stage1, rfl, h.due, h.fresh, h.now, h.regs⟩

/-- A change of registers, of free bytes and of the power state. -/
theorem powerOnly {ks : List Nat} (h : PowerOnly s u ks) (hks : ∀ g ∈ fs, g.key 0 0 ∉ ks) (h1 : u.power.startDue = s.power.startDue)
    (h2 : u.power.fresh = s.power.fresh) : StartKept fs s u :=
  ⟨(congrArg State.fuses h.rest :), (congrArg (fun v => v.fw.stage1) h.rest :), (congrArg (fun v => v.fw.loadWaitFrom) h.rest :), h1, h2,
    Nat.le_of_eq (congrArg State.now h.rest :).symm, fun f hf => h.fields f 0 0 (hks f hf)⟩

end StartKept

/-! Events. -/

section
variable (s : State)

theorem evtFault_keeps (code ty inst i0 i1 queue domain : Nat) : StartKept startFlds s (evtFault s code ty inst i0 i1 queue domain) :=
  StartKept.announced (Announced.raiseEvent s _ _ (List.mem_singleton.mpr rfl)) (by decide)

theorem fwError_keeps (code i0 : Nat) : StartKept startFlds s (fwError s code i0) :=
  (StartKept.recordErr s 8 0 0 code i0 0).andThen (evtFault_keeps _ code 8 0 i0 0 0xFFFF 0x7FFFF)

theorem imageFails_keeps (e : Nat × Nat) : StartKept startFlds s (imageFails s e) := fwError_keeps s e.1 e.2

theorem setFwState_keeps {v : Nat} (hv : v < 8) (cause : Nat) : StartKept bootFlds s (setFwState s v cause) :=
  StartKept.announced (setFwState_takes s hv cause).2 (by decide)

/-! Power domains. -/

theorem seqReq_aside : ∀ d < 50, Aside (Reg.PSEQ_REQ.key 0 d) := by decide

theorem seqCur_aside : ∀ d < 50, Aside (Reg.PSEQ_CUR.key 0 d) := by decide

theorem setDomCur_keeps {d : Nat} (hd : d < 50) (v : Nat) : StartKept startFlds s (setDomCur s d v) := by
  unfold setDomCur
  split
  · exact StartKept.refl _ s
  · exact (StartKept.setF s v (seqCur_aside d hd)).andThen (StartKept.raise _ 19 0 0 1)

theorem domOn_keeps {d : Nat} (hd : d < 50) : StartKept startFlds s (domOn s d) :=
  (StartKept.setF s 2 (seqReq_aside d hd)).andThen (setDomCur_keeps _ hd 2)

theorem domainRequest_keeps (a : Actor) {d : Nat} (hd : d < 50) (v t : Nat) : StartKept startFlds s (domainRequest s a d v t) := by
  have hreq : StartKept startFlds s ((s.atTime t).setF Reg.PSEQ_REQ 0 d v) := (StartKept.atTime s t).andThen (StartKept.setF _ v (seqReq_aside d hd))
  cases hmay : mayAsk s a d v with
  | false =>
    rw [domainRequest_refused (Or.inl hmay)]
    exact StartKept.refl _ s
  | true =>
    by_cases hen : s.getF (Hdr.ENABLE 19) 0 0 = 0
    · rw [domainRequest_refused (Or.inr hen)]
      exact StartKept.refl _ s
    · rw [domainRequest_heard hmay hd hen]
      refine StartKept.ite (StartKept.ite hreq (StartKept.atTime s t)) (StartKept.ite (StartKept.atTime s t) (StartKept.ite hreq ?_))
      exact (hreq.andThen (setDomCur_keeps _ hd 3)).andThen (StartKept.power _ _ rfl rfl)

theorem settleRegions_keeps : StartKept startFlds s (settleRegions s) := by
  rw [settleRegions_eq]
  refine StartKept.ite (StartKept.refl _ s) (StartKept.foldl _ (fun r hr s => ?_) s)
  have hlt := List.mem_range.mp hr
  have hregion (v : State) : StartKept startFlds v (domainRequest v (.cp 2) (32 + r) 0 v.now) := domainRequest_keeps v _ (by omega) 0 _
  unfold settleRegion
  dsimp only
  refine StartKept.ite (StartKept.refl _ s) (StartKept.andThen ?_ (hregion _))
  exact StartKept.ite (domainRequest_keeps s _ (by omega) 0 _) (StartKept.refl _ s)

theorem enableAll_keeps (ty : Nat) : StartKept startFlds s (enableAll s ty) :=
  StartKept.foldl _ (fun i _ s => StartKept.setF s 1 (aside_of_bit (by simp) i)) s

theorem cages_keeps (c : Vector Bool 8) : StartKept startFlds s { s with power := { s.power with cages := c } } := StartKept.power s _ rfl rfl

theorem powerHearth_keeps : StartKept startFlds s (powerHearth s) := by
  have hdoms := StartKept.foldl (fs := startFlds) (g := fun s d => if d < 32 then s else domOn s d) (List.range domCount)
    (fun d hd s => StartKept.ite (StartKept.refl _ s) (domOn_keeps s (List.mem_range.mp hd))) s
  have hblocks := hdoms.andThen (StartKept.foldl (g := enableAll) [2, 3, 5, 7, 8, 9, 10, 14, 16, 17, 18] (fun ty _ s => enableAll_keeps s ty) _)
  unfold powerHearth
  exact hblocks.andThen (cages_keeps _ _)

theorem logicalX_aside (i : TileId) : Aside (Reg.TILE_LOGICAL_X.key i 0) := by decide +revert +kernel

theorem mapState_aside (i : TileId) : Aside (Reg.TILE_MAP_STATE.key i 0) := by decide +revert +kernel

theorem placed_keeps (i : TileId) (v w : Nat) : StartKept startFlds s ((s.setF Reg.TILE_MAP_STATE i 0 v).setF Reg.TILE_LOGICAL_X i 0 w) :=
  (StartKept.setF s v (mapState_aside i)).andThen (StartKept.setF _ w (logicalX_aside i))

theorem setGridMap_keeps (bad : List Nat) : StartKept startFlds s (setGridMap s bad) :=
  StartKept.foldl _ (fun i _ s => placed_keeps s i _ _) s

theorem enableTile_keeps (i : TileId) : StartKept startFlds s (s.setF (Hdr.ENABLE 1) i 0 1) := StartKept.setF s 1 (aside_of_bit (by decide) i.val)

theorem powerClusters_keeps : StartKept startFlds s (powerClusters s) := by
  refine StartKept.foldl _ (fun c hc s => ?_) s
  refine StartKept.ite ((domOn_keeps s (Nat.lt_trans (List.mem_range.mp hc) (by decide))).andThen ?_) (StartKept.refl _ s)
  exact StartKept.foldl _ (fun i _ s => enableTile_keeps s i) _

/-! Ageing. -/

theorem vSet_aside : ∀ n : Fin 4, ∀ k : Fin 8, Aside (Reg.AGE_V_SET.key n k) := by decide

theorem readingKeys_aside : ∀ n : Fin 4, ∀ k : Fin 8, ∀ g ∈ startFlds, g.key 0 0 ∉ readingKeys n k := by decide

theorem targetN_aside : ∀ n : Fin 4, Aside (Reg.BRK_TARGET_N.key 0 n) := by decide

theorem curN_aside : ∀ n : Fin 4, Aside (Reg.BRK_CUR_N.key 0 n) := by decide

theorem settleThrottle_keeps : StartKept startFlds s (settleThrottle s) := by
  have h := settleThrottle_only s
  have hpower := (congrArg State.power h.rest :)
  exact StartKept.powerOnly (PowerOnly.of_regs h) (by decide) (by rw [hpower]) (by rw [hpower])

theorem vSetWrite_keeps (a : Actor) (n : Fin 4) (k : Fin 8) (v : Nat) : StartKept startFlds s (vSetWrite s a n k v) :=
  StartKept.ite (StartKept.refl _ s) (StartKept.setF s _ (vSet_aside n k))

theorem throttled_keeps (p : Power) (h1 : p.startDue = s.power.startDue) (h2 : p.fresh = s.power.fresh) :
    StartKept startFlds s (settleThrottle { s with power := p }) := (StartKept.power s p h1 h2).andThen (settleThrottle_keeps _)

theorem stepDown_keeps (n : Fin 4) : StartKept startFlds s (stepDown s n) := by
  unfold stepDown
  dsimp only
  refine StartKept.ite (StartKept.refl _ s) (StartKept.ite (throttled_keeps s _ rfl rfl) ?_)
  exact StartKept.ite (StartKept.power s _ rfl rfl) (StartKept.thenSetF (StartKept.power s _ (by rfl) (by rfl)) _ (targetN_aside n))

theorem actOnReading_keeps (r : AgeReading) : StartKept startFlds s (actOnReading s r) := by
  have hlt := r.cluster.isLt
  obtain ⟨n, hn⟩ : ∃ n : Fin 4, n.val = r.cluster.val / 8 := ⟨⟨r.cluster.val / 8, by omega⟩, rfl⟩
  obtain ⟨k, hk⟩ : ∃ k : Fin 8, k.val = r.cluster.val % 8 := ⟨⟨r.cluster.val % 8, by omega⟩, rfl⟩
  have hstored : StartKept startFlds s (readingStored s r n k) :=
    StartKept.powerOnly (PowerOnly.of_regs (readingStored_only s r n k)) (readingKeys_aside n k) rfl rfl
  rw [actOnReading_eq (n := n) (k := k) s (by omega)]
  unfold acted
  refine StartKept.ite hstored (hstored.andThen ?_)
  have hraised : StartKept startFlds (readingStored s r n k) (if min r.cpr0 r.cpr1 < 15 then
      (if (readingStored s r n k).getF Reg.AGE_V_SET n k < 850 then vSetWrite (readingStored s r n k) (.cp 2) n k
        ((readingStored s r n k).getF Reg.AGE_V_SET n k + 5) else stepDown (readingStored s r n k) n) else readingStored s r n k) :=
    StartKept.ite (StartKept.ite (vSetWrite_keeps _ _ n k _) (stepDown_keeps _ n)) (StartKept.refl _ _)
  exact StartKept.ite (hraised.andThen (throttled_keeps _ _ rfl rfl)) hraised

theorem writeDrift_keeps (kind : Nat) (cs : List Nat) : StartKept startFlds s (writeDrift s kind cs) := StartKept.upd rfl rfl rfl rfl rfl

theorem stepDownDone_keeps (n : Fin 4) : StartKept startFlds s (stepDownDone s n) := by
  unfold stepDownDone
  dsimp only
  refine StartKept.andThen ?_ (evtFault_keeps _ _ _ _ _ _ _ _)
  refine StartKept.andThen ?_ (StartKept.recordErr _ _ _ _ _ _ _)
  exact StartKept.andThen (throttled_keeps s _ (by rfl) (by rfl)) (writeDrift_keeps _ _ _)

/-! Device DRAM. -/

/-- The registers of a channel that a start, or an error of the channel, may write. -/
def chanFlds : List Fld :=
  [Reg.DDR_STATE, Reg.DDR_CAUSE, Reg.DDR_UE_COUNT, Reg.DDR_CE_COUNT, Reg.DDR_PPR_ROWS, Reg.DDR_DIMM_SERIAL, Reg.DDR_STORED_USED]

theorem chan_aside : ∀ c < 24, ∀ f ∈ chanFlds, Aside (f.key c 0) := by decide +kernel

theorem chanOf_lt (a : Nat) : chanOf s a < 24 := by
  unfold chanOf
  rw [List.getD_eq_getElem?_getD]
  cases h : (chansInService s)[a / 4096 % (chansInService s).length]? with
  | none => decide
  | some c => exact List.mem_range.mp (List.mem_filter.mp (List.mem_of_getElem? h)).1

theorem setChan_keeps {c : Nat} (hc : c < 24) (v cause : Nat) : StartKept startFlds s (setChan s c v cause) := by
  have hset := (StartKept.setF s v (chan_aside c hc Reg.DDR_STATE (by decide))).thenSetF cause (chan_aside c hc Reg.DDR_CAUSE (by decide))
  exact StartKept.ite (hset.andThen (StartKept.raise _ 5 0 c 1)) hset

theorem countF_keeps {f : Fld} {c n : Nat} (h : Aside (f.key c 0)) : StartKept startFlds s (s.countF f c 0 n) := StartKept.setF s _ h

theorem retirePending_keeps {c : Nat} (hc : c < 24) (cause : Nat) : StartKept startFlds s (retirePending s c cause) :=
  StartKept.ite (setChan_keeps s hc 3 cause) (StartKept.refl _ s)

theorem dramRead_keeps (a n : Nat) : StartKept startFlds s (dramRead s a n).1 := by
  have hcount (s : State) (l : Nat) : StartKept startFlds s (s.countF Reg.DDR_CE_COUNT (chanOf s l) 0 1) :=
    countF_keeps s (chan_aside _ (chanOf_lt s l) _ (by decide))
  unfold dramRead
  dsimp only
  split
  · next l _ =>
    refine StartKept.andThen ?_ (retirePending_keeps _ (chanOf_lt s l) 4)
    exact (countF_keeps s (chan_aside _ (chanOf_lt s l) _ (by decide))).andThen (StartKept.recordErr _ _ _ _ _ _ _)
  · have hcounted (m : List Nat) : StartKept startFlds s (((dramLines a n).filter (s.dramCe.contains ·)).foldl
        (fun s l => s.countF Reg.DDR_CE_COUNT (chanOf s l) 0 1) { s with dramCe := m }) :=
      StartKept.andThen (t := { s with dramCe := m }) (StartKept.upd rfl rfl rfl rfl rfl) (StartKept.foldl
        (g := fun s l => s.countF Reg.DDR_CE_COUNT (chanOf s l) 0 1) _ (fun l _ s => hcount s l) { s with dramCe := m })
    split
    · exact hcounted _
    · exact (hcounted _).andThen (StartKept.upd rfl rfl rfl rfl rfl)

theorem dramWrite_keeps (a : Nat) (d : List Byte) : StartKept startFlds s (dramWrite s a d).1 := by
  rcases dramWrite_cases s a d with ⟨c, l, h⟩ | ⟨m, ue, ce, h⟩
  · rw [h]
    exact StartKept.recordErr s _ _ _ _ _ _
  · rw [h]
    exact StartKept.upd rfl rfl rfl rfl rfl

theorem keepEntry_keeps (d : Domain) : StartKept startFlds s (keepEntry s d) :=
  StartKept.ite (StartKept.refl _ s) (dramWrite_keeps s _ _)

theorem setDomain_keeps (d : Domain) : StartKept startFlds s (s.setDomain d) := StartKept.upd rfl rfl rfl rfl rfl

theorem readJournal_keeps (j : Nat) : StartKept startFlds s (readJournal s j).1 :=
  StartKept.foldlPair (β := List (List Byte)) _ (fun k x => dramRead_keeps x.1 (j + 64 * k) 64) (s, [])

theorem scanDomain_keeps (d : Domain) (j : Nat) : StartKept startFlds s (scanDomain s d j).1 := by
  have h := readJournal_keeps s j
  unfold scanDomain
  generalize readJournal s j = x at h ⊢
  obtain ⟨u, es⟩ := x
  dsimp only
  split
  · exact h.andThen (setDomain_keeps _ _)
  · exact h.andThen (setDomain_keeps _ _)

theorem lastDomain_aside : Aside (Reg.COMMIT_LAST_DOMAIN.key 0 0) := by decide

theorem lastStep_aside : Aside (Reg.COMMIT_LAST_STEP.key 0 0) := by decide

theorem scanNow_keeps (id : Nat) : StartKept startFlds s (scanNow s id) := by
  unfold scanNow
  split
  · exact StartKept.refl _ s
  · next d _ =>
    split
    · exact StartKept.recordErr s _ _ _ _ _ _
    · next j _ =>
      have h := scanDomain_keeps s d j
      generalize scanDomain s d j = x at h ⊢
      obtain ⟨u, found⟩ := x
      refine StartKept.ite ?_ (h.andThen (StartKept.recordErr _ _ _ _ _ _ _))
      exact ((h.thenSetF _ lastDomain_aside).thenSetF _ lastStep_aside).andThen (StartKept.raise _ 16 0 0 1)

/-! The domains that DRAM kept. -/

theorem contextCounts_aside : Aside (Reg.PLC_IN_USE.key 0 0) ∧ Aside (Reg.CTX_IN_USE.key 0 0) := by decide

theorem restoreDomains_keeps : StartKept startFlds s (restoreDomains s) := by
  unfold restoreDomains countContexts
  refine StartKept.thenSetF (StartKept.thenSetF ?_ _ contextCounts_aside.1) _ contextCounts_aside.2
  refine StartKept.foldl _ (fun i _ s => ?_) s
  refine StartKept.ite ?_ (StartKept.upd rfl rfl rfl rfl rfl)
  exact ((setDomain_keeps s _).andThen (keepEntry_keeps _ _)).andThen (scanNow_keeps _ i)

/-! The order of a start. -/

theorem setFlash_keeps (fb : Bool) (p : FlashPart) : StartKept startFlds s (setFlash s fb p) := StartKept.upd rfl rfl rfl rfl rfl

theorem startChannels_keeps (f : StartFinds) (warm : Bool) : StartKept startFlds s (startChannels s f warm).1 := by
  refine StartKept.foldlPair _ (fun c x => ?_) (s, false)
  have hk (g : Fld) (hg : g ∈ chanFlds) : Aside (g.key c.val 0) := chan_aside c c.isLt g hg
  have hset (u : State) (ppr serial stored v cause : Nat) (h : StartKept startFlds x.1 u) : StartKept startFlds x.1
      (setChan (((u.setF Reg.DDR_PPR_ROWS c 0 ppr).setF Reg.DDR_DIMM_SERIAL c 0 serial).setF Reg.DDR_STORED_USED c 0 stored) c v cause) :=
    (((h.thenSetF ppr (hk _ (by decide))).thenSetF serial (hk _ (by decide))).thenSetF stored (hk _ (by decide))).andThen
      (setChan_keeps _ c.isLt v cause)
  have hdimm (d : DimmState) : StartKept startFlds x.1 (x.1.modDimm c (fun _ => d)) := StartKept.upd rfl rfl rfl rfl rfl
  dsimp only
  cases (chanStart x.1 f warm c).err with
  | none => exact StartKept.ite ((hset _ _ _ _ _ _ (hdimm _)).andThen (setFlash_keeps _ _ _)) (hset _ _ _ _ _ _ (hdimm _))
  | some e =>
    exact StartKept.ite (((hset _ _ _ _ _ _ (hdimm _)).andThen (StartKept.recordErr _ 5 0 c e c 0)).andThen (setFlash_keeps _ _ _))
      ((hset _ _ _ _ _ _ (hdimm _)).andThen (StartKept.recordErr _ 5 0 c e c 0))

theorem planned_keeps (p : Vector Nat 4) : StartKept startFlds s { s with power := { s.power with plan := p } } := StartKept.power s _ rfl rfl

theorem startAgeing_keeps (f : StartFinds) : StartKept startFlds s (startAgeing s f) := by
  have hvset (c : Nat) (hc : c < 32) : Aside (Reg.AGE_V_SET.key (c / 8) (c % 8)) := by
    have h := vSet_aside ⟨c / 8, by omega⟩ ⟨c % 8, by omega⟩
    exact h
  unfold startAgeing
  dsimp only
  refine StartKept.andThen ?_ (writeDrift_keeps _ 0 (List.range 32))
  refine StartKept.andThen ?_ (StartKept.foldl _ (fun n _ s => StartKept.ite ((StartKept.setF s _ (curN_aside n)).andThen (stepDownDone_keeps _ n))
    (StartKept.refl _ s)) _)
  refine StartKept.andThen ?_ (StartKept.foldl _ (fun r _ s => actOnReading_keeps s r) _)
  have hwarn (u : State) (h : StartKept startFlds s u) (c : Prop) [Decidable c] : StartKept startFlds s (if c then u else u.recordErr 11 0 0 0x070B 0 0) :=
    StartKept.ite h (h.andThen (StartKept.recordErr u _ _ _ _ _ _))
  refine hwarn _ ?_ _
  refine StartKept.andThen ?_ (StartKept.foldl _ (fun n _ s => (StartKept.setF s _ (targetN_aside n)).andThen (StartKept.setF _ _ (curN_aside n))) _)
  refine StartKept.andThen (StartKept.foldl _ (fun c hc s => ?_) s) (planned_keeps _ _)
  split
  · exact StartKept.setF s _ (hvset c (List.mem_range.mp hc))
  · exact StartKept.refl _ s

/-! Host ports. -/

theorem hostPort_aside : ∀ p : Fin 2, ∀ f ∈ [Reg.HP_ROLE, Reg.HP_RATE, Reg.HP_WIDTH, Reg.HP_FAILOVERS], Aside (f.key p 0) := by decide

theorem setRole_keeps (p : Fin 2) (v : Nat) : StartKept startFlds s (setRole s p v) := by
  have h := StartKept.setF s v (hostPort_aside p Reg.HP_ROLE (by decide))
  exact StartKept.ite (h.andThen (StartKept.raise _ 10 0 p 1)) h

theorem noHaFrom_keeps : StartKept startFlds s { s with power := { s.power with haFrom := none } } := StartKept.power s _ rfl rfl

theorem setHostLink_keeps (p : Fin 2) (l : HostLink) : StartKept startFlds s (s.setHostLink p l) := StartKept.upd rfl rfl rfl rfl rfl

theorem settleRoles_keeps (p : Fin 2) : StartKept startFlds s (settleRoles s p) := by
  refine StartKept.ite (StartKept.ite (StartKept.refl _ s) (setRole_keeps s p 1)) (StartKept.ite ?_ ?_)
  · exact (noHaFrom_keeps s).andThen (setRole_keeps _ 0 2)
  · exact StartKept.ite (setRole_keeps s p 1) (setRole_keeps s p 2)

theorem haTimeout_keeps (t : Nat) : StartKept startFlds s (haTimeout s t) := by
  unfold haTimeout
  split
  · exact StartKept.refl _ s
  · have h : StartKept startFlds s { (s.atTime t) with power := { s.power with haFrom := none } } :=
      (StartKept.atTime s t).andThen (noHaFrom_keeps (s.atTime t))
    exact StartKept.ite (StartKept.refl _ s) (StartKept.ite h (StartKept.ite (h.andThen (setRole_keeps _ 1 2)) h))

theorem failover_keeps (q : Fin 2) : StartKept startFlds s (failover s q) := by
  refine StartKept.ite (StartKept.refl _ s) (StartKept.andThen ?_ (StartKept.recordErr _ 10 0 q 0x0422 q 0))
  refine StartKept.andThen ?_ (countF_keeps _ (hostPort_aside q Reg.HP_FAILOVERS (by decide)))
  exact ((setRole_keeps s _ _).andThen (setHostLink_keeps _ _ _)).andThen (setRole_keeps _ q 2)

theorem failoverDelay_keeps (t : Nat) : StartKept startFlds s (failoverDelay s t) := by
  unfold failoverDelay
  dsimp only
  split
  · exact StartKept.refl _ s
  · exact StartKept.ite (StartKept.refl _ s) ((StartKept.atTime s t).andThen (failover_keeps _ _))

theorem hostLinkUp_keeps (p : Fin 2) (gt64 x8 flit256 : Bool) (t : Nat) : StartKept startFlds s (hostLinkUp s p gt64 x8 flit256 t) := by
  have hdue : StartKept startFlds s (failoverDelay (haTimeout (s.atTime t) t) (t - 1)) :=
    ((StartKept.atTime s t).andThen (haTimeout_keeps _ t)).andThen (failoverDelay_keeps _ (t - 1))
  unfold hostLinkUp
  dsimp only
  generalize failoverDelay (haTimeout (s.atTime t) t) (t - 1) = v at hdue ⊢
  refine StartKept.ite hdue (StartKept.ite (hdue.andThen (StartKept.recordErr _ _ _ _ _ _ _)) ?_)
  have hup : StartKept startFlds s (settleRoles (((v.setHostLink p { trained := true, downSince := none }).setF Reg.HP_RATE p 0 (1 + b2n gt64)).setF
      Reg.HP_WIDTH p 0 (1 + b2n x8)) p) :=
    (((hdue.andThen (setHostLink_keeps _ _ _)).thenSetF _ (hostPort_aside p Reg.HP_RATE (by decide))).thenSetF _
      (hostPort_aside p Reg.HP_WIDTH (by decide))).andThen (settleRoles_keeps _ p)
  exact StartKept.ite (hup.andThen (setRole_keeps _ 1 1)) hup

/-- The host ports that a start finds trained, and the role of HB. -/
theorem hostPorts_keep {g : State → Fin 2 → State} (l : List (Fin 2)) (hg : ∀ p s, StartKept startFlds s (g s p)) :
    StartKept startFlds s (if hpRole (l.foldl g s) 0 ≠ 2 ∧ hpRole (l.foldl g s) 1 = 1 then setRole (l.foldl g s) 1 2 else l.foldl g s) := by
  have h : StartKept startFlds s (l.foldl g s) := StartKept.foldl l (fun p _ s => hg p s) s
  exact StartKept.ite (h.andThen (setRole_keeps _ 1 2)) h

theorem startHostPorts_keeps (f : StartFinds) : StartKept startFlds s (startHostPorts s f) :=
  hostPorts_keep s f.hostUp (fun p s => StartKept.ite (hostLinkUp_keeps s p true true true s.now) (StartKept.refl _ s))

/-! The runtime image. -/

theorem cpState_aside : ∀ n ∈ [1, 2, 3], Aside (Reg.CP_STATE.key n 0) := by decide

theorem setCpState_keeps {n : Nat} (hn : n ∈ [1, 2, 3]) (v : Nat) : StartKept startFlds s (setCpState s n v) := by
  have h := StartKept.setF s v (cpState_aside n hn)
  exact StartKept.ite (h.andThen (StartKept.raise _ 7 0 n 1)) h

theorem setRtSlot_keeps (k : Nat) (x : RtSlot) : StartKept startFlds s (setRtSlot s k x) :=
  ⟨rfl, rfl, rfl, rfl, rfl, Nat.le_refl _, fun _ _ => rfl⟩

theorem runtime_aside : (∀ f ∈ [Reg.MBX_RUNTIME_ID, Reg.MBX_VER_MIN, Reg.MBX_VER_MAX, Reg.MBX_RUNTIME_FLASH, Reg.MBX_RUNTIME_FB, Reg.BRK_SAFE_FLOOR,
    Reg.CONFIG_START_MS], Aside (f.key 0 0)) ∧ ∀ n ∈ [1, 2, 3], Aside (Reg.CP_SLOT.key n 0) := by decide

theorem putInForce_keeps (k : Nat) : StartKept startFlds s (putInForce s k) := by
  obtain ⟨hmbx, hslot⟩ := runtime_aside
  have h : StartKept startFlds s { s with fw := { s.fw with inForce := k % 2 } } := ⟨rfl, rfl, rfl, rfl, rfl, Nat.le_refl _, fun _ _ => rfl⟩
  exact (((((h.thenSetF _ (hmbx _ (by decide))).thenSetF _ (hmbx _ (by decide))).thenSetF _ (hmbx _ (by decide))).thenSetF _
    (hslot 1 (by decide))).thenSetF _ (hslot 2 (by decide))).thenSetF _ (hslot 3 (by decide))

theorem settleFloor_keeps : StartKept startFlds s (settleFloor s) := throttled_keeps s _ rfl rfl

theorem enterSafeFloor_keeps (cause : Nat) : StartKept startFlds s (enterSafeFloor s cause) := by
  refine StartKept.ite (StartKept.refl _ s) (StartKept.andThen ?_ (settleFloor_keeps _))
  exact ((StartKept.setF s 1 (runtime_aside.1 _ (by decide))).andThen (StartKept.raise _ 6 0 0 1)).andThen (StartKept.recordErr _ _ _ _ _ _ _)

theorem kmlState_aside : ∀ p : Fin 8, Aside (Reg.KML_STATE.key p 0) := by decide

theorem setPortState_keeps (p : Fin 8) (v : Nat) : StartKept startFlds s (setPortState s p v) := by
  have h : StartKept startFlds s ((s.setF Reg.KML_STATE p 0 v).modPort p (fun x => { x with since := if v = 3 then x.since else s.now })) :=
    (StartKept.setF s v (kmlState_aside p)).andThen (StartKept.upd rfl rfl rfl rfl rfl)
  exact StartKept.ite (h.andThen (StartKept.raise _ 4 0 p 1)) h

theorem portTrains_keeps (p : Fin 8) : StartKept startFlds s (portEnable (s.setF (Hdr.ENABLE 4) p 0 1) p true) := by
  have h : StartKept startFlds s (s.setF (Hdr.ENABLE 4) p 0 1) := StartKept.setF s 1 (aside_of_bit (by decide) p.val)
  have htrain (v : State) : portEnable v p true = if portState v p = 0 then setPortState v p 1 else v := rfl
  rw [htrain]
  exact StartKept.ite (h.andThen (setPortState_keeps _ p 1)) h

theorem stampStart_keeps : StartKept startFlds s (stampStart s) := StartKept.setF s _ (runtime_aside.1 _ (by decide))

/-! The kind of a start. -/

/-- The kind that a start has where DRAM is kept, or not. -/
def kindOf (keep warm : Bool) : Nat := if keep then 1 else if warm then 2 else 0

/-- What the kind of a start says. -/
structure KindSet (s u : State) (warm : Bool) : Prop where
  kept : StartKept (startFlds.erase Reg.CONFIG_START_KIND) s u
  cold : warm = false → u.getF Reg.CONFIG_START_KIND 0 0 = 0
  wiped : u.getF Reg.CONFIG_START_KIND 0 0 = 0 → u.dram = []

theorem retainedRanges_aside : Aside (Reg.CONFIG_RETAINED_RANGES.key 0 0) := by decide

theorem wipeDram_keeps (keep : Bool) : StartKept startFlds s (wipeDram s keep) := by
  refine StartKept.ite (StartKept.upd rfl rfl rfl rfl rfl) (StartKept.thenSetF ?_ _ retainedRanges_aside)
  exact StartKept.upd rfl rfl rfl rfl rfl

/-- DRAM as a start leaves it once its channels are up. -/
def dramStarted (s : State) (keep warm : Bool) (ds : Vector DimmState 24) : State :=
  { wipeDram (s.setF Reg.CONFIG_START_KIND 0 0 (kindOf keep warm)) keep with dimms := ds }

theorem dramStarted_kind {keep warm : Bool} (h : keep = true → warm = true) (ds : Vector DimmState 24) : KindSet s (dramStarted s keep warm ds) warm := by
  have hkind : (dramStarted s keep warm ds).getF Reg.CONFIG_START_KIND 0 0 = kindOf keep warm % 2 ^ 2 :=
    ((wipeDram_keeps (s.setF Reg.CONFIG_START_KIND 0 0 (kindOf keep warm)) keep).regs Reg.CONFIG_START_KIND (by decide)).trans
      (State.getF_setF_same s Reg.CONFIG_START_KIND 0 0 _)
  have hset : StartKept (startFlds.erase Reg.CONFIG_START_KIND) s (s.setF Reg.CONFIG_START_KIND 0 0 (kindOf keep warm)) := StartKept.write s _ (by decide)
  refine ⟨?_, fun hw => ?_, fun hk => ?_⟩
  · exact (hset.andThen ((wipeDram_keeps _ keep).mono (by decide))).andThen (StartKept.upd rfl rfl rfl rfl rfl)
  · cases keep with
    | false =>
      rw [hkind, hw]
      decide
    | true => rw [h rfl] at hw; cases hw
  · cases keep with
    | false => rfl
    | true =>
      rw [hkind] at hk
      exact absurd hk (show ¬ 1 % 2 ^ 2 = 0 by decide)

theorem startDram_kind (f : StartFinds) (warm : Bool) : KindSet s (startDram s f warm) warm := by
  have hch := startChannels_keeps s f warm
  have heq : ∃ ds, startDram s f warm = dramStarted (startChannels s f warm).1 (warm && !(startChannels s f warm).2 &&
      sameChannels (startChannels s f warm).1 f) warm ds := ⟨_, rfl⟩
  obtain ⟨ds, h⟩ := heq
  rw [h]
  have hkeep : (warm && !(startChannels s f warm).2 && sameChannels (startChannels s f warm).1 f) = true → warm = true := by
    cases warm
    · exact fun h => absurd h (by simp)
    · exact fun _ => rfl
  obtain ⟨hk, hcold, hwiped⟩ := dramStarted_kind (startChannels s f warm).1 hkeep ds
  exact ⟨(hch.mono (by decide)).andThen hk, hcold, hwiped⟩

theorem startBlocks_kind (f : StartFinds) (warm : Bool) : KindSet s (startBlocks s f warm) warm := by
  have hpower : StartKept startFlds s { s with power := { s.power with failedClusters := [] } } := StartKept.power s _ rfl rfl
  have hgrid := ((hpower.andThen (setGridMap_keeps _ (startBad s f))).andThen (powerClusters_keeps _)).andThen (startAgeing_keeps _ f)
  obtain ⟨hk, hcold, hwiped⟩ := startDram_kind (startAgeing (powerClusters (setGridMap { s with power := { s.power with failedClusters := [] } }
    (startBad s f))) f) f warm
  exact ⟨(hgrid.mono (by decide)).andThen hk, hcold, hwiped⟩

/-! The configuration. -/

theorem config_aside : (∀ f ∈ [Reg.BRK_PCAP, Reg.BRK_T_THROTTLE_CFG, Reg.CTX_BASE, Reg.PLC_BASE, Reg.COMMIT_WHOLE_JOURNAL_BASE, Reg.CONFIG_EXPORT_OFF],
    Aside (f.key 0 0)) ∧ ∀ f ∈ [Reg.KML_MAP_MEMBER, Reg.KML_MAP_PORT, Reg.KML_MAP_VALID], ∀ p < 8, Aside (f.key p 0) := by decide

/-- A start without an effect on what DRAM holds. -/
structure ConfigKept (s u : State) : Prop where
  kept : StartKept startFlds s u
  dram : u.dram = s.dram

namespace ConfigKept
variable {t u : State}

theorem thenSetF (h : ConfigKept s t) {f : Fld} {inst i : Nat} (v : Nat) (hk : Aside (f.key inst i)) : ConfigKept s (t.setF f inst i v) :=
  ⟨h.kept.thenSetF v hk, h.dram⟩

theorem foldl {α : Type} {g : State → α → State} (l : List α) (h : ∀ a ∈ l, ∀ t, ConfigKept s t → ConfigKept s (g t a)) (ht : ConfigKept s t) :
    ConfigKept s (l.foldl g t) := by
  induction l generalizing t with
  | nil => exact ht
  | cons a l ih => exact ih (fun b hb => h b (List.mem_cons_of_mem a hb)) (h a List.mem_cons_self t ht)

end ConfigKept

theorem startConfig_takes : ∃ t, startConfig s = t.setF Reg.CONFIG_CFG_LOCK 0 0 1 ∧ ConfigKept s t := by
  refine ⟨_, rfl, ?_⟩
  obtain ⟨hone, hport⟩ := config_aside
  have hhdm (t : State) (b : Bool) (x : Option (Nat × Nat)) (h : ConfigKept s t) :
      ConfigKept s { t with torusFabric := b, power := { t.power with hdm := x } } :=
    ⟨h.kept.andThen ⟨rfl, rfl, rfl, rfl, rfl, Nat.le_refl _, fun _ _ => rfl⟩, h.dram⟩
  refine hhdm _ _ _ (ConfigKept.thenSetF _ (ConfigKept.foldl _ _ (fun p hp t h => ?_) ?_) _ (hone _ (by decide)))
  · have hlt := List.mem_range.mp hp
    exact ((h.thenSetF _ _ (hport _ (by decide) p hlt)).thenSetF _ _ (hport _ (by decide) p hlt)).thenSetF _ _ (hport _ (by decide) p hlt)
  · have h : ConfigKept s s := ⟨StartKept.refl _ s, rfl⟩
    exact ((((h.thenSetF _ _ (hone _ (by decide))).thenSetF _ _ (hone _ (by decide))).thenSetF _ _ (hone _ (by decide))).thenSetF _ _
      (hone _ (by decide))).thenSetF _ _ (hone _ (by decide))

/-! The end of a start. -/

theorem clocks_keep : StartKept startFlds s { s with
    fw := { s.fw with kicks := Vector.replicate 4 s.now }
    power := { s.power with liveAt := s.now, driftAt := s.now, idleAt := (List.range 32).map (fun c => (c, s.now)) } } :=
  ⟨rfl, rfl, rfl, rfl, rfl, Nat.le_refl _, fun _ _ => rfl⟩

theorem serviceSet_keeps {v : Nat} (hv : v < 8) (cause : Nat) : StartKept bootFlds s (stampStart (setFwState s v cause)) :=
  (setFwState_keeps s hv cause).andThen ((stampStart_keeps _).mono (by decide))

theorem startRuntime_keeps (i : List Byte) (flash fb : Bool) : StartKept bootFlds (s.waiting none) (startRuntime s i flash fb) := by
  have hsub : ∀ g ∈ bootFlds, g ∈ startFlds := by decide
  obtain ⟨hmbx, -⟩ := runtime_aside
  unfold startRuntime
  extract_lets _ slotted inForce named cp1 cps _ _ clocked ports restored served reported cause
  have hnamed : StartKept startFlds (s.waiting none) named :=
    (((setRtSlot_keeps (s.waiting none) _ _).andThen (putInForce_keeps _ 0)).thenSetF _ (hmbx _ (by decide))).thenSetF _ (hmbx _ (by decide))
  have hcp1 : StartKept startFlds (s.waiting none) cp1 := hnamed.andThen (setCpState_keeps _ (by decide) 2)
  have hcps : StartKept startFlds (s.waiting none) cps :=
    StartKept.ite ((hcp1.andThen (setCpState_keeps _ (by decide) 2)).andThen (setCpState_keeps _ (by decide) 2)) (hcp1.andThen (enterSafeFloor_keeps _ 0))
  have hclocked : StartKept startFlds (s.waiting none) clocked := hcps.andThen (clocks_keep cps)
  have hports : StartKept startFlds (s.waiting none) ports :=
    StartKept.ite (hclocked.andThen (StartKept.foldl _ (fun p _ t => portTrains_keeps t p) _)) hclocked
  have hrestored : StartKept startFlds (s.waiting none) restored := StartKept.ite (hports.andThen (restoreDomains_keeps ports)) hports
  have hserved : StartKept bootFlds (s.waiting none) served :=
    ((hrestored.andThen (settleRegions_keeps restored)).mono hsub).andThen (serviceSet_keeps _ (by decide) 0)
  have hreported : StartKept bootFlds (s.waiting none) reported :=
    StartKept.ite (hserved.andThen ((evtFault_keeps served _ _ _ _ _ _ _).mono hsub)) hserved
  exact StartKept.ite hreported (hreported.andThen ((evtFault_keeps reported _ _ _ _ _ _ _).mono hsub))

theorem serviceOnly_keeps (code : Nat) : StartKept bootFlds (s.waiting none) (serviceOnly s code) := by
  unfold serviceOnly
  extract_lets reported
  have hreported : StartKept startFlds s reported := StartKept.ite (StartKept.refl _ s) (fwError_keeps s code 0)
  exact ((hreported.waiting none).mono (by decide)).andThen (serviceSet_keeps _ (by decide) code)

theorem fwState_serviceOnly (code : Nat) : fwState (serviceOnly s code) = 2 := by
  unfold serviceOnly
  extract_lets reported
  exact ((stampStart_keeps _).regs Reg.MBX_FW_STATE (by decide)).trans (setFwState_takes _ (by decide) code).1

theorem takeFlashRuntime_keeps : StartKept bootFlds (s.waiting none) (takeFlashRuntime s) := by
  have hfails (v : State) (e : Nat × Nat) : StartKept bootFlds (v.waiting none) ((imageFails v e).waiting none) :=
    ((imageFails_keeps v e).waiting none).mono (by decide)
  unfold takeFlashRuntime
  extract_lets a b
  split
  · exact startRuntime_keeps s a true false
  · next e _ =>
    extract_lets failed
    split
    · exact (hfails s e).andThen (startRuntime_keeps failed b true true)
    · exact ((hfails s e).andThen (hfails failed _)).andThen (serviceOnly_keeps _ _)

/-! Stage 1. -/

theorem setCpState_zero {v : Nat} (hv : v < 8) :
    (setCpState s 0 v).getF Reg.CP_STATE 0 0 = v ∧ StartKept (startFlds.erase Reg.CP_STATE) s (setCpState s 0 v) := by
  have hset : StartKept (startFlds.erase Reg.CP_STATE) s (s.setF Reg.CP_STATE 0 0 v) := StartKept.write s v (by decide)
  have hval : (s.setF Reg.CP_STATE 0 0 v).getF Reg.CP_STATE 0 0 = v := (State.getF_setF_same s _ 0 0 v).trans (Nat.mod_eq_of_lt hv)
  have hraise := StartKept.raise (s.setF Reg.CP_STATE 0 0 v) 7 0 0 1
  unfold setCpState
  dsimp only
  split
  · exact ⟨(hraise.regs Reg.CP_STATE (by decide)).trans hval, hset.andThen (hraise.mono (by decide))⟩
  · exact ⟨hval, hset⟩

/-- The fuses stay, nothing new is due, and time does not go back. -/
structure Basics (s u : State) : Prop where
  fuses : u.fuses = s.fuses
  due : u.power.startDue = s.power.startDue
  fresh : u.power.fresh = s.power.fresh
  now : s.now ≤ u.now

theorem StartKept.basics {fs : List Fld} {s u : State} (h : StartKept fs s u) : Basics s u := ⟨h.fuses, h.due, h.fresh, h.now⟩

theorem Basics.trans {s t u : State} (h : Basics s t) (h' : Basics t u) : Basics s u :=
  ⟨h'.fuses.trans h.fuses, h'.due.trans h.due, h'.fresh.trans h.fresh, Nat.le_trans h.now h'.now⟩

/-- The registers that name stage 1. -/
def stage1Flds : List Fld := [Reg.CP_STATE, Reg.MBX_STAGE1_ID, Reg.CONFIG_BOOT_COUNT]

/-- Stage 1 is in force. -/
structure Stage1Set (s : State) (i : List Byte) (u : State) : Prop where
  basics : Basics s u
  image : u.fw.stage1 = i
  state : u.getF Reg.CP_STATE 0 0 = 2
  id : u.getF Reg.MBX_STAGE1_ID 0 0 = imgId i
  count : u.getF Reg.CONFIG_BOOT_COUNT 0 0 = (field (flashPart s false).security 0 4 + 1) % 2 ^ 32

namespace Stage1Set
variable {s u v : State} {i : List Byte} {fs : List Fld}

theorem andThen (h : Stage1Set s i u) (hk : StartKept fs u v) (hfs : ∀ g ∈ stage1Flds, g ∈ fs) : Stage1Set s i v :=
  ⟨h.basics.trans hk.basics, hk.stage1.trans h.image, (hk.regs _ (hfs _ (by decide))).trans h.state, (hk.regs _ (hfs _ (by decide))).trans h.id,
    (hk.regs _ (hfs _ (by decide))).trans h.count⟩

theorem waiting (h : Stage1Set s i u) (w : Option Nat) : Stage1Set s i (u.waiting w) :=
  ⟨⟨h.basics.fuses, h.basics.due, h.basics.fresh, h.basics.now⟩, h.image, h.state, h.id, h.count⟩

end Stage1Set

theorem imgId_lt (i : List Byte) : imgId i < 2 ^ 32 := field_four_lt i 8

theorem defaulted_aside : Aside (Reg.CONFIG_CFG_DEFAULTED.key 0 0) ∧ Aside (Reg.CONFIG_DEFAULT_CAUSE.key 0 0) := by decide

theorem setCpState_flash (n v : Nat) : (setCpState s n v).flash = s.flash := by
  unfold setCpState
  dsimp only
  split
  · rfl
  · rfl

theorem stage1Begins_takes (f : StartFinds) (i : List Byte) : Stage1Set s i (stage1Begins s f i) := by
  unfold stage1Begins
  extract_lets _ imaged running fa count burnt counted served cause
  obtain ⟨hstate, hrunning⟩ := setCpState_zero (imaged.setF Reg.MBX_STAGE1_ID 0 0 (imgId i)) (v := 2) (by decide)
  have hid : running.getF Reg.MBX_STAGE1_ID 0 0 = imgId i := (hrunning.regs _ (by decide)).trans
    ((State.getF_setF_same imaged _ 0 0 _).trans (Nat.mod_eq_of_lt (imgId_lt i)))
  have hcounted : StartKept [Reg.CP_STATE, Reg.MBX_STAGE1_ID] running counted :=
    StartKept.andThen (t := burnt) ((setFlash_keeps running _ _).mono (by decide)) (StartKept.write burnt count (by decide))
  have hbegun : StartKept [] imaged counted := StartKept.andThen (StartKept.write imaged (imgId i) (by simp))
    ((hrunning.mono (by simp)).andThen (hcounted.mono (by simp)))
  have hfa : fa = flashPart s false := by
    have hflash : running.flash = s.flash := setCpState_flash _ 0 2
    simp only [fa, flashPart, hflash]
  have hset : Stage1Set s i counted := by
    refine ⟨Basics.trans (t := imaged) ⟨rfl, rfl, rfl, Nat.le_refl _⟩ hbegun.basics, hbegun.stage1, ?_, ?_, ?_⟩
    · exact (hcounted.regs _ (by decide)).trans hstate
    · exact (hcounted.regs _ (by decide)).trans hid
    · rw [← hfa]
      exact (State.getF_setF_same burnt _ 0 0 count).trans (Nat.mod_mod _ _)
  have hend : StartKept bootFlds counted ((served.setF Reg.CONFIG_CFG_DEFAULTED 0 0 (b2n (cause != 0))).setF Reg.CONFIG_DEFAULT_CAUSE 0 0 cause) :=
    (setFwState_keeps counted (by decide) 0).andThen ((((StartKept.refl startFlds served).thenSetF _ defaulted_aside.1).thenSetF _
      defaulted_aside.2).mono (by decide))
  exact hset.andThen hend (by decide)

theorem lcState_of_decom (h : s.fuses.decom = true) : lcState s = 3 := if_pos h

theorem mssMissing_of_noCp1 {f : StartFinds} (h : f.cp1Ok = false) (bad : List Nat) : mssMissing s f bad = 3 := by simp [mssMissing, h]

/-- Stage 1 has the device ready. -/
structure Stage1Ready (s : State) (i : List Byte) (warm : Bool) (missing : Nat) (u : State) : Prop where
  set : Stage1Set s i u
  lock : u.getF Reg.CONFIG_CFG_LOCK 0 0 = 1
  cold : warm = false → u.getF Reg.CONFIG_START_KIND 0 0 = 0
  wiped : u.getF Reg.CONFIG_START_KIND 0 0 = 0 → u.fw.loadWaitFrom ≠ none → u.dram = []
  missing : u.getF Reg.CONFIG_MSS_MISSING 0 0 = missing % 2 ^ 3

theorem Stage1Ready.andThen {s u v : State} {i : List Byte} {warm : Bool} {missing : Nat} (h : Stage1Ready s i warm missing u)
    (hk : StartKept bootFlds (u.waiting none) v) : Stage1Ready s i warm missing v :=
  ⟨(h.set.waiting none).andThen hk (by decide), (hk.regs _ (by decide)).trans h.lock, fun hw => (hk.regs _ (by decide)).trans (h.cold hw),
    fun _ hwait => absurd hk.wait hwait, (hk.regs _ (by decide)).trans h.missing⟩

/-- A run of stage 1. -/
structure Stage1Run (s : State) (f : StartFinds) (i : List Byte) (warm : Bool) (u : State) : Prop where
  ready : ∃ missing, Stage1Ready s i warm missing u
  decom : s.fuses.decom = true → fwState u = 2
  noCp1 : f.cp1Ok = false → fwState u = 2 ∧ u.getF Reg.CONFIG_MSS_MISSING 0 0 = 3

/-- The blocks have started, and the configuration is locked. -/
theorem startConfig_ready {u : State} {i : List Byte} {warm : Bool} (hset : Stage1Set s i u) (hcold : warm = false → u.getF Reg.CONFIG_START_KIND 0 0 = 0)
    (hwiped : u.getF Reg.CONFIG_START_KIND 0 0 = 0 → u.dram = []) (missing : Nat) (w : Option Nat) :
    Stage1Ready s i warm missing ((startConfig (u.setF Reg.CONFIG_MSS_MISSING 0 0 missing)).waiting w) := by
  have hmissed : StartKept (startFlds.erase Reg.CONFIG_MSS_MISSING) u (u.setF Reg.CONFIG_MSS_MISSING 0 0 missing) := StartKept.write u missing (by decide)
  obtain ⟨t, hconfig, ht, hdram⟩ := startConfig_takes (u.setF Reg.CONFIG_MSS_MISSING 0 0 missing)
  have hlocked : StartKept (startFlds.erase Reg.CONFIG_CFG_LOCK) t (t.setF Reg.CONFIG_CFG_LOCK 0 0 1) := StartKept.write t 1 (by decide)
  have hkind : (t.setF Reg.CONFIG_CFG_LOCK 0 0 1).getF Reg.CONFIG_START_KIND 0 0 = u.getF Reg.CONFIG_START_KIND 0 0 :=
    ((hlocked.regs _ (by decide)).trans (ht.regs _ (by decide))).trans (hmissed.regs _ (by decide))
  have hlock : (t.setF Reg.CONFIG_CFG_LOCK 0 0 1).getF Reg.CONFIG_CFG_LOCK 0 0 = 1 := State.getF_setF_same t Reg.CONFIG_CFG_LOCK 0 0 1
  rw [hconfig]
  refine ⟨?_, hlock, fun hw => hkind.trans (hcold hw), fun hk _ => ?_, ?_⟩
  · exact (((hset.andThen hmissed (by decide)).andThen ht (by decide)).andThen hlocked (by decide)).waiting w
  · exact hdram.trans (hwiped (hkind.symm.trans hk))
  · exact ((hlocked.regs _ (by decide)).trans (ht.regs _ (by decide))).trans (State.getF_setF_same u _ 0 0 missing)

theorem runStage1_runs (f : StartFinds) (i : List Byte) (warm : Bool) : Stage1Run s f i warm (runStage1 s f i warm) := by
  unfold runStage1
  extract_lets ported blocks missing configured
  have hported : Stage1Set s i ported := (stage1Begins_takes s f i).andThen (startHostPorts_keeps _ f) (by decide)
  obtain ⟨hblocks, hcold, hwiped⟩ := startBlocks_kind ported f warm
  have hready (w : Option Nat) : Stage1Ready s i warm missing (configured.waiting w) :=
    startConfig_ready s (hported.andThen hblocks (by decide)) hcold hwiped missing w
  have hmissing (h : f.cp1Ok = false) : missing = 3 := mssMissing_of_noCp1 blocks h _
  clear_value configured missing
  have hdecom (h : s.fuses.decom = true) : lcState configured = 3 :=
    lcState_of_decom _ ((congrArg Fuses.decom (hready none).set.basics.fuses).trans h)
  split
  · have hend := (hready none).andThen (serviceOnly_keeps configured 0)
    refine ⟨⟨missing, hend⟩, fun _ => fwState_serviceOnly configured 0, fun h => ⟨fwState_serviceOnly configured 0, ?_⟩⟩
    exact hend.missing.trans (by simp [hmissing h])
  · next hserve =>
    obtain ⟨hlc, hmss⟩ := not_or.mp hserve
    have hnone : s.fuses.decom ≠ true ∧ f.cp1Ok ≠ false := ⟨fun h => hlc (hdecom h), fun h => hmss (by rw [hmissing h]; decide)⟩
    split
    · exact ⟨⟨missing, (hready none).andThen (takeFlashRuntime_keeps configured)⟩, fun h => absurd h hnone.1, fun h => absurd h hnone.2⟩
    · exact ⟨⟨missing, hready (some configured.now)⟩, fun h => absurd h hnone.1, fun h => absurd h hnone.2⟩

/-! The start as a whole. -/

theorem foldl_flash {α : Type} {g : State → α → State} (l : List α) (h : ∀ a t, (g t a).flash = t.flash) : (l.foldl g s).flash = s.flash := by
  induction l generalizing s with
  | nil => rfl
  | cons a l ih => exact (ih (g s a)).trans (h a s)

theorem domOn_flash (d : Nat) : (domOn s d).flash = s.flash := by
  unfold domOn setDomCur
  split
  · rfl
  · rfl

theorem powerHearth_flash : (powerHearth s).flash = s.flash := by
  have henable (ty : Nat) (t : State) : (enableAll t ty).flash = t.flash := foldl_flash t _ (fun _ _ => rfl)
  have hdom (d : Nat) (t : State) : (if d < 32 then t else domOn t d).flash = t.flash := by
    split
    · rfl
    · exact domOn_flash t d
  have hcages (u : State) (c : Vector Bool 8) (h : u.flash = s.flash) : { u with power := { u.power with cages := c } }.flash = s.flash := h
  refine hcages _ _ ((foldl_flash (g := enableAll) _ _ henable).trans ?_)
  exact foldl_flash s (List.range domCount) hdom

theorem setF_flash (f : Fld) (inst i v : Nat) : (s.setF f inst i v).flash = s.flash := rfl

/-- A start has begun. -/
structure Begun (s : State) (t : Nat) (u : State) : Prop where
  fuses : u.fuses = s.fuses
  flash : u.flash = s.flash
  due : u.power.startDue = none
  fresh : u.power.fresh = false
  now : max s.now t ≤ u.now

theorem resetEntry_rest : (resetEntry s).fuses = s.fuses ∧ (resetEntry s).flash = s.flash ∧ (resetEntry s).now = s.now := by
  obtain ⟨-, hflash, hfuses, -⟩ := loseDomains_rest s
  have hnow : (loseDomains s).now = s.now := (congrArg State.now (loseDomains_only s).rest :)
  unfold resetEntry resetAon
  generalize loseDomains s = c at hflash hfuses hnow ⊢
  exact ⟨hfuses, hflash, hnow⟩

theorem startBegins_begins (reason t : Nat) (going : Bool) : Begun s t (startBegins s reason t going) := by
  unfold startBegins
  extract_lets timed reset since _ powered hearth _
  have hreset : reset.fuses = s.fuses ∧ reset.flash = s.flash ∧ reset.now = max s.now t := by
    obtain ⟨hfuses, hflash, hnow⟩ := resetEntry_rest timed
    simp only [reset]
    split
    · exact ⟨hfuses, hflash, hnow⟩
    · exact ⟨rfl, rfl, rfl⟩
  obtain ⟨hfuses, hflash, hnow⟩ := hreset
  have hhearth : StartKept [] powered hearth := ((powerHearth_keeps powered).mono (by simp)).andThen (StartKept.write _ reason (by simp))
  have hparts : hearth.flash = powered.flash := (setF_flash _ _ _ _ reason).trans (powerHearth_flash powered)
  have hdue : powered.power.startDue = none := rfl
  have hfresh : powered.power.fresh = false := rfl
  have hfuses' : powered.fuses = s.fuses := hfuses
  have hflash' : powered.flash = s.flash := hflash
  have hnow' : powered.now = max s.now t := hnow
  clear_value hearth powered
  exact ⟨hhearth.fuses.trans hfuses', hparts.trans hflash', hhearth.due.trans hdue, hhearth.fresh.trans hfresh, hnow' ▸ hhearth.now⟩

/-- A device that stays in ROM_RECOVERY. -/
theorem romRecovery_recovers (f : StartFinds) (e : Nat × Nat) (warm : Bool) :
    Basics s (romRecovery s f e warm) ∧ fwState (romRecovery s f e warm) = 0 ∧ (romRecovery s f e warm).getF Reg.CP_STATE 0 0 = 1 := by
  unfold romRecovery
  extract_lets failed recovered up served
  have hfailed : Basics s failed := (imageFails_keeps s e).basics.trans (fwError_keeps _ 0x0607 0).basics
  obtain ⟨hstate, hcp⟩ := setCpState_zero failed (v := 1) (by decide)
  have hset := setFwState_keeps (setCpState failed 0 1) (v := 0) (by decide) 0x0607
  have hports : StartKept startFlds recovered served := hostPorts_keep recovered f.hostUp (fun p t => hostLinkUp_keeps t p true true true t.now)
  refine ⟨?_, ?_, ?_⟩
  · have h := ((hfailed.trans hcp.basics).trans hset.basics).trans hports.basics
    exact ⟨h.fuses, h.due, h.fresh, h.now⟩
  · exact (hports.regs Reg.MBX_FW_STATE (by decide)).trans (setFwState_takes _ (by decide) _).1
  · exact (hports.regs Reg.CP_STATE (by decide)).trans ((hset.regs Reg.CP_STATE (by decide)).trans hstate)

theorem imageCheck_of_fuses {u : State} (h : u.fuses = s.fuses) (kind place : Nat) (i : List Byte) : imageCheck u kind place i = imageCheck s kind place i := by
  unfold imageCheck
  rw [h]

/-- Does a start find that DRAM was held? -/
def startWarm (s : State) (f : StartFinds) (reason : Nat) : Bool :=
  let reset := if reason == 2 || reason == 3 then resetEntry (s.atTime f.time) else s
  decide ((reason = 1 ∨ reason = 2) ∧ reset.power.dramHeld ∧ !reset.power.fresh ∧ retainedOk reset.dram)

/-- The start that has begun in `b` goes on with the stage 1 of FA, of FB, or with none. -/
def startFromFlash (b : State) (f : StartFinds) (warm : Bool) : State :=
  match imageCheck b 1 0 (flashPart b false).stage1 with
  | none => runStage1 b f (flashPart b false).stage1 warm
  | some e =>
    match imageCheck (imageFails b e) 1 1 (flashPart b true).stage1 with
    | none => runStage1 ((imageFails b e).setF Reg.MBX_S1_FB 0 0 1) f (flashPart b true).stage1 warm
    | some e' => romRecovery (imageFails b e) f e' warm

theorem deviceStart_eq {f : StartFinds} {reason : Nat} (hdue : s.power.startDue = some reason) (hvaux : s.power.vaux = true)
    (hperst : s.power.perstLow = false) (htrip : s.power.tripped = false) (hcp : s.getF Reg.CP_STATE 0 0 ≠ 1) :
    deviceStart s f = startFromFlash (startBegins s reason f.time false) f (startWarm s f reason) := by
  have hgo : (s.getF Reg.CP_STATE 0 0 == 1) = false := beq_eq_false_iff_ne.mpr hcp
  unfold deviceStart
  simp only [hdue, hvaux, hperst, htrip, hgo]
  generalize startBegins s reason f.time false = b
  exact (if_neg (by decide)).trans ((if_neg (by decide)).trans rfl)

theorem deviceStart_idle {f : StartFinds} (h : s.power.startDue = none ∨ s.power.vaux = false ∨ s.power.perstLow = true ∨ s.power.tripped = true) :
    deviceStart s f = s := by
  unfold deviceStart
  cases hdue : s.power.startDue with
  | none => rfl
  | some reason =>
    refine if_pos ?_
    rcases h with h | h | h | h
    · rw [hdue] at h
      cases h
    · exact Or.inl (by simp [h])
    · exact Or.inr (Or.inl h)
    · exact Or.inr (Or.inr h)

theorem Stage1Run.basics {s u : State} {f : StartFinds} {i : List Byte} {warm : Bool} (h : Stage1Run s f i warm u) : Basics s u :=
  h.ready.elim fun _ hready => hready.set.basics

theorem startFromFlash_fa {f : StartFinds} {warm : Bool} (h : imageCheck s 1 0 (flashPart s false).stage1 = none) :
    startFromFlash s f warm = runStage1 s f (flashPart s false).stage1 warm := by simp only [startFromFlash, h]

/-- A start goes on with a run of stage 1, or in ROM_RECOVERY. -/
theorem startFromFlash_basics (f : StartFinds) (warm : Bool) : Basics s (startFromFlash s f warm) := by
  unfold startFromFlash
  split
  · exact (runStage1_runs s f _ warm).basics
  · next e _ =>
    have hfails := (imageFails_keeps s e).basics
    split
    · have hfb : Basics (imageFails s e) ((imageFails s e).setF Reg.MBX_S1_FB 0 0 1) := ⟨rfl, rfl, rfl, Nat.le_refl _⟩
      exact (hfails.trans hfb).trans (runStage1_runs _ f _ warm).basics
    · exact hfails.trans (romRecovery_recovers _ f _ warm).1

theorem startFromFlash_none {f : StartFinds} {warm : Bool} (ha : imageCheck s 1 0 (flashPart s false).stage1 ≠ none)
    (hb : imageCheck s 1 1 (flashPart s true).stage1 ≠ none) :
    fwState (startFromFlash s f warm) = 0 ∧ (startFromFlash s f warm).getF Reg.CP_STATE 0 0 = 1 := by
  unfold startFromFlash
  split
  · next h => exact absurd h ha
  · next e _ =>
    rw [imageCheck_of_fuses s (imageFails_keeps s e).fuses]
    split
    · next h => exact absurd h hb
    · exact (romRecovery_recovers _ f _ warm).2

theorem startWarm_cold {f : StartFinds} {reason : Nat} (h1 : reason ≠ 1) (h2 : reason ≠ 2) : startWarm s f reason = false := by
  simp [startWarm, h1, h2]

end

/-- Settles O52: a start is a chain of parts, each of which keeps the fuses, what is due, and the registers that later parts do not set. -/
theorem startsOfTheDevice : Obligations.StartsOfTheDevice := by
  intro s f p
  have hexec : exec (.deviceStart f) s = .next (deviceStart s f) := rfl
  refine ⟨fun h => hexec.trans (congrArg _ (deviceStart_idle s h)), fun reason hdue hvaux hperst htrip hcp => ⟨deviceStart s f, hexec, ?_⟩⟩
  have hbegun := startBegins_begins s reason f.time false
  have hpart (fb : Bool) : flashPart (startBegins s reason f.time false) fb = flashPart s fb := by simp only [flashPart, hbegun.flash]
  rw [deviceStart_eq s hdue hvaux hperst htrip hcp]
  generalize startBegins s reason f.time false = b at hbegun hpart ⊢
  obtain ⟨hfuses, hdue', hfresh, hnow⟩ := startFromFlash_basics b f (startWarm s f reason)
  refine ⟨hdue'.trans hbegun.due, hfresh.trans hbegun.fresh, hfuses.trans hbegun.fuses, Nat.le_trans hbegun.now hnow, fun ⟨ha, hb⟩ => ?_, fun ha => ?_⟩
  · exact startFromFlash_none b (by rwa [hpart]) (by rwa [hpart])
  · rw [← hpart] at ha ⊢
    rw [startFromFlash_fa b ha]
    obtain ⟨⟨missing, hready⟩, hdecom, hno⟩ := runStage1_runs b f (flashPart b false).stage1 (startWarm s f reason)
    exact ⟨hready.set.image, hready.set.state, hready.lock, hready.set.id, hready.set.count, fun h1 h2 => hready.cold (startWarm_cold s h1 h2),
      hready.wiped, fun h => hdecom ((congrArg Fuses.decom hbegun.fuses).trans h), hno⟩

end Sys2Proof.Machine
end
